-- ==== Sys2Proof/Word.lean ====
section
/-!
DEFINITION. The word types of the model (spec/00 R7, R8).
-/
namespace Sys2Proof

/-- One byte. -/
abbrev Byte := BitVec 8

/-- Fabric time, a count of 2^-16 ns (spec/14 R387, R389): the 78-bit layout holds seconds, nanoseconds and the fraction. -/
abbrev Time := Nat

end Sys2Proof
end

