-- ==== Sys2Proof/Syntax.lean ====
section
/-!
DEFINITION. The commands of the block: one constructor of `Instr` for each row of spec/opcode_table.json, with the
row's operands.  A command that is an event carries the fabric time `t` at which it happens; a write or read of the
dictionary carries the access it comes by.
-/
namespace Sys2Proof

/-- The path a management request comes by (spec/17 R479, R484, R485, R490). -/
inductive Path where
  | pcie
  | smbus
  | dap (slot : Nat)
  | inband (job gen src : Nat)
  deriving DecidableEq, Repr

/-- What a 64-byte block of a stack holds (R234 Table 3): the slot or the bookkeeping of a chunk, the context area of an
operation, the stored frames of a delivered chunk, a copy of a stripe, the scratch area of a graph, a cached spawn block, a
colophon ring entry, a record of the sample buffers, or nothing, in a partition (0 spill, 1 spawn, 2 sample, 3 update). -/
inductive Holds where
  | slot (op inst phase chunk : Nat)
  | book (op inst phase chunk : Nat)
  | area (op : Nat)
  | resend (op inst phase chunk : Nat)
  | stripe (tensor index copy : Nat)
  | scratch (graph : Nat)
  | spawn (job session block : Nat)
  | ring (seq : Nat)
  | sample (kind index : Nat)
  | free (part : Nat)
  deriving DecidableEq, Repr

/-- What a stack's interface meets as it serves a transfer: the bits of the block's stored code word that have flipped since it
was last read, and the transfers of classes R, U, C and S that wait (R229, R238). -/
structure Met where
  upset : BitVec 544
  wait  : List Nat
  deriving DecidableEq, Repr

/-- What a command of a stack carries besides its block and count: the word it names, the bytes that come with it, and what the
interface meets (R227 Table 2). -/
structure Carried where
  word : Nat
  data : BitVec 512
  met  : Met
  deriving DecidableEq, Repr

/-- An owner that is done with a stored frame, and with it the free requests that no owner makes and the cells that have come
onto a free list while in use, each with its die (R266, R275). -/
structure OwnerDone where
  owner  : Nat
  frees  : List (Nat × Nat)
  listed : List (Nat × Nat)
  deriving DecidableEq, Repr

/-- A request's path and its commit time (R475, R476). -/
structure Access where
  t    : Time
  path : Path
  deriving DecidableEq, Repr

/-- A PEER frame as received (R488): its source GEI, job tag and MAC. -/
structure Peer where
  src : Nat
  job : Nat
  mac : BitVec 128
  deriving DecidableEq, Repr

/-- A collective frame as delivered at this device: the switch die that resolved it, its ingress port (0xFFFF when the
device delivered it to itself) and stamp, source GEI, job tag and generation. -/
structure Cf where
  die   : Nat
  port  : Nat
  stamp : Time
  src   : Nat
  job   : Nat
  gen   : Nat
  deriving DecidableEq, Repr

/-- An IEEE 1588-2019 message (spec/14 R398 Table 2) by its fields: messageType, domainNumber, twoStepFlag, whether it came
over UDP, correctionField in 2^-16 ns, sourcePortIdentity, sequenceId, the timestamp of its body as a count of 2^-16 ns,
requestingPortIdentity, logMessageInterval, and the data set an Announce carries: grandmasterPriority1, quality (class,
accuracy, variance), grandmasterPriority2, grandmasterIdentity, stepsRemoved, currentUtcOffset. -/
structure Ptp where
  kind    : Nat
  domain  : Nat
  twoStep : Bool := false
  udp     : Bool := false
  corr    : Int := 0
  src     : Nat
  seq     : Nat := 0
  stamp   : Nat := 0
  req     : Nat := 0
  logInt  : Int := 0
  prio1   : Nat := 0
  quality : Nat := 0
  prio2   : Nat := 0
  gm      : Nat := 0
  steps   : Nat := 0
  utc     : Int := 0
  deriving DecidableEq, Repr

/-- The commands: one constructor per row of spec/opcode_table.json. -/
inductive Instr where
  /-- DICT_WRITE, R475. -/
  | dictWrite (a : Access) (entry first count : Nat) (data : List Byte)
  /-- MESSAGE_EXECUTE, R476. -/
  | messageExecute (t : Time) (versions halted : Bool)
  /-- DAP_REQUEST, R479. -/
  | dapRequest (t : Time) (port addr udpPort : Nat) (bytes : List Byte)
  /-- NOTICE_ACK, R493. -/
  | noticeAck (t : Time) (src : Option Nat) (bytes : List Byte)
  /-- NOTICE_PUSH, R493. -/
  | noticePush (t : Time) (queue : Nat)
  /-- NOTICE_RESEND, R493. -/
  | noticeResend (t : Time) (queue : Nat)
  /-- NQ_POP, R493. -/
  | nqPop (a : Access) (queue : Nat)
  /-- NQ_CONFIG, R492. -/
  | nqConfig (a : Access) (queue : Nat) (record : BitVec 256)
  /-- MBX_DOORBELL, R484. -/
  | mbxDoorbell (t : Time) (request : List Byte)
  /-- MBX_CLEAR, R484. -/
  | mbxClear (t : Time)
  /-- NRING_TAIL, R484. -/
  | nringTail (t : Time) (offset value : Nat)
  /-- NRING_WRITE, R484. -/
  | nringWrite (t : Time)
  /-- PERST_N, R551. -/
  | perstN (t : Time)
  /-- SMBUS_STATUS, R485. -/
  | smbusStatus (t : Time)
  /-- SMBUS_REQUEST_FRAGMENT, R485. -/
  | smbusRequestFragment (t : Time) (pec : Bool) (offset : Nat) (bytes : List Byte)
  /-- SMBUS_EXECUTE, R485. -/
  | smbusExecute (t : Time) (pec : Bool) (length : Nat)
  /-- SMBUS_STATE_READ, R485. -/
  | smbusStateRead (t : Time)
  /-- SMBUS_RESPONSE_OFFSET, R485. -/
  | smbusResponseOffset (t : Time) (pec : Bool) (offset : Nat)
  /-- SMBUS_RESPONSE_READ, R485. -/
  | smbusResponseRead (t : Time)
  /-- DICT_INBAND_REQUEST, R490. -/
  | dictInbandRequest (t : Time) (src job gen : Nat) (bytes : List Byte)
  /-- CONFIG_LOCK, R477. -/
  | configLock (a : Access) (value : Nat)
  /-- KEY_WRITE, R496. -/
  | keyWrite (a : Access) (record : BitVec 384)
  /-- ENTRY_QUERY, R472. -/
  | entryQuery (a : Access) (record : BitVec 128)
  /-- FW_STAGE, R499. -/
  | fwStage (a : Access) (data : List Byte)
  /-- FW_COMMIT, R499. -/
  | fwCommit (a : Access) (len : Nat)
  /-- FW_VERIFY_DONE, R499. -/
  | fwVerifyDone (t : Time) (shape signed : Bool) (svn version : Nat)
  /-- FW_SVN_COMMIT, R499. -/
  | fwSvnCommit (a : Access) (value : Nat)
  /-- ATTEST_NONCE, R500. -/
  | attestNonce (a : Access) (nonce : BitVec 256)
  /-- ATTEST_REPORT_READ, R500. -/
  | attestReportRead (a : Access)
  /-- COLOPHON_EXPORT_REQ, R501. -/
  | colophonExportReq (a : Access) (record : BitVec 808)
  /-- COLOPHON_EXPORT_READ, R501. -/
  | colophonExportRead (a : Access)
  /-- KEY_ROTATE, R502. -/
  | keyRotate (a : Access) (value : Nat)
  /-- KEY_PERIOD_EXPIRY, R502. -/
  | keyPeriodExpiry (t : Time)
  /-- PEER_PREPARE_REGISTRATION, R66. -/
  | peerPrepareRegistration (t : Time) (p : Peer) (body : List Byte)
  /-- PEER_PREPARE_HSET_EXCLUDE, R70. -/
  | peerPrepareHsetExclude (t : Time) (p : Peer) (body : List Byte)
  /-- PEER_PREPARE_DEREGISTER, R69. -/
  | peerPrepareDeregister (t : Time) (p : Peer) (body : List Byte)
  /-- PEER_PREPARE_TENSOR_CREATE, R168. -/
  | peerPrepareTensorCreate (t : Time) (p : Peer) (body : List Byte)
  /-- PEER_PREPARE_TENSOR_DESTROY, R168. -/
  | peerPrepareTensorDestroy (t : Time) (p : Peer) (body : List Byte)
  /-- PEER_PREPARE_GRAPH, R173. -/
  | peerPrepareGraph (t : Time) (p : Peer) (body : List Byte)
  /-- PEER_PREPARE_GRAPH_CONTROL, R193. -/
  | peerPrepareGraphControl (t : Time) (p : Peer) (body : List Byte)
  /-- PEER_PREPARE_SUBNORMAL, R201. -/
  | peerPrepareSubnormal (t : Time) (p : Peer) (body : List Byte)
  /-- PEER_PREPARE_PARITY_GROUP, R433. -/
  | peerPrepareParityGroup (t : Time) (p : Peer) (body : List Byte)
  /-- PEER_PREPARE_PARITY_DELETE, R433. -/
  | peerPrepareParityDelete (t : Time) (p : Peer) (body : List Byte)
  /-- PEER_VOTE, R66. -/
  | peerVote (t : Time) (p : Peer) (body : List Byte)
  /-- PEER_COMMIT, R66. -/
  | peerCommit (t : Time) (p : Peer) (body : List Byte)
  /-- PEER_RELEASE, R66. -/
  | peerRelease (t : Time) (p : Peer) (body : List Byte)
  /-- PREPARE_TIMEOUT, R66. -/
  | prepareTimeout (t : Time) (xid : Nat)
  /-- REGISTER, R63. -/
  | register (a : Access) (record : List Byte)
  /-- REGISTER_FRAME, R64. -/
  | registerFrame (t : Time) (f : Cf) (header : BitVec 256) (record : List Byte)
  /-- DEREGISTER, R69. -/
  | deregister (a : Access) (op : Nat)
  /-- HSET_EXCLUDE, R70. -/
  | hsetExclude (a : Access) (record : BitVec 64)
  /-- HOME_QUERY, R77. -/
  | homeQuery (a : Access) (record : BitVec 128)
  /-- CONTRIB, R82. -/
  | contrib (t : Time) (f : Cf) (header : BitVec 384) (payload : List Byte) (upset : Bool)
  /-- CHUNK_COMPLETION, R154. -/
  | chunkCompletion (t : Time) (op inst phase chunk : Nat) (ups : List (Nat × Nat)) (bad : Nat)
  /-- COLOPHON_EMIT, R157. -/
  | colophonEmit (t : Time) (die : Nat)
  /-- COUNT_RESULT, R90. -/
  | countResult (t : Time) (f : Cf) (header : BitVec 384) (payload : List Byte)
  /-- REFUSE_CHECK_FAILED, R107. -/
  | refuseCheckFailed (t : Time) (f : Cf) (header : BitVec 256)
  /-- BEACON, R133. -/
  | beacon (t : Time) (f : Cf) (header : BitVec 256)
  /-- THROTTLE, R133. -/
  | throttle (t : Time) (f : Cf) (header : BitVec 256)
  /-- MEMBER_ABORT, R573. -/
  | memberAbort (t : Time) (f : Cf) (header : BitVec 256)
  /-- DONE, R96. -/
  | done (t : Time) (f : Cf) (header : BitVec 256)
  /-- COLLECTIVE_MISDIRECTED, R573. -/
  | collectiveMisdirected (t : Time) (f : Cf) (body : List Byte)
  /-- TALLY_DEADLINE, R97. -/
  | tallyDeadline (t : Time) (op inst : Nat)
  /-- EXCHANGE_COMPLETION, R574. -/
  | exchangeCompletion (t : Time) (p : Peer) (body : List Byte)
  /-- COMPLETE_SEND, R93. -/
  | completeSend (t : Time) (op inst : Nat)
  /-- ABORT_RELAY, R425. -/
  | abortRelay (t : Time) (p : Peer) (body : List Byte)
  /-- STALL_TENTATIVE, R134. -/
  | stallTentative (t : Time) (op inst rank : Nat)
  /-- STALL_SETTLE, R134. -/
  | stallSettle (t : Time) (op inst : Nat)
  /-- PREREDUCE_CONTRIB, R88. -/
  | prereduceContrib (t : Time) (frame : Nat)
  /-- PR_HOLD_EXPIRY, R88. -/
  | prHoldExpiry (t : Time)
  /-- PR_WRITE, R88. -/
  | prWrite (a : Access) (record : BitVec 128)
  /-- WINDOW_ANCHOR, R36. -/
  | windowAnchor (a : Access) (ctx value : Nat)
  /-- TRAP_VALID, R49. -/
  | trapValid (a : Access) (value : Nat)
  /-- SLOT_COUNT_PUBLISH, R116. -/
  | slotCountPublish (t : Time) (die : Nat)
  /-- STEERED_FORWARD, R116. -/
  | steeredForward (t : Time)
  /-- SPILL_COPY_DONE, R130. -/
  | spillCopyDone (t : Time) (op inst phase chunk : Nat)
  /-- DEFERRED_REOPEN, R129. -/
  | deferredReopen (t : Time) (die : Nat)
  /-- BYPASS_REFUSED, R128. -/
  | bypassRefused (t : Time) (p : Peer) (body : List Byte)
  /-- BYPASS_EMITTED, R128. -/
  | bypassEmitted (t : Time) (p : Peer) (body : List Byte)
  /-- BYPASS_RECOMPUTE, R155. -/
  | bypassRecompute (t : Time) (p : Peer) (body : List Byte)
  /-- BYPASS_RESTART, R86. -/
  | bypassRestart (t : Time) (p : Peer) (body : List Byte)
  /-- MEMBER_QUERY, R137. -/
  | memberQuery (a : Access) (record : BitVec 256)
  /-- WEIGHT_QUERY, R147. -/
  | weightQuery (a : Access) (record : BitVec 192)
  /-- TENSOR_CREATE, R167. -/
  | tensorCreate (a : Access) (record : BitVec 256)
  /-- TENSOR_DESTROY, R168. -/
  | tensorDestroy (a : Access) (handle : Nat)
  /-- TENSOR_IO, R172. -/
  | tensorIo (a : Access) (data : List Byte)
  /-- TENSOR_QUERY, R170. -/
  | tensorQuery (a : Access) (record : BitVec 128)
  /-- GRAPH_STAGE, R173. -/
  | graphStage (a : Access) (data : List Byte)
  /-- GRAPH_COMMIT, R173. -/
  | graphCommit (a : Access) (len : Nat)
  /-- GRAPH_RESUME, R193. -/
  | graphResume (a : Access) (id : Nat)
  /-- GRAPH_REMOVE, R193. -/
  | graphRemove (a : Access) (id : Nat)
  /-- CONST_WRITE, R184. -/
  | constWrite (a : Access) (data : List Byte)
  /-- NODE_QUERY, R195. -/
  | nodeQuery (a : Access) (record : BitVec 128)
  /-- RUN_START, R175. -/
  | runStart (t : Time) (slot : Nat)
  /-- STRIPE_OPEN, R177. -/
  | stripeOpen (t : Time) (slot die stage group stripe : Nat)
  /-- TASK_ISSUE, R180. -/
  | taskIssue (t : Time) (slot die : Nat)
  /-- TASK_COMPLETE, R179. -/
  | taskComplete (t : Time) (slot node index : Nat)
  /-- UPDATE_ENGINE_IDLE, R180. -/
  | updateEngineIdle (t : Time) (die : Nat)
  /-- EXCHANGE_COLLECT_SUM, R188. -/
  | exchangeCollectSum (t : Time) (p : Peer) (body : List Byte)
  /-- EXCHANGE_COLLECT_MAX, R188. -/
  | exchangeCollectMax (t : Time) (p : Peer) (body : List Byte)
  /-- FENCE_REPORT, R189. -/
  | fenceReport (t : Time) (p : Peer) (body : List Byte)
  /-- FENCE_LIMIT_EXPIRY, R189. -/
  | fenceLimitExpiry (t : Time) (slot : Nat)
  /-- PUBLISH_RESEND, R192. -/
  | publishResend (t : Time) (f : Cf) (body : List Byte)
  /-- UPDATE_HELD_RESULT, R178. -/
  | updateHeldResult (t : Time) (p : Peer) (body : List Byte)
  /-- UPDATE_COMMITTED_STRIPE, R438. -/
  | updateCommittedStripe (t : Time) (p : Peer) (body : List Byte)
  /-- SUBNORMAL_SET, R201. -/
  | subnormalSet (a : Access) (record : BitVec 64)
  /-- TILE_ISSUE, R207. -/
  | tileIssue (t : Time) (array : Nat)
  /-- TILE_COMPLETE, R211. -/
  | tileComplete (t : Time) (array row col : Nat) (wrong : List (Nat × Nat × Nat)) (epi : Bool) (line stalls : Nat)
  /-- ARRAY_IDLE_STOP, R215. -/
  | arrayIdleStop (t : Time) (array : Nat)
  /-- STACK_COMMAND_DONE, R227. -/
  | stackCommandDone (t : Time) (stack cmd block count retries : Nat) (failed : Bool) (carried : Carried) (holds : Holds)
  /-- SCRUB_STEP, R233. -/
  | scrubStep (t : Time) (stack : Nat) (met : Met) (holds : Holds)
  /-- STACK_TEMP_SAMPLE, R235. -/
  | stackTempSample (t : Time) (stack : Nat) (temp : Int)
  /-- PART_REQUEST, R222. -/
  | partRequest (a : Access) (record : BitVec 64)
  /-- MFT_FRAME_RECEIVE, R243. -/
  | mftFrameReceive (t : Time) (port : Nat) (first : Byte) (bytes : List Byte) (staged buffered : Nat) (upsets : List (Nat × Nat))
  /-- ETH_FRAME_RECEIVE, R247. -/
  | ethFrameReceive (t : Time) (port : Nat) (bytes : List Byte) (staged buffered : Nat) (upsets : List (Nat × Nat))
  /-- ORIGIN_CELL_RETRY, R268. -/
  | originCellRetry (t : Time)
  /-- SCHEDULER_PICK, R288. -/
  | schedulerPick (t : Time) (port : Nat)
  /-- FRAME_TRANSMITTED, R267. -/
  | frameTransmitted (t : Time) (frame : Nat) (done : OwnerDone)
  /-- CREDIT_RECEIVE, R269. -/
  | creditReceive (t : Time) (port : Nat) (body : BitVec 192)
  /-- CREDIT_SEND, R269. -/
  | creditSend (t : Time) (port : Nat)
  /-- HELLO_RECEIVE, R271. -/
  | helloReceive (t : Time) (port : Nat) (body : BitVec 192)
  /-- HELLO_SEND, R271. -/
  | helloSend (t : Time) (port : Nat)
  /-- LOAD_SUMMARY, R255. -/
  | loadSummary (t : Time) (die : Nat)
  /-- SPRAY_WRITE, R254. -/
  | sprayWrite (a : Access) (data : List Byte)
  /-- CIRCUIT_WRITE, R256. -/
  | circuitWrite (a : Access) (record : BitVec 128)
  /-- MCAST_WRITE, R262. -/
  | mcastWrite (a : Access) (data : List Byte)
  /-- VERSION_RETIRE, R272. -/
  | versionRetire (t : Time) (table index : Nat)
  /-- DRAIN_SLOW, R272. -/
  | drainSlow (t : Time) (table index : Nat)
  /-- PCS_LINK_FAULT, R274. -/
  | pcsLinkFault (t : Time) (port : Nat)
  /-- PORT_DOWN_HOLD_EXPIRY, R274. -/
  | portDownHoldExpiry (t : Time) (port : Nat)
  /-- PORT_UP, R274. -/
  | portUp (t : Time) (port : Nat)
  /-- PORT_ADMIN, R274. -/
  | portAdmin (a : Access) (port value : Nat)
  /-- SHAPER_WRITE, R282. -/
  | shaperWrite (a : Access) (record : BitVec 128)
  /-- WHEEL_SLOT, R287. -/
  | wheelSlot (t : Time) (port : Nat)
  /-- POLICER_WRITE, R290. -/
  | policerWrite (a : Access) (record : BitVec 64)
  /-- GATE_WRITE, R295. -/
  | gateWrite (a : Access) (data : List Byte)
  /-- GATE_LIST_ACTIVE, R296. -/
  | gateListActive (t : Time) (port : Nat)
  /-- GATE_TRANSITION, R296. -/
  | gateTransition (t : Time) (port : Nat)
  /-- GROUP_CHANGE, R297. -/
  | groupChange (a : Access) (value : Nat)
  /-- GROUP_CYCLE, R297. -/
  | groupCycle (a : Access) (value : Nat)
  /-- SAMPLE_PERIOD_END, R280. -/
  | samplePeriodEnd (t : Time)
  /-- GEI_EXACT_WRITE, R303. -/
  | geiExactWrite (a : Access) (record : BitVec 64)
  /-- GEI_QUERY, R302. -/
  | geiQuery (a : Access) (record : BitVec 64)
  /-- ADDR_MODE, R304. -/
  | addrMode (a : Access) (value : Nat)
  /-- ADDR_WRITE, R311. -/
  | addrWrite (a : Access) (record : BitVec 128)
  /-- ADDR_QUERY, R304. -/
  | addrQuery (a : Access) (record : BitVec 128)
  /-- ADDR_FLUSH, R314. -/
  | addrFlush (a : Access) (record : BitVec 64)
  /-- LEARN_POP, R310. -/
  | learnPop (a : Access)
  /-- LEARN_PROPAGATE, R309. -/
  | learnPropagate (t : Time) (die vid mac hop : Nat)
  /-- AGE_SWEEP, R312. -/
  | ageSweep (t : Time) (die : Nat)
  /-- PREFIX_WRITE, R319. -/
  | prefixWrite (a : Access) (record : BitVec 192)
  /-- PREFIX_APPLIED, R319. -/
  | prefixApplied (t : Time)
  /-- NEXTHOP_WRITE, R316. -/
  | nexthopWrite (a : Access) (record : BitVec 128)
  /-- LPM_QUERY, R318. -/
  | lpmQuery (a : Access) (record : BitVec 192)
  /-- PARITY_SCRUB, R320. -/
  | parityScrub (t : Time) (die : Nat) (found : List (Nat × Nat))
  /-- FILTER_REBUILD, R321. -/
  | filterRebuild (t : Time) (die family index : Nat)
  /-- FIBER_MODE, R327. -/
  | fiberMode (a : Access) (fiber value : Nat)
  /-- NARROW_EN, R341. -/
  | narrowEn (a : Access) (port value : Nat)
  /-- BER_MEASURE, R329. -/
  | berMeasure (t : Time) (port ber corrected uncorrected : Nat)
  /-- LASER_POLL, R333. -/
  | laserPoll (t : Time) (laser : Nat) (answers present on : Bool) (alarm : Nat) (powers : List Int) (tones : List Nat)
  /-- LASER_ENABLE, R333. -/
  | laserEnable (a : Access) (laser value : Nat)
  /-- LM_INT, R565. -/
  | lmInt (t : Time) (bus : Nat) (reads : List (Bool × Bool × Nat × List Int × List Nat))
  /-- LM_BUS_STUCK, R565. -/
  | lmBusStuck (t : Time) (bus : Nat) (low : Bool)
  /-- LM_BUS_RETRY, R565. -/
  | lmBusRetry (t : Time) (bus found : Nat)
  /-- LIGHT_PRESENT, R340. -/
  | lightPresent (t : Time) (ring : Nat)
  /-- LIGHT_LOST, R340. -/
  | lightLost (t : Time) (ring : Nat)
  /-- SWEEP_DONE, R340. -/
  | sweepDone (t : Time) (ring : Nat) (found : List Nat)
  /-- PILOT_WINDOW, R335. -/
  | pilotWindow (t : Time) (ring tone heater : Nat)
  /-- IDENTIFY_TIMEOUT, R340. -/
  | identifyTimeout (t : Time) (ring : Nat)
  /-- RING_LOCK_LOST, R339. -/
  | ringLockLost (t : Time) (ring : Nat)
  /-- RING_RETRY, R340. -/
  | ringRetry (a : Access) (ring : Nat)
  /-- CAL_SLOT_START, R344. -/
  | calSlotStart (t : Time)
  /-- NARROW_DEADLINE, R343. -/
  | narrowDeadline (t : Time) (port : Nat)
  /-- CAL_DONE, R344. -/
  | calDone (t : Time) (chan txCode txTone rxCode rxTone : Nat)
  /-- NARROW_RETURN, R343. -/
  | narrowReturn (t : Time) (port : Nat)
  /-- MONITOR_READ, R347. -/
  | monitorRead (t : Time) (engine : Nat) (readings : List (Nat × Nat × Int))
  /-- BYPASS_CREATE, R352. -/
  | bypassCreate (a : Access) (record : BitVec 64)
  /-- BYPASS_DELETE, R353. -/
  | bypassDelete (a : Access) (record : BitVec 64)
  /-- BYPASS_LOSS_MEASURE, R354. -/
  | bypassLossMeasure (t : Time) (circuit : Nat) (loss : Int)
  /-- ENGINE_DISCOVERY, R357. -/
  | engineDiscovery (t : Time) (engine : Nat) (record : BitVec 512) (sideband : Bool)
  /-- MODULE_TRAINED, R366. -/
  | moduleTrained (t : Time) (module rate width : Nat) (upper : Bool) (repairs : Nat)
  /-- MODULE_TRAIN_TIMEOUT, R366. -/
  | moduleTrainTimeout (t : Time) (module : Nat)
  /-- FAILED_LANE, R365. -/
  | failedLane (t : Time) (module replays : Nat)
  /-- MODULE_RETRAIN, R371. -/
  | moduleRetrain (a : Access) (module : Nat)
  /-- WIDTH_EXCHANGE, R372. -/
  | widthExchange (t : Time) (module reset widthS widthE : Nat)
  /-- STITCH_NAK, R374. -/
  | stitchNak (t : Time) (pair ch flits : Nat)
  /-- CHANNEL_TEST_START, R376. -/
  | channelTestStart (t : Time) (pair ch : Nat)
  /-- CHANNEL_TEST_DONE, R376. -/
  | channelTestDone (t : Time) (pair ch : Nat) (wires : List Nat)
  /-- RING_ENTRY_WAIT, R380. -/
  | ringEntryWait (t : Time) (quire : Nat)
  /-- TIME_SYNC, R390. -/
  | timeSync (t : Time)
  /-- TIME_FRAME_SEND, R399. -/
  | timeFrameSend (t : Time) (port : Nat)
  /-- TIME_FRAME_RECEIVE, R400. -/
  | timeFrameReceive (t : Time) (port : Nat) (body : BitVec 192)
  /-- PTP_MESSAGE, R398. -/
  | ptpMessage (t : Time) (port : Nat) (m : Ptp)
  /-- PARENT_TIMEOUT, R401. -/
  | parentTimeout (t : Time)
  /-- STEP_ARM, R396. -/
  | stepArm (a : Access) (value : Nat)
  /-- GROUP_SYNC_EMIT, R404. -/
  | groupSyncEmit (t : Time)
  /-- GROUP_SYNC_WORD, R405. -/
  | groupSyncWord (t : Time) (word : BitVec 48)
  /-- TREF_IN_LOST, R405. -/
  | trefInLost (t : Time)
  /-- TPO_CONFIG, R406. -/
  | tpoConfig (a : Access) (output : Nat) (record : BitVec 160)
  /-- TPO_EDGE, R406. -/
  | tpoEdge (t : Time) (output : Nat)
  /-- TCAP_EDGE, R407. -/
  | tcapEdge (t : Time) (input : Nat) (falling : Bool)
  /-- TCAP_POP, R407. -/
  | tcapPop (a : Access) (input : Nat)
  /-- HEALTH_FLIT_ABSENT, R412. -/
  | healthFlitAbsent (t : Time) (die : Nat)
  /-- HEALTH_FLIT_FATAL, R412. -/
  | healthFlitFatal (t : Time) (die : Nat)
  /-- MIGRATION_DONE, R421. -/
  | migrationDone (t : Time) (slot : Nat)
  /-- HS_BEAT_SEND, R414. -/
  | hsBeatSend (t : Time)
  /-- HS_BEAT, R414. -/
  | hsBeat (t : Time) (p : Peer) (body : List Byte)
  /-- PEER_LOST, R416. -/
  | peerLost (t : Time) (gei : Nat)
  /-- EXCHANGE_HSET_VER, R415. -/
  | exchangeHsetVer (t : Time) (p : Peer) (body : List Byte)
  /-- KEEPER_TAKEOVER, R430. -/
  | keeperTakeover (t : Time) (fatal : Bool)
  /-- KEEPER_SWITCH, R430. -/
  | keeperSwitch (a : Access) (value : Nat)
  /-- KEEPER_REJOIN, R432. -/
  | keeperRejoin (a : Access) (value : Nat)
  /-- KEEPER_REJOINED, R432. -/
  | keeperRejoined (t : Time)
  /-- PARITY_CREATE, R433. -/
  | parityCreate (a : Access) (record : BitVec 384)
  /-- PARITY_DELETE, R433. -/
  | parityDelete (a : Access) (record : BitVec 32)
  /-- PARITY_QUERY, R437. -/
  | parityQuery (a : Access) (record : BitVec 128)
  /-- PARITY_DONE, R436. -/
  | parityDone (t : Time) (p : Peer) (body : List Byte)
  /-- PARITY_COMMITTED, R436. -/
  | parityCommitted (t : Time) (p : Peer) (body : List Byte)
  /-- PARITY_ABORTED, R436. -/
  | parityAborted (t : Time) (p : Peer) (body : List Byte)
  /-- PARITY_WAIT_EXPIRY, R436. -/
  | parityWaitExpiry (t : Time) (job group : Nat)
  /-- REBUILD_START, R438. -/
  | rebuildStart (a : Access) (record : BitVec 64) (versions halted : Bool)
  /-- REBUILD_DONE, R438. -/
  | rebuildDone (t : Time) (failed : Bool) (version : Nat) (layout : List (Nat × Nat × Nat × Nat))
  /-- COARSE_FILL, R439. -/
  | coarseFill (a : Access) (record : BitVec 128)
  /-- JOB_START, R446. -/
  | jobStart (a : Access) (record : BitVec 512)
  /-- JOB_RETIRE, R452. -/
  | jobRetire (a : Access) (record : BitVec 32)
  /-- JOB_ADVANCE, R456. -/
  | jobAdvance (a : Access) (record : BitVec 32)
  /-- JOB_WITHDRAW, R469. -/
  | jobWithdraw (a : Access) (tag : Nat)
  /-- JOB_QUERY, R446. -/
  | jobQuery (a : Access) (record : BitVec 256)
  /-- JOB_QUOTA, R469. -/
  | jobQuota (a : Access) (record : BitVec 512)
  /-- PENDING_LIMIT_EXPIRY, R444. -/
  | pendingLimitExpiry (t : Time) (tag : Nat)
  /-- JOB_RETIRED, R453. -/
  | jobRetired (t : Time) (tag : Nat)
  /-- RETIRE_SLOW, R452. -/
  | retireSlow (t : Time) (tag : Nat)
  /-- QUARANTINE_END, R455. -/
  | quarantineEnd (t : Time) (tag : Nat)
  /-- SPAWN_OPEN, R459. -/
  | spawnOpen (a : Access) (record : BitVec 384)
  /-- SPAWN_CLOSE, R467. -/
  | spawnClose (a : Access) (record : BitVec 32)
  /-- SPAWN_QUERY, R466. -/
  | spawnQuery (a : Access) (record : BitVec 256)
  /-- SPAWN_BLOCK, R461. -/
  | spawnBlock (t : Time) (f : Cf) (body : List Byte)
  /-- SPAWN_RANGE_REQ, R462. -/
  | spawnRangeReq (t : Time) (f : Cf) (body : List Byte)
  /-- SPAWN_ACK, R464. -/
  | spawnAck (t : Time) (f : Cf) (body : List Byte)
  /-- SPAWN_REPARENT, R465. -/
  | spawnReparent (t : Time) (f : Cf) (body : List Byte)
  /-- SPAWN_ADOPTED, R465. -/
  | spawnAdopted (t : Time) (f : Cf) (body : List Byte)
  /-- SPAWN_NACK, R462. -/
  | spawnNack (t : Time) (f : Cf) (body : List Byte)
  /-- SPAWN_GAP_TIMER, R462. -/
  | spawnGapTimer (t : Time) (job session : Nat)
  /-- COUNTER_VALUE, R508. -/
  | counterValue (a : Access) (el value : Nat)
  /-- COUNTER_SELECT, R509. -/
  | counterSelect (a : Access) (el : Nat) (record : BitVec 128)
  /-- COUNTER_WRAP, R508. -/
  | counterWrap (t : Time) (el amount : Nat)
  /-- SNAPSHOT_INSTANT, R512. -/
  | snapshotInstant (t : Time) (written : Bool)
  /-- SAMPLER, R516. -/
  | sampler (a : Access) (el : Nat) (record : BitVec 128)
  /-- SAMPLE_TAKEN, R516. -/
  | sampleTaken (t : Time) (kind source buffered : Nat) (record : BitVec 512)
  /-- POWER_ON, R534. -/
  | powerOn (t : Time)
  /-- VAON_LOST, R557. -/
  | vaonLost (t : Time)
  /-- RESET_N_ASSERT, R534. -/
  | resetNAssert (t : Time)
  /-- RESET_N_RELEASE, R554. -/
  | resetNRelease (t : Time) (straps : Nat)
  /-- RESET_DEVICE, R534. -/
  | resetDevice (a : Access) (value : Nat)
  /-- STARTUP_STEP_DONE, R532. -/
  | startupStepDone (t : Time) (verified : List Nat) (differs : Bool) (dies arrays : List Nat) (walk : List (Nat × Nat × List Nat)) (walkUs : Nat) (badStacks : List Nat)
  /-- STARTUP_RETRY, R533. -/
  | startupRetry (t : Time)
  /-- DIE_RESET, R536. -/
  | dieReset (a : Access) (die : Nat)
  /-- DIE_RESET_DONE, R536. -/
  | dieResetDone (t : Time) (die : Nat) (maps : List (Nat × Nat × List Nat × List Nat))
  /-- VIN_WARNING_ENTER, R539. -/
  | vinWarningEnter (t : Time) (vin : Nat)
  /-- VIN_WARNING_EXIT, R540. -/
  | vinWarningExit (t : Time) (vin : Nat)
  /-- VIN_RESET_ENTER, R538. -/
  | vinResetEnter (t : Time)
  /-- VIN_RESET_EXIT, R538. -/
  | vinResetExit (t : Time)
  /-- POWER_MEASURE, R526. -/
  | powerMeasure (t : Time) (vin vaon vio power : Nat) (classes : List Nat)
  /-- REGULATOR_FAULT, R527. -/
  | regulatorFault (t : Time) (die left : Nat) (carries : Bool)
  /-- REFCLK_FAILOVER, R529. -/
  | refclkFailover (t : Time) (input : Nat)
  /-- REFCLK_HOLD_EXPIRY, R529. -/
  | refclkHoldExpiry (t : Time)
  /-- REFCLK_SEL, R529. -/
  | refclkSel (a : Access) (value : Nat)
  /-- SWITCH_CLOCK_IDLE, R530. -/
  | switchClockIdle (t : Time) (die : Nat)
  /-- KEEPER_CORE_IDLE, R531. -/
  | keeperCoreIdle (t : Time)
  /-- TEMP_SAMPLE, R544. -/
  | tempSample (t : Time) (dies base photonic comp : List (Nat × Int))
  /-- JTAG_INSTRUCTION, R564. -/
  | jtagInstruction (t : Time) (instr data pins : Nat)
  /-- GROUP_WORD_MISSING, R405. -/
  | groupWordMissing (t : Time)
  /-- LINK_FAULT_CLEARED, R274. -/
  | linkFaultCleared (t : Time) (port : Nat)
  /-- REFCLK_RESTORED, R529. -/
  | refclkRestored (t : Time) (input : Nat)
  /-- DIE_RECOVERABLE_FAULT, R536. -/
  | dieRecoverableFault (t : Time) (die : Nat)
  /-- MGMT_PORT_LINK_CHANGE, R401. -/
  | mgmtPortLinkChange (t : Time) (port : Nat) (up : Bool)
  /-- PTP_MESSAGE_SEND, R398. -/
  | ptpMessageSend (t : Time) (port kind : Nat)
  /-- VIO_RANGE_CHANGE, R557. -/
  | vioRangeChange (t : Time) (inside : Bool)
  deriving DecidableEq, Repr

end Sys2Proof
end

