-- ==== Sys2Proof/Decode.lean ====
section
/-!
DEFINITION. The command a word spells by the opcode table's bits.
-/
namespace Sys2Proof

/-- spec/opcode_table.json gives no row of this block any bits: no word spells a command (log 5). -/
def decodeTableWord (_nbits _w : Nat) : Option Instr := none

end Sys2Proof
end

