-- ==== Sys2Proof/Machine/StateNet.lean ====
section
/-!
DEFINITION. The records State holds for the switch dies, traffic control and the forwarding tables
(spec/09, spec/10, spec/11).
-/
namespace Sys2Proof.Machine

/-- A table by number: pairs in strictly rising order of their number, none holding the table's empty value. -/
abbrev Tab (α : Type) := List (Nat × α)

/-- The base header of an MFT frame (R243 Table 1) but for the fields its other parts fix (MVER, HOPS, LENGTH). -/
structure Hdr where
  ptype    : Nat
  tc       : Nat := 0
  cclass   : Bool := false
  ect      : Bool := false
  ce       : Bool := false
  detoured : Bool := false
  mcast    : Bool := false
  dest     : Nat
  src      : Nat
  job      : Nat
  gen      : Nat
  deriving DecidableEq, Repr

/-- An MFT frame: base header, route stack entries (R248) and the bytes after the route stack. -/
structure Mft where
  hdr  : Hdr
  hops : List Nat
  body : List Byte
  deriving DecidableEq, Repr

/-- What a cell buffer holds: an MFT frame, or an Ethernet frame as its bytes. -/
inductive Packet where
  | mft (f : Mft)
  | eth (bytes : List Byte) (tc : Nat)
  deriving DecidableEq, Repr

/-- A table version a frame holds (R272): table 0 spray, 1 circuit, 2 multicast; the entry's index; the version. -/
structure Held where
  table : Nat
  index : Nat
  ver   : Nat
  deriving DecidableEq, Repr

/-- How a queued frame came to its port (R274 step 1): by a spray group, by naming the port, or by a circuit.
`hop` is the hop entry that failed resolution would report. -/
inductive Via where
  | spray (group : Nat)
  | port (dp : Bool)
  | circuit (index : Nat)
  deriving DecidableEq, Repr

/-- A frame in the cells of a switch die (R258, R265, R267). -/
structure Stored where
  id      : Nat
  die     : Nat
  pool    : Nat
  cells   : List Nat
  owners  : List Nat
  localOwner : Bool
  inPort  : Nat
  stamp   : Time
  packet  : Packet
  held    : List Held
  copy    : Bool
  credit  : Bool
  deriving DecidableEq, Repr

/-- A descriptor in an egress queue (R260, R279). -/
structure Desc where
  frame   : Nat
  len     : Nat
  cls     : Nat
  entered : Time
  via     : Via
  hop     : Nat
  hopsIn  : Nat
  waited  : Bool := false
  marked  : Bool := false
  detoured : Bool := false
  deriving DecidableEq, Repr

/-- A token bucket (R284): tokens in 2^-16 byte, remainder, time of last refill, rate in Mb/s, burst in bytes. -/
structure Bucket where
  tok   : Int := 0
  rem   : Nat := 0
  t     : Time := 0
  rate  : Nat := 0
  burst : Nat := 65536
  deriving DecidableEq, Repr

/-- A class or collective queue of a port (R278-R289).  `shaper` is the record of R282 Table 2 in force; while a wheel entry
stands the queue keeps the state it was entered in, HELD or else EXCESS. -/
structure Queue where
  descs   : List Desc := []
  shaper  : BitVec 128
  cb      : Bucket := {}
  pb      : Bucket := {}
  wheel   : Option Time := none
  stopped : Bool := false
  deficit : Nat := 0
  maxNow  : Nat := 0
  sumNow  : Nat := 0
  cntNow  : Nat := 0
  deriving DecidableEq, Repr

/-- A circuit's queue at its port (R257, R283). -/
structure CircQueue where
  descs : List Desc := []
  cb    : Bucket := {}
  wheel : Option Time := none
  deriving DecidableEq, Repr

/-- One class's credit on a link (R269): the peer's last limit and the cells sent (as sender), the cells freed and
received (as receiver). -/
structure Credit where
  limit : Nat := 0
  sent  : Nat := 0
  freed : Nat := 0
  recvd : Nat := 0
  deriving DecidableEq, Repr

/-- A frame a transmitter is sending (R274 step 1). -/
structure Sending where
  frame   : Nat
  copyLen : Nat
  cls     : Nat
  deriving DecidableEq, Repr

/-- A fabric port beyond its dictionary elements (R271, R274, R289, R341-R346): among them LOSSLESS_MASK as it stood at the last link
up, and the LINK frames that wait with their cells. -/
structure Port where
  mftNow     : Bool := true
  lossless   : Nat := 0
  mask       : Nat := 8
  faultSince : Option Time := none
  okSince    : Option Time := none
  helloSeen  : Bool := false
  creditSeen : Bool := false
  helloSent  : Bool := false
  creditSent : Bool := false
  credits    : List Credit := []
  staged     : Nat := 0
  linkQueue  : List (Nat × BitVec 192) := []
  sending    : Option Sending := none
  lastCirc   : Nat := 2047
  visit      : Nat := 0
  visiting   : Bool := false
  deriving DecidableEq, Repr

/-- A gate control list (R295 Table 5). -/
structure GateList where
  lock    : Bool
  base    : Time
  cycle   : Nat
  entries : List (Nat × Nat)
  deriving DecidableEq, Repr

/-- A port's gates (R295-R297): the operational list with the start of its current cycle and entry, the pending
list and its change time. -/
structure Gates where
  oper      : Option GateList := none
  cycleAt   : Time := 0
  index     : Nat := 0
  entryAt   : Time := 0
  pend      : Option GateList := none
  changeAt  : Option Time := none
  committed : Time := 0
  deriving DecidableEq, Repr

/-- A policer (R290): its record and bucket, and the frames it has dropped since its last notice. -/
structure Policer where
  record  : BitVec 64
  bucket  : Bucket := {}
  dropped : Nat := 0
  deriving DecidableEq, Repr

/-- An entry of a table with two versions (R272): the contents in force, the number of the version in force, the
frames holding it, and the version being replaced with the frames that still hold it; for a spray group, the position that
R255 counts from. -/
structure Versioned (α : Type) where
  cur       : α
  ver       : Nat := 0
  held      : Nat := 0
  oldHeld   : Nat := 0
  draining  : Bool := false
  since     : Time := 0
  slow      : Bool := false
  turn      : Nat := 0
  owner     : Nat := 0
  deriving DecidableEq, Repr

/-- A spray group's contents (R254). -/
structure Spray where
  members : List Nat
  detour  : Nat
  deriving DecidableEq, Repr

/-- An address entry of one die (R304, R312, R313). -/
structure AddrEntry where
  hop    : Nat
  static : Bool
  stamp  : Nat
  hit    : Bool
  deriving DecidableEq, Repr

/-- A path-fault limit of one source and failing hop (R251). -/
structure PathFault where
  src   : Nat
  hop   : Nat
  sentAt : Time
  count : Nat
  first : Time
  deriving DecidableEq, Repr

/-- The switch core, traffic control and forwarding tables: among them the cells in use of each die, the cells that stand on a free
list although they are in use, the frames that wait for ORIGIN cells with their class, and the inserts on
their way to a die with their key and hop. -/
structure Net where
  ports     : Tab Port := []
  queues    : Tab Queue := []
  circQueues : Tab CircQueue := []
  frames    : List Stored := []
  nextFrame : Nat := 0
  used      : Tab (List Nat) := []
  stray     : List (Nat × Nat) := []
  waiting   : List (Nat × Mft) := []
  loadView  : Tab Nat := []
  sprays    : Tab (Versioned Spray) := []
  circuits  : Tab (Versioned (BitVec 128)) := []
  mcasts    : Tab (Versioned (List Nat)) := []
  pathFaults : List PathFault := []
  gates     : Tab Gates := []
  policers  : Tab Policer := []
  exact     : Tab Nat := []
  addrs     : Tab (Tab AddrEntry) := []
  suppress  : List (Nat × Nat × Time) := []
  learnQ    : List (BitVec 128) := []
  learnFull : Bool := false
  spread    : List (Nat × Nat × Nat) := []
  prefixes  : Tab Nat := []
  prefixJob : Option (BitVec 192) := none
  nextHops  : Tab (BitVec 128) := []
  badParity : List (Nat × Nat × Nat) := []
  deriving DecidableEq, Repr

end Sys2Proof.Machine
end

