-- ==== Sys2Proof/Machine/Tables.lean ====
section
/-!
DEFINITION. Tables by number in canonical form (numbers strictly rising), bit fields and byte order.
-/
namespace Sys2Proof.Machine

/-- The value a table holds at a number. -/
def Tab.get? {α : Type} : Tab α → Nat → Option α
  | [], _ => none
  | (i, v) :: r, k => bif Nat.beq i k then some v else Tab.get? r k

/-- A table with `v` at `k`; rising order kept. -/
def Tab.set {α : Type} : Tab α → Nat → α → Tab α
  | [], k, v => [(k, v)]
  | (i, w) :: r, k, v =>
    bif Nat.blt k i then (k, v) :: (i, w) :: r
    else bif Nat.beq i k then (k, v) :: r
    else (i, w) :: Tab.set r k v

/-- A table without `k`. -/
def Tab.del {α : Type} : Tab α → Nat → Tab α
  | [], _ => []
  | (i, w) :: r, k => bif Nat.beq i k then Tab.del r k else (i, w) :: Tab.del r k

/-- The value at a number, or the table's empty value. -/
def Tab.getD {α : Type} (m : Tab α) (k : Nat) (d : α) : α := (m.get? k).getD d

/-- A table with the value at `k` changed, where it holds one. -/
def Tab.modify {α : Type} (m : Tab α) (k : Nat) (f : α → α) : Tab α :=
  match m.get? k with
  | some v => m.set k (f v)
  | none => m

/-- The numbers of a table rise strictly. -/
def Tab.wf {α : Type} : Tab α → Bool
  | [] => true
  | [_] => true
  | (i, _) :: (j, w) :: r => Nat.blt i j && Tab.wf ((j, w) :: r)

/-- The smallest number from `k` on, within `n` tries, that a table does not hold. -/
def Tab.freeFrom {α : Type} (m : Tab α) : Nat → Nat → Option Nat
  | 0, _ => none
  | n + 1, k => match m.get? k with
    | none => some k
    | some _ => Tab.freeFrom m n (k + 1)

/-- Bits `hi` down to `lo` of a number (R7). -/
def bits (v hi lo : Nat) : Nat := (v >>> lo) % 2 ^ (hi + 1 - lo)

/-- One bit of a number as a truth value. -/
def bit (v i : Nat) : Bool := Nat.beq ((v >>> i) % 2) 1

/-- Fields laid side by side, the first the most significant (R7, R8); each is cut to its width. -/
def pack : List (Nat × Nat) → Nat
  | l => l.foldl (fun acc wv => acc * 2 ^ wv.1 + wv.2 % 2 ^ wv.1) 0

/-- A number as `n` bytes, most significant first (R8). -/
def toBytes : Nat → Nat → List Byte
  | 0, _ => []
  | n + 1, v => BitVec.ofNat 8 (v >>> (8 * n)) :: toBytes n v

/-- The number a byte string spells, most significant first (R8). -/
def ofBytes (l : List Byte) : Nat := l.foldl (fun acc b => acc * 256 + b.toNat) 0

/-- `n` bytes of a string from an offset. -/
def slice (l : List Byte) (off n : Nat) : List Byte := (l.drop off).take n

/-- The number `n` bytes of a string from an offset spell. -/
def field (l : List Byte) (off n : Nat) : Nat := ofBytes (slice l off n)

/-- A truth value as a bit. -/
def b2n (b : Bool) : Nat := bif b then 1 else 0

/-- The quotient rounded up. -/
def ceilDiv (a b : Nat) : Nat := (a + b - 1) / b

/-- Two's complement of a width. -/
def wrapInt (w : Nat) (v : Int) : Nat := (v % (2 ^ w : Nat)).toNat

/-- The signed value of a two's complement number of a width. -/
def signed (w v : Nat) : Int := if v % 2 ^ w < 2 ^ (w - 1) then (v % 2 ^ w : Nat) else (v % 2 ^ w : Nat) - (2 ^ w : Nat)

/-- Insertion of a number into a rising list without repeats. -/
def insertNat (k : Nat) : List Nat → List Nat
  | [] => [k]
  | i :: r => bif Nat.blt k i then k :: i :: r else bif Nat.beq i k then i :: r else i :: insertNat k r

/-- The first `n` numbers from `k` on that a rising list lacks, looking at `fuel` numbers. -/
def lacking : Nat → Nat → Nat → List Nat → List Nat
  | 0, _, _, _ => []
  | _, _, 0, _ => []
  | fuel + 1, k, n + 1, l =>
    match l with
    | [] => k :: lacking fuel (k + 1) n []
    | i :: r => bif Nat.beq i k then lacking fuel (k + 1) (n + 1) r else k :: lacking fuel (k + 1) n (i :: r)

/-- 1 ns, 1 µs, 1 ms and 1 s in the unit of fabric time (R387). -/
def ns : Nat := 65536
def us : Nat := 65536000
def ms : Nat := 65536000000
def sec : Nat := 65536000000000

/-- The 78-bit layout of a fabric time: seconds, nanoseconds, fraction (R387). -/
def timeLayout (t : Time) : Nat := pack [(32, t / sec), (30, t % sec / ns), (16, t % ns)]

/-- The fabric time a 78-bit layout spells. -/
def timeOfLayout (v : Nat) : Time := bits v 77 46 * sec + bits v 45 16 * ns + bits v 15 0

/-- ft_diff of two counts (R389): the difference of their 32-bit seconds read as signed, and of what lies below. -/
def ftDiff (a b : Time) : Int :=
  let ds : Int := signed 32 ((a / sec + (2 ^ 32 - b / sec % 2 ^ 32)) % 2 ^ 32)
  ds * (sec : Nat) + ((a % sec : Nat) : Int) - (b % sec : Nat)

/-- The instant that a layout names, near a time: of the counts with its 32-bit seconds, the one that ft_diff gives (R389). -/
def timeNear (now : Time) (v : Nat) : Time :=
  let d : Int := (now : Int) + ftDiff (timeOfLayout v) now
  if d < 0 then (d + (2 ^ 32 * sec : Nat)).toNat else d.toNat

/-- The difference of two times in whole µs, toward zero, saturated to 32 bits (R495 Table 14). -/
def usDiff (a b : Time) : Nat :=
  let d : Int := ((a : Int) - (b : Int)).tdiv (us : Nat)
  wrapInt 32 (max (-(2 ^ 31 : Nat) : Int) (min d ((2 ^ 31 : Nat) - 1 : Int)))

end Sys2Proof.Machine
end

