-- ==== Sys2Proof/Machine/Codes.lean ====
section
/-!
DEFINITION. Hashes and checks: mix64 (R76), crc64 (R139), the IEEE 802.3 frame check sequence (R247), the CRC-8 of the
GRP_SYNC word (R404), SHA-256 (FIPS 180-4) and HMAC (FIPS 198-1) of R159, R481 and R488, HKDF (RFC 5869) of R501, SHA-384.
-/
namespace Sys2Proof.Machine

/-- 2^64. -/
def two64 : Nat := 2 ^ 64

/-- mix64 (R76). -/
def mix64 (x : Nat) : Nat :=
  let x := x % two64
  let x := x ^^^ (x >>> 33)
  let x := x * 0xA3B195C74D2E6F0B % two64
  let x := x ^^^ (x >>> 29)
  let x := x * 0x8F5C2B17E4A963D5 % two64
  x ^^^ (x >>> 32)

/-- One bit step of crc64 (R139). -/
def crc64Step (c : Nat) : Nat :=
  if c >>> 63 = 1 then ((c <<< 1) % two64) ^^^ 0x42F0E1EBA9EA3693 else (c <<< 1) % two64

/-- `n` steps of a function. -/
def iter {α : Type} (f : α → α) : Nat → α → α
  | 0, x => x
  | n + 1, x => iter f n (f x)

/-- crc64_update (R139). -/
def crc64Update (c : Nat) (b : Byte) : Nat := iter crc64Step 8 (c ^^^ (b.toNat <<< 56))

/-- crc64 (R139). -/
def crc64 (l : List Byte) : Nat := (l.foldl crc64Update (two64 - 1)) ^^^ (two64 - 1)

/-- One bit step of the IEEE 802.3 frame check sequence, least significant bit first. -/
def crc32Step (c : Nat) : Nat := if c % 2 = 1 then (c >>> 1) ^^^ 0xEDB88320 else c >>> 1

/-- The IEEE 802.3 frame check sequence of a byte string (R247). -/
def crc32 (l : List Byte) : Nat :=
  (l.foldl (fun c b => iter crc32Step 8 (c ^^^ b.toNat)) 0xFFFFFFFF) ^^^ 0xFFFFFFFF

/-- The frame check sequence as the four bytes a frame carries, least significant first. -/
def fcsBytes (l : List Byte) : List Byte := (toBytes 4 (crc32 l)).reverse

/-- One bit step of a CRC-8 of polynomial 0x07 (R404). -/
def crc8Step (c : Nat) : Nat := if c / 128 % 2 = 1 then ((c <<< 1) % 256) ^^^ 7 else (c <<< 1) % 256

/-- A CRC-8 of polynomial 0x07, most significant bit first, from zero (R404). -/
def crc8 (l : List Byte) : Nat := l.foldl (fun c b => iter crc8Step 8 (c ^^^ b.toNat)) 0

/-! ### The Secure Hash Algorithms of FIPS 180-4

One description serves SHA-256 and SHA-384: they differ in the width of a word, in the rotations and in the number of
rounds. The constants are computed from their definition, the fractions of roots of the first primes, and are not listed. -/

/-- One Newton step towards the `k`-th root of `n`, never upwards. -/
def rootStep (k n x : Nat) : Nat := min x (((k - 1) * x + n / x ^ (k - 1)) / k)

/-- The first `w` bits of the fraction of the `k`-th root of `p`, for a root below 8 and `w` at most 64. -/
def rootFraction (k w p : Nat) : Nat :=
  iter (rootStep k (p <<< (k * w))) 14 (2 ^ (w + 3)) % 2 ^ w

/-- The primes below 410, which are the first eighty. -/
def shaPrimes : List Nat :=
  (List.range 410).filter (fun n => 1 < n && [2, 3, 5, 7, 11, 13, 17, 19].all (fun d => n == d || n % d != 0))

/-- What tells one algorithm of the family from another: the word in bits, the rounds, the three rotations of each capital
sigma, and the two rotations and the shift of each small one. -/
structure ShaKind where
  word : Nat
  rounds : Nat
  sumA : Nat × Nat × Nat
  sumE : Nat × Nat × Nat
  mixOld : Nat × Nat × Nat
  mixNew : Nat × Nat × Nat

/-- SHA-256 (FIPS 180-4, 4.1.2). -/
def ShaKind.sha256 : ShaKind := ⟨32, 64, (2, 13, 22), (6, 11, 25), (7, 18, 3), (17, 19, 10)⟩

/-- SHA-384 (FIPS 180-4, 4.1.3). -/
def ShaKind.sha384 : ShaKind := ⟨64, 80, (28, 34, 39), (14, 18, 41), (1, 8, 7), (19, 61, 6)⟩

namespace ShaKind

/-- A word, of whatever a sum of words leaves. -/
def cut (k : ShaKind) (x : Nat) : Nat := x % 2 ^ k.word

/-- A word rotated right: the low word of two copies of it, shifted. -/
def turn (k : ShaKind) (x n : Nat) : Nat := k.cut ((x <<< k.word ||| x) >>> n)

/-- A capital sigma: three rotations, added without carry. -/
def sum (k : ShaKind) (r : Nat × Nat × Nat) (x : Nat) : Nat := k.turn x r.1 ^^^ k.turn x r.2.1 ^^^ k.turn x r.2.2

/-- A small sigma: two rotations and a shift. -/
def mix (k : ShaKind) (r : Nat × Nat × Nat) (x : Nat) : Nat := k.turn x r.1 ^^^ k.turn x r.2.1 ^^^ (x >>> r.2.2)

/-- The schedule goes on by one word, which the window of the last sixteen gives; the oldest leaves the window. -/
def nextWindow (k : ShaKind) (win : List Nat) : List Nat :=
  win.drop 1 ++
    [k.cut (win.getD 0 0 + k.mix k.mixOld (win.getD 1 0) + win.getD 9 0 + k.mix k.mixNew (win.getD 14 0))]

/-- One round with the constant `c` and the schedule's word `w`: the eight working words move on by one place. -/
def round (k : ShaKind) (c w : Nat) : List Nat → List Nat
  | [v0, v1, v2, v3, v4, v5, v6, v7] =>
    let t := v7 + k.sum k.sumE v4 + (v6 ^^^ v4 &&& (v5 ^^^ v6)) + c + w
    [k.cut (t + k.sum k.sumA v0 + ((v0 ||| v1) &&& v2 ||| v0 &&& v1)), v0, v1, v2, k.cut (v3 + t), v4, v5, v6]
  | v => v

/-- The rounds of one block, one constant each, over the working words and the window of the schedule. -/
def run (k : ShaKind) : List Nat → List Nat → List Nat → List Nat
  | [], v, _ => v
  | c :: cs, v, win => run k cs (k.round c (win.getD 0 0) v) (k.nextWindow win)

/-- The round constants: the fractions of the cube roots of the first primes. -/
def constants (k : ShaKind) : List Nat := (shaPrimes.take k.rounds).map (rootFraction 3 k.word)

/-- The hash value goes on by each block of sixteen words of a message of `n` blocks. -/
def absorb (k : ShaKind) (cs : List Nat) : Nat → List Byte → List Nat → List Nat
  | 0, _, h => h
  | n + 1, m, h =>
    let win := (List.range 16).map (fun i => field m (i * k.word / 8) (k.word / 8))
    absorb k cs n (m.drop (2 * k.word)) (List.zipWith (fun x y => k.cut (x + y)) h (k.run cs h win))

/-- A message's last block filled up: a one bit, zeros, and the length in bits in two words. -/
def padded (k : ShaKind) (m : List Byte) : List Byte :=
  let block := 2 * k.word
  m ++ 0x80 :: List.replicate ((2 * block - 1 - k.word / 4 - m.length % block) % block) 0
    ++ toBytes (k.word / 4) (8 * m.length)

/-- The hash of a message from a first hash value: the first `n` words of the last one. -/
def hash (k : ShaKind) (first : List Nat) (n : Nat) (m : List Byte) : Nat :=
  let p := k.padded m
  pack (((k.absorb k.constants (p.length / (2 * k.word)) p first).take n).map (k.word, ·))

end ShaKind

/-- SHA-256 of a byte string, as a 256-bit number: it starts from the square roots of the first eight primes. -/
def sha256 (m : List Byte) : Nat :=
  ShaKind.sha256.hash ((shaPrimes.take 8).map (rootFraction 2 32)) 8 m

/-- SHA-384 of a byte string, as a 384-bit number (R499-R501): it starts from the square roots of the next eight primes. -/
def sha384 (m : List Byte) : Nat :=
  ShaKind.sha384.hash (((shaPrimes.drop 8).take 8).map (rootFraction 2 64)) 6 m

/-! ### The keyed hashes -/

/-- HMAC-SHA-256 under a key of at most 64 bytes. -/
def hmac (key : List Byte) (msg : List Byte) : Nat :=
  let k := key ++ List.replicate (64 - key.length) 0
  sha256 (k.map (· ^^^ 0x5C) ++ toBytes 32 (sha256 (k.map (· ^^^ 0x36) ++ msg)))

/-- The leftmost 128 bits of HMAC-SHA-256 under a 256-bit key (R159, R481). -/
def mac128 (key : Nat) (msg : List Byte) : Nat := hmac (toBytes 32 key) msg / 2 ^ 128

/-- HKDF-SHA-256 with an output of 32 bytes (RFC 5869; R501). -/
def hkdf (salt ikm info : List Byte) : Nat :=
  hmac (toBytes 32 (hmac salt ikm)) (info ++ [1])

end Sys2Proof.Machine
end

