-- ==== Sys2Proof/Config.lean ====
section
/-!
DEFINITION. What an implementation fixes and the spec leaves open.
-/
namespace Sys2Proof

/-- The free values (log 1): the n-th value the spec leaves open, in the order the machine meets them. -/
opaque Config.freeValue : Nat → Nat

/-- The traffic class of a management frame the device originates, by its family and subtype (log 2): the spec gives the
header's TC field no value there. -/
opaque Config.mgmtTc : Nat → Nat → Nat

/-- The 256-bit device secret fused at manufacture (R500; log 3), taken modulo 2^256. -/
opaque Config.deviceSecret : Nat

/-- The stack on which an entry of the colophon ring lies (log 6), taken modulo 20: the spec places the ring in the
sample-buffer partition and names no stack. -/
opaque Config.ringStack : Nat → Nat

/-- The heater codes by which a change of the photonic die temperature (in 1/16 °C) shifts a ring's expected code, for an
engine's TUNING, ORDER_CODES and FSR (R336; log 12). -/
opaque Config.heaterShift : Int → Nat → Nat → Nat → Int

/-- The 64-bit clockIdentity of the boundary clock and its 32-bit clock quality (class, accuracy, variance), which R398
leaves to IEEE 1588-2019 (log 13). -/
opaque Config.clockIdentity : Nat
opaque Config.clockQuality : Nat

end Sys2Proof
end

