-- ==== Sys2Proof/Machine/Dictionary.lean ====
section
/-!
DEFINITION. The parameter dictionary's entry list (spec/17 R471-R474 and the entry table of every chapter): one row per
entry, with its type, access right, element count, default and the range its Meaning states.  An entry is named by
`index * 256 + subindex`.
-/
namespace Sys2Proof.Machine

/-- The types of R472 Table 1; `bytes lo n` takes from `lo` to `n` bytes. -/
inductive Ty where
  | u8 | u16 | u32 | u64 | i8 | i16 | i32 | i64 | f32 | boolT | enumT | time
  | bytes (least n : Nat)
  deriving DecidableEq, Repr

/-- The access rights of R473 Table 2. -/
inductive Right where
  | ro | rw | wo | rws | rwl
  deriving DecidableEq, Repr

/-- One dictionary entry (R471).  `count` is 0 for an entry that is no array.  `range` lists the admitted intervals as
(least, greatest, multiple of); an empty list admits every value of the type. -/
structure EntryRow where
  id    : Nat
  ty    : Ty
  right : Right
  count : Nat
  dflt  : Nat
  range : List (Int × Int × Nat)
  deriving DecidableEq, Repr

/-- Bytes of one element (R472 Table 1). -/
def Ty.size : Ty → Nat
  | .u8 | .i8 | .boolT | .enumT => 1
  | .u16 | .i16 => 2
  | .u32 | .i32 | .f32 => 4
  | .u64 | .i64 => 8
  | .time => 12
  | .bytes _ n => n

/-- The type code of R472 Table 1. -/
def Ty.code : Ty → Nat
  | .u8 => 1 | .u16 => 2 | .u32 => 3 | .u64 => 4 | .i8 => 5 | .i16 => 6 | .i32 => 7 | .i64 => 8
  | .f32 => 9 | .boolT => 10 | .enumT => 11 | .time => 12 | .bytes _ _ => 13

/-- Two's complement types, and durations of type time. -/
def Ty.signed : Ty → Bool
  | .i8 | .i16 | .i32 | .i64 => true
  | _ => false

/-- The access code ENTRY_QUERY reports. -/
def Right.code : Right → Nat
  | .ro => 0 | .rw => 1 | .wo => 2 | .rws => 3 | .rwl => 4


/-! Entries of spec/02_exact_arithmetic.md -/
/-- 7800:01, R61. -/
abbrev E.anchorMin : Nat := 0x780001
/-- 7800:02, R61. -/
abbrev E.anchorMax : Nat := 0x780002
/-- 7800:03, R61. -/
abbrev E.guardMax : Nat := 0x780003
/-- 7800:04, R61. -/
abbrev E.rereduceLimitMax : Nat := 0x780004
/-- 7801:01, R61. -/
abbrev E.formatInMask : Nat := 0x780101
/-- 7810:01, R61. -/
abbrev E.windowMode : Nat := 0x781001
/-- 7810:02, R61. -/
abbrev E.windowAnchor : Nat := 0x781002
/-- 7810:03, R61. -/
abbrev E.windowGuard : Nat := 0x781003
/-- 7810:04, R61. -/
abbrev E.anchorNext : Nat := 0x781004
/-- 7810:05, R61. -/
abbrev E.expHiLast : Nat := 0x781005
/-- 7811:01, R61. -/
abbrev E.opFlags : Nat := 0x781101
/-- 7811:02, R61. -/
abbrev E.widenedLast : Nat := 0x781102
/-- 7812:01, R61. -/
abbrev E.histSelect : Nat := 0x781201
/-- 7812:02, R61. -/
abbrev E.expHist : Nat := 0x781202
/-- 7820:01, R61. -/
abbrev E.trapCount : Nat := 0x782001
/-- 7820:02, R61. -/
abbrev E.trapRecord : Nat := 0x782002
/-- 7820:03, R61. -/
abbrev E.trapValid : Nat := 0x782003
/-- 7830:01, R61. -/
abbrev E.outFormat : Nat := 0x783001
/-- 7830:02, R61. -/
abbrev E.outScale : Nat := 0x783002
/-- 7830:03, R61. -/
abbrev E.outBias : Nat := 0x783003
/-- 7830:04, R61. -/
abbrev E.clipLo : Nat := 0x783004
/-- 7830:05, R61. -/
abbrev E.clipHi : Nat := 0x783005
/-- 7830:06, R61. -/
abbrev E.clipEn : Nat := 0x783006
/-- 7840:01, R61. -/
abbrev E.rereduceEn : Nat := 0x784001
/-- 7840:02, R61. -/
abbrev E.rereduceLimit : Nat := 0x784002
/-- 7840:03, R61. -/
abbrev E.widenedTotal : Nat := 0x784003

/-! Entries of spec/03_collective_model.md -/
/-- 7000:01, R109. -/
abbrev E.contextsMax : Nat := 0x700001
/-- 7000:02, R109. -/
abbrev E.membersMax : Nat := 0x700002
/-- 7000:03, R109. -/
abbrev E.a2aMembersMax : Nat := 0x700003
/-- 7000:04, R109. -/
abbrev E.hsetMax : Nat := 0x700004
/-- 7000:05, R109. -/
abbrev E.rangesMax : Nat := 0x700005
/-- 7000:06, R109. -/
abbrev E.chunkCountMax : Nat := 0x700006
/-- 7000:07, R109. -/
abbrev E.prepareTimeout : Nat := 0x700007
/-- 7001:01, R109. -/
abbrev E.register : Nat := 0x700101
/-- 7001:02, R109. -/
abbrev E.regStatus : Nat := 0x700102
/-- 7001:03, R109. -/
abbrev E.regContext : Nat := 0x700103
/-- 7001:04, R109. -/
abbrev E.deregister : Nat := 0x700104
/-- 7001:05, R109. -/
abbrev E.regJobTag : Nat := 0x700105
/-- 7001:06, R109. -/
abbrev E.deregStatus : Nat := 0x700106
/-- 7002:01, R109. -/
abbrev E.hsetExclude : Nat := 0x700201
/-- 7002:02, R109. -/
abbrev E.hsetStatus : Nat := 0x700202
/-- 7010:01, R109. -/
abbrev E.opId : Nat := 0x701001
/-- 7010:02, R109. -/
abbrev E.state : Nat := 0x701002
/-- 7010:03, R109. -/
abbrev E.type : Nat := 0x701003
/-- 7010:04, R109. -/
abbrev E.members : Nat := 0x701004
/-- 7010:05, R109. -/
abbrev E.hsetVer : Nat := 0x701005
/-- 7010:06, R109. -/
abbrev E.instanceOpen : Nat := 0x701006
/-- 7010:07, R109. -/
abbrev E.chunksHomed : Nat := 0x701007
/-- 7010:08, R109. -/
abbrev E.stallLimit : Nat := 0x701008
/-- 7010:09, R109. -/
abbrev E.stallMax : Nat := 0x701009
/-- 7010:0A, R109. -/
abbrev E.collector : Nat := 0x70100A
/-- 7020:01, R109. -/
abbrev E.homeQuery : Nat := 0x702001
/-- 7040:01, R109. -/
abbrev E.dupDropped : Nat := 0x704001
/-- 7040:02, R109. -/
abbrev E.refused : Nat := 0x704002
/-- 7040:03, R109. -/
abbrev E.lateDropped : Nat := 0x704003
/-- 7040:04, R109. -/
abbrev E.malformed : Nat := 0x704004
/-- 7040:05, R109. -/
abbrev E.tallyLate : Nat := 0x704005
/-- 7040:06, R109. -/
abbrev E.misdirected : Nat := 0x704006
/-- 7050:01, R109. -/
abbrev E.prereduceEn : Nat := 0x705001
/-- 7050:02, R109. -/
abbrev E.prHold : Nat := 0x705002
/-- 7050:03, R109. -/
abbrev E.prWrite : Nat := 0x705003
/-- 7050:04, R109. -/
abbrev E.prStatus : Nat := 0x705004
/-- 7050:05, R109. -/
abbrev E.prEntries : Nat := 0x705005
/-- 7050:06, R109. -/
abbrev E.prPartials : Nat := 0x705006
/-- 7050:07, R109. -/
abbrev E.prForwarded : Nat := 0x705007

/-! Entries of spec/04_reduction_engine.md -/
/-- 7400:01, R137. -/
abbrev E.sramSlots : Nat := 0x740001
/-- 7400:02, R137. -/
abbrev E.sramFree : Nat := 0x740002
/-- 7400:03, R137. -/
abbrev E.reservePool : Nat := 0x740003
/-- 7400:04, R137. -/
abbrev E.reserved : Nat := 0x740004
/-- 7400:05, R137. -/
abbrev E.reserveSlotsMax : Nat := 0x740005
/-- 7400:06, R137. -/
abbrev E.steerLow : Nat := 0x740006
/-- 7400:07, R137. -/
abbrev E.spillLow : Nat := 0x740007
/-- 7400:08, R137. -/
abbrev E.bypassEn : Nat := 0x740008
/-- 7400:09, R137. -/
abbrev E.spillBytes : Nat := 0x740009
/-- 7400:0A, R137. -/
abbrev E.spillFree : Nat := 0x74000A
/-- 7400:0B, R137. -/
abbrev E.spillHeadroom : Nat := 0x74000B
/-- 7400:0C, R137. -/
abbrev E.coverCache : Nat := 0x74000C
/-- 7400:0D, R137. -/
abbrev E.reservedHeld : Nat := 0x74000D
/-- 7410:01, R137. -/
abbrev E.reserve : Nat := 0x741001
/-- 7410:02, R137. -/
abbrev E.openChunks : Nat := 0x741002
/-- 7410:03, R137. -/
abbrev E.spilledChunks : Nat := 0x741003
/-- 7410:04, R137. -/
abbrev E.bypassOut : Nat := 0x741004
/-- 7410:05, R137. -/
abbrev E.bypassIn : Nat := 0x741005
/-- 7410:06, R137. -/
abbrev E.deferred : Nat := 0x741006
/-- 7410:07, R137. -/
abbrev E.contextArea : Nat := 0x741007
/-- 7420:01, R137. -/
abbrev E.settleWindow : Nat := 0x742001
/-- 7420:02, R137. -/
abbrev E.timerGranule : Nat := 0x742002
/-- 7420:03, R137. -/
abbrev E.nextDeadline : Nat := 0x742003
/-- 7420:04, R137. -/
abbrev E.memberQuery : Nat := 0x742004
/-- 7430:01, R137. -/
abbrev E.spills : Nat := 0x743001
/-- 7430:02, R137. -/
abbrev E.stackOpens : Nat := 0x743002
/-- 7430:03, R137. -/
abbrev E.steered : Nat := 0x743003
/-- 7430:04, R137. -/
abbrev E.bypassOutTotal : Nat := 0x743004
/-- 7430:05, R137. -/
abbrev E.bypassInTotal : Nat := 0x743005
/-- 7430:06, R137. -/
abbrev E.bypassRefused : Nat := 0x743006
/-- 7430:07, R137. -/
abbrev E.deferredDrops : Nat := 0x743007
/-- 7430:08, R137. -/
abbrev E.tentative : Nat := 0x743008
/-- 7430:09, R137. -/
abbrev E.cancelled : Nat := 0x743009
/-- 7430:0A, R137. -/
abbrev E.confirmed : Nat := 0x74300A
/-- 7430:0B, R137. -/
abbrev E.lateProgress : Nat := 0x74300B
/-- 7440:01, R137. -/
abbrev E.latSram : Nat := 0x744001
/-- 7440:02, R137. -/
abbrev E.latSpill : Nat := 0x744002
/-- 7440:03, R137. -/
abbrev E.latSeenMax : Nat := 0x744003

/-! Entries of spec/05_witness_and_colophon.md -/
/-- 7C00:01, R164. -/
abbrev E.witnessModulus : Nat := 0x7C0001
/-- 7C00:02, R164. -/
abbrev E.recomputeLimit : Nat := 0x7C0002
/-- 7C00:03, R164. -/
abbrev E.checkGrace : Nat := 0x7C0003
/-- 7C00:04, R164. -/
abbrev E.signRate : Nat := 0x7C0004
/-- 7C00:05, R164. -/
abbrev E.recordQueue : Nat := 0x7C0005
/-- 7C01:01, R164. -/
abbrev E.weightQuery : Nat := 0x7C0101
/-- 7C10:01, R164. -/
abbrev E.sinkMode : Nat := 0x7C1001
/-- 7C10:02, R164. -/
abbrev E.sinkGei : Nat := 0x7C1002
/-- 7C20:01, R164. -/
abbrev E.ringEntries : Nat := 0x7C2001
/-- 7C20:02, R164. -/
abbrev E.ringNext : Nat := 0x7C2002
/-- 7C20:03, R164. -/
abbrev E.ringSelect : Nat := 0x7C2003
/-- 7C20:04, R164. -/
abbrev E.ringEntry : Nat := 0x7C2004
/-- 7C21:01, R164. -/
abbrev E.keyEpoch : Nat := 0x7C2101
/-- 7C30:01, R164. -/
abbrev E.checkFailedIn : Nat := 0x7C3001
/-- 7C30:02, R164. -/
abbrev E.checkFailedInternal : Nat := 0x7C3002
/-- 7C30:03, R164. -/
abbrev E.contribWitnessFailed : Nat := 0x7C3003
/-- 7C30:04, R164. -/
abbrev E.resultMismatch : Nat := 0x7C3004
/-- 7C30:05, R164. -/
abbrev E.outputMismatch : Nat := 0x7C3005
/-- 7C30:06, R164. -/
abbrev E.recomputes : Nat := 0x7C3006
/-- 7C30:07, R164. -/
abbrev E.unresolved : Nat := 0x7C3007
/-- 7C30:08, R164. -/
abbrev E.recordsEmitted : Nat := 0x7C3008
/-- 7C30:09, R164. -/
abbrev E.recordsOverwritten : Nat := 0x7C3009
/-- 7C30:0A, R164. -/
abbrev E.lateCheckFailed : Nat := 0x7C300A
/-- 7C30:0B, R164. -/
abbrev E.mismatchByDie : Nat := 0x7C300B

/-! Entries of spec/06_update_graphs.md -/
/-- 8000:01, R195. -/
abbrev E.graphsMax : Nat := 0x800001
/-- 8000:02, R195. -/
abbrev E.nodesMax : Nat := 0x800002
/-- 8000:03, R195. -/
abbrev E.inflightMax : Nat := 0x800003
/-- 8000:04, R195. -/
abbrev E.progWordsMax : Nat := 0x800004
/-- 8000:05, R195. -/
abbrev E.tensorsMax : Nat := 0x800005
/-- 8000:06, R195. -/
abbrev E.vlmBytes : Nat := 0x800006
/-- 8000:07, R195. -/
abbrev E.stageBuffersMax : Nat := 0x800007
/-- 8001:01, R195. -/
abbrev E.graphStage : Nat := 0x800101
/-- 8001:02, R195. -/
abbrev E.graphCommit : Nat := 0x800102
/-- 8001:03, R195. -/
abbrev E.graphStatus : Nat := 0x800103
/-- 8001:04, R195. -/
abbrev E.graphJobTag : Nat := 0x800104
/-- 8002:01, R195. -/
abbrev E.graphControl : Nat := 0x800201
/-- 8003:01, R195. -/
abbrev E.constWrite : Nat := 0x800301
/-- 8010:01, R195. -/
abbrev E.tensorCreate : Nat := 0x801001
/-- 8010:02, R195. -/
abbrev E.tensorStatus : Nat := 0x801002
/-- 8010:03, R195. -/
abbrev E.tensorDestroy : Nat := 0x801003
/-- 8010:04, R195. -/
abbrev E.tensorIo : Nat := 0x801004
/-- 8010:05, R195. -/
abbrev E.tensorQuery : Nat := 0x801005
/-- 8020:01, R195. -/
abbrev E.graphId : Nat := 0x802001
/-- 8020:02, R195. -/
abbrev E.graphState : Nat := 0x802002
/-- 8020:03, R195. -/
abbrev E.version : Nat := 0x802003
/-- 8020:04, R195. -/
abbrev E.runInstance : Nat := 0x802004
/-- 8020:05, R195. -/
abbrev E.fault : Nat := 0x802005
/-- 8030:01, R195. -/
abbrev E.nodeQuery : Nat := 0x803001
/-- 8040:01, R195. -/
abbrev E.runsCommitted : Nat := 0x804001
/-- 8040:02, R195. -/
abbrev E.runsAborted : Nat := 0x804002
/-- 8040:03, R195. -/
abbrev E.pubFrames : Nat := 0x804003
/-- 8040:04, R195. -/
abbrev E.staleSent : Nat := 0x804004
/-- 8040:05, R195. -/
abbrev E.pubMalformed : Nat := 0x804005
/-- 8040:06, R195. -/
abbrev E.storeSaturated : Nat := 0x804006
/-- 8050:01, R195. -/
abbrev E.vlmFree : Nat := 0x805001
/-- 8050:02, R195. -/
abbrev E.stateBytesFree : Nat := 0x805002

/-! Entries of spec/07_matrix_arrays.md -/
/-- 8800:01, R217. -/
abbrev E.arraysTotal : Nat := 0x880001
/-- 8800:02, R217. -/
abbrev E.arraysInService : Nat := 0x880002
/-- 8800:03, R217. -/
abbrev E.tileMemBytes : Nat := 0x880003
/-- 8800:04, R217. -/
abbrev E.feederDepth : Nat := 0x880004
/-- 8800:05, R217. -/
abbrev E.cformatMask : Nat := 0x880005
/-- 8800:06, R217. -/
abbrev E.abftWindow : Nat := 0x880006
/-- 8800:07, R217. -/
abbrev E.peakBf16 : Nat := 0x880007
/-- 8801:01, R217. -/
abbrev E.arrayState : Nat := 0x880101
/-- 8801:02, R217. -/
abbrev E.arrayDataflow : Nat := 0x880102
/-- 8810:01, R217. -/
abbrev E.subnormalSet : Nat := 0x881001
/-- 8810:02, R217. -/
abbrev E.subnormalMode : Nat := 0x881002
/-- 8810:03, R217. -/
abbrev E.flushSeen : Nat := 0x881003
/-- 8840:01, R217. -/
abbrev E.tiles : Nat := 0x884001
/-- 8840:02, R217. -/
abbrev E.abftMismatch : Nat := 0x884002
/-- 8840:03, R217. -/
abbrev E.recomputes_8840 : Nat := 0x884003
/-- 8840:04, R217. -/
abbrev E.feederStalls : Nat := 0x884004
/-- 8840:05, R217. -/
abbrev E.starts : Nat := 0x884005
/-- 8840:06, R217. -/
abbrev E.epilogueMismatch : Nat := 0x884006
/-- 8840:07, R217. -/
abbrev E.operandSaturated : Nat := 0x884007
/-- 8840:08, R217. -/
abbrev E.unresolved_8840 : Nat := 0x884008

/-! Entries of spec/08_stack_memory.md -/
/-- 8C00:01, R240. -/
abbrev E.stacksTotal : Nat := 0x8C0001
/-- 8C00:02, R240. -/
abbrev E.stacksInService : Nat := 0x8C0002
/-- 8C00:03, R240. -/
abbrev E.stackBytes : Nat := 0x8C0003
/-- 8C01:01, R240. -/
abbrev E.partRequest : Nat := 0x8C0101
/-- 8C01:02, R240. -/
abbrev E.partStatus : Nat := 0x8C0102
/-- 8C01:03, R240. -/
abbrev E.spillGib : Nat := 0x8C0103
/-- 8C01:04, R240. -/
abbrev E.spawnGib : Nat := 0x8C0104
/-- 8C01:05, R240. -/
abbrev E.sampleGib : Nat := 0x8C0105
/-- 8C01:06, R240. -/
abbrev E.stateGib : Nat := 0x8C0106
/-- 8C02:01, R240. -/
abbrev E.stackState : Nat := 0x8C0201
/-- 8C02:02, R240. -/
abbrev E.stackTemp : Nat := 0x8C0202
/-- 8C02:03, R240. -/
abbrev E.refreshMode : Nat := 0x8C0203
/-- 8C02:04, R240. -/
abbrev E.excludeCause : Nat := 0x8C0204
/-- 8C03:01, R240. -/
abbrev E.scrubPeriod : Nat := 0x8C0301
/-- 8C03:02, R240. -/
abbrev E.scrubPasses : Nat := 0x8C0302
/-- 8C03:03, R240. -/
abbrev E.ueLimit : Nat := 0x8C0303
/-- 8C04:01, R240. -/
abbrev E.arbWeights : Nat := 0x8C0401
/-- 8C10:01, R240. -/
abbrev E.corrected : Nat := 0x8C1001
/-- 8C10:02, R240. -/
abbrev E.uncorrectable : Nat := 0x8C1002
/-- 8C10:03, R240. -/
abbrev E.poisonEntries : Nat := 0x8C1003
/-- 8C10:04, R240. -/
abbrev E.ueLast : Nat := 0x8C1004
/-- 8C10:05, R240. -/
abbrev E.accCommands : Nat := 0x8C1005
/-- 8C10:06, R240. -/
abbrev E.interfaceRetries : Nat := 0x8C1006
/-- 8C10:07, R240. -/
abbrev E.spawnBlocksLost : Nat := 0x8C1007
/-- 8C10:08, R240. -/
abbrev E.sampleBlocksLost : Nat := 0x8C1008
/-- 8C10:09, R240. -/
abbrev E.stripesLost : Nat := 0x8C1009

/-! Entries of spec/09_switch_core.md -/
/-- 5000:01, R276. -/
abbrev E.ports : Nat := 0x500001
/-- 5000:02, R276. -/
abbrev E.cellBytes : Nat := 0x500002
/-- 5000:03, R276. -/
abbrev E.cellsPerDie : Nat := 0x500003
/-- 5000:04, R276. -/
abbrev E.mftFrameMax : Nat := 0x500004
/-- 5000:05, R276. -/
abbrev E.ethFrameMax : Nat := 0x500005
/-- 5000:06, R276. -/
abbrev E.hopsMax : Nat := 0x500006
/-- 5000:07, R276. -/
abbrev E.latMin : Nat := 0x500007
/-- 5001:01, R276. -/
abbrev E.portMft : Nat := 0x500101
/-- 5001:02, R276. -/
abbrev E.portAdmin : Nat := 0x500102
/-- 5001:03, R276. -/
abbrev E.portState : Nat := 0x500103
/-- 5001:04, R276. -/
abbrev E.portPeer : Nat := 0x500104
/-- 5001:05, R276. -/
abbrev E.detourGroup : Nat := 0x500105
/-- 5001:06, R276. -/
abbrev E.portDownHold : Nat := 0x500106
/-- 5001:07, R276. -/
abbrev E.portUpHold : Nat := 0x500107
/-- 5002:01, R276. -/
abbrev E.losslessMask : Nat := 0x500201
/-- 5002:02, R276. -/
abbrev E.llCells : Nat := 0x500202
/-- 5002:03, R276. -/
abbrev E.collLagCells : Nat := 0x500203
/-- 5003:01, R276. -/
abbrev E.queueLimit : Nat := 0x500301
/-- 5003:02, R276. -/
abbrev E.markDepth : Nat := 0x500302
/-- 5003:03, R276. -/
abbrev E.pfInterval : Nat := 0x500303
/-- 5004:01, R276. -/
abbrev E.poolFree : Nat := 0x500401
/-- 5004:02, R276. -/
abbrev E.poolLow : Nat := 0x500402
/-- 5100:01, R276. -/
abbrev E.sprayWrite : Nat := 0x510001
/-- 5100:02, R276. -/
abbrev E.sprayStatus : Nat := 0x510002
/-- 5101:01, R276. -/
abbrev E.sprayMembers : Nat := 0x510101
/-- 5101:02, R276. -/
abbrev E.sprayLive : Nat := 0x510102
/-- 5200:01, R276. -/
abbrev E.circuitWrite : Nat := 0x520001
/-- 5200:02, R276. -/
abbrev E.circuitStatus : Nat := 0x520002
/-- 5201:01, R276. -/
abbrev E.circuitState : Nat := 0x520101
/-- 5201:02, R276. -/
abbrev E.circuitReserved : Nat := 0x520102
/-- 5300:01, R276. -/
abbrev E.mcastWrite : Nat := 0x530001
/-- 5300:02, R276. -/
abbrev E.mcastStatus : Nat := 0x530002
/-- 5300:03, R276. -/
abbrev E.mcastEntriesFree : Nat := 0x530003
/-- 5301:01, R276. -/
abbrev E.mcastMembers : Nat := 0x530101
/-- 5310:01, R276. -/
abbrev E.resultGroup : Nat := 0x531001
/-- 5400:01, R276. -/
abbrev E.drops : Nat := 0x540001
/-- 5400:02, R276. -/
abbrev E.dropsByPort : Nat := 0x540002
/-- 5400:03, R276. -/
abbrev E.doubleFree : Nat := 0x540003
/-- 5400:04, R276. -/
abbrev E.doubleRelease : Nat := 0x540004
/-- 5400:05, R276. -/
abbrev E.marked : Nat := 0x540005
/-- 5400:06, R276. -/
abbrev E.detoured : Nat := 0x540006
/-- 5400:07, R276. -/
abbrev E.pathFaultsSent : Nat := 0x540007
/-- 5400:08, R276. -/
abbrev E.resteered : Nat := 0x540008
/-- 5400:09, R276. -/
abbrev E.creditViolations : Nat := 0x540009
/-- 5400:0A, R276. -/
abbrev E.draining : Nat := 0x54000A

/-! Entries of spec/10_traffic_control.md -/
/-- 6000:01, R300. -/
abbrev E.gateEntriesMax : Nat := 0x600001
/-- 6000:02, R300. -/
abbrev E.wheelGranule : Nat := 0x600002
/-- 6000:03, R300. -/
abbrev E.wheelSpan : Nat := 0x600003
/-- 6000:04, R300. -/
abbrev E.rateMin : Nat := 0x600004
/-- 6000:05, R300. -/
abbrev E.linkAllowance : Nat := 0x600005
/-- 6000:06, R300. -/
abbrev E.gateChangeLead : Nat := 0x600006
/-- 6000:07, R300. -/
abbrev E.circuitBurst : Nat := 0x600007
/-- 6010:01, R300. -/
abbrev E.shaperWrite : Nat := 0x601001
/-- 6010:02, R300. -/
abbrev E.shaperStatus : Nat := 0x601002
/-- 6010:03, R300. -/
abbrev E.shaper : Nat := 0x601003
/-- 6010:04, R300. -/
abbrev E.shaperState : Nat := 0x601004
/-- 6010:05, R300. -/
abbrev E.cirSum : Nat := 0x601005
/-- 6020:01, R300. -/
abbrev E.policerWrite : Nat := 0x602001
/-- 6020:02, R300. -/
abbrev E.policerStatus : Nat := 0x602002
/-- 6020:03, R300. -/
abbrev E.policer : Nat := 0x602003
/-- 6020:04, R300. -/
abbrev E.policedFrames : Nat := 0x602004
/-- 6030:01, R300. -/
abbrev E.samplePeriod : Nat := 0x603001
/-- 6030:02, R300. -/
abbrev E.depth : Nat := 0x603002
/-- 6030:03, R300. -/
abbrev E.depthSample : Nat := 0x603003
/-- 6030:04, R300. -/
abbrev E.delayMax : Nat := 0x603004
/-- 6030:05, R300. -/
abbrev E.delayMean : Nat := 0x603005
/-- 6030:06, R300. -/
abbrev E.depthHwm : Nat := 0x603006
/-- 6030:07, R300. -/
abbrev E.delayHwm : Nat := 0x603007
/-- 6030:08, R300. -/
abbrev E.delayAlarm : Nat := 0x603008
/-- 6031:01, R300. -/
abbrev E.circuitDepth : Nat := 0x603101
/-- 6031:02, R300. -/
abbrev E.circuitDelayHwm : Nat := 0x603102
/-- 6040:01, R300. -/
abbrev E.gateWrite : Nat := 0x604001
/-- 6040:02, R300. -/
abbrev E.gateStatus : Nat := 0x604002
/-- 6040:03, R300. -/
abbrev E.gateOper : Nat := 0x604003
/-- 6040:04, R300. -/
abbrev E.gatePending : Nat := 0x604004
/-- 6040:05, R300. -/
abbrev E.gateChangeAt : Nat := 0x604005
/-- 6040:06, R300. -/
abbrev E.gateNow : Nat := 0x604006
/-- 6040:07, R300. -/
abbrev E.gateWaits : Nat := 0x604007
/-- 6050:01, R300. -/
abbrev E.groupBase : Nat := 0x605001
/-- 6050:02, R300. -/
abbrev E.groupCycle : Nat := 0x605002
/-- 6050:03, R300. -/
abbrev E.groupChange : Nat := 0x605003
/-- 6050:04, R300. -/
abbrev E.groupLocked : Nat := 0x605004

/-! Entries of spec/11_forwarding_tables.md -/
/-- 6400:01, R323. -/
abbrev E.geiBlocks : Nat := 0x640001
/-- 6400:02, R323. -/
abbrev E.geiExactMax : Nat := 0x640002
/-- 6400:03, R323. -/
abbrev E.addrMode : Nat := 0x640003
/-- 6400:04, R323. -/
abbrev E.addrCapacity : Nat := 0x640004
/-- 6400:05, R323. -/
abbrev E.prefixUnits : Nat := 0x640005
/-- 6400:06, R323. -/
abbrev E.nextHops : Nat := 0x640006
/-- 6410:01, R323. -/
abbrev E.geiBlock : Nat := 0x641001
/-- 6411:01, R323. -/
abbrev E.geiExactWrite : Nat := 0x641101
/-- 6411:02, R323. -/
abbrev E.geiExactStatus : Nat := 0x641102
/-- 6411:03, R323. -/
abbrev E.geiQuery : Nat := 0x641103
/-- 6420:01, R323. -/
abbrev E.vlan : Nat := 0x642001
/-- 6420:02, R323. -/
abbrev E.portVid : Nat := 0x642002
/-- 6420:03, R323. -/
abbrev E.learnMode : Nat := 0x642003
/-- 6420:04, R323. -/
abbrev E.learnGroup : Nat := 0x642004
/-- 6421:01, R323. -/
abbrev E.addrWrite : Nat := 0x642101
/-- 6421:02, R323. -/
abbrev E.addrStatus : Nat := 0x642102
/-- 6421:03, R323. -/
abbrev E.addrQuery : Nat := 0x642103
/-- 6421:04, R323. -/
abbrev E.addrCount : Nat := 0x642104
/-- 6421:05, R323. -/
abbrev E.ageTime : Nat := 0x642105
/-- 6421:06, R323. -/
abbrev E.addrFlush : Nat := 0x642106
/-- 6430:01, R323. -/
abbrev E.learnPop : Nat := 0x643001
/-- 6430:02, R323. -/
abbrev E.learnPending : Nat := 0x643002
/-- 6440:01, R323. -/
abbrev E.routerMac : Nat := 0x644001
/-- 6441:01, R323. -/
abbrev E.prefixWrite : Nat := 0x644101
/-- 6441:02, R323. -/
abbrev E.prefixStatus : Nat := 0x644102
/-- 6441:03, R323. -/
abbrev E.prefixUnitsFree : Nat := 0x644103
/-- 6441:04, R323. -/
abbrev E.lpmQuery : Nat := 0x644104
/-- 6442:01, R323. -/
abbrev E.nexthopWrite : Nat := 0x644201
/-- 6442:02, R323. -/
abbrev E.nexthopStatus : Nat := 0x644202
/-- 6450:01, R323. -/
abbrev E.fwdCounts : Nat := 0x645001

/-! Entries of spec/12_optical_io.md -/
/-- 4000:01, R359. -/
abbrev E.engines : Nat := 0x400001
/-- 4000:02, R359. -/
abbrev E.channels : Nat := 0x400002
/-- 4000:03, R359. -/
abbrev E.w0Freq : Nat := 0x400003
/-- 4000:04, R359. -/
abbrev E.gridSpacing : Nat := 0x400004
/-- 4000:05, R359. -/
abbrev E.lineRateNow : Nat := 0x400005
/-- 4001:01, R359. -/
abbrev E.engineCap : Nat := 0x400101
/-- 4001:02, R359. -/
abbrev E.engineState : Nat := 0x400102
/-- 4001:03, R359. -/
abbrev E.engineCause : Nat := 0x400103
/-- 4001:04, R359. -/
abbrev E.bypassLimit : Nat := 0x400104
/-- 4010:01, R359. -/
abbrev E.fiberMode : Nat := 0x401001
/-- 4010:02, R359. -/
abbrev E.narrowEn : Nat := 0x401002
/-- 4010:03, R359. -/
abbrev E.portRateNow : Nat := 0x401003
/-- 4010:04, R359. -/
abbrev E.portWavesNow : Nat := 0x401004
/-- 4011:01, R359. -/
abbrev E.fecCorrected : Nat := 0x401101
/-- 4011:02, R359. -/
abbrev E.fecUncorrected : Nat := 0x401102
/-- 4011:03, R359. -/
abbrev E.preFecBer : Nat := 0x401103
/-- 4011:04, R359. -/
abbrev E.berAlarm : Nat := 0x401104
/-- 4020:01, R359. -/
abbrev E.ringState : Nat := 0x402001
/-- 4020:02, R359. -/
abbrev E.ringHeater : Nat := 0x402002
/-- 4020:03, R359. -/
abbrev E.ringPilot : Nat := 0x402003
/-- 4020:04, R359. -/
abbrev E.wrongLocks : Nat := 0x402004
/-- 4020:05, R359. -/
abbrev E.relocks : Nat := 0x402005
/-- 4020:06, R359. -/
abbrev E.ringRetry : Nat := 0x402006
/-- 4020:07, R359. -/
abbrev E.tempRateMax : Nat := 0x402007
/-- 4020:08, R359. -/
abbrev E.photonicTemp : Nat := 0x402008
/-- 4030:01, R359. -/
abbrev E.laserState : Nat := 0x403001
/-- 4030:02, R359. -/
abbrev E.laserEnable : Nat := 0x403002
/-- 4030:03, R359. -/
abbrev E.laserPower : Nat := 0x403003
/-- 4030:04, R359. -/
abbrev E.laserPilot : Nat := 0x403004
/-- 4040:01, R359. -/
abbrev E.monPower : Nat := 0x404001
/-- 4040:02, R359. -/
abbrev E.monLow : Nat := 0x404002
/-- 4040:03, R359. -/
abbrev E.lossLocated : Nat := 0x404003
/-- 4050:01, R359. -/
abbrev E.calEn : Nat := 0x405001
/-- 4050:02, R359. -/
abbrev E.calBase : Nat := 0x405002
/-- 4050:03, R359. -/
abbrev E.calPeriod : Nat := 0x405003
/-- 4050:04, R359. -/
abbrev E.calSlot : Nat := 0x405004
/-- 4050:05, R359. -/
abbrev E.calSkipped : Nat := 0x405005
/-- 4050:06, R359. -/
abbrev E.narrowFailed : Nat := 0x405006
/-- 4060:01, R359. -/
abbrev E.bypassWrite : Nat := 0x406001
/-- 4060:02, R359. -/
abbrev E.bypassStatus : Nat := 0x406002
/-- 4060:03, R359. -/
abbrev E.bypassState : Nat := 0x406003
/-- 4060:04, R359. -/
abbrev E.bypassLoss : Nat := 0x406004

/-! Entries of spec/13_die_links.md -/
/-- 3400:01, R385. -/
abbrev E.modules : Nat := 0x340001
/-- 3400:02, R385. -/
abbrev E.modulePayload : Nat := 0x340002
/-- 3400:03, R385. -/
abbrev E.stitchChannels : Nat := 0x340003
/-- 3400:04, R385. -/
abbrev E.stitchWires : Nat := 0x340004
/-- 3410:01, R385. -/
abbrev E.moduleState : Nat := 0x341001
/-- 3410:02, R385. -/
abbrev E.moduleWidth : Nat := 0x341002
/-- 3410:03, R385. -/
abbrev E.moduleRepairs : Nat := 0x341003
/-- 3410:04, R385. -/
abbrev E.moduleRetrain : Nat := 0x341004
/-- 3410:05, R385. -/
abbrev E.moduleRetrainStatus : Nat := 0x341005
/-- 3410:06, R385. -/
abbrev E.moduleReplays : Nat := 0x341006
/-- 3411:01, R385. -/
abbrev E.engineCapacity : Nat := 0x341101
/-- 3411:02, R385. -/
abbrev E.engineDemand : Nat := 0x341102
/-- 3411:03, R385. -/
abbrev E.portsShed : Nat := 0x341103
/-- 3411:04, R385. -/
abbrev E.attachDrops : Nat := 0x341104
/-- 3420:01, R385. -/
abbrev E.pairChannels : Nat := 0x342001
/-- 3420:02, R385. -/
abbrev E.pairSparesUsed : Nat := 0x342002
/-- 3420:03, R385. -/
abbrev E.pairReplays : Nat := 0x342003
/-- 3420:04, R385. -/
abbrev E.channelQuery : Nat := 0x342004
/-- 3420:05, R385. -/
abbrev E.pairTestsClean : Nat := 0x342005
/-- 3430:01, R385. -/
abbrev E.ringChannels : Nat := 0x343001
/-- 3430:02, R385. -/
abbrev E.ringEntryWaits : Nat := 0x343002
/-- 3440:01, R385. -/
abbrev E.widthLog : Nat := 0x344001
/-- 3440:02, R385. -/
abbrev E.widthLogNext : Nat := 0x344002
/-- 3450:01, R385. -/
abbrev E.factoryRestitch : Nat := 0x345001
/-- 3450:02, R385. -/
abbrev E.walkResult : Nat := 0x345002

/-! Entries of spec/14_fabric_time.md -/
/-- 3000:01, R409. -/
abbrev E.timeNow : Nat := 0x300001
/-- 3000:02, R409. -/
abbrev E.timeState : Nat := 0x300002
/-- 3000:03, R409. -/
abbrev E.stepDone : Nat := 0x300003
/-- 3000:04, R409. -/
abbrev E.stepArm : Nat := 0x300004
/-- 3000:05, R409. -/
abbrev E.stepStatus : Nat := 0x300005
/-- 3000:06, R409. -/
abbrev E.offsetNow : Nat := 0x300006
/-- 3000:07, R409. -/
abbrev E.rateAdj : Nat := 0x300007
/-- 3000:08, R409. -/
abbrev E.rateLimit : Nat := 0x300008
/-- 3000:09, R409. -/
abbrev E.stepThreshold : Nat := 0x300009
/-- 3000:0A, R409. -/
abbrev E.syncBand : Nat := 0x30000A
/-- 3010:01, R409. -/
abbrev E.rootPriority : Nat := 0x301001
/-- 3010:02, R409. -/
abbrev E.ptpRootPriority : Nat := 0x301002
/-- 3010:03, R409. -/
abbrev E.parent : Nat := 0x301003
/-- 3010:04, R409. -/
abbrev E.root : Nat := 0x301004
/-- 3020:01, R409. -/
abbrev E.portTimeMode : Nat := 0x302001
/-- 3020:02, R409. -/
abbrev E.linkTimeInterval : Nat := 0x302002
/-- 3020:03, R409. -/
abbrev E.linkDelay : Nat := 0x302003
/-- 3020:04, R409. -/
abbrev E.linkAsym : Nat := 0x302004
/-- 3020:05, R409. -/
abbrev E.timeIgnored : Nat := 0x302005
/-- 3030:01, R409. -/
abbrev E.ptpEnable : Nat := 0x303001
/-- 3030:02, R409. -/
abbrev E.ptpDomain : Nat := 0x303002
/-- 3030:03, R409. -/
abbrev E.ptpPriority1 : Nat := 0x303003
/-- 3030:04, R409. -/
abbrev E.ptpPriority2 : Nat := 0x303004
/-- 3030:05, R409. -/
abbrev E.ptpLogSync : Nat := 0x303005
/-- 3030:06, R409. -/
abbrev E.ptpDelayMech : Nat := 0x303006
/-- 3030:07, R409. -/
abbrev E.ptpPortState : Nat := 0x303007
/-- 3040:01, R409. -/
abbrev E.groupRole : Nat := 0x304001
/-- 3040:02, R409. -/
abbrev E.groupDelay : Nat := 0x304002
/-- 3040:03, R409. -/
abbrev E.groupState : Nat := 0x304003
/-- 3050:01, R409. -/
abbrev E.tpoConfig : Nat := 0x305001
/-- 3050:02, R409. -/
abbrev E.tpoNext : Nat := 0x305002
/-- 3060:01, R409. -/
abbrev E.tcapEdge : Nat := 0x306001
/-- 3060:02, R409. -/
abbrev E.tcapPop : Nat := 0x306002
/-- 3060:03, R409. -/
abbrev E.tcapPending : Nat := 0x306003
/-- 3060:04, R409. -/
abbrev E.tcapLost : Nat := 0x306004
/-- 3070:01, R409. -/
abbrev E.stampComp : Nat := 0x307001

/-! Entries of spec/15_faults_and_abort.md -/
/-- 9000:01, R442. -/
abbrev E.healthInterval : Nat := 0x900001
/-- 9000:02, R442. -/
abbrev E.dieTimeout : Nat := 0x900002
/-- 9000:03, R442. -/
abbrev E.hsBeatInterval : Nat := 0x900003
/-- 9000:04, R442. -/
abbrev E.hsLost : Nat := 0x900004
/-- 9000:05, R442. -/
abbrev E.quireMismatchLimit : Nat := 0x900005
/-- 9000:06, R442. -/
abbrev E.quireMismatchWindow : Nat := 0x900006
/-- 9000:07, R442. -/
abbrev E.forwardBound : Nat := 0x900007
/-- 9000:08, R442. -/
abbrev E.abortBound : Nat := 0x900008
/-- 9000:09, R442. -/
abbrev E.takeoverBound : Nat := 0x900009
/-- 9001:01, R442. -/
abbrev E.dieState : Nat := 0x900101
/-- 9001:02, R442. -/
abbrev E.dieCause : Nat := 0x900102
/-- 9001:03, R442. -/
abbrev E.dieExcludedAt : Nat := 0x900103
/-- 9010:01, R442. -/
abbrev E.capVersion : Nat := 0x901001
/-- 9010:02, R442. -/
abbrev E.capExcluded : Nat := 0x901002
/-- 9010:03, R442. -/
abbrev E.capPorts : Nat := 0x901003
/-- 9010:04, R442. -/
abbrev E.capLineRate : Nat := 0x901004
/-- 9010:05, R442. -/
abbrev E.capQuireDies : Nat := 0x901005
/-- 9010:06, R442. -/
abbrev E.capSramSlots : Nat := 0x901006
/-- 9010:07, R442. -/
abbrev E.capReductionIngress : Nat := 0x901007
/-- 9010:08, R442. -/
abbrev E.capArrays : Nat := 0x901008
/-- 9010:09, R442. -/
abbrev E.capUpdateLanes : Nat := 0x901009
/-- 9010:0A, R442. -/
abbrev E.capStacks : Nat := 0x90100A
/-- 9010:0B, R442. -/
abbrev E.capStateBytes : Nat := 0x90100B
/-- 9010:0C, R442. -/
abbrev E.capSpillBytes : Nat := 0x90100C
/-- 9010:0D, R442. -/
abbrev E.capStitchChannels : Nat := 0x90100D
/-- 9010:0E, R442. -/
abbrev E.capModules : Nat := 0x90100E
/-- 9010:0F, R442. -/
abbrev E.capOpticalChannels : Nat := 0x90100F
/-- 9010:10, R442. -/
abbrev E.capTime : Nat := 0x901010
/-- 9020:01, R442. -/
abbrev E.keeperActive : Nat := 0x902001
/-- 9020:02, R442. -/
abbrev E.standbyState : Nat := 0x902002
/-- 9020:03, R442. -/
abbrev E.keeperRejoin : Nat := 0x902003
/-- 9020:04, R442. -/
abbrev E.keeperSwitch : Nat := 0x902004
/-- 9020:05, R442. -/
abbrev E.takeovers : Nat := 0x902005
/-- 9020:06, R442. -/
abbrev E.takeoverLast : Nat := 0x902006
/-- 9020:07, R442. -/
abbrev E.mirrorLag : Nat := 0x902007
/-- 9030:01, R442. -/
abbrev E.peerQuery : Nat := 0x903001
/-- 9030:02, R442. -/
abbrev E.peers : Nat := 0x903002
/-- 9030:03, R442. -/
abbrev E.peersLost : Nat := 0x903003
/-- 9031:01, R442. -/
abbrev E.abortsOriginated : Nat := 0x903101
/-- 9031:02, R442. -/
abbrev E.abortsRelayed : Nat := 0x903102
/-- 9031:03, R442. -/
abbrev E.abortLast : Nat := 0x903103
/-- 9031:04, R442. -/
abbrev E.abortSpanMax : Nat := 0x903104
/-- 9040:01, R442. -/
abbrev E.parityCreate : Nat := 0x904001
/-- 9040:02, R442. -/
abbrev E.parityStatus : Nat := 0x904002
/-- 9040:03, R442. -/
abbrev E.parityDelete : Nat := 0x904003
/-- 9040:04, R442. -/
abbrev E.parityQuery : Nat := 0x904004
/-- 9040:05, R442. -/
abbrev E.parityWait : Nat := 0x904005
/-- 9041:01, R442. -/
abbrev E.rebuildStart : Nat := 0x904101
/-- 9041:02, R442. -/
abbrev E.rebuildStatus : Nat := 0x904102
/-- 9041:03, R442. -/
abbrev E.rebuildProgress : Nat := 0x904103
/-- 9042:01, R442. -/
abbrev E.coarseFill : Nat := 0x904201
/-- 9042:02, R442. -/
abbrev E.inexact : Nat := 0x904202

/-! Entries of spec/16_jobs_spawn_retire.md -/
/-- 7100:01, R469. -/
abbrev E.jobStart : Nat := 0x710001
/-- 7100:02, R469. -/
abbrev E.jobRetire : Nat := 0x710002
/-- 7100:03, R469. -/
abbrev E.jobRetireStatus : Nat := 0x710003
/-- 7100:04, R469. -/
abbrev E.jobWithdraw : Nat := 0x710004
/-- 7100:05, R469. -/
abbrev E.jobWithdrawStatus : Nat := 0x710005
/-- 7101:01, R469. -/
abbrev E.tableOwner : Nat := 0x710101
/-- 7110:01, R469. -/
abbrev E.jobQuery : Nat := 0x711001
/-- 7110:02, R469. -/
abbrev E.jobsActive : Nat := 0x711002
/-- 7110:03, R469. -/
abbrev E.jobsPending : Nat := 0x711003
/-- 7110:04, R469. -/
abbrev E.quarantine : Nat := 0x711004
/-- 7111:01, R469. -/
abbrev E.freeView : Nat := 0x711101
/-- 7111:02, R469. -/
abbrev E.jobQuota : Nat := 0x711102
/-- 7120:01, R469. -/
abbrev E.staleIngress : Nat := 0x712001
/-- 7120:02, R469. -/
abbrev E.staleEgress : Nat := 0x712002
/-- 7180:01, R469. -/
abbrev E.spawnOpen : Nat := 0x718001
/-- 7180:02, R469. -/
abbrev E.spawnStatus : Nat := 0x718002
/-- 7180:03, R469. -/
abbrev E.spawnClose : Nat := 0x718003
/-- 7181:01, R469. -/
abbrev E.spawnQuery : Nat := 0x718101
/-- 7182:01, R469. -/
abbrev E.blocksCached : Nat := 0x718201
/-- 7182:02, R469. -/
abbrev E.blocksServed : Nat := 0x718202
/-- 7182:03, R469. -/
abbrev E.reparents : Nat := 0x718203
/-- 7182:04, R469. -/
abbrev E.spawnBad : Nat := 0x718204

/-! Entries of spec/17_parameter_dictionary.md -/
/-- 1000:01, R505. -/
abbrev E.vendor : Nat := 0x100001
/-- 1000:02, R505. -/
abbrev E.family : Nat := 0x100002
/-- 1000:03, R505. -/
abbrev E.orderCode : Nat := 0x100003
/-- 1000:04, R505. -/
abbrev E.revision : Nat := 0x100004
/-- 1000:05, R505. -/
abbrev E.serial : Nat := 0x100005
/-- 1000:06, R505. -/
abbrev E.pciIds : Nat := 0x100006
/-- 1000:07, R505. -/
abbrev E.fwVersion : Nat := 0x100007
/-- 1001:01, R505. -/
abbrev E.deviceGei : Nat := 0x100101
/-- 1001:02, R505. -/
abbrev E.role : Nat := 0x100102
/-- 1001:03, R505. -/
abbrev E.roleNow : Nat := 0x100103
/-- 1002:01, R505. -/
abbrev E.deviceState : Nat := 0x100201
/-- 1002:02, R505. -/
abbrev E.readySince : Nat := 0x100202
/-- 1002:03, R505. -/
abbrev E.severityHighest : Nat := 0x100203
/-- 1002:04, R505. -/
abbrev E.noticesRaised : Nat := 0x100204
/-- 1003:01, R505. -/
abbrev E.mgmtMac : Nat := 0x100301
/-- 1003:02, R505. -/
abbrev E.mgmtIpv4 : Nat := 0x100302
/-- 1003:03, R505. -/
abbrev E.mgmtIpv4Prefix : Nat := 0x100303
/-- 1003:04, R505. -/
abbrev E.mgmtIpv6 : Nat := 0x100304
/-- 1003:05, R505. -/
abbrev E.mgmtGateway : Nat := 0x100305
/-- 1003:06, R505. -/
abbrev E.dapUdpPort : Nat := 0x100306
/-- F000:01, R505. -/
abbrev E.entryQuery : Nat := 0xF00001
/-- F000:02, R505. -/
abbrev E.configLock : Nat := 0xF00002
/-- F000:03, R505. -/
abbrev E.localRights : Nat := 0xF00003
/-- F000:04, R505. -/
abbrev E.localRightsSmbus : Nat := 0xF00004
/-- F000:05, R505. -/
abbrev E.commitLast : Nat := 0xF00005
/-- F000:06, R505. -/
abbrev E.dapCounts : Nat := 0xF00006
/-- F010:01, R505. -/
abbrev E.nqConfig : Nat := 0xF01001
/-- F010:02, R505. -/
abbrev E.nqPop : Nat := 0xF01002
/-- F010:03, R505. -/
abbrev E.nqPending : Nat := 0xF01003
/-- F010:04, R505. -/
abbrev E.nqLost : Nat := 0xF01004
/-- F100:01, R505. -/
abbrev E.keyWrite : Nat := 0xF10001
/-- F100:02, R505. -/
abbrev E.keyState : Nat := 0xF10002
/-- F100:03, R505. -/
abbrev E.fabricTx : Nat := 0xF10003
/-- F200:01, R505. -/
abbrev E.bootSlot : Nat := 0xF20001
/-- F200:02, R505. -/
abbrev E.bootPref : Nat := 0xF20002
/-- F200:03, R505. -/
abbrev E.fwStage : Nat := 0xF20003
/-- F200:04, R505. -/
abbrev E.fwCommit : Nat := 0xF20004
/-- F200:05, R505. -/
abbrev E.fwStatus : Nat := 0xF20005
/-- F200:06, R505. -/
abbrev E.fwSvnMin : Nat := 0xF20006
/-- F200:07, R505. -/
abbrev E.fwSvnCommit : Nat := 0xF20007
/-- F200:08, R505. -/
abbrev E.fwMeasure : Nat := 0xF20008
/-- F300:01, R505. -/
abbrev E.attestCert : Nat := 0xF30001
/-- F300:02, R505. -/
abbrev E.attestNonce : Nat := 0xF30002
/-- F300:03, R505. -/
abbrev E.attestReport : Nat := 0xF30003
/-- F310:01, R505. -/
abbrev E.colophonExportReq : Nat := 0xF31001
/-- F310:02, R505. -/
abbrev E.colophonExport : Nat := 0xF31002
/-- F310:03, R505. -/
abbrev E.keyRotate : Nat := 0xF31003
/-- F310:04, R505. -/
abbrev E.keyPeriod : Nat := 0xF31004

/-! Entries of spec/18_counters_and_sampling.md -/
/-- A000:01, R522. -/
abbrev E.blocks : Nat := 0xA00001
/-- A000:02, R522. -/
abbrev E.counterBits : Nat := 0xA00002
/-- A010:01, R522. -/
abbrev E.counterValue : Nat := 0xA01001
/-- A011:01, R522. -/
abbrev E.counterSelect : Nat := 0xA01101
/-- A020:01, R522. -/
abbrev E.snapPeriod : Nat := 0xA02001
/-- A020:02, R522. -/
abbrev E.snapBase : Nat := 0xA02002
/-- A020:03, R522. -/
abbrev E.snapMask : Nat := 0xA02003
/-- A020:04, R522. -/
abbrev E.snapNext : Nat := 0xA02004
/-- A020:05, R522. -/
abbrev E.snapSelect : Nat := 0xA02005
/-- A020:06, R522. -/
abbrev E.snapEntry : Nat := 0xA02006
/-- A020:07, R522. -/
abbrev E.snapMissed : Nat := 0xA02007
/-- A020:08, R522. -/
abbrev E.snapOverwritten : Nat := 0xA02008
/-- A030:01, R522. -/
abbrev E.sampler : Nat := 0xA03001
/-- A030:02, R522. -/
abbrev E.sampleNext : Nat := 0xA03002
/-- A030:03, R522. -/
abbrev E.sampleSelect : Nat := 0xA03003
/-- A030:04, R522. -/
abbrev E.sampleEntry : Nat := 0xA03004
/-- A030:05, R522. -/
abbrev E.samplesDropped : Nat := 0xA03005
/-- A030:06, R522. -/
abbrev E.samplesOverwritten : Nat := 0xA03006

/-! Entries of spec/19_power_clocks_reset.md -/
/-- 2000:01, R548. -/
abbrev E.vinNow : Nat := 0x200001
/-- 2000:02, R548. -/
abbrev E.vinMin : Nat := 0x200002
/-- 2000:03, R548. -/
abbrev E.vaonNow : Nat := 0x200003
/-- 2000:04, R548. -/
abbrev E.vioNow : Nat := 0x200004
/-- 2000:05, R548. -/
abbrev E.supplyState : Nat := 0x200005
/-- 2000:06, R548. -/
abbrev E.braceEntries : Nat := 0x200006
/-- 2001:01, R548. -/
abbrev E.powerNow : Nat := 0x200101
/-- 2001:02, R548. -/
abbrev E.powerClass : Nat := 0x200102
/-- 2001:03, R548. -/
abbrev E.powerPeak : Nat := 0x200103
/-- 2001:04, R548. -/
abbrev E.powerLimit : Nat := 0x200104
/-- 2001:05, R548. -/
abbrev E.phaseFaults : Nat := 0x200105
/-- 2010:01, R548. -/
abbrev E.refclkSel : Nat := 0x201001
/-- 2010:02, R548. -/
abbrev E.refclkState : Nat := 0x201002
/-- 2010:03, R548. -/
abbrev E.clockFailovers : Nat := 0x201003
/-- 2011:01, R548. -/
abbrev E.domainState : Nat := 0x201101
/-- 2011:02, R548. -/
abbrev E.coldState : Nat := 0x201102
/-- 2020:01, R548. -/
abbrev E.startupTimes : Nat := 0x202001
/-- 2020:02, R548. -/
abbrev E.startupTotal : Nat := 0x202002
/-- 2021:01, R548. -/
abbrev E.resetDevice : Nat := 0x202101
/-- 2021:02, R548. -/
abbrev E.dieReset : Nat := 0x202102
/-- 2021:03, R548. -/
abbrev E.dieResetStatus : Nat := 0x202103
/-- 2021:04, R548. -/
abbrev E.resetCause : Nat := 0x202104
/-- 2021:05, R548. -/
abbrev E.resets : Nat := 0x202105
/-- 2030:01, R548. -/
abbrev E.dieTemp : Nat := 0x203001
/-- 2030:02, R548. -/
abbrev E.dieTempPeak : Nat := 0x203002
/-- 2030:03, R548. -/
abbrev E.baseTemp : Nat := 0x203003
/-- 2030:04, R548. -/
abbrev E.tempWarn : Nat := 0x203004
/-- 2030:05, R548. -/
abbrev E.tempLimit : Nat := 0x203005
/-- 2030:06, R548. -/
abbrev E.dieRateMax : Nat := 0x203006
/-- 2030:07, R548. -/
abbrev E.ffSensor : Nat := 0x203007
/-- 2030:08, R548. -/
abbrev E.throttled : Nat := 0x203008

/-! Entries of spec/20_signals_and_package.md -/
/-- 1004:01, R572. -/
abbrev E.straps : Nat := 0x100401
/-- 1004:02, R572. -/
abbrev E.smbAddress : Nat := 0x100402
/-- 1004:03, R572. -/
abbrev E.jtagIdcode : Nat := 0x100403
/-- 1004:04, R572. -/
abbrev E.lmBusState : Nat := 0x100404

/-- Part 1 of the entry list. -/
def dictRows1 : List EntryRow := [
  ⟨0x780001, .i16, .ro, 0, 0xff00, []⟩,
  ⟨0x780002, .i16, .ro, 0, 0x40, []⟩,
  ⟨0x780003, .u8, .ro, 0, 0x20, []⟩,
  ⟨0x780004, .u16, .ro, 0, 0x1000, []⟩,
  ⟨0x780101, .u64, .ro, 0, 0x1013f3e, []⟩,
  ⟨0x781001, .enumT, .ro, 16384, 1, []⟩,
  ⟨0x781002, .i16, .rw, 16384, 0xff94, [(-256,64,1)]⟩,
  ⟨0x781003, .u8, .ro, 16384, 4, []⟩,
  ⟨0x781004, .i16, .ro, 16384, 0xff94, []⟩,
  ⟨0x781005, .i16, .ro, 16384, 0x7fff, []⟩,
  ⟨0x781101, .u8, .rws, 16384, 0, []⟩,
  ⟨0x781102, .u16, .ro, 16384, 0, []⟩,
  ⟨0x781201, .u16, .rw, 0, 0, []⟩,
  ⟨0x781202, .u64, .ro, 293, 0, []⟩,
  ⟨0x782001, .u64, .ro, 0, 0, []⟩,
  ⟨0x782002, .bytes 32 32, .ro, 0, 0, []⟩,
  ⟨0x782003, .boolT, .rws, 0, 0, []⟩,
  ⟨0x783001, .u8, .ro, 16384, 3, []⟩,
  ⟨0x783002, .f32, .ro, 16384, 0x3f800000, []⟩,
  ⟨0x783003, .f32, .ro, 16384, 0, []⟩,
  ⟨0x783004, .f32, .ro, 16384, 0xff7fffff, []⟩,
  ⟨0x783005, .f32, .ro, 16384, 0x7f7fffff, []⟩,
  ⟨0x783006, .boolT, .ro, 16384, 0, []⟩,
  ⟨0x784001, .boolT, .ro, 16384, 1, []⟩,
  ⟨0x784002, .u16, .ro, 16384, 0x100, []⟩,
  ⟨0x784003, .u64, .ro, 0, 0, []⟩,
  ⟨0x700001, .u16, .ro, 0, 0x4000, []⟩,
  ⟨0x700002, .u32, .ro, 0, 0x40000, []⟩,
  ⟨0x700003, .u16, .ro, 0, 0x1000, []⟩,
  ⟨0x700004, .u8, .ro, 0, 0xff, []⟩,
  ⟨0x700005, .u8, .ro, 0, 0x40, []⟩,
  ⟨0x700006, .u32, .ro, 0, 0xfffffff0, []⟩,
  ⟨0x700007, .time, .ro, 0, 0x4c4b400000, []⟩,
  ⟨0x700101, .bytes 64 1596, .wo, 0, 0, []⟩,
  ⟨0x700102, .u8, .ro, 0, 0, []⟩,
  ⟨0x700103, .u16, .ro, 0, 0, []⟩,
  ⟨0x700104, .u32, .wo, 0, 0, []⟩,
  ⟨0x700105, .u16, .rw, 0, 0, []⟩,
  ⟨0x700106, .u8, .ro, 0, 0, []⟩,
  ⟨0x700201, .bytes 8 8, .wo, 0, 0, []⟩]

/-- Part 2 of the entry list. -/
def dictRows2 : List EntryRow := [
  ⟨0x700202, .u8, .ro, 0, 0, []⟩,
  ⟨0x701001, .u32, .ro, 16384, 0, []⟩,
  ⟨0x701002, .enumT, .ro, 16384, 0, []⟩,
  ⟨0x701003, .u8, .ro, 16384, 0, []⟩,
  ⟨0x701004, .u32, .ro, 16384, 0, []⟩,
  ⟨0x701005, .u8, .ro, 16384, 0, []⟩,
  ⟨0x701006, .u8, .ro, 16384, 0, []⟩,
  ⟨0x701007, .u32, .ro, 16384, 0, []⟩,
  ⟨0x701008, .u16, .ro, 16384, 0xc8, []⟩,
  ⟨0x701009, .u16, .ro, 16384, 0x7d0, []⟩,
  ⟨0x70100A, .u32, .ro, 16384, 0, []⟩,
  ⟨0x702001, .bytes 16 16, .rw, 0, 0, []⟩,
  ⟨0x704001, .u64, .ro, 0, 0, []⟩,
  ⟨0x704002, .u64, .ro, 17, 0, []⟩,
  ⟨0x704003, .u64, .ro, 0, 0, []⟩,
  ⟨0x704004, .u64, .ro, 0, 0, []⟩,
  ⟨0x704005, .u64, .ro, 0, 0, []⟩,
  ⟨0x704006, .u64, .ro, 0, 0, []⟩,
  ⟨0x705001, .boolT, .rw, 0, 1, [(0,1,1)]⟩,
  ⟨0x705002, .time, .rw, 0, 0x4e200000, [(65536000,655360000000,1)]⟩,
  ⟨0x705003, .bytes 16 16, .wo, 0, 0, []⟩,
  ⟨0x705004, .u8, .ro, 0, 0, []⟩,
  ⟨0x705005, .u16, .ro, 0, 0, []⟩,
  ⟨0x705006, .u64, .ro, 0, 0, []⟩,
  ⟨0x705007, .u64, .ro, 0, 0, []⟩,
  ⟨0x740001, .u32, .ro, 0, 0x28000, []⟩,
  ⟨0x740002, .u32, .ro, 10, 0x4000, []⟩,
  ⟨0x740003, .u32, .ro, 0, 0x20000, []⟩,
  ⟨0x740004, .u32, .ro, 0, 0, []⟩,
  ⟨0x740005, .u32, .ro, 0, 0x4000, []⟩,
  ⟨0x740006, .u16, .rw, 0, 0x400, [(0,16384,1)]⟩,
  ⟨0x740007, .u16, .rw, 0, 0x40, [(8,4096,1)]⟩,
  ⟨0x740008, .boolT, .rw, 0, 1, [(0,1,1)]⟩,
  ⟨0x740009, .u64, .ro, 0, 0, []⟩,
  ⟨0x74000A, .u64, .ro, 0, 0, []⟩,
  ⟨0x74000B, .u64, .ro, 0, 0, []⟩,
  ⟨0x74000C, .u32, .ro, 0, 0x800000, []⟩,
  ⟨0x74000D, .u32, .ro, 0, 0, []⟩,
  ⟨0x741001, .u32, .ro, 16384, 0, []⟩,
  ⟨0x741002, .u32, .ro, 16384, 0, []⟩]

/-- Part 3 of the entry list. -/
def dictRows3 : List EntryRow := [
  ⟨0x741003, .u32, .ro, 16384, 0, []⟩,
  ⟨0x741004, .u32, .ro, 16384, 0, []⟩,
  ⟨0x741005, .u32, .ro, 16384, 0, []⟩,
  ⟨0x741006, .u32, .ro, 16384, 0, []⟩,
  ⟨0x741007, .u64, .ro, 16384, 0, []⟩,
  ⟨0x742001, .time, .ro, 0, 0x7d00000, []⟩,
  ⟨0x742002, .time, .ro, 0, 0x3e80000, []⟩,
  ⟨0x742003, .time, .ro, 16384, 0, []⟩,
  ⟨0x742004, .bytes 32 32, .rw, 0, 0, []⟩,
  ⟨0x743001, .u64, .ro, 0, 0, []⟩,
  ⟨0x743002, .u64, .ro, 0, 0, []⟩,
  ⟨0x743003, .u64, .ro, 0, 0, []⟩,
  ⟨0x743004, .u64, .ro, 0, 0, []⟩,
  ⟨0x743005, .u64, .ro, 0, 0, []⟩,
  ⟨0x743006, .u64, .ro, 0, 0, []⟩,
  ⟨0x743007, .u64, .ro, 0, 0, []⟩,
  ⟨0x743008, .u64, .ro, 0, 0, []⟩,
  ⟨0x743009, .u64, .ro, 0, 0, []⟩,
  ⟨0x74300A, .u64, .ro, 0, 0, []⟩,
  ⟨0x74300B, .u64, .ro, 0, 0, []⟩,
  ⟨0x744001, .time, .ro, 0, 0x4b00000, []⟩,
  ⟨0x744002, .time, .ro, 0, 0xfa00000, []⟩,
  ⟨0x744003, .time, .rws, 0, 0, []⟩,
  ⟨0x7C0001, .u64, .ro, 0, 0x1fffffffffffffff, []⟩,
  ⟨0x7C0002, .u8, .rw, 0, 2, [(1,8,1)]⟩,
  ⟨0x7C0003, .time, .rw, 0, 0x1f400000, [(131072000,65536000000,1)]⟩,
  ⟨0x7C0004, .u32, .ro, 0, 0x17d78400, []⟩,
  ⟨0x7C0005, .u16, .ro, 0, 0x1000, []⟩,
  ⟨0x7C0101, .bytes 24 24, .rw, 0, 0, []⟩,
  ⟨0x7C1001, .enumT, .rw, 16384, 0, [(0,3,1)]⟩,
  ⟨0x7C1002, .u32, .rw, 16384, 0, [(0,0xFFFFFF,1)]⟩,
  ⟨0x7C2001, .u32, .ro, 0, 0x800000, []⟩,
  ⟨0x7C2002, .u64, .ro, 0, 0, []⟩,
  ⟨0x7C2003, .u64, .rw, 0, 0, []⟩,
  ⟨0x7C2004, .bytes 128 128, .ro, 0, 0, []⟩,
  ⟨0x7C2101, .u32, .ro, 0, 0, []⟩,
  ⟨0x7C3001, .u64, .ro, 0, 0, []⟩,
  ⟨0x7C3002, .u64, .ro, 0, 0, []⟩,
  ⟨0x7C3003, .u64, .ro, 0, 0, []⟩,
  ⟨0x7C3004, .u64, .ro, 0, 0, []⟩]

/-- Part 4 of the entry list. -/
def dictRows4 : List EntryRow := [
  ⟨0x7C3005, .u64, .ro, 0, 0, []⟩,
  ⟨0x7C3006, .u64, .ro, 0, 0, []⟩,
  ⟨0x7C3007, .u64, .ro, 0, 0, []⟩,
  ⟨0x7C3008, .u64, .ro, 0, 0, []⟩,
  ⟨0x7C3009, .u64, .ro, 0, 0, []⟩,
  ⟨0x7C300A, .u64, .ro, 0, 0, []⟩,
  ⟨0x7C300B, .u64, .rws, 10, 0, []⟩,
  ⟨0x800001, .u8, .ro, 0, 0x40, []⟩,
  ⟨0x800002, .u16, .ro, 0, 0x4000, []⟩,
  ⟨0x800003, .u16, .ro, 0, 0x1000, []⟩,
  ⟨0x800004, .u16, .ro, 0, 0x100, []⟩,
  ⟨0x800005, .u32, .ro, 0, 0x10000, []⟩,
  ⟨0x800006, .u32, .ro, 0, 0x1000000, []⟩,
  ⟨0x800007, .u8, .ro, 0, 0x40, []⟩,
  ⟨0x800101, .bytes 9 4104, .wo, 0, 0, []⟩,
  ⟨0x800102, .u32, .wo, 0, 0, []⟩,
  ⟨0x800103, .u8, .ro, 0, 0, []⟩,
  ⟨0x800104, .u16, .rw, 0, 0, []⟩,
  ⟨0x800201, .bytes 8 8, .wo, 0, 0, []⟩,
  ⟨0x800301, .bytes 1028 1028, .wo, 0, 0, []⟩,
  ⟨0x801001, .bytes 32 32, .wo, 0, 0, []⟩,
  ⟨0x801002, .u8, .ro, 0, 0, []⟩,
  ⟨0x801003, .u32, .wo, 0, 0, []⟩,
  ⟨0x801004, .bytes 4104 4104, .rw, 0, 0, []⟩,
  ⟨0x801005, .bytes 16 16, .rw, 0, 0, []⟩,
  ⟨0x802001, .u32, .ro, 64, 0, []⟩,
  ⟨0x802002, .enumT, .ro, 64, 0, []⟩,
  ⟨0x802003, .u32, .ro, 64, 0, []⟩,
  ⟨0x802004, .u8, .ro, 64, 0, []⟩,
  ⟨0x802005, .u32, .ro, 64, 0, []⟩,
  ⟨0x803001, .bytes 16 16, .rw, 0, 0, []⟩,
  ⟨0x804001, .u64, .ro, 0, 0, []⟩,
  ⟨0x804002, .u64, .ro, 0, 0, []⟩,
  ⟨0x804003, .u64, .ro, 0, 0, []⟩,
  ⟨0x804004, .u64, .ro, 0, 0, []⟩,
  ⟨0x804005, .u64, .ro, 0, 0, []⟩,
  ⟨0x804006, .u64, .ro, 0, 0, []⟩,
  ⟨0x805001, .u16, .ro, 10, 0x1000, []⟩,
  ⟨0x805002, .u64, .ro, 0, 0, []⟩,
  ⟨0x880001, .u8, .ro, 0, 0x28, []⟩]

/-- Part 5 of the entry list. -/
def dictRows5 : List EntryRow := [
  ⟨0x880002, .u8, .ro, 0, 0x28, []⟩,
  ⟨0x880003, .u32, .ro, 0, 0x2000000, []⟩,
  ⟨0x880004, .u8, .ro, 0, 0x40, []⟩,
  ⟨0x880005, .u64, .ro, 0, 0x100001f0e, []⟩,
  ⟨0x880006, .time, .rw, 0, 0x2540be4000000, [(65536000000,235929600000000000,1)]⟩,
  ⟨0x880007, .u64, .ro, 0, 0x200000, []⟩,
  ⟨0x880101, .enumT, .ro, 40, 0, []⟩,
  ⟨0x880102, .enumT, .ro, 40, 0, []⟩,
  ⟨0x881001, .bytes 8 8, .wo, 0, 0, []⟩,
  ⟨0x881002, .enumT, .ro, 64, 0, []⟩,
  ⟨0x881003, .boolT, .rws, 64, 0, []⟩,
  ⟨0x884001, .u64, .ro, 40, 0, []⟩,
  ⟨0x884002, .u64, .ro, 40, 0, []⟩,
  ⟨0x884003, .u64, .ro, 0, 0, []⟩,
  ⟨0x884004, .u64, .ro, 40, 0, []⟩,
  ⟨0x884005, .u64, .ro, 40, 0, []⟩,
  ⟨0x884006, .u64, .ro, 0, 0, []⟩,
  ⟨0x884007, .u64, .ro, 0, 0, []⟩,
  ⟨0x884008, .u64, .ro, 0, 0, []⟩,
  ⟨0x8C0001, .u8, .ro, 0, 0x14, []⟩,
  ⟨0x8C0002, .u8, .ro, 0, 0x14, []⟩,
  ⟨0x8C0003, .u64, .ro, 0, 0x1800000000, []⟩,
  ⟨0x8C0101, .bytes 8 8, .rw, 0, 0x180008000200000, []⟩,
  ⟨0x8C0102, .u8, .ro, 0, 0, []⟩,
  ⟨0x8C0103, .u16, .ro, 0, 0x180, []⟩,
  ⟨0x8C0104, .u16, .ro, 0, 0x80, []⟩,
  ⟨0x8C0105, .u16, .ro, 0, 0x20, []⟩,
  ⟨0x8C0106, .u16, .ro, 0, 0x560, []⟩,
  ⟨0x8C0201, .enumT, .ro, 20, 0, []⟩,
  ⟨0x8C0202, .i16, .ro, 20, 0, []⟩,
  ⟨0x8C0203, .enumT, .ro, 20, 0, []⟩,
  ⟨0x8C0204, .u8, .ro, 20, 0, []⟩,
  ⟨0x8C0301, .time, .rw, 0, 0xd18c2e280000000, [(58982400000000000,39636172800000000000,1)]⟩,
  ⟨0x8C0302, .u64, .ro, 20, 0, []⟩,
  ⟨0x8C0303, .u16, .rw, 0, 0x10, [(1,1024,1)]⟩,
  ⟨0x8C0401, .bytes 4 4, .rw, 0, 0x8080201, []⟩,
  ⟨0x8C1001, .u64, .ro, 20, 0, []⟩,
  ⟨0x8C1002, .u64, .ro, 20, 0, []⟩,
  ⟨0x8C1003, .u16, .ro, 20, 0, []⟩,
  ⟨0x8C1004, .bytes 16 16, .ro, 0, 0, []⟩]

/-- Part 6 of the entry list. -/
def dictRows6 : List EntryRow := [
  ⟨0x8C1005, .u64, .ro, 20, 0, []⟩,
  ⟨0x8C1006, .u64, .ro, 20, 0, []⟩,
  ⟨0x8C1007, .u64, .ro, 0, 0, []⟩,
  ⟨0x8C1008, .u64, .ro, 0, 0, []⟩,
  ⟨0x8C1009, .u32, .ro, 0, 0, []⟩,
  ⟨0x500001, .u16, .ro, 0, 0x400, []⟩,
  ⟨0x500002, .u16, .ro, 0, 0x100, []⟩,
  ⟨0x500003, .u32, .ro, 0, 0x100000, []⟩,
  ⟨0x500004, .u16, .ro, 0, 0x1200, []⟩,
  ⟨0x500005, .u16, .ro, 0, 0x2400, []⟩,
  ⟨0x500006, .u8, .ro, 0, 8, []⟩,
  ⟨0x500007, .time, .ro, 0, 0x2260000, []⟩,
  ⟨0x500101, .enumT, .rw, 1024, 1, [(0,1,1)]⟩,
  ⟨0x500102, .enumT, .rw, 1024, 1, [(0,1,1)]⟩,
  ⟨0x500103, .enumT, .ro, 1024, 0, []⟩,
  ⟨0x500104, .u64, .ro, 1024, 0, []⟩,
  ⟨0x500105, .u16, .rw, 1024, 0xffff, [(0,4095,1),(0xFFFF,0xFFFF,1)]⟩,
  ⟨0x500106, .time, .rw, 0, 0x3e80000, [(32768000,6553600000,1)]⟩,
  ⟨0x500107, .time, .rw, 0, 0x9896800000, [(0,655360000000000,1)]⟩,
  ⟨0x500201, .u8, .rw, 0, 8, []⟩,
  ⟨0x500202, .u16, .ro, 0, 0x100, []⟩,
  ⟨0x500203, .u32, .rw, 0, 0x6000, [(1024,65536,1)]⟩,
  ⟨0x500301, .u32, .rw, 0, 0x100000, [(65536,67108864,1)]⟩,
  ⟨0x500302, .u32, .rw, 9, 0x40000, []⟩,
  ⟨0x500303, .time, .rw, 0, 0x27100000, [(65536000,65536000000,1)]⟩,
  ⟨0x500401, .u32, .ro, 32, 0, []⟩,
  ⟨0x500402, .u32, .rws, 32, 0, []⟩,
  ⟨0x510001, .bytes 140 140, .wo, 0, 0, []⟩,
  ⟨0x510002, .u8, .ro, 0, 0, []⟩,
  ⟨0x510101, .u8, .ro, 4096, 0, []⟩,
  ⟨0x510102, .u8, .ro, 4096, 0, []⟩,
  ⟨0x520001, .bytes 16 16, .wo, 0, 0, []⟩,
  ⟨0x520002, .u8, .ro, 0, 0, []⟩,
  ⟨0x520101, .enumT, .ro, 2048, 0, []⟩,
  ⟨0x520102, .u16, .ro, 1024, 0, []⟩,
  ⟨0x530001, .bytes 2056 2056, .wo, 0, 0, []⟩,
  ⟨0x530002, .u8, .ro, 0, 0, []⟩,
  ⟨0x530003, .u32, .ro, 0, 0x100000, []⟩,
  ⟨0x530101, .u16, .ro, 65536, 0, []⟩,
  ⟨0x531001, .u16, .rw, 16384, 0xffff, []⟩]

/-- Part 7 of the entry list. -/
def dictRows7 : List EntryRow := [
  ⟨0x540001, .u64, .ro, 16, 0, []⟩,
  ⟨0x540002, .u64, .ro, 1024, 0, []⟩,
  ⟨0x540003, .u64, .ro, 0, 0, []⟩,
  ⟨0x540004, .u64, .ro, 0, 0, []⟩,
  ⟨0x540005, .u64, .ro, 0, 0, []⟩,
  ⟨0x540006, .u64, .ro, 0, 0, []⟩,
  ⟨0x540007, .u64, .ro, 0, 0, []⟩,
  ⟨0x540008, .u64, .ro, 0, 0, []⟩,
  ⟨0x540009, .u64, .ro, 1024, 0, []⟩,
  ⟨0x54000A, .u32, .ro, 0, 0, []⟩,
  ⟨0x600001, .u16, .ro, 0, 0x100, []⟩,
  ⟨0x600002, .time, .ro, 0, 0x80000, []⟩,
  ⟨0x600003, .time, .ro, 0, 0x8000000000, []⟩,
  ⟨0x600004, .u32, .ro, 0, 0xa, []⟩,
  ⟨0x600005, .u16, .ro, 0, 0x54, []⟩,
  ⟨0x600006, .time, .ro, 0, 0x27100000, []⟩,
  ⟨0x600007, .u32, .rw, 0, 0x10000, [(4096,16777215,1)]⟩,
  ⟨0x601001, .bytes 16 16, .wo, 0, 0, []⟩,
  ⟨0x601002, .u8, .ro, 0, 0, []⟩,
  ⟨0x601003, .bytes 16 16, .ro, 9216, 0, []⟩,
  ⟨0x601004, .enumT, .ro, 9216, 0, []⟩,
  ⟨0x601005, .u32, .ro, 1024, 0, []⟩,
  ⟨0x602001, .bytes 8 8, .wo, 0, 0, []⟩,
  ⟨0x602002, .u8, .ro, 0, 0, []⟩,
  ⟨0x602003, .bytes 8 8, .ro, 8192, 0, []⟩,
  ⟨0x602004, .u64, .ro, 8192, 0, []⟩,
  ⟨0x603001, .time, .rw, 0, 0x3e80000, [(6553600,65536000000,6553600)]⟩,
  ⟨0x603002, .u32, .ro, 9216, 0, []⟩,
  ⟨0x603003, .u32, .ro, 9216, 0, []⟩,
  ⟨0x603004, .u32, .ro, 9216, 0, []⟩,
  ⟨0x603005, .u32, .ro, 9216, 0, []⟩,
  ⟨0x603006, .u32, .rws, 9216, 0, []⟩,
  ⟨0x603007, .u32, .rws, 9216, 0, []⟩,
  ⟨0x603008, .time, .rw, 9, 0, [(0,65536000000000,1)]⟩,
  ⟨0x603101, .u32, .ro, 2048, 0, []⟩,
  ⟨0x603102, .u32, .rws, 2048, 0, []⟩,
  ⟨0x604001, .bytes 16 2064, .wo, 0, 0, []⟩,
  ⟨0x604002, .u8, .ro, 0, 0, []⟩,
  ⟨0x604003, .bytes 2064 2064, .ro, 1024, 0, []⟩,
  ⟨0x604004, .bytes 2064 2064, .ro, 1024, 0, []⟩]

/-- Part 8 of the entry list. -/
def dictRows8 : List EntryRow := [
  ⟨0x604005, .time, .ro, 1024, 0, []⟩,
  ⟨0x604006, .u16, .ro, 1024, 0x3ff, []⟩,
  ⟨0x604007, .u64, .ro, 9216, 0, []⟩,
  ⟨0x605001, .time, .rw, 0, 0, []⟩,
  ⟨0x605002, .u32, .rw, 0, 0, [(0,0,1),(1000,1000000000,1)]⟩,
  ⟨0x605003, .time, .rw, 0, 0, []⟩,
  ⟨0x605004, .boolT, .ro, 0, 0, []⟩,
  ⟨0x640001, .u32, .ro, 0, 0x10000, []⟩,
  ⟨0x640002, .u16, .ro, 0, 0x4000, []⟩,
  ⟨0x640003, .enumT, .rw, 0, 0, [(0,1,1)]⟩,
  ⟨0x640004, .u32, .ro, 0, 0x20000, []⟩,
  ⟨0x640005, .u32, .ro, 0, 0x40000, []⟩,
  ⟨0x640006, .u16, .ro, 0, 0x4000, []⟩,
  ⟨0x641001, .u32, .rw, 65536, 0, []⟩,
  ⟨0x641101, .bytes 8 8, .wo, 0, 0, []⟩,
  ⟨0x641102, .u8, .ro, 0, 0, []⟩,
  ⟨0x641103, .bytes 8 8, .rw, 0, 0, []⟩,
  ⟨0x642001, .u32, .rw, 4096, 0, []⟩,
  ⟨0x642002, .u16, .rw, 1024, 1, [(1,4094,1)]⟩,
  ⟨0x642003, .enumT, .rw, 1024, 1, [(0,2,1)]⟩,
  ⟨0x642004, .u16, .rw, 1024, 0xffff, [(0,4095,1),(0xFFFF,0xFFFF,1)]⟩,
  ⟨0x642101, .bytes 16 16, .wo, 0, 0, []⟩,
  ⟨0x642102, .u8, .ro, 0, 0, []⟩,
  ⟨0x642103, .bytes 16 16, .rw, 0, 0, []⟩,
  ⟨0x642104, .u32, .ro, 8, 0, []⟩,
  ⟨0x642105, .time, .rw, 0, 0x45d964b8000000, []⟩,
  ⟨0x642106, .bytes 8 8, .wo, 0, 0, []⟩,
  ⟨0x643001, .bytes 16 16, .ro, 0, 0, []⟩,
  ⟨0x643002, .u16, .ro, 0, 0, []⟩,
  ⟨0x644001, .u64, .rw, 0, 0, []⟩,
  ⟨0x644101, .bytes 24 24, .wo, 0, 0, []⟩,
  ⟨0x644102, .u8, .ro, 0, 0, []⟩,
  ⟨0x644103, .u32, .ro, 0, 0x40000, []⟩,
  ⟨0x644104, .bytes 24 24, .rw, 0, 0, []⟩,
  ⟨0x644201, .bytes 16 16, .wo, 0, 0, []⟩,
  ⟨0x644202, .u8, .ro, 0, 0, []⟩,
  ⟨0x645001, .u64, .ro, 11, 0, []⟩,
  ⟨0x400001, .u8, .ro, 0, 8, []⟩,
  ⟨0x400002, .u16, .ro, 0, 0x800, []⟩,
  ⟨0x400003, .u32, .ro, 0, 0x38018, []⟩]

/-- Part 9 of the entry list. -/
def dictRows9 : List EntryRow := [
  ⟨0x400004, .u16, .ro, 0, 0xc8, []⟩,
  ⟨0x400005, .u32, .ro, 0, 0, []⟩,
  ⟨0x400101, .bytes 64 64, .ro, 8, 0, []⟩,
  ⟨0x400102, .enumT, .ro, 8, 0, []⟩,
  ⟨0x400103, .u8, .ro, 8, 0, []⟩,
  ⟨0x400104, .u8, .ro, 8, 0, []⟩,
  ⟨0x401001, .enumT, .rw, 256, 0, [(0,2,1)]⟩,
  ⟨0x401002, .boolT, .rw, 1024, 0, [(0,1,1)]⟩,
  ⟨0x401003, .u32, .ro, 1024, 0, []⟩,
  ⟨0x401004, .u8, .ro, 1024, 0, []⟩,
  ⟨0x401101, .u64, .ro, 1024, 0, []⟩,
  ⟨0x401102, .u64, .ro, 1024, 0, []⟩,
  ⟨0x401103, .f32, .ro, 1024, 0, []⟩,
  ⟨0x401104, .f32, .rw, 0, 0x3727c5ac, [(841731191,964405378,1)]⟩,
  ⟨0x402001, .enumT, .ro, 4096, 0, []⟩,
  ⟨0x402002, .u16, .ro, 4096, 0, []⟩,
  ⟨0x402003, .u8, .ro, 4096, 0xff, []⟩,
  ⟨0x402004, .u64, .ro, 4096, 0, []⟩,
  ⟨0x402005, .u64, .ro, 4096, 0, []⟩,
  ⟨0x402006, .u16, .wo, 0, 0, []⟩,
  ⟨0x402007, .f32, .rws, 8, 0, []⟩,
  ⟨0x402008, .i16, .ro, 8, 0, []⟩,
  ⟨0x403001, .enumT, .ro, 64, 0, []⟩,
  ⟨0x403002, .boolT, .rw, 64, 1, [(0,1,1)]⟩,
  ⟨0x403003, .i16, .ro, 512, 0, []⟩,
  ⟨0x403004, .u8, .ro, 512, 0xff, []⟩,
  ⟨0x404001, .i16, .ro, 10240, 0x8000, []⟩,
  ⟨0x404002, .i16, .rw, 5, 0, [(-4000,2000,1)]⟩,
  ⟨0x404003, .u8, .ro, 2048, 0, []⟩,
  ⟨0x405001, .boolT, .rw, 0, 1, [(0,1,1)]⟩,
  ⟨0x405002, .time, .rw, 0, 0, []⟩,
  ⟨0x405003, .time, .rw, 0, 0x4e94914f00000000, [(655360000000000,39636172800000000000,1)]⟩,
  ⟨0x405004, .time, .ro, 0, 0x1312d000000, []⟩,
  ⟨0x405005, .u64, .ro, 0, 0, []⟩,
  ⟨0x405006, .u64, .ro, 0, 0, []⟩,
  ⟨0x406001, .bytes 8 8, .wo, 0, 0, []⟩,
  ⟨0x406002, .u8, .ro, 0, 0, []⟩,
  ⟨0x406003, .enumT, .ro, 512, 0, []⟩,
  ⟨0x406004, .i16, .ro, 512, 0, []⟩,
  ⟨0x340001, .u16, .ro, 0, 0x100, []⟩]

/-- Part 10 of the entry list. -/
def dictRows10 : List EntryRow := [
  ⟨0x340002, .u32, .ro, 0, 0x730, []⟩,
  ⟨0x340003, .u16, .ro, 0, 0x43a, []⟩,
  ⟨0x340004, .u32, .ro, 0, 0x11f68, []⟩,
  ⟨0x341001, .enumT, .ro, 256, 0, []⟩,
  ⟨0x341002, .u8, .ro, 256, 0, []⟩,
  ⟨0x341003, .u8, .ro, 256, 0, []⟩,
  ⟨0x341004, .u16, .wo, 0, 0, []⟩,
  ⟨0x341005, .u8, .ro, 0, 0, []⟩,
  ⟨0x341006, .u64, .ro, 256, 0, []⟩,
  ⟨0x341101, .u32, .ro, 8, 0, []⟩,
  ⟨0x341102, .u32, .ro, 8, 0, []⟩,
  ⟨0x341103, .u8, .ro, 8, 0, []⟩,
  ⟨0x341104, .u64, .ro, 8, 0, []⟩,
  ⟨0x342001, .u8, .ro, 400, 0, []⟩,
  ⟨0x342002, .u8, .ro, 400, 0, []⟩,
  ⟨0x342003, .u64, .ro, 400, 0, []⟩,
  ⟨0x342004, .bytes 8 8, .rw, 0, 0, []⟩,
  ⟨0x342005, .u64, .ro, 400, 0, []⟩,
  ⟨0x343001, .u8, .ro, 20, 4, []⟩,
  ⟨0x343002, .u64, .ro, 10, 0, []⟩,
  ⟨0x344001, .bytes 16 16, .ro, 64, 0, []⟩,
  ⟨0x344002, .u32, .ro, 0, 0, []⟩,
  ⟨0x345001, .u16, .ro, 0, 0, []⟩,
  ⟨0x345002, .u64, .ro, 0, 0, []⟩,
  ⟨0x300001, .time, .ro, 0, 0, []⟩,
  ⟨0x300002, .enumT, .ro, 0, 0, []⟩,
  ⟨0x300003, .boolT, .ro, 0, 0, []⟩,
  ⟨0x300004, .boolT, .wo, 0, 0, []⟩,
  ⟨0x300005, .u8, .ro, 0, 0, []⟩,
  ⟨0x300006, .i64, .ro, 0, 0, []⟩,
  ⟨0x300007, .i32, .ro, 0, 0, []⟩,
  ⟨0x300008, .u32, .rw, 0, 0x30d40, [(1000,200000,1)]⟩,
  ⟨0x300009, .time, .rw, 0, 0xf42400000, [(65536000,65536000000000,1)]⟩,
  ⟨0x30000A, .time, .rw, 0, 0x640000, [(655360,655360000,1)]⟩,
  ⟨0x301001, .u8, .rw, 0, 0xff, []⟩,
  ⟨0x301002, .u8, .rw, 0, 0x80, []⟩,
  ⟨0x301003, .u32, .ro, 0, 0, []⟩,
  ⟨0x301004, .u64, .ro, 0, 0, []⟩,
  ⟨0x302001, .enumT, .rw, 1024, 2, [(0,2,1)]⟩,
  ⟨0x302002, .time, .rw, 0, 0xf42400000, [(6553600000,655360000000,1)]⟩]

/-- Part 11 of the entry list. -/
def dictRows11 : List EntryRow := [
  ⟨0x302003, .u32, .ro, 1024, 0, []⟩,
  ⟨0x302004, .i32, .rw, 1024, 0, [(-16000,16000,1)]⟩,
  ⟨0x302005, .u64, .ro, 0, 0, []⟩,
  ⟨0x303001, .boolT, .rw, 2, 0, [(0,1,1)]⟩,
  ⟨0x303002, .u8, .rw, 0, 0, [(0,127,1)]⟩,
  ⟨0x303003, .u8, .rw, 0, 0x80, []⟩,
  ⟨0x303004, .u8, .rw, 0, 0x80, []⟩,
  ⟨0x303005, .i8, .rw, 0, 0xfc, [(-7,0,1)]⟩,
  ⟨0x303006, .enumT, .rw, 2, 0, [(0,1,1)]⟩,
  ⟨0x303007, .enumT, .ro, 1026, 0, []⟩,
  ⟨0x304001, .enumT, .rw, 0, 0, [(0,2,1)]⟩,
  ⟨0x304002, .i32, .rw, 0, 0, [(-16000,16000,1)]⟩,
  ⟨0x304003, .enumT, .ro, 0, 0, []⟩,
  ⟨0x305001, .bytes 20 20, .rw, 4, 0, []⟩,
  ⟨0x305002, .time, .ro, 4, 0, []⟩,
  ⟨0x306001, .enumT, .rw, 2, 0, [(0,2,1)]⟩,
  ⟨0x306002, .bytes 16 16, .ro, 2, 0, []⟩,
  ⟨0x306003, .u8, .ro, 2, 0, []⟩,
  ⟨0x306004, .u64, .ro, 2, 0, []⟩,
  ⟨0x307001, .i32, .ro, 8, 0, []⟩,
  ⟨0x900001, .time, .ro, 0, 0x3e80000, []⟩,
  ⟨0x900002, .time, .ro, 0, 0xfa00000, []⟩,
  ⟨0x900003, .time, .rw, 0, 0x13880000, [(65536000,6553600000,1)]⟩,
  ⟨0x900004, .time, .rw, 0, 0x4e200000, []⟩,
  ⟨0x900005, .u8, .rw, 0, 4, [(1,16,1)]⟩,
  ⟨0x900006, .time, .rw, 0, 0xdf84758000000, [(65536000000000,235929600000000000,1)]⟩,
  ⟨0x900007, .time, .ro, 0, 0x27100000, []⟩,
  ⟨0x900008, .time, .ro, 0, 0xc3500000, []⟩,
  ⟨0x900009, .time, .ro, 0, 0xc3500000, []⟩,
  ⟨0x900101, .enumT, .ro, 20, 0, []⟩,
  ⟨0x900102, .u8, .ro, 20, 0, []⟩,
  ⟨0x900103, .time, .ro, 20, 0, []⟩,
  ⟨0x901001, .u32, .ro, 0, 0, []⟩,
  ⟨0x901002, .u32, .ro, 0, 0, []⟩,
  ⟨0x901003, .u16, .ro, 0, 0x400, []⟩,
  ⟨0x901004, .u32, .ro, 0, 0x64000, []⟩,
  ⟨0x901005, .u8, .ro, 0, 0xa, []⟩,
  ⟨0x901006, .u32, .ro, 0, 0x28000, []⟩,
  ⟨0x901007, .u32, .ro, 0, 0x32000, []⟩,
  ⟨0x901008, .u8, .ro, 0, 0x28, []⟩]

/-- Part 12 of the entry list. -/
def dictRows12 : List EntryRow := [
  ⟨0x901009, .u32, .ro, 0, 0xa000, []⟩,
  ⟨0x90100A, .u8, .ro, 0, 0x14, []⟩,
  ⟨0x90100B, .u64, .ro, 0, 0, []⟩,
  ⟨0x90100C, .u64, .ro, 0, 0, []⟩,
  ⟨0x90100D, .u16, .ro, 0, 0x43a, []⟩,
  ⟨0x90100E, .u16, .ro, 0, 0x100, []⟩,
  ⟨0x90100F, .u16, .ro, 0, 0x800, []⟩,
  ⟨0x901010, .time, .ro, 0, 0, []⟩,
  ⟨0x902001, .u8, .ro, 0, 0, []⟩,
  ⟨0x902002, .enumT, .ro, 0, 0, []⟩,
  ⟨0x902003, .boolT, .wo, 0, 0, []⟩,
  ⟨0x902004, .boolT, .wo, 0, 0, []⟩,
  ⟨0x902005, .u64, .ro, 0, 0, []⟩,
  ⟨0x902006, .bytes 16 16, .ro, 0, 0, []⟩,
  ⟨0x902007, .time, .rws, 0, 0, []⟩,
  ⟨0x903001, .bytes 16 16, .rw, 0, 0, []⟩,
  ⟨0x903002, .u16, .ro, 0, 0, []⟩,
  ⟨0x903003, .u16, .ro, 0, 0, []⟩,
  ⟨0x903101, .u64, .ro, 0, 0, []⟩,
  ⟨0x903102, .u64, .ro, 0, 0, []⟩,
  ⟨0x903103, .bytes 32 32, .ro, 0, 0, []⟩,
  ⟨0x903104, .time, .rws, 0, 0, []⟩,
  ⟨0x904001, .bytes 48 48, .wo, 0, 0, []⟩,
  ⟨0x904002, .u8, .ro, 0, 0, []⟩,
  ⟨0x904003, .bytes 4 4, .wo, 0, 0, []⟩,
  ⟨0x904004, .bytes 16 16, .rw, 0, 0, []⟩,
  ⟨0x904005, .time, .rw, 0, 0x5f5e1000000, [(65536000000,655360000000000,1)]⟩,
  ⟨0x904101, .bytes 8 8, .wo, 0, 0, []⟩,
  ⟨0x904102, .u8, .ro, 0, 0, []⟩,
  ⟨0x904103, .u32, .ro, 0, 0, []⟩,
  ⟨0x904201, .bytes 16 16, .wo, 0, 0, []⟩,
  ⟨0x904202, .boolT, .rws, 64, 0, []⟩,
  ⟨0x710001, .bytes 64 64, .wo, 0, 0, []⟩,
  ⟨0x710002, .bytes 4 4, .wo, 0, 0, []⟩,
  ⟨0x710003, .u8, .ro, 0, 0, []⟩,
  ⟨0x710004, .u16, .wo, 0, 0, []⟩,
  ⟨0x710005, .u8, .ro, 0, 0, []⟩,
  ⟨0x710101, .u16, .rw, 0, 0, []⟩,
  ⟨0x711001, .bytes 32 32, .rw, 0, 0, []⟩,
  ⟨0x711002, .u16, .ro, 0, 0, []⟩]

/-- Part 13 of the entry list. -/
def dictRows13 : List EntryRow := [
  ⟨0x711003, .u8, .ro, 0, 0, []⟩,
  ⟨0x711004, .time, .ro, 0, 0x2540be4000000, []⟩,
  ⟨0x711101, .bytes 64 64, .ro, 0, 0, []⟩,
  ⟨0x711102, .bytes 64 64, .rw, 0, 0, []⟩,
  ⟨0x712001, .u64, .ro, 0, 0, []⟩,
  ⟨0x712002, .u64, .ro, 0, 0, []⟩,
  ⟨0x718001, .bytes 48 48, .wo, 0, 0, []⟩,
  ⟨0x718002, .u8, .ro, 0, 0, []⟩,
  ⟨0x718003, .bytes 4 4, .wo, 0, 0, []⟩,
  ⟨0x718101, .bytes 32 32, .rw, 0, 0, []⟩,
  ⟨0x718201, .u64, .ro, 0, 0, []⟩,
  ⟨0x718202, .u64, .ro, 0, 0, []⟩,
  ⟨0x718203, .u64, .ro, 0, 0, []⟩,
  ⟨0x718204, .u64, .ro, 0, 0, []⟩,
  ⟨0x100001, .bytes 16 16, .ro, 0, 0x596172686f6c742053696c69636f6e00, []⟩,
  ⟨0x100002, .bytes 16 16, .ro, 0, 0x50656f72610000000000000000000000, []⟩,
  ⟨0x100003, .bytes 16 16, .ro, 0, 0x4f564e2d313032342d41000000000000, []⟩,
  ⟨0x100004, .u8, .ro, 0, 0xa1, []⟩,
  ⟨0x100005, .bytes 16 16, .ro, 0, 0, []⟩,
  ⟨0x100006, .u32, .ro, 0, 0, []⟩,
  ⟨0x100007, .u32, .ro, 0, 0, []⟩,
  ⟨0x100101, .u32, .rwl, 0, 0, [(0,0xFFFFFF,1)]⟩,
  ⟨0x100102, .enumT, .rwl, 0, 0, [(0,1,1)]⟩,
  ⟨0x100103, .enumT, .ro, 0, 0, []⟩,
  ⟨0x100201, .enumT, .ro, 0, 0, []⟩,
  ⟨0x100202, .time, .ro, 0, 0, []⟩,
  ⟨0x100203, .enumT, .rws, 0, 0, []⟩,
  ⟨0x100204, .u64, .ro, 0, 0, []⟩,
  ⟨0x100301, .u64, .ro, 2, 0, []⟩,
  ⟨0x100302, .u32, .rw, 2, 0, []⟩,
  ⟨0x100303, .u8, .rw, 2, 0x18, [(8,30,1)]⟩,
  ⟨0x100304, .bytes 16 16, .rw, 2, 0, []⟩,
  ⟨0x100305, .bytes 16 16, .rw, 0, 0, []⟩,
  ⟨0x100306, .u16, .rw, 0, 0xb7fc, [(1024,65535,1)]⟩,
  ⟨0xF00001, .bytes 16 16, .rw, 0, 0, []⟩,
  ⟨0xF00002, .boolT, .rwl, 0, 0, [(0,1,1)]⟩,
  ⟨0xF00003, .u8, .rwl, 0, 7, []⟩,
  ⟨0xF00004, .u8, .rwl, 0, 7, []⟩,
  ⟨0xF00005, .time, .ro, 0, 0, []⟩,
  ⟨0xF00006, .u64, .ro, 6, 0, []⟩]

/-- Part 14 of the entry list. -/
def dictRows14 : List EntryRow := [
  ⟨0xF01001, .bytes 32 32, .rw, 8, 0, []⟩,
  ⟨0xF01002, .bytes 32 32, .ro, 8, 0, []⟩,
  ⟨0xF01003, .u16, .ro, 8, 0, []⟩,
  ⟨0xF01004, .u64, .ro, 8, 0, []⟩,
  ⟨0xF10001, .bytes 48 48, .wo, 0, 0, []⟩,
  ⟨0xF10002, .u32, .ro, 18, 0, []⟩,
  ⟨0xF10003, .u8, .rw, 0, 0x10, [(16,17,1)]⟩,
  ⟨0xF20001, .enumT, .ro, 0, 0, []⟩,
  ⟨0xF20002, .enumT, .rw, 0, 0, [(0,1,1)]⟩,
  ⟨0xF20003, .bytes 9 4104, .wo, 0, 0, []⟩,
  ⟨0xF20004, .u32, .wo, 0, 0, []⟩,
  ⟨0xF20005, .u8, .ro, 0, 0, []⟩,
  ⟨0xF20006, .u32, .ro, 0, 0, []⟩,
  ⟨0xF20007, .boolT, .wo, 0, 0, []⟩,
  ⟨0xF20008, .bytes 48 48, .ro, 0, 0, []⟩,
  ⟨0xF30001, .bytes 2048 2048, .ro, 0, 0, []⟩,
  ⟨0xF30002, .bytes 32 32, .wo, 0, 0, []⟩,
  ⟨0xF30003, .bytes 256 256, .ro, 0, 0, []⟩,
  ⟨0xF31001, .bytes 101 101, .wo, 0, 0, []⟩,
  ⟨0xF31002, .bytes 305 305, .ro, 0, 0, []⟩,
  ⟨0xF31003, .boolT, .wo, 0, 0, []⟩,
  ⟨0xF31004, .time, .rw, 0, 0, [(0,0,1),(235929600000000000,2066743296000000000000,1)]⟩,
  ⟨0xA00001, .u8, .ro, 0, 0x70, []⟩,
  ⟨0xA00002, .u8, .ro, 0, 0x30, []⟩,
  ⟨0xA01001, .u64, .rws, 960, 0, []⟩,
  ⟨0xA01101, .bytes 16 16, .rw, 640, 0, []⟩,
  ⟨0xA02001, .time, .rw, 0, 0, [(0,0,1),(65536000,65536000000000,65536000)]⟩,
  ⟨0xA02002, .time, .rw, 0, 0, []⟩,
  ⟨0xA02003, .bytes 20 20, .rw, 0, 0, []⟩,
  ⟨0xA02004, .u64, .ro, 0, 0, []⟩,
  ⟨0xA02005, .u64, .rw, 0, 0, []⟩,
  ⟨0xA02006, .bytes 7232 7232, .ro, 0, 0, []⟩,
  ⟨0xA02007, .u64, .ro, 0, 0, []⟩,
  ⟨0xA02008, .u64, .ro, 0, 0, []⟩,
  ⟨0xA03001, .bytes 16 16, .rw, 4, 0, []⟩,
  ⟨0xA03002, .u64, .ro, 0, 0, []⟩,
  ⟨0xA03003, .u64, .rw, 0, 0, []⟩,
  ⟨0xA03004, .bytes 4096 4096, .ro, 0, 0, []⟩,
  ⟨0xA03005, .u64, .ro, 4, 0, []⟩,
  ⟨0xA03006, .u64, .ro, 0, 0, []⟩]

/-- Part 15 of the entry list. -/
def dictRows15 : List EntryRow := [
  ⟨0x200001, .u16, .ro, 0, 0, []⟩,
  ⟨0x200002, .u16, .rws, 0, 0xffff, []⟩,
  ⟨0x200003, .u16, .ro, 0, 0, []⟩,
  ⟨0x200004, .u16, .ro, 0, 0, []⟩,
  ⟨0x200005, .enumT, .ro, 0, 0, []⟩,
  ⟨0x200006, .u64, .ro, 0, 0, []⟩,
  ⟨0x200101, .u32, .ro, 0, 0, []⟩,
  ⟨0x200102, .u32, .ro, 6, 0, []⟩,
  ⟨0x200103, .u32, .rws, 0, 0, []⟩,
  ⟨0x200104, .u32, .ro, 0, 0x1068, []⟩,
  ⟨0x200105, .u32, .ro, 20, 0, []⟩,
  ⟨0x201001, .enumT, .rw, 0, 2, [(0,2,1)]⟩,
  ⟨0x201002, .u8, .ro, 0, 0, []⟩,
  ⟨0x201003, .u64, .ro, 0, 0, []⟩,
  ⟨0x201101, .enumT, .ro, 20, 0, []⟩,
  ⟨0x201102, .u8, .ro, 10, 0, []⟩,
  ⟨0x202001, .u32, .ro, 9, 0, []⟩,
  ⟨0x202002, .time, .ro, 0, 0, []⟩,
  ⟨0x202101, .boolT, .wo, 0, 0, []⟩,
  ⟨0x202102, .u8, .wo, 0, 0, []⟩,
  ⟨0x202103, .u8, .ro, 0, 0, []⟩,
  ⟨0x202104, .u8, .ro, 0, 1, []⟩,
  ⟨0x202105, .u32, .ro, 0, 0, []⟩,
  ⟨0x203001, .i16, .ro, 28, 0, []⟩,
  ⟨0x203002, .i16, .rws, 28, 0, []⟩,
  ⟨0x203003, .i16, .ro, 64, 0, []⟩,
  ⟨0x203004, .i16, .ro, 0, 0x690, []⟩,
  ⟨0x203005, .i16, .ro, 0, 0x6e0, []⟩,
  ⟨0x203006, .f32, .rws, 20, 0, []⟩,
  ⟨0x203007, .u8, .ro, 8, 0, []⟩,
  ⟨0x203008, .boolT, .ro, 10, 0, []⟩,
  ⟨0x100401, .u8, .ro, 0, 0, []⟩,
  ⟨0x100402, .u8, .ro, 0, 0, []⟩,
  ⟨0x100403, .u32, .ro, 0, 0x10a241e7, []⟩,
  ⟨0x100404, .enumT, .ro, 8, 0, []⟩]

/-- Every entry of the dictionary, part by part. -/
def dictParts : List (List EntryRow) := [dictRows1, dictRows2, dictRows3, dictRows4, dictRows5, dictRows6, dictRows7, dictRows8, dictRows9, dictRows10, dictRows11, dictRows12, dictRows13, dictRows14, dictRows15]

/-- The entry of a list that bears an identifier. -/
def findRow : List EntryRow → Nat → Option EntryRow
  | [], _ => none
  | r :: rs, e => bif Nat.beq r.id e then some r else findRow rs e

/-- The entry that bears an identifier, in the parts from the first on. -/
def findRowIn : List (List EntryRow) → Nat → Option EntryRow
  | [], _ => none
  | p :: ps, e => match findRow p e with
    | some r => some r
    | none => findRowIn ps e

/-- The entry an identifier names; none for an absent one (R471). -/
def entryRow (e : Nat) : Option EntryRow := findRowIn dictParts e

end Sys2Proof.Machine
end

