-- ==== Sys2Proof/Machine/Arith.lean ====
section
/-!
DEFINITION. Exact arithmetic (spec/02): formats, decoding, conversion into the window, operators, output conversion,
and the arithmetic descriptor.
-/
namespace Sys2Proof.Machine

/-! ### Formats (R24 Table 1, R56 Table 7) -/

/-- The special encodings of a floating-point element. -/
inductive Special where
  | ieee | e4m3 | none
  deriving DecidableEq

/-- A floating-point layout and its largest finite encoding. -/
structure FpFmt where
  eb   : Nat
  mb   : Nat
  bias : Int
  spec : Special
  maxE : Nat
  maxF : Nat
  emax : Int := 0

/-- The floating-point layout of a format code, scaled or not. -/
def fpFmt (code : Nat) : Option FpFmt :=
  match code with
  | 0x01 => some ⟨8, 23, 127, .ieee, 254, 0x7FFFFF, 0⟩
  | 0x02 => some ⟨5, 10, 15, .ieee, 30, 0x3FF, 0⟩
  | 0x03 => some ⟨8, 7, 127, .ieee, 254, 0x7F, 0⟩
  | 0x04 => some ⟨4, 3, 7, .e4m3, 15, 6, 0⟩
  | 0x05 => some ⟨5, 2, 15, .ieee, 30, 3, 0⟩
  | 0x08 => some ⟨4, 3, 7, .e4m3, 15, 6, 8⟩
  | 0x09 => some ⟨5, 2, 15, .ieee, 30, 3, 15⟩
  | 0x0A => some ⟨3, 2, 3, .none, 7, 3, 4⟩
  | 0x0B => some ⟨2, 3, 1, .none, 3, 7, 2⟩
  | 0x0C => some ⟨2, 1, 1, .none, 3, 1, 2⟩
  | 0x20 => some ⟨11, 52, 1023, .ieee, 2046, 0xFFFFFFFFFFFFF, 0⟩
  | _ => none

/-- FP32's layout. -/
def fp32 : FpFmt := ⟨8, 23, 127, .ieee, 254, 0x7FFFFF, 0⟩

/-- The format has a shared scale. -/
def isMx (code : Nat) : Bool := decide (0x08 ≤ code) && decide (code ≤ 0x0D)

/-- Bits of an element without its scale. -/
def elemBits (code : Nat) : Nat :=
  match code with
  | 0x01 => 32 | 0x02 => 16 | 0x03 => 16 | 0x04 => 8 | 0x05 => 8 | 0x08 => 8 | 0x09 => 8 | 0x0A => 6 | 0x0B => 6
  | 0x0C => 4 | 0x0D => 8 | 0x10 => 32 | 0x18 => 128 | 0x19 => 192 | 0x20 => 64 | _ => 0

/-- A format code that a contribution may carry (FORMAT_IN_MASK). -/
def isInput (code : Nat) : Bool := bit 0x01013F3E code

/-- A format code that a result may carry. -/
def isOutput (code : Nat) : Bool := isInput code && code != 0x0D || code == 0x19

/-- Elements per frame of a multi-frame format (R26). -/
def perFrame (code : Nat) : Nat := if code = 0x18 then 256 else if code = 0x19 then 171 else 1024

/-- Frames of a chunk of `c` elements (R28). -/
def framesOf (code c : Nat) : Nat := ceilDiv c (perFrame code)

/-- Elements in a frame of a chunk of `c` elements. -/
def frameCount (code c frame : Nat) : Nat := min (perFrame code) (c - frame * perFrame code)

/-- Bytes of a payload of `n` elements (R26, R27). -/
def payloadBytes (code n : Nat) : Nat :=
  if isMx code then ceilDiv n 32 * (1 + 4 * elemBits code) else n * elemBits code / 8

/-- The length of a frame's payload by R28; none when FRAME names no element, so that no length is valid. -/
def frameBytes (code c frame : Nat) : Option Nat :=
  if c = 0 then (if frame = 0 then some 0 else none)
  else if frame < framesOf code c ∧ elemBits code ≠ 0 then some (payloadBytes code (frameCount code c frame)) else none

/-- A raw element with its block's scale code (0 where the format has none). -/
structure Elem where
  raw   : Nat
  scale : Nat := 0
  deriving DecidableEq, Repr

/-- Elements of `w` bits of a bit string of `total` bits, first at the most significant end. -/
def splitBits (w n total v : Nat) : List Nat := (List.range n).map (fun i => bits v (total - w * i - 1) (total - w * (i + 1)))

/-- The first `n` elements of a payload (R26). -/
def elemsOf (code n : Nat) (p : List Byte) : List Elem :=
  if isMx code then
    let w := elemBits code
    let size := 1 + 4 * w
    ((List.range (ceilDiv n 32)).flatMap (fun b =>
      let blk := slice p (b * size) size
      let x := field blk 0 1
      (splitBits w 32 (32 * w) (ofBytes (blk.drop 1))).map (fun r => Elem.mk r x))).take n
  else
    let w := elemBits code / 8
    (List.range n).map (fun i => Elem.mk (field p (i * w) w) 0)

/-! ### Decoding (R29) -/

/-- A decoded element: value (−1)^s × m × 2^e when finite. -/
inductive Dec where
  | zero
  | fin (s : Bool) (m : Nat) (e : Int)
  | inf (s : Bool)
  | nan
  deriving DecidableEq, Repr

/-- decode_fp of R29. -/
def decodeFp (f : FpFmt) (v : Nat) : Dec :=
  let s := bit v (f.eb + f.mb)
  let ex := bits v (f.eb + f.mb - 1) f.mb
  let fr := v % 2 ^ f.mb
  let top := 2 ^ f.eb - 1
  if f.spec = .ieee ∧ ex = top then (if fr = 0 then .inf s else .nan)
  else if f.spec = .e4m3 ∧ ex = top ∧ fr = 2 ^ f.mb - 1 then .nan
  else if ex = 0 then (if fr = 0 then .zero else .fin s fr (1 - f.bias - f.mb))
  else .fin s (fr + 2 ^ f.mb) (ex - f.bias - f.mb)

/-- A signed number as sign and magnitude with a weight. -/
def decOfInt (v : Int) (e : Int) : Dec := if v = 0 then .zero else .fin (decide (v < 0)) v.natAbs e

/-- A decoded value moved by a power of two. -/
def Dec.shift (d : Dec) (k : Int) : Dec :=
  match d with
  | .fin s m e => .fin s m (e + k)
  | d => d

/-- A chunk element decoded (R29): decode_fp, decode_mx, decode_int32, or an XA partial's integer at weight 2^0. -/
def decode (code : Nat) (x : Elem) : Dec :=
  if isMx code ∧ x.scale = 0xFF then .nan
  else
    let k : Int := if isMx code then x.scale - 127 else 0
    match fpFmt code with
    | some f => (decodeFp f x.raw).shift k
    | none => (if code = 0x0D then decOfInt (signed 8 x.raw) (-6) else decOfInt (signed (elemBits code) x.raw) 0).shift k

/-- The number of bits of a natural number. -/
def bitlen (n : Nat) : Nat := if n = 0 then 0 else Nat.log2 n + 1

/-- floor(log2 |v|) of a finite nonzero value (R29). -/
def Dec.log2 : Dec → Option Int
  | .fin _ m e => some ((bitlen m : Int) - 1 + e)
  | _ => none

/-- The larger of two exponents, none being the least. -/
def expMax (a b : Option Int) : Option Int :=
  match a, b with
  | none, b => b
  | a, none => a
  | some x, some y => some (max x y)

/-! ### Conversion into the window (R33) -/

/-- A converted element: the integer, bits below the window, range overflow. -/
structure Win where
  q   : Int
  bwr : Bool
  rov : Bool
  deriving DecidableEq, Repr

/-- The magnitude shifted right by `k` and rounded to nearest, ties to even. -/
def roundShift (m k : Nat) : Nat :=
  let mag := m >>> k
  let rem := m % 2 ^ k
  let half := 2 ^ (k - 1)
  if k ≠ 0 ∧ (half < rem ∨ (rem = half ∧ mag % 2 = 1)) then mag + 1 else mag

/-- to_window of R33. -/
def toWindow (d : Dec) (l : Int) (w : Nat) : Win :=
  match d with
  | .zero => ⟨0, false, false⟩
  | .inf _ => ⟨0, false, true⟩
  | .nan => ⟨0, false, true⟩
  | .fin s m e =>
    if l ≤ e then
      let k := (e - l).toNat
      if w < bitlen m + k then ⟨0, false, true⟩
      else
        let mag : Int := (m * 2 ^ k : Nat)
        ⟨if s then -mag else mag, false, false⟩
    else
      let k := (l - e).toNat
      if 40 < k then ⟨0, true, false⟩
      else
        let mag : Int := (roundShift m k : Nat)
        ⟨if s then -mag else mag, decide (m % 2 ^ k ≠ 0), false⟩

/-- The anchor of the next instance in automatic mode (R38). -/
def nextAnchor (eHi : Option Int) (guard : Nat) (cur : Int) : Int :=
  match eHi with
  | none => cur
  | some e => max (-256) (min 64 (e + 1 + guard - 109))

/-- L2 of a widened chunk (R51). -/
def widenAnchor (l : Int) (eChunk : Option Int) : Int :=
  match eChunk with
  | none => l
  | some e => if e + 1 ≤ l + 173 then l else e + 1 - 173

/-! ### Flags (R54 Table 6) -/

def flagBwr : Nat := 1
def flagRov : Nat := 2
def flagNan : Nat := 4
def flagSat : Nat := 8
def flagWid : Nat := 16
def flagInf : Nat := 32

/-! ### Accumulators (R34, R43-R46) -/

/-- order_key of a decoded value (R226): 0 for a zero. -/
def orderKey (d : Dec) : Int :=
  match d with
  | .fin s m e =>
    let t := (bitlen m : Int) - 1 + e
    let mag := (t + 150) * 2 ^ 33 + (m * 2 ^ (33 - bitlen m) : Nat)
    if s then -mag else mag
  | _ => 0

/-- The value of a key, as a signed significand and exponent (R226). -/
def keyValue (k : Int) : Int × Int :=
  let a := k.natAbs
  let m : Int := (a % 2 ^ 33 : Nat)
  (if k < 0 then -m else m, (a / 2 ^ 33 : Nat) - 182)

/-- The keys that stand for no contribution: the fills of a maximum and of a minimum (R226 Table 1). -/
def noKey : Int := -(2 ^ 127)
def noLeast : Int := 2 ^ 127 - 1

/-- What a slot holds: integers at the anchor (sum, count), order keys (max, min), raw bits (XOR, OR, AND) (R226);
nothing before the first contribution or once the sums are discarded. -/
inductive Acc where
  | empty
  | ints (l : List Int)
  | keys (l : List Int)
  | raws (l : List Nat)
  deriving DecidableEq, Repr

/-- q1 × 2^e1 < q2 × 2^e2. -/
def extLt (a b : Int × Int) : Bool :=
  if a.2 ≤ b.2 then decide (a.1 < b.1 * 2 ^ (b.2 - a.2).toNat) else decide (a.1 * 2 ^ (a.2 - b.2).toNat < b.1)

/-- Two contributions joined by an operator (R34, R44, R45, R46). -/
def Acc.join (op : Nat) (a b : Acc) : Acc :=
  match a, b with
  | .empty, b => b
  | a, .empty => a
  | .ints x, .ints y => .ints (List.zipWith (· + ·) x y)
  | .keys x, .keys y => .keys (List.zipWith (if op = 1 then max else min) x y)
  | .raws x, .raws y => .raws (List.zipWith (fun p q => if op = 3 then p ^^^ q else if op = 4 then p ||| q else p &&& q) x y)
  | a, _ => a

/-- The frames of one contribution laid end to end. -/
def Acc.append (a b : Acc) : Acc :=
  match a, b with
  | .empty, b => b
  | .ints x, .ints y => .ints (x ++ y)
  | .keys x, .keys y => .keys (x ++ y)
  | .raws x, .raws y => .raws (x ++ y)
  | a, _ => a

/-- What converting a contribution's elements yields (R33, R44-R48): the addends, BWR, whether an element overflowed
or is infinite, the largest exponent, and the first NaN's element (log 49). -/
structure Conv where
  acc    : Acc
  bwr    : Bool := false
  rov    : Bool := false
  inf    : Bool := false
  maxExp : Option Int := none
  nan    : Option Nat := none

/-- The first position at which a predicate holds. -/
def firstIdx {α : Type} (p : α → Bool) : List α → Nat → Option Nat
  | [], _ => none
  | x :: r, i => if p x then some i else firstIdx p r (i + 1)

/-- A contribution's elements converted for an operator in a window of `w` bits at anchor `l`. -/
def convert (op code : Nat) (l : Int) (w : Nat) (xs : List Elem) : Conv :=
  if op = 3 ∨ op = 4 ∨ op = 5 then { acc := .raws (xs.map (·.raw)) }
  else
    let ds := xs.map (decode code)
    let nan := firstIdx (fun d => d == Dec.nan) ds 0
    let inf := ds.any (fun d => match d with | .inf _ => true | _ => false)
    let mx := ds.foldl (fun a d => expMax a d.log2) none
    if op = 1 ∨ op = 2 then { acc := .keys (ds.map orderKey), rov := inf, inf := inf, maxExp := mx, nan := nan }
    else if op = 6 then { acc := .ints (ds.map (fun d => if d = .zero then 0 else 1)), inf := inf, maxExp := mx, nan := nan }
    else
      let ws := ds.map (fun d => toWindow d l w)
      { acc := .ints (ws.map (·.q)), bwr := ws.any (·.bwr), rov := ws.any (·.rov), inf := inf, maxExp := mx, nan := nan }

/-- The integers of an XA128 partial's frame. -/
def partialInts (xs : List Elem) : List Int := xs.map (fun x => signed 128 x.raw)

/-- A partial covering `c` contributions meets the bound of R32. -/
def partialOk (c : Nat) (l : List Int) : Bool := l.all (fun q => decide (q.natAbs ≤ c * (2 ^ 109 - 1)))

/-! ### Output conversion (R55-R59) -/

/-- Scale, bias and clip bounds of a descriptor. -/
structure Fuse where
  scale : Dec
  bias  : Dec
  lo    : Dec
  hi    : Dec
  clip  : Bool

/-- The signed significand and exponent of a finite FP32 constant; zero has m = 0, e = 0. -/
def Dec.num : Dec → Int × Int
  | .fin s m e => (if s then -(m : Int) else m, e)
  | _ => (0, 0)

/-- fuse of R55. -/
def fuse (f : Fuse) (q l : Int) : Int × Int :=
  let (sm, se) := f.scale.num
  let (bm, be) := f.bias.num
  let (lm, le) := f.lo.num
  let (hm, he) := f.hi.num
  let p := q * sm
  let ep := l + se
  let e0 := min ep be
  let e0 := if f.clip then min e0 (min le he) else e0
  let sh := fun (v e : Int) => v * 2 ^ (e - e0).toNat
  let x := sh p ep + sh bm be
  let x := if f.clip then (if x < sh lm le then sh lm le else x) else x
  let x := if f.clip then (if sh hm he < x then sh hm he else x) else x
  (x, e0)

/-- round_fp of R56: the encoding and whether it saturated. -/
def roundFp (f : FpFmt) (x e0 : Int) : Nat × Bool :=
  if x = 0 then (0, false)
  else
    let s := b2n (decide (x < 0))
    let a := x.natAbs
    let ex : Int := max ((bitlen a : Int) - 1 + e0) (1 - f.bias)
    let k := (ex - f.mb) - e0
    if 1024 < k then (0, false)
    else
      let mant := if k ≤ 0 then a * 2 ^ (-k).toNat else roundShift a k.toNat
      let (mant, ex) := if mant = 2 ^ (f.mb + 1) then (2 ^ f.mb, ex + 1) else (mant, ex)
      if mant = 0 then (0, false)
      else
        let e := if mant < 2 ^ f.mb then 0 else (ex + f.bias).toNat
        let fr := mant % 2 ^ f.mb
        if f.maxE < e ∨ (e = f.maxE ∧ f.maxF < fr) then (s * 2 ^ (f.eb + f.mb) + f.maxE * 2 ^ f.mb + f.maxF, true)
        else (s * 2 ^ (f.eb + f.mb) + e * 2 ^ f.mb + fr, false)

/-- y = x × 2^e0 rounded to an integer, ties to even (R58). -/
def roundInt (x e0 : Int) : Int :=
  let m := if 0 ≤ e0 then x.natAbs * 2 ^ e0.toNat else roundShift x.natAbs (-e0).toNat
  if x < 0 then -(m : Int) else m

/-- One MX block of fused values (R57): scale code, encodings, and how many of them saturated. -/
def mxCount (f : FpFmt) (l : List (Int × Int)) : Nat × List Nat × Nat :=
  let nz := l.filter (fun (p : Int × Int) => p.1 != 0)
  match nz with
  | [] => (0, l.map (fun _ => 0), 0)
  | p :: r =>
    let e0 := r.foldl (fun a (q : Int × Int) => min a q.2) p.2
    let xs := l.map (fun (q : Int × Int) => if q.1 = 0 then 0 else q.1 * 2 ^ (q.2 - e0).toNat)
    let amax := xs.foldl (fun a x => max a x.natAbs) 0
    let raw := (bitlen amax : Int) - 1 + e0 - f.emax
    let sc := max (-127) (min 127 raw)
    let rs := xs.map (fun x => roundFp f x (e0 - sc))
    ((sc + 127).toNat, rs.map (·.1), if 127 < raw then (rs.filter (·.2)).length else 0)

/-- One MX block of fused values (R57): scale code, encodings, SAT. -/
def mxBlock (f : FpFmt) (l : List (Int × Int)) : Nat × List Nat × Bool :=
  let (x, es, n) := mxCount f l
  (x, es, n != 0)

/-- Elements of `w` bits laid end to end as bytes, most significant first. -/
def packElems (w : Nat) (l : List Nat) : List Byte := toBytes (w * l.length / 8) (pack (l.map (fun v => (w, v))))

/-- Lists of at most `n` elements that make up a list. -/
def chunksOf {α : Type} : Nat → Nat → List α → List (List α)
  | 0, _, _ => []
  | _ + 1, _, [] => []
  | fuel + 1, n, l => l.take n :: chunksOf fuel n (l.drop n)

/-- An MX payload from fused values (R26, R27, R57). -/
def mxPayload (code : Nat) (f : FpFmt) (l : List (Int × Int)) : List Byte × Bool :=
  (chunksOf l.length 32 l).foldl (fun (acc : List Byte × Bool) blk =>
    let (x, es, sat) := mxBlock f blk
    let es := es ++ List.replicate (32 - es.length) 0
    (acc.1 ++ BitVec.ofNat 8 x :: packElems (elemBits code) es, acc.2 || sat)) ([], false)

/-- The exact values of an accumulator at its anchor. -/
def Acc.values (a : Acc) (l : Int) : List (Int × Int) :=
  match a with
  | .ints x => x.map (fun q => (q, l))
  | .keys x => x.map keyValue
  | _ => []

/-- Fused values written in a floating-point, MX or INT32 output format, with SAT. -/
def encodeValues (code : Nat) (ys : List (Int × Int)) : List Byte × Bool :=
  if isMx code then
    match fpFmt code with
    | some f => mxPayload code f ys
    | none => ([], false)
  else if code = 0x10 then
    let rs := ys.map (fun (y : Int × Int) => roundInt y.1 y.2)
    (rs.flatMap (fun r => toBytes 4 (wrapInt 32 (max (-(2 ^ 31)) (min (2 ^ 31 - 1) r)))),
      rs.any (fun r => decide (r < -(2 ^ 31)) || decide (2 ^ 31 - 1 < r)))
  else
    match fpFmt code with
    | some f =>
      let rs := ys.map (fun (y : Int × Int) => roundFp f y.1 y.2)
      (rs.flatMap (fun r => toBytes (elemBits code / 8) r.1), rs.any (·.2))
    | none => ([], false)

/-- The output conversion of a completed accumulator (R55-R59): the format sent, the payload of all frames in order,
SAT. -/
def convertOut (code : Nat) (f : Fuse) (l : Int) (widened : Bool) (a : Acc) : Nat × List Byte × Bool :=
  match a with
  | .raws x => (code, x.flatMap (fun r => toBytes (elemBits code / 8) r), false)
  | a =>
    if code = 0x18 then
      let c := if widened then 0x19 else 0x18
      (c, (a.values l).flatMap (fun q => toBytes (elemBits c / 8) (wrapInt (elemBits c) q.1)), false)
    else
      let (p, sat) := encodeValues code ((a.values l).map (fun q => fuse f q.1 q.2))
      (code, p, sat)

/-! ### The arithmetic descriptor (R60 Table 8) -/

/-- A descriptor's fields. -/
structure Arith where
  inFmt  : Nat
  outFmt : Nat
  op     : Nat
  mode   : Nat
  clip   : Bool
  rereduce : Bool
  guard  : Nat
  anchor : Int
  scale  : Nat
  bias   : Nat
  lo     : Nat
  hi     : Nat
  limit  : Nat
  deriving DecidableEq, Repr

/-- The descriptor a 256-bit number spells. -/
def arithOf (v : Nat) : Arith :=
  { inFmt := bits v 255 248, outFmt := bits v 247 240, op := bits v 239 236, mode := bits v 235 234, clip := bit v 233,
    rereduce := bit v 232, guard := bits v 231 224, anchor := signed 16 (bits v 223 208), scale := bits v 191 160,
    bias := bits v 159 128, lo := bits v 127 96, hi := bits v 95 64, limit := bits v 63 48 }

/-- A decoded FP32 constant is neither NaN nor infinite. -/
def finite32 (v : Nat) : Bool :=
  match decodeFp fp32 v with
  | .nan => false
  | .inf _ => false
  | _ => true

/-- The input formats an operator accepts (Table 4); 0x18 is refused for every operator. -/
def inputAllowed (op f : Nat) : Bool :=
  isInput f && f != 0x18 && (op == 0 || op == 1 || op == 2 || op == 6 ||
    ((op == 3 || op == 4 || op == 5) && (f == 0x01 || f == 0x02 || f == 0x03 || f == 0x04 || f == 0x05 || f == 0x10)))

/-- The output formats an operator allows (Table 4); 0x19 may not be named. -/
def outputAllowed (op inF f : Nat) : Bool :=
  if op = 3 ∨ op = 4 ∨ op = 5 then f == inF
  else isOutput f && f != 0x19 && !((op == 1 || op == 2) && f == 0x18)

/-- The scale is 1.0, the bias is zero and clipping is off. -/
def Arith.plain (a : Arith) : Bool := a.scale == 0x3F800000 && (a.bias == 0 || a.bias == 0x80000000) && !a.clip

/-- The checks of Table 8 (R60). -/
def arithOk (v : Nat) : Bool :=
  let a := arithOf v
  decide (a.op ≤ 6) && inputAllowed a.op a.inFmt && outputAllowed a.op a.inFmt a.outFmt && decide (a.mode ≤ 1)
    && decide (a.guard ≤ 32) && decide (-256 ≤ a.anchor) && decide (a.anchor ≤ 64)
    && finite32 a.scale && finite32 a.bias && finite32 a.lo && finite32 a.hi
    && !(a.clip && extLt ((decodeFp fp32 a.hi).num) ((decodeFp fp32 a.lo).num))
    && decide (1 ≤ a.limit) && decide (a.limit ≤ 4096)
    && (!(a.op == 3 || a.op == 4 || a.op == 5 || a.outFmt == 0x18) || a.plain)
    && bits v 207 192 == 0 && bits v 47 0 == 0

/-- The fused conversion of a descriptor. -/
def Arith.fuse (a : Arith) : Fuse :=
  ⟨decodeFp fp32 a.scale, decodeFp fp32 a.bias, decodeFp fp32 a.lo, decodeFp fp32 a.hi, a.clip⟩

/-- The window anchor is 0 whatever the mode (R35). -/
def Arith.zeroAnchor (a : Arith) : Bool := a.inFmt == 0x10 || a.op == 6

end Sys2Proof.Machine
end

