-- ==== Sys2Proof/Machine/StateColl.lean ====
section
/-!
DEFINITION. The records State holds for collective operations and the reduction engine (spec/03, spec/04, spec/05).
-/
namespace Sys2Proof.Machine

/-- A registration (R63 Tables 1 and 2).  Ranges and homes are in ascending order of GEI. -/
structure Reg where
  op      : Nat
  type    : Nat
  v       : Bool := false
  ring    : Bool := false
  collEn  : Bool := false
  root    : Nat := 0
  coll    : Nat := 0
  chunks  : Nat := 1
  limit   : Nat := 200
  maxStall : Nat := 2000
  reserve : Nat := 1
  first   : Nat := 0
  ranges  : List (Nat × Nat × Nat) := []
  hset    : List Nat := []
  arith   : Nat := 0
  deriving DecidableEq, Repr

/-- The states of a chunk at a device (R130 Table 2) but for FREE; a chunk in SPILLING is held in `spilling`. -/
inductive ChunkState where
  | opened
  | overflowed
  | widened
  | resending
  | completing
  | held
  | bypassOut
  deriving DecidableEq, Repr

/-- An accepted contribution: the ranks it covers, the frames of it accepted (a bit each) and wanted, its source. -/
structure Cover where
  first  : Nat
  count  : Nat
  frames : Nat
  want   : Nat
  src    : Nat
  deriving DecidableEq, Repr

/-- A chunk's slot, chunk record and cover map (R117-R121, R130).  `inStacks` and `bases` are the stack and the first block
of each slot that lies in a stack (R226); `kept` the flags with which RESENDING began (R86). -/
structure Chunk where
  phase     : Nat
  chunk     : Nat
  state     : ChunkState
  die       : Nat
  slots     : List Nat := []
  inStacks  : List Nat := []
  bases     : List Nat := []
  spilling  : Bool := false
  reserved  : Bool := false
  h1        : Nat
  bypassIn  : Bool := false
  h2        : Nat := 0xFFFFFF
  steered   : List Nat := []
  book      : Nat := 0
  bookAt    : Nat := 0
  openedAt  : Time
  pass      : Nat := 0
  anchor    : Int := 0
  count     : Nat
  acc       : Acc := .empty
  wit       : Nat := 0
  flags     : Nat := 0
  kept      : Nat := 0
  eChunk    : Option Int := none
  cover     : List Cover := []
  forwarded : Bool := false
  request   : Nat := 0
  recomputes : Nat := 0
  lastStamp : Time := 0
  queued    : Bool := false
  payload   : List Byte := []
  deriving DecidableEq, Repr

/-- A member's stall record (R132-R134): last data, deadline, when it was marked TENTATIVE, whether progress or a
re-arm has been applied since, the last BEACON's VALUE_A, the µs of THROTTLE applied, the cap noticed. -/
structure Stall where
  tData     : Time
  d         : Time
  mark      : Option Time := none
  saved     : Bool := false
  beacon    : Nat := 0
  throttled : Nat := 0
  capped    : Bool := false
  deriving DecidableEq, Repr

/-- A delivered result kept in the resend store (R146): its RESULT frames, header and payload (none once the store has
lost or freed them, R234), the receivers that have been sent a second copy, the stack that holds it and its bytes of spill
space (R122, R223). -/
structure Result where
  phase  : Nat
  chunk  : Nat
  frames : List (List Byte)
  resent : List Nat := []
  stack  : Nat := 0
  bytes  : Nat := 0
  deriving DecidableEq, Repr

/-- A completion message of another home (R574). -/
structure Exchanged where
  src    : Nat
  bypass : Nat
  exp    : Option Int
  deriving DecidableEq, Repr

/-- The completion tally of an instance (R96, R97); `mark` is when its stall record was marked TENTATIVE (R136), `floor` a
deadline that the exit from BRACE has set (R540). -/
structure Tally where
  first : Time
  ranks : List Nat := []
  flags : Nat := 0
  last  : Time
  mark  : Option Time := none
  floor : Time := 0
  deriving DecidableEq, Repr

/-- A contribution refused with WITNESS_FAILED (R151): its source, chunk, pass and frame, and when it was compared (R156). -/
structure WitFail where
  src   : Nat
  key   : Nat
  pass  : Nat
  frame : Nat
  at_   : Time
  deriving DecidableEq, Repr

/-- An instance is open, complete, or aborted. -/
inductive InstState where
  | opened
  | completed
  | aborted
  deriving DecidableEq, Repr

/-- An instance of an operation at this home (R73-R75, R574). -/
structure Inst where
  num       : Nat
  state     : InstState := .opened
  ver       : Nat
  anchor    : Option Int := none
  openedAt  : Time
  stalls    : Tab Stall := []
  chunks    : List Chunk := []
  counts    : Tab Nat := []
  done      : List Nat := []
  deferred  : List Nat := []
  bypassed  : List (Nat × Nat) := []
  emitted   : List Nat := []
  bypassNo  : List Nat := []
  takenIn   : List Nat := []
  accepted  : Bool := false
  maxExp    : Option Int := none
  hist      : Tab Nat := []
  flags     : Nat := 0
  widened   : Nat := 0
  witFailed : List WitFail := []
  sentMsg   : Bool := false
  msgs      : List Exchanged := []
  vectors   : Tab (List Int) := []
  results   : List Result := []
  lastLeft  : Time := 0
  doneAt    : Time := 0
  completeSent : Bool := false
  completeAt : Time := 0
  bypassTold : Bool := false
  deferTold : Bool := false
  satTold   : Bool := false
  tally     : Option Tally := none
  tallySent : Bool := false
  recompute : Nat := 2
  sinkMode  : Nat := 0
  sinkGei   : Nat := 0
  group     : Nat := 0xFFFF
  deriving DecidableEq, Repr

/-- An operation context (R66, R68, R70, R122): PREPARED until the commit; the exclusions in order, each with the
device, the version that leaves it out and the first instance of that version; the writes of a fixed anchor with their
commit times (R36); the anchor of the next instance. -/
structure Ctx where
  reg       : Reg
  gen       : Nat
  admitted  : Bool := false
  deregistering : Bool := false
  excluded  : List (Nat × Nat × Nat) := []
  settled   : Nat := 0
  ver       : Nat := 0
  opn       : Nat := 0
  anchorNext : Int := -108
  writes    : List (Time × Int) := []
  expHi     : Option Int := none
  widenedLast : Nat := 0
  histLast  : Tab Nat := []
  insts     : List Inst := []
  area      : Nat := 0
  areaAt    : Nat := 0
  footprint : Nat := 0
  deriving DecidableEq, Repr

/-- A two-phase exchange this device leads (R66): its kind (R488 Table 10), what it concerns, the devices asked, the
answers held, when the prepares left. -/
structure Led where
  xid     : Nat
  kind    : Nat
  subject : Nat
  record  : List Byte
  devices : List Nat
  votes   : List (Nat × Nat) := []
  since   : Time
  reply   : Nat := 0xFFFFFF
  deriving DecidableEq, Repr

/-- A two-phase exchange this device takes part in. -/
structure HeldX where
  orig    : Nat
  xid     : Nat
  kind    : Nat
  subject : Nat
  record  : List Byte
  vote    : Nat
  ended   : Bool := false
  deriving DecidableEq, Repr

/-- A signed record waiting in a die's record queue (R160), with the RESULT frames and receivers it goes with. -/
structure QRec where
  ctx    : Nat
  inst   : Nat
  phase  : Nat
  chunk  : Nat
  record : BitVec 640
  deriving DecidableEq, Repr

/-- An entry of the pre-reduce table (R88). -/
structure PreEntry where
  operator : Nat
  first    : Nat
  count    : Nat
  deriving DecidableEq, Repr

/-- A contribution summed apart until runs are known (R88, R101): its ranks, the frames of it held and wanted, its sums,
witness by frame, flags and largest exponent; the base header and route it came with. -/
structure Part where
  first  : Nat
  count  : Nat
  frames : Nat
  want   : Nat
  sums   : List Int
  wits   : List Nat
  flags  : Nat
  maxExp : Option Int
  hdr    : Hdr
  hops   : List Nat := []
  die    : Nat := 0
  deriving DecidableEq, Repr

/-- A pre-reduce slot of a leaf (R88), or the local sum of a ring device (R101), which takes no SRAM slot. -/
structure PreSlot where
  op      : Nat
  inst    : Nat
  chunk   : Nat
  anchor  : Int
  count   : Nat
  hver    : Nat
  ring    : Bool
  die     : Nat := 0
  slot    : Option Nat := none
  openedAt : Time
  parts   : List Part := []
  closed  : Bool := false
  deriving DecidableEq, Repr

/-- A contribution crossing the quire ring from q_a to q_b (R116): its context, ingress die and stamp, source, header
and payload. -/
structure Crossing where
  die     : Nat
  stamp   : Time
  src     : Nat
  header  : BitVec 384
  payload : List Byte
  deriving DecidableEq, Repr

/-- A peer device (R414): when its last beat arrived, and whether it has been declared LOST. -/
structure PeerDev where
  beat : Time
  lost : Bool := false
  deriving DecidableEq, Repr

/-- A partial turned from a contribution by h1 on its way to h2, and the answers a home sends, leave as frames; what
stays here is the whole of the collective engine (R63-R165). -/
structure Coll where
  ctxs      : Tab Ctx := []
  xid       : Nat := 0
  leds      : List Led := []
  helds     : List HeldX := []
  slots     : Tab (List Nat) := []
  published : Tab Nat := []
  stackUsed : Tab Nat := []
  mismatchAt : Tab (List Time) := []
  crossing  : List Crossing := []
  records   : Tab (List QRec) := []
  ring      : Tab (BitVec 640) := []
  ringBad   : List Nat := []
  pre       : Tab PreEntry := []
  preSlots  : List PreSlot := []
  peers     : Tab PeerDev := []
  beatSeq   : Nat := 0
  deriving DecidableEq, Repr

end Sys2Proof.Machine
end

