-- ==== Sys2Proof/Machine/StateGraph.lean ====
section
/-!
DEFINITION. The records State holds for tensors, update graphs, their runs and the matrix arrays (spec/06, spec/07).
-/
namespace Sys2Proof.Machine

/-- One copy of a stripe (R171): the version it holds, its elements' encodings, and whether it can be read. -/
structure Copy where
  ver  : Nat
  vals : List Nat
  ok   : Bool := true
  deriving DecidableEq, Repr

/-- A stripe's two copies (R171); `second` says that copy 1 is the committed one.  A stripe whose committed copy cannot
be read is LOST (R234). -/
structure Stripe where
  c0     : Copy
  c1     : Copy
  second : Bool := false
  deriving DecidableEq, Repr

/-- A tensor (R167 Table 1).  A stripe that `stripes` does not list is zero in both copies, which hold `base`. -/
structure Tensor where
  handle   : Nat
  cls      : Nat
  fmt      : Nat
  op       : Nat
  first    : Nat
  elements : Nat
  rows     : Nat
  cols     : Nat
  admitted : Bool := false
  version  : Nat := 0
  base     : Nat := 0
  stripes  : Tab Stripe := []
  bytes    : Nat := 0
  deriving DecidableEq, Repr

/-- An edge of a node (R173 Table 3): its kind (0 unused, 1 STRIPE, 2 FULL, 3 ORDER), the producer's output, the
producer. -/
structure GEdge where
  dep  : Nat
  out  : Nat
  prod : Nat
  deriving DecidableEq, Repr

/-- A node record (R173 Table 3); `edges` are its slots in use. -/
structure GNode where
  kind    : Nat
  outKind : Nat
  domain  : Nat
  edges   : List GEdge
  params  : Nat
  deriving DecidableEq, Repr

/-- A COLLECT of a run (R188): this device's own sum or largest key once formed, and the result. -/
structure Collect where
  own    : Option Int := none
  result : Option Nat := none
  deriving DecidableEq, Repr

/-- A message of another device for a run (R188): source, instance, node, kind and value. -/
structure GMsg where
  src  : Nat
  inst : Nat
  node : Nat
  kind : Nat
  val  : Int
  deriving DecidableEq, Repr

/-- The progress of an MM node (R207): the product it is in, the tiles of it issued and passed, and whether what it meets has
been told (R199, R202). -/
structure Product where
  prod   : Nat := 0
  issued : List (Nat × Nat) := []
  passed : List (Nat × Nat) := []
  told   : Bool := false
  deriving DecidableEq, Repr

/-- A run in progress (R175-R182).  `opened` holds die, stage, domain group and stripe; tasks are a node with a stripe, a
die for an MM node, or 0. -/
structure Run where
  inst      : Nat
  flush     : Bool
  consts    : List Nat
  opened    : List (Nat × Nat × Nat × Nat) := []
  issued    : List (Nat × Nat) := []
  done      : List (Nat × Nat) := []
  outs      : Tab (List Nat) := []
  collects  : Tab Collect := []
  products  : Tab Product := []
  fenceAt   : Option Time := none
  sent      : Bool := false
  storedAt  : Time := 0
  storeTold : Bool := false
  satNodes  : List Nat := []
  flushTold : Bool := false
  deriving DecidableEq, Repr

/-- The publishing that follows a commit (R190): the version, tasks issued and done. -/
structure Pub where
  version : Nat
  issued  : List (Nat × Nat) := []
  done    : List (Nat × Nat) := []
  deriving DecidableEq, Repr

/-- A resident or prepared graph (R173).  `state` is that of GRAPH_STATE; `next` the instance of the next run; `skip` the
instances that aborted before their run could start; `reports` the fence reports held, with device, version and OK;
`owed` the devices whose report of the last aborted run had not come; `grads` the results received by update transfer,
by instance and chunk; `moved` the stripes, by tensor, that are being migrated; `constsNext` and `subNext` apply from the next run. -/
structure Graph where
  id         : Nat
  state      : Nat
  op         : Nat
  auto       : Bool
  next       : Nat
  limit      : Nat
  nodes      : List GNode
  progs      : List (List Nat)
  groups     : List (Nat × Nat)
  constsNext : List Nat
  version    : Nat
  subNext    : Bool := false
  run        : Option Run := none
  pub        : Option Pub := none
  skip       : List (Nat × Nat) := []
  msgs       : List GMsg := []
  reports    : List (Nat × Nat × Bool) := []
  owed       : List Nat := []
  grads      : Tab (List Nat) := []
  migrating  : Bool := false
  moved      : List (Nat × Nat) := []
  scratch    : Nat := 0
  deriving DecidableEq, Repr

/-- A tile on an array (R207): graph slot, node, product, block row and column, the mismatches met so far, and the array
on which the first two were met (R213). -/
structure Tile where
  slot : Nat
  node : Nat
  prod : Nat
  i    : Nat
  j    : Nat
  miss : Nat := 0
  tried : Nat := 0
  deriving DecidableEq, Repr

/-- An array (R207-R215): the tiles it works on, tiles it must take first, its first mismatch within the window, when it
last had a tile, when a tile was last put ahead of its next. -/
structure MatArray where
  tiles : List Tile := []
  ahead : List Tile := []
  first : Option Time := none
  last  : Time := 0
  put   : Option Time := none
  deriving DecidableEq, Repr

/-- A parity group held here (R433-R438): its record's fields, the pages, whether it is admitted and its state (0
PROTECTED, 1 UNPROTECTED, 2 BROKEN).  At the parity device: the committed and pending pages with their versions, and the
last version told.  At a data device: the stream's stripes, the version of the round under way, that for which
PARITY_DONE came or the wait ended, the instance of the next round, the time of the last STORE. -/
structure Parity where
  job       : Nat
  group     : Nat
  graph     : Nat
  pgei      : Nat
  data      : List Nat
  pages     : Nat := 0
  admitted  : Bool := false
  state     : Nat := 1
  committed : Option Nat := none
  cPages    : Tab (List Nat) := []
  pending   : Option Nat := none
  pPages    : Tab (List Nat) := []
  told      : Option Nat := none
  stream    : List (Nat × Nat) := []
  round     : Option Nat := none
  doneFor   : Option Nat := none
  waived    : Option Nat := none
  inst      : Nat := 0
  storedAt  : Time := 0
  deriving DecidableEq, Repr

/-- A rebuild at its parity device, or at the device that is rebuilt (R438): the data device's index and GEI, the version,
the pages reduced so far. -/
structure Rebuild where
  job     : Nat
  group   : Nat
  index   : Nat
  version : Nat
  target  : Nat
  count   : Nat
  pages   : Tab (List Nat) := []
  deriving DecidableEq, Repr

/-- Tensors by handle, graphs by slot, the staged image, arrays by index, the graph slot that last took a tile of each
die, when each update engine last had a task, the poison lists of the stacks, parity groups by job and number, the rebuild
under way.  Of each stack: `cells` the blocks written outside the chunks' slots, zero blocks not listed; `upsets` the bits in
which the stored code word of a block differs from the one last written (R229, R230); `given` the block it last returned, `arb`
the class whose turn it is at the interface and the transfers left of it (R238), `scrubFrom` when its scrub pass began.
`eligible` holds the stripes that may open, as they became eligible: graph slot, die, stage, domain group, stripe (R177). -/
structure Graphs where
  tensors  : Tab Tensor := []
  slots    : Tab Graph := []
  stage    : List Byte := []
  arrays   : Tab MatArray := []
  lastSlot : Tab Nat := []
  engines  : Tab Time := []
  poison   : Tab (List Nat) := []
  poisonAt : Tab (List Time) := []
  scrubAt  : Tab Nat := []
  cells    : Tab (Tab (BitVec 512)) := []
  upsets   : Tab (Tab (BitVec 544)) := []
  given    : Tab (BitVec 512) := []
  arb      : Tab (Nat × Nat) := []
  scrubFrom : Tab Time := []
  eligible : List (Nat × Nat × Nat × Nat × Nat) := []
  parity   : Tab Parity := []
  rebuild  : Option Rebuild := none
  deriving DecidableEq, Repr

end Sys2Proof.Machine
end

