-- ==== Sys2Proof/Machine/StateJobs.lean ====
section
/-!
DEFINITION. The records State holds for jobs and spawn sessions (spec/16).
-/
namespace Sys2Proof.Machine

/-- The states of a tag (R444). -/
inductive JobState where
  | free
  | pending
  | active
  | retiring
  | quarantine
  deriving DecidableEq, Repr

/-- The code JOB_QUERY reports. -/
def JobState.code : JobState → Nat
  | .free => 0 | .pending => 1 | .active => 2 | .retiring => 3 | .quarantine => 4

/-- A job tag's record (R446 Table 2) and its life (R444, R452, R456): state, generation, record, status, the time of the
last state change; of a retire, whether it is an ADVANCE, when it was committed, whether RETIRE_SLOW has been raised; the
generations retired here with their times. -/
structure Job where
  state   : JobState := .free
  gen     : Nat := 0
  record  : BitVec 512 := 0
  status  : Nat := 0
  since   : Time := 0
  advance : Bool := false
  retired : Time := 0
  slow    : Bool := false
  old     : List (Nat × Time) := []
  deriving DecidableEq, Repr

/-- A spawn session (R459 Table 7, R461-R466): its record's fields; the cached blocks with the stack each lies on; the
highest block cached; the blocks below it that are missing, each with the time it is asked for next; ranks covered, ranges
acknowledged upward, ranges adopted with their requester; stripes filled; the alternate a REPARENT has gone to; when it
completed. -/
structure Session where
  job       : Nat
  number    : Nat
  group     : Nat
  parent    : Nat
  alts      : List Nat
  blocks    : Nat
  last      : Nat
  cache     : Bool
  fill      : Bool
  first     : Nat
  count     : Nat
  tensor    : Nat
  fillFirst : Nat
  data      : Tab (Nat × List Byte) := []
  high      : Option Nat := none
  asks      : List (Nat × Time) := []
  cover     : List (Nat × Nat) := []
  acked     : List (Nat × Nat) := []
  adopted   : List (Nat × Nat × Nat) := []
  filled    : List Nat := []
  alt       : Option Nat := none
  doneAt    : Time := 0
  deriving DecidableEq, Repr

end Sys2Proof.Machine
end

