-- ==== Sys2Proof/Machine/StateLink.lean ====
section
/-!
DEFINITION. The records State holds for the optics and the die links (spec/12, spec/13).
-/
namespace Sys2Proof.Machine

/-- A ring's loop (R335, R336, R340): the candidates still to try, the sweeps that have failed in a row, the expected
heater code (none before a calibration) with the photonic die temperature at that calibration, the dominant tone of the last windows with the
number of windows it has stood, and when the candidate was taken. -/
structure RingLoop where
  cands : List Nat := []
  fails : Nat := 0
  hexp  : Option Nat := none
  temp  : Int := 0
  tone  : Nat := 0xFF
  run   : Nat := 0
  since : Time := 0
  deriving DecidableEq, Repr

/-- A bypass circuit (R350): its wavelength, local receive fiber and local transmit fiber. -/
structure Bypass where
  wave : Nat
  inF  : Nat
  outF : Nat
  deriving DecidableEq, Repr

/-- A port within a calibration slot (R343): the slot's start, and whether it is switching to half width (1), at half
width (2) or switching back (3). -/
structure Narrow where
  slot  : Time
  phase : Nat
  deriving DecidableEq, Repr

/-- The calibration schedule (R344): base and period in force, those written with their commit time, the start of the
pass whose skipped channels have been reported. -/
structure Cal where
  base   : Time := 0
  period : Nat := 86400 * 65536000000000
  wrote  : Option Time := none
  told   : Option Time := none
  deriving DecidableEq, Repr

/-- A UCIe module (R366-R372): since when it trains, the width it may train at, and the width record to be written when
the retrain after a disagreement ends: the end reset, both widths, the time of the exchange; whether a write of
MODULE_RETRAIN waits for its outcome. -/
structure Ucie where
  since : Time := 0
  most  : Nat := 64
  log   : Option (Nat × Nat × Nat × Time) := none
  asked : Bool := false
  deriving DecidableEq, Repr

/-- What crosses an engine's attachment one way (R363-R365): the sender's next SEQ, its place in the round, and the flits not yet
acknowledged with their modules; the SEQ the receiver delivers next, and the flits its reorder buffer holds. -/
structure FlitLane where
  next  : Nat := 0
  place : Nat := 0
  owed  : List (Nat × Nat) := []
  want  : Nat := 0
  held  : List Nat := []
  deriving DecidableEq, Repr

/-- A stitch channel (R373-R378): 0 IN_SERVICE, 1 TESTING, 2 RETIRED; the wires found failed; when its last replays
began; since when it is tested; the sender's next SEQ and the flits of each source not yet acknowledged, oldest first; the SEQ
the receiver takes next. -/
structure Channel where
  state : Nat := 0
  bad   : List Nat := []
  naks  : List Time := []
  since : Time := 0
  seq   : Nat := 0
  owed  : List (Nat × Nat) := []
  want  : Nat := 0
  deriving DecidableEq, Repr

/-- The optics and die links: ring loops by ring (bypass circuit i has its drop ring at 4096 + 2i and its add ring after
it), bypass circuits by element, ports within a calibration slot, the schedule, modules, stitch channels by
8 × pair + channel, flit lanes by 2 × engine + direction (0 toward the switch die). -/
structure Links where
  rings    : Tab RingLoop := []
  bypasses : Tab Bypass := []
  narrow   : Tab Narrow := []
  cal      : Cal := {}
  modules  : Tab Ucie := []
  channels : Tab Channel := []
  lanes    : Tab FlitLane := []
  deriving DecidableEq, Repr

end Sys2Proof.Machine
end

