-- ==== Sys2Proof/Machine/StateMgmt.lean ====
section
/-!
DEFINITION. The records State holds for the dictionary's messages, notices, keys and firmware (spec/17).
-/
namespace Sys2Proof.Machine

/-- Where a request came from and its answer goes (R479, R484, R485, R487). -/
inductive Origin where
  | udp (port : Nat) (addr : Nat) (udpPort : Nat)
  | pcie
  | smbus
  | inband (src job gen : Nat)
  deriving DecidableEq, Repr


/-- How a write item stands to its message (R475): a message of its own, checked only, or committed with the message. -/
inductive Pass where
  | alone
  | checking
  | committing
  deriving DecidableEq, Repr

/-- A notice record in a queue, with the time it entered (R491-R493). -/
structure Queued where
  entered : Time
  record  : BitVec 256
  deriving DecidableEq, Repr

/-- A notice queue (R492-R494): records oldest first, the next SEQ, how many of the first were pushed, when they
were last sent, and the loss that waits to be reported (count and the time of the first). -/
structure NQueue where
  records : List Queued := []
  seq     : Nat := 0
  pushed  : Nat := 0
  sentAt  : Time := 0
  loss    : Option (Nat × Time) := none
  deriving DecidableEq, Repr

/-- A key slot (R496 Table 15). -/
structure KeySlot where
  enable : Bool := false
  rights : Nat := 0
  job    : Nat := 0
  key    : Nat := 0
  deriving DecidableEq, Repr

/-- A request message waiting at the keeper (R483): the path its rights come from, and its key slot as it was when the
message arrived (R504). -/
structure WaitMsg where
  origin : Origin
  path   : Path
  judged : Option KeySlot
  bytes  : List Byte
  deriving DecidableEq, Repr

/-- The TXN state of a key slot (R482): the highest executed, the map of the 64 below it, the last 64 responses. -/
structure Txn where
  highest   : Option Nat := none
  map       : BitVec 64 := 0
  responses : List (Nat × List Byte) := []
  deriving DecidableEq, Repr

/-- A firmware slot of the flash (R498, R499): whether a reset broke off its writing, its image's security version, version
and SHA-384 digest. -/
structure FwSlot where
  bad     : Bool := false
  svn     : Nat := 0
  version : Nat := 0
  measure : Nat := 0
  deriving DecidableEq, Repr

/-- The sliding limit of one notice code and key (R491). -/
structure Limit where
  code : Nat
  key  : Nat
  last : Time
  deriving DecidableEq, Repr

/-- The state of a mailbox (R484 Table 7, R485 Table 8). -/
inductive Mbx where
  | idle
  | busy
  | done
  deriving DecidableEq, Repr

/-- What the block emits at its interfaces in one command.  The list is emptied when the next command begins. -/
inductive Output where
  /-- A frame's first bit leaves a fabric port. -/
  | frame (port : Nat) (p : Packet)
  /-- A LINK frame leaves a fabric port (R271, R269, R399). -/
  | link (port : Nat) (body : BitVec 192)
  /-- A DAP message leaves a management port. -/
  | udp (port addr udpPort : Nat) (bytes : List Byte)
  /-- An IEEE 1588 message leaves a PTP port (R398). -/
  | ptp (port : Nat) (m : Ptp)
  /-- The status of a dictionary item, and the data of a read item. -/
  | item (status : Nat) (data : Nat)
  /-- A PCIe memory write of a notice record, and an MSI-X vector (R484). -/
  | pcieWrite (addr : Nat) (record : BitVec 256)
  | msix (vector : Nat)
  /-- The data of an SMBus read (R485). -/
  | smbus (bytes : List Byte)
  /-- A pulse or edge at a pin: 0-3 TPO0-3, 4 GRP_SYNC (R404, R406). -/
  | pin (pin : Nat) (word : Nat)
  /-- A data word at the JTAG port (R564). -/
  | jtag (word : Nat)
  deriving DecidableEq, Repr

/-- The keeper's messages, notices, keys and firmware.  `pass`, `judged` and `planned` are the model's own: how the items of
the message under execution are taken, the key slot it is judged under, and the plain elements it would write. -/
structure Mgmt where
  pass       : Pass := .alone
  judged     : Option KeySlot := none
  planned    : Tab Nat := []
  waiting    : List WaitMsg := []
  queues     : Tab NQueue := []
  limits     : List Limit := []
  withheld   : List (Nat × Nat × Nat) := []
  keys       : Tab KeySlot := []
  txns       : Tab Txn := []
  mbx        : Mbx := .idle
  mbxReq     : List Byte := []
  mbxResp    : List Byte := []
  ringBase   : Nat := 0
  ringSize   : Nat := 0
  ringHead   : Nat := 0
  ringTail   : Nat := 0
  ringCtrl   : Nat := 0
  smb        : Mbx := .idle
  smbReq     : List (Nat × Byte) := []
  smbResp    : List Byte := []
  smbOffset  : Nat := 0
  smbAlert   : Bool := false
  smbSev     : Nat := 0
  fwStage    : List (Nat × Byte) := []
  fwImage    : Option Nat := none
  fwSlots    : Tab FwSlot := []
  running    : FwSlot := {}
  nonce      : BitVec 256 := 0
  exportReq  : Option (BitVec 808) := none
  epochFlash : Nat := 0
  epochAt    : Option Time := none
  keyPeriodAt : Time := 0
  deriving DecidableEq, Repr

end Sys2Proof.Machine
end

