-- ==== Sys2Proof/Machine/StatePower.lean ====
section
/-!
DEFINITION. The record State holds for supplies, clocks, start-up, resets and temperature (spec/19).
-/
namespace Sys2Proof.Machine

/-- Power, clocks and reset: the start-up step under way (9 once READY, 0 while it waits), the step at which a held start-up
begins, when the step and the start-up began, how often start-up was repeated and when it last failed; RESET_N low;
MFG_TEST_N sampled low; the supply below its reset threshold; VAON and VIO in range; THERMTRIP_N driven low; since when the
device is in BRACE; since when each reference clock is lost, and both; since when A is present again, and whether
REFCLK_SEL has been written since; dies (elements of DIE_TEMP, photonic dies from 40) beyond their warning; engines whose
gates a temperature has closed; partial resets under way with their start; since when a keeper rejoins; temperatures of the
last millisecond, newest first (photonic dies from 40, base-tile sensors from 64); the TAP instruction in force (0 BYPASS,
1 IDCODE, 2 SAMPLE/PRELOAD, 3 EXTEST, 4 CLAMP, 5 HIGHZ; IDCODE after a power-on reset, as IEEE 1149.1 has it) and the
boundary register's preloaded bits. -/
structure Power where
  step     : Nat := 1
  heldStep : Nat := 1
  stepAt   : Time := 0
  startAt  : Time := 0
  repeats  : Nat := 0
  failedAt : Option Time := none
  pinLow   : Bool := false
  mfg      : Bool := false
  sag      : Bool := false
  vaon     : Bool := true
  vio      : Bool := true
  trip     : Bool := false
  brace    : Option Time := none
  lostA    : Option Time := none
  lostB    : Option Time := none
  both     : Option Time := none
  backA    : Option Time := none
  warm     : List Nat := []
  shut     : List Nat := []
  resets   : Tab Time := []
  rejoin   : Option Time := none
  temps    : Tab (List (Time × Int)) := []
  tap      : Nat := 1
  preload  : Nat := 0
  deriving DecidableEq, Repr

end Sys2Proof.Machine
end

