-- ==== Sys2Proof/Machine/StateProbe.lean ====
section
/-!
DEFINITION. The record State holds for snapshots and samples (spec/18).
-/
namespace Sys2Proof.Machine

/-- Snapshots and samples: the snapshot ring by SEQ, each record as its 64-byte blocks with the stack of each (R513, R515);
the sample ring by SEQ, each with its stack (R515, R517); blocks of the snapshot ring written; the writes of SNAP_PERIOD,
SNAP_BASE and SNAP_MASK that no record has been formed under yet, oldest first, each with the value it replaces and the time it
applies from (R512); instants missed since the last record; by source the countdown and the time of the last sample (R516, R518). -/
structure Probes where
  snaps   : Tab (List (Nat × BitVec 512)) := []
  samples : Tab (Nat × BitVec 512) := []
  written : Nat := 0
  waits   : List (Nat × Nat × Time) := []
  missed  : Nat := 0
  downs   : Tab Nat := []
  lastAt  : Tab Time := []
  deriving DecidableEq, Repr

end Sys2Proof.Machine
end

