-- ==== Sys2Proof/Machine/StateTime.lean ====
section
/-!
DEFINITION. The records State holds for fabric time (spec/14).
-/
namespace Sys2Proof.Machine

/-- What a peer's last TIME frame said of its root (R401): RCLASS, ROOT_PRIORITY, ROOT_GEI, STEPS, SYNCED. -/
structure Peered where
  cls    : Nat
  prio   : Nat
  gei    : Nat
  steps  : Nat
  synced : Bool
  deriving DecidableEq, Repr

/-- Link-level time transfer at a port (R399-R401): the next SEQ; the last four frames sent, with their egress stamps, the
latest first; the SEQ and ingress stamp of the last frame received; what it said; in how many consecutive frames its key
has been better. -/
structure LinkTime where
  seq    : Nat := 0
  sent   : List (Nat × Time) := []
  peer   : Option (Nat × Time) := none
  said   : Option Peered := none
  better : Nat := 0
  deriving DecidableEq, Repr

/-- A PTP port of the boundary clock (R398): since when it takes part; the Announce messages held, each with the time of
the last and how many have come; in how many consecutive messages its key has been better; a two-step Sync that waits for
its Follow_Up; the last Sync as corrected origin and ingress; the Delay_Req or Pdelay_Req that waits for its answer, with
its egress; a two-step Pdelay_Resp that waits (SEQ, origin, egress of the request, ingress of the response, corrections);
the mean path delay; the sequence numbers by message type. -/
structure PtpPort where
  since   : Time := 0
  foreign : List (Ptp × Time × Nat) := []
  better  : Nat := 0
  wait    : Option (Nat × Nat × Time × Int) := none
  last    : Option (Int × Time) := none
  asked   : Option (Nat × Time) := none
  half    : Option (Nat × Int × Time) := none
  delay   : Option Int := none
  seqs    : Tab Nat := []
  deriving DecidableEq, Repr

/-- A timed pulse output (R406): the record in force before the last write, when the written record takes effect, the last
edge fired. -/
structure Pulse where
  old  : Nat := 0
  from_ : Time := 0
  last : Option Time := none
  deriving DecidableEq, Repr

/-- A capture input (R407): edges queued, oldest first, each with its direction, stamp and the losses before it; losses
since the last capture queued. -/
structure Capture where
  queue : List (Nat × Time × Nat) := []
  lost  : Nat := 0
  told  : Bool := false
  deriving DecidableEq, Repr

/-- Fabric time: the parent, as kind (1 PTP management port, 2 PTP fabric port, 3 LINK) and port; whether the device has
been SYNCED since reset; consecutive offsets within SYNC_BAND; a STEP_ARM that waits; link transfer by port; PTP ports
(1,024 and 1,025 are the management ports); management ports whose link is up; of a board-group member: consecutive good
edges, consecutive misses, whether it has fallen back to its own sources, the leader's TIME_STATE; pulse outputs; captures. -/
structure Clock where
  parent  : Option (Nat × Nat) := none
  synced  : Bool := false
  band    : Nat := 0
  armed   : Bool := false
  links   : Tab LinkTime := []
  ptp     : Tab PtpPort := []
  mgmtUp  : List Nat := []
  edges   : Nat := 0
  missed  : Nat := 0
  own     : Bool := false
  leader  : Nat := 0
  pulses  : Tab Pulse := []
  caps    : Tab Capture := []
  deriving DecidableEq, Repr

end Sys2Proof.Machine
end

