-- ==== Sys2Proof/Machine/State.lean ====
section
/-!
DEFINITION. The state of the Ovaron, its state at reset, and the reasons a step can stop.
-/
namespace Sys2Proof.Machine

/-- The faults of the model.  No command of this block stops the machine: the spec names an effect for each. -/
inductive Fault where
  /-- Raised by nothing (safe): kept so that the type is inhabited. -/
  | none
  deriving DecidableEq, Repr

/-- The refusals of the model. -/
inductive Refusal where
  /-- Raised by an arm of `exec` whose command has no meaning yet (safe). -/
  | notModelled (mnemonic : String)
  deriving DecidableEq, Repr

/-- The state of the block.  `pending` is the queue of commands; `now` the fabric time of the last command; `fresh`
counts the free values taken (the model's own field); `regs` the dictionary elements that differ from their defaults;
`starts` the tags of the PENDING starts in order (R450); `out` what the last command emitted. -/
structure State where
  pending : List Instr := []
  now     : Time := 0
  fresh   : Nat := 0
  regs    : Tab Nat := []
  out     : List Output := []
  net     : Net := {}
  mgmt    : Mgmt := {}
  jobs    : Tab Job := []
  starts  : List Nat := []
  spawns  : Tab Session := []
  coll    : Coll := {}
  graphs  : Graphs := {}
  links   : Links := {}
  power   : Power := {}
  clock   : Clock := {}
  probes  : Probes := {}
  deriving DecidableEq, Repr

/-- The machine right after a power-on reset (R473, R534-R537; the log names every value the spec leaves open). -/
def State.reset : State := {}

end Sys2Proof.Machine
end

