-- ==== Sys2Proof/Machine/Ops.lean ====
section
/-!
DEFINITION. The named operations every meaning is built from: dictionary elements, the clock of a command, outputs,
free values and notices (spec/17 R471-R476, R491-R495).
-/
namespace Sys2Proof.Machine

/-! ### Dictionary elements -/

/-- The key of element `el` of entry `e`. -/
def elKey (e el : Nat) : Nat := e * 2 ^ 24 + el

/-- Defaults that differ from element to element: NQ_CONFIG (R492), VLAN 1, POOL_FREE (spec/09 Table 9), MON_LOW
(spec/12 Table 7), FF_SENSOR (R555), COUNTER_SELECT, SAMPLER, SNAP_MASK, TPO_CONFIG (their Tables' defaults),
PORT_ADMIN. -/
def dfltSpecial (e el : Nat) : Option Nat :=
  if e = E.nqConfig then
    some (pack [(1, b2n (el == 0)), (3, 0), (2, 0), (2, 0), (18, 0x3FFFF), (6, 0), (24, 0), (16, 0), (8, 0), (8, 8), (40, 0), (128, 0)])
  else if e = E.vlan then (if el = 1 then some 0x8000FFFF else some 0x0000FFFF)
  else if e = E.poolFree ∨ e = E.poolLow then some ([524288, 487424, 32768, 4096].getD (el % 4) 0)
  else if e = E.ffSensor then some ([0, 16, 17, 32, 33, 48, 49, 1].getD el 0)
  else if e = E.counterSelect then some (pack [(32, 0), (16, 0xFFFF), (80, 0)])
  else if e = E.sampler then some (pack [(4, 0), (24, 1024), (16, 0), (16, 0xFFFF), (68, 0)])
  else if e = E.snapMask then some 0x1017F7F7F7F7F7F7F7F7F7F1F1F1F1F1F1F1F1F
  else if e = E.shaper then
    some (pack [(57, 0), (24, 65536), (24, 65536), (8, if el % 9 = 8 then 64 else 16), (15, 0)])
  else if e = E.policer then some 16384
  else if e = E.tpoConfig then some (pack [(96 - 32, 0), (32, 1000000000), (32, 100), (32, 0)])
  else if e = E.monLow then some ([1550, 880, 230, 100, 65086].getD el 0)
  else none

/-- The default of an element (R471). -/
def dfltOf (e el : Nat) : Nat :=
  match dfltSpecial e el with
  | some v => v
  | none => match entryRow e with
    | some r => r.dflt
    | none => 0

/-- The value of a dictionary element. -/
def rdIn (regs : Tab Nat) (e el : Nat) : Nat :=
  match regs.get? (elKey e el) with
  | some v => v
  | none => dfltOf e el

/-- A dictionary element set; a value equal to the default leaves nothing listed. -/
def wrIn (regs : Tab Nat) (e el v : Nat) : Tab Nat :=
  if v = dfltOf e el then regs.del (elKey e el) else regs.set (elKey e el) v

/-- The value of element `el` of entry `e`. -/
def State.rd (s : State) (e el : Nat) : Nat := rdIn s.regs e el

/-- Element `el` of entry `e` set to `v`. -/
def State.wr (s : State) (e el v : Nat) : State := { s with regs := wrIn s.regs e el v }

/-- The active keeper, 0 for K0 and 1 for K1: KEEPER_ACTIVE (spec/15 R430). -/
def State.keeper (s : State) : Nat := s.rd E.keeperActive 0 % 2

/-- A signed element of a width. -/
def State.rdInt (s : State) (w e el : Nat) : Int := signed w (s.rd e el)

/-- A 64-bit counter raised; it wraps. -/
def State.bump (s : State) (e el n : Nat) : State := s.wr e el ((s.rd e el + n) % 2 ^ 64)

/-- A 32-bit counter raised; it wraps. -/
def State.bump32 (s : State) (e el n : Nat) : State := s.wr e el ((s.rd e el + n) % 2 ^ 32)

/-- A high-water mark raised to a value. -/
def State.raiseTo (s : State) (e el v : Nat) : State := if s.rd e el < v then s.wr e el v else s

/-! ### The beginning of a command, outputs, free values -/

/-- Every meaning begins here: the fabric time is the command's, and nothing has been emitted yet. -/
def State.begin (s : State) (t : Time) : State := { s with now := t, out := [] }

/-- An output added. -/
def State.emit (s : State) (o : Output) : State := { s with out := s.out ++ [o] }

/-- The next free value, and the state with it taken. -/
def State.free (s : State) : Nat × State := (Config.freeValue s.fresh, { s with fresh := s.fresh + 1 })

/-! ### Notices (R491-R495) -/

/-- A context item (R495 Table 14): a value of a width, or a fabric time. -/
inductive Item where
  | v (width value : Nat)
  | tm (t : Time)

/-- The width of a context item. -/
def Item.width : Item → Nat
  | .v w _ => w
  | .tm _ => 32

/-- The bits of a context item in a record of TIME `now`. -/
def Item.value (now : Time) : Item → Nat
  | .v w x => x % 2 ^ w
  | .tm t => usDiff t now

/-- Context items packed from bit 127 downward; the first that does not fit ends the packing and sets TRUNC. -/
def packItems (now : Time) : List Item → Nat → Nat → Nat × Bool
  | [], left, acc => (acc * 2 ^ left, false)
  | i :: r, left, acc =>
    if i.width ≤ left then packItems now r (left - i.width) (acc * 2 ^ i.width + i.value now)
    else (acc * 2 ^ left, true)

/-- The row of Table 3 that owns a notice code's high byte (R474). -/
def noticeRow (code : Nat) : Nat :=
  let h := code / 256
  if h < 0x20 then 0 else if h < 0x30 then 1 else if h < 0x34 then 2 else if h < 0x40 then 3
  else if h < 0x50 then 4 else if h < 0x60 then 5 else if h < 0x64 then 6 else if h < 0x70 then 7
  else if h < 0x74 then 8 else if h < 0x78 then 9 else if h < 0x7C then 10 else if h < 0x80 then 11
  else if h < 0x88 then 12 else if h < 0x8C then 13 else if h < 0x90 then 14 else if h < 0xA0 then 15
  else if h < 0xB0 then 16 else 17

/-- A notice record but for its SEQ (R491 Table 12). -/
def noticeRecord (code sev src supp : Nat) (now : Time) (ctx : List Item) : Nat :=
  let (c, trunc) := packItems now ctx 128 0
  pack [(16, code), (2, sev), (5, src), (1, b2n trunc), (8, min supp 255), (78, timeLayout now), (16, 0), (2, 0), (128, c)]

/-- A record with a queue's SEQ put into [145:130]. -/
def withSeq (rec seq : Nat) : BitVec 256 := BitVec.ofNat 256 (rec + (seq % 65536) * 2 ^ 130)

/-- A record placed at the end of a queue. -/
def NQueue.push (q : NQueue) (now : Time) (rec : Nat) : NQueue :=
  { q with records := q.records ++ [⟨now, withSeq rec q.seq⟩], seq := (q.seq + 1) % 65536 }

/-- The number of records a notice queue holds (R492). -/
def nqCapacity : Nat := 4096

/-- A notice queue. -/
def State.nq (s : State) (q : Nat) : NQueue := s.mgmt.queues.getD q {}

/-- A notice queue set. -/
def State.setNq (s : State) (q : Nat) (v : NQueue) : State :=
  { s with mgmt := { s.mgmt with queues := s.mgmt.queues.set q v } }

/-- A record offered to one queue: taken, or discarded and counted when the queue is full (R492, R494). -/
def State.offer (s : State) (q code sev rec : Nat) : State :=
  let cfg := s.rd E.nqConfig q
  if bit cfg 255 ∧ bits cfg 251 250 ≤ sev ∧ bit (bits cfg 247 230) (noticeRow code) then
    let nq := s.nq q
    if nqCapacity ≤ nq.records.length then
      (s.bump E.nqLost q 1).setNq q
        { nq with loss := match nq.loss with
          | none => some (1, s.now)
          | some (n, t) => some (n + 1, t) }
    else s.setNq q (nq.push s.now rec)
  else s

/-- When space has returned, NOTICES_LOST is the first record placed (R494). -/
def State.reportLoss (s : State) (q : Nat) : State :=
  let nq := s.nq q
  match nq.loss with
  | some (n, t) =>
    if nq.records.length < nqCapacity then
      let r := noticeRecord 0xF001 1 31 0 s.now [.v 16 q, .v 32 n, .tm t]
      let s := (s.setNq q { (nq.push s.now r) with loss := none }).bump E.noticesRaised 0 1
      { s.raiseTo E.severityHighest 0 1 with mgmt := { s.mgmt with smbSev := max s.mgmt.smbSev 1 } }
    else s
  | none => s

/-- Occurrences withheld for a code and source since its last record (R491). -/
def withheldOf (l : List (Nat × Nat × Nat)) (code src : Nat) : Nat :=
  match l with
  | [] => 0
  | (c, d, n) :: r => if c = code ∧ d = src then n else withheldOf r code src

/-- The withheld counts with one set (0 removes it). -/
def setWithheld (l : List (Nat × Nat × Nat)) (code src n : Nat) : List (Nat × Nat × Nat) :=
  let r := l.filter (fun x => !(x.1 == code && x.2.1 == src))
  if n = 0 then r else r ++ [(code, src, n)]

/-- The keeper's cores leave their idle clock when there is work (R531). -/
def State.keeperWork (s : State) : State :=
  let k := 18 + s.keeper
  if s.rd E.domainState k = 2 then s.wr E.domainState k 1 else s

/-- A notice formed and copied into each queue that takes it (R491, R492). -/
def State.form (s : State) (code sev src : Nat) (ctx : List Item) : State :=
  let supp := withheldOf s.mgmt.withheld code src
  let r := noticeRecord code sev src supp s.now ctx
  let s := { s with mgmt := { s.mgmt with withheld := setWithheld s.mgmt.withheld code src 0 } }
  let s := (s.bump E.noticesRaised 0 1).raiseTo E.severityHighest 0 sev
  let s := { s with mgmt := { s.mgmt with
    smbSev := max s.mgmt.smbSev sev, smbAlert := s.mgmt.smbAlert || sev == 2 } }
  let s := if sev = 2 then s.emit (.msix 2) else s
  ((List.range 8).foldl (fun s q => s.offer q code sev r) s).keeperWork

/-- The last record of a code and key. -/
def lastOf (l : List Limit) (code key : Nat) : Option Time :=
  match l with
  | [] => none
  | x :: r => if x.code = code ∧ x.key = key then some x.last else lastOf r code key

/-- Whether a notice limited to one record per interval for a key is withheld now: the state with the occurrence withheld
and counted, or with this record's time as the last (R491). -/
def State.limited (s : State) (interval key code src : Nat) : Bool × State :=
  let within : Bool := match lastOf s.mgmt.limits code key with
    | some t => decide (s.now < t + interval)
    | none => false
  if within then
    (true, { s with mgmt := { s.mgmt with
      withheld := setWithheld s.mgmt.withheld code src (withheldOf s.mgmt.withheld code src + 1) } })
  else
    (false, { s with mgmt := { s.mgmt with
      limits := s.mgmt.limits.filter (fun (x : Limit) => !(x.code == code && x.key == key)) ++ [(Limit.mk code key s.now)] } })

/-! ### Performance counters (R507-R511) -/

/-- A counter of a block raised; a wrap sets OVF and raises COUNTER_OVERFLOW (R508), which no counter of NOTICES counts (log 150).
Those of an excluded die stay (R520). -/
def State.addCounter (s : State) (b k n : Nat) : State :=
  let v := s.rd E.counterValue (6 * b + k)
  let sum := v % 2 ^ 48 + n
  if s.rd E.dieState (b / 8) = 1 then s
  else if sum < 2 ^ 48 then s.wr E.counterValue (6 * b + k) (v + n)
  else
    let s := s.wr E.counterValue (6 * b + k) (2 ^ 63 + sum % 2 ^ 48)
    match s.limited (65536 * 1000000000) b 0xA001 (b / 8) with
    | (true, s) => s
    | (false, s) => s.form 0xA001 0 (b / 8) [.v 16 b, .v 8 k]

/-- Fixed counter 5 of a block counts (R507 Table 1). -/
def State.countFixed (s : State) (b n : Nat) : State := s.addCounter b 5 n

/-- An occurrence of a C event at a block: each programmable counter that selects it in COUNT mode adds `n` (R509-R511). -/
def State.countEvent (s : State) (b event arg job n : Nat) : State :=
  (List.range 4).foldl (fun s k =>
    let sel := s.rd E.counterSelect (4 * b + k)
    if bits sel 127 120 = event ∧ bits sel 119 118 = 1 ∧ (bits sel 111 96 = 0 ∨ bits sel 111 96 = job)
      ∧ (bits sel 95 80 = 0xFFFF ∨ bits sel 95 80 = arg) then s.addCounter b k n else s) s

/-- A notice raised: formed, and counted at the active keeper by event NOTICES (R491, R510). -/
def State.raise (s : State) (code sev src : Nat) (ctx : List Item) : State :=
  (s.form code sev src ctx).countEvent (8 * (18 + s.keeper)) 0xA1 sev 0 1

/-- A notice limited to one record per interval for a key; an occurrence inside the interval is withheld and counted
(R491). -/
def State.raiseLim (s : State) (interval key code sev src : Nat) (ctx : List Item) : State :=
  match s.limited interval key code src with
  | (true, s) => s
  | (false, s) => s.raise code sev src ctx

/-! ### Ports and dies (spec/00 R5, R6) -/

/-- The switch die, also the engine, of a port. -/
def dieOf (port : Nat) : Nat := port / 128

/-- The fiber of a port. -/
def fiberOf (port : Nat) : Nat := port / 4

/-- The port exists under its fiber's mode (R6, R327): mode 0 four units, 1 two, 2 one, as spec/12 R327 numbers them. -/
def State.portExists (s : State) (p : Nat) : Bool :=
  p < 1024 && match s.rd E.fiberMode (fiberOf p) with
    | 0 => true
    | 1 => p % 2 == 0
    | _ => p % 4 == 0

/-- The port's state is UP. -/
def State.isUp (s : State) (p : Nat) : Bool := s.portExists p && s.rd E.portState p == 2

/-- The device's own GEI (R503). -/
def State.gei (s : State) : Nat := s.rd E.deviceGei 0

end Sys2Proof.Machine
end

