-- ==== Sys2Proof/Machine/CollBase.lean ====
section
/-!
DEFINITION. What a registration fixes (spec/03 R71-R77, R89-R91), where chunks are placed (spec/04 R114-R118, R122,
spec/08 R221, R223), and witnesses (spec/05 R147-R149).
-/
namespace Sys2Proof.Machine

/-! ### Members and ranks (R71) -/

/-- The number of members. -/
def Reg.m (r : Reg) : Nat := r.ranges.foldl (fun a (x : Nat × Nat × Nat) => a + (x.2.1 + 1 - x.1)) 0

/-- The rank of a GEI over ranges in ascending order. -/
def rankIn : List (Nat × Nat × Nat) → Nat → Nat → Option Nat
  | [], _, _ => none
  | (a, b, _) :: r, base, g => if a ≤ g ∧ g ≤ b then some (base + (g - a)) else rankIn r (base + (b + 1 - a)) g

/-- The rank of a member. -/
def Reg.rankOf (r : Reg) (g : Nat) : Option Nat := rankIn r.ranges 0 g

/-- The GEI and the LOCAL field of a rank over ranges in ascending order. -/
def memberIn : List (Nat × Nat × Nat) → Nat → Option (Nat × Nat)
  | [], _ => none
  | (a, b, l) :: r, k => if k < b + 1 - a then some (a + k, l) else memberIn r (k - (b + 1 - a))

/-- The GEI of a rank. -/
def Reg.geiOf (r : Reg) (k : Nat) : Nat := match memberIn r.ranges k with
  | some x => x.1
  | none => 0

/-- The home device local to a rank (R101). -/
def Reg.localOf (r : Reg) (k : Nat) : Nat := match memberIn r.ranges k with
  | some x => r.hset.getD x.2 0
  | none => 0

/-- The descriptor. -/
def Reg.ar (r : Reg) : Arith := arithOf r.arith

/-- The type copies each chunk (R72). -/
def Reg.isCopy (r : Reg) : Bool := r.type == 3 || r.type == 4 || r.type == 5

/-- The type is BARRIER. -/
def Reg.isBarrier (r : Reg) : Bool := r.type == 6

/-- Automatic window mode (R35, R38). -/
def Reg.auto (r : Reg) : Bool := r.ar.mode == 1 && !r.ar.zeroAnchor && !r.isCopy && !r.isBarrier

/-- The anchor of every instance is 0 (R35, Table 6). -/
def Reg.zeroAnchor (r : Reg) : Bool := r.ar.zeroAnchor || r.isCopy || r.isBarrier

/-- The descriptor of a phase: a count chunk is an INT32 sum (R90). -/
def Reg.phaseAr (r : Reg) (phase : Nat) : Arith :=
  let c : Arith := ⟨0x10, 0x10, 0, 0, false, true, 0, 0, 0x3F800000, 0, 0xFF7FFFFF, 0x7F7FFFFF, 256⟩
  if phase = 1 then c else r.ar

/-! ### Homes (R76) -/

/-- home_score of R76. -/
def homeScore (op phase chunk dev : Nat) : Nat :=
  mix64 (mix64 (op * 2 ^ 32 + chunk) ^^^ mix64 ((phase * 2 ^ 24 + dev) ^^^ 0x6B439E2100000000))

/-- The GEI that stands for no device. -/
def noGei : Nat := 0xFFFFFF

/-- One device considered by homes(): h1 with its score, h2 with its score. -/
def homesStep (op phase chunk : Nat) (a : Option (Nat × Nat) × Option (Nat × Nat)) (d : Nat) :
    Option (Nat × Nat) × Option (Nat × Nat) :=
  let s := homeScore op phase chunk d
  let wins := fun (o : Option (Nat × Nat)) => match o with
    | none => true
    | some (g, t) => decide (t < s) || (s == t && decide (d < g))
  if wins a.1 then (some (d, s), a.1) else if wins a.2 then (a.1, some (d, s)) else a

/-- homes of R76, with 0xFFFFFF for NONE. -/
def homes (op phase chunk : Nat) (hset : List Nat) : Nat × Nat :=
  let r := hset.foldl (homesStep op phase chunk) (none, none)
  let g := fun (o : Option (Nat × Nat)) => match o with
    | some x => x.1
    | none => noGei
  (g r.1, g r.2)

/-! ### Contexts, instances, chunks found and set -/

/-- The key of a chunk within an instance. -/
def ckey (phase chunk : Nat) : Nat := phase * 2 ^ 32 + chunk

/-- The context that holds an operation. -/
def State.ctxOf (s : State) (op : Nat) : Option Nat :=
  (s.coll.ctxs.find? (fun (x : Nat × Ctx) => x.2.reg.op == op && x.2.admitted)).map (·.1)

/-- A context set. -/
def State.setCtx (s : State) (c : Nat) (v : Ctx) : State :=
  { s with coll := { s.coll with ctxs := s.coll.ctxs.set c v } }

/-- A context changed by a function, where one is held. -/
def State.modCtx (s : State) (c : Nat) (f : Ctx → Ctx) : State :=
  { s with coll := { s.coll with ctxs := s.coll.ctxs.modify c f } }

/-- The home set at a version (R70, R76). -/
def Ctx.hsetAt (c : Ctx) (ver : Nat) : List Nat :=
  let gone := (c.excluded.take ver).map (·.1)
  c.reg.hset.filter (fun g => !gone.contains g)

/-- The home set at the current version. -/
def Ctx.hset (c : Ctx) : List Nat := c.hsetAt c.ver

/-- The version an instance uses (R70): the last exclusion whose first instance has come. -/
def verFrom : List (Nat × Nat × Nat) → Nat → Nat → Nat
  | [], _, v => v
  | (_, ver, f) :: r, i, v => if (i + 256 - f) % 256 < 128 then verFrom r i ver else verFrom r i v

/-- The version an instance uses; the exclusions that are settled came before every instance that is not over. -/
def Ctx.verOf (c : Ctx) (i : Nat) : Nat :=
  verFrom (c.excluded.drop c.settled) i (match (c.excluded.take c.settled).getLast? with
    | some e => e.2.1
    | none => 0)

/-- The instance of a number among those kept. -/
def findInst : List Inst → Nat → Option Inst
  | [], _ => none
  | x :: r, n => if x.num = n then some x else findInst r n

/-- The list with an instance replaced, or added. -/
def putInst (l : List Inst) (i : Inst) : List Inst :=
  if (findInst l i.num).isSome then l.map (fun (x : Inst) => if x.num = i.num then i else x) else l ++ [i]

/-- The chunk of a phase and index. -/
def findChunk : List Chunk → Nat → Nat → Option Chunk
  | [], _, _ => none
  | x :: r, p, c => if x.phase = p ∧ x.chunk = c then some x else findChunk r p c

/-- The list with a chunk replaced, or added. -/
def putChunk (l : List Chunk) (c : Chunk) : List Chunk :=
  if (findChunk l c.phase c.chunk).isSome then
    l.map (fun (x : Chunk) => if x.phase = c.phase ∧ x.chunk = c.chunk then c else x)
  else l ++ [c]

/-- The list without a chunk. -/
def dropChunk (l : List Chunk) (p c : Nat) : List Chunk := l.filter (fun (x : Chunk) => !(x.phase == p && x.chunk == c))

/-- An instance of a context. -/
def State.inst? (s : State) (c n : Nat) : Option Inst := (s.coll.ctxs.get? c).bind (fun x => findInst x.insts n)

/-- An instance set. -/
def State.setInst (s : State) (c : Nat) (i : Inst) : State :=
  s.modCtx c (fun (x : Ctx) => { x with insts := putInst x.insts i })

/-- An instance changed by a function. -/
def State.modInst (s : State) (c n : Nat) (f : Inst → Inst) : State :=
  s.modCtx c (fun (x : Ctx) => { x with insts := x.insts.map (fun (i : Inst) => if i.num = n then f i else i) })

/-- A chunk of an instance. -/
def State.chunk? (s : State) (c n p k : Nat) : Option Chunk := (s.inst? c n).bind (fun i => findChunk i.chunks p k)

/-- A chunk set. -/
def State.setChunk (s : State) (c n : Nat) (k : Chunk) : State :=
  s.modInst c n (fun (i : Inst) => { i with chunks := putChunk i.chunks k })

/-! ### The count phase and the chunks of an instance (R89-R92) -/

/-- Positions of the count vector. -/
def Reg.positions (r : Reg) : Nat := if r.type = 5 then r.m * r.m else r.m

/-- Chunks of the count vector. -/
def Reg.countChunks (r : Reg) : Nat := ceilDiv r.positions 1024

/-- The count result, once the home holds every count chunk. -/
def Inst.vector (i : Inst) (r : Reg) : Option (List Int) :=
  if (List.range r.countChunks).all (fun k => (i.vectors.get? k).isSome) then
    some ((List.range r.countChunks).flatMap (fun k => i.vectors.getD k []))
  else none

/-- Chunks of a segment of `n` elements. -/
def segChunks (n : Int) : Nat := ceilDiv n.toNat 1024

/-- Chunks the layout needs (R91). -/
def layoutChunks (v : List Int) : Nat := v.foldl (fun a n => a + segChunks n) 0

/-- The position of the count vector that chunk `c` of the layout belongs to, and its elements (R91). -/
def layoutAt : List Int → Nat → Nat → Option (Nat × Nat)
  | [], _, _ => none
  | n :: r, pos, c =>
    let k := segChunks n
    if c < k then some (pos, min 1024 (n.toNat - 1024 * c)) else layoutAt r (pos + 1) (c - k)

/-- Chunks of a phase of an instance; none before a -v instance's count result (R72, R91). -/
def Inst.chunkCount (i : Inst) (r : Reg) (phase : Nat) : Option Nat :=
  if phase = 1 then some r.countChunks
  else if r.v then (i.vector r).map layoutChunks else some r.chunks

/-- E(c) as its first rank and number of ranks (R72 Table 4, R90, R91). -/
def Inst.expected (i : Inst) (r : Reg) (phase c : Nat) : Nat × Nat :=
  let m := r.m
  if phase = 1 then
    let lo := 1024 * c
    let hi := min (1024 * c + 1023) (r.positions - 1)
    if r.type = 5 then (lo / m, hi / m + 1 - lo / m) else (lo, hi + 1 - lo)
  else if r.v ∧ r.isCopy then
    match (i.vector r).bind (fun v => layoutAt v 0 c) with
    | some x => (if r.type = 5 then x.1 / m else x.1, 1)
    | none => (0, 0)
  else match r.type with
    | 3 => (c * m / r.chunks, 1)
    | 4 => ((r.rankOf r.root).getD 0, 1)
    | 5 => (c / (r.chunks / (m * m)) / m, 1)
    | _ => (0, m)

/-- The receivers of a chunk's result as first rank and number of ranks (R72 Table 4, R90). -/
def Inst.receivers (i : Inst) (r : Reg) (phase c : Nat) : Nat × Nat :=
  let m := r.m
  if phase = 1 then (0, m)
  else
    let at' := if r.v then (i.vector r).bind (fun v => layoutAt v 0 c) else none
    match r.type with
    | 0 => (0, m)
    | 1 => match at' with
      | some x => (x.1, 1)
      | none => (c * m / r.chunks, 1)
    | 2 => match r.rankOf r.root with
      | some k => (k, 1)
      | none => (0, 0)
    | 3 => (0, m)
    | 4 => (0, m)
    | 5 => match at' with
      | some x => (x.1 % m, 1)
      | none => (c / (r.chunks / (m * m)) % m, 1)
    | _ => (0, 0)

/-- The element count a chunk must have, where it is set (Table 6 ELEM_COUNT). -/
def Inst.elements (i : Inst) (r : Reg) (phase c : Nat) : Option Nat :=
  if r.isBarrier then some 0
  else if phase = 1 then some (min 1024 (r.positions - 1024 * c))
  else if r.v then ((i.vector r).bind (fun v => layoutAt v 0 c)).map (·.2)
  else i.counts.get? (ckey phase c)

/-- The chunks an instance has here as h1: the keys of its count and data phases homed at `me`. -/
def Inst.homedKeys (i : Inst) (r : Reg) (hset : List Nat) (me : Nat) : List Nat :=
  let of := fun (phase n : Nat) =>
    ((List.range n).filter (fun c => (homes r.op phase c hset).1 == me)).map (ckey phase)
  of 0 ((i.chunkCount r 0).getD 0) ++ (if r.v then of 1 r.countChunks else [])

/-! ### Cover maps (R83, R84, R120) -/

/-- The answer of cover_test. -/
inductive CoverTest where
  | accept
  | later
  | duplicate
  | overlap
  deriving DecidableEq

/-- A cover entry and a range share a rank. -/
def Cover.meets (x : Cover) (f n : Nat) : Bool := decide (x.first < f + n) && decide (f < x.first + x.count)

/-- cover_test of R120 over the accepted ranges, which never overlap; a frame not yet held of an accepted contribution
belongs to it (R83). -/
def coverTest (l : List Cover) (f n frame : Nat) : CoverTest :=
  match l.find? (fun (x : Cover) => x.first == f && x.count == n) with
  | some x => if bit x.frames frame then .duplicate else .later
  | none => if l.any (fun (x : Cover) => x.meets f n) then .overlap else .accept

/-- A rank is covered: every frame of the contribution that covers it has been accepted (R83). -/
def covered (l : List Cover) (k : Nat) : Bool :=
  l.any (fun (x : Cover) => decide (x.first ≤ k) && decide (k < x.first + x.count) && x.frames == 2 ^ x.want - 1)

/-- The contribution count is complete: the accepted contributions cover every rank of E(c) (R84). -/
def coverFull (l : List Cover) (e : Nat × Nat) : Bool :=
  l.all (fun (x : Cover) => x.frames == 2 ^ x.want - 1) && l.foldl (fun a (x : Cover) => a + x.count) 0 == e.2

/-! ### Placement (R114-R118) -/

/-- qscore of R114. -/
def qscore (op phase chunk q : Nat) : Nat :=
  mix64 (mix64 (op * 2 ^ 32 + chunk) ^^^ mix64 ((phase * 2 ^ 8 + q) ^^^ 0x3C6EF37200000000))

/-- A stack is in service. -/
def State.stackUp (s : State) (h : Nat) : Bool := s.rd E.stackState h == 0

/-- A quire die takes chunks: it is not excluded and one of its stacks is in service (R114, R225). -/
def State.quireUp (s : State) (q : Nat) : Bool := s.rd E.dieState (8 + q) == 0 && (s.stackUp (2 * q) || s.stackUp (2 * q + 1))

/-- The quire dies in service, ascending. -/
def State.quires (s : State) : List Nat := (List.range 10).filter (fun q => s.quireUp q)

/-- The better of two dies for a chunk. -/
def qbest (op phase chunk : Nat) (a : Option Nat) (q : Nat) : Option Nat :=
  match a with
  | none => some q
  | some b => if qscore op phase chunk b < qscore op phase chunk q then some q else some b

/-- q_a and q_b of a chunk (R114). -/
def State.candidates (s : State) (op phase chunk : Nat) : Option Nat × Option Nat :=
  let qa := s.quires.foldl (qbest op phase chunk) none
  let qb := (s.quires.filter (fun q => qa != some q)).foldl (qbest op phase chunk) none
  (qa, qb)

/-- The SRAM slots in use at a die, ascending. -/
def State.slotsUsed (s : State) (q : Nat) : List Nat := s.coll.slots.getD q []

/-- Free SRAM slots of a die (R116). -/
def State.sramFree (s : State) (q : Nat) : Nat := if s.quireUp q then 16384 - (s.slotsUsed q).length else 0

/-- The first free slot searching upward from a bank group (R117). -/
def State.findSlot (s : State) (q group : Nat) : Option Nat :=
  let u := s.slotsUsed q
  match lacking 16384 (512 * (group % 32)) 1 (u.filter (fun k => decide (512 * (group % 32) ≤ k))) with
  | k :: _ => if k < 16384 then some k else (lacking 16384 0 1 u).head?
  | [] => (lacking 16384 0 1 u).head?

/-- An SRAM slot freed. -/
def State.freeSlot (s : State) (q k : Nat) : State :=
  { s with coll := { s.coll with slots := s.coll.slots.set q ((s.slotsUsed q).erase k) } }

/-! ### Spill space (R122, R221, R223) -/

/-- One GiB. -/
def gib : Nat := 2 ^ 30

/-- A partition's share of a stack (R221). -/
def share (g h : Nat) : Nat := (g / 20 + (if h < g % 20 then 1 else 0)) * gib

/-- A stack's share of the spill partition; an excluded stack's share is lost. -/
def State.spillShare (s : State) (h : Nat) : Nat := if s.stackUp h then share (s.rd E.spillGib 0) h else 0

/-- Free spill bytes of a stack. -/
def State.spillFreeOf (s : State) (h : Nat) : Nat := s.spillShare h - s.coll.stackUsed.getD h 0

/-- Size and free bytes of the spill partition. -/
def State.spillBytes (s : State) : Nat := (List.range 20).foldl (fun a h => a + s.spillShare h) 0
def State.spillFree (s : State) : Nat := (List.range 20).foldl (fun a h => a + s.spillFreeOf h) 0

/-- Bytes a stack slot takes. -/
def slotBytes : Nat := 16384

/-- Spill bytes that a context's reserved chunks have drawn from its footprint (R122). -/
def Ctx.drawn (c : Ctx) : Nat := c.insts.foldl (fun a (i : Inst) => i.chunks.foldl (fun b (k : Chunk) =>
  if k.reserved then b + k.inStacks.length * slotBytes + k.book else b) a) 0

/-- SPILL_HEADROOM: bytes held for reserved footprints (R122). -/
def State.headroom (s : State) : Nat := s.coll.ctxs.foldl (fun a (x : Nat × Ctx) => a + x.2.footprint) 0

/-- Spill bytes held back for reserved chunks that have not drawn them yet. -/
def State.heldBack (s : State) : Nat :=
  s.coll.ctxs.foldl (fun a (x : Nat × Ctx) => a + (x.2.footprint - x.2.drawn)) 0

/-- Spill space for `n` bytes: a reserved chunk draws on its context's footprint, any other use on what lies beyond the
headroom (R122). -/
def State.roomFor (s : State) (c : Nat) (reserved : Bool) (n : Nat) : Bool :=
  let own := reserved && match s.coll.ctxs.get? c with
    | some x => decide (x.drawn + n ≤ x.footprint)
    | none => false
  if own then decide (n ≤ s.spillFree) else decide (n + s.heldBack ≤ s.spillFree)

/-- The SPILL_FREE item of a notice: a size has 32 bits (R495 Table 14); a free value where the bytes do not fit (log 20). -/
def State.freeItem (s : State) : Item := .v 32 (if s.spillFree < 2 ^ 32 then s.spillFree else s.free.1)

/-- The state after SPILL_FREE has been told: a free value is taken where the bytes did not fit. -/
def State.freeTold (s : State) : State := if s.spillFree < 2 ^ 32 then s else s.free.2

/-- The operation of a context; 0 where the context is free. -/
def State.opAt (s : State) (c : Nat) : Nat :=
  match s.coll.ctxs.get? c with
  | some x => x.reg.op
  | none => 0

/-- Spill bytes of a stack taken for an operation and instance (R138: the notice's context holds both). -/
def State.useSpill (s : State) (who : Nat × Nat) (h n : Nat) : State :=
  let s := { s with coll := { s.coll with stackUsed := s.coll.stackUsed.set h (s.coll.stackUsed.getD h 0 + n) } }
  if s.spillFree ≤ s.headroom ∧ 0 < n then s.freeTold.raiseLim ms 0 0x7402 1 31 [.v 32 who.1, .v 8 who.2, s.freeItem] else s

/-- SRAM slots of a die marked in use. -/
def State.takeSlot (s : State) (q k : Nat) : State :=
  let s := { s with coll := { s.coll with slots := s.coll.slots.set q (insertNat k (s.slotsUsed q)) } }
  if s.sramFree q = 0 then s.freeTold.raiseLim ms q 0x7401 1 (8 + q) [.v 16 q, s.freeItem] else s

/-! ### Blocks of a stack (R226, R231, R233) -/

/-- The poison list of a stack, ascending. -/
def State.poisoned (s : State) (h : Nat) : List Nat := s.graphs.poison.getD h []

/-- The poison list of a stack set, with POISON_ENTRIES. -/
def State.setPoison (s : State) (h : Nat) (l : List Nat) : State :=
  ({ s with graphs := { s.graphs with poison := if l.isEmpty then s.graphs.poison.del h else s.graphs.poison.set h l } }).wr
    E.poisonEntries h l.length

/-- Blocks `b` to `b + n - 1`. -/
def inBlocks (b n k : Nat) : Bool := decide (b ≤ k) && decide (k < b + n)

/-- The upsets of a stack set. -/
def State.setUpsets (s : State) (h : Nat) (l : Tab (BitVec 544)) : State :=
  { s with graphs := { s.graphs with upsets := if l.isEmpty then s.graphs.upsets.del h else s.graphs.upsets.set h l } }

/-- The blocks of a stack outside the chunks' slots set. -/
def State.setCells (s : State) (h : Nat) (l : Tab (BitVec 512)) : State :=
  { s with graphs := { s.graphs with cells := if l.isEmpty then s.graphs.cells.del h else s.graphs.cells.set h l } }

/-- Blocks written with new check bytes: their poison entries and upsets end, and what they held is gone (R227, R231, R233). -/
def State.freshBlocks (s : State) (h b n : Nat) : State :=
  let s := s.setPoison h ((s.poisoned h).filter (fun k => !inBlocks b n k))
  let s := s.setUpsets h ((s.graphs.upsets.getD h []).filter (fun (x : Nat × BitVec 544) => !inBlocks b n x.1))
  s.setCells h ((s.graphs.cells.getD h []).filter (fun (x : Nat × BitVec 512) => !inBlocks b n x.1))

/-- Blocks of a chunk slot (R226). -/
def slotBlocks : Nat := 256

/-- The slots of a stack that chunks hold, by the number of the slot, ascending. -/
def State.stackSlots (s : State) (h : Nat) : List Nat :=
  s.coll.ctxs.foldl (fun l (x : Nat × Ctx) => x.2.insts.foldl (fun l (i : Inst) => i.chunks.foldl (fun l (k : Chunk) =>
    (k.inStacks.zip k.bases).foldl (fun l (y : Nat × Nat) => if y.1 = h then insertNat (y.2 / slotBlocks) l else l) l) l) l) []

/-- `n` slots of a stack taken and filled (R118, R226, R233): the lowest free ones (log 195), by their first blocks. -/
def State.takeStack (s : State) (who : Nat × Nat) (h n : Nat) : List Nat × State :=
  let used := s.stackSlots h
  let bs := (lacking (used.length + n) 0 n used).map (fun k => k * slotBlocks)
  (bs, bs.foldl (fun (s : State) b => s.freshBlocks h b slotBlocks) (s.useSpill who h (n * slotBytes)))

/-- Spill bytes returned. -/
def State.returnSpill (s : State) (h n : Nat) : State :=
  { s with coll := { s.coll with stackUsed := s.coll.stackUsed.set h (s.coll.stackUsed.getD h 0 - n) } }

/-- Bytes of a chunk's bookkeeping area for `n` ranks (R119). -/
def bookBytes (n : Nat) : Nat := ceilDiv (64 + ceilDiv (2 * n) 8) 64 * 64

/-- The stack of a die that has more free spill space, equal space to the chunk's parity (R118). -/
def State.betterStack (s : State) (q chunk : Nat) : Nat :=
  let a := s.spillFreeOf (2 * q)
  let b := s.spillFreeOf (2 * q + 1)
  if !s.stackUp (2 * q + 1) then 2 * q
  else if !s.stackUp (2 * q) then 2 * q + 1
  else if b < a then 2 * q else if a < b then 2 * q + 1 else 2 * q + chunk % 2

/-- The stack that takes a chunk's bookkeeping (R223); none when no stack can. -/
def State.bookStack (s : State) (q chunk n : Nat) : Option Nat :=
  let a := 2 * q + chunk % 2
  let b := 2 * q + 1 - chunk % 2
  let order := [a, b] ++ (List.range 18).map (fun k => (2 * q + 2 + k) % 20)
  order.find? (fun h => s.stackUp h && decide (n ≤ s.spillFreeOf h))

/-- The stack of a context area (R223). -/
def State.areaStack (s : State) (ctx : Nat) : Nat :=
  let order := (List.range 20).map (fun k => (2 * (ctx % 10) + k) % 20)
  (order.find? (fun h => s.stackUp h)).getD (2 * (ctx % 10))

/-- The quire die that keeps a context's stall records (R132). -/
def State.areaDie (s : State) (ctx : Nat) : Nat := s.areaStack ctx / 2

/-! ### Witnesses (R147-R149) -/

/-- p = 2^61 − 1. -/
def pMod : Nat := 2 ^ 61 - 1

/-- wseed of R147. -/
def wseed (op phase chunk : Nat) : Nat :=
  mix64 (mix64 (op * 2 ^ 32 + chunk) ^^^ mix64 ((phase * 2 ^ 56) ^^^ 0x2D8F41A7C6930E5B))

/-- weight of R147. -/
def weight (seed i : Nat) : Nat :=
  let w := mix64 (seed ^^^ (i * 0xB7E151628AED2A6B % 2 ^ 64)) % 2 ^ 61
  if w = 0 ∨ w = pMod then 1 else w

/-- A list with its positions from `i` on. -/
def withIdx {α : Type} : List α → Nat → List (Nat × α)
  | [], _ => []
  | x :: r, i => (i, x) :: withIdx r (i + 1)

/-- The witness of integers at positions from `off` on (R147): the weighted sum modulo p. -/
def witnessInts (seed off : Nat) (l : List Int) : Nat :=
  ((withIdx l off).foldl (fun (a : Int) x => (a + (weight seed x.1 : Nat) * x.2) % (pMod : Nat)) 0).toNat

/-- Rotation left within 61 bits. -/
def rotl61 (x n : Nat) : Nat := ((x <<< n) ||| (x >>> (61 - n))) % 2 ^ 61

/-- key15 of R149. -/
def key15 (v : Int × Int) : Nat :=
  if v.1 = 0 then 0x4000
  else
    let m := v.1.natAbs
    let n := bitlen m
    let t := (n : Int) - 1 + v.2
    let f5 := if 6 ≤ n then m / 2 ^ (n - 6) % 32 else m * 2 ^ (6 - n) % 32
    let mag := (t + 150).toNat * 32 + f5
    if v.1 < 0 then 0x4000 - mag else 0x4000 + mag

/-- Lane k of a fold over the elements with i mod 4 = k; a lane no element reaches holds the fold's neutral value. -/
def lane {α : Type} (f : Nat → Nat → Nat) (z : Nat) (g : Nat → α → Nat) (l : List (Nat × α)) (k : Nat) : Nat :=
  (l.filter (fun (x : Nat × α) => x.1 % 4 == k)).foldl (fun a y => f a (g y.1 y.2)) z

/-- Four 15-bit lanes joined. -/
def lanes {α : Type} (f : Nat → Nat → Nat) (z : Nat) (g : Nat → α → Nat) (l : List (Nat × α)) : Nat :=
  pack [(15, lane f z g l 3), (15, lane f z g l 2), (15, lane f z g l 1), (15, lane f z g l 0)]

/-- Bits [14:0] of a raw element rotated right within its width (R149). -/
def rotBits (w i raw : Nat) : Nat :=
  let n := i / 4 % w
  (((raw >>> n) ||| (raw <<< (w - n))) % 2 ^ w) % 2 ^ 15

/-- The witness of what a slot or contribution holds, by operator (R147, R149 Table 1). -/
def witnessOf (opcode fmt op phase chunk off : Nat) (a : Acc) : Nat :=
  let seed := wseed op phase chunk
  match a with
  | .empty => 0
  | .ints l => witnessInts seed off l
  | .keys l => lanes (if opcode = 1 then Nat.max else Nat.min) (if opcode = 1 then 0 else 0x7FFF) (fun _ v => key15 (keyValue v))
      (withIdx l off)
  | .raws l =>
    if opcode = 3 then
      (withIdx l off).foldl (fun (a : Nat) x => a ^^^ rotl61 (x.2 % 2 ^ 61) (weight seed x.1 % 61)) 0
    else lanes (fun a b => if opcode = 4 then a ||| b else a &&& b) (if opcode = 4 then 0 else 0x7FFF) (fun i r => rotBits (elemBits fmt) i r) (withIdx l off)

/-- Two witnesses combined (R149 Table 1); the first combined with nothing is itself. -/
def combineWit (opcode : Nat) (empty : Bool) (a b : Nat) : Nat :=
  if empty then b
  else
    let f := fun (g : Nat → Nat → Nat) =>
      pack [(15, g (bits a 59 45) (bits b 59 45)), (15, g (bits a 44 30) (bits b 44 30)),
        (15, g (bits a 29 15) (bits b 29 15)), (15, g (bits a 14 0) (bits b 14 0))]
    match opcode with
    | 1 => f Nat.max
    | 2 => f Nat.min
    | 3 => a ^^^ b
    | 4 => a ||| b
    | 5 => a &&& b
    | _ => (a + b) % pMod

/-! ### The colophon key (R501) -/

/-- The colophon key of an epoch: HKDF of the device secret, salt "OVN-COLOPHON", info the epoch as four bytes. -/
def colophonKey (epoch : Nat) : Nat :=
  hkdf [0x4F, 0x56, 0x4E, 0x2D, 0x43, 0x4F, 0x4C, 0x4F, 0x50, 0x48, 0x4F, 0x4E] (toBytes 32 Config.deviceSecret) (toBytes 4 epoch)

/-! ### The registration's own peers -/

/-- The context and instance a received or sent collective control or chunk header names. -/
def State.instOf (s : State) (op n : Nat) : Option (Nat × Inst) :=
  match s.ctxOf op with
  | some c => (s.inst? c n).map (fun i => (c, i))
  | none => none

/-- A collective frame of this device has left a port.  After a RESULT, COMPLETE waits CHECK_GRACE from then on (R146);
an ABORT's departure is kept in ABORT_LAST and ABORT_SPAN_MAX (R442 Table 10). -/
def State.collFrameLeft (s : State) (body : List Byte) : State :=
  let kind := field body 0 1 % 16
  if kind = 2 then
    let h := field body 0 48
    match s.instOf (bits h 375 344) (bits h 343 336) with
    | some (c, i) => s.setInst c { i with lastLeft := s.now }
    | none => s
  else if kind = 8 then
    let h := field body 0 32
    let last := s.rd E.abortLast 0
    if bits last 255 224 = bits h 247 216 ∧ bits last 223 216 = bits h 215 208 then
      let s := s.wr E.abortLast 0 (last / 2 ^ 78 * 2 ^ 78 + timeLayout s.now)
      s.raiseTo E.abortSpanMax 0 (s.now - timeNear s.now (bits last 155 78))
    else s
  else s

end Sys2Proof.Machine
end

