-- ==== Sys2Proof/Machine/Flits.lean ====
section
/-!
DEFINITION. What crosses the engine attachment and the stitch mesh: the stripe header, the striping rounds and the reorder
buffer (spec/13 R363-R365), the stitch flit and its CRC-16, the channels of a bundle and the sources they carry (R373-R375).
-/
namespace Sys2Proof.Machine

/-! ### The stripe header (R363 Table 2) -/

/-- The four bytes of a stripe header. -/
def stripeHeader (seq fill : Nat) : List Byte := toBytes 4 (pack [(24, seq), (8, fill)])

/-- SEQ and FILL of a stripe header; none where FILL passes 230, which is handled as a CRC failure of the flit. -/
def stripeOf (b : List Byte) : Option (Nat × Nat) :=
  let h := field b 0 4
  if 230 < bits h 7 0 then none else some (bits h 31 8, bits h 7 0)

/-- FILL of each flit that carries `n` bytes: only the last holds fill (log 198). -/
def stripeFills (n : Nat) : List Nat := (List.range (ceilDiv n 230)).map (fun i => 230 * (i + 1) - n)

/-! ### Striping (R364, R365) -/

/-- Modules of an engine. -/
def engineModules (n : Nat) : List Nat := (List.range 32).map (fun k => 32 * n + k)

/-- The places of a round over an engine's ACTIVE modules, in ascending module index: place 2m and, at full width, 2m + 1 are
flits of module m (R364). -/
def State.roundPlaces (s : State) (n : Nat) : List Nat :=
  (engineModules n).flatMap (fun m =>
    if s.rd E.moduleState m = 2 then (if s.rd E.moduleWidth m = 64 then [2 * m, 2 * m + 1] else [2 * m]) else [])

/-- The place a round visits from a place on: after the last a new round begins. -/
def nextPlace (l : List Nat) (place : Nat) : Option Nat :=
  match l.find? (fun x => decide (place ≤ x)) with
  | some x => some x
  | none => l.head?

/-- The sender puts one flit, numbered with the next SEQ, on the module whose turn it is (R364). -/
def FlitLane.send (l : List Nat) (k : FlitLane) : FlitLane :=
  match nextPlace l k.place with
  | none => k
  | some x => { k with next := (k.next + 1) % 2 ^ 24, place := x + 1, owed := k.owed ++ [(k.next, x / 2)] }

/-- The receiver delivers the flits of its reorder buffer in SEQ order, as far as they follow each other (R364). -/
def FlitLane.deliver : Nat → FlitLane → FlitLane
  | 0, k => k
  | n + 1, k =>
    if k.held.contains k.want then FlitLane.deliver n { k with want := (k.want + 1) % 2 ^ 24, held := k.held.erase k.want } else k

/-- The receiver takes a flit that lies within the 4,096 flits of its reorder buffer and that it has neither delivered nor holds
(R364, R365). -/
def FlitLane.arrive (k : FlitLane) (seq : Nat) : FlitLane :=
  if (seq + 2 ^ 24 - k.want) % 2 ^ 24 < 4096 ∧ k.held.contains seq = false then
    FlitLane.deliver (k.held.length + 1) { k with held := insertNat seq k.held } else k

/-- The flits of a frame cross in rounds; those of the frame before have been acknowledged (log 198). -/
def FlitLane.carry (l : List Nat) (n : Nat) (k : FlitLane) : FlitLane :=
  let k := iter (FlitLane.send l) n { k with owed := [] }
  k.owed.foldl (fun (k : FlitLane) x => k.arrive x.1) k

/-- The flits not yet acknowledged of a module that has failed are sent again, with their SEQ, on the modules of the rounds
(R365). -/
def FlitLane.resend (l : List Nat) (m : Nat) (k : FlitLane) : FlitLane :=
  k.owed.foldl (fun (k : FlitLane) x =>
    if x.2 ≠ m then k
    else match nextPlace l k.place with
      | none => k
      | some y => ({ k with place := y + 1, owed := k.owed.map (fun z => if z = x then (x.1, y / 2) else z) }).arrive x.1) k

/-- The stripes of an engine toward its switch die (0) or from it (1). -/
def State.lane (s : State) (n dir : Nat) : FlitLane := s.links.lanes.getD (2 * n + dir) {}

/-- Stripes set. -/
def State.setLane (s : State) (n dir : Nat) (k : FlitLane) : State :=
  { s with links := { s.links with lanes := s.links.lanes.set (2 * n + dir) k } }

/-- Bytes of port traffic cross an engine's attachment; while none of its modules is ACTIVE nothing is numbered (log 198). -/
def State.attach (s : State) (n dir bytes : Nat) : State :=
  let l := s.roundPlaces n
  if l.isEmpty then s else s.setLane n dir ((s.lane n dir).carry l (ceilDiv bytes 230))

/-- Both directions of an engine resend what a failed module had not had acknowledged (R365). -/
def State.resendLane (s : State) (m : Nat) : State :=
  let n := m / 32
  let l := s.roundPlaces n
  [0, 1].foldl (fun (s : State) dir =>
    if (s.lane n dir).owed.any (fun x => x.2 == m) then s.setLane n dir ((s.lane n dir).resend l m) else s) s

/-! ### The stitch flit (R373 Table 6) -/

/-- One bit step of the CRC-16 of polynomial 0x8BB7. -/
def crc16Step (c : Nat) : Nat := if 32768 ≤ c then ((c <<< 1) % 65536) ^^^ 0x8BB7 else c <<< 1

/-- The CRC-16 of a stitch flit: initial value 0xFFFF, not reflected, no final exclusive-OR. -/
def crc16 (l : List Byte) : Nat := l.foldl (fun c b => iter crc16Step 8 (c ^^^ (b.toNat <<< 8))) 0xFFFF

/-- A stitch flit by its fields: TYPE 0 IDLE, 1 DATA, 2 CONTROL. -/
structure StitchFlit where
  type    : Nat
  seq     : Nat
  ack     : Nat
  nak     : Bool
  credit  : Nat
  payload : List Byte
  deriving DecidableEq, Repr

/-- A stitch flit as its 256 bytes, its payload filled up to 250. -/
def StitchFlit.bytes (f : StitchFlit) : List Byte :=
  let b := toBytes 4 (pack [(2, f.type), (10, f.seq), (10, f.ack), (1, b2n f.nak), (8, f.credit), (1, 0)])
    ++ (f.payload ++ List.replicate (250 - f.payload.length) 0)
  b ++ toBytes 2 (crc16 b)

/-- The flit that 256 bytes spell; none where it fails its CRC, has TYPE 3 or a nonzero reserved bit. -/
def stitchOf (b : List Byte) : Option StitchFlit :=
  let h := field b 0 4
  if b.length ≠ 256 ∨ crc16 (b.take 254) ≠ field b 254 2 ∨ bits h 31 30 = 3 ∨ bit h 0 = true then none
  else some ⟨bits h 31 30, bits h 29 20, bits h 19 10, bit h 9, bits h 8 1, slice b 4 250⟩

/-- The receiver's end of a channel takes a flit: a DATA flit in sequence is taken, and a flit that fails its CRC or a DATA
flit out of sequence is discarded and sets NAK in the next flit sent back (R374). -/
def Channel.take (c : Channel) (f : Option StitchFlit) : Channel × Bool :=
  match f with
  | none => (c, true)
  | some f =>
    if f.type ≠ 1 then (c, false)
    else if f.seq = c.want then ({ c with want := (c.want + 1) % 1024 }, false) else (c, true)

/-! ### Channels (spec/01 Table 2, R374, R375) -/

/-- Channels built from die code `a` to die code `b`. -/
def bundleSize (a b : Nat) : Nat :=
  if a = b ∨ 20 ≤ a ∨ 20 ≤ b then 0
  else if 18 ≤ a ∨ 18 ≤ b then 1
  else if a < 8 ∧ b < 8 then 8
  else if a < 8 ∨ b < 8 then 3
  else if (a - 8 + 1) % 10 = b - 8 ∨ (b - 8 + 1) % 10 = a - 8 then 4 else 0

/-- A stitch channel by die pair and number. -/
def State.channel (s : State) (pair ch : Nat) : Channel := s.links.channels.getD (8 * pair + ch) {}

/-- A stitch channel set. -/
def State.setChannel (s : State) (pair ch : Nat) (c : Channel) : State :=
  { s with links := { s.links with channels := s.links.channels.set (8 * pair + ch) c } }

/-- The channels of a pair in a state, in ascending order. -/
def State.bundleIn (s : State) (pair st : Nat) : List Nat :=
  (List.range (bundleSize (pair / 20) (pair % 20))).filter (fun c => (s.channel pair c).state == st)

/-- Their number. -/
def State.channelsIn (s : State) (pair st : Nat) : Nat := (s.bundleIn pair st).length

/-- Channels in service of a pair (PAIR_CHANNELS). -/
def State.pairChannels (s : State) (pair : Nat) : Nat := s.channelsIn pair 0

/-- The channel a source takes, by its port or unit number: number mod k over the k channels in service (R375); none while the
bundle has none. -/
def State.channelFor (s : State) (pair src : Nat) : Option Nat :=
  let l := s.bundleIn pair 0
  l[src % l.length]?

/-- The oldest `k` flits of those not yet acknowledged are acknowledged. -/
def acked : Nat → List (Nat × Nat) → List (Nat × Nat)
  | _, [] => []
  | k, (src, n) :: r => if n ≤ k then acked (k - n) r else (src, n - k) :: r

/-- Flits not yet acknowledged. -/
def owedFlits (l : List (Nat × Nat)) : Nat := l.foldl (fun n x => n + x.2) 0

/-- A channel carries flits of a source: numbered on, and taken in sequence at the far end. The sender holds at most 512 that are
not acknowledged, so the oldest beyond that have been (R374; log 199). -/
def Channel.carry (c : Channel) (src n : Nat) : Channel :=
  let l := c.owed ++ [(src, n)]
  { c with seq := (c.seq + n) % 1024, want := (c.want + n) % 1024, owed := acked (owedFlits l - 512) l }

/-- A receiver that sets NAK has acknowledged what stands before the flits that are then sent again (R374). -/
def Channel.resend (c : Channel) (flits : Nat) : Channel := { c with owed := acked (owedFlits c.owed - flits) c.owed }

/-- `bytes` of a source cross from die code `a` to die code `b`, whole on the source's channel; nothing crosses within a die,
and what finds no channel waits (R375, R376). -/
def State.stitch (s : State) (a b src bytes : Nat) : State :=
  match s.channelFor (20 * a + b) src with
  | none => s
  | some c => s.setChannel (20 * a + b) c ((s.channel (20 * a + b) c).carry src (ceilDiv bytes 250))

/-- The channels in service of a bundle have changed: what a source that takes another channel now has not had acknowledged is
sent again there, before any new flit of it (R375). -/
def State.reassign (s : State) (pair : Nat) : State :=
  (List.range (bundleSize (pair / 20) (pair % 20))).foldl (fun (s : State) c =>
    (s.channel pair c).owed.foldl (fun (s : State) x =>
      match s.channelFor pair x.1 with
      | none => s
      | some d =>
        if d = c then s
        else
          let old := s.channel pair c
          let s := s.setChannel pair c { old with owed := old.owed.filter (fun y => y.1 != x.1) }
          s.setChannel pair d ((s.channel pair d).carry x.1 x.2)) s) s

end Sys2Proof.Machine
end

