-- ==== Sys2Proof/Machine/Route.lean ====
section
/-!
DEFINITION. Route resolution: the GEI route table, spray groups, circuits, detours (spec/09 R248-R257, spec/11
R302-R303, R320-R321), and the job check (spec/16 R445).
-/
namespace Sys2Proof.Machine

/-! ### Jobs -/

/-- The tag is ACTIVE at that generation (R445). -/
def State.jobActive (s : State) (job gen : Nat) : Bool :=
  match s.jobs.get? job with
  | some j => j.state == .active && j.gen == gen
  | none => false

/-! ### Queues and depths (R278) -/

/-- The default shaper record (R282 Table 2): weight 64 for the collective queue. -/
def shaperDefault (k : Nat) : BitVec 128 :=
  BitVec.ofNat 128 (pack [(11, 0), (4, 0), (21, 0), (21, 0), (24, 65536), (24, 65536), (8, if k = 8 then 64 else 16), (15, 0)])

/-- The class or collective queue 9p + k. -/
def State.queue (s : State) (q : Nat) : Queue := s.net.queues.getD q { shaper := shaperDefault (q % 9) }

/-- A circuit's queue. -/
def State.circQueue (s : State) (c : Nat) : CircQueue := s.net.circQueues.getD c {}

/-- A port. -/
def State.port (s : State) (p : Nat) : Port := s.net.ports.getD p {}

/-- A port set. -/
def State.setPort (s : State) (p : Nat) (v : Port) : State :=
  { s with net := { s.net with ports := s.net.ports.set p v } }

/-- The depth of a list of descriptors in bytes (R278). -/
def depthOf (l : List Desc) : Nat := l.foldl (fun n d => n + d.len) 0

/-- The depth the ingress die's load view shows for a queue: exact on its own die, else the last summary in units of
4 KiB (R255). -/
def State.viewDepth (s : State) (die p k : Nat) : Nat :=
  if dieOf p = die then depthOf (s.queue (9 * p + k)).descs
  else s.net.loadView.getD (9 * p + k) 0 * 4096

/-! ### Route results -/

/-- Where a frame goes: the egress port, the circuit whose queue it enters, how it came there, and the table versions
it holds (R272). -/
structure Target where
  port : Nat
  circ : Option Nat
  via  : Via
  held : List Held
  det  : Bool := false

/-- A route resolution: a target, a malformed hop, or a cause of Table 5 (1 PORT_DOWN, 2 NO_PORT, 3 GROUP_EMPTY,
4 GROUP_UNDEFINED, 5 CIRCUIT_DOWN, 6 CIRCUIT_DENIED, 7 NO_ROUTE, 8 DETOUR_FAILED). -/
inductive Res where
  | ok (t : Target)
  | malformed
  | fail (cause : Nat)

/-- Whether an entry of a table is invalid on a die by parity (R321).  Tables: 0 GEI block, 1 GEI exact, 2 VLAN,
3 address, 4 prefix, 5 filter, 6 next hop. -/
def State.parityBad (s : State) (die table index : Nat) : Bool :=
  s.net.badParity.contains (die, table, index)

/-- The members of a spray group that are live, with their position (R254). -/
def State.liveMembers (s : State) (g : Spray) : List (Nat × Nat) :=
  (g.members.zip (List.range g.members.length)).filter (fun x => s.isUp x.1)

/-- The live member with the fewest bytes, ties to the first counting forward from the position `turn` (R255). -/
def pickMember (s : State) (die cls turn n : Nat) : List (Nat × Nat) → Option (Nat × Nat) → Option (Nat × Nat)
  | [], best => best
  | (p, i) :: r, best =>
    let better := match best with
      | none => true
      | some (q, j) =>
        let d := s.viewDepth die p cls; let e := s.viewDepth die q cls
        decide (d < e) || (decide (d = e) && decide ((i + n - turn) % n < (j + n - turn) % n))
    pickMember s die cls turn n r (if better then some (p, i) else best)

/-- A spray group resolved on a die for a class (R255), with the position after the choice kept for the next one (log 50). -/
def State.resolveSpray (s : State) (die cls g : Nat) : Res × State :=
  match s.net.sprays.get? g with
  | none => (.fail 4, s)
  | some v =>
    if v.cur.members = [] then (.fail 4, s)
    else match pickMember s die cls (v.turn % v.cur.members.length) v.cur.members.length (s.liveMembers v.cur) none with
      | none => (.fail 3, s)
      | some (p, i) =>
        (.ok ⟨p, none, .spray g, [⟨0, g, v.ver⟩], false⟩,
         { s with net := { s.net with sprays := s.net.sprays.set g { v with turn := i + 1 } } })

/-- The state of a circuit record (Table 7). -/
def circState (r : BitVec 128) : Nat := bits r.toNat 116 115
/-- Its egress port. -/
def circPort (r : BitVec 128) : Nat := bits r.toNat 114 104
/-- Its rate in Gb/s. -/
def circRate (r : BitVec 128) : Nat := bits r.toNat 103 93
/-- Its job tag. -/
def circJob (r : BitVec 128) : Nat := bits r.toNat 92 77
/-- Its queue limit in KiB. -/
def circKib (r : BitVec 128) : Nat := bits r.toNat 76 61

/-- A hop entry's form is that of Table 4 (R248). -/
def hopFormOk (h : Nat) : Bool :=
  !(bit h 15 && bit h 14) && !bit h 12 && (bit h 15 || !bit h 11)

/-- A hop entry resolved without a detour (R249). -/
def State.resolveHop (s : State) (die cls job h : Nat) : Res × State :=
  if !hopFormOk h then (.malformed, s)
  else if bit h 15 then s.resolveSpray die cls (bits h 11 0)
  else if bit h 14 then
    let c := bits h 10 0
    match s.net.circuits.get? c with
    | none => (.fail 5, s)
    | some v =>
      if circState v.cur ≠ 1 then (.fail 5, s)
      else if circJob v.cur ≠ 0 ∧ circJob v.cur ≠ job then (.fail 6, s)
      else if !s.isUp (circPort v.cur) then (.fail 1, s)
      else (.ok ⟨circPort v.cur, some c, .circuit c, [⟨1, c, v.ver⟩], false⟩, s)
  else
    let p := bits h 10 0
    if !s.portExists p then (.fail 2, s)
    else if !s.isUp p then (.fail 1, s)
    else (.ok ⟨p, none, .port (bit h 13), [], false⟩, s)

/-- The detour group of a failed hop (R250); 0xFFFF for none. -/
def State.detourGroup (s : State) (h : Nat) : Nat :=
  if bit h 15 then
    match s.net.sprays.get? (bits h 11 0) with
    | some v => v.cur.detour
    | none => 0xFFFF
  else if bit h 14 then
    match s.net.circuits.get? (bits h 10 0) with
    | some v => if circState v.cur ≠ 2 then 0xFFFF else s.rd E.detourGroup (circPort v.cur)
    | none => 0xFFFF
  else s.rd E.detourGroup (bits h 10 0)

/-- A hop entry resolved, with a detour where R250 allows one. -/
def State.resolveDetour (s : State) (die cls job h : Nat) (detoured : Bool) : Res × State :=
  match s.resolveHop die cls job h with
  | (.fail c, s) =>
    if (c = 1 ∨ c = 3 ∨ c = 5) ∧ bit h 13 ∧ !detoured ∧ s.detourGroup h ≠ 0xFFFF then
      match s.resolveSpray die cls (s.detourGroup h) with
      | (.ok t, s) => (.ok { t with det := true }, s)
      | (_, s) => (.fail 8, s)
    else (.fail c, s)
  | r => r

/-- The GEI route table's answer on a die (R302, R321): 0 miss, 1 exact, 2 block, 3 parity miss, with the hop. -/
def State.geiLookup (s : State) (die gei : Nat) : Nat × Nat :=
  match s.net.exact.get? gei with
  | some h => if s.parityBad die 1 gei then (3, 0) else (1, h)
  | none =>
    let b := gei / 256 % 65536
    if s.parityBad die 0 b then (3, 0)
    else
      let e := s.rd E.geiBlock b
      if bit e 31 then (2, bits e 15 0) else (0, 0)

/-- A lookup that reads an entry with bad parity reports it (R321). -/
def State.parityMiss (s : State) (die table index : Nat) : State :=
  (s.bump E.fwdCounts 10 1).raise 0x6401 2 die [.v 16 die, .v 16 table, .v 32 index]

/-- A destination GEI resolved by the route table (R249, R302). -/
def State.resolveGei (s : State) (die cls job gei : Nat) (detoured : Bool) : Res × State × Nat :=
  match s.geiLookup die gei with
  | (0, _) => (.fail 7, s, 0xFFFF)
  | (3, _) => (.fail 7, s, 0xFFFF)
  | (_, h) =>
    let (r, s) := s.resolveDetour die cls job h detoured
    (r, s, h)

end Sys2Proof.Machine
end

