-- ==== Sys2Proof/Machine/Frames.lean ====
section
/-!
DEFINITION. Frames in the switch dies: the wire form of an MFT frame (R243, R248), cells and pools (R265-R268), queues
(R260, R261), drops and path-fault notices (R251, R253), and frames the device originates.
-/
namespace Sys2Proof.Machine

/-! ### Wire form -/

/-- Bytes of a route stack of `n` hops (R248). -/
def stackBytes (n : Nat) : Nat := 4 * ceilDiv n 2

/-- LENGTH of an MFT frame (R243). -/
def Mft.length (f : Mft) : Nat := 16 + stackBytes f.hops.length + f.body.length

/-- Bytes of an MFT frame on the wire, header to check (R243). -/
def Mft.wire (f : Mft) : Nat := max (f.length + 8) 64

/-- The class queue of an MFT frame: 8 for the collective class. -/
def Mft.cls (f : Mft) : Nat := if f.hdr.cclass then 8 else f.hdr.tc

/-- The base header's 16 bytes (R243 Table 1). -/
def Mft.header (f : Mft) : List Byte :=
  let h := f.hdr
  toBytes 16 (pack [(4, 1), (4, h.ptype), (3, h.tc), (1, b2n h.cclass), (1, b2n h.ect), (1, b2n h.ce),
    (1, b2n h.detoured), (1, b2n h.mcast), (4, f.hops.length), (13, f.length), (7, 0), (24, h.dest), (24, h.src),
    (16, h.job), (8, h.gen), (16, 0)])

/-- The bytes of the route stack, padded to a multiple of four (R248). -/
def stackOf (hops : List Nat) : List Byte :=
  (hops.flatMap (fun h => toBytes 2 h)) ++ List.replicate (stackBytes hops.length - 2 * hops.length) 0

/-- The frame as sent: header, stack, body, pad and frame check (R243, R246). -/
def Mft.bytes (f : Mft) : List Byte :=
  let b := f.header ++ stackOf f.hops ++ f.body
  let b := b ++ List.replicate (f.wire - 8 - b.length) 0
  b ++ toBytes 8 (crc64 b)

/-- The hop entries of a route stack. -/
def hopsOf (l : List Byte) (n : Nat) : List Nat := (List.range n).map (fun i => field l (2 * i) 2)

/-- Wire bytes of a packet, header to check. -/
def Packet.wire : Packet → Nat
  | .mft f => f.wire
  | .eth b _ => b.length

/-- An MFT frame. -/
def Packet.isMft : Packet → Bool
  | .mft _ => true
  | .eth _ _ => false

/-- A packet whose header carries DETOURED (R250). -/
def Packet.detoured : Packet → Bool
  | .mft f => f.hdr.detoured
  | .eth _ _ => false

/-- The queue class of a packet. -/
def Packet.cls : Packet → Nat
  | .mft f => f.cls
  | .eth _ tc => tc

/-- The job of a packet; none for Ethernet and for the fabric tag. -/
def Packet.job : Packet → Option (Nat × Nat)
  | .mft f => if f.hdr.job = 0 then none else some (f.hdr.job, f.hdr.gen)
  | .eth _ _ => none

/-! ### Cells and pools -/

/-- Cells of `n` bytes (R265). -/
def cellsOf (n : Nat) : Nat := ceilDiv n 256

/-- Cells of a switch die (R265). -/
def cellsPerDie : Nat := 1048576

/-- A request that meets the other state of a cell's bit is counted and told (R266). -/
def State.doubleFree (s : State) (die c : Nat) : State :=
  (s.bump E.doubleFree 0 1).raise 0x5004 2 die [.v 16 die, .v 32 c]

/-- The allocator of a die skips the cells on its free list whose bit is USED, and counts each (R266). -/
def State.skipStrays (s : State) (die : Nat) : State :=
  let l := s.net.stray.filter (fun (x : Nat × Nat) => x.1 == die)
  if l.isEmpty then s
  else
    let u := s.net.used.getD die []
    l.foldl (fun (s : State) x => if u.contains x.2 then s.doubleFree die x.2 else s)
      { s with net := { s.net with stray := s.net.stray.filter (fun (x : Nat × Nat) => x.1 != die) } }

/-- Cells taken from a pool of a die, if it has them (R268). -/
def State.takeCells (s : State) (die pool n : Nat) : Option (List Nat × State) :=
  let free := s.rd E.poolFree (4 * die + pool)
  if free < n then none
  else
    let s := s.skipStrays die
    let u := s.net.used.getD die []
    let cs := lacking cellsPerDie 0 n u
    let s := { s with net := { s.net with used := s.net.used.set die (cs.foldl (fun l c => insertNat c l) u) } }
    let s := s.wr E.poolFree (4 * die + pool) (free - n)
    let s := if free - n < s.rd E.poolLow (4 * die + pool) then s.wr E.poolLow (4 * die + pool) (free - n) else s
    some (cs, s.countFixed (8 * die + 2) n)

/-- One cell freed; a cell already free is a double free (R266). -/
def State.freeCell (s : State) (die pool c : Nat) : State :=
  let u := s.net.used.getD die []
  if u.contains c then
    let s := { s with net := { s.net with used := s.net.used.set die (u.erase c) } }
    s.wr E.poolFree (4 * die + pool) (s.rd E.poolFree (4 * die + pool) + 1)
  else s.doubleFree die c

/-- A free request of no owner: the pool is that of the frame that holds the cell, if one does (R266, R275). -/
def State.freeRequest (s : State) (die c : Nat) : State :=
  let pool := match s.net.frames.find? (fun (f : Stored) => f.die == die && f.cells.contains c) with
    | some f => f.pool
    | none => 1
  s.freeCell die pool c

/-- Cells on the free lists of some dies although their bits are USED (R266). -/
def State.listUsed (s : State) (l : List (Nat × Nat)) : State :=
  if l.isEmpty then s else { s with net := { s.net with stray := s.net.stray ++ l } }

/-- POOL_EMPTY raised at most once per ms per die and pool (R268). -/
def State.poolEmpty (s : State) (die pool : Nat) : State :=
  (s.countEvent (8 * die + 2) 0x21 pool 0 1).raiseLim ms (4 * die + pool) 0x5006 1 die [.v 16 die, .v 16 pool]

/-! ### Drops (R253) -/

/-- The drop causes of Table 6. -/
inductive Drop where
  | frameCheck | runtGiant | malformed | mftDisabled | jobStale | route | localType | poolEmpty | queueLimit
  | creditViolation | staging | mcastUndefined | policed | txAborted

/-- The element of DROPS a cause counts in. -/
def Drop.element : Drop → Nat
  | .frameCheck => 1 | .runtGiant => 2 | .malformed => 3 | .mftDisabled => 4 | .jobStale => 5 | .route => 6
  | .localType => 7 | .poolEmpty => 8 | .queueLimit => 9 | .creditViolation => 10 | .staging => 11
  | .mcastUndefined => 12 | .policed => 13 | .txAborted => 14

/-- The ingress port number of a frame the device originates. -/
def noPort : Nat := 0xFFFF

/-- A dropped frame or copy counted (R253). -/
def State.drop (s : State) (d : Drop) (inPort : Nat) : State :=
  let s := s.bump E.drops d.element 1
  if inPort < 1024 then (s.bump E.dropsByPort inPort 1).countEvent (8 * dieOf inPort) 0x03 d.element 0 1 else s

/-! ### Queues -/

/-- The class of a queue is lossless on a port's link (R260, R271). -/
def State.lossless (s : State) (p cls : Nat) : Bool :=
  let pt := s.port p
  pt.mftNow && (cls == 8 || bit pt.lossless cls)

/-- The same for a packet: Ethernet frames are never lossless (R247). -/
def State.losslessFor (s : State) (p cls : Nat) (pk : Packet) : Bool := pk.isMft && s.lossless p cls

/-- A queue set, with DEPTH and DEPTH_HWM (R278, R280). -/
def State.setQueue (s : State) (q : Nat) (v : Queue) : State :=
  let s := { s with net := { s.net with queues := s.net.queues.set q v } }
  let d := depthOf v.descs
  (s.wr E.depth q d).raiseTo E.depthHwm q d

/-- A circuit's queue set, with its depth. -/
def State.setCircQueue (s : State) (c : Nat) (v : CircQueue) : State :=
  let s := { s with net := { s.net with circQueues := s.net.circQueues.set c v } }
  s.wr E.circuitDepth c (depthOf v.descs)

/-- The limit of the queue a frame would enter: none for a lossless class, QUEUE_LIMIT, or the circuit's QUEUE_KIB
(R260). -/
def State.queueLimit (s : State) (p cls : Nat) (circ : Option Nat) (pk : Packet) : Option Nat :=
  if s.losslessFor p cls pk then none
  else match circ with
    | none => some (s.rd E.queueLimit 0)
    | some c => match s.net.circuits.get? c with
      | some v => some (circKib v.cur * 1024)
      | none => some 0

/-- The depth of the queue a frame would enter. -/
def State.depthFor (s : State) (p cls : Nat) (circ : Option Nat) : Nat :=
  match circ with
  | none => depthOf (s.queue (9 * p + cls)).descs
  | some c => depthOf (s.circQueue c).descs

/-- The queue admits a frame of `len` bytes (R260). -/
def State.admits (s : State) (p cls len : Nat) (circ : Option Nat) (pk : Packet) : Bool :=
  match s.queueLimit p cls circ pk with
  | none => true
  | some l => decide (s.depthFor p cls circ + len ≤ l)

/-- Why a packet of `len` bytes may not enter a queue of a port: a port in ETHERNET mode sends no MFT frame (R242, log 50), and
a full queue takes none (R260). -/
def State.barred (s : State) (p cls len : Nat) (circ : Option Nat) (pk : Packet) : Option Drop :=
  if pk.isMft && !(s.port p).mftNow then some .mftDisabled
  else if s.admits p cls len circ pk then none else some .queueLimit

/-- Whether a packet can carry a congestion mark (R261). -/
def Packet.markable : Packet → Bool
  | .mft f => f.hdr.ect
  | .eth b _ =>
    let off := if field b 12 2 = 0x8100 then 16 else 12
    let ecn := if field b off 2 = 0x0800 then field b (off + 3) 1 % 4
      else if field b off 2 = 0x86DD then field b (off + 2) 2 / 16 % 4 else 0
    ecn == 1 || ecn == 2

/-- The stored frame of an identity. -/
def findFrame : List Stored → Nat → Option Stored
  | [], _ => none
  | f :: r, i => if f.id = i then some f else findFrame r i

/-- The ingress port of a stored frame. -/
def State.inPortOf (s : State) (id : Nat) : Nat :=
  match findFrame s.net.frames id with
  | some f => f.inPort
  | none => noPort

/-- A descriptor behind the others of its queue, but before those that came at the same time from a higher ingress port (R275). -/
def State.inTurn (s : State) (d : Desc) : List Desc → List Desc
  | [] => [d]
  | e :: r =>
    if (e :: r).all (fun (x : Desc) => x.entered == d.entered && decide (s.inPortOf d.frame < s.inPortOf x.frame)
        && decide (s.inPortOf x.frame < 1024)) then d :: e :: r
    else e :: s.inTurn d r

/-- A descriptor put into its queue, marked under R261: an IP frame that has been marked carries ECN 0b11 from then on. -/
def State.enqueue (s : State) (p : Nat) (circ : Option Nat) (d : Desc) (pk : Packet) : State :=
  let mark := s.rd E.markDepth d.cls
  let marked := decide (mark ≠ 0xFFFFFFFF) && decide (mark ≤ s.depthFor p d.cls circ) && pk.markable
    && (pk.isMft || !d.marked)
  let d := { d with marked := marked || d.marked }
  let s := if marked then (s.bump E.marked 0 1).countEvent (8 * dieOf p + 1) 0x12 (9 * p + d.cls) ((pk.job.getD (0, 0)).1) 1 else s
  match circ with
  | none =>
    let q := s.queue (9 * p + d.cls)
    s.setQueue (9 * p + d.cls) { q with descs := s.inTurn d q.descs }
  | some c =>
    let q := s.circQueue c
    s.setCircQueue c { q with descs := s.inTurn d q.descs }

/-! ### Versions held (R272) -/

/-- A count of the frames holding a version changed by a function. -/
def Versioned.hold {α : Type} (v : Versioned α) (ver : Nat) (f : Nat → Nat) : Versioned α :=
  if ver = v.ver then { v with held := f v.held } else { v with oldHeld := f v.oldHeld }

/-- The count of a held version changed by a function. -/
def State.holdBy (s : State) (h : Held) (f : Nat → Nat) : State :=
  match h.table with
  | 0 => { s with net := { s.net with sprays := s.net.sprays.modify h.index (fun v => v.hold h.ver f) } }
  | 1 => { s with net := { s.net with circuits := s.net.circuits.modify h.index (fun v => v.hold h.ver f) } }
  | _ => { s with net := { s.net with mcasts := s.net.mcasts.modify h.index (fun v => v.hold h.ver f) } }

/-- The versions a frame resolved against are held. -/
def State.holdAll (s : State) (l : List Held) : State := l.foldl (fun s h => s.holdBy h (· + 1)) s

/-- The versions a frame held are let go. -/
def State.letGo (s : State) (l : List Held) : State := l.foldl (fun s h => s.holdBy h (· - 1)) s

/-! ### Stored frames and owners (R267) -/

/-- The list with a stored frame replaced. -/
def setFrame (l : List Stored) (f : Stored) : List Stored := l.map (fun g => if g.id = f.id then f else g)

/-- A class's credit on a port. -/
def Port.credit (p : Port) (cls : Nat) : Credit := p.credits.getD cls (Credit.mk 0 0 0 0)

/-- A class's credit changed by a function; a port keeps nine. -/
def Port.setCredit (p : Port) (cls : Nat) (f : Credit → Credit) : Port :=
  let l := p.credits ++ List.replicate (9 - p.credits.length) (Credit.mk 0 0 0 0)
  { p with credits := l.set cls (f (p.credit cls)) }

/-- Credit returned to the sender of a lossless or collective frame when its cells are free (R269). -/
def State.creditFreed (s : State) (inPort cls n : Nat) : State :=
  if inPort < 1024 ∧ s.lossless inPort cls then
    let p := s.port inPort
    s.setPort inPort (p.setCredit cls (fun c => { c with freed := (c.freed + n) % 65536 }))
  else s

/-- The cells of a frame freed and the frame forgotten. -/
def State.freeFrame (s : State) (f : Stored) : State :=
  let s := f.cells.foldl (fun s c => s.freeCell f.die f.pool c) s
  let s := if f.credit ∧ f.packet.isMft then s.creditFreed f.inPort f.packet.cls f.cells.length else s
  let s := s.letGo f.held
  { s with net := { s.net with frames := s.net.frames.filter (fun (g : Stored) => g.id != f.id) } }

/-- The owner that stands for local delivery: a number no port has. -/
def ownerLocal : Nat := 1024

/-- An owner's bit in the mask of its die: its port's place there, or 128 for local delivery (R267). -/
def ownerBit (owner : Nat) : Nat := if owner = ownerLocal then 128 else owner % 128

/-- An owner releases a frame; the last release frees its cells, and a release by an owner whose bit is clear is a
double release (R267). -/
def State.release (s : State) (id owner : Nat) : State :=
  match findFrame s.net.frames id with
  | none => (s.bump E.doubleRelease 0 1).raise 0x5005 2 31 [.v 16 31, .v 16 (ownerBit owner), .v 32 0]
  | some f =>
    let has := if owner = ownerLocal then f.localOwner else f.owners.contains owner
    if !has then
      (s.bump E.doubleRelease 0 1).raise 0x5005 2 f.die [.v 16 f.die, .v 16 (ownerBit owner), .v 32 (f.cells.headD 0)]
    else
      let g := if owner = ownerLocal then { f with localOwner := false } else { f with owners := f.owners.erase owner }
      if g.owners = [] ∧ g.localOwner = false then s.freeFrame g
      else { s with net := { s.net with frames := setFrame s.net.frames g } }

/-- A frame stored in the cells of a die for its owners. -/
def State.store (s : State) (die pool : Nat) (owners : List Nat) (loc : Bool) (inPort : Nat) (stamp : Time)
    (pk : Packet) (held : List Held) (copy credit : Bool) : Option (Nat × State) :=
  match s.takeCells die pool (cellsOf pk.wire) with
  | none => none
  | some (cs, s) =>
    let id := s.net.nextFrame
    let s := s.holdAll held
    some (id, { s with net := { s.net with
      nextFrame := id + 1
      frames := s.net.frames ++ [⟨id, die, pool, cs, owners, loc, inPort, stamp, pk, held, copy, credit⟩] } })

/-! ### Unicast forwarding -/

/-- The pool a frame takes its cells from (R265 Table 9). -/
def State.poolFor (s : State) (inPort cls : Nat) (pf : Bool) : Nat :=
  if pf then 3 else if inPort = noPort then 2 else if s.lossless inPort cls then 0 else 1

/-- A frame with its target goes to the queue of its egress port, or is dropped for want of room (R258-R261, R268). -/
def State.forwardAs (s : State) (cls inPort : Nat) (stamp : Time) (pk : Packet) (tg : Target) (hop hopsIn pool : Nat) : State :=
  let p := tg.port
  match s.barred p cls pk.wire tg.circ pk with
  | some d => s.drop d inPort
  | none => match s.store (dieOf p) pool [p] false inPort stamp pk tg.held false true with
    | none => (s.drop .poolEmpty inPort).poolEmpty (dieOf p) pool
    | some (id, s) =>
      (s.stitch (dieOf inPort) (dieOf p) inPort pk.wire).enqueue p tg.circ ⟨id, pk.wire, cls, s.now, tg.via, hop, hopsIn, false, false, tg.det⟩ pk

/-- A frame to the queue of its own class. -/
def State.forward (s : State) (inPort : Nat) (stamp : Time) (pk : Packet) (tg : Target) (hop hopsIn pool : Nat) : State :=
  s.forwardAs pk.cls inPort stamp pk tg hop hopsIn pool

/-! ### Frames the device originates -/

/-- A frame of the device itself, resolved by the GEI route table, or by the first hop of the route it is given; one that
cannot be resolved is dropped as ROUTE, one that finds no cells in its pool waits (R251, R268). -/
def State.originateAs (s : State) (cls pool : Nat) (f : Mft) : State :=
  let die := 0
  let (r, s, h) := match f.hops with
    | [] => s.resolveGei die cls f.hdr.job f.hdr.dest false
    | h :: _ =>
      let (r, s) := s.resolveDetour die cls f.hdr.job h f.hdr.detoured
      (r, s, h)
  match r with
  | .ok tg =>
    let w := f
    let f := { f with hops := f.hops.tail, hdr := { f.hdr with detoured := f.hdr.detoured || tg.det } }
    let s := if tg.det then s.bump E.detoured 0 1 else s
    if s.rd E.poolFree (4 * dieOf tg.port + pool) < cellsOf f.wire ∧ pool = 2 then
      let s := s.poolEmpty (dieOf tg.port) pool
      { s with net := { s.net with waiting := s.net.waiting ++ [(cls, w)] } }
    else s.forwardAs cls noPort s.now (.mft f) tg h 0 pool
  | _ => s.drop .route noPort

/-- A frame of the device in the class of its header. -/
def State.originateTo (s : State) (pool : Nat) (f : Mft) : State := s.originateAs f.cls pool f

/-- A frame of a quire die or the keeper, in the ORIGIN pool. -/
def State.originate (s : State) (f : Mft) : State := s.originateTo 2 f

/-! ### Path-fault notices (R251) -/

/-- The notice of a dropped unicast frame's failing hop, at most one per source and hop in each PF_INTERVAL. -/
def State.pathFault (s : State) (f : Mft) (die cause hop hopsLeft : Nat) : State :=
  let src := f.hdr.src
  let old := s.net.pathFaults.find? (fun x => x.src == src && x.hop == hop)
  let rest := s.net.pathFaults.filter (fun (x : PathFault) => !(x.src == src && x.hop == hop))
  let (count, first, due, sentAt) := match old with
    | none => (1, s.now, true, s.now)
    | some x => (x.count + 1, (if x.count = 0 then s.now else x.first),
        decide (x.sentAt + s.rd E.pfInterval 0 ≤ s.now), x.sentAt)
  if due then
    let s := { s with net := { s.net with pathFaults := rest ++ [PathFault.mk src hop s.now 0 s.now] } }
    let body := toBytes 24 (pack [(4, 1), (4, cause), (16, hop), (4, hopsLeft), (4, f.hdr.ptype), (3, f.hdr.tc),
      (1, b2n f.hdr.cclass), (4, 0), (24, f.hdr.dest), (32, count), (32, first / sec), (30, first % sec / ns), (34, 0)])
    let s := s.bump E.pathFaultsSent 0 1
    let s := s.raiseLim ms die 0x5003 0 die [.v 8 cause, .v 16 hop, .v 24 src]
    s.originateTo 3 ⟨{ ptype := 5, tc := 7, dest := src, src := s.gei, job := f.hdr.job, gen := f.hdr.gen }, [], body⟩
  else { s with net := { s.net with pathFaults := rest ++ [PathFault.mk src hop sentAt count first] } }

/-- A received unicast frame dropped as ROUTE, with its path-fault notice (R250, R251). -/
def State.dropRoute (s : State) (f : Mft) (inPort cause hop hopsLeft : Nat) : State :=
  let s := s.drop .route inPort
  if f.hdr.ptype = 5 ∨ inPort = noPort ∨ f.hdr.mcast then s else s.pathFault f (dieOf inPort) cause hop hopsLeft

/-! ### Multicast (R262-R264) -/

/-- What a multicast group's members resolve to: the ports, each once, since an owner mask has one bit for each (R267); the copies
omitted; whether a member resolved to a live port at all. -/
structure Copies where
  ports   : List (Nat × Via × List Held) := []
  omitted : Nat := 0
  live    : Bool := false

/-- The switch dies of the ports. -/
def Copies.dies (c : Copies) : List Nat := (List.range 8).filter (fun d => c.ports.any (fun x => dieOf x.1 == d))

/-- A frame that the device forms and that finds no cells waits, with its class (R268). -/
def State.waitFor (s : State) (pk : Packet) (die pool : Nat) : State :=
  match pk with
  | .mft f =>
    let s := s.poolEmpty die pool
    { s with net := { s.net with waiting := s.net.waiting ++ [(pk.cls, f)] } }
  | .eth _ _ => s

/-- The members of a multicast group resolved on a die (R263). -/
def mcastPorts (die cls inPort : Nat) : List Nat → Copies → State → Copies × State
  | [], acc, s => (acc, s)
  | h :: r, acc, s =>
    let (res, s) := if bit h 15 then s.resolveSpray die cls (bits h 11 0)
      else if s.isUp (bits h 10 0) then (.ok ⟨bits h 10 0, none, .port false, [], false⟩, s) else (.fail 1, s)
    match res with
    | .ok t =>
      if t.port = inPort then mcastPorts die cls inPort r { acc with omitted := acc.omitted + 1, live := true } s
      else mcastPorts die cls inPort r
        { acc with live := true, ports := if acc.ports.any (fun x => x.1 == t.port) then acc.ports else acc.ports ++ [(t.port, t.via, t.held)] } s
    | _ => mcastPorts die cls inPort r { acc with omitted := acc.omitted + 1 } s

/-- The copy of a multicast frame for one switch die: stored once, owned by each port whose queue admits it (R263). -/
def State.mcastDie (s : State) (d inPort pool : Nat) (stamp : Time) (pk : Packet) (ports : List (Nat × Via × List Held))
    (held : List Held) (credit loc : Bool) : State :=
  let mine := ports.filter (fun (x : Nat × Via × List Held) => dieOf x.1 == d)
  if mine.isEmpty && !loc then s
  else
    let (adm, s) := mine.foldl (fun (a : List (Nat × Via × List Held) × State) x =>
      match a.2.barred x.1 pk.cls pk.wire none pk with
      | none => (a.1 ++ [x], a.2)
      | some c => (a.1, a.2.drop c inPort)) ([], s)
    if adm.isEmpty && !loc then s
    else match s.store d pool (adm.map (·.1)) loc inPort stamp pk (held ++ adm.flatMap (fun (x : Nat × Via × List Held) => x.2.2)) true credit with
      | none =>
        let s := if loc then s.drop .poolEmpty inPort else s
        (adm.foldl (fun (s : State) _ => s.drop .poolEmpty inPort) s).poolEmpty d pool
      | some (id, s) =>
        let s := s.stitch (dieOf inPort) d inPort pk.wire
        let s := s.countEvent (8 * d + 2) 0x22 0xFFFF ((pk.job.getD (0, 0)).1) adm.length
        adm.foldl (fun s x => s.enqueue x.1 none ⟨id, pk.wire, pk.cls, s.now, x.2.1, 0xFFFF, 0, false, false, false⟩ pk) s

/-- A BLOCK frame of an open session that caches: a copy is delivered here too (R461). -/
def State.wantsBlock (s : State) (pk : Packet) : Bool :=
  match pk with
  | .mft f => f.hdr.ptype == 4 && field f.body 0 1 == 0x14 && field f.body 1 1 == 1 && field f.body 8 1 == 0x11
    && s.spawns.any (fun (x : Nat × Session) => x.2.job == f.hdr.job && x.2.number == field f.body 9 2 && x.2.cache)
  | .eth _ _ => false

/-- A multicast frame sent to the members of its group, dropped whole where no member resolves to a live port (R262, R263; log
50). -/
def State.multicast (s : State) (die inPort : Nat) (stamp : Time) (pk : Packet) (g pool : Nat) : State :=
  match s.net.mcasts.get? g with
  | none => s.drop .mcastUndefined inPort
  | some v =>
    if v.cur = [] then s.drop .mcastUndefined inPort
    else
      let (c, s) := mcastPorts die pk.cls inPort v.cur {} s
      let short := c.dies.filter (fun d => decide (s.rd E.poolFree (4 * d + pool) < cellsOf pk.wire))
      if !c.live then s.drop .mcastUndefined inPort
      else if inPort = noPort ∧ !short.isEmpty then s.waitFor pk (short.headD 0) pool
      else
        let s := (List.range c.omitted).foldl (fun (s : State) _ => s.drop .route inPort) s
        let first := s.net.nextFrame
        (List.range 8).foldl (fun s d => s.mcastDie d inPort pool stamp pk c.ports [⟨2, g, v.ver⟩] (s.net.nextFrame == first)
          (d == die && s.wantsBlock pk)) s

/-- A frame of a home for every member of an operation: by its RESULT_GROUP when it has one (R264). -/
def State.originateAll (s : State) (group : Nat) (dests : List Nat) (mk : Nat → Mft) : State :=
  if group ≠ 0xFFFF ∧ 1 < dests.length then
    let f := mk group
    s.multicast 0 noPort s.now (.mft { f with hdr := { f.hdr with mcast := true, dest := group } }) group 2
  else dests.foldl (fun s d => s.originate (mk d)) s

end Sys2Proof.Machine
end

