-- ==== Sys2Proof/Machine/CollSend.lean ====
section
/-!
DEFINITION. Frames the collective engine and the keeper originate (spec/03 R78-R80, spec/17 R486-R488) and the two
phases of an exchange between devices (spec/03 R66, spec/17 R489).
-/
namespace Sys2Proof.Machine

/-! ### Collective frames -/

/-- "The whole instance", and NONE, in a CHUNK field. -/
def allOnes : Nat := 0xFFFFFFFF

/-- The control header of Table 7 (R80). -/
def ctlHeader (kind op inst chunk hver code flags : Nat) (anchor : Int) (pass va vb : Nat) (t : Time) : List Byte :=
  toBytes 32 (pack [(4, 1), (4, kind), (32, op), (8, inst), (32, chunk), (8, hver), (8, code), (8, flags),
    (16, wrapInt 16 anchor), (1, pass), (7, 0), (32, va), (32, vb), (32, t / sec), (30, t % sec / ns), (2, 0)])

/-- The device may originate a frame of a kind for a job: while the job is RETIRING, only ABORT and TALLY (R445). -/
def State.mayOriginate (s : State) (job kind : Nat) : Bool :=
  match s.jobs.get? job with
  | some j => j.state != .retiring || kind == 8 || kind == 0xA
  | none => true

/-- A collective frame of this device. -/
def State.collFrame (s : State) (job gen dest : Nat) (body : List Byte) : Mft :=
  ⟨{ ptype := 2, cclass := true, dest := dest, src := s.gei, job := job, gen := gen }, [], body⟩

/-- A collective frame sent to one destination. -/
def State.sendColl (s : State) (job gen kind dest : Nat) (body : List Byte) : State :=
  if s.mayOriginate job kind then s.originate (s.collFrame job gen dest body) else s

/-- The job tag of an operation (R64). -/
def jobOf (op : Nat) : Nat := op / 65536

/-- A control frame of an operation to one destination. -/
def State.sendTo (s : State) (c : Ctx) (kind dest : Nat) (body : List Byte) : State :=
  s.sendColl (jobOf c.reg.op) c.gen kind dest body

/-- The GEIs of a run of ranks. -/
def Reg.geis (r : Reg) (e : Nat × Nat) : List Nat := (List.range e.2).map (fun k => r.geiOf (e.1 + k))

/-- A frame to every member: one multicast frame when the RESULT_GROUP that the instance opened under names a group (R264). -/
def State.sendMembers (s : State) (group : Nat) (c : Ctx) (kind : Nat) (body : List Byte) : State :=
  if s.mayOriginate (jobOf c.reg.op) kind then
    s.originateAll group (c.reg.geis (0, c.reg.m)) (fun d => s.collFrame (jobOf c.reg.op) c.gen d body)
  else s

/-! ### PEER frames (R488) -/

/-- The management header of Table 9 (R486). -/
def mgmtHeader (family sub len : Nat) : List Byte := toBytes 8 (pack [(4, 1), (4, family), (8, sub), (16, len), (32, 0)])

/-- A management frame of this device. -/
def State.mgmtFrame (s : State) (job gen dest family sub : Nat) (body : List Byte) : Mft :=
  ⟨{ ptype := 4, tc := Config.mgmtTc family sub % 8, dest := dest, src := s.gei, job := job, gen := gen }, [],
    mgmtHeader family sub body.length ++ body⟩

/-- A PEER frame sent with the slot FABRIC_TX names; ABORT_RELAY goes in the collective class (R426). -/
def State.sendPeer (s : State) (dest sub : Nat) (body : List Byte) : State :=
  let h := mgmtHeader 3 sub (body.length + 16)
  let key := (s.mgmt.keys.getD (s.rd E.fabricTx 0) {}).key
  let f := s.mgmtFrame 0 0 dest 3 sub (body ++ toBytes 16 (mac128 key (h ++ body)))
  if sub = 6 then s.originateAs 8 2 f else s.originate f

/-- A MAC verifies under an enabled fabric slot, 16 or 17. -/
def State.macOk (s : State) (msg : List Byte) (mac : Nat) : Bool :=
  let ok := fun (slot : Nat) => match s.mgmt.keys.get? slot with
    | some k => k.enable && mac128 k.key msg == mac
    | none => false
  ok 16 || ok 17

/-- A received PEER frame accepted, or dropped and counted (R488); `lenOk` says that its body has the length Table 10
defines. -/
def State.peerAccept (s : State) (p : Peer) (sub : Nat) (body : List Byte) (lenOk : Bool) : Bool × State :=
  if !s.macOk (mgmtHeader 3 sub (body.length + 16) ++ body) p.mac.toNat then
    (false, (s.bump E.dapCounts 2 1).raiseLim sec 0 0xF007 1 31 [.v 8 3, .v 24 p.src])
  else if p.job ≠ 0 ∨ !lenOk then
    (false, (s.bump E.dapCounts 5 1).raiseLim sec 0 0xF007 1 31 [.v 8 3, .v 24 p.src])
  else (true, s)

/-! ### Two phases (R66) -/

/-- What a two-phase exchange of one kind does at a device: hold and answer, commit, release; and at its originator
report the outcome's code and the refusing device.  `full` is the RESOURCE code of its status table; `grows` says that
the exchange admits something, which BRACE does not allow (R539). -/
structure Phase where
  hold    : State → Nat × State
  commit  : State → State
  release : State → State
  outcome : Nat → Nat → State → State
  full    : Nat
  grows   : Bool

/-- A device's answer to a prepare: RESOURCE while it has no quire die in service (R422), or is in BRACE (R539). -/
def Phase.answer (ph : Phase) (s : State) : Nat × State :=
  if s.quires = [] ∨ (ph.grows = true ∧ s.power.brace.isSome = true) then (ph.full, s) else ph.hold s

/-- The status an exchange ends with: the refusal of the lowest GEI, or UNREACHABLE with 0 (R66 step 4). -/
def ledStatus (l : Led) : Nat × Nat :=
  let refused := l.votes.filter (fun (x : Nat × Nat) => x.2 != 0)
  match refused with
  | [] => (0x0B, 0)
  | x :: r =>
    let y := r.foldl (fun (a : Nat × Nat) b => if b.1 < a.1 then b else a) x
    (y.2, y.1)

/-- A led exchange ended: committed at every device when all hold, released otherwise. -/
def State.endLed (s : State) (l : Led) (ph : Phase) : State :=
  let s := { s with coll := { s.coll with leds := s.coll.leds.filter (fun (x : Led) => x.xid != l.xid) } }
  let others := l.devices.filter (fun d => d != s.gei)
  let mine := l.devices.contains s.gei
  let all := l.votes.length == l.devices.length && l.votes.all (fun x => x.2 == 0)
  if all then
    let s := others.foldl (fun (s : State) d => s.sendPeer d 3 (toBytes 4 l.xid ++ toBytes 4 0)) s
    let s := if mine then ph.commit s else s
    ph.outcome 0 0 s
  else
    let (code, gei) := ledStatus l
    let s := others.foldl (fun (s : State) d => s.sendPeer d 4 (toBytes 4 l.xid ++ toBytes 1 code ++ toBytes 3 0)) s
    let held := l.votes.any (fun x => x.1 == s.gei && x.2 == 0)
    let s := if held then ph.release s else s
    ph.outcome code gei s

/-- An exchange of a kind started: this device's own answer is taken at once, the others are sent PREPARE. -/
def State.startLed (s : State) (kind subject : Nat) (record : List Byte) (devices : List Nat) (reply : Nat)
    (ph : Phase) : State :=
  let xid := s.coll.xid
  let s := { s with coll := { s.coll with xid := (xid + 1) % 2 ^ 32 } }
  let mine := devices.contains s.gei
  let (v, s) := if mine then ph.answer s else (0, s)
  let l : Led := ⟨xid, kind, subject, record, devices, if mine then [(s.gei, v)] else [], s.now, reply⟩
  let s := { s with coll := { s.coll with leds := s.coll.leds ++ [l] } }
  let body := toBytes 1 kind ++ toBytes 4 xid ++ toBytes 3 s.gei ++ toBytes 1 0 ++ record
  let s := (devices.filter (fun d => d != s.gei)).foldl (fun (s : State) d => s.sendPeer d 1 body) s
  if l.votes.length = devices.length then s.endLed l ph else s

/-- A PREPARE received: held and answered with a VOTE; one already held is answered with its earlier VOTE (R489). -/
def State.onPrepare (s : State) (orig xid kind subject : Nat) (record : List Byte) (ph : Phase) : State :=
  match s.coll.helds.find? (fun (x : HeldX) => x.orig == orig && x.xid == xid) with
  | some h => s.sendPeer orig 2 (toBytes 4 xid ++ toBytes 1 h.vote ++ toBytes 3 0)
  | none =>
    let (v, s) := ph.answer s
    let s := { s with coll := { s.coll with
      helds := s.coll.helds ++ [(⟨orig, xid, kind, subject, record, v, false⟩ : HeldX)] } }
    s.sendPeer orig 2 (toBytes 4 xid ++ toBytes 1 v ++ toBytes 3 0)

/-- A COMMIT or RELEASE received of an exchange this device holds. -/
def State.endHeld (s : State) (h : HeldX) (commit : Bool) (ph : Phase) : State :=
  let s := { s with coll := { s.coll with helds := s.coll.helds.map (fun (x : HeldX) =>
    if x.orig = h.orig ∧ x.xid = h.xid then { x with ended := true } else x) } }
  if h.vote = 0 then (if commit then ph.commit s else ph.release s) else s

end Sys2Proof.Machine
end

