-- ==== Sys2Proof/Machine/Float.lean ====
section
/-!
DEFINITION. IEEE 754 binary32 and binary64 arithmetic, rounded to nearest with ties to even (spec/06 R185, spec/07 R197).
-/
namespace Sys2Proof.Machine

/-- A decoded IEEE value: (−1)^s × m × 2^e, m = 0 a zero of its sign. -/
inductive Fl where
  | num (s : Bool) (m : Nat) (e : Int)
  | inf (s : Bool)
  | nan
  deriving DecidableEq, Repr

/-- Binary32 and binary64. -/
def acc32 : FpFmt := fp32
def acc64 : FpFmt := ⟨11, 52, 1023, .ieee, 2046, 0xFFFFFFFFFFFFF, 0⟩

/-- The value of an encoding. -/
def flOf (f : FpFmt) (v : Nat) : Fl :=
  let s := bit v (f.eb + f.mb)
  let ex := bits v (f.eb + f.mb - 1) f.mb
  let fr := v % 2 ^ f.mb
  if ex = 2 ^ f.eb - 1 then (if fr = 0 then .inf s else .nan)
  else if ex = 0 then .num s fr (1 - f.bias - f.mb)
  else .num s (fr + 2 ^ f.mb) (ex - f.bias - f.mb)

/-- The sign bit of a format. -/
def signBit (f : FpFmt) (s : Bool) : Nat := b2n s * 2 ^ (f.eb + f.mb)

/-- The quiet NaN an operation delivers; no rule reads its payload. -/
def nanOf (f : FpFmt) : Nat := (2 ^ f.eb - 1) * 2 ^ f.mb + 2 ^ (f.mb - 1)

/-- An infinity. -/
def infOf (f : FpFmt) (s : Bool) : Nat := signBit f s + (2 ^ f.eb - 1) * 2 ^ f.mb

/-- ± m × 2^e rounded to nearest, ties to even; `more` says that the exact magnitude lies above m × 2^e by less than 2^e,
and is false unless m has at least two bits more than the format keeps. -/
def roundFl (f : FpFmt) (s : Bool) (m : Nat) (e : Int) (more : Bool) : Nat :=
  if m = 0 ∧ !more then signBit f s
  else
    let ex : Int := max ((bitlen m : Int) - 1 + e) (1 - f.bias)
    let k := ex - f.mb - e
    let mant :=
      if k ≤ 0 then m * 2 ^ (-k).toNat
      else
        let d := 2 ^ k.toNat
        let q := m / d
        let r := m % d
        if d / 2 < r ∨ (r = d / 2 ∧ (more ∨ q % 2 = 1)) then q + 1 else q
    let (mant, ex) := if mant = 2 ^ (f.mb + 1) then (2 ^ f.mb, ex + 1) else (mant, ex)
    if f.bias < ex then infOf f s
    else if mant < 2 ^ f.mb then signBit f s + mant
    else signBit f s + (ex + f.bias).toNat * 2 ^ f.mb + mant % 2 ^ f.mb

/-- A signed integer × 2^e rounded; an exact zero takes the sign given. -/
def roundSum (f : FpFmt) (x e : Int) (zeroSign : Bool) : Nat :=
  if x = 0 then signBit f zeroSign else roundFl f (decide (x < 0)) x.natAbs e false

/-- A signed significand. -/
def signedOf (s : Bool) (m : Nat) : Int := if s then -(m : Int) else m

/-- The exact sum of two values rounded once: −0 only when both are zeros of that sign, as IEEE 754 rounds to nearest. -/
def addFl (f : FpFmt) : Fl → Fl → Nat
  | .nan, _ => nanOf f
  | _, .nan => nanOf f
  | .inf s, .inf t => if s = t then infOf f s else nanOf f
  | .inf s, _ => infOf f s
  | _, .inf t => infOf f t
  | .num s m e, .num t n g =>
    let l := min e g
    roundSum f (signedOf s m * 2 ^ (e - l).toNat + signedOf t n * 2 ^ (g - l).toNat) l (s && t && m == 0 && n == 0)

/-- The exact product of two values, as a value. -/
def mulFl : Fl → Fl → Fl
  | .nan, _ => .nan
  | _, .nan => .nan
  | .inf s, .inf t => .inf (s != t)
  | .inf s, .num t n _ => if n = 0 then .nan else .inf (s != t)
  | .num s m _, .inf t => if m = 0 then .nan else .inf (s != t)
  | .num s m e, .num t n g => .num (s != t) (m * n) (e + g)

/-- A value rounded to a format. -/
def packFl (f : FpFmt) : Fl → Nat
  | .nan => nanOf f
  | .inf s => infOf f s
  | .num s m e => roundFl f s m e false

/-- The quotient correctly rounded. -/
def divFl (f : FpFmt) : Fl → Fl → Nat
  | .nan, _ => nanOf f
  | _, .nan => nanOf f
  | .inf _, .inf _ => nanOf f
  | .inf s, .num t _ _ => infOf f (s != t)
  | .num s _ _, .inf t => signBit f (s != t)
  | .num s m e, .num t n g =>
    if n = 0 then (if m = 0 then nanOf f else infOf f (s != t))
    else if m = 0 then signBit f (s != t)
    else
      let k := f.mb + 4 + bitlen n
      let a := m * 2 ^ k
      roundFl f (s != t) (a / n) (e - g - k) (decide (a % n ≠ 0))

/-- The square root correctly rounded. -/
def sqrtFl (f : FpFmt) : Fl → Nat
  | .nan => nanOf f
  | .inf s => if s then nanOf f else infOf f false
  | .num s m e =>
    if m = 0 then signBit f s
    else if s then nanOf f
    else
      let k := 2 * f.mb + 8
      let (a, g) := if (e - k) % 2 = 0 then (m * 2 ^ k, e - k) else (m * 2 ^ (k + 1), e - k - 1)
      let q := Nat.sqrt a
      roundFl f false q (g / 2) (decide (q * q ≠ a))

/-- An encoding is a NaN or an infinity. -/
def notFinite (f : FpFmt) (v : Nat) : Bool := bits v (f.eb + f.mb - 1) f.mb == 2 ^ f.eb - 1

/-- An encoding is a NaN. -/
def isNan (f : FpFmt) (v : Nat) : Bool := notFinite f v && v % 2 ^ f.mb != 0

/-- The order of two encodings that are no NaN: −0 below +0 (R185). -/
def flLt (f : FpFmt) (a b : Nat) : Bool :=
  let w := f.eb + f.mb
  match bit a w, bit b w with
  | true, false => true
  | false, true => false
  | true, true => decide (b % 2 ^ w < a % 2 ^ w)
  | false, false => decide (a % 2 ^ w < b % 2 ^ w)

/-! ### The operations of the vector engine, in binary32 (R185) -/

/-- An FP32 lane's value. -/
def f32 (v : Nat) : Fl := flOf fp32 v

/-- The sign of an FP32 lane flipped. -/
def neg32 (v : Nat) : Nat := if bit v 31 then v - 2 ^ 31 else v + 2 ^ 31

/-- The magnitude of an FP32 lane. -/
def abs32 (v : Nat) : Nat := v % 2 ^ 31

def add32 (a b : Nat) : Nat := addFl fp32 (f32 a) (f32 b)
def sub32 (a b : Nat) : Nat := add32 a (neg32 b)
def mul32 (a b : Nat) : Nat := packFl fp32 (mulFl (f32 a) (f32 b))
def fma32 (a b c : Nat) : Nat := addFl fp32 (mulFl (f32 a) (f32 b)) (f32 c)
def div32 (a b : Nat) : Nat := divFl fp32 (f32 a) (f32 b)
def sqrt32 (a : Nat) : Nat := sqrtFl fp32 (f32 a)

/-- The larger of two lanes, NaN if either is. -/
def max32 (a b : Nat) : Nat := if isNan fp32 a ∨ isNan fp32 b then nanOf fp32 else if flLt fp32 a b then b else a

/-- The smaller of two lanes, NaN if either is. -/
def min32 (a b : Nat) : Nat := if isNan fp32 a ∨ isNan fp32 b then nanOf fp32 else if flLt fp32 b a then b else a

/-- VSIGN: +1.0, −1.0, +0 for either zero, NaN for NaN. -/
def sign32 (a : Nat) : Nat :=
  if isNan fp32 a then nanOf fp32 else if abs32 a = 0 then 0 else if bit a 31 then 0xBF800000 else 0x3F800000

/-- One level of the reduction tree: neighbours joined. -/
def joinPairs (op : Nat → Nat → Nat) : List Nat → List Nat
  | a :: b :: r => op a b :: joinPairs op r
  | l => l

/-- tree of R185 over 1,024 lanes. -/
def tree (op : Nat → Nat → Nat) (l : List Nat) : Nat := (iter (joinPairs op) 10 l).headD 0

/-! ### Conversions of stored elements (R181, R182) -/

/-- A decoded value as a signed significand and exponent, for round_fp. -/
def Dec.signed (d : Dec) : Int × Int := d.num

/-- An element decoded by R29 into an FP32 lane (R181). -/
def toLane (code raw : Nat) : Nat :=
  match decode code ⟨raw, 0⟩ with
  | .nan => nanOf fp32
  | .inf s => infOf fp32 s
  | d => (roundFp fp32 d.num.1 d.num.2).1

/-- A finite lane of an accumulation format converted to a storage format, with saturation (R182); to FP64 it is written exactly,
the sign of a zero with it (R200). -/
def toStorage (acc : FpFmt) (code lane : Nat) : Nat × Bool :=
  if code = 0x20 ∧ acc.mb = 52 then (lane, false)
  else if code = 0x20 ∧ lane = 2 ^ 31 then (2 ^ 63, false)
  else match fpFmt code with
    | some f => let d := (decodeFp acc lane).num; roundFp f d.1 d.2
    | none => (0, false)

end Sys2Proof.Machine
end

