-- ==== Sys2Proof/Machine/GraphBase.lean ====
section
/-!
DEFINITION. Tensors and where they live (spec/06 R167-R171, spec/08 R220, R221, R225), and the parts of a graph found and
set (spec/06 R173, R195).
-/
namespace Sys2Proof.Machine

/-! ### Tensors found and set -/

/-- A tensor by its handle, where it is admitted. -/
def State.tensor? (s : State) (h : Nat) : Option Tensor :=
  match s.graphs.tensors.get? h with
  | some t => if t.admitted then some t else none
  | none => none

/-- A tensor set. -/
def State.setTensor (s : State) (t : Tensor) : State :=
  { s with graphs := { s.graphs with tensors := s.graphs.tensors.set t.handle t } }

/-- Stripes of a tensor. -/
def Tensor.count (t : Tensor) : Nat := ceilDiv t.elements 1024

/-- Elements of a stripe. -/
def Tensor.present (t : Tensor) (k : Nat) : Nat := min 1024 (t.elements - 1024 * k)

/-- Bytes of a stored element. -/
def Tensor.size (t : Tensor) : Nat := elemBits t.fmt / 8

/-- The band of a stripe of a WHOLE tensor (R170). -/
def Tensor.band (t : Tensor) (k : Nat) : Nat := 1024 * k / (128 * t.cols)

/-- What a stripe holds before anything has been written to it: +0 in both copies. -/
def Tensor.zeroStripe (t : Tensor) (k : Nat) : Stripe :=
  let z : Copy := { ver := t.base, vals := List.replicate (t.present k) 0 }
  { c0 := z, c1 := z }

/-- A stripe. -/
def Tensor.stripe (t : Tensor) (k : Nat) : Stripe := t.stripes.getD k (t.zeroStripe k)

/-- A stripe set; one equal to what is unlisted leaves nothing listed. -/
def Tensor.putStripe (t : Tensor) (k : Nat) (v : Stripe) : Tensor :=
  { t with stripes := if v = t.zeroStripe k then t.stripes.del k else t.stripes.set k v }

/-- The committed copy, and the other. -/
def Stripe.cur (x : Stripe) : Copy := if x.second then x.c1 else x.c0
def Stripe.other (x : Stripe) : Copy := if x.second then x.c0 else x.c1

/-- The stripe is LOST (R234). -/
def Stripe.lost (x : Stripe) : Bool := !x.cur.ok

/-- The other copy set. -/
def Stripe.putOther (x : Stripe) (c : Copy) : Stripe := if x.second then { x with c0 := c } else { x with c1 := c }

/-- The committed copy set. -/
def Stripe.putCur (x : Stripe) (c : Copy) : Stripe := if x.second then { x with c1 := c } else { x with c0 := c }

/-- Stripes now LOST (R240 Table 7). -/
def State.stripesLost (s : State) : Nat :=
  s.graphs.tensors.foldl (fun a (x : Nat × Tensor) =>
    a + (x.2.stripes.filter (fun (y : Nat × Stripe) => y.2.lost)).length) 0

/-! ### Where tensors live (R169, R170) -/

/-- The effective home set of an operation held here. -/
def State.hsetOf (s : State) (op : Nat) : List Nat :=
  match s.ctxOf op with
  | some c => match s.coll.ctxs.get? c with
    | some x => x.hset
    | none => []
  | none => []

/-- The owner of a WHOLE tensor (R170); 0xFFFFFF for none. -/
def State.ownerOf (s : State) (t : Tensor) : Nat := (homes t.op 3 (t.handle % 65536) (s.hsetOf t.op)).1

/-- The device that holds a stripe (R169, R170). -/
def State.holderOf (s : State) (t : Tensor) (k : Nat) : Nat :=
  if t.cls = 1 then s.ownerOf t else (homes t.op 0 (t.first + k) (s.hsetOf t.op)).1

/-- The die of a band at the owner (R170). -/
def State.bandDie (s : State) (t : Tensor) (b : Nat) : Nat :=
  let d := s.quires
  let d0 := match (s.candidates t.op 3 (t.handle % 65536)).1 with
    | some q => d.idxOf q
    | none => 0
  d.getD ((d0 + b) % d.length) 0

/-- The quire die of a stripe at the device that holds it. -/
def State.stripeDie (s : State) (t : Tensor) (k : Nat) : Nat :=
  if t.cls = 1 then s.bandDie t (t.band k) else ((s.candidates t.op 0 (t.first + k)).1).getD 0

/-- The stack of copy `x` of a stripe (R169, R170, R225). -/
def State.copyStack (s : State) (t : Tensor) (k x : Nat) : Nat :=
  let q := s.stripeDie t k
  let h := 2 * q + ((if t.cls = 1 then t.band k else t.first + k) + x) % 2
  if s.stackUp h then h else 2 * q + (1 - h % 2)

/-- The stripes this device holds, ascending. -/
def State.heldStripes (s : State) (t : Tensor) : List Nat :=
  (List.range t.count).filter (fun k => s.holderOf t k == s.gei)

/-- The stripes this device holds at a die. -/
def State.dieStripes (s : State) (t : Tensor) (q : Nat) : List Nat :=
  (s.heldStripes t).filter (fun k => s.stripeDie t k == q)

/-! ### The update-state partition (R171, R220, R221) -/

/-- A stack's share of the update-state partition. -/
def State.stateShare (s : State) (h : Nat) : Nat :=
  if s.stackUp h then 96 * gib - share (s.rd E.spillGib 0) h - share (s.rd E.spawnGib 0) h - share (s.rd E.sampleGib 0) h else 0

/-- Bytes of the partition in use: both copies of the tensors, scratch areas, parity pages. -/
def State.stateUsed (s : State) : Nat :=
  s.graphs.tensors.foldl (fun a (x : Nat × Tensor) => a + x.2.bytes) 0
    + s.graphs.slots.foldl (fun a (x : Nat × Graph) => a + x.2.scratch) 0
    + s.graphs.parity.foldl (fun a (x : Nat × Parity) => a + (if x.2.pgei = s.gei then 2 * 4096 * x.2.pages else 0)) 0

/-- Free bytes of the update-state partition. -/
def State.stateFree (s : State) : Nat := (List.range 20).foldl (fun a h => a + s.stateShare h) 0 - s.stateUsed

/-- Stripes this device has come to hold, as another left the home set, hold nothing: they are LOST (log 8). -/
def State.gainLost (s before : State) (op : Nat) : State :=
  s.graphs.tensors.foldl (fun (s : State) (x : Nat × Tensor) =>
    let t := x.2
    if t.op ≠ op ∨ !t.admitted ∨ t.cls = 2 then s
    else
      let had := before.heldStripes t
      let gone : Copy := { ver := t.version, vals := [], ok := false }
      s.setTensor (((s.heldStripes t).filter (fun k => !had.contains k)).foldl
        (fun (t : Tensor) k => t.putStripe k { c0 := gone, c1 := gone }) t)) s

/-- Bytes both copies of this device's share of a tensor take (R168). -/
def State.shareBytes (s : State) (t : Tensor) : Nat :=
  if t.cls = 2 then 0 else 2 * 1024 * t.size * (s.heldStripes t).length

/-! ### What a job holds (R449) -/

/-- Tensors, bytes of the update-state partition, graphs and parity groups of a job. -/
def State.jobTensors (s : State) (job : Nat) : List (Nat × Tensor) :=
  s.graphs.tensors.filter (fun (x : Nat × Tensor) => x.1 / 65536 == job)
def State.jobBytes (s : State) (job : Nat) : Nat := (s.jobTensors job).foldl (fun a (x : Nat × Tensor) => a + x.2.bytes) 0
def State.jobGraphs (s : State) (job : Nat) : List (Nat × Graph) :=
  s.graphs.slots.filter (fun (x : Nat × Graph) => x.2.id / 65536 == job)
def State.jobParity (s : State) (job : Nat) : List (Nat × Parity) :=
  s.graphs.parity.filter (fun (x : Nat × Parity) => x.2.job == job)

/-! ### Graphs found and set -/

/-- GRAPH_STATE's values (R195). -/
def gsFree : Nat := 0
def gsPrepared : Nat := 1
def gsWaiting : Nat := 2
def gsRunning : Nat := 3
def gsFenced : Nat := 4
def gsHalted : Nat := 5

/-- The slot and graph of a graph ID. -/
def State.graphOf (s : State) (id : Nat) : Option (Nat × Graph) :=
  s.graphs.slots.find? (fun (x : Nat × Graph) => x.2.id == id)

/-- A resident graph, not merely prepared. -/
def State.resident (s : State) (id : Nat) : Option (Nat × Graph) :=
  s.graphs.slots.find? (fun (x : Nat × Graph) => x.2.id == id && x.2.state != gsPrepared)

/-- The graph bound to an operation. -/
def State.boundTo (s : State) (op : Nat) : Option (Nat × Graph) :=
  s.graphs.slots.find? (fun (x : Nat × Graph) => x.2.op == op)

/-- A graph set in its slot, with the entries that show it. -/
def State.setGraph (s : State) (n : Nat) (g : Graph) : State :=
  let s := { s with graphs := { s.graphs with slots := s.graphs.slots.set n g } }
  let s := ((s.wr E.graphId n g.id).wr E.graphState n g.state).wr E.version n g.version
  s.wr E.runInstance n (match g.run with
    | some r => r.inst
    | none => g.next)

/-- A graph changed by a function. -/
def State.modGraph (s : State) (n : Nat) (f : Graph → Graph) : State :=
  match s.graphs.slots.get? n with
  | some g => s.setGraph n (f g)
  | none => s

/-- A run changed by a function. -/
def State.modRun (s : State) (n : Nat) (f : Run → Run) : State :=
  s.modGraph n (fun (g : Graph) => { g with run := g.run.map f })

/-- A graph's slot emptied. -/
def State.dropGraph (s : State) (n : Nat) : State :=
  let s := { s with graphs := { s.graphs with slots := s.graphs.slots.del n } }
  let s := (((s.wr E.graphId n 0).wr E.graphState n 0).wr E.version n 0).wr E.runInstance n 0
  (s.wr E.fault n 0).wr E.subnormalMode n 0

/-- The tensor a node's domain names. -/
def State.domain (s : State) (g : Graph) (i : Nat) : Option Tensor :=
  if i = 0xFFFF then none else s.tensor? (g.id / 65536 * 65536 + i)

/-- A node of a graph. -/
def Graph.node (g : Graph) (i : Nat) : Option GNode := g.nodes[i]?

/-- The generation of the job an operation belongs to. -/
def State.opGen (s : State) (op : Nat) : Nat :=
  match s.ctxOf op with
  | some c => match s.coll.ctxs.get? c with
    | some x => x.gen
    | none => 0
  | none => 0

/-- The lowest-numbered quire die in service. -/
def State.firstDie (s : State) : Nat := s.quires.headD 0

/-! ### Update transfer (R178, R438) -/

/-- An UPDATE message: a held result (kind 0) or a committed stripe (kind 1), elements padded to 1,024 (R488). -/
def State.sendUpdate (s : State) (dest kind fmt key num idx : Nat) (vals : List Nat) : State :=
  s.sendPeer dest 9 (toBytes 1 kind ++ toBytes 1 fmt ++ toBytes 2 0 ++ toBytes 4 key ++ toBytes 4 num ++ toBytes 4 idx
    ++ (vals ++ List.replicate (1024 - vals.length) 0).flatMap (fun v => toBytes (elemBits fmt / 8) v))

/-- The WHOLE tensors of a graph whose gradients a chunk holds. -/
def State.wholeReaders (s : State) (g : Graph) (chunk : Nat) : List Tensor :=
  (g.nodes.filter (fun (x : GNode) => x.kind == 1)).filterMap (fun (x : GNode) => match s.domain g x.domain with
    | some t => if t.cls = 1 ∧ t.first ≤ chunk ∧ chunk < t.first + t.count then some t else none
    | none => none)

/-- The key of a result received by update transfer. -/
def gradKey (inst chunk : Nat) : Nat := inst * 2 ^ 32 + chunk

/-- A result held at the h1 of its chunk is sent to each owner of a WHOLE domain that reads it (R178). -/
def State.passResult (s : State) (op inst chunk fmt : Nat) (vals : List Nat) : State :=
  match s.boundTo op with
  | none => s
  | some (_, g) =>
    let owners := (s.wholeReaders g chunk).foldl (fun l t => insertNat (s.ownerOf t) l) []
    (owners.filter (fun d => d != s.gei)).foldl (fun (s : State) d => s.sendUpdate d 0 fmt op inst chunk vals) s

/-- A result received by update transfer kept for its graph. -/
def State.keepGrad (s : State) (op inst chunk : Nat) (lanes : List Nat) : State :=
  match s.boundTo op with
  | none => s
  | some (n, _) => s.modGraph n (fun (g : Graph) => { g with grads := g.grads.set (gradKey inst chunk) lanes })

/-- A chunk of a REDUCE_TO_UPDATE operation has its result: one completed at h2 goes to its h1, which holds it; one held
at h1 goes to the owners that read it (R178). -/
def State.resultHeld (s : State) (op inst chunk h1 : Nat) (bypassIn : Bool) (fmt : Nat) (vals : List Nat) : State :=
  if bypassIn then s.sendUpdate h1 0 fmt op inst chunk vals
  else s.passResult op inst chunk fmt vals

end Sys2Proof.Machine
end

