-- ==== Sys2Proof/Machine/SpawnBase.lean ====
section
/-!
DEFINITION. Spawn sessions: found and set, blocks that are lost, fills, cover maps and their acknowledgement (spec/16
R459-R466, spec/08 R234), and the writes of stripes that a fill shares with TENSOR_IO (spec/06 R172).
-/
namespace Sys2Proof.Machine

/-- The key of a session: its job and number. -/
def spawnKey (job number : Nat) : Nat := job * 65536 + number

/-- A session by its job and number. -/
def State.session? (s : State) (job number : Nat) : Option Session := s.spawns.get? (spawnKey job number)

/-- A session set. -/
def State.setSession (s : State) (x : Session) : State := { s with spawns := s.spawns.set (spawnKey x.job x.number) x }

/-- Blocks missing below the highest cached (R462). -/
def Session.missing (x : Session) : List Nat :=
  match x.high with
  | some h => if x.cache then (List.range h).filter (fun b => (x.data.get? b).isNone) else []
  | none => []

/-- Each missing block has the time at which it is asked of the parent next: 200 µs after its gap appeared (R462). -/
def Session.settle (x : Session) (t : Time) : Session :=
  { x with asks := x.missing.map (fun b => (x.asks.find? (fun y => y.1 == b)).getD (b, t + 200 * us)) }

/-- Cached blocks of every session that a test picks are lost, and counted (R234, R462). -/
def State.loseBlocks (s : State) (gone : Nat → Nat → Nat → Bool) : State :=
  let n := s.spawns.foldl (fun a (x : Nat × Session) =>
    a + (x.2.data.filter (fun (b : Nat × Nat × List Byte) => gone x.1 b.1 b.2.1)).length) 0
  let s := { s with spawns := s.spawns.map (fun (x : Nat × Session) =>
    (x.1, ({ x.2 with data := x.2.data.filter (fun (b : Nat × Nat × List Byte) => !gone x.1 b.1 b.2.1) } : Session).settle s.now)) }
  if n = 0 then s else s.bump E.spawnBlocksLost 0 n

/-! ### Stripes written (R172, R439) -/

/-- The handles of the tensors a graph names. -/
def Graph.names (g : Graph) : List Nat :=
  g.nodes.foldl (fun l (x : GNode) => if x.domain = 0xFFFF then l else insertNat (g.id / 65536 * 65536 + x.domain) l) []

/-- The tensors a graph stores. -/
def Graph.stored (g : Graph) : List Nat := (g.nodes.filter (fun (x : GNode) => x.kind == 3)).map (fun (x : GNode) => g.id / 65536 * 65536 + x.domain)

/-- The graph that stores a tensor; 0 for none. -/
def State.storerOf (s : State) (h : Nat) : Nat :=
  match s.graphs.slots.find? (fun (x : Nat × Graph) => x.2.id / 65536 == h / 65536 && x.2.stored.contains h) with
  | some x => x.2.id
  | none => 0

/-- A stripe has been restored approximately: the flag of the graph that stores its tensor, and its notice (R439). -/
def State.markInexact (s : State) (h : Nat) : State :=
  match s.graphs.slots.find? (fun (x : Nat × Graph) => x.2.id / 65536 == h / 65536 && x.2.stored.contains h) with
  | some (n, g) => if s.rd E.inexact n = 0 then (s.wr E.inexact n 1).raise 0x9010 1 31 [.v 32 g.id, .v 32 h] else s
  | none => s

/-- The tensor's graph has a run in progress (R172). -/
def State.tensorBusy (s : State) (h : Nat) : Bool :=
  s.graphs.slots.any (fun (x : Nat × Graph) => x.2.names.contains h && x.2.run.isSome)

/-- A stripe of the committed copy written from FP32 values, converted by R182; the version stays (R172).  A LOST stripe is
restored (R234). -/
def State.writeStripe (s : State) (t : Tensor) (k : Nat) (vals : List Nat) : State :=
  let cs := (vals.take (t.present k)).map (toStorage fp32 t.fmt)
  let s := s.bump E.storeSaturated 0 (cs.filter (fun (c : Nat × Bool) => c.2)).length
  s.setTensor (t.putStripe k ((t.stripe k).putCur { ver := t.version, vals := cs.map (·.1), ok := true }))

/-- The generation of a job's tag. -/
def State.jobGen (s : State) (job : Nat) : Nat := match s.jobs.get? job with
  | some j => j.gen
  | none => 0

/-! ### Spawn messages (R460) -/

/-- A spawn body (Table 9) but for its check. -/
def spawnBody (kind session seq count first ranks bytes : Nat) : Nat :=
  pack [(4, 1), (4, kind), (16, session), (32, seq), (32, count), (18, first), (19, ranks), (3, 0), (13, bytes), (51, 0), (64, 0)]

/-- A spawn frame of a job; a job that is RETIRING sends none (R445). -/
def State.sendSpawn (s : State) (job dest body : Nat) (payload : List Byte) : State :=
  match s.jobs.get? job with
  | some j => if j.state = .active then s.originate (s.mgmtFrame job j.gen dest 4 1 (toBytes 32 body ++ payload)) else s
  | none => s

/-- Bytes of a session's block. -/
def Session.bytes (x : Session) (b : Nat) : Nat := if b + 1 = x.blocks then x.last else 4096

/-- The body of a BLOCK, its check with it (R460). -/
def blockBody (session b : Nat) (payload : List Byte) : Nat :=
  let v := spawnBody 1 session b 0 0 0 payload.length
  v + crc64 ((toBytes 32 v).take 24 ++ payload)

/-- A cached block sent to one device (R462, R465). -/
def State.serveBlock (s : State) (x : Session) (b dest : Nat) : State :=
  match x.data.get? b with
  | some d => (s.sendSpawn x.job dest (blockBody x.number b d.2) d.2).bump E.blocksServed 0 1
  | none => s

/-! ### Cover maps (R464) -/

/-- Ranges of ranks with one more, joined where they touch; rising and apart. -/
def joinRange : List (Nat × Nat) → Nat × Nat → List (Nat × Nat)
  | [], x => if x.2 = 0 then [] else [x]
  | y :: r, x =>
    if x.2 = 0 then y :: r
    else if x.1 + x.2 < y.1 then x :: y :: r
    else if y.1 + y.2 < x.1 then y :: joinRange r x
    else joinRange r (min x.1 y.1, max (x.1 + x.2) (y.1 + y.2) - min x.1 y.1)

/-- The contiguous ranges of a session's map: its subtree and the adopted ranges. -/
def Session.map (x : Session) : List (Nat × Nat) :=
  x.adopted.foldl (fun l (a : Nat × Nat × Nat) => joinRange l (a.1, a.2.1)) (joinRange [] (x.first, x.count))

/-- Every rank of a range is covered. -/
def Session.covers (x : Session) (r : Nat × Nat) : Bool :=
  x.cover.any (fun c => decide (c.1 ≤ r.1) && decide (r.1 + r.2 ≤ c.1 + c.2))

/-- Ranks of the map that are covered. -/
def Session.covered (x : Session) : Nat :=
  x.map.foldl (fun a r => x.cover.foldl (fun a c => a + (min (r.1 + r.2) (c.1 + c.2) - max r.1 c.1)) a) 0

/-! ### Fills (R466) -/

/-- The blocks that a session's fill writes here. -/
def State.fillBlocks (s : State) (x : Session) : List Nat :=
  match s.tensor? x.tensor with
  | some t => ((s.heldStripes t).filter (fun k => decide (x.fillFirst ≤ k) && decide (k < x.fillFirst + x.blocks))).map
      (fun k => k - x.fillFirst)
  | none => []

/-- The fill has written every stripe of the image's range that is held here. -/
def State.fillDone (s : State) (x : Session) : Bool := (s.fillBlocks x).all (fun b => x.filled.contains b)

/-- A cached block written into its stripe, as TENSOR_IO would, unless a run of the tensor's graph is in progress. -/
def State.fillBlock (s : State) (x : Session) (b : Nat) : State :=
  match s.tensor? x.tensor, x.data.get? b with
  | some t, some d =>
    let vals := (List.range 1024).map (fun i => field d.2 (4 * i) 4)
    if s.tensorBusy x.tensor ∨ vals.any (notFinite fp32) then s
    else
      let k := x.fillFirst + b
      let lost := (t.stripe k).lost
      let s := s.writeStripe t k vals
      let s := if lost then s.markInexact x.tensor else s
      s.setSession { x with filled := insertNat b x.filled }
  | _, _ => s

/-- Blocks of a session that can now be written are. -/
def State.fillSession (s : State) (key : Nat) : State :=
  match s.spawns.get? key with
  | some x => if !x.fill then s
    else (s.fillBlocks x).foldl (fun (s : State) b => match s.spawns.get? key with
      | some y => if y.filled.contains b then s else s.fillBlock y b
      | none => s) s
  | none => s

/-- Covered ranges acknowledged upward; the whole map acknowledged completes the session (R464). -/
def State.ackSession (s : State) (key : Nat) : State :=
  match s.spawns.get? key with
  | none => s
  | some x =>
    if x.fill ∧ !s.fillDone x then s
    else
      let due := x.map.filter (fun r => x.covers r && !x.acked.contains r)
      if due.isEmpty then s
      else
        let s := due.foldl (fun (s : State) r => s.sendSpawn x.job x.parent (spawnBody 3 x.number 0 0 r.1 r.2 0) []) s
        let x := { x with acked := x.acked ++ due }
        if x.map.all (fun r => x.acked.contains r) then
          (s.setSession { x with doneAt := s.now }).raise 0x701B 0 31
            [.v 16 x.job, .v 8 (s.jobGen x.job), .v 16 x.number, .v 32 x.covered]
        else s.setSession x

/-- A run has ended: the fills that waited for it go on (R466). -/
def State.refill (s : State) : State :=
  s.spawns.foldl (fun (s : State) (x : Nat × Session) => if x.2.fill then (s.fillSession x.1).ackSession x.1 else s) s

end Sys2Proof.Machine
end

