-- ==== Sys2Proof/Machine/RunAbort.lean ====
section
/-!
DEFINITION. How a graph's run ends without a commit (spec/06 R193, R189), what an instance's abort does to the graph bound to it,
and an operation's end to its tensors' stripes (spec/03 R70).
-/
namespace Sys2Proof.Machine

/-- The other devices of a graph's effective home set. -/
def State.graphPeers (s : State) (g : Graph) : List Nat := (s.hsetOf g.op).filter (fun d => d != s.gei)

/-- A fence report sent to every other device, for the version the run would commit (R189, R488). -/
def State.sendFence (s : State) (g : Graph) (ok : Bool) : State :=
  let body := toBytes 4 g.id ++ toBytes 4 (g.version + 1) ++ toBytes 1 (if ok then 0 else 1) ++ toBytes 3 0
  (s.graphPeers g).foldl (fun (s : State) d => s.sendPeer d 8 body) s

/-- The outcome of a run told to the parity devices that hold this device's round of it (R436 step 5). -/
def State.tellParity (s : State) (g : Graph) (kind : Nat) : State :=
  s.graphs.parity.foldl (fun (s : State) (x : Nat × Parity) =>
    let p := x.2
    if p.admitted ∧ p.job = g.id / 65536 ∧ p.graph = g.id % 65536 ∧ p.data.contains s.gei ∧ p.round = some (g.version + 1) then
      let q := { p with round := none, doneFor := none, state := if kind = 1 ∧ p.state ≠ 2 then (if p.doneFor = p.round then 0 else 1) else p.state,
                        committed := if kind = 1 ∧ p.doneFor = p.round then p.round else p.committed }
      let s := { s with graphs := { s.graphs with parity := s.graphs.parity.set x.1 q } }
      s.sendPeer p.pgei 11 (toBytes 1 kind ++ toBytes 1 p.group ++ toBytes 2 p.job ++ toBytes 4 (g.version + 1))
    else s) s

/-- The copies a run wrote and did not commit hold no version. -/
def State.voidCopies (s : State) (g : Graph) : State :=
  g.stored.foldl (fun (s : State) h => match s.graphs.tensors.get? h with
    | some t => s.setTensor { t with stripes := t.stripes.map (fun (x : Nat × Stripe) =>
        if x.2.other.ver = g.version + 1 then (x.1, x.2.putOther { x.2.other with ok := false }) else x) }
    | none => s) s

/-- The tiles of a graph taken from every array (R214, R216). -/
def State.dropTiles (s : State) (slot : Nat) : State :=
  let s := { s with graphs := { s.graphs with arrays := s.graphs.arrays.map (fun (x : Nat × MatArray) =>
    (x.1, { x.2 with last := if (x.2.tiles ++ x.2.ahead).any (fun (y : Tile) => y.slot == slot) then s.now else x.2.last,
                     tiles := x.2.tiles.filter (fun (y : Tile) => y.slot != slot),
                     ahead := x.2.ahead.filter (fun (y : Tile) => y.slot != slot) })) } }
  s.graphs.arrays.foldl (fun (s : State) x => if x.2.tiles.isEmpty then s.wr E.arrayDataflow x.1 0 else s) s

/-- Everything but the held chunks that a run's abort does (R193).  `byInst` says that the run's instance caused it.  FAIL goes out
unless this device's report of the run has been sent (R189); the reports of others that have not come are owed. -/
def State.stopRun (s : State) (n cause node : Nat) (byInst : Bool) : State :=
  match s.graphs.slots.get? n with
  | none => s
  | some g =>
    let inst := match g.run with
      | some r => r.inst
      | none => g.next
    let told : Bool := match g.run with
      | some r => r.sent
      | none => false
    let s := if told then s else s.sendFence g false
    let s := (s.voidCopies g).tellParity g 2
    let s := s.dropTiles n
    let s := (s.bump E.runsAborted 0 1).raise 0x8004 2 31 [.v 32 g.id, .v 8 inst, .v 8 cause, .v 16 node]
    let halt := !(byInst && g.auto)
    let held := g.reports.filter (fun (x : Nat × Nat × Bool) => x.2.1 == g.version + 1)
    let owed := g.owed ++ (s.graphPeers g).filter (fun d => !held.any (fun (x : Nat × Nat × Bool) => x.1 == d))
    let s := s.setGraph n { g with
      state := if halt then gsHalted else gsWaiting, run := none, next := (inst + 1) % 256,
      msgs := g.msgs.filter (fun (m : GMsg) => m.inst != inst),
      reports := g.reports.filter (fun (x : Nat × Nat × Bool) => x.2.1 != g.version + 1), owed := owed,
      grads := g.grads.filter (fun (x : Nat × List Nat) => x.1 / 2 ^ 32 != inst) }
    (if halt then s.raise 0x8008 1 31 [.v 32 g.id, .v 8 inst, .v 8 cause] else s).refill

/-- Runs whose instance aborted before they could start are aborted in their turn (R193; log 67); one whose result was lost
(256 + cause) fails and halts its graph (R234). -/
def State.passSkipped : Nat → State → Nat → State
  | 0, s, _ => s
  | f + 1, s, n => match s.graphs.slots.get? n with
    | none => s
    | some g =>
      if g.state = gsWaiting ∧ g.run.isNone then
        match g.skip.find? (fun (x : Nat × Nat) => x.1 == g.next) with
        | some x =>
          let s := s.modGraph n (fun (h : Graph) => { h with skip := h.skip.filter (fun (y : Nat × Nat) => y.1 != x.1) })
          let s := if x.2 < 256 then s else s.wr E.fault n (x.2 % 256)
          State.passSkipped f (s.stopRun n (x.2 % 256) 0 (decide (x.2 < 256))) n
        | none => s
      else s

/-- An instance of an operation has aborted here: the run that uses it aborts, or is passed over in its turn (R193). -/
def State.instanceAborted (s : State) (op inst reason : Nat) : State :=
  match s.boundTo op with
  | none => s
  | some (n, g) =>
    if g.state = gsPrepared then s
    else
      let mine : Bool := match g.run with
        | some r => r.inst == inst
        | none => false
      let s := if mine then s.stopRun n reason 0 true
        else if (inst + 256 - g.next) % 256 < 128 then
          s.modGraph n (fun (h : Graph) => { h with skip := h.skip ++ [(inst, reason)] })
        else s
      s.passSkipped 256 n

/-- A device excluded from an operation's home set releases the stripes of its tensors, and the graph bound to it. -/
def State.stripesReleased (s : State) (op : Nat) : State :=
  let s := { s with graphs := { s.graphs with tensors := s.graphs.tensors.filter (fun (x : Nat × Tensor) => x.2.op != op) } }
  match s.boundTo op with
  | some (n, _) => (s.dropTiles n).dropGraph n
  | none => s

end Sys2Proof.Machine
end

