-- ==== Sys2Proof/Machine/Instances.lean ====
section
/-!
DEFINITION. Instances at a home: opening, completion and its exchange, abort (spec/03 R73-R75, R574, R93-R97, spec/02
R36-R40, spec/15 R416, R424-R427).
-/
namespace Sys2Proof.Machine

/-! ### Numbers and anchors (R36, R74) -/

/-- How a frame's instance number stands to the open instance (R74). -/
inductive Ahead where
  | isOpen
  | next
  | ahead
  | late
  deriving DecidableEq

/-- The case of R74 a number falls in. -/
def Ctx.stands (c : Ctx) (i : Nat) : Ahead :=
  let d := (i + 256 - c.opn) % 256
  if d = 0 then .isOpen else if d = 1 then .next else if d < 128 then .ahead else .late

/-- The fixed anchor in force at a time: the last write that committed at or before it (R36); `writes` is newest
first and its last element is the descriptor's. -/
def anchorAt (w : List (Time × Int)) (t : Time) (dflt : Int) : Int :=
  match w.find? (fun (x : Time × Int) => decide (x.1 ≤ t)) with
  | some x => x.2
  | none => dflt

/-- The anchor contributions of an instance must carry at an ingress stamp (R35, R36, R38). -/
def Ctx.anchorFor (c : Ctx) (i : Option Inst) (stamp : Time) : Int :=
  if c.reg.zeroAnchor then 0
  else match i with
    | some x => match x.anchor with
      | some a => a
      | none => anchorAt c.writes stamp c.reg.ar.anchor
    | none => if c.reg.auto then c.anchorNext else anchorAt c.writes stamp c.reg.ar.anchor

/-! ### Freeing what a chunk holds -/

/-- A chunk's SRAM slots, stack slots and bookkeeping returned (R130). -/
def State.freeChunk (s : State) (k : Chunk) : State :=
  let s := k.slots.foldl (fun s q => s.freeSlot k.die q) s
  let s := k.inStacks.foldl (fun s h => s.returnSpill h slotBytes) s
  s.returnSpill k.bookAt k.book

/-- What an instance holds returned: its chunks' space and that of its stored results (R122, R130, R146). -/
def State.freeInst (s : State) (i : Inst) : State :=
  let s := i.chunks.foldl (fun (s : State) k => s.freeChunk k) s
  i.results.foldl (fun (s : State) (y : Result) => s.returnSpill y.stack y.bytes) s

/-- A chunk gone from its instance. -/
def State.endChunk (s : State) (c n : Nat) (k : Chunk) : State :=
  (s.freeChunk k).modInst c n (fun (i : Inst) => { i with chunks := dropChunk i.chunks k.phase k.chunk })

/-- The records of an instance that have not been emitted are discarded (R425 step 1). -/
def State.dropRecords (s : State) (c n : Nat) : State :=
  { s with coll := { s.coll with records := s.coll.records.map (fun (x : Nat × List QRec) =>
    (x.1, x.2.filter (fun (r : QRec) => !(r.ctx == c && r.inst == n)))) } }

/-- The number of ended instances passed: the open instance is the first that is absent or open (R74). -/
def Ctx.advance : Nat → Ctx → Ctx
  | 0, c => c
  | f + 1, c => match findInst c.insts c.opn with
    | some i => if i.state = .opened then c else Ctx.advance f { c with opn := (c.opn + 1) % 256 }
    | none => c

/-- An instance is kept: an open one, the last ended, and one whose COMPLETE is still to be sent, that holds chunks, or
whose TALLY the device `me` has still to send, until its number may come round (R74, R97). -/
def Ctx.keeps (c : Ctx) (me : Nat) (i : Inst) : Bool :=
  let d := (i.num + 256 - c.opn) % 256
  decide (d < 128) || d == 255 || (decide (130 ≤ d) && ((i.state == .completed && !i.completeSent) || !i.chunks.isEmpty
    || (c.reg.collEn && !i.tallySent && (homes c.reg.op 2 allOnes (c.hsetAt i.ver)).1 == me)))

/-- The instances kept.  An exclusion whose first instance is two or more behind the open one is settled, so that instance
numbers may come round (R74). -/
def Ctx.prune (c : Ctx) (me : Nat) : Ctx :=
  { c with settled := c.settled + ((c.excluded.drop c.settled).takeWhile (fun (e : Nat × Nat × Nat) =>
             let d := (c.opn + 256 - e.2.2) % 256
             decide (2 ≤ d) && decide (d < 128))).length
           insts := c.insts.filter (c.keeps me) }

/-! ### Abort (R424-R427) -/

/-- The tally home of an instance (R96). -/
def Ctx.tallyHome (c : Ctx) (i : Inst) : Nat := (homes c.reg.op 2 allOnes (c.hsetAt i.ver)).1

/-- TALLY sent to the collector (R97). -/
def State.sendTally (s : State) (c : Ctx) (i : Inst) (code : Nat) (t : Time) : State :=
  let n := match i.tally with
    | some x => x.ranks.length
    | none => 0
  let fl := match i.tally with
    | some x => x.flags
    | none => 0
  s.sendTo c 0xA c.reg.coll (ctlHeader 0xA c.reg.op i.num allOnes c.ver code fl 0 0 n c.reg.m t)

/-- OP_FLAGS and the instance's flags take a chunk's flags (R54). -/
def State.seeFlags (s : State) (c n fl : Nat) : State :=
  (s.wr E.opFlags c (s.rd E.opFlags c ||| fl)).modInst c n (fun (i : Inst) => { i with flags := i.flags ||| fl })

/-- Frames of an instance that wait for cells are sent no more: a home's ABORT is its last frame of the instance (R104). -/
def State.dropWaiting (s : State) (op n : Nat) : State :=
  { s with net := { s.net with waiting := s.net.waiting.filter (fun (x : Nat × Mft) =>
    let f := x.2
    !(f.hdr.ptype == 2 && f.hdr.src == s.gei && [2, 3, 4, 7, 13].contains (field f.body 0 1 % 16)
      && field f.body 1 4 == op && field f.body 5 1 == n)) } }

/-- What an abort of an instance does once it is decided (R425 steps 1 to 7). -/
def State.abortActs (s : State) (c : Nat) (x : Ctx) (i : Inst) (reason chunk origin : Nat) (fault : Time)
    (relayed : Bool) : State :=
  let fl := i.chunks.foldl (fun a (k : Chunk) => a ||| k.flags) i.flags
  let s := s.dropRecords c i.num
  let s := s.wr E.opFlags c (s.rd E.opFlags c ||| i.chunks.foldl
    (fun a (k : Chunk) => if k.state = .bypassOut then a else a ||| k.flags) 0)
  let body := ctlHeader 8 x.reg.op i.num chunk x.ver reason fl 0 0 origin 0 fault
  let s := s.sendMembers i.group x 8 body
  let s := if relayed then s.bump E.abortsRelayed 0 1
    else
      let s := s.bump E.abortsOriginated 0 1
      ((x.hsetAt i.ver).filter (fun d => d != s.gei)).foldl (fun (s : State) d => s.sendPeer d 6 body) s
  let s := if x.reg.collEn && !i.tallySent && x.tallyHome i == s.gei then s.sendTally x i 2 fault else s
  let s := s.instanceAborted x.reg.op i.num reason
  let s := s.wr E.abortLast 0 (pack [(32, x.reg.op), (8, i.num), (8, reason), (8, 0), (24, origin), (20, 0),
    (78, timeLayout fault), (78, 0)])
  let s := s.raise 0x7004 2 31 [.v 32 x.reg.op, .v 8 i.num, .v 8 reason, .v 32 chunk, .v 24 origin]
  let s := (s.freeInst i).dropWaiting x.reg.op i.num
  let s := { s with coll := { s.coll with crossing := s.coll.crossing.filter (fun (y : Crossing) =>
    !(bits y.header.toNat 375 344 == x.reg.op && bits y.header.toNat 343 336 == i.num)) } }
  let s := { s with coll := { s.coll with preSlots := s.coll.preSlots.filter (fun (y : PreSlot) =>
    !(y.ring && y.op == x.reg.op && y.inst == i.num)) } }
  s.setInst c { i with state := .aborted, flags := fl, chunks := [], results := [], deferred := [], tallySent := true,
                       completeSent := true }

/-- A context freed: what its chunks hold and its area returned (R69, R122). -/
def State.freeCtx (s : State) (c : Nat) : State :=
  match s.coll.ctxs.get? c with
  | none => s
  | some x =>
    let s := x.insts.foldl (fun (s : State) (i : Inst) =>
      (s.freeInst i).dropRecords c i.num) s
    let s := (s.returnSpill x.areaAt x.area).wr E.opFlags c 0
    let s := { s with coll := { s.coll with ctxs := s.coll.ctxs.del c } }
    { s with coll := { s.coll with preSlots := s.coll.preSlots.filter (fun (y : PreSlot) => !(y.ring && y.op == x.reg.op)) } }

/-- The instance has ended here: aborted, or completed with its COMPLETE sent and every chunk gone. -/
def Inst.ended (i : Inst) : Bool := i.state == .aborted || (i.state == .completed && i.completeSent && i.chunks.isEmpty)

/-- The oldest home-set version in use here: that of the open instance, or of one before it that has not ended (R70). -/
def Ctx.oldest (x : Ctx) : Nat :=
  x.insts.foldl (fun v (i : Inst) => if i.ended then v else min v i.ver) (min x.ver (x.verOf x.opn))

/-- This device, excluded by the two phases, keeps the context for the instances of the earlier versions; its own HSET_VER
stays, since only a device that remains increments it (R70). -/
def Ctx.leaving (x : Ctx) (me : Nat) : Bool := x.excluded.any (fun (e : Nat × Nat × Nat) => e.1 == me)

/-- This device has been excluded and no instance of an earlier version is left here (R70). -/
def State.leftDone (s : State) (x : Ctx) : Bool :=
  x.admitted && x.leaving s.gei && decide (x.verOf x.opn ≠ x.ver)
    && x.insts.all (fun (i : Inst) => i.ended || decide (x.verOf i.num ≠ x.ver))

/-- The context's open instance number moved on, what has ended long ago forgotten, and the context of a device that has
been excluded released once its last instance has ended (R70). -/
def State.settle (s : State) (c : Nat) : State :=
  let s := s.modCtx c (Ctx.advance 256)
  let s := match s.coll.ctxs.get? c with
    | some x => (x.insts.filter (fun (i : Inst) => !x.keeps s.gei i)).foldl (fun (s : State) i => s.freeInst i) s
    | none => s
  let s := s.modCtx c (fun (x : Ctx) => x.prune s.gei)
  match s.coll.ctxs.get? c with
  | some x =>
    if s.leftDone x then
      ((s.freeCtx c).stripesReleased x.reg.op).raise 0x9008 0 31 [.v 32 x.reg.op, .v 8 ((x.ver + 1) % 256)]
    else s
  | none => s

/-- The first abort of an instance at this home (R425, R426).  One that has completed ends by abort only before its next
instance opens; the next instance's anchor is then its own (R38). -/
def State.abortInst (s : State) (c n reason chunk origin : Nat) (fault : Time) (relayed : Bool) : State :=
  match s.coll.ctxs.get? c with
  | none => s
  | some x => match findInst x.insts n with
    | none => s
    | some i => match i.state with
      | .aborted => s
      | .opened => (s.abortActs c x i reason chunk origin fault relayed).settle c
      | .completed =>
        let nxt := (n + 1) % 256
        if (findInst x.insts nxt).isSome ∨ x.opn ≠ nxt then s
        else
          let s := s.modCtx c (fun (y : Ctx) => if y.reg.auto then { y with anchorNext := i.anchor.getD y.anchorNext } else y)
          (s.abortActs c x i reason chunk origin fault relayed).settle c

/-- An abort this home originates now (R424). -/
def State.abortHere (s : State) (c n reason chunk : Nat) : State := s.abortInst c n reason chunk s.gei s.now false

/-! ### Opening (R74, R132, R416) -/

/-- A device of the home set is LOST here. -/
def State.anyLost (s : State) (l : List Nat) : Bool := l.any (fun d => match s.coll.peers.get? d with
  | some p => p.lost
  | none => false)

/-- The instance opened by the first frame accepted for it (R132, R574); it aborts at once with HOME_LOST while a device
of its home set is LOST (R416). -/
def State.openInst (s : State) (c n : Nat) (stamp : Time) : State :=
  match s.coll.ctxs.get? c with
  | none => s
  | some x => match findInst x.insts n with
    | some _ => s
    | none =>
      let ver := x.verOf n
      let anchor := if x.reg.zeroAnchor then some 0 else if x.reg.auto then some x.anchorNext else none
      let b : Inst := { num := n, ver := ver, openedAt := stamp }
      let i : Inst := { b with anchor := anchor, recompute := s.rd E.recomputeLimit 0,
                               sinkMode := s.rd E.sinkMode c, sinkGei := s.rd E.sinkGei c % 2 ^ 24, group := s.rd E.resultGroup c,
                               lastLeft := 0 }
      let s := s.setInst c i
      if s.anyLost ((x.hsetAt ver).filter (fun d => d != s.gei)) then s.abortHere c n 0x0B allOnes else s

/-! ### Completion (R75, R574, R38, R39) -/

/-- The exponent field of a completion message: 0x7FFF for none. -/
def expField (e : Option Int) : Nat := match e with
  | some x => wrapInt 16 x
  | none => 0x7FFF

/-- The exponent a field spells. -/
def expOf (v : Nat) : Option Int := if v % 65536 = 0x7FFF then none else some (signed 16 v)

/-- Every chunk whose h1 is this device has completed here or been forwarded whole to its h2 (R574). -/
def Inst.homesDone (i : Inst) (r : Reg) (hset : List Nat) (me : Nat) : Bool :=
  (!r.v || (i.vector r).isSome) &&
  (i.homedKeys r hset me).all (fun k => i.done.contains k || i.chunks.any (fun (x : Chunk) =>
    ckey x.phase x.chunk == k && x.state == .bypassOut && x.forwarded) || i.emitted.contains k)

/-- The completion message sent once to every other device of the home set (R574). -/
def State.sendCompletion (s : State) (c n : Nat) : State :=
  match s.coll.ctxs.get? c with
  | none => s
  | some x => match findInst x.insts n with
    | none => s
    | some i =>
      let hs := x.hsetAt i.ver
      if i.state = .opened ∧ !i.sentMsg ∧ i.homesDone x.reg hs s.gei then
        let s := s.setInst c { i with sentMsg := true }
        (hs.filter (fun d => d != s.gei)).foldl (fun (s : State) d =>
          let b := (i.bypassed.filter (fun (y : Nat × Nat) => y.2 == d)).length
          s.sendPeer d 7 (toBytes 1 0 ++ toBytes 4 x.reg.op ++ toBytes 1 n ++ toBytes 2 0 ++ toBytes 1 0
            ++ toBytes 24 (b * 2 ^ 160 + expField i.maxExp))) s
      else s

/-- E_hi as the exchange fixes it (R38, R574). -/
def Inst.eHi (i : Inst) : Option Int := i.msgs.foldl (fun a (m : Exchanged) => expMax a m.exp) i.maxExp

/-- The completion exchange has completed at this device (R574). -/
def Inst.exchanged (i : Inst) (hs : List Nat) (me : Nat) : Bool :=
  i.sentMsg && (hs.filter (fun d => d != me)).all (fun d => i.msgs.any (fun (m : Exchanged) => m.src == d))
  && i.takenIn.all (fun k => i.done.contains k)
  && decide (i.msgs.foldl (fun a (m : Exchanged) => a + m.bypass) 0 ≤ i.takenIn.length)

/-- The instance completes at this home when its chunks have and the exchange has (R75); E_hi and, in automatic mode,
the next anchor are fixed (R38, R39). -/
def State.tryComplete (s : State) (c n : Nat) : State :=
  let s := s.sendCompletion c n
  match s.coll.ctxs.get? c with
  | none => s
  | some x => match findInst x.insts n with
    | none => s
    | some i =>
      let hs := x.hsetAt i.ver
      if i.state = .opened ∧ i.exchanged hs s.gei ∧ i.homesDone x.reg hs s.gei then
        let e := i.eHi
        let cur := i.anchor.getD (x.anchorFor (some i) s.now)
        let nxt := if x.reg.auto then nextAnchor e x.reg.ar.guard cur else x.anchorNext
        let s := s.setInst c { i with state := .completed, doneAt := s.now }
        let s := s.modCtx c (fun (y : Ctx) =>
          let insts := y.insts.map (fun (k : Inst) =>
            if k.num = (n + 1) % 256 ∧ !k.accepted ∧ y.reg.auto then { k with anchor := some nxt } else k)
          { y with anchorNext := nxt, expHi := e, widenedLast := i.widened, histLast := i.hist, insts := insts })
        let s := if x.reg.auto ∧ nxt ≠ cur then
          s.raise 0x7807 0 31 [.v 32 x.reg.op, .v 8 ((n + 1) % 256), .v 16 (wrapInt 16 cur), .v 16 (wrapInt 16 nxt),
            .v 16 (expField e)] else s
        s.settle c
      else s

/-- A chunk homed here has completed, its result handed on and its record emitted (R75). -/
def State.chunkDone (s : State) (c n key : Nat) : State :=
  (s.modInst c n (fun (i : Inst) => { i with done := insertNat key i.done })).tryComplete c n

/-- The chunks of an instance homed at this device, as COMPLETE counts them (R128, Table 8). -/
def Ctx.chunksHomed (x : Ctx) (i : Inst) (me : Nat) : Nat :=
  (i.homedKeys x.reg (x.hsetAt i.ver) me).length - i.bypassed.length + i.takenIn.length

end Sys2Proof.Machine
end

