-- ==== Sys2Proof/Machine/Stall.lean ====
section
/-!
DEFINITION. Stall records (spec/04 R132-R136).
-/
namespace Sys2Proof.Machine

/-- STALL_LIMIT and STALL_MAX of a registration as durations. -/
def Reg.stallLimit (r : Reg) : Nat := r.limit * ms
def Reg.stallMax (r : Reg) : Nat := r.maxStall * ms

/-- A member's stall record; every member starts at the stamp that opened the instance (R132). -/
def Inst.stall (i : Inst) (r : Reg) (k : Nat) : Stall :=
  i.stalls.getD k { tData := i.openedAt, d := i.openedAt + r.stallLimit }

/-- A progress event (R133). -/
inductive Progress where
  | contrib
  | beacon (value : Nat)
  | throttle (us : Nat)

/-- on_progress of R133 on a record whose deadline the stamp meets; the flag says that the cap was applied. -/
def Stall.progress (m : Stall) (r : Reg) (p : Progress) (stamp : Time) : Stall × Bool :=
  let cap := m.tData + r.stallMax
  match p with
  | .contrib =>
    let td := max m.tData stamp
    ({ m with tData := td, d := td + r.stallLimit, saved := true }, false)
  | .beacon v =>
    let cand := min (stamp + r.stallLimit) cap
    ({ m with d := max m.d cand, saved := true, beacon := v }, false)
  | .throttle u =>
    let want := m.d + u * us
    ({ m with d := min want cap, saved := true, throttled := (m.throttled + u) % 2 ^ 32 }, decide (cap < want))

/-- A progress event of a rank: late ones are ignored and counted (R133). -/
def State.progress (s : State) (c n k : Nat) (p : Progress) (stamp : Time) : State :=
  match s.coll.ctxs.get? c with
  | none => s
  | some x => match findInst x.insts n with
    | none => s
    | some i =>
      let m := i.stall x.reg k
      let s := match p with
        | .beacon v => s.setInst c { i with stalls := i.stalls.set k { m with beacon := v } }
        | _ => s
      if m.d < stamp then s.bump E.lateProgress 0 1
      else
        let (m', capped) := m.progress x.reg p stamp
        let s := if capped && !m.capped then
          s.raise 0x7407 0 (8 + s.areaDie c) [.v 32 x.reg.op, .v 8 n, .v 24 (x.reg.geiOf k), .tm m'.d] else s
        s.setInst c { i with stalls := i.stalls.set k { m' with capped := m.capped || capped } }

/-- The ranks of a run re-armed at a time (R132). -/
def State.rearm (s : State) (c n : Nat) (e : Nat × Nat) (t : Time) : State :=
  match s.coll.ctxs.get? c with
  | none => s
  | some x => s.modInst c n (fun (i : Inst) =>
    { i with stalls := (List.range e.2).foldl (fun (m : Tab Stall) k =>
        let r := i.stall x.reg (e.1 + k)
        m.set (e.1 + k) { r with tData := t, d := t + x.reg.stallLimit, saved := true }) i.stalls })

/-- A member owes this home: a chunk homed here whose E(c) includes it does not cover it in the current pass (R132). -/
def Ctx.owes (x : Ctx) (i : Inst) (me k : Nat) : Bool :=
  (i.homedKeys x.reg (x.hsetAt i.ver) me).any (fun key =>
    let ph := key / 2 ^ 32
    let ch := key % 2 ^ 32
    let e := i.expected x.reg ph ch
    decide (e.1 ≤ k) && decide (k < e.1 + e.2) && !i.done.contains key && !i.emitted.contains key &&
      match findChunk i.chunks ph ch with
      | some y => !covered y.cover k
      | none => true)

end Sys2Proof.Machine
end

