-- ==== Sys2Proof/Machine/Home.lean ====
section
/-!
DEFINITION. Chunks at a home: slots and the tiers of R125, contributions applied, restarts, widening and reduce-bypass
(spec/04 R115-R130, spec/03 R82-R86, spec/02 R42, R47-R53, spec/05 R151).
-/
namespace Sys2Proof.Machine

/-! ### Slots and spilling (R115, R117, R118, R125, R126) -/

/-- A chunk with the context and instance it belongs to. -/
structure Placed where
  ctx  : Nat
  inst : Nat
  k    : Chunk

/-- Every chunk of the device. -/
def State.allChunks (s : State) : List Placed :=
  s.coll.ctxs.flatMap (fun (x : Nat × Ctx) => x.2.insts.flatMap (fun (i : Inst) => i.chunks.map (fun k => ⟨x.1, i.num, k⟩)))

/-- The earlier of two chunks in R126's order. -/
def Placed.older (a b : Placed) : Placed :=
  if b.k.openedAt < a.k.openedAt ∨ (b.k.openedAt = a.k.openedAt ∧ (b.ctx < a.ctx ∨ (b.ctx = a.ctx ∧ b.k.chunk < a.k.chunk)))
  then b else a

/-- The first chunk of a list in R126's order. -/
def oldest : List Placed → Option Placed
  | [] => none
  | x :: r => some (r.foldl Placed.older x)

/-- The stack that takes a chunk's slots, of `n` bytes in all: of its die's, the one with more free space (R118, R224); a
reserved chunk, whose footprint is held device-wide, goes to the first other that can take them, in R223's order, before it
would go without (log 188). -/
def State.slotStack (s : State) (q chunk : Nat) (reserved : Bool) (n : Nat) : Option Nat :=
  let near := s.betterStack q chunk
  let order := if reserved then near :: (List.range 18).map (fun k => (2 * q + 2 + k) % 20) else [near]
  order.find? (fun h => s.stackUp h && decide (n ≤ s.spillFreeOf h))

/-- The victim of a die (R126): the oldest OPEN or OVERFLOWED chunk that may spill, else the oldest HELD one; a stack must
have room for it (R118, log 53).  `skip` names the chunk that is being widened. -/
def State.victimBut (s : State) (q : Nat) (skip : Placed → Bool) : Option Placed :=
  let mine := s.allChunks.filter (fun (x : Placed) => x.k.die == q && !x.k.slots.isEmpty && !x.k.spilling && !skip x
    && s.roomFor x.ctx x.k.reserved (x.k.slots.length * slotBytes)
    && (s.slotStack q x.k.chunk x.k.reserved (x.k.slots.length * slotBytes)).isSome)
  match oldest (mine.filter (fun (x : Placed) => x.k.state == .opened || x.k.state == .overflowed)) with
  | some x => some x
  | none => oldest (mine.filter (fun (x : Placed) => x.k.state == .held))

/-- The victim of a die. -/
def State.victim (s : State) (q : Nat) : Option Placed := s.victimBut q (fun _ => false)

/-- A victim moved toward a stack slot of its die (R118, R224, R126); one that must copy its sums is SPILLING and keeps
its SRAM slots until the copy completes, unless they are given away at once. -/
def State.spill (s : State) (v : Placed) (give : Bool) : State :=
  let n := v.k.slots.length
  let h := (s.slotStack v.k.die v.k.chunk v.k.reserved (n * slotBytes)).getD (s.betterStack v.k.die v.k.chunk)
  let (bases, s) := s.takeStack (s.opAt v.ctx, v.inst) h n
  let copy := v.k.state == .opened
  let s := if copy && !give then s else v.k.slots.foldl (fun (s : State) k => s.freeSlot v.k.die k) s
  let k := { v.k with inStacks := List.replicate n h, bases := bases, spilling := copy, slots := if copy && !give then v.k.slots else [] }
  let job := match s.coll.ctxs.get? v.ctx with
    | some x => jobOf x.reg.op
    | none => 0
  ((s.setChunk v.ctx v.inst k).bump E.spills 0 1).countEvent (8 * (8 + v.k.die)) 0x43 0xFFFF job 1

/-- SRAM slots that will be free at a die once its copies complete. -/
def State.sramComing (s : State) (q : Nat) : Nat :=
  s.sramFree q + (s.allChunks.filter (fun (x : Placed) => x.k.die == q && x.k.spilling)).foldl
    (fun a (x : Placed) => a + x.k.slots.length) 0

/-- A die spills on its own while its free slots are below SPILL_LOW (R126). -/
def State.spillOwn : Nat → State → Nat → State
  | 0, s, _ => s
  | f + 1, s, q =>
    if s.sramComing q < s.rd E.spillLow 0 then
      match s.victim q with
      | some v => State.spillOwn f (s.spill v false) q
      | none => s
    else s

/-- Where a chunk opens (R125). -/
inductive Tier where
  | sram (slot : Nat)
  | stack (h : Nat)
  | bypass
  | defer

/-- What the tiers of R125 need to know of a chunk that opens. -/
structure Opening where
  ctx      : Nat
  op       : Nat
  phase    : Nat
  chunk    : Nat
  opcode   : Nat
  die      : Nat
  ranks    : Nat
  reserved : Bool
  bypassIn : Bool
  h2       : Nat

/-- The bookkeeping of a chunk that opens finds room (R122, R223). -/
def State.bookFits (s : State) (o : Opening) : Bool :=
  s.roomFor o.ctx o.reserved (bookBytes o.ranks) && (s.bookStack o.die o.chunk (bookBytes o.ranks)).isSome

/-- Tier 2 of R125: a slot opened directly in a stack, with its bookkeeping. -/
def State.directStack (s : State) (o : Opening) : Option Nat :=
  if (o.reserved || o.bypassIn) && s.roomFor o.ctx o.reserved (bookBytes o.ranks + slotBytes) then
    s.slotStack o.die o.chunk o.reserved slotBytes
  else none

/-- The SRAM slot that a chunk which opens at its die would take (R117). -/
def State.slotFor (s : State) (o : Opening) : Option Nat := s.findSlot o.die (qscore o.op o.phase o.chunk o.die / 2 ^ 59)

/-- Tiers 2 to 4 of R125. -/
def State.laterTier (s : State) (o : Opening) : Tier :=
  match s.directStack o with
  | some h => .stack h
  | none =>
    if !o.reserved && !o.bypassIn && decide (o.opcode ≤ 2 ∨ o.opcode = 6) && o.h2 != noGei && s.rd E.bypassEn 0 == 1 then .bypass
    else .defer

/-- The tier a chunk opens by at its die, with the state after any victim has given up its slot; a victim gives it up only
where its own slots and the new chunk's bookkeeping both find room (R122, R125). -/
def State.tier (s : State) (o : Opening) : Tier × State :=
  if !s.bookFits o then (.defer, s)
  else match s.slotFor o with
    | some k => (.sram k, s)
    | none => match s.victim o.die with
      | some v =>
        let s1 := s.spill v true
        match s1.slotFor o, s1.bookFits o with
        | some k, true => (.sram k, s1)
        | _, _ => (s.laterTier o, s)
      | none => (s.laterTier o, s)

/-- The die where a chunk opens, and whether it was steered (R115). -/
def State.openDie (s : State) (op phase chunk : Nat) : Option (Nat × Bool) :=
  match s.candidates op phase chunk with
  | (some qa, some qb) =>
    if s.rd E.steerLow 0 ≤ s.sramFree qa then some (qa, false)
    else if s.sramFree qa < s.coll.published.getD qb 16384 then some (qb, true)
    else some (qa, false)
  | (some qa, none) => some (qa, false)
  | _ => none

/-- The switch dies that take a steer entry: those holding fewer than 8,192 (R116). -/
def State.steerTakers (s : State) : List Nat :=
  (List.range 8).filter (fun d =>
    decide ((s.allChunks.filter (fun (x : Placed) => x.k.steered.contains d)).length < 8192))

/-- A chunk is open here for OPEN_CHUNKS (R137 Table 4): it holds a slot, which no copy or barrier chunk does (R118). -/
def Chunk.isOpen (k : Chunk) : Bool :=
  k.state != .held && k.state != .bypassOut && !(k.slots.isEmpty && k.inStacks.isEmpty)

/-- Chunks of a context that a test picks, of any instance. -/
def Ctx.countChunks (x : Ctx) (p : Chunk → Bool) : Nat :=
  x.insts.foldl (fun n (i : Inst) => n + (i.chunks.filter p).length) 0

/-- Notices and counts of a deferral (R129, R138). -/
def State.deferChunk (s : State) (c n : Nat) (x : Ctx) (i : Inst) (phase chunk : Nat) : State :=
  let s := s.modInst c n (fun (j : Inst) => { j with deferred := insertNat (ckey phase chunk) j.deferred, deferTold := true })
  let q := ((s.candidates x.reg.op phase chunk).1).getD 0
  let s := s.countEvent (8 * (8 + q)) 0x45 0xFFFF (jobOf x.reg.op) 1
  if i.deferTold then s else s.raise 0x7406 1 (8 + q) [.v 32 x.reg.op, .v 8 n, .v 32 chunk]

/-- The bookkeeping of a chunk allocated, where a stack can take it (R119, R223). -/
def State.takeBook (s : State) (who : Nat × Nat) (q chunk n : Nat) : Option (Nat × State) :=
  (s.bookStack q chunk n).map (fun h => (h, s.useSpill who h n))

/-- The chunk would open as reserved (R124). -/
def Ctx.opensReserved (x : Ctx) : Bool :=
  decide (x.countChunks Chunk.isOpen - x.countChunks (fun k => k.isOpen && k.bypassIn) < x.reg.reserve)

/-- A new chunk's record, before its place is known. -/
def Ctx.newChunk (x : Ctx) (i : Inst) (phase chunk count : Nat) (stamp : Time) (h1 : Nat) (own : Bool) (st : ChunkState) : Chunk :=
  let b : Chunk := { phase := phase, chunk := chunk, state := st, die := 0, h1 := h1, openedAt := stamp, count := count }
  { b with bypassIn := !own, anchor := if phase = 1 then 0 else x.anchorFor (some i) stamp,
           request := if st = .resending then 2 else 0 }

/-- A chunk that opens, as the tiers of R125 see it. -/
def Ctx.opening (x : Ctx) (c : Nat) (i : Inst) (b : Chunk) (q : Nat) : Opening :=
  ⟨c, x.reg.op, b.phase, b.chunk, (x.reg.phaseAr b.phase).op, q, (i.expected x.reg b.phase b.chunk).2,
    !b.bypassIn && x.opensReserved, b.bypassIn,
    if b.state = .resending then noGei else (homes x.reg.op b.phase b.chunk (x.hsetAt i.ver)).2⟩

/-- A chunk's slot taken by its tier; none when it is deferred. -/
def State.takePlace (s : State) (who : Nat × Nat) (b : Chunk) : Tier → Option (Chunk × State)
  | .sram k => some ({ b with slots := [k] }, s.takeSlot b.die k)
  | .stack h =>
    let (bases, s) := s.takeStack who h 1
    some ({ b with inStacks := [h], bases := bases }, s.bump E.stackOpens 0 1)
  | .bypass => some ({ b with state := .bypassOut }, s)
  | .defer => none

/-- A bypass started (R127): counted, told once for an instance. -/
def State.noteBypass (s : State) (c n : Nat) (x : Ctx) (i : Inst) (k : Chunk) : State :=
  let s := (s.bump E.bypassOutTotal 0 1).countEvent (8 * (8 + k.die)) 0x44 0xFFFF (jobOf x.reg.op) 1
  let s := if i.bypassTold then s else s.raise 0x7403 0 (8 + k.die) [.v 32 x.reg.op, .v 8 n, .v 32 k.chunk, .v 24 k.h2]
  s.modInst c n (fun (j : Inst) =>
    { j with bypassTold := true, bypassed := j.bypassed ++ [(ckey k.phase k.chunk, k.h2)] })

/-- A chunk opened by a tier with its bookkeeping and, where it is steered, its steer entries (R116); none when no stack can
take its bookkeeping. -/
def State.openBy (s : State) (c n : Nat) (x : Ctx) (i : Inst) (b : Chunk) (o : Opening) (steer : Bool) (t : Tier) : Option State :=
  let who := (x.reg.op, n)
  (s.takePlace who { b with die := o.die, reserved := o.reserved, h2 := o.h2 } t).bind (fun (y : Chunk × State) =>
    (y.2.takeBook who o.die b.chunk (bookBytes o.ranks)).map (fun (z : Nat × State) =>
      let s := if steer then z.2.bump E.steered 0 1 else z.2
      let k := { y.1 with book := bookBytes o.ranks, bookAt := z.1, steered := if steer then s.steerTakers else [] }
      let s := if k.state = .bypassOut then s.noteBypass c n x i k else s
      let s := s.setChunk c n k
      match t with
      | .sram _ => State.spillOwn 16384 s o.die
      | _ => s))

/-- A chunk opened at a die by the tiers of R125, or bypassed, or deferred.  The result says whether it holds a record
here. -/
def State.openAt (s : State) (c n : Nat) (x : Ctx) (i : Inst) (b : Chunk) (q : Nat) (steer : Bool) : Bool × State :=
  let o := x.opening c i b q
  let (t, s1) := s.tier o
  match s1.openBy c n x i b o steer t with
  | some s => (true, s)
  | none => (false, if b.bypassIn then s else s.deferChunk c n x i b.phase b.chunk)

/-- A copy or barrier chunk opened at its directory die: it takes no slot, only its bookkeeping (R118, R119). -/
def State.openPlain (s : State) (c n : Nat) (x : Ctx) (i : Inst) (b : Chunk) : Option State :=
  let o := x.opening c i b (((s.candidates x.reg.op b.phase b.chunk).1).getD 0)
  if !s.bookFits o then none
  else (s.takeBook (x.reg.op, n) o.die b.chunk (bookBytes o.ranks)).map (fun (z : Nat × State) =>
    z.2.setChunk c n { b with die := o.die, reserved := o.reserved, book := bookBytes o.ranks, bookAt := z.1 })

/-- The chunk takes no slot (R118). -/
def Reg.plainChunk (r : Reg) (phase : Nat) : Bool := (r.isCopy || r.isBarrier) && phase == 0

/-- In BRACE no chunk opens of an instance that was not open when the warning was entered (R539). -/
def State.braced (s : State) (i : Inst) : Bool :=
  match s.power.brace with
  | some t => decide (t ≤ i.openedAt)
  | none => false

/-! ### Requests (Table 8) -/

/-- A REQUEST to every member of E(c) (Table 8), each by unicast (R264 does not name it), whose records are re-armed (R132). -/
def State.request (s : State) (c n : Nat) (k : Chunk) (code : Nat) : State :=
  match s.coll.ctxs.get? c with
  | none => s
  | some x => match findInst x.insts n with
    | none => s
    | some i =>
      let e := i.expected x.reg k.phase k.chunk
      let body := ctlHeader 3 x.reg.op n k.chunk x.ver code 0 k.anchor k.pass 0 0 s.now
      let s := (x.reg.geis e).foldl (fun (s : State) d => s.sendTo x 3 d body) s
      s.rearm c n e s.now

/-! ### Deferred chunks reopened (R129) -/

/-- A deferred chunk that a die may take: its own as q_a, or as q_b while q_a has fewer than STEER_LOW free slots. -/
def State.mayReopen (s : State) (q op phase chunk : Nat) : Bool :=
  match s.candidates op phase chunk with
  | (some a, b) => a == q || (b == some q && decide (s.sramFree a < s.rd E.steerLow 0))
  | _ => false

/-- The first deferred chunk a die may take: lowest context, then lowest chunk index. -/
def State.firstDeferred (s : State) (q : Nat) : Option (Nat × Nat × Nat) :=
  s.coll.ctxs.findSome? (fun (x : Nat × Ctx) =>
    let l := (x.2.insts.filter (fun (i : Inst) => !s.braced i)).flatMap (fun (i : Inst) => (i.deferred.filter (fun k =>
      s.mayReopen q x.2.reg.op (k / 2 ^ 32) (k % 2 ^ 32))).map (fun k => (i.num, k)))
    match l with
    | [] => none
    | y :: r =>
      let b := r.foldl (fun (a : Nat × Nat) z => if z.2 % 2 ^ 32 < a.2 % 2 ^ 32 then z else a) y
      some (x.1, b.1, b.2))

/-- The place a deferred chunk reopens at: a free SRAM slot, or a stack slot by tier 2 (R129). -/
def State.reopenTier (s : State) (o : Opening) : Tier :=
  if !s.quireUp o.die || !s.bookFits o then .defer
  else match s.slotFor o with
    | some k => .sram k
    | none => match s.directStack o with
      | some h => .stack h
      | none => .defer

/-- A die opens its first deferred chunk in RESENDING, where it has the space (R129); a chunk that takes no slot opens with
its bookkeeping alone. -/
def State.reopenOne (s : State) (q : Nat) : Option State :=
  (s.firstDeferred q).bind (fun (y : Nat × Nat × Nat) =>
    (s.coll.ctxs.get? y.1).bind (fun (x : Ctx) => (findInst x.insts y.2.1).bind (fun (i : Inst) =>
      let ph := y.2.2 / 2 ^ 32
      let ch := y.2.2 % 2 ^ 32
      let s := s.modInst y.1 y.2.1 (fun (j : Inst) => { j with deferred := j.deferred.erase y.2.2 })
      let b := x.newChunk i ph ch ((i.elements x.reg ph ch).getD 1024) s.now s.gei true .resending
      let o := x.opening y.1 i b q
      let steer := (s.candidates x.reg.op ph ch).1 != some q
      (if x.reg.plainChunk ph then s.openPlain y.1 y.2.1 x i { b with state := .opened, request := 0 }
        else s.openBy y.1 y.2.1 x i b o steer (s.reopenTier o)).map (fun (s : State) =>
          match s.chunk? y.1 y.2.1 ph ch with
          | some k => s.request y.1 y.2.1 k 2
          | none => s))))

/-- A die opens its deferred chunks in order, as many as have space; the number bounds them. -/
def State.reopenDie : Nat → State → Nat → State
  | 0, s, _ => s
  | f + 1, s, q => match s.reopenOne q with
    | some s => State.reopenDie f s q
    | none => s

/-- Deferred chunks of the device. -/
def State.deferredCount (s : State) : Nat :=
  s.coll.ctxs.foldl (fun n (x : Nat × Ctx) => x.2.insts.foldl (fun n (i : Inst) => n + i.deferred.length) n) 0

/-- The deferred chunks of a die take what space it has (R129). -/
def State.reopen (s : State) (q : Nat) : State := State.reopenDie s.deferredCount s q

/-- The deferred chunks of the die where a chunk would open, steered or not, take the space there first (R129). -/
def State.reopenFor (s : State) (op phase chunk : Nat) : State :=
  match s.openDie op phase chunk with
  | none => s
  | some (q, _) =>
    let s := s.reopen q
    match s.openDie op phase chunk with
    | some (q', _) => if q' = q then s else s.reopen q'
    | none => s

/-! ### Chunks opened -/

/-- A chunk opened in a state where R114 and R115 place it. -/
def State.openChunk (s : State) (c n phase chunk count : Nat) (stamp : Time) (h1 : Nat) (st : ChunkState) : Bool × State :=
  let s := s.reopenFor (s.opAt c) phase chunk
  match s.coll.ctxs.get? c with
  | none => (false, s)
  | some x => match findInst x.insts n with
    | none => (false, s)
    | some i =>
      let b := x.newChunk i phase chunk count stamp h1 (h1 == s.gei) st
      let away := fun (s : State) => (false, if b.bypassIn then s else s.deferChunk c n x i phase chunk)
      if s.braced i then away s
      else if x.reg.plainChunk phase then
        match s.openPlain c n x i { b with state := .opened } with
        | some s => (true, s)
        | none => away s
      else match s.openDie x.reg.op phase chunk with
        | none => away s
        | some (q, steer) => s.openAt c n x i b q steer

/-! ### Restarts (R86, R154, R155) -/

/-- A BYPASS message (R488 Table 10): 0 REFUSED, 1 EMITTED, 2 RECOMPUTE, 3 RESTART. -/
def State.sendBypass (s : State) (dest kind op n chunk : Nat) : State :=
  s.sendPeer dest 10 (toBytes 1 kind ++ toBytes 3 0 ++ toBytes 4 op ++ toBytes 1 n ++ toBytes 3 0 ++ toBytes 4 chunk)

/-- A chunk's sums, witness and coverage cleared. -/
def Chunk.cleared (k : Chunk) : Chunk := { k with cover := [], acc := .empty, wit := 0 }

/-- A copy under way stops (R86, Table 2): the chunk keeps its SRAM slots, and the stack's are returned; one that has given
its SRAM slots away lies in the stack. -/
def State.stopCopy (s : State) (k : Chunk) : Chunk × State :=
  if k.spilling ∧ !k.slots.isEmpty then
    ({ k with spilling := false, inStacks := [], bases := [] }, k.inStacks.foldl (fun (s : State) h => s.returnSpill h slotBytes) s)
  else ({ k with spilling := false }, s)

/-- The stack slots of a chunk filled afresh, which ends their poison and upsets (R226, R233). -/
def State.fillSlots (s : State) (k : Chunk) : State :=
  (k.inStacks.zip k.bases).foldl (fun (s : State) (y : Nat × Nat) => s.freshBlocks y.1 y.2 slotBlocks) s

/-- A chunk that has been cleared set, and its contributions asked for again: by a REQUEST of this code, or, where the chunk is held for another
h1, through it (R155; log 189). -/
def State.askAgain (s : State) (c n : Nat) (k : Chunk) (code : Nat) : State :=
  let s := (s.fillSlots k).setChunk c n k
  if k.bypassIn then s.sendBypass k.h1 2 (s.opAt c) n k.chunk else s.request c n k code

/-- The anchor of a chunk of an instance in pass 0. -/
def State.anchorOf (s : State) (c n phase : Nat) : Int :=
  match s.coll.ctxs.get? c with
  | some x => if phase = 1 then 0 else x.anchorFor (findInst x.insts n) s.now
  | none => 0

/-- A chunk restarted at the die that tests its coverage, by its state there (R86, R130). -/
def State.restart (s : State) (c n : Nat) (k : Chunk) : State :=
  let (k', s1) := s.stopCopy k
  let fresh := { k'.cleared with eChunk := none, flags := 0, kept := 0, state := .resending, request := 2 }
  match k.state with
  | .widened => s1.askAgain c n { k'.cleared with flags := k.flags &&& (flagRov ||| flagWid) } 1
  | .resending => s1.askAgain c n { k'.cleared with flags := k.kept } k.request
  | .bypassOut =>
    let k := { k with cover := [], forwarded := false, request := 2, pass := 0, anchor := s.anchorOf c n k.phase }
    let s := (s.setChunk c n k).sendBypass k.h2 3 (s.opAt c) n k.chunk
    s.request c n k 2
  | .opened => s1.askAgain c n fresh 2
  | .overflowed => s1.askAgain c n fresh 2
  | _ => s

/-- Slot, witness register and cover map cleared, keeping anchor, pass and flags; REQUEST RECOMPUTE (R154 steps 2 and 3,
R234 Table 3).  For a chunk held for another h1 the request goes through it (R155). -/
def State.recompute (s : State) (c n : Nat) (k : Chunk) (counts : Bool) : State :=
  let (k, s) := s.stopCopy k
  let k := { k.cleared with kept := k.flags, state := .resending, request := 3, queued := false,
                            recomputes := if counts then k.recomputes + 1 else k.recomputes }
  (s.bump E.recomputes 0 1).askAgain c n k 3

/-! ### Frames of a chunk (R79, R140) -/

/-- The fields of a chunk header that vary. -/
structure Ch where
  kind    : Nat
  op      : Nat
  inst    : Nat
  chunk   : Nat
  hver    : Nat
  phase   : Nat
  pass    : Nat
  resent  : Bool := false
  part    : Bool := false
  witp    : Bool := false
  fmt     : Nat
  flags   : Nat := 0
  anchor  : Int
  count   : Nat
  frame   : Nat
  first   : Nat := 0
  covers  : Nat
  maxExp  : Option Int := none
  wit     : Nat := 0

/-- The 48 bytes of a chunk header with its check (R79 Table 6, R140). -/
def Ch.bytes (h : Ch) (src : Nat) (payload : List Byte) : List Byte :=
  let b := toBytes 40 (pack [(4, 1), (4, h.kind), (32, h.op), (8, h.inst), (32, h.chunk), (8, h.hver), (2, h.phase),
    (1, h.pass), (1, b2n h.resent), (1, b2n h.part), (1, b2n h.witp), (2, 0), (8, h.fmt), (8, h.flags),
    (16, wrapInt 16 h.anchor), (11, h.count), (3, h.frame), (2, 0), (18, h.first), (19, h.covers), (11, 0),
    (16, expField h.maxExp), (48, 0), (64, h.wit)])
  b ++ toBytes 8 (crc64 (toBytes 3 src ++ b ++ payload))

/-- The chunk header a received frame carries. -/
def chOf (v : Nat) : Ch :=
  { kind := bits v 379 376, op := bits v 375 344, inst := bits v 343 336, chunk := bits v 335 304, hver := bits v 303 296,
    phase := bits v 295 294, pass := bits v 293 293, resent := bit v 292, part := bit v 291, witp := bit v 290,
    fmt := bits v 287 280, flags := bits v 279 272, anchor := signed 16 (bits v 271 256), count := bits v 255 245,
    frame := bits v 244 242, first := bits v 239 222, covers := bits v 221 203, maxExp := expOf (bits v 191 176),
    wit := bits v 124 64 }

/-- The chunk check of a received frame holds (R140). -/
def checkOk (src : Nat) (v : Nat) (payload : List Byte) : Bool :=
  crc64 (toBytes 3 src ++ (toBytes 48 v).take 40 ++ payload) == bits v 63 0

/-! ### A contribution applied (R130 Table 2) -/

/-- A list of a chunk's positions with a frame's integers at an offset and zeros elsewhere. -/
def padAt (off total : Nat) (l : List Int) : List Int :=
  List.replicate off 0 ++ l ++ List.replicate (total - off - l.length) 0

/-- A frame's values laid at their place in the chunk. -/
def Acc.at_ (a : Acc) (off total : Nat) : Acc :=
  match a with
  | .ints l => .ints (padAt off total l)
  | a => a

/-- What a contribution's frame brings: its values in place, the witness of its elements, flags, largest exponent, NaN. -/
structure Brought where
  acc   : Acc
  wit   : Nat
  flags : Nat
  rov   : Bool
  exp   : Option Int
  nan   : Option Nat
  bound : Bool
  n     : Nat

/-- A frame's elements converted for a chunk (R29, R33, R41, R44-R48, R148). -/
def bring (ar : Arith) (op : Nat) (h : Ch) (anchor : Int) (payload : List Byte) : Brought :=
  let cnt := frameCount h.fmt h.count h.frame
  let off := h.frame * perFrame h.fmt
  let xs := elemsOf h.fmt cnt payload
  if h.fmt = 0x18 then
    let l := partialInts xs
    ⟨.ints (padAt off h.count l), witnessInts (wseed op h.phase h.chunk) off l, h.flags, bit h.flags 1, h.maxExp, none,
      partialOk h.covers l, cnt⟩
  else
    let w := if h.pass = 1 then 173 else 109
    let v := convert ar.op h.fmt anchor w xs
    let fl := (if h.part then h.flags else 0) ||| (if v.bwr then flagBwr else 0) ||| (if v.rov then flagRov else 0)
      ||| (if v.inf && ar.op != 6 then flagInf ||| flagRov else 0) ||| (if v.nan.isSome then flagNan else 0)
    ⟨v.acc.at_ off h.count, witnessOf ar.op h.fmt op h.phase h.chunk off v.acc, fl, v.rov || bit fl 1,
      expMax v.maxExp (if h.part then h.maxExp else none), v.nan, true, cnt⟩

/-- A REFUSE to the sender of a frame (R81 Table 9); the refusal is counted. -/
def State.refuse (s : State) (f : Cf) (h : Ch) (code : Nat) (a : Int) (b : Nat) : State :=
  let hv := match s.ctxOf h.op with
    | some c => match s.coll.ctxs.get? c with
      | some x => x.ver
      | none => 0
    | none => 0
  let s := s.bump E.refused code 1
  s.sendColl f.job f.gen 4 f.src (ctlHeader 4 h.op h.inst h.chunk hv code 0 0 h.pass (wrapInt 32 a) b f.stamp)

/-- A duplicate, dropped and counted (R85, R121, R142). -/
def State.dup (s : State) (q job : Nat) : State :=
  (s.bump E.dupDropped 0 1).countEvent (8 * (8 + q)) 0x46 0xFFFF job 1

/-- A NaN trap (R47, R49). -/
def State.trap (s : State) (c : Nat) (x : Ctx) (k : Chunk) (f : Cf) (h : Ch) (payload : List Byte) (el : Nat) : State :=
  let xs := elemsOf h.fmt (frameCount h.fmt h.count h.frame) payload
  let e := xs.getD el (Elem.mk 0 0)
  let mx := isMx h.fmt && e.scale == 0xFF
  let el' := if mx then el / 32 * 32 else el
  let s := s.bump E.trapCount 0 1
  let s := if s.rd E.trapValid 0 = 1 then s else
    (s.wr E.trapRecord 0 (pack [(32, h.op), (8, h.inst), (8, h.fmt), (6, 0), (10, el'), (32, h.chunk), (24, f.src),
      (8, if mx then 2 else 1), (32, if mx then e.scale else e.raw), (8, k.die), (8, 0), (2, 0), (78, timeLayout f.stamp)])).wr
      E.trapValid 0 1
  let s := s.raise 0x7801 2 (8 + k.die) [.v 32 h.op, .v 8 h.inst, .v 32 h.chunk, .v 16 el', .v 24 f.src]
  (s.setChunk c h.inst { k with flags := k.flags ||| flagNan }).abortHere c h.inst 0x01 h.chunk

/-- A contribution's partial or elements sent on to h2 (R127). -/
def State.forwardBypass (s : State) (x : Ctx) (i : Inst) (k : Chunk) (h : Ch) (b : Brought) (payload : List Byte) : State :=
  let ar := x.reg.phaseAr k.phase
  let g : Ch := { h with part := true, witp := true, flags := b.flags, maxExp := b.exp, hver := i.ver }
  let send := fun (s : State) (g : Ch) (p : List Byte) => s.sendTo x 1 k.h2 (g.bytes s.gei p ++ p)
  if h.pass = 1 then send s { h with hver := i.ver, part := true } payload
  else if h.fmt = 0x18 ∨ ar.op = 1 ∨ ar.op = 2 then send s { g with wit := b.wit } payload
  else match b.acc with
    | .ints l =>
      (List.range (framesOf 0x18 h.count)).foldl (fun (s : State) fr =>
        let ls := (l.drop (256 * fr)).take 256
        let p := ls.flatMap (fun q => toBytes 16 (wrapInt 128 q))
        send s { g with fmt := 0x18, frame := fr, anchor := k.anchor,
                        wit := witnessInts (wseed x.reg.op k.phase k.chunk) (256 * fr) ls } p) s
    | _ => s

/-- A rank counted: its cover entry takes the frame. -/
def putCover (l : List Cover) (h : Ch) (src : Nat) : List Cover :=
  if l.any (fun (x : Cover) => x.first == h.first && x.count == h.covers) then
    l.map (fun (x : Cover) => if x.first = h.first ∧ x.count = h.covers then
      { x with frames := x.frames ||| 2 ^ h.frame } else x)
  else l ++ [⟨h.first, h.covers, 2 ^ h.frame, framesOf (if h.count = 0 then 0x18 else h.fmt) (max h.count 1), src⟩]

/-- The chunk of a context and instance, as a victim search passes it by. -/
def Placed.is (x : Placed) (c n : Nat) (k : Chunk) : Bool :=
  x.ctx == c && x.inst == n && x.k.chunk == k.chunk && x.k.phase == k.phase

/-- SRAM slots for a chunk that is open: free ones, or victims' (R117, R125 tier 1). -/
def State.sramFor (q : Nat) (skip : Placed → Bool) : Nat → State → Nat → Option (List Nat × State)
  | 0, s, _ => some ([], s)
  | n + 1, s, group =>
    let got := match s.findSlot q group with
      | some j => some (j, s.takeSlot q j)
      | none => (s.victimBut q skip).bind (fun (x : Placed) =>
          let s := s.spill x true
          (s.findSlot q group).map (fun j => (j, s.takeSlot q j)))
    got.bind (fun (y : Nat × State) =>
      (State.sramFor q skip n y.2 (y.1 / 512 + 1)).map (fun (z : List Nat × State) => (y.1 :: z.1, z.2)))

/-- `n` slots in one stack for a chunk that holds none (R118, R224). -/
def State.stackFor (s : State) (c : Nat) (who : Nat × Nat) (k : Chunk) (n : Nat) : Option (Chunk × State) :=
  if s.roomFor c k.reserved (n * slotBytes) then
    (s.slotStack k.die k.chunk k.reserved (n * slotBytes)).map (fun h =>
      let (bases, s) := s.takeStack who h n
      ({ k with inStacks := List.replicate n h, bases := bases }, s))
  else none

/-- A chunk's stack slots given up, and `n` slots taken afresh: in one stack, else in SRAM (R118, R224, R125 tier 1). -/
def State.moveSlots (s : State) (c : Nat) (who : Nat × Nat) (k : Chunk) (n : Nat) : Option (Chunk × State) :=
  let bare := { k with inStacks := [], bases := [] }
  let s := (k.inStacks.foldl (fun (s : State) h => s.returnSpill h slotBytes) s).setChunk c who.2 bare
  match s.stackFor c who bare n with
  | some y => some y
  | none => (State.sramFor k.die (fun x => x.is c who.2 k) n s (qscore who.1 k.phase k.chunk k.die / 2 ^ 59)).map
      (fun (y : List Nat × State) => ({ bare with slots := y.1 }, y.2))

/-- The second slot of a widened chunk (R51, R117, R125, R224): none when neither SRAM, nor a victim, nor a stack has it.  Both
slots lie in SRAM, or in one stack. -/
def State.widenSlot (s : State) (c : Nat) (who : Nat × Nat) (k : Chunk) : Option (Chunk × State) :=
  let h := k.inStacks.headD 0
  if !k.slots.isEmpty then
    match State.sramFor k.die (fun x => x.is c who.2 k) 1 s (k.slots.headD 0 / 512 + 1) with
    | some (j, s) => some ({ k with slots := k.slots ++ j }, s)
    | none =>
      let bare := { k with slots := [] }
      ((k.slots.foldl (fun (s : State) j => s.freeSlot k.die j) s).setChunk c who.2 bare).stackFor c who bare 2
  else if !k.inStacks.isEmpty ∧ s.roomFor c k.reserved slotBytes ∧ s.stackUp h ∧ slotBytes ≤ s.spillFreeOf h then
    let (b, s) := s.takeStack who h 1
    some ({ k with inStacks := k.inStacks ++ [h], bases := k.bases ++ b }, s)
  else s.moveSlots c who k 2

/-- The count of an OVERFLOWED chunk is complete: widened, or its instance aborted (R48, R51, R53). -/
def State.overflowDone (s : State) (c n : Nat) (x : Ctx) (i : Inst) (k : Chunk) : State :=
  let ar := x.reg.phaseAr k.phase
  let ctx := [Item.v 32 x.reg.op, .v 8 n]
  if k.flags &&& flagInf ≠ 0 then
    (s.raise 0x7802 2 (8 + k.die) (ctx ++ [.v 32 k.chunk])).abortHere c n 0x02 k.chunk
  else if !ar.rereduce then s.abortHere c n 0x03 k.chunk
  else if ar.limit ≤ i.widened then
    (s.raise 0x7804 2 (8 + k.die) (ctx ++ [.v 32 ar.limit])).abortHere c n 0x03 k.chunk
  else match s.widenSlot c (x.reg.op, n) k with
    | none => (s.raise 0x7409 2 (8 + k.die) (ctx ++ [.v 32 k.chunk])).abortHere c n 0x03 k.chunk
    | some (k, s) =>
      let l2 := widenAnchor k.anchor k.eChunk
      let s := s.raise 0x7803 0 (8 + k.die) (ctx ++ [.v 32 k.chunk, .v 16 (wrapInt 16 k.anchor), .v 16 (wrapInt 16 l2)])
      let s := (s.bump E.widenedTotal 0 1).modInst c n (fun (j : Inst) => { j with widened := j.widened + 1 })
      let k := { k with state := .widened, pass := 1, anchor := l2, cover := [], acc := .empty, wit := 0,
                        flags := (k.flags &&& 0xFE) ||| flagWid, request := 1 }
      State.spillOwn 16384 ((s.setChunk c n k).request c n k 1) k.die

/-- A chunk's contribution count looked at after a contribution (R84, R130). -/
def State.countLook (s : State) (c n : Nat) (x : Ctx) (i : Inst) (k : Chunk) : State :=
  let e := i.expected x.reg k.phase k.chunk
  if !coverFull k.cover e then s.setChunk c n k
  else match k.state with
    | .bypassOut => (s.setChunk c n { k with forwarded := true }).tryComplete c n
    | .overflowed => (s.setChunk c n k).overflowDone c n x i k
    | _ => s.setChunk c n { k with state := .completing }

/-- The finite nonzero elements of a contribution counted by exponent (R38, R61 EXP_HIST). -/
def histOf (m : Tab Nat) (fmt : Nat) (xs : List Elem) : Tab Nat :=
  xs.foldl (fun (m : Tab Nat) x =>
    let j := match decode fmt x with
      | .zero => some 0
      | .fin s a e => ((Dec.fin s a e).log2).map (fun t => (t + 150).toNat)
      | _ => none
    match j with
    | some k => m.set k (m.getD k 0 + 1)
    | none => m) m

/-- A frame accepted by the cover test converted, checked, and added or forwarded (R130, R151). -/
def State.applyFrame (s : State) (c n : Nat) (x : Ctx) (i : Inst) (k : Chunk) (f : Cf) (h : Ch) (payload : List Byte) : State :=
  let ar := x.reg.phaseAr k.phase
  let job := jobOf x.reg.op
  let b := bring ar x.reg.op h k.anchor payload
  let note := [Item.v 32 x.reg.op, .v 8 n, .v 32 k.chunk, .v 24 f.src]
  if k.pass = 1 ∧ (b.nan.isSome ∨ b.rov ∨ b.flags &&& flagInf ≠ 0) then
    let k := { k with flags := k.flags ||| (b.flags &&& flagInf) ||| (if b.nan.isSome then flagNan else 0) }
    ((s.setChunk c n k).raise 0x7805 2 (8 + k.die) note).abortHere c n 0x04 k.chunk
  else match b.nan with
    | some el => s.trap c x k f h payload el
    | none =>
      if !b.bound then (s.refuse f h 0x07 k.anchor 0 |>.raise 0x7806 1 (8 + k.die)
          [.v 32 x.reg.op, .v 8 n, .v 32 k.chunk, .v 16 (wrapInt 16 h.anchor), .v 16 (wrapInt 16 k.anchor)]).restart c n k
      else
        let atInf := decide (k.state = .overflowed) || decide (k.flags &&& flagInf ≠ 0) || b.rov
        let fails := i.witFailed.filter (fun (y : WitFail) => y.src == f.src && y.key == ckey k.phase k.chunk && y.pass == k.pass)
        if h.witp ∧ !atInf ∧ b.wit ≠ h.wit ∧ fails.any (fun y => y.frame == h.frame && y.at_ == s.now) then s.dup k.die job
        else if h.witp ∧ !atInf ∧ b.wit ≠ h.wit then
          let s := (s.refuse f h 0x0A 0 0).bump E.contribWitnessFailed 0 1
          let s := s.raiseLim ms (8 + k.die) 0x7C02 1 (8 + k.die) note
          if !fails.isEmpty then
            ((s.bump E.unresolved 0 1).raise 0x7C04 2 (8 + k.die) note).abortHere c n 0x0A k.chunk
          else
            let had := k.cover.any (fun (y : Cover) => y.first == h.first && y.count == h.covers)
            let w : WitFail := ⟨f.src, ckey k.phase k.chunk, k.pass, h.frame, s.now⟩
            let s := s.modInst c n (fun (j : Inst) => { j with witFailed := j.witFailed ++ [w] })
            if had then s else s.rearm c n (h.first, h.covers) s.now
        else
          let s := s.modInst c n (fun (j : Inst) =>
            let j := { j with accepted := true, anchor := some (if k.phase = 0 then j.anchor.getD k.anchor else x.anchorFor (some j) f.stamp),
                              counts := j.counts.set (ckey k.phase k.chunk) h.count }
            if k.pass = 0 ∧ !k.bypassIn then
              { j with maxExp := expMax j.maxExp b.exp,
                       hist := if h.fmt = 0x18 then j.hist else histOf j.hist h.fmt (elemsOf h.fmt b.n payload) }
            else j)
          let i := (s.inst? c n).getD i
          let s := ((s.countEvent (8 * (8 + k.die)) 0x40 0xFFFF job 1).countFixed (8 * (8 + k.die)) b.n).countFixed
            (8 * (8 + k.die) + 1) 1
          let k := { k with flags := k.flags ||| b.flags, eChunk := if k.pass = 0 then expMax k.eChunk b.exp else k.eChunk,
                            cover := putCover k.cover h f.src, lastStamp := f.stamp, count := h.count }
          let s := if k.bypassIn then s else
            (List.range h.covers).foldl (fun (s : State) r => s.progress c n (h.first + r) .contrib f.stamp) s
          let i := (s.inst? c n).getD i
          if k.state = .bypassOut then
            let s := s.forwardBypass x i k h b payload
            s.countLook c n x i k
          else if atInf then
            let s := if k.spilling then k.slots.foldl (fun (s : State) j => s.freeSlot k.die j) s else s
            let k := { k with state := .overflowed, acc := .empty, wit := 0, spilling := false,
                              slots := if k.spilling then [] else k.slots }
            if k.flags &&& flagInf ≠ 0 ∧ !ar.rereduce then
              ((s.setChunk c n k).raise 0x7802 2 (8 + k.die) [.v 32 x.reg.op, .v 8 n, .v 32 k.chunk]).abortHere c n 0x02 k.chunk
            else s.countLook c n x i k
          else
            let stk := k.inStacks.isEmpty
            let s := if stk then s else s.bump E.accCommands (k.inStacks.headD 0) b.n
            let k := { k with acc := k.acc.join ar.op b.acc, wit := combineWit ar.op (k.acc == .empty) k.wit b.wit }
            s.countLook c n x i k

/-- A pass-1 answer to a widening of h2 turns a bypassed chunk at h1 to pass 1, its cover map empty (log 32: h1 forwards the
answers). -/
def Chunk.turned (k : Chunk) (h : Ch) : Chunk :=
  if k.state = .bypassOut ∧ h.pass = 1 ∧ k.pass = 0 then { k with pass := 1, cover := [], forwarded := false, request := 1, anchor := h.anchor } else k

/-- A chunk takes no contribution of this pass and kind: it has its count, or it waits for re-sent ones (R86, R121). -/
def Chunk.gated (k : Chunk) (h : Ch) : Bool :=
  k.state == .completing || k.state == .held || h.pass != k.pass
    || ((k.state == .resending || (k.state == .bypassOut && k.request != 0)) && !h.resent)

/-- A contribution that has reached the die that tests its coverage (R82-R86, R121, R130). -/
def State.atChunk (s : State) (c n : Nat) (x : Ctx) (i : Inst) (k : Chunk) (f : Cf) (h : Ch) (payload : List Byte) : State :=
  let job := jobOf x.reg.op
  let k := k.turned h
  if k.gated h then s.dup k.die job
  else match coverTest k.cover h.first h.covers h.frame with
    | .duplicate => s.dup k.die job
    | .overlap => (s.refuse f h 0x08 0 0).restart c n k
    | _ => s.applyFrame c n x i k f h payload

end Sys2Proof.Machine
end

