-- ==== Sys2Proof/Machine/ParityRound.lean ====
section
/-!
DEFINITION. The parity round at a data device: its stream, pages and contributions (spec/15 R434-R436).
-/
namespace Sys2Proof.Machine

/-- The key of a parity group. -/
def parityKey (job group : Nat) : Nat := job * 256 + group

/-- The parity operation of a group (R435). -/
def parityOp (job group : Nat) : Nat := job * 65536 + 0xFF00 + group

/-- The rebuild operation of a group (R438). -/
def rebuildOp (job group : Nat) : Nat := job * 65536 + 0xFE00 + group

/-- A parity group set. -/
def State.setParity (s : State) (p : Parity) : State :=
  { s with graphs := { s.graphs with parity := s.graphs.parity.set (parityKey p.job p.group) p } }

/-- A home set has shrunk: the streams of the groups of the graph bound to the operation no longer match (R437). -/
def State.breakParity (s : State) (op : Nat) : State :=
  match s.boundTo op with
  | none => s
  | some (_, g) => s.graphs.parity.foldl (fun (s : State) (x : Nat × Parity) =>
    let p := x.2
    if p.admitted ∧ p.job = g.id / 65536 ∧ p.graph = g.id % 65536 ∧ p.state ≠ 2 then
      (s.setParity { p with state := 2 }).raise 0x900C 1 31 [.v 16 p.job, .v 16 p.group]
    else s) s

/-- The stripes of a data device's stream (R434): those it holds of the tensors the graph stores, in ascending tensor
index, then stripe. -/
def State.streamOf (s : State) (g : Graph) : List (Nat × Nat) :=
  let hs := g.stored.foldl (fun l h => insertNat h l) []
  hs.flatMap (fun h => match s.tensor? h with
    | some t => (s.heldStripes t).map (fun k => (h, k))
    | none => [])

/-- The bytes of a stripe in a stream: its elements from the copy that holds a version, unused positions zero. -/
def State.stripeBytes (s : State) (ver : Nat) (x : Nat × Nat) : List Byte :=
  match s.tensor? x.1 with
  | some t =>
    let y := t.stripe x.2
    let c := if y.other.ver = ver ∧ y.other.ok then y.other else y.cur
    (c.vals ++ List.replicate (1024 - c.vals.length) 0).flatMap (fun v => toBytes t.size v)
  | none => []

/-- Bytes of a stream. -/
def State.streamLen (s : State) (l : List (Nat × Nat)) : Nat :=
  l.foldl (fun a (x : Nat × Nat) => a + (match s.tensor? x.1 with
    | some t => 1024 * t.size
    | none => 0)) 0

/-- The 1,024 words of a page of this device's stream at a version; zeros beyond its end. -/
def State.pageOf (s : State) (p : Parity) (ver r : Nat) : List Byte :=
  let b := slice (p.stream.flatMap (s.stripeBytes ver)) (4096 * r) 4096
  b ++ List.replicate (4096 - b.length) 0

/-- The rank of a device among a list of devices in ascending order. -/
def rankAmong (l : List Nat) (d : Nat) : Nat := (l.filter (fun x => decide (x < d))).length

/-- A page as this device's contribution to a chunk of an XOR operation of INT32 (R435, R79). -/
def pageBody (src op inst r rank pass : Nat) (resent : Bool) (page : List Byte) : List Byte :=
  let w := witnessOf 3 0x10 op 0 r 0 (.raws ((elemsOf 0x10 1024 page).map (fun e => e.raw)))
  let h : Ch := { kind := 1, op := op, inst := inst, chunk := r, hver := 0, phase := 0, pass := pass, resent := resent, witp := true,
                  fmt := 0x10, anchor := 0, count := 1024, frame := 0, first := rank, covers := 1, wit := w }
  h.bytes src page ++ page

/-- A page sent. -/
def State.sendPage (s : State) (op inst r rank dest pass : Nat) (resent : Bool) (page : List Byte) : State :=
  s.sendColl (jobOf op) (s.jobGen (jobOf op)) 1 dest (pageBody s.gei op inst r rank pass resent page)

/-- The groups in which this device is a data device of a graph. -/
def State.groupsOf (s : State) (g : Graph) : List Parity :=
  (s.graphs.parity.map (·.2)).filter (fun (p : Parity) => p.admitted && p.job == g.id / 65536 && p.graph == g.id % 65536
    && p.data.contains s.gei)

/-- A data device contributes its stream after its last STORE of the run (R436 step 1); a BROKEN group runs no round. -/
def State.startRounds (s : State) (g : Graph) : State :=
  (s.groupsOf g).foldl (fun (s : State) p =>
    if p.state = 2 then s
    else
      let ver := g.version + 1
      let s := s.setParity { p with round := some ver, inst := (p.inst + 1) % 256, storedAt := s.now }
      (List.range p.pages).foldl (fun (s : State) r =>
        s.sendPage (parityOp p.job p.group) p.inst r (rankAmong p.data s.gei) p.pgei 0 false (s.pageOf p ver r)) s) s

/-- Every parity round of the run has its PARITY_DONE, or its wait has passed (R436 step 4). -/
def State.roundsDone (s : State) (g : Graph) : Bool :=
  (s.groupsOf g).all (fun (p : Parity) => p.state == 2 || p.doneFor == some (g.version + 1) || p.waived == some (g.version + 1))

/-- A REQUEST of the parity device is answered from the copies the run wrote (R436). -/
def State.answerPage (s : State) (src v : Nat) : State :=
  let op := bits v 247 216
  let inst := bits v 215 208
  match s.graphs.parity.find? (fun (x : Nat × Parity) =>
      parityOp x.2.job x.2.group == op && x.2.admitted && x.2.pgei == src && x.2.data.contains s.gei) with
  | some (_, p) =>
    if (p.inst + 255) % 256 = inst then
      match p.round with
      | some ver =>
        let r := bits v 207 176
        s.sendPage op inst r (rankAmong p.data s.gei) p.pgei (bits v 135 135) true (s.pageOf p ver r)
      | none => s
    else s
  | none => s

/-- A REQUEST names a page of a round that this device contributes to. -/
def State.asksPage (s : State) (src v : Nat) : Bool :=
  s.graphs.parity.any (fun (x : Nat × Parity) =>
    parityOp x.2.job x.2.group == bits v 247 216 && x.2.admitted && x.2.pgei == src && x.2.data.contains s.gei)

/-! ### The parity device (R436, R437) -/

/-- The group whose parity operation, or rebuild operation, this is. -/
def State.parityFor (s : State) (mk : Nat → Nat → Nat) (op : Nat) : Option Parity :=
  (s.graphs.parity.find? (fun (x : Nat × Parity) => x.2.admitted && mk x.2.job x.2.group == op)).map (·.2)

/-- Every page of a round is held. -/
def Parity.full (p : Parity) : Bool := p.pPages.length == p.pages

/-- PARITY to a data device, or to the parity device (R488): 0 DONE, 1 COMMITTED, 2 ABORTED. -/
def State.sendParity (s : State) (p : Parity) (dest kind ver : Nat) : State :=
  s.sendPeer dest 11 (toBytes 1 kind ++ toBytes 1 p.group ++ toBytes 2 p.job ++ toBytes 4 ver)

/-- A page of a round reduced at the parity device (R436 steps 2 and 3).  No message carries the version of a round: it is
the one after the committed version, or while none has been told a free value (log 9). -/
def State.keepPage (s : State) (p : Parity) (n chunk : Nat) (page : List Nat) : State :=
  let (ver, s) := match p.pending, p.committed with
    | some v, _ => (v, s)
    | none, some v => ((v + 1) % 2 ^ 32, s)
    | none, none => let (f, s) := s.free; (f % 2 ^ 32, s)
  let old := if p.pending.isSome ∧ p.inst = n then p.pPages else []
  let p := { p with pending := some ver, inst := n, pPages := old.set chunk page }
  let s := s.setParity p
  if p.full then p.data.foldl (fun (s : State) d => s.sendParity p d 0 ver) s else s

/-- A page of a rebuild reduced at the parity device (R438): counted, kept, and sent to a target that is another device. -/
def State.rebuildPage (s : State) (c n : Nat) (x : Ctx) (chunk : Nat) (frames : List (List Byte)) (page : List Nat) : State :=
  match s.graphs.rebuild with
  | none => s
  | some r =>
    if rebuildOp r.job r.group ≠ x.reg.op then s
    else
      let r := { r with pages := r.pages.set chunk page }
      let s := { s with graphs := { s.graphs with rebuild := some r } }
      let s := s.wr E.rebuildProgress 0 r.pages.length
      if r.target = s.gei then s
      else (frames.foldl (fun (s : State) b => s.sendTo x 2 r.target b) s).modInst c n
        (fun (j : Inst) => { j with lastLeft := max j.lastLeft s.now })

/-- The result of a parity or rebuild operation at the parity device. -/
def State.parityResult (s : State) (c n : Nat) (x : Ctx) (chunk : Nat) (frames : List (List Byte)) (payload : List Byte) : State :=
  let page := payload.map (fun b => b.toNat)
  match s.parityFor parityOp x.reg.op with
  | some p => if p.pgei = s.gei then s.keepPage p n chunk page else s
  | none => s.rebuildPage c n x chunk frames page

/-! ### Rebuild at a survivor and at the target (R438) -/

/-- A REQUEST of the parity device for a page of a rebuild, VALUE_A the index of the device to rebuild: the page of the
committed stream is sent (log 10). -/
def State.answerRebuild (s : State) (src v : Nat) : State :=
  let op := bits v 247 216
  match s.parityFor rebuildOp op with
  | some p =>
    if p.pgei = src ∧ p.data.contains s.gei then
      let r := bits v 207 176
      let ver : Nat := match s.graphOf (p.job * 65536 + p.graph) with
        | some (_, g) => g.version
        | none => 0
      let lost := p.data.getD (bits v 127 96) noGei
      let mem := p.pgei :: p.data.filter (fun d => d != lost)
      s.sendPage op (bits v 215 208) r (rankAmong mem s.gei) p.pgei (bits v 135 135) true (s.pageOf p ver r)
    else s
  | none => s

/-- A page of a rebuild received as a RESULT by the device that is rebuilt. -/
def State.takePage (s : State) (op chunk : Nat) (payload : List Byte) : State :=
  let page := payload.map (fun b => b.toNat)
  let job := op / 65536
  let group := op % 256
  let r : Rebuild := match s.graphs.rebuild with
    | some r => if r.job = job ∧ r.group = group then r
      else { job := job, group := group, index := 0, version := 0, target := s.gei, count := 0 }
    | none => { job := job, group := group, index := 0, version := 0, target := s.gei, count := 0 }
  { s with graphs := { s.graphs with rebuild := some { r with pages := r.pages.set chunk page } } }

/-- An operation ID is that of a rebuild (R438). -/
def isRebuild (op : Nat) : Bool := op / 256 % 256 == 0xFE

end Sys2Proof.Machine
end

