-- ==== Sys2Proof/Machine/Access.lean ====
section
/-!
DEFINITION. Access to dictionary entries: rights, confinement to a job, status codes in their order, and a write item
checked and committed (spec/17 R473-R478, R490, R497).
-/
namespace Sys2Proof.Machine

/-- The answer of an entry's own rule to a write (R475, R478): accepted, out of range, or refused with a code in a
status entry (0 names none). -/
inductive Verdict where
  | ok
  | range
  | refused (entry code : Nat)
  deriving DecidableEq, Repr

/-- The first cause of a list, in the order given (R273). -/
def firstCause (entry : Nat) : List (Bool × Nat) → Verdict
  | [] => .ok
  | (b, c) :: r => if b then .refused entry c else firstCause entry r

/-- The item status codes (R478 Table 4). -/
def stOk : Nat := 0
def stNoEntry : Nat := 1
def stNoElement : Nat := 2
def stReadOnly : Nat := 3
def stWriteOnly : Nat := 4
def stLength : Nat := 5
def stRange : Nat := 6
def stLocked : Nat := 7
def stNotAuthorised : Nat := 8
def stBusy : Nat := 9
def stNotApplied : Nat := 10
def stMalformed : Nat := 11
def stRefused : Nat := 12
def stRecovery : Nat := 13

/-- The key slot a request is judged under: as it was when the message under execution arrived, or as it is (R504). -/
def State.slotOf (s : State) (slot : Nat) : Option KeySlot :=
  match s.mgmt.judged with
  | some k => some k
  | none => s.mgmt.keys.get? slot

/-- The rights of a request's path (R497): bit 0 READ, 1 WRITE, 2 ADMIN, 3 AUDIT. -/
def State.rightsOf (s : State) : Path → Nat
  | .pcie => s.rd E.localRights 0
  | .smbus => s.rd E.localRightsSmbus 0
  | .dap slot => match s.slotOf slot with
    | some k => if k.enable then k.rights else 0
    | none => 0
  | .inband _ _ _ => 3

/-- The job a request is confined to (R490): that of its frame, or of its key slot. -/
def State.confined (s : State) : Path → Option Nat
  | .inband job _ _ => some job
  | .dap slot => match s.slotOf slot with
    | some k => if k.job = 0 then none else some k.job
    | none => none
  | _ => none

/-- The rights permit the access (R497). -/
def rightsAllow (rights e : Nat) (write : Bool) : Bool :=
  let i := e / 256
  let outside := decide (i < 0xF000) || decide (0xF400 ≤ i)
  let plain := if write then bit rights 1 && outside
    else bit rights 0 && (decide (i < 0xF100) || decide (0xF400 ≤ i))
  let admin := bit rights 2 && ((decide (0xF000 ≤ i) && decide (i < 0xF300)) || e == E.keyRotate || e == E.keyPeriod)
  let audit := bit rights 3 && decide (0xF300 ≤ i) && decide (i < 0xF400) && !(e == E.keyRotate || e == E.keyPeriod)
  plain || admin || audit

/-- The entries of Table 11 that are open to a job in band, for the access (R490). -/
def inbandEntry (e : Nat) (write : Bool) : Bool :=
  (e == E.timeNow && !write)
  || (decide (0x701001 ≤ e) && decide (e ≤ 0x70100A)) || e == E.homeQuery || e == E.weightQuery
  || e == E.sinkMode || e == E.sinkGei
  || (decide (0x800101 ≤ e) && decide (e ≤ 0x800103)) || e == 0x800201 || e == 0x800301
  || (decide (0x801001 ≤ e) && decide (e ≤ 0x801005)) || (decide (0x802001 ≤ e) && decide (e ≤ 0x802005)) || e == 0x803001
  || (decide (0x881001 ≤ e) && decide (e ≤ 0x881003))
  || e == 0x904001 || e == 0x904004 || (decide (0x904101 ≤ e) && decide (e ≤ 0x904103))
  || e == E.jobQuery || e == E.jobQuota || e == E.spawnQuery
  || ((e == E.counterValue || e == E.counterSelect) && !write)

/-- A value lies in a range list (R471). -/
def inRange (l : List (Int × Int × Nat)) (v : Int) : Bool :=
  l.isEmpty || l.any (fun x => decide (x.1 ≤ v) && decide (v ≤ x.2.1) && decide (v % (x.2.2 : Int) = 0))

/-- An element's value as the number its range is stated in. -/
def valueOf (ty : Ty) (v : Nat) : Int := if ty.signed then signed (8 * ty.size) v else v

/-- The causes of R478 that precede RANGE, in their order, for an item on `count` elements from `first`; `own` says
whether the element is open to the job the request is confined to. -/
def State.itemStatus (s : State) (a : Access) (e first count len : Nat) (write own : Bool) : Nat :=
  match entryRow e with
  | none => stNoEntry
  | some r =>
    let i := e / 256
    let recovery := s.rd E.deviceState 0 == 4 && !((decide (0x1000 ≤ i) && decide (i ≤ 0x1003)) || i == 0xF200)
    let allowed := rightsAllow (s.rightsOf a.path) e write && match s.confined a.path with
      | some _ => inbandEntry e write && own
      | none => true
    if recovery then stRecovery
    else if !allowed then stNotAuthorised
    else if write && r.right == .ro then stReadOnly
    else if !write && r.right == .wo then stWriteOnly
    else if write && r.right == .rwl && s.rd E.configLock 0 == 1 then stLocked
    else if (if r.count = 0 then !(count == 0 && first == 0) else (count == 0 || decide (r.count < first + count))) then stNoElement
    else if !write then (if len = 0 then stOk else stLength)
    else
      let n := max count 1
      match r.ty with
      | .bytes lo hi => if r.count = 0 then (if lo ≤ len ∧ len ≤ hi then stOk else stLength)
        else if len = n * hi then stOk else stLength
      | ty => if len = n * ty.size then stOk else stLength

/-- The range check of an element's value (R471). -/
def rangeStatus (e v : Nat) : Nat :=
  match entryRow e with
  | some r => if inRange r.range (valueOf r.ty v) then stOk else stRange
  | none => stNoEntry

/-- The elements a single-element item names: none for an entry that is no array. -/
def countOf (e : Nat) : Nat :=
  match entryRow e with
  | some r => if r.count = 0 then 0 else 1
  | none => 0

/-- A verdict's status code. -/
def Verdict.status : Verdict → Nat
  | .ok => stOk
  | .range => stRange
  | .refused _ _ => stRefused

/-- The reason a refused write leaves in its status entry (R478). -/
def Verdict.record (v : Verdict) (s : State) : State :=
  match v with
  | .refused e c => if e = 0 then s else s.wr e 0 c
  | _ => s

/-- A commit at a time: COMMIT_LAST shows it, later than the last one, and the keeper's cores run (R476, R531). -/
def State.committed (s : State) (t : Time) : State :=
  let last := timeNear t (s.rd E.commitLast 0)
  (s.keeperWork).wr E.commitLast 0 (timeLayout (if last < t then t else last + 1))

/-- A write item: its causes in their order, then the entry's own rule, then the commit; the item's status is answered
(R475, R476, R478).  Within a message it is first checked only, and then committed without a further check.  `told` is what
a refusal by the entry's own rule does besides. -/
def State.writeWith (s : State) (a : Access) (e el len val : Nat) (own : Bool) (rule : State → Verdict)
    (told act : State → State) : State :=
  let s := s.begin a.t
  if s.mgmt.pass = .committing then (act s).emit (.item stOk 0)
  else
    let st := s.itemStatus a e el (countOf e) len true own
    let st := if st = stOk then rangeStatus e val else st
    if st ≠ stOk then s.emit (.item st 0)
    else match rule s with
      | .ok => if s.mgmt.pass = .checking then s.emit (.item stOk 0) else (act (s.committed a.t)).emit (.item stOk 0)
      | .range => s.emit (.item stRange 0)
      | v => (told (v.record s)).emit (.item v.status 0)

/-- A write item whose refusal does nothing besides its status entry. -/
def State.writeOne (s : State) (a : Access) (e el len val : Nat) (own : Bool) (rule : State → Verdict)
    (act : State → State) : State := s.writeWith a e el len val own rule id act

/-- A plain value put in its element; a nonzero write of an RWS element returns it to its default (R473). -/
def State.putValue (s : State) (e el v : Nat) : State :=
  match entryRow e with
  | some r => if r.right = .rws then (if v = 0 then s else s.wr e el (dfltOf e el)) else s.wr e el v
  | none => s

/-- A read of an element that gives a value (R475). -/
def State.readOne (s : State) (a : Access) (e el : Nat) (own : Bool) (value : State → Nat) (after : State → State) : State :=
  let s := s.begin a.t
  let st := s.itemStatus a e el (countOf e) 0 false own
  if st ≠ stOk then s.emit (.item st 0)
  else (after s).emit (.item stOk (value s))

end Sys2Proof.Machine
end

