-- ==== Sys2Proof/Machine/Result.lean ====
section
/-!
DEFINITION. Results handed to their receivers, copy and barrier chunks, count results (spec/03 R72, R90-R92, spec/04 R118,
R122, spec/05 R143-R146).
-/
namespace Sys2Proof.Machine

/-! ### RESULT frames -/

/-- A result put into the resend store, on the stack that held its chunk's bookkeeping (R146, R223); where no spill space is
found beyond the headroom, nothing is stored (R122, log 47). -/
def State.storeResult (s : State) (c n : Nat) (who : Nat × Nat) (y : Result) : State :=
  let b := ceilDiv (y.frames.foldl (fun a f => a + f.length) 0) 64 * 64
  let (y, s) := if s.roomFor c false b ∧ b ≤ s.spillFreeOf y.stack then ({ y with bytes := b }, s.useSpill who y.stack b)
    else ({ y with frames := [] }, s)
  s.modInst c n (fun (j : Inst) => { j with results := j.results ++ [y] })

/-- Frame bodies sent to the receivers of a chunk; a count result goes to the other devices of the home set as well
(R72, R90).  The moment they were sent is the least that CHECK_GRACE runs from. -/
def State.sendResult (s : State) (c n : Nat) (x : Ctx) (i : Inst) (phase chunk stack : Nat) (frames : List (List Byte)) : State :=
  let e := i.receivers x.reg phase chunk
  let s := frames.foldl (fun (s : State) body =>
    let s := if e.2 = x.reg.m ∧ e.2 ≠ 0 then s.sendMembers i.group x 2 body
      else (x.reg.geis e).foldl (fun (s : State) d => s.sendTo x 2 d body) s
    if phase = 1 then ((x.hsetAt i.ver).filter (fun d => d != s.gei)).foldl (fun (s : State) d => s.sendTo x 2 d body) s
    else s) s
  let y : Result := { phase := phase, chunk := chunk, frames := frames, stack := stack }
  let s := if e.2 = 0 then s else s.storeResult c n (x.reg.op, n) y
  s.modInst c n (fun (j : Inst) => { j with lastLeft := max j.lastLeft s.now })

/-- The second copy of a RESULT frame: RESENT 1 and a new check (R107, R143). -/
def resentFrame (src : Nat) (body : List Byte) : List Byte :=
  let v := field body 0 48
  let p := body.drop 48
  let b := toBytes 40 ((v / 2 ^ 64) ||| 2 ^ (292 - 64))
  b ++ toBytes 8 (crc64 (toBytes 3 src ++ b ++ p)) ++ p

/-! ### Count results (R90-R92) -/

/-- A count result held; once every count chunk is, it is validated (R92). -/
def State.takeVector (s : State) (c n chunk : Nat) (l : List Int) : State :=
  let s := s.modInst c n (fun (i : Inst) => { i with vectors := i.vectors.set chunk l })
  match s.coll.ctxs.get? c with
  | none => s
  | some x => match findInst x.insts n with
    | none => s
    | some i => match i.vector x.reg with
      | none => s
      | some v =>
        let need := layoutChunks v
        if v.any (fun q => decide (q < 0)) ∨ x.reg.chunks < need then
          (s.raise 0x7006 2 31 [.v 32 x.reg.op, .v 8 n, .v 32 need]).abortHere c n 0x09 allOnes
        else s.tryComplete c n

/-! ### Copy and barrier chunks (R72, R118, R144) -/

/-- A contribution to a copy or barrier chunk: coverage, and for a copy the RESULT frames from the same payload. -/
def State.applyCopy (s : State) (c n : Nat) (x : Ctx) (i : Inst) (k : Chunk) (f : Cf) (h : Ch) (payload : List Byte) : State :=
  let job := jobOf x.reg.op
  if k.gated h then s.dup k.die job
  else match coverTest k.cover h.first h.covers h.frame with
    | .accept =>
      let s := s.modInst c n (fun (j : Inst) =>
        { j with accepted := true, anchor := some (j.anchor.getD 0), counts := j.counts.set (ckey k.phase k.chunk) h.count })
      let s := s.progress c n h.first .contrib f.stamp
      let k := { k with cover := putCover k.cover h f.src, lastStamp := f.stamp, count := h.count }
      let s := s.setChunk c n k
      if !coverFull k.cover (i.expected x.reg k.phase k.chunk) then s
      else
        let g : Ch := { kind := 2, op := x.reg.op, inst := n, chunk := k.chunk, hver := i.ver, phase := 0, pass := 0, fmt := h.fmt,
                        anchor := 0, count := h.count, frame := 0, covers := 1 }
        let s := if x.reg.isCopy then s.sendResult c n x i 0 k.chunk k.bookAt [g.bytes s.gei payload ++ payload] else s
        (s.endChunk c n k).chunkDone c n (ckey k.phase k.chunk)
    | _ => s.dup k.die job

end Sys2Proof.Machine
end

