-- ==== Sys2Proof/Machine/Intake.lean ====
section
/-!
DEFINITION. Contributions received: R81, the causes of Table 9, the ring schedule (R101), the way to the chunk
(spec/03 R74, R77, R81-R86, R101, spec/05 R141).
-/
namespace Sys2Proof.Machine

/-! ### Malformed frames (R81) -/

/-- A chunk header's reserved fields are zero. -/
def chunkReserved (v : Nat) : Bool :=
  bits v 289 288 == 0 && bits v 241 240 == 0 && bits v 202 192 == 0 && bits v 175 128 == 0 && bits v 127 125 == 0

/-- A frame with a chunk header passes R81: its format is a chunk input's, or a result's in a RESULT (R24). -/
def chunkFormOk (job v : Nat) (payload : List Byte) : Bool :=
  bits v 383 380 == 1 && decide (bits v 295 294 ≤ 1) && bits v 375 360 == job && chunkReserved v
    && (isInput (bits v 287 280) || (bits v 379 376 == 2 && isOutput (bits v 287 280)))
    && frameBytes (bits v 287 280) (bits v 255 245) (bits v 244 242) == some payload.length

/-- A frame with a control header passes R81: REGISTER carries a payload, COLOPHON one of 80 bytes, the others none. -/
def ctlFormOk (job v : Nat) (payload : List Byte) : Bool :=
  let kind := bits v 251 248
  bits v 255 252 == 1 && decide (3 ≤ kind) && decide (kind ≤ 13) && bits v 247 232 == job
    && bits v 134 128 == 0 && bits v 1 0 == 0
    && (if kind = 0xD then payload.length == 80 else if kind = 0xB then true else payload.isEmpty)

/-- A malformed collective frame dropped, counted and reported (R81). -/
def State.badColl (s : State) (f : Cf) (op inst kind : Nat) : State :=
  (s.bump E.malformed 0 1).raiseLim ms f.die 0x7008 1 f.die [.v 32 op, .v 8 inst, .v 16 f.port, .v 8 kind]

/-! ### The causes of Table 9 -/

/-- The first instance that uses a version (R70). -/
def Ctx.firstOf (x : Ctx) (ver : Nat) : Nat :=
  match x.excluded.find? (fun (e : Nat × Nat × Nat) => e.2.1 == ver) with
  | some e => e.2.2
  | none => x.reg.first

/-- FORMAT and PARTIAL are those the operation takes (Table 6); a pass-1 answer passed on by h1 keeps the input format. -/
def formatOk (r : Reg) (h : Ch) : Bool :=
  let a := r.ar
  if h.phase = 1 then h.fmt == 0x10 && !h.part
  else if r.isCopy ∨ r.isBarrier then h.fmt == a.inFmt && !h.part
  else match a.op with
    | 0 => if h.part ∧ h.pass = 0 then h.fmt == 0x18 else h.fmt == a.inFmt
    | 6 => if h.part ∧ h.pass = 0 then h.fmt == 0x18 else h.fmt == a.inFmt
    | 1 => h.fmt == a.inFmt
    | 2 => h.fmt == a.inFmt
    | _ => h.fmt == a.inFmt && !h.part

/-- ELEM_COUNT agrees with the chunk's fixed count or layout; otherwise the count expected. -/
def countWrong (i : Inst) (r : Reg) (h : Ch) : Option Nat :=
  match i.elements r h.phase h.chunk with
  | some n => if h.count = n then none else some n
  | none => if 1 ≤ h.count ∧ h.count ≤ 1024 then none else some 1024

/-- The cover range lies in E(c), and a contribution that is no partial covers its source's rank alone. -/
def coverOk (i : Inst) (r : Reg) (src : Nat) (h : Ch) : Bool :=
  let e := i.expected r h.phase h.chunk
  decide (1 ≤ h.covers) && decide (e.1 ≤ h.first) && decide (h.first + h.covers ≤ e.1 + e.2)
    && (h.part || (h.covers == 1 && r.rankOf src == some h.first))

/-- The devices of a ring in order from the one after h1 to h1 (R101). -/
def ringFrom (hset : List Nat) (h1 : Nat) : List Nat :=
  let l := hset.filter (fun d => decide (h1 < d)) ++ hset.filter (fun d => decide (d < h1))
  l ++ [h1]

/-- A contribution of a ring schedule that this device sums before h1: a local member's, or the partial of the device
before it. -/
def State.ringMine (s : State) (x : Ctx) (i : Inst) (h1 : Nat) (src : Nat) (h : Ch) : Bool :=
  x.reg.ring && h1 != s.gei && h.phase == 0 &&
    let order := ringFrom (x.hsetAt i.ver) h1
    if h.part then (match order.idxOf? s.gei with
      | some k => decide (0 < k) && order.getD (k - 1) noGei == src
      | none => false)
    else match x.reg.rankOf src with
      | some k => x.reg.localOf k == s.gei
      | none => false

/-- A partial of the chunk's h1 to this device as its h2 (R127). -/
def State.fromH1 (s : State) (x : Ctx) (i : Inst) (src : Nat) (h : Ch) : Bool :=
  let hm := homes x.reg.op h.phase h.chunk (x.hsetAt i.ver)
  hm.1 != s.gei && hm.2 == s.gei && h.part && src == hm.1 && !x.reg.ring

/-- The first cause of Table 9 that a contribution of an acceptable instance meets, with VALUE_A and VALUE_B. -/
def State.cause (s : State) (x : Ctx) (i : Inst) (st : Ahead) (f : Cf) (h : Ch) (good : Bool) : Option (Nat × Int × Nat) :=
  let r := x.reg
  let h1 := (homes r.op h.phase h.chunk (x.hsetAt i.ver)).1
  if h.hver ≠ i.ver then some (0x03, (i.ver : Int), x.firstOf i.ver)
  else if h1 ≠ s.gei ∧ !s.fromH1 x i f.src h ∧ !s.ringMine x i h1 f.src h then some (0x02, (h1 : Int), 0)
  else if h.phase = 1 ∧ !r.v then some (0x10, 0, 0)
  else match i.chunkCount r h.phase with
    | none => some (0x0D, 0, 0)
    | some n =>
      if n ≤ h.chunk then some (0x0F, (n : Int), 0)
      else if !formatOk r h then some (0x0C, (r.ar.inFmt : Int), 0)
      else match countWrong i r h with
        | some n => some (0x0E, (n : Int), 0)
        | none =>
          if !coverOk i r f.src h then some (0x0B, 0, 0)
          else if r.auto ∧ st = .next then some (0x05, (x.opn : Int), 0)
          else if !good then some (0x09, (h.frame : Int), 0)
          else none

/-! ### Sums kept apart by contribution (R88, R101) -/

/-- The witnesses of a contribution's sums, frame by frame; where it carried its own, they add up to it (R83, R152). -/
def partWits (op chunk : Nat) (own : Option Nat) (sums : List Int) : List Nat :=
  let n := ceilDiv sums.length 256
  let w := (List.range n).map (fun fr => witnessInts (wseed op 0 chunk) (256 * fr) ((sums.drop (256 * fr)).take 256))
  match own with
  | none => w
  | some t => w.dropLast ++ [(t + (n + 1) * pMod - w.dropLast.foldl (· + ·) 0) % pMod]

/-- A contribution as a part. -/
def partOf (f : Cf) (hdr : Hdr) (hops : List Nat) (h : Ch) (b : Brought) : Part :=
  let sums := match b.acc with
    | .ints l => l
    | _ => []
  let one := h.fmt == 0x18
  let wits := if one then (List.range (framesOf 0x18 h.count)).map (fun k => if k = h.frame then h.wit else 0)
    else partWits h.op h.chunk (if h.witp then some h.wit else none) sums
  ⟨h.first, h.covers, 2 ^ h.frame, if one then framesOf 0x18 h.count else 1, sums, wits, b.flags &&& 0x23, b.exp, hdr, hops, f.die⟩

/-- A part is whole. -/
def Part.whole (p : Part) : Bool := p.frames == 2 ^ p.want - 1

/-- Two parts of the same ranks, or of adjacent runs, added; the first keeps its route. -/
def Part.add (a b : Part) : Part :=
  { a with frames := a.frames ||| b.frames, sums := List.zipWith (· + ·) a.sums b.sums,
           wits := List.zipWith (fun x y => (x + y) % pMod) a.wits b.wits, flags := a.flags ||| b.flags,
           maxExp := expMax a.maxExp b.maxExp }

/-- A part inserted by its first rank; further frames of a held range are added to it. -/
def putPart : List Part → Part → List Part
  | [], p => [p]
  | a :: r, p => if a.first = p.first then a.add p :: r else if p.first < a.first then p :: a :: r else a :: putPart r p

/-- The maximal runs of consecutive ranks (R88 step 3), whole parts only. -/
def runs : List Part → List Part
  | [] => []
  | [a] => [a]
  | a :: b :: r =>
    match runs (b :: r) with
    | c :: t => if a.first + a.count = c.first then { a.add c with count := a.count + c.count } :: t else a :: c :: t
    | [] => [a]

/-- The partial frames of a run (R88): bodies of CONTRIB frames in XA128. -/
def partialBodies (src : Nat) (p : PreSlot) (r : Part) : List (List Byte) :=
  (List.range (framesOf 0x18 p.count)).map (fun fr =>
    let pl := ((r.sums.drop (256 * fr)).take 256).flatMap (fun q => toBytes 16 (wrapInt 128 q))
    let g : Ch := { kind := 1, op := p.op, inst := p.inst, chunk := p.chunk, hver := p.hver, phase := 0, pass := 0, part := true,
                    witp := true, fmt := 0x18, flags := r.flags, anchor := p.anchor, count := p.count, frame := fr,
                    first := r.first, covers := r.count, maxExp := r.maxExp, wit := r.wits.getD fr 0 }
    g.bytes src pl ++ pl)

/-- The slot of a chunk, instance and anchor. -/
def State.preSlot? (s : State) (ring : Bool) (op inst chunk : Nat) (anchor : Int) : Option PreSlot :=
  s.coll.preSlots.find? (fun (p : PreSlot) => p.ring == ring && p.op == op && p.inst == inst && p.chunk == chunk && p.anchor == anchor)

/-- A slot put back. -/
def State.setPreSlot (s : State) (p : PreSlot) : State :=
  let same := fun (y : PreSlot) => y.ring == p.ring && y.op == p.op && y.inst == p.inst && y.chunk == p.chunk && y.anchor == p.anchor
  { s with coll := { s.coll with preSlots := s.coll.preSlots.filter (fun y => !same y) ++ [p] } }

/-! ### The ring schedule (R101) -/

/-- The ranks a device of the ring sends on: those local to it and to the devices before it. -/
def Reg.ringRanks (r : Reg) (before : List Nat) : Nat :=
  r.ranges.foldl (fun a (x : Nat × Nat × Nat) => if before.contains (r.hset.getD x.2.2 0) then a + (x.2.1 + 1 - x.1) else a) 0

/-- A CONTRIB passed on with its header and payload unchanged. -/
def State.passOn (s : State) (x : Ctx) (src dest header : Nat) (payload : List Byte) : State :=
  s.originate ⟨{ ptype := 2, cclass := true, dest := dest, src := src, job := jobOf x.reg.op, gen := x.gen }, [],
    toBytes 48 header ++ payload⟩

/-- A contribution at a device of the ring before h1: summed for its local members and passed on with what came before, or
sent to h1 as it came when no XA128 sum takes it. -/
def State.ringTake (s : State) (x : Ctx) (i : Inst) (f : Cf) (header : Nat) (h : Ch) (payload : List Byte) : State :=
  let h1 := (homes x.reg.op 0 h.chunk (x.hsetAt i.ver)).1
  let order := ringFrom (x.hsetAt i.ver) h1
  let k := (order.idxOf? s.gei).getD 0
  let b := bring x.reg.ar x.reg.op h h.anchor payload
  let sums := (x.reg.ar.op == 0 || x.reg.ar.op == 6) && h.pass == 0 && !h.resent && b.nan.isNone && b.bound
  let hdr : Hdr := { ptype := 2, cclass := true, dest := h1, src := s.gei, job := jobOf x.reg.op, gen := x.gen }
  let b0 : PreSlot := { op := x.reg.op, inst := h.inst, chunk := h.chunk, anchor := h.anchor, count := h.count, hver := i.ver,
                        ring := true, openedAt := f.stamp }
  let p := (s.preSlot? true x.reg.op h.inst h.chunk h.anchor).getD b0
  let held := p.parts.find? (fun (y : Part) => y.first == h.first && y.count == h.covers)
  let clash := match held with
    | some y => bit y.frames h.frame
    | none => p.parts.any (fun (y : Part) => decide (y.first < h.first + h.covers) && decide (h.first < y.first + y.count))
  if !sums ∨ p.closed ∨ p.count ≠ h.count then s.passOn x f.src h1 header payload
  else if clash then s.bump E.dupDropped 0 1
  else
    let p := { p with parts := putPart p.parts (partOf f hdr [] h b) }
    let have_ := p.parts.foldl (fun a (y : Part) => if y.whole then a + y.count else a) 0
    let s := { s with coll := { s.coll with preSlots := s.coll.preSlots.filter (fun (y : PreSlot) =>
      !(y.ring && y.op == x.reg.op && decide (2 ≤ (y.inst + 256 - x.opn) % 256))) } }
    if have_ = x.reg.ringRanks (order.take (k + 1)) ∧ p.parts.all (·.whole) then
      let next := order.getD (k + 1) h1
      let s := s.setPreSlot { p with parts := [], closed := true }
      (runs p.parts).foldl (fun (s : State) r =>
        (partialBodies s.gei p r).foldl (fun (s : State) body => s.sendTo x 1 next body) s) s
    else s.setPreSlot p

/-! ### A contribution at its home -/

/-- A frame that leaves the stitch mesh damaged is refused at the quire die and takes no part in its chunk (R141). -/
def State.damaged (s : State) (f : Cf) (h : Ch) (q : Nat) : State :=
  ((s.bump E.checkFailedInternal 0 1).raise 0x7C05 2 (8 + q)
    [.v 32 h.op, .v 8 h.inst, .v 16 f.die, .v 16 q, .v 32 h.chunk]).refuse f h 0x09 h.frame 0

/-- In fixed mode the anchor follows the writes until an instance accepts a contribution (R36): a chunk that a refused one
has opened takes the anchor in force at the next. -/
def Ctx.refit (x : Ctx) (i : Inst) (k : Chunk) (stamp : Time) : Chunk :=
  if i.anchor.isNone ∧ k.phase = 0 then { k with anchor := x.anchorFor (some i) stamp } else k

/-- A contribution carried over the stitch mesh to the die that holds its chunk: at once, or over the quire ring from q_a (R115,
R116, R375). -/
def State.toDie (s : State) (c n : Nat) (f : Cf) (header : Nat) (h : Ch) (payload : List Byte) (first : Bool) : State :=
  match s.coll.ctxs.get? c with
  | none => s
  | some x => match findInst x.insts n with
    | none => s
    | some i => match findChunk i.chunks h.phase h.chunk with
      | none => s
      | some k =>
        let qa := (s.candidates x.reg.op h.phase h.chunk).1
        let round := x.reg.plainChunk h.phase = false ∧ qa ≠ some k.die ∧ (first ∨ !k.steered.contains f.die)
        let s := s.stitch f.die (8 + if round then qa.getD k.die else k.die) f.port (72 + payload.length)
        if x.reg.plainChunk h.phase then s.applyCopy c n x i k f h payload
        else
          let k := x.refit i k f.stamp
          if round then
            { s with coll := { s.coll with crossing := s.coll.crossing ++ [(⟨f.die, f.stamp, f.src, BitVec.ofNat 384 header, payload⟩ : Crossing)] } }
          else s.atChunk c n x i k f h payload

/-- A bypassed chunk that this device has opened for another h1 (R128). -/
def State.tookIn (s : State) (c n key : Nat) : State :=
  (s.modInst c n (fun (j : Inst) => { j with takenIn := insertNat key j.takenIn })).bump E.bypassInTotal 0 1

/-- The first bypass partial of a chunk that this device cannot open: dropped and refused for the instance (R128). -/
def State.refuseBypass (s : State) (c n : Nat) (x : Ctx) (f : Cf) (h : Ch) : State :=
  let q := ((s.candidates x.reg.op h.phase h.chunk).1).getD 0
  let s := s.modInst c n (fun (j : Inst) => { j with bypassNo := insertNat (ckey h.phase h.chunk) j.bypassNo })
  let s := (s.bump E.bypassRefused 0 1).raise 0x7404 1 (8 + q) [.v 32 x.reg.op, .v 8 n, .v 32 h.chunk, .v 24 f.src, .v 24 s.gei]
  (s.sendBypass f.src 0 x.reg.op n h.chunk).tryComplete c n

/-- A partial refused for its window, and its chunk restarted, or opened in RESENDING by tier 1 or 2 (R42, R86). -/
def State.windowMismatch (s : State) (c n : Nat) (x : Ctx) (k : Option Chunk) (f : Cf) (h : Ch) (want : Int) (byp : Bool) : State :=
  let q := match k with
    | some k => k.die
    | none => ((s.candidates x.reg.op h.phase h.chunk).1).getD 0
  let s := (s.refuse f h 0x07 want 0).raise 0x7806 1 (8 + q)
    [.v 32 x.reg.op, .v 8 n, .v 32 h.chunk, .v 16 (wrapInt 16 h.anchor), .v 16 (wrapInt 16 want)]
  match k with
  | some k => s.restart c n k
  | none => match s.openChunk c n h.phase h.chunk h.count f.stamp (if byp then f.src else s.gei) .resending with
    | (true, s) =>
      let s := if byp then s.tookIn c n (ckey h.phase h.chunk) else s
      match s.chunk? c n h.phase h.chunk with
      | some k => s.askAgain c n k 2
      | none => s
    | (false, s) => if byp then s.refuseBypass c n x f h else s

/-- An XA128 partial breaks R32's bound. -/
def Ch.tooWide (h : Ch) (payload : List Byte) : Bool :=
  h.fmt == 0x18 && !partialOk h.covers (partialInts (elemsOf h.fmt (frameCount h.fmt h.count h.frame) payload))

/-- A contribution without a cause of Table 9 that finds no chunk record: late for its chunk, deferred, or the first. -/
def State.firstContrib (s : State) (c n : Nat) (x : Ctx) (j : Inst) (f : Cf) (header : Nat) (h : Ch) (payload : List Byte)
    (byp : Bool) : State :=
  let key := ckey h.phase h.chunk
  let q := ((s.candidates x.reg.op h.phase h.chunk).1).getD 0
  let has := fun (l : List Nat) => l.contains key
  let want := if h.phase = 1 then 0 else x.anchorFor (some j) f.stamp
  if has j.done ∨ has j.emitted then s.dup q (jobOf x.reg.op)
  else if has j.deferred then s.bump E.deferredDrops 0 1
  else if has j.bypassNo then s
  else if h.pass = 1 then s.dup q (jobOf x.reg.op)
  else if h.part ∧ (h.anchor ≠ want ∨ h.tooWide payload) then s.windowMismatch c n x none f h want byp
  else if h.anchor ≠ want then s.refuse f h 0x06 want 0
  else match s.openChunk c n h.phase h.chunk h.count f.stamp (if byp then f.src else s.gei) .opened with
    | (true, s) => (if byp then s.tookIn c n key else s).toDie c n f header h payload true
    | (false, s) => if byp then s.refuseBypass c n x f h else s.bump E.deferredDrops 0 1

/-- An instance takes contributions of a chunk: it is open, or it has completed here with the chunk bypassed, whose
answers h1 still forwards, or reduces where h2 has refused it (R128, R155; log 192). -/
def Inst.takes (i : Inst) (phase chunk : Nat) : Bool :=
  i.state == .opened || (i.state == .completed && match findChunk i.chunks phase chunk with
    | some (k : Chunk) => k.state != .held
    | none => false)

/-- A CONTRIB frame addressed to this device (R81-R86, R127, R128, R141). -/
def State.takeContrib (s : State) (f : Cf) (header : Nat) (payload : List Byte) (upset : Bool) : State :=
  let h := chOf header
  if !chunkFormOk f.job header payload then s.badColl f h.op h.inst h.kind
  else match s.ctxOf h.op with
    | none => s.refuse f h 0x01 0 0
    | some c => match s.coll.ctxs.get? c with
      | none => s
      | some x =>
        let i := findInst x.insts h.inst
        let takes : Option Bool := i.map (fun (j : Inst) => j.takes h.phase h.chunk)
        let st := x.stands h.inst
        if takes = some false ∨ (st = .late ∧ takes ≠ some true) then s.bump E.lateDropped 0 1
        else if st = .ahead then s.refuse f h 0x04 (x.opn : Int) 0
        else
          let j : Inst := i.getD { num := h.inst, ver := x.verOf h.inst, openedAt := f.stamp }
          match s.cause x j st f h (checkOk f.src header payload) with
          | some (code, a, b) =>
            let s := if code = 0x09 then s.bump E.checkFailedIn 0 1 else s
            s.refuse f h code a b
          | none =>
            let byp := s.fromH1 x j f.src h
            let h1 := (homes x.reg.op h.phase h.chunk (x.hsetAt j.ver)).1
            let want := if h.phase = 1 then 0 else x.anchorFor i f.stamp
            let held := findChunk j.chunks h.phase h.chunk
            if upset ∧ !x.reg.plainChunk h.phase then
              s.damaged f h (match held with
                | some k => k.die
                | none => ((s.candidates x.reg.op h.phase h.chunk).1).getD 0)
            else if h1 ≠ s.gei ∧ !byp then
              if h.pass = 0 ∧ h.anchor ≠ want then s.refuse f h (if h.part then 0x07 else 0x06) want 0
              else (s.openInst c h.inst f.stamp).ringTake x j f header h payload
            else match held with
              | some k =>
                let k := x.refit j k f.stamp
                let k' := k.turned h
                if k'.gated h then s.dup k.die (jobOf x.reg.op)
                else if h.anchor ≠ k'.anchor then
                  if h.part then s.windowMismatch c h.inst x (some k) f h k.anchor byp else s.refuse f h 0x06 k.anchor 0
                else s.toDie c h.inst f header h payload false
              | none =>
                let s := if h.pass = 0 ∧ (h.anchor = want ∨ h.part) then s.openInst c h.inst f.stamp else s
                match s.coll.ctxs.get? c with
                | none => s
                | some x => match findInst x.insts h.inst with
                  | some j => if j.state ≠ .opened then s.bump E.lateDropped 0 1 else s.firstContrib c h.inst x j f header h payload byp
                  | none => if h.pass = 1 then s.dup 0 (jobOf x.reg.op) else s.refuse f h 0x06 want 0

/-- CONTRIB: a CONTRIB frame reaches this device; `upset` says that it leaves the stitch mesh damaged (R82). -/
def execContrib (t : Time) (f : Cf) (header : BitVec 384) (payload : List Byte) (upset : Bool) (s : State) :
    Host.Outcome State Fault Refusal :=
  let s := s.begin t
  .next (if bits header.toNat 379 376 = 1 then s.takeContrib f header.toNat payload upset else s)

/-- STEERED_FORWARD: the first contribution crossing the quire ring from a q_a reaches its q_b (R116). -/
def execSteeredForward (t : Time) (s : State) : Host.Outcome State Fault Refusal :=
  let s := s.begin t
  .next (match s.coll.crossing with
    | [] => s
    | y :: r =>
      let s := { s with coll := { s.coll with crossing := r } }
      let h := chOf y.header.toNat
      match s.instOf h.op h.inst with
      | none => s.bump E.lateDropped 0 1
      | some (c, i) => match s.coll.ctxs.get? c with
        | none => s
        | some x =>
          let f : Cf := ⟨y.die, noPort, y.stamp, y.src, jobOf h.op, x.gen⟩
          if !i.takes h.phase h.chunk then s.bump E.lateDropped 0 1
          else match findChunk i.chunks h.phase h.chunk with
            | some k => s.atChunk c h.inst x i (x.refit i k f.stamp) f h y.payload
            | none => if i.deferred.contains (ckey h.phase h.chunk) then s.bump E.deferredDrops 0 1
              else s.dup (((s.candidates h.op h.phase h.chunk).1).getD 0) (jobOf h.op))

/-- DEFERRED_REOPEN: space has come free at a quire die, which reopens its first deferred chunk (R129). -/
def execDeferredReopen (t : Time) (die : Nat) (s : State) : Host.Outcome State Fault Refusal :=
  let s := s.begin t
  .next (s.reopen die)

end Sys2Proof.Machine
end

