-- ==== Sys2Proof/Machine/PreReduce.lean ====
section
/-!
DEFINITION. The leaf role's pre-reduction (spec/03 R87, R88) and the frame path it shares with the switch core (spec/09
R249, R250).
-/
namespace Sys2Proof.Machine

/-- A frame that is not for this device goes by the route table or its next hop (R249, R250). -/
def State.routeOn (s : State) (p : Nat) (stamp : Time) (f : Mft) : State :=
  let die := dieOf p
  let pool := s.poolFor p f.cls false
  match f.hops with
  | [] =>
    let (r, s, h) := s.resolveGei die f.cls f.hdr.job f.hdr.dest f.hdr.detoured
    match r with
    | .ok tg =>
      let s := if tg.det then s.bump E.detoured 0 1 else s
      s.forward p stamp (.mft { f with hdr := { f.hdr with detoured := f.hdr.detoured || tg.det } }) tg h 0 pool
    | .malformed => s.drop .malformed p
    | .fail c => s.dropRoute f p c 0xFFFF 0
  | h :: rest =>
    let n := f.hops.length
    match s.resolveDetour die f.cls f.hdr.job h f.hdr.detoured with
    | (.ok tg, s) =>
      let s := if tg.det then s.bump E.detoured 0 1 else s
      s.forward p stamp (.mft { f with hops := rest, hdr := { f.hdr with detoured := f.hdr.detoured || tg.det } }) tg h n pool
    | (.malformed, s) => s.drop .malformed p
    | (.fail c, s) => s.dropRoute f p c h n

/-- A frame is a CONTRIB that qualifies for pre-reduction here (R88). -/
def State.preTakes (s : State) (f : Mft) : Bool :=
  s.rd E.roleNow 0 == 1 && s.rd E.prereduceEn 0 == 1 && f.hdr.ptype == 2 && decide (48 ≤ f.body.length) &&
    let v := field f.body 0 48
    let p := f.body.drop 48
    let h := chOf v
    h.kind == 1 && chunkFormOk f.hdr.job v p && match s.coll.pre.get? h.op with
      | none => false
      | some e =>
        let xs := elemsOf h.fmt h.count p
        let c := convert e.operator h.fmt h.anchor 109 xs
        h.pass == 0 && h.phase == 0 && !h.resent && !h.part && h.covers == 1
          && decide (e.first ≤ h.first) && decide (h.first < e.first + e.count)
          && isInput h.fmt && h.fmt != 0x18 && decide (-256 ≤ h.anchor) && decide (h.anchor ≤ 64)
          && (e.operator != 6 || h.anchor == 0) && c.nan.isNone && !c.inf && checkOk f.hdr.src v p

/-- The job of a slot's contributions still holds its job tag in their generation; once it has retired, nothing is sent under it
(R108, R454; log 193). -/
def State.preJob (s : State) (p : PreSlot) : Bool :=
  p.parts.all (fun (y : Part) => match s.jobs.get? (jobOf p.op) with
    | some j => (j.state == .active || j.state == .retiring) && j.gen == y.hdr.gen
    | none => false)

/-- A slot's runs sent as partials, with the route of each run's first contribution, and the slot closed (R88 steps 3
and 4). -/
def State.closePre (s : State) (p : PreSlot) : State :=
  let s := match p.slot with
    | some k => s.freeSlot p.die k
    | none => s
  let s := s.setPreSlot { p with parts := [], closed := true, slot := none }
  if !s.preJob p then s
  else (runs p.parts).foldl (fun (s : State) r =>
    ((partialBodies s.gei p r).foldl (fun (s : State) body =>
      s.originate ⟨{ r.hdr with src := s.gei }, r.hops, body⟩) s).bump E.prPartials 0 1) s

/-- A qualifying contribution taken into its slot, or forwarded unreduced (R88 steps 1 to 4).  Closed slots of instances
two or more behind are forgotten. -/
def State.preTake (s : State) (die port : Nat) (stamp : Time) (f : Mft) : State :=
  let v := field f.body 0 48
  let pl := f.body.drop 48
  let h := chOf v
  match s.coll.pre.get? h.op with
  | none => s.routeOn port stamp f
  | some e =>
    let away := fun (s : State) => (s.routeOn port stamp f).bump E.prForwarded 0 1
    let ar : Arith := { arithOf 0 with op := e.operator }
    let b := bring ar h.op h h.anchor pl
    let cf : Cf := ⟨die, port, stamp, f.hdr.src, f.hdr.job, f.hdr.gen⟩
    let shut := s.coll.preSlots.any (fun (y : PreSlot) => !y.ring && y.op == h.op && y.inst == h.inst && y.chunk == h.chunk && y.closed)
    let s := { s with coll := { s.coll with preSlots := s.coll.preSlots.filter (fun (y : PreSlot) =>
      !(!y.ring && y.closed && y.op == h.op && decide (2 ≤ (h.inst + 256 - y.inst) % 256) && decide ((h.inst + 256 - y.inst) % 256 < 128))) } }
    if shut then away s
    else
      let opened := match s.preSlot? false h.op h.inst h.chunk h.anchor with
        | some p => (some p, s)
        | none =>
          let qa := ((s.candidates h.op 0 h.chunk).1).getD 0
          let b0 : PreSlot := { op := h.op, inst := h.inst, chunk := h.chunk, anchor := h.anchor, count := h.count, hver := h.hver,
                                ring := false, openedAt := stamp }
          let b0 : PreSlot := { b0 with die := qa }
          match (if s.quireUp qa then s.findSlot qa (qscore h.op 0 h.chunk qa / 2 ^ 59) else none) with
          | some k => (some { b0 with slot := some k }, s.takeSlot qa k)
          | none => (none, s.setPreSlot { b0 with closed := true })
      match opened with
      | (none, s) => away s
      | (some p, s) =>
        if p.count ≠ h.count then away s
        else if p.parts.any (fun (y : Part) => y.first == h.first) then s.bump E.dupDropped 0 1
        else
          let p := { p with parts := putPart p.parts (partOf cf f.hdr f.hops h b) }
          if p.parts.length = e.count then (s.setPreSlot p).closePre p else s.setPreSlot p

/-- A stored frame that is not for this device and that its ingress die owns has been kept for the leaf role. -/
def keptForLeaf (gei : Nat) (f : Mft) : Bool :=
  f.hdr.ptype == 2 && f.hdr.dest != gei && decide (48 ≤ f.body.length) && bits (field f.body 0 48) 379 376 == 1

/-- PREREDUCE_CONTRIB: a contribution kept at its ingress switch die for the leaf role is pre-reduced, or forwarded where it no
longer qualifies (R88). -/
def execPrereduceContrib (t : Time) (frame : Nat) (s : State) : Host.Outcome State Fault Refusal :=
  let s := s.begin t
  .next (match findFrame s.net.frames frame with
    | some g => match g.packet with
      | .mft f =>
        if !g.localOwner || !keptForLeaf s.gei f then s
        else (if s.preTakes f then s.preTake g.die g.inPort g.stamp f else s.routeOn g.inPort g.stamp f).release frame ownerLocal
      | .eth _ _ => s
    | none => s)

/-- PR_HOLD_EXPIRY: PR_HOLD has passed since the first contribution of an open slot, which sends its runs (R88). -/
def execPrHoldExpiry (t : Time) (s : State) : Host.Outcome State Fault Refusal :=
  let s := s.begin t
  .next (match s.coll.preSlots.find? (fun (y : PreSlot) => !y.ring && !y.closed && decide (y.openedAt + s.rd E.prHold 0 ≤ t)) with
    | some p => s.closePre p
    | none => s)

/-- PR_WRITE's rule (R88). -/
def prRule (r : BitVec 128) (s : State) : Verdict :=
  let v := r.toNat
  let op := bits v 127 96
  let has := (s.coll.pre.get? op).isSome
  firstCause E.prStatus [
    (bits v 90 88 != 0 || bits v 50 0 != 0, 6),
    ((bit v 95 && (!(bits v 94 91 == 0 || bits v 94 91 == 6) || bits v 69 51 == 0 || decide (262144 < bits v 69 51)))
      || (!bit v 95 && !has), 2),
    (bit v 95 && !has && decide (4096 ≤ s.coll.pre.length), 3)]

/-- A pre-reduce entry inserted, replaced or deleted (R88). -/
def prAct (r : BitVec 128) (s : State) : State :=
  let v := r.toNat
  let op := bits v 127 96
  let t := if bit v 95 then s.coll.pre.set op (⟨bits v 94 91, bits v 87 70, bits v 69 51⟩ : PreEntry) else s.coll.pre.del op
  let s := { s with coll := { s.coll with pre := t } }
  (s.wr E.prEntries 0 t.length).wr E.prStatus 0 0

/-- PR_WRITE (R88). -/
def execPrWrite (a : Access) (record : BitVec 128) (s : State) : Host.Outcome State Fault Refusal :=
  .next (s.writeOne a E.prWrite 0 16 0 true (prRule record) (prAct record))

end Sys2Proof.Machine
end

