-- ==== Sys2Proof/Machine/TimeBase.lean ====
section
/-!
DEFINITION. Sources of fabric time: keys, candidates, the parent and its loss, and the states of PTP ports (spec/14 R394,
R397, R398, R401).
-/
namespace Sys2Proof.Machine

/-- The clock's record changed. -/
def State.setClock (s : State) (c : Clock) : State := { s with clock := c }

/-- Link-level time transfer at a port. -/
def State.linkTime (s : State) (p : Nat) : LinkTime := s.clock.links.getD p {}

/-- Link-level time transfer at a port set. -/
def State.setLinkTime (s : State) (p : Nat) (x : LinkTime) : State :=
  s.setClock { s.clock with links := if x = {} then s.clock.links.del p else s.clock.links.set p x }

/-- A PTP port. -/
def State.ptpPort (s : State) (p : Nat) : PtpPort := s.clock.ptp.getD p {}

/-- A PTP port set. -/
def State.setPtpPort (s : State) (p : Nat) (x : PtpPort) : State := s.setClock { s.clock with ptp := s.clock.ptp.set p x }

/-! ### TIME_STATE (R394 Table 1) -/

/-- The codes of TIME_STATE. -/
def tsFreeRun : Nat := 0
def tsAcquiring : Nat := 1
def tsSynced : Nat := 2
def tsHoldover : Nat := 3

/-- The states of an IEEE 1588 port (PTP_PORT_STATE) that this boundary clock takes. -/
def psListening : Nat := 4
def psMaster : Nat := 6
def psPassive : Nat := 7
def psUncalibrated : Nat := 8
def psSlave : Nat := 9

/-! ### Keys (R401) -/

/-- A key as one number: RCLASS, priority, root GEI, STEPS, port; lower is better. -/
def keyOf (cls prio gei steps port : Nat) : Nat := pack [(2, cls), (8, prio), (24, gei), (8, steps), (16, port)]

/-- PTP ports in SLAVE, lowest first. -/
def State.slaves (s : State) : List Nat :=
  (s.clock.ptp.filter (fun (x : Nat × PtpPort) => s.rd E.ptpPortState x.1 == psSlave)).map (·.1)

/-- The device's own class. -/
def State.ownClass (s : State) : Nat := if !s.slaves.isEmpty then 0 else if s.clock.synced then 1 else 2

/-- The device's own key (R401). -/
def State.ownKey (s : State) : Nat :=
  keyOf s.ownClass (if s.ownClass = 0 then s.rd E.ptpRootPriority 0 else s.rd E.rootPriority 0) s.gei 0 0

/-- A fabric port takes part in link-level transfer (R397). -/
def State.linkMode (s : State) (p : Nat) : Bool :=
  s.rd E.portTimeMode p == 2 && (s.port p).mftNow && s.isUp p

/-- The key a LINK port has as a candidate; none where it is none (R401). -/
def State.linkKey (s : State) (p : Nat) : Option Nat :=
  match (s.linkTime p).said with
  | some x => if s.linkMode p && x.synced && decide (x.steps ≤ 14) && x.gei != s.gei
      then some (keyOf x.cls x.prio x.gei (x.steps + 1) p) else none
  | none => none

/-- The key a PTP port has as a candidate: the device's own with class PTP. -/
def State.ptpKey (s : State) (p : Nat) : Option Nat :=
  if s.rd E.ptpPortState p = psSlave then some (keyOf 0 (s.rd E.ptpRootPriority 0) s.gei 0 p) else none

/-- The kind of a parent at a PTP port. -/
def ptpKind (p : Nat) : Nat := if p < 1024 then 2 else 1

/-- The key of a parent. -/
def State.parentKey (s : State) (x : Nat × Nat) : Option Nat := if x.1 = 3 then s.linkKey x.2 else s.ptpKey x.2

/-- The candidates with their keys. -/
def State.timeCandidates (s : State) : List (Nat × Nat × Nat) :=
  s.slaves.filterMap (fun p => (s.ptpKey p).map (fun k => (k, ptpKind p, p)))
  ++ s.clock.links.filterMap (fun (x : Nat × LinkTime) => (s.linkKey x.1).map (fun k => (k, 3, x.1)))

/-- The candidate with the lowest key; a PTP port's key equals the device's own but for the port and goes before it (log 142). -/
def State.bestParent (s : State) : Option (Nat × Nat) :=
  let best := s.timeCandidates.foldl (fun (a : Option (Nat × Nat × Nat)) x => match a with
    | some y => if x.1 < y.1 then some x else a
    | none => some x) none
  match best with
  | some (k, x) => if x.1 ≠ 3 ∨ k < s.ownKey then some x else none
  | none => none

/-- The device uses sources of its own: it is no member of a board group, or one that has lost its lock (R405). -/
def State.ownSources (s : State) : Bool := s.rd E.groupRole 0 != 2 || s.clock.own

/-! ### The parent shown (PARENT, ROOT) -/

/-- A parent as PARENT shows it. -/
def parentCode : Option (Nat × Nat) → Nat
  | some (1, p) => pack [(2, 1), (19, 0), (11, p - 1024)]
  | some (k, p) => pack [(2, k), (19, 0), (11, p)]
  | none => 0

/-- The key in force: the parent's, or the device's own. -/
def State.rootKey (s : State) : Nat :=
  match s.clock.parent with
  | some x => (s.parentKey x).getD s.ownKey
  | none => s.ownKey

/-- A key as ROOT shows it. -/
def rootCode (k : Nat) : Nat := pack [(22, 0), (2, bits k 57 56), (8, bits k 55 48), (24, bits k 47 24), (4, 0), (4, bits k 23 16)]

/-- PARENT and ROOT brought up to date. -/
def State.showRoot (s : State) : State :=
  (s.wr E.parent 0 (parentCode s.clock.parent)).wr E.root 0 (rootCode s.rootKey)

/-- The parent becomes another, or none (R394 Table 1): with none the device holds over, with a new one it acquires. -/
def State.setParent (s : State) (x : Option (Nat × Nat)) : State :=
  let old := s.clock.parent
  let s := s.setClock { s.clock with parent := x, band := 0 }
  let st := s.rd E.timeState 0
  let s := match x with
    | none => if st = tsAcquiring ∨ st = tsSynced then
        (s.wr E.timeState 0 tsHoldover).raise 0x3003 1 31 [.v 32 (parentCode old), .v 32 (s.rd E.rateAdj 0)]
      else s
    | some _ => if st = tsHoldover then s.wr E.timeState 0 tsAcquiring else s
  s.showRoot

/-- The parent is lost: another is chosen at once (R401). -/
def State.loseParent (s : State) : State :=
  let old := s.clock.parent
  let s := s.setParent (if s.ownSources then s.bestParent else none)
  s.raise 0x3004 0 31 [.v 32 (parentCode old), .v 32 (parentCode s.clock.parent), .v 24 (bits (s.rd E.root 0) 31 8)]

/-- The parent is no candidate any more. -/
def State.checkParent (s : State) : State :=
  match s.clock.parent with
  | some x => if (s.parentKey x).isNone then s.loseParent else s.showRoot
  | none => s.showRoot

/-! ### The boundary clock (R398; IEEE 1588-2019) -/

/-- A port takes part in PTP: a management port with PTP_ENABLE 1 and its link up, a fabric port UP in mode PTP (R397). -/
def State.ptpOn (s : State) (p : Nat) : Bool :=
  if 1024 ≤ p then s.rd E.ptpEnable (p - 1024) == 1 && s.clock.mgmtUp.contains (p - 1024)
  else s.rd E.portTimeMode p == 1 && s.isUp p

/-- A port measures the peer delay: every fabric port, and a management port set to it. -/
def State.ptpP2P (s : State) (p : Nat) : Bool := decide (p < 1024) || s.rd E.ptpDelayMech (p - 1024) == 1

/-- The interval that a logarithm of seconds to base 2 names. -/
def logInterval (k : Int) : Nat := if k < 0 then sec / 2 ^ k.natAbs else sec * 2 ^ k.natAbs

/-- The data set of an Announce in its order of comparison: a lower number is better. -/
def dataSet (m : Ptp) : Nat :=
  pack [(8, m.prio1), (32, m.quality), (8, m.prio2), (64, m.gm), (16, m.steps), (80, m.src)]

/-- The device's own data set. -/
def State.ownDataSet (s : State) : Nat :=
  pack [(8, s.rd E.ptpPriority1 0), (32, Config.clockQuality), (8, s.rd E.ptpPriority2 0), (64, Config.clockIdentity),
    (16, 0), (64, Config.clockIdentity), (16, 0)]

/-- The best qualified Announce held at a port: two have come, the last within three intervals (log 144). -/
def PtpPort.bestForeign (x : PtpPort) (now : Time) : Option Ptp :=
  ((x.foreign.filter (fun y => decide (2 ≤ y.2.2) && decide (now ≤ y.2.1 + 3 * logInterval y.1.logInt))).map (·.1)).foldl
    (fun (a : Option Ptp) m => match a with
      | some b => if dataSet m < dataSet b then some m else a
      | none => some m) none

/-- The ports that take part in PTP or did so before. -/
def State.ptpPorts (s : State) : List Nat :=
  let fabric := (s.regs.filter (fun (x : Nat × Nat) => x.1 / 2 ^ 24 == E.portTimeMode && x.2 == 1)).map (fun x => x.1 % 2 ^ 24)
  let old := (s.clock.ptp.map (·.1)).filter (fun p => decide (p < 1024) && !fabric.contains p)
  fabric ++ old ++ [1024, 1025]

/-- The best Announce over all ports, with its port. -/
def State.bestAnnounce (s : State) : Option (Ptp × Nat) :=
  (s.ptpPorts.filter (fun p => s.ptpOn p)).foldl (fun (a : Option (Ptp × Nat)) p =>
    match (s.ptpPort p).bestForeign s.now, a with
    | some m, some (b, _) => if dataSet m < dataSet b then some (m, p) else a
    | some m, none => some (m, p)
    | none, _ => a) none

/-- The state a taking-part port comes to by the best master clock algorithm. -/
def State.ptpDecide (s : State) (best : Option (Ptp × Nat)) (p : Nat) : Nat :=
  let was := s.rd E.ptpPortState p
  match best with
  | some (m, q) =>
    if s.ownDataSet < dataSet m then psMaster
    else if q = p then (if was = psSlave then psSlave else psUncalibrated)
    else match (s.ptpPort p).bestForeign s.now with
      | some f => if f.gm = m.gm ∧ f.steps ≤ m.steps then psPassive else psMaster
      | none => psMaster
  | none =>
    if was = psMaster ∨ (s.ptpPort p).since + 6 * sec ≤ s.now then psMaster else psListening

/-- The PTP ports' states evaluated afresh, and the parent with them. -/
def State.ptpEval (s : State) : State :=
  let best := s.bestAnnounce
  let s := s.ptpPorts.foldl (fun (s : State) p =>
    if s.ptpOn p then
      let s := if (s.clock.ptp.get? p).isNone then s.setPtpPort p { since := s.now } else s
      s.wr E.ptpPortState p (s.ptpDecide best p)
    else
      let s := s.setClock { s.clock with ptp := s.clock.ptp.del p }
      s.wr E.ptpPortState p 0) s
  s.checkParent

/-- A port has gone DOWN: its candidate and its PTP state end (R401). -/
def State.timePortDown (s : State) (p : Nat) : State :=
  let s := s.setClock { s.clock with links := s.clock.links.del p }
  if (s.clock.ptp.get? p).isSome then s.ptpEval else if s.clock.parent = some (3, p) then s.loseParent else s

end Sys2Proof.Machine
end

