-- ==== Sys2Proof/Machine/Switch.lean ====
section
/-!
DEFINITION. The switch core's commands (spec/09): frames received and forwarded, credits, HELLO, table writes with two
versions, ports going down and up.
-/
namespace Sys2Proof.Machine

/-! ### Ports (R274) -/

/-- The 400 Gb/s units of a port (R6, R327). -/
def State.units (s : State) (p : Nat) : Nat :=
  match s.rd E.fiberMode (fiberOf p) with
  | 0 => 1
  | 1 => 2
  | _ => 4

/-- The configured rate of a port in Mb/s (R282). -/
def State.portRate (s : State) (p : Nat) : Nat := 400000 * s.units p

/-- LL_CELLS: 512 div (1 + set bits of LOSSLESS_MASK) (R265). -/
def State.llCells (s : State) : Nat :=
  512 / (1 + ((List.range 8).filter (fun k => bit (s.rd E.losslessMask 0) k)).length)

/-- The lossless reservation of a port for one class: LL_CELLS of the mask in force on the port since its last link up, for each
400 Gb/s unit (R265, R276). -/
def State.reservation (s : State) (p : Nat) : Nat :=
  512 / (1 + ((List.range 8).filter (fun k => bit (s.port p).mask k)).length) * s.units p

/-- Dynamic address entries that match a VID (0 all) and whose hop names a port (0xFFFF all) removed at every die,
each counted as AGED (R314). -/
def State.flushAddrs (s : State) (vid port : Nat) : State :=
  let hit := fun (x : Nat × AddrEntry) =>
    !x.2.static && (vid == 0 || vid == x.1 / 2 ^ 48) && (port == 0xFFFF || (!bit x.2.hop 15 && bits x.2.hop 10 0 == port))
  let n := s.net.addrs.foldl (fun n d => n + (d.2.filter hit).length) 0
  let s := { s with net := { s.net with addrs := s.net.addrs.map (fun d => (d.1, d.2.filter (fun x => !hit x))) } }
  if n = 0 then s else s.bump E.fwdCounts 5 n

/-- Every spray group that holds the port and has no live member is reported (R274). -/
def State.reportEmptyGroups (s : State) (p : Nat) : State :=
  s.net.sprays.foldl (fun s g =>
    if g.2.cur.members.contains p && (s.liveMembers g.2.cur).isEmpty then s.raise 0x500A 2 (dieOf p) [.v 16 g.1] else s) s

/-- A frame that moves to another port keeps its cells: its owner changes and its descriptor enters the new queue, which counts it
as moved (R274 step 1, R276). A copy whose new port already owns the frame is there, and its old owner bit goes. -/
def State.moveFrame (s : State) (f : Stored) (d : Desc) (p : Nat) (tg : Target) : State :=
  match s.barred tg.port d.cls d.len tg.circ f.packet with
  | some c => (s.release f.id p).drop c f.inPort
  | none =>
    if f.owners.contains tg.port then s.release f.id p
    else
    let s := s.bump E.resteered 0 1
    let s := if tg.det then s.bump E.detoured 0 1 else s
    let s := s.holdAll tg.held
    let g := { f with owners := insertNat tg.port (f.owners.erase p), held := f.held ++ tg.held }
    let s := { s with net := { s.net with frames := setFrame s.net.frames g } }
    s.enqueue tg.port tg.circ { d with via := tg.via, entered := s.now, waited := false, detoured := d.detoured || tg.det } f.packet

/-- One frame queued on a port that is not UP examined again (R274 steps 1 and 3). -/
def State.reexamine (s : State) (p : Nat) (d : Desc) : State :=
  match findFrame s.net.frames d.frame with
  | none => s
  | some f =>
    let fail := fun (s : State) (cause : Nat) =>
      let s := s.release f.id p
      match f.packet with
      | .mft m => if f.copy then s.drop .route f.inPort
        else s.dropRoute m f.inPort cause (if d.hopsIn = 0 then 0xFFFF else d.hop) d.hopsIn
      | .eth _ _ => s.drop .route f.inPort
    let detour := fun (s : State) (g cause : Nat) =>
      if f.copy || d.detoured || f.packet.detoured || g == 0xFFFF then fail s cause
      else match s.resolveSpray (dieOf p) d.cls g with
        | (.ok tg, s) => s.moveFrame f d p { tg with det := true }
        | (_, s) => fail s 8
    match d.via with
    | .spray g =>
      match s.resolveSpray (dieOf p) d.cls g with
      | (.ok tg, s) => s.moveFrame f d p { tg with det := false }
      | (_, s) => if bit d.hop 13 && d.hop != 0xFFFF then detour s (s.detourGroup d.hop) 3 else fail s 3
    | .port dp => if dp then detour s (s.rd E.detourGroup p) 1 else fail s 1
    | .circuit _ => fail s 1

/-- The frame being transmitted is lost (R274 step 1). -/
def State.abortSending (s : State) (p : Nat) : State :=
  let pt := s.port p
  match pt.sending with
  | none => s
  | some x =>
    let inPort := match findFrame s.net.frames x.frame with
      | some f => f.inPort
      | none => noPort
    let s := s.setPort p { pt with sending := none }
    (s.drop .txAborted inPort).release x.frame p

/-- The rate at which a port transmits, in Mb/s, and the wavelengths that carry it, with the sum over the device (R346). -/
def State.setRate (s : State) (p rate waves : Nat) : State :=
  let total := s.rd E.lineRateNow 0 + rate / 1000 - s.rd E.portRateNow p / 1000
  ((s.wr E.portRateNow p rate).wr E.portWavesNow p waves).wr E.lineRateNow 0 total

/-- What a calibration slot does with a port (R343). -/
def State.narrowOf (s : State) (p : Nat) : Option Narrow := s.links.narrow.get? p

/-- A port within a calibration slot set, or left by the slot. -/
def State.setNarrow (s : State) (p : Nat) (n : Option Narrow) : State :=
  { s with links := { s.links with narrow := match n with
    | some x => s.links.narrow.set p x
    | none => s.links.narrow.del p } }

/-- No new frame starts on the port: it is switching its width (R343 Table 6). -/
def State.held (s : State) (p : Nat) : Bool :=
  match s.narrowOf p with
  | some x => x.phase != 2
  | none => false

/-- The port a circuit's queue leaves by: that of its first frame, which a rewritten circuit may no longer name (R272), or
the circuit's own; none for a free circuit with no frame. -/
def State.circLeaves (s : State) (c : Nat) (cur : BitVec 128) : Option Nat :=
  let own := if circState cur != 0 then some (circPort cur) else none
  match (s.circQueue c).descs with
  | [] => own
  | d :: _ => match findFrame s.net.frames d.frame with
    | some f => if f.owners.contains (circPort cur) then some (circPort cur) else f.owners.head?
    | none => own

/-- The circuits whose queue leaves by port `p`. -/
def State.circuitsOf (s : State) (p : Nat) : List Nat :=
  (s.net.circuits.filter (fun (x : Nat × Versioned (BitVec 128)) => s.circLeaves x.1 x.2.cur == some p)).map (·.1)

/-- A port leaves UP for a state (1 DOWN, 3 SHED, 0 ABSENT) with a cause of Table 14: its frames are re-examined, the
groups exclude it, its dynamic addresses are flushed (R274, R314). -/
def State.portDown (s : State) (p st cause : Nat) : State :=
  let was := s.rd E.portState p
  let s := ((s.wr E.portState p st).setRate p 0 0).setNarrow p none
  if was ≠ 2 then s
  else
    let s := s.raise 0x5001 1 (dieOf p) [.v 16 p, .v 8 cause]
    let s := s.abortSending p
    let s := (List.range 9).foldl (fun s k =>
      let q := s.queue (9 * p + k)
      let s := s.setQueue (9 * p + k) { q with descs := [], deficit := 0 }
      q.descs.foldl (fun s d => s.reexamine p d) s) s
    let s := (s.circuitsOf p).foldl (fun s c =>
      let q := s.circQueue c
      let s := s.setCircQueue c { q with descs := [] }
      q.descs.foldl (fun s d => s.reexamine p d) s) s
    ((s.reportEmptyGroups p).flushAddrs 0 p).timePortDown p

/-- A bucket filled to its burst (R286). -/
def Bucket.full (b : Bucket) (now : Time) : Bucket := { b with tok := (b.burst * 65536 : Nat), rem := 0, t := now }

/-- The buckets of every queue of a port set full (R286). -/
def State.fillBuckets (s : State) (p : Nat) : State :=
  let s := (List.range 9).foldl (fun (s : State) k =>
    let q := s.queue (9 * p + k)
    let q := { q with cb := q.cb.full s.now, pb := q.pb.full s.now, wheel := none, stopped := false }
    { s with net := { s.net with queues := s.net.queues.set (9 * p + k) q } }) s
  (s.circuitsOf p).foldl (fun (s : State) c =>
    let q := s.circQueue c
    { s with net := { s.net with circQueues := s.net.circQueues.set c { q with cb := q.cb.full s.now, wheel := none } } }) s

/-- The classes lossless on a link: those both ends' masks set (R271, R276). -/
def State.agreed (s : State) (p : Nat) : Nat := (s.port p).mask &&& (s.rd E.portPeer p / 8 % 256)

/-- The link of a port comes up: the mode and the lossless mask written apply, both credit counts start again, and LINK frames that
wait are gone (R269, R271, R276). -/
def State.linkUp (s : State) (p : Nat) : State :=
  let s := (s.port p).linkQueue.foldl (fun (s : State) x => s.freeCell (dieOf p) 3 x.1) s
  let s := s.setPort p { s.port p with mask := s.rd E.losslessMask 0 }
  let pt := s.port p
  let res := s.reservation p
  s.setPort p { pt with
    mftNow := s.rd E.portMft p == 1
    faultSince := none, okSince := some s.now
    helloSeen := false, creditSeen := false, helloSent := false, creditSent := false
    credits := List.replicate 9 (Credit.mk res 0 0 0), linkQueue := [] }

/-- Whether a port may become UP now (R274). -/
def State.mayComeUp (s : State) (p : Nat) : Bool :=
  let pt := s.port p
  s.portExists p && s.rd E.portState p == 1 && s.rd E.portAdmin p == 1 && pt.faultSince.isNone
    && (match pt.okSince with
      | some o => decide (o + s.rd E.portUpHold 0 ≤ s.now)
      | none => false)
    && (!pt.mftNow || (pt.helloSeen && pt.creditSeen && pt.helloSent && pt.creditSent))

/-- A port becomes UP: agreed classes, full buckets, full rate, its die's clock running, notice PORT_UP (R274, R286,
R346, R530). -/
def State.portUp (s : State) (p : Nat) : State :=
  let pt := s.port p
  let s := s.setPort p { pt with lossless := if pt.mftNow then s.agreed p else 0 }
  let s := ((s.wr E.portState p 2).setRate p (s.portRate p) (2 * s.units p)).fillBuckets p
  let s := s.wr E.domainState (dieOf p) 1
  s.raise 0x5002 0 (dieOf p) [.v 16 p, .v 24 (if pt.mftNow then s.rd E.portPeer p / 2 ^ 24 % 2 ^ 24 else 0)]

/-- PCS_LINK_FAULT: a port's PCS reports a link fault (R274); one between the hold and the deadline of a narrowing is no
fault (R343). -/
def execPcsLinkFault (t : Time) (port : Nat) (s : State) : Host.Outcome State Fault Refusal :=
  let s := s.begin t
  .next (if s.held port then s else s.setPort port { s.port port with faultSince := some t, okSince := none })

/-- PORT_DOWN_HOLD_EXPIRY: a fault held for PORT_DOWN_HOLD takes the port DOWN (R274). -/
def execPortDownHoldExpiry (t : Time) (port : Nat) (s : State) : Host.Outcome State Fault Refusal :=
  let s := s.begin t
  .next (match (s.port port).faultSince with
    | some f => if f + s.rd E.portDownHold 0 ≤ t ∧ s.rd E.portState port = 2 then s.portDown port 1 1 else s
    | none => s)

/-- The link of a port that is switching its width is up: at half rate, or at full rate and out of the slot (R342, R343,
R346). -/
def State.widthUp (s : State) (p : Nat) (x : Narrow) : State :=
  if x.phase = 1 then (s.setNarrow p (some { x with phase := 2 })).setRate p (s.portRate p / 2) (s.units p)
  else (s.setNarrow p none).setRate p (s.portRate p) (2 * s.units p)

/-- LINK_FAULT_CLEARED: the PCS stops reporting a fault; on a port that is not UP the link has come up (R274), on one
that is switching its width the link of the new width has (R343). -/
def execLinkFaultCleared (t : Time) (port : Nat) (s : State) : Host.Outcome State Fault Refusal :=
  let s := s.begin t
  .next (match s.narrowOf port with
    | some x => if x.phase ≠ 2 then s.widthUp port x
      else s.setPort port { s.port port with faultSince := none, okSince := some t }
    | none => if s.rd E.portState port = 2 then s.setPort port { s.port port with faultSince := none, okSince := some t }
    else s.linkUp port)

/-- PORT_UP: the fault-free hold has passed and HELLO and CREDIT were exchanged (R274). -/
def execPortUp (t : Time) (port : Nat) (s : State) : Host.Outcome State Fault Refusal :=
  let s := s.begin t
  .next (if s.mayComeUp port then s.portUp port else s)

/-! ### LINK frames: CREDIT and HELLO (R269-R271) -/

/-- The cumulative limit L a port grants for a class (R269). -/
def State.creditLimit (s : State) (p cls : Nat) : Nat := (((s.port p).credit cls).freed + s.reservation p) % 65536

/-- A CREDIT body (R271 Table 10). -/
def State.creditBody (s : State) (p : Nat) : BitVec 192 :=
  BitVec.ofNat 192 (pack ([(4, 1), (4, 1), (8, 0), (16, s.creditLimit p 8)]
    ++ (List.range 8).map (fun i => (16, s.creditLimit p (7 - i))) ++ [(32, 0)]))

/-- A HELLO body (R271 Table 10): the role is 1 leaf or 2 spine. -/
def State.helloBody (s : State) (p : Nat) : BitVec 192 :=
  BitVec.ofNat 192 (pack [(4, 1), (4, 2), (24, s.gei), (11, p), (2, if s.rd E.roleNow 0 = 1 then 1 else 2), (3, 0),
    (8, s.rd E.losslessMask 0), (136, 0)])

/-- A LINK frame waits for its port in a cell of MGMT; one that finds none is not formed (R265, R268). -/
def State.queueLink (s : State) (p : Nat) (body : BitVec 192) (mark : Port → Port) : State :=
  match s.takeCells (dieOf p) 3 1 with
  | none => s.poolEmpty (dieOf p) 3
  | some (cs, s) => s.setPort p (mark { s.port p with linkQueue := (s.port p).linkQueue ++ [(cs.headD 0, body)] })

/-- CREDIT_SEND: a receiver's limits leave in a CREDIT frame on a port in MFT mode (R269). -/
def execCreditSend (t : Time) (port : Nat) (s : State) : Host.Outcome State Fault Refusal :=
  let s := s.begin t
  .next (if (s.port port).mftNow then
    s.queueLink port (s.creditBody port) (fun p => { p with creditSent := true }) else s)

/-- HELLO_SEND: HELLO leaves on a port in MFT mode at link up and every 1 ms (R271). -/
def execHelloSend (t : Time) (port : Nat) (s : State) : Host.Outcome State Fault Refusal :=
  let s := s.begin t
  .next (if (s.port port).mftNow then
    s.queueLink port (s.helloBody port) (fun p => { p with helloSent := true }) else s)

/-- A LINK body's version and subtype are those of Table 10. -/
def linkFormOk (body : BitVec 192) (sub : Nat) : Bool :=
  bits body.toNat 191 188 == 1 && bits body.toNat 187 184 == sub

/-- A received LINK frame that the port does not take is dropped; a port that is not UP discards it without a count (R242, R271,
R274). -/
def State.dropLink (s : State) (p : Nat) (d : Drop) : State := if s.isUp p then s.drop d p else s

/-- CREDIT_RECEIVE: a CREDIT frame updates the limits of the collective class and of each lossless class (R269). -/
def execCreditReceive (t : Time) (port : Nat) (body : BitVec 192) (s : State) : Host.Outcome State Fault Refusal :=
  let s := (s.begin t).attach (dieOf port) 0 64
  let pt := s.port port
  .next (if !pt.mftNow then s.dropLink port .mftDisabled
    else if !linkFormOk body 1 then s.dropLink port .malformed
    else
      let v := body.toNat
      let set := fun (p : Port) (k : Nat) =>
        if k = 8 then p.setCredit 8 (fun c => { c with limit := bits v 175 160 })
        else if bit (s.agreed port) k then p.setCredit k (fun c => { c with limit := bits v (159 - 16 * (7 - k)) (144 - 16 * (7 - k)) })
        else p
      s.setPort port { (List.range 9).foldl set pt with creditSeen := true })

/-- HELLO_RECEIVE: the peer's HELLO is recorded in PORT_PEER (R271). -/
def execHelloReceive (t : Time) (port : Nat) (body : BitVec 192) (s : State) : Host.Outcome State Fault Refusal :=
  let s := (s.begin t).attach (dieOf port) 0 64
  let pt := s.port port
  .next (if !pt.mftNow then s.dropLink port .mftDisabled
    else if !linkFormOk body 2 then s.dropLink port .malformed
    else
      let v := body.toNat
      let peer := pack [(24, bits v 183 160), (11, bits v 159 149), (2, bits v 148 147), (8, bits v 143 136), (2, 0), (1, 1)]
      (s.wr E.portPeer port peer).setPort port { pt with helloSeen := true })

/-- LOAD_SUMMARY: a switch die sends the depths of its queues, in units of 4 KiB rounded up (R255). -/
def execLoadSummary (t : Time) (die : Nat) (s : State) : Host.Outcome State Fault Refusal :=
  let s := s.begin t
  let mine := s.net.queues.filter (fun (x : Nat × Queue) => x.1 / 1152 == die && !x.2.descs.isEmpty)
  let others := s.net.loadView.filter (fun (x : Nat × Nat) => x.1 / 1152 != die)
  .next { s with net := { s.net with
    loadView := mine.foldl (fun (m : Tab Nat) x => m.set x.1 (ceilDiv (depthOf x.2.descs) 4096)) others } }

/-! ### MFT frames received (R242-R253) -/

/-- The header fields of a received frame as sent. -/
def hdrOf (h : Nat) : Hdr :=
  { ptype := bits h 123 120, tc := bits h 119 117, cclass := bit h 116, ect := bit h 115, ce := bit h 114,
    detoured := bit h 113, mcast := bit h 112, dest := bits h 87 64, src := bits h 63 40, job := bits h 39 24,
    gen := bits h 23 16 }

/-- The base header of a frame of `len` bytes meets Table 1 (R243, R249). -/
def headerOk (h len : Nat) : Bool :=
  let pt := bits h 123 120
  let hops := bits h 111 108
  let l := bits h 107 95
  bits h 127 124 == 1 && decide (1 ≤ pt) && decide (pt ≤ 6)
    && !(bit h 116 && bits h 119 117 != 0) && (bit h 116 == (pt == 2 || pt == 3))
    && decide (hops ≤ 8) && decide (16 + stackBytes hops ≤ l) && decide (l ≤ 4600) && max (l + 8) 64 == len
    && !(bit h 112 && (bits h 87 80 != 0 || hops != 0))

/-- The in-band management header of a body meets Table 9 (R486). -/
def mgmtHeaderOk (body : List Byte) : Bool :=
  let h := field body 0 8
  let fam := bits h 59 56
  let sub := bits h 55 48
  decide (8 ≤ body.length) && bits h 63 60 == 1 && bits h 47 32 == body.length - 8
    && ((fam == 1 && (sub == 1 || sub == 2)) || (fam == 2 && (sub == 1 || sub == 2))
      || (fam == 3 && decide (1 ≤ sub) && decide (sub ≤ 11)) || (fam == 4 && sub == 1))

/-- A policer's judgement of a frame of its class (R291): refilled, then charged or not. -/
def Bucket.refill (b : Bucket) (now : Time) : Bucket :=
  if now ≤ b.t then b
  else
    let n := (now - b.t) * b.rate + b.rem
    let tok := b.tok + (n / 8000 : Nat)
    if ((b.burst * 65536 : Nat) : Int) ≤ tok then { b with tok := (b.burst * 65536 : Nat), rem := 0, t := now }
    else { b with tok := tok, rem := n % 8000, t := now }

/-- A cost charged to a bucket (R284). -/
def Bucket.charge (b : Bucket) (cost : Nat) : Bucket := { b with tok := b.tok - (cost * 65536 : Nat) }

/-- The policer of a port and class judges a frame: true when it may go on (R291, R292); no Ethernet frame is lossless (R247). A
notice carries the frames this policer has dropped since its last one (Table 8). -/
def State.police (s : State) (p cls len : Nat) (mft : Bool) : Bool × State :=
  match s.net.policers.get? (8 * p + cls) with
  | none => (true, s)
  | some pl =>
    if !bit pl.record.toNat 49 || cls == 8 || (mft && s.lossless p cls) then (true, s)
    else
      let b := pl.bucket.refill s.now
      let set := fun (s : State) (v : Policer) => { s with net := { s.net with policers := s.net.policers.set (8 * p + cls) v } }
      if ((len + 20) * 65536 : Nat) ≤ b.tok then (true, set s { pl with bucket := b.charge (len + 20) })
      else
        let s := (s.drop .policed p).bump E.policedFrames (8 * p + cls) 1
        let n := pl.dropped + 1
        (false, match s.limited ms p 0x6004 (dieOf p) with
          | (true, s) => set s { pl with bucket := b, dropped := n }
          | (false, s) => (set s { pl with bucket := b, dropped := 0 }).raise 0x6004 0 (dieOf p) [.v 16 p, .v 8 cls, .v 32 n])

/-- A frame for the device itself kept in the cells of its ingress die (R244, R258). -/
def State.deliver (s : State) (p : Nat) (f : Mft) : State :=
  let pool := if f.hdr.ptype = 4 then 3 else s.poolFor p f.cls false
  match s.store (dieOf p) pool [] true p s.now (.mft f) [] false true with
  | none => (s.drop .poolEmpty p).poolEmpty (dieOf p) pool
  | some (_, s) =>
    let lag := s.net.frames.foldl (fun n (x : Stored) =>
      if x.localOwner && x.die == dieOf p && x.packet.cls == 8 then n + x.cells.length else n) 0
    if s.rd E.collLagCells 0 < lag then s.raiseLim ms (dieOf p) 0x740A 1 (dieOf p) [.v 16 (dieOf p), .v 32 lag] else s

/-- A checked frame goes on its way: local delivery, multicast, route table or popped hop (R244, R249, R250); a leaf keeps
the contributions it pre-reduces (R88). -/
def State.routeMft (s : State) (p : Nat) (f : Mft) : State :=
  if f.hops = [] ∧ f.hdr.mcast then s.multicast (dieOf p) p s.now (.mft f) (f.hdr.dest % 65536) (s.poolFor p f.cls false)
  else if f.hops = [] ∧ f.hdr.dest = s.gei ∧ s.gei ≠ 0 then
    if f.hdr.ptype = 1 ∨ f.hdr.ptype = 5 then s.drop .localType p
    else if f.hdr.ptype = 4 ∧ !mgmtHeaderOk f.body then s.drop .malformed p
    else s.deliver p f
  else if s.preTakes f then s.deliver p f
  else s.routeOn p s.now f

/-- The job check at ingress (R245, R445). -/
def State.jobCheck (s : State) (f : Mft) : Bool :=
  if f.hdr.job = 0 then f.hdr.ptype == 4 || f.hdr.ptype == 5 else s.jobActive f.hdr.job f.hdr.gen

/-- A class's arrival beyond the granted credit (R269). -/
def State.creditExceeded (s : State) (p cls n : Nat) : Bool :=
  let c := (s.port p).credit cls
  !decide ((s.creditLimit p cls + 2 * 65536 - c.recvd - n) % 65536 < 32768)

/-- The checks after the frame check, in the order: header, LINK rules, credit, job, policer, route. -/
def State.acceptMft (s : State) (p : Nat) (bytes : List Byte) (staged : Nat) : State :=
  let len := bytes.length
  let h := field bytes 0 16
  if !headerOk h len then s.drop .malformed p
  else
    let hops := bits h 111 108
    let off := 16 + stackBytes hops
    let f : Mft := ⟨hdrOf h, hopsOf (bytes.drop 16) hops, slice bytes off (bits h 107 95 - off)⟩
    let cls := f.cls
    if f.hdr.ptype = 6 then
      if hops ≠ 0 ∨ f.hdr.mcast ∨ f.hdr.dest ≠ 0 then s.drop .localType p
      else
        let v := field f.body 0 24
        if bits v 191 188 ≠ 1 ∨ bits v 187 184 = 0 ∨ 3 < bits v 187 184 ∨ f.body.length < 24 then s.drop .malformed p else s
    else if s.lossless p cls ∧ s.creditExceeded p cls (cellsOf len) then
      ((s.drop .creditViolation p).bump E.creditViolations p 1).raiseLim ms p 0x5007 1 (dieOf p) [.v 16 p, .v 8 cls]
    else
      let s0 := if s.lossless p cls then
          s.setPort p ((s.port p).setCredit cls (fun c => { c with recvd := (c.recvd + cellsOf len) % 65536 })) else s
      let r :=
        if !s.lossless p cls ∧ 65536 * s.units p < staged + len then s0.drop .staging p
        else if !s0.jobCheck f then (s0.drop .jobStale p).bump E.staleIngress 0 1
        else match s0.police p cls len true with
          | (false, s) => s
          | (true, s) => s.routeMft p f
      if r.net.frames.any (fun (g : Stored) => decide (s0.net.nextFrame ≤ g.id) && g.inPort == p) then r
      else r.creditFreed p cls (cellsOf len)

/-- Entries a frame's lookup finds with bad parity are invalidated on the die (R321). -/
def State.findUpsets (s : State) (die : Nat) (l : List (Nat × Nat)) : State :=
  l.foldl (fun s x =>
    if s.parityBad die x.1 x.2 then s
    else ({ s with net := { s.net with badParity := s.net.badParity ++ [(die, x.1, x.2)] } }).parityMiss die x.1 x.2) s

/-- While a module of an engine retrains, the engine electronic die's receive buffer of 4 MiB has no room (R370). -/
def State.attachFull (s : State) (n total : Nat) : Bool :=
  decide (4194304 < total) && (List.range 32).any (fun k => s.rd E.moduleState (32 * n + k) == 4)

/-- Bytes have crossed the attachment of a port's engine, whose switch die wakes (R364, R530). -/
def State.arrives (s : State) (p n : Nat) : State := (s.wr E.domainState (dieOf p) 1).attach (dieOf p) 0 n

/-- The device with every pool of its switch dies at its full count. -/
def State.roomy (s : State) : State :=
  (List.range 32).foldl (fun (s : State) i => s.wr E.poolFree i cellsPerDie) s

/-- The frames of ingress port `p` that one state has stored since another. -/
def State.storedSince (s r : State) (p : Nat) : List Stored :=
  r.net.frames.filter (fun (g : Stored) => decide (s.net.nextFrame ≤ g.id) && g.inPort == p)

/-- A frame whose check fails: its cells, which it took at its egress dies before its end, are free again, and the credit they
held returns; one that had found none has been dropped as POOL_EMPTY (R258, R268, R269; log 200). `r` is what the device would have
done with the frame. -/
def State.failsCheck (s r : State) (p : Nat) : State :=
  let take := fun (a : Bool × State) (g : Stored) => match a.2.takeCells g.die g.pool g.cells.length with
    | none => (false, a.2.poolEmpty g.die g.pool)
    | some (cs, s) =>
      let s := cs.foldl (fun (s : State) c => s.freeCell g.die g.pool c) s
      (a.1, if g.credit ∧ s.losslessFor p g.packet.cls g.packet then
          s.setPort p ((s.port p).setCredit g.packet.cls (fun c =>
            { c with recvd := (c.recvd + g.cells.length) % 65536, freed := (c.freed + g.cells.length) % 65536 }))
        else s)
  let (ok, s) := (s.storedSince r p).foldl take (true, s)
  s.drop (if ok then .frameCheck else .poolEmpty) p

/-- MFT_FRAME_RECEIVE: a frame that began with `first` is received whole at a port (R242-R253, R274).  `staged` is what
its share of the receive buffer already holds (R258), `buffered` what the engine's (R370); `upsets` the table entries its
lookup finds with bad parity. -/
def execMftFrameReceive (t : Time) (port : Nat) (first : Byte) (bytes : List Byte) (staged buffered : Nat)
    (upsets : List (Nat × Nat)) (s : State) : Host.Outcome State Fault Refusal :=
  let s := s.begin t
  .next (if !s.isUp port then s
    else if s.attachFull (dieOf port) (buffered + bytes.length) then s.bump E.attachDrops (dieOf port) 1
    else
      let s := s.arrives port bytes.length
      if first ≠ 0xD7 then s.drop .frameCheck port
      else if !(s.port port).mftNow then s.drop .mftDisabled port
      else if bytes.length < 64 ∨ 4608 < bytes.length then s.drop .runtGiant port
      else if crc64 (bytes.take (bytes.length - 8)) ≠ field bytes (bytes.length - 8) 8 then
        s.failsCheck (s.roomy.acceptMft port bytes staged) port
      else
        let job := bits (field bytes 0 16) 39 24
        let s := ((s.countFixed (8 * dieOf port) 1).countEvent (8 * dieOf port) 0x01 port job 1).countEvent
          (8 * dieOf port) 0x02 port job bytes.length
        (s.findUpsets (dieOf port) upsets).acceptMft port bytes staged)

/-- A frame of the device that waited requests its cells again in its class, whole for its group where it is a multicast frame
(R264, R268). -/
def State.formAgain (s : State) (cls : Nat) (f : Mft) : State :=
  if f.hdr.mcast then s.multicast 0 noPort s.now (.mft f) f.hdr.dest 2 else s.originateAs cls 2 f

/-- ORIGIN_CELL_RETRY: the oldest frame whose ORIGIN request failed requests cells again (R268). -/
def execOriginCellRetry (t : Time) (s : State) : Host.Outcome State Fault Refusal :=
  let s := s.begin t
  .next (match s.net.waiting with
    | [] => s
    | f :: r =>
      let s := ({ s with net := { s.net with waiting := [] } }).formAgain f.1 f.2
      { s with net := { s.net with waiting := s.net.waiting ++ r } })

/-- FRAME_TRANSMITTED: a frame's last bit has left its port, or its local copy has been taken; the owner releases its
cells (R266, R267, R275). -/
def execFrameTransmitted (t : Time) (frame : Nat) (x : OwnerDone) (s : State) : Host.Outcome State Fault Refusal :=
  let s := s.begin t
  let owner := x.owner
  let s := if owner < 1024 ∧ ((s.port owner).sending.map (·.frame)) = some frame then
    s.setPort owner { s.port owner with sending := none } else s
  let s := match findFrame s.net.frames frame with
    | some f => match f.packet with
      | .mft m => if owner < 1024 ∧ m.hdr.ptype = 2 ∧ f.inPort = noPort then s.collFrameLeft m.body else s
      | .eth _ _ => s
    | none => s
  let s := s.release frame owner
  .next ((x.frees.foldl (fun (s : State) y => s.freeRequest y.1 y.2) s).listUsed x.listed)

/-! ### Table writes with two versions (R254-R273) -/

/-- A new version made current: the old one drains while frames hold it (R272). -/
def Versioned.replace {α : Type} (v : Versioned α) (c : α) (owner : Nat) (now : Time) : Versioned α :=
  { cur := c, ver := v.ver + 1, held := 0, oldHeld := v.held, draining := decide (0 < v.held), since := now,
    slow := false, turn := v.turn, owner := owner }

/-- DRAINING counts the entries whose old version has not retired (R272). -/
def State.countDraining (s : State) : State :=
  let n := (s.net.sprays.filter (fun (x : Nat × Versioned Spray) => x.2.draining)).length
    + (s.net.circuits.filter (fun (x : Nat × Versioned (BitVec 128)) => x.2.draining)).length
    + (s.net.mcasts.filter (fun (x : Nat × Versioned (List Nat)) => x.2.draining)).length
  s.wr E.draining 0 n

/-- The quota of a kind in a job's start record (spec/16 Table 2), by its bit range; no job has no bound. -/
def State.quota (s : State) (job hi lo : Nat) : Option Nat :=
  if job = 0 then none
  else match s.jobs.get? job with
    | some j => some (if j.state = .active ∨ j.state = .retiring then bits j.record.toNat hi lo else 0)
    | none => some 0

/-- One more of a kind would pass the quota. -/
def overQuota (q : Option Nat) (used : Nat) : Bool :=
  match q with
  | none => false
  | some n => decide (n ≤ used)

/-- The owner a table entry takes (R449). -/
def State.tableOwner (s : State) : Nat := s.rd E.tableOwner 0

/-- Groups and members that name a spray group (R273 Table 11, IN_USE). -/
def State.sprayNamed (s : State) (g : Nat) : Bool :=
  s.net.sprays.any (fun x => x.1 != g && !x.2.cur.members.isEmpty && x.2.cur.detour == g)
    || s.regs.any (fun x => x.1 / 2 ^ 24 == E.detourGroup && x.2 == g)
    || s.net.mcasts.any (fun x => x.2.cur.any (fun h => bit h 15 && bits h 11 0 == g))

/-- The members of a SPRAY_WRITE record. -/
def sprayMembers (b : List Byte) : List Nat := (List.range (field b 4 1)).map (fun i => field b (12 + 2 * i) 2)

/-- SPRAY_WRITE's rule (R254, R273). -/
def sprayRule (b : List Byte) (s : State) : Verdict :=
  let g := field b 0 2; let det := field b 2 2; let n := field b 4 1
  let old := s.net.sprays.get? g
  let own := s.tableOwner
  firstCause E.sprayStatus [
    (field b 5 7 ≠ 0, 6),
    (4095 < g ∨ 64 < n ∨ (det ≠ 0xFFFF ∧ 4095 < det) ∨ (sprayMembers b).any (fun p => !s.portExists p), 2),
    ((n = 0 ∧ s.sprayNamed g) ∨ (old.any (fun v => !v.cur.members.isEmpty && v.owner != own)), 4),
    (n ≠ 0 ∧ (old.all (fun v => v.cur.members.isEmpty)) ∧ overQuota (s.quota own 368 356)
        (s.net.sprays.filter (fun (x : Nat × Versioned Spray) => x.2.owner == own && !x.2.cur.members.isEmpty)).length, 3),
    ((old.any (fun v => v.draining)), 1)]

/-- A spray group written in a new version; one without a live member is reported (R254, R272, R274). -/
def sprayAct (b : List Byte) (s : State) : State :=
  let g := field b 0 2
  let old := s.net.sprays.getD g { cur := ⟨[], 0xFFFF⟩ }
  let sp : Spray := ⟨sprayMembers b, field b 2 2⟩
  let s := { s with net := { s.net with sprays := s.net.sprays.set g (old.replace sp s.tableOwner s.now) } }
  let s := (s.wr E.sprayStatus 0 0).countDraining
  if !sp.members.isEmpty && (s.liveMembers sp).isEmpty then s.raise 0x500A 2 31 [.v 16 g] else s

/-- SPRAY_WRITE (R254). -/
def execSprayWrite (a : Access) (data : List Byte) (s : State) : Host.Outcome State Fault Refusal :=
  .next (s.writeOne a E.sprayWrite 0 data.length 0 true (sprayRule data) (sprayAct data))

/-- The rates of the circuits of a port but one, in Gb/s: a DISABLED circuit keeps its reservation (R256, R257). -/
def State.circuitSum (s : State) (p but : Nat) : Nat :=
  s.net.circuits.foldl (fun n (x : Nat × Versioned (BitVec 128)) =>
    if x.1 ≠ but ∧ circState x.2.cur ≠ 0 ∧ circPort x.2.cur = p then n + circRate x.2.cur else n) 0

/-- CIR of the class and collective queues of a port but one, in Mb/s (R283). -/
def State.cirSum (s : State) (p but : Nat) : Nat :=
  (List.range 9).foldl (fun n k =>
    if 9 * p + k = but then n else n + bits (s.queue (9 * p + k)).shaper.toNat 112 92) 0

/-- CIRCUIT_WRITE's rule (R256, R273, R283). -/
def circuitRule (r : BitVec 128) (s : State) : Verdict :=
  let v := r.toNat
  let c := bits v 127 117; let p := circPort r
  let old := s.net.circuits.get? c
  let own := if circJob r = 0 then s.tableOwner else circJob r
  let live := match old with
    | some x => circState x.cur != 0
    | none => false
  firstCause E.circuitStatus [
    (bits v 60 0 ≠ 0, 6),
    (circState r = 3 ∨ !s.portExists p ∨ circRate r = 0 ∨ 1280 < circRate r ∨ circKib r < 64, 2),
    ((old.any (fun x => live && x.owner != own)), 4),
    (circState r ≠ 0 ∧ (s.portRate p * 8 < 10 * 1000 * (s.circuitSum p c + circRate r)
      ∨ s.portRate p < s.cirSum p 0xFFFFFF + 1000 * (s.circuitSum p c + circRate r)), 5),
    (circState r ≠ 0 ∧ !live ∧ overQuota (s.quota own 355 344)
      (s.net.circuits.filter (fun (x : Nat × Versioned (BitVec 128)) => x.2.owner == own && circState x.2.cur != 0)).length, 3),
    ((old.any (fun x => x.draining)), 1)]

/-- The reservations of a port shown (R256, R283). -/
def State.showReserved (s : State) (p : Nat) : State :=
  (s.wr E.circuitReserved p (s.circuitSum p 0xFFFFFF)).wr E.cirSum p (s.cirSum p 0xFFFFFF + 1000 * s.circuitSum p 0xFFFFFF)

/-- A circuit written in a new version, its bucket full (R256, R272, R283). -/
def circuitAct (r : BitVec 128) (s : State) : State :=
  let c := bits r.toNat 127 117
  let old := s.net.circuits.getD c { cur := 0 }
  let own := if circJob r = 0 then s.tableOwner else circJob r
  let oldPort := circPort old.cur
  let s := { s with net := { s.net with circuits := s.net.circuits.set c (old.replace r own s.now) } }
  let q := s.circQueue c
  let b : Bucket := { rate := 1000 * circRate r, burst := s.rd E.circuitBurst 0 }
  let s := { s with net := { s.net with circQueues := s.net.circQueues.set c { q with cb := b.full s.now, wheel := none } } }
  let s := ((s.wr E.circuitState c (circState r)).wr E.circuitStatus 0 0).countDraining
  (s.showReserved oldPort).showReserved (circPort r)

/-- CIRCUIT_WRITE (R256). -/
def execCircuitWrite (a : Access) (record : BitVec 128) (s : State) : Host.Outcome State Fault Refusal :=
  .next (s.writeOne a E.circuitWrite 0 16 0 true (circuitRule record) (circuitAct record))

/-- The members of an MCAST_WRITE record. -/
def mcastMembers (b : List Byte) : List Nat := (List.range (field b 2 2)).map (fun i => field b (8 + 2 * i) 2)

/-- A multicast group named by a RESULT_GROUP (R273 Table 11). -/
def State.mcastNamed (s : State) (g : Nat) : Bool :=
  s.regs.any (fun x => x.1 / 2 ^ 24 == E.resultGroup && x.2 == g)

/-- MCAST_WRITE's rule; `graphs` says whether a resident update graph names the group (R262, R273). -/
def mcastRule (graphs : State → Nat → Bool) (b : List Byte) (s : State) : Verdict :=
  let g := field b 0 2; let n := field b 2 2
  let mem := mcastMembers b
  let old := s.net.mcasts.get? g
  let own := s.tableOwner
  let oldN := match old with
    | some v => v.cur.length
    | none => 0
  firstCause E.mcastStatus [
    (field b 4 4 ≠ 0 ∨ mem.any (fun h => bit h 14 || !hopFormOk h), 6),
    (1024 < n ∨ mem.any (fun h => !bit h 15 && !s.portExists (bits h 10 0)), 2),
    ((n = 0 ∧ (s.mcastNamed g ∨ graphs s g)) ∨ (old.any (fun v => !v.cur.isEmpty && v.owner != own)), 4),
    (s.rd E.mcastEntriesFree 0 + oldN < n ∨ (n ≠ 0 ∧ oldN = 0 ∧ overQuota (s.quota own 385 369)
      (s.net.mcasts.filter (fun (x : Nat × Versioned (List Nat)) => x.2.owner == own && !x.2.cur.isEmpty)).length), 3),
    ((old.any (fun v => v.draining)), 1)]

/-- A multicast group written in a new version (R262, R272). -/
def mcastAct (b : List Byte) (s : State) : State :=
  let g := field b 0 2
  let old := s.net.mcasts.getD g { cur := [] }
  let s := s.wr E.mcastEntriesFree 0 (s.rd E.mcastEntriesFree 0 + old.cur.length - field b 2 2)
  let s := { s with net := { s.net with mcasts := s.net.mcasts.set g (old.replace (mcastMembers b) s.tableOwner s.now) } }
  ((s.wr E.mcastMembers g (field b 2 2)).wr E.mcastStatus 0 0).countDraining

/-- The old version of an entry retired (R272). -/
def Versioned.retire {α : Type} (v : Versioned α) : Versioned α := { v with draining := false, slow := false }

/-- Whether an entry's old version has no holder left. -/
def Versioned.drained {α : Type} (v : Versioned α) : Bool := v.draining && v.oldHeld == 0

/-- VERSION_RETIRE: the last frame holding an old version has left (R272). -/
def execVersionRetire (t : Time) (table index : Nat) (s : State) : Host.Outcome State Fault Refusal :=
  let s := s.begin t
  let n := s.net
  let n := match table with
    | 0 => { n with sprays := n.sprays.modify index (fun v => if v.drained then v.retire else v) }
    | 1 => { n with circuits := n.circuits.modify index (fun v => if v.drained then v.retire else v) }
    | _ => { n with mcasts := n.mcasts.modify index (fun v => if v.drained then v.retire else v) }
  .next ({ s with net := n }).countDraining

/-- An entry whose old version has drained for 100 ms, with the frames that hold it. -/
def Versioned.slowAt {α : Type} (v : Versioned α) (now : Time) : Option Nat :=
  if v.draining && !v.slow && decide (v.since + 100 * ms ≤ now) then some v.oldHeld else none

/-- DRAIN_SLOW: an old version has not retired 100 ms after it was replaced (R272). -/
def execDrainSlow (t : Time) (table index : Nat) (s : State) : Host.Outcome State Fault Refusal :=
  let s := s.begin t
  let n := s.net
  let (held, n) := match table with
    | 0 => ((n.sprays.get? index).bind (·.slowAt t), { n with sprays := n.sprays.modify index (fun v => { v with slow := true }) })
    | 1 => ((n.circuits.get? index).bind (·.slowAt t), { n with circuits := n.circuits.modify index (fun v => { v with slow := true }) })
    | _ => ((n.mcasts.get? index).bind (·.slowAt t), { n with mcasts := n.mcasts.modify index (fun v => { v with slow := true }) })
  .next (match held with
    | some k => ({ s with net := n }).raise 0x5008 1 31 [.v 16 table, .v 16 index, .v 32 k]
    | none => s)

end Sys2Proof.Machine
end

