-- ==== Sys2Proof/Machine/Members.lean ====
section
/-!
DEFINITION. Members' control frames, the tally, count results and refusals received, stall timeouts, COMPLETE, and the
collective entries written (spec/03 R74, R77, R81, R90-R98, R107, R573, spec/04 R132-R137, spec/02 R36, R49, spec/05 R145-R147).
-/
namespace Sys2Proof.Machine

/-! ### Control frames received (R80, R573) -/

/-- A control header's place as a refusal echoes it. -/
def ctlCh (v : Nat) : Ch :=
  { kind := bits v 251 248, op := bits v 247 216, inst := bits v 215 208, chunk := bits v 207 176, hver := 0, phase := 0,
    pass := bits v 135 135, fmt := 0, anchor := 0, count := 0, frame := 0, covers := 0 }

/-- The time of a control header. -/
def ctlTime (v : Nat) : Time := bits v 63 32 * sec + bits v 31 2 * ns

/-- This device has been excluded from the version of an instance; the version (R70). -/
def State.leftAt (s : State) (x : Ctx) (n : Nat) : Option Nat :=
  let ver := x.verOf n
  if (x.hsetAt ver).contains s.gei then none else some ver

/-- A frame from a member that names an instance acceptable under R74: refused, dropped as late, or handed on with the
member's rank, its instance open. -/
def State.memberFrame (s : State) (f : Cf) (kind v : Nat) (act : State → Nat → Ctx → Nat → State) : State :=
  let h := ctlCh v
  if bits v 251 248 ≠ kind then s
  else if !ctlFormOk f.job v [] then s.badColl f h.op h.inst h.kind
  else match s.ctxOf h.op with
    | none => s.refuse f h 0x01 0 0
    | some c => match s.coll.ctxs.get? c with
      | none => s
      | some x => match x.reg.rankOf f.src with
        | none => s.refuse f h 0x0B 0 0
        | some k =>
          let ended : Bool := match findInst x.insts h.inst with
            | some (i : Inst) => i.state != .opened
            | none => false
          match x.stands h.inst with
          | .late => s.bump E.lateDropped 0 1
          | .ahead => s.refuse f h 0x04 (x.opn : Int) 0
          | _ =>
            if ended then s.bump E.lateDropped 0 1
            else match s.leftAt x h.inst with
              | some ver => s.refuse f h 0x03 (ver : Int) (x.firstOf ver)
              | none => act (s.openInst c h.inst f.stamp) c x k

/-- BEACON (R133). -/
def execBeacon (t : Time) (f : Cf) (header : BitVec 256) (s : State) : Host.Outcome State Fault Refusal :=
  .next ((s.begin t).memberFrame f 5 header.toNat (fun s c _ k =>
    s.progress c (bits header.toNat 215 208) k (.beacon (bits header.toNat 127 96)) f.stamp))

/-- THROTTLE (R133). -/
def execThrottle (t : Time) (f : Cf) (header : BitVec 256) (s : State) : Host.Outcome State Fault Refusal :=
  .next ((s.begin t).memberFrame f 6 header.toNat (fun s c _ k =>
    s.progress c (bits header.toNat 215 208) k (.throttle (bits header.toNat 127 96)) f.stamp))

/-- MEMBER_ABORT: any code but BUFFER_LOST is taken as MEMBER_REQUEST (R573, R424). -/
def execMemberAbort (t : Time) (f : Cf) (header : BitVec 256) (s : State) : Host.Outcome State Fault Refusal :=
  .next ((s.begin t).memberFrame f 8 header.toNat (fun s c _ _ =>
    s.abortHere c (bits header.toNat 215 208) (if bits header.toNat 167 160 = 0x0D then 0x0D else 0x0C) allOnes))

/-! ### The tally (R96-R98) -/

/-- The deadline of a tally: STALL_LIMIT after its first DONE (R97, R136), or the one the exit from BRACE has set (R540). -/
def Tally.deadline (y : Tally) (r : Reg) : Time := max (y.first + r.stallLimit) y.floor

/-- A DONE counted at the tally home (R96, R97): it may name an ended instance whose TALLY has not been sent.  One stamped
past the deadline counts as late at once (log 190).  A count that reaches M after the record was marked cancels the timeout
(R134). -/
def State.takeDone (s : State) (f : Cf) (v : Nat) : State :=
  let h := ctlCh v
  if !ctlFormOk f.job v [] then s.badColl f h.op h.inst h.kind
  else match s.ctxOf h.op with
    | none => s.bump E.misdirected 0 1
    | some c => match s.coll.ctxs.get? c with
      | none => s
      | some x =>
        let home := (homes x.reg.op 2 allOnes (x.hsetAt (match findInst x.insts h.inst with
          | some i => i.ver
          | none => x.verOf h.inst))).1
        if !x.reg.collEn ∨ home ≠ s.gei then s.bump E.misdirected 0 1
        else match x.reg.rankOf f.src with
          | none => s.refuse f h 0x0B 0 0
          | some k =>
            let d := (h.inst + 256 - x.opn) % 256
            if 2 ≤ d ∧ d < 128 then s.refuse f h 0x04 (x.opn : Int) 0
            else
              let s := if d < 2 then s.openInst c h.inst f.stamp else s
              match s.inst? c h.inst with
              | none => s.bump E.tallyLate 0 1
              | some i =>
                let b : Tally := { first := f.stamp, last := f.stamp }
                let t := i.tally.getD b
                if i.tallySent ∨ t.deadline x.reg < f.stamp then s.bump E.tallyLate 0 1
                else if t.ranks.contains k then s.bump E.dupDropped 0 1
                else
                  let t := { t with ranks := insertNat k t.ranks, flags := t.flags ||| bits v 159 152, last := f.stamp,
                                    first := min t.first f.stamp }
                  let i := { i with tally := some t }
                  if t.ranks.length = x.reg.m then
                    let s := if t.mark.isSome then s.bump E.cancelled 0 1 else s
                    ((s.setInst c { i with tallySent := true }).sendTally x i 0 f.stamp).settle c
                  else s.setInst c i

/-- DONE (R96). -/
def execDone (t : Time) (f : Cf) (header : BitVec 256) (s : State) : Host.Outcome State Fault Refusal :=
  let s := s.begin t
  .next (if bits header.toNat 251 248 = 9 then s.takeDone f header.toNat else s)

/-- TALLY_DEADLINE: the deadline of an instance's tally has come, or its settle window has ended (R97, R134, R136).  Its record
is marked TENTATIVE at the deadline and confirmed 2 µs later, unless the device is in BRACE (R540); where the command first
comes when the window has ended, both are counted then. -/
def execTallyDeadline (t : Time) (op inst : Nat) (s : State) : Host.Outcome State Fault Refusal :=
  let s := s.begin t
  .next (match s.instOf op inst with
    | some (c, i) => match i.tally, s.coll.ctxs.get? c with
      | some y, some x =>
        let d := y.deadline x.reg
        if i.tallySent = true ∨ t < d then s
        else
          let (m, s) := match y.mark with
            | some m => (m, s)
            | none => (if d + 2 * us ≤ t then d else t, s.bump E.tentative 0 1)
          let s := s.setInst c { i with tally := some { y with mark := some m } }
          if t < m + 2 * us ∨ s.power.brace.isSome then s
          else
            let s := ((s.bump E.confirmed 0 1).setInst c { i with tallySent := true }).sendTally x i 1 d
            (s.raise 0x7007 1 (8 + s.areaDie c) [.v 32 op, .v 8 inst, .v 32 y.ranks.length, .v 32 x.reg.m]).settle c
      | _, _ => s
    | none => s)

/-! ### Count results and refused results (R90, R107, R145, R146) -/

/-- A RESULT of a count chunk from a device of the home set (R90-R92). -/
def State.takeCount (s : State) (f : Cf) (v : Nat) (payload : List Byte) : State :=
  let h := chOf v
  if !chunkFormOk f.job v payload then s.badColl f h.op h.inst h.kind
  else if h.phase ≠ 1 then s.bump E.misdirected 0 1
  else match s.ctxOf h.op with
    | none => s.bump E.misdirected 0 1
    | some c => match s.coll.ctxs.get? c with
      | none => s
      | some x =>
        let ended : Bool := match findInst x.insts h.inst with
          | some (i : Inst) => i.state != .opened
          | none => false
        let ver := x.verOf h.inst
        if !(x.hsetAt ver).contains s.gei ∨ !(x.hsetAt ver).contains f.src then s.bump E.misdirected 0 1
        else match x.stands h.inst with
        | .late => s.bump E.lateDropped 0 1
        | .ahead => s.refuse f h 0x04 (x.opn : Int) 0
        | _ =>
          if ended then s.bump E.lateDropped 0 1
          else if h.hver ≠ ver then s.refuse f h 0x03 (ver : Int) (x.firstOf ver)
          else if !x.reg.v then s.refuse f h 0x10 0 0
          else if x.reg.countChunks ≤ h.chunk then s.refuse f h 0x0F (x.reg.countChunks : Int) 0
          else if h.fmt ≠ 0x10 then s.refuse f h 0x0C (x.reg.ar.inFmt : Int) 0
          else if h.count ≠ min 1024 (x.reg.positions - 1024 * h.chunk) then
            s.refuse f h 0x0E (min 1024 (x.reg.positions - 1024 * h.chunk) : Nat) 0
          else if !checkOk f.src v payload then
            (s.bump E.checkFailedIn 0 1).refuse { f with stamp := s.now } h 0x09 (h.frame : Int) 0
          else
            let s := s.openInst c h.inst f.stamp
            match s.inst? c h.inst with
            | none => s
            | some i =>
              if i.state ≠ .opened ∨ (i.vectors.get? h.chunk).isSome then s
              else s.takeVector c h.inst h.chunk ((elemsOf 0x10 h.count payload).map (fun e => signed 32 e.raw))

/-- COUNT_RESULT (R90). -/
def execCountResult (t : Time) (f : Cf) (header : BitVec 384) (payload : List Byte) (s : State) :
    Host.Outcome State Fault Refusal :=
  let s := s.begin t
  .next (if bits header.toNat 379 376 = 2 then s.takeCount f header.toNat payload else s)

/-- A device is a receiver of a chunk's result. -/
def isReceiver (x : Ctx) (i : Inst) (phase chunk src : Nat) : Bool :=
  let e := i.receivers x.reg phase chunk
  (match x.reg.rankOf src with
    | some k => decide (e.1 ≤ k) && decide (k < e.1 + e.2)
    | none => false) || (phase == 1 && (x.hsetAt i.ver).contains src)

/-- The device `me` sends a chunk's result to a device: it homes the chunk, as h1 or h2, in a phase whose result that device
receives. -/
def Ctx.delivers (x : Ctx) (i : Inst) (me chunk src : Nat) : Bool :=
  [0, 1].any (fun ph => (ph == 0 || x.reg.v) && isReceiver x i ph chunk src &&
    let h := homes x.reg.op ph chunk (x.hsetAt i.ver)
    h.1 == me || h.2 == me)

/-- A refusal that comes once COMPLETE has gone: counted and told, with no second copy (R146). -/
def State.lateRefusal (s : State) (op n chunk src : Nat) : State :=
  (s.bump E.lateCheckFailed 0 1).raise 0x7C06 1 31 [.v 32 op, .v 8 n, .v 32 chunk, .v 24 src]

/-- A receiver's REFUSE CHECK_FAILED (R107, R146): answered once with a second copy, an abort at the second, or late once
COMPLETE has gone, whatever its stamp (R103; log 191).  Of an instance that this device has forgotten, COMPLETE has gone. -/
def State.takeRefuse (s : State) (f : Cf) (v : Nat) : State :=
  let h := ctlCh v
  if !ctlFormOk f.job v [] then s.badColl f h.op h.inst h.kind
  else if bits v 167 160 ≠ 0x09 then s.bump E.misdirected 0 1
  else match s.ctxOf h.op with
    | none => s.bump E.misdirected 0 1
    | some c => match s.coll.ctxs.get? c with
      | none => s
      | some x => match findInst x.insts h.inst with
        | none =>
          let i : Inst := { num := h.inst, ver := x.verOf h.inst, openedAt := 0 }
          if x.stands h.inst = .late ∧ x.delivers i s.gei h.chunk f.src then s.lateRefusal h.op h.inst h.chunk f.src
          else s.bump E.misdirected 0 1
        | some i =>
          if i.state = .aborted then
            s.bump (if x.delivers i s.gei h.chunk f.src then E.lateDropped else E.misdirected) 0 1
          else if i.completeSent then
            if x.delivers i s.gei h.chunk f.src then s.lateRefusal h.op h.inst h.chunk f.src else s.bump E.misdirected 0 1
          else match i.results.reverse.find? (fun (y : Result) => y.chunk == h.chunk && isReceiver x i y.phase y.chunk f.src) with
            | none => s.bump E.misdirected 0 1
            | some y =>
              if y.resent.contains f.src ∨ y.frames.isEmpty then s.abortHere c h.inst 0x06 h.chunk
              else
                let mark := fun (z : Result) => if z.phase = y.phase ∧ z.chunk = y.chunk then { z with resent := z.resent ++ [f.src] } else z
                let s := s.setInst c { i with results := i.results.map mark, lastLeft := max i.lastLeft s.now }
                let s := y.frames.foldl (fun (s : State) b => s.sendTo x 2 f.src (resentFrame s.gei b)) s
                s.raise 0x7009 0 (8 + y.stack / 2) [.v 32 h.op, .v 8 h.inst, .v 32 h.chunk, .v 24 f.src]

/-- REFUSE_CHECK_FAILED (R107, R145, R146). -/
def execRefuseCheckFailed (t : Time) (f : Cf) (header : BitVec 256) (s : State) : Host.Outcome State Fault Refusal :=
  let s := s.begin t
  .next (if bits header.toNat 251 248 = 4 then s.takeRefuse f header.toNat else s)

/-! ### Frames the device does not take (R81, R573) -/

/-- A collective frame by its bytes after the route stack: malformed, of a kind the device takes, or misdirected. -/
def State.takeOther (s : State) (f : Cf) (body : List Byte) : State :=
  let kind := field body 0 1 % 16
  let op := field body 1 4
  let inst := field body 5 1
  if kind = 1 ∨ kind = 2 then
    if body.length < 48 ∨ !chunkFormOk f.job (field body 0 48) (body.drop 48) then s.badColl f op inst kind
    else if kind = 2 ∧ isRebuild op then
      let h := chOf (field body 0 48)
      if checkOk f.src (field body 0 48) (body.drop 48) then s.takePage op h.chunk (body.drop 48)
      else (s.bump E.checkFailedIn 0 1).refuse { f with stamp := s.now } h 0x09 h.frame 0
    else if kind = 2 ∧ bits (field body 0 48) 295 294 = 0 then s.bump E.misdirected 0 1
    else s
  else if body.length < 32 ∨ !ctlFormOk f.job (field body 0 32) (body.drop 32) then s.badColl f op inst kind
  else if kind = 3 ∧ s.asksPage f.src (field body 0 32) then s.answerPage f.src (field body 0 32)
  else if kind = 3 ∧ isRebuild op then s.answerRebuild f.src (field body 0 32)
  else if kind = 3 ∨ kind = 7 ∨ kind = 10 ∨ kind = 12 ∨ kind = 13 then s.bump E.misdirected 0 1
  else if kind = 4 ∧ bits (field body 0 32) 167 160 ≠ 9 then s.bump E.misdirected 0 1
  else s

/-- COLLECTIVE_MISDIRECTED: a frame that R81 or R573 drops (R573).  A frame of a kind the device takes is another command's.
A REQUEST for a page of a parity round is answered (R436). -/
def execCollectiveMisdirected (t : Time) (f : Cf) (body : List Byte) (s : State) : Host.Outcome State Fault Refusal :=
  .next ((s.begin t).takeOther f body)

/-! ### The completion exchange and COMPLETE (R574, R93, R146) -/

/-- EXCHANGE_COMPLETION: a completion message from another device of the home set (R574). -/
def execExchangeCompletion (t : Time) (p : Peer) (body : List Byte) (s : State) : Host.Outcome State Fault Refusal :=
  let s := s.begin t
  let op := field body 1 4
  let n := field body 5 1
  let v := field body 9 24
  .next (if field body 0 1 ≠ 0 then s
    else match s.peerAccept p 7 body (body.length == 33) with
      | (false, s) => s
      | (true, s) => match s.ctxOf op with
        | none => s
        | some c => match s.coll.ctxs.get? c with
          | none => s
          | some x =>
            let hs := x.hsetAt (x.verOf n)
            let near := x.stands n = .isOpen ∨ x.stands n = .next
            if !near ∨ !hs.contains p.src ∨ !hs.contains s.gei then s
            else
              let s := s.openInst c n t
              match s.inst? c n with
              | none => s
              | some i =>
                if i.state ≠ .opened ∨ i.msgs.any (fun (m : Exchanged) => m.src == p.src) then s
                else (s.setInst c { i with msgs := i.msgs ++ [(⟨p.src, bits v 191 160, expOf v⟩ : Exchanged)] }).tryComplete c n)

/-- A RESULT of an instance is still in its cells here, or a RESULT or COLOPHON of it still waits for cells (R106, R146). -/
def State.resultQueued (s : State) (op n : Nat) : Bool :=
  let is := fun (kinds : List Nat) (f : Mft) => f.hdr.ptype == 2 && f.hdr.src == s.gei && kinds.contains (field f.body 0 1 % 16)
    && field f.body 1 4 == op && field f.body 5 1 == n
  s.net.frames.any (fun (g : Stored) => match g.packet with
    | .mft f => g.inPort == noPort && is [2] f
    | .eth _ _ => false) || s.net.waiting.any (fun (x : Nat × Mft) => is [2, 13] x.2)

/-- The anchor of the instance after the open ones, as COMPLETE carries it (R39, Table 8). -/
def Ctx.nextAnchorShown (x : Ctx) (t : Time) : Int :=
  if x.reg.zeroAnchor then 0 else if x.reg.auto then x.anchorNext else anchorAt x.writes t x.reg.ar.anchor

/-- The chunks of a completed instance have been handed on: h2s have reported those bypassed, and none that an h2 has refused
is still to be reduced here (R128). -/
def Inst.handedOn (i : Inst) : Bool :=
  i.bypassed.all (fun (y : Nat × Nat) => i.emitted.contains y.1) && i.deferred.isEmpty
    && i.chunks.all (fun (k : Chunk) => k.state == .held || k.state == .bypassOut)

/-- COMPLETE_SEND: a completed instance's COMPLETE goes to every member once h2s have reported and CHECK_GRACE has passed
since its last result left; its stored results are freed (R93, R128, R146). -/
def execCompleteSend (t : Time) (op inst : Nat) (s : State) : Host.Outcome State Fault Refusal :=
  let s := s.begin t
  .next (match s.instOf op inst with
    | some (c, i) => match s.coll.ctxs.get? c with
      | none => s
      | some x =>
        if i.state = .completed ∧ !i.completeSent ∧ i.handedOn
            ∧ i.lastLeft + s.rd E.checkGrace 0 ≤ t ∧ !s.resultQueued op inst then
          let body := ctlHeader 7 op inst allOnes (x.verOf ((inst + 1) % 256)) 0 i.flags (x.nextAnchorShown t) 0
            (x.chunksHomed i s.gei) 0 i.doneAt
          let s := i.results.foldl (fun (s : State) (y : Result) => s.returnSpill y.stack y.bytes) s
          let s := s.setInst c { i with completeSent := true, completeAt := t, results := [] }
          (s.sendMembers i.group x 7 body).settle c
        else s
    | none => s)

/-- ABORT_RELAY: another home's abort of an instance aborts it here once, or is ignored (R425, R426). -/
def execAbortRelay (t : Time) (p : Peer) (body : List Byte) (s : State) : Host.Outcome State Fault Refusal :=
  let s := s.begin t
  let v := field body 0 32
  let n := bits v 215 208
  .next (match s.peerAccept p 6 body (body.length == 32) with
    | (false, s) => s
    | (true, s) => match s.ctxOf (bits v 247 216) with
      | none => s
      | some c => match s.coll.ctxs.get? c with
        | none => s
        | some x =>
          if bits v 251 248 ≠ 8 ∨ !x.reg.hset.contains p.src ∨ x.stands n = .ahead then s
          else
            let s := if x.stands n = .late then s else s.openInst c n t
            s.abortInst c n (bits v 167 160) (bits v 207 176) (bits v 119 96) (ctlTime v) true)

/-! ### Stall timeouts (R134, R135) -/

/-- STALL_TENTATIVE: the stall timer has reached a member's deadline (R134 step 1). -/
def execStallTentative (t : Time) (op inst rank : Nat) (s : State) : Host.Outcome State Fault Refusal :=
  let s := s.begin t
  .next (match s.instOf op inst with
    | some (c, i) => match s.coll.ctxs.get? c with
      | none => s
      | some x =>
        let m := i.stall x.reg rank
        if i.state = .opened ∧ m.mark.isNone ∧ m.d ≤ t ∧ x.owes i s.gei rank then
          (s.setInst c { i with stalls := i.stalls.set rank { m with mark := some t, saved := false } }).bump E.tentative 0 1
        else s
    | none => s)

/-- A record's settle window has ended. -/
def Stall.settled (m : Stall) (t : Time) : Bool :=
  match m.mark with
  | some k => decide (k + 2 * us ≤ t)
  | none => false

/-- STALL_SETTLE: the settle windows of an instance that end now are cancelled or confirmed together (R134 step 2, R135);
none in BRACE (R540). -/
def execStallSettle (t : Time) (op inst : Nat) (s : State) : Host.Outcome State Fault Refusal :=
  let s := s.begin t
  .next (match s.instOf op inst with
    | some (c, i) => match s.coll.ctxs.get? c with
      | none => s
      | some x =>
        if i.state ≠ .opened ∨ s.power.brace.isSome then s
        else
          let due := i.stalls.filter (fun (y : Nat × Stall) => y.2.settled t)
          let gone := due.filter (fun (y : Nat × Stall) => !y.2.saved)
          let s := due.foldl (fun (s : State) (y : Nat × Stall) =>
            s.bump (if y.2.saved then E.cancelled else E.confirmed) 0 1) s
          let s := s.setInst c { i with stalls := i.stalls.map (fun (y : Nat × Stall) =>
            if y.2.settled t then (y.1, { y.2 with mark := none, saved := false }) else y) }
          match gone with
          | [] => s
          | y :: r =>
            let w := r.foldl (fun (a : Nat × Stall) z => if z.2.d < a.2.d then z else a) y
            (s.raise 0x7405 2 (8 + s.areaDie c) [.v 32 op, .v 8 inst, .v 24 (x.reg.geiOf w.1), .tm w.2.tData, .tm w.2.d]).abortHere
              c inst 0x05 allOnes
    | none => s)

/-! ### Placement events (R116, R130) -/

/-- SLOT_COUNT_PUBLISH: a quire die publishes its free SRAM slots (R116). -/
def execSlotCountPublish (t : Time) (die : Nat) (s : State) : Host.Outcome State Fault Refusal :=
  let s := s.begin t
  .next { s with coll := { s.coll with published := s.coll.published.set die (s.sramFree die) } }

/-- SPILL_COPY_DONE: the copy of a spilling chunk has completed and its SRAM slots are free (R130). -/
def execSpillCopyDone (t : Time) (op inst phase chunk : Nat) (s : State) : Host.Outcome State Fault Refusal :=
  let s := s.begin t
  .next (match s.instOf op inst with
    | some (c, i) => match findChunk i.chunks phase chunk with
      | some k =>
        if k.spilling then
          (k.slots.foldl (fun (s : State) j => s.freeSlot k.die j) s).setChunk c inst { k with spilling := false, slots := [] }
        else s
      | none => s
    | none => s)

/-! ### Messages between the homes of a bypassed chunk (R86, R127, R128, R155) -/

/-- A BYPASS message of a kind about a chunk held here, from the other home of it.  The instance may have completed at h1, which
has forwarded the whole chunk (R128, R574). -/
def State.bypassMsg (s : State) (p : Peer) (body : List Byte) (kind : Nat) (act : State → Nat → Ctx → Inst → Chunk → State) : State :=
  if field body 0 1 ≠ kind then s
  else match s.peerAccept p 10 body (body.length == 16) with
    | (false, s) => s
    | (true, s) => match s.instOf (field body 4 4) (field body 8 1) with
      | none => s
      | some (c, i) =>
        let ch := field body 12 4
        let out := kind != 3
        match i.chunks.find? (fun (k : Chunk) => k.chunk == ch &&
            (if out then k.state == .bypassOut && k.h2 == p.src else k.bypassIn && k.h1 == p.src)), s.coll.ctxs.get? c with
        | some k, some x => if i.state = .opened ∨ (out ∧ i.state = .completed) then act s c x i k else s
        | _, _ => s

/-- BYPASS_REFUSED: h2 cannot open the chunk, which h1 defers (R128). -/
def execBypassRefused (t : Time) (p : Peer) (body : List Byte) (s : State) : Host.Outcome State Fault Refusal :=
  .next ((s.begin t).bypassMsg p body 0 (fun s c x i k =>
    let s := s.raise 0x7404 1 (8 + k.die) [.v 32 x.reg.op, .v 8 i.num, .v 32 k.chunk, .v 24 s.gei, .v 24 k.h2]
    let s := s.endChunk c i.num k
    let s := s.modInst c i.num (fun (j : Inst) =>
      { j with bypassed := j.bypassed.filter (fun (y : Nat × Nat) => y.1 != ckey k.phase k.chunk) })
    match s.inst? c i.num with
    | some i => s.deferChunk c i.num x i k.phase k.chunk
    | none => s))

/-- BYPASS_EMITTED: h2 has emitted the chunk's result and record, and h1 frees its bookkeeping (R128). -/
def execBypassEmitted (t : Time) (p : Peer) (body : List Byte) (s : State) : Host.Outcome State Fault Refusal :=
  .next ((s.begin t).bypassMsg p body 1 (fun s c _ i k =>
    let s := s.endChunk c i.num k
    (s.modInst c i.num (fun (j : Inst) => { j with emitted := insertNat (ckey k.phase k.chunk) j.emitted })).tryComplete c i.num))

/-- BYPASS_RECOMPUTE: h2 asks for a recomputation; h1 clears its cover map and sends REQUEST RECOMPUTE (R155). -/
def execBypassRecompute (t : Time) (p : Peer) (body : List Byte) (s : State) : Host.Outcome State Fault Refusal :=
  .next ((s.begin t).bypassMsg p body 2 (fun s c _ i k =>
    let k := { k with cover := [], forwarded := false, request := 3 }
    (s.setChunk c i.num k).request c i.num k 3))

/-- BYPASS_RESTART: h1 restarts the chunk; h2 clears its slot, witness and flags and keeps it open, in pass 0 (R86). -/
def execBypassRestart (t : Time) (p : Peer) (body : List Byte) (s : State) : Host.Outcome State Fault Refusal :=
  .next ((s.begin t).bypassMsg p body 3 (fun s c x i k =>
    if k.state = .completing then s
    else
      let anchor := if k.phase = 1 then 0 else x.anchorFor (some i) s.now
      let (k, s) := s.stopCopy k
      s.setChunk c i.num { k.cleared with flags := 0, eChunk := none, state := .opened, pass := 0, anchor := anchor }))

/-! ### Entries written (R36, R49, R77, R137, R147) -/

/-- An operation is open to the job a request is confined to (R490). -/
def State.ownsOp (s : State) (a : Access) (op : Nat) : Bool :=
  match s.confined a.path with
  | some j => jobOf op == j
  | none => true

/-- A write of WINDOW_ANCHOR is refused unless the context holds an operation in fixed mode (R36). -/
def windowRule (ctx : Nat) (s : State) : Verdict :=
  match s.coll.ctxs.get? ctx with
  | some x => if x.reg.auto || x.reg.zeroAnchor then .refused 0 0 else .ok
  | none => .refused 0 0

/-- WINDOW_ANCHOR (R36). -/
def execWindowAnchor (a : Access) (ctx value : Nat) (s : State) : Host.Outcome State Fault Refusal :=
  .next (s.writeOne a E.windowAnchor ctx 2 value true (windowRule ctx)
    (fun s => s.modCtx ctx (fun (x : Ctx) => { x with writes := (s.now, signed 16 value) :: x.writes })))

/-- TRAP_VALID: writing 1 clears it and re-arms capture (R49). -/
def execTrapValid (a : Access) (value : Nat) (s : State) : Host.Outcome State Fault Refusal :=
  .next (s.writeOne a E.trapValid 0 1 value true (fun _ => .ok) (fun s => s.putValue E.trapValid 0 value))

/-- The answer of HOME_QUERY (R77, R109). -/
def homeAnswer (v : Nat) (s : State) : Nat :=
  let op := bits v 127 96
  let hm := match s.ctxOf op with
    | some c => match s.coll.ctxs.get? c with
      | some x => homes op (bits v 95 94) (bits v 63 32) x.hset
      | none => (noGei, noGei)
    | none => (noGei, noGei)
  pack [(32, op), (2, bits v 95 94), (6, 0), (24, hm.1), (32, bits v 63 32), (8, 0), (24, hm.2)]

/-- HOME_QUERY (R77): the record is held, under a mark that one has been written; a read gives the answer of that moment. -/
def execHomeQuery (a : Access) (record : BitVec 128) (s : State) : Host.Outcome State Fault Refusal :=
  .next (s.writeOne a E.homeQuery 0 16 0 (s.ownsOp a (bits record.toNat 127 96)) (fun _ => .ok)
    (fun s => s.wr E.homeQuery 0 (2 ^ 128 + record.toNat)))

/-- The answer of MEMBER_QUERY (R137 Table 4): the stall record of a rank in the open instance. -/
def memberAnswer (v : Nat) (s : State) : Nat :=
  let c := bits v 255 240
  let k := bits v 239 222
  let z := pack [(16, c), (18, k), (222, 0)]
  match s.coll.ctxs.get? c with
  | none => z
  | some x => match findInst x.insts x.opn with
    | none => z
    | some i =>
      if x.reg.m ≤ k then z
      else
        let m := i.stall x.reg k
        pack [(16, c), (18, k), (78, timeLayout m.tData), (78, timeLayout m.d), (1, b2n (x.owes i s.gei k)), (1, b2n m.mark.isSome),
          (32, m.beacon), (32, m.throttled)]

/-- MEMBER_QUERY (R137): the record is held; a read gives the answer of that moment. -/
def execMemberQuery (a : Access) (record : BitVec 256) (s : State) : Host.Outcome State Fault Refusal :=
  .next (s.writeOne a E.memberQuery 0 32 0 true (fun _ => .ok) (fun s => s.wr E.memberQuery 0 (2 ^ 256 + record.toNat)))

/-- WEIGHT_QUERY (R147). -/
def execWeightQuery (a : Access) (record : BitVec 192) (s : State) : Host.Outcome State Fault Refusal :=
  let v := record.toNat
  .next (s.writeOne a E.weightQuery 0 24 0 (s.ownsOp a (bits v 191 160)) (fun _ => .ok)
    (fun s => s.wr E.weightQuery 0 (pack [(32, bits v 191 160), (32, bits v 159 128), (2, bits v 127 126), (52, 0), (10, bits v 73 64),
      (64, weight (wseed (bits v 191 160) (bits v 127 126) (bits v 159 128)) (bits v 73 64))])))

end Sys2Proof.Machine
end

