-- ==== Sys2Proof/Machine/Complete.lean ====
section
/-!
DEFINITION. The completion pipeline and colophon records (spec/05 R147-R163, spec/04 R112, R130, spec/02 R55-R59).
-/
namespace Sys2Proof.Machine

/-! ### Upsets of an accumulator -/

/-- One bit of an integer flipped. -/
def flipInt (w : Nat) (q : Int) (b : Nat) : Int := signed w (wrapInt w q ^^^ 2 ^ (b % w))

/-- A list with one element changed. -/
def changeNth {α : Type} (f : α → α) : List α → Nat → List α
  | [], _ => []
  | x :: r, 0 => f x :: r
  | x :: r, n + 1 => x :: changeNth f r n

/-- An accumulator with a bit of an element flipped, as an upset the memory's code does not correct leaves it. -/
def Acc.flip (a : Acc) (w : Nat) (u : Nat × Nat) : Acc :=
  match a with
  | .empty => .empty
  | .ints l => .ints (changeNth (fun q => flipInt w q u.2) l u.1)
  | .keys l => .keys (changeNth (fun v => flipInt 128 v u.2) l u.1)
  | .raws l => .raws (changeNth (fun r => r ^^^ 2 ^ (u.2 % 32)) l u.1)

/-! ### Completion -/

/-- Ranks covered by a chunk's accepted contributions. -/
def Chunk.ranks (k : Chunk) : Nat := k.cover.foldl (fun a (x : Cover) => a + x.count) 0

/-- The witness of what a chunk's slot holds. -/
def Chunk.witness (k : Chunk) (ar : Arith) (op : Nat) (a : Acc) : Nat := witnessOf ar.op ar.inFmt op k.phase k.chunk 0 a

/-- The record of Table 4, signed with the key of an epoch (R157-R159). -/
def colophonRecord (gei op inst hver : Nat) (ar : Arith) (k : Chunk) (fmt flags resWit crc epoch : Nat) (t : Time) : BitVec 640 :=
  let head := pack [(4, 1), (2, k.phase), (1, k.pass), (1, b2n k.bypassIn), (8, flags), (32, op), (8, inst), (32, k.chunk), (8, hver),
    (16, wrapInt 16 k.anchor), (8, fmt), (4, if k.phase = 1 then 0 else ar.op), (4, k.recomputes), (19, k.ranks), (5, 0), (24, gei),
    (24, k.h1), (64, k.wit), (64, resWit), (64, crc), (78, timeLayout t), (10, 0), (32, epoch)]
  BitVec.ofNat 640 (head * 2 ^ 128 + mac128 (colophonKey epoch) (toBytes 64 head))

/-- A result witness mismatch noted: its notice and counters (R154 step 1, R413). -/
def State.noteMismatch (s : State) (op n : Nat) (k : Chunk) : State :=
  let s := s.raise 0x7C01 2 (8 + k.die) [.v 32 op, .v 8 n, .v 32 k.chunk, .v 8 k.pass, .v 16 k.die, .v 8 k.recomputes]
  let s := (s.bump E.resultMismatch 0 1).bump E.mismatchByDie k.die 1
  let s := s.countEvent (8 * (8 + k.die) + 1) 0x50 0xFFFF (jobOf op) 1
  let old := (s.coll.mismatchAt.getD k.die []).filter (fun x => decide (s.now < x + s.rd E.quireMismatchWindow 0))
  { s with coll := { s.coll with mismatchAt := s.coll.mismatchAt.set k.die (old ++ [s.now]) } }

/-- A die has reached QUIRE_MISMATCH_LIMIT within the window (R413). -/
def State.mismatchLimit (s : State) (q : Nat) : Bool :=
  decide (s.rd E.quireMismatchLimit 0 ≤ (s.coll.mismatchAt.getD q []).length) && decide (0 < s.rd E.quireMismatchLimit 0)

/-- A chunk recomputed, or its instance aborted when the limit would be passed (R154). -/
def State.mismatch (s : State) (c n : Nat) (x : Ctx) (i : Inst) (k : Chunk) : State :=
  let s := s.noteMismatch x.reg.op n k
  if i.recompute ≤ k.recomputes then
    ((s.bump E.unresolved 0 1).raise 0x7C04 2 (8 + k.die) [.v 32 x.reg.op, .v 8 n, .v 32 k.chunk, .v 16 k.die]).abortHere c n 0x0A k.chunk
  else s.recompute c n k true

/-- The completion pipeline takes a chunk in COMPLETING: witness compared, output converted and checked, record formed and
queued (R153, R154, R157, R160).  `ups` are the bits of its accumulator that an upset has flipped; `bad` counts the
conversions that the result unit finds different. -/
def State.complete (s : State) (c n : Nat) (x : Ctx) (i : Inst) (k : Chunk) (ups : List (Nat × Nat)) (bad : Nat) : State :=
  let op := x.reg.op
  let ar := x.reg.phaseAr k.phase
  let q := s.coll.records.getD k.die []
  if 4096 ≤ q.length then s.raiseLim ms (8 + k.die) 0x7C07 1 (8 + k.die) [.v 16 k.die]
  else
    let wide := k.pass == 1
    let acc := ups.foldl (fun a u => a.flip (if wide then 192 else 128) u) k.acc
    let w := k.witness ar op acc
    if w ≠ k.wit then s.mismatch c n x i k
    else
      let s := if bad = 0 then s else
        (s.bump E.outputMismatch 0 1).raise 0x7C03 2 (8 + k.die) [.v 32 op, .v 8 n, .v 32 k.chunk, .v 16 k.die]
      if 2 ≤ bad then s.mismatch c n x i k
      else
        let (fmt, payload, sat) := convertOut ar.outFmt ar.fuse k.anchor wide acc
        let flags := k.flags ||| (if sat then flagSat else 0)
        let s := if sat && !i.satTold then
          (s.raise 0x7808 1 (8 + k.die) [.v 32 op, .v 8 n, .v 32 k.chunk]).modInst c n (fun (j : Inst) => { j with satTold := true }) else s
        let s := s.seeFlags c n flags
        let rec_ := colophonRecord s.gei op n i.ver ar k fmt flags w (crc64 payload) (s.rd E.keyEpoch 0) s.now
        let s := ((s.bump E.recordsEmitted 0 1).countEvent (8 * (8 + k.die)) 0x41 0xFFFF (jobOf op) 1).countEvent
          (8 * (8 + k.die) + 1) 0x51 0xFFFF (jobOf op) 1
        let s := { s with coll := { s.coll with records := s.coll.records.set k.die (q ++ [(⟨c, n, k.phase, k.chunk, rec_⟩ : QRec)]) } }
        s.setChunk c n { k with queued := true, payload := payload, flags := flags, acc := acc }

/-! ### Emission (R161-R163) -/

/-- The entries of the colophon ring. -/
def ringEntries : Nat := 8388608

/-- A record written to the colophon ring (R163). -/
def State.ringWrite (s : State) (r : BitVec 640) : State :=
  let n := s.rd E.ringNext 0
  let ring := s.coll.ring.set n r
  let s := s.wr E.ringNext 0 ((n + 1) % 2 ^ 64)
  if ringEntries ≤ n then
    let s := { s with coll := { s.coll with ring := ring.del (n - ringEntries) } }
    let s := s.bump E.recordsOverwritten 0 1
    if n = ringEntries then s.raise 0x7C08 0 31 [.v 32 (n + 1)] else s
  else { s with coll := { s.coll with ring := ring } }

/-- The RESULT frame bodies of a completed chunk (R79, R83, R143). -/
def State.resultBodies (s : State) (n : Nat) (x : Ctx) (i : Inst) (k : Chunk) (fmt : Nat) : List (List Byte) :=
  let ar := x.reg.phaseAr k.phase
  let per := perFrame fmt
  let xa := fmt == 0x18 || fmt == 0x19
  (List.range (framesOf fmt k.count)).map (fun fr =>
    let p := if xa then slice k.payload (fr * per * (elemBits fmt / 8)) (per * (elemBits fmt / 8)) else k.payload
    let w := match k.acc with
      | .ints l => if xa then witnessInts (wseed x.reg.op k.phase k.chunk) (per * fr) ((l.drop (per * fr)).take per) else k.witness ar x.reg.op k.acc
      | a => k.witness ar x.reg.op a
    let g : Ch := { kind := 2, op := x.reg.op, inst := n, chunk := k.chunk, hver := i.ver, phase := k.phase, pass := k.pass, witp := true,
                    fmt := fmt, flags := k.flags, anchor := k.anchor, count := k.count, frame := fr, covers := k.ranks, wit := w }
    g.bytes s.gei p ++ p)

/-- A record's COLOPHON frames to the sinks of its instance (R161, R162). -/
def State.sendRecord (s : State) (c n : Nat) (x : Ctx) (i : Inst) (k : Chunk) (r : BitVec 640) : State :=
  let body := ctlHeader 0xD x.reg.op n k.chunk x.ver 0 k.flags k.anchor 0 0 0 s.now ++ toBytes 80 r.toNat
  let e := i.receivers x.reg k.phase k.chunk
  let toReceivers := (i.sinkMode == 0 && k.phase == 0) || i.sinkMode == 2
  let s := if !toReceivers then s
    else if e.2 = x.reg.m ∧ e.2 ≠ 0 then s.sendMembers i.group x 0xD body
    else (x.reg.geis e).foldl (fun (s : State) d => s.sendTo x 0xD d body) s
  if i.sinkMode = 1 ∨ i.sinkMode = 2 then s.sendTo x 0xD i.sinkGei body else s

/-- A result of an instance is still awaited by the graph bound to its operation: the instance's run has not ended, and
none of its results has been lost (R175, R193, R234). -/
def State.awaits (s : State) (op inst : Nat) : Bool :=
  match s.boundTo op with
  | none => true
  | some (_, g) =>
    let at_ := match g.run with
      | some r => r.inst
      | none => g.next
    decide ((inst + 256 - at_) % 256 < 128) && !g.skip.any (fun (y : Nat × Nat) => y.1 == inst && decide (256 ≤ y.2))

/-- A signed record leaves its die's queue: the ring, the result, the sinks; the chunk is freed or held, its steer entries
removed (R116, R130, R157-R163).  A result that is held enters no stitch channel and has no latency (R14). -/
def State.emitRecord (s : State) (die : Nat) : State :=
  match s.coll.records.getD die [] with
  | [] => s
  | r :: rest =>
    let s := { s with coll := { s.coll with records := if rest.isEmpty then s.coll.records.del die else s.coll.records.set die rest } }
    match s.coll.ctxs.get? r.ctx, s.chunk? r.ctx r.inst r.phase r.chunk with
    | some x, some k => match findInst x.insts r.inst with
      | none => s
      | some i =>
        let s := s.ringWrite r.record
        let fmt := bits r.record.toNat 527 520
        let held := x.reg.type == 7 && k.phase == 0
        let s := if k.phase = 0 then s.parityResult r.ctx r.inst x k.chunk (s.resultBodies r.inst x i k fmt) k.payload else s
        let s := if held then s else s.sendResult r.ctx r.inst x i k.phase k.chunk k.bookAt (s.resultBodies r.inst x i k fmt)
        let s := s.sendRecord r.ctx r.inst x i k r.record
        let s := if held then s else s.raiseTo E.latSeenMax 0 (s.now - k.lastStamp)
        let s := if held && !k.bypassIn && s.awaits x.reg.op r.inst then
            s.setChunk r.ctx r.inst { k with state := .held, queued := false, steered := [] }
          else s.endChunk r.ctx r.inst k
        let s := if held then s.resultHeld x.reg.op r.inst k.chunk k.h1 k.bypassIn fmt
          ((elemsOf fmt k.count k.payload).map (fun e => e.raw)) else s
        let s := if k.bypassIn then s.sendBypass k.h1 1 x.reg.op r.inst k.chunk else s
        let s := if k.phase = 1 then
          s.takeVector r.ctx r.inst k.chunk ((elemsOf 0x10 k.count k.payload).map (fun e => signed 32 e.raw)) else s
        s.chunkDone r.ctx r.inst (ckey k.phase k.chunk)
    | _, _ => s

end Sys2Proof.Machine
end

