-- ==== Sys2Proof/Machine/Registry.lean ====
section
/-!
DEFINITION. Registration, deregistration and home-set exclusion (spec/03 R63-R70, spec/04 R122, R123, spec/16 R449).
-/
namespace Sys2Proof.Machine

/-! ### The registration record (R63, R65) -/

/-- Insertion of a range by its first GEI. -/
def putRange : List (Nat × Nat × Nat) → Nat × Nat × Nat → List (Nat × Nat × Nat)
  | [], x => [x]
  | y :: r, x => if x.1 < y.1 then x :: y :: r else y :: putRange r x

/-- The range entries of a record in the order written. -/
def rangesOf (b : List Byte) : List (Nat × Nat × Nat) :=
  (List.range (field b 4 1)).map (fun i => let v := field b (64 + 8 * i) 8; (bits v 63 40, bits v 39 16, bits v 15 14))

/-- The home entries of a record in the order written. -/
def homesOf (b : List Byte) : List Nat :=
  (List.range (field b 3 1)).map (fun i => field b (64 + 8 * field b 4 1 + 4 * i) 4 % 2 ^ 24)

/-- The registration a record spells (R63 Tables 1 and 2). -/
def regOf (op : Nat) (b : List Byte) : Reg :=
  let v := field b 0 32
  { op := op, type := bits v 239 236, v := bit v 235, ring := bit v 234, collEn := bit v 233, root := bits v 207 184,
    coll := bits v 183 160, chunks := bits v 159 128, limit := bits v 127 112, maxStall := bits v 111 96, reserve := bits v 95 64,
    first := bits v 215 208, ranges := (rangesOf b).foldl putRange [], hset := (homesOf b).foldl (fun l d => insertNat d l) [],
    arith := field b 32 32 }

/-- A list of ranges in ascending order overlaps. -/
def rangesOverlap : List (Nat × Nat × Nat) → Bool
  | a :: b :: r => decide (b.1 ≤ a.2.1) || rangesOverlap (b :: r)
  | _ => false

/-- The record's length and reserved fields (Table 3 MALFORMED). -/
def regMalformed (b : List Byte) : Bool :=
  let v := field b 0 32
  let r := field b 4 1
  let h := field b 3 1
  let d := field b 32 32
  decide (b.length < 64) || b.length != 64 + 8 * r + 4 * h || bit v 232 || bits v 63 0 != 0
    || bits d 207 192 != 0 || bits d 47 0 != 0
    || (List.range r).any (fun i => field b (64 + 8 * i) 8 % 2 ^ 14 != 0)
    || (List.range h).any (fun i => field b (64 + 8 * r + 4 * i) 1 != 0)

/-- The type, its -v variant and descriptor are those of Table 4 (TYPE_INVALID otherwise). -/
def typeOk (r : Reg) : Bool :=
  decide (r.type ≤ 7) && (!r.v || r.type == 1 || r.type == 3 || r.type == 5) && (!r.ring || decide (r.type ≤ 1))
    && (!r.isCopy || (r.ar.outFmt == r.ar.inFmt && r.ar.plain)) && (r.type != 7 || r.ar.op == 0)
    && (!(r.type == 2 || r.type == 4) || (r.rankOf r.root).isSome)

/-- The members are valid (MEMBERS_INVALID otherwise). -/
def membersOk (b : List Byte) (r : Reg) : Bool :=
  let n := field b 4 1
  decide (1 ≤ n) && decide (n ≤ 64) && r.ranges.all (fun x => decide (x.1 ≤ x.2.1)) && !rangesOverlap r.ranges
    && decide (r.m ≤ 262144) && (r.type != 5 || decide (r.m ≤ 4096))
    && r.ranges.all (fun x => if r.ring then decide (x.2.2 < field b 3 1) else x.2.2 == 0)

/-- The home set is valid (HOMESET_INVALID otherwise). -/
def homesetOk (b : List Byte) (r : Reg) : Bool :=
  decide (1 ≤ field b 3 1) && r.hset.length == field b 3 1 && (!r.ring || (decide (2 ≤ r.hset.length) && decide (r.hset.length ≤ 4)))

/-- The chunk count is valid (CHUNKS_INVALID otherwise). -/
def chunksOk (r : Reg) : Bool :=
  decide (1 ≤ r.chunks) && decide (r.chunks ≤ 0xFFFFFFF0) && (r.type != 6 || r.chunks == 1)
    && (r.type != 5 || r.chunks % (r.m * r.m) == 0)

/-- The stall limits are valid (STALL_INVALID otherwise). -/
def stallOk (r : Reg) : Bool :=
  decide (1 ≤ r.limit) && decide (r.limit ≤ 60000) && decide (r.limit ≤ r.maxStall)

/-- The first check of Table 3 that a record fails, 0 for none; `authorised` is R64's answer. -/
def regCheck (op : Nat) (b : List Byte) (authorised : Bool) : Nat :=
  let r := regOf op b
  if regMalformed b then 0x01
  else if !authorised then 0x02
  else if !arithOk r.arith then 0x03
  else if !typeOk r then 0x04
  else if !membersOk b r then 0x05
  else if !homesetOk b r then 0x06
  else if !chunksOk r then 0x07
  else if !stallOk r then 0x08
  else 0

/-- This device belongs to a ring registration's home set although its GROUP_ROLE says that it is of no board group (R65,
R101, R404).  Of which board group the other devices are, nothing tells it (log 34). -/
def State.loneRing (s : State) (r : Reg) : Bool := r.ring && r.hset.contains s.gei && s.rd E.groupRole 0 == 0

/-- The first check of Table 3 that a record fails at this device, 0 for none. -/
def State.regFails (s : State) (op : Nat) (b : List Byte) (authorised : Bool) : Nat :=
  let code := regCheck op b authorised
  if (code = 0 ∨ 6 < code) ∧ s.loneRing (regOf op b) then 0x06 else code

/-! ### Reservations (R122, R123, R449) -/

/-- RESERVE_POOL: 80% of the usable SRAM slots, rounded down to a multiple of 1,024 (R123). -/
def State.reservePool (s : State) : Nat := s.quires.length * 16384 * 8 / 10 / 1024 * 1024

/-- RESERVED_HELD: the reservations of the registrations held (R122). -/
def State.reservedHeld (s : State) : Nat := s.coll.ctxs.foldl (fun a (x : Nat × Ctx) => a + x.2.reg.reserve) 0

/-- The contexts and reserved slots of a job. -/
def State.jobContexts (s : State) (job : Nat) : Nat :=
  (s.coll.ctxs.filter (fun (x : Nat × Ctx) => jobOf x.2.reg.op == job)).length
def State.jobSlots (s : State) (job : Nat) : Nat :=
  s.coll.ctxs.foldl (fun a (x : Nat × Ctx) => if jobOf x.2.reg.op = job then a + x.2.reg.reserve else a) 0

/-- Bytes of a context area (R122). -/
def areaBytes (r : Reg) : Nat := 16 * r.m + ceilDiv (ceilDiv r.chunks 8) 4096 * 4096

/-- Bytes of a reserved footprint (R122). -/
def footprintBytes (r : Reg) : Nat := r.reserve * (slotBytes + bookBytes r.m)

/-- The check of R122 that a registration fails, 0 for none. -/
def State.reserveFails (s : State) (r : Reg) : Nat :=
  let job := jobOf r.op
  let above : Bool := match s.quota job 448 431 with
    | some q => decide (q < s.jobSlots job + r.reserve)
    | none => false
  if (s.coll.ctxs.freeFrom 16384 0).isNone ∨ overQuota (s.quota job 463 449) (s.jobContexts job) then 1
  else if r.reserve < 1 ∨ 16384 < r.reserve then 2
  else if above ∨ s.reservePool < s.reservedHeld + r.reserve then 3
  else if s.spillFree < s.heldBack + areaBytes r + footprintBytes r then 4
  else 0

/-- A device of this GEI answers no prepare while its GEI is 0 (R503). -/
def State.answers (s : State) : Bool := s.gei != 0

/-- A registration held under a prepare, or refused (R66, R122). -/
def State.holdReg (s : State) (op : Nat) (rec_ : List Byte) : Nat × State :=
  let r := regOf op rec_
  let code := s.regFails op rec_ true
  let retiring : Bool := match s.jobs.get? (jobOf op) with
    | some j => j.state == .retiring
    | none => false
  if code ≠ 0 then (code, s)
  else if retiring then (0x0A, s)
  else if s.coll.ctxs.any (fun (x : Nat × Ctx) => x.2.reg.op == op) then (0x09, s)
  else
    let fail := s.reserveFails r
    if fail ≠ 0 then (0x0A, s.raise 0x7408 1 31 [.v 32 op, .v 8 r.first, .v 8 fail])
    else
      let c := (s.coll.ctxs.freeFrom 16384 0).getD 0
      let x : Ctx := { reg := r, gen := 0 }
      let at_ := s.areaStack c
      let s := s.useSpill (op, r.first) at_ (areaBytes r)
      (0, s.setCtx c { x with area := areaBytes r, areaAt := at_, footprint := footprintBytes r })

/-- The context that holds an operation, prepared or admitted. -/
def State.anyCtx (s : State) (op : Nat) : Option Nat :=
  (s.coll.ctxs.find? (fun (x : Nat × Ctx) => x.2.reg.op == op)).map (·.1)

/-- A held registration committed (R66 step 3, R68). -/
def State.commitReg (s : State) (op : Nat) : State :=
  match s.anyCtx op with
  | none => s
  | some c => match s.coll.ctxs.get? c with
    | none => s
    | some x =>
      let gen := match s.jobs.get? (jobOf op) with
        | some j => j.gen
        | none => 0
      let anchor := if x.reg.zeroAnchor then 0 else x.reg.ar.anchor
      let s := s.setCtx c { x with admitted := true, opn := x.reg.first, anchorNext := anchor, gen := gen }
      (s.wr E.regContext 0 c).raise 0x7001 0 31 [.v 32 op, .v 8 x.reg.first, .v 16 c]

/-- A held registration released (R66 step 4). -/
def State.releaseReg (s : State) (op : Nat) : State :=
  match s.anyCtx op with
  | none => s
  | some c => match s.coll.ctxs.get? c with
    | some x => if x.admitted then s else s.freeCtx c
    | none => s

/-- The registrar reports a registration: REG_STATUS, or a REG_REPLY to the leader, and OP_REFUSED (R65, R66, R110). -/
def State.reportReg (s : State) (op first code gei reply : Nat) : State :=
  let s := if reply = noGei then s.wr E.regStatus 0 code
    else s.sendColl (jobOf op) (match s.jobs.get? (jobOf op) with
      | some j => j.gen
      | none => 0) 0xC reply (ctlHeader 0xC op 0 allOnes 0 code 0 0 0 0 0 s.now)
  if code = 0 then s else s.raise 0x7002 1 31 [.v 32 op, .v 8 first, .v 8 code, .v 24 gei]

/-- The two phases of a registration (R66). -/
def regPhase (op : Nat) (rec_ : List Byte) (reply : Nat) : Phase :=
  ⟨fun s => s.holdReg op rec_, fun s => s.commitReg op, fun s => s.releaseReg op,
   fun code gei s => s.reportReg op (field rec_ 5 1) code gei reply, 0x0A, true⟩

/-- A registration that passed R65 starts its two phases; its record carries the operation ID before it (log 41). -/
def State.startReg (s : State) (op : Nat) (rec_ : List Byte) (reply : Nat) : State :=
  s.startLed 0 op (toBytes 4 op ++ rec_) (regOf op rec_).hset reply (regPhase op rec_ reply)

/-- The operation ID of a record written to REGISTER (R64, R490). -/
def State.regOp (s : State) (a : Access) (b : List Byte) : Nat :=
  (match s.confined a.path with
    | some j => j
    | none => s.rd E.regJobTag 0) * 65536 + field b 0 2

/-- REGISTER's own rule: the checks of R65. -/
def regRule (a : Access) (b : List Byte) (s : State) : Verdict :=
  let code := s.regFails (s.regOp a b) b true
  if code = 0 then .ok else .refused E.regStatus code

/-- REGISTER (R63, R65, R66). -/
def execRegister (a : Access) (record : List Byte) (s : State) : Host.Outcome State Fault Refusal :=
  .next (s.writeWith a E.register 0 record.length 0 true (regRule a record)
    (fun s => s.reportReg (s.regOp a record) (field record 5 1) (s.rd E.regStatus 0) s.gei noGei)
    (fun s => (s.wr E.regStatus 0 0xFF).startReg (s.regOp a record) record noGei))

/-- A REGISTER frame is the leader's, for its own job, in its current generation (R64). -/
def State.registrar (s : State) (f : Cf) (op : Nat) : Bool :=
  match s.jobs.get? f.job with
  | some j => j.state == .active && bits j.record.toNat 487 464 == f.src && jobOf op == f.job && j.gen == f.gen
  | none => false

/-- REGISTER_FRAME: a REGISTER frame is authorised, checked and started, or answered (R64-R66). -/
def execRegisterFrame (t : Time) (f : Cf) (header : BitVec 256) (record : List Byte) (s : State) :
    Host.Outcome State Fault Refusal :=
  let s := s.begin t
  let v := header.toNat
  let op := bits v 247 232 * 65536 + field record 0 2
  .next (if bits v 251 248 ≠ 0xB then s
    else if !ctlFormOk f.job v record then s.badColl f (bits v 247 216) (bits v 215 208) 0xB
    else
      let code := s.regFails op record (s.registrar f (bits v 247 216) && jobOf op == f.job)
      if code = 0 then s.startReg op record f.src else s.reportReg op (field record 5 1) code s.gei f.src)

/-! ### Deregistration (R69) -/

/-- An operation's deregistration held. -/
def State.holdDereg (s : State) (op : Nat) : Nat × State :=
  match s.ctxOf op with
  | none => (0x0C, s)
  | some c => (0, s.modCtx c (fun (x : Ctx) => { x with deregistering := true }))

/-- An operation ended at this device with a reason: open instances aborted, the context freed (R69, R452 step 3). -/
def State.endOp (s : State) (c reason : Nat) : State :=
  match s.coll.ctxs.get? c with
  | none => s
  | some x =>
    let s := x.insts.foldl (fun (s : State) (i : Inst) =>
      if i.state = .opened then s.abortHere c i.num reason allOnes else s) s
    s.freeCtx c

/-- An operation deregistered with a reason: ended, its context freed, then the notice (R69). -/
def State.deregister (s : State) (c reason : Nat) (x : Ctx) : State :=
  (s.endOp c reason).raise 0x7003 0 31 [.v 32 x.reg.op, .v 8 x.opn, .v 16 c]

/-- A deregistration committed. -/
def State.commitDereg (s : State) (op : Nat) : State :=
  match s.ctxOf op with
  | none => s
  | some c => match s.coll.ctxs.get? c with
    | some x => s.deregister c 0x07 x
    | none => s

/-- A deregistration released. -/
def State.releaseDereg (s : State) (op : Nat) : State :=
  match s.ctxOf op with
  | none => s
  | some c => s.modCtx c (fun (x : Ctx) => { x with deregistering := false })

/-- The two phases of a deregistration. -/
def deregPhase (op : Nat) : Phase :=
  ⟨fun s => s.holdDereg op, fun s => s.commitDereg op, fun s => s.releaseDereg op, fun code _ s => s.wr E.deregStatus 0 code, 0x0A, false⟩

/-- DEREGISTER (R69). -/
def execDeregister (a : Access) (op : Nat) (s : State) : Host.Outcome State Fault Refusal :=
  .next (s.writeOne a E.deregister 0 4 op true
    (fun s => if (s.ctxOf op).isNone then .refused E.deregStatus 0x0C else .ok)
    (fun s => (s.wr E.deregStatus 0 0xFF).startLed 2 op (toBytes 4 op) (s.hsetOf op) noGei (deregPhase op)))

/-! ### Home-set exclusion (R70) -/

/-- The first instance this device has not opened. -/
def Ctx.firstNew (x : Ctx) : Nat :=
  if (findInst x.insts ((x.opn + 1) % 256)).isSome then (x.opn + 2) % 256
  else if (findInst x.insts x.opn).isSome then (x.opn + 1) % 256 else x.opn

/-- The code with which a device answers an exclusion (R70). -/
def State.excludeCode (s : State) (op gei : Nat) : Nat :=
  match s.ctxOf op with
  | none => 0x0C
  | some _ => let hs := s.hsetOf op
    if !hs.contains gei ∨ hs.length = 1 then 0x06 else 0

/-- The first instance that no remaining device has opened (R70): not before this device's own; how far past it, while
another device remains, is a free value, since no message tells it (log 42). -/
def State.firstVer (s : State) (x : Ctx) (gei : Nat) : Nat × State :=
  let own := if gei = s.gei then x.opn else x.firstNew
  if x.hset.all (fun d => d == gei || d == s.gei) = true then (own, s) else ((own + s.free.1 % 127) % 256, s.free.2)

/-- An exclusion committed at a device (R70). -/
def State.commitExclude (s : State) (op gei : Nat) : State :=
  match s.ctxOf op with
  | none => s
  | some c => match s.coll.ctxs.get? c with
    | none => s
    | some x =>
      let ver := (x.ver + 1) % 256
      let before := s
      let first := (s.firstVer x gei).1
      let s := (s.firstVer x gei).2
      let s := s.setCtx c { x with ver := if gei = s.gei then x.ver else ver, excluded := x.excluded ++ [(gei, ver, first)] }
      let s := (s.gainLost before op).breakParity op
      let s := if gei = s.gei then s else s.raise 0x7005 0 31 [.v 32 op, .v 8 x.opn, .v 24 gei, .v 8 ver]
      s.settle c

/-- The two phases of an exclusion. -/
def excludePhase (op gei : Nat) : Phase :=
  ⟨fun s => (s.excludeCode op gei, s), fun s => s.commitExclude op gei, fun s => s, fun code _ s => s.wr E.hsetStatus 0 code, 0x0A, false⟩

/-- HSET_EXCLUDE's own rule (R70). -/
def excludeRule (v : Nat) (s : State) : Verdict :=
  if bits v 31 24 ≠ 0 then .refused E.hsetStatus 0x01
  else
    let code := s.excludeCode (bits v 63 32) (bits v 23 0)
    if code = 0 then .ok else .refused E.hsetStatus code

/-- HSET_EXCLUDE (R70): a device that is LOST here is not asked (R415). -/
def execHsetExclude (a : Access) (record : BitVec 64) (s : State) : Host.Outcome State Fault Refusal :=
  let v := record.toNat
  let op := bits v 63 32
  let gei := bits v 23 0
  .next (s.writeOne a E.hsetExclude 0 8 0 true (excludeRule v)
    (fun s =>
      let devs := (s.hsetOf op).filter (fun d => !(d == gei && s.anyLost [d]))
      (s.wr E.hsetStatus 0 0xFF).startLed 1 op (toBytes 8 v) devs noGei (excludePhase op gei)))

/-! ### The operations of parity groups (spec/15 R435, R438, spec/16 R456) -/

/-- The arithmetic of a parity operation: XOR of INT32 (R435). -/
def xorArith : Nat := pack [(8, 0x10), (8, 0x10), (4, 3), (4, 0), (8, 0), (16, 0), (16, 0), (32, 0x3F800000), (160, 0)]

/-- A REDUCE of INT32 by XOR, its home set one device (R435, R438). -/
def xorReg (op root home pages : Nat) (members : List Nat) : Reg :=
  { op := op, type := 2, root := root, chunks := pages, hset := [home], arith := xorArith,
    ranges := members.foldl (fun l d => putRange l (d, d, 0)) [] }

/-- The parity operation of a group (R435). -/
def Parity.roundReg (p : Parity) : Reg := xorReg (parityOp p.job p.group) p.pgei p.pgei p.pages p.data

/-- An operation that no registration record brings, held as a registration is (R122); 0, or the code of what it lacks. -/
def State.holdOwn (s : State) (r : Reg) : Nat × State :=
  if s.coll.ctxs.any (fun (x : Nat × Ctx) => x.2.reg.op == r.op) then (0x0A, s)
  else if s.reserveFails r ≠ 0 then (0x08, s)
  else
    let c := (s.coll.ctxs.freeFrom 16384 0).getD 0
    let x : Ctx := { reg := r, gen := 0 }
    (0, (s.useSpill (r.op, r.first) (s.areaStack c) (areaBytes r)).setCtx c { x with area := areaBytes r, areaAt := s.areaStack c, footprint := footprintBytes r })

/-- The parity operations of the admitted groups that a test picks registered afresh, after an ADVANCE has removed them (R456). -/
def State.renewParity (s : State) (which : Parity → Bool) : State :=
  (s.graphs.parity.filter (fun (x : Nat × Parity) => x.2.admitted && which x.2)).foldl (fun (s : State) (x : Nat × Parity) =>
    if (s.ctxOf (parityOp x.2.job x.2.group)).isSome then s
    else match s.holdOwn x.2.roundReg with
      | (0, s) => s.commitReg (parityOp x.2.job x.2.group)
      | (_, s) => s) s

end Sys2Proof.Machine
end

