-- ==== Sys2Proof/Machine/GraphImage.lean ====
section
/-!
DEFINITION. Tensor records and graph images, their checks, their two phases and the writes that start them
(spec/06 R166-R174, R176, R177, R184, R186, R187, R193, spec/07 R198, R199, R201).
-/
namespace Sys2Proof.Machine

/-! ### Tensor records (R167 Table 1) -/

/-- Rows or columns of a record: 65,536 is encoded as 0 for a WHOLE tensor. -/
def dimOf (cls v : Nat) : Nat := if cls = 1 ∧ v = 0 then 65536 else v

/-- The tensor a record spells; its handle carries the job tag of its operation. -/
def tensorOf (v : Nat) : Tensor :=
  let cls := bits v 239 236
  let op := bits v 223 192
  { handle := op / 65536 * 65536 + bits v 255 240, cls := cls, fmt := bits v 235 228, op := op, first := bits v 191 160,
    elements := bits v 159 120, rows := dimOf cls (bits v 119 104), cols := dimOf cls (bits v 103 88) }

/-- A number is a multiple of 128 from 128 to 65,536. -/
def dimOk (n : Nat) : Bool := n % 128 == 0 && decide (128 ≤ n) && decide (n ≤ 65536)

/-- A storage format of a class; that of a VIEW is ignored. -/
def storageOk (cls fmt : Nat) : Bool := cls == 2 || (decide (1 ≤ fmt) && decide (fmt ≤ 5)) || (fmt == 0x20 && cls == 1)

/-- An operation that a graph or tensor may be bound to here: its registration. -/
def State.updateOp (s : State) (op : Nat) : Option Reg :=
  match s.ctxOf op with
  | some c => match s.coll.ctxs.get? c with
    | some x => if x.reg.type = 7 ∧ (x.reg.ar.outFmt = 1 ∨ x.reg.ar.outFmt = 2 ∨ x.reg.ar.outFmt = 3) then some x.reg else none
    | none => none
  | none => none

/-- A tensor would take its job past its quotas of tensors or update-state bytes (R449). -/
def State.tensorQuota (s : State) (t : Tensor) : Bool :=
  let job := t.handle / 65536
  overQuota (s.quota job 423 407) (s.jobTensors job).length || (match s.quota job 406 395 with
    | some q => decide (q * 2 ^ 30 < s.jobBytes job + s.shareBytes t)
    | none => false)

/-- The first check of Table 4 that a tensor record fails at this device, 0 for none. -/
def State.tensorCheck (s : State) (v : Nat) : Nat :=
  let t := tensorOf v
  if bits v 227 224 ≠ 0 ∨ bits v 87 0 ≠ 0 then 0x01
  else match s.updateOp t.op with
    | none => 0x03
    | some r =>
      let whole := dimOk t.rows && dimOk t.cols && t.elements == t.rows * t.cols
      let shape := if t.cls = 1 then whole else t.rows == 0 && t.cols == 0
      if 2 < t.cls ∨ !storageOk t.cls t.fmt ∨ t.elements = 0 ∨ !shape ∨ r.chunks < t.first + t.count then 0x04
      else if 65536 ≤ s.graphs.tensors.length ∨ s.stateFree < s.shareBytes t ∨ s.tensorQuota t then 0x08
      else if (s.graphs.tensors.get? t.handle).isSome then 0x0A
      else 0

/-- A tensor's creation held under a prepare. -/
def State.holdTensor (s : State) (v : Nat) : Nat × State :=
  let code := s.tensorCheck v
  if code ≠ 0 then (code, s) else (0, s.setTensor { tensorOf v with bytes := s.shareBytes (tensorOf v) })

/-- A held creation committed: the tensor exists (R168). -/
def State.commitTensor (s : State) (h : Nat) : State :=
  match s.graphs.tensors.get? h with
  | some t => s.setTensor { t with admitted := true }
  | none => s

/-- A tensor forgotten. -/
def State.dropTensor (s : State) (h : Nat) : State :=
  { s with graphs := { s.graphs with tensors := s.graphs.tensors.del h } }

/-- A held creation released. -/
def State.releaseTensor (s : State) (h : Nat) : State :=
  match s.graphs.tensors.get? h with
  | some t => if t.admitted then s else s.dropTensor h
  | none => s

/-- The two phases of a tensor's creation. -/
def tensorPhase (v : Nat) : Phase :=
  ⟨fun s => s.holdTensor v, fun s => s.commitTensor (tensorOf v).handle, fun s => s.releaseTensor (tensorOf v).handle,
   fun code _ s => s.wr E.tensorStatus 0 code, 0x08, true⟩

/-- A resident or prepared graph names a tensor. -/
def State.named (s : State) (h : Nat) : Bool :=
  s.graphs.slots.any (fun (x : Nat × Graph) => x.2.id / 65536 == h / 65536 &&
    x.2.nodes.any (fun (n : GNode) => n.domain == h % 65536 && n.domain != 0xFFFF))

/-- The code with which a device answers a destruction (R168). -/
def State.destroyCode (s : State) (h : Nat) : Nat :=
  if (s.tensor? h).isNone then 0x04 else if s.named h then 0x0A else 0

/-- The two phases of a tensor's destruction. -/
def destroyPhase (h : Nat) : Phase :=
  ⟨fun s => (s.destroyCode h, s), fun s => s.dropTensor h, id, fun code _ s => s.wr E.tensorStatus 0 code, 0x08, false⟩

/-! ### Images (R173 Tables 2 and 3) -/

/-- A count of which 0 stands for the greatest. -/
def countOrMax (v m : Nat) : Nat := if v = 0 then m else v

/-- The fields of an image's header. -/
structure Image where
  head   : Nat
  nodes  : List GNode
  nins   : List Nat
  words  : List Nat
  progs  : List (List Nat)
  groups : List Nat
  consts : List Nat

/-- The edges of a node record: its first NIN slots. -/
def edgesOf (v nin : Nat) : List GEdge :=
  (List.range nin).map (fun j => let e := bits v (447 - 24 * j) (424 - 24 * j); ⟨bits e 23 22, bits e 21 20, bits e 13 0⟩)

/-- A node record's fields. -/
def nodeOf (v : Nat) : GNode :=
  { kind := bits v 511 508, outKind := bits v 503 500, domain := bits v 495 480, edges := edgesOf v (min 8 (bits v 507 504)),
    params := bits v 255 0 }

/-- The counts an image's header gives: nodes, programs, groups. -/
def imageCounts (h : Nat) : Nat × Nat × Nat := (countOrMax (bits h 191 176) 16384, bits h 175 168, bits h 167 160)

/-- The parts of an image. -/
def imageOf (b : List Byte) : Image :=
  let h := field b 0 32
  let (n, p, g) := imageCounts h
  let words := (List.range n).map (fun i => field b (32 + 64 * i) 64)
  let po := 32 + 64 * n
  let go := po + 1024 * p
  let co := go + 8 * g
  { head := h, nodes := words.map nodeOf, nins := words.map (fun w => bits w 507 504), words := words,
    progs := (List.range p).map (fun i => (List.range 256).map (fun k => field b (po + 1024 * i + 4 * k) 4)),
    groups := (List.range g).map (fun i => field b (go + 8 * i) 8),
    consts := (List.range 256).map (fun i => field b (co + 4 * i) 4) }

/-- The graph ID of an image: the tag of its operation and its index. -/
def Image.id (m : Image) : Nat := bits m.head 223 208 * 65536 + bits m.head 255 240

/-- The length a header gives its image (R173). -/
def imageBytes (h : Nat) : Nat := let (n, p, g) := imageCounts h; 1056 + 64 * n + 1024 * p + 8 * g

/-- An image is malformed: its length, version, reserved fields, and header fields outside their ranges. -/
def imageMalformed (b : List Byte) : Bool :=
  let h := field b 0 32
  let (n, p, g) := imageCounts h
  decide (b.length < 1056) || b.length != imageBytes h || bits h 239 236 != 1 || bits h 234 232 != 0 || bits h 95 0 != 0
    || decide (16384 < n) || decide (64 < p) || decide (64 < g) || bits h 127 96 == 0 || decide (600000 < bits h 127 96)
    || (imageOf b).words.any (fun w => bits w 499 496 != 0 || bits w 479 448 != 0
        || (List.range 8).any (fun j => bits w (443 - 24 * j) (438 - 24 * j) != 0))
    || (imageOf b).groups.any (fun e => bits e 39 0 != 0)

/-! ### Programs (R186, R187) -/

/-- The fields of an instruction word. -/
def vOp (w : Nat) : Nat := bits w 31 26
def vD (w : Nat) : Nat := bits w 25 21
def vA (w : Nat) : Nat := bits w 20 16
def vB (w : Nat) : Nat := bits w 15 11
def vC (w : Nat) : Nat := bits w 10 6

/-- The vector register fields an opcode uses (R186 Table 7). -/
def vectorFields (w : Nat) : List Nat :=
  let d := vD w; let a := vA w; let b := vB w; let c := vC w
  match vOp w with
  | 0x01 | 0x02 | 0x03 | 0x05 | 0x07 | 0x08 => [d, a, b]
  | 0x04 => [d, a, b, c]
  | 0x06 | 0x0D | 0x0E | 0x0F | 0x10 | 0x09 | 0x0A | 0x0C => [d, a]
  | 0x0B => [d, a, c]
  | 0x11 => [d]
  | 0x12 | 0x13 | 0x14 => [a]
  | _ => []

/-- The opcode is one of Table 7. -/
def opcodeOk (o : Nat) : Bool := decide (o ≤ 0x14) || (decide (0x18 ≤ o) && decide (o ≤ 0x21))

/-- The words of a program before its first END. -/
def programBody (l : List Nat) : List Nat := l.takeWhile (fun w => vOp w != 0)

/-- A program's words are valid (R187): opcodes, vector fields, reserved bits. -/
def programOk (l : List Nat) : Bool :=
  (programBody l).all (fun w => opcodeOk (vOp w) && (vectorFields w).all (fun r => decide (r ≤ 15))
    && (vOp w == 0x21 || w % 64 == 0))
  && (match (l.dropWhile (fun w => vOp w != 0)).head? with
    | some w => w % 64 == 0
    | none => true)

/-- The opcode writes a scalar register. -/
def writesScalar (o : Nat) : Bool := (decide (0x12 ≤ o) && decide (o ≤ 0x14)) || decide (0x18 ≤ o)

/-- A program writes a register: vector, or scalar. -/
def programWrites (l : List Nat) (scalar : Bool) (r : Nat) : Bool :=
  (programBody l).any (fun w => vD w == r && writesScalar (vOp w) == scalar)

/-- A word of three register fields, as a listing of R187 writes it. -/
def vw (o d a b c : Nat) : Nat := pack [(6, o), (5, d), (5, a), (5, b), (5, c), (6, 0)]

/-- The built-in programs 0x80 SGD_MOMENTUM, 0x81 ADAMW and 0x82 LION (R187). -/
def template (p : Nat) : List Nat :=
  if p = 0x80 then
    [vw 0x1C 24 20 0 0, vw 0x1B 24 9 24 0, vw 0x1E 24 10 24 0, vw 0x0A 4 0 24 0, vw 0x0B 4 1 6 4, vw 0x0A 4 4 2 0,
     vw 0x0B 9 2 1 4, vw 0x0B 8 9 0 1, 0]
  else if p = 0x81 then
    [vw 0x1C 24 20 0 0, vw 0x1B 24 9 24 0, vw 0x1E 24 10 24 0, vw 0x0A 4 0 24 0, vw 0x0A 5 4 2 0, vw 0x0B 9 2 1 5,
     vw 0x03 6 4 4 0, vw 0x0A 6 6 4 0, vw 0x0B 10 3 3 6, vw 0x0A 5 9 7 0, vw 0x0A 6 10 8 0, vw 0x06 6 6 0 0, vw 0x09 6 6 5 0,
     vw 0x05 5 5 6 0, vw 0x0B 5 1 6 5, vw 0x0B 8 5 0 1, 0]
  else
    [vw 0x0A 4 0 2 0, vw 0x0B 4 2 1 4, vw 0x0D 4 4 0 0, vw 0x0B 4 1 6 4, vw 0x0B 8 4 0 1, vw 0x0A 5 0 4 0, vw 0x0B 9 2 3 5, 0]

/-- The program a VEC node names. -/
def programOf (progs : List (List Nat)) (p : Nat) : Option (List Nat) :=
  if p = 0x80 ∨ p = 0x81 ∨ p = 0x82 then some (template p) else progs[p]?

/-- PROG, CONST_BASE and the MM parameters of a node (R174 Table 5). -/
def GNode.prog (x : GNode) : Nat := bits x.params 255 248
def GNode.kernel (x : GNode) : Nat := bits x.params 255 248
def GNode.vecBase (x : GNode) : Nat := bits x.params 247 240
def GNode.cformat (x : GNode) : Nat := bits x.params 247 240
def GNode.transA (x : GNode) : Bool := bit x.params 239
def GNode.transB (x : GNode) : Bool := bit x.params 238
def GNode.mmBase (x : GNode) : Nat := bits x.params 237 230
def GNode.groupIdx (x : GNode) : Nat := bits x.params 255 250
def GNode.collOp (x : GNode) : Nat := bits x.params 255 252
def GNode.collAnchor (x : GNode) : Int := signed 16 (bits x.params 251 236)

/-- The edge in a slot, unused slots absent. -/
def GNode.edge (x : GNode) (j : Nat) : Option GEdge := (x.edges[j]?).bind (fun (e : GEdge) => if e.dep = 0 then none else some e)

/-- The edges in use. -/
def GNode.used (x : GNode) : List GEdge := x.edges.filter (fun (e : GEdge) => e.dep != 0)

/-- Output `k` of a node is a vector or a matrix; a scalar. -/
def GNode.outVector (x : GNode) (k : Nat) : Bool := (x.kind == 4 && !bit x.outKind k) || (k == 0 && (x.kind == 1 || x.kind == 2 || x.kind == 5))
def GNode.outScalar (x : GNode) (k : Nat) : Bool := (x.kind == 4 && bit x.outKind k) || (k == 0 && x.kind == 6)

/-! ### The checks of Table 4 -/

/-- What the checks look at: nodes, with the tensor of each domain. -/
structure Checked where
  nodes   : List GNode
  tensors : List (Option Tensor)
  progs   : List (List Nat)
  groups  : Nat
  consts  : List Nat

/-- A node, and its domain's tensor. -/
def Checked.node (c : Checked) (i : Nat) : Option GNode := c.nodes[i]?
def Checked.dom (c : Checked) (i : Nat) : Option Tensor := (c.tensors[i]?).join

/-- CFORMAT codes the arrays accept (R199 Table 2). -/
def cformatOk (f : Nat) : Bool := bit 0x100001F0E f

/-- A publish format (R174): any output format but INT32, XA128 and XA192. -/
def publishFormatOk (f : Nat) : Bool := isOutput f && f != 0x10 && f != 0x18 && f != 0x19

/-- A node's class and format are allowed (TENSOR_INVALID otherwise). -/
def Checked.tensorOk (c : Checked) (i : Nat) (x : GNode) : Bool :=
  let dom : Bool := match c.dom i with
    | none => x.kind == 6 || x.kind == 7 || decide (8 < x.kind) || x.kind == 0
    | some t => match x.kind with
      | 2 => t.cls != 2
      | 3 => t.cls != 2
      | 5 => t.cls == 1
      | 8 => t.cls != 2 && t.fmt != 0x20
      | _ => true
  let vec := x.kind != 4 || x.used.all (fun (e : GEdge) => match c.node e.prod, c.dom e.prod with
    | some p, some t => !(p.kind == 2 && t.fmt == 0x20 && t.cls != 2 && e.dep != 3)
    | _, _ => true)
  dom && vec && (x.kind != 5 || cformatOk x.cformat)

/-- Two domains have the same stripes (R174). -/
def sameStripes (a b : Option Tensor) : Bool :=
  match a, b with
  | some t, some u => t.op == u.op && t.first == u.first && t.elements == u.elements && t.cls == u.cls
  | _, _ => false

/-- An edge's form: a lower producer that has the output, and for a STRIPE edge the same stripes. -/
def Checked.edgeOk (c : Checked) (i : Nat) (e : GEdge) : Bool :=
  decide (e.prod < i) && match c.node e.prod with
    | none => false
    | some p => match e.dep with
      | 1 => p.outVector e.out && sameStripes (c.dom i) (c.dom e.prod)
      | 2 => p.outVector e.out || p.outScalar e.out
      | _ => true

/-- The edge of a slot has a kind, and its producer a property. -/
def Checked.slotIs (c : Checked) (x : GNode) (j dep : Nat) (f : GNode → Option Tensor → GEdge → Bool) : Bool :=
  match x.edge j with
  | none => false
  | some e => e.dep == dep && match c.node e.prod with
    | some p => f p (c.dom e.prod) e
    | none => false

/-- Every slot from `j` on is unused or ORDER. -/
def GNode.restOrder (x : GNode) (j : Nat) : Bool := (x.edges.drop j).all (fun (e : GEdge) => e.dep == 0 || e.dep == 3)

/-- The shape of a WHOLE tensor. -/
def shapeOf (t : Option Tensor) : Nat × Nat := match t with
  | some t => (t.rows, t.cols)
  | none => (0, 0)

/-- A shape transposed or not. -/
def turn (b : Bool) (x : Nat × Nat) : Nat × Nat := if b then (x.2, x.1) else x

/-- The block size a constant selects (R198); 0 for whole mode. -/
def blockSize (v : Nat) : Nat := if v = 0x42000000 then 32 else if v = 0x42800000 then 64 else if v = 0x43000000 then 128 else 0

/-- The shapes of an MM node's slots and domain fit its kernel in whole mode (R198 Table 1). -/
def wholeShapes (kernel : Nat) (ta tb : Bool) (a b : Nat × Nat) (cc : Option (Nat × Nat)) (d : Nat × Nat) : Bool :=
  let oa := turn ta a
  let cOk := match cc with
    | some s => s == d
    | none => true
  match kernel with
  | 0 => let ob := turn tb b; oa.2 == ob.1 && d == (oa.1, ob.2) && cOk
  | 1 => d == (oa.1, oa.1) && cOk
  | _ => d == a

/-- Every slot has the domain's shape (R198, batched mode). -/
def batchedShapes (a b : Nat × Nat) (cc : Option (Nat × Nat)) (d : Nat × Nat) : Bool :=
  a == d && b == d && (match cc with
    | some s => s == d
    | none => true)

/-- An MM node keeps Tables 1 and 5 of its chapters. -/
def Checked.mmOk (c : Checked) (i : Nat) (x : GNode) : Bool :=
  let src := fun (p : GNode) (t : Option Tensor) (e : GEdge) => p.outVector e.out && (match t with
    | some t => t.cls == 1
    | none => false)
  let dom := fun (j : Nat) => shapeOf ((x.edge j).bind (fun (e : GEdge) => c.dom e.prod))
  let same := (x.edge 0).map (fun (e : GEdge) => (e.prod, e.out)) == (x.edge 1).map (fun (e : GEdge) => (e.prod, e.out))
  let cc := if (x.edge 2).isSome then some (dom 2) else none
  let d := shapeOf (c.dom i)
  c.slotIs x 0 2 src && c.slotIs x 1 2 src && ((x.edge 2).isNone || c.slotIs x 2 2 src) && x.restOrder 3
    && decide (x.mmBase ≤ 252) && bits x.params 229 0 == 0 && decide (x.kernel ≤ 2)
    && (x.kernel == 0 || (same && !x.transB)) && (x.kernel != 2 || (!x.transA && (x.edge 2).isNone))
    && (wholeShapes x.kernel x.transA x.transB (dom 0) (dom 1) cc d
      || (blockSize (c.consts.getD (x.mmBase + 3) 0) != 0 && batchedShapes (dom 0) (dom 1) cc d))

/-- A node keeps Table 5 (GRAPH_SHAPE otherwise). -/
def Checked.nodeOk (c : Checked) (i nin : Nat) (x : GNode) : Bool :=
  decide (1 ≤ x.kind) && decide (x.kind ≤ 8) && decide (nin ≤ 8) && (x.kind == 4 || x.outKind == 0)
    && x.used.all (c.edgeOk i) && (!(x.kind == 6 || x.kind == 7) || x.domain == 0xFFFF)
    && match x.kind with
      | 1 => x.restOrder 0 && x.params == 0
      | 2 => x.restOrder 0 && x.params == 0
      | 3 => (c.slotIs x 0 1 (fun p _ _ => p.kind != 5)
          || c.slotIs x 0 2 (fun p t _ => p.kind == 5 && shapeOf t == shapeOf (c.dom i))) && x.restOrder 1 && x.params == 0
      | 4 => x.used.all (fun (e : GEdge) => e.dep == 1 || e.dep == 3 || (e.dep == 2 && match c.node e.prod with
            | some p => p.kind == 6
            | none => false))
          && (programOf c.progs x.prog).isSome && decide (x.vecBase ≤ 240) && bits x.params 239 0 == 0
      | 5 => c.mmOk i x
      | 6 => c.slotIs x 0 2 (fun p _ e => p.kind == 4 && p.outScalar e.out) && x.restOrder 1 && decide (x.collOp ≤ 1)
          && decide (-256 ≤ x.collAnchor) && decide (x.collAnchor ≤ 64) && bits x.params 235 0 == 0
      | 7 => x.restOrder 0 && x.params == 0
      | _ => c.slotIs x 0 3 (fun p _ _ => p.kind == 7) && x.restOrder 1 && decide (x.groupIdx < c.groups) && bits x.params 249 0 == 0

/-- The stages of a list of nodes in their order (R176); a node's stage is at least that of its STRIPE producers. -/
def stagesFrom : List GNode → List Nat → List Nat
  | [], acc => acc
  | x :: r, acc =>
    let a := x.used.foldl (fun n (e : GEdge) => if e.dep = 1 then n else max n (acc.getD e.prod 0 + 1)) 0
    let b := x.used.foldl (fun n (e : GEdge) => if e.dep = 1 then max n (acc.getD e.prod 0) else n) a
    stagesFrom r (acc ++ [b])

/-- The stage of every node. -/
def stagesOf (nodes : List GNode) : List Nat := stagesFrom nodes []

/-- The nodes from which a set of nodes is reached: `fuel` steps back along the edges. -/
def ancestors (nodes : List GNode) : Nat → List Nat → List Nat
  | 0, l => l
  | f + 1, l => ancestors nodes f (l.foldl (fun a i => match nodes[i]? with
      | some x => x.used.foldl (fun b (e : GEdge) => insertNat e.prod b) a
      | none => a) l)

/-- The rules of R174 over the whole graph. -/
def Checked.graphOk (c : Checked) : Bool :=
  let idx := withIdx c.nodes 0
  let fences := idx.filter (fun (x : Nat × GNode) => x.2.kind == 7)
  let stores := idx.filter (fun (x : Nat × GNode) => x.2.kind == 3)
  let st := stagesOf c.nodes
  let back := ancestors c.nodes c.nodes.length (fences.map (·.1))
  fences.length == 1 && stores.all (fun (x : Nat × GNode) => back.contains x.1)
    && stores.all (fun (x : Nat × GNode) => (stores.filter (fun (y : Nat × GNode) => y.2.domain == x.2.domain)).length == 1)
    && idx.all (fun (x : Nat × GNode) => x.2.used.all (fun (e : GEdge) => e.dep != 1 || st.getD e.prod 0 == st.getD x.1 0
      || (match c.dom x.1 with
        | some t => t.cls == 1
        | none => false)))

/-- The outputs read or named are written by their programs (R187). -/
def Checked.outputsOk (c : Checked) : Bool :=
  c.nodes.all (fun (x : GNode) =>
    (x.kind != 4 || (match programOf c.progs x.prog with
      | some p => (List.range 4).all (fun k => !bit x.outKind k || programWrites p true (28 + k))
      | none => true))
    && x.used.all (fun (e : GEdge) => e.dep == 3 || (match c.node e.prod with
      | some p => p.kind != 4 || bit p.outKind e.out || (match programOf c.progs p.prog with
        | some w => programWrites w false (8 + e.out)
        | none => true)
      | none => true)))

/-! ### Stripe buffers (R177) -/

/-- Vector outputs of a node: stripe buffers it fills. -/
def vectorOuts (progs : List (List Nat)) (x : GNode) : Nat :=
  match x.kind with
  | 1 => 1
  | 2 => 1
  | 4 => match programOf progs x.prog with
    | some p => ((List.range 4).filter (fun k => !bit x.outKind k && programWrites p false (8 + k))).length
    | none => 0
  | _ => 0

/-- The first node whose domain has a node's stripes: the group of its stripes. -/
def groupOf (tensors : List (Option Tensor)) (i : Nat) : Nat :=
  ((List.range i).find? (fun j => sameStripes (tensors[j]?).join (tensors[i]?).join)).getD i

/-- The last node of a stage that reads a node's vector outputs by STRIPE edges, at least the node itself. -/
def lastReader (nodes : List GNode) (st : List Nat) (i : Nat) : Nat :=
  (withIdx nodes 0).foldl (fun a (x : Nat × GNode) =>
    if st.getD x.1 0 = st.getD i 0 ∧ x.2.used.any (fun (e : GEdge) => e.dep == 1 && e.prod == i) then max a x.1 else a) i

/-- Stripe buffers of one stripe live while a node runs, over the nodes of its stage and group. -/
def liveAt (c : Checked) (st : List Nat) (i : Nat) : Nat :=
  (List.range (i + 1)).foldl (fun a p =>
    if st.getD p 0 = st.getD i 0 ∧ groupOf c.tensors p = groupOf c.tensors i ∧ i ≤ lastReader c.nodes st p then
      a + (match c.node p with
        | some x => vectorOuts c.progs x
        | none => 0)
    else a) 0

/-- B(s) (R177). -/
def stageBuffers (c : Checked) (stage : Nat) : Nat :=
  let st := stagesOf c.nodes
  (List.range c.nodes.length).foldl (fun a i => if st.getD i 0 = stage then max a (liveAt c st i) else a) 0

/-- Bytes of a node's scratch area at the owner (R176, R178): WHOLE vector outputs, gradients and MM outputs. -/
def scratchOf (s : State) (progs : List (List Nat)) (x : GNode) (t : Option Tensor) : Nat :=
  match t with
  | some t => if t.cls = 1 ∧ s.ownerOf t = s.gei then
      (if x.kind = 5 then (if x.cformat = 0x20 then 8 else 4) * t.elements
       else if x.kind = 1 ∨ x.kind = 4 then 4 * t.elements * vectorOuts progs x else 0) else 0
  | none => 0

/-- An image with its domains looked up. -/
def State.checked (s : State) (m : Image) : Checked :=
  { nodes := m.nodes, tensors := m.nodes.map (fun (x : GNode) => if x.domain = 0xFFFF then none else s.tensor? (m.id / 65536 * 65536 + x.domain)),
    progs := m.progs, groups := m.groups.length, consts := m.consts }

/-- A device has opened an instance of an operation (R173 Table 2). -/
def State.hasOpened (s : State) (op n : Nat) : Bool :=
  match s.ctxOf op with
  | some c => match s.coll.ctxs.get? c with
    | some x => x.stands n == .late || (findInst x.insts n).isSome
    | none => false
  | none => false

/-- The first check of Table 4 that an image fails at this device, 0 for none (R174). -/
def State.imageCheck (s : State) (b : List Byte) : Nat :=
  if imageMalformed b then 0x01
  else
    let m := imageOf b
    let op := bits m.head 223 192
    if (s.updateOp op).isNone ∨ (s.boundTo op).isSome then 0x03
    else
      let c := s.checked m
      let idx := withIdx (m.nodes.zip m.nins) 0
      let scratch := (m.nodes.zip c.tensors).foldl (fun a (x : GNode × Option Tensor) => a + scratchOf s m.progs x.1 x.2) 0
      if !idx.all (fun (x : Nat × GNode × Nat) => c.tensorOk x.1 x.2.1) ∨ !m.groups.all (fun e => publishFormatOk (bits e 47 40)) then 0x04
      else if !idx.all (fun (x : Nat × GNode × Nat) => c.nodeOk x.1 x.2.2 x.2.1) ∨ !c.graphOk then 0x05
      else if !m.progs.all programOk ∨ !c.outputsOk then 0x06
      else if (stagesOf c.nodes).any (fun st => decide (64 < stageBuffers c st)) then 0x07
      else if 64 ≤ s.graphs.slots.length ∨ s.stateFree < scratch then 0x08
      else if s.hasOpened op (bits m.head 231 224) then 0x09
      else if (s.graphOf m.id).isSome then 0x0A
      else 0

/-- The graph an image makes, prepared. -/
def State.graphFrom (s : State) (b : List Byte) : Graph :=
  let m := imageOf b
  let h := m.head
  let c := s.checked m
  { id := m.id, state := gsPrepared, op := bits h 223 192, auto := bit h 235, next := bits h 231 224, limit := bits h 127 96,
    nodes := m.nodes, progs := m.progs, groups := m.groups.map (fun e => (bits e 63 48, bits e 47 40)), constsNext := m.consts,
    version := bits h 159 128,
    scratch := (m.nodes.zip c.tensors).foldl (fun a (x : GNode × Option Tensor) => a + scratchOf s m.progs x.1 x.2) 0 }

/-- An image held under a prepare. -/
def State.holdGraph (s : State) (b : List Byte) : Nat × State :=
  let code := s.imageCheck b
  let job := (imageOf b).id / 65536
  if code ≠ 0 then (code, s)
  else if overQuota (s.quota job 430 424) (s.jobGraphs job).length then (0x08, s)
  else match s.graphs.slots.freeFrom 64 0 with
    | some n => (0, s.setGraph n (s.graphFrom b))
    | none => (0x08, s)

/-- A tensor named by a graph takes its committed version from it (R173). -/
def Tensor.retag (t : Tensor) (v : Nat) : Tensor :=
  { t with version := v, base := v, stripes := t.stripes.map (fun (x : Nat × Stripe) => (x.1, x.2.putCur { x.2.cur with ver := v })) }

/-- A held image committed: the graph is resident, its tensors at VERSION_START (R173). -/
def State.commitGraph (s : State) (id : Nat) : State :=
  match s.graphOf id with
  | none => s
  | some (n, g) =>
    let s := g.names.foldl (fun (s : State) h => match s.graphs.tensors.get? h with
      | some t => s.setTensor (t.retag g.version)
      | none => s) s
    let s := ((s.setGraph n { g with state := gsWaiting }).wr E.subnormalMode n 0).raise 0x8001 0 31 [.v 32 id, .v 16 n]
    s.renewParity (fun p => p.job == id / 65536 && p.graph == id % 65536 && p.data.contains s.gei)

/-- A held image released. -/
def State.releaseGraph (s : State) (id : Nat) : State :=
  match s.graphOf id with
  | some (n, g) => if g.state = gsPrepared then s.dropGraph n else s
  | none => s

/-- The receiving device reports an image's admission (R174). -/
def State.reportGraph (s : State) (id code gei : Nat) : State :=
  let s := s.wr E.graphStatus 0 code
  if code = 0 then s else s.raise 0x8002 1 31 [.v 32 id, .v 8 code, .v 24 gei]

/-- The two phases of a graph's admission. -/
def graphPhase (b : List Byte) : Phase :=
  ⟨fun s => s.holdGraph b, fun s => s.commitGraph (imageOf b).id, fun s => s.releaseGraph (imageOf b).id,
   fun code gei s => s.reportGraph (imageOf b).id code gei, 0x08, true⟩

end Sys2Proof.Machine
end

