-- ==== Sys2Proof/Machine/Vector.lean ====
section
/-!
DEFINITION. The vector engine: registers, instructions and programs (spec/06 R184-R187).
-/
namespace Sys2Proof.Machine

/-- The registers of a VEC task (R184): sixteen vectors of 1,024 FP32 elements and thirty-two scalars. -/
structure VRegs where
  v : List (List Nat)
  s : List Nat

/-- 1,024 lanes of +0. -/
def zeroLanes : List Nat := List.replicate 1024 0

/-- A vector register, a scalar register. -/
def VRegs.vec (r : VRegs) (i : Nat) : List Nat := r.v.getD i zeroLanes
def VRegs.sca (r : VRegs) (i : Nat) : Nat := r.s.getD i 0

/-- A vector register written; a scalar register written. -/
def VRegs.setV (r : VRegs) (i : Nat) (l : List Nat) : VRegs := { r with v := r.v.set i l }
def VRegs.setS (r : VRegs) (i : Nat) (x : Nat) : VRegs := { r with s := r.s.set i x }

/-- Lane by lane over three vectors. -/
def zip3 (f : Nat → Nat → Nat → Nat) (a b c : List Nat) : List Nat :=
  List.zipWith (fun (g : Nat → Nat) z => g z) (List.zipWith f a b) c

/-- One instruction (R186 Table 7). -/
def vexec (w : Nat) (r : VRegs) : VRegs :=
  let d := vD w
  let a := r.vec (vA w)
  let b := r.vec (vB w)
  let c := r.vec (vC w)
  let p := r.sca (vA w)
  let q := r.sca (vB w)
  let t := r.sca (vC w)
  match vOp w with
  | 0x01 => r.setV d (List.zipWith add32 a b)
  | 0x02 => r.setV d (List.zipWith sub32 a b)
  | 0x03 => r.setV d (List.zipWith mul32 a b)
  | 0x04 => r.setV d (zip3 fma32 a b c)
  | 0x05 => r.setV d (List.zipWith div32 a b)
  | 0x06 => r.setV d (a.map sqrt32)
  | 0x07 => r.setV d (List.zipWith max32 a b)
  | 0x08 => r.setV d (List.zipWith min32 a b)
  | 0x09 => r.setV d (a.map (fun x => add32 x q))
  | 0x0A => r.setV d (a.map (fun x => mul32 x q))
  | 0x0B => r.setV d (List.zipWith (fun x y => fma32 x q y) a c)
  | 0x0C => r.setV d (a.map (fun x => fma32 x q t))
  | 0x0D => r.setV d (a.map sign32)
  | 0x0E => r.setV d (a.map abs32)
  | 0x0F => r.setV d (a.map neg32)
  | 0x10 => r.setV d a
  | 0x11 => r.setV d (List.replicate 1024 p)
  | 0x12 => r.setS d (tree add32 a)
  | 0x13 => r.setS d (tree add32 (a.map (fun x => mul32 x x)))
  | 0x14 => r.setS d (tree max32 (a.map abs32))
  | 0x18 => r.setS d (add32 p q)
  | 0x19 => r.setS d (sub32 p q)
  | 0x1A => r.setS d (mul32 p q)
  | 0x1B => r.setS d (div32 p q)
  | 0x1C => r.setS d (sqrt32 p)
  | 0x1D => r.setS d (max32 p q)
  | 0x1E => r.setS d (min32 p q)
  | 0x1F => r.setS d (fma32 p q t)
  | 0x20 => r.setS d p
  | 0x21 => r.setS d (w % 65536 * 65536)
  | _ => r

/-- A program to its first END or its last word (R187). -/
def vrun (l : List Nat) (r : VRegs) : VRegs := (programBody l).foldl (fun r w => vexec w r) r

/-- The registers at a task's start (R184): vector inputs, scalar inputs by slot, sixteen constants from CONST_BASE. -/
def vstart (vecs : List (Nat × List Nat)) (scas : List (Nat × Nat)) (consts : List Nat) (base : Nat) : VRegs :=
  let s := (List.range 32).map (fun i => if i < 16 then consts.getD (base + i) 0 else 0)
  let r : VRegs := ⟨List.replicate 16 zeroLanes, s⟩
  let r := vecs.foldl (fun (r : VRegs) x => r.setV x.1 x.2) r
  scas.foldl (fun (r : VRegs) x => r.setS (16 + x.1) x.2) r

end Sys2Proof.Machine
end

