-- ==== Sys2Proof/Machine/GraphRun.lean ====
section
/-!
DEFINITION. Runs of a graph: starting, stripes, tasks and their effects, COLLECT, the fence and the commit, publishing
(spec/06 R175-R194).
-/
namespace Sys2Proof.Machine

/-! ### Tasks and nodes (R176, R177, R179) -/

/-- Two tensors' domains as the checks see them, for a resident graph. -/
def State.checkedOf (s : State) (g : Graph) : Checked :=
  { nodes := g.nodes, tensors := g.nodes.map (fun (x : GNode) => s.domain g x.domain), progs := g.progs, groups := g.groups.length,
    consts := g.constsNext }

/-- A die that holds a band of a WHOLE tensor owned here. -/
def State.holdsBand (s : State) (t : Tensor) (q : Nat) : Bool :=
  s.ownerOf t == s.gei && (List.range (t.rows / 128)).any (fun b => s.bandDie t b == q)

/-- The tasks of a node at a quire die (R179): a stripe each, one on the lowest die for COLLECT and FENCE, one at each die
that holds a band for MM. -/
def State.nodeTasks (s : State) (g : Graph) (x : GNode) (q : Nat) : List Nat :=
  match x.kind with
  | 5 => match s.domain g x.domain with
    | some t => if s.holdsBand t q then [q] else []
    | none => []
  | 6 => if q = s.firstDie then [0] else []
  | 7 => if q = s.firstDie then [0] else []
  | _ => match s.domain g x.domain with
    | some t => s.dieStripes t q
    | none => []

/-- Every task of a node at this device is complete. -/
def State.tasksDone (s : State) (g : Graph) (r : Run) (i : Nat) (x : GNode) : Bool :=
  s.quires.all (fun q => (s.nodeTasks g x q).all (fun k => r.done.contains (i, k)))

/-- Which nodes are done at the device, in order: FULL and ORDER producers done and every task complete (R179). -/
def State.doneFrom (s : State) (g : Graph) (r : Run) : List GNode → List Bool → List Bool
  | [], acc => acc
  | x :: l, acc =>
    let ready := x.used.all (fun (e : GEdge) => e.dep == 1 || acc.getD e.prod false)
    State.doneFrom s g r l (acc ++ [ready && s.tasksDone g r acc.length x])

/-- Which nodes are done at the device. -/
def State.doneNodes (s : State) (g : Graph) (r : Run) : List Bool := s.doneFrom g r g.nodes []

/-- The FULL and ORDER producers of a node are done. -/
def GNode.ready (x : GNode) (done : List Bool) : Bool := x.used.all (fun (e : GEdge) => e.dep == 1 || done.getD e.prod false)

/-- A node's state at a quire die, as NODE_QUERY reports it (R179 Table 6, in its order; log 66). -/
def State.nodeState (s : State) (g : Graph) (i q : Nat) : Nat :=
  match g.run, g.node i with
  | some r, some x =>
    let done := s.doneNodes g r
    let tasks := s.nodeTasks g x q
    if !x.ready done then 1
    else if tasks.all (fun k => r.done.contains (i, k)) then 4
    else if tasks.any (fun k => r.issued.contains (i, k)) then 3
    else 2
  | _, _ => 0

/-- Nodes in flight at a die (R180). -/
def State.inFlight (s : State) (g : Graph) (q : Nat) : Nat :=
  ((List.range g.nodes.length).filter (fun i => s.nodeState g i q == 3)).length

/-- The PUBLISH tasks of a node at this device: the stripes it holds that are not LOST. -/
def State.pubStripes (s : State) (g : Graph) (x : GNode) : List Nat :=
  match s.domain g x.domain with
  | some t => (s.heldStripes t).filter (fun k => !(t.stripe k).lost)
  | none => []

/-- Those of a die. -/
def State.pubAt (s : State) (g : Graph) (x : GNode) (q : Nat) : List Nat :=
  match s.domain g x.domain with
  | some t => (s.pubStripes g x).filter (fun k => s.stripeDie t k == q)
  | none => []

/-- A PUBLISH node is in flight at a die: a task of it has been issued there and not every one is complete. -/
def State.pubFlies (s : State) (g : Graph) (p : Pub) (i : Nat) (x : GNode) (q : Nat) : Bool :=
  let tasks := s.pubAt g x q
  x.kind == 8 && tasks.any (fun k => p.issued.contains (i, k)) && !tasks.all (fun k => p.done.contains (i, k))

/-- Nodes of the publishing after a graph's last commit in flight at a die. -/
def State.pubFlight (s : State) (g : Graph) (q : Nat) : Nat :=
  match g.pub with
  | some p => ((withIdx g.nodes 0).filter (fun (x : Nat × GNode) => s.pubFlies g p x.1 x.2 q)).length
  | none => 0

/-- Nodes in flight at a die over all graphs. -/
def State.inFlightAll (s : State) (q : Nat) : Nat :=
  s.graphs.slots.foldl (fun a (x : Nat × Graph) => a + s.inFlight x.2 q + s.pubFlight x.2 q) 0

/-- Free stripe buffers of a die (R177), shown in VLM_FREE. -/
def State.buffersFree (s : State) (q : Nat) : Nat :=
  4096 - s.graphs.slots.foldl (fun a (x : Nat × Graph) => match x.2.run with
    | some r => r.opened.foldl (fun b (y : Nat × Nat × Nat × Nat) =>
        if y.1 = q then b + stageBuffers (s.checkedOf x.2) y.2.1 else b) a
    | none => a) 0

/-- The key of an output's value: node, output, stripe. -/
def outKey (node out k : Nat) : Nat := (node * 4 + out) * 2 ^ 32 + k

/-! ### Held results (R178) -/

/-- The lanes of a chunk's result as a REDUCE_IN reads it, once it is held here: the chunk's own slot, or what an update
transfer brought. -/
def State.resultLanes (s : State) (g : Graph) (inst chunk : Nat) : Option (List Nat) :=
  match g.grads.get? (gradKey inst chunk) with
  | some l => some l
  | none => match s.instOf g.op inst with
    | some (c, i) => match findChunk i.chunks 0 chunk, s.coll.ctxs.get? c with
      | some k, some x => if k.state = .held then
          some ((elemsOf x.reg.ar.outFmt k.count k.payload).map (fun e => toLane x.reg.ar.outFmt e.raw)) else none
      | _, _ => none
    | none => none

/-! ### Stripes that may open (R177) -/

/-- The nodes of a stage that run by stripes over one domain group. -/
def stageMembers (nodes : List GNode) (c : Checked) (stage group : Nat) : List (Nat × GNode) :=
  let st := stagesOf nodes
  (withIdx nodes 0).filter (fun (x : Nat × GNode) =>
    st.getD x.1 0 == stage && groupOf c.tensors x.1 == group && decide (1 ≤ x.2.kind) && decide (x.2.kind ≤ 4))

/-- Every FULL and ORDER producer of a stage's nodes is done at the device. -/
def State.stageReady (s : State) (g : Graph) (r : Run) (stage : Nat) : Bool :=
  let st := stagesOf g.nodes
  let done := s.doneNodes g r
  (withIdx g.nodes 0).all (fun (x : Nat × GNode) => st.getD x.1 0 != stage || x.2.ready done)

/-- The results that a stage's REDUCE_IN nodes read for a stripe are held here. -/
def State.stripeFed (s : State) (g : Graph) (r : Run) (mine : List (Nat × GNode)) (k : Nat) : Bool :=
  mine.all (fun (x : Nat × GNode) => x.2.kind != 1 || (match s.domain g x.2.domain with
    | some d => (s.resultLanes g r.inst (d.first + k)).isSome || r.done.contains (x.1, k)
    | none => false))

/-- The stripes of a stage and domain group that may open at a die: not open, not done, with what they read. -/
def State.eligibleAt (s : State) (slot : Nat) (g : Graph) (r : Run) (q stage group : Nat) : List (Nat × Nat × Nat × Nat × Nat) :=
  let mine := stageMembers g.nodes (s.checkedOf g) stage group
  let here := mine.foldl (fun l (x : Nat × GNode) => (s.nodeTasks g x.2 q).foldl (fun l k => insertNat k l) l) []
  (here.filter (fun k => mine.any (fun (x : Nat × GNode) => !r.done.contains (x.1, k)) && s.stripeFed g r mine k
    && !r.opened.contains (q, stage, group, k))).map (fun k => (slot, q, stage, group, k))

/-- The stripes of every run that may open but for their buffers. -/
def State.allEligible (s : State) : List (Nat × Nat × Nat × Nat × Nat) :=
  s.graphs.slots.flatMap (fun (y : Nat × Graph) => match y.2.run with
    | some r =>
      let n := y.2.nodes.length
      ((List.range n).filter (fun st => (stagesOf y.2.nodes).contains st && s.stageReady y.2 r st)).flatMap (fun st =>
        (List.range n).flatMap (fun grp => s.quires.flatMap (fun q => s.eligibleAt y.1 y.2 r q st grp)))
    | none => [])

/-- A stripe put behind those of its index or a lower one. -/
def insertStripe (x : Nat × Nat × Nat × Nat × Nat) : List (Nat × Nat × Nat × Nat × Nat) → List (Nat × Nat × Nat × Nat × Nat)
  | [] => [x]
  | y :: l => if x.2.2.2.2 < y.2.2.2.2 then x :: y :: l else y :: insertStripe x l

/-- Stripes that have become eligible join those that wait, ascending stripe index among themselves; those that are no longer
eligible leave (R177). -/
def State.noteEligible (s : State) : State :=
  let now := s.allEligible
  let kept := s.graphs.eligible.filter (fun x => now.contains x)
  { s with graphs := { s.graphs with
    eligible := kept ++ (now.filter (fun x => !kept.contains x)).foldl (fun l x => insertStripe x l) [] } }

/-- The stripe that opens next at a die. -/
def State.nextEligible (s : State) (q : Nat) : Option (Nat × Nat × Nat × Nat × Nat) := s.graphs.eligible.find? (fun x => x.2.1 == q)

/-- COLOPHON_EMIT: the oldest signed record of a quire die leaves its queue (R157, R161-R163); a result it hands over may make a
stripe eligible (R177). -/
def execColophonEmit (t : Time) (die : Nat) (s : State) : Host.Outcome State Fault Refusal :=
  .next ((s.begin t).emitRecord die).noteEligible

/-- The held slot of a chunk freed (R130, R178). -/
def State.freeHeld (s : State) (op inst chunk : Nat) : State :=
  match s.instOf op inst with
  | some (c, i) => match findChunk i.chunks 0 chunk with
    | some k => if k.state = .held then s.endChunk c inst k else s
    | none => s
  | none => s

/-- Every held slot of an instance freed, and the instance forgotten when nothing else keeps it. -/
def State.freeAllHeld (s : State) (op inst : Nat) : State :=
  match s.instOf op inst with
  | some (c, i) =>
    ((i.chunks.filter (fun (k : Chunk) => k.state == .held)).foldl (fun (s : State) k => s.endChunk c inst k) s).settle c
  | none => s

/-- A chunk whose REDUCE_IN tasks here have all completed gives up its held slot (R178). -/
def State.retireChunk (s : State) (n chunk : Nat) : State :=
  match s.graphs.slots.get? n with
  | some g => match g.run with
    | some r =>
      let left := (withIdx g.nodes 0).any (fun (x : Nat × GNode) => x.2.kind == 1 && match s.domain g x.2.domain with
        | some t => decide (t.first ≤ chunk) && decide (chunk < t.first + t.count) && s.holderOf t (chunk - t.first) == s.gei
            && !r.done.contains (x.1, chunk - t.first)
        | none => false)
      if left then s
      else (s.freeHeld g.op r.inst chunk).modGraph n (fun (h : Graph) => { h with grads := h.grads.del (gradKey r.inst chunk) })
    | none => s
  | none => s

/-! ### Failing a run (R179, R189, R193) -/

/-- A run aborted for a cause of this device: held results freed, the graph HALTED. -/
def State.failRun (s : State) (n cause node : Nat) : State :=
  match s.graphs.slots.get? n with
  | some g => match g.run with
    | some r => (s.stopRun n cause node false).freeAllHeld g.op r.inst
    | none => s
  | none => s

/-- A node of this device has faulted: FAULT holds the node and the notice's low byte, and the run fails.  A device that has sent
its OK already sends FAIL after it (R179, R193, R194, R195). -/
def State.failNode (s : State) (n node code : Nat) : State :=
  match s.graphs.slots.get? n with
  | some g =>
    let s := match g.run with
      | some r => if r.sent then s.sendFence g false else s
      | none => s
    (s.wr E.fault n (node % 16384 * 2 ^ 16 + code)).failRun n code node
  | none => s

/-- A task faults with a notice. -/
def State.faultNode (s : State) (n node code src : Nat) (items : List Item) : State :=
  match s.graphs.slots.get? n with
  | some g => match g.run with
    | some r => (s.raise code 2 src ([.v 32 g.id, .v 8 r.inst] ++ items)).failNode n node (code % 256)
    | none => s
  | none => s

/-- A task that reads a LOST stripe or scratch area, whose notice has been raised already, faults (R234). -/
def State.faultLost (s : State) (n node : Nat) : State := s.failNode n node 0x0B

/-! ### COLLECT (R188) -/

/-- The scalars of a COLLECT's producer at this device. -/
def State.scalars (s : State) (g : Graph) (r : Run) (e : GEdge) : List Nat :=
  match (g.node e.prod).bind (fun (x : GNode) => s.domain g x.domain) with
  | some t => (s.heldStripes t).map (fun k => (r.outs.getD (outKey e.prod e.out k) [0]).headD 0)
  | none => []

/-- This device's sum, none where a scalar overflows; its largest key. -/
def collectSum (anchor : Int) (l : List Nat) : Option Int :=
  let ws := l.map (fun v => toWindow (decodeFp fp32 v) anchor 109)
  if ws.any (fun (w : Win) => w.rov) then none else some (ws.foldl (fun (a : Int) w => a + w.q) 0)
def collectMax (l : List Nat) : Int := l.foldl (fun a v => max a (orderKey (decodeFp fp32 v))) noKey

/-- The exact total in FP32 once every device's is held, none when it saturates. -/
def collectTotal (x : GNode) (own : Int) (others : List Int) : Option Nat :=
  if x.collOp = 0 then
    let (v, sat) := roundFp fp32 (others.foldl (· + ·) own) x.collAnchor
    if sat then none else some v
  else
    let k := others.foldl max own
    if k = noKey then some 0 else some (roundFp fp32 (keyValue k).1 (keyValue k).2).1

/-- A COLLECT whose values are all held is fixed, or faults with COLLECT_RANGE. -/
def State.tryCollect (s : State) (n node : Nat) : State :=
  match s.graphs.slots.get? n with
  | some g => match g.run, g.node node with
    | some r, some x => match (r.collects.getD node {}).own with
      | some own =>
        let peers := s.graphPeers g
        let vals := peers.map (fun d => (g.msgs.find? (fun (m : GMsg) =>
          m.src == d && m.inst == r.inst && m.node == node && m.kind == x.collOp + 1)).map (fun (m : GMsg) => m.val))
        if vals.any (fun v => v.isNone) ∨ r.done.contains (node, 0) then s
        else match collectTotal x own (vals.filterMap id) with
          | some v => s.modRun n (fun (q : Run) => { q with
              collects := q.collects.set node { own := some own, result := some v }
              outs := q.outs.set (outKey node 0 0) [v]
              done := q.done ++ [(node, 0)] })
          | none => s.faultNode n node 0x8006 31 [.v 16 node]
      | none => s
    | _, _ => s
  | none => s

/-- An EXCHANGE of a COLLECT's value sent to the other devices (R188, R488). -/
def State.sendCollect (s : State) (g : Graph) (inst node kind : Nat) (v : Int) : State :=
  let body := toBytes 1 kind ++ toBytes 4 g.id ++ toBytes 1 inst ++ toBytes 2 node ++ toBytes 1 0 ++ toBytes 24 (wrapInt 192 v)
  (s.graphPeers g).foldl (fun (s : State) d => s.sendPeer d 7 body) s

/-- A COLLECT's task: this device's value formed and exchanged. -/
def State.doCollect (s : State) (n node : Nat) (g : Graph) (r : Run) (x : GNode) : State :=
  match x.edge 0 with
  | none => s
  | some e =>
    let l := s.scalars g r e
    let own := if x.collOp = 0 then collectSum x.collAnchor l else some (collectMax l)
    match own with
    | none => s.faultNode n node 0x8006 31 [.v 16 node]
    | some v =>
      let s := s.modRun n (fun (q : Run) => { q with collects := q.collects.set node { own := some v } })
      (s.sendCollect g r.inst node (x.collOp + 1) v).tryCollect n node

/-! ### The fence and the commit (R189, R190) -/

/-- A stored frame is a publish frame of a graph at a version. -/
def Stored.publishes (f : Stored) (g : Graph) (ver : Nat) : Bool :=
  match f.packet with
  | .mft m => m.hdr.ptype == 3 && (let h := field m.body 0 32
      bits h 247 232 == g.id / 65536 && g.names.contains (bits h 247 216) && bits h 215 184 == ver && !bit h 132)
  | .eth _ _ => false

/-- Every PUBLISH of the previous run is finished: its tasks are done and its frames have left (R190). -/
def State.pubFinished (s : State) (g : Graph) : Bool :=
  match g.pub with
  | none => true
  | some p =>
    (withIdx g.nodes 0).all (fun (x : Nat × GNode) => x.2.kind != 8 || (s.pubStripes g x.2).all (fun k => p.done.contains (x.1, k)))
      && !s.net.frames.any (fun (f : Stored) => f.publishes g p.version)

/-- Stripes of a tensor told to be LOST (R234, R241). -/
def State.tellLost (s : State) (h : Nat) (ks : List Nat) : State :=
  ks.foldl (fun (s : State) k => s.raise 0x8C0B 2 31 [.v 32 h, .v 32 k, .v 32 (s.storerOf h)]) s

/-- The tensors a graph stores move to a version as one step (R171, R190). -/
def State.moveVersion (s : State) (g : Graph) (ver : Nat) : State :=
  g.stored.foldl (fun (s : State) h => match s.graphs.tensors.get? h with
    | some t =>
      let gone := t.stripes.filter (fun (x : Nat × Stripe) => x.2.other.ver == ver && !x.2.other.ok)
      let s := s.tellLost h (gone.map (fun (x : Nat × Stripe) => x.1))
      s.setTensor { t with version := ver, stripes := t.stripes.map (fun (x : Nat × Stripe) =>
        if x.2.other.ver = ver then (x.1, { x.2 with second := !x.2.second }) else x) }
    | none => s) s

/-- The run commits when OK is held from every device, aborts when any FAIL is (R189, R190). -/
def State.tryCommit (s : State) (n : Nat) : State :=
  match s.graphs.slots.get? n with
  | some g => match g.run with
    | some r =>
      let mine := g.reports.filter (fun (x : Nat × Nat × Bool) => x.2.1 == g.version + 1)
      if mine.any (fun (x : Nat × Nat × Bool) => !x.2.2) then
        let (c, s) := s.free
        s.failRun n (c % 256) 0
      else if r.sent && (s.graphPeers g).all (fun d => mine.any (fun (x : Nat × Nat × Bool) => x.1 == d)) then
        let ver := g.version + 1
        let s := (s.moveVersion g ver).tellParity g 1
        let s := (s.bump E.runsCommitted 0 1).raise 0x8003 0 31 [.v 32 g.id, .v 8 r.inst, .v 32 ver]
        let s := s.setGraph n { g with
          state := gsWaiting, run := none, next := (r.inst + 1) % 256, version := ver, pub := some { version := ver },
          msgs := g.msgs.filter (fun (m : GMsg) => m.inst != r.inst), owed := [],
          reports := g.reports.filter (fun (x : Nat × Nat × Bool) => x.2.1 != ver),
          grads := g.grads.filter (fun (x : Nat × List Nat) => x.1 / 2 ^ 32 != r.inst) }
        (s.freeAllHeld g.op r.inst).refill.passSkipped 256 n
      else s
    | none => s
  | none => s

/-- A device at the FENCE sends OK once its parity rounds allow it (R189, R436). -/
def State.tryReport (s : State) (n : Nat) : State :=
  match s.graphs.slots.get? n with
  | some g => match g.run with
    | some r =>
      if r.fenceAt.isSome ∧ !r.sent ∧ s.roundsDone g then
        ((s.sendFence g true).modRun n (fun (q : Run) => { q with sent := true })).tryCommit n
      else s
    | none => s
  | none => s

/-- The FENCE is reached (R189). -/
def State.doFence (s : State) (n node : Nat) : State :=
  let s := s.modGraph n (fun (g : Graph) => { g with state := gsFenced })
  (s.modRun n (fun (q : Run) => { q with fenceAt := some s.now, done := q.done ++ [(node, 0)] })).tryReport n

/-! ### Publishing (R183, R190-R192) -/

/-- A publish header and payload (R191 Table 8). -/
def pubBody (src kind tensor ver stripe fmt count : Nat) (resent : Bool) (group value flags : Nat) (payload : List Byte) : List Byte :=
  let b := toBytes 24 (pack [(4, 1), (4, kind), (32, tensor), (32, ver), (32, stripe), (8, fmt), (11, count), (1, b2n resent),
    (4, 0), (16, group), (32, value), (8, flags), (8, 0)])
  b ++ toBytes 8 (crc64 (toBytes 3 src ++ b ++ payload)) ++ payload

/-- The elements of a copy as signed significands and exponents. -/
def Tensor.values (t : Tensor) (c : Copy) : List (Int × Int) := c.vals.map (fun v => (decode t.fmt ⟨v, 0⟩).num)

/-- A stripe's WEIGHTS frame body: a copy converted to the group's format (R183). -/
def weightsBody (src : Nat) (t : Tensor) (ver k fmt group : Nat) (resent : Bool) (c : Copy) : List Byte :=
  let (p, sat) := encodeValues fmt (t.values c)
  pubBody src 1 t.handle ver k fmt c.vals.length resent group 0 (if sat then flagSat else 0) p

/-- A publish frame of this device to a multicast group, or to one replica. -/
def State.pubFrame (s : State) (g : Graph) (mcast : Bool) (dest : Nat) (body : List Byte) : Mft :=
  ⟨{ ptype := 3, cclass := true, mcast := mcast, dest := dest, src := s.gei, job := g.id / 65536, gen := s.opGen g.op }, [], body⟩

/-- A PUBLISH task: one stripe's WEIGHTS, and TENSOR_END after the last (R190). -/
def State.doPublish (s : State) (n node k : Nat) (g : Graph) (p : Pub) (x : GNode) : State :=
  match s.domain g x.domain with
  | none => s
  | some t =>
    let (mc, fmt) := g.groups.getD x.groupIdx (0, 0)
    let s := s.multicast 0 noPort s.now (.mft (s.pubFrame g true mc (weightsBody s.gei t p.version k fmt x.groupIdx false (t.stripe k).cur))) mc 2
    let s := s.bump E.pubFrames 0 1
    let p := { p with done := p.done ++ [(node, k)] }
    let all := s.pubStripes g x
    let s := if all.all (fun j => p.done.contains (node, j)) then
      s.multicast 0 noPort s.now (.mft (s.pubFrame g true mc (pubBody s.gei 2 t.handle p.version 0xFFFFFFFF 0 0 false x.groupIdx
        (p.done.filter (fun (y : Nat × Nat) => y.1 == node)).length 0 []))) mc 2
      else s
    s.modGraph n (fun (h : Graph) => { h with pub := some p })

/-! ### LOAD, REDUCE_IN, VEC, STORE (R181, R182, R184, R185) -/

/-- A list of values padded with +0 to 1,024. -/
def padded (l : List Nat) : List Nat := l ++ List.replicate (1024 - l.length) 0

/-- A task's output values recorded and the task complete. -/
def State.finish (s : State) (n node k : Nat) (outs : List (Nat × List Nat)) : State :=
  s.modRun n (fun (r : Run) => { r with
    outs := outs.foldl (fun (m : Tab (List Nat)) x => m.set (outKey node x.1 k) x.2) r.outs
    done := r.done ++ [(node, k)] })

/-- The accumulation format of a producer's values: binary64 for an FP64 product or an FP64 tensor, else binary32. -/
def State.accOf (s : State) (g : Graph) (node : Nat) : FpFmt :=
  match g.node node with
  | some x =>
    let wide : Bool := match s.domain g x.domain with
      | some t => t.fmt == 0x20 && t.cls == 1
      | none => false
    if (x.kind = 5 ∧ x.cformat = 0x20) ∨ (x.kind = 2 ∧ wide) then acc64 else acc32
  | none => acc32

/-- REDUCE_IN: the stripe of a held result (R178, R181). -/
def State.doReduceIn (s : State) (n node k : Nat) (g : Graph) (r : Run) (t : Tensor) : State :=
  match s.resultLanes g r.inst (t.first + k) with
  | none => s
  | some l => (s.finish n node k [(0, padded (l.take (t.present k)))]).retireChunk n (t.first + k)

/-- LOAD: the committed copy of a stripe, as FP32 or FP64 (R171, R181); a LOST stripe faults (R234). -/
def State.doLoad (s : State) (n node k : Nat) (t : Tensor) : State :=
  let x := t.stripe k
  if x.lost then s.faultLost n node
  else s.finish n node k [(0, padded (if t.fmt = 0x20 then x.cur.vals else x.cur.vals.map (toLane t.fmt)))]

/-- VEC: one stripe through its program; a non-finite value in a present element or a scalar output faults (R185). -/
def State.doVec (s : State) (n node k : Nat) (g : Graph) (r : Run) (x : GNode) (t : Tensor) : State :=
  let es := withIdx x.edges 0
  let vecs := es.filterMap (fun (y : Nat × GEdge) => if y.2.dep = 1 then
    let l := r.outs.getD (outKey y.2.prod y.2.out k) zeroLanes
    let acc := s.accOf g y.2.prod
    some (y.1, if acc.mb = 52 then l.map (fun v => packFl fp32 (flOf acc64 v)) else l) else none)
  let scas := es.filterMap (fun (y : Nat × GEdge) => if y.2.dep = 2 then
    some (y.1, (r.outs.getD (outKey y.2.prod y.2.out 0) [0]).headD 0) else none)
  match programOf g.progs x.prog with
  | none => s
  | some w =>
    let f := vrun w (vstart vecs scas r.consts x.vecBase)
    let outs := (List.range 4).filterMap (fun j =>
      if bit x.outKind j then some (j, [f.sca (28 + j)])
      else if programWrites w false (8 + j) then some (j, f.vec (8 + j)) else none)
    let bad := outs.any (fun (o : Nat × List Nat) => if bit x.outKind o.1 then notFinite fp32 (o.2.headD 0)
      else (o.2.take (t.present k)).any (notFinite fp32))
    if bad then s.faultNode n node 0x8005 (8 + s.stripeDie t k) [.v 16 node, .v 32 k]
    else s.finish n node k outs

/-- Every STORE of a graph has completed at this device. -/
def State.storesDone (s : State) (g : Graph) (r : Run) : Bool :=
  (withIdx g.nodes 0).all (fun (x : Nat × GNode) => x.2.kind != 3 || s.tasksDone g r x.1 x.2)

/-- STORE: a stripe's present elements converted into the other copy, which then holds v + 1 (R171, R182). -/
def State.doStore (s : State) (n node k : Nat) (g : Graph) (r : Run) (x : GNode) (t : Tensor) : State :=
  match x.edge 0 with
  | none => s
  | some e =>
    let acc := s.accOf g e.prod
    let l := (r.outs.getD (outKey e.prod e.out k) zeroLanes).take (t.present k)
    if l.any (notFinite acc) then s.faultNode n node 0x8005 (8 + s.stripeDie t k) [.v 16 node, .v 32 k]
    else
      let cs := l.map (toStorage acc t.fmt)
      let sat := (cs.filter (fun (c : Nat × Bool) => c.2)).length
      let s := s.bump E.storeSaturated 0 sat
      let s := if 0 < sat ∧ !r.storeTold then
        (s.raise 0x800A 1 (8 + s.stripeDie t k) [.v 32 g.id, .v 8 r.inst, .v 16 node, .v 32 k]).modRun n
          (fun (q : Run) => { q with storeTold := true }) else s
      let y := t.stripe k
      let s := s.setTensor (t.putStripe k (y.putOther { ver := g.version + 1, vals := cs.map (·.1) }))
      let s := (s.finish n node k []).modRun n (fun (q : Run) => { q with storedAt := s.now })
      match s.graphs.slots.get? n with
      | some g => match g.run with
        | some r => if s.storesDone g r then s.startRounds g else s
        | none => s
      | none => s

/-- A stripe whose last task in its stage has completed frees its buffers; its values in a STRIPED or VIEW domain go with
them (R176, R177). -/
def State.closeStripe (s : State) (n node k : Nat) : State :=
  match s.graphs.slots.get? n with
  | some g => match g.run with
    | some r =>
      let c := s.checkedOf g
      let st := stagesOf g.nodes
      let stage := st.getD node 0
      let grp := groupOf c.tensors node
      let mine := stageMembers g.nodes c stage grp
      if mine.all (fun (x : Nat × GNode) => r.done.contains (x.1, k)) then
        let striped : Bool := match c.dom node with
          | some t => t.cls != 1
          | none => false
        let keys := mine.flatMap (fun (x : Nat × GNode) => (List.range 4).filterMap (fun j =>
          if x.2.outVector j then some (outKey x.1 j k) else none))
        s.modRun n (fun (q : Run) => { q with
          opened := q.opened.filter (fun (y : Nat × Nat × Nat × Nat) => y.2 != (stage, grp, k))
          outs := if striped then q.outs.filter (fun (y : Nat × List Nat) => !keys.contains y.1) else q.outs })
      else s
    | none => s
  | none => s

/-! ### Issue (R180) -/

/-- The stripe's STRIPE producers have completed: their task on the stripe, or all of an MM node. -/
def GNode.fed (x : GNode) (g : Graph) (r : Run) (done : List Bool) (k : Nat) : Bool :=
  x.used.all (fun (e : GEdge) => e.dep != 1 || (match g.node e.prod with
    | some p => if p.kind = 5 then done.getD e.prod false else r.done.contains (e.prod, k)
    | none => false))

/-- The first ready task of a graph's run at a die that has not been issued: lowest node, then lowest stripe. -/
def State.nextTask (s : State) (g : Graph) (r : Run) (q : Nat) : Option (Nat × Nat) :=
  let done := s.doneNodes g r
  let c := s.checkedOf g
  let st := stagesOf g.nodes
  let full := decide (4096 ≤ s.inFlightAll q)
  (withIdx g.nodes 0).findSome? (fun (x : Nat × GNode) =>
    if x.2.kind = 8 ∨ !x.2.ready done ∨ (full ∧ s.nodeState g x.1 q ≠ 3) ∨ (x.2.kind = 7 ∧ !s.pubFinished g) then none
    else
      ((s.nodeTasks g x.2 q).find? (fun k => !r.issued.contains (x.1, k) &&
        (decide (5 ≤ x.2.kind) || (r.opened.contains (q, st.getD x.1 0, groupOf c.tensors x.1, k) && x.2.fed g r done k)))).map
          (fun k => (x.1, k)))

/-- The first PUBLISH task at a die that has not been issued; with 4,096 nodes in flight there, of a node in flight. -/
def State.nextPub (s : State) (g : Graph) (p : Pub) (q : Nat) : Option (Nat × Nat) :=
  let full := decide (4096 ≤ s.inFlightAll q)
  (withIdx g.nodes 0).findSome? (fun (x : Nat × GNode) =>
    if x.2.kind ≠ 8 ∨ (full ∧ !s.pubFlies g p x.1 x.2 q) then none
    else ((s.pubAt g x.2 q).find? (fun k => !p.issued.contains (x.1, k))).map (fun k => (x.1, k)))

/-- When the update engine of a die last had a task. -/
def State.touchEngine (s : State) (q : Nat) : State :=
  { s with graphs := { s.graphs with engines := s.graphs.engines.set q s.now } }

/-- The update engine of a die runs (R180). -/
def State.engineOn (s : State) (q : Nat) : State :=
  let s := s.touchEngine q
  if bit (s.rd E.coldState q) 4 then s else s.wr E.coldState q (s.rd E.coldState q + 16)

/-- A task of a graph is pending at a die: issued and not complete, or ready. -/
def State.pendingAt (s : State) (q : Nat) : Bool :=
  s.graphs.slots.any (fun (y : Nat × Graph) => match y.2.run with
    | some r => (s.nextTask y.2 r q).isSome || (withIdx y.2.nodes 0).any (fun (x : Nat × GNode) =>
        (s.nodeTasks y.2 x.2 q).any (fun k => r.issued.contains (x.1, k) && !r.done.contains (x.1, k)))
    | none => false)
  || s.graphs.slots.any (fun (y : Nat × Graph) => match y.2.pub with
    | some p => (s.nextPub y.2 p q).isSome || (withIdx y.2.nodes 0).any (fun (x : Nat × GNode) => x.2.kind == 8 &&
        (s.pubAt y.2 x.2 q).any (fun k => p.issued.contains (x.1, k) && !p.done.contains (x.1, k)))
    | none => false)

end Sys2Proof.Machine
end

