-- ==== Sys2Proof/Machine/MatrixArith.lean ====
section
/-!
DEFINITION. The arithmetic of an MM node (spec/07 R197-R202): operands converted, mm_ref, the kernels whole and batched, and
the node's result.
-/
namespace Sys2Proof.Machine

/-- A matrix by rows. -/
abbrev Mat := List (List Fl)

/-- A matrix of `n` columns transposed. -/
def Mat.turned (m : Mat) (n : Nat) : Mat := (List.range n).map (fun j => m.map (fun r => r.getD j (.num false 0 0)))

/-- How a run's products are computed: ACC, CFORMAT, and whether FLUSH is in force. -/
structure MmMode where
  acc   : FpFmt
  cf    : Nat
  flush : Bool

/-- What a computation met besides its values: saturated conversions of slots 0 and 1, and a replacement of a nonzero
value in FLUSH mode. -/
structure MmSeen where
  sat0    : Nat := 0
  sat1    : Nat := 0
  flushed : Bool := false

/-- Two records of what was met, together. -/
def MmSeen.plus (a b : MmSeen) : MmSeen := ⟨a.sat0 + b.sat0, a.sat1 + b.sat1, a.flushed || b.flushed⟩

/-- A value's signed significand and exponent; 0 for one that is not finite. -/
def Fl.pair : Fl → Int × Int
  | .num s m e => (signedOf s m, e)
  | _ => (0, 0)

/-- A value that is not finite. -/
def Fl.wild : Fl → Bool
  | .num _ _ _ => false
  | _ => true

/-- A decoded element as a value. -/
def flOfDec : Dec → Fl
  | .zero => .num false 0 0
  | .fin s m e => .num s m e
  | .inf s => .inf s
  | .nan => .nan

/-- An encoding is subnormal and not zero. -/
def subnormal (f : FpFmt) (v : Nat) : Bool := bits v (f.eb + f.mb - 1) f.mb == 0 && v % 2 ^ f.mb != 0

/-- An element's encoding in CFORMAT as the array uses it: a subnormal one is a zero of its sign in FLUSH mode (R201). -/
def MmMode.element (md : MmMode) (f : FpFmt) (raw scale : Nat) : Fl × Bool :=
  if md.flush ∧ subnormal f raw then (.num (bit raw (f.eb + f.mb)) 0 0, true)
  else (flOfDec (decode md.cf ⟨raw, scale⟩), false)

/-- Elements along the inner index in CFORMAT (R199): each one's encoding, the scale byte of its block, and the conversions that
saturated (those of a block counted at its first element). -/
def MmMode.codes (md : MmMode) (f : FpFmt) (l : List Fl) : List (Nat × Nat × Nat) :=
  if isMx md.cf then (chunksOf l.length 32 l).flatMap (fun blk =>
    let (x, es, n) := mxCount f (blk.map Fl.pair)
    es.zipIdx.map (fun (y : Nat × Nat) => (y.1, x, if y.2 = 0 then n else 0)))
  else l.map (fun v => let p := v.pair; let r := roundFp f p.1 p.2; (r.1, 0, b2n r.2))

/-- Elements along the inner index converted to CFORMAT (R199), with the number saturated and whether one was flushed; a
value that is not finite stays what it is (log 71). -/
def MmMode.line (md : MmMode) (l : List Fl) : List Fl × Nat × Bool :=
  match fpFmt md.cf with
  | none => (l, 0, false)
  | some f =>
    let cs := l.zip (md.codes f l)
    let out := cs.map (fun (c : Fl × Nat × Nat × Nat) => if c.1.wild then (c.1, false) else md.element f c.2.1 c.2.2.1)
    (out.map (·.1), cs.foldl (fun a (c : Fl × Nat × Nat × Nat) => a + c.2.2.2) 0, out.any (·.2))

/-- A rounded result in ACC; a subnormal one is a zero of its sign in FLUSH mode (R201). -/
def MmMode.result (md : MmMode) (raw : Nat) : Fl × Bool :=
  if md.flush ∧ subnormal md.acc raw then (.num (bit raw (md.acc.eb + md.acc.mb)) 0 0, true) else (flOf md.acc raw, false)

/-- fma_acc over the inner index in ascending order, from +0 (R197). -/
def MmMode.chain (md : MmMode) : List Fl → List Fl → Fl × Bool → Fl × Bool
  | a :: r, b :: q, (c, w) =>
    let (d, v) := md.result (addFl md.acc (mulFl a b) c)
    MmMode.chain md r q (d, w || v)
  | _, _, c => c

/-- The epilogue: α × c + β × C, or α × c, rounded once (R197). -/
def MmMode.epilogue (md : MmMode) (alpha beta : Fl) (cc : Option Fl) (c : Fl) : Fl × Bool :=
  match cc with
  | some v => md.result (addFl md.acc (mulFl alpha c) (mulFl beta v))
  | none => md.result (packFl md.acc (mulFl alpha c))

/-- mm_ref (R197): rows of op(A), columns of op(B), C. -/
def MmMode.mmRef (md : MmMode) (rows cols : Mat) (cc : Option Mat) (alpha beta : Fl) : Mat × MmSeen :=
  let as := rows.map md.line
  let bs := cols.map md.line
  let seen : MmSeen := ⟨as.foldl (fun n (x : List Fl × Nat × Bool) => n + x.2.1) 0, bs.foldl (fun n (x : List Fl × Nat × Bool) => n + x.2.1) 0,
    as.any (fun (x : List Fl × Nat × Bool) => x.2.2) || bs.any (fun (x : List Fl × Nat × Bool) => x.2.2)⟩
  let d := as.zipIdx.map (fun (a : (List Fl × Nat × Bool) × Nat) => bs.zipIdx.map (fun (b : (List Fl × Nat × Bool) × Nat) =>
    let (c, w) := md.chain a.1.1 b.1.1 (.num false 0 0, false)
    let (v, u) := md.epilogue alpha beta (cc.map (fun (m : Mat) => (m.getD a.2 []).getD b.2 (.num false 0 0))) c
    (v, w || u)))
  (d.map (fun r => r.map (·.1)), { seen with flushed := seen.flushed || d.any (fun r => r.any (·.2)) })

/-- 1.0. -/
def flOne : Fl := .num false 1 0

/-- One product: rows of op(A), columns of op(B), C, α and β. -/
structure MmCall where
  rows  : Mat
  cols  : Mat
  cc    : Option Mat
  alpha : Fl
  beta  : Fl

/-- A product computed. -/
def MmMode.run (md : MmMode) (c : MmCall) : Mat × MmSeen := md.mmRef c.rows c.cols c.cc c.alpha c.beta

/-- The products of a Newton–Schulz step (R198) on X of `m` rows and `n` columns: `prev` is the result of the one before. -/
def nsCall (x : Mat) (m n : Nat) (a b c : Fl) (prev : Mat) (prod : Nat) : MmCall :=
  let xt := x.turned n
  let wide := decide (m ≤ n)
  match prod with
  | 0 => if wide then ⟨x, x, none, flOne, .num false 0 0⟩ else ⟨xt, xt, none, flOne, .num false 0 0⟩
  | 1 => ⟨prev, prev.turned (min m n), some prev, c, b⟩
  | _ => if wide then ⟨prev, xt, some x, flOne, a⟩ else ⟨x, prev.turned n, some x, flOne, a⟩

/-- A kernel of Table 1 on one problem: `a` and `b` with their shapes, C, the constants. -/
structure MmProblem where
  kernel : Nat
  ta : Bool
  tb : Bool
  a  : Mat
  sa : Nat × Nat
  b  : Mat
  sb : Nat × Nat
  cc : Option Mat
  k0 : Fl
  k1 : Fl
  k2 : Fl

/-- The products of a problem, each from the result of the one before. -/
def MmProblem.call (p : MmProblem) (prev : Mat) (prod : Nat) : MmCall :=
  let oa := if p.ta then p.a.turned p.sa.2 else p.a
  match p.kernel with
  | 0 => ⟨oa, if p.tb then p.b else p.b.turned p.sb.2, p.cc, p.k0, p.k1⟩
  | 1 => ⟨oa, oa, p.cc, p.k0, p.k1⟩
  | _ => nsCall p.a p.sa.1 p.sa.2 p.k0 p.k1 p.k2 prev prod

/-- How many products a kernel has. -/
def kernelProducts (k : Nat) : Nat := if k = 2 then 3 else 1

/-- The result of the first `n` products of a problem. -/
def MmMode.first (md : MmMode) (p : MmProblem) : Nat → Mat × MmSeen
  | 0 => ([], {})
  | n + 1 =>
    let (m, s) := MmMode.first md p n
    let (r, u) := md.run (p.call m n)
    (r, s.plus u)

/-- A problem solved. -/
def MmMode.solve (md : MmMode) (p : MmProblem) : Mat × MmSeen := md.first p (kernelProducts p.kernel)

/-- Block (I, J) of a matrix in q × q blocks. -/
def Mat.block (m : Mat) (q i j : Nat) : Mat := ((m.drop (q * i)).take q).map (fun r => (r.drop (q * j)).take q)

/-- A problem on block (I, J) of matrices of one shape (R198, batched mode). -/
def MmProblem.at (p : MmProblem) (q i j : Nat) : MmProblem :=
  { p with a := p.a.block q i j, sa := (q, q), b := p.b.block q i j, sb := (q, q), cc := p.cc.map (fun (m : Mat) => m.block q i j) }

/-- A problem on every q × q block. -/
def MmMode.batched (md : MmMode) (q : Nat) (p : MmProblem) : Mat × MmSeen :=
  let grid := (List.range (p.sa.1 / q)).map (fun i => (List.range (p.sa.2 / q)).map (fun j => md.solve (p.at q i j)))
  (grid.flatMap (fun row => (List.range q).map (fun y => row.flatMap (fun (x : Mat × MmSeen) => x.1.getD y []))),
    grid.foldl (fun s row => row.foldl (fun s (x : Mat × MmSeen) => s.plus x.2) s) {})

/-! ### The node -/

/-- Rows of `n` elements of a list. -/
def rowsOf {α : Type} (n : Nat) (l : List α) : List (List α) := chunksOf l.length n l

/-- A producer's output in a WHOLE domain as a matrix, with its shape. -/
def State.matrixOf (s : State) (g : Graph) (r : Run) (e : GEdge) : Mat × (Nat × Nat) :=
  match (g.node e.prod).bind (fun (x : GNode) => s.domain g x.domain) with
  | some t =>
    let f := s.accOf g e.prod
    (rowsOf t.cols (((List.range t.count).flatMap (fun k => r.outs.getD (outKey e.prod e.out k) zeroLanes)).map (flOf f)), (t.rows, t.cols))
  | none => ([], (0, 0))

/-- A value of ACC, rounded from a wider one where ACC is binary32 (log 71). -/
def Fl.inAcc (f : FpFmt) (v : Fl) : Fl := flOf f (packFl f v)

/-- The mode of an MM node's products. -/
def GNode.mmMode (x : GNode) (flush : Bool) : MmMode := ⟨if x.cformat = 0x20 then acc64 else acc32, x.cformat, flush⟩

/-- The block size in force for an MM node of a run; 0 for whole mode. -/
def Run.block (r : Run) (x : GNode) : Nat := blockSize (r.consts.getD (x.mmBase + 3) 0)

/-- What an MM node of a run computes: its operands, its constants (R198). -/
def State.mmProblem (s : State) (g : Graph) (r : Run) (x : GNode) : Option MmProblem :=
  let md := x.mmMode r.flush
  let k := fun i => flOf fp32 (r.consts.getD (x.mmBase + i) 0)
  match x.edge 0, x.edge 1 with
  | some e0, some e1 =>
    let (a, sa) := s.matrixOf g r e0
    let (b, sb) := s.matrixOf g r e1
    let cc := (x.edge 2).map (fun (e : GEdge) => ((s.matrixOf g r e).1.map (fun row => row.map (Fl.inAcc md.acc)) : Mat))
    let a := if x.kernel = 2 then a.map (fun row => row.map (Fl.inAcc md.acc)) else a
    some ⟨x.kernel, x.transA, x.transB, a, sa, b, sb, cc, k 0, k 1, k 2⟩
  | _, _ => none

/-- The result of an MM node of a run (R198). -/
def State.mmResult (s : State) (g : Graph) (r : Run) (x : GNode) : Mat × MmSeen :=
  let md := x.mmMode r.flush
  match s.mmProblem g r x with
  | some p => if r.block x ≠ 0 then md.batched (r.block x) p else md.solve p
  | none => ([], {})

/-- A matrix as the stripes of its tensor, encoded in ACC. -/
def Mat.stripes (m : Mat) (f : FpFmt) : List (List Nat) :=
  let l := m.flatMap (fun row => row.map (packFl f))
  chunksOf l.length 1024 l

end Sys2Proof.Machine
end

