-- ==== Sys2Proof/Machine/Abft.lean ====
section
/-!
DEFINITION. What an array works on for a tile, and the check of a tile before it leaves the array (spec/07 R205, R211).
-/
namespace Sys2Proof.Machine

/-! ### Exact sums -/

/-- Sum, product and magnitude of values given as a significand and a power of two. -/
def addPair (a b : Int × Int) : Int × Int :=
  let e := min a.2 b.2
  (a.1 * 2 ^ (a.2 - e).toNat + b.1 * 2 ^ (b.2 - e).toNat, e)
def mulPair (a b : Int × Int) : Int × Int := (a.1 * b.1, a.2 + b.2)
def absPair (a : Int × Int) : Int × Int := (a.1.natAbs, a.2)

/-- The sum of a list. -/
def sumPairs (l : List (Int × Int)) : Int × Int := l.foldl addPair (0, 0)

/-- One value exceeds another. -/
def gtPair (a b : Int × Int) : Bool := decide (0 < (addPair a (-b.1, b.2)).1)

/-! ### The tile's operands (R205) -/

/-- A tile's operands in tile memory: rows of op(A) and columns of op(B) in CFORMAT, of the inner dimension's length. -/
structure TileWork where
  md   : MmMode
  rows : Mat
  cols : Mat

/-- What a tile works on: side `q` and the block in batched mode, else 128 rows and columns of its product. -/
def State.tileWork (s : State) (x : Tile) : Option TileWork :=
  match s.graphs.slots.get? x.slot with
  | some g => match g.run, g.node x.node with
    | some r, some n => (s.mmProblem g r n).map (fun p =>
        let md := n.mmMode r.flush
        let q := r.block n
        let p := if q ≠ 0 then p.at q x.i x.j else p
        let c := p.call (md.first p x.prod).1 x.prod
        let cut := fun (m : Mat) k => if q ≠ 0 then m else (m.drop (128 * k)).take 128
        ⟨md, cut c.rows x.i, cut c.cols x.j⟩)
    | _, _ => none
  | none => none

/-- The entries of a feeder queue from step `k`: the element's encoding and the scale byte of its block, 64 of them (R205). -/
def TileWork.feeder (w : TileWork) (line : List Fl) (k : Nat) : List (Nat × Nat) :=
  match fpFmt w.md.cf with
  | some f => (((w.md.codes f line).drop k).take 64).map (fun (c : Nat × Nat × Nat) => (c.1, c.2.1))
  | none => []

/-! ### ABFT (R211) -/

/-- u and z of Table 5. -/
def abftUnits (md : MmMode) : (Int × Int) × (Int × Int) :=
  if md.acc.mb = 52 then ((1, -53), (1, if md.flush then -1021 else -1073)) else ((1, -24), (1, if md.flush then -125 else -148))

/-- τ (R211): (2K + 260) × u × t + (K + 1) × z. -/
def abftTol (md : MmMode) (k : Nat) (t : Int × Int) : Int × Int :=
  let (u, z) := abftUnits md
  addPair (mulPair (mulPair (2 * (k : Int) + 260, 0) u) t) (mulPair ((k : Int) + 1, 0) z)

/-- The sum along one line of accumulators differs from its checksum by more than its tolerance: `a` is the line of one operand,
`bs` the lines of the other, `cs` the accumulators.  The checksum and its bound are formed exactly (DEDUCED, log 196). -/
def lineFails (md : MmMode) (a : List (Int × Int)) (bs : List (List (Int × Int))) (cs : List (Int × Int)) : Bool :=
  let col := fun k (f : Int × Int → Int × Int) => sumPairs (bs.map (fun b => f (b.getD k (0, 0))))
  let r := sumPairs (a.zipIdx.map (fun y => mulPair y.1 (col y.2 id)))
  let t := sumPairs (a.zipIdx.map (fun y => mulPair (absPair y.1) (col y.2 absPair)))
  let d := sumPairs cs
  gtPair (absPair (addPair d (-r.1, r.2))) (abftTol md a.length t)

/-- The accumulators of a tile before the epilogue, by rows, with those put in that a fault left with other contents: row,
column, encoding in ACC. -/
def TileWork.accumulators (w : TileWork) (wrong : List (Nat × Nat × Nat)) : Mat :=
  let as := w.rows.map (fun r => (w.md.line r).1)
  let bs := w.cols.map (fun c => (w.md.line c).1)
  as.zipIdx.map (fun a => bs.zipIdx.map (fun b => match wrong.find? (fun x => x.1 == a.2 && x.2.1 == b.2) with
    | some x => flOf w.md.acc x.2.2
    | none => (w.md.chain a.1 b.1 (.num false 0 0, false)).1))

/-- The first row, else the first column, of a tile that fails R211; none where it passes.  A tile in which a value is a NaN or an
infinity is not checked. -/
def TileWork.failing (w : TileWork) (wrong : List (Nat × Nat × Nat)) : Option Nat :=
  let as := w.rows.map (fun r => (w.md.line r).1)
  let bs := w.cols.map (fun c => (w.md.line c).1)
  let cs := w.accumulators wrong
  if (as ++ bs ++ cs).any (fun l => l.any Fl.wild) then none
  else
    let pa := as.map (fun l => l.map Fl.pair)
    let pb := bs.map (fun l => l.map Fl.pair)
    let pc := cs.map (fun l => l.map Fl.pair)
    match (pa.zip pc).findIdx? (fun y => lineFails w.md y.1 pb y.2) with
    | some i => some i
    | none => pb.zipIdx.findIdx? (fun y => lineFails w.md y.1 pa (pc.map (fun r => r.getD y.2 (0, 0))))

/-- The row or column in which a tile fails R211.  A tile computed right never fails. -/
def State.abftFails (s : State) (x : Tile) (wrong : List (Nat × Nat × Nat)) : Option Nat :=
  if wrong.isEmpty then none else (s.tileWork x).bind (fun w => w.failing wrong)

end Sys2Proof.Machine
end

