-- ==== Sys2Proof/Machine/Capacity.lean ====
section
/-!
DEFINITION. Capacity as the Ovaron publishes it (spec/01 R22, spec/15 R423 Table 10), and the counts of arrays in service
(spec/07 R214, R217).
-/
namespace Sys2Proof.Machine

/-! ### Stitch channels (spec/01 Table 2, spec/13 R375-R377) -/

/-- Spares in use over a bundle: each failed data wire has one (PAIR_SPARES_USED). -/
def sparesUsed (c : Channel) : Nat := (c.bad.filter (fun w => decide (w < 64))).length

/-- The answer of CHANNEL_QUERY: the channel's state and its spares used. -/
def State.channelAnswer (s : State) (v : Nat) : Nat :=
  let c := s.channel (20 * bits v 63 59 + bits v 58 54) (bits v 53 51)
  pack [(13, bits v 63 51), (43, 0), (2, c.state), (3, sparesUsed c), (3, 0)]

/-- PAIR_CHANNELS, PAIR_SPARES_USED and RING_CHANNELS of a pair brought up to date. -/
def State.showPair (s : State) (pair : Nat) : State :=
  let a := pair / 20
  let b := pair % 20
  let n := s.pairChannels pair
  let used := (List.range (bundleSize a b)).foldl (fun k c => k + sparesUsed (s.channel pair c)) 0
  let s := (s.wr E.pairChannels pair n).wr E.pairSparesUsed pair used
  if bundleSize a b = 4 then s.wr E.ringChannels (2 * (a - 8) + (if (a - 8 + 1) % 10 = b - 8 then 0 else 1)) n else s

/-- Channels not RETIRED of the device. -/
def State.stitchChannels (s : State) : Nat :=
  1082 - (s.links.channels.filter (fun (x : Nat × Channel) => x.2.state == 2)).length

/-! ### Arrays (R217) -/

/-- Arrays not retired, on dies that are not excluded. -/
def State.arraysIn (s : State) : Nat :=
  ((List.range 40).filter (fun j => decide (s.rd E.arrayState j < 2) && s.rd E.dieState (8 + j / 4) == 0)).length

/-- The BF16 peak of the arrays in service, in GFLOP/s: 52.4288 TFLOP/s an array (PEAK_BF16). -/
def State.peakBf16 (s : State) : Nat := s.arraysIn * 2097152 / 40

/-! ### The capacity entries (R423) -/

/-- Channels with neither ring in FAULT. -/
def State.opticalChannels (s : State) : Nat :=
  2048 - ((s.regs.filter (fun (x : Nat × Nat) => x.1 / 2 ^ 24 == E.ringState && decide (x.1 % 2 ^ 24 < 4096) && x.2 == 6)).foldl
    (fun l (x : Nat × Nat) => insertNat (x.1 % 2 ^ 24 / 2) l) []).length

/-- Ports neither ABSENT nor SHED. -/
def State.capPorts (s : State) : List Nat :=
  (List.range 1024).filter (fun p => s.portExists p && (s.rd E.portState p == 1 || s.rd E.portState p == 2))

/-- Update-state bytes on the stacks in service. -/
def State.stateBytes (s : State) : Nat := (List.range 20).foldl (fun a h => a + s.stateShare h) 0

/-- Capacity rewritten from the state, its version raised and CAPACITY_CHANGED raised (R423).  How the notice names the
resource is open (log 90): a free value. -/
def State.publishCapacity (s : State) : State :=
  let q := s.quires.length
  let ports := s.capPorts
  let s := s.wr E.capExcluded 0 ((List.range 20).foldl (fun a d => if s.rd E.dieState d = 1 then a + 2 ^ d else a) 0)
  let s := (s.wr E.capPorts 0 ports.length).wr E.capLineRate 0 (ports.foldl (fun a p => a + s.portRate p / 1000) 0)
  let s := ((s.wr E.capQuireDies 0 q).wr E.capSramSlots 0 (16384 * q)).wr E.capReductionIngress 0 (20480 * q)
  let s := (s.wr E.capArrays 0 s.arraysIn).wr E.capUpdateLanes 0 (4096 * q)
  let s := s.wr E.capStacks 0 ((List.range 20).filter (fun h => s.stackUp h)).length
  let s := (s.wr E.capStateBytes 0 s.stateBytes).wr E.capSpillBytes 0 s.spillBytes
  let s := s.wr E.capStitchChannels 0 s.stitchChannels
  let s := s.wr E.capModules 0 ((List.range 256).filter (fun m => s.rd E.moduleState m == 2 || s.rd E.moduleState m == 3)).length
  let s := (s.wr E.capOpticalChannels 0 s.opticalChannels).wr E.capTime 0 (timeLayout s.now)
  let s := s.bump32 E.capVersion 0 1
  let (r, s) := s.free
  s.raise 0x9001 0 31 [.v 32 (s.rd E.capVersion 0), .v 16 r]

end Sys2Proof.Machine
end

