-- ==== Sys2Proof/Machine/Matrix.lean ====
section
/-!
DEFINITION. The matrix arrays (spec/07 R203-R218): tiles issued, checked, recomputed and passed, arrays retired and stopped.
-/
namespace Sys2Proof.Machine

/-! ### Products and tiles (R198, R207, R210) -/

/-- An array. -/
def State.array (s : State) (j : Nat) : MatArray := s.graphs.arrays.getD j {}

/-- An array set. -/
def State.setArray (s : State) (j : Nat) (a : MatArray) : State :=
  { s with graphs := { s.graphs with arrays := s.graphs.arrays.set j a } }

/-- The array can take tiles. -/
def State.arrayUp (s : State) (j : Nat) : Bool := decide (s.rd E.arrayState j < 2) && s.rd E.dieState (8 + j / 4) == 0

/-- The arrays of a quire die that can take tiles, ascending. -/
def State.arraysOf (s : State) (q : Nat) : List Nat := ((List.range 4).map (fun j => 4 * q + j)).filter (fun j => s.arrayUp j)

/-- The products of an MM node: rows, columns and inner dimension of each (R198); `d` is the domain's shape. -/
def mmProducts (q kernel : Nat) (ta : Bool) (a d : Nat × Nat) : List (Nat × Nat × Nat) :=
  let n := kernelProducts kernel
  if q ≠ 0 then List.replicate n (d.1, d.2, q)
  else match kernel with
    | 0 => [(d.1, d.2, (turn ta a).2)]
    | 1 => [(d.1, d.2, (turn ta a).2)]
    | _ => if a.1 ≤ a.2 then [(a.1, a.1, a.2), (a.1, a.1, a.1), (a.1, a.2, a.1)]
      else [(a.2, a.2, a.1), (a.2, a.2, a.2), (a.1, a.2, a.2)]

/-- The products of a node of a run. -/
def State.products (s : State) (g : Graph) (r : Run) (x : GNode) : List (Nat × Nat × Nat) :=
  let a := match x.edge 0 with
    | some e => shapeOf ((g.node e.prod).bind (fun (p : GNode) => s.domain g p.domain))
    | none => (0, 0)
  mmProducts (r.block x) x.kernel x.transA a (shapeOf (s.domain g x.domain))

/-- Elements on a side of a tile: 128, or q in batched mode. -/
def Run.side (r : Run) (x : GNode) : Nat := if r.block x = 0 then 128 else r.block x

/-- The die that holds the band of tile row `i` (R207). -/
def State.tileDie (s : State) (t : Tensor) (side i : Nat) : Nat := s.bandDie t (i * side / 128)

/-- The tiles of a product, ascending row then column. -/
def tilesOf (side : Nat) (p : Nat × Nat × Nat) : List (Nat × Nat) :=
  (List.range (p.1 / side)).flatMap (fun i => (List.range (p.2.1 / side)).map (fun j => (i, j)))

/-- Where an MM node of a run stands. -/
def Run.product (r : Run) (node : Nat) : Product := r.products.getD node {}

/-- The die at which a die's tiles are issued (R208): itself, or the next in service that has an array. -/
def State.redirect (s : State) (q : Nat) : Option Nat :=
  let d := s.quires
  let k := d.idxOf q
  (d.drop k ++ d.take k).find? (fun e => !(s.arraysOf e).isEmpty)

/-- The first tile of a graph's MM nodes whose band lies at die `q` and that has not been issued. -/
def State.tileOf (s : State) (slot : Nat) (g : Graph) (q : Nat) : Option Tile :=
  match g.run with
  | none => none
  | some r => (withIdx g.nodes 0).findSome? (fun (y : Nat × GNode) =>
      let (node, x) := y
      if x.kind ≠ 5 ∨ !r.issued.contains (node, q) ∨ r.done.contains (node, q) then none
      else match s.domain g x.domain with
        | none => none
        | some t =>
          let p := r.product node
          ((tilesOf (r.side x) ((s.products g r x).getD p.prod (0, 0, 0))).find? (fun ij =>
            s.tileDie t (r.side x) ij.1 == q && !p.issued.contains ij)).map
              (fun ij => { slot := slot, node := node, prod := p.prod, i := ij.1, j := ij.2 }))

/-- The next tile whose band lies at die `q`; graphs alternate in ascending slot after the last (R207). -/
def State.tileAt (s : State) (q last : Nat) : Option Tile :=
  let after := s.graphs.slots.filter (fun (x : Nat × Graph) => decide (last < x.1))
  let upto := s.graphs.slots.filter (fun (x : Nat × Graph) => decide (x.1 ≤ last))
  (after ++ upto).findSome? (fun (x : Nat × Graph) => s.tileOf x.1 x.2 q)

/-- The next tile for the arrays of a die: its own, then those of dies without an array that come to it (R208). -/
def State.nextTile (s : State) (q : Nat) : Option Tile :=
  let last := s.graphs.lastSlot.getD q 63
  match s.tileAt q last with
  | some x => some x
  | none => (s.quires.filter (fun e => e != q && s.redirect e == some q)).findSome? (fun e => s.tileAt e last)

/-- The progress of a node changed. -/
def State.modProduct (s : State) (slot node : Nat) (f : Product → Product) : State :=
  s.modRun slot (fun (r : Run) => { r with products := r.products.set node (f (r.product node)) })

/-- COLD_STATE's bit of an array. -/
def State.coldBit (s : State) (j : Nat) (on : Bool) : State :=
  let v := s.rd E.coldState (j / 4)
  if bit v (j % 4) = on then s
  else s.wr E.coldState (j / 4) (if on then v + 2 ^ (j % 4) else v - 2 ^ (j % 4))

/-- The inner dimension and side of a tile's product. -/
def State.tileInner (s : State) (x : Tile) : Nat × Nat :=
  match s.graphs.slots.get? x.slot with
  | some g => match g.run, g.node x.node with
    | some r, some n => (((s.products g r n).getD x.prod (0, 0, 0)).2.2, r.side n)
    | _, _ => (0, 128)
  | none => (0, 128)

/-- Both operands of a tile's product are one matrix: those of a GRAM node, and the first two products of an NS_STEP. -/
def State.oneOperand (s : State) (x : Tile) : Bool :=
  match (s.graphs.slots.get? x.slot).bind (fun (g : Graph) => g.node x.node) with
  | some n => n.kernel == 1 || (n.kernel == 2 && decide (x.prod < 2))
  | none => false

/-- The stationary operand of a tile is shared with another: the columns of op(B), or where both operands are one matrix the rows
of op(A), applied transposed (R203, R204; log 72). -/
def State.shares (s : State) (x y : Tile) : Bool :=
  (x.slot, x.node, x.prod) == (y.slot, y.node, y.prod) && (x.j == y.j || (x.i == y.i && s.oneOperand x))

/-- The tile in line for an array: one put ahead of its next, else the next of its die. -/
def State.inLine (s : State) (j : Nat) : Option Tile :=
  match (s.array j).ahead with
  | x :: _ => some x
  | [] => s.nextTile (j / 4)

/-- The dataflow of a tile (R203 Table 3): 1 output-stationary with K of 512 or more, unless its stationary operand is shared
with the tile in line for the array; else 2 weight-stationary. -/
def State.dataflowOf (s : State) (j : Nat) (x : Tile) : Nat :=
  let shared : Bool := match s.inLine j with
    | some y => s.shares x y
    | none => false
  if (s.tileInner x).1 < 512 ∨ shared then 2 else 1

/-- A tile begins on an array, recomputed where it mismatched on another; a stopped array starts (R203, R213, R215). -/
def State.startTile (s : State) (j : Nat) (x : Tile) : State :=
  let a := s.array j
  let s := s.setArray j { a with tiles := a.tiles ++ [x], ahead := a.ahead.filter (fun y => y != x), last := s.now }
  let s := if s.rd E.arrayState j = 0 then ((s.wr E.arrayState j 1).bump E.starts j 1).coldBit j true else s
  let s := if x.miss = 0 then s else s.bump E.recomputes_8840 0 1
  s.wr E.arrayDataflow j (s.dataflowOf j x)

/-- The array has room for one more tile: none is on it, or a packed block of the same product is and a sub-array is free
(R210). -/
def State.tileRoom (s : State) (j : Nat) (x : Tile) : Bool :=
  match (s.array j).tiles with
  | [] => true
  | y :: r =>
    let side := (s.tileInner x).2
    (y.slot, y.node, y.prod) == (x.slot, x.node, x.prod) && decide (r.length + 1 < (128 / side) * (128 / side))

/-- What a node's computation met is counted and told (R199, R202). -/
def State.seen (s : State) (slot node : Nat) (v : MmSeen) : State :=
  match s.graphs.slots.get? slot with
  | some g => match g.run with
    | some r =>
      let n := v.sat0 + v.sat1
      let s := s.bump E.operandSaturated 0 n
      let s := if 0 < n ∧ r.satNodes = [] then
        s.raise 0x8818 1 31 [.v 32 g.id, .v 8 r.inst, .v 16 node, .v 16 (if 0 < v.sat0 then 0 else 1)] else s
      let s := if 0 < n ∧ !r.satNodes.contains node then s.modRun slot (fun (q : Run) => { q with satNodes := q.satNodes ++ [node] }) else s
      if v.flushed ∧ !r.flushTold then
        let s := s.modRun slot (fun (q : Run) => { q with flushTold := true })
        (s.wr E.flushSeen slot 1).raise 0x8815 0 31 [.v 32 g.id, .v 8 r.inst, .v 16 node]
      else s
    | none => s
  | none => s

/-- What a product of an MM node meets (R199-R202). -/
def State.productSeen (s : State) (g : Graph) (r : Run) (x : GNode) (prod : Nat) : MmSeen :=
  let md := x.mmMode r.flush
  let q := r.block x
  let one := fun (p : MmProblem) => (md.run (p.call (md.first p prod).1 prod)).2
  match s.mmProblem g r x with
  | none => {}
  | some p =>
    if q = 0 then one p
    else (List.range (p.sa.1 / q)).foldl (fun a i => (List.range (p.sa.2 / q)).foldl (fun (a : MmSeen) j => a.plus (one (p.at q i j))) a) {}

/-- As the first tile of a product is issued, what the product meets is counted and told, once (log 72). -/
def State.noteProduct (s : State) (x : Tile) : State :=
  match s.graphs.slots.get? x.slot with
  | some g => match g.run, g.node x.node with
    | some r, some n =>
      if (r.product x.node).told then s
      else (s.seen x.slot x.node (s.productSeen g r n x.prod)).modProduct x.slot x.node (fun (p : Product) => { p with told := true })
    | _, _ => s
  | none => s

/-- TILE_ISSUE: an array takes the tile put ahead of its next, or the next tile of its die (R207, R208, R213). -/
def execTileIssue (t : Time) (array : Nat) (s : State) : Host.Outcome State Fault Refusal :=
  let s := s.begin t
  let q := array / 4
  .next (if 40 ≤ array ∨ !s.arrayUp array ∨ s.rd E.throttled q ≠ 0 then s
    else match (s.array array).ahead with
      | x :: _ => if s.tileRoom array x then s.startTile array x else s
      | [] => match s.nextTile q with
        | some x =>
          if s.tileRoom array x then
            let s := (s.noteProduct x).modProduct x.slot x.node (fun (p : Product) => { p with issued := p.issued ++ [(x.i, x.j)] })
            let s := { s with graphs := { s.graphs with lastSlot := s.graphs.lastSlot.set q x.slot } }
            s.startTile array x
          else s
        | none => s)

/-! ### Faults and retirement (R208, R213, R214) -/

/-- Every issued MM task faults with NO_ARRAYS when no array is left (R208). -/
def State.failNoArrays (s : State) : State :=
  if s.arraysIn ≠ 0 then s
  else s.graphs.slots.foldl (fun (s : State) (y : Nat × Graph) => match y.2.run with
    | some r => match r.issued.find? (fun (k : Nat × Nat) => !r.done.contains k && (match y.2.node k.1 with
        | some x => x.kind == 5
        | none => false)) with
      | some k => s.faultNode y.1 k.1 0x8817 (8 + k.2) [.v 16 k.1]
      | none => s
    | none => s) s

/-- A tile goes back as if never issued (R214). -/
def State.unissue (s : State) (x : Tile) : State :=
  s.modProduct x.slot x.node (fun (p : Product) =>
    if p.prod = x.prod then { p with issued := p.issued.filter (fun ij => ij != (x.i, x.j)) } else p)

/-- A tile put ahead of the next tile of the lowest array of its die, or of the die its tiles go to; tiles put ahead at one time take
the arrays in ascending order (R213 step 2, R208, R216 Table 7). -/
def State.putAhead (s : State) (q : Nat) (x : Tile) : State :=
  match s.redirect q with
  | some d =>
    let up := s.arraysOf d
    match (up.filter (fun j => (s.array j).put != some s.now)) ++ up with
    | j :: _ => let a := s.array j; s.setArray j { a with ahead := a.ahead ++ [x], put := some s.now }
    | [] => s
  | none => s

/-- An array's tiles leave it: those in flight go back as if never issued, those put ahead to the next array. -/
def State.clearArray (s : State) (j : Nat) : State :=
  let a := s.array j
  let s := s.setArray j { a with tiles := [], ahead := [] }
  let s := a.tiles.foldl (fun (s : State) x => s.unissue x) s
  (a.ahead.foldl (fun (s : State) x => s.putAhead (j / 4) x) s).wr E.arrayDataflow j 0

/-- An array retired (R214). -/
def State.retireArray (s : State) (j : Nat) : State :=
  let s := (s.wr E.arrayState j 2).coldBit j false
  let s := s.clearArray j
  ((s.raise 0x8812 2 (8 + j / 4) [.v 16 j, .v 32 s.arraysIn]).publishCapacity).failNoArrays

/-! ### Tiles completed (R199-R202, R211-R214) -/

/-- The stripes of a WHOLE tensor whose band lies at a die. -/
def State.stripesAt (s : State) (t : Tensor) (q : Nat) : List Nat := (List.range t.count).filter (fun k => s.bandDie t (t.band k) == q)

/-- An MM task completes at a die: its stripes are recorded, or a value that is not finite faults (R200). -/
def State.mmTaskDone (s : State) (slot node q : Nat) : State :=
  match s.graphs.slots.get? slot with
  | some g => match g.run, g.node node with
    | some r, some x => match s.domain g x.domain with
      | some t =>
        let (m, _) := s.mmResult g r x
        let acc := (x.mmMode r.flush).acc
        let st := m.stripes acc
        let ks := s.stripesAt t q
        let s := s.touchEngine q
        match ks.find? (fun k => (st.getD k []).any (notFinite acc)) with
        | some k => s.faultNode slot node 0x8005 (8 + q) [.v 16 node, .v 32 k]
        | none => s.modRun slot (fun (y : Run) => { y with
            outs := ks.foldl (fun (o : Tab (List Nat)) k => o.set (outKey node 0 k) (st.getD k [])) y.outs
            done := y.done ++ [(node, q)] })
      | none => s
    | _, _ => s
  | none => s

/-- After a tile has passed: a die whose tiles of the last product have all passed has its task done; a product whose
tiles have all passed gives way to the next (R207). -/
def State.advance (s : State) (x : Tile) (q : Nat) : State :=
  match s.graphs.slots.get? x.slot with
  | some g => match g.run, g.node x.node with
    | some r, some n => match s.domain g n.domain with
      | some t =>
        let ps := s.products g r n
        let p := r.product x.node
        let all := tilesOf (r.side n) (ps.getD p.prod (0, 0, 0))
        if p.prod + 1 < ps.length then
          if all.all (fun ij => p.passed.contains ij) then
            s.modProduct x.slot x.node (fun (y : Product) => { prod := y.prod + 1 })
          else s
        else if (all.filter (fun ij => s.tileDie t (r.side n) ij.1 == q)).all (fun ij => p.passed.contains ij) then
          s.mmTaskDone x.slot x.node q
        else s
      | none => s
    | _, _ => s
  | none => s

/-- The die of a tile's band. -/
def State.dieOfTile (s : State) (x : Tile) : Nat :=
  match s.graphs.slots.get? x.slot with
  | some g => match g.run, g.node x.node with
    | some r, some n => match s.domain g n.domain with
      | some t => s.tileDie t (r.side n) x.i
      | none => 0
    | _, _ => 0
  | none => 0

/-- A tile passes its checks. -/
def State.passTile (s : State) (j : Nat) (x : Tile) : State :=
  let s := (s.bump E.tiles j 1).countFixed (8 * (8 + j / 4) + 3) 1
  let s := s.modProduct x.slot x.node (fun (p : Product) => { p with passed := p.passed ++ [(x.i, x.j)] })
  s.advance x (s.dieOfTile x)

/-- A tile's mismatch counted and told (R211-R213). -/
def State.tellMismatch (s : State) (j : Nat) (x : Tile) (epi : Bool) (line : Nat) : State :=
  match s.graphs.slots.get? x.slot with
  | some g =>
    let inst := match g.run with
      | some r => r.inst
      | none => 0
    let s := ((s.bump E.abftMismatch j 1).countEvent (8 * (8 + j / 4) + 3) 0x72 j 0 1).raise 0x8811 1 (8 + j / 4)
      [.v 32 g.id, .v 8 inst, .v 16 j, .v 16 x.node, .v 16 x.i, .v 16 x.j, .v 16 line]
    if epi then (s.bump E.epilogueMismatch 0 1).raise 0x8816 2 (8 + j / 4)
      [.v 32 g.id, .v 8 inst, .v 16 j, .v 16 x.node, .v 16 x.i, .v 16 x.j] else s
  | none => s

/-- A tile taken off an array. -/
def State.takeOff (s : State) (j : Nat) (x : Tile) : State :=
  let a := s.array j
  let rest := a.tiles.filter (fun y => y != x)
  let s := s.setArray j { a with tiles := rest, last := s.now }
  if rest.isEmpty then s.wr E.arrayDataflow j 0 else s

/-- What follows a tile's mismatch (R213): a recomputation on the array, its retirement and a recomputation on another, or
an unresolved tile; and the retirement of an array at its second mismatch within ABFT_WINDOW. -/
def State.tileMismatch (s : State) (j : Nat) (x : Tile) : State :=
  let a := s.array j
  let again : Bool := match a.first with
    | some f => decide (s.now ≤ f + s.rd E.abftWindow 0)
    | none => false
  let s := if again then s else s.setArray j { a with first := some s.now }
  match x.miss with
  | 0 =>
    if again then s.retireArray j
    else
      let a := s.array j
      (s.setArray j { a with tiles := a.tiles.map (fun y => if y = x then { y with miss := 1, tried := j } else y), last := s.now }).bump
        E.recomputes_8840 0 1
  | 1 =>
    let s := (s.takeOff j x).retireArray j
    if s.arraysIn = 0 then s
    else s.putAhead (s.dieOfTile x) { x with miss := 2 }
  | _ =>
    let s := (s.takeOff j x).bump E.unresolved_8840 0 1
    let s := s.faultNode x.slot x.node 0x8814 (8 + j / 4) [.v 16 x.node, .v 16 x.i, .v 16 x.j, .v 16 x.tried, .v 16 j]
    if again then s.retireArray j else s

/-- TILE_COMPLETE: a tile's last K-tile has streamed.  `wrong` gives the accumulators that a fault left with other contents
(R211), `epi` says that the two epilogue units differ (R212), `line` in which row, `stalls` how many cycles the array
stalled. -/
def execTileComplete (t : Time) (array i j : Nat) (wrong : List (Nat × Nat × Nat)) (epi : Bool) (line stalls : Nat) (s : State) :
    Host.Outcome State Fault Refusal :=
  let s := s.begin t
  .next (match (s.array array).tiles.find? (fun (y : Tile) => y.i == i && y.j == j) with
    | none => s
    | some x =>
      let s := s.bump E.feederStalls array stalls
      match s.abftFails x wrong with
      | some k => ((s.tellMismatch array x epi k).tileMismatch array x).noteEligible
      | none =>
        if epi then ((s.tellMismatch array x epi line).tileMismatch array x).noteEligible
        else ((s.takeOff array x).passTile array x).noteEligible)

/-- ARRAY_IDLE_STOP: an array for which no tile has been pending for 100 µs stops (R215). -/
def execArrayIdleStop (t : Time) (array : Nat) (s : State) : Host.Outcome State Fault Refusal :=
  let s := s.begin t
  let a := s.array array
  .next (if s.rd E.arrayState array = 1 ∧ a.tiles.isEmpty ∧ a.ahead.isEmpty ∧ a.last + 100 * us ≤ t ∧ (s.nextTile (array / 4)).isNone then
      (s.wr E.arrayState array 0).coldBit array false
    else s)

end Sys2Proof.Machine
end

