-- ==== Sys2Proof/Machine/GraphOps.lean ====
section
/-!
DEFINITION. The update-graph commands (spec/06): tensors and images written, runs started, tasks issued and completed,
exchanges, fence reports and publish frames received (R167-R196), and the subnormal mode (spec/07 R201).
-/
namespace Sys2Proof.Machine

/-! ### Who may write (R64, R490) -/

/-- A request is open to a job: it is not confined, or to that job. -/
def State.ownsJob (s : State) (a : Access) (job : Nat) : Bool :=
  match s.confined a.path with
  | some j => job == j
  | none => true

/-- An in-band submission comes from the leader of the job (R64); other paths are not asked. -/
def State.leads (s : State) (a : Access) (op : Nat) : Bool :=
  match a.path with
  | .inband job gen src => match s.jobs.get? job with
    | some j => j.state == .active && bits j.record.toNat 487 464 == src && jobOf op == job && j.gen == gen
    | none => false
  | _ => true

/-- A code of Table 4 with NOT_AUTHORISED in its place in the order. -/
def codeFor (code : Nat) (authorised : Bool) : Nat := if code = 1 then 1 else if !authorised then 2 else code

/-! ### Tensors (R167-R172) -/

/-- TENSOR_CREATE (R167, R168). -/
def execTensorCreate (a : Access) (record : BitVec 256) (s : State) : Host.Outcome State Fault Refusal :=
  let v := record.toNat
  let t := tensorOf v
  .next (s.writeOne a E.tensorCreate 0 32 0 (s.ownsJob a (jobOf t.op))
    (fun s => let code := codeFor (s.tensorCheck v) (s.leads a t.op)
      if code = 0 then .ok else .refused E.tensorStatus code)
    (fun s => (s.wr E.tensorStatus 0 0xFF).startLed 3 t.handle (toBytes 32 v) (s.hsetOf t.op) noGei (tensorPhase v)))

/-- The devices of a tensor's two-phase exchange. -/
def State.tensorDevices (s : State) (h : Nat) : List Nat :=
  match s.graphs.tensors.get? h with
  | some t => let l := s.hsetOf t.op; if l.isEmpty then [s.gei] else l
  | none => [s.gei]

/-- TENSOR_DESTROY (R168). -/
def execTensorDestroy (a : Access) (handle : Nat) (s : State) : Host.Outcome State Fault Refusal :=
  .next (s.writeOne a E.tensorDestroy 0 4 handle (s.ownsJob a (handle / 65536))
    (fun s => let code := s.destroyCode handle
      if code = 0 then .ok else .refused E.tensorStatus code)
    (fun s => (s.wr E.tensorStatus 0 0xFF).startLed 4 handle (toBytes 4 handle) (s.tensorDevices handle) noGei (destroyPhase handle)))

/-- The words of TENSOR_IO's data. -/
def ioValues (data : List Byte) : List Nat := (List.range 1024).map (fun i => field data (8 + 4 * i) 4)

/-- TENSOR_IO's rule: the stripe exists, is stored and is held here; a write meets no run and no value that is not finite
(R172, R182). -/
def ioRule (data : List Byte) (s : State) : Verdict :=
  let h := field data 0 4
  let k := field data 4 4
  match s.tensor? h with
  | none => .refused E.tensorStatus 0x04
  | some t =>
    let write := (data.drop 8).any (fun b => b != 0)
    if t.cls = 2 ∨ t.count ≤ k ∨ s.holderOf t k ≠ s.gei then .refused E.tensorStatus 0x04
    else if write ∧ s.tensorBusy h then .refused E.tensorStatus 0x0C
    else if write ∧ (ioValues data).any (notFinite fp32) then .refused E.tensorStatus 0x04
    else .ok

/-- TENSOR_IO: a write of a stripe of the committed copy, or with zero data the choice of the stripe a read returns
(R172). -/
def execTensorIo (a : Access) (data : List Byte) (s : State) : Host.Outcome State Fault Refusal :=
  let h := field data 0 4
  let k := field data 4 4
  .next (s.writeOne a E.tensorIo 0 data.length 0 (s.ownsJob a (h / 65536)) (ioRule data)
    (fun s =>
      let s := (s.wr E.tensorStatus 0 0).wr E.tensorIo 0 (h * 2 ^ 32 + k)
      match s.tensor? h with
      | some t =>
        if (data.drop 8).any (fun b => b != 0) then
          let lost := (t.stripe k).lost
          let s := s.writeStripe t k (ioValues data)
          if lost then s.markInexact h else s
        else s
      | none => s))

/-- The answer of TENSOR_QUERY. -/
def tensorAnswer (v : Nat) (s : State) : Nat :=
  let h := bits v 127 96
  match s.tensor? h with
  | some t => pack [(32, h), (32, t.version), (8, 0), (24, if t.cls = 1 then s.ownerOf t else noGei), (32, (s.heldStripes t).length)]
  | none => pack [(32, h), (32, 0), (8, 0), (24, noGei), (32, 0)]

/-- TENSOR_QUERY (R170): the record is held; a read gives the answer of that moment. -/
def execTensorQuery (a : Access) (record : BitVec 128) (s : State) : Host.Outcome State Fault Refusal :=
  .next (s.writeOne a E.tensorQuery 0 16 0 (s.ownsJob a (bits record.toNat 127 112)) (fun _ => .ok)
    (fun s => s.wr E.tensorQuery 0 (2 ^ 128 + record.toNat)))

/-! ### Images (R173, R174) -/

/-- The job an image is written for. -/
def State.imageJob (s : State) (a : Access) : Nat :=
  match s.confined a.path with
  | some j => j
  | none => s.rd E.graphJobTag 0

/-- Bytes of a list replaced from an offset; what lies between is zero. -/
def overlay (l : List Byte) (off : Nat) (d : List Byte) : List Byte :=
  l.take off ++ List.replicate (off - l.length) 0 ++ d ++ l.drop (off + d.length)

/-- GRAPH_STAGE: a segment of an image (R173). -/
def execGraphStage (a : Access) (data : List Byte) (s : State) : Host.Outcome State Fault Refusal :=
  let off := field data 0 4
  let len := field data 4 4
  let fits := data.length == 8 + len
  .next (s.writeOne a E.graphStage 0 (if fits then data.length else 0) 0 (s.ownsJob a (s.imageJob a))
    (fun _ => if len = 0 ∨ 4096 < len ∨ 1115680 < off + len then .range else .ok)
    (fun s => { s with graphs := { s.graphs with stage := overlay s.graphs.stage off (data.drop 8) } }))

/-- The code of an image committed here: Table 4 in its order. -/
def State.commitCode (s : State) (a : Access) (len : Nat) : Nat :=
  let b := s.graphs.stage.take len
  let op := bits (imageOf b).head 223 192
  if s.graphs.stage.length < len then 0x01
  else
    let code := codeFor (s.imageCheck b) (s.leads a op)
    if (code = 0 ∨ 3 < code) ∧ jobOf op ≠ s.imageJob a then 0x03 else code

/-- GRAPH_COMMIT: the staged image is submitted (R173, R174). -/
def execGraphCommit (a : Access) (len : Nat) (s : State) : Host.Outcome State Fault Refusal :=
  .next (s.writeWith a E.graphCommit 0 4 len (s.ownsJob a (s.imageJob a))
    (fun s => let code := s.commitCode a len
      if code = 0 then .ok else .refused E.graphStatus code)
    (fun s => s.reportGraph (imageOf (s.graphs.stage.take len)).id (s.rd E.graphStatus 0) s.gei)
    (fun s =>
      let b := s.graphs.stage.take len
      (s.wr E.graphStatus 0 0xFF).startLed 5 (imageOf b).id b (s.hsetOf (bits (imageOf b).head 223 192)) noGei (graphPhase b)))

/-! ### Control (R193, R201) -/

/-- A control of a graph names a resident graph. -/
def residentRule (id : Nat) (s : State) : Verdict := if (s.resident id).isSome then .ok else .refused 0 0

/-- A rebuild of a graph's state is running here (R438, R441). -/
def State.rebuilding (s : State) (id : Nat) : Bool :=
  match s.graphs.rebuild with
  | some r => r.job == id / 65536 && (match s.graphs.parity.get? (r.job * 256 + r.group) with
    | some p => p.graph == id % 65536
    | none => false)
  | none => false

/-- GRAPH_RESUME: GRAPH_CONTROL command 1 lets the next run of a halted graph start (R193). -/
def execGraphResume (a : Access) (id : Nat) (s : State) : Host.Outcome State Fault Refusal :=
  .next (s.writeOne a E.graphControl 0 8 0 (s.ownsJob a (id / 65536))
    (fun s => if s.rebuilding id then .refused E.graphStatus 0x0C else residentRule id s)
    (fun s => match s.resident id with
      | some (n, g) => if g.state = gsHalted then (s.setGraph n { g with state := gsWaiting }).passSkipped 256 n else s
      | none => s))

/-- Every held result of an operation freed (R178: the graph is removed). -/
def State.freeOpHeld (s : State) (op : Nat) : State :=
  match s.ctxOf op with
  | some c => match s.coll.ctxs.get? c with
    | some x => x.insts.foldl (fun (s : State) (i : Inst) => s.freeAllHeld op i.num) s
    | none => s
  | none => s

/-- A graph removed at this device: a run in progress aborts, its held results are freed, its slot is emptied (R193). -/
def State.removeGraph (s : State) (id cause : Nat) : State :=
  match s.graphOf id with
  | none => s
  | some (n, g) =>
    let s := if g.run.isSome then s.stopRun n cause 0 false else s
    (s.freeOpHeld g.op).dropGraph n

/-- The two phases of a graph's removal; how a removed run's abort names its cause is open (log 67): a free value. -/
def removePhase (id : Nat) : Phase :=
  ⟨fun s => (if (s.resident id).isSome then 0 else 0x04, s), fun s => let (c, s) := s.free; s.removeGraph id (c % 256),
   fun s => s, fun _ _ s => s, 0x08, false⟩

/-- The devices of a graph's two-phase exchange. -/
def State.graphDevices (s : State) (id : Nat) : List Nat :=
  match s.graphOf id with
  | some (_, g) => let l := s.hsetOf g.op; if l.isEmpty then [s.gei] else l
  | none => [s.gei]

/-- GRAPH_REMOVE: GRAPH_CONTROL command 2 removes a graph at every device (R193). -/
def execGraphRemove (a : Access) (id : Nat) (s : State) : Host.Outcome State Fault Refusal :=
  .next (s.writeOne a E.graphControl 0 8 0 (s.ownsJob a (id / 65536)) (residentRule id)
    (fun s => s.startLed 6 id (toBytes 4 id ++ toBytes 4 2) (s.graphDevices id) noGei (removePhase id)))

/-- CONST_WRITE: a graph's constants from its next run on (R184). -/
def execConstWrite (a : Access) (data : List Byte) (s : State) : Host.Outcome State Fault Refusal :=
  let id := field data 0 4
  .next (s.writeOne a E.constWrite 0 data.length 0 (s.ownsJob a (id / 65536)) (residentRule id)
    (fun s => match s.resident id with
      | some (n, _) => s.modGraph n (fun (g : Graph) => { g with constsNext := (List.range 256).map (fun i => field data (4 + 4 * i) 4) })
      | none => s))

/-- The two phases of a subnormal mode. -/
def subnormalPhase (id : Nat) (flush : Bool) : Phase :=
  ⟨fun s => (if (s.resident id).isSome then 0 else 0x04, s),
   fun s => match s.resident id with
     | some (n, _) => s.modGraph n (fun (g : Graph) => { g with subNext := flush })
     | none => s,
   fun s => s, fun _ _ s => s, 0x08, false⟩

/-- SUBNORMAL_SET: a graph's subnormal mode from its next run on, at every device (R201). -/
def execSubnormalSet (a : Access) (record : BitVec 64) (s : State) : Host.Outcome State Fault Refusal :=
  let v := record.toNat
  let id := v / 2 ^ 32
  .next (s.writeOne a E.subnormalSet 0 8 0 (s.ownsJob a (id / 65536))
    (fun s => if 1 < bits v 7 0 then .refused 0 0 else residentRule id s)
    (fun s => s.startLed 7 id (toBytes 8 v) (s.graphDevices id) noGei (subnormalPhase id (bit v 0))))

/-- The answer of NODE_QUERY: a state of four bits per quire die, tasks done at this device. -/
def nodeAnswer (v : Nat) (s : State) : Nat :=
  let slot := bits v 127 122
  let i := bits v 121 108
  match s.graphs.slots.get? slot with
  | some g =>
    let states := (List.range 10).foldl (fun a q => a + s.nodeState g i q * 2 ^ (4 * q)) 0
    let done := match g.run with
      | some r => (r.done.filter (fun (x : Nat × Nat) => x.1 == i)).length
      | none => 0
    pack [(6, slot), (14, i), (28, 0), (40, states), (8, 0), (32, done)]
  | none => pack [(6, slot), (14, i), (108, 0)]

/-- NODE_QUERY (R179): the record is held; a read gives the answer of that moment. -/
def execNodeQuery (a : Access) (record : BitVec 128) (s : State) : Host.Outcome State Fault Refusal :=
  let job := match s.graphs.slots.get? (bits record.toNat 127 122) with
    | some g => g.id / 65536
    | none => 0
  .next (s.writeOne a E.nodeQuery 0 16 0 (s.ownsJob a job) (fun _ => .ok)
    (fun s => s.wr E.nodeQuery 0 (2 ^ 128 + record.toNat)))

/-! ### Runs (R175-R180) -/

/-- The instance of the next run is open, or has completed, here (R74, R175). -/
def State.runnable (s : State) (g : Graph) : Bool :=
  match s.instOf g.op g.next with
  | some (_, i) => i.state != .aborted
  | none => false

/-- RUN_START: the next run of a graph begins (R175); it aborts at once where a FAIL for it is held (R189). -/
def execRunStart (t : Time) (slot : Nat) (s : State) : Host.Outcome State Fault Refusal :=
  let s := s.begin t
  .next (match s.graphs.slots.get? slot with
    | none => s
    | some g =>
      if g.state = gsWaiting ∧ g.run.isNone ∧ !g.migrating ∧ s.power.brace.isNone ∧ !s.quires.isEmpty ∧ s.runnable g then
        let r : Run := { inst := g.next, flush := g.subNext, consts := g.constsNext }
        let s := s.setGraph slot { g with state := gsRunning, run := some r }
        ((s.wr E.subnormalMode slot (b2n g.subNext)).tryCommit slot).noteEligible
      else s)

/-- STRIPE_OPEN: a stripe opens in a stage at a die: the first of those eligible there, once B(s) buffers are free (R176, R177). -/
def execStripeOpen (t : Time) (slot die stage group stripe : Nat) (s : State) : Host.Outcome State Fault Refusal :=
  let s := (s.begin t).noteEligible
  .next (match s.graphs.slots.get? slot with
    | none => s
    | some g =>
      if s.nextEligible die = some (slot, die, stage, group, stripe) ∧ stageBuffers (s.checkedOf g) stage ≤ s.buffersFree die then
        (s.modRun slot (fun (q : Run) => { q with opened := q.opened ++ [(die, stage, group, stripe)] })).noteEligible
      else s)

/-- An MM task issued: it faults when its batched shapes differ or no array is left (R198, R208). -/
def State.issueMm (s : State) (slot node die : Nat) (g : Graph) (r : Run) (x : GNode) : State :=
  let c := s.checkedOf g
  let sh := fun (j : Nat) => shapeOf ((x.edge j).bind (fun (e : GEdge) => c.dom e.prod))
  let cc := if (x.edge 2).isSome then some (sh 2) else none
  let q := r.block x
  let ok := if q ≠ 0 then batchedShapes (sh 0) (sh 1) cc (shapeOf (c.dom node))
    else wholeShapes x.kernel x.transA x.transB (sh 0) (sh 1) cc (shapeOf (c.dom node))
  if !ok then s.faultNode slot node 0x8813 (8 + die) [.v 16 node, .v 32 q]
  else if s.arraysIn = 0 then s.faultNode slot node 0x8817 (8 + die) [.v 16 node]
  else s

/-- A STORE issued: the copy it is to write holds no version any more (R194 Table 9). -/
def State.issueStore (s : State) (g : Graph) (x : GNode) (k : Nat) : State :=
  match s.domain g x.domain with
  | some t => let y := t.stripe k; s.setTensor (t.putStripe k (y.putOther { y.other with ok := false }))
  | none => s

/-- TASK_ISSUE: a die issues the first ready task of a graph: one of its run, else of the publishing after its last commit
(R180). -/
def execTaskIssue (t : Time) (slot die : Nat) (s : State) : Host.Outcome State Fault Refusal :=
  let s := s.begin t
  .next (match s.graphs.slots.get? slot with
    | none => s
    | some g =>
      if s.rd E.throttled die ≠ 0 then s else
      let next := g.run.bind (fun (r : Run) => (s.nextTask g r die).map (fun k => (r, k)))
      match next with
      | some (r, k) =>
        let s := (s.modRun slot (fun (q : Run) => { q with issued := q.issued ++ [k] })).engineOn die
        (match g.node k.1 with
        | some x => if x.kind = 5 then s.issueMm slot k.1 die g r x else if x.kind = 3 then s.issueStore g x k.2 else s
        | none => s)
      | none => match g.pub with
        | some p => match s.nextPub g p die with
          | some k => (s.modGraph slot (fun (h : Graph) => { h with pub := some { p with issued := p.issued ++ [k] } })).engineOn die
          | none => s
        | none => s)

/-- A task of a run does what its node says (R181-R189). -/
def State.runTask (s : State) (slot node k : Nat) (g : Graph) (r : Run) (x : GNode) : State :=
  match x.kind, s.domain g x.domain with
  | 1, some t => (s.doReduceIn slot node k g r t).closeStripe slot node k
  | 2, some t => (s.doLoad slot node k t).closeStripe slot node k
  | 3, some t => (s.doStore slot node k g r x t).closeStripe slot node k
  | 4, some t => (s.doVec slot node k g r x t).closeStripe slot node k
  | 6, _ => s.doCollect slot node g r x
  | 7, _ => s.doFence slot node
  | _, _ => s

/-- TASK_COMPLETE: an issued task takes effect. -/
def execTaskComplete (t : Time) (slot node index : Nat) (s : State) : Host.Outcome State Fault Refusal :=
  let s := s.begin t
  .next (match s.graphs.slots.get? slot with
    | none => s
    | some g => match g.node node with
      | none => s
      | some x =>
        let die := match x.kind, s.domain g x.domain with
          | 6, _ => s.firstDie
          | 7, _ => s.firstDie
          | _, some d => s.stripeDie d index
          | _, none => s.firstDie
        let s := s.touchEngine die
        let told := (s.countFixed (8 * (8 + die) + 2) 1).countEvent (8 * (8 + die) + 2) 0x60 x.kind (g.id / 65536) 1
        if x.kind = 8 then
          match g.pub with
          | some p => if p.issued.contains (node, index) ∧ !p.done.contains (node, index) then told.doPublish slot node index g p x else s
          | none => s
        else
          match g.run with
          | some r => if r.issued.contains (node, index) ∧ !r.done.contains (node, index) then (told.runTask slot node index g r x).noteEligible else s
          | none => s)

/-- UPDATE_ENGINE_IDLE: an update engine with no task pending for 100 µs stops (R180). -/
def execUpdateEngineIdle (t : Time) (die : Nat) (s : State) : Host.Outcome State Fault Refusal :=
  let s := s.begin t
  .next (if bit (s.rd E.coldState die) 4 ∧ !s.pendingAt die ∧ s.graphs.engines.getD die 0 + 100 * us ≤ t then
      s.wr E.coldState die (s.rd E.coldState die - 16)
    else s)

/-! ### Exchanges and fence reports (R188, R189, R488) -/

/-- A COLLECT's value of another device kept, and the node tried (R188). -/
def State.takeCollect (s : State) (p : Peer) (kind : Nat) (body : List Byte) : State :=
  match s.peerAccept p 7 body (body.length == 33) with
  | (false, s) => s
  | (true, s) => match s.resident (field body 1 4) with
    | none => s
    | some (n, g) =>
      let inst := field body 5 1
      let node := field body 6 2
      let cur := match g.run with
        | some r => r.inst
        | none => g.next
      if !(s.hsetOf g.op).contains p.src ∨ 128 ≤ (inst + 256 - cur) % 256
          ∨ g.msgs.any (fun (m : GMsg) => m.src == p.src && m.inst == inst && m.node == node) then s
      else (s.modGraph n (fun (h : Graph) => { h with
        msgs := h.msgs ++ [⟨p.src, inst, node, kind, signed 192 (field body 9 24)⟩] })).tryCollect n node |>.noteEligible

/-- EXCHANGE_COLLECT_SUM (R188). -/
def execExchangeCollectSum (t : Time) (p : Peer) (body : List Byte) (s : State) : Host.Outcome State Fault Refusal :=
  let s := s.begin t
  .next (if field body 0 1 = 1 then s.takeCollect p 1 body else s)

/-- EXCHANGE_COLLECT_MAX (R188). -/
def execExchangeCollectMax (t : Time) (p : Peer) (body : List Byte) (s : State) : Host.Outcome State Fault Refusal :=
  let s := s.begin t
  .next (if field body 0 1 = 2 then s.takeCollect p 2 body else s)

/-- FENCE_REPORT: a device's report for a version is held, and the run commits or aborts by it (R189).  A report still owed
for a run that has already aborted here is taken for that run (log 68). -/
def execFenceReport (t : Time) (p : Peer) (body : List Byte) (s : State) : Host.Outcome State Fault Refusal :=
  let s := s.begin t
  .next (match s.peerAccept p 8 body (body.length == 12) with
    | (false, s) => s
    | (true, s) => match s.resident (field body 0 4) with
      | none => s
      | some (n, g) =>
        let ver := field body 4 4
        let ok := field body 8 1 == 0
        if !(s.graphPeers g).contains p.src ∨ ver ≤ g.version then s
        else if g.owed.contains p.src ∧ ver = g.version + 1 then
          s.modGraph n (fun (h : Graph) => { h with owed := h.owed.erase p.src })
        else (s.modGraph n (fun (h : Graph) => { h with
          reports := h.reports.filter (fun (x : Nat × Nat × Bool) => !(x.1 == p.src && x.2.1 == ver)) ++ [(p.src, ver, ok)] })).tryCommit n)

/-- FENCE_LIMIT_EXPIRY: not every report came by FENCE_LIMIT; FAIL goes to every device and the run aborts (R189). -/
def execFenceLimitExpiry (t : Time) (slot : Nat) (s : State) : Host.Outcome State Fault Refusal :=
  let s := s.begin t
  .next (match s.graphs.slots.get? slot with
    | none => s
    | some g => match g.run with
      | none => s
      | some r => match r.fenceAt with
        | none => s
        | some f =>
          if t < f + g.limit * ms then s
          else
            let missing := (s.graphPeers g).filter (fun d => !g.reports.any (fun (x : Nat × Nat × Bool) => x.1 == d && x.2.1 == g.version + 1))
            let s := ((s.sendFence g false).modRun slot (fun (q : Run) => { q with sent := true })).raise 0x8007 2 31 [.v 32 g.id, .v 8 r.inst, .v 32 missing.length]
            let (c, s) := s.free
            s.failRun slot (c % 256) 0)

/-! ### Publish frames received (R191, R192) -/

/-- The form of a publish frame that an Ovaron drops and counts (R191). -/
def pubMalformed (src : Nat) (body : List Byte) : Bool :=
  let h := field body 0 32
  decide (body.length < 32) || bits h 255 252 != 1 || decide (bits h 251 248 < 1) || decide (4 < bits h 251 248)
    || bits h 131 128 != 0 || bits h 71 64 != 0 || bits h 63 0 != crc64 (toBytes 3 src ++ body.take 24 ++ body.drop 32)

/-- The copy of a stripe that still holds a committed version. -/
def Tensor.copyAt (t : Tensor) (k ver : Nat) : Option Copy :=
  let x := t.stripe k
  if t.version < ver then none
  else if x.cur.ok ∧ x.cur.ver = ver then some x.cur
  else if x.cur.ok ∧ x.other.ok ∧ x.other.ver = ver then some x.other
  else none

/-- A RESEND answered: WEIGHTS to the requester alone, or STALE (R192). -/
def State.answerResend (s : State) (f : Cf) (h : Nat) : State :=
  let handle := bits h 247 216
  let ver := bits h 215 184
  let k := bits h 183 152
  let group := bits h 127 112
  let found := (s.graphs.slots.find? (fun (x : Nat × Graph) => x.2.names.contains handle && x.2.state != gsPrepared)).bind
    (fun (x : Nat × Graph) => match s.tensor? handle, x.2.groups[group]? with
      | some t, some (_, fmt) =>
        if t.cls = 2 ∨ t.count ≤ k ∨ s.holderOf t k ≠ s.gei ∨ x.2.id / 65536 ≠ f.job then none
        else (t.copyAt k ver).map (fun c => (x.2, t, fmt, c))
      | _, _ => none)
  match found with
  | some (g, t, fmt, c) =>
    (s.originate (s.pubFrame g false f.src (weightsBody s.gei t ver k fmt group true c))).bump E.pubFrames 0 1
  | none =>
    let id := match s.graphs.slots.find? (fun (x : Nat × Graph) => x.2.names.contains handle) with
      | some x => x.2.id
      | none => handle
    let s := s.originate ⟨{ ptype := 3, cclass := true, dest := f.src, src := s.gei, job := f.job, gen := f.gen }, [],
      pubBody s.gei 4 handle ver k 0 0 false group 0 0 []⟩
    (s.bump E.staleSent 0 1).raiseLim ms 0 0x8009 0 31 [.v 32 id, .v 32 handle, .v 32 ver]

/-- PUBLISH_RESEND: a publish frame reaches this device; a RESEND is answered (R191, R192). -/
def execPublishResend (t : Time) (f : Cf) (body : List Byte) (s : State) : Host.Outcome State Fault Refusal :=
  let s := s.begin t
  .next (if pubMalformed f.src body then s.bump E.pubMalformed 0 1
    else if bits (field body 0 32) 251 248 = 3 then s.answerResend f (field body 0 32) else s)

/-! ### Update transfer received (R178) -/

/-- UPDATE_HELD_RESULT: a result of another home is kept for the graph that reads it; h1 passes it to the owners (R178). -/
def execUpdateHeldResult (t : Time) (p : Peer) (body : List Byte) (s : State) : Host.Outcome State Fault Refusal :=
  let s := s.begin t
  let fmt := field body 1 1
  let op := field body 4 4
  let inst := field body 8 4
  let chunk := field body 12 4
  let n := elemBits fmt / 8
  .next (if field body 0 1 ≠ 0 then s
    else match s.peerAccept p 9 body (body.length == 16 + 1024 * n && n != 0 && !isMx fmt) with
      | (false, s) => s
      | (true, s) => match s.boundTo op with
        | none => s
        | some (_, g) =>
          let cur := match g.run with
            | some r => r.inst
            | none => g.next
          if !(s.hsetOf op).contains p.src ∨ 256 ≤ inst ∨ 128 ≤ (inst + 256 - cur) % 256 then s
          else
            let raws := (List.range 1024).map (fun i => field body (16 + n * i) n)
            let s := (s.keepGrad op inst chunk (raws.map (toLane fmt))).noteEligible
            if (homes op 0 chunk (s.hsetOf op)).1 = s.gei then s.passResult op inst chunk fmt raws else s)

/-- A resident graph names a multicast group in a replica-group entry (R273 Table 11). -/
def State.graphNames (s : State) (group : Nat) : Bool :=
  s.graphs.slots.any (fun (x : Nat × Graph) => x.2.state != gsPrepared && x.2.groups.any (fun g => g.1 == group))

/-- MCAST_WRITE (R262). -/
def execMcastWrite (a : Access) (data : List Byte) (s : State) : Host.Outcome State Fault Refusal :=
  .next (s.writeOne a E.mcastWrite 0 data.length 0 true (mcastRule State.graphNames data) (mcastAct data))

end Sys2Proof.Machine
end

