-- ==== Sys2Proof/Machine/Parity.lean ====
section
/-!
DEFINITION. Parity groups, newt rebuild and coarse rebuild (spec/15 R433-R439).
-/
namespace Sys2Proof.Machine

/-! ### The record and its admission (R433-R435) -/

/-- The group a 48-byte record spells (Table 5). -/
def parityOf (v : Nat) : Parity :=
  { job := bits v 383 368, group := bits v 367 360, graph := bits v 359 344, pgei := bits v 335 312,
    data := (List.range (bits v 343 340)).map (fun j => bits v (295 - 24 * j) (272 - 24 * j)) }

/-- The record is MALFORMED (Table 5). -/
def parityMalformed (v : Nat) : Bool :=
  let n := bits v 343 340
  decide (n < 2) || decide (8 < n) || bits v 339 336 != 0 || bits v 311 296 != 0 || bits v 103 0 != 0
    || (List.range 8).any (fun j => decide (n ≤ j) && bits v (295 - 24 * j) (272 - 24 * j) != 0)

/-- The graph a group protects, where it is resident here. -/
def State.graphFor (s : State) (p : Parity) : Option Graph := (s.resident (p.job * 65536 + p.graph)).map (·.2)

/-- The device belongs to the graph's home set and every data device does, the parity device does not, no GEI appears twice,
and no data device has a group of the graph (R433); the parity device holds no graph of its own to judge by. -/
def State.parityShape (s : State) (p : Parity) : Bool :=
  let twice := (p.pgei :: p.data).any (fun d => decide (1 < (p.pgei :: p.data).count d))
  let again := s.graphs.parity.any (fun (x : Nat × Parity) =>
    x.2.job == p.job && x.2.graph == p.graph && p.data.any (fun d => x.2.data.contains d))
  let fits : Bool := match s.graphFor p with
    | some g => let hs := s.hsetOf g.op; !hs.contains p.pgei && p.data.all (fun d => hs.contains d)
    | none => s.gei == p.pgei
  !twice && !again && fits

/-- A group held under a prepare (R433-R435).  The page count is the largest of the data devices': this device's own, and
for the others', which no message carries, a free value (log 11). -/
def State.holdParity (s : State) (v : Nat) : Nat × State :=
  let p := parityOf v
  let op := parityOp p.job p.group
  if !s.parityShape p then (0x05, s)
  else if (s.graphs.parity.get? (parityKey p.job p.group)).isSome ∨ s.coll.ctxs.any (fun (x : Nat × Ctx) => x.2.reg.op == op) then (0x0A, s)
  else if 64 ≤ s.graphs.parity.length ∨ overQuota (s.quota p.job 343 337) (s.jobParity p.job).length then (0x08, s)
  else
    let stream := match s.graphFor p with
      | some g => if p.data.contains s.gei then s.streamOf g else []
      | none => []
    let (f, s) := s.free
    let pages := max 1 (max (ceilDiv (s.streamLen stream) 4096) (f % 2 ^ 32))
    let p := { p with stream := stream, pages := pages }
    if p.pgei = s.gei ∧ s.stateFree < 2 * 4096 * pages then (0x08, s)
    else match s.holdOwn p.roundReg with
      | (0, s) => (0, s.setParity p)
      | r => r

/-- A group forgotten. -/
def State.dropParity (s : State) (key : Nat) : State :=
  { s with graphs := { s.graphs with parity := s.graphs.parity.del key } }

/-- A held group committed. -/
def State.commitParity (s : State) (v : Nat) : State :=
  let q := parityOf v
  match s.graphs.parity.get? (parityKey q.job q.group) with
  | some p => (s.setParity { p with admitted := true }).commitReg (parityOp p.job p.group)
  | none => s

/-- A held group released. -/
def State.releaseParity (s : State) (v : Nat) : State :=
  let q := parityOf v
  match s.graphs.parity.get? (parityKey q.job q.group) with
  | some p => if p.admitted then s else (s.releaseReg (parityOp p.job p.group)).dropParity (parityKey p.job p.group)
  | none => s

/-- The two phases of a group's admission. -/
def parityPhase (v : Nat) : Phase :=
  ⟨fun s => s.holdParity v, fun s => s.commitParity v, fun s => s.releaseParity v, fun code _ s => s.wr E.parityStatus 0 code, 0x08, true⟩

/-- PARITY_CREATE (R433), at a device the record names. -/
def execParityCreate (a : Access) (record : BitVec 384) (s : State) : Host.Outcome State Fault Refusal :=
  let v := record.toNat
  let p := parityOf v
  .next (s.writeOne a E.parityCreate 0 48 0 (s.ownsJob a p.job)
    (fun s =>
      let code := if parityMalformed v then 0x01
        else match s.graphFor p with
          | some g => if s.leads a g.op then (if (p.pgei :: p.data).contains s.gei then 0 else 0x05) else 0x02
          | none => if s.gei = p.pgei then 0 else 0x05
      if code = 0 then .ok else .refused E.parityStatus code)
    (fun s => (s.wr E.parityStatus 0 0xFF).startLed 8 (parityKey p.job p.group) (toBytes 48 v) (p.data ++ [p.pgei]) noGei (parityPhase v)))

/-! ### Deletion and query (R433, R437) -/

/-- A group removed at this device, with its parity operation. -/
def State.removeParity (s : State) (key : Nat) : State :=
  match s.graphs.parity.get? key with
  | some p =>
    let s := s.dropParity key
    match s.ctxOf (parityOp p.job p.group) with
    | some c => s.endOp c 0x07
    | none => s
  | none => s

/-- The two phases of a group's deletion. -/
def parityDropPhase (key : Nat) : Phase :=
  ⟨fun s => (if (s.graphs.parity.get? key).isSome then 0 else 0x04, s), fun s => s.removeParity key, fun s => s,
   fun code _ s => s.wr E.parityStatus 0 code, 0x08, false⟩

/-- PARITY_DELETE (R433); the record's last byte, which its map gives no use, is ignored (R9). -/
def execParityDelete (a : Access) (record : BitVec 32) (s : State) : Host.Outcome State Fault Refusal :=
  let v := record.toNat / 256 * 256
  let key := parityKey (bits v 31 16) (bits v 15 8)
  .next (s.writeOne a E.parityDelete 0 4 0 (s.ownsJob a (bits v 31 16))
    (fun s => if (s.graphs.parity.get? key).isNone then .refused E.parityStatus 0x04 else .ok)
    (fun s => match s.graphs.parity.get? key with
      | some p => (s.wr E.parityStatus 0 0xFF).startLed 9 key (toBytes 4 v) (p.data ++ [p.pgei]) noGei (parityDropPhase key)
      | none => s))

/-- The answer of PARITY_QUERY (R442 Table 10). -/
def parityAnswer (v : Nat) (s : State) : Nat :=
  let job := bits v 127 112
  let group := bits v 111 104
  match s.graphs.parity.get? (parityKey job group) with
  | some p =>
    if !p.admitted then pack [(16, job), (8, group), (104, 0)]
    else pack [(16, job), (8, group), (4, p.state + 1), (2, if p.pgei = s.gei then 2 else 1), (2, 0), (32, p.committed.getD 0),
      (32, p.pages), (4, if p.pgei = s.gei then 0 else p.data.idxOf s.gei), (28, 0)]
  | none => pack [(16, job), (8, group), (104, 0)]

/-- PARITY_QUERY (R437): the record is held; a read gives the answer of that moment. -/
def execParityQuery (a : Access) (record : BitVec 128) (s : State) : Host.Outcome State Fault Refusal :=
  .next (s.writeOne a E.parityQuery 0 16 0 (s.ownsJob a (bits record.toNat 127 112)) (fun _ => .ok)
    (fun s => s.wr E.parityQuery 0 (2 ^ 128 + record.toNat)))

/-! ### The round (R436) -/

/-- A group loses its protection (R436 step 4, R437). -/
def State.unprotect (s : State) (p : Parity) (ver : Nat) : State :=
  (s.setParity { p with state := 1 }).raise 0x900B 1 31 [.v 16 p.job, .v 16 p.group, .v 32 ver]

/-- The group of a PARITY message, where the message is accepted. -/
def State.parityMsg (s : State) (p : Peer) (body : List Byte) (kind : Nat) (act : State → Parity → Nat → State) : State :=
  if field body 0 1 ≠ kind then s
  else match s.peerAccept p 11 body (body.length == 8) with
    | (false, s) => s
    | (true, s) => match s.graphs.parity.get? (parityKey (field body 2 2) (field body 1 1)) with
      | some g => if g.admitted then act s g (field body 4 4) else s
      | none => s

/-- The graphs a group holds up try to report their fence. -/
def State.parityReport (s : State) (g : Parity) : State :=
  match s.resident (g.job * 65536 + g.graph) with
  | some (n, _) => s.tryReport n
  | none => s

/-- PARITY_DONE: the parity device has every page of the round (R436 steps 3 and 4). -/
def execParityDone (t : Time) (p : Peer) (body : List Byte) (s : State) : Host.Outcome State Fault Refusal :=
  .next ((s.begin t).parityMsg p body 0 (fun s g ver =>
    if p.src = g.pgei ∧ g.round = some ver ∧ g.state ≠ 2 then
      (s.setParity { g with doneFor := g.round }).parityReport g
    else s))

/-- PARITY_COMMITTED: the run committed; pending parity becomes committed (R436 step 5).  Parity of another version than the
run's leaves the group UNPROTECTED. -/
def execParityCommitted (t : Time) (p : Peer) (body : List Byte) (s : State) : Host.Outcome State Fault Refusal :=
  .next ((s.begin t).parityMsg p body 1 (fun s g ver =>
    if g.pgei ≠ s.gei ∨ !g.data.contains p.src ∨ g.told = some ver then s
    else if g.pending.isSome ∧ g.full then
      s.setParity { g with committed := some ver, cPages := g.pPages, pending := none, pPages := [], told := some ver,
                           state := if g.state = 2 then 2 else 0 }
    else if g.state = 2 then s.setParity { g with told := some ver }
    else s.unprotect { g with told := some ver, pending := none, pPages := [] } ver))

/-- PARITY_ABORTED: the run aborted; pending parity is discarded (R436 step 5). -/
def execParityAborted (t : Time) (p : Peer) (body : List Byte) (s : State) : Host.Outcome State Fault Refusal :=
  .next ((s.begin t).parityMsg p body 2 (fun s g _ =>
    if g.pgei = s.gei ∧ g.data.contains p.src then s.setParity { g with pending := none, pPages := [] } else s))

/-- PARITY_WAIT_EXPIRY: PARITY_WAIT has passed since the last STORE without PARITY_DONE (R436 step 4). -/
def execParityWaitExpiry (t : Time) (job group : Nat) (s : State) : Host.Outcome State Fault Refusal :=
  let s := s.begin t
  .next (match s.graphs.parity.get? (parityKey job group) with
    | some g => match g.round with
      | some ver =>
        if g.admitted ∧ g.state ≠ 2 ∧ g.doneFor ≠ some ver ∧ g.waived ≠ some ver ∧ g.storedAt + s.rd E.parityWait 0 ≤ t then
          (s.unprotect { g with waived := some ver } ver).parityReport g
        else s
      | none => s
    | none => s)

/-! ### Newt rebuild (R438) -/

/-- A rebuild's record: the group, the index and the version. -/
def rebuildRule (v : Nat) (versions halted : Bool) (s : State) : Verdict :=
  let g := s.graphs.parity.get? (parityKey (bits v 63 48) (bits v 47 40))
  let no := Verdict.refused E.rebuildStatus
  match g with
  | none => if 8 ≤ bits v 39 36 then no 0x01 else no 0x02
  | some p =>
    if p.data.length ≤ bits v 39 36 then no 0x01
    else if !p.admitted ∨ p.pgei ≠ s.gei ∨ p.committed ≠ some (bits v 31 0) then no 0x02
    else if !versions then no 0x03
    else
      let lost := p.data.getD (bits v 39 36) noGei
      let r := xorReg (rebuildOp p.job p.group) lost s.gei p.pages (s.gei :: p.data.filter (fun d => d != lost))
      if !halted ∨ s.graphs.rebuild.isSome ∨ (s.holdOwn r).1 ≠ 0 then no 0x04 else .ok

/-- The parity page of a group as bytes. -/
def Parity.page (p : Parity) (r : Nat) : List Byte :=
  let l := p.cPages.getD r []
  (l ++ List.replicate (4096 - l.length) 0).map (fun v => BitVec.ofNat 8 v)

/-- A rebuild starts: the second operation is registered here, its survivors are asked for their pages, and this device
contributes its own (R438; log 10). -/
def State.startRebuild (s : State) (p : Parity) (index ver : Nat) : State :=
  let op := rebuildOp p.job p.group
  let lost := p.data.getD index noGei
  let mem := s.gei :: p.data.filter (fun d => d != lost)
  let target := if s.anyLost [lost] then s.gei else lost
  let s := (s.holdOwn (xorReg op target s.gei p.pages mem)).2.commitReg op
  let s := { s with graphs := { s.graphs with
    rebuild := some { job := p.job, group := p.group, index := index, version := ver, target := target, count := p.pages } } }
  let s := ((s.wr E.rebuildStatus 0 0xFF).wr E.rebuildProgress 0 0).raise 0x900D 0 31 [.v 16 p.group, .v 16 index, .v 32 ver]
  let gen := s.jobGen p.job
  (List.range p.pages).foldl (fun (s : State) r =>
    let s := (mem.filter (fun d => d != s.gei)).foldl (fun (s : State) d =>
      s.sendColl p.job gen 3 d (ctlHeader 3 op 0 r 0 2 0 0 0 index 0 s.now)) s
    let b := pageBody s.gei op 0 r (rankAmong mem s.gei) 0 false (p.page r)
    s.takeContrib ⟨0, 0xFFFF, s.now, s.gei, p.job, gen⟩ (field b 0 48) (b.drop 48) false) s

/-- REBUILD_START (R438): `versions` says that every survivor holds V as its committed version, `halted` that the graph is
HALTED at every device; no message tells the parity device either (log 10). -/
def execRebuildStart (a : Access) (record : BitVec 64) (versions halted : Bool) (s : State) : Host.Outcome State Fault Refusal :=
  let v := record.toNat
  .next (s.writeOne a E.rebuildStart 0 8 0 (s.ownsJob a (bits v 63 48)) (rebuildRule v versions halted)
    (fun s => match s.graphs.parity.get? (parityKey (bits v 63 48) (bits v 47 40)) with
      | some p => s.startRebuild p (bits v 39 36) (bits v 31 0)
      | none => s))

/-- The rebuild under way ends here: its record and its operation go. -/
def State.endRebuild (s : State) (r : Rebuild) : State :=
  let s := { s with graphs := { s.graphs with rebuild := none } }
  match s.ctxOf (rebuildOp r.job r.group) with
  | some c => s.endOp c 0x07
  | none => s

/-- A survivor or the target was lost: nothing written counts as rebuilt (R438 Table 7). -/
def State.failRebuild (s : State) (r : Rebuild) : State :=
  ((s.wr E.rebuildStatus 0 0x05).raise 0x900F 2 31 [.v 16 r.group, .v 8 0x05]).endRebuild r

/-- Both copies of a stripe rebuilt at a version; it stops being LOST (R438). -/
def State.restoreStripe (s : State) (h k ver : Nat) (vals : List Nat) : State :=
  match s.tensor? h with
  | some t =>
    let c : Copy := { ver := ver, vals := vals.take (t.present k) }
    s.setTensor ({ t with version := ver }.putStripe k { c0 := c, c1 := c })
  | none => s

/-- The elements of a stripe in a stream. -/
def stripeVals (fmt : Nat) (b : List Byte) : List Nat :=
  let n := elemBits fmt / 8
  (List.range 1024).map (fun i => field b (n * i) n)

/-- The stripes of a rebuilt stream written here, or sent to their holders (R438). -/
def State.writeRebuilt (s : State) (ver : Nat) : List (Nat × Nat × Nat × Nat) → List Byte → State
  | [], _ => s
  | (h, k, fmt, d) :: r, b =>
    let n := 1024 * (elemBits fmt / 8)
    let vals := stripeVals fmt (b.take n)
    let s := if d = s.gei then s.restoreStripe h k ver vals else s.sendUpdate d 1 fmt h ver k vals
    s.writeRebuilt ver r (b.drop n)

/-- REBUILD_DONE: the rebuild ends at this device.  `layout` lists the stripes of the rebuilt stream in its order, each with
its tensor, index, format and holder, which no message tells the parity device (log 10). -/
def execRebuildDone (t : Time) (failed : Bool) (version : Nat) (layout : List (Nat × Nat × Nat × Nat)) (s : State) :
    Host.Outcome State Fault Refusal :=
  let s := s.begin t
  .next (match s.graphs.rebuild with
    | none => s
    | some r =>
      let here := r.count != 0
      let stream := (r.pages.map (fun (x : Nat × List Nat) => x.2.map (fun v => BitVec.ofNat 8 v))).flatten
      if failed then (if here then s.failRebuild r else s.endRebuild r)
      else if here then
        if r.pages.length < r.count then s
        else
          let s := if r.target = s.gei then s.writeRebuilt r.version layout stream else s
          ((s.wr E.rebuildStatus 0 0).raise 0x900E 0 31 [.v 16 r.group, .v 32 r.count]).endRebuild r
      else if stream.length < layout.foldl (fun n (x : Nat × Nat × Nat × Nat) => n + 1024 * (elemBits x.2.2.1 / 8)) 0 then s
      else (s.writeRebuilt version layout stream).endRebuild r)

/-- UPDATE_COMMITTED_STRIPE: a rebuilt stripe reaches its holder, which writes both copies (R438). -/
def execUpdateCommittedStripe (t : Time) (p : Peer) (body : List Byte) (s : State) : Host.Outcome State Fault Refusal :=
  let s := s.begin t
  let fmt := field body 1 1
  let h := field body 4 4
  let k := field body 12 4
  let n := elemBits fmt / 8
  .next (if field body 0 1 ≠ 1 then s
    else match s.peerAccept p 9 body (body.length == 16 + 1024 * n && n != 0 && !isMx fmt) with
      | (false, s) => s
      | (true, s) => match s.tensor? h with
        | some d => if d.fmt = fmt ∧ d.cls ≠ 2 ∧ k < d.count ∧ s.holderOf d k = s.gei ∧ !s.tensorBusy h then
            s.restoreStripe h k (field body 8 4) (stripeVals fmt (body.drop 16)) else s
        | none => s)

/-! ### Coarse rebuild (R439) -/

/-- The graph that stores a tensor is HALTED. -/
def State.haltedFor (s : State) (h : Nat) : Bool :=
  s.graphs.slots.any (fun (x : Nat × Graph) => x.2.id / 65536 == h / 65536 && x.2.stored.contains h && x.2.state == gsHalted)

/-- COARSE_FILL: the LOST stripes of a range that this device holds are filled with +0 (R439). -/
def execCoarseFill (a : Access) (record : BitVec 128) (s : State) : Host.Outcome State Fault Refusal :=
  let v := record.toNat
  let h := bits v 127 96
  let first := bits v 95 64
  let n := bits v 63 32
  .next (s.writeOne a E.coarseFill 0 16 0 (s.ownsJob a (h / 65536))
    (fun s => if (s.tensor? h).isNone ∨ !s.haltedFor h then .refused 0 0 else .ok)
    (fun s => match s.tensor? h with
      | some t =>
        let ks := (s.heldStripes t).filter (fun k => decide (first ≤ k) && decide (k < first + n) && (t.stripe k).lost)
        let z := fun (k : Nat) => ({ ver := t.version, vals := List.replicate (t.present k) 0 } : Copy)
        let s := s.setTensor (ks.foldl (fun (t : Tensor) k => t.putStripe k ((t.stripe k).putCur (z k))) t)
        if ks.isEmpty then s else s.markInexact h
      | none => s))

end Sys2Proof.Machine
end

