-- ==== Sys2Proof/Machine/JobBase.lean ====
section
/-!
DEFINITION. The quotas of jobs and the pending queue (spec/16 R446-R450).
-/
namespace Sys2Proof.Machine

/-- The quota fields of a start record (R446 Table 2), in the order of Table 5: contexts, slots, graphs, tensors, state GiB,
spawn GiB, multicast groups, spray groups, circuits, parity groups. -/
def quotaFields : List (Nat × Nat) :=
  [(463, 449), (448, 431), (430, 424), (423, 407), (406, 395), (394, 386), (385, 369), (368, 356), (355, 344), (343, 337)]

/-- The largest value of each quota field (Table 2). -/
def quotaMax : List Nat := [16384, 131072, 64, 65536, 1920, 256, 65536, 4096, 2048, 64]

/-- A record's quotas. -/
def quotasOf (v : Nat) : List Nat := quotaFields.map (fun x => bits v x.1 x.2)

/-- Values in the field positions of Table 2. -/
def quotaPack (tag : Nat) (l : List Nat) : Nat :=
  pack ([(16, tag), (32, 0)] ++ (quotaFields.zip l).map (fun x => (x.1.1 + 1 - x.1.2, x.2)) ++ [(337, 0)])

/-- Stacks in service. -/
def State.stacksUp (s : State) : Nat := ((List.range 20).filter (fun h => s.stackUp h)).length

/-- The reservable totals (R447 Table 5). -/
def State.quotaTotals (s : State) : List Nat :=
  [16384, s.reservePool, 64, 65536, s.rd E.stateGib 0 * s.stacksUp / 20, s.rd E.spawnGib 0 * s.stacksUp / 20, 65536, 4096, 2048, 64]

/-- GiB of spawn cache that a session reserves (R459). -/
def Session.gib (x : Session) : Nat := if x.cache then ceilDiv (x.blocks * 4096) (2 ^ 30) else 0

/-- Table entries an owner holds: multicast groups, spray groups, circuits. -/
def State.tablesOf (s : State) (owner : Nat) : List Nat :=
  [(s.net.mcasts.filter (fun (x : Nat × Versioned (List Nat)) => x.2.owner == owner && !x.2.cur.isEmpty)).length,
   (s.net.sprays.filter (fun (x : Nat × Versioned Spray) => x.2.owner == owner && !x.2.cur.members.isEmpty)).length,
   (s.net.circuits.filter (fun (x : Nat × Versioned (BitVec 128)) => x.2.owner == owner && circState x.2.cur != 0)).length]

/-- A job's quotas in use (JOB_QUOTA). -/
def State.quotasUsed (s : State) (job : Nat) : List Nat :=
  [s.jobContexts job, s.jobSlots job, (s.jobGraphs job).length, (s.jobTensors job).length, ceilDiv (s.jobBytes job) (2 ^ 30),
   s.spawns.foldl (fun a (x : Nat × Session) => if x.2.job = job then a + x.2.gib else a) 0]
  ++ s.tablesOf job ++ [(s.jobParity job).length]

/-- Jobs that hold quotas: ACTIVE and RETIRING. -/
def State.holders (s : State) : List (Nat × Job) :=
  s.jobs.filter (fun (x : Nat × Job) => x.2.state == .active || x.2.state == .retiring)

/-- The free amount of each quota (R447, FREE_VIEW). -/
def State.quotasFree (s : State) : List Nat :=
  let fabric := [0, 0, 0, 0, 0, 0] ++ s.tablesOf 0 ++ [0]
  let held := s.holders.map (fun (x : Nat × Job) => quotasOf x.2.record.toNat)
  (s.quotaTotals.zip fabric).zipIdx.map (fun y => held.foldl (fun a l => a - l.getD y.2 0) (y.1.1 - y.1.2))

/-- Every quota of a record is no larger than a list of amounts. -/
def quotasFit (v : Nat) (l : List Nat) : Bool := (quotasOf v |>.zip l).all (fun x => decide (x.1 ≤ x.2))

/-- A retire is RETIRING at the device (R448, R450). -/
def State.retiringAny (s : State) : Bool := s.jobs.any (fun (x : Nat × Job) => x.2.state == .retiring)

/-- A job's record set. -/
def State.setJob (s : State) (tag : Nat) (j : Job) : State := { s with jobs := s.jobs.set tag j }

/-- A job's record, of state FREE where the tag has none. -/
def State.job (s : State) (tag : Nat) : Job := s.jobs.getD tag {}

/-- A start leaves the queue and its job becomes ACTIVE, all of its quotas reserved at once (R448). -/
def State.startJob (s : State) (tag : Nat) : State :=
  let j := s.job tag
  let s := { s with starts := s.starts.filter (fun x => x != tag) }
  let s := s.setJob tag { j with state := .active, status := 0, since := s.now }
  s.raise 0x7010 0 31 ([.v 16 tag, .v 8 j.gen] ++ (quotasOf j.record.toNat).map (fun q => .v 32 q))

/-- The pending queue evaluated: the head is admitted while it fits, unless a retire is RETIRING (R448, R450) or the device
is in BRACE (R539). -/
def State.evalStarts (s : State) : Nat → State
  | 0 => s
  | n + 1 => match s.starts with
    | [] => s
    | tag :: _ =>
      if s.power.brace.isSome ∨ s.retiringAny ∨ !quotasFit (s.job tag).record.toNat s.quotasFree then s else (s.startJob tag).evalStarts n

end Sys2Proof.Machine
end

