-- ==== Sys2Proof/Machine/DeviceReset.lean ====
section
/-!
DEFINITION. What a device reset and a power-on reset leave (spec/19 R534, R535, R537).
-/
namespace Sys2Proof.Machine

/-- The entries the always-on domain keeps through a device reset (R535), and those that show the strap pins as sampled
(R554). -/
def keptEntries : List Nat := [E.bootPref, E.fwSvnMin, E.straps, E.smbAddress]

/-- The slots of the flash after a reset: one whose writing was under way stays invalid (R499, R504). -/
def State.slotsAfter (s : State) : Tab FwSlot :=
  let other := 1 - s.rd E.bootSlot 0
  if s.rd E.fwStatus 0 = 0xFF then s.mgmt.fwSlots.set other { s.mgmt.fwSlots.getD other {} with bad := true }
  else s.mgmt.fwSlots

/-- Everything but the always-on domain, the flash, the strapped address, the supply pins, the TAP and the queue of
commands returns
to what it is at reset, fabric time too (R394, R532, R535); start-up begins at a step, or waits for it while a reset is
held. -/
def State.restartAt (s : State) (step : Nat) (keys : Bool) : State :=
  let m : Mgmt := {}
  let regs := s.regs.filter (fun (x : Nat × Nat) => keptEntries.contains (x.1 / 2 ^ 24))
  let held := s.power.pinLow || s.power.sag || !s.power.vaon
  let p : Power := { step := if held then 0 else step, heldStep := step, pinLow := s.power.pinLow, sag := s.power.sag,
                     lostA := s.power.lostA.map (fun _ => 0), lostB := s.power.lostB.map (fun _ => 0),
                     vaon := s.power.vaon, vio := s.power.vio, trip := s.power.trip, mfg := s.power.mfg,
                     tap := if keys then s.power.tap else 1, preload := if keys then s.power.preload else 0 }
  { State.reset with
    pending := s.pending
    fresh := s.fresh
    out := s.out
    regs := regs
    power := p
    mgmt := { m with keys := if keys then s.mgmt.keys else [], fwSlots := s.slotsAfter, epochFlash := s.mgmt.epochFlash } }

/-- A device reset for a cause (R534, R535, R537): RESETS counts it; the role in force is the one ROLE held (R503); start-up
restarts from step 2, once RESET_N and VIN allow. -/
def State.deviceReset (s : State) (cause : Nat) : State :=
  let n := s.rd E.resets 0
  let role := s.rd E.role 0
  (((s.restartAt 2 true).wr E.resetCause 0 cause).wr E.resets 0 ((n + 1) % 2 ^ 32)).wr E.roleNow 0 role

/-- A power-on reset (R534, R535): the key slots and RESETS are cleared too. -/
def State.powerOnReset (s : State) : State := (s.restartAt 1 false).wr E.resetCause 0 1

end Sys2Proof.Machine
end

