-- ==== Sys2Proof/Machine/Phases.lean ====
section
/-!
DEFINITION. Two-phase exchanges as messages: PREPARE by its kind, VOTE, COMMIT, RELEASE and the 5 ms limit (spec/03 R66-R70,
spec/17 R488, R489).
-/
namespace Sys2Proof.Machine

/-- What a PREPARE of a kind concerns: its subject and its phases; none where the record is not of the form Table 10 gives
(R488). -/
def phaseOf (kind : Nat) (r : List Byte) : Option (Nat × Phase) :=
  let n := r.length
  match kind with
  | 0 =>
    let op := field r 0 4
    let b := r.drop 4
    if n < 68 ∨ n ≠ 68 + 8 * field b 4 1 + 4 * field b 3 1 then none else some (op, regPhase op b noGei)
  | 1 => if n = 8 then some (field r 0 4, excludePhase (field r 0 4) (field r 5 3)) else none
  | 2 => if n = 4 then some (field r 0 4, deregPhase (field r 0 4)) else none
  | 3 => if n = 32 then some ((tensorOf (field r 0 32)).handle, tensorPhase (field r 0 32)) else none
  | 4 => if n = 4 then some (field r 0 4, destroyPhase (field r 0 4)) else none
  | 5 => if 32 ≤ n then some ((imageOf r).id, graphPhase r) else none
  | 6 => if n = 8 ∧ field r 4 4 = 2 then some (field r 0 4, removePhase (field r 0 4)) else none
  | 7 => if n = 8 then some (field r 0 4, subnormalPhase (field r 0 4) (bit (field r 4 4) 0)) else none
  | 8 => if n = 48 then some (parityKey (field r 0 2) (field r 2 1), parityPhase (field r 0 48)) else none
  | 9 => if n = 4 then some (parityKey (field r 0 2) (field r 2 1), parityDropPhase (parityKey (field r 0 2) (field r 2 1))) else none
  | _ => none

/-- A PREPARE of a kind received (R66, R488, R489); a device of GEI 0 answers none (R503). -/
def State.takePrepare (s : State) (p : Peer) (body : List Byte) (kind : Nat) : State :=
  if field body 0 1 ≠ kind then s
  else
    let r := body.drop 9
    let ph := phaseOf kind r
    match s.peerAccept p 1 body (decide (9 ≤ body.length) && ph.isSome) with
    | (false, s) => s
    | (true, s) => match ph with
      | some (subject, ph) => if s.answers then s.onPrepare (field body 5 3) (field body 1 4) kind subject r ph else s
      | none => s

/-- PEER_PREPARE_REGISTRATION (R66). -/
def execPeerPrepareRegistration (t : Time) (p : Peer) (body : List Byte) (s : State) : Host.Outcome State Fault Refusal :=
  .next ((s.begin t).takePrepare p body 0)

/-- PEER_PREPARE_HSET_EXCLUDE (R70). -/
def execPeerPrepareHsetExclude (t : Time) (p : Peer) (body : List Byte) (s : State) : Host.Outcome State Fault Refusal :=
  .next ((s.begin t).takePrepare p body 1)

/-- PEER_PREPARE_DEREGISTER (R69). -/
def execPeerPrepareDeregister (t : Time) (p : Peer) (body : List Byte) (s : State) : Host.Outcome State Fault Refusal :=
  .next ((s.begin t).takePrepare p body 2)

/-- PEER_PREPARE_TENSOR_CREATE (R168). -/
def execPeerPrepareTensorCreate (t : Time) (p : Peer) (body : List Byte) (s : State) : Host.Outcome State Fault Refusal :=
  .next ((s.begin t).takePrepare p body 3)

/-- PEER_PREPARE_TENSOR_DESTROY (R168). -/
def execPeerPrepareTensorDestroy (t : Time) (p : Peer) (body : List Byte) (s : State) : Host.Outcome State Fault Refusal :=
  .next ((s.begin t).takePrepare p body 4)

/-- PEER_PREPARE_GRAPH (R173). -/
def execPeerPrepareGraph (t : Time) (p : Peer) (body : List Byte) (s : State) : Host.Outcome State Fault Refusal :=
  .next ((s.begin t).takePrepare p body 5)

/-- PEER_PREPARE_GRAPH_CONTROL (R193). -/
def execPeerPrepareGraphControl (t : Time) (p : Peer) (body : List Byte) (s : State) : Host.Outcome State Fault Refusal :=
  .next ((s.begin t).takePrepare p body 6)

/-- PEER_PREPARE_SUBNORMAL (R201). -/
def execPeerPrepareSubnormal (t : Time) (p : Peer) (body : List Byte) (s : State) : Host.Outcome State Fault Refusal :=
  .next ((s.begin t).takePrepare p body 7)

/-- PEER_PREPARE_PARITY_GROUP (R433). -/
def execPeerPrepareParityGroup (t : Time) (p : Peer) (body : List Byte) (s : State) : Host.Outcome State Fault Refusal :=
  .next ((s.begin t).takePrepare p body 8)

/-- PEER_PREPARE_PARITY_DELETE (R433). -/
def execPeerPrepareParityDelete (t : Time) (p : Peer) (body : List Byte) (s : State) : Host.Outcome State Fault Refusal :=
  .next ((s.begin t).takePrepare p body 9)

/-- A led exchange ends by what its kind does. -/
def State.finishLed (s : State) (l : Led) : State :=
  match l.kind with
  | 0 => s.endLed l (regPhase l.subject (l.record.drop 4) l.reply)
  | k => match phaseOf k l.record with
    | some (_, ph) => s.endLed l ph
    | none => { s with coll := { s.coll with leds := s.coll.leds.filter (fun (x : Led) => x.xid != l.xid) } }

/-- PEER_VOTE: an answer to a prepare; once every device has answered the exchange commits or is released (R66). -/
def execPeerVote (t : Time) (p : Peer) (body : List Byte) (s : State) : Host.Outcome State Fault Refusal :=
  let s := s.begin t
  .next (match s.peerAccept p 2 body (body.length == 8) with
    | (false, s) => s
    | (true, s) => match s.coll.leds.find? (fun (l : Led) => l.xid == field body 0 4) with
      | none => s
      | some l =>
        if !l.devices.contains p.src ∨ l.votes.any (fun (x : Nat × Nat) => x.1 == p.src) then s
        else
          let l := { l with votes := l.votes ++ [(p.src, field body 4 1)] }
          let s := { s with coll := { s.coll with leds := s.coll.leds.map (fun (x : Led) => if x.xid = l.xid then l else x) } }
          if l.votes.length = l.devices.length then s.finishLed l else s)

/-- A COMMIT or RELEASE of an exchange held here. -/
def State.takeEnd (s : State) (p : Peer) (sub : Nat) (body : List Byte) : State :=
  match s.peerAccept p sub body (body.length == 8) with
  | (false, s) => s
  | (true, s) => match s.coll.helds.find? (fun (x : HeldX) => x.orig == p.src && x.xid == field body 0 4 && !x.ended) with
    | none => s
    | some h => match phaseOf h.kind h.record with
      | some (_, ph) => s.endHeld h (sub == 3) ph
      | none => s

/-- PEER_COMMIT (R66). -/
def execPeerCommit (t : Time) (p : Peer) (body : List Byte) (s : State) : Host.Outcome State Fault Refusal :=
  .next ((s.begin t).takeEnd p 3 body)

/-- PEER_RELEASE (R66). -/
def execPeerRelease (t : Time) (p : Peer) (body : List Byte) (s : State) : Host.Outcome State Fault Refusal :=
  .next ((s.begin t).takeEnd p 4 body)

/-- PREPARE_TIMEOUT: 5 ms after the prepare left, the devices that have not answered count as not holding (R66, R489). -/
def execPrepareTimeout (t : Time) (xid : Nat) (s : State) : Host.Outcome State Fault Refusal :=
  let s := s.begin t
  .next (match s.coll.leds.find? (fun (l : Led) => l.xid == xid) with
    | some l => if l.since + 5 * ms ≤ t then s.finishLed l else s
    | none => s)

end Sys2Proof.Machine
end

