-- ==== Sys2Proof/Machine/Blocks.lean ====
section
/-!
DEFINITION. The blocks of a stack: their code, the words of a chunk's slots, the interface's order of service (spec/08 R219,
R226, R227, R229, R230, R238).
-/
namespace Sys2Proof.Machine

/-! ### RS(68,64) (R230) -/

/-- A product in GF(2^8) modulo 0x11D: `n` bits of the second factor, least first. -/
def gfMul : Nat → Nat → Nat → Nat
  | 0, _, _ => 0
  | n + 1, a, b =>
    (if b % 2 = 1 then a else 0) ^^^ gfMul n (if a < 128 then 2 * a else (2 * a) ^^^ 0x11D) (b / 2)

/-- α to a power. -/
def gfPow : Nat → Nat
  | 0 => 1
  | n + 1 => gfMul 8 (gfPow n) 2

/-- A syndrome: the code word, byte 0 first, at a point. -/
def syndrome (raw : List Byte) (x : Nat) : Nat := raw.foldl (fun a b => gfMul 8 a x ^^^ b.toNat) 0

/-- The class of a block as read. -/
inductive BlockClass where
  | clean
  | corrected
  | bad
  deriving DecidableEq, Repr

/-- The power of x at which four syndromes locate exactly one erroneous symbol. -/
def errorAt (s0 s1 s2 s3 : Nat) : Option Nat :=
  if s0 = 0 then none
  else (List.range 68).find? (fun p =>
    let x := gfPow p
    s1 == gfMul 8 s0 x && s2 == gfMul 8 s1 x && s3 == gfMul 8 s2 x)

/-- The class the four syndromes give (R230). -/
def classify (raw : List Byte) : BlockClass :=
  let s0 := syndrome raw 1
  let s1 := syndrome raw 2
  let s2 := syndrome raw 4
  let s3 := syndrome raw 8
  if s0 = 0 ∧ s1 = 0 ∧ s2 = 0 ∧ s3 = 0 then .clean
  else if (errorAt s0 s1 s2 s3).isSome then .corrected
  else .bad

/-- A polynomial, highest coefficient first, times (x − a). -/
def timesRoot (p : List Nat) (a : Nat) : List Nat :=
  List.zipWith (· ^^^ ·) (p ++ [0]) (0 :: p.map (fun c => gfMul 8 c a))

/-- g(x) (R230). -/
def rsGen : List Nat := [1, 2, 4, 8].foldl timesRoot [1]

/-- The four check bytes: the remainder of the data modulo g(x), byte 0 first. -/
def checkBytes (data : List Byte) : List Nat :=
  data.foldl (fun (r : List Nat) b =>
    let f := b.toNat ^^^ r.headD 0
    List.zipWith (· ^^^ ·) (r.drop 1 ++ [0]) ((rsGen.drop 1).map (fun c => gfMul 8 f c))) [0, 0, 0, 0]

/-- A block with its check bytes, byte 0 in the most significant place. -/
def codeword (v : BitVec 512) : BitVec 544 :=
  BitVec.ofNat 544 (v.toNat * 2 ^ 32 + ofBytes ((checkBytes (toBytes 64 v.toNat)).map (BitVec.ofNat 8)))

/-- A code word as read: its class and its data, with the erroneous symbol corrected. -/
def readWord (raw : BitVec 544) : BlockClass × BitVec 512 :=
  let b := toBytes 68 raw.toNat
  let v := match errorAt (syndrome b 1) (syndrome b 2) (syndrome b 4) (syndrome b 8) with
    | some p => raw.toNat ^^^ (syndrome b 1 * 2 ^ (8 * p))
    | none => raw.toNat
  (classify b, BitVec.ofNat 512 (v / 2 ^ 32))

/-! ### The words of a slot (R226) -/

/-- The value a slot's words are filled with (Table 1). -/
def fillWord (op : Nat) : Nat :=
  match op with
  | 1 => wrapInt 128 noKey
  | 2 => wrapInt 128 noLeast
  | 5 => 2 ^ 128 - 1
  | _ => 0

/-- The word of an element in slot A, or in slot B of a widened chunk (Table 1). -/
def Acc.word (op : Nat) (second : Bool) (a : Acc) (i : Nat) : Nat :=
  let of := fun (o : Option Nat) => o.getD (fillWord op)
  match a with
  | .empty => fillWord op
  | .ints l => of (l[i]?.map (fun q => wrapInt 128 (if second then q / 2 ^ 128 else q)))
  | .keys l => of (l[i]?.map (wrapInt 128))
  | .raws l => of (l[i]?.map (fun r => (if op = 5 then 2 ^ 128 - 2 ^ 32 else 0) + r % 2 ^ 32))

/-- A slot of `n` elements as it is filled at its opening. -/
def Acc.filled (op n : Nat) : Acc :=
  match op with
  | 1 => .keys (List.replicate n noKey)
  | 2 => .keys (List.replicate n noLeast)
  | 3 => .raws (List.replicate n 0)
  | 4 => .raws (List.replicate n 0)
  | 5 => .raws (List.replicate n (2 ^ 32 - 1))
  | _ => .ints (List.replicate n 0)

/-- The element at a position replaced. -/
def setNth {α : Type} (l : List α) (i : Nat) (f : α → α) : List α :=
  (l.zipIdx).map (fun (x : α × Nat) => if x.2 = i then f x.1 else x.1)

/-- A slot with a word written; words past a short chunk's count are not kept (R27). -/
def Acc.putWord (op n : Nat) (wide second : Bool) (a : Acc) (i w : Nat) : Acc :=
  match (if a = .empty then Acc.filled op n else a) with
  | .empty => .empty
  | .ints l => .ints (setNth l i (fun q =>
      if second then signed 192 (w % 2 ^ 64 * 2 ^ 128 + wrapInt 128 q)
      else if wide then signed 192 (wrapInt 192 q / 2 ^ 128 * 2 ^ 128 + w) else signed 128 w))
  | .keys l => .keys (setNth l i (fun _ => signed 128 w))
  | .raws l => .raws (setNth l i (fun _ => w % 2 ^ 32))

/-- Four words as a block, the first at byte 0. -/
def packWords (l : List Nat) : BitVec 512 := BitVec.ofNat 512 (pack (l.map (fun w => (128, w))))

/-- A word of a block. -/
def wordAt (v : BitVec 512) (j : Nat) : Nat := bits v.toNat (511 - 128 * j) (384 - 128 * j)

/-- A block with a word replaced. -/
def putWordAt (v : BitVec 512) (j w : Nat) : BitVec 512 :=
  packWords ((List.range 4).map (fun k => if k = j then w else wordAt v k))

/-! ### The contents of a block (R219, R226) -/

/-- A chunk slot of a stack: the chunk, which of its slots it is (0 A, 1 B) and its first block. -/
structure SlotAt where
  x    : Placed
  j    : Nat
  base : Nat

/-- The chunk slot a block lies in. -/
def State.slotAt (s : State) (h b : Nat) : Option SlotAt :=
  s.allChunks.findSome? (fun (x : Placed) =>
    ((x.k.inStacks.zip x.k.bases).zipIdx.find? (fun (y : (Nat × Nat) × Nat) => y.1.1 == h && inBlocks y.1.2 slotBlocks b)).map
      (fun y => ⟨x, y.2, y.1.2⟩))

/-- The operator of a chunk's slot. -/
def State.slotOp (s : State) (x : Placed) : Nat :=
  match s.coll.ctxs.get? x.ctx with
  | some c => (c.reg.phaseAr x.k.phase).op
  | none => 0

/-- A block of a slot: the result of a HELD chunk in its output format, else the words of four elements. -/
def SlotAt.block (y : SlotAt) (op b : Nat) : BitVec 512 :=
  let i := b - y.base
  if y.x.k.state = .held then BitVec.ofNat 512 (ofBytes (slice (y.x.k.payload ++ List.replicate (64 * (i + 1)) 0) (64 * i) 64))
  else packWords ((List.range 4).map (fun k => y.x.k.acc.word op (y.j == 1) (4 * i + k)))

/-- The 64 data bytes of a block of a stack. -/
def State.blockData (s : State) (h b : Nat) : BitVec 512 :=
  match s.slotAt h b with
  | some y => y.block (s.slotOp y.x) b
  | none => (s.graphs.cells.getD h []).getD b 0

/-- The code word of a block as the stack stores it. -/
def State.stored (s : State) (h b : Nat) : BitVec 544 :=
  codeword (s.blockData h b) ^^^ (s.graphs.upsets.getD h []).getD b 0

/-- Bits of a stored code word upset. -/
def State.upset (s : State) (h b : Nat) (e : BitVec 544) : State :=
  let l := s.graphs.upsets.getD h []
  let v := l.getD b 0 ^^^ e
  s.setUpsets h (if v = 0 then l.del b else l.set b v)

/-- A HELD result's bytes with a block replaced. -/
def putPayload (p : List Byte) (i : Nat) (v : BitVec 512) : List Byte :=
  (p.take (64 * i) ++ (toBytes 64 v.toNat) ++ p.drop (64 * (i + 1))).take p.length

/-- A block written with new check bytes (R227). -/
def State.putBlock (s : State) (h b : Nat) (v : BitVec 512) : State :=
  let s := s.freshBlocks h b 1
  match s.slotAt h b with
  | some y =>
    let k := y.x.k
    let i := b - y.base
    let op := s.slotOp y.x
    let k := if k.state = .held then { k with payload := putPayload k.payload i v }
      else { k with acc := (List.range 4).foldl (fun a j =>
        a.putWord op k.count (k.pass == 1) (y.j == 1) (4 * i + j) (wordAt v j)) k.acc }
    s.setChunk y.x.ctx y.x.inst k
  | none => if v = 0 then s else s.setCells h ((s.graphs.cells.getD h []).set b v)

/-- The block of the same words in slot B, for a block of slot A. -/
def State.partner (s : State) (h b : Nat) : Nat :=
  match s.slotAt h b with
  | some y => y.x.k.bases.getD 1 (y.base + slotBlocks) + (b - y.base)
  | none => b + slotBlocks

/-- A word after a combining command of Table 2. -/
def combined (cmd w d : Nat) : Nat :=
  match cmd with
  | 3 => (w + d) % 2 ^ 128
  | 5 => wrapInt 128 (max (signed 128 w) (signed 128 d))
  | 6 => wrapInt 128 (min (signed 128 w) (signed 128 d))
  | 7 => w ^^^ d
  | 8 => w ||| d
  | 9 => w &&& d
  | _ => w

/-- The two words of an XA192 value after ACC_ADD192: slot A's and slot B's. -/
def added192 (lo hi d : Nat) : Nat × Nat :=
  let sum := lo + d % 2 ^ 128
  (sum % 2 ^ 128, (hi + wrapInt 128 (signed 64 (d / 2 ^ 128 % 2 ^ 64)) + sum / 2 ^ 128) % 2 ^ 128)

/-! ### The interface's order of service (R238) -/

/-- The class a transfer belongs to by what it concerns: 0 R, 1 U, 2 C, 3 S. -/
def holdsClass : Holds → Nat
  | .stripe _ _ _ | .scratch _ => 1
  | .spawn _ _ _ => 2
  | .ring _ | .sample _ _ => 3
  | .free p => match p % 4 with
    | 1 => 2
    | 2 => 3
    | 3 => 1
    | _ => 0
  | _ => 0

/-- The class served next by weighted round robin, with the transfers left of its turn: the class whose turn it is while it
has work and turn left, else the next one that has work. -/
def serveNext (weights : Nat) (turn : Nat × Nat) (wait : List Nat) : Option (Nat × Nat) :=
  let has := fun c => decide (0 < wait.getD c 0)
  if 0 < turn.2 ∧ has turn.1 then some (turn.1, turn.2 - 1)
  else (((List.range 4).map (fun i => (turn.1 + 1 + i) % 4)).find? has).map (fun c =>
    (c, bits weights (31 - 8 * c) (24 - 8 * c) - 1))

/-- A transfer of a class served, where it is its turn among the classes that have work waiting, its own among them. -/
def State.serve (s : State) (h cls : Nat) (wait : List Nat) : Option State :=
  let wait := (List.range 4).map (fun c => max (wait.getD c 0) (if c = cls then 1 else 0))
  match serveNext (s.rd E.arbWeights 0) (s.graphs.arb.getD h (3, 0)) wait with
  | some (c, left) => if c = cls then some { s with graphs := { s.graphs with arb := s.graphs.arb.set h (c, left) } } else none
  | none => none

end Sys2Proof.Machine
end

