-- ==== Sys2Proof/Machine/StackBase.lean ====
section
/-!
DEFINITION. What a lost block or an excluded stack costs (spec/08 R234-R237).
-/
namespace Sys2Proof.Machine

/-! ### New places (R118, R223, R224) -/

/-- A chunk's bookkeeping lost: a new area by R223, where there is room for it (R122). -/
def State.replaceBook (s : State) (c : Nat) (who : Nat × Nat) (k : Chunk) : Option (Chunk × State) :=
  let s := (s.returnSpill k.bookAt k.book).setChunk c who.2 { k with book := 0 }
  if s.roomFor c k.reserved k.book then
    (s.takeBook who k.die k.chunk k.book).map (fun (y : Nat × State) => ({ k with bookAt := y.1 }, y.2))
  else none

/-- A chunk given what it lost; none where nothing has room: its instance is then aborted, with RANGE_OVERFLOW and
WIDEN_NO_SLOT for a widened chunk (R224), else HW_FAULT (log 7). -/
def State.relocate (s : State) (c : Nat) (who : Nat × Nat) (k : Chunk) (slot book : Bool) : Option (Chunk × State) :=
  let a := if slot then s.moveSlots c who k k.inStacks.length else some (k, s)
  match a with
  | none => none
  | some (k, s) => if book then s.replaceBook c who k else some (k, s)

/-- What a lost chunk without a new place costs. -/
def State.noPlace (s : State) (c n : Nat) (k : Chunk) : State :=
  if k.state = .widened then
    let op := match s.coll.ctxs.get? c with
      | some x => x.reg.op
      | none => 0
    (s.raise 0x7409 2 (8 + k.die) [.v 32 op, .v 8 n, .v 32 k.chunk]).abortHere c n 0x03 k.chunk
  else s.abortHere c n 0x06 k.chunk

/-- Slots or bookkeeping of an open chunk lost (R234): a new place, everything cleared, REQUEST RECOMPUTE.  An OVERFLOWED
chunk's slot holds no sums, and it can be without one.  A chunk bypassed out holds only its coverage, so h2 clears its sums.  A chunk whose result has
been formed and signed needs its slot no more. -/
def State.loseChunk (s : State) (c n : Nat) (k : Chunk) (slot book : Bool) : State :=
  let s := if k.spilling then k.slots.foldl (fun (s : State) j => s.freeSlot k.die j) s else s
  let k := if k.spilling then { k with slots := [], spilling := false } else k
  if k.queued then s
  else match s.relocate c (s.opAt c, n) k slot book with
  | none =>
    if k.state = .overflowed ∧ book = false then
      (k.inStacks.foldl (fun (s : State) h => s.returnSpill h slotBytes) s).setChunk c n { k with inStacks := [], bases := [] }
    else s.noPlace c n k
  | some (k, s) =>
    let s := s.setChunk c n k
    if k.state = .overflowed ∧ book = false then s
    else if k.state = .bypassOut then
      let k := { k with cover := [], forwarded := false, request := 3 }
      ((s.setChunk c n k).sendBypass k.h2 3 (s.opAt c) n k.chunk).request c n k 3
    else s.recompute c n k false

/-- The result of a HELD chunk lost (R234): its run fails at the device with RESULT_LOST, now or in its turn. -/
def State.loseResult (s : State) (op inst chunk : Nat) : State :=
  let g := s.boundTo op
  let id := match g with
    | some (_, g) => g.id
    | none => 0
  let s := s.raise 0x8C0C 2 31 [.v 32 op, .v 8 inst, .v 32 chunk, .v 32 id]
  match g with
  | none => s.freeHeld op inst chunk
  | some (n, g) =>
    let mine : Bool := match g.run with
      | some r => r.inst == inst
      | none => false
    if mine then (s.wr E.fault n 0x0C).failRun n 0x0C 0
    else
      let s := s.modGraph n (fun (h : Graph) => { h with skip := h.skip ++ [(inst, 0x10C)] })
      (s.freeAllHeld op inst).passSkipped 256 n

/-- The context area of an operation lost: its open instances abort with HW_FAULT (R234). -/
def State.loseArea (s : State) (c : Nat) : State :=
  match s.coll.ctxs.get? c with
  | none => s
  | some x => (x.insts.filter (fun (i : Inst) => i.state == .opened)).foldl
    (fun (s : State) i => s.abortHere c i.num 0x06 allOnes) s

/-- A context area placed on the stack that R223 names now, and its bytes taken there (R237). -/
def State.moveArea (s : State) (c : Nat) : State :=
  match s.coll.ctxs.get? c with
  | none => s
  | some x =>
    let h := s.areaStack c
    (if s.stackUp h then s.useSpill (x.reg.op, x.opn) h x.area else s).modCtx c (fun (y : Ctx) => { y with areaAt := h })

/-- Stored frames lost: a later REFUSE CHECK_FAILED aborts the instance (R234). -/
def State.loseFrames (s : State) (p : Nat → Inst → Result → Bool) : State :=
  { s with coll := { s.coll with ctxs := s.coll.ctxs.map (fun (x : Nat × Ctx) =>
    (x.1, { x.2 with insts := x.2.insts.map (fun (i : Inst) =>
      { i with results := i.results.map (fun (y : Result) => if p x.1 i y then { y with frames := [] } else y) }) })) } }

/-- Copies of stripes lost: a committed one makes its stripe LOST, the other is overwritten by the next STORE (R234). -/
def State.loseCopies (s : State) (h : Nat) (ks : List (Nat × Bool)) : State :=
  match s.graphs.tensors.get? h with
  | none => s
  | some t =>
    let gone := (ks.filter (fun (y : Nat × Bool) => y.2 && !(t.stripe y.1).lost)).map (·.1)
    let t := ks.foldl (fun (t : Tensor) (y : Nat × Bool) =>
      let x := t.stripe y.1
      t.putStripe y.1 (if y.2 then x.putCur { x.cur with ok := false } else x.putOther { x.other with ok := false })) t
    (s.setTensor t).tellLost h gone

/-- The scratch area of a graph lost: its run fails with STRIPE_LOST (R234), unless it has passed its FENCE, whose commit
completes (R239). -/
def State.loseScratch (s : State) (n : Nat) : State :=
  match s.graphs.slots.get? n with
  | some g =>
    let before : Bool := match g.run with
      | some r => r.fenceAt.isNone
      | none => false
    if before ∧ 0 < g.scratch then (s.wr E.fault n 0x0B).failRun n 0x0B 0 else s
  | none => s

/-- The stack of an entry of the colophon ring. -/
def ringStackOf (seq : Nat) : Nat := Config.ringStack (seq % ringEntries) % 20

/-- An entry of the colophon ring lost: it reads as zeros (R234). -/
def State.loseEntry (s : State) (seq : Nat) : State :=
  if (s.coll.ring.get? seq).isSome ∧ !s.coll.ringBad.contains seq then
    { s with coll := { s.coll with ringBad := seq :: s.coll.ringBad } } else s

/-- A block of the snapshot ring (kind 0, index 128 times its record's SEQ and its place in it) or a sample (kind 1, index its
SEQ) lost: it reads as zeros (R515). -/
def State.loseSample (s : State) (kind index : Nat) : State :=
  let p := s.probes
  if kind = 0 then
    { s with probes := { p with snaps := p.snaps.modify (index / 128) (fun l => l.zipIdx.map (fun x =>
      if x.2 = index % 128 then (x.1.1, 0#512) else x.1)) } }
  else { s with probes := { p with samples := p.samples.modify index (fun x => (x.1, 0#512)) } }

/-- Every block of both rings on a stack lost. -/
def State.loseSamplesOn (s : State) (h : Nat) : State :=
  let p := s.probes
  { s with probes := { p with
    snaps := p.snaps.map (fun (x : Nat × List (Nat × BitVec 512)) => (x.1, x.2.map (fun y => if y.1 = h then (h, 0#512) else y)))
    samples := p.samples.map (fun (x : Nat × Nat × BitVec 512) => if x.2.1 = h then (x.1, h, 0#512) else x) } }

/-! ### A block lost (R234 Table 3) -/

/-- The partition of what a block holds (R240 Table 7, UE_LAST). -/
def holdsPart : Holds → Nat
  | .slot _ _ _ _ | .book _ _ _ _ | .area _ | .resend _ _ _ _ => 0
  | .spawn _ _ _ => 1
  | .ring _ | .sample _ _ => 2
  | .stripe _ _ _ | .scratch _ => 3
  | .free p => p % 4

/-- The operation, tensor or graph that what a block holds belongs to; 0 for none. -/
def holdsOwner : Holds → Nat
  | .slot op _ _ _ | .book op _ _ _ | .area op | .resend op _ _ _ => op
  | .stripe h _ _ => h
  | .scratch g => g
  | _ => 0

/-- The Ovaron's action on an uncorrectable or poisoned block of a stack (R234). -/
def State.blockLost (s : State) (h : Nat) (x : Holds) : State :=
  match x with
  | .slot op n p k => match s.instOf op n with
    | some (c, i) => match findChunk i.chunks p k with
      | some y =>
        if !y.inStacks.contains h ∨ y.state = .overflowed then s
        else if y.state = .held then s.loseResult op n k
        else s.loseChunk c n y true false
      | none => s
    | none => s
  | .book op n p k => match s.instOf op n with
    | some (c, i) => match findChunk i.chunks p k with
      | some y => if y.bookAt = h ∧ y.book ≠ 0 ∧ y.state ≠ .held then s.loseChunk c n y false true else s
      | none => s
    | none => s
  | .area op => match s.ctxOf op with
    | some c => if s.areaStack c = h then s.loseArea c else s
    | none => s
  | .resend op n p k => match s.ctxOf op with
    | some c => s.loseFrames (fun d i y => d == c && i.num == n && y.phase == p && y.chunk == k && y.stack == h)
    | none => s
  | .stripe d k copy => match s.tensor? d with
    | some t => if s.holderOf t k = s.gei ∧ s.copyStack t k copy = h then
        s.loseCopies d [(k, (t.stripe k).second == (copy == 1))] else s
    | none => s
  | .scratch g => match s.graphOf g with
    | some (n, _) => s.loseScratch n
    | none => s
  | .spawn j n b => s.loseBlocks (fun key blk st => key == spawnKey j n && blk == b && st == h)
  | .ring q => (s.bump E.sampleBlocksLost 0 1).loseEntry q
  | .sample k i => (s.bump E.sampleBlocksLost 0 1).loseSample k i
  | .free _ => s

/-! ### A stack excluded (R236, R237) -/

/-- The copies of a tensor's held stripes that lie on a stack, each with whether it is the committed one. -/
def State.copiesOn (s : State) (t : Tensor) (h : Nat) : List (Nat × Bool) :=
  (s.heldStripes t).flatMap (fun k =>
    let sec := (t.stripe k).second
    (if s.copyStack t k 0 = h then [(k, !sec)] else []) ++ (if s.copyStack t k 1 = h then [(k, sec)] else []))

/-- The chunks a stack's exclusion costs: first their new places, with the stack out of service. -/
def State.stackChunks (s : State) (h : Nat) : State :=
  s.allChunks.foldl (fun (s : State) (x : Placed) =>
    let slot := x.k.inStacks.contains h
    let book := x.k.bookAt == h && x.k.book != 0
    match s.coll.ctxs.get? x.ctx, s.chunk? x.ctx x.inst x.k.phase x.k.chunk with
    | some y, some k =>
      if !slot && !book then s
      else if k.state = .held then (if slot then s.loseResult y.reg.op x.inst k.chunk else s)
      else s.loseChunk x.ctx x.inst k slot book
    | _, _ => s) s

/-- A stack excluded for a cause (R236): its state, the notice, what it held, capacity.  Exclusion of a die that has lost both
stacks is its caller's. -/
def State.dropStack (s : State) (h cause : Nat) : State :=
  if !s.stackUp h then s
  else
    let areas := (s.coll.ctxs.filter (fun (x : Nat × Ctx) => x.2.areaAt == h)).map (·.1)
    let copies := (s.graphs.tensors.filter (fun (x : Nat × Tensor) => x.2.admitted)).map (fun (x : Nat × Tensor) => (x.1, s.copiesOn x.2 h))
    let sample := share (s.rd E.sampleGib 0) h / 64
    let entries := (s.coll.ring.filter (fun (x : Nat × BitVec 640) => ringStackOf x.1 == h)).map (·.1)
    let s := (s.wr E.stackState h 1).wr E.excludeCause h cause
    let s := { s with coll := { s.coll with stackUsed := s.coll.stackUsed.del h } }
    let s := s.raise 0x8C03 2 (8 + h / 2) [.v 16 h, .v 8 cause, .v 32 ((List.range 20).filter (fun k => s.stackUp k)).length]
    let s := s.stackChunks h
    let s := areas.foldl (fun (s : State) c => (s.loseArea c).moveArea c) s
    let s := s.loseFrames (fun _ _ y => y.stack == h)
    let s := copies.foldl (fun (s : State) y => if y.2.isEmpty then s else s.loseCopies y.1 y.2) s
    let s := s.graphs.slots.foldl (fun (s : State) (x : Nat × Graph) => s.loseScratch x.1) s
    let s := s.loseBlocks (fun _ _ st => st == h)
    let s := entries.foldl (fun (s : State) q => s.loseEntry q) s
    ((s.bump E.sampleBlocksLost 0 sample).loseSamplesOn h).publishCapacity

end Sys2Proof.Machine
end

