-- ==== Sys2Proof/Machine/Dies.lean ====
section
/-!
DEFINITION. Die exclusion, its effects, migration, ring segments and the keeper's takeover (spec/15 R418-R422, R429-R432).
-/
namespace Sys2Proof.Machine

/-! ### The keepers (R430-R432) -/

/-- A die marked excluded, with its cause and time, and told (R418). -/
def State.markExcluded (s : State) (d cause : Nat) : State :=
  let s := (((s.wr E.dieState d 1).wr E.dieCause d cause).wr E.dieExcludedAt d (timeLayout s.now))
  s.raise 0x9002 2 31 [.v 16 d, .v 8 cause]

/-- The exchanges this device led are released at every device: none of them had its decision (R431). -/
def State.releaseLeds (s : State) : State := s.coll.leds.foldl (fun (s : State) l => s.finishLed l) s

/-- Link training in progress is restarted: each TRAINING or RETRAINING module's 150 µs begin again (R431). -/
def State.restartTraining (s : State) : State :=
  { s with links := { s.links with modules := (List.range 256).foldl (fun l m =>
      if s.rd E.moduleState m = 1 ∨ s.rd E.moduleState m = 4 then l.set m { l.getD m {} with since := s.now } else l) s.links.modules } }

/-- The standby keeper takes over (R430, R431): cause 1 UNRESPONSIVE, 2 FATAL, 3 SWITCH; `why` is the cause with which the
old keeper is excluded.  Requests that had no reply get none. -/
def State.takeover (s : State) (cause why : Nat) : State :=
  let old := s.keeper
  let new := 1 - old
  let s := (s.wr E.keeperActive 0 new).wr E.dieState (18 + new) 0
  let s := (s.wr E.domainState (18 + new) 1).wr E.domainState (18 + old) 0
  let s := if cause = 3 then (s.wr E.dieState (18 + old) 2).wr E.standbyState 0 2
    else ((s.wr E.standbyState 0 3).markExcluded (18 + old) why).raise 0x9004 1 31 [.v 16 old]
  let s := s.releaseLeds.restartTraining
  let s := { s with mgmt := { s.mgmt with waiting := [], mbx := .idle, smb := .idle } }
  let s := (s.bump E.takeovers 0 1).wr E.takeoverLast 0 (pack [(8, cause), (8, new), (34, 0), (78, timeLayout s.now)])
  let s := s.raise 0x9003 1 31 [.v 8 cause, .v 16 new]
  if cause = 3 then s else s.publishCapacity

/-- A keeper is lost: the active one gives way to a READY standby, and without one the device resets; the standby is excluded
(R419, R422, R432). -/
def State.excludeKeeper (s : State) (k cause : Nat) : State :=
  if s.keeper = k then
    if s.rd E.standbyState 0 = 2 then s.takeover (if cause = 1 then 1 else 2) cause else s.deviceReset 6
  else if s.rd E.dieState (18 + k) = 1 then s
  else
    let s := (s.markExcluded (18 + k) cause).wr E.standbyState 0 3
    ((s.wr E.domainState (18 + k) 0).raise 0x9004 1 31 [.v 16 k]).publishCapacity

/-! ### A quire die (R419, R421, R422) -/

/-- An instance has work at a quire die, or an open chunk whose directory die it is. -/
def State.touches (s : State) (q : Nat) (x : Ctx) (i : Inst) : Bool :=
  let dir := fun (p c : Nat) => (s.candidates x.reg.op p c).1 == some q
  i.chunks.any (fun (k : Chunk) =>
      (k.die == q && !(k.slots.isEmpty && k.inStacks.isEmpty && k.book == 0)) || (k.state != .held && dir k.phase k.chunk))
    || i.deferred.any (fun key => dir (key / 2 ^ 32) (key % 2 ^ 32))

/-- Instances a test picks are aborted with HW_FAULT. -/
def State.abortFault (s : State) (p : Ctx → Inst → Bool) : State :=
  s.coll.ctxs.foldl (fun (s : State) (x : Nat × Ctx) =>
    (x.2.insts.filter (fun (i : Inst) => i.state != .aborted && p x.2 i)).foldl
      (fun (s : State) i => s.abortHere x.1 i.num 0x06 allOnes) s) s

/-- The dies of the stripes of WHOLE tensors held here. -/
def State.bandDies (s : State) : List (Nat × List (Nat × Nat)) :=
  (s.graphs.tensors.filter (fun (x : Nat × Tensor) => x.2.admitted && x.2.cls == 1)).map (fun (x : Nat × Tensor) =>
    (x.1, (s.heldStripes x.2).map (fun k => (k, s.stripeDie x.2 k))))

/-- The surviving stripes whose die has changed are migrated before the next run of the graph that names them (R421). -/
def State.migrate (s : State) (before : List (Nat × List (Nat × Nat))) (q : Nat) : State :=
  before.foldl (fun (s : State) y => match s.tensor? y.1 with
    | none => s
    | some t =>
      let moved := (y.2.filter (fun z => z.2 != q && s.stripeDie t z.1 != z.2)).map (fun z => (y.1, z.1))
      if moved.isEmpty then s
      else s.graphs.slots.foldl (fun (s : State) (x : Nat × Graph) =>
        if x.2.state ≠ gsPrepared ∧ x.2.names.contains y.1 then
          s.modGraph x.1 (fun (g : Graph) => { g with migrating := true, moved := g.moved ++ moved.filter (fun m => !g.moved.contains m) })
        else s) s) s

/-- A run has a task at a quire die that is not done. -/
def State.worksAt (s : State) (g : Graph) (q : Nat) : Bool :=
  match g.run with
  | some r => (withIdx g.nodes 0).any (fun (x : Nat × GNode) => (s.nodeTasks g x.2 q).any (fun k => !r.done.contains (x.1, k)))
  | none => false

/-- The four arrays of a quire die excluded; their tiles go back (R208, R419). -/
def State.dropArrays (s : State) (q : Nat) : State :=
  let js := [4 * q, 4 * q + 1, 4 * q + 2, 4 * q + 3]
  let s := js.foldl (fun (s : State) j => (s.wr E.arrayState j 3).coldBit j false) s
  (js.foldl (fun (s : State) j => s.clearArray j) s).wr E.coldState q 0

/-- A quire die excluded (R418, R419, R421, R422). -/
def State.excludeQuire (s : State) (q cause : Nat) : State :=
  let bands := s.bandDies
  let works := (s.graphs.slots.filter (fun (x : Nat × Graph) => s.worksAt x.2 q)).map (·.1)
  let s := s.abortFault (fun x i => s.touches q x i)
  let s := s.markExcluded (8 + q) cause
  let s := (s.allChunks.filter (fun (x : Placed) => x.k.die == q && x.k.state == .held && !x.k.slots.isEmpty)).foldl
    (fun (s : State) x => match s.coll.ctxs.get? x.ctx with
      | some y => s.loseResult y.reg.op x.inst x.k.chunk
      | none => s) s
  let s := (s.dropStack (2 * q) 6).dropStack (2 * q + 1) 6
  let s := { s with coll := { s.coll with
    slots := s.coll.slots.del q
    published := s.coll.published.del q
    records := s.coll.records.del q
    preSlots := s.coll.preSlots.filter (fun (y : PreSlot) => y.ring || y.die != q) } }
  let s := (s.dropArrays q).wr E.domainState (8 + q) 0
  let s := works.foldl (fun (s : State) n => s.failRun n 0x06 0) s
  let s := (s.migrate bands q).failNoArrays
  let s := if s.quires.isEmpty then s.abortFault (fun _ i => i.state == .opened) else s
  s.publishCapacity

/-! ### A switch die (R419, R422) -/

/-- The frames held in a switch die are lost: their descriptors go, and what they held is let go. -/
def State.loseFramesIn (s : State) (d : Nat) : State :=
  let ids := (s.net.frames.filter (fun (f : Stored) => f.die == d)).map (fun (f : Stored) => f.id)
  let keep := fun (l : List Desc) => l.filter (fun (x : Desc) => !ids.contains x.frame)
  let s := { s with net := { s.net with
    queues := s.net.queues.map (fun (x : Nat × Queue) => (x.1, { x.2 with descs := keep x.2.descs }))
    circQueues := s.net.circQueues.map (fun (x : Nat × CircQueue) => (x.1, { x.2 with descs := keep x.2.descs }))
    ports := s.net.ports.map (fun (x : Nat × Port) => (x.1, { x.2 with sending := x.2.sending.filter (fun y => !ids.contains y.frame) })) } }
  (s.net.frames.filter (fun (f : Stored) => f.die == d)).foldl (fun (s : State) f => s.freeFrame f) s

/-- A switch die excluded: every open instance aborts, its frames and steer entries are lost, its ports become ABSENT (R419);
a device without a switch die resets (R422). -/
def State.excludeSwitch (s : State) (d cause : Nat) : State :=
  let s := s.abortFault (fun _ i => i.state == .opened)
  let s := (s.markExcluded d cause).wr E.domainState d 0
  let s := s.loseFramesIn d
  let s := { s with coll := { s.coll with ctxs := s.coll.ctxs.map (fun (x : Nat × Ctx) =>
    (x.1, { x.2 with insts := x.2.insts.map (fun (i : Inst) =>
      { i with chunks := i.chunks.map (fun (k : Chunk) => { k with steered := k.steered.erase d }) }) })) } }
  let s := (List.range 128).foldl (fun (s : State) k =>
    let p := 128 * d + k
    if s.portExists p then s.portDown p 0 6 else s) s
  if (List.range 8).all (fun k => s.rd E.dieState k == 1) then s.deviceReset 5 else s.publishCapacity

/-! ### Any die -/

/-- A die excluded by its code for a cause of DIE_CAUSE (R418); nothing where it is excluded already. -/
def State.excludeDie (s : State) (d cause : Nat) : State :=
  if s.rd E.dieState d = 1 ∨ 20 ≤ d then s
  else if d < 8 then s.excludeSwitch d cause
  else if d < 18 then s.excludeQuire (d - 8) cause
  else s.excludeKeeper (d - 18) cause

/-- A stack excluded; a quire die that has lost both is excluded with STACKS_LOST (R225, R236). -/
def State.excludeStack (s : State) (h cause : Nat) : State :=
  if !s.stackUp h ∨ 20 ≤ h then s
  else
    let s := s.dropStack h cause
    if !s.stackUp (2 * (h / 2)) && !s.stackUp (2 * (h / 2) + 1) then s.excludeDie (8 + h / 2) 6 else s

/-! ### The quire ring in segments (R420) -/

/-- The ring's link out of a quire die in a direction (0 upward, 1 downward) has a channel. -/
def State.ringLink (s : State) (q dir : Nat) : Bool := s.rd E.ringChannels (2 * q + dir) != 0

/-- One die reaches another in a direction. -/
def State.reachDir (s : State) (a b dir : Nat) : Bool :=
  let n := if dir = 0 then (b + 10 - a) % 10 else (a + 10 - b) % 10
  (List.range n).all (fun i => s.ringLink (if dir = 0 then (a + i) % 10 else (a + 10 - i) % 10) dir)

/-- Two dies reach one another, each in some direction. -/
def State.reachBoth (s : State) (a b : Nat) : Bool :=
  (s.reachDir a b 0 || s.reachDir a b 1) && (s.reachDir b a 0 || s.reachDir b a 1)

/-- Lists without some of their members, in order. -/
def sublists : List Nat → List (List Nat)
  | [] => [[]]
  | x :: r => let l := sublists r; l.map (x :: ·) ++ l

/-- The largest set of quire dies that all reach one another; of equal ones the first, which holds the lowest die. -/
def State.segment (s : State) (qs : List Nat) : List Nat :=
  ((sublists qs).filter (fun l => l.all (fun a => l.all (fun b => s.reachBoth a b)))).foldl
    (fun (best : List Nat) l => if best.length < l.length then l else best) []

/-- After a ring link has broken: the dies outside the kept segment are excluded (R420). -/
def State.checkRing (s : State) : State :=
  let qs := (List.range 10).filter (fun q => s.rd E.dieState (8 + q) == 0)
  if qs.all (fun a => qs.all (fun b => s.reachBoth a b)) then s
  else
    let keep := s.segment qs
    let out := qs.filter (fun q => !keep.contains q)
    let s := out.foldl (fun (s : State) q => s.excludeDie (8 + q) 5) s
    s.raise 0x9009 2 31 [.v 32 keep.length, .v 32 out.length]

end Sys2Proof.Machine
end

