-- ==== Sys2Proof/Machine/Links.lean ====
section
/-!
DEFINITION. The die links' commands: UCIe modules, the traffic map and port shedding, stitch channels, the quire ring
(spec/13).
-/
namespace Sys2Proof.Machine

/-! ### The traffic map (R368-R370) -/

/-- A fiber is bypassed: a circuit uses a wavelength of it (log 112). -/
def State.fiberBypassed (s : State) (f : Nat) : Bool :=
  s.links.bypasses.any (fun (x : Nat × Bypass) => x.1 / 64 == f / 32 && (x.2.inF == f % 32 || x.2.outF == f % 32))

/-- A port counts in its engine's demand. -/
def State.demands (s : State) (p : Nat) : Bool :=
  s.portExists p && s.rd E.portAdmin p == 1 && !s.fiberBypassed (fiberOf p)

/-- The configured rate of ports, in Gb/s. -/
def State.rateSum (s : State) (l : List Nat) : Nat := l.foldl (fun a p => a + s.portRate p / 1000) 0

/-- Ports of an engine. -/
def enginePorts (n : Nat) : List Nat := (List.range 128).map (fun k => 128 * n + k)

/-- The usable modules that count at full and at half width (R368). -/
def State.fullModules (s : State) (n : Nat) : List Nat :=
  (engineModules n).filter (fun m => (s.rd E.moduleState m == 2 || s.rd E.moduleState m == 3) && s.rd E.moduleWidth m == 64)
def State.halfModules (s : State) (n : Nat) : List Nat :=
  (engineModules n).filter (fun m =>
    s.rd E.moduleState m == 4 || ((s.rd E.moduleState m == 2 || s.rd E.moduleState m == 3) && s.rd E.moduleWidth m == 32))

/-- Modules taken in order until their capacity covers what is wanted. -/
def takeUntil (each : Nat) : List Nat → Nat → Nat → List Nat
  | [], _, _ => []
  | m :: r, have_, want => if want ≤ have_ then [] else m :: takeUntil each r (have_ + each) want

/-- The ACTIVE set for a demand in Gb/s (R368). -/
def State.activeSet (s : State) (n want : Nat) : List Nat :=
  let full := s.fullModules n
  let f := takeUntil 1840 full 0 want
  if 1840 * full.length < want then full ++ takeUntil 920 (s.halfModules n) (1840 * full.length) want else f

/-- Ports shed from the highest down until the rest fits (R369). -/
def State.shedList (s : State) (cap : Nat) : List Nat → Nat → List Nat
  | [], _ => []
  | p :: r, unshed => if unshed ≤ cap then [] else p :: State.shedList s cap r (unshed - s.portRate p / 1000)

/-- Shed ports returned from the lowest up as far as the capacity allows (R370). -/
def State.returnList (s : State) (cap : Nat) : List Nat → Nat → List Nat
  | [], _ => []
  | p :: r, unshed =>
    let w := if s.demands p then s.portRate p / 1000 else 0
    if unshed + w ≤ cap ∨ w = 0 then p :: State.returnList s cap r (unshed + w) else []

/-- The capacity of an engine in Gb/s. -/
def State.engineCap (s : State) (n : Nat) : Nat := 1840 * (s.fullModules n).length + 920 * (s.halfModules n).length

/-- The demand of an engine, in ports. -/
def State.demandPorts (s : State) (n : Nat) : List Nat := (enginePorts n).filter (fun p => s.demands p)

/-- Ports of the demand that are neither ABSENT nor SHED. -/
def State.unshedPorts (s : State) (n : Nat) : List Nat :=
  (s.demandPorts n).filter (fun p => s.rd E.portState p == 1 || s.rd E.portState p == 2)

/-- The map of an engine recomputed (R368-R370). -/
def State.remap (s : State) (n : Nat) : State :=
  let want := s.rateSum (s.demandPorts n)
  let cap := s.engineCap n
  let act := s.activeSet n want
  let s := (engineModules n).foldl (fun (s : State) m =>
    if s.rd E.moduleState m = 2 ∨ s.rd E.moduleState m = 3 then s.wr E.moduleState m (if act.contains m then 2 else 3) else s) s
  let s := (s.wr E.engineCapacity n cap).wr E.engineDemand n want
  let up := s.unshedPorts n
  let gone := s.shedList cap up.reverse (s.rateSum up)
  let shed := (enginePorts n).filter (fun p => s.portExists p && s.rd E.portState p == 3)
  let back := if gone.isEmpty then s.returnList cap shed (s.rateSum up) else []
  if !gone.isEmpty then
    let s := gone.foldl (fun (s : State) p => s.portDown p 3 4) s
    let k := shed.length + gone.length
    ((s.wr E.portsShed n k).raise 0x3403 2 n [.v 16 n, .v 32 gone.length, .v 32 cap]).publishCapacity
  else if !back.isEmpty then
    let s := back.foldl (fun (s : State) p => s.wr E.portState p 1) s
    ((s.wr E.portsShed n (shed.length - back.length)).raise 0x3404 0 n [.v 16 n, .v 32 back.length]).publishCapacity
  else s.wr E.portsShed n shed.length

/-! ### Modules (R365-R367, R371, R372) -/

/-- A module's record. -/
def State.ucie (s : State) (m : Nat) : Ucie := s.links.modules.getD m {}

/-- A module's record set. -/
def State.setUcie (s : State) (m : Nat) (u : Ucie) : State :=
  { s with links := { s.links with modules := if u = {} then s.links.modules.del m else s.links.modules.set m u } }

/-- A width record written and told (R372, R378). -/
def State.logWidth (s : State) (record : Nat) : State :=
  let k := s.rd E.widthLogNext 0
  ((s.wr E.widthLog (k % 64) record).bump32 E.widthLogNext 0 1).raise 0x3405 1 31 [.v 128 record]

/-- A module's training ends at a width, 0 where it failed: the width record that waits is written, and the outcome of
a MODULE_RETRAIN is reported; Table 11 has no code for a retrain that failed: a free value (log 113). -/
def State.trainEnds (s : State) (m width : Nat) : State :=
  let u := s.ucie m
  let s := s.setUcie m { u with since := 0, log := none, asked := false, most := if width = 64 then 64 else u.most }
  let s := match u.log with
    | some (e, ws, we, t) => s.logWidth (pack [(8, m), (8, e), (8, ws), (8, we), (8, width), (10, 0), (78, timeLayout t)])
    | none => s
  if !u.asked then s
  else if width = 0 then
    let (v, s) := s.free
    s.wr E.moduleRetrainStatus 0 (v % 256)
  else s.wr E.moduleRetrainStatus 0 0

/-- Capacity published after an exclusion, unless what followed it has done so (R22, R423). -/
def State.publishOnce (s before : State) : State :=
  if s.rd E.capVersion 0 = before.rd E.capVersion 0 then s.publishCapacity else s

/-- A module that could not be trained is FAILED, and excluded (Table 3, R22). -/
def State.moduleFails (s : State) (m : Nat) : State :=
  let s := (s.wr E.moduleState m 5).wr E.moduleWidth m 0
  (((s.raise 0x3402 2 (m / 32) [.v 16 m]).trainEnds m 0).remap (m / 32)).publishOnce s

/-- MODULE_TRAINED: training has ended at a rate in GT/s and a width, on the upper half of the lanes or not, with a number
of repair lanes in use (Table 3, R361, R367); within 150 µs it counts (R384). -/
def execModuleTrained (t : Time) (module rate width : Nat) (upper : Bool) (repairs : Nat) (s : State) :
    Host.Outcome State Fault Refusal :=
  let s := s.begin t
  let st := s.rd E.moduleState module
  let u := s.ucie module
  .next (if 256 ≤ module ∨ (st ≠ 1 ∧ st ≠ 4) ∨ u.since + 150 * us < t then s
    else
      let w := min width u.most
      if rate < 32 ∨ (w ≠ 64 ∧ w ≠ 32) then s.moduleFails module
      else
        let s := ((s.wr E.moduleState module 3).wr E.moduleWidth module w).wr E.moduleRepairs module repairs
        let s := if w = 32 ∧ st = 4 then s.raise 0x3401 1 (module / 32) [.v 16 module, .v 8 (b2n upper)] else s
        (s.trainEnds module w).remap (module / 32))

/-- MODULE_TRAIN_TIMEOUT: 150 µs have passed (Table 3). -/
def execModuleTrainTimeout (t : Time) (module : Nat) (s : State) : Host.Outcome State Fault Refusal :=
  let s := s.begin t
  let st := s.rd E.moduleState module
  .next (if 256 ≤ module ∨ (st ≠ 1 ∧ st ≠ 4) ∨ t < (s.ucie module).since + 150 * us then s else s.moduleFails module)

/-- FAILED_LANE: a module's lane monitor reports a failure, or it replayed more than 32 flits within 100 µs (R365). -/
def execFailedLane (t : Time) (module replays : Nat) (s : State) : Host.Outcome State Fault Refusal :=
  let s := s.begin t
  let st := s.rd E.moduleState module
  .next (if 256 ≤ module ∨ (st ≠ 2 ∧ st ≠ 3) then s
    else
      let s := (s.bump E.moduleReplays module replays).wr E.moduleState module 4
      let s := s.countEvent (8 * (module / 32) + 4) 0x38 (module % 32) 0 replays
      ((s.setUcie module { s.ucie module with since := t }).remap (module / 32)).resendLane module)

/-- The ports the map would shed without a module. -/
def State.shedWithout (s : State) (m : Nat) : Nat :=
  let n := m / 32
  let s := s.wr E.moduleState m 5
  let l := (enginePorts n).filter (fun p => s.demands p && s.rd E.portState p != 0)
  (s.shedList (s.engineCap n) l.reverse (s.rateSum l)).length

/-- MODULE_RETRAIN's own rule (R371). -/
def retrainRule (m : Nat) (s : State) : Verdict :=
  if 256 ≤ m then .range
  else if s.rd E.moduleState m = 1 ∨ s.rd E.moduleState m = 4 ∨ s.rd E.portsShed (m / 32) < s.shedWithout m then .refused 0 0
  else .ok

/-- A module trained from scratch, its repair record cleared (R371). -/
def State.retrain (s : State) (m : Nat) (u : Ucie) : State :=
  (((s.wr E.moduleState m 1).wr E.moduleRepairs m 0).setUcie m { u with since := s.now }).remap (m / 32)

/-- MODULE_RETRAIN (R371); a module that start-up has not yet trained stays as it is (Table 3). -/
def execModuleRetrain (a : Access) (module : Nat) (s : State) : Host.Outcome State Fault Refusal :=
  .next (s.writeOne a E.moduleRetrain 0 2 module true (retrainRule module)
    (fun s => if s.rd E.moduleState module = 0 then s
      else (s.wr E.moduleRetrainStatus 0 0xFF).retrain module { asked := true }))

/-- WIDTH_EXCHANGE: after a partial reset of the switch end (0) or the engine end (1) both ends exchange the width each
holds; the narrower governs (R372, R384). -/
def execWidthExchange (t : Time) (module reset widthS widthE : Nat) (s : State) : Host.Outcome State Fault Refusal :=
  let s := s.begin t
  let st := s.rd E.moduleState module
  .next (if 256 ≤ module ∨ st < 2 ∨ 4 < st then s
    else
      let u := s.ucie module
      if widthS = widthE then ((s.wr E.moduleState module 1).setUcie module { u with since := t }).remap (module / 32)
      else s.retrain module { u with most := min widthS widthE, log := some (reset, widthS, widthE, t) })

/-! ### Stitch channels (R374-R377, R381) -/

/-- A channel's index lies within its bundle. -/
def bundleHas (pair ch : Nat) : Bool := decide (pair < 400) && decide (ch < bundleSize (pair / 20) (pair % 20))

/-- STITCH_NAK: flits of a channel are sent again from ACK + 1 (R374, R376). -/
def execStitchNak (t : Time) (pair ch flits : Nat) (s : State) : Host.Outcome State Fault Refusal :=
  let s := s.begin t
  .next (if !bundleHas pair ch then s
    else
      let c := s.channel pair ch
      let naks := (c.naks.filter (fun x => decide (t < x + 100 * us))) ++ [t]
      (s.bump E.pairReplays pair flits).setChannel pair ch { c.resend flits with naks := naks })

/-- CHANNEL_TEST_START: more than 16 replays within 100 µs (R376). -/
def execChannelTestStart (t : Time) (pair ch : Nat) (s : State) : Host.Outcome State Fault Refusal :=
  let s := s.begin t
  let c := s.channel pair ch
  .next (if !bundleHas pair ch ∨ c.state ≠ 0 ∨ (c.naks.filter (fun x => decide (t < x + 100 * us))).length ≤ 16 then s
    else ((s.setChannel pair ch { c with state := 1, since := t, naks := [] }).reassign pair).showPair pair)

/-- Spares that a channel with failed wires has left (R376, R382). -/
def sparesLeft (bad : List Nat) : Nat := 4 - bad.length

/-- Every channel of a bundle is retired (R377). -/
def State.bundleGone (s : State) (pair : Nat) : Bool := s.channelsIn pair 2 == bundleSize (pair / 20) (pair % 20)

/-- A die named by Table 7 for an empty bundle, with the ring's own rule (R377, R381). -/
def State.bundleEmpty (s : State) (pair : Nat) : State :=
  let a := pair / 20
  let b := pair % 20
  if a < 8 ∧ b < 8 then s.excludeDie (max a b) 4
  else if a < 8 ∧ b < 18 then s.excludeDie b 4
  else if b < 8 ∧ a < 18 then s.excludeDie a 4
  else if a < 18 ∧ b < 18 then
    (s.raise 0x3408 2 a [.v 16 a, .v 8 (if (a - 8 + 1) % 10 = b - 8 then 0 else 1)]).checkRing
  else if b < 18 then
    if s.bundleGone (20 * 18 + b) ∧ s.bundleGone (20 * 19 + b) then s.excludeDie b 4 else s
  else if a < 18 then
    if s.bundleGone (20 * a + 18) ∧ s.bundleGone (20 * a + 19) then s.excludeDie a 4 else s
  else s

/-- The failed wires of a channel are known: spares take over, or the channel is retired (R376, R377). -/
def State.channelFails (s : State) (pair ch : Nat) (bad : List Nat) : State :=
  let c := s.channel pair ch
  let new := bad.filter (fun w => !c.bad.contains w)
  if 4 < bad.length then
    let s := ((s.setChannel pair ch { c with state := 2, bad := bad, naks := [] }).reassign pair).showPair pair
    let s := (s.raise 0x3407 2 31 [.v 16 pair, .v 16 ch, .v 32 (s.pairChannels pair)]).publishCapacity
    if s.bundleGone pair then s.bundleEmpty pair else s
  else
    let s := ((s.setChannel pair ch { c with state := 0, bad := bad, naks := [] }).reassign pair).showPair pair
    let s := new.foldl (fun (s : State) w => s.raise 0x3406 0 31 [.v 16 pair, .v 16 ch, .v 16 w, .v 32 (sparesLeft bad)]) s
    if new.isEmpty then s else s.publishCapacity

/-- CHANNEL_TEST_DONE: the 4 µs wire test has ended with the wires that failed it (R376, R377). -/
def execChannelTestDone (t : Time) (pair ch : Nat) (wires : List Nat) (s : State) : Host.Outcome State Fault Refusal :=
  let s := s.begin t
  let c := s.channel pair ch
  .next (if !bundleHas pair ch ∨ c.state ≠ 1 ∨ t < c.since + 4 * us then s
    else
      let bad := (wires.filter (fun w => decide (w < 68))).foldl (fun l w => insertNat w l) c.bad
      if bad = c.bad then (((s.setChannel pair ch { c with state := 0 }).reassign pair).showPair pair).bump E.pairTestsClean pair 1
      else s.channelFails pair ch bad)

/-- RING_ENTRY_WAIT: an entering packet has waited 2 µs at a stop (R380). -/
def execRingEntryWait (t : Time) (quire : Nat) (s : State) : Host.Outcome State Fault Refusal :=
  let s := s.begin t
  .next (if quire < 10 then s.bump E.ringEntryWaits quire 1 else s)

end Sys2Proof.Machine
end

