-- ==== Sys2Proof/Machine/Optics.lean ====
section
/-!
DEFINITION. Fabric ports as the optics give them, lasers, stage monitors and engine discovery (spec/12 R325-R333, R341,
R347, R348, R356, R357; spec/20 R565).
-/
namespace Sys2Proof.Machine

/-! ### Channels, rings and ports (R326, R327) -/

/-- The port that a channel carries under its fiber's mode. -/
def State.portOfChan (s : State) (c : Nat) : Nat :=
  let f := c / 8
  match s.rd E.fiberMode f with
  | 0 => 4 * f + c % 8 / 2
  | 1 => if c % 8 < 4 then 4 * f else 4 * f + 2
  | _ => 4 * f

/-- The channels of a port. -/
def State.chansOf (s : State) (p : Nat) : List Nat :=
  ((List.range 8).map (fun k => 8 * fiberOf p + k)).filter (fun c => s.portOfChan c == p)

/-- A bypass circuit uses a wavelength of a fiber pair, on its receive or its transmit side. -/
def State.bypassUses (s : State) (c : Nat) : Bool :=
  s.links.bypasses.any (fun (x : Nat × Bypass) => x.1 / 64 == c / 256 && x.2.wave == c % 8
    && (x.2.inF == c / 8 % 32 || x.2.outF == c / 8 % 32))

/-- The engine is IN_SERVICE and its switch die is. -/
def State.engineUp (s : State) (n : Nat) : Bool := s.rd E.engineState n == 2 && s.rd E.dieState n == 0

/-! ### Ports (R274, R327, R341, R351) -/

/-- PORT_ADMIN's own rule (R327, R351). -/
def portAdminRule (p value : Nat) (s : State) : Verdict :=
  if value = 0 then .ok
  else if !s.portExists p then .range
  else if (s.chansOf p).any (fun c => s.bypassUses c) then .refused 0 0 else .ok

/-- PORT_ADMIN: a port enabled, or taken DOWN at once (R274); its engine's demand changes (R368). -/
def execPortAdmin (a : Access) (port value : Nat) (s : State) : Host.Outcome State Fault Refusal :=
  .next (s.writeOne a E.portAdmin port 1 value true (portAdminRule port value)
    (fun s =>
      if !s.portExists port then s
      else
        let s := s.wr E.portAdmin port value
        let s := if value ≠ 0 then s
          else if s.rd E.portState port = 2 then s.portDown port 1 3
          else if s.rd E.portState port = 3 then s.wr E.portState port 1 else s
        s.remap (dieOf port)))

/-- FIBER_MODE (R327): only while every port of the fiber is DISABLED. -/
def execFiberMode (a : Access) (fiber value : Nat) (s : State) : Host.Outcome State Fault Refusal :=
  let ps := (List.range 4).map (fun u => 4 * fiber + u)
  .next (s.writeOne a E.fiberMode fiber 1 value true
    (fun s => if ps.any (fun p => s.portExists p && s.rd E.portAdmin p != 0) then .refused 0 0 else .ok)
    (fun s =>
      let s := ps.foldl (fun (s : State) p => (s.wr E.portAdmin p 0).wr E.portState p 0) (s.wr E.fiberMode fiber value)
      let s := ps.foldl (fun (s : State) p =>
        if s.portExists p ∧ s.engineUp (fiber / 32) then s.wr E.portState p 1 else s) s
      s.remap (fiber / 32)))

/-- NARROW_EN (R341): refused for a port in ETHERNET mode; out of range for a port index that does not exist (log 197). -/
def execNarrowEn (a : Access) (port value : Nat) (s : State) : Host.Outcome State Fault Refusal :=
  .next (s.writeOne a E.narrowEn port 1 value true
    (fun s => if !s.portExists port then .range else if value = 1 ∧ s.rd E.portMft port = 0 then .refused 0 0 else .ok)
    (fun s => s.putValue E.narrowEn port value))

/-- BER_MEASURE: a port's second ends with its bit error ratio (an f32 encoding) and its codeword counts (R328, R329). -/
def execBerMeasure (t : Time) (port ber corrected uncorrected : Nat) (s : State) : Host.Outcome State Fault Refusal :=
  let s := s.begin t
  .next (if !s.portExists port then s
    else
      let s := ((s.wr E.preFecBer port ber).bump E.fecCorrected port corrected).bump E.fecUncorrected port uncorrected
      let s := (s.countFixed (8 * dieOf port + 3) corrected).countEvent (8 * dieOf port + 3) 0x30 port 0 uncorrected
      if s.rd E.berAlarm 0 < ber then s.raiseLim (60 * sec) port 0x400B 1 (dieOf port) [.v 16 port, .v 32 ber] else s)

/-! ### Lasers (R332, R333, R565) -/

/-- The reading of stage 0 of every wavelength at a laser input lies below its MON_LOW. -/
def State.darkInput (s : State) (l : Nat) : Bool :=
  (List.range 8).all (fun k =>
    let v := s.rd E.monPower (32 * l + k)
    v != 0x8000 && decide (signed 16 v < s.rdInt 16 E.monLow 0))

/-- The module's last report has all eight wavelengths at or above 16.0 dBm. -/
def State.fullPower (s : State) (l : Nat) : Bool :=
  (List.range 8).all (fun k => decide (1600 ≤ s.rdInt 16 E.laserPower (8 * l + k)))

/-- The state of a laser management bus, told at each change to STUCK or NO_SWITCH (R565). -/
def State.setBus (s : State) (n st : Nat) : State :=
  let was := s.rd E.lmBusState n
  let s := s.wr E.lmBusState n st
  if st ≠ was ∧ st ≠ 0 then s.raise 0x1001 2 31 [.v 16 n, .v 8 st] else s

/-- What a laser module reports: presence, lasers on, alarm, power and tone of each wavelength. -/
def State.laserReport (s : State) (l : Nat) (present on : Bool) (alarm : Nat) (powers : List Int) (tones : List Nat) : State :=
  if !present then s.wr E.laserState l 0
  else
    let was := s.rd E.laserState l
    let s := (List.range 8).foldl (fun (s : State) k =>
      (s.wr E.laserPower (8 * l + k) (wrapInt 16 (powers.getD k 0))).wr E.laserPilot (8 * l + k) (tones.getD k 0xFF)) s
    if was = 4 then s
    else if alarm ≠ 0 ∨ (on = true ∧ s.fullPower l = false) then
      let s := s.wr E.laserState l 3
      if was = 3 then s else s.raise 0x4004 2 (l / 8) [.v 16 l, .v 8 alarm]
    else if on = true ∧ s.darkInput l = true then (s.wr E.laserState l 4).raise 0x4005 2 (l / 8) [.v 16 l]
    else s.wr E.laserState l (if on then 2 else 1)

/-- LASER_POLL: every 100 ms, while the bus carries it (R333, R565); `answers` says whether the two-wire switch does. -/
def execLaserPoll (t : Time) (laser : Nat) (answers present on : Bool) (alarm : Nat) (powers : List Int) (tones : List Nat)
    (s : State) : Host.Outcome State Fault Refusal :=
  let s := s.begin t
  let n := laser / 8
  .next (if 64 ≤ laser ∨ s.rd E.lmBusState n = 1 then s
    else if !answers then s.setBus n 2
    else (s.setBus n 0).laserReport laser present on alarm powers tones)

/-- LASER_ENABLE (R333, R358): a write of 1 is refused while the open reading persists. -/
def execLaserEnable (a : Access) (laser value : Nat) (s : State) : Host.Outcome State Fault Refusal :=
  .next (s.writeOne a E.laserEnable laser 1 value true
    (fun s => if value = 1 ∧ s.fullPower laser = true ∧ s.darkInput laser = true then .refused 0 0 else .ok)
    (fun s =>
      let s := s.putValue E.laserEnable laser value
      let st := s.rd E.laserState laser
      if (value = 1 ∧ st = 4) ∨ (value = 0 ∧ st = 2) then s.wr E.laserState laser 1 else s))


/-- LM_INT: the keeper reads bus n within 1 ms (R565): the report of each of its eight inputs. -/
def execLmInt (t : Time) (bus : Nat) (reads : List (Bool × Bool × Nat × List Int × List Nat)) (s : State) :
    Host.Outcome State Fault Refusal :=
  let s := s.begin t
  .next (if 8 ≤ bus ∨ s.rd E.lmBusState bus ≠ 0 then s
    else ((List.range 8).zip reads).foldl (fun (s : State) x =>
      s.laserReport (8 * bus + x.1) x.2.1 x.2.2.1 x.2.2.2.1 x.2.2.2.2.1 x.2.2.2.2.2) s)

/-- LM_BUS_STUCK: SDA was held low for 1 ms; after nine clocks it is still low, or not (R565). -/
def execLmBusStuck (t : Time) (bus : Nat) (low : Bool) (s : State) : Host.Outcome State Fault Refusal :=
  let s := s.begin t
  .next (if 8 ≤ bus ∨ !low then s else s.setBus bus 1)

/-- LM_BUS_RETRY: a stuck bus tried again, with what is found (R565). -/
def execLmBusRetry (t : Time) (bus found : Nat) (s : State) : Host.Outcome State Fault Refusal :=
  let s := s.begin t
  .next (if 8 ≤ bus ∨ 2 < found ∨ s.rd E.lmBusState bus = 0 then s else s.setBus bus found)

/-! ### Stage monitors (R347, R348) -/

/-- A stage's reading of a channel; none where there is no reading. -/
def State.reading (s : State) (stage c : Nat) : Option Int :=
  let v := s.rd E.monPower (2048 * stage + c)
  if v = 0x8000 then none else some (signed 16 v)

/-- A reading below its stage's MON_LOW. -/
def State.lowAt (s : State) (stage c : Nat) : Bool :=
  match s.reading stage c with
  | some v => decide (v < s.rdInt 16 E.monLow stage)
  | none => false

/-- A reading within its stage's normal range (Table 7). -/
def State.normalAt (s : State) (stage c : Nat) : Bool :=
  match s.reading stage c with
  | some v =>
    let lo : Int := [1600, 930, 280, 150, -300].getD stage 0
    let hi : Int := [1900, 1230, 650, 500, 550].getD stage 0
    decide (lo ≤ v) && decide (v ≤ hi)
  | none => false

/-- The code of Table 8 for a channel, with the stage that located it. -/
def State.lossOf (s : State) (c : Nat) : Nat × Nat :=
  let others := (List.range 8).map (fun k => 8 * (c / 8) + k)
  if others.all (fun d => s.lowAt 0 d) then (1, 0)
  else if s.lowAt 0 c && others.all (fun d => d == c || !s.lowAt 0 d) then (2, 0)
  else if s.normalAt 0 c && s.lowAt 1 c then (3, 1)
  else if s.normalAt 0 c && s.normalAt 1 c && s.lowAt 2 c && s.rd E.ringState (2 * c) == 3 then (4, 2)
  else if s.normalAt 0 c && s.normalAt 1 c && s.normalAt 2 c && s.lowAt 3 c then (5, 3)
  else if s.lowAt 4 c then (6, 4) else (0, 0)

/-- A channel's loss located afresh; a change to another code than 0 is told (R348). -/
def State.locate (s : State) (c : Nat) : State :=
  let (code, stage) := s.lossOf c
  if code = s.rd E.lossLocated c then s
  else
    let s := s.wr E.lossLocated c code
    if code = 0 then s
    else s.raiseLim (60 * sec) c 0x4006 1 (c / 256) [.v 16 c, .v 8 code, .v 16 (s.rd E.monPower (2048 * stage + c))]

/-- The local channels that a reading of a stage at a local channel stands for: a laser input's is that of its wavelength in all
four fibers it feeds (R331, R347). -/
def monitored (stage k : Nat) : List Nat :=
  if stage = 0 then (List.range 4).map (fun i => 8 * (4 * (k / 32) + i) + k % 8) else [k]

/-- MONITOR_READ: an engine's readings, each with its stage, local channel and value in 0.01 dBm, −32,768 for none
(R347, R348). -/
def execMonitorRead (t : Time) (engine : Nat) (readings : List (Nat × Nat × Int)) (s : State) :
    Host.Outcome State Fault Refusal :=
  let s := s.begin t
  .next (if 8 ≤ engine ∨ s.rd E.engineState engine ≠ 2 then s
    else
      let s := (readings.filter (fun r => decide (r.1 < 5) && decide (r.2.1 < 256))).foldl (fun (s : State) r =>
        (monitored r.1 r.2.1).foldl (fun (s : State) k =>
          s.wr E.monPower (2048 * r.1 + 256 * engine + k) (wrapInt 16 r.2.2)) s) s
      (List.range 256).foldl (fun (s : State) k => s.locate (256 * engine + k)) s)

/-! ### Engine discovery (R356, R357) -/

/-- The first check of R357 that a capability record fails, 0 for none. -/
def engineCause (v : Nat) : Nat :=
  if bits v 471 468 ≠ 1 then 1
  else if bits v 463 456 ≠ 32 ∨ bits v 455 452 ≠ 8 ∨ bits v 451 448 ≠ 8 then 2
  else if bits v 447 432 ≠ 22940 ∨ bits v 431 424 ≠ 20 then 3
  else if bits v 423 412 < 425 then 4
  else if !bit v 407 then 5
  else if bits v 406 402 ≠ 31 then 6
  else if 5 * bits v 383 368 < 6 * bits v 399 384 then 7
  else if 110 < bits v 319 312 then 8
  else if 30 < bits v 311 304 then 9 else 0

/-- An engine excluded: its ports are ABSENT (R357). -/
def State.excludeEngine (s : State) (n cause : Nat) : State :=
  let s := ((s.wr E.engineState n 3).wr E.engineCause n cause).wr E.engineCap n 0
  let s := s.raise 0x4001 2 n [.v 16 n, .v 8 cause]
  let s := (enginePorts n).foldl (fun (s : State) p => if s.portExists p then s.portDown p 0 6 else s) s
  s.publishCapacity

/-- An engine admitted: its ports are DOWN until their links come up. -/
def State.admitEngine (s : State) (n v : Nat) : State :=
  let s := ((s.wr E.engineState n 2).wr E.engineCause n 0).wr E.engineCap n v
  let s := s.wr E.bypassLimit n (8 * bits v 411 408)
  let s := (enginePorts n).foldl (fun (s : State) p =>
    if s.portExists p ∧ s.rd E.portState p = 0 then s.wr E.portState p 1 else s) s
  s.remap n

/-- No module of an engine has trained or is training (R362). -/
def State.noModule (s : State) (n : Nat) : Bool :=
  (engineModules n).all (fun m => s.rd E.moduleState m == 0 || s.rd E.moduleState m == 5)

/-- ENGINE_DISCOVERY: the keeper reads an engine's record over a sideband that has trained, or finds none (R357, R362). -/
def execEngineDiscovery (t : Time) (engine : Nat) (record : BitVec 512) (sideband : Bool) (s : State) :
    Host.Outcome State Fault Refusal :=
  let s := s.begin t
  .next (if 8 ≤ engine ∨ 2 ≤ s.rd E.engineState engine ∨ s.rd E.dieState engine = 1 then s
    else if !sideband ∨ s.noModule engine then s.excludeEngine engine 10
    else if engineCause record.toNat ≠ 0 then s.excludeEngine engine (engineCause record.toNat)
    else s.admitEngine engine record.toNat)

end Sys2Proof.Machine
end

