-- ==== Sys2Proof/Machine/Jobs.lean ====
section
/-!
DEFINITION. The jobs' commands: start, retire with its purge, advance, withdraw, queries and time limits (spec/16 R444-R458,
spec/18 R520).
-/
namespace Sys2Proof.Machine

/-! ### Start (R446-R450) -/

/-- The state of a tag at a time: a quarantine ends 10 s after it began (R455, R468). -/
def Job.at_ (j : Job) (t : Time) : JobState :=
  if j.state = .quarantine ∧ j.since + 10 * sec ≤ t then .free else j.state

/-- Tags held in a state other than FREE. -/
def State.tagsHeld (s : State) : Nat := (s.jobs.filter (fun (x : Nat × Job) => x.2.at_ s.now != .free)).length

/-- The first cause of Table 3 that a start record meets, 0 for none (R446). -/
def State.startCode (s : State) (v : Nat) : Nat :=
  let j := s.job (bits v 511 496)
  if bits v 511 496 = 0 ∨ bits v 319 0 ≠ 0 ∨ !quotasFit v quotaMax then 0x01
  else match j.at_ s.now with
    | .quarantine => 0x03
    | .free =>
      if !quotasFit v s.quotaTotals then 0x05
      else if 4096 ≤ s.tagsHeld ∨ 64 ≤ s.starts.length then 0x06 else 0
    | _ => 0x02

/-- A start refused or a pending one removed is told (Table 12). -/
def State.tellRefused (s : State) (tag gen code : Nat) : State := s.raise 0x7012 1 31 [.v 16 tag, .v 8 gen, .v 8 code]

/-- The outcome of a request reported per tag in JOB_QUERY, whatever the tag's state (R446, R451; log 130). -/
def State.reportJob (s : State) (tag code : Nat) : State :=
  let j := s.job tag
  if tag = 0 then s
  else s.setJob tag { j with state := if j.at_ s.now = .free then .free else j.state, status := code }

/-- A refused start: reported, and told (R446). -/
def State.startRefused (v : Nat) (s : State) : State :=
  let tag := bits v 511 496
  let code := s.startCode v
  (s.reportJob tag code).tellRefused tag (bits v 495 488) code

/-- A start that is not refused joins the queue, which is evaluated at once (R448); a start that waits is told with the first
quota that does not fit, whose coding is open (log 130): a free value. -/
def State.takeStart (v : Nat) (s : State) : State :=
  let tag := bits v 511 496
  let s := s.setJob tag { state := .pending, gen := bits v 495 488, record := BitVec.ofNat 512 v, status := 4, since := s.now,
                          old := (s.job tag).old }
  let s := ({ s with starts := s.starts ++ [tag] }).evalStarts 65
  if (s.job tag).state ≠ .pending then s
  else
    let (q, s) := s.free
    s.raise 0x7011 0 31 [.v 16 tag, .v 8 (bits v 495 488), .v 32 q, .v 32 (s.starts.idxOf tag)]

/-- JOB_START (R446). -/
def execJobStart (a : Access) (record : BitVec 512) (s : State) : Host.Outcome State Fault Refusal :=
  let v := record.toNat
  .next (s.writeWith a E.jobStart 0 64 0 true
    (fun s => if s.startCode v = 0 then .ok else .refused 0 0) (State.startRefused v) (State.takeStart v))

/-- A pending start removed with a status (Table 1). -/
def State.dropStart (s : State) (tag code : Nat) : State :=
  let j := s.job tag
  let s := { s with starts := s.starts.filter (fun x => x != tag) }
  (s.setJob tag { j with state := .free, status := code, since := s.now }).tellRefused tag j.gen code

/-- JOB_WITHDRAW (R469). -/
def execJobWithdraw (a : Access) (tag : Nat) (s : State) : Host.Outcome State Fault Refusal :=
  .next (s.writeOne a E.jobWithdraw 0 2 tag true
    (fun s => if (s.job tag).state = .pending then .ok else .refused E.jobWithdrawStatus 0x0B)
    (fun s => (s.dropStart tag 0x08).wr E.jobWithdrawStatus 0 0x08))

/-- PENDING_LIMIT_EXPIRY: a start has waited its limit; one that fits at that moment is admitted (Table 1, R468). -/
def execPendingLimitExpiry (t : Time) (tag : Nat) (s : State) : Host.Outcome State Fault Refusal :=
  let s := s.begin t
  let j := s.job tag
  let limit := bits j.record.toNat 335 320
  .next (if j.state ≠ .pending ∨ limit = 0 ∨ t < j.since + limit * ms then s
    else
      let s := s.evalStarts 65
      if (s.job tag).state = .pending then s.dropStart tag 0x07 else s)

/-! ### Retire (R451-R456) -/

/-- The first cause of Table 3 that a retire request meets, 0 for none (R451, R454, R455). -/
def State.retireCode (s : State) (v : Nat) : Nat :=
  let j := s.job (bits v 31 16)
  if 1 < bits v 7 0 ∨ bits v 31 16 = 0 then 0x01
  else match j.at_ s.now with
    | .free => 0x0A
    | .quarantine => 0x0A
    | .retiring => 0x02
    | _ =>
      if j.gen ≠ bits v 15 8 then 0x09
      else if bits v 7 0 = 1 ∧ j.state = .active
        ∧ j.old.any (fun x => x.1 == (j.gen + 1) % 256 && decide (s.now < x.2 + 10 * sec)) then 0x09 else 0

/-- An entry deleted by the drain of R272, one that is draining already included. -/
def Versioned.retireEntry {α : Type} (v : Versioned α) (empty : α) (now : Time) : Versioned α :=
  { cur := empty, ver := v.ver + 1, held := 0, oldHeld := v.held + v.oldHeld, draining := decide (0 < v.held + v.oldHeld),
    since := if v.draining then v.since else now, slow := false, turn := v.turn, owner := v.owner }

/-- The table entries a job owns deleted (Table 6 step 8). -/
def State.dropTables (s : State) (tag : Nat) : State :=
  let n := s.net
  let groups := (n.mcasts.filter (fun (x : Nat × Versioned (List Nat)) => x.2.owner == tag && !x.2.cur.isEmpty)).map
    (fun (x : Nat × Versioned (List Nat)) => (x.1, x.2.cur.length))
  let circs := (n.circuits.filter (fun (x : Nat × Versioned (BitVec 128)) => x.2.owner == tag && circState x.2.cur != 0)).map
    (fun (x : Nat × Versioned (BitVec 128)) => (x.1, circPort x.2.cur))
  let s := { s with net := { n with
    sprays := n.sprays.map (fun (x : Nat × Versioned Spray) =>
      if x.2.owner = tag ∧ !x.2.cur.members.isEmpty then (x.1, x.2.retireEntry ⟨[], 0xFFFF⟩ s.now) else x)
    circuits := n.circuits.map (fun (x : Nat × Versioned (BitVec 128)) =>
      if x.2.owner = tag ∧ circState x.2.cur ≠ 0 then (x.1, x.2.retireEntry 0 s.now) else x)
    mcasts := n.mcasts.map (fun (x : Nat × Versioned (List Nat)) =>
      if x.2.owner = tag ∧ !x.2.cur.isEmpty then (x.1, x.2.retireEntry [] s.now) else x) } }
  let s := groups.foldl (fun (s : State) g =>
    (s.wr E.mcastMembers g.1 0).wr E.mcastEntriesFree 0 (s.rd E.mcastEntriesFree 0 + g.2)) s
  let s := circs.foldl (fun (s : State) c => (s.wr E.circuitState c.1 0).showReserved c.2) s
  s.countDraining

/-- The entries of a job that still drain, by table and index. -/
def State.drainingOf (s : State) (tag : Nat) : List (Nat × Nat) :=
  ((s.net.sprays.filter (fun (x : Nat × Versioned Spray) => x.2.owner == tag && x.2.draining)).map (fun (x : Nat × Versioned Spray) => (0, x.1)))
  ++ ((s.net.circuits.filter (fun (x : Nat × Versioned (BitVec 128)) => x.2.owner == tag && x.2.draining)).map
    (fun (x : Nat × Versioned (BitVec 128)) => (1, x.1)))
  ++ ((s.net.mcasts.filter (fun (x : Nat × Versioned (List Nat)) => x.2.owner == tag && x.2.draining)).map
    (fun (x : Nat × Versioned (List Nat)) => (2, x.1)))

/-- The counters and samplers that name a job released (Table 6 step 9, R520). -/
def State.dropCounters (s : State) (tag : Nat) : State :=
  let s := (s.regs.filter (fun (x : Nat × Nat) => x.1 / 2 ^ 24 == E.counterSelect && bits x.2 111 96 == tag)).foldl
    (fun (s : State) (x : Nat × Nat) =>
      let el := x.1 % 2 ^ 24
      (s.wr E.counterSelect el (x.2 - bits x.2 119 118 * 2 ^ 118)).wr E.counterValue (6 * (el / 4) + el % 4) 0) s
  (s.regs.filter (fun (x : Nat × Nat) => x.1 / 2 ^ 24 == E.sampler && bits x.2 99 84 == tag)).foldl
    (fun (s : State) (x : Nat × Nat) => s.wr E.sampler (x.1 % 2 ^ 24) (x.2 % 2 ^ 127)) s

/-- The job's operations are deregistered with reason JOB_RETIRED (R69, log 132); its graphs go (Table 6 steps 2 to 4). -/
def State.dropOps (s : State) (tag : Nat) : State :=
  let s := (s.coll.ctxs.filter (fun (x : Nat × Ctx) => jobOf x.2.reg.op == tag)).foldl
    (fun (s : State) (x : Nat × Ctx) => if x.2.admitted then s.deregister x.1 0x08 x.2 else s.endOp x.1 0x08) s
  (s.jobGraphs tag).foldl (fun (s : State) (x : Nat × Graph) => (s.dropTiles x.1).removeGraph x.2.id 0x08) s

/-- A group kept through an ADVANCE: UNPROTECTED until its next round (R456). -/
def Parity.advanced (p : Parity) : Parity :=
  { p with state := if p.state = 2 then 2 else 1, pending := none, pPages := [], told := none, round := none, doneFor := none,
           waived := none, inst := 0 }

/-- A rebuild of the job's groups ends unfinished. -/
def State.dropRebuild (s : State) (tag : Nat) : State :=
  match s.graphs.rebuild with
  | some r => if r.job = tag then s.failRebuild r else s
  | none => s

/-- The purge of a retire (R452 Table 6). -/
def State.purge (s : State) (tag : Nat) (advance : Bool) : State :=
  let s := ((s.dropRebuild tag).dropOps tag).dropTables tag
  let s := s.dropCounters tag
  if advance then
    { s with graphs := { s.graphs with parity := s.graphs.parity.map (fun (x : Nat × Parity) =>
      if x.2.job = tag then (x.1, x.2.advanced) else x) } }
  else
    let s := (s.jobParity tag).foldl (fun (s : State) (x : Nat × Parity) => s.removeParity x.1) s
    { s with
      graphs := { s.graphs with tensors := s.graphs.tensors.filter (fun (x : Nat × Tensor) => x.1 / 65536 != tag) }
      spawns := s.spawns.filter (fun (x : Nat × Session) => x.2.job != tag) }

/-- A retire request committed: a PENDING job is withdrawn, an ACTIVE one enters RETIRING and is purged (Table 1, R452). -/
def State.takeRetire (v : Nat) (s : State) : State :=
  let tag := bits v 31 16
  let j := s.job tag
  if j.state = .pending then (s.dropStart tag 0x08).wr E.jobRetireStatus 0 0x08
  else
    let adv := bits v 7 0 == 1
    let s := s.setJob tag { j with state := .retiring, status := 0xFF, since := s.now, advance := adv, retired := s.now, slow := false }
    (s.wr E.jobRetireStatus 0 0xFF).purge tag adv

/-- A write of JOB_RETIRE (R451). -/
def State.writeRetire (s : State) (a : Access) (v : Nat) : State :=
  s.writeWith a E.jobRetire 0 4 0 true
    (fun s => if s.retireCode v = 0 then .ok else .refused E.jobRetireStatus (s.retireCode v))
    (fun u => u.reportJob (bits v 31 16) (u.retireCode v)) (State.takeRetire v)

/-- JOB_RETIRE: a request of mode RETIRE (R451). -/
def execJobRetire (a : Access) (record : BitVec 32) (s : State) : Host.Outcome State Fault Refusal :=
  .next (s.writeRetire a record.toNat)

/-- JOB_ADVANCE: a request of mode ADVANCE (R451, R456). -/
def execJobAdvance (a : Access) (record : BitVec 32) (s : State) : Host.Outcome State Fault Refusal :=
  .next (s.writeRetire a record.toNat)

/-- JOB_RETIRED: every step of the purge is complete (R453).  After an ADVANCE a parity device, which holds no graph to wait for,
registers its groups' operations at once (R456; log 133). -/
def execJobRetired (t : Time) (tag : Nat) (s : State) : Host.Outcome State Fault Refusal :=
  let s := s.begin t
  let j := s.job tag
  .next (if j.state ≠ .retiring ∨ !(s.drainingOf tag).isEmpty then s
    else
      let gen := j.gen
      let old := j.old.filter (fun x => decide (t < x.2 + 10 * sec)) ++ [(j.gen, t)]
      let j := { j with since := t, old := old, state := if j.advance then .active else .quarantine,
                        gen := if j.advance then (j.gen + 1) % 256 else j.gen, status := if j.advance then 0 else 0x0A }
      let s := (s.setJob tag j).wr E.jobRetireStatus 0 j.status
      let s := s.raise 0x7013 0 31 [.v 16 tag, .v 8 gen, .v 8 (b2n j.advance), .v 32 ((t - j.retired) / us)]
      let s := if j.advance then s.renewParity (fun p => p.job == tag && p.pgei == s.gei) else s
      s.evalStarts 65)

/-- RETIRE_SLOW: a drain has not completed 100 ms after the commit (R452). -/
def execRetireSlow (t : Time) (tag : Nat) (s : State) : Host.Outcome State Fault Refusal :=
  let s := s.begin t
  let j := s.job tag
  let left := s.drainingOf tag
  .next (if j.state ≠ .retiring ∨ j.slow ∨ left.isEmpty ∨ t < j.retired + 100 * ms then s
    else (s.setJob tag { j with slow := true }).raise 0x7014 1 31
      ([.v 16 tag, .v 8 j.gen] ++ left.foldl (fun l x => l ++ [.v 8 x.1, .v 16 x.2]) []))

/-- QUARANTINE_END: 10 s after the purge completed (R455). -/
def execQuarantineEnd (t : Time) (tag : Nat) (s : State) : Host.Outcome State Fault Refusal :=
  let s := s.begin t
  let j := s.job tag
  .next (if j.state ≠ .quarantine ∨ t < j.since + 10 * sec then s
    else s.setJob tag { j with state := .free, since := t })

/-! ### Queries (R469 Table 11) -/

/-- The answer of JOB_QUERY. -/
def jobAnswer (v : Nat) (s : State) : Nat :=
  let tag := bits v 255 240
  let j := s.job tag
  let pos := if j.state = .pending then s.starts.idxOf tag else 0
  pack [(16, tag), (4, (j.at_ s.now).code), (8, j.status), (8, j.gen), (6, pos), (136, 0), (78, timeLayout j.since)]

/-- JOB_QUERY: the record is held; a read gives the answer of that moment. -/
def execJobQuery (a : Access) (record : BitVec 256) (s : State) : Host.Outcome State Fault Refusal :=
  .next (s.writeOne a E.jobQuery 0 32 0 (s.ownsJob a (bits record.toNat 255 240)) (fun _ => .ok)
    (fun s => s.wr E.jobQuery 0 (2 ^ 256 + record.toNat)))

/-- The answer of JOB_QUOTA. -/
def quotaAnswer (v : Nat) (s : State) : Nat := quotaPack (bits v 511 496) (s.quotasUsed (bits v 511 496))

/-- JOB_QUOTA: the record is held; a read gives the answer of that moment. -/
def execJobQuota (a : Access) (record : BitVec 512) (s : State) : Host.Outcome State Fault Refusal :=
  .next (s.writeOne a E.jobQuota 0 64 0 (s.ownsJob a (bits record.toNat 511 496)) (fun _ => .ok)
    (fun s => s.wr E.jobQuota 0 (2 ^ 512 + record.toNat)))

end Sys2Proof.Machine
end

