-- ==== Sys2Proof/Machine/Counters.lean ====
section
/-!
DEFINITION. Counter writes, snapshots and samples (spec/18 R507-R521).
-/
namespace Sys2Proof.Machine

/-! ### Blocks and selections -/

/-- A block of Table 1 exists (R507). -/
def blockExists (b : Nat) : Bool :=
  let d := b / 8; let u := b % 8
  (decide (d < 8) && decide (u ≤ 4)) || (decide (8 ≤ d) && decide (d < 18) && decide (u ≤ 6)) || ((d == 18 || d == 19) && u == 0)

/-- The existing blocks as a mask. -/
def allBlocks : Nat := (List.range 160).foldl (fun a b => if blockExists b then a + 2 ^ b else a) 0

/-- The unit of a block, numbered in the order of Table 1 (STACK_B as STACK_A). -/
def unitOf (b : Nat) : Nat :=
  let d := b / 8; let u := b % 8
  if d < 8 then u else if d < 18 then (if u ≤ 4 then 5 + u else 4 + u) else 11

/-- An event's rule at a block (R510 Table 3): unit, code, whether a level, whether attributable, and the ARG values besides
0xFFFF, as an interval; none where the table lists no selector. -/
def eventRow (b event : Nat) : Option (Bool × Bool × Option (Nat × Nat)) :=
  let d := b / 8
  let ports := some (128 * d, 128 * d + 127)
  let queues := some (1152 * d, 1152 * d + 1151)
  let q := d - 8
  match unitOf b, event with
  | 0, 0x01 => some (false, true, ports)
  | 0, 0x02 => some (false, true, ports)
  | 0, 0x03 => some (false, true, some (1, 14))
  | 0, 0x04 => some (true, false, ports)
  | 1, 0x10 => some (false, true, queues)
  | 1, 0x11 => some (false, true, queues)
  | 1, 0x12 => some (false, true, queues)
  | 1, 0x13 => some (true, false, queues)
  | 1, 0x14 => some (false, true, queues)
  | 1, 0x15 => some (true, false, ports)
  | 2, 0x20 => some (true, false, some (0, 3))
  | 2, 0x21 => some (false, false, some (0, 3))
  | 2, 0x22 => some (false, true, none)
  | 3, 0x30 => some (false, false, ports)
  | 3, 0x31 => some (false, false, some (0, 255))
  | 4, 0x38 => some (false, false, some (0, 31))
  | 4, 0x39 => some (true, false, none)
  | 5, 0x40 => some (false, true, none)
  | 5, 0x41 => some (false, true, none)
  | 5, 0x42 => some (true, false, none)
  | 5, 0x43 => some (false, true, none)
  | 5, 0x44 => some (false, true, none)
  | 5, 0x45 => some (false, true, none)
  | 5, 0x46 => some (false, true, none)
  | 5, 0x47 => some (true, false, none)
  | 6, 0x50 => some (false, true, none)
  | 6, 0x51 => some (false, true, none)
  | 6, 0x52 => some (true, false, none)
  | 7, 0x60 => some (false, true, some (1, 8))
  | 7, 0x61 => some (false, false, none)
  | 7, 0x62 => some (true, false, none)
  | 7, 0x63 => some (true, false, none)
  | 8, 0x70 => some (false, false, some (4 * q, 4 * q + 3))
  | 8, 0x71 => some (false, false, some (4 * q, 4 * q + 3))
  | 8, 0x72 => some (false, false, some (4 * q, 4 * q + 3))
  | 9, 0x80 => some (false, false, some (0, 3))
  | 9, 0x81 => some (false, false, none)
  | 9, 0x82 => some (true, false, none)
  | 10, 0x90 => some (false, false, some (0, 1))
  | 10, 0x91 => some (true, false, some (0, 1))
  | 11, 0xA0 => some (true, false, none)
  | 11, 0xA1 => some (false, false, some (0, 2))
  | _, _ => none

/-- COUNTER_SELECT's own rule (R509). -/
def selectRule (el v : Nat) (_ : State) : Verdict :=
  let b := el / 4
  let event := bits v 127 120; let mode := bits v 119 118; let job := bits v 111 96; let arg := bits v 95 80
  if bits v 116 112 ≠ 0 then .range
  else if event = 0 ∧ mode = 0 then .ok
  else if !blockExists b then .range
  else match eventRow b event with
    | none => .range
    | some (level, attr, args) =>
      let modeOk := if level then decide (2 ≤ mode) else mode == 1
      let argOk := arg == 0xFFFF || match args with
        | some (lo, hi) => decide (lo ≤ arg) && decide (arg ≤ hi)
        | none => false
      if modeOk ∧ (job = 0 ∨ attr) ∧ argOk then .ok else .range

/-- A counter select record without its reserved bits (R9). -/
def selectMask (v : Nat) : Nat := pack [(11, bits v 127 117), (5, 0), (32, bits v 111 80), (16, 0), (32, bits v 63 32), (32, 0)]

/-- A selection in force, its counter and OVF at 0 (R509). -/
def State.setSelect (el v : Nat) (s : State) : State :=
  (s.wr E.counterSelect el (selectMask v)).wr E.counterValue (6 * (el / 4) + el % 4) 0

/-- COUNTER_SELECT (R509). -/
def execCounterSelect (a : Access) (el : Nat) (record : BitVec 128) (s : State) : Host.Outcome State Fault Refusal :=
  .next (s.writeOne a E.counterSelect el 16 0 true (selectRule el record.toNat) (State.setSelect el record.toNat))

/-- COUNTER_VALUE: a nonzero write returns a counter and its OVF to 0 (R508). -/
def execCounterValue (a : Access) (el value : Nat) (s : State) : Host.Outcome State Fault Refusal :=
  .next (s.writeOne a E.counterValue el 8 value true (fun _ => .ok) (fun s => s.putValue E.counterValue el value))

/-- A block's STATE in a snapshot (Table 5): EXCLUDED, or CLOCK_OFF while its clock is stopped (R511, R530). -/
def State.blockState (s : State) (b : Nat) : Nat :=
  let d := b / 8; let u := b % 8
  let off : Bool :=
    if d < 8 then s.rd E.domainState d == 0
    else if d < 18 then
      if u ≤ 1 then !(s.coll.ctxs.any (fun (x : Nat × Ctx) => x.2.admitted) || !s.graphs.parity.isEmpty || !s.spawns.isEmpty)
      else if u = 2 then !bit (s.rd E.coldState (d - 8)) 4
      else if u = 3 then bits (s.rd E.coldState (d - 8)) 3 0 == 0
      else false
    else false
  if s.rd E.dieState d = 1 then 2 else b2n off

/-- COUNTER_WRAP: a counter advances by what its block's clock has counted since it was last advanced, and wraps and sets OVF
where it passes 2^48 (R508): cycles, levels and the quantities that other commands do not carry.  A block whose clock is stopped
counts nothing (R511). -/
def execCounterWrap (t : Time) (el amount : Nat) (s : State) : Host.Outcome State Fault Refusal :=
  let s := s.begin t
  .next (if blockExists (el / 6) ∧ s.blockState (el / 6) = 0 then s.addCounter (el / 6) (el % 6) amount else s)

/-! ### The rings (R515) -/

/-- Bytes of each ring: half of the sample-buffer partition after its first 1 GiB, on the stacks in service (R515). -/
def State.ringBytes (s : State) : Nat := (s.rd E.sampleGib 0 * 2 ^ 30 * s.stacksUp / 20 - 2 ^ 30) / 2

/-- The stack of a ring's n-th block: block by block over the stacks in service (R515). -/
def State.stripeStack (s : State) (n : Nat) : Nat :=
  let l := (List.range 20).filter (fun h => s.stackUp h)
  l.getD (n % max 1 l.length) 20

/-- The oldest records of a list that go until the rest fits in a number of blocks: how many. -/
def overBy : Nat → List Nat → Nat
  | _, [] => 0
  | cap, n :: r => if (n :: r).foldl (· + ·) 0 ≤ cap then 0 else 1 + overBy cap r

/-! ### Snapshots (R512-R514) -/

/-- What SNAP_PERIOD, SNAP_BASE or SNAP_MASK is at an instant: the value that the first write yet to apply replaces, else the
one written (R512). -/
def State.snapValue (s : State) (e : Nat) (t : Time) : Nat :=
  match s.probes.waits.find? (fun x => x.1 == e && decide (t < x.2.2)) with
  | some x => x.2.1
  | none => s.rd e 0

/-- The configuration in force at an instant: SNAP_PERIOD, SNAP_BASE (as a layout), SNAP_MASK, and whether no record has been
formed under it yet. -/
def State.snapConfig (s : State) (t : Time) : Nat × Nat × Nat × Bool :=
  (s.snapValue E.snapPeriod t, s.snapValue E.snapBase t, s.snapValue E.snapMask t,
   s.probes.waits.any (fun x => decide (x.2.2 ≤ t)))

/-- A write of SNAP_PERIOD, SNAP_BASE or SNAP_MASK applies from the first instant at least 10 µs after its commit (R512). -/
def State.setSnap (s : State) (e v : Nat) : State :=
  let v := if e = E.snapMask then v &&& allBlocks else v
  let s := { s with probes := { s.probes with waits := s.probes.waits ++ [(e, s.rd e 0, s.now + 10 * us)] } }
  s.wr e 0 v

/-- A block entry (Table 5). -/
def State.blockEntry (s : State) (b : Nat) : BitVec 512 :=
  BitVec.ofNat 512 (pack ([(16, b), (8, s.blockState b), (40, 0)] ++ (List.range 6).map (fun k => (64, s.rd E.counterValue (6 * b + k)))
    ++ [(64, 0)]))

/-- A snapshot record put into its ring, oldest records overwritten (R513, R515). -/
def State.writeSnap (s : State) (t : Time) (mask : Nat) (changed : Bool) : State :=
  let blocks := (List.range 160).filter (fun b => bit mask b && blockExists b)
  let seq := s.rd E.snapNext 0
  let head := BitVec.ofNat 512 (pack [(64, seq), (78, timeLayout t), (24, s.gei), (8, blocks.length), (32, min s.probes.missed (2 ^ 32 - 1)),
    (1, b2n changed), (305, 0)])
  let words := head :: blocks.map (fun b => s.blockEntry b)
  let rec_ := words.zipIdx.map (fun x => (s.stripeStack (s.probes.written + x.2), x.1))
  let all := s.probes.snaps.set seq rec_
  let past := overBy (s.ringBytes / 64) (all.map (fun (x : Nat × List (Nat × BitVec 512)) => x.2.length))
  let s := { s with probes := { s.probes with
    snaps := all.drop past, written := s.probes.written + words.length, missed := 0,
    waits := s.probes.waits.filter (fun x => decide (t < x.2.2)) } }
  (s.wr E.snapNext 0 (seq + 1)).bump E.snapOverwritten 0 past

/-- SNAPSHOT_INSTANT: an instant T_k of the configuration in force; every masked block is latched and a record written, or,
where the reader finds its last record not yet written or a takeover falls on it, the instant is missed (R512-R514). -/
def execSnapshotInstant (t : Time) (written : Bool) (s : State) : Host.Outcome State Fault Refusal :=
  let s := s.begin t
  let (period, base, mask, fresh) := s.snapConfig t
  let off := (t : Int) - (timeNear t base : Nat)
  .next (if period = 0 ∨ off % (period : Int) ≠ 0 then s
    else if !written then
      let s := { s with probes := { s.probes with missed := s.probes.missed + 1 } }
      (s.bump E.snapMissed 0 1).raiseLim sec 0 0xA002 1 31 [.v 32 (s.probes.missed)]
    else s.keeperWork.writeSnap t mask fresh)

/-- The record SNAP_SELECT names, its blocks side by side and zeros after its end; zeros where there is none (R515). -/
def State.snapEntry (s : State) : Nat :=
  match s.probes.snaps.get? (s.rd E.snapSelect 0) with
  | some l => pack (l.map (fun x => (512, x.2.toNat))) * 2 ^ (512 * (113 - l.length))
  | none => 0

/-! ### Samples (R516-R518) -/

/-- The key of a source: kind (1 FRAME, 2 CHUNK, 3 TASK, 4 STACK) and its die, or its stack. -/
def sourceKey (kind source : Nat) : Nat := 32 * kind + source

/-- A sampler's reload of a countdown: PERIOD, less a pseudo-random value with JITTER, which is a free value (R516). -/
def State.reload (s : State) (kind source : Nat) : State :=
  let v := s.rd E.sampler (kind - 1)
  let p := bits v 123 100
  if bit v 126 then
    let (x, s) := s.free
    { s with probes := { s.probes with downs := s.probes.downs.set (sourceKey kind source) (p - x % (p / 16 + 1)) } }
  else { s with probes := { s.probes with downs := s.probes.downs.set (sourceKey kind source) p } }

/-- A sampler record without its reserved bits. -/
def samplerMask (v : Nat) : Nat := pack [(2, bits v 127 126), (2, 0), (120, bits v 123 4), (4, 0)]

/-- The sources of a kind (R516): switch dies, quire dies, quire dies, stacks. -/
def sourcesOf (kind : Nat) : List Nat :=
  if kind = 1 then List.range 8 else if kind = 4 then List.range 20 else (List.range 10).map (8 + ·)

/-- SAMPLER: a sampler configured, every countdown of its kind reloaded (R516). -/
def execSampler (a : Access) (el : Nat) (record : BitVec 128) (s : State) : Host.Outcome State Fault Refusal :=
  .next (s.writeOne a E.sampler el 16 0 true (fun _ => if bits record.toNat 123 100 = 0 then .range else .ok)
    (fun s => (sourcesOf (el + 1)).foldl (fun (s : State) x => s.reload (el + 1) x) (s.wr E.sampler el (samplerMask record.toNat))))

/-- RESIDENCY of a sample: ft_diff(T_OUT, T_IN) in whole ns, saturating (R517). -/
def residency (v : Nat) : Nat :=
  let d := ftDiff (timeOfLayout (bits v 193 116)) (timeOfLayout (bits v 271 194))
  min (d.toNat / ns) (2 ^ 32 - 1)

/-- An event is eligible under its sampler (R516); CHUNK has no ARG. -/
def eligible (cfg kind v : Nat) : Bool :=
  let arg := bits cfg 83 68
  let id := bits cfg 67 36
  let own := if kind = 1 then bits v 367 352 else if kind = 3 then bits v 383 368 else bits v 373 372
  bit cfg 127 && (bits cfg 99 84 == 0 || bits cfg 99 84 == bits v 495 480) && (id == 0 || id == bits v 447 416)
    && (kind == 2 || arg == 0xFFFF || arg == own) && decide (bits cfg 35 4 ≤ residency v)

/-- The die code of a source, and the UNIT of a stack. -/
def sourceDie (kind source : Nat) : Nat := if kind = 4 then 8 + source / 2 else source

/-- The sample record of an event (R517 Table 7): its version, kind, source and residency filled in. -/
def sampleOf (kind source v : Nat) : BitVec 512 :=
  let unit := if kind = 4 then source % 2 else bits v 498 496
  BitVec.ofNat 512 (pack [(4, 1), (4, kind), (5, sourceDie kind source), (3, unit), (192, bits v 495 304), (32, residency v),
    (188, bits v 271 84), (84, 0)])

/-- A sample takes its SEQ and is written to the ring, the oldest overwritten where it is full (R515, R518). -/
def State.writeSample (s : State) (r : BitVec 512) : State :=
  let seq := s.rd E.sampleNext 0
  let all := s.probes.samples.set seq (s.stripeStack seq, r)
  let past := all.length - s.ringBytes / 64
  let s := { s with probes := { s.probes with samples := all.drop past } }
  (s.wr E.sampleNext 0 (seq + 1)).bump E.samplesOverwritten 0 past

/-- SAMPLE_TAKEN: an event of a kind at a source, described by a sample record; an eligible one decrements the countdown, and
the one that takes it to 0 is sampled and the countdown reloaded (R516); at most one in 40 ns, dropped where the source's
buffer already holds 1,024 (R518); an excluded die samples nothing (R520). -/
def execSampleTaken (t : Time) (kind source buffered : Nat) (record : BitVec 512) (s : State) : Host.Outcome State Fault Refusal :=
  let s := s.begin t
  let v := record.toNat
  let key := sourceKey kind source
  .next (if kind = 0 ∨ 4 < kind ∨ !(sourcesOf kind).contains source ∨ s.rd E.dieState (sourceDie kind source) = 1
      ∨ !eligible (s.rd E.sampler (kind - 1)) kind v then s
    else
      let n := s.probes.downs.getD key 0
      if 1 < n then { s with probes := { s.probes with downs := s.probes.downs.set key (n - 1) } }
      else
        let s := s.reload kind source
        let soon : Bool := match s.probes.lastAt.get? key with
          | some x => decide (t < x + 40 * ns)
          | none => false
        if soon then s
        else
          let s := { s with probes := { s.probes with lastAt := s.probes.lastAt.set key t } }
          if 1024 ≤ buffered then
            (s.bump E.samplesDropped (kind - 1) 1).raiseLim sec 0 0xA003 1 (sourceDie kind source) [.v 8 kind, .v 16 (sourceDie kind source)]
          else s.writeSample (sampleOf kind source v))

/-- The 64 samples from SAMPLE_SELECT on, zeros where there is none (R515). -/
def State.sampleEntry (s : State) : Nat :=
  let q := s.rd E.sampleSelect 0
  pack ((List.range 64).map (fun i => (512, match s.probes.samples.get? (q + i) with
    | some x => x.2.toNat
    | none => 0)))

end Sys2Proof.Machine
end

