-- ==== Sys2Proof/Machine/Traffic.lean ====
section
/-!
DEFINITION. Shaping, policing, time gates and the scheduler (spec/10).
-/
namespace Sys2Proof.Machine

/-! ### Buckets and shaper states (R284-R287) -/

/-- A committed bucket is positive (R284): one of rate 0 never is. -/
def Bucket.committedPos (b : Bucket) : Bool := b.rate != 0 && decide (0 ≤ b.tok)

/-- A peak bucket is positive (R284): one of rate 0 always is. -/
def Bucket.peakPos (b : Bucket) : Bool := b.rate == 0 || decide (0 ≤ b.tok)

/-- ready_at (R284): when a bucket with a negative level becomes positive. -/
def Bucket.readyAt (b : Bucket) (now : Time) : Time :=
  if 0 ≤ b.tok ∨ b.rate = 0 then now else now + ceilDiv ((-b.tok).toNat * 8000 - b.rem) b.rate

/-- A time rounded up to a wheel slot, a multiple of 8 ns (R287). -/
def wheelSlot (t : Time) : Time := ceilDiv t (8 * ns) * (8 * ns)

/-- The fields of a shaper record (R282 Table 2). -/
def shaperCir (r : BitVec 128) : Nat := bits r.toNat 112 92
/-- PIR. -/
def shaperPir (r : BitVec 128) : Nat := bits r.toNat 91 71
/-- CBS. -/
def shaperCbs (r : BitVec 128) : Nat := bits r.toNat 70 47
/-- PBS. -/
def shaperPbs (r : BitVec 128) : Nat := bits r.toNat 46 23
/-- WEIGHT. -/
def shaperWeight (r : BitVec 128) : Nat := bits r.toNat 22 15

/-- The state that a queue's buckets give it: 1 COMMITTED, 2 EXCESS, 3 HELD (R285). -/
def Queue.bucketState (q : Queue) : Nat := if !q.pb.peakPos then 3 else if q.cb.committedPos then 1 else 2

/-- The shaper state of a queue with a head frame; 0 EMPTY without one (R285). While its wheel entry stands it moves to no better
state than it was entered in (R287). -/
def Queue.shaperState (q : Queue) : Nat :=
  if q.descs.isEmpty then 0
  else if q.wheel.isNone then q.bucketState
  else if q.stopped then 3 else max 2 q.bucketState

/-- Both buckets refilled to a time (R284). -/
def Queue.refill (q : Queue) (now : Time) : Queue := { q with cb := q.cb.refill now, pb := q.pb.refill now }

/-- The wheel entry of a queue in its state (R287): HELD waits for its peak bucket, EXCESS with a CIR for its
committed bucket. -/
def Queue.enterWheel (q : Queue) (now : Time) : Queue :=
  match q.bucketState with
  | 3 => { q with wheel := some (wheelSlot (q.pb.readyAt now)), stopped := true }
  | 2 => { q with wheel := if q.cb.rate = 0 then none else some (wheelSlot (q.cb.readyAt now)), stopped := false }
  | _ => { q with wheel := none, stopped := false }

/-- A queue's buckets refilled before they are tested, and its state evaluated again unless its wheel entry still waits (R284,
R287). -/
def Queue.eval (q : Queue) (now : Time) : Queue :=
  let r := q.refill now
  match q.wheel with
  | some w => if now < w then r else r.enterWheel now
  | none => r.enterWheel now

/-- A circuit's wheel entry: EXCESS waits for its committed bucket (R287). -/
def CircQueue.enterWheel (q : CircQueue) (now : Time) : CircQueue :=
  { q with wheel := if q.cb.committedPos then none else some (wheelSlot (q.cb.readyAt now)) }

/-- A circuit's queue evaluated. -/
def CircQueue.eval (q : CircQueue) (now : Time) : CircQueue :=
  let r := { q with cb := q.cb.refill now }
  match q.wheel with
  | some w => if now < w then r else r.enterWheel now
  | none => r.enterWheel now

/-- A circuit's state: COMMITTED within its rate, else EXCESS (R257, R285); while its wheel entry stands it is EXCESS. -/
def CircQueue.shaperState (q : CircQueue) : Nat :=
  if q.descs.isEmpty then 0 else if q.wheel.isNone && q.cb.committedPos then 1 else 2

/-! ### Gates (R293-R296) -/

/-- A port's gates. -/
def State.gatesOf (s : State) (p : Nat) : Gates := s.net.gates.getD p {}

/-- Gates set. -/
def State.setGates (s : State) (p : Nat) (g : Gates) : State :=
  { s with net := { s.net with gates := s.net.gates.set p g } }

/-- The gate states of a list's entry; every gate open without a list (R293). -/
def gatesAt (l : Option GateList) (i : Nat) : Nat :=
  match l with
  | none => 0x3FF
  | some g => match g.entries[i]? with
    | some e => e.2
    | none => 0x3FF

/-- The interval of a list's entry. -/
def intervalAt (g : GateList) (i : Nat) : Nat := ((g.entries[i]?).map (·.1)).getD 0

/-- The instant a gate that is open in entry `i`, begun at `t`, next closes, followed through at most `fuel` entries
and across a pending change (R294); none when it stays open. -/
def closesAt (k : Nat) : Nat → Option GateList → Nat → Time → Option (Time × Option GateList) → Option Time
  | 0, _, _, _, _ => none
  | fuel + 1, l, i, t, pend =>
    match l, pend with
    | none, none => none
    | none, some (c, n) => if bit (gatesAt n 0) k then closesAt k fuel n 0 c none else some c
    | some g, _ =>
      if g.entries = [] then none
      else
        let e := t + intervalAt g i * ns
        let j := if i + 1 < g.entries.length then i + 1 else 0
        match pend with
        | some (c, n) =>
          if c ≤ e then (if bit (gatesAt n 0) k then closesAt k fuel n 0 c none else some c)
          else if bit (gatesAt l j) k then closesAt k fuel l j e pend else some e
        | none => if bit (gatesAt l j) k then closesAt k fuel l j e none else some e

/-- A change of a port's list is held back: the board group's lock is lost, and the list in force or the new one is in lock mode
(R298). -/
def State.lockHolds (s : State) (g : Gates) : Bool :=
  s.clock.own && ((match g.oper with
    | some l => l.lock
    | none => false) || (match g.pend with
    | some l => l.lock
    | none => false))

/-- The gate of a queue allows a head frame of a cost now (R294). -/
def State.gateAllows (s : State) (p k cost : Nat) : Bool :=
  let g := s.gatesOf p
  if !bit (gatesAt g.oper g.index) k then false
  else
    let pend := if s.lockHolds g then none else match g.pend, g.changeAt with
      | some l, some c => some (c, if l.entries = [] then none else some l)
      | _, _ => none
    match closesAt k 600 g.oper g.index g.entryAt pend with
    | none => true
    | some c => decide ((cost + 84) * 8000 * ns ≤ (c - s.now) * s.rd E.portRateNow p)

/-! ### The scheduler (R288, R289) -/

/-- The receiver's credit allows a frame of `n` cells of a class (R269, R270). -/
def State.creditAllows (s : State) (p cls n : Nat) : Bool :=
  if s.lossless p cls then
    let c := (s.port p).credit cls
    decide ((c.limit + 2 * 65536 - c.sent - n) % 65536 < 32768)
  else true

/-- A queued frame takes its receiver's credit: no Ethernet frame does (R247, R269). -/
def State.takesCredit (s : State) (p : Nat) (d : Desc) : Bool :=
  match findFrame s.net.frames d.frame with
  | some f => s.losslessFor p d.cls f.packet
  | none => false

/-- A head frame passes its gate and its credit. -/
def State.mayStart (s : State) (p gate : Nat) (d : Desc) : Bool :=
  s.gateAllows p gate (d.len + 20) && (!s.takesCredit p d || s.creditAllows p d.cls (cellsOf d.len))

/-- A queued frame of a received job frame whose job is no longer active (R445). -/
def State.staleDesc (s : State) (d : Desc) : Bool :=
  match findFrame s.net.frames d.frame with
  | none => true
  | some f => f.inPort < 1024 && match f.packet.job with
    | none => false
    | some (j, g) => !s.jobActive j g

/-- The stale frames at the head of a list of descriptors dropped (R445). -/
def State.dropStale (s : State) (p : Nat) : List Desc → List Desc × State
  | [] => ([], s)
  | d :: r =>
    if s.staleDesc d then
      let inPort := match findFrame s.net.frames d.frame with
        | some f => f.inPort
        | none => noPort
      (((s.drop .jobStale inPort).bump E.staleEgress 0 1).release d.frame p).dropStale p r
    else (d :: r, s)

/-- The queues of a port evaluated, their stale heads dropped, their waiting heads counted (R285, R294, R445). -/
def State.prepareQueue (s : State) (p k : Nat) : State :=
  let q := s.queue (9 * p + k)
  if q.descs.isEmpty then s
  else
    let (l, s) := s.dropStale p q.descs
    let q := ({ q with descs := l }).eval s.now
    let s := s.setQueue (9 * p + k) q
    match q.descs with
    | d :: r =>
      if !d.waited && !s.gateAllows p k (d.len + 20) then
        (s.setQueue (9 * p + k) { q with descs := { d with waited := true } :: r }).bump E.gateWaits (9 * p + k) 1 |>.countEvent
          (8 * dieOf p + 1) 0x14 (9 * p + k) (match findFrame s.net.frames d.frame with
            | some f => (f.packet.job.getD (0, 0)).1
            | none => 0) 1
      else s
    | [] => s

/-- A circuit's queue evaluated, its stale heads dropped. -/
def State.prepareCirc (s : State) (p c : Nat) : State :=
  let q := s.circQueue c
  if q.descs.isEmpty then s
  else
    let (l, s) := s.dropStale p q.descs
    s.setCircQueue c (({ q with descs := l }).eval s.now)

/-- What the scheduler chose: a class or collective queue, or a circuit, and the tier (true committed). -/
inductive Pick where
  | queue (k : Nat) (committed : Bool)
  | circ (c : Nat) (committed : Bool)
  deriving DecidableEq, Repr

/-- The first circuit of a list that is in a state and may start. -/
def State.firstCirc (s : State) (p st : Nat) (ok : Desc → Bool) : List Nat → Option Nat
  | [] => none
  | c :: r =>
    let q := s.circQueue c
    match q.descs with
    | d :: _ => if q.shaperState = st ∧ s.mayStart p 9 d ∧ ok d then some c else s.firstCirc p st ok r
    | [] => s.firstCirc p st ok r

/-- The committed tier (R288): circuits in round robin, the collective queue, TC7 down to TC0. -/
def State.pickCommitted (s : State) (p : Nat) : Option Pick :=
  let cs := s.circuitsOf p
  let last := (s.port p).lastCirc
  match s.firstCirc p 1 (fun _ => true) (cs.filter (fun c => decide (last < c)) ++ cs.filter (fun c => decide (c ≤ last))) with
  | some c => some (.circ c true)
  | none =>
    match [8, 7, 6, 5, 4, 3, 2, 1, 0].find? (fun k =>
      let q := s.queue (9 * p + k)
      match q.descs with
      | d :: _ => q.shaperState == 1 && s.mayStart p k d
      | [] => false) with
    | some k => some (.queue k true)
    | none => none

/-- The candidate of an excess position: the class queue first, then the circuits of that class (R289). -/
def State.excessAt (s : State) (p k : Nat) : Option (Pick × Nat) :=
  let q := s.queue (9 * p + k)
  match q.descs with
  | d :: _ =>
    if q.shaperState = 2 ∧ s.mayStart p k d then some (.queue k false, d.len + 20)
    else (s.firstCirc p 2 (fun e => e.cls == k) (s.circuitsOf p)).bind (fun c =>
      (s.circQueue c).descs.head?.map (fun e => (.circ c false, e.len + 20)))
  | [] => (s.firstCirc p 2 (fun e => e.cls == k) (s.circuitsOf p)).bind (fun c =>
      (s.circQueue c).descs.head?.map (fun e => (.circ c false, e.len + 20)))

/-- A position with nothing queued (R289). -/
def State.positionEmpty (s : State) (p k : Nat) : Bool :=
  (s.queue (9 * p + k)).descs.isEmpty && (s.circuitsOf p).all (fun c =>
    match (s.circQueue c).descs with
    | d :: _ => d.cls != k
    | [] => true)

/-- The deficit of a position set. -/
def State.setDeficit (s : State) (p k n : Nat) : State :=
  let q := s.queue (9 * p + k)
  { s with net := { s.net with queues := s.net.queues.set (9 * p + k) { q with deficit := n } } }

/-- Deficit round robin over TC0 to TC7 and the collective queue (R289). -/
def State.pickExcess (p : Nat) : Nat → State → Option Pick × State
  | 0, s => (none, s)
  | fuel + 1, s =>
    let pt := s.port p
    let k := pt.visit % 9
    let next := fun (s : State) => s.setPort p { s.port p with visit := (k + 1) % 9, visiting := false }
    match s.excessAt p k with
    | none => State.pickExcess p fuel (next s)
    | some (pk, cost) =>
      let q := s.queue (9 * p + k)
      let def' := if pt.visiting then q.deficit else q.deficit + shaperWeight q.shaper * 256
      if cost ≤ def' then
        (some pk, (s.setDeficit p k (def' - cost)).setPort p { pt with visit := k, visiting := true })
      else State.pickExcess p fuel (next (s.setDeficit p k def'))

/-- Positions whose queues are all empty lose their deficit, and a visit to one ends (R289). -/
def State.settlePort (s : State) (p : Nat) : State :=
  let s := (List.range 9).foldl (fun (s : State) k =>
    if (s.queue (9 * p + k)).deficit ≠ 0 ∧ s.positionEmpty p k = true then s.setDeficit p k 0 else s) s
  let pt := s.port p
  if pt.visiting ∧ s.positionEmpty p (pt.visit % 9) = true then
    s.setPort p { pt with visit := (pt.visit % 9 + 1) % 9, visiting := false } else s

/-- The excess tier, when some position has a candidate. -/
def State.pickTier (s : State) (p : Nat) : Option Pick × State :=
  match s.pickCommitted p with
  | some k => (some k, s)
  | none => if (List.range 9).any (fun k => (s.excessAt p k).isSome) then State.pickExcess p 400 s else (none, s)

/-- A packet as it leaves: marked and detoured in its header, its check formed over it (R246, R261). -/
def Packet.leaving (pk : Packet) (marked detoured : Bool) : Packet :=
  match pk with
  | .mft f => .mft { f with hdr := { f.hdr with ce := f.hdr.ce || marked, detoured := f.hdr.detoured || detoured } }
  | .eth b tc =>
    if !marked then .eth b tc
    else
      let off := if field b 12 2 = 0x8100 then 16 else 12
      if field b off 2 = 0x0800 then
        let tos := field b (off + 3) 1
        let csum := field b (off + 12) 2
        -- the checksum follows the changed word (R247): old word out, new word in, in ones' complement
        let old := field b (off + 2) 2
        let new := (old / 256) * 256 + (tos ||| 3)
        let x := (0xFFFF - csum) + (0xFFFF - old) + new
        let x := x % 65536 + x / 65536
        let x := x % 65536 + x / 65536
        let b := (b.set (off + 3) (BitVec.ofNat 8 (tos ||| 3))).set (off + 12) (BitVec.ofNat 8 ((0xFFFF - x) / 256))
        let b := (b.set (off + 13) (BitVec.ofNat 8 ((0xFFFF - x) % 256))).take (b.length - 4)
        .eth (b ++ fcsBytes b) tc
      else
        let c := field b (off + 3) 1
        let b := (b.set (off + 3) (BitVec.ofNat 8 (c ||| 0x30))).take (b.length - 4)
        .eth (b ++ fcsBytes b) tc

/-- A frame's sojourn measured (R279-R281); an alarm names a circuit's queue by 9,216 more than its index (log 201). -/
def State.measure (s : State) (p : Nat) (circ : Option Nat) (d : Desc) : State :=
  let soj := (s.now - d.entered) / ns
  let i := 9 * p + d.cls
  let s := match circ with
    | some c => s.raiseTo E.circuitDelayHwm c soj
    | none =>
      let q := s.queue i
      let q := { q with maxNow := max q.maxNow soj, sumNow := q.sumNow + soj, cntNow := q.cntNow + 1 }
      ({ s with net := { s.net with queues := s.net.queues.set i q } }).raiseTo E.delayHwm i soj
  let al := s.rd E.delayAlarm d.cls
  if al ≠ 0 ∧ al < s.now - d.entered then
    s.raiseLim ms p 0x6001 1 (dieOf p) [.v 16 p, .v 16 (match circ with
      | some c => 9216 + c
      | none => i), .v 32 soj]
  else s

/-- A descriptor taken begins its transmission: charged, measured, credited, its bits on the fiber. -/
def State.start (s : State) (p : Nat) (pk : Pick) : State :=
  let go := fun (s : State) (circ : Option Nat) (d : Desc) =>
    let s := s.measure p circ d
    let pt := s.port p
    let pt := if s.takesCredit p d then
        pt.setCredit d.cls (fun c => { c with sent := (c.sent + cellsOf d.len) % 65536 }) else pt
    let pt := { pt with sending := some ⟨d.frame, d.len, d.cls⟩ }
    let s := s.setPort p pt
    match findFrame s.net.frames d.frame with
    | some f =>
      let job := (f.packet.job.getD (0, 0)).1
      let s := ((s.countFixed (8 * dieOf p + 1) 1).countEvent (8 * dieOf p + 1) 0x10 (9 * p + d.cls) job 1).countEvent
        (8 * dieOf p + 1) 0x11 (9 * p + d.cls) job d.len
      (s.attach (dieOf p) 1 d.len).emit (.frame p (f.packet.leaving d.marked d.detoured))
    | none => s
  match pk with
  | .queue k com =>
    let q := s.queue (9 * p + k)
    match q.descs with
    | [] => s
    | d :: r =>
      let cost := d.len + 20
      let q := { q with descs := r, pb := q.pb.charge cost, cb := if com then q.cb.charge cost else q.cb }
      let q := q.enterWheel s.now
      go (s.setQueue (9 * p + k) q) none d
  | .circ c com =>
    let q := s.circQueue c
    match q.descs with
    | [] => s
    | d :: r =>
      let cost := d.len + 20
      let s := s.setCircQueue c (({ q with descs := r, cb := if com then q.cb.charge cost else q.cb }).enterWheel s.now)
      let s := if com then s.setPort p { s.port p with lastCirc := c } else s
      go s (some c) d

/-- SCHEDULER_PICK: the port's transmitter is free and the die takes the first frame of R288's order. -/
def execSchedulerPick (t : Time) (port : Nat) (s : State) : Host.Outcome State Fault Refusal :=
  let s := s.begin t
  let pt := s.port port
  .next (if s.held port then s else match pt.linkQueue with
    | b :: r =>
      (((s.setPort port { pt with linkQueue := r }).freeCell (dieOf port) 3 b.1).attach (dieOf port) 1 64).emit (.link port b.2)
    | [] =>
      if !s.isUp port || pt.sending.isSome then s
      else
        let s := (List.range 9).foldl (fun s k => s.prepareQueue port k) s
        let s := (s.circuitsOf port).foldl (fun s c => s.prepareCirc port c) s
        match s.pickTier port with
        | (some k, s) => (s.start port k).settlePort port
        | (none, s) => s.settlePort port)

/-- WHEEL_SLOT: a slot's time comes; its queues' buckets are refilled and their states re-evaluated (R287). -/
def execWheelSlot (t : Time) (port : Nat) (s : State) : Host.Outcome State Fault Refusal :=
  let s := s.begin t
  let due := fun (w : Option Time) => match w with
    | some x => decide (x ≤ t)
    | none => false
  let s := (List.range 9).foldl (fun (s : State) k =>
    let q := s.queue (9 * port + k)
    if due q.wheel then
      { s with net := { s.net with queues := s.net.queues.set (9 * port + k) (q.eval t) } }
    else s) s
  .next ((s.circuitsOf port).foldl (fun (s : State) c =>
    let q := s.circQueue c
    if due q.wheel then { s with net := { s.net with circQueues := s.net.circQueues.set c (q.eval t) } } else s) s)

/-- SAMPLE_PERIOD_END: every queue latches its depth and delays (R280). -/
def execSamplePeriodEnd (t : Time) (s : State) : Host.Outcome State Fault Refusal :=
  let s := s.begin t
  .next (s.net.queues.foldl (fun (s : State) x =>
    let q := x.2
    let s := ((s.wr E.depthSample x.1 (depthOf q.descs)).wr E.delayMax x.1 q.maxNow).wr E.delayMean x.1
      (if q.cntNow = 0 then 0 else q.sumNow / q.cntNow)
    { s with net := { s.net with queues := s.net.queues.set x.1 { q with maxNow := 0, sumNow := 0, cntNow := 0 } } }) s)

/-! ### Shapers and policers written (R282, R283, R290) -/

/-- SHAPER_WRITE's rule (R282, R283). -/
def shaperRule (r : BitVec 128) (s : State) : Verdict :=
  let v := r.toNat
  let p := bits v 127 117; let k := bits v 116 113
  let rate := s.portRate p
  let cir := shaperCir r; let pir := shaperPir r
  firstCause E.shaperStatus [
    (bits v 14 0 ≠ 0, 6),
    (!s.portExists p ∨ 8 < k ∨ (cir ≠ 0 ∧ (cir < 10 ∨ rate < cir)) ∨ (pir ≠ 0 ∧ (pir < 10 ∨ rate < pir ∨ pir < cir))
      ∨ shaperCbs r < 4096 ∨ shaperPbs r < 4096 ∨ shaperWeight r = 0, 2),
    (rate < s.cirSum p (9 * p + k) + cir + 1000 * s.circuitSum p 0xFFFFFF, 5)]

/-- A shaper written, both buckets full (R282). -/
def shaperAct (r : BitVec 128) (s : State) : State :=
  let p := bits r.toNat 127 117; let k := bits r.toNat 116 113
  let i := 9 * p + k
  let cb : Bucket := { rate := shaperCir r, burst := shaperCbs r }
  let pb : Bucket := { rate := shaperPir r, burst := shaperPbs r }
  let q := { s.queue i with shaper := r, cb := cb.full s.now, pb := pb.full s.now, wheel := none, stopped := false }
  let s := { s with net := { s.net with queues := s.net.queues.set i q } }
  let s := (s.wr E.shaper i r.toNat).wr E.shaperStatus 0 0
  s.showReserved p

/-- SHAPER_WRITE (R282). -/
def execShaperWrite (a : Access) (record : BitVec 128) (s : State) : Host.Outcome State Fault Refusal :=
  .next (s.writeOne a E.shaperWrite 0 16 0 true (shaperRule record) (shaperAct record))

/-- POLICER_WRITE's rule (R290). -/
def policerRule (r : BitVec 64) (s : State) : Verdict :=
  let v := r.toNat
  let p := bits v 63 53
  firstCause E.policerStatus [
    (bits v 48 45 ≠ 0, 6),
    (!s.portExists p ∨ (bit v 49 ∧ (bits v 44 24 < 10 ∨ s.portRate p < bits v 44 24)) ∨ bits v 23 0 < 9236, 2)]

/-- A policer written, its bucket full (R290). -/
def policerAct (r : BitVec 64) (s : State) : State :=
  let v := r.toNat
  let i := 8 * bits v 63 53 + bits v 52 50
  let b : Bucket := { rate := bits v 44 24, burst := bits v 23 0 }
  let s := { s with net := { s.net with policers := s.net.policers.set i { record := r, bucket := b.full s.now } } }
  (s.wr E.policer i v).wr E.policerStatus 0 0

/-- POLICER_WRITE (R290). -/
def execPolicerWrite (a : Access) (record : BitVec 64) (s : State) : Host.Outcome State Fault Refusal :=
  .next (s.writeOne a E.policerWrite 0 8 0 true (policerRule record) (policerAct record))

/-! ### Gate control lists (R295-R298) -/

/-- The list a GATE_WRITE record spells (R295 Table 5). -/
def gateOf (b : List Byte) : GateList :=
  let h := field b 0 16
  ⟨bit h 107, bits h 93 62 * sec + bits h 61 32 * ns, bits h 31 0,
    (List.range (bits h 116 108)).map (fun i => (field b (16 + 8 * i) 4, field b (20 + 8 * i) 4 % 1024))⟩

/-- The longest consecutive open time of gate `k` over the entries, given twice to cross the cycle's end. -/
def openRun (k : Nat) : List (Nat × Nat) → Nat → Nat → Nat
  | [], cur, best => max cur best
  | e :: r, cur, best => if bit e.2 k then openRun k r (cur + e.1) best else openRun k r 0 (max cur best)

/-- A gate that opens has a window long enough, or is open throughout (R295). -/
def gateWindowOk (l : List (Nat × Nat)) (k need rate : Nat) : Bool :=
  !l.any (fun e => bit e.2 k) || l.all (fun e => bit e.2 k) || decide (need * 8000 ≤ openRun k (l ++ l) 0 0 * rate)

/-- GATE_WRITE's rule (R295, R297). -/
def gateRule (b : List Byte) (s : State) : Verdict :=
  let h := field b 0 16
  let p := bits h 127 117; let n := bits h 116 108
  let g := gateOf b
  let cyc := if g.lock then s.rd E.groupCycle 0 else g.cycle
  let rate := s.portRate p
  let mft := (s.port p).mftNow
  firstCause E.gateStatus [
    (bits h 106 94 ≠ 0 ∨ b.length ≠ 16 + 8 * n ∨ (List.range n).any (fun i => field b (20 + 8 * i) 4 / 1024 != 0), 6),
    (!s.portExists p ∨ 256 < n ∨ 1000000000 ≤ bits h 61 32
      ∨ (g.lock ∧ (g.cycle ≠ 0 ∨ g.base ≠ 0))
      ∨ (!g.lock ∧ ((g.cycle = 0 ∧ n ≠ 0) ∨ (g.cycle ≠ 0 ∧ (g.cycle < 1000 ∨ 1000000000 < g.cycle))))
      ∨ (n ≠ 0 ∧ (g.entries.any (fun e => decide (e.1 < 8) || decide (cyc < e.1))
          ∨ g.entries.foldl (fun x e => x + e.1) 0 ≠ cyc
          ∨ !g.entries.any (fun e => bit e.2 8)
          ∨ (List.range 8).any (fun k => s.lossless p k && !g.entries.any (fun e => bit e.2 k))
          ∨ (List.range 10).any (fun k => !gateWindowOk g.entries k (if mft then 4712 else 9320) rate))), 2)]

/-- The first instant base + n × cycle at or after a time (R296); cycle in ns. -/
def nextCycle (base cycle at' : Time) : Time :=
  if at' ≤ base then base else base + ceilDiv (at' - base) (cycle * ns) * (cycle * ns)

/-- The change time of a lock-mode list (R297): GROUP_CHANGE, if that is at least 10 µs after the list's commit, rounded up to a
cycle start. -/
def State.lockChange (s : State) (committed : Time) : Option Time :=
  let at' := timeNear s.now (s.rd E.groupChange 0)
  if committed + 10 * us ≤ at' then some (nextCycle (timeNear s.now (s.rd E.groupBase 0)) (s.rd E.groupCycle 0) at') else none

/-- The change time of a written list (R296, R297). -/
def State.changeTime (s : State) (p : Nat) (g : GateList) : Option Time :=
  let lead := s.now + 10 * us
  if g.lock then s.lockChange s.now
  else if g.cycle = 0 then
    match (s.gatesOf p).oper with
    | none => some lead
    | some o => some (nextCycle (s.gatesOf p).cycleAt (if o.lock then s.rd E.groupCycle 0 else o.cycle) lead)
  else some (nextCycle g.base g.cycle lead)

/-- GATE_CHANGE_AT shows a change time; 0 for none. -/
def State.showChange (s : State) (p : Nat) (c : Option Time) : State :=
  s.wr E.gateChangeAt p (match c with
    | some t => timeLayout t
    | none => 0)

/-- A list written becomes the pending list (R296). -/
def gateAct (b : List Byte) (s : State) : State :=
  let p := bits (field b 0 16) 127 117
  let g := gateOf b
  let g := { g with base := if g.lock then 0 else timeNear s.now (timeLayout g.base) }
  let c := s.changeTime p g
  let s := s.setGates p { s.gatesOf p with pend := some g, changeAt := c, committed := s.now }
  let s := (s.wr E.gatePending p (ofBytes b * 256 ^ (2064 - b.length))).wr E.gateStatus 0 0
  s.showChange p c

/-- GATE_WRITE (R295). -/
def execGateWrite (a : Access) (data : List Byte) (s : State) : Host.Outcome State Fault Refusal :=
  .next (s.writeOne a E.gateWrite 0 data.length 0 true (gateRule data) (gateAct data))

/-- GATE_LIST_ACTIVE: at its change time the pending list replaces the operational list, unless the change is held back
(R296-R298). -/
def execGateListActive (t : Time) (port : Nat) (s : State) : Host.Outcome State Fault Refusal :=
  let s := s.begin t
  let g := s.gatesOf port
  .next (match g.pend, g.changeAt with
    | some l, some c =>
      if c ≤ t ∧ s.lockHolds g = false then
        let op := if l.entries = [] then none else some l
        let s := s.setGates port { oper := op, cycleAt := c, index := 0, entryAt := c, pend := none, changeAt := none, committed := g.committed }
        let s := s.wr E.gateOper port (if l.entries = [] then 0 else s.rd E.gatePending port)
        let s := ((s.wr E.gatePending port 0).wr E.gateChangeAt port 0).wr E.gateNow port (gatesAt op 0)
        s.raise 0x6002 0 (dieOf port) [.v 16 port, .tm c]
      else s
    | _, _ => s)

/-- GATE_TRANSITION: an entry's interval ends and the next entry's gate states apply (R296). -/
def execGateTransition (t : Time) (port : Nat) (s : State) : Host.Outcome State Fault Refusal :=
  let s := s.begin t
  let g := s.gatesOf port
  .next (match g.oper with
    | some l =>
      let e := g.entryAt + intervalAt l g.index * ns
      if e ≤ t then
        let j := if g.index + 1 < l.entries.length then g.index + 1 else 0
        (s.setGates port { g with index := j, entryAt := e, cycleAt := if j = 0 then e else g.cycleAt }).wr
          E.gateNow port (gatesAt g.oper j)
      else s
    | none => s)

/-- The change times of the pending lock-mode lists found again (R297, R299). -/
def State.relock (s : State) : State :=
  s.net.gates.foldl (fun (s : State) x =>
    match x.2.pend with
    | some l => if l.lock then
        let c := s.lockChange x.2.committed
        (s.setGates x.1 { x.2 with changeAt := c }).showChange x.1 c
      else s
    | none => s) s

/-- GROUP_CHANGE: when pending lock-mode lists change (R297, R299). -/
def groupChangeAct (v : Nat) (s : State) : State := (s.wr E.groupChange 0 v).relock

/-- The entry of a list within a time since its cycle start, from entry `i` begun at `t`. -/
def entryIn (now : Time) : Nat → Time → List (Nat × Nat) → Nat × Time
  | i, t, [] => (i, t)
  | i, t, [_] => (i, t)
  | i, t, e :: r => if now < t + e.1 * ns then (i, t) else entryIn now (i + 1) (t + e.1 * ns) r

/-- GROUP_BASE: the cycles of the lock-mode lists begin at the new base, and pending lists find their change times again (R297). -/
def groupBaseAct (v : Nat) (s : State) : State :=
  let s := s.wr E.groupBase 0 v
  let base := timeNear s.now v
  let cyc := s.rd E.groupCycle 0 * ns
  (s.net.gates.foldl (fun (s : State) x =>
    match x.2.oper with
    | some l => if l.lock ∧ 0 < cyc ∧ base ≤ s.now then
        let start := base + (s.now - base) / cyc * cyc
        let (i, e) := entryIn s.now 0 start l.entries
        (s.setGates x.1 { x.2 with cycleAt := start, index := i, entryAt := e }).wr E.gateNow x.1 (gatesAt x.2.oper i)
      else s
    | none => s) s).relock

/-- GROUP_CHANGE (R297). -/
def execGroupChange (a : Access) (value : Nat) (s : State) : Host.Outcome State Fault Refusal :=
  .next (s.writeOne a E.groupChange 0 12 value true (fun _ => .ok) (groupChangeAct value))

/-- GROUP_CYCLE's rule: refused if a lock-mode list of the device disagrees (R297). -/
def groupCycleRule (v : Nat) (s : State) : Verdict :=
  let bad := fun (l : Option GateList) => match l with
    | some g => g.lock && !g.entries.isEmpty && g.entries.foldl (fun x e => x + e.1) 0 != v
    | none => false
  if s.net.gates.any (fun x => bad x.2.oper || bad x.2.pend) then .refused 0 0 else .ok

/-- GROUP_CYCLE (R297). -/
def execGroupCycle (a : Access) (value : Nat) (s : State) : Host.Outcome State Fault Refusal :=
  .next (s.writeOne a E.groupCycle 0 4 value true (groupCycleRule value) (fun s => s.wr E.groupCycle 0 value))

/-- Loss or return of the board group's time lock, reported once for the device (R298). -/
def State.gateLock (s : State) (locked : Bool) : State :=
  let s := s.wr E.groupLocked 0 (b2n locked)
  let n := (s.net.gates.filter (fun (x : Nat × Gates) => match x.2.oper with
    | some g => g.lock
    | none => false)).length
  s.raise 0x6003 1 31 [.v 8 (b2n locked), .v 32 n]

end Sys2Proof.Machine
end

