-- ==== Sys2Proof/Machine/Forward.lean ====
section
/-!
DEFINITION. The forwarding tables and Ethernet frames (spec/11, spec/09 R247).
-/
namespace Sys2Proof.Machine

/-! ### Table keys -/

/-- The key of a VID and address. -/
def addrKey (vid mac : Nat) : Nat := vid * 2 ^ 48 + mac

/-- The address bucket's index bits in the mode in force (R304). -/
def State.addrBits (s : State) : Nat := if s.rd E.addrMode 0 = 1 then 16 else 15

/-- Ways of a bucket (R304). -/
def State.addrWays (s : State) : Nat := if s.rd E.addrMode 0 = 1 then 8 else 4

/-- The bucket of a key (R304). -/
def State.addrBucket (s : State) (key : Nat) : Nat := mix64 key >>> (64 - s.addrBits)

/-- A die's address table. -/
def State.addrTab (s : State) (die : Nat) : Tab AddrEntry := s.net.addrs.getD die []

/-- A die's address table set. -/
def State.setAddrTab (s : State) (die : Nat) (t : Tab AddrEntry) : State :=
  { s with net := { s.net with addrs := s.net.addrs.set die t } }

/-- The stamp of R312 in units of 2^24 ns. -/
def addrStamp (now : Time) : Nat := now / (2 ^ 24 * ns) % 65536

/-- A die's valid entry for a key: one invalid by parity is a miss (R321). -/
def State.addrFind (s : State) (die key : Nat) : Option AddrEntry :=
  if s.parityBad die 3 key then none else (s.addrTab die).get? key

/-- The parity mark of an entry cleared on a die. -/
def State.clearBad (s : State) (die table index : Nat) : State :=
  { s with net := { s.net with badParity := s.net.badParity.filter (fun x => !(x == (die, table, index))) } }

/-- The parity mark of an entry cleared at every die: a rewrite repairs it (R321). -/
def State.clearBadAll (s : State) (table index : Nat) : State :=
  { s with net := { s.net with badParity := s.net.badParity.filter (fun (x : Nat × Nat × Nat) => !(x.2 == (table, index))) } }

/-- An entry put into a die's table where a way is free; the answer says whether it was (R304, R309). -/
def State.addrPut (s : State) (die key : Nat) (e : AddrEntry) : Bool × State :=
  let t := s.addrTab die
  let b := s.addrBucket key
  let full := (t.get? key).isNone && decide (s.addrWays ≤ (t.filter (fun (x : Nat × AddrEntry) => s.addrBucket x.1 == b)).length)
  if full then (false, s) else (true, (s.setAddrTab die (t.set key e)).clearBad die 3 key)

/-- A die that lacks a way counts and reports it (R309). -/
def State.learnFull (s : State) (die key : Nat) : State :=
  (s.bump E.fwdCounts 3 1).raiseLim sec die 0x6404 1 die [.v 16 die, .v 32 (s.addrBucket key)]

/-- A hop that names a port which is not UP (R314). -/
def State.namesDown (s : State) (hop : Nat) : Bool := !bit hop 15 && !s.isUp (bits hop 10 0)

/-- A learned insert or move applied to one die's table (R309, R314). -/
def State.learnAt (s : State) (die key hop : Nat) : State :=
  if s.namesDown hop then s
  else match s.addrFind die key with
    | some e => if e.static then s else s.setAddrTab die ((s.addrTab die).set key { e with hop := hop, stamp := addrStamp s.now, hit := true })
    | none =>
      match s.addrPut die key ⟨hop, false, addrStamp s.now, true⟩ with
      | (true, s) => s
      | (false, s) => s.learnFull die key

/-- An entry used on a die is refreshed (R312, R313). -/
def State.refreshAddr (s : State) (die key : Nat) : State :=
  s.setAddrTab die ((s.addrTab die).modify key (fun e => { e with stamp := addrStamp s.now, hit := true }))

/-- A pair enters a die's suppression cache of 1,024, the oldest making room (R309). -/
def State.suppressPair (s : State) (die key : Nat) : State :=
  let mine := s.net.suppress.filter (fun x => x.1 == die && x.2.1 != key)
  let others := s.net.suppress.filter (fun x => x.1 != die)
  { s with net := { s.net with suppress := others ++ (mine.drop (mine.length - 1023)) ++ [(die, key, s.now)] } }

/-- A pair in the cache within its 1 ms (R309). -/
def State.suppressed (s : State) (die key : Nat) : Bool :=
  s.net.suppress.any (fun x => x.1 == die && x.2.1 == key && decide (s.now < x.2.2 + ms))

/-- A learn record put into the queue, or discarded and counted (R310 Table 4). -/
def State.learnRecord (s : State) (kind port vid mac old : Nat) : State :=
  if 4096 ≤ s.net.learnQ.length then
    let s := s.bump E.fwdCounts 4 1
    if s.net.learnFull then s
    else ({ s with net := { s.net with learnFull := true } }).raise 0x6403 1 (dieOf port) [.v 32 (s.rd E.fwdCounts 4)]
  else
    let r := pack [(2, kind), (3, dieOf port), (11, port), (12, vid), (48, mac), (16, old), (36, s.now / us)]
    { s with net := { s.net with learnQ := s.net.learnQ ++ [BitVec.ofNat 128 r] } }

/-- The hop a port's learned entries take (R307). -/
def State.learnHop (s : State) (port : Nat) : Nat :=
  let g := s.rd E.learnGroup port
  if g = 0xFFFF then port else 0x8000 + g % 4096

/-- An insert or move that a die has made, sent to the other seven (R309). -/
def State.spreadAddr (s : State) (die key hop : Nat) : State :=
  let dests := ((List.range 8).filter (fun d => d != die)).map (fun d => (d, key, hop))
  { s with net := { s.net with spread := s.net.spread ++ dests } }

/-- A frame's source learned at its ingress die (R308 Table 3); whatever else follows, the entry it finds is refreshed (R312, R313). -/
def State.learn (s : State) (port vid mac : Nat) : State :=
  let mode := s.rd E.learnMode port
  let die := dieOf port
  let key := addrKey vid mac
  if mode = 0 then s
  else
    let hop := s.learnHop port
    match s.addrFind die key with
    | none =>
      if s.suppressed die key then s
      else if mode = 1 then (((s.bump E.fwdCounts 0 1).learnAt die key hop).spreadAddr die key hop).suppressPair die key
      else (s.learnRecord 0 port vid mac 0).suppressPair die key
    | some e =>
      let s := s.refreshAddr die key
      if e.hop = hop then s
      else if e.static then
        (s.bump E.fwdCounts 2 1).raiseLim sec die 0x6402 1 die [.v 16 vid, .v 48 mac, .v 16 port]
      else if s.suppressed die key then s
      else if mode = 1 then (((s.bump E.fwdCounts 1 1).learnAt die key hop).spreadAddr die key hop).suppressPair die key
      else (s.learnRecord 1 port vid mac e.hop).suppressPair die key

/-! ### Prefixes (R317-R319) -/

/-- pbucket (R317). -/
def pbucket (fam len p : Nat) : Nat :=
  mix64 (mix64 (p / two64) ^^^ mix64 (p % two64 ^^^ (2 * len + fam))) >>> 49

/-- The key of a table entry for a family, length and value. -/
def pfxKey (fam len p : Nat) : Nat := (fam * 256 + len) * 2 ^ 128 + p

/-- The family, length and value of a key. -/
def pfxFam (k : Nat) : Nat := k / 2 ^ 136
/-- Its length. -/
def pfxLen (k : Nat) : Nat := k / 2 ^ 128 % 256
/-- Its value. -/
def pfxVal (k : Nat) : Nat := k % 2 ^ 128

/-- Address bits of a family. -/
def famBits (fam : Nat) : Nat := if fam = 0 then 32 else 128

/-- The top `len` bits of an address of a family. -/
def maskTop (fam len a : Nat) : Nat := a / 2 ^ (famBits fam - len) * 2 ^ (famBits fam - len)

/-- The lowest of the 16 address bits that index a family's filter: bits 31 to 16 of IPv4, 111 to 96 of IPv6 (R318). -/
def filterLow (fam : Nat) : Nat := if fam = 0 then 16 else 96

/-- The filter index of an address (R318). -/
def filterIndex (fam a : Nat) : Nat := a / 2 ^ filterLow fam % 65536

/-- A prefix of a length matches an address whose index bits are `f`: the bits that both fix agree (R318). -/
def prefixMeets (fam len p f : Nat) : Bool :=
  let lo := filterLow fam
  let k := max lo (famBits fam - len)
  p / 2 ^ k % 2 ^ (lo + 16 - k) == f / 2 ^ (k - lo)

/-- Bit `len` of filter entry `f`: the table holds a prefix of that length that matches an address of that index; an
entry with bad parity reads as every length set (R318, R321). -/
def State.filterBit (s : State) (die fam f len : Nat) : Bool :=
  s.parityBad die 5 (fam * 65536 + f) || s.net.prefixes.any (fun x =>
    pfxFam x.1 == fam && pfxLen x.1 == len && prefixMeets fam len (pfxVal x.1) f)

/-- lpm (R318): the lengths from `n` down. -/
def State.lpmFrom (s : State) (die fam a : Nat) : Nat → Option (Nat × Nat)
  | 0 => if s.filterBit die fam (filterIndex fam a) 0 then
      (if s.parityBad die 4 (pfxKey fam 0 0) then none else (s.net.prefixes.get? (pfxKey fam 0 0)).map (fun nh => (0, nh)))
    else none
  | n + 1 =>
    if s.filterBit die fam (filterIndex fam a) (n + 1) then
      let k := pfxKey fam (n + 1) (maskTop fam (n + 1) a)
      match s.net.prefixes.get? k with
      | some nh => if s.parityBad die 4 k then none else some (n + 1, nh)
      | none => s.lpmFrom die fam a n
    else s.lpmFrom die fam a n

/-- The longest-prefix match of an address on a die: length and next hop. -/
def State.lpm (s : State) (die fam a : Nat) : Option (Nat × Nat) := s.lpmFrom die fam a (famBits fam)

/-- Units of a prefix (R317). -/
def pfxUnits (fam : Nat) : Nat := if fam = 0 then 1 else 4

/-! ### Ethernet frames (R247, R305-R316) -/

/-- A frame's tag, when it has one. -/
def ethTag (b : List Byte) : Option Nat := if field b 12 2 = 0x8100 then some (field b 14 2) else none

/-- The offset of the EtherType that counts (R247 Table 3). -/
def ethOff (b : List Byte) : Nat := if (ethTag b).isSome then 16 else 12

/-- The traffic class of a frame (R247 Table 3). -/
def ethTc (b : List Byte) : Nat :=
  match ethTag b with
  | some t => t / 8192
  | none =>
    let ty := field b 12 2
    if ty = 0x0800 then field b 15 1 / 32
    else if ty = 0x86DD then field b 14 2 / 16 % 256 / 32
    else 0

/-- The VID of a frame on a port (R305); none for VID 4,095. -/
def State.ethVid (s : State) (p : Nat) (b : List Byte) : Option Nat :=
  match ethTag b with
  | some t => let v := t % 4096
    if v = 4095 then none else if v = 0 then some (s.rd E.portVid p) else some v
  | none => some (s.rd E.portVid p)

/-- An Ethernet frame sent by a hop entry, or dropped as ROUTE without a notice (R306). -/
def State.sendEth (s : State) (p : Nat) (b : List Byte) (tc hop : Nat) (bridged : Bool) : State :=
  match s.resolveDetour (dieOf p) tc 0 hop false with
  | (.ok tg, s) =>
    if bridged ∧ tg.port = p then (s.drop .route p).bump E.fwdCounts 7 1
    else (if tg.det then s.bump E.detoured 0 1 else s).forward p s.now (.eth b tc) tg hop 0 1
  | (.malformed, s) => s.drop .malformed p
  | (.fail _, s) => s.drop .route p

/-- A frame flooded to its VID's group (R306). -/
def State.flood (s : State) (p vid : Nat) (b : List Byte) (tc : Nat) : State :=
  let g := s.rd E.vlan vid % 65536
  let s := s.bump E.fwdCounts 6 1
  if g = 0xFFFF then s.drop .mcastUndefined p
  else s.multicast (dieOf p) p s.now (.eth b tc) g 1

/-- A frame bridged by its destination address (R306). -/
def State.bridge (s : State) (p vid : Nat) (b : List Byte) (tc : Nat) : State :=
  let mac := field b 0 6
  let key := addrKey vid mac
  if bit mac 40 then s.flood p vid b tc
  else match s.addrFind (dieOf p) key with
    | some e => (s.refreshAddr (dieOf p) key).sendEth p b tc e.hop true
    | none => s.flood p vid b tc

/-- A one's complement sum of 16 bits. -/
def onesAdd (a b : Nat) : Nat := let x := a + b; x % 65536 + x / 65536

/-- A frame rewritten for its next hop (R316). -/
def rewriteEth (b : List Byte) (tc router : Nat) (nh : BitVec 128) : List Byte :=
  let v := nh.toNat
  let off := ethOff b
  let tci := match ethTag b with
    | some t => t / 4096 * 4096 + bits v 111 100
    | none => tc * 8192 + bits v 111 100
  let rest := (b.drop off).take (b.length - 4 - off)
  let ip4 := field rest 0 2 = 0x0800
  let rest := if ip4 then
      let c := onesAdd (field rest 12 2) 0x0100
      ((rest.set 10 (BitVec.ofNat 8 (field rest 10 1 - 1))).set 12 (BitVec.ofNat 8 (c / 256))).set 13 (BitVec.ofNat 8 (c % 256))
    else rest.set 9 (BitVec.ofNat 8 (field rest 9 1 - 1))
  let f := toBytes 6 (bits v 99 52) ++ toBytes 6 router
    ++ (if bit v 112 then toBytes 2 0x8100 ++ toBytes 2 tci else []) ++ rest
  f ++ fcsBytes f

/-- A frame to the router address routed (R315, R316). -/
def State.routeEth (s : State) (p vid : Nat) (b : List Byte) (tc : Nat) : State :=
  let die := dieOf p
  let off := ethOff b
  let ty := field b off 2
  let ip := off + 2
  if !bit (s.rd E.vlan vid) 30 ∨ (ty ≠ 0x0800 ∧ ty ≠ 0x86DD) then s.drop .route p
  else if ty = 0x0800 ∧ (field b ip 1 / 16 ≠ 4 ∨ field b ip 1 % 16 < 5) then s.drop .malformed p
  else
    let fam := if ty = 0x0800 then 0 else 1
    let a := if fam = 0 then field b (ip + 16) 4 else field b (ip + 24) 16
    let ttl := if fam = 0 then field b (ip + 8) 1 else field b (ip + 7) 1
    let nh := match s.lpm die fam a with
      | some (_, i) => if s.parityBad die 6 i then none else (s.net.nextHops.get? i).bind (fun r => if bit r.toNat 113 then some r else none)
      | none => none
    match nh with
    | none => (s.drop .route p).bump E.fwdCounts 9 1
    | some r =>
      if ttl ≤ 1 then (s.drop .route p).bump E.fwdCounts 8 1
      else
        let b' := rewriteEth b tc (s.rd E.routerMac 0 % 2 ^ 48) r
        if 9216 < b'.length then s.drop .runtGiant p
        else s.sendEth p b' tc (bits r.toNat 51 36) false

/-- A frame whose check passed: VID, source, policer, learning, then routed or bridged. -/
def State.acceptEth (s : State) (p : Nat) (b : List Byte) (staged : Nat) : State :=
  let tc := ethTc b
  match s.ethVid p b with
  | none => s.drop .malformed p
  | some vid =>
    if bit (field b 6 6) 40 then s.drop .malformed p
    else if !bit (s.rd E.vlan vid) 31 ∨ s.parityBad (dieOf p) 2 vid then s.drop .route p
    else if 65536 * s.units p < staged + b.length then s.drop .staging p
    else match s.police p tc b.length false with
      | (false, s) => s
      | (true, s) =>
        let s := s.learn p vid (field b 6 6)
        let router := s.rd E.routerMac 0 % 2 ^ 48
        if router ≠ 0 ∧ field b 0 6 = router then s.routeEth p vid b tc else s.bridge p vid b tc

/-- ETH_FRAME_RECEIVE: an Ethernet frame, from its destination address to its check, is received whole at a port (R247,
R305-R316).  `staged` is what its share of the receive buffer already holds, `buffered` what the engine's (R370); `upsets` the entries its lookups find with
bad parity. -/
def execEthFrameReceive (t : Time) (port : Nat) (bytes : List Byte) (staged buffered : Nat)
    (upsets : List (Nat × Nat)) (s : State) : Host.Outcome State Fault Refusal :=
  let s := s.begin t
  .next (if !s.isUp port then s
    else if s.attachFull (dieOf port) (buffered + bytes.length) then s.bump E.attachDrops (dieOf port) 1
    else
      let s := s.arrives port bytes.length
      let n := bytes.length
      if n < 64 ∨ 9216 < n then s.drop .runtGiant port
      else if fcsBytes (bytes.take (n - 4)) ≠ bytes.drop (n - 4) then s.failsCheck (s.roomy.acceptEth port bytes staged) port
      else
        let s := ((s.countFixed (8 * dieOf port) 1).countEvent (8 * dieOf port) 0x01 port 0 1).countEvent
          (8 * dieOf port) 0x02 port 0 n
        (s.findUpsets (dieOf port) upsets).acceptEth port bytes staged)

/-! ### Tables written and read -/

/-- GEI_EXACT_WRITE's rule (R303). -/
def geiExactRule (r : BitVec 64) (s : State) : Verdict :=
  let v := r.toNat
  let g := bits v 63 40
  let has := (s.net.exact.get? g).isSome
  firstCause E.geiExactStatus [
    (bits v 38 16 ≠ 0, 6), (bit v 14 || (!bit v 39 && !has), 2),
    (bit v 39 && !has && decide (16384 ≤ s.net.exact.length), 3)]

/-- An exact GEI route inserted, replaced or deleted (R303). -/
def geiExactAct (r : BitVec 64) (s : State) : State :=
  let v := r.toNat
  let g := bits v 63 40
  let e := if bit v 39 then s.net.exact.set g (bits v 15 0) else s.net.exact.del g
  (({ s with net := { s.net with exact := e } }).clearBadAll 1 g).wr E.geiExactStatus 0 0

/-- GEI_EXACT_WRITE (R303). -/
def execGeiExactWrite (a : Access) (record : BitVec 64) (s : State) : Host.Outcome State Fault Refusal :=
  .next (s.writeOne a E.geiExactWrite 0 8 0 true (geiExactRule record) (geiExactAct record))

/-- The answer of GEI_QUERY. -/
def geiAnswer (v : Nat) (s : State) : Nat :=
  let (src, hop) := s.geiLookup (bits v 63 61) (bits v 55 32)
  pack [(3, bits v 63 61), (5, 0), (24, bits v 55 32), (14, 0), (2, src), (16, hop)]

/-- GEI_QUERY (R302): the record is held; a read gives the answer of that moment. -/
def execGeiQuery (a : Access) (record : BitVec 64) (s : State) : Host.Outcome State Fault Refusal :=
  .next (s.writeOne a E.geiQuery 0 8 0 true (fun _ => .ok) (fun s => s.wr E.geiQuery 0 (2 ^ 64 + record.toNat)))

/-- ADDR_MODE's rule: refused while any die holds an address entry (R304). -/
def addrModeRule (s : State) : Verdict :=
  if s.net.addrs.any (fun d => !d.2.isEmpty) then .refused 0 0 else .ok

/-- The address-table mode set, with its capacity (R304). -/
def addrModeAct (v : Nat) (s : State) : State :=
  (s.wr E.addrMode 0 v).wr E.addrCapacity 0 (if v = 1 then 524288 else 131072)

/-- ADDR_MODE (R304). -/
def execAddrMode (a : Access) (value : Nat) (s : State) : Host.Outcome State Fault Refusal :=
  .next (s.writeOne a E.addrMode 0 1 value true addrModeRule (addrModeAct value))

/-- ADDR_WRITE's rule (R311). -/
def addrRule (r : BitVec 128) (s : State) : Verdict :=
  let v := r.toNat
  let key := addrKey (bits v 111 100) (bits v 99 52)
  firstCause E.addrStatus [
    (bits v 124 112 ≠ 0 ∨ bits v 35 0 ≠ 0, 6),
    (1 < bits v 127 126 ∨ bits v 111 100 = 0 ∨ bits v 111 100 = 4095 ∨ bit v 92 ∨ bit v 50, 2),
    (bits v 127 126 = 0 ∧ !(List.range 8).any (fun d => (s.addrPut d key ⟨0, false, 0, false⟩).1), 3)]

/-- An address entry inserted, replaced or deleted at every die (R311); an insert that names a DOWN port is discarded (R314; log
202). -/
def addrAct (r : BitVec 128) (s : State) : State :=
  let v := r.toNat
  let key := addrKey (bits v 111 100) (bits v 99 52)
  let s := if bits v 127 126 = 0 then
      if s.namesDown (bits v 51 36) then s else (List.range 8).foldl (fun (s : State) d =>
        match s.addrPut d key ⟨bits v 51 36, bit v 125, addrStamp s.now, true⟩ with
        | (true, s) => s
        | (false, s) => s.learnFull d key) s
    else ({ s with net := { s.net with addrs := s.net.addrs.map (fun (d : Nat × Tab AddrEntry) => (d.1, Tab.del d.2 key)) } }).clearBadAll 3 key
  s.wr E.addrStatus 0 0

/-- ADDR_WRITE (R311). -/
def execAddrWrite (a : Access) (record : BitVec 128) (s : State) : Host.Outcome State Fault Refusal :=
  .next (s.writeOne a E.addrWrite 0 16 0 true (addrRule record) (addrAct record))

/-- The answer of ADDR_QUERY. -/
def addrAnswer (v : Nat) (s : State) : Nat :=
  let key := addrKey (bits v 111 100) (bits v 99 52)
  let ans := match s.addrFind (bits v 127 125) key with
    | none => [(1, 0), (1, 0), (11, 0), (12, bits v 111 100), (48, bits v 99 52), (16, 0), (20, 0), (16, 0)]
    | some e =>
      let age := if s.rd E.addrMode 0 = 1 then b2n e.hit else (addrStamp s.now + 65536 - e.stamp) % 65536
      [(1, 1), (1, b2n e.static), (11, 0), (12, bits v 111 100), (48, bits v 99 52), (16, e.hop), (20, 0), (16, age)]
  pack ((3, bits v 127 125) :: ans)

/-- ADDR_QUERY (R304): the record is held; a read gives the answer of that moment. -/
def execAddrQuery (a : Access) (record : BitVec 128) (s : State) : Host.Outcome State Fault Refusal :=
  .next (s.writeOne a E.addrQuery 0 16 0 true (fun _ => .ok) (fun s => s.wr E.addrQuery 0 (2 ^ 128 + record.toNat)))

/-- ADDR_FLUSH (R314). -/
def addrFlushAct (r : BitVec 64) (s : State) : State := s.flushAddrs (bits r.toNat 63 52) (bits r.toNat 47 32)

/-- ADDR_FLUSH (R314). -/
def execAddrFlush (a : Access) (record : BitVec 64) (s : State) : Host.Outcome State Fault Refusal :=
  .next (s.writeOne a E.addrFlush 0 8 0 true (fun _ => .ok) (addrFlushAct record))

/-- The oldest learn record. -/
def State.learnHead (s : State) : Nat :=
  match s.net.learnQ with
  | r :: _ => r.toNat
  | [] => 0

/-- The oldest learn record removed; an empty queue may report its next overflow (R310). -/
def State.learnDrop (s : State) : State :=
  let q := s.net.learnQ.tail
  { s with net := { s.net with learnQ := q, learnFull := s.net.learnFull && !q.isEmpty } }

/-- LEARN_POP: a read removes and returns the oldest learn record (R310). -/
def execLearnPop (a : Access) (s : State) : Host.Outcome State Fault Refusal :=
  .next (s.readOne a E.learnPop 0 true State.learnHead State.learnDrop)

/-- LEARN_PROPAGATE: an insert or move that another die has sent reaches a die (R309). -/
def execLearnPropagate (t : Time) (die vid mac hop : Nat) (s : State) : Host.Outcome State Fault Refusal :=
  let s := s.begin t
  let x := (die, addrKey vid mac, hop)
  .next (if s.net.spread.contains x then
      ({ s with net := { s.net with spread := s.net.spread.erase x } }).learnAt die (addrKey vid mac) hop
    else s)

/-- An entry the sweep removes: dynamic and aged (R312), or dynamic with its hit bit clear (R313). -/
def State.aged (s : State) (e : AddrEntry) : Bool :=
  !e.static && (if s.rd E.addrMode 0 = 1 then !e.hit
    else decide (s.rd E.ageTime 0 ≤ (addrStamp s.now + 65536 - e.stamp) % 65536 * (2 ^ 24 * ns)))

/-- AGE_SWEEP: a sweep of one die's table (R312, R313). -/
def execAgeSweep (t : Time) (die : Nat) (s : State) : Host.Outcome State Fault Refusal :=
  let s := s.begin t
  let tab := s.addrTab die
  let n := (tab.filter (fun (x : Nat × AddrEntry) => s.aged x.2)).length
  let kept := tab.filter (fun (x : Nat × AddrEntry) => !s.aged x.2)
  let kept := if s.rd E.addrMode 0 = 1 then kept.map (fun (x : Nat × AddrEntry) => (x.1, { x.2 with hit := false })) else kept
  .next ((s.setAddrTab die kept).bump E.fwdCounts 5 n)

/-- A prefix record applied at all dies (R319). -/
def State.applyPrefix (s : State) (r : BitVec 192) : State :=
  let v := r.toNat
  let fam := bits v 189 189
  let key := pfxKey fam (bits v 188 181) (bits v 127 0)
  let held := (s.net.prefixes.get? key).isSome
  let ins := bits v 191 190 = 0
  let t := if ins then s.net.prefixes.set key (bits v 180 167) else s.net.prefixes.del key
  let free := s.rd E.prefixUnitsFree 0
  let free := if ins then (if held then free else free - pfxUnits fam) else (if held then free + pfxUnits fam else free)
  ((({ s with net := { s.net with prefixes := t } }).clearBadAll 4 key)).wr E.prefixUnitsFree 0 free

/-- The prefix write in progress finished. -/
def State.finishPrefix (s : State) : State :=
  match s.net.prefixJob with
  | some r => (({ s with net := { s.net with prefixJob := none } }).applyPrefix r).wr E.prefixStatus 0 0
  | none => s

/-- PREFIX_WRITE's rule, judged with the write in progress applied (R319). -/
def prefixRule (r : BitVec 192) (s : State) : Verdict :=
  let s := s.finishPrefix
  let v := r.toNat
  let fam := bits v 189 189; let len := bits v 188 181; let p := bits v 127 0
  let key := pfxKey fam len p
  let b := pbucket fam len p
  let held := (s.net.prefixes.get? key).isSome
  let units := s.net.prefixes.foldl (fun n x =>
    if pbucket (pfxFam x.1) (pfxLen x.1) (pfxVal x.1) = b then n + pfxUnits (pfxFam x.1) else n) 0
  firstCause E.prefixStatus [
    (bits v 166 128 ≠ 0 ∨ famBits fam < len ∨ (fam = 0 ∧ 2 ^ 32 ≤ p) ∨ maskTop fam len p ≠ p, 6),
    (1 < bits v 191 190 ∨ (bits v 191 190 = 1 ∧ !held), 2),
    (bits v 191 190 = 0 ∧ !held ∧ 8 < units + pfxUnits fam, 3)]

/-- A prefix write begins; PREFIX_STATUS reads 0xFF until it is applied (R273, R319). -/
def prefixAct (r : BitVec 192) (s : State) : State :=
  let s := s.finishPrefix
  ({ s with net := { s.net with prefixJob := some r } }).wr E.prefixStatus 0 0xFF

/-- PREFIX_WRITE (R319). -/
def execPrefixWrite (a : Access) (record : BitVec 192) (s : State) : Host.Outcome State Fault Refusal :=
  .next (s.writeOne a E.prefixWrite 0 24 0 true (prefixRule record) (prefixAct record))

/-- PREFIX_APPLIED: the keeper has applied a prefix write at all dies (R319). -/
def execPrefixApplied (t : Time) (s : State) : Host.Outcome State Fault Refusal := .next (s.begin t).finishPrefix

/-- NEXTHOP_WRITE's rule (R316). -/
def nexthopRule (r : BitVec 128) (_s : State) : Verdict :=
  let v := r.toNat
  firstCause E.nexthopStatus [
    (bits v 35 0 ≠ 0, 6), (bits v 111 100 = 0 ∨ bits v 111 100 = 4095 ∨ bit v 50, 2)]

/-- A next-hop entry set (R316). -/
def nexthopAct (r : BitVec 128) (s : State) : State :=
  let i := bits r.toNat 127 114
  (({ s with net := { s.net with nextHops := s.net.nextHops.set i r } }).clearBadAll 6 i).wr E.nexthopStatus 0 0

/-- NEXTHOP_WRITE (R316). -/
def execNexthopWrite (a : Access) (record : BitVec 128) (s : State) : Host.Outcome State Fault Refusal :=
  .next (s.writeOne a E.nexthopWrite 0 16 0 true (nexthopRule record) (nexthopAct record))

/-- The answer of LPM_QUERY. -/
def lpmAnswer (v : Nat) (s : State) : Nat :=
  let ans := match s.lpm (bits v 191 189) (bits v 188 188) (bits v 127 0) with
    | some (len, nh) => [(1, 1), (8, len), (14, nh)]
    | none => [(1, 0), (8, 0), (14, 0)]
  pack ([(3, bits v 191 189), (1, bits v 188 188)] ++ ans ++ [(37, 0), (128, bits v 127 0)])

/-- LPM_QUERY (R318): the record is held; a read gives the answer of that moment. -/
def execLpmQuery (a : Access) (record : BitVec 192) (s : State) : Host.Outcome State Fault Refusal :=
  .next (s.writeOne a E.lpmQuery 0 24 0 true (fun _ => .ok) (fun s => s.wr E.lpmQuery 0 (2 ^ 192 + record.toNat)))

/-- PARITY_SCRUB: the scrubber reads a die's entries and finds some with bad parity (R320, R321). -/
def execParityScrub (t : Time) (die : Nat) (found : List (Nat × Nat)) (s : State) : Host.Outcome State Fault Refusal :=
  .next ((s.begin t).findUpsets die found)

/-- FILTER_REBUILD: the keeper has rebuilt a filter entry from the hash tables (R321). -/
def execFilterRebuild (t : Time) (die family index : Nat) (s : State) : Host.Outcome State Fault Refusal :=
  .next ((s.begin t).clearBad die 5 (family * 65536 + index))

end Sys2Proof.Machine
end

