-- ==== Sys2Proof/Machine/Shift.lean ====
section
/-!
DEFINITION. The step of fabric time: every time that the device's own clock produced is shifted with it, and the schedules
that software wrote continue in stepped time (spec/14 R395).
-/
namespace Sys2Proof.Machine

/-- A time shifted. -/
def shT (d : Int) (t : Time) : Time := ((t : Int) + d).toNat

/-- A time shifted where there is one. -/
def shO (d : Int) (t : Option Time) : Option Time := t.map (shT d)

/-- A table's values changed. -/
def mapTab {α : Type} (f : α → α) (m : Tab α) : Tab α := m.map (fun (x : Nat × α) => (x.1, f x.2))

/-- Buckets and wheel slots. -/
def Bucket.sh (d : Int) (b : Bucket) : Bucket := { b with t := shT d b.t }
def Desc.sh (d : Int) (x : Desc) : Desc := { x with entered := shT d x.entered }
def Queue.sh (d : Int) (q : Queue) : Queue :=
  { q with descs := q.descs.map (Desc.sh d), cb := q.cb.sh d, pb := q.pb.sh d, wheel := shO d q.wheel }
def CircQueue.sh (d : Int) (q : CircQueue) : CircQueue :=
  { q with descs := q.descs.map (Desc.sh d), cb := q.cb.sh d, wheel := shO d q.wheel }

/-- An address entry: its stamp moves as the present stamp does (R312). -/
def AddrEntry.sh (now : Time) (d : Int) (x : AddrEntry) : AddrEntry :=
  { x with stamp := (x.stamp + addrStamp (shT d now) + 65536 - addrStamp now) % 65536 }

/-- A list's schedule from the first cycle start after the step. -/
def State.gatesAfter (s : State) (d : Int) (g : Gates) : Gates :=
  let now := shT d s.now
  let start := fun (l : GateList) =>
    if l.lock then nextCycle (timeNear now (s.rd E.groupBase 0)) (s.rd E.groupCycle 0) now
    else nextCycle l.base l.cycle now
  let change := match g.pend, g.changeAt with
    | some l, some c => if l.lock = false ∧ l.cycle = 0 then some (shT d c) else some (if now ≤ c then c else start l)
    | _, c => c
  let g := { g with pend := g.pend, changeAt := change, committed := shT d g.committed }
  match g.oper with
  | some l =>
    let c := start l
    let last := l.entries.length - 1
    { g with cycleAt := c - (if l.lock then s.rd E.groupCycle 0 else l.cycle) * ns, index := last,
             entryAt := c - (l.entries.getD last (0, 0)).1 * ns }
  | none => g

/-- The switch core, traffic control and tables. -/
def State.netAfter (s : State) (d : Int) : Net :=
  let n := s.net
  { n with
    queues := mapTab (Queue.sh d) n.queues
    circQueues := mapTab (CircQueue.sh d) n.circQueues
    frames := n.frames.map (fun f => { f with stamp := shT d f.stamp })
    ports := mapTab (fun p => { p with faultSince := shO d p.faultSince, okSince := shO d p.okSince }) n.ports
    sprays := mapTab (fun v => { v with since := shT d v.since }) n.sprays
    circuits := mapTab (fun v => { v with since := shT d v.since }) n.circuits
    mcasts := mapTab (fun v => { v with since := shT d v.since }) n.mcasts
    pathFaults := n.pathFaults.map (fun x => { x with sentAt := shT d x.sentAt, first := shT d x.first })
    gates := mapTab (s.gatesAfter d) n.gates
    policers := mapTab (fun x => { x with bucket := x.bucket.sh d }) n.policers
    addrs := mapTab (mapTab (AddrEntry.sh s.now d)) n.addrs
    suppress := n.suppress.map (fun x => (x.1, x.2.1, shT d x.2.2)) }

/-- Messages, notices and limits. -/
def Mgmt.sh (d : Int) (m : Mgmt) : Mgmt :=
  let q := fun (x : NQueue) => { x with
    records := x.records.map (fun r => { r with entered := shT d r.entered }), sentAt := shT d x.sentAt,
    loss := x.loss.map (fun y => (y.1, shT d y.2)) }
  { m with queues := mapTab q m.queues, limits := m.limits.map (fun x => { x with last := shT d x.last }),
           keyPeriodAt := shT d m.keyPeriodAt }

/-- Instances: opening stamps, stall records, the times of completion. -/
def Inst.sh (d : Int) (i : Inst) : Inst :=
  { i with
    openedAt := shT d i.openedAt
    stalls := mapTab (fun m => { m with tData := shT d m.tData, d := shT d m.d, mark := shO d m.mark }) i.stalls
    chunks := i.chunks.map (fun k => { k with openedAt := shT d k.openedAt, lastStamp := shT d k.lastStamp })
    lastLeft := shT d i.lastLeft
    doneAt := shT d i.doneAt
    completeAt := shT d i.completeAt
    witFailed := i.witFailed.map (fun x => { x with at_ := shT d x.at_ })
    tally := i.tally.map (fun x => { x with first := shT d x.first, last := shT d x.last, mark := shO d x.mark, floor := shT d x.floor }) }

/-- The reduction engine. -/
def Coll.sh (d : Int) (c : Coll) : Coll :=
  { c with
    ctxs := mapTab (fun x => { x with insts := x.insts.map (Inst.sh d), writes := x.writes.map (fun y => (shT d y.1, y.2)) }) c.ctxs
    leds := c.leds.map (fun x => { x with since := shT d x.since })
    mismatchAt := mapTab (fun l => l.map (shT d)) c.mismatchAt
    crossing := c.crossing.map (fun x => { x with stamp := shT d x.stamp })
    preSlots := c.preSlots.map (fun x => { x with openedAt := shT d x.openedAt })
    peers := mapTab (fun x => { x with beat := shT d x.beat }) c.peers }

/-- Update graphs: FENCE_LIMIT timers and the rest. -/
def Graphs.sh (d : Int) (g : Graphs) : Graphs :=
  let run := fun (r : Run) => { r with fenceAt := shO d r.fenceAt, storedAt := shT d r.storedAt }
  { g with
    slots := mapTab (fun x => { x with run := x.run.map run }) g.slots
    arrays := mapTab (fun a => { a with first := shO d a.first, last := shT d a.last }) g.arrays
    engines := mapTab (shT d) g.engines
    poisonAt := mapTab (fun l => l.map (shT d)) g.poisonAt
    scrubFrom := mapTab (shT d) g.scrubFrom
    parity := mapTab (fun x => { x with storedAt := shT d x.storedAt }) g.parity }

/-- Optics and die links; the calibration schedule is software's. -/
def Links.sh (d : Int) (l : Links) : Links :=
  { l with
    rings := mapTab (fun x => { x with since := shT d x.since }) l.rings
    narrow := mapTab (fun x => { x with slot := shT d x.slot }) l.narrow
    cal := { l.cal with wrote := shO d l.cal.wrote, told := shO d l.cal.told }
    modules := mapTab (fun x => { x with since := shT d x.since, log := x.log.map (fun y => (y.1, y.2.1, y.2.2.1, shT d y.2.2.2)) }) l.modules
    channels := mapTab (fun x => { x with naks := x.naks.map (shT d), since := shT d x.since }) l.channels }

/-- Power, clocks and temperature. -/
def Power.sh (d : Int) (p : Power) : Power :=
  { p with
    stepAt := shT d p.stepAt, startAt := shT d p.startAt, failedAt := shO d p.failedAt, brace := shO d p.brace
    lostA := shO d p.lostA, lostB := shO d p.lostB, both := shO d p.both, backA := shO d p.backA
    resets := mapTab (shT d) p.resets, rejoin := shO d p.rejoin
    temps := mapTab (fun l => l.map (fun x => (shT d x.1, x.2))) p.temps }

/-- Snapshots and samples. -/
def Probes.sh (d : Int) (p : Probes) : Probes :=
  { p with waits := p.waits.map (fun x => (x.1, x.2.1, shT d x.2.2)), lastAt := mapTab (shT d) p.lastAt }

/-- Link times and PTP ports; the captures are emptied and counted as lost. -/
def Clock.sh (d : Int) (c : Clock) : Clock :=
  let ptp := fun (x : PtpPort) => { x with
    since := shT d x.since, foreign := x.foreign.map (fun y => (y.1, shT d y.2.1, y.2.2)), wait := none, last := none,
    asked := none, half := none }
  { c with
    links := mapTab (fun x => { x with sent := x.sent.map (fun y => (y.1, shT d y.2)), peer := x.peer.map (fun y => (y.1, shT d y.2)) }) c.links
    ptp := mapTab ptp c.ptp
    pulses := mapTab (fun x => { x with from_ := shT d x.from_ }) c.pulses
    caps := mapTab (fun x => { x with queue := [], lost := x.lost + x.queue.length, told := false }) c.caps }

/-- Jobs and spawn sessions. -/
def Job.sh (d : Int) (j : Job) : Job :=
  { j with since := shT d j.since, retired := shT d j.retired, old := j.old.map (fun x => (x.1, shT d x.2)) }
def Session.sh (d : Int) (x : Session) : Session :=
  { x with asks := x.asks.map (fun y => (y.1, shT d y.2)), doneAt := shT d x.doneAt }

/-- The elements that hold an instant of the device's own clock. -/
def ownInstants : List Nat :=
  [elKey E.readySince 0, elKey E.commitLast 0, elKey E.capTime 0] ++ (List.range 20).map (fun k => elKey E.dieExcludedAt k)

/-- A dictionary with its own instants shifted. -/
def shRegs (now : Time) (d : Int) (regs : Tab Nat) : Tab Nat :=
  regs.map (fun (x : Nat × Nat) => if ownInstants.contains x.1 then (x.1, timeLayout (shT d (timeNear now x.2))) else x)

/-- The shift that an offset means for counts that do not wrap: a downward step that would cross zero goes up by 2^32 s. -/
def shiftOf (now : Time) (off : Int) : Int :=
  if off < 0 ∧ (now : Int) + off < (2 ^ 31 * sec : Nat) then off + (2 ^ 32 * sec : Nat) else off

/-- Every time shifted by a step (R395). -/
def State.shift (s : State) (off : Int) : State :=
  let d := shiftOf s.now off
  let lost := fun p => ((s.clock.caps.getD p {}).queue).length
  let s := ((s.bump E.tcapLost 0 (lost 0)).bump E.tcapLost 1 (lost 1))
  let s := (s.wr E.tcapPending 0 0).wr E.tcapPending 1 0
  { s with
    now := shT d s.now
    regs := shRegs s.now d s.regs
    net := s.netAfter d
    mgmt := s.mgmt.sh d
    jobs := mapTab (Job.sh d) s.jobs
    spawns := mapTab (Session.sh d) s.spawns
    coll := s.coll.sh d
    graphs := s.graphs.sh d
    links := s.links.sh d
    power := s.power.sh d
    clock := s.clock.sh d
    probes := s.probes.sh d }

/-- GATE_CHANGE_AT of the pending lists shown in stepped time. -/
def State.showChanges (s : State) : State :=
  s.net.gates.foldl (fun (s : State) (x : Nat × Gates) => if x.2.pend.isSome then s.showChange x.1 x.2.changeAt else s) s

end Sys2Proof.Machine
end

