-- ==== Sys2Proof/Machine/FabricTime.lean ====
section
/-!
DEFINITION. Fabric time's commands: the servo, link-level transfer, the boundary clock, board groups, timed pulses and
captures (spec/14).
-/
namespace Sys2Proof.Machine

/-! ### Timed pulse outputs (R406) -/

/-- The first edge of a pulse record at or after a time; none where there is none. -/
def edgeFrom (r : Nat) (t : Time) : Option Time :=
  let start := timeNear t (pack [(32, bits r 159 128), (30, bits r 127 98), (16, 0)])
  let period := bits r 95 64 * ns
  match bits r 97 96 with
  | 1 => if t ≤ start then some start else none
  | 2 => some (if t ≤ start then start else start + ceilDiv (t - start) period * period)
  | _ => none

/-- A pulse output. -/
def State.pulse (s : State) (k : Nat) : Pulse := s.clock.pulses.getD k {}

/-- A pulse output set. -/
def State.setPulse (s : State) (k : Nat) (x : Pulse) : State := s.setClock { s.clock with pulses := s.clock.pulses.set k x }

/-- The record in force at an edge's time. -/
def State.pulseAt (s : State) (k : Nat) (t : Time) : Nat := if t < (s.pulse k).from_ then (s.pulse k).old else s.rd E.tpoConfig k

/-- The next edge of an output: of the old record before the written one takes effect, of the written one from then on. -/
def State.nextEdge (s : State) (k : Nat) : Option Time :=
  let x := s.pulse k
  let t := match x.last with
    | some l => max s.now (l + 1)
    | none => s.now
  let new := edgeFrom (s.rd E.tpoConfig k) (max t x.from_)
  if t < x.from_ then match edgeFrom x.old t with
    | some e => if e < x.from_ then some e else new
    | none => new
  else new

/-- TPO_NEXT of an output brought up to date. -/
def State.showEdge (s : State) (k : Nat) : State :=
  s.wr E.tpoNext k (match s.nextEdge k with
    | some e => timeLayout e
    | none => 0)

/-- TPO_CONFIG's own rule (R406 Table 5). -/
def tpoRule (v : Nat) (t : Time) (s : State) : Verdict :=
  let _ := s
  let period := bits v 95 64
  let width := bits v 63 32
  let mode := bits v 97 96
  if 1000000000 ≤ bits v 127 98 ∨ mode = 3 ∨ (mode ≠ 1 ∧ (period < 100 ∨ 4000000000 < period)) ∨ width < 8
    ∨ (mode = 1 ∧ 999999999 < width) ∨ (mode = 2 ∧ period < width + 8) then .range
  else if mode = 1 ∧ timeNear t (pack [(32, bits v 159 128), (30, bits v 127 98), (16, 0)]) < t + us then .refused 0 0
  else .ok

/-- A pulse record written: it takes effect 1 µs after its commit. -/
def State.setTpo (s : State) (k v : Nat) : State :=
  let old := s.pulseAt k s.now
  let s := s.setPulse k { s.pulse k with old := old, from_ := s.now + us }
  (s.wr E.tpoConfig k (v / 2 ^ 31 * 2 ^ 31)).showEdge k

/-- TPO_CONFIG (R406). -/
def execTpoConfig (a : Access) (output : Nat) (record : BitVec 160) (s : State) : Host.Outcome State Fault Refusal :=
  .next (s.writeOne a E.tpoConfig output 20 record.toNat true (tpoRule record.toNat a.t)
    (fun s => s.setTpo output record.toNat))

/-- TPO_EDGE: an output fires at its fabric time (R406); the pin's word is the width in ns with the polarity. Out of its supply
range the pin does not move (R557). -/
def execTpoEdge (t : Time) (output : Nat) (s : State) : Host.Outcome State Fault Refusal :=
  let s := s.begin t
  .next (if output < 4 ∧ s.nextEdge output = some t then
      let r := s.pulseAt output t
      let u := if s.power.vio then s.emit (.pin output (bits r 63 32 * 2 + bits r 31 31)) else s
      (u.setPulse output { s.pulse output with last := some t }).showEdge output
    else s)

/-! ### Captures (R407) -/

/-- A capture input. -/
def State.capture (s : State) (k : Nat) : Capture := s.clock.caps.getD k {}

/-- A capture input set, with TCAP_PENDING. -/
def State.setCapture (s : State) (k : Nat) (x : Capture) : State :=
  (s.setClock { s.clock with caps := s.clock.caps.set k x }).wr E.tcapPending k x.queue.length

/-- TCAP_EDGE: an edge at an input, rising or falling (R407). -/
def execTcapEdge (t : Time) (input : Nat) (falling : Bool) (s : State) : Host.Outcome State Fault Refusal :=
  let s := s.begin t
  let sel := s.rd E.tcapEdge input
  .next (if 2 ≤ input ∨ !s.power.vio ∨ (sel ≠ 2 ∧ sel ≠ b2n falling) then s
    else
      let x := s.capture input
      if x.queue.length < 64 then
        s.setCapture input { x with queue := x.queue ++ [(b2n falling, t, x.lost)], lost := 0 }
      else
        let s := (s.bump E.tcapLost input 1).setCapture input { x with lost := x.lost + 1, told := true }
        if x.told then s else s.raise 0x3008 1 31 [.v 16 input])

/-- The oldest capture of an input as TCAP_POP returns it. -/
def State.capWord (s : State) (k : Nat) : Nat :=
  match (s.capture k).queue with
  | [] => 0
  | (e, t, n) :: _ => pack [(1, 1), (1, e), (78, timeLayout t), (16, n), (32, 0)]

/-- The oldest capture of an input removed. -/
def State.capPop (s : State) (k : Nat) : State :=
  let x := s.capture k
  match x.queue with
  | [] => s
  | _ :: r => s.setCapture k { x with queue := r, told := x.told && !r.isEmpty }

/-- TCAP_POP (R407). -/
def execTcapPop (a : Access) (input : Nat) (s : State) : Host.Outcome State Fault Refusal :=
  .next (s.readOne a E.tcapPop input true (fun s => s.capWord input) (fun s => s.capPop input))

/-! ### The servo (R394-R396) -/

/-- A step by an offset (R394, R395). -/
def State.stepTime (s : State) (off : Int) : State :=
  let s := ((s.shift off).showChanges).wr E.stepDone 0 1
  let s := s.setClock { s.clock with armed := false, band := 0 }
  let s := (List.range 4).foldl (fun (s : State) k =>
    (s.setPulse k { s.pulse k with last := (s.pulse k).last.map (fun _ => s.now) }).showEdge k) s
  (s.wr E.timeState 0 tsAcquiring).raise 0x3001 0 31 [.v 32 (wrapInt 32 off), .v 32 (parentCode s.clock.parent)]

/-- RATE_ADJ's bound in parts per 10^12 (R391). -/
def State.rateBound (s : State) : Nat := 1000 * s.rd E.rateLimit 0

/-- The rate that removes an offset within 16 measurements is open within the bound (R394): a free value. -/
def State.adjustRate (s : State) : State :=
  let (v, s) := s.free
  let b := s.rateBound
  s.wr E.rateAdj 0 (wrapInt 32 ((v % (2 * b + 1) : Nat) - (b : Int)))

/-- An offset within SYNC_BAND or not, in ACQUIRING and SYNCED (R394 Table 1). -/
def State.countBand (s : State) (off : Int) : State :=
  let inside := decide (off.natAbs ≤ s.rd E.syncBand 0)
  let st := s.rd E.timeState 0
  let n := if inside then min 16 (s.clock.band + 1) else 0
  let s := s.setClock { s.clock with band := n }
  if st = tsAcquiring ∧ n = 16 then
    let s := (s.setClock { s.clock with synced := true }).wr E.timeState 0 tsSynced
    (s.showRoot).raise 0x3002 0 31 [.v 32 (parentCode s.clock.parent), .v 24 (bits (s.showRoot.rd E.root 0) 31 8)]
  else if st = tsSynced ∧ !inside then s.wr E.timeState 0 tsAcquiring else s

/-- An offset measured from the selected source (R394). -/
def State.measured (s : State) (off : Int) : State :=
  let s := s.wr E.offsetNow 0 (wrapInt 64 off)
  if s.rd E.timeState 0 = tsFreeRun ∨ s.clock.armed then s.stepTime off
  else
    let s := if s.rd E.timeState 0 = tsHoldover then s.wr E.timeState 0 tsAcquiring else s
    if s.rd E.stepThreshold 0 < off.natAbs then
      let b := s.rateBound
      let s := s.wr E.rateAdj 0 (wrapInt 32 (if off < 0 then -(b : Int) else b))
      (s.setClock { s.clock with band := 0 }).raiseLim sec 0 0x3005 1 31 [.v 32 (wrapInt 32 off)]
    else (s.adjustRate).countBand off

/-- STEP_ARM's own rule (R396). -/
def stepArmRule (s : State) : Verdict :=
  if s.coll.ctxs.any (fun (x : Nat × Ctx) => x.2.admitted) ∨ !s.graphs.slots.isEmpty then .refused E.stepStatus 4 else .ok

/-- STEP_ARM (R396). -/
def execStepArm (a : Access) (value : Nat) (s : State) : Host.Outcome State Fault Refusal :=
  .next (s.writeOne a E.stepArm 0 1 value true stepArmRule
    (fun s => if value = 0 then s else (s.setClock { s.clock with armed := true }).wr E.stepStatus 0 0))

/-- TIME_SYNC: the keeper's counter reaches every die (R390); the model holds one fabric time for all of them. -/
def execTimeSync (t : Time) (s : State) : Host.Outcome State Fault Refusal := .next (s.begin t)

/-! ### The choice of a parent (R401) -/

/-- A candidate's key after a frame from it: the third better one in a row makes it the parent; a parent that is no
candidate any more is lost; a parent worse than the device itself in three frames gives way to it. -/
def State.consider (s : State) (x : Nat × Nat) (better : Nat) (setBetter : Nat → State → State) : State :=
  match s.parentKey x with
  | none => if s.clock.parent = some x then s.loseParent else setBetter 0 s
  | some k =>
    if s.clock.parent = some x then
      if x.1 = 3 ∧ s.ownKey < k then
        if 3 ≤ better + 1 then (setBetter 0 s).setParent none else (setBetter (better + 1) s).showRoot
      else (setBetter 0 s).showRoot
    else if s.ownSources ∧ (k < s.rootKey ∨ (x.1 ≠ 3 ∧ s.clock.parent.isNone)) then
      if 3 ≤ better + 1 then (setBetter 0 s).setParent (some x) else setBetter (better + 1) s
    else setBetter 0 s

/-! ### Link-level time transfer (R399, R400) -/

/-- The key the device advertises; a member of a board group that takes time from the word advertises its leader's state. -/
def State.timeBody (s : State) (p : Nat) : BitVec 192 :=
  let x := s.linkTime p
  let k := s.rootKey
  let (echo, valid, turn) := match x.peer with
    | some (q, t) => if s.now - t < 2 ^ 40 then (q, 1, s.now - t) else (q, 0, 0)
    | none => (0, 0, 0)
  let synced := if s.ownSources then s.rd E.timeState 0 == tsSynced || s.clock.parent.isNone else s.clock.leader == tsSynced
  BitVec.ofNat 192 (pack [(4, 1), (4, 3), (8, x.seq), (8, echo), (1, valid), (2, bits k 57 56), (1, b2n synced),
    (4, min 15 (bits k 23 16)), (8, bits k 55 48), (24, bits k 47 24), (10, 0), (78, timeLayout s.now), (40, turn)])

/-- A TIME frame is formed in a cell of MGMT, which is free again when it has left; one that finds none is not sent (R265,
R268). -/
def State.timeCell (s : State) (port : Nat) : Bool × State :=
  match s.takeCells (dieOf port) 3 1 with
  | none => (false, s.poolEmpty (dieOf port) 3)
  | some (cs, s) => (true, (cs.foldl (fun (s : State) c => s.freeCell (dieOf port) 3 c) s).attach (dieOf port) 1 64)

/-- TIME_FRAME_SEND: a TIME frame leaves a port in LINK mode (R399). -/
def execTimeFrameSend (t : Time) (port : Nat) (s : State) : Host.Outcome State Fault Refusal :=
  let s := s.begin t
  .next (if !s.linkMode port then s
    else
      let (sent, s) := s.timeCell port
      if !sent then s
      else
        let x := s.linkTime port
        (s.emit (.link port (s.timeBody port))).setLinkTime port
          { x with seq := (x.seq + 1) % 256, sent := ((x.seq, t) :: x.sent).take 4 })

/-- The egress stamp of one of the last four TIME frames sent. -/
def LinkTime.stampOf (x : LinkTime) (seq : Nat) : Option Time := (x.sent.find? (fun y => y.1 == seq)).map (·.2)

/-- Delay and offset by R400; none where the frame yields no measurement. -/
def State.measureLink (s : State) (p v : Nat) : Option (Int × Int) :=
  match (s.linkTime p).stampOf (bits v 175 168) with
  | some t1 =>
    let rtt := ftDiff s.now t1 - (bits v 39 0 : Nat)
    if !bit v 167 ∨ rtt < 0 then none
    else
      let delay := rtt / 2 + s.rdInt 32 E.linkAsym p * 4096
      some (delay, ftDiff (timeOfLayout (bits v 117 40)) s.now + delay)
  | none => none

/-- LINK_DELAY shown; a negative delay has no value there that the spec states: a free value. -/
def State.showDelay (s : State) (p : Nat) (delay : Int) : State :=
  if delay < 0 then
    let (v, s) := s.free
    s.wr E.linkDelay p (v % 2 ^ 32)
  else s.wr E.linkDelay p ((delay / 4096).toNat % 2 ^ 32)

/-- A valid TIME frame (R400, R401). -/
def State.takeTime (s : State) (p v : Nat) : State :=
  let x := s.linkTime p
  let seq := bits v 183 176
  let again : Bool := match x.peer with
    | some (q, _) => q == seq
    | none => false
  let m := if again then none else s.measureLink p v
  let said : Peered := ⟨bits v 166 165, bits v 159 152, bits v 151 128, bits v 163 160, bit v 164⟩
  let s := s.setLinkTime p { x with peer := some (seq, s.now), said := some said }
  let s := s.consider (3, p) x.better (fun n s => s.setLinkTime p { s.linkTime p with better := n })
  match m with
  | some (delay, off) =>
    let s := s.showDelay p delay
    if s.clock.parent = some (3, p) then s.measured off else s
  | none => s

/-- TIME_FRAME_RECEIVE: a TIME frame stamped `t` arrives (R400). -/
def execTimeFrameReceive (t : Time) (port : Nat) (body : BitVec 192) (s : State) : Host.Outcome State Fault Refusal :=
  let s := (s.begin t).attach (dieOf port) 0 64
  let v := body.toNat
  .next (if !(s.port port).mftNow then s.dropLink port .mftDisabled
    else if !linkFormOk body 3 then s.dropLink port .malformed
    else if !s.linkMode port then s
    else if bits v 166 165 = 3 ∨ 1000000000 ≤ bits v 85 56 then s.bump E.timeIgnored 0 1
    else s.takeTime port v)

/-- PARENT_TIMEOUT: no valid TIME frame for four of the parent's intervals (R401). -/
def execParentTimeout (t : Time) (s : State) : Host.Outcome State Fault Refusal :=
  let s := s.begin t
  .next (match s.clock.parent with
    | some (3, p) => (s.setLinkTime p { s.linkTime p with said := none }).loseParent
    | _ => s)

/-! ### The boundary clock (R398) -/

/-- The sourcePortIdentity of a PTP port: its portNumber counts from 1. -/
def ptpId (p : Nat) : Nat := Config.clockIdentity % 2 ^ 64 * 2 ^ 16 + (p + 1) % 2 ^ 16

/-- A message leaves a PTP port. -/
def State.sendPtp (s : State) (p : Nat) (m : Ptp) : State :=
  s.emit (.ptp p { m with domain := s.rd E.ptpDomain 0, src := ptpId p })

/-- The next sequence number of a message type at a port. -/
def PtpPort.nextSeq (x : PtpPort) (kind : Nat) : Nat × PtpPort :=
  let n := x.seqs.getD kind 0
  (n, { x with seqs := x.seqs.set kind ((n + 1) % 65536) })

/-- An Announce kept: its source's last, and how many have come within four intervals. -/
def PtpPort.hear (x : PtpPort) (m : Ptp) (now : Time) : PtpPort :=
  let n := match x.foreign.find? (fun y => y.1.src == m.src) with
    | some (_, t, n) => if now ≤ t + 4 * logInterval m.logInt then min 2 (n + 1) else 1
    | none => 1
  { x with foreign := x.foreign.filter (fun y => y.1.src != m.src) ++ [(m, now, n)] }

/-- A PTP port considered as a parent after a message. -/
def State.considerPtp (s : State) (p : Nat) : State :=
  s.consider (ptpKind p, p) (s.ptpPort p).better (fun n s => s.setPtpPort p { s.ptpPort p with better := n })

/-- The port synchronises to the source of a message. -/
def State.ptpFollows (s : State) (p : Nat) (m : Ptp) : Bool :=
  (s.rd E.ptpPortState p == psUncalibrated || s.rd E.ptpPortState p == psSlave)
    && match (s.ptpPort p).bestForeign s.now with
      | some b => b.src == m.src
      | none => false

/-- A Sync's origin, as corrected: `d` is its ingress minus its corrected origin.  With a delay known it is an offset. -/
def State.ptpSynced (s : State) (p : Nat) (d : Int) (t2 : Time) : State :=
  let s := s.setPtpPort p { s.ptpPort p with last := some (d, t2) }
  match (s.ptpPort p).delay with
  | some delay =>
    let s := s.wr E.ptpPortState p psSlave
    let s := s.considerPtp p
    if s.clock.parent = some (ptpKind p, p) then s.measured (delay - d) else s
  | none => s

/-- A message answered or taken, by its type (R398; IEEE 1588-2019). -/
def State.takePtp (s : State) (p : Nat) (m : Ptp) : State :=
  let x := s.ptpPort p
  let mine := m.req == ptpId p
  match m.kind with
  | 0 =>
    if !s.ptpFollows p m then s
    else if m.twoStep then s.setPtpPort p { x with wait := some (m.seq, m.src, s.now, m.corr) }
    else s.ptpSynced p (ftDiff s.now m.stamp - m.corr) s.now
  | 8 => match x.wait with
    | some (q, src, t2, c) =>
      if q = m.seq ∧ src = m.src ∧ s.ptpFollows p m = true then
        (s.setPtpPort p { x with wait := none }).ptpSynced p (ftDiff t2 m.stamp - c - m.corr) t2
      else s
    | none => s
  | 1 =>
    if s.rd E.ptpPortState p = psMaster ∧ !s.ptpP2P p then
      s.sendPtp p { kind := 9, domain := 0, src := 0, seq := m.seq, corr := m.corr, stamp := s.now, req := m.src, udp := m.udp }
    else s
  | 9 => match x.asked, x.last with
    | some (q, t3), some (d, _) =>
      if q = m.seq ∧ mine = true ∧ s.ptpFollows p m = true then
        s.setPtpPort p { x with asked := none, delay := some ((d + ftDiff m.stamp t3 - m.corr) / 2) }
      else s
    | _, _ => s
  | 2 =>
    if s.ptpP2P p then
      let (v, s) := s.free
      let r : Ptp := { kind := 3, domain := 0, src := 0, seq := m.seq, twoStep := true, corr := m.corr, stamp := s.now, req := m.src, udp := m.udp }
      (s.sendPtp p r).sendPtp p { r with kind := 10, twoStep := false, corr := 0, stamp := s.now + v }
    else s
  | 3 => match x.asked with
    | some (q, t1) =>
      if q = m.seq ∧ mine = true ∧ s.ptpP2P p = true then
        let d := ftDiff s.now t1 - m.corr
        if m.twoStep then s.setPtpPort p { x with asked := none, half := some (q, d, m.stamp) }
        else s.setPtpPort p { x with asked := none, delay := some (d / 2) }
      else s
    | none => s
  | 10 => match x.half with
    | some (q, d, t2) =>
      if q = m.seq ∧ mine = true then
        s.setPtpPort p { x with half := none, delay := some ((d - m.corr - ftDiff m.stamp t2) / 2) }
      else s
    | none => s
  | 11 =>
    if m.src / 65536 = Config.clockIdentity % 2 ^ 64 ∨ 255 ≤ m.steps then s
    else ((s.setPtpPort p (x.hear m s.now)).ptpEval).considerPtp p
  | _ => s

/-- PTP_MESSAGE: a message arrives, stamped `t`, at a PTP port; one of another domain or transport is ignored (R398). -/
def execPtpMessage (t : Time) (port : Nat) (m : Ptp) (s : State) : Host.Outcome State Fault Refusal :=
  let s := (s.begin t).ptpEval
  .next (if !s.ptpOn port ∨ 1026 ≤ port ∨ m.domain ≠ s.rd E.ptpDomain 0 ∨ (m.udp = true ∧ port < 1024) then s
    else s.takePtp port m)

/-- The data set of the device's own Announce: the best one heard, one step on, while a port is SLAVE; else its own. -/
def State.announceOf (s : State) : Ptp :=
  match (if s.slaves.isEmpty then none else s.bestAnnounce) with
  | some (m, _) => { m with steps := m.steps + 1, corr := 0, stamp := 0, req := 0, twoStep := false, udp := false }
  | none => { kind := 11, domain := 0, src := 0, prio1 := s.rd E.ptpPriority1 0, quality := Config.clockQuality,
              prio2 := s.rd E.ptpPriority2 0, gm := Config.clockIdentity }

/-- PTP_MESSAGE_SEND: at its interval a port sends Sync with its Follow_Up (0), Delay_Req (1), Pdelay_Req (2) or
Announce (11) (R398). -/
def execPtpMessageSend (t : Time) (port kind : Nat) (s : State) : Host.Outcome State Fault Refusal :=
  let s := (s.begin t).ptpEval
  let st := s.rd E.ptpPortState port
  .next (if !s.ptpOn port ∨ 1026 ≤ port then s
    else
      let (n, x) := (s.ptpPort port).nextSeq kind
      let base : Ptp := { kind := kind, domain := 0, src := 0, seq := n, logInt := s.rdInt 8 E.ptpLogSync 0 }
      if kind = 0 ∧ st = psMaster then
        ((s.setPtpPort port x).sendPtp port { base with twoStep := true }).sendPtp port { base with kind := 8, stamp := t }
      else if kind = 1 ∧ (st = psSlave ∨ st = psUncalibrated) ∧ !s.ptpP2P port then
        (s.setPtpPort port { x with asked := some (n, t) }).sendPtp port { base with logInt := 127 }
      else if kind = 2 ∧ s.ptpP2P port = true then
        (s.setPtpPort port { x with asked := some (n, t) }).sendPtp port { base with logInt := 127 }
      else if kind = 11 ∧ st = psMaster then
        let (v, s) := s.free
        (s.setPtpPort port x).sendPtp port { s.announceOf with kind := 11, seq := n, logInt := (v % 4 : Nat) }
      else s)

/-- MGMT_PORT_LINK_CHANGE: a management port's link goes down or comes up (R401). -/
def execMgmtPortLinkChange (t : Time) (port : Nat) (up : Bool) (s : State) : Host.Outcome State Fault Refusal :=
  let s := s.begin t
  .next (if 2 ≤ port then s
    else (s.setClock { s.clock with mgmtUp := if up then insertNat port s.clock.mgmtUp else s.clock.mgmtUp.filter (fun p => p != port) }).ptpEval)

/-! ### Board groups (R404, R405) -/

/-- The word of R404 at a second. -/
def groupWord (secs state : Nat) : Nat :=
  let v := pack [(32, secs), (2, state), (6, 0)]
  v * 256 + crc8 (toBytes 5 v)

/-- GROUP_SYNC_EMIT: the leader drives the edge and the word of a second boundary (R404). -/
def execGroupSyncEmit (t : Time) (s : State) : Host.Outcome State Fault Refusal :=
  let s := s.begin t
  .next (if s.rd E.groupRole 0 = 1 ∧ t % sec = 0 ∧ s.power.vio = true then
      s.emit (.pin 4 (groupWord (t / sec) (s.rd E.timeState 0))) else s)

/-- The member leaves LOCKED for a cause, whose code the spec does not give, and returns to its own sources (R405). -/
def State.loseLock (s : State) : State :=
  let (v, s) := s.free
  let s := s.setClock { s.clock with own := true, edges := 0, missed := 0 }
  let s := (s.wr E.groupState 0 2).raise 0x3006 1 31 [.v 8 v]
  let s := s.gateLock false
  match s.bestParent with
  | some x => s.setParent (some x)
  | none => s.setParent none

/-- The member enters LOCKED (R405). -/
def State.gainLock (s : State) (off : Int) : State :=
  let back := s.clock.own
  let s := (s.setClock { s.clock with own := false, missed := 0, parent := none }).showRoot
  let s := (s.wr E.groupState 0 1).raise 0x3007 0 31 [.v 32 (wrapInt 32 off)]
  if back then s.gateLock true else s.wr E.groupLocked 0 1

/-- A valid word (R405): the edge's time is its seconds plus GROUP_DELAY. -/
def State.takeWord (s : State) (w : Nat) : State :=
  let off := ftDiff (bits w 47 16 * sec) s.now + s.rdInt 32 E.groupDelay 0 * 4096
  let near := decide (off.natAbs ≤ 4 * ns)
  let n := if near then min 3 (s.clock.edges + 1) else 0
  let s := s.setClock { s.clock with edges := n, missed := 0, leader := bits w 15 14 }
  let s := if s.clock.own then s else s.measured off
  if s.rd E.groupState 0 ≠ 1 ∧ n = 3 then s.gainLock off else s

/-- A word missing or with a wrong CRC (R405). -/
def State.missWord (s : State) : State :=
  let n := min 2 (s.clock.missed + 1)
  let s := s.setClock { s.clock with missed := n, edges := 0 }
  if n = 2 ∧ s.rd E.groupState 0 = 1 then s.loseLock else s

/-- GROUP_SYNC_WORD: a member receives an edge, at `t` by its own time, with its word (R405). -/
def execGroupSyncWord (t : Time) (word : BitVec 48) (s : State) : Host.Outcome State Fault Refusal :=
  let s := s.begin t
  let w := word.toNat
  .next (if s.rd E.groupRole 0 ≠ 2 ∨ !s.power.vio then s
    else if crc8 (toBytes 5 (w / 256)) = w % 256 then s.takeWord w else s.missWord)

/-- GROUP_WORD_MISSING: a second boundary passes without a valid word (R405). -/
def execGroupWordMissing (t : Time) (s : State) : Host.Outcome State Fault Refusal :=
  let s := s.begin t
  .next (if s.rd E.groupRole 0 ≠ 2 then s else s.missWord)

/-- TREF_IN_LOST: TREF_IN has had no clock for 10 µs (R405). -/
def execTrefInLost (t : Time) (s : State) : Host.Outcome State Fault Refusal :=
  let s := s.begin t
  .next (if s.rd E.groupRole 0 ≠ 2 ∨ s.rd E.groupState 0 ≠ 1 then s else s.loseLock)

end Sys2Proof.Machine
end

