-- ==== Sys2Proof/Machine/Stack.lean ====
section
/-!
DEFINITION. The stack memory's commands: stack commands done, scrub, temperature and partitions (spec/08).
-/
namespace Sys2Proof.Machine

/-! ### Blocks read (R230-R233) -/

/-- A corrected read counted and told (R232). -/
def State.correctedRead (s : State) (h : Nat) : State :=
  let s := (s.bump E.corrected h 1).countEvent (8 * (8 + h / 2) + 4 + h % 2) 0x81 0xFFFF 0 1
  s.raiseLim sec h 0x8C01 0 (8 + h / 2) [.v 16 h, .v 32 (s.rd E.corrected h)]

/-- A block newly found uncorrectable: counted, recorded, told and poisoned; a full list or too many in 1 s exclude the stack
(R231, R232). -/
def State.newPoison (s : State) (h b : Nat) (x : Holds) : State :=
  let s := s.bump E.uncorrectable h 1
  let s := s.wr E.ueLast 0 (pack [(5, h), (3, holdsPart x), (40, b), (32, s.now / sec), (30, s.now % sec / ns), (18, 0)])
  let s := s.raise 0x8C02 2 (8 + h / 2) [.v 16 h, .v 8 (holdsPart x), .v 40 b, .v 32 (holdsOwner x)]
  if 4096 ≤ (s.poisoned h).length then s.excludeStack h 3
  else
    let s := s.setPoison h (insertNat b (s.poisoned h))
    let recent := (s.graphs.poisonAt.getD h []).filter (fun t => decide (s.now < t + sec)) ++ [s.now]
    let s := { s with graphs := { s.graphs with poisonAt := s.graphs.poisonAt.set h recent } }
    if s.rd E.ueLimit 0 < recent.length then s.excludeStack h 4 else s

/-- A block met uncorrectable or poisoned: the list, then what it held (R231, R234). -/
def State.badBlock (s : State) (h b : Nat) (x : Holds) : State :=
  let s := if (s.poisoned h).contains b then s else s.newPoison h b x
  if s.stackUp h then s.blockLost h x else s

/-- Blocks of a stack (R219). -/
def stackBlocks : Nat := 1610612736

/-- What a block of a stack holds: a chunk's slot where it lies in one, else what the command says (log 194). -/
def State.holdsAt (s : State) (h b : Nat) (x : Holds) : Holds :=
  match s.slotAt h b with
  | some y => .slot (s.opAt y.x.ctx) y.x.inst y.x.k.phase y.x.k.chunk
  | none => match x with
    | .slot _ _ _ _ => .free 0
    | x => x

/-- A block read by the base die (R229-R232): none, with what meeting it costs, where it is poisoned or uncorrectable; else its
data with any one symbol corrected, the correction counted. -/
def State.readBlock (s : State) (h b : Nat) (x : Holds) : Option (BitVec 512) × State :=
  let r := readWord (s.stored h b)
  if (s.poisoned h).contains b = true ∨ r.1 = .bad then (none, s.badBlock h b (s.holdsAt h b x))
  else (some r.2, if r.1 = .corrected then s.correctedRead h else s)

/-- A block read, and what follows where it has data. -/
def State.onBlock (s : State) (h b : Nat) (x : Holds) (f : State → BitVec 512 → State) : State :=
  let r := s.readBlock h b x
  if r.1.isSome then f r.2 (r.1.getD 0) else r.2

/-- A pattern written into every word of consecutive blocks. -/
def State.patternBlocks (s : State) (h b n : Nat) (v : BitVec 512) : State :=
  (List.range (min n (stackBlocks - b))).foldl (fun (s : State) k => s.putBlock h (b + k) v) s

/-- A combining command on one word, or one XA192 pair, executed on what has been read of it (R227, R229). -/
def State.combine (s : State) (h cmd b j : Nat) (d : Nat) (x : Holds) : State :=
  s.onBlock h b x (fun s v =>
    if cmd ≠ 4 then (s.putBlock h b (putWordAt v j (combined cmd (wordAt v j) (d % 2 ^ 128)))).bump E.accCommands h 1
    else
      let b2 := s.partner h b
      s.onBlock h b2 x (fun s v2 =>
        let r := added192 (wordAt v j) (wordAt v2 j) d
        ((s.putBlock h b (putWordAt v j r.1)).putBlock h b2 (putWordAt v2 j r.2)).bump E.accCommands h 1))

/-- A command of Table 2 executed by the base die on block `b`, `word` and `count` where it takes them. -/
def State.stackCommand (s : State) (h cmd b word count : Nat) (data : BitVec 512) (x : Holds) : State :=
  match cmd with
  | 0 => s.onBlock h b x (fun s v => { s with graphs := { s.graphs with given := s.graphs.given.set h v } })
  | 1 => s.putBlock h b data
  | 2 => s.patternBlocks h b count (packWords (List.replicate 4 (data.toNat % 2 ^ 128)))
  | _ => s.combine h cmd b (word % 4) data.toNat x

/-- A 64-byte transfer of a class at a stack's interface counts (R507, R510). -/
def State.transferred (s : State) (h cls : Nat) : State :=
  let b := 8 * (8 + h / 2) + 4 + h % 2
  (s.countFixed b 1).countEvent b 0x80 cls 0 1

/-- STACK_COMMAND_DONE: a command of Table 2 is served by a stack's interface and completes there (R227-R234, R238), after
retries; four that fail in a row exclude the stack (R229).  `holds` is what the block holds outside the chunks' slots. -/
def execStackCommandDone (t : Time) (stack cmd block count retries : Nat) (failed : Bool) (x : Carried) (holds : Holds)
    (s : State) : Host.Outcome State Fault Refusal :=
  let s := s.begin t
  .next (if 20 ≤ stack ∨ !s.stackUp stack ∨ 9 < cmd ∨ stackBlocks ≤ block then s
    else match s.serve stack (holdsClass (s.holdsAt stack block holds)) x.met.wait with
      | none => s
      | some s =>
        let s := s.transferred stack (holdsClass (s.holdsAt stack block holds))
        let s := if retries = 0 then s else s.bump E.interfaceRetries stack 1
        if failed then (if 4 ≤ retries then s.excludeStack stack 2 else s)
        else (s.upset stack block x.met.upset).stackCommand stack cmd block x.word count x.data holds)

/-- The scrub of a stack is more than 1% of SCRUB_PERIOD behind its schedule (R238). -/
def State.scrubLate (s : State) (h : Nat) : Bool :=
  let p := s.rd E.scrubPeriod 0
  decide (s.graphs.scrubFrom.getD h 0 + s.graphs.scrubAt.getD h 0 * p / stackBlocks + p / 100 < s.now)

/-- The next block of a stack's patrol scrub; after the last a new pass begins, on schedule (R233). -/
def State.scrubNext (s : State) (h : Nat) : State :=
  let next := (s.graphs.scrubAt.getD h 0 + 1) % stackBlocks
  let s := { s with graphs := { s.graphs with scrubAt := s.graphs.scrubAt.set h next } }
  if next ≠ 0 then s
  else { s.bump E.scrubPasses h 1 with graphs := { s.graphs with
    scrubFrom := s.graphs.scrubFrom.set h (s.graphs.scrubFrom.getD h 0 + s.rd E.scrubPeriod 0) } }

/-- SCRUB_STEP: patrol scrub reads the next block of a stack, writes it back where it was corrected and poisons it where it is
uncorrectable (R233); it has a transfer while no class waits, or before every class when it is late (R238). -/
def execScrubStep (t : Time) (stack : Nat) (met : Met) (holds : Holds) (s : State) :
    Host.Outcome State Fault Refusal :=
  let s := s.begin t
  .next (if 20 ≤ stack ∨ !s.stackUp stack ∨ (met.wait.any (fun n => decide (0 < n)) ∧ !s.scrubLate stack) then s
    else
      let b := s.graphs.scrubAt.getD stack 0
      let s := (s.scrubNext stack).upset stack b met.upset
      s.onBlock stack b holds (fun s v =>
        if ((s.graphs.upsets.getD stack []).get? b).isSome then s.putBlock stack b v else s))

/-! ### Temperature (R235) -/

/-- STACK_TEMP_SAMPLE: a reading in 1/16 °C (R235 Table 4); that of an excluded stack is reported only. -/
def execStackTempSample (t : Time) (stack : Nat) (temp : Int) (s : State) : Host.Outcome State Fault Refusal :=
  let s := s.begin t
  .next (if 20 ≤ stack then s
    else if !s.stackUp stack then s.wr E.stackTemp stack (wrapInt 16 temp)
    else
      let note := [Item.v 16 stack, .v 32 (wrapInt 32 temp)]
      let s := s.wr E.stackTemp stack (wrapInt 16 temp)
      let s := if 85 * 16 < temp ∧ s.rd E.refreshMode stack = 0 then (s.wr E.refreshMode stack 1).raise 0x8C04 0 (8 + stack / 2) note
        else if temp ≤ 82 * 16 ∧ s.rd E.refreshMode stack = 1 then (s.wr E.refreshMode stack 0).raise 0x8C05 0 (8 + stack / 2) note else s
      let s := if 95 * 16 < temp then s.raiseLim sec stack 0x8C06 1 (8 + stack / 2) note else s
      if 105 * 16 < temp then s.excludeStack stack 5 else s)

/-! ### Partitions (R220-R222) -/

/-- PART_REQUEST: new partition sizes, while no registration, prepared or admitted, tensor or cached block is held (R222); the
record's reserved bits are ignored (R9). -/
def execPartRequest (a : Access) (record : BitVec 64) (s : State) : Host.Outcome State Fault Refusal :=
  let v := record.toNat
  let spill := bits v 63 48
  let spawn := bits v 47 32
  let sample := bits v 31 16
  .next (s.writeOne a E.partRequest 0 8 0 true
    (fun s =>
      let inRange := decide (20 ≤ spill) && decide (spill ≤ 768) && decide (spawn ≤ 256) && decide (2 ≤ sample) && decide (sample ≤ 64)
        && decide (832 + spill + spawn + sample ≤ 1920)
      if !s.coll.ctxs.isEmpty ∨ s.graphs.tensors.any (fun (x : Nat × Tensor) => x.2.admitted)
        ∨ s.spawns.any (fun (x : Nat × Session) => !x.2.data.isEmpty) then .refused E.partStatus 0x01
      else if !inRange then .refused E.partStatus 0x02 else .ok)
    (fun s =>
      let s := (s.wr E.partRequest 0 (v / 65536 * 65536)).wr E.partStatus 0 0
      let s := ((s.wr E.spillGib 0 spill).wr E.spawnGib 0 spawn).wr E.sampleGib 0 sample
      let s := s.wr E.stateGib 0 (1920 - spill - spawn - sample)
      let s := { s with probes := { s.probes with snaps := [], samples := [] } }
      (s.raise 0x8C08 0 31 [.v 32 spill, .v 32 spawn, .v 32 sample, .v 32 (1920 - spill - spawn - sample)]).evalStarts 64))

end Sys2Proof.Machine
end

