-- ==== Sys2Proof/Machine/Faults.lean ====
section
/-!
DEFINITION. The completion pipeline's command, dies found unresponsive or fatal, migration done, and the keepers' changes of
role (spec/05 R153, R154, spec/15 R412, R413, R421, R429-R432).
-/
namespace Sys2Proof.Machine

/-- A chunk enters its die's pipeline before another: by the stamps of the completing frames, then context, then chunk (R112). -/
def Placed.before (a b : Placed) : Bool :=
  decide (a.k.lastStamp < b.k.lastStamp) || (a.k.lastStamp == b.k.lastStamp &&
    (decide (a.ctx < b.ctx) || (a.ctx == b.ctx && decide (a.k.chunk < b.k.chunk))))

/-- No chunk that waits for the same pipeline is before a chunk (R112). -/
def State.firstIn (s : State) (x : Placed) : Bool :=
  s.allChunks.all (fun (y : Placed) => !(y.k.die == x.k.die && y.k.state == .completing && !y.k.queued && y.before x))

/-- CHUNK_COMPLETION: the pipeline takes a chunk in COMPLETING whose turn it is (R112, R153, R154); a die that has reached QUIRE_MISMATCH_LIMIT is
excluded (R413).  `ups` are the accumulator bits that an upset has flipped, `bad` the conversions that came out different. -/
def execChunkCompletion (t : Time) (op inst phase chunk : Nat) (ups : List (Nat × Nat)) (bad : Nat) (s : State) :
    Host.Outcome State Fault Refusal :=
  let s := s.begin t
  .next (if s.gei = 0 then s else match s.ctxOf op with
    | none => s
    | some c => match s.coll.ctxs.get? c, s.inst? c inst with
      | some x, some i => match findChunk i.chunks phase chunk with
        | some k =>
          if k.state ≠ .completing ∨ k.queued = true ∨ !s.firstIn ⟨c, inst, k⟩ then s
          else
            let s := s.complete c inst x i k ups bad
            if s.mismatchLimit k.die then s.excludeDie (8 + k.die) 3 else s
        | none => s
      | _, _ => s)

/-- A die declared UNRESPONSIVE (1) or FATAL (2) by the active keeper: a switch die, a quire die or the standby (R412). -/
def State.declareDie (s : State) (die cause : Nat) : State :=
  if die = 18 + s.keeper then s else s.excludeDie die cause

/-- HEALTH_FLIT_ABSENT: no health flit from a die for DIE_TIMEOUT (R412). -/
def execHealthFlitAbsent (t : Time) (die : Nat) (s : State) : Host.Outcome State Fault Refusal :=
  .next ((s.begin t).declareDie die 1)

/-- HEALTH_FLIT_FATAL: the first flit of a die with FATAL set (R412). -/
def execHealthFlitFatal (t : Time) (die : Nat) (s : State) : Host.Outcome State Fault Refusal :=
  .next ((s.begin t).declareDie die 2)

/-- A moved stripe: the committed copy, with its version, is in both copies at the new place (R421). -/
def State.moveStripe (s : State) (x : Nat × Nat) : State :=
  match s.tensor? x.1 with
  | some t =>
    let c := (t.stripe x.2).cur
    s.setTensor (t.putStripe x.2 ⟨c, c, (t.stripe x.2).second⟩)
  | none => s

/-- MIGRATION_DONE: the moved stripes of a graph lie at their new place, and its next run may start (R421). -/
def execMigrationDone (t : Time) (slot : Nat) (s : State) : Host.Outcome State Fault Refusal :=
  let s := s.begin t
  .next (match s.graphs.slots.get? slot with
    | none => s
    | some g =>
      if !g.migrating ∨ g.run.isSome then s
      else
        let s := g.moved.foldl (fun (s : State) x => s.moveStripe x) s
        let s := s.modGraph slot (fun (y : Graph) => { y with migrating := false, moved := [] })
        s.raise 0x900A 0 31 [.v 32 g.id, .v 32 g.moved.length])

/-! ### The keepers (R430-R432) -/

/-- KEEPER_TAKEOVER: the standby finds the active keeper unresponsive or fatal (R430); a device without a READY standby
resets (R422). -/
def execKeeperTakeover (t : Time) (fatal : Bool) (s : State) : Host.Outcome State Fault Refusal :=
  let s := s.begin t
  .next (s.excludeKeeper (s.keeper) (if fatal then 2 else 1))

/-- KEEPER_SWITCH (R430): refused unless the standby is READY; a write of 0 commands nothing (log 111). -/
def execKeeperSwitch (a : Access) (value : Nat) (s : State) : Host.Outcome State Fault Refusal :=
  .next (s.writeOne a E.keeperSwitch 0 1 value true
    (fun s => if s.rd E.standbyState 0 ≠ 2 then .refused 0 0 else .ok)
    (fun s => if value = 0 then s else s.takeover 3 0))

/-- KEEPER_REJOIN (R432): refused unless the standby is EXCLUDED or absent and no rejoin is under way; starts the partial
reset of the keeper and the copy of the active keeper's state. -/
def execKeeperRejoin (a : Access) (value : Nat) (s : State) : Host.Outcome State Fault Refusal :=
  .next (s.writeOne a E.keeperRejoin 0 1 value true
    (fun s => if s.rd E.standbyState 0 = 0 ∨ s.rd E.standbyState 0 = 3 then .ok else .refused 0 0)
    (fun s => if value = 0 then s
      else { s.wr E.standbyState 0 1 with power := { s.power with rejoin := some a.t } }))

/-- A keeper's reset and copy are done, and it is a READY standby (R432). -/
def State.rejoined (s : State) : State :=
  let k := 1 - s.keeper
  let s := { s.wr E.standbyState 0 2 with power := { s.power with rejoin := none } }
  let s := (s.wr E.dieState (18 + k) 2).wr E.dieCause (18 + k) 0
  let s := s.wr E.domainState (18 + k) 1
  s.raise 0x9005 0 31 [.v 16 k]

/-- KEEPER_REJOINED (R432). -/
def execKeeperRejoined (t : Time) (s : State) : Host.Outcome State Fault Refusal :=
  let s := s.begin t
  .next (if s.power.rejoin.isNone then s else s.rejoined)

end Sys2Proof.Machine
end

