-- ==== Sys2Proof/Machine/Notices.lean ====
section
/-!
DEFINITION. Notice queues and their sinks: pushed, resent, acknowledged, polled, configured, and written to the ring of the
PCIe window (spec/17 R484, R491-R494), and the header of a DAP message (R479-R481).
-/
namespace Sys2Proof.Machine

/-! ### DAP messages -/

/-- The DAP header (R479 Table 5). -/
def dapHeader (msg status slot txn items len seq queue : Nat) : List Byte :=
  toBytes 16 (pack [(4, 1), (4, msg), (8, status), (16, slot), (32, txn), (8, 0), (8, items), (16, len), (16, seq), (8, queue), (8, 0)])

/-- The bytes of a message's MAC: 16 under a management key, none on a local or in-band path (R479, R481). -/
def macLen (slot : Nat) : Nat := if slot < 16 then 16 else 0

/-- A message of the device: header, content, and the MAC of its key slot (R481). -/
def State.dapMessage (s : State) (msg status slot txn items seq queue : Nat) (content : List Byte) : List Byte :=
  let b := dapHeader msg status slot txn items (16 + content.length + macLen slot) seq queue ++ content
  if slot < 16 then b ++ toBytes 16 (mac128 (s.mgmt.keys.getD slot {}).key b) else b

/-- The MAC of a received message verifies under the key of its slot, which is enabled (R481). -/
def State.dapMacOk (s : State) (slot : Nat) (b : List Byte) : Bool :=
  match s.mgmt.keys.get? slot with
  | some k => k.enable && mac128 k.key (b.take (b.length - 16)) == field b (b.length - 16) 16
  | none => false

/-- A failed MAC counted and told (R481). -/
def State.authFailed (s : State) (slot : Nat) : State :=
  let s := s.bump E.dapCounts 2 1
  s.raiseLim sec 0 0xF002 1 31 [.v 16 slot, .v 32 (s.rd E.dapCounts 2)]

/-- A refused management frame told (R488, R490). -/
def State.mgmtRefused (s : State) (family src : Nat) : State := s.raiseLim sec 0 0xF007 1 31 [.v 8 family, .v 24 src]

/-- The keeper serves its network paths: its firmware runs, not in recovery, and start-up has not given up (R498, R533). -/
def State.netServed (s : State) : Bool :=
  let d := s.rd E.deviceState 0
  d != 0 && d != 4 && !(s.power.failedAt.isSome && decide (3 ≤ s.power.repeats))

/-- In-band management reaches the keeper: the device has a GEI besides (R503). -/
def State.inbandServed (s : State) : Bool := s.netServed && s.gei != 0

/-! ### Queues -/

/-- Fields of a queue's configuration (R492 Table 13). -/
def State.nqSink (s : State) (q : Nat) : Nat := bits (s.rd E.nqConfig q) 254 252
def State.nqBatch (s : State) (q : Nat) : Nat := max 1 (bits (s.rd E.nqConfig q) 175 168)

/-- SEQ of a record. -/
def Queued.seq (r : Queued) : Nat := bits r.record.toNat 145 130

/-- The first records of a queue removed, after which a loss that waits is reported (R493, R494). -/
def State.ackRecords (s : State) (q n : Nat) : State :=
  let nq := s.nq q
  (s.setNq q { nq with records := nq.records.drop n, pushed := nq.pushed - n }).reportLoss q

/-- One NOTICE message of consecutive records to a queue's sink (R493).  The management port of a DAP sink is a free value. -/
def State.sendNotices (s : State) (q : Nat) (l : List Queued) : State :=
  match l with
  | [] => s
  | r :: _ =>
    let cfg := s.rd E.nqConfig q
    let slot := bits cfg 183 176
    let m := s.dapMessage 3 0 slot 0 l.length r.seq q (l.flatMap (fun (x : Queued) => toBytes 32 x.record.toNat))
    if s.nqSink q = 1 then
      let (p, s) := s.free
      s.emit (.udp (p % 2) (bits cfg 127 0) (bits cfg 199 184) m)
    else s.originate (s.mgmtFrame 0 0 (bits cfg 223 200) 2 1 m)

/-- Records sent in messages of at most BATCH. -/
def State.sendBatches (s : State) (q : Nat) : Nat → List Queued → State
  | 0, _ => s
  | n + 1, l => if l.isEmpty then s else (s.sendNotices q (l.take (s.nqBatch q))).sendBatches q n (l.drop (s.nqBatch q))

/-- The sink of a queue is pushed to: DAP, or MFT where the device has a GEI. -/
def State.pushes (s : State) (q : Nat) : Bool :=
  decide (q < 8) && s.netServed && (s.nqSink q == 1 || (s.nqSink q == 3 && s.gei != 0))

/-- The next `n` unpushed records of a queue pushed (R493). -/
def State.pushQueue (s : State) (q n : Nat) : State :=
  let nq := s.nq q
  let l := (nq.records.drop nq.pushed).take n
  if l.isEmpty then s
  else
    let sent := if nq.pushed = 0 then s.now else nq.sentAt
    (s.keeperWork.setNq q { nq with pushed := nq.pushed + l.length, sentAt := sent }).sendBatches q l.length l

/-- NOTICE_PUSH: BATCH records wait, or the oldest unpushed record entered 100 µs ago (R493). -/
def execNoticePush (t : Time) (queue : Nat) (s : State) : Host.Outcome State Fault Refusal :=
  let s := s.begin t
  let nq := s.nq queue
  let l := nq.records.drop nq.pushed
  let due : Bool := match l.head? with
    | some r => decide (s.nqBatch queue ≤ l.length) || decide (r.entered + 100 * us ≤ t)
    | none => false
  .next (if s.pushes queue ∧ due then s.pushQueue queue (s.nqBatch queue) else s)

/-- NOTICE_RESEND: 1 ms after they were last sent, a queue's unacknowledged records go again, in order (R493). -/
def execNoticeResend (t : Time) (queue : Nat) (s : State) : Host.Outcome State Fault Refusal :=
  let s := s.begin t
  let nq := s.nq queue
  .next (if s.pushes queue ∧ 0 < nq.pushed ∧ nq.sentAt + ms ≤ t then
    (s.keeperWork.setNq queue { nq with sentAt := t }).sendBatches queue nq.pushed (nq.records.take nq.pushed)
  else s)

/-- How many pushed records an acknowledged SEQ covers. -/
def ackCount (l : List Queued) (seq : Nat) : Nat :=
  match l.findIdx? (fun x => x.seq == seq) with
  | some i => i + 1
  | none => 0

/-- NOTICE_ACK: a message from a DAP sink, or in a NOTICE frame of a source GEI, acknowledges a queue's records up to SEQ
(R481, R487, R493). -/
def execNoticeAck (t : Time) (src : Option Nat) (bytes : List Byte) (s : State) : Host.Outcome State Fault Refusal :=
  let s := s.begin t
  let h := field bytes 0 16
  let slot := bits h 111 96
  .next (if !s.netServed ∨ (src.isSome ∧ s.gei = 0) then s
    else if bytes.length < 32 ∨ bits h 127 124 ≠ 1 ∨ bits h 123 120 ≠ 4 ∨ 16 ≤ slot then s.bump E.dapCounts 5 1
    else if !s.dapMacOk slot bytes then s.authFailed slot
    else if bytes.length ≠ 32 ∨ bits h 47 32 ≠ 32 ∨ 7 < bits h 15 8 ∨ bits h 55 48 ≠ 0 then s.bump E.dapCounts 5 1
    else
      let q := bits h 15 8
      let nq := s.nq q
      if s.pushes q then s.keeperWork.ackRecords q (ackCount (nq.records.take nq.pushed) (bits h 31 16)) else s)

/-- The record that a read of NQ_POP returns: the oldest of a POLL queue, else zeros (R493). -/
def State.nqHead (s : State) (q : Nat) : Nat :=
  if s.nqSink q = 0 then match (s.nq q).records.head? with
    | some r => r.record.toNat
    | none => 0
  else 0

/-- What such a read removes. -/
def State.nqPop (s : State) (q : Nat) : State := if s.nqSink q = 0 then s.ackRecords q 1 else s

/-- NQ_POP (R493). -/
def execNqPop (a : Access) (queue : Nat) (s : State) : Host.Outcome State Fault Refusal :=
  .next (s.readOne a E.nqPop queue true (fun s => s.nqHead queue) (fun s => s.nqPop queue))

/-- NQ_CONFIG's own rule (R492 Table 13). -/
def nqRule (v : Nat) (_ : State) : Verdict :=
  if bits v 254 252 ≤ 3 ∧ bits v 251 250 ≤ 2 ∧ bits v 183 176 ≤ 15 ∧ 1 ≤ bits v 175 168 ∧ bits v 175 168 ≤ 32 then .ok else .range

/-- A queue's configuration without its reserved bits (R9). -/
def nqMask (v : Nat) : Nat :=
  pack [(6, bits v 255 250), (2, 0), (18, bits v 247 230), (6, 0), (56, bits v 223 168), (40, 0), (128, bits v 127 0)]

/-- A queue configured and emptied (R492); a loss that waits is reported once the queue takes records (R494). -/
def State.setNqConfig (q v : Nat) (s : State) : State :=
  let s := (s.wr E.nqConfig q (nqMask v)).setNq q { s.nq q with records := [], pushed := 0 }
  if bit v 255 then s.reportLoss q else s

/-- NQ_CONFIG (R492). -/
def execNqConfig (a : Access) (queue : Nat) (record : BitVec 256) (s : State) : Host.Outcome State Fault Refusal :=
  .next (s.writeOne a E.nqConfig queue 32 0 true (nqRule record.toNat) (State.setNqConfig queue record.toNat))

/-! ### The ring of the PCIe window (R484) -/

/-- A ring size is valid: a power of two from 64 to 65,536. -/
def ringSizeOk (n : Nat) : Bool := (List.range 11).any (fun k => n == 64 * 2 ^ k)

/-- The queue that NRING_CTRL names, while the ring is enabled and that queue's sink is PCIE. -/
def State.ringQueue (s : State) : Option Nat :=
  let q := bits s.mgmt.ringCtrl 10 8
  if bit s.mgmt.ringCtrl 0 && ringSizeOk s.mgmt.ringSize && s.nqSink q == 2 then some q else none

/-- NRING_WRITE: the next record of the ring's queue written at NRING_HEAD when room exists; vector 1 is raised by a write
into an empty ring (R484). -/
def execNringWrite (t : Time) (s : State) : Host.Outcome State Fault Refusal :=
  let s := s.begin t
  let m := s.mgmt
  .next (match s.ringQueue with
    | none => s
    | some q =>
      let nq := s.nq q
      match (nq.records.drop nq.pushed).head? with
      | none => s
      | some r =>
        if (m.ringHead + 1) % m.ringSize = m.ringTail % m.ringSize then s
        else
          let s := s.emit (.pcieWrite (m.ringBase + 32 * m.ringHead) r.record)
          let s := if m.ringHead = m.ringTail then s.emit (.msix 1) else s
          let s := s.setNq q { nq with pushed := nq.pushed + 1 }
          { s with mgmt := { s.mgmt with ringHead := (m.ringHead + 1) % m.ringSize } })

/-- A new NRING_TAIL acknowledges the records it passes (R484, R493). -/
def State.setTail (s : State) (v : Nat) : State :=
  let m := s.mgmt
  let s' := { s with mgmt := { m with ringTail := v } }
  match s.ringQueue with
  | some q =>
    let n := (v + m.ringSize - m.ringTail % m.ringSize) % m.ringSize
    s'.ackRecords q (min n (s.nq q).pushed)
  | none => s'

/-- NRING_TAIL: the host writes a register of the notice ring, by its offset in BAR0: NRING_TAIL acknowledges; the base (its
low and high halves), the size and the control are set (R484 Table 7). -/
def execNringTail (t : Time) (offset value : Nat) (s : State) : Host.Outcome State Fault Refusal :=
  let s := s.begin t
  let v := value % 2 ^ 32
  let m := s.mgmt
  .next (if offset = 0x110 then s.setTail v
    else if offset = 0x100 then { s with mgmt := { m with ringBase := m.ringBase / 2 ^ 32 * 2 ^ 32 + v / 4096 * 4096 } }
    else if offset = 0x104 then { s with mgmt := { m with ringBase := v * 2 ^ 32 + m.ringBase % 2 ^ 32 } }
    else if offset = 0x108 then { s with mgmt := { m with ringSize := v } }
    else if offset = 0x114 then { s with mgmt := { m with ringCtrl := pack [(3, bits v 10 8), (7, 0), (1, bits v 0 0)] } }
    else s)

/-- PERST_N: a fundamental reset of the PCIe endpoint only: the mailbox and the ring's registers return to their reset
values, and records not yet acknowledged are written again (R484, R493, R551). -/
def execPerstN (t : Time) (s : State) : Host.Outcome State Fault Refusal :=
  let s := s.begin t
  let s := match s.ringQueue with
    | some q => s.setNq q { s.nq q with pushed := 0 }
    | none => s
  .next { s with mgmt := { s.mgmt with
    mbx := .idle, mbxReq := [], mbxResp := [], ringBase := 0, ringSize := 0, ringHead := 0, ringTail := 0, ringCtrl := 0 } }

end Sys2Proof.Machine
end

