-- ==== Sys2Proof/Machine/Spawn.lean ====
section
/-!
DEFINITION. The spawn broadcast's commands (spec/16 R459-R467).
-/
namespace Sys2Proof.Machine

/-! ### Sessions opened, closed and queried -/

/-- The session a record spells (R459 Table 7). -/
def sessionOf (v : Nat) : Session :=
  { job := bits v 367 352, number := bits v 383 368, group := bits v 351 336, parent := bits v 335 312,
    alts := (List.range 4).map (fun j => bits v (311 - 24 * j) (288 - 24 * j)), blocks := bits v 215 184, last := bits v 183 171,
    cache := bit v 170, fill := bit v 169, first := bits v 167 150, count := bits v 149 131, tensor := bits v 127 96,
    fillFirst := bits v 95 64 }

/-- FILL_TENSOR is known, in FP32, and long enough for the image (Table 8). -/
def State.fillFits (s : State) (x : Session) : Bool :=
  match s.tensor? x.tensor with
  | some t => t.fmt == 1 && decide (x.fillFirst + x.blocks ≤ t.count)
  | none => false

/-- The first cause of Table 8 that a session record meets, 0 for none. -/
def State.openCode (s : State) (v : Nat) : Nat :=
  let x := sessionOf v
  let mine := s.spawns.filter (fun (y : Nat × Session) => y.2.job == x.job)
  let used := mine.foldl (fun a (y : Nat × Session) => a + y.2.gib) 0
  let above : Bool := match s.quota x.job 394 386 with
    | some q => decide (q < used + x.gib)
    | none => false
  if x.blocks = 0 ∨ x.last = 0 ∨ 4096 < x.last ∨ 262144 < x.count
    ∨ (x.fill ∧ (!x.cache ∨ x.tensor / 65536 ≠ x.job)) then 0x01
  else if (s.job x.job).state ≠ .active then 0x02
  else if 256 ≤ s.spawns.length ∨ 16 ≤ mine.length ∨ above then 0x03
  else if (s.session? x.job x.number).isSome then 0x04
  else if x.fill ∧ !s.fillFits x then 0x05 else 0

/-- SPAWN_OPEN (R459). -/
def execSpawnOpen (a : Access) (record : BitVec 384) (s : State) : Host.Outcome State Fault Refusal :=
  let v := record.toNat
  .next (s.writeOne a E.spawnOpen 0 48 0 true
    (fun s => if s.openCode v = 0 then .ok else .refused E.spawnStatus (s.openCode v))
    (fun s => (s.setSession (sessionOf v)).wr E.spawnStatus 0 0))

/-- SPAWN_CLOSE (R467). -/
def execSpawnClose (a : Access) (record : BitVec 32) (s : State) : Host.Outcome State Fault Refusal :=
  .next (s.writeOne a E.spawnClose 0 4 0 true (fun _ => .ok)
    (fun s => { s with spawns := s.spawns.del (spawnKey (bits record.toNat 31 16) (bits record.toNat 15 0)) }))

/-- The answer of SPAWN_QUERY. -/
def spawnAnswer (v : Nat) (s : State) : Nat :=
  let job := bits v 255 240
  let n := bits v 239 224
  match s.session? job n with
  | some x => pack [(16, job), (16, n), (32, x.data.length), (32, x.missing.length), (19, x.covered), (7, x.adopted.length),
      (24, x.parent), (32, x.filled.length), (78, timeLayout x.doneAt)]
  | none => pack [(16, job), (16, n), (224, 0)]

/-- SPAWN_QUERY (R466): the record is held; a read gives the answer of that moment. -/
def execSpawnQuery (a : Access) (record : BitVec 256) (s : State) : Host.Outcome State Fault Refusal :=
  .next (s.writeOne a E.spawnQuery 0 32 0 (s.ownsJob a (bits record.toNat 255 240)) (fun _ => .ok)
    (fun s => s.wr E.spawnQuery 0 (2 ^ 256 + record.toNat)))

/-! ### Spawn messages (R460-R467) -/

/-- A spawn message is of the form Table 9 gives; any other is counted in SPAWN_BAD. -/
def spawnFormOk (body : List Byte) : Bool :=
  let v := field body 0 32
  let k := bits v 251 248
  decide (32 ≤ body.length) && bits v 255 252 == 1 && decide (1 ≤ k) && decide (k ≤ 6)
    && (k != 2 || (decide (1 ≤ bits v 199 168) && decide (bits v 199 168 ≤ 4096)))

/-- A message of a kind is taken; a malformed one is counted. -/
def State.spawnMsg (s : State) (body : List Byte) (kind : Nat) (act : State → Nat → State) : State :=
  let v := field body 0 32
  if !spawnFormOk body then s.bump E.spawnBad 0 1
  else if bits v 251 248 ≠ kind then s else act s v

/-- A block is what its session says: number, length and check (R461). -/
def Session.blockOk (x : Session) (body : List Byte) : Bool :=
  let v := field body 0 32
  let b := bits v 231 200
  let payload := body.drop 32
  decide (b < x.blocks) && bits v 127 115 == x.bytes b && payload.length == x.bytes b
    && bits v 63 0 == crc64 (body.take 24 ++ payload)

/-- The stack on which a block is cached (R461); none without a quire die. -/
def State.blockStack (s : State) (b : Nat) : Option Nat :=
  let d := s.quires
  if d.isEmpty then none
  else
    let h := 2 * d.getD (b % d.length) 0 + b / d.length % 2
    some (if s.stackUp h then h else 2 * (h / 2) + (1 - h % 2))

/-- A good block cached, filled and sent on to the devices adopted (R461, R465, R466). -/
def State.cacheBlock (s : State) (x : Session) (b : Nat) (payload : List Byte) : State :=
  match s.blockStack b with
  | none => s
  | some h =>
    if (x.data.get? b).isSome then s
    else
      let high := match x.high with
        | some y => max y b
        | none => b
      let x := ({ x with data := x.data.set b (h, payload), high := some high } : Session).settle s.now
      let s := (s.setSession x).bump E.blocksCached 0 1
      let dests := x.adopted.foldl (fun l (y : Nat × Nat × Nat) => insertNat y.2.2 l) []
      let s := dests.foldl (fun (s : State) d => s.serveBlock x b d) s
      let key := spawnKey x.job x.number
      if x.fill ∧ (s.fillBlocks x).contains b then (s.fillBlock x b).ackSession key else s

/-- SPAWN_BLOCK: a BLOCK frame delivered here (R461). -/
def execSpawnBlock (t : Time) (f : Cf) (body : List Byte) (s : State) : Host.Outcome State Fault Refusal :=
  let s := s.begin t
  .next (s.spawnMsg body 1 (fun s v => match s.session? f.job (bits v 247 232) with
    | none => s
    | some x =>
      if !x.cache then s
      else if !x.blockOk body then
        (s.bump E.spawnBad 0 1).raiseLim ms 0 0x701C 1 31
          [.v 16 f.job, .v 8 f.gen, .v 16 x.number, .v 32 (bits v 231 200), .v 16 f.port]
      else s.cacheBlock x (bits v 231 200) (body.drop 32)))

/-- Runs of blocks that are not held among `n` from a first, each as its first and length. -/
def missingRuns (held : Nat → Bool) : Nat → Nat → List (Nat × Nat)
  | 0, _ => []
  | n + 1, b =>
    if held b then missingRuns held n (b + 1)
    else match missingRuns held n (b + 1) with
      | y :: r => if y.1 = b + 1 then (b, y.2 + 1) :: r else (b, 1) :: y :: r
      | [] => [(b, 1)]

/-- A NACK (R462, R467). -/
def State.nack (s : State) (job session dest first count : Nat) : State :=
  s.sendSpawn job dest (spawnBody 6 session first count 0 0 0) []

/-- SPAWN_RANGE_REQ: the blocks held are sent in ascending order, a NACK answers each run not held (R462). -/
def execSpawnRangeReq (t : Time) (f : Cf) (body : List Byte) (s : State) : Host.Outcome State Fault Refusal :=
  let s := s.begin t
  .next (s.spawnMsg body 2 (fun s v =>
    let first := bits v 231 200
    let count := bits v 199 168
    match s.session? f.job (bits v 247 232) with
    | none => s.nack f.job (bits v 247 232) f.src first 0
    | some x =>
      let held := fun b => (x.data.get? b).isSome
      let s := ((List.range count).map (fun i => first + i)).foldl (fun (s : State) b => s.serveBlock x b f.src) s
      (missingRuns held count first).foldl (fun (s : State) r => s.nack f.job x.number f.src r.1 r.2) s))

/-- SPAWN_ACK: cover bits set, completed ranges acknowledged upward (R464). -/
def execSpawnAck (t : Time) (f : Cf) (body : List Byte) (s : State) : Host.Outcome State Fault Refusal :=
  let s := s.begin t
  .next (s.spawnMsg body 3 (fun s v => match s.session? f.job (bits v 247 232) with
    | none => s
    | some x => (s.setSession { x with cover := joinRange x.cover (bits v 167 150, bits v 149 131) }).ackSession
        (spawnKey x.job x.number)))

/-- SPAWN_REPARENT: answered with ADOPTED, its ranks added, or with NACK (R465, R467). -/
def execSpawnReparent (t : Time) (f : Cf) (body : List Byte) (s : State) : Host.Outcome State Fault Refusal :=
  let s := s.begin t
  .next (s.spawnMsg body 4 (fun s v =>
    let n := bits v 247 232
    let r := (bits v 167 150, bits v 149 131, f.src)
    let yes := spawnBody 5 n 0 0 (bits v 167 150) (bits v 149 131) 0
    match s.session? f.job n with
    | none => s.nack f.job n f.src 0 0
    | some x =>
      if x.adopted.contains r then s.sendSpawn f.job f.src yes []
      else if 64 ≤ x.adopted.length then s.nack f.job n f.src 0 0
      else
        let s := (s.setSession { x with adopted := x.adopted ++ [r] }).bump E.reparents 0 1
        (s.sendSpawn f.job f.src yes []).ackSession (spawnKey f.job n)))

/-- A REPARENT sent to an alternate, from its place in the order on (R465); with none left the session keeps its parent. -/
def State.tryAlternate (s : State) (x : Session) (j : Nat) : State :=
  match ((List.range 4).filter (fun i => decide (j ≤ i) && x.alts.getD i 0 != 0)).head? with
  | some i => (s.setSession { x with alt := some i }).sendSpawn x.job (x.alts.getD i 0)
      (spawnBody 4 x.number 0 0 x.first x.count 0) []
  | none => s.setSession { x with alt := none }

/-- SPAWN_ADOPTED: the answering alternate is the parent from now on, and is told what is covered (R465). -/
def execSpawnAdopted (t : Time) (f : Cf) (body : List Byte) (s : State) : Host.Outcome State Fault Refusal :=
  let s := s.begin t
  .next (s.spawnMsg body 5 (fun s v => match s.session? f.job (bits v 247 232) with
    | none => s
    | some x => match x.alt with
      | none => s
      | some j =>
        if x.alts.getD j 0 ≠ f.src then s
        else
          let s := s.setSession { x with parent := f.src, alt := none, acked := [] }
          let s := s.raise 0x7019 1 31 [.v 16 f.job, .v 8 f.gen, .v 16 x.number, .v 24 x.parent, .v 24 f.src]
          s.ackSession (spawnKey x.job x.number)))

/-- SPAWN_NACK: blocks or a session are not held at the sender; a re-parenting goes to the next alternate (R462, R465). -/
def execSpawnNack (t : Time) (f : Cf) (body : List Byte) (s : State) : Host.Outcome State Fault Refusal :=
  let s := s.begin t
  .next (s.spawnMsg body 6 (fun s v => match s.session? f.job (bits v 247 232) with
    | none => s
    | some x => match x.alt with
      | some j => if x.alts.getD j 0 = f.src ∧ bits v 199 168 = 0 then s.tryAlternate x (j + 1) else s
      | none => s))

/-- A run cut to requests of at most 4,096 blocks. -/
def cutRun : Nat → Nat → Nat → List (Nat × Nat)
  | 0, _, _ => []
  | f + 1, b, n => if n = 0 then [] else (b, min n 4096) :: cutRun f (b + min n 4096) (n - min n 4096)

/-- Missing blocks that are due to be asked for. -/
def Session.due (x : Session) (t : Time) : List Nat := (x.asks.filter (fun y => decide (y.2 ≤ t))).map (·.1)

/-- Those due have been asked for: next after 1 ms. -/
def Session.asked (x : Session) (t : Time) : Session :=
  { x with asks := x.asks.map (fun y => if y.2 ≤ t then (y.1, t + ms) else y) }

/-- SPAWN_GAP_TIMER: 200 µs after a gap, then every 1 ms, each run of missing blocks that are due is asked of the parent (R462). -/
def execSpawnGapTimer (t : Time) (job session : Nat) (s : State) : Host.Outcome State Fault Refusal :=
  let s := s.begin t
  .next (match s.session? job session with
    | none => s
    | some x =>
      let due := x.due t
      let runs := (missingRuns (fun b => !due.contains b) (x.high.getD 0) 0).flatMap (fun r => cutRun (r.2 / 4096 + 1) r.1 r.2)
      let s := s.setSession (x.asked t)
      runs.foldl (fun (s : State) r => s.sendSpawn job x.parent (spawnBody 2 session r.1 r.2 0 0 0) []) s)

end Sys2Proof.Machine
end

