-- ==== Sys2Proof/Machine/Peers.lean ====
section
/-!
DEFINITION. Peer devices: beats, loss and return (spec/15 R414-R416, R437, R438, spec/16 R465).
-/
namespace Sys2Proof.Machine

/-- The peers of this device (R414, R465): devices of the effective home sets of its admitted operations, at every version an
instance that has not ended uses (DEDUCED: R70, log 137), of its parity groups, and the parents of its open sessions. -/
def State.peerSet (s : State) : List Nat :=
  let add := fun (l : List Nat) (d : Nat) => if d = s.gei then l else insertNat d l
  let l := s.coll.ctxs.foldl (fun l (x : Nat × Ctx) => if x.2.admitted then (x.2.hsetAt x.2.oldest).foldl add l else l) []
  let l := s.graphs.parity.foldl (fun l (x : Nat × Parity) => if x.2.admitted then (x.2.pgei :: x.2.data).foldl add l else l) l
  s.spawns.foldl (fun l (x : Nat × Session) => add l x.2.parent) l

/-- A peer's record set. -/
def State.setPeer (s : State) (d : Nat) (p : PeerDev) : State :=
  { s with coll := { s.coll with peers := s.coll.peers.set d p } }

/-- The records brought to the peers there are: a new peer counts from now; one that is no peer any more is forgotten unless
it is LOST, since its beats may resume (R415). -/
def State.knowPeers (s : State) : State :=
  let l := s.peerSet
  let s := { s with coll := { s.coll with peers := s.coll.peers.filter (fun (x : Nat × PeerDev) => x.2.lost || l.contains x.1) } }
  l.foldl (fun (s : State) d => match s.coll.peers.get? d with
    | some _ => s
    | none => s.setPeer d { beat := s.now }) s

/-- HS_BEAT_SEND: a beat to each peer (R414). -/
def execHsBeatSend (t : Time) (s : State) : Host.Outcome State Fault Refusal :=
  let s := (s.begin t).knowPeers
  let body := toBytes 24 (pack [(24, s.gei), (8, 0), (32, s.coll.beatSeq), (78, timeLayout t), (50, 0)])
  .next (if s.gei = 0 then s
    else
      let s := s.peerSet.foldl (fun (s : State) d => s.sendPeer d 5 body) s
      { s with coll := { s.coll with beatSeq := (s.coll.beatSeq + 1) % 2 ^ 32 } })

/-- The home-set version of each operation shared with a device is sent to it (R415). -/
def State.tellVersions (s : State) (d : Nat) : State :=
  s.coll.ctxs.foldl (fun (s : State) (x : Nat × Ctx) =>
    if x.2.admitted ∧ x.2.reg.hset.contains d then
      s.sendPeer d 7 (toBytes 1 3 ++ toBytes 4 x.2.reg.op ++ toBytes 4 0 ++ toBytes 24 (x.2.ver + 256 * b2n (x.2.hset.contains d)))
    else s) s

/-- HS_BEAT: a beat arrives; a LOST peer is ALIVE again (R414, R415). -/
def execHsBeat (t : Time) (p : Peer) (body : List Byte) (s : State) : Host.Outcome State Fault Refusal :=
  let s := s.begin t
  .next (match s.peerAccept p 5 body (body.length == 24) with
    | (false, s) => s
    | (true, s) =>
      let d := field body 0 3
      match s.coll.peers.get? d with
      | none => if s.peerSet.contains d then s.setPeer d { beat := t } else s
      | some x =>
        let s := s.setPeer d { beat := t }
        if x.lost then (s.raise 0x9007 0 31 [.v 24 d]).tellVersions d else s)

/-- What shares a LOST peer (R416, R437, R438, R465). -/
def State.losePeer (s : State) (d : Nat) : State :=
  let s := s.coll.ctxs.foldl (fun (s : State) (x : Nat × Ctx) =>
    if x.2.admitted then
      x.2.insts.foldl (fun (s : State) (i : Inst) =>
        if (x.2.hsetAt i.ver).contains d then s.abortHere x.1 i.num 0x0B allOnes else s) s
    else s) s
  let s := s.graphs.parity.foldl (fun (s : State) (x : Nat × Parity) =>
    if x.2.admitted ∧ x.2.pgei = d ∧ x.2.state = 0 then s.unprotect x.2 (x.2.committed.getD 0) else s) s
  let s := match s.graphs.rebuild with
    | some r => match s.graphs.parity.get? (parityKey r.job r.group) with
      | some p => if r.target = d ∨ p.pgei = d ∨ (p.data.contains d ∧ p.data.getD r.index 0 ≠ d) then s.failRebuild r else s
      | none => s
    | none => s
  s.spawns.foldl (fun (s : State) (x : Nat × Session) =>
    if x.2.parent = d ∧ x.2.alt.isNone then s.tryAlternate x.2 0 else s) s

/-- PEER_LOST: no beat from a peer for HS_LOST (R414, R416); a device that is no peer is not declared LOST. -/
def execPeerLost (t : Time) (gei : Nat) (s : State) : Host.Outcome State Fault Refusal :=
  let s := s.begin t
  .next (match s.coll.peers.get? gei with
    | none => s
    | some x =>
      if x.lost ∨ t < x.beat + s.rd E.hsLost 0 ∨ s.peerSet.contains gei = false then s
      else ((s.setPeer gei { x with lost := true }).raise 0x9006 2 31 [.v 24 gei, .tm x.beat]).losePeer gei)

/-- EXCHANGE_HSET_VER: a newer version that leaves this device out releases the operation here (R415). -/
def execExchangeHsetVer (t : Time) (p : Peer) (body : List Byte) (s : State) : Host.Outcome State Fault Refusal :=
  let s := s.begin t
  .next (if field body 0 1 ≠ 3 then s
    else match s.peerAccept p 7 body (body.length == 33) with
    | (false, s) => s
    | (true, s) =>
      let op := field body 1 4
      let v := field body 9 24
      match s.ctxOf op with
      | none => s
      | some c => match s.coll.ctxs.get? c with
        | none => s
        | some x =>
          let ahead := (v % 256 + 256 - x.ver) % 256
          if ahead = 0 ∨ 128 ≤ ahead ∨ bit v 8 then s
          else ((s.freeCtx c).stripesReleased op).raise 0x9008 0 31 [.v 32 op, .v 8 (v % 256)])

/-- The answer of PEER_QUERY (R442). -/
def State.peerAnswer (s : State) (v : Nat) : Nat :=
  let d := bits v 127 104
  let st := if !s.peerSet.contains d then 0 else match s.coll.peers.get? d with
    | some x => if x.lost then 2 else 1
    | none => 1
  let beat := match s.coll.peers.get? d with
    | some x => timeLayout x.beat
    | none => 0
  pack [(24, d), (2, st), (24, 0), (78, beat)]

end Sys2Proof.Machine
end

