-- ==== Sys2Proof/Machine/Rings.lean ====
section
/-!
DEFINITION. Ring loops, calibration with narrowing, and the optical bypass (spec/12 R334-R346, R349-R354, R358).
-/
namespace Sys2Proof.Machine

/-! ### Rings (R326, R335, R336, R340) -/

/-- A ring's state; a bypass circuit's drop and add rings come after the rings of the channels. -/
def rgOff : Nat := 0
def rgSweep : Nat := 1
def rgIdentify : Nat := 2
def rgLocked : Nat := 3
def rgCal : Nat := 4
def rgParked : Nat := 5
def rgFault : Nat := 6

/-- The number of a circuit's drop ring; its add ring comes after it. -/
def dropRing (circuit : Nat) : Nat := 4096 + 2 * circuit

/-- The engine of a ring. -/
def ringEngine (r : Nat) : Nat := if r < 4096 then r / 512 else (r - 4096) / 128

/-- A ring's loop. -/
def State.loop (s : State) (r : Nat) : RingLoop := s.links.rings.getD r {}

/-- A ring's loop set. -/
def State.setLoop (s : State) (r : Nat) (x : RingLoop) : State :=
  { s with links := { s.links with rings := if x = {} then s.links.rings.del r else s.links.rings.set r x } }

/-- The wavelength a ring must prove (R335, R352). -/
def State.expectedTone (s : State) (r : Nat) : Nat :=
  if r < 4096 then r / 2 % 8
  else match s.links.bypasses.get? ((r - 4096) / 2) with
    | some b => b.wave
    | none => 0xFF

/-- The expected code of a ring; before any calibration it is a free value (log 115), kept from then on. -/
def State.expectedCode (s : State) (r : Nat) : Int × State :=
  let n := ringEngine r
  let x := s.loop r
  let now := s.rdInt 16 E.photonicTemp n
  let cap := s.rd E.engineCap n
  match x.hexp with
  | some h => ((h : Int) + Config.heaterShift (now - x.temp) (bits cap 367 352) (bits cap 335 320) (bits cap 399 384), s)
  | none =>
    let (v, s) := s.free
    ((v % 65536 : Nat), s.setLoop r { x with hexp := some (v % 65536), temp := now })

/-- The order test (R336). -/
def State.orderOk (s : State) (r : Nat) : Bool × State :=
  let (h, s) := s.expectedCode r
  let d := (s.rd E.ringHeater r : Int) - h
  (decide (2 * d.natAbs ≤ bits (s.rd E.engineCap (ringEngine r)) 335 320), s)

/-- A circuit's rings are no longer both LOCKED: the add ring is detuned and the circuit DOWN (R353). -/
def State.bypassDown (s : State) (c : Nat) : State :=
  let s := s.wr E.ringState (dropRing c + 1) rgOff
  if s.rd E.bypassState c ≠ 2 then s
  else
    let (v, s) := s.free
    (s.wr E.bypassState c 3).raise 0x400A 1 (c / 64) [.v 16 (c / 64), .v 16 (c % 64), .v 8 v]

/-- CAL_SLOT, and the length of a pass (R344). -/
def calSlot : Nat := 20 * ms
def calPass : Nat := 256 * calSlot

/-- How far a time lies within a period that starts at a base; none before it. -/
def within (base period : Nat) (t : Time) : Option Nat := if t < base ∨ period = 0 then none else some ((t - base) % period)

/-- A channel lies on the half of its port's wavelengths that holds the calibrated channel of the slot the port is in (R342). -/
def State.idleHalf (s : State) (c : Nat) : Bool :=
  let p := s.portOfChan c
  match s.narrowOf p with
  | none => false
  | some x =>
    let cal := match within s.links.cal.base s.links.cal.period x.slot with
      | some d => 256 * (c / 256) + d / calSlot
      | none => c
    let h := (s.chansOf p).length / 2
    (s.chansOf p).idxOf c / h == (s.chansOf p).idxOf cal / h

/-- A ring has left LOCKED: its port goes DOWN at once, but for the half that a calibration slot leaves idle, or its circuit does
(R339, R353). -/
def State.ringLeft (s : State) (r : Nat) : State :=
  if r < 4096 then
    let s := s.countEvent (8 * ringEngine r + 3) 0x31 (r / 2 % 256) 0 1
    let p := s.portOfChan (r / 2)
    if s.rd E.portState p = 2 ∧ !s.idleHalf (r / 2) then s.portDown p 1 2 else s
  else
    let c := (r - 4096) / 2
    if r % 2 = 0 then s.bypassDown c
    else if s.rd E.bypassState c ≠ 2 then s
    else
      let (v, s) := s.free
      (s.wr E.bypassState c 3).raise 0x400A 1 (c / 64) [.v 16 (c / 64), .v 16 (c % 64), .v 8 v]

/-- A ring is LOCKED; a circuit whose two rings are is UP, and its add ring starts once its drop ring is (R352). -/
def State.ringLocked (s : State) (r : Nat) : State :=
  let s := (s.wr E.ringState r rgLocked).setLoop r { s.loop r with fails := 0, cands := [] }
  if r < 4096 then s
  else
    let c := (r - 4096) / 2
    let s := if r % 2 = 0 ∧ s.rd E.ringState (r + 1) = rgOff then s.wr E.ringState (r + 1) rgSweep else s
    if s.rd E.ringState (dropRing c) = rgLocked ∧ s.rd E.ringState (dropRing c + 1) = rgLocked ∧ s.rd E.bypassState c ≠ 2 then
      (s.wr E.bypassState c 2).raise 0x4009 0 (c / 64) [.v 16 (c / 64), .v 16 (c % 64)]
    else s

/-- A ring in FAULT: its channel is excluded, or its circuit DOWN (Table 5, R352). -/
def State.ringFaults (s : State) (r : Nat) : State :=
  let s := s.wr E.ringState r rgFault
  if r < 4096 then (s.raise 0x4003 2 (r / 512) [.v 16 r, .v 16 (s.portOfChan (r / 2))]).publishCapacity
  else s.wr E.bypassState ((r - 4096) / 2) 3

/-- A sweep has failed: another, or FAULT at the third in a row. -/
def State.sweepFails (s : State) (r : Nat) : State :=
  let x := s.loop r
  let s := s.setLoop r { x with fails := x.fails + 1, cands := [] }
  if 3 ≤ x.fails + 1 then s.ringFaults r else s.wr E.ringState r rgSweep

/-- A ring tries its next candidate, or sweeps again when none is left. -/
def State.nextCandidate (s : State) (r : Nat) : State :=
  let x := s.loop r
  match x.cands with
  | [] => s.sweepFails r
  | h :: rest =>
    ((s.wr E.ringHeater r h).wr E.ringState r rgIdentify).setLoop r { x with cands := rest, tone := 0xFF, run := 0, since := s.now }

/-- A false lock is counted and told (Table 5). -/
def State.wrongLock (s : State) (r tone : Nat) : State :=
  let s := if r < 4096 then s.bump E.wrongLocks r 1 else s
  s.raiseLim sec r 0x4002 1 (ringEngine r) [.v 16 r, .v 8 (s.expectedTone r), .v 8 tone, .v 16 (s.rd E.ringHeater r)]

/-- A ring number: of a channel, or of a circuit that exists. -/
def State.ringExists (s : State) (r : Nat) : Bool :=
  decide (r < 4096) || (s.links.bypasses.get? ((r - 4096) / 2)).isSome

/-- An engine's rings may lock: it is in service, not in a partial reset, its laser gates not closed for temperature (R536,
R544). -/
def State.engineLit (s : State) (n : Nat) : Bool :=
  s.engineUp n && (s.power.resets.get? (24 + n)).isNone && !s.power.shut.contains n

/-- Every ring of an engine goes OFF, and its ports DOWN (R536, R544). -/
def State.engineDark (s : State) (n : Nat) : State :=
  let rings := (List.range 512).map (fun k => 512 * n + k)
    ++ ((s.links.bypasses.filter (fun x => x.1 / 64 == n)).flatMap (fun x => [dropRing x.1, dropRing x.1 + 1]))
  let s := rings.foldl (fun (s : State) r =>
    let st := s.rd E.ringState r
    if st = rgParked ∨ st = rgOff then s
    else
      let s := s.wr E.ringState r rgOff
      if st = rgLocked then s.ringLeft r else s) s
  (enginePorts n).foldl (fun (s : State) p => if s.rd E.portState p = 2 then s.portDown p 1 2 else s) s

/-- A ring that stays detuned: a circuit's add ring while its drop ring is not LOCKED (R353). -/
def State.detuned (s : State) (r : Nat) : Bool := decide (4096 ≤ r) && r % 2 == 1 && s.rd E.ringState (r - 1) != rgLocked

/-- LIGHT_PRESENT: light is at a ring that is OFF (Table 5). -/
def execLightPresent (t : Time) (ring : Nat) (s : State) : Host.Outcome State Fault Refusal :=
  let s := s.begin t
  .next (if !s.ringExists ring ∨ !s.engineLit (ringEngine ring) ∨ s.rd E.ringState ring ≠ rgOff ∨ s.detuned ring then s
    else
      let s := (s.wr E.ringState ring rgSweep).setLoop ring { s.loop ring with fails := 0 }
      let c := (ring - 4096) / 2
      if 4096 ≤ ring ∧ ring % 2 = 0 ∧ s.rd E.bypassState c = 3 ∧ s.rd E.ringState (ring + 1) ≠ rgFault then s.wr E.bypassState c 1 else s)

/-- LIGHT_LOST: a ring goes OFF, its data disabled (Table 5); a circuit without upstream light is DOWN (R352). -/
def execLightLost (t : Time) (ring : Nat) (s : State) : Host.Outcome State Fault Refusal :=
  let s := s.begin t
  let st := s.rd E.ringState ring
  .next (if !s.ringExists ring ∨ st = rgParked ∨ st = rgFault then s
    else
      let s := s.wr E.ringState ring rgOff
      let s := if st = rgLocked then s.ringLeft ring else s
      if 4096 ≤ ring ∧ s.rd E.bypassState ((ring - 4096) / 2) = 1 then s.wr E.bypassState ((ring - 4096) / 2) 3 else s)

/-- Insertion of a code by its distance from the expected one. -/
def byDistance (h : Int) (x : Nat) : List Nat → List Nat
  | [] => [x]
  | y :: r => if ((x : Int) - h).natAbs < ((y : Int) - h).natAbs then x :: y :: r else y :: byDistance h x r

/-- SWEEP_DONE: a sweep's resonances, by heater code (Table 5). -/
def execSweepDone (t : Time) (ring : Nat) (found : List Nat) (s : State) : Host.Outcome State Fault Refusal :=
  let s := s.begin t
  .next (if !s.ringExists ring ∨ s.rd E.ringState ring ≠ rgSweep then s
    else if found.isEmpty then s.sweepFails ring
    else
      let (h, s) := s.expectedCode ring
      let c := (found.foldl (fun l x => byDistance h x l) []).take 10
      (s.setLoop ring { s.loop ring with cands := c }).nextCandidate ring)

/-- PILOT_WINDOW: a 40 µs window ends with a dominant tone (0xFF for none) and the heater at a code (R335, R336). -/
def execPilotWindow (t : Time) (ring tone heater : Nat) (s : State) : Host.Outcome State Fault Refusal :=
  let s := s.begin t
  let st := s.rd E.ringState ring
  .next (if !s.ringExists ring ∨ (st ≠ rgIdentify ∧ st ≠ rgLocked) then s
    else
      let x := s.loop ring
      let run := if x.tone = tone then min 3 (x.run + 1) else 1
      let s := ((s.wr E.ringPilot ring tone).wr E.ringHeater ring heater).setLoop ring { x with tone := tone, run := run }
      let (ok, s) := s.orderOk ring
      let false_ := !ok || (run == 3 && tone != 0xFF && tone != s.expectedTone ring)
      if st = rgIdentify then
        if false_ then (s.wrongLock ring tone).nextCandidate ring
        else if run = 3 ∧ tone = s.expectedTone ring then s.ringLocked ring else s
      else if false_ then ((s.wrongLock ring tone).wr E.ringState ring rgSweep).ringLeft ring else s)

/-- IDENTIFY_TIMEOUT: no dominant tone within 200 µs of taking a candidate (Table 5). -/
def execIdentifyTimeout (t : Time) (ring : Nat) (s : State) : Host.Outcome State Fault Refusal :=
  let s := s.begin t
  let x := s.loop ring
  .next (if !s.ringExists ring ∨ s.rd E.ringState ring ≠ rgIdentify ∨ x.tone ≠ 0xFF ∨ t < x.since + 200 * us then s
    else (s.wrongLock ring 0xFF).nextCandidate ring)

/-- RING_LOCK_LOST: the loop error stayed out of range for 2 µs (R339). -/
def execRingLockLost (t : Time) (ring : Nat) (s : State) : Host.Outcome State Fault Refusal :=
  let s := s.begin t
  .next (if !s.ringExists ring ∨ s.rd E.ringState ring ≠ rgLocked then s
    else
      let s := if ring < 4096 then s.bump E.relocks ring 1 else s
      (s.wr E.ringState ring rgSweep).ringLeft ring)

/-- RING_RETRY (Table 5). -/
def execRingRetry (a : Access) (ring : Nat) (s : State) : Host.Outcome State Fault Refusal :=
  .next (s.writeOne a E.ringRetry 0 2 ring true (fun _ => if 4096 ≤ ring then .range else .ok)
    (fun s => if s.rd E.ringState ring = rgFault then s.wr E.ringState ring rgOff else s))

/-! ### Calibration and narrowing (R341-R346) -/

/-- The schedule in force at a time: what was written applies from the first pass start of its own that lies 10 s after the
write and in no pass of the old schedule (R359). -/
def State.adoptCal (s : State) : State :=
  let c := s.links.cal
  let base := timeNear s.now (s.rd E.calBase 0)
  let period := s.rd E.calPeriod 0
  let starts := within base period s.now == some 0
  let busy := match within c.base c.period s.now with
    | some d => decide (d < calPass)
    | none => false
  match c.wrote with
  | some w => if starts ∧ !busy ∧ w + 10 * sec ≤ s.now then
      { s with links := { s.links with cal := { c with base := base, period := period, wrote := none } } }
    else s
  | none => s

/-- A port may be narrowed (R341). -/
def State.mayNarrow (s : State) (p : Nat) : Bool :=
  s.rd E.narrowEn p == 1 && (s.port p).mftNow && s.rd E.portState p == 2

/-- A ring of a channel enters CALIBRATING (Table 5). -/
def State.startCal (s : State) (r : Nat) : State :=
  if s.rd E.ringState r = rgLocked then s.wr E.ringState r rgCal else s

/-- A channel is skipped (R344). -/
def State.skipsCal (s : State) (c : Nat) : Bool :=
  let bad := fun r => s.rd E.ringState r == rgParked || s.rd E.ringState r == rgFault
  let p := s.portOfChan c
  s.rd E.calEn 0 == 0 || bad (2 * c) || bad (2 * c + 1) || (s.rd E.portState p == 2 && !s.mayNarrow p)

/-- A channel's slot begins (R343, R344). -/
def State.calChannel (s : State) (c : Nat) : State :=
  let p := s.portOfChan c
  let s := if s.rd E.portState p = 2 then s.setNarrow p (some ⟨s.now, 1⟩) else s
  (s.startCal (2 * c)).startCal (2 * c + 1)

/-- CAL_SLOT_START: a slot begins; all engines calibrate the same local channel (R344). -/
def execCalSlotStart (t : Time) (s : State) : Host.Outcome State Fault Refusal :=
  let s := (s.begin t).adoptCal
  .next (match within s.links.cal.base s.links.cal.period t with
    | none => s
    | some d =>
      if d % calSlot ≠ 0 ∨ calPass ≤ d then s
      else
        let start := t - d
        let chans := ((List.range 8).filter (fun n => s.engineUp n)).map (fun n => 256 * n + d / calSlot)
        let (skip, go) := chans.partition (fun c => s.skipsCal c)
        let s := go.foldl (fun (s : State) c => s.calChannel c) s
        if skip.isEmpty then s
        else
          let s := s.bump E.calSkipped 0 skip.length
          if s.links.cal.told = some start then s
          else ({ s with links := { s.links with cal := { s.links.cal with told := some start } } }).raise 0x4008 0 31
            [.v 32 skip.length])

/-- NARROW_DEADLINE: a narrowing is not up 50 µs into its slot, or a widening at its end: the port goes DOWN (R343). -/
def execNarrowDeadline (t : Time) (port : Nat) (s : State) : Host.Outcome State Fault Refusal :=
  let s := s.begin t
  .next (match s.narrowOf port with
    | none => s
    | some x =>
      if x.phase = 1 ∧ x.slot + 50 * us ≤ t then
        ((s.portDown port 1 5).bump E.narrowFailed 0 1).raise 0x4007 1 (dieOf port) [.v 16 port, .tm x.slot]
      else if x.phase = 3 ∧ x.slot + calSlot ≤ t then s.portDown port 1 5 else s)

/-- NARROW_RETURN: 100 µs before the end of the slot no new frame starts and the PCS switches back (R343 Table 6). -/
def execNarrowReturn (t : Time) (port : Nat) (s : State) : Host.Outcome State Fault Refusal :=
  let s := s.begin t
  .next (match s.narrowOf port with
    | some x => if x.phase = 2 ∧ x.slot + calSlot ≤ t + 100 * us then s.setNarrow port (some { x with phase := 3 }) else s
    | none => s)

/-- A ring's calibration is done: H_exp recorded, identity confirmed afresh (Table 5). -/
def State.calDone (s : State) (r code tone : Nat) : State :=
  if s.rd E.ringState r ≠ rgCal then s
  else
    let x := s.loop r
    let s := s.setLoop r { x with hexp := some code, temp := s.rdInt 16 E.photonicTemp (ringEngine r), tone := tone, run := 3 }
    let s := (s.wr E.ringHeater r code).wr E.ringPilot r tone
    s.wr E.ringState r (if tone = s.expectedTone r then rgLocked else rgSweep)

/-- CAL_DONE: both rings of a channel calibrated, with their codes and the tones found (R344). -/
def execCalDone (t : Time) (chan txCode txTone rxCode rxTone : Nat) (s : State) : Host.Outcome State Fault Refusal :=
  let s := s.begin t
  .next (if 2048 ≤ chan then s else (s.calDone (2 * chan) txCode txTone).calDone (2 * chan + 1) rxCode rxTone)

/-! ### Optical bypass (R349-R354) -/

/-- The channel that carries a wavelength on a local fiber of an engine. -/
def chanAt (engine fiber wave : Nat) : Nat := 8 * (32 * engine + fiber) + wave

/-- BYPASS_WRITE's own rule (R350, R351), in the order of R273. -/
def bypassRule (v : Nat) (s : State) : Verdict :=
  let n := bits v 63 61
  let idx := 64 * n + bits v 60 55
  let op := bits v 54 53
  let k := bits v 52 50
  let a := bits v 49 45
  let b := bits v 44 40
  let used := (s.links.bypasses.get? idx).isSome
  let mine := s.links.bypasses.filter (fun (x : Nat × Bypass) => x.1 / 64 == n && x.2.wave == k)
  let open_ := fun f => s.rd E.portAdmin (s.portOfChan (chanAt n f k)) == 1
  firstCause E.bypassStatus [
    (bits v 39 0 ≠ 0, 6),
    (s.rd E.engineState n ≠ 2 ∨ s.rd E.bypassLimit n ≤ bits v 60 55 ∨ 2 ≤ op ∨ (op = 1 ∧ !used), 2),
    (op = 0 ∧ (used ∨ open_ a ∨ open_ b ∨ mine.any (fun (x : Nat × Bypass) => x.2.inF == a || x.2.outF == b)), 4),
    (op = 0 ∧ bits (s.rd E.engineCap n) 411 408 ≤ mine.length, 3)]

/-- A ring parked for a circuit, at once (Table 5, R358). -/
def State.park (s : State) (r : Nat) : State :=
  if s.rd E.ringState r = rgFault then s else s.wr E.ringState r rgParked

/-- A parked ring returns to OFF. -/
def State.unpark (s : State) (r : Nat) : State :=
  if s.rd E.ringState r = rgParked then s.wr E.ringState r rgOff else s

/-- Both bypass rings of a circuit detuned. -/
def State.clearBypassRings (s : State) (c : Nat) : State :=
  let r := dropRing c
  let s := ((s.wr E.ringState r rgOff).wr E.ringState (r + 1) rgOff).setLoop r {}
  ((((s.setLoop (r + 1) {}).wr E.ringHeater r 0).wr E.ringHeater (r + 1) 0).wr E.ringPilot r 0xFF).wr E.ringPilot (r + 1) 0xFF

/-- A circuit created: the channel's rings are parked and the circuit's rings lock; without light at the receive input it is DOWN
(R352). -/
def State.createBypass (s : State) (v : Nat) : State :=
  let n := bits v 63 61
  let c := 64 * n + bits v 60 55
  let b : Bypass := ⟨bits v 52 50, bits v 49 45, bits v 44 40⟩
  let s := s.clearBypassRings c
  let s := { s with links := { s.links with bypasses := s.links.bypasses.set c b } }
  let s := (s.park (2 * chanAt n b.inF b.wave + 1)).park (2 * chanAt n b.outF b.wave)
  ((s.wr E.bypassState c (if s.lowAt 4 (chanAt n b.inF b.wave) then 3 else 1)).wr E.bypassStatus 0 0).remap n

/-- A circuit deleted: its rings are detuned and the parked rings return to OFF (R353). -/
def State.deleteBypass (s : State) (v : Nat) : State :=
  let n := bits v 63 61
  let c := 64 * n + bits v 60 55
  match s.links.bypasses.get? c with
  | none => s
  | some b =>
    let s := s.clearBypassRings c
    let s := { s with links := { s.links with bypasses := s.links.bypasses.del c } }
    let s := (s.unpark (2 * chanAt n b.inF b.wave + 1)).unpark (2 * chanAt n b.outF b.wave)
    (((s.wr E.bypassState c 0).wr E.bypassLoss c 0).wr E.bypassStatus 0 0).remap n

/-- A write of BYPASS_WRITE does what its OP says. -/
def State.bypassAct (v : Nat) (s : State) : State := if bits v 54 53 = 0 then s.createBypass v else s.deleteBypass v

/-- BYPASS_CREATE: a record of OP 0 written to BYPASS_WRITE (R350-R352). -/
def execBypassCreate (a : Access) (record : BitVec 64) (s : State) : Host.Outcome State Fault Refusal :=
  .next (s.writeOne a E.bypassWrite 0 8 0 true (bypassRule record.toNat) (State.bypassAct record.toNat))

/-- BYPASS_DELETE: a record of OP 1 written to BYPASS_WRITE (R350, R353). -/
def execBypassDelete (a : Access) (record : BitVec 64) (s : State) : Host.Outcome State Fault Refusal :=
  .next (s.writeOne a E.bypassWrite 0 8 0 true (bypassRule record.toNat) (State.bypassAct record.toNat))

/-- BYPASS_LOSS_MEASURE: an UP circuit's loss in 0.01 dB (R354). -/
def execBypassLossMeasure (t : Time) (circuit : Nat) (loss : Int) (s : State) : Host.Outcome State Fault Refusal :=
  let s := s.begin t
  let n := circuit / 64
  .next (if 512 ≤ circuit ∨ s.rd E.bypassState circuit ≠ 2 then s
    else
      let s := s.wr E.bypassLoss circuit (wrapInt 16 loss)
      if 10 * (bits (s.rd E.engineCap n) 311 304 : Int) < loss then
        s.raise 0x400A 1 n [.v 16 n, .v 16 (circuit % 64), .v 16 (wrapInt 16 loss)]
      else s)

end Sys2Proof.Machine
end

