-- ==== Sys2Proof/Machine/Security.lean ====
section
/-!
DEFINITION. The configuration lock, key slots, the entry query, firmware, attestation and the colophon key (spec/17 R472,
R477, R496-R502).
-/
namespace Sys2Proof.Machine

/-- CONFIG_LOCK (R477): the TAP instructions that drive pins act as BYPASS from then on, and one in
force ends (R564, R571). -/
def execConfigLock (a : Access) (value : Nat) (s : State) : Host.Outcome State Fault Refusal :=
  .next (s.writeOne a E.configLock 0 1 value true (fun _ => .ok)
    (fun s => if value = 1 then
        let tap := if 3 ≤ s.power.tap then 0 else s.power.tap
        ({ s.wr E.configLock 0 1 with power := { s.power with tap := tap } }).raise 0xF004 0 31 []
      else s))

/-! ### Keys (R496) -/

/-- The slot a key record sets (R496 Table 15); slots 16 and 17 have no rights. -/
def keySlotOf (v : Nat) : KeySlot :=
  { enable := bit v 375, rights := if 16 ≤ bits v 383 376 then 0 else bits v 374 371, job := bits v 367 352, key := bits v 255 0 }

/-- A key slot set, its TXN state reset (R482, R496). -/
def State.setKey (v : Nat) (s : State) : State :=
  let slot := bits v 383 376
  let s := { s with mgmt := { s.mgmt with keys := s.mgmt.keys.set slot (keySlotOf v), txns := s.mgmt.txns.del slot } }
  s.raise 0xF005 0 31 [.v 16 slot]

/-- KEY_WRITE (R496). -/
def execKeyWrite (a : Access) (record : BitVec 384) (s : State) : Host.Outcome State Fault Refusal :=
  .next (s.writeOne a E.keyWrite 0 48 0 true (fun _ => if bits record.toNat 383 376 ≤ 17 then .ok else .range)
    (State.setKey record.toNat))

/-- KEY_STATE of a slot (R505). -/
def State.keyState (s : State) (slot : Nat) : Nat :=
  let k := s.mgmt.keys.getD slot {}
  pack [(1, b2n k.enable), (3, 0), (4, k.rights), (8, 0), (16, k.job)]

/-! ### The entry query (R472) -/

/-- The answer of ENTRY_QUERY to a written query; zeros follow the name of an absent entry. -/
def entryAnswer (v : Nat) : Nat :=
  let e := bits v 127 104
  match entryRow e with
  | none => pack [(24, e), (104, 0)]
  | some r => pack [(24, e), (8, r.ty.code), (3, r.right.code), (1, b2n (inbandEntry e false || inbandEntry e true)), (4, 0),
      (24, max 1 r.count), (16, r.ty.size), (48, 0)]

/-- ENTRY_QUERY (R472). -/
def execEntryQuery (a : Access) (record : BitVec 128) (s : State) : Host.Outcome State Fault Refusal :=
  .next (s.writeOne a E.entryQuery 0 16 0 true (fun _ => .ok) (fun s => s.wr E.entryQuery 0 (entryAnswer record.toNat)))

/-! ### Firmware (R499) -/

/-- FW_STAGE's own rule: a segment of 1 to 4,096 bytes, all of it in the write. -/
def fwStageRule (data : List Byte) (_ : State) : Verdict :=
  let n := field data 4 4
  if n = 0 ∨ 4096 < n then .range else if data.length ≠ 8 + n then .refused E.fwStatus 0x01 else .ok

/-- A segment put into the staged image. -/
def State.stageSegment (data : List Byte) (s : State) : State :=
  let off := field data 0 4
  { s with mgmt := { s.mgmt with
    fwStage := (data.drop 8).zipIdx.foldl (fun (l : Tab Byte) x => l.set (off + x.2) x.1) s.mgmt.fwStage } }

/-- FW_STAGE (R499). -/
def execFwStage (a : Access) (data : List Byte) (s : State) : Host.Outcome State Fault Refusal :=
  .next (s.writeOne a E.fwStage 0 data.length 0 true (fwStageRule data) (State.stageSegment data))

/-- FW_COMMIT (R499): verification and writing begin; refused while they are under way. -/
def execFwCommit (a : Access) (len : Nat) (s : State) : Host.Outcome State Fault Refusal :=
  .next (s.writeOne a E.fwCommit 0 4 len true
    (fun s => if s.rd E.fwStatus 0 = 0xFF then .refused 0 0 else .ok)
    (fun s => { s.wr E.fwStatus 0 0xFF with mgmt := { s.mgmt with fwImage := some len } }))

/-- The staged image of a length, none where a byte is missing, or where it is larger than a slot (R499, R563). -/
def State.stagedImage (s : State) (len : Nat) : Option (List Byte) :=
  let l := s.mgmt.fwStage.takeWhile (fun (x : Nat × Byte) => decide (x.1 < len))
  if len = 0 ∨ 2 ^ 25 < len ∨ l.length ≠ len then none else some (l.map (·.2))

/-- FW_VERIFY_DONE: verification and writing end (R499).  `shape` says that the image's form can be verified, `signed` that
its signature verifies; `svn` and `version` are the image's. -/
def execFwVerifyDone (t : Time) (shape signed : Bool) (svn version : Nat) (s : State) : Host.Outcome State Fault Refusal :=
  let s := s.begin t
  .next (match s.mgmt.fwImage with
    | none => s
    | some len =>
      let img := if shape then s.stagedImage len else none
      let code := if img.isNone then 0x01 else if !signed then 0x02 else if svn < s.rd E.fwSvnMin 0 then 0x03 else 0
      let s := { s.wr E.fwStatus 0 code with mgmt := { s.mgmt with fwImage := none, fwStage := [] } }
      if code ≠ 0 then s
      else
        let slot := 1 - s.rd E.bootSlot 0
        let s := { s.wr E.bootPref 0 slot with mgmt := { s.mgmt with
          fwSlots := s.mgmt.fwSlots.set slot ⟨false, svn, version, sha384 (img.getD [])⟩ } }
        s.raise 0xF006 0 31 [.v 16 slot, .v 32 version])

/-- FW_SVN_COMMIT (R499): FW_SVN_MIN rises to the running image's security version, and never falls. -/
def execFwSvnCommit (a : Access) (value : Nat) (s : State) : Host.Outcome State Fault Refusal :=
  .next (s.writeOne a E.fwSvnCommit 0 1 value true (fun _ => .ok)
    (fun s => if value = 1 then s.raiseTo E.fwSvnMin 0 s.mgmt.running.svn else s))

/-! ### Attestation (R500) -/

/-- ATTEST_NONCE. -/
def execAttestNonce (a : Access) (nonce : BitVec 256) (s : State) : Host.Outcome State Fault Refusal :=
  .next (s.writeOne a E.attestNonce 0 32 0 true (fun _ => .ok) (fun s => { s with mgmt := { s.mgmt with nonce := nonce } }))

/-- The attestation report (Table 16); its signature is a free value. -/
def State.attestReport (s : State) : Nat :=
  pack [(8, 1), (8, 0), (8, s.keeper), (8, s.rd E.revision 0), (24, s.gei), (128, s.rd E.serial 0),
    (32, s.rd E.fwVersion 0), (32, s.mgmt.running.svn), (384, s.rd E.fwMeasure 0), (256, s.mgmt.nonce.toNat),
    (32, s.rd E.keyEpoch 0), (78, timeLayout s.now), (282, 0), (768, Config.freeValue s.fresh)]

/-- ATTEST_REPORT_READ (R500). -/
def execAttestReportRead (a : Access) (s : State) : Host.Outcome State Fault Refusal :=
  .next (s.readOne a E.attestReport 0 true State.attestReport (fun s => s.free.2))

/-! ### The colophon key (R501, R502) -/

/-- COLOPHON_EXPORT_REQ (R501): an epoch above the current one is out of range. -/
def execColophonExportReq (a : Access) (record : BitVec 808) (s : State) : Host.Outcome State Fault Refusal :=
  .next (s.writeOne a E.colophonExportReq 0 101 0 true
    (fun s => if s.rd E.keyEpoch 0 < bits record.toNat 807 776 then .range else .ok)
    (fun s => { s with mgmt := { s.mgmt with exportReq := some record } }))

/-- The answer to an export (R501): the epoch; the device's ephemeral key, the IV, the encrypted key and the tag, which
free values stand for; the digest of the verifier's key; the signature, a free value.  Zeros before any request. -/
def State.exportAnswer (s : State) : Nat :=
  match s.mgmt.exportReq with
  | none => 0
  | some r => pack [(32, bits r.toNat 807 776), (776 + 96 + 256 + 128, Config.freeValue s.fresh),
      (384, sha384 (toBytes 97 (bits r.toNat 775 0))), (768, Config.freeValue (s.fresh + 1))]

/-- The key slot a notice names for a path: 0xFFFE for the local ones, 0xFFFF for an in-band job (R479). -/
def slotName : Path → Nat
  | .dap k => k
  | .inband _ _ _ => 0xFFFF
  | _ => 0xFFFE

/-- An export told (R501). -/
def State.tellExport (a : Access) (s : State) : State :=
  match s.mgmt.exportReq with
  | none => s
  | some r => (s.free.2.free.2).raise 0xF008 0 31 [.v 32 (bits r.toNat 807 776), .v 16 (slotName a.path)]

/-- COLOPHON_EXPORT_READ (R501). -/
def execColophonExportRead (a : Access) (s : State) : Host.Outcome State Fault Refusal :=
  .next (s.readOne a E.colophonExport 0 true State.exportAnswer (State.tellExport a))

/-- The colophon key's epoch advances by 1 and is stored in flash (R502); two advances due at one instant are one. -/
def State.advanceEpoch (s : State) (t : Time) : State :=
  if s.mgmt.epochAt = some t then s
  else
    let old := s.rd E.keyEpoch 0
    let new := (old + 1) % 2 ^ 32
    let s := { s.wr E.keyEpoch 0 new with mgmt := { s.mgmt with epochFlash := new, epochAt := some t } }
    s.raise 0x7C09 0 31 [.v 32 old, .v 32 new]

/-- KEY_ROTATE (R502). -/
def execKeyRotate (a : Access) (value : Nat) (s : State) : Host.Outcome State Fault Refusal :=
  .next (s.writeOne a E.keyRotate 0 1 value true (fun _ => .ok) (fun s => if value = 1 then s.advanceEpoch a.t else s))

/-- KEY_PERIOD_EXPIRY: KEY_PERIOD has passed since its write or the last expiry (R502). -/
def execKeyPeriodExpiry (t : Time) (s : State) : Host.Outcome State Fault Refusal :=
  let s := s.begin t
  let p := s.rd E.keyPeriod 0
  .next (if p = 0 ∨ t < s.mgmt.keyPeriodAt + p then s
    else { s with mgmt := { s.mgmt with keyPeriodAt := s.mgmt.keyPeriodAt + p } }.advanceEpoch t)

end Sys2Proof.Machine
end

