-- ==== Sys2Proof/Machine/Startup.lean ====
section
/-!
DEFINITION. Supplies of the always-on domain, reset pins, device resets by command, and the start-up sequence (spec/19
R524, R532-R537, R548, R557, spec/17 R498, spec/20 R553, R554).
-/
namespace Sys2Proof.Machine

/-- The power record set. -/
def State.setPower (s : State) (p : Power) : State := { s with power := p }

/-- Start-up begins at a step now. -/
def State.startFrom (s : State) (step : Nat) : State :=
  s.setPower { s.power with step := step, stepAt := s.now, startAt := s.now }

/-- A held start-up begins where it was held, once RESET_N is high, VIN is above its reset threshold and VAON in range. -/
def State.letStart (s : State) : State :=
  let p := s.power
  if p.step ≠ 0 ∨ p.pinLow ∨ p.sag ∨ !p.vaon ∨ s.rd E.deviceState 0 = 4 then s else s.startFrom p.heldStep

/-! ### Supplies and pins -/

/-- POWER_ON: VAON enters its range, a power-on reset (R534). -/
def execPowerOn (t : Time) (s : State) : Host.Outcome State Fault Refusal :=
  let s := s.begin t
  .next (if s.power.vaon then s else (s.setPower { s.power with vaon := true }).powerOnReset)

/-- VAON_LOST: VAON leaves its range; the regulators stop, and THERMTRIP_N is released (R557, R561). -/
def execVaonLost (t : Time) (s : State) : Host.Outcome State Fault Refusal :=
  let s := s.begin t
  .next (if !s.power.vaon then s else (s.setPower { s.power with vaon := false, trip := false, sag := false }).restartAt 1 false)

/-- RESET_N_ASSERT: RESET_N has been low for 1 µs, a device reset with cause PIN (R534, R547). -/
def execResetNAssert (t : Time) (s : State) : Host.Outcome State Fault Refusal :=
  let s := s.begin t
  .next (if s.power.pinLow then s
    else
      let s := s.setPower { s.power with pinLow := true }
      if s.power.vaon then s.deviceReset 2 else s)

/-- RESET_N_RELEASE: RESET_N rises; the straps (SMB_ADDR in bits 2 to 0, MFG_TEST_N in bit 3) are sampled and start-up
proceeds, but for a device that samples MFG_TEST_N low (R532, R553, R554). -/
def execResetNRelease (t : Time) (straps : Nat) (s : State) : Host.Outcome State Fault Refusal :=
  let s := s.begin t
  .next (if !s.power.pinLow ∨ !s.power.vaon then s.setPower { s.power with pinLow := false }
    else
      let s := (s.wr E.straps 0 (straps % 16)).wr E.smbAddress 0 (0x58 + straps % 8)
      let s := s.setPower { s.power with pinLow := false, mfg := !bit straps 3 }
      if s.power.mfg then s.startFrom 1 else s.letStart)

/-- RESET_DEVICE: 1 written resets the device with cause DICTIONARY (R534). -/
def execResetDevice (a : Access) (value : Nat) (s : State) : Host.Outcome State Fault Refusal :=
  .next (s.writeOne a E.resetDevice 0 1 value true (fun _ => .ok) (fun s => if value = 1 then s.deviceReset 4 else s))

/-! ### The steps of start-up (R532 Table 5, R533) -/

/-- A firmware slot passes: its signature verifies and its security version is high enough (R498). -/
def State.slotPasses (s : State) (verified : List Nat) (k : Nat) : Bool :=
  let x := s.mgmt.fwSlots.getD k {}
  verified.contains k && !x.bad && decide (s.rd E.fwSvnMin 0 ≤ x.svn)

/-- The keepers run a slot's image: the colophon epoch resumes at the stored one plus 1 (R502), the standby is READY, or
excluded where its measurement differs (R498), for a cause Table 5 does not list: a free value (log 158). -/
def State.boot (s : State) (slot : Nat) (differs : Bool) : State :=
  let x := s.mgmt.fwSlots.getD slot {}
  let s := { s with mgmt := { s.mgmt with running := x } }
  let s := ((s.wr E.bootSlot 0 slot).wr E.fwVersion 0 x.version).wr E.fwMeasure 0 x.measure
  let s := s.wr E.keyEpoch 0 ((s.mgmt.epochFlash + 1) % 2 ^ 32)
  let p := s.power
  let s := s.wr E.refclkState 0 (pack [(1, 0), (1, b2n p.lostA.isSome), (1, b2n p.lostB.isNone), (1, b2n p.lostA.isNone)])
  let s := (s.wr E.domainState 18 1).wr E.deviceState 0 1
  let s := ((s.wr E.domainState 19 1).wr E.dieState 19 2).wr E.standbyState 0 2
  if differs then
    let (c, s) := s.free
    s.excludeKeeper 1 (c % 256)
  else s

/-- Step 2: secure boot of the preferred slot, else of the other with BOOT_FALLBACK, whose cause Table 19 does not number: a
free value (log 158); else RECOVERY (R498). -/
def State.bootStep (s : State) (verified : List Nat) (differs : Bool) : State :=
  let pref := s.rd E.bootPref 0
  if s.slotPasses verified pref then s.boot pref differs
  else if s.slotPasses verified (1 - pref) then
    let (c, s) := s.free
    (s.boot (1 - pref) differs).raise 0xF003 2 31 [.v 16 (1 - pref), .v 8 c]
  else (s.wr E.deviceState 0 4).setPower { s.power with step := 0 }

/-- A die that fails its self-test is excluded with TRAINING, the device not reset for it (R533). -/
def State.failDie (s : State) (d : Nat) : State :=
  if 20 ≤ d ∨ s.rd E.dieState d = 1 then s
  else if d < 8 then (s.markExcluded d 7).wr E.domainState d 0
  else if d < 18 then s.excludeQuire (d - 8) 7
  else if d = 18 + s.keeper ∧ s.rd E.standbyState 0 ≠ 2 then s.markExcluded d 7
  else s.excludeKeeper (d - 18) 7

/-- What start-up and READY list as excluded: dies, stacks, modules failed, engines (R533). -/
def State.degraded (s : State) : List Nat :=
  [((List.range 20).filter (fun d => s.rd E.dieState d == 1)).length, ((List.range 20).filter (fun h => !s.stackUp h)).length,
   ((List.range 256).filter (fun m => s.rd E.moduleState m == 5)).length, ((List.range 8).filter (fun n => s.rd E.engineState n == 3)).length]

/-- STARTUP_DEGRADED (R533). -/
def State.tellDegraded (s : State) : State := s.raise 0x2009 1 31 (s.degraded.map (fun n => .v 32 n))

/-- The wire walk's results (R383): failed wires are restitched or their channels retired. -/
def State.wireWalk (s : State) (walk : List (Nat × Nat × List Nat)) (walkUs : Nat) : State :=
  let good := walk.filter (fun x => bundleHas x.1 x.2.1)
  let s := good.foldl (fun (s : State) x =>
    let bad := (x.2.2.filter (fun w => decide (w < 68))).foldl (fun l w => insertNat w l) (s.channel x.1 x.2.1).bad
    if bad = (s.channel x.1 x.2.1).bad then s else s.channelFails x.1 x.2.1 bad) s
  let wires := good.foldl (fun n x => n + x.2.2.length) 0
  let gone := (good.filter (fun x => (s.channel x.1 x.2.1).state == 2)).length
  let v := pack [(16, wires), (16, gone), (32, walkUs)]
  let s := s.wr E.walkResult 0 v
  if wires = 0 then s else s.raise 0x3409 1 31 [.v 64 v]

/-- Step 5 done: self-tests and the wire walk; a device left without a switch die or a keeper does not go on (R533). -/
def State.testStep (s : State) (dies arrays : List Nat) (walk : List (Nat × Nat × List Nat)) (walkUs : Nat) : State :=
  let s := dies.foldl (fun (s : State) d => s.failDie d) s
  let s := (arrays.filter (fun j => decide (j < 40))).foldl (fun (s : State) j =>
    if s.rd E.arrayState j = 0 ∨ s.rd E.arrayState j = 1 then s.retireArray j else s) s
  let s := s.wireWalk walk walkUs
  if (List.range 8).all (fun d => s.rd E.dieState d == 1) ∨ s.rd E.dieState (18 + s.keeper) = 1 then
    (s.tellDegraded).setPower { s.power with step := 0, failedAt := some s.now }
  else
    let s := (List.range 8).foldl (fun (s : State) n =>
      if s.rd E.dieState n = 1 then s
      else (engineModules n).foldl (fun (s : State) m =>
        (s.wr E.moduleState m 1).setUcie m { since := s.now }) (s.wr E.engineState n 1)) s
    s.setPower { s.power with step := 6, stepAt := s.now }

/-- Step 8 done: the device is READY, in BRACE where the supply warning is in force (R532, R539). -/
def State.readyStep (s : State) : State :=
  let dur := s.now - s.power.startAt
  let s := s.wr E.deviceState 0 (if s.power.brace.isSome then 3 else 2)
  let s := (s.wr E.readySince 0 (timeLayout s.now)).wr E.startupTotal 0 dur
  let s := s.publishCapacity
  let s := if s.degraded.all (· == 0) then s else s.tellDegraded
  let s := s.raise 0x200A 0 31 [.v 8 (s.rd E.resetCause 0), .v 32 (dur / us)]
  s.setPower { s.power with step := 9, stepAt := s.now }

/-- The next step begins. -/
def State.nextStep (s : State) : State := s.setPower { s.power with step := s.power.step + 1, stepAt := s.now }

/-- STARTUP_STEP_DONE: the step under way completes (R532).  What its tests and trainings have found are operands: for step 2
the slots whose signature verifies and whether the standby's measurement differs; for step 5 the dies and arrays that fail and
the wires that the walk finds failed, with its duration; for step 6 the stacks that fail. -/
def execStartupStepDone (t : Time) (verified : List Nat) (differs : Bool) (dies arrays : List Nat)
    (walk : List (Nat × Nat × List Nat)) (walkUs : Nat) (badStacks : List Nat) (s : State) : Host.Outcome State Fault Refusal :=
  let s := s.begin t
  let n := s.power.step
  let pending := (List.range 256).any (fun m => s.rd E.moduleState m == 1) || (List.range 8).any (fun k => s.rd E.engineState k == 1)
  .next (if n = 0 ∨ 8 < n ∨ s.power.mfg ∨ (n = 6 ∧ pending) then s
    else
      let s := s.wr E.startupTimes (n - 1) ((t - s.power.stepAt) / us)
      if n = 2 then
        let s := s.bootStep verified differs
        if s.rd E.deviceState 0 = 1 then s.nextStep else s
      else if n = 4 then
        ((List.range 8).foldl (fun (s : State) d => s.wr E.domainState d 1) s).nextStep
      else if n = 5 then s.testStep dies arrays walk walkUs
      else if n = 6 then (badStacks.foldl (fun (s : State) h => s.excludeStack h 1) s).nextStep
      else if n = 8 then s.readyStep
      else s.nextStep)

/-- STARTUP_RETRY: 1 s after a start-up without a switch die or keeper, it is repeated from step 3, up to three times (R533);
the dies are tested again. -/
def execStartupRetry (t : Time) (s : State) : Host.Outcome State Fault Refusal :=
  let s := s.begin t
  .next (match s.power.failedAt with
    | none => s
    | some f =>
      if 3 ≤ s.power.repeats ∨ t < f + sec then s
      else
        let s := (List.range 20).foldl (fun (s : State) d =>
          if s.rd E.dieState d = 1 ∧ s.rd E.dieCause d = 7 then
            let q := d - 8
            let s := if 8 ≤ d ∧ d < 18 then
                let s := [2 * q, 2 * q + 1].foldl (fun (s : State) h => (s.wr E.stackState h 0).wr E.excludeCause h 0) s
                (List.range 4).foldl (fun (s : State) j => s.wr E.arrayState (4 * q + j) 0) s
              else s
            ((s.wr E.dieState d (if 18 ≤ d ∧ d ≠ 18 + s.keeper then 2 else 0)).wr E.dieCause d 0).wr E.dieExcludedAt d 0 else s) s
        let s := if s.rd E.dieState (19 - s.keeper) = 2 then s.wr E.standbyState 0 2 else s
        s.setPower { s.power with step := 3, stepAt := t, failedAt := none, repeats := s.power.repeats + 1 })

end Sys2Proof.Machine
end

