-- ==== Sys2Proof/Machine/Power.lean ====
section
/-!
DEFINITION. Partial die resets, the supply warning and reset thresholds, power, regulators, reference clocks and idle clocks
(spec/19 R526-R531, R536-R540).
-/
namespace Sys2Proof.Machine

/-! ### Partial die resets (R536) -/

/-- Every port of a switch die is ABSENT or has PORT_ADMIN DISABLED (Table 7). -/
def State.dieUnused (s : State) (d : Nat) : Bool :=
  (enginePorts d).all (fun p => !s.portExists p || s.rd E.portAdmin p == 0 || s.rd E.portState p == 0)

/-- A partial reset of a die by its number may start (Table 7): not while one is under way, not of an excluded switch die, of a
keeper as KEEPER_REJOIN allows. -/
def State.mayReset (s : State) (d : Nat) : Bool :=
  (s.power.resets.get? d).isNone &&
    if d < 8 then s.rd E.dieState d == 0 && s.dieUnused d
    else if d = 18 ∨ d = 19 then d != 18 + s.keeper && s.power.rejoin.isNone
      && (s.rd E.standbyState 0 == 0 || s.rd E.standbyState 0 == 3)
    else decide (24 ≤ d) && decide (d < 32)

/-- A partial reset starts: an engine goes dark; a keeper rejoins (R432, R536). -/
def State.startReset (s : State) (d : Nat) : State :=
  let s := (s.wr E.dieResetStatus 0 0xFF).setPower { s.power with resets := s.power.resets.set d s.now }
  if 24 ≤ d then s.engineDark (d - 24)
  else if 18 ≤ d then (s.wr E.standbyState 0 1).setPower { s.power with rejoin := some s.now }
  else s

/-- DIE_RESET (R536); a refused one changes no status. -/
def execDieReset (a : Access) (die : Nat) (s : State) : Host.Outcome State Fault Refusal :=
  .next (s.writeOne a E.dieReset 0 1 die true (fun s => if s.mayReset die then .ok else .refused 0 0) (fun s => s.startReset die))

/-- DIE_RECOVERABLE_FAULT: a die reports a recoverable fault of its control logic (R536). -/
def execDieRecoverableFault (t : Time) (die : Nat) (s : State) : Host.Outcome State Fault Refusal :=
  let s := s.begin t
  .next (if s.mayReset die then s.startReset die else s)

/-- A channel whose two ends' restitch maps differ takes the union of the failed wires (R378); `mapS` and `mapE` are the
wires that each end marks. -/
def State.mergeMaps (s : State) (x : Nat × Nat × List Nat × List Nat) : State :=
  let (pair, ch, mapS, mapE) := x
  if !bundleHas pair ch ∨ mapS = mapE then s
  else
    let both := (mapS ++ mapE).filter (fun w => decide (w < 68))
    let s := s.channelFails pair ch (both.foldl (fun l w => insertNat w l) (s.channel pair ch).bad)
    s.logWidth (pack [(8, 0xFF), (8, 0), (8, mapS.length), (8, mapE.length), (8, 0), (10, 0), (78, timeLayout s.now)])

/-- DIE_RESET_DONE: a partial reset completes and the die returns to service; its channels exchange restitch maps with their
far ends (R378, R536); a keeper becomes a READY standby (R432). -/
def execDieResetDone (t : Time) (die : Nat) (maps : List (Nat × Nat × List Nat × List Nat)) (s : State) :
    Host.Outcome State Fault Refusal :=
  let s := s.begin t
  .next (if (s.power.resets.get? die).isNone then s
    else
      let s := s.setPower { s.power with resets := s.power.resets.del die }
      let s := maps.foldl (fun (s : State) x => s.mergeMaps x) s
      let s := if (die = 18 ∨ die = 19) ∧ s.power.rejoin.isSome then s.rejoined else s
      (s.wr E.dieResetStatus 0 0).raise 0x200D 0 31 [.v 16 die, .v 8 0])

/-! ### The supply warning: BRACE (R538-R540) -/

/-- Every record queue drained: each formed record goes to its destinations (R539). -/
def State.drainRecords (s : State) : State :=
  (List.range 10).foldl (fun (s : State) q =>
    (List.range (s.coll.records.getD q []).length).foldl (fun (s : State) _ => s.emitRecord q) s) s

/-- Every notice queue with a pushing sink pushed (R539). -/
def State.pushAll (s : State) : State :=
  (List.range 8).foldl (fun (s : State) q => if s.pushes q then s.pushQueue q (s.nq q).records.length else s) s

/-- VIN as read, with its lowest value since cleared. -/
def State.readVin (s : State) (mv : Nat) : State :=
  let s := s.wr E.vinNow 0 mv
  if mv < s.rd E.vinMin 0 then s.wr E.vinMin 0 mv else s

/-- VIN_WARNING_ENTER: VIN has been below 5.55 V for 2 µs (R538, R539). -/
def execVinWarningEnter (t : Time) (vin : Nat) (s : State) : Host.Outcome State Fault Refusal :=
  let s := s.begin t
  .next (if s.power.brace.isSome ∨ s.power.sag then s
    else
      let s := (s.readVin vin).setPower { s.power with brace := some t }
      let s := (s.wr E.supplyState 0 1).bump E.braceEntries 0 1
      let s := if s.rd E.deviceState 0 = 2 then s.wr E.deviceState 0 3 else s
      ((s.raise 0x2001 2 31 [.v 32 vin]).drainRecords).pushAll)

/-- A deadline at the exit from BRACE: the later of itself and the exit plus STALL_LIMIT; a marked record has been re-armed
(R540). -/
def Stall.rearmed (m : Stall) (limit : Nat) (t : Time) : Stall :=
  { m with d := max m.d (t + limit), saved := m.saved || m.mark.isSome }

/-- Every armed deadline re-armed, those of the tallies among them (R136). -/
def State.rearmAll (s : State) : State :=
  { s with coll := { s.coll with ctxs := s.coll.ctxs.map (fun (x : Nat × Ctx) =>
    let y := x.2
    (x.1, { y with insts := (y.insts.map (fun (i : Inst) =>
      if i.state = .opened then { i with stalls := (List.range y.reg.m).foldl (fun (l : Tab Stall) k =>
        l.set k ((i.stall y.reg k).rearmed y.reg.stallLimit s.now)) i.stalls } else i)).map (fun (i : Inst) =>
          { i with tally := i.tally.map (fun (z : Tally) => { z with floor := s.now + y.reg.stallLimit }) }) })) } }

/-- The deferred chunks re-requested at every die, in the order of R129, as far as its slots go. -/
def State.reopenAll (s : State) : State :=
  (List.range 10).foldl (fun (s : State) q => s.reopen q) s

/-- VIN_WARNING_EXIT: VIN has been at or above 5.60 V for 1 ms (R538, R540). -/
def execVinWarningExit (t : Time) (vin : Nat) (s : State) : Host.Outcome State Fault Refusal :=
  let s := s.begin t
  .next (match s.power.brace with
    | none => s
    | some b =>
      let s := (s.readVin vin).setPower { s.power with brace := none }
      let s := s.wr E.supplyState 0 0
      let s := if s.rd E.deviceState 0 = 3 then s.wr E.deviceState 0 2 else s
      let s := s.raise 0x2002 0 31 [.v 32 vin, .v 32 ((t - b) / us)]
      ((s.rearmAll).reopenAll).evalStarts 65)

/-! ### The supply reset (R538) -/

/-- VIN_RESET_ENTER: VIN has been below 5.25 V for 1 µs: a device reset with cause SUPPLY, held until the condition is left. -/
def execVinResetEnter (t : Time) (s : State) : Host.Outcome State Fault Refusal :=
  let s := s.begin t
  .next (if s.power.sag ∨ !s.power.vaon then s else (s.setPower { s.power with sag := true }).deviceReset 3)

/-- VIN_RESET_EXIT: VIN has been at or above 5.45 V for 10 ms: start-up proceeds. -/
def execVinResetExit (t : Time) (s : State) : Host.Outcome State Fault Refusal :=
  let s := s.begin t
  .next (if !s.power.sag then s else (s.setPower { s.power with sag := false }).letStart)

/-! ### Power and regulators (R526, R527) -/

/-- POWER_MEASURE: the rails in mV and the 1 ms averages in W, of the device and of each class (R526). -/
def execPowerMeasure (t : Time) (vin vaon vio power : Nat) (classes : List Nat) (s : State) : Host.Outcome State Fault Refusal :=
  let s := s.begin t
  let s := (((s.readVin vin).wr E.vaonNow 0 vaon).wr E.vioNow 0 vio).wr E.powerNow 0 power
  let s := (List.range 6).foldl (fun (s : State) k => s.wr E.powerClass k (classes.getD k 0)) s
  let s := s.raiseTo E.powerPeak 0 power
  .next (if s.rd E.powerLimit 0 < power then s.raiseLim sec 0 0x200B 1 31 [.v 32 power] else s)

/-- REGULATOR_FAULT: a regulator phase of a die fails; `left` phases remain, and `carries` says whether they carry the die's
budget (R527). -/
def execRegulatorFault (t : Time) (die left : Nat) (carries : Bool) (s : State) : Host.Outcome State Fault Refusal :=
  let s := s.begin t
  .next (if 20 ≤ die then s
    else
      let s := (s.bump32 E.phaseFaults die 1).raise 0x200C 1 31 [.v 16 die, .v 32 left]
      if carries then s else s.excludeDie die 8)

/-! ### Reference clocks (R529) -/

/-- REFCLK_STATE: the inputs present, the input in use, holdover. -/
def State.showClocks (s : State) (useB : Bool) : State :=
  let p := s.power
  s.wr E.refclkState 0 (pack [(1, b2n p.both.isSome), (1, b2n useB), (1, b2n p.lostB.isNone), (1, b2n p.lostA.isNone)])

/-- Input B is in use. -/
def State.usesB (s : State) : Bool := bit (s.rd E.refclkState 0) 2

/-- REFCLK_FAILOVER: input A (0) or B (1) has had no edge for 100 ns: in AUTO the PLLs change over to the other; with both
inputs lost they hold (R529). -/
def execRefclkFailover (t : Time) (input : Nat) (s : State) : Host.Outcome State Fault Refusal :=
  let s := s.begin t
  let p := s.power
  .next (if 1 < input ∨ (if input = 0 then p.lostA else p.lostB).isSome then s
    else
      let useB := s.usesB
      let s := s.setPower (if input = 0 then { p with lostA := some t, backA := none } else { p with lostB := some t })
      if s.power.lostA.isSome && s.power.lostB.isSome then
        ((s.setPower { s.power with both := some t }).showClocks useB).raise 0x2005 2 31 []
      else if s.rd E.refclkSel 0 = 2 ∧ useB = (input == 1) then
        ((s.showClocks (!useB)).bump E.clockFailovers 0 1).raise 0x2004 1 31 [.v 8 (1 - input)]
      else s.showClocks useB)

/-- REFCLK_HOLD_EXPIRY: both inputs have stayed lost for 10 ms (R529). -/
def execRefclkHoldExpiry (t : Time) (s : State) : Host.Outcome State Fault Refusal :=
  let s := s.begin t
  .next (match s.power.both with
    | some b => if b + 10 * ms ≤ t then s.deviceReset 7 else s
    | none => s)

/-- REFCLK_RESTORED: an input has edges again: a holdover ends with that input in use (R529). -/
def execRefclkRestored (t : Time) (input : Nat) (s : State) : Host.Outcome State Fault Refusal :=
  let s := s.begin t
  let p := s.power
  .next (if 1 < input ∨ (if input = 0 then p.lostA else p.lostB).isNone then s
    else
      let useB := if p.both.isSome then input == 1 else s.usesB
      let s := s.setPower (if input = 0 then { p with lostA := none, backA := some t, both := none } else { p with lostB := none, both := none })
      s.showClocks useB)

/-- A has been present for 1 s. -/
def State.steadyA (s : State) : Bool :=
  s.power.lostA.isNone && match s.power.backA with
    | some b => decide (b + sec ≤ s.now)
    | none => true

/-- A write of REFCLK_SEL judged: the PLLs change to the selected input that is present; back to A only when A has been present
for 1 s (R529). -/
def State.selectClock (v : Nat) (s : State) : State :=
  let s := s.wr E.refclkSel 0 v
  let wantsB := v == 1 || (v == 2 && s.power.lostA.isSome)
  if s.power.both.isSome ∨ wantsB = s.usesB then s
  else if wantsB then (if s.power.lostB.isNone then s.showClocks true else s)
  else if s.steadyA then s.showClocks false else s

/-- REFCLK_SEL (R529). -/
def execRefclkSel (a : Access) (value : Nat) (s : State) : Host.Outcome State Fault Refusal :=
  .next (s.writeOne a E.refclkSel 0 1 value true (fun _ => .ok) (State.selectClock value))

/-! ### Idle clocks (R530, R531) -/

/-- SWITCH_CLOCK_IDLE: for 1 ms no port of a switch die has been UP or trained and the die has held no frame (R530). -/
def execSwitchClockIdle (t : Time) (die : Nat) (s : State) : Host.Outcome State Fault Refusal :=
  let s := s.begin t
  let busy := (enginePorts die).any (fun p => s.rd E.portState p == 2 || (s.port p).okSince.isSome)
    || s.net.frames.any (fun (f : Stored) => f.die == die)
  .next (if 8 ≤ die ∨ s.rd E.domainState die ≠ 1 ∨ busy then s else s.wr E.domainState die 0)

/-- KEEPER_CORE_IDLE: for 1 ms no message, notice push or exchange has waited (R531). -/
def execKeeperCoreIdle (t : Time) (s : State) : Host.Outcome State Fault Refusal :=
  let s := s.begin t
  let k := 18 + s.keeper
  let push := (List.range 8).any (fun q => s.pushes q && decide ((s.nq q).pushed < (s.nq q).records.length))
  .next (if s.rd E.domainState k ≠ 1 ∨ !s.mgmt.waiting.isEmpty ∨ push ∨ !s.coll.leds.isEmpty then s else s.wr E.domainState k 2)

end Sys2Proof.Machine
end

