-- ==== Sys2Proof/Machine/Thermal.lean ====
section
/-!
DEFINITION. Temperature samples and what they drive (spec/19 R542-R545, spec/12 R338, R339), the range of VIO, and the JTAG
port (spec/20 R557, R561, R564).
-/
namespace Sys2Proof.Machine

/-! ### Readings and rates -/

/-- The binary32 encoding of k / 16, for k below 2^24. -/
def f32Of16 (k : Nat) : Nat :=
  if k = 0 then 0
  else
    let e := Nat.log2 k
    (123 + e) * 2 ^ 23 + (k - 2 ^ e) * 2 ^ 23 / 2 ^ e

/-- A reading put before the earlier ones, of which those up to the first that is 1 ms old or older are kept. -/
def keepMs (now : Time) : List (Time × Int) → List (Time × Int)
  | [] => []
  | x :: r => if x.1 + ms ≤ now then [x] else x :: keepMs now r

/-- The change of a sensor over the last 1 ms, once a reading that old is held, and the state with the reading held (R339,
R548); keys as Power names them. -/
def State.rate (s : State) (key : Nat) (v : Int) : Option Int × State :=
  let old := keepMs s.now (s.power.temps.getD key [])
  let d : Option Int := match old.getLast? with
    | some x => if x.1 + ms ≤ s.now then some (v - x.2) else none
    | none => none
  (d, s.setPower { s.power with temps := s.power.temps.set key ((s.now, v) :: old) })

/-- A signed reading written. -/
def State.wrInt (s : State) (e el : Nat) (v : Int) : State := s.wr e el (wrapInt 16 v)

/-! ### Feed-forward (R338) -/

/-- FF_GAIN times the change of an engine's base-tile sensor, in heater codes; a part of a code is rounded either way, which
is a free value (log 12). -/
def State.feedForward (s : State) (n : Nat) (d : Int) : Int × State :=
  let g : Int := (bits (s.rd E.engineCap n) 351 336 : Nat)
  if g * d % 256 = 0 then (g * d / 256, s)
  else
    let (x, s) := s.free
    (g * d / 256 + (x % 2 : Nat), s)

/-- A heater code moved, within its 16 bits; beyond them it is a free value (log 12). -/
def State.moveHeater (s : State) (r : Nat) (c : Int) : State :=
  let v := (s.rd E.ringHeater r : Int) + c
  if 0 ≤ v ∧ v < 65536 then s.wr E.ringHeater r v.toNat
  else
    let (x, s) := s.free
    s.wr E.ringHeater r (x % 65536)

/-- The feed-forward of an engine, added to every ring's heater code. -/
def State.feedEngine (s : State) (n : Nat) (d : Int) : State :=
  let (c, s) := s.feedForward n d
  if c = 0 ∨ !s.engineUp n then s
  else ((List.range 512).map (fun k => 512 * n + k) ++ (s.links.bypasses.filter (fun x => x.1 / 64 == n)).flatMap
    (fun x => [dropRing x.1, dropRing x.1 + 1])).foldl (fun (s : State) r => s.moveHeater r c) s

/-! ### Thresholds (R544 Table 9) -/

/-- A die beyond its warning, or back from it. -/
def State.setWarm (s : State) (key : Nat) (on : Bool) : State :=
  s.setPower { s.power with warm := if on then insertNat key s.power.warm else s.power.warm.erase key }

/-- The warning of a die: notice, and the throttle of a quire die (R545). -/
def State.warnDie (s : State) (d : Nat) (v : Int) : State :=
  let src := if 20 ≤ d then d - 20 else d
  let ctx := [Item.v 16 d, Item.v 32 (wrapInt 32 v)]
  if 1680 ≤ v ∧ !s.power.warm.contains d then
    let s := if 8 ≤ d ∧ d < 18 then s.wr E.throttled (d - 8) 1 else s
    (s.setWarm d true).raise 0x2006 1 src ctx
  else if v ≤ 1600 ∧ s.power.warm.contains d then
    let s := if 8 ≤ d ∧ d < 18 then s.wr E.throttled (d - 8) 0 else s
    (s.setWarm d false).raise 0x2007 0 src ctx
  else s

/-- The limit of a die: exclusion, takeover, or an engine's laser gates closed until it is cool. -/
def State.limitDie (s : State) (d : Nat) (v : Int) : State :=
  let ctx := [Item.v 16 d, Item.v 32 (wrapInt 32 v)]
  if d < 18 then
    if 1760 ≤ v ∧ s.rd E.dieState d = 0 then (s.raise 0x2008 2 d ctx).excludeDie d 9 else s
  else if d < 20 then
    if 1760 ≤ v ∧ d = 18 + s.keeper ∧ s.rd E.dieState d ≠ 1 then (s.raise 0x2008 2 d ctx).excludeKeeper (d - 18) 9 else s
  else
    let n := d - 20
    if 1760 ≤ v ∧ !s.power.shut.contains n then
      let s := s.setPower { s.power with shut := insertNat n s.power.shut }
      (s.raise 0x2008 2 n ctx).engineDark n
    else if v ≤ 1600 ∧ s.power.shut.contains n then s.setPower { s.power with shut := s.power.shut.erase n }
    else s

/-- The reading of a die's hottest sensor: DIE_TEMP and its peak, the rise over 1 ms, the thresholds. -/
def State.readDie (s : State) (d : Nat) (v : Int) : State :=
  if 28 ≤ d then s
  else
    let s := s.wrInt E.dieTemp d v
    let s := if s.rdInt 16 E.dieTempPeak d < v then s.wrInt E.dieTempPeak d v else s
    let s := if d < 20 then match s.rate d v with
      | (some r, s) => s.raiseTo E.dieRateMax d (f32Of16 r.toNat)
      | (none, s) => s
      else s
    let boots := s.rd E.deviceState 0 == 0
    if boots then s else (s.warnDie d v).limitDie d v

/-- The reading of a photonic die: its range and its rate (R339, R544). -/
def State.readPhotonic (s : State) (n : Nat) (v : Int) : State :=
  if 8 ≤ n then s
  else
    let s := s.wrInt E.photonicTemp n v
    let s := match s.rate (40 + n) v with
      | (some r, s) =>
        let s := s.raiseTo E.tempRateMax n (f32Of16 r.natAbs)
        if 128 < r.natAbs then s.raiseLim sec n 0x400C 1 n [.v 16 n, .v 32 (f32Of16 r.natAbs)] else s
      | (none, s) => s
    let out := decide (1360 < v) || decide (v < 480)
    if out && !s.power.warm.contains (40 + n) then
      (s.setWarm (40 + n) true).raise 0x400D 2 n [.v 16 n, .v 32 (wrapInt 32 v)]
    else if !out && s.power.warm.contains (40 + n) then s.setWarm (40 + n) false
    else s

/-- The feed-forward of every engine whose sensor changed since the previous sample. -/
def State.feedAll (s : State) (base : List (Nat × Int)) : State :=
  (List.range 8).foldl (fun (s : State) n =>
    let k := s.rd E.ffSensor n
    match base.find? (fun x => x.1 == k), (s.power.temps.getD (64 + k) []).head? with
    | some x, some y => if x.2 = y.2 then s else s.feedEngine n (x.2 - y.2)
    | _, _ => s) s

/-- TEMP_SAMPLE: every 20 µs the hottest sensors of the dies (elements of DIE_TEMP), the base-tile sensors and the photonic
dies are read, in 1/16 °C; `comp` are the engines' stamp corrections, in 1/16 ns (R393, R542-R544). -/
def execTempSample (t : Time) (dies base photonic comp : List (Nat × Int)) (s : State) : Host.Outcome State Fault Refusal :=
  let s := s.begin t
  let base := base.filter (fun x => decide (x.1 < 64))
  .next (if base.any (fun x => decide (1840 ≤ x.2)) then
      (base.foldl (fun (s : State) x => s.wrInt E.baseTemp x.1 x.2) (s.setPower { s.power with trip := true })).deviceReset 8
    else
      let s := s.feedAll base
      let s := base.foldl (fun (s : State) x => ((s.wrInt E.baseTemp x.1 x.2).setPower
        { s.power with temps := s.power.temps.set (64 + x.1) [(t, x.2)] })) s
      let s := comp.foldl (fun (s : State) x => if x.1 < 8 then s.wr E.stampComp x.1 (wrapInt 32 x.2) else s) s
      let s := photonic.foldl (fun (s : State) x => s.readPhotonic x.1 x.2) s
      dies.foldl (fun (s : State) x => s.readDie x.1 x.2) s)

/-! ### VIO and JTAG -/

/-- VIO_RANGE_CHANGE: VIO leaves its operating range or enters it (R557). -/
def execVioRangeChange (t : Time) (inside : Bool) (s : State) : Host.Outcome State Fault Refusal :=
  let s := s.begin t
  .next (s.setPower { s.power with vio := inside })

/-- The instruction that a loaded one acts as: an unlisted one as BYPASS, and one that drives pins as BYPASS while
CONFIG_LOCK is 1 (R564). -/
def State.tapActs (s : State) (instr : Nat) : Nat :=
  if 5 < instr then 0 else if 3 ≤ instr ∧ s.rd E.configLock 0 = 1 then 0 else instr

/-- JTAG_INSTRUCTION: a TAP instruction is loaded (0 BYPASS, 1 IDCODE, 2 SAMPLE/PRELOAD, 3 EXTEST, 4 CLAMP, 5 HIGHZ) and its
data register scanned: `data` is shifted in, `pins` is what the boundary cells sample (R564); nothing while VIO is out of range (R557). -/
def execJtagInstruction (t : Time) (instr data pins : Nat) (s : State) : Host.Outcome State Fault Refusal :=
  let s := s.begin t
  let k := s.tapActs instr
  .next (if !s.power.vio ∨ !s.power.vaon then s
    else (s.setPower { s.power with tap := k, preload := if k = 2 ∨ k = 3 then data else s.power.preload }).emit
      (.jtag (if k = 1 then s.rd E.jtagIdcode 0 else if k = 2 ∨ k = 3 then pins else 0)))

end Sys2Proof.Machine
end

