-- ==== Sys2Proof/Machine/View.lean ====
section
/-!
DEFINITION. What a read of a dictionary element gives (spec/17 R475): the elements that show a part of the state are computed
from it, every other is the value it holds.
-/
namespace Sys2Proof.Machine

/-! ### Operation contexts (spec/02 R61, spec/03 R104, spec/04 R136) -/

/-- The earliest armed deadline of a context at the device `me`: a member is armed while it owes the home (R132). -/
def Ctx.nextDeadline (x : Ctx) (me : Nat) : Option Time :=
  let l := (x.insts.filter (fun (i : Inst) => i.state == .opened)).flatMap (fun (i : Inst) =>
    ((List.range x.reg.m).filter (fun k => x.owes i me k)).map (fun k => (i.stall x.reg k).d))
  match l with
  | [] => none
  | t :: r => some (r.foldl min t)

/-- STATE of a context. -/
def Ctx.code (x : Ctx) : Nat := if !x.admitted then 1 else if x.deregistering then 3 else 2

/-- WINDOW_ANCHOR of a context (R36, R61): the anchor last written in fixed mode; in automatic mode that of the open instance,
else the next one's (log 33). -/
def Ctx.anchorShown (x : Ctx) (now : Time) : Int :=
  match findInst x.insts x.opn with
  | some i => if x.reg.auto then i.anchor.getD (x.anchorFor none now) else x.anchorFor none now
  | none => x.anchorFor none now

/-- The elements of a context that its registration and its instances fix; none for an entry of another kind. -/
def State.ctxView (s : State) (x : Ctx) (e : Nat) : Option Nat :=
  let r := x.reg
  let a := arithOf r.arith
  if e = E.opId then some r.op
  else if e = E.state then some x.code
  else if e = E.type then some (pack [(4, r.type), (1, b2n r.v), (1, b2n r.ring), (2, 0)])
  else if e = E.members then some r.m
  else if e = E.hsetVer then some x.ver
  else if e = E.instanceOpen then some x.opn
  else if e = E.chunksHomed then some (match findInst x.insts x.opn with
    | some i => (i.homedKeys r (x.hsetAt i.ver) s.gei).length
    | none => 0)
  else if e = E.stallLimit then some r.limit
  else if e = E.stallMax then some r.maxStall
  else if e = E.collector then some (pack [(1, b2n r.collEn), (24, r.coll)])
  else if e = E.reserve then some r.reserve
  else if e = E.openChunks then some (x.countChunks Chunk.isOpen)
  else if e = E.spilledChunks then some (x.countChunks (fun k => k.isOpen && !k.inStacks.isEmpty))
  else if e = E.bypassOut then some (x.countChunks (fun k => k.state == .bypassOut))
  else if e = E.bypassIn then some (x.countChunks (fun k => k.isOpen && k.bypassIn))
  else if e = E.deferred then some (x.insts.foldl (fun n (i : Inst) => n + i.deferred.length) 0)
  else if e = E.contextArea then some x.area
  else if e = E.nextDeadline then some (match x.nextDeadline s.gei with
    | some t => timeLayout t
    | none => 0)
  else if e = E.windowMode then some a.mode
  else if e = E.windowGuard then some a.guard
  else if e = E.windowAnchor then some (wrapInt 16 (x.anchorShown s.now))
  else if e = E.anchorNext then some (wrapInt 16 (x.nextAnchorShown s.now))
  else if e = E.expHiLast then some (match x.expHi with
    | some v => wrapInt 16 v
    | none => 0x7FFF)
  else if e = E.widenedLast then some x.widenedLast
  else if e = E.outFormat then some a.outFmt
  else if e = E.outScale then some a.scale
  else if e = E.outBias then some a.bias
  else if e = E.clipLo then some a.lo
  else if e = E.clipHi then some a.hi
  else if e = E.clipEn then some (b2n a.clip)
  else if e = E.rereduceEn then some (b2n a.rereduce)
  else if e = E.rereduceLimit then some a.limit
  else none

/-- The ring entry that RING_SELECT names (R163): its sequence number and record; zeros where it is overwritten, not yet
written or lost. -/
def State.ringEntry (s : State) : Nat :=
  let n := s.rd E.ringSelect 0
  match s.coll.ring.get? n with
  | some r => if s.coll.ringBad.contains n then 0 else pack [(64, n), (640, r.toNat), (320, 0)]
  | none => 0

/-- DOMAIN_STATE of a quire die: its warm domain runs while the die is in service and a context is ADMITTED, or a parity or
spawn operation is open (R530). -/
def State.warmOn (s : State) (d : Nat) : Bool :=
  s.rd E.dieState d == 0 && (s.coll.ctxs.any (fun (x : Nat × Ctx) => x.2.admitted) || !s.graphs.parity.isEmpty || !s.spawns.isEmpty)

/-- The bytes of TENSOR_IO's data field as a read returns them: the committed elements as FP32, zeros in the lanes past
the stripe (R172).  What a LOST stripe, or a selection whose tensor or stripe is gone, gives is a free value. -/
def State.ioData (s : State) (h k : Nat) : List Byte :=
  match s.tensor? h with
  | some t =>
    let x := t.stripe k
    if x.lost ∨ s.holderOf t k ≠ s.gei then toBytes 4096 (Config.freeValue s.fresh)
    else
      let l := x.cur.vals.map (fun v => if t.fmt = 0x20 then packFl fp32 (flOf acc64 v) else toLane t.fmt v)
      (padded l).flatMap (toBytes 4)
  | none => toBytes 4096 (if h = 0 then 0 else Config.freeValue s.fresh)

/-- What a read of TENSOR_IO returns: the chosen handle and stripe, and its data (R172). -/
def State.ioAnswer (s : State) : Nat :=
  let v := s.rd E.tensorIo 0
  v * 2 ^ 32768 + ofBytes (s.ioData (v / 2 ^ 32) (v % 2 ^ 32))

/-- The answer to the query last written to an entry; its default before one is (R77, R137, R170, R302, R318, R377, R414, R437, R469). -/
def queryView (w v : Nat) (ans : Nat → Nat) : Nat := if v < 2 ^ w then v else ans (v % 2 ^ w)

/-- The elements of the device that its state fixes; none for every other entry. -/
def State.deviceView (s : State) (e el : Nat) : Option Nat :=
  if e = E.expHist then some (match s.coll.ctxs.get? (s.rd E.histSelect 0) with
    | some x => x.histLast.getD el 0
    | none => 0)
  else if e = E.sramSlots then some (16384 * s.quires.length)
  else if e = E.homeQuery then some (queryView 128 (s.rd e el) (fun v => homeAnswer v s))
  else if e = E.memberQuery then some (queryView 256 (s.rd e el) (fun v => memberAnswer v s))
  else if e = E.tensorQuery then some (queryView 128 (s.rd e el) (fun v => tensorAnswer v s))
  else if e = E.nodeQuery then some (queryView 128 (s.rd e el) (fun v => nodeAnswer v s))
  else if e = E.parityQuery then some (queryView 128 (s.rd e el) (fun v => parityAnswer v s))
  else if e = E.jobQuery then some (queryView 256 (s.rd e el) (fun v => jobAnswer v s))
  else if e = E.jobQuota then some (queryView 512 (s.rd e el) (fun v => quotaAnswer v s))
  else if e = E.spawnQuery then some (queryView 256 (s.rd e el) (fun v => spawnAnswer v s))
  else if e = E.peerQuery then some (queryView 128 (s.rd e el) s.peerAnswer)
  else if e = E.channelQuery then some (queryView 64 (s.rd e el) s.channelAnswer)
  else if e = E.geiQuery then some (queryView 64 (s.rd e el) (fun v => geiAnswer v s))
  else if e = E.addrQuery then some (queryView 128 (s.rd e el) (fun v => addrAnswer v s))
  else if e = E.lpmQuery then some (queryView 192 (s.rd e el) (fun v => lpmAnswer v s))
  else if e = E.sramFree then some (s.sramFree el)
  else if e = E.reservePool then some s.reservePool
  else if e = E.reserved then some (s.holders.foldl (fun n (x : Nat × Job) => n + (quotasOf x.2.record.toNat).getD 1 0) 0)
  else if e = E.spillBytes then some s.spillBytes
  else if e = E.spillFree then some s.spillFree
  else if e = E.spillHeadroom then some s.headroom
  else if e = E.reservedHeld then some s.reservedHeld
  else if e = E.ringEntry then some s.ringEntry
  else if e = E.tensorIo then some s.ioAnswer
  else if e = E.stateBytesFree then some s.stateFree
  else if e = E.vlmFree then some (s.buffersFree el)
  else if e = E.arraysInService then some s.arraysIn
  else if e = E.peakBf16 then some s.peakBf16
  else if e = E.stacksInService then some s.stacksUp
  else if e = E.stripesLost then some s.stripesLost
  else if e = E.llCells then some s.llCells
  else if e = E.shaperState then some (s.queue el).shaperState
  else if e = E.sprayMembers then some (match s.net.sprays.get? el with
    | some g => g.cur.members.length
    | none => 0)
  else if e = E.sprayLive then some (match s.net.sprays.get? el with
    | some g => (s.liveMembers g.cur).length
    | none => 0)
  else if e = E.addrCount then some (s.addrTab el).length
  else if e = E.learnPending then some s.net.learnQ.length
  else if e = E.learnPop then some s.learnHead
  else if e = E.timeNow then some (timeLayout s.now)
  else if e = E.tcapPop then some (s.capWord el)
  else if e = E.peers then some s.peerSet.length
  else if e = E.peersLost then some (s.peerSet.filter (fun d => match s.coll.peers.get? d with
    | some x => x.lost
    | none => false)).length
  else if e = E.jobsActive then some s.holders.length
  else if e = E.jobsPending then some s.starts.length
  else if e = E.freeView then some (quotaPack 0 s.quotasFree)
  else if e = E.nqPop then some (s.nqHead el)
  else if e = E.nqPending then some (s.nq el).records.length
  else if e = E.keyState then some (s.keyState el)
  else if e = E.attestReport then some s.attestReport
  else if e = E.colophonExport then some s.exportAnswer
  else if e = E.snapEntry then some s.snapEntry
  else if e = E.sampleEntry then some s.sampleEntry
  else if e = E.domainState then (if 8 ≤ el ∧ el < 18 then some (b2n (s.warmOn el)) else none)
  else none

/-- The port an element of an array of ports, of ports and classes, or of ports and traffic classes belongs to (spec/09, Dictionary
entries). -/
def portOfElement (e el : Nat) : Option Nat :=
  match entryRow e with
  | some r => if r.count = 1024 then some el else if r.count = 9216 then some (el / 9) else if r.count = 8192 then some (el / 8) else none
  | none => none

/-- An element belongs to a port index that does not exist (R6). -/
def State.portless (s : State) (e el : Nat) : Bool :=
  match portOfElement e el with
  | some p => !s.portExists p
  | none => false

/-- What a read of an element gives; that of a port index that does not exist reads as its default, PORT_ADMIN as DISABLED (R6). -/
def State.view (s : State) (e el : Nat) : Nat :=
  if s.portless e el then (if e = E.portAdmin then 0 else dfltOf e el)
  else match s.deviceView e el with
  | some v => v
  | none => match s.coll.ctxs.get? el with
    | some x => (s.ctxView x e).getD (s.rd e el)
    | none => s.rd e el

/-- What a read of an element does besides: a pop removes what it returned, an export is told, a report's signature is
taken (R475, R493, R500, R501). -/
def State.afterRead (s : State) (a : Access) (e el : Nat) : State :=
  if e = E.nqPop then s.nqPop el
  else if e = E.learnPop then s.learnDrop
  else if e = E.tcapPop then s.capPop el
  else if e = E.attestReport ∨ e = E.tensorIo then s.free.2
  else if e = E.colophonExport then s.tellExport a
  else s

end Sys2Proof.Machine
end

