-- ==== Sys2Proof/Machine/Plain.lean ====
section
/-!
DEFINITION. Writes of the dictionary elements that have no command of their own (spec/17 R473, R475 and the Meaning each
chapter's entry table gives).
-/
namespace Sys2Proof.Machine

/-! ### Own rules -/

/-- The entries of type time that hold an instant and may be written. -/
def instants : List Nat := [E.groupBase, E.calBase, E.snapBase]

/-- An instant's layout is one of R387: its upper bits are zero and its nanoseconds below 10^9. -/
def instantOk (v : Nat) : Bool := bits v 95 78 == 0 && decide (bits v 45 16 < 1000000000)

/-- The value of an element that the message would commit, or its present one (R475). -/
def State.planned (s : State) (e el : Nat) : Nat :=
  match s.mgmt.planned.get? (elKey e el) with
  | some v => v
  | none => s.rd e el

/-- The joint bound of HS_BEAT_INTERVAL and HS_LOST (R414, R475): the first is at most a third of the second, and that at most
1 ms. -/
def State.beatsFit (s : State) (e v : Nat) : Bool :=
  let beat := if e = E.hsBeatInterval then v else s.planned E.hsBeatInterval 0
  let lost := if e = E.hsLost then v else s.planned E.hsLost 0
  decide (3 * beat ≤ lost) && decide (lost ≤ ms)

/-- The rule of a plain element besides the range its row states. -/
def plainRule (e v : Nat) (s : State) : Verdict :=
  if e = E.losslessMask then (if 3 < ((List.range 8).filter (fun k => bit v k)).length then .refused 0 0 else .ok)
  else if e = E.geiBlock then (if bit v 14 then .range else .ok)
  else if e = E.ageTime then (if sec ≤ v ∧ v ≤ 1000 * sec then .ok else .range)
  else if e = E.arbWeights then
    (if [bits v 31 24, bits v 23 16, bits v 15 8, bits v 7 0].all (fun w => decide (1 ≤ w) && decide (w ≤ 15)) then .ok else .range)
  else if e = E.hsBeatInterval ∨ e = E.hsLost then (if s.beatsFit e v then .ok else .range)
  else if e = E.channelQuery then
    (if bits v 63 59 < 20 ∧ bits v 58 54 < 20 ∧ bundleHas (20 * bits v 63 59 + bits v 58 54) (bits v 53 51) then .ok else .range)
  else if instants.contains e then (if instantOk v then .ok else .range)
  else .ok

/-! ### Effects -/

/-- The bits of an element that are not reserved (R9). -/
def plainMask (e v : Nat) : Nat :=
  if e = E.geiBlock then pack [(1, bits v 31 31), (15, 0), (16, bits v 15 0)]
  else if e = E.vlan then pack [(2, bits v 31 30), (14, 0), (16, bits v 15 0)]
  else if e = E.localRights ∨ e = E.localRightsSmbus then v % 16
  else if e = E.routerMac then v % 2 ^ 48
  else v

/-- The entries that the boundary clock of PTP is evaluated by (R398). -/
def ptpEntries : List Nat :=
  [E.ptpEnable, E.ptpDomain, E.ptpPriority1, E.ptpPriority2, E.ptpLogSync, E.ptpDelayMech, E.portTimeMode]

/-- A board-group role taken (R404, R405): a member is not LOCKED yet, and takes no parent. -/
def State.takeRole (s : State) (v : Nat) : State :=
  let s := s.wr E.groupRole 0 v
  let s := s.setClock { s.clock with edges := 0, missed := 0, own := false, parent := if v = 2 then none else s.clock.parent }
  let s := (s.wr E.groupState 0 (if v = 2 then 2 else 0)).wr E.groupLocked 0 0
  s.showRoot

/-- A plain element written: its value, and what follows from it at once. -/
def State.plainAct (e el v : Nat) (s : State) : State :=
  let v := plainMask e v
  if e = E.geiBlock then (s.putValue e el v).clearBadAll 0 el
  else if e = E.vlan then (s.putValue e el v).clearBadAll 2 el
  else if e = E.calBase ∨ e = E.calPeriod then
    let s := s.putValue e el v
    { s with links := { s.links with cal := { s.links.cal with wrote := some s.now } } }
  else if ptpEntries.contains e then (s.putValue e el v).ptpEval
  else if e = E.rootPriority ∨ e = E.ptpRootPriority then (s.putValue e el v).showRoot
  else if e = E.groupRole then s.takeRole v
  else if e = E.groupBase then groupBaseAct v s
  else if e = E.snapPeriod ∨ e = E.snapBase ∨ e = E.snapMask then s.setSnap e v
  else if e = E.keyPeriod then { s.putValue e el v with mgmt := { s.mgmt with keyPeriodAt := s.now } }
  else if e = E.peerQuery then s.wr e 0 (2 ^ 128 + v)
  else if e = E.channelQuery then s.wr e 0 (2 ^ 64 + v)
  else if e = E.poolLow then (if v = 0 then s else s.wr e el (s.rd E.poolFree el))
  else s.putValue e el v

/-! ### Elements open to a job (R490 Table 11, R519) -/

/-- The per-context entries of Table 11. -/
def contextEntry (e : Nat) : Bool := (decide (0x701001 ≤ e) && decide (e ≤ 0x70100A)) || e == E.sinkMode || e == E.sinkGei

/-- The per-graph-slot entries of Table 11. -/
def graphEntry (e : Nat) : Bool := (decide (0x802001 ≤ e) && decide (e ≤ 0x802005)) || e == 0x881002 || e == 0x881003

/-- The job an element belongs to, where the entry is one of those; a counter's job is that of its selection. -/
def State.elementJob (s : State) (e el : Nat) : Option Nat :=
  if contextEntry e then (s.coll.ctxs.get? el).map (fun (x : Ctx) => jobOf x.reg.op)
  else if graphEntry e then (s.graphs.slots.get? el).map (fun (g : Graph) => g.id / 65536)
  else if e = E.counterSelect then some (bits (s.rd e el) 111 96)
  else if e = E.counterValue then (if el % 6 < 4 then some (bits (s.rd E.counterSelect (4 * (el / 6) + el % 6)) 111 96) else none)
  else none

/-- An element is open to the job a request is confined to (R490, R519). -/
def State.ownElement (s : State) (a : Access) (e el : Nat) : Bool :=
  match s.confined a.path with
  | none => true
  | some job =>
    if e = E.counterValue ∨ e = E.counterSelect then
      s.elementJob e el == some job && bit (s.job job).record.toNat 336
    else if contextEntry e || graphEntry e then s.elementJob e el == some job
    else true

/-- A plain element written by an item of its own; that of a port index that does not exist is out of range (R6; log 197). -/
def State.writePlain (s : State) (a : Access) (e el len v : Nat) : State :=
  s.writeOne a e el len v (s.ownElement a e el) (fun s => if s.portless e el then .range else plainRule e v s) (State.plainAct e el v)

end Sys2Proof.Machine
end

