-- ==== Sys2Proof/Machine/Items.lean ====
section
/-!
DEFINITION. The items of a request message (spec/17 R475, R480): each write taken to the command its entry has, or put as a
plain value; each read; the checks of a whole message, its one commit and its reads.
-/
namespace Sys2Proof.Machine

/-! ### Items -/

/-- An item of a request: its header (R480 Table 6) and the data of a write. -/
structure ReqItem where
  head : Nat
  data : List Byte
  deriving DecidableEq, Repr

/-- Fields of an item header. -/
def ReqItem.op (x : ReqItem) : Nat := bits x.head 95 92
def ReqItem.entry (x : ReqItem) : Nat := bits x.head 87 64
def ReqItem.first (x : ReqItem) : Nat := bits x.head 63 40
def ReqItem.count (x : ReqItem) : Nat := bits x.head 39 24
def ReqItem.len (x : ReqItem) : Nat := bits x.head 15 0

/-- The elements an item names. -/
def ReqItem.elements (x : ReqItem) : List Nat :=
  if x.count = 0 then [0] else (List.range x.count).map (fun i => x.first + i)

/-- The data of the item's `i`-th element. -/
def ReqItem.part (x : ReqItem) (i : Nat) : List Byte :=
  if x.count = 0 then x.data else
    let n := x.data.length / x.count
    slice x.data (i * n) n

/-- The padding that follows data (R480). -/
def padding (n : Nat) : Nat := (4 - n % 4) % 4

/-- The items of a message's content; none where it does not hold exactly so many. -/
def parseItems : Nat → List Byte → Option (List ReqItem)
  | 0, b => if b.isEmpty then some [] else none
  | n + 1, b =>
    if b.length < 12 then none
    else
      let h := field b 0 12
      let len := if bits h 95 92 = 2 then bits h 15 0 else 0
      let used := 12 + len + padding len
      if b.length < used then none
      else match parseItems n (b.drop used) with
        | some l => some (⟨h, slice b 12 len⟩ :: l)
        | none => none

/-- The items of a request message, where its size, LENGTH and ITEMS are in range (R475, R479, R480). -/
def requestItems (limit : Nat) (b : List Byte) : Option (List ReqItem) :=
  let h := field b 0 16
  let n := bits h 55 48
  if b.length < 28 ∨ limit < b.length ∨ bits h 47 32 ≠ b.length ∨ n = 0 ∨ 64 < n then none
  else parseItems n ((b.take (b.length - macLen (bits h 111 96))).drop 16)

/-! ### The command a write is -/

/-- The state a meaning leaves. -/
def after (o : Host.Outcome State Fault Refusal) (s : State) : State :=
  match o with
  | .next t => t
  | _ => s

/-- GRAPH_CONTROL's write by its command (R190, R193); another command is out of range. -/
def State.controlRow (s : State) (a : Access) (d : List Byte) : State :=
  let id := field d 0 4
  let c := field d 7 1
  if c = 1 then after (execGraphResume a id s) s
  else if c = 2 then after (execGraphRemove a id s) s
  else s.writeOne a E.graphControl 0 8 0 (s.ownsJob a (id / 65536)) (fun _ => .range) (fun s => s)

/-- Writes of the switch, the forwarding tables and the traffic control. -/
def State.netRow (s : State) (a : Access) (e : Nat) (d : List Byte) : Option State :=
  let v := ofBytes d
  if e = E.geiExactWrite then some (after (execGeiExactWrite a (BitVec.ofNat 64 v) s) s)
  else if e = E.geiQuery then some (after (execGeiQuery a (BitVec.ofNat 64 v) s) s)
  else if e = E.addrMode then some (after (execAddrMode a v s) s)
  else if e = E.addrWrite then some (after (execAddrWrite a (BitVec.ofNat 128 v) s) s)
  else if e = E.addrQuery then some (after (execAddrQuery a (BitVec.ofNat 128 v) s) s)
  else if e = E.addrFlush then some (after (execAddrFlush a (BitVec.ofNat 64 v) s) s)
  else if e = E.prefixWrite then some (after (execPrefixWrite a (BitVec.ofNat 192 v) s) s)
  else if e = E.nexthopWrite then some (after (execNexthopWrite a (BitVec.ofNat 128 v) s) s)
  else if e = E.lpmQuery then some (after (execLpmQuery a (BitVec.ofNat 192 v) s) s)
  else if e = E.mcastWrite then some (after (execMcastWrite a d s) s)
  else if e = E.sprayWrite then some (after (execSprayWrite a d s) s)
  else if e = E.circuitWrite then some (after (execCircuitWrite a (BitVec.ofNat 128 v) s) s)
  else if e = E.shaperWrite then some (after (execShaperWrite a (BitVec.ofNat 128 v) s) s)
  else if e = E.policerWrite then some (after (execPolicerWrite a (BitVec.ofNat 64 v) s) s)
  else if e = E.gateWrite then some (after (execGateWrite a d s) s)
  else if e = E.groupChange then some (after (execGroupChange a v s) s)
  else if e = E.groupCycle then some (after (execGroupCycle a v s) s)
  else none

/-- Writes of the collective operations, graphs and tensors. -/
def State.collRow (s : State) (a : Access) (e el : Nat) (d : List Byte) : Option State :=
  let v := ofBytes d
  if e = E.tensorCreate then some (after (execTensorCreate a (BitVec.ofNat 256 v) s) s)
  else if e = E.tensorDestroy then some (after (execTensorDestroy a v s) s)
  else if e = E.tensorIo then some (after (execTensorIo a d s) s)
  else if e = E.tensorQuery then some (after (execTensorQuery a (BitVec.ofNat 128 v) s) s)
  else if e = E.graphStage then some (after (execGraphStage a d s) s)
  else if e = E.graphCommit then some (after (execGraphCommit a v s) s)
  else if e = E.graphControl then some (s.controlRow a d)
  else if e = E.constWrite then some (after (execConstWrite a d s) s)
  else if e = E.subnormalSet then some (after (execSubnormalSet a (BitVec.ofNat 64 v) s) s)
  else if e = E.nodeQuery then some (after (execNodeQuery a (BitVec.ofNat 128 v) s) s)
  else if e = E.register then some (after (execRegister a d s) s)
  else if e = E.deregister then some (after (execDeregister a v s) s)
  else if e = E.hsetExclude then some (after (execHsetExclude a (BitVec.ofNat 64 v) s) s)
  else if e = E.windowAnchor then some (after (execWindowAnchor a el v s) s)
  else if e = E.trapValid then some (after (execTrapValid a v s) s)
  else if e = E.homeQuery then some (after (execHomeQuery a (BitVec.ofNat 128 v) s) s)
  else if e = E.memberQuery then some (after (execMemberQuery a (BitVec.ofNat 256 v) s) s)
  else if e = E.weightQuery then some (after (execWeightQuery a (BitVec.ofNat 192 v) s) s)
  else if e = E.prWrite then some (after (execPrWrite a (BitVec.ofNat 128 v) s) s)
  else if e = E.parityCreate then some (after (execParityCreate a (BitVec.ofNat 384 v) s) s)
  else if e = E.parityDelete then some (after (execParityDelete a (BitVec.ofNat 32 v) s) s)
  else if e = E.parityQuery then some (after (execParityQuery a (BitVec.ofNat 128 v) s) s)
  else if e = E.coarseFill then some (after (execCoarseFill a (BitVec.ofNat 128 v) s) s)
  else none

/-- REBUILD_START's write, with what the job's devices answer (R437). -/
def State.rebuildRow (s : State) (a : Access) (e : Nat) (d : List Byte) (versions halted : Bool) : Option State :=
  if e = E.rebuildStart then some (after (execRebuildStart a (BitVec.ofNat 64 (ofBytes d)) versions halted s) s) else none

/-- Writes of the jobs and spawns. -/
def State.jobRow (s : State) (a : Access) (e : Nat) (d : List Byte) : Option State :=
  let v := ofBytes d
  if e = E.jobStart then some (after (execJobStart a (BitVec.ofNat 512 v) s) s)
  else if e = E.jobWithdraw then some (after (execJobWithdraw a v s) s)
  else if e = E.jobRetire then
    some (if bits v 7 0 = 1 then after (execJobAdvance a (BitVec.ofNat 32 v) s) s else after (execJobRetire a (BitVec.ofNat 32 v) s) s)
  else if e = E.jobQuery then some (after (execJobQuery a (BitVec.ofNat 256 v) s) s)
  else if e = E.jobQuota then some (after (execJobQuota a (BitVec.ofNat 512 v) s) s)
  else if e = E.spawnOpen then some (after (execSpawnOpen a (BitVec.ofNat 384 v) s) s)
  else if e = E.spawnClose then some (after (execSpawnClose a (BitVec.ofNat 32 v) s) s)
  else if e = E.spawnQuery then some (after (execSpawnQuery a (BitVec.ofNat 256 v) s) s)
  else none

/-- Writes of the ports, optics, links, memory and time. -/
def State.linkRow (s : State) (a : Access) (e el : Nat) (d : List Byte) : Option State :=
  let v := ofBytes d
  if e = E.portAdmin then some (after (execPortAdmin a el v s) s)
  else if e = E.fiberMode then some (after (execFiberMode a el v s) s)
  else if e = E.narrowEn then some (after (execNarrowEn a el v s) s)
  else if e = E.laserEnable then some (after (execLaserEnable a el v s) s)
  else if e = E.ringRetry then some (after (execRingRetry a v s) s)
  else if e = E.bypassWrite then
    some (if bits v 54 53 = 0 then after (execBypassCreate a (BitVec.ofNat 64 v) s) s else after (execBypassDelete a (BitVec.ofNat 64 v) s) s)
  else if e = E.moduleRetrain then some (after (execModuleRetrain a v s) s)
  else if e = E.partRequest then some (after (execPartRequest a (BitVec.ofNat 64 v) s) s)
  else if e = E.tpoConfig then some (after (execTpoConfig a el (BitVec.ofNat 160 v) s) s)
  else if e = E.stepArm then some (after (execStepArm a v s) s)
  else none

/-- Writes of the keepers, security, counters and resets. -/
def State.keeperRow (s : State) (a : Access) (e el : Nat) (d : List Byte) : Option State :=
  let v := ofBytes d
  if e = E.keeperSwitch then some (after (execKeeperSwitch a v s) s)
  else if e = E.keeperRejoin then some (after (execKeeperRejoin a v s) s)
  else if e = E.nqConfig then some (after (execNqConfig a el (BitVec.ofNat 256 v) s) s)
  else if e = E.configLock then some (after (execConfigLock a v s) s)
  else if e = E.keyWrite then some (after (execKeyWrite a (BitVec.ofNat 384 v) s) s)
  else if e = E.entryQuery then some (after (execEntryQuery a (BitVec.ofNat 128 v) s) s)
  else if e = E.fwStage then some (after (execFwStage a d s) s)
  else if e = E.fwCommit then some (after (execFwCommit a v s) s)
  else if e = E.fwSvnCommit then some (after (execFwSvnCommit a v s) s)
  else if e = E.attestNonce then some (after (execAttestNonce a (BitVec.ofNat 256 v) s) s)
  else if e = E.colophonExportReq then some (after (execColophonExportReq a (BitVec.ofNat 808 v) s) s)
  else if e = E.keyRotate then some (after (execKeyRotate a v s) s)
  else if e = E.counterValue then some (after (execCounterValue a el v s) s)
  else if e = E.counterSelect then some (after (execCounterSelect a el (BitVec.ofNat 128 v) s) s)
  else if e = E.sampler then some (after (execSampler a el (BitVec.ofNat 128 v) s) s)
  else if e = E.resetDevice then some (after (execResetDevice a v s) s)
  else if e = E.dieReset then some (after (execDieReset a v s) s)
  else if e = E.refclkSel then some (after (execRefclkSel a v s) s)
  else none

/-- What environment answers a rebuild asked for in a message: whether the versions agree and the graphs are halted. -/
structure Env where
  versions : Bool
  halted   : Bool
  deriving DecidableEq, Repr

/-- One element's write: the command its entry has, or a plain value put (R475). -/
def State.writeRow (s : State) (a : Access) (e el : Nat) (d : List Byte) (env : Env) : State :=
  match s.netRow a e d with
  | some t => t
  | none => match s.collRow a e el d with
    | some t => t
    | none => match s.jobRow a e d with
      | some t => t
      | none => match s.linkRow a e el d with
        | some t => t
        | none => match s.keeperRow a e el d with
          | some t => t
          | none => match s.rebuildRow a e d env.versions env.halted with
            | some t => t
            | none => s.writePlain a e el d.length (ofBytes d)

/-! ### Checks and commit (R475) -/

/-- The output is an item's status. -/
def Output.isItem : Output → Bool
  | .item _ _ => true
  | _ => false

/-- The status of the last item among outputs. -/
def itemCode (l : List Output) : Nat :=
  l.foldl (fun n o => match o with
    | .item c _ => c
    | _ => n) 0

/-- One element written, with what the message has emitted so far kept and the item's status taken out. -/
def State.writeQuiet (s : State) (a : Access) (e el : Nat) (d : List Byte) (env : Env) : Nat × State :=
  let t := s.writeRow a e el d env
  (itemCode t.out, { t with out := s.out ++ t.out.filter (fun o => !o.isItem) })

/-- The order of R478's causes. -/
def causeRank (c : Nat) : Nat :=
  ([stMalformed, stNoEntry, stRecovery, stNotAuthorised, stReadOnly, stWriteOnly, stLocked, stNoElement, stLength, stRange,
    stRefused].findIdx? (fun x => x == c)).getD 16

/-- The earlier of two statuses in that order; OK yields to every cause. -/
def worse (a b : Nat) : Nat := if a = stOk then b else if b = stOk then a else if causeRank b < causeRank a then b else a

/-- Every element of an item written in turn; the item's status is the first cause any of them meets. -/
def State.writeParts (s : State) (a : Access) (x : ReqItem) (env : Env) : Nat × State :=
  (withIdx x.elements 0).foldl (fun (r : Nat × State) (y : Nat × Nat) =>
    let q := r.2.writeQuiet a x.entry y.2 (x.part y.1) env
    (worse r.1 q.1, q.2)) (stOk, s)

/-- The check of a write item: the causes of the whole item, then those of its elements. -/
def State.checkItem (s : State) (a : Access) (x : ReqItem) (env : Env) : Nat × State :=
  let known := (entryRow x.entry).isSome
  let els := match entryRow x.entry with
    | some r => x.elements.filter (fun i => decide (i < max r.count 1))
    | none => []
  let own := els.all (fun i => s.ownElement a x.entry i)
  let st := s.itemStatus a x.entry x.first x.count x.len true own
  if !known ∨ st ≠ stOk then (st, s) else s.writeParts a x env

/-- How the message's items are taken from here on, and the plain values it would commit. -/
def State.setPass (s : State) (p : Pass) (planned : Tab Nat) : State :=
  { s with mgmt := { s.mgmt with pass := p, planned := planned } }

/-- The value each write of an entry that is no array would commit (R475). -/
def plannedOf (l : List ReqItem) : Tab Nat :=
  l.foldl (fun (t : Tab Nat) (x : ReqItem) =>
    if x.op = 2 ∧ x.count = 0 then t.set (elKey x.entry 0) (ofBytes x.data) else t) []

/-- The checks of every write of a message, on the state before it: the status each item meets, OK for a read. -/
def State.checkAll (s : State) (a : Access) (l : List ReqItem) (env : Env) : List Nat × State :=
  l.foldl (fun (r : List Nat × State) (x : ReqItem) =>
    if x.op = 2 then
      let q := r.2.checkItem a x env
      (r.1 ++ [q.1], q.2)
    else if x.op = 1 then (r.1 ++ [stOk], r.2)
    else (r.1 ++ [stMalformed], r.2)) ([], s.setPass .checking (plannedOf l))

/-- When an item's write takes its turn in a message: retires, then starts, then the others (R458, R468), a device reset
last. -/
def ReqItem.turn (x : ReqItem) : Nat :=
  if x.entry = E.jobRetire then 0 else if x.entry = E.jobStart then 1 else if x.entry = E.resetDevice then 3 else 2

/-- The writes of a message committed at its commit time, by their turns. -/
def State.commitAll (s : State) (a : Access) (l : List ReqItem) (env : Env) : State :=
  let w := l.filter (fun x => x.op == 2)
  let order := (List.range 4).flatMap (fun k => w.filter (fun x => x.turn == k))
  let s := (s.setPass .committing []).committed a.t
  order.foldl (fun (s : State) (x : ReqItem) => (s.writeParts a x env).2) s

/-! ### Reads (R475, R480) -/

/-- The job that the answer in a query entry, or the choice in TENSOR_IO, concerns. -/
def State.answerJob (s : State) (e : Nat) : Option Nat :=
  let v := s.rd e 0
  if e = E.homeQuery ∨ e = E.tensorQuery ∨ e = E.parityQuery then some (bits v 127 112)
  else if e = E.weightQuery then some (bits v 191 176)
  else if e = E.jobQuery ∨ e = E.spawnQuery then some (bits v 255 240)
  else if e = E.jobQuota then some (bits v 511 496)
  else if e = E.tensorIo then some (bits v 63 48)
  else if e = E.nodeQuery then (s.graphs.slots.get? (bits v 127 122)).map (fun (g : Graph) => g.id / 65536)
  else none

/-- The answer is open to the job the request is confined to; one that was never asked for is. -/
def State.ownAnswer (s : State) (a : Access) (e : Nat) : Bool :=
  match s.confined a.path with
  | none => true
  | some job => match s.answerJob e with
    | some j => j == job || s.rd e 0 == 0
    | none => true

/-- A read item: its status and data, and the state after it. -/
def State.readItem (s : State) (a : Access) (x : ReqItem) : Nat × List Byte × State :=
  match entryRow x.entry with
  | none => (stNoEntry, [], s)
  | some r =>
    let els := x.elements.filter (fun i => decide (i < max r.count 1))
    let own := els.all (fun i => s.ownElement a x.entry i) && s.ownAnswer a x.entry
    let st := s.itemStatus a x.entry x.first x.count x.len false own
    if st ≠ stOk then (st, [], s)
    else
      let q := els.foldl (fun (q : List Byte × State) i =>
        (q.1 ++ toBytes r.ty.size (q.2.view x.entry i), q.2.afterRead a x.entry i)) ([], s)
      (stOk, q.1, q.2)

/-- A response item: the request's header with its status and, for a successful read, the data (R480). -/
def responseItem (x : ReqItem) (status : Nat) (data : List Byte) : List Byte :=
  let h := pack [(72, bits x.head 95 24), (8, status), (16, if data.isEmpty then x.len else data.length)]
  toBytes 12 h ++ data ++ List.replicate (padding data.length) 0

/-- The responses of a message's items, given the status of each write; a read executes now.  A read whose data would carry
the response beyond `room` bytes answers LENGTH. -/
def State.respond (s : State) (a : Access) : List (ReqItem × Nat) → Nat → List Byte × State
  | [], _ => ([], s)
  | (x, c) :: r, room =>
    let (item, s) :=
      if x.op = 1 then
        let (st, d, t) := s.readItem a x
        if room < 12 * (r.length + 1) + d.length + padding d.length then (responseItem x stLength [], s)
        else (responseItem x st d, t)
      else (responseItem x c [], s)
    let (rest, s) := s.respond a r (room - item.length)
    (item ++ rest, s)

/-- The effect of a message's items, and the content of its response: the checks, then one commit of every write or of none,
then the reads (R475). -/
def State.execItems (s : State) (a : Access) (l : List ReqItem) (env : Env) (room : Nat) : List Byte × State :=
  let (codes, s) := s.checkAll a l env
  let pairs := l.zip codes
  let ok := pairs.all (fun p => p.1.op != 2 || p.2 == stOk)
  let s := if ok ∧ l.any (fun x => x.op == 2) then s.commitAll a l env else s
  let s := s.setPass .alone []
  let final := pairs.map (fun (p : ReqItem × Nat) => if p.1.op = 2 ∧ !ok ∧ p.2 = stOk then (p.1, stNotApplied) else p)
  s.respond a final room

/-- DICT_WRITE: a write of an entry with no command of its own, in a message of one item (R475).  It stands for any entry. -/
def execDictWrite (a : Access) (entry first count : Nat) (data : List Byte) (s : State) : Host.Outcome State Fault Refusal :=
  let x : ReqItem := ⟨pack [(4, 2), (4, 0), (24, entry), (24, first), (16, count), (8, 0), (16, data.length)], data⟩
  let env : Env := ⟨false, false⟩
  let s := (s.begin a.t).setPass .checking (plannedOf [x])
  let r := s.checkItem a x env
  .next (if r.1 = stOk then ((r.2.commitAll a [x] env).setPass .alone []).emit (.item stOk 0)
    else (r.2.setPass .alone []).emit (.item r.1 0))

end Sys2Proof.Machine
end

