-- ==== Sys2Proof/Machine/Message.lean ====
section
/-!
DEFINITION. The keeper's four request paths and the execution of messages (spec/17 R476, R479-R487, R490, R504, spec/16
R458).
-/
namespace Sys2Proof.Machine

/-! ### Transaction numbers (R482) -/

/-- A transaction may execute: above the highest executed, or within 64 below it and not executed yet. -/
def Txn.fresh (x : Txn) (txn : Nat) : Bool :=
  match x.highest with
  | none => true
  | some h => decide (h < txn) || (decide (txn < h) && decide (h - txn ≤ 64) && !x.map.getLsbD (h - txn - 1))

/-- The response held for a transaction. -/
def Txn.held (x : Txn) (txn : Nat) : Option (List Byte) := (x.responses.find? (fun r => r.1 == txn)).map (·.2)

/-- A transaction executed and its response stored; the last 64 are kept. -/
def Txn.done (x : Txn) (txn : Nat) (resp : List Byte) : Txn :=
  let l := x.responses ++ [(txn, resp)]
  let l := l.drop (l.length - 64)
  match x.highest with
  | none => ⟨some txn, 0, l⟩
  | some h =>
    if h < txn then ⟨some txn, BitVec.ofNat 64 (x.map.toNat * 2 ^ (txn - h) + 2 ^ (txn - h - 1)), l⟩
    else ⟨some h, x.map ||| BitVec.ofNat 64 (2 ^ (h - txn - 1)), l⟩

/-- The TXN state of a key slot. -/
def State.txn (s : State) (slot : Nat) : Txn := s.mgmt.txns.getD slot {}

/-! ### Responses -/

/-- The greatest message of a path (R479, R485, R487). -/
def Origin.limit : Origin → Nat
  | .udp _ _ _ => 9000
  | .pcie => 9000
  | .smbus => 1024
  | .inband _ _ _ => 4560

/-- A response message under a key. -/
def response (key : Nat) (slot status txn items : Nat) (content : List Byte) : List Byte :=
  let b := dapHeader 2 status slot txn items (16 + content.length + macLen slot) 0 0 ++ content
  if slot < 16 then b ++ toBytes 16 (mac128 key b) else b

/-- A response sent the way its request came, and counted (R479, R484, R485, R487). -/
def State.answer (s : State) (o : Origin) (b : List Byte) : State :=
  let s := s.bump E.dapCounts 1 1
  match o with
  | .udp port addr udpPort => s.emit (.udp port addr udpPort b)
  | .pcie => ({ s with mgmt := { s.mgmt with mbx := .done, mbxResp := b } }).emit (.msix 0)
  | .smbus => { s with mgmt := { s.mgmt with smb := .done, smbResp := b } }
  | .inband src job gen => s.originate (s.mgmtFrame job gen src 1 2 b)

/-- A local path whose request gets no response returns to IDLE. -/
def State.dropLocal (s : State) (o : Origin) : State :=
  match o with
  | .pcie => { s with mgmt := { s.mgmt with mbx := .idle } }
  | .smbus => { s with mgmt := { s.mgmt with smb := .idle } }
  | _ => s

/-- A request answered without being executed: the status of the message as a whole (Table 5). -/
def State.answerWhole (s : State) (o : Origin) (h status : Nat) : State :=
  let slot := bits h 111 96
  s.answer o (response (s.mgmt.keys.getD slot {}).key slot status (bits h 95 64) 0 [])

/-! ### Arrival (R479-R483) -/

/-- The greatest number of messages that wait (R483). -/
def waitLimit : Nat := 256

/-- A request taken into the queue, with its key slot as it now is (R483, R504). -/
def State.queueRequest (s : State) (o : Origin) (path : Path) (b : List Byte) : State :=
  let judged := match path with
    | .dap slot => s.mgmt.keys.get? slot
    | _ => none
  { s with mgmt := { s.mgmt with waiting := s.mgmt.waiting ++ [⟨o, path, judged, b⟩] } }

/-- A request that its path has let in: counted; MALFORMED or BUSY answered; under a key, its TXN checked; then queued.  The board
paths, which hold one message each, never meet the limit (R483). -/
def State.takeIn (s : State) (o : Origin) (path : Path) (b : List Byte) : State :=
  let h := field b 0 16
  let slot := bits h 111 96
  let txn := bits h 95 64
  let s := s.keeperWork.bump E.dapCounts 0 1
  if (requestItems o.limit b).isNone then (s.bump E.dapCounts 5 1).answerWhole o h stMalformed
  else if slot < 16 ∧ bit h 63 ∧ ((s.txn slot).held txn).isSome then s.answer o (((s.txn slot).held txn).getD [])
  else if slot < 16 ∧ !(s.txn slot).fresh txn then s.bump E.dapCounts 3 1
  else if waitLimit ≤ s.mgmt.waiting.length ∧ slotName path ≠ 0xFFFE then (s.bump E.dapCounts 4 1).answerWhole o h stBusy
  else s.queueRequest o path b

/-- The header of a request is one a path accepts (R479 Table 5): DVER and MSG. -/
def requestHead (b : List Byte) : Bool :=
  decide (16 ≤ b.length) && bits (field b 0 16) 127 124 == 1 && bits (field b 0 16) 123 120 == 1

/-- DAP_REQUEST: a message arrives over UDP on a management port (R479-R483). -/
def execDapRequest (t : Time) (port addr udpPort : Nat) (bytes : List Byte) (s : State) : Host.Outcome State Fault Refusal :=
  let s := s.begin t
  let slot := bits (field bytes 0 16) 111 96
  .next (if !s.netServed then s
    else if !requestHead bytes ∨ 16 ≤ slot then s.bump E.dapCounts 5 1
    else if bytes.length < 32 ∨ !s.dapMacOk slot bytes then s.authFailed slot
    else s.takeIn (.udp port addr udpPort) (.dap slot) bytes)

/-- The three conditions of R64 for a frame: its source leads the job, which is ACTIVE in the frame's generation. -/
def State.leaderRequest (s : State) (src job gen : Nat) : Bool :=
  match s.jobs.get? job with
  | some j => j.state == .active && bits j.record.toNat 487 464 == src && j.gen == gen
  | none => false

/-- DICT_INBAND_REQUEST: a DICT REQUEST frame of a source GEI, job and generation (R64, R487, R490, R503). -/
def execDictInbandRequest (t : Time) (src job gen : Nat) (bytes : List Byte) (s : State) : Host.Outcome State Fault Refusal :=
  let s := s.begin t
  let slot := bits (field bytes 0 16) 111 96
  .next (if !s.inbandServed then s
    else if !requestHead bytes ∨ (16 ≤ slot ∧ slot ≠ 0xFFFF) then s.bump E.dapCounts 5 1
    else if slot = 0xFFFF then
      if s.leaderRequest src job gen then s.takeIn (.inband src job gen) (.inband job gen src) bytes
      else (s.bump E.dapCounts 2 1).mgmtRefused 1 src
    else if bytes.length < 32 ∨ !s.dapMacOk slot bytes then s.authFailed slot
    else s.takeIn (.inband src job gen) (.dap slot) bytes)

/-- A request of a board path: under KEY_SLOT 0xFFFE only (R479, R484, R485). -/
def State.localRequest (s : State) (o : Origin) (path : Path) (b : List Byte) : State :=
  if !requestHead b ∨ bits (field b 0 16) 111 96 ≠ 0xFFFE then (s.bump E.dapCounts 5 1).dropLocal o
  else s.takeIn o path b

/-- The keeper serves the board paths: its firmware runs, in RECOVERY too (R498, R533). -/
def State.boardServed (s : State) : Bool := s.rd E.deviceState 0 != 0

/-- MBX_DOORBELL: the bytes of MBX_REQUEST, as long as the DOORBELL write says, executed as a message; ignored while the
mailbox is BUSY (R484). -/
def execMbxDoorbell (t : Time) (request : List Byte) (s : State) : Host.Outcome State Fault Refusal :=
  let s := s.begin t
  .next (if s.mgmt.mbx = .busy ∨ !s.boardServed then s
    else ({ s with mgmt := { s.mgmt with mbx := .busy, mbxReq := request } }).localRequest .pcie .pcie request)

/-- MBX_CLEAR: in DONE, the mailbox returns to IDLE (R484). -/
def execMbxClear (t : Time) (s : State) : Host.Outcome State Fault Refusal :=
  let s := s.begin t
  .next (if s.mgmt.mbx = .done then { s with mgmt := { s.mgmt with mbx := .idle } } else s)

/-! ### The SMBus subset (R485 Table 8) -/

/-- The SMBus target answers: its pins' supply is in range, and the keeper's firmware runs. -/
def State.smbusServed (s : State) : Bool := s.power.vio && s.boardServed

/-- The hottest die, in whole °C. -/
def State.hottest (s : State) : Nat :=
  let m := (List.range 20).foldl (fun (m : Int) d => max m (s.rdInt 16 E.dieTemp d)) 0
  min 255 (m.toNat / 16)

/-- The STATUS block. -/
def State.statusBlock (s : State) : List Byte :=
  toBytes 8 (pack [(8, s.rd E.deviceState 0), (8, s.mgmt.smbSev), (8, s.hottest), (16, s.rd E.vinNow 0 / 10),
    (16, (s.nq 0).records.length), (8, 0)])

/-- SMBUS_STATUS: the STATUS block read; SMBALERT# is released (R485). -/
def execSmbusStatus (t : Time) (s : State) : Host.Outcome State Fault Refusal :=
  let s := s.begin t
  .next (if !s.smbusServed then s
    else (({ s with mgmt := { s.mgmt with smbAlert := false, smbSev := 0 } }).emit (.smbus s.statusBlock)))

/-- SMBUS_REQUEST_FRAGMENT: bytes written into the request buffer at an offset; a failed PEC is NACKed (R485). -/
def execSmbusRequestFragment (t : Time) (pec : Bool) (offset : Nat) (bytes : List Byte) (s : State) :
    Host.Outcome State Fault Refusal :=
  let s := s.begin t
  .next (if !s.smbusServed ∨ !pec ∨ 253 < bytes.length ∨ s.mgmt.smb = .busy then s
    else
      let cells := (withIdx bytes offset).filter (fun c => decide (c.1 < 1024))
      { s with mgmt := { s.mgmt with smbReq := cells.foldl (fun (l : List (Nat × Byte)) c => Tab.set l c.1 c.2) s.mgmt.smbReq } })

/-- SMBUS_EXECUTE: the request of the given length in the buffer executed (R485). -/
def execSmbusExecute (t : Time) (pec : Bool) (length : Nat) (s : State) : Host.Outcome State Fault Refusal :=
  let s := s.begin t
  .next (if !s.smbusServed ∨ !pec ∨ s.mgmt.smb = .busy then s
    else
      let b := (List.range (length % 65536)).map (fun i => Tab.getD s.mgmt.smbReq i 0)
      ({ s with mgmt := { s.mgmt with smb := .busy } }).localRequest .smbus .smbus b)

/-- The code of a mailbox state: 0 IDLE, 1 BUSY, 2 DONE. -/
def Mbx.code : Mbx → Nat
  | .idle => 0
  | .busy => 1
  | .done => 2

/-- SMBUS_STATE_READ (R485). -/
def execSmbusStateRead (t : Time) (s : State) : Host.Outcome State Fault Refusal :=
  let s := s.begin t
  .next (if !s.smbusServed then s else s.emit (.smbus [BitVec.ofNat 8 (Mbx.code s.mgmt.smb)]))

/-- SMBUS_RESPONSE_OFFSET (R485). -/
def execSmbusResponseOffset (t : Time) (pec : Bool) (offset : Nat) (s : State) : Host.Outcome State Fault Refusal :=
  let s := s.begin t
  .next (if !s.smbusServed ∨ !pec then s else { s with mgmt := { s.mgmt with smbOffset := offset % 65536 } })

/-- SMBUS_RESPONSE_READ: up to 255 bytes of the response from the offset (R485). -/
def execSmbusResponseRead (t : Time) (s : State) : Host.Outcome State Fault Refusal :=
  let s := s.begin t
  .next (if !s.smbusServed then s else s.emit (.smbus (slice s.mgmt.smbResp s.mgmt.smbOffset 255)))

/-! ### Execution (R475, R476, R482, R504) -/

/-- A message holds a write of an entry. -/
def WaitMsg.writes (m : WaitMsg) (e : Nat) : Bool :=
  match requestItems m.origin.limit m.bytes with
  | some l => l.any (fun x => x.op == 2 && x.entry == e)
  | none => false

/-- Which waiting message is next: retires, then starts, then the rest, each in order of arrival (R458, R476). -/
def nextMessage (l : List WaitMsg) : Nat :=
  match l.findIdx? (fun m => m.writes E.jobRetire) with
  | some i => i
  | none => (l.findIdx? (fun m => m.writes E.jobStart)).getD 0

/-- The response of an executed message stored in its slot's TXN state, unless the message wrote that slot (R482, R496). -/
def State.keepResponse (s : State) (slot txn : Nat) (l : List ReqItem) (resp : List Byte) : State :=
  let rewritten := l.any (fun x => x.op == 2 && x.entry == E.keyWrite && field x.data 0 1 == slot) && (s.mgmt.txns.get? slot).isNone
  if 16 ≤ slot ∨ rewritten then s
  else { s with mgmt := { s.mgmt with txns := s.mgmt.txns.set slot ((s.txn slot).done txn resp) } }

/-- A message executed: its items, its response stored and sent (R475, R479-R482).  A device reset it commits leaves no
response. -/
def State.runMessage (s : State) (t : Time) (m : WaitMsg) (env : Env) : State :=
  let h := field m.bytes 0 16
  let slot := bits h 111 96
  let key := match m.judged with
    | some k => k.key
    | none => 0
  match requestItems m.origin.limit m.bytes with
  | none => s
  | some l =>
    let s := { s with mgmt := { s.mgmt with judged := m.judged } }
    let (content, s) := s.execItems ⟨t, m.path⟩ l env (m.origin.limit - 16 - macLen slot)
    if s.rd E.deviceState 0 = 0 then s
    else
      let s := { s with mgmt := { s.mgmt with judged := none } }
      let resp := response key slot stOk (bits h 95 64) l.length content
      ((s.keepResponse slot (bits h 95 64) l resp).countFixed (8 * (18 + s.keeper)) 1).answer m.origin resp

/-- MESSAGE_EXECUTE: the next waiting message taken, its TXN checked again, and executed (R476, R482). -/
def execMessageExecute (t : Time) (versions halted : Bool) (s : State) : Host.Outcome State Fault Refusal :=
  let s := s.begin t
  let n := nextMessage s.mgmt.waiting
  .next (match s.mgmt.waiting[n]? with
    | none => s
    | some m =>
      let h := field m.bytes 0 16
      let slot := bits h 111 96
      let txn := bits h 95 64
      let s := { s with mgmt := { s.mgmt with waiting := s.mgmt.waiting.eraseIdx n } }
      if slot < 16 ∧ bit h 63 ∧ ((s.txn slot).held txn).isSome then s.answer m.origin (((s.txn slot).held txn).getD [])
      else if slot < 16 ∧ !(s.txn slot).fresh txn then s.bump E.dapCounts 3 1
      else s.runMessage t m ⟨versions, halted⟩)

end Sys2Proof.Machine
end

