-- ==== Sys2Proof/Machine/Dispatch.lean ====
section
/-!
DEFINITION. The one table of meanings: one arm per command.
-/
namespace Sys2Proof.Machine

/-- What a command does to everything but the queue. -/
def exec (i : Instr) (s : State) : Host.Outcome State Fault Refusal :=
  match i with
  | .dictWrite a entry first count data => Sys2Proof.Machine.execDictWrite a entry first count data s
  | .messageExecute t versions halted => Sys2Proof.Machine.execMessageExecute t versions halted s
  | .dapRequest t port addr udpPort bytes => Sys2Proof.Machine.execDapRequest t port addr udpPort bytes s
  | .noticeAck t src bytes => Sys2Proof.Machine.execNoticeAck t src bytes s
  | .noticePush t queue => Sys2Proof.Machine.execNoticePush t queue s
  | .noticeResend t queue => Sys2Proof.Machine.execNoticeResend t queue s
  | .nqPop a queue => Sys2Proof.Machine.execNqPop a queue s
  | .nqConfig a queue record => Sys2Proof.Machine.execNqConfig a queue record s
  | .mbxDoorbell t request => Sys2Proof.Machine.execMbxDoorbell t request s
  | .mbxClear t => Sys2Proof.Machine.execMbxClear t s
  | .nringTail t offset value => Sys2Proof.Machine.execNringTail t offset value s
  | .nringWrite t => Sys2Proof.Machine.execNringWrite t s
  | .perstN t => Sys2Proof.Machine.execPerstN t s
  | .smbusStatus t => Sys2Proof.Machine.execSmbusStatus t s
  | .smbusRequestFragment t pec offset bytes => Sys2Proof.Machine.execSmbusRequestFragment t pec offset bytes s
  | .smbusExecute t pec length => Sys2Proof.Machine.execSmbusExecute t pec length s
  | .smbusStateRead t => Sys2Proof.Machine.execSmbusStateRead t s
  | .smbusResponseOffset t pec offset => Sys2Proof.Machine.execSmbusResponseOffset t pec offset s
  | .smbusResponseRead t => Sys2Proof.Machine.execSmbusResponseRead t s
  | .dictInbandRequest t src job gen bytes => Sys2Proof.Machine.execDictInbandRequest t src job gen bytes s
  | .configLock a value => Sys2Proof.Machine.execConfigLock a value s
  | .keyWrite a record => Sys2Proof.Machine.execKeyWrite a record s
  | .entryQuery a record => Sys2Proof.Machine.execEntryQuery a record s
  | .fwStage a data => Sys2Proof.Machine.execFwStage a data s
  | .fwCommit a len => Sys2Proof.Machine.execFwCommit a len s
  | .fwVerifyDone t shape signed svn version => Sys2Proof.Machine.execFwVerifyDone t shape signed svn version s
  | .fwSvnCommit a value => Sys2Proof.Machine.execFwSvnCommit a value s
  | .attestNonce a nonce => Sys2Proof.Machine.execAttestNonce a nonce s
  | .attestReportRead a => Sys2Proof.Machine.execAttestReportRead a s
  | .colophonExportReq a record => Sys2Proof.Machine.execColophonExportReq a record s
  | .colophonExportRead a => Sys2Proof.Machine.execColophonExportRead a s
  | .keyRotate a value => Sys2Proof.Machine.execKeyRotate a value s
  | .keyPeriodExpiry t => Sys2Proof.Machine.execKeyPeriodExpiry t s
  | .peerPrepareRegistration t p body => Sys2Proof.Machine.execPeerPrepareRegistration t p body s
  | .peerPrepareHsetExclude t p body => Sys2Proof.Machine.execPeerPrepareHsetExclude t p body s
  | .peerPrepareDeregister t p body => Sys2Proof.Machine.execPeerPrepareDeregister t p body s
  | .peerPrepareTensorCreate t p body => Sys2Proof.Machine.execPeerPrepareTensorCreate t p body s
  | .peerPrepareTensorDestroy t p body => Sys2Proof.Machine.execPeerPrepareTensorDestroy t p body s
  | .peerPrepareGraph t p body => Sys2Proof.Machine.execPeerPrepareGraph t p body s
  | .peerPrepareGraphControl t p body => Sys2Proof.Machine.execPeerPrepareGraphControl t p body s
  | .peerPrepareSubnormal t p body => Sys2Proof.Machine.execPeerPrepareSubnormal t p body s
  | .peerPrepareParityGroup t p body => Sys2Proof.Machine.execPeerPrepareParityGroup t p body s
  | .peerPrepareParityDelete t p body => Sys2Proof.Machine.execPeerPrepareParityDelete t p body s
  | .peerVote t p body => Sys2Proof.Machine.execPeerVote t p body s
  | .peerCommit t p body => Sys2Proof.Machine.execPeerCommit t p body s
  | .peerRelease t p body => Sys2Proof.Machine.execPeerRelease t p body s
  | .prepareTimeout t xid => Sys2Proof.Machine.execPrepareTimeout t xid s
  | .register a record => Sys2Proof.Machine.execRegister a record s
  | .registerFrame t f header record => Sys2Proof.Machine.execRegisterFrame t f header record s
  | .deregister a op => Sys2Proof.Machine.execDeregister a op s
  | .hsetExclude a record => Sys2Proof.Machine.execHsetExclude a record s
  | .homeQuery a record => Sys2Proof.Machine.execHomeQuery a record s
  | .contrib t f header payload upset => Sys2Proof.Machine.execContrib t f header payload upset s
  | .chunkCompletion t op inst phase chunk ups bad => Sys2Proof.Machine.execChunkCompletion t op inst phase chunk ups bad s
  | .colophonEmit t die => Sys2Proof.Machine.execColophonEmit t die s
  | .countResult t f header payload => Sys2Proof.Machine.execCountResult t f header payload s
  | .refuseCheckFailed t f header => Sys2Proof.Machine.execRefuseCheckFailed t f header s
  | .beacon t f header => Sys2Proof.Machine.execBeacon t f header s
  | .throttle t f header => Sys2Proof.Machine.execThrottle t f header s
  | .memberAbort t f header => Sys2Proof.Machine.execMemberAbort t f header s
  | .done t f header => Sys2Proof.Machine.execDone t f header s
  | .collectiveMisdirected t f body => Sys2Proof.Machine.execCollectiveMisdirected t f body s
  | .tallyDeadline t op inst => Sys2Proof.Machine.execTallyDeadline t op inst s
  | .exchangeCompletion t p body => Sys2Proof.Machine.execExchangeCompletion t p body s
  | .completeSend t op inst => Sys2Proof.Machine.execCompleteSend t op inst s
  | .abortRelay t p body => Sys2Proof.Machine.execAbortRelay t p body s
  | .stallTentative t op inst rank => Sys2Proof.Machine.execStallTentative t op inst rank s
  | .stallSettle t op inst => Sys2Proof.Machine.execStallSettle t op inst s
  | .prereduceContrib t frame => Sys2Proof.Machine.execPrereduceContrib t frame s
  | .prHoldExpiry t => Sys2Proof.Machine.execPrHoldExpiry t s
  | .prWrite a record => Sys2Proof.Machine.execPrWrite a record s
  | .windowAnchor a ctx value => Sys2Proof.Machine.execWindowAnchor a ctx value s
  | .trapValid a value => Sys2Proof.Machine.execTrapValid a value s
  | .slotCountPublish t die => Sys2Proof.Machine.execSlotCountPublish t die s
  | .steeredForward t => Sys2Proof.Machine.execSteeredForward t s
  | .spillCopyDone t op inst phase chunk => Sys2Proof.Machine.execSpillCopyDone t op inst phase chunk s
  | .deferredReopen t die => Sys2Proof.Machine.execDeferredReopen t die s
  | .bypassRefused t p body => Sys2Proof.Machine.execBypassRefused t p body s
  | .bypassEmitted t p body => Sys2Proof.Machine.execBypassEmitted t p body s
  | .bypassRecompute t p body => Sys2Proof.Machine.execBypassRecompute t p body s
  | .bypassRestart t p body => Sys2Proof.Machine.execBypassRestart t p body s
  | .memberQuery a record => Sys2Proof.Machine.execMemberQuery a record s
  | .weightQuery a record => Sys2Proof.Machine.execWeightQuery a record s
  | .tensorCreate a record => Sys2Proof.Machine.execTensorCreate a record s
  | .tensorDestroy a handle => Sys2Proof.Machine.execTensorDestroy a handle s
  | .tensorIo a data => Sys2Proof.Machine.execTensorIo a data s
  | .tensorQuery a record => Sys2Proof.Machine.execTensorQuery a record s
  | .graphStage a data => Sys2Proof.Machine.execGraphStage a data s
  | .graphCommit a len => Sys2Proof.Machine.execGraphCommit a len s
  | .graphResume a id => Sys2Proof.Machine.execGraphResume a id s
  | .graphRemove a id => Sys2Proof.Machine.execGraphRemove a id s
  | .constWrite a data => Sys2Proof.Machine.execConstWrite a data s
  | .nodeQuery a record => Sys2Proof.Machine.execNodeQuery a record s
  | .runStart t slot => Sys2Proof.Machine.execRunStart t slot s
  | .stripeOpen t slot die stage group stripe => Sys2Proof.Machine.execStripeOpen t slot die stage group stripe s
  | .taskIssue t slot die => Sys2Proof.Machine.execTaskIssue t slot die s
  | .taskComplete t slot node index => Sys2Proof.Machine.execTaskComplete t slot node index s
  | .updateEngineIdle t die => Sys2Proof.Machine.execUpdateEngineIdle t die s
  | .exchangeCollectSum t p body => Sys2Proof.Machine.execExchangeCollectSum t p body s
  | .exchangeCollectMax t p body => Sys2Proof.Machine.execExchangeCollectMax t p body s
  | .fenceReport t p body => Sys2Proof.Machine.execFenceReport t p body s
  | .fenceLimitExpiry t slot => Sys2Proof.Machine.execFenceLimitExpiry t slot s
  | .publishResend t f body => Sys2Proof.Machine.execPublishResend t f body s
  | .updateHeldResult t p body => Sys2Proof.Machine.execUpdateHeldResult t p body s
  | .updateCommittedStripe t p body => Sys2Proof.Machine.execUpdateCommittedStripe t p body s
  | .subnormalSet a record => Sys2Proof.Machine.execSubnormalSet a record s
  | .tileIssue t array => Sys2Proof.Machine.execTileIssue t array s
  | .tileComplete t array row col wrong epi line stalls => Sys2Proof.Machine.execTileComplete t array row col wrong epi line stalls s
  | .arrayIdleStop t array => Sys2Proof.Machine.execArrayIdleStop t array s
  | .stackCommandDone t stack cmd block count retries failed carried holds => Sys2Proof.Machine.execStackCommandDone t stack cmd block count retries failed carried holds s
  | .scrubStep t stack met holds => Sys2Proof.Machine.execScrubStep t stack met holds s
  | .stackTempSample t stack temp => Sys2Proof.Machine.execStackTempSample t stack temp s
  | .partRequest a record => Sys2Proof.Machine.execPartRequest a record s
  | .mftFrameReceive t port first bytes staged buffered upsets => Sys2Proof.Machine.execMftFrameReceive t port first bytes staged buffered upsets s
  | .ethFrameReceive t port bytes staged buffered upsets => Sys2Proof.Machine.execEthFrameReceive t port bytes staged buffered upsets s
  | .originCellRetry t => Sys2Proof.Machine.execOriginCellRetry t s
  | .schedulerPick t port => Sys2Proof.Machine.execSchedulerPick t port s
  | .frameTransmitted t frame done => Sys2Proof.Machine.execFrameTransmitted t frame done s
  | .creditReceive t port body => Sys2Proof.Machine.execCreditReceive t port body s
  | .creditSend t port => Sys2Proof.Machine.execCreditSend t port s
  | .helloReceive t port body => Sys2Proof.Machine.execHelloReceive t port body s
  | .helloSend t port => Sys2Proof.Machine.execHelloSend t port s
  | .loadSummary t die => Sys2Proof.Machine.execLoadSummary t die s
  | .sprayWrite a data => Sys2Proof.Machine.execSprayWrite a data s
  | .circuitWrite a record => Sys2Proof.Machine.execCircuitWrite a record s
  | .mcastWrite a data => Sys2Proof.Machine.execMcastWrite a data s
  | .versionRetire t table index => Sys2Proof.Machine.execVersionRetire t table index s
  | .drainSlow t table index => Sys2Proof.Machine.execDrainSlow t table index s
  | .pcsLinkFault t port => Sys2Proof.Machine.execPcsLinkFault t port s
  | .portDownHoldExpiry t port => Sys2Proof.Machine.execPortDownHoldExpiry t port s
  | .portUp t port => Sys2Proof.Machine.execPortUp t port s
  | .portAdmin a port value => Sys2Proof.Machine.execPortAdmin a port value s
  | .shaperWrite a record => Sys2Proof.Machine.execShaperWrite a record s
  | .wheelSlot t port => Sys2Proof.Machine.execWheelSlot t port s
  | .policerWrite a record => Sys2Proof.Machine.execPolicerWrite a record s
  | .gateWrite a data => Sys2Proof.Machine.execGateWrite a data s
  | .gateListActive t port => Sys2Proof.Machine.execGateListActive t port s
  | .gateTransition t port => Sys2Proof.Machine.execGateTransition t port s
  | .groupChange a value => Sys2Proof.Machine.execGroupChange a value s
  | .groupCycle a value => Sys2Proof.Machine.execGroupCycle a value s
  | .samplePeriodEnd t => Sys2Proof.Machine.execSamplePeriodEnd t s
  | .geiExactWrite a record => Sys2Proof.Machine.execGeiExactWrite a record s
  | .geiQuery a record => Sys2Proof.Machine.execGeiQuery a record s
  | .addrMode a value => Sys2Proof.Machine.execAddrMode a value s
  | .addrWrite a record => Sys2Proof.Machine.execAddrWrite a record s
  | .addrQuery a record => Sys2Proof.Machine.execAddrQuery a record s
  | .addrFlush a record => Sys2Proof.Machine.execAddrFlush a record s
  | .learnPop a => Sys2Proof.Machine.execLearnPop a s
  | .learnPropagate t die vid mac hop => Sys2Proof.Machine.execLearnPropagate t die vid mac hop s
  | .ageSweep t die => Sys2Proof.Machine.execAgeSweep t die s
  | .prefixWrite a record => Sys2Proof.Machine.execPrefixWrite a record s
  | .prefixApplied t => Sys2Proof.Machine.execPrefixApplied t s
  | .nexthopWrite a record => Sys2Proof.Machine.execNexthopWrite a record s
  | .lpmQuery a record => Sys2Proof.Machine.execLpmQuery a record s
  | .parityScrub t die found => Sys2Proof.Machine.execParityScrub t die found s
  | .filterRebuild t die family index => Sys2Proof.Machine.execFilterRebuild t die family index s
  | .fiberMode a fiber value => Sys2Proof.Machine.execFiberMode a fiber value s
  | .narrowEn a port value => Sys2Proof.Machine.execNarrowEn a port value s
  | .berMeasure t port ber corrected uncorrected => Sys2Proof.Machine.execBerMeasure t port ber corrected uncorrected s
  | .laserPoll t laser answers present on alarm powers tones => Sys2Proof.Machine.execLaserPoll t laser answers present on alarm powers tones s
  | .laserEnable a laser value => Sys2Proof.Machine.execLaserEnable a laser value s
  | .lmInt t bus reads => Sys2Proof.Machine.execLmInt t bus reads s
  | .lmBusStuck t bus low => Sys2Proof.Machine.execLmBusStuck t bus low s
  | .lmBusRetry t bus found => Sys2Proof.Machine.execLmBusRetry t bus found s
  | .lightPresent t ring => Sys2Proof.Machine.execLightPresent t ring s
  | .lightLost t ring => Sys2Proof.Machine.execLightLost t ring s
  | .sweepDone t ring found => Sys2Proof.Machine.execSweepDone t ring found s
  | .pilotWindow t ring tone heater => Sys2Proof.Machine.execPilotWindow t ring tone heater s
  | .identifyTimeout t ring => Sys2Proof.Machine.execIdentifyTimeout t ring s
  | .ringLockLost t ring => Sys2Proof.Machine.execRingLockLost t ring s
  | .ringRetry a ring => Sys2Proof.Machine.execRingRetry a ring s
  | .calSlotStart t => Sys2Proof.Machine.execCalSlotStart t s
  | .narrowDeadline t port => Sys2Proof.Machine.execNarrowDeadline t port s
  | .calDone t chan txCode txTone rxCode rxTone => Sys2Proof.Machine.execCalDone t chan txCode txTone rxCode rxTone s
  | .narrowReturn t port => Sys2Proof.Machine.execNarrowReturn t port s
  | .monitorRead t engine readings => Sys2Proof.Machine.execMonitorRead t engine readings s
  | .bypassCreate a record => Sys2Proof.Machine.execBypassCreate a record s
  | .bypassDelete a record => Sys2Proof.Machine.execBypassDelete a record s
  | .bypassLossMeasure t circuit loss => Sys2Proof.Machine.execBypassLossMeasure t circuit loss s
  | .engineDiscovery t engine record sideband => Sys2Proof.Machine.execEngineDiscovery t engine record sideband s
  | .moduleTrained t module rate width upper repairs => Sys2Proof.Machine.execModuleTrained t module rate width upper repairs s
  | .moduleTrainTimeout t module => Sys2Proof.Machine.execModuleTrainTimeout t module s
  | .failedLane t module replays => Sys2Proof.Machine.execFailedLane t module replays s
  | .moduleRetrain a module => Sys2Proof.Machine.execModuleRetrain a module s
  | .widthExchange t module reset widthS widthE => Sys2Proof.Machine.execWidthExchange t module reset widthS widthE s
  | .stitchNak t pair ch flits => Sys2Proof.Machine.execStitchNak t pair ch flits s
  | .channelTestStart t pair ch => Sys2Proof.Machine.execChannelTestStart t pair ch s
  | .channelTestDone t pair ch wires => Sys2Proof.Machine.execChannelTestDone t pair ch wires s
  | .ringEntryWait t quire => Sys2Proof.Machine.execRingEntryWait t quire s
  | .timeSync t => Sys2Proof.Machine.execTimeSync t s
  | .timeFrameSend t port => Sys2Proof.Machine.execTimeFrameSend t port s
  | .timeFrameReceive t port body => Sys2Proof.Machine.execTimeFrameReceive t port body s
  | .ptpMessage t port m => Sys2Proof.Machine.execPtpMessage t port m s
  | .parentTimeout t => Sys2Proof.Machine.execParentTimeout t s
  | .stepArm a value => Sys2Proof.Machine.execStepArm a value s
  | .groupSyncEmit t => Sys2Proof.Machine.execGroupSyncEmit t s
  | .groupSyncWord t word => Sys2Proof.Machine.execGroupSyncWord t word s
  | .trefInLost t => Sys2Proof.Machine.execTrefInLost t s
  | .tpoConfig a output record => Sys2Proof.Machine.execTpoConfig a output record s
  | .tpoEdge t output => Sys2Proof.Machine.execTpoEdge t output s
  | .tcapEdge t input falling => Sys2Proof.Machine.execTcapEdge t input falling s
  | .tcapPop a input => Sys2Proof.Machine.execTcapPop a input s
  | .healthFlitAbsent t die => Sys2Proof.Machine.execHealthFlitAbsent t die s
  | .healthFlitFatal t die => Sys2Proof.Machine.execHealthFlitFatal t die s
  | .migrationDone t slot => Sys2Proof.Machine.execMigrationDone t slot s
  | .hsBeatSend t => Sys2Proof.Machine.execHsBeatSend t s
  | .hsBeat t p body => Sys2Proof.Machine.execHsBeat t p body s
  | .peerLost t gei => Sys2Proof.Machine.execPeerLost t gei s
  | .exchangeHsetVer t p body => Sys2Proof.Machine.execExchangeHsetVer t p body s
  | .keeperTakeover t fatal => Sys2Proof.Machine.execKeeperTakeover t fatal s
  | .keeperSwitch a value => Sys2Proof.Machine.execKeeperSwitch a value s
  | .keeperRejoin a value => Sys2Proof.Machine.execKeeperRejoin a value s
  | .keeperRejoined t => Sys2Proof.Machine.execKeeperRejoined t s
  | .parityCreate a record => Sys2Proof.Machine.execParityCreate a record s
  | .parityDelete a record => Sys2Proof.Machine.execParityDelete a record s
  | .parityQuery a record => Sys2Proof.Machine.execParityQuery a record s
  | .parityDone t p body => Sys2Proof.Machine.execParityDone t p body s
  | .parityCommitted t p body => Sys2Proof.Machine.execParityCommitted t p body s
  | .parityAborted t p body => Sys2Proof.Machine.execParityAborted t p body s
  | .parityWaitExpiry t job group => Sys2Proof.Machine.execParityWaitExpiry t job group s
  | .rebuildStart a record versions halted => Sys2Proof.Machine.execRebuildStart a record versions halted s
  | .rebuildDone t failed version layout => Sys2Proof.Machine.execRebuildDone t failed version layout s
  | .coarseFill a record => Sys2Proof.Machine.execCoarseFill a record s
  | .jobStart a record => Sys2Proof.Machine.execJobStart a record s
  | .jobRetire a record => Sys2Proof.Machine.execJobRetire a record s
  | .jobAdvance a record => Sys2Proof.Machine.execJobAdvance a record s
  | .jobWithdraw a tag => Sys2Proof.Machine.execJobWithdraw a tag s
  | .jobQuery a record => Sys2Proof.Machine.execJobQuery a record s
  | .jobQuota a record => Sys2Proof.Machine.execJobQuota a record s
  | .pendingLimitExpiry t tag => Sys2Proof.Machine.execPendingLimitExpiry t tag s
  | .jobRetired t tag => Sys2Proof.Machine.execJobRetired t tag s
  | .retireSlow t tag => Sys2Proof.Machine.execRetireSlow t tag s
  | .quarantineEnd t tag => Sys2Proof.Machine.execQuarantineEnd t tag s
  | .spawnOpen a record => Sys2Proof.Machine.execSpawnOpen a record s
  | .spawnClose a record => Sys2Proof.Machine.execSpawnClose a record s
  | .spawnQuery a record => Sys2Proof.Machine.execSpawnQuery a record s
  | .spawnBlock t f body => Sys2Proof.Machine.execSpawnBlock t f body s
  | .spawnRangeReq t f body => Sys2Proof.Machine.execSpawnRangeReq t f body s
  | .spawnAck t f body => Sys2Proof.Machine.execSpawnAck t f body s
  | .spawnReparent t f body => Sys2Proof.Machine.execSpawnReparent t f body s
  | .spawnAdopted t f body => Sys2Proof.Machine.execSpawnAdopted t f body s
  | .spawnNack t f body => Sys2Proof.Machine.execSpawnNack t f body s
  | .spawnGapTimer t job session => Sys2Proof.Machine.execSpawnGapTimer t job session s
  | .counterValue a el value => Sys2Proof.Machine.execCounterValue a el value s
  | .counterSelect a el record => Sys2Proof.Machine.execCounterSelect a el record s
  | .counterWrap t el amount => Sys2Proof.Machine.execCounterWrap t el amount s
  | .snapshotInstant t written => Sys2Proof.Machine.execSnapshotInstant t written s
  | .sampler a el record => Sys2Proof.Machine.execSampler a el record s
  | .sampleTaken t kind source buffered record => Sys2Proof.Machine.execSampleTaken t kind source buffered record s
  | .powerOn t => Sys2Proof.Machine.execPowerOn t s
  | .vaonLost t => Sys2Proof.Machine.execVaonLost t s
  | .resetNAssert t => Sys2Proof.Machine.execResetNAssert t s
  | .resetNRelease t straps => Sys2Proof.Machine.execResetNRelease t straps s
  | .resetDevice a value => Sys2Proof.Machine.execResetDevice a value s
  | .startupStepDone t verified differs dies arrays walk walkUs badStacks => Sys2Proof.Machine.execStartupStepDone t verified differs dies arrays walk walkUs badStacks s
  | .startupRetry t => Sys2Proof.Machine.execStartupRetry t s
  | .dieReset a die => Sys2Proof.Machine.execDieReset a die s
  | .dieResetDone t die maps => Sys2Proof.Machine.execDieResetDone t die maps s
  | .vinWarningEnter t vin => Sys2Proof.Machine.execVinWarningEnter t vin s
  | .vinWarningExit t vin => Sys2Proof.Machine.execVinWarningExit t vin s
  | .vinResetEnter t => Sys2Proof.Machine.execVinResetEnter t s
  | .vinResetExit t => Sys2Proof.Machine.execVinResetExit t s
  | .powerMeasure t vin vaon vio power classes => Sys2Proof.Machine.execPowerMeasure t vin vaon vio power classes s
  | .regulatorFault t die left carries => Sys2Proof.Machine.execRegulatorFault t die left carries s
  | .refclkFailover t input => Sys2Proof.Machine.execRefclkFailover t input s
  | .refclkHoldExpiry t => Sys2Proof.Machine.execRefclkHoldExpiry t s
  | .refclkSel a value => Sys2Proof.Machine.execRefclkSel a value s
  | .switchClockIdle t die => Sys2Proof.Machine.execSwitchClockIdle t die s
  | .keeperCoreIdle t => Sys2Proof.Machine.execKeeperCoreIdle t s
  | .tempSample t dies base photonic comp => Sys2Proof.Machine.execTempSample t dies base photonic comp s
  | .jtagInstruction t instr data pins => Sys2Proof.Machine.execJtagInstruction t instr data pins s
  | .groupWordMissing t => Sys2Proof.Machine.execGroupWordMissing t s
  | .linkFaultCleared t port => Sys2Proof.Machine.execLinkFaultCleared t port s
  | .refclkRestored t input => Sys2Proof.Machine.execRefclkRestored t input s
  | .dieRecoverableFault t die => Sys2Proof.Machine.execDieRecoverableFault t die s
  | .mgmtPortLinkChange t port up => Sys2Proof.Machine.execMgmtPortLinkChange t port up s
  | .ptpMessageSend t port kind => Sys2Proof.Machine.execPtpMessageSend t port kind s
  | .vioRangeChange t inside => Sys2Proof.Machine.execVioRangeChange t inside s

end Sys2Proof.Machine
end

