-- ==== Sys2Proof/Machine/Flags.lean ====
section
/-!
DEFINITION. The levels of the status pins that the device drives (spec/17 R485, spec/20 R557, R559, R561, R564).
-/
namespace Sys2Proof.Machine

/-- A pin's level: driven low, driven high, or at high impedance. -/
inductive Level where
  | low
  | high
  | highZ
  deriving DecidableEq, Repr

/-- READY: high while DEVICE_STATE is READY or BRACE, low otherwise (R561); it lies in the VAON domain. -/
def State.readyPin (s : State) : Level :=
  if s.rd E.deviceState 0 = 2 ∨ s.rd E.deviceState 0 = 3 then .high else .low

/-- THERMTRIP_N, open drain: low once a sensor has reached the trip temperature (R561). -/
def State.thermtripPin (s : State) : Level := if s.power.trip then .low else .highZ

/-- SMBALERT#, open drain: low while an Error notice has been raised since the last STATUS read, with VIO in range (R485,
R557). -/
def State.smbalertPin (s : State) : Level := if s.power.vio ∧ s.mgmt.smbAlert = true then .low else .highZ

/-- TREF_OUT swings, at 156.25 MHz from the time clock, only while GROUP_ROLE is LEADER; otherwise it is held at its common-mode
level (R404, R559); its pins have no supply while VIO is out of range (spec/19 Table 1). -/
def State.trefSwings (s : State) : Bool := s.power.vio && decide (s.rd E.groupRole 0 = 1)

/-- An output of the VIO domain may drive: VIO is in range and no TAP instruction holds the pins (R557, R564). -/
def State.vioDrives (s : State) : Bool := s.power.vio && decide (s.power.tap < 3)

end Sys2Proof.Machine
end

