-- ==== Sys2Proof/Safety.lean ====
section
/-!
DEFINITION. The terms the statements use: a safe run, the checks a dictionary access passes and the state it takes effect in, a
request's bytes as its sender lays them out, and the order that the tables of a state keep.
-/
namespace Sys2Proof

/-- A machine runs `k` steps without a fault or a refusal. -/
def SafeFor : Nat → Machine.State → Prop
  | 0, _ => True
  | k + 1, s => ∃ t, Machine.step s = .next t ∧ SafeFor k t

namespace Machine

/-! ### Dictionary accesses -/

/-- A write of one element, in a message of its own, passes every check of R478 but its entry's own rule: the entry exists, the
request's rights and job reach it, it may be written now, the element exists, the data has its length and the value lies in
the entry's range. -/
def State.Takes (s : State) (a : Access) (e el len val : Nat) (own : Bool) : Prop :=
  s.mgmt.pass = .alone ∧ s.itemStatus a e el (countOf e) len true own = stOk ∧ rangeStatus e val = stOk

/-- A read of one element passes the checks of R478. -/
def State.Gives (s : State) (a : Access) (e el : Nat) (own : Bool) : Prop :=
  s.itemStatus a e el (countOf e) 0 false own = stOk

/-- The state a write takes effect in: its commit has happened (R475, R476). -/
def State.commitAt (s : State) (a : Access) : State := (s.begin a.t).committed a.t

/-- The item answered with a status of Table 4. -/
def State.answerItem (s : State) (status : Nat) : State := s.emit (.item status 0)

/-- A PEER frame of a subtype passes R488: its MAC verifies under the fabric key, and it carries no job. -/
def State.PeerTaken (s : State) (p : Peer) (sub : Nat) (body : List Byte) : Prop :=
  s.macOk (mgmtHeader 3 sub (body.length + 16) ++ body) p.mac.toNat = true ∧ p.job = 0

/-- A control frame of a kind from a member, accepted by R74, R80 and R573: its form is right, its operation is held in context
`c`, its sender has rank `k`, its instance is the open one or the next and has not ended, and the instance's version of the
home set has this device. -/
def State.FromMember (s : State) (f : Cf) (kind v c : Nat) (x : Ctx) (k : Nat) : Prop :=
  bits v 251 248 = kind ∧ ctlFormOk f.job v [] = true ∧ s.ctxOf (bits v 247 216) = some c ∧ s.coll.ctxs.get? c = some x ∧
    x.reg.rankOf f.src = some k ∧ (x.stands (bits v 215 208) = .isOpen ∨ x.stands (bits v 215 208) = .next) ∧
    (∀ i, findInst x.insts (bits v 215 208) = some i → i.state = .opened) ∧ s.leftAt x (bits v 215 208) = none

/-- An instance `i` kept in context `c`, whose record is `x`, for an operation and an instance number. -/
def State.HoldsInst (s : State) (op inst c : Nat) (x : Ctx) (i : Inst) : Prop :=
  s.ctxOf op = some c ∧ s.coll.ctxs.get? c = some x ∧ findInst x.insts inst = some i

/-- A BYPASS message of a kind about a chunk `k` held here, from the other home of the chunk (R488): its instance is open or,
at the h1 that a message other than RESTART goes to, has completed (R128). -/
def State.FromOtherHome (s : State) (p : Peer) (body : List Byte) (kind c : Nat) (x : Ctx) (i : Inst) (k : Chunk) : Prop :=
  field body 0 1 = kind ∧ s.PeerTaken p 10 body ∧ body.length = 16 ∧ s.HoldsInst (field body 4 4) (field body 8 1) c x i ∧
    (i.state = .opened ∨ (kind ≠ 3 ∧ i.state = .completed)) ∧ i.chunks.find? (fun (y : Chunk) => y.chunk == field body 12 4 &&
      (if kind = 3 then y.bypassIn && y.h1 == p.src else y.state == .bypassOut && y.h2 == p.src)) = some k

/-- The state in which a stack serves a transfer at a block (R227-R229, R238): its turn has come, it and its retries have been
counted, and the upsets of the stored code word are there. -/
def State.AtStack (s : State) (t : Time) (h b retries : Nat) (e : BitVec 544) (wait : List Nat) (x : Holds) (v : State) : Prop :=
  ∃ w, (s.begin t).serve h (holdsClass (s.holdsAt h b x)) wait = some w ∧
    v = ((if retries = 0 then w.transferred h (holdsClass (s.holdsAt h b x))
      else (w.transferred h (holdsClass (s.holdsAt h b x))).bump E.interfaceRetries h 1)).upset h b e

/-- A query's entry holds its record: while it does, a read of the entry gives the answer of that moment (R77, R475). -/
def State.Answers (u : State) (e : Nat) (ans : State → Nat) : Prop := ∀ w : State, w.rd e 0 = u.rd e 0 → w.view e 0 = ans w

/-! ### What a statement says of tables -/

/-- The dictionary's elements, the jobs and the spawn sessions are each listed once, in rising order. -/
def State.Rising (s : State) : Prop :=
  Tab.wf s.regs = true ∧ Tab.wf s.jobs = true ∧ Tab.wf s.spawns = true

/-- Every element of the dictionary but those listed reads alike in two states. -/
def SameBut (l : List (Nat × Nat)) (s t : State) : Prop :=
  ∀ e el, elKey e el ∉ l.map (fun x => elKey x.1 x.2) → t.rd e el = s.rd e el

/-! ### A request as its sender lays it out -/

/-- An item that Table 6 allows: a header of 12 bytes, and data only with a write, as long as DATA_LEN says. -/
def ReqItem.Formed (x : ReqItem) : Prop :=
  x.head < 2 ^ 96 ∧ x.data.length = if x.op = 2 then x.len else 0

/-- An item's bytes: its header, its data, and the padding to a multiple of 4 (R480). -/
def ReqItem.bytes (x : ReqItem) : List Byte :=
  toBytes 12 x.head ++ x.data ++ List.replicate (padding x.data.length) 0

/-- The bytes of a list of items. -/
def itemBytes (l : List ReqItem) : List Byte := l.flatMap ReqItem.bytes

/-- A request message: the header of Table 5, the items and, for a key slot, its MAC (R479). -/
def requestBytes (slot txn : Nat) (retry : Bool) (l : List ReqItem) (mac : List Byte) : List Byte :=
  let n := 16 + (itemBytes l).length + mac.length
  toBytes 16 (pack [(4, 1), (4, 1), (8, 0), (16, slot), (32, txn), (1, b2n retry), (7, 0), (8, l.length), (16, n), (16, 0), (8, 0), (8, 0)])
    ++ itemBytes l ++ mac

end Machine

end Sys2Proof
end

