-- ==== Sys2Proof/Certificates/Slice0/Obligations.lean ====
section
/-!
DEFINITION. The statements for the provers: the machine and its queue first, then the commands of each part of the spec, then
the notices and the dictionary.
-/

open Sys2Proof Sys2Proof.Machine

/-- A step takes the command at the front of the queue and runs it with the queue's rest; on an empty queue the block idles, which
is the model's choice (log 4). -/
def Obligations.StepTakesFront : Prop :=
  (∀ (s : State) (c : Instr) (rest : List Instr), s.pending = c :: rest → step s = exec c { s with pending := rest }) ∧
  (∀ s : State, s.pending = [] → step s = .next s)

/-- No command stops the block: every command on every state answers a next state. -/
def Obligations.NoCommandStops : Prop :=
  ∀ (c : Instr) (s : State), ∃ t, exec c s = .next t

/-- At reset the tables of the state are in rising order, nothing waits and no free value has been taken. -/
def Obligations.ResetRising : Prop :=
  State.reset.Rising ∧ State.reset.pending = [] ∧ State.reset.fresh = 0

/-- Every step keeps the dictionary's elements, the jobs and the spawn sessions each listed once, in rising order. The form of the
tables is the model's (log 16). -/
def Obligations.StepKeepsRising : Prop :=
  ∀ s t : State, s.Rising → step s = .next t → t.Rising

/-- A step takes exactly one command from the queue, adds none, and uses no free value again. The queue and the counter of free
values are the model's own (logs 1 and 4). -/
def Obligations.StepTakesOne : Prop :=
  ∀ (s t : State) (c : Instr) (rest : List Instr), s.pending = c :: rest → step s = .next t →
    t.pending = rest ∧ s.fresh ≤ t.fresh

/-- A request message that its sender lays out by Tables 5 and 6 is read as the items it was made of, whatever its key slot, TXN,
items, data and MAC. -/
def Obligations.RequestReadsBack : Prop :=
  ∀ (limit slot txn : Nat) (retry : Bool) (l : List ReqItem) (mac : List Byte),
    slot < 2 ^ 16 → mac.length = macLen slot → 1 ≤ l.length → l.length ≤ 64 → (∀ x ∈ l, x.Formed) →
    16 + (itemBytes l).length + mac.length ≤ limit → limit < 2 ^ 16 →
    requestItems limit (requestBytes slot txn retry l mac) = some l

/-- An accepted request of UDP, of a DICT REQUEST frame, of the mailbox or of SMBus is counted and waits behind those that wait,
with its path and its key slot as it then is. A request under a key whose MAC fails, whose transaction was executed before, or
that finds 256 waiting is not executed: it does not wait, and the element of DAP_COUNTS for its reason counts it.
MESSAGE_EXECUTE takes the next waiting message out and runs it: its items are executed under the key it was judged by, its
response is kept under its transaction and goes back the way it came. What DAP_COUNTS counts and when a transaction is judged
are the model's reading (logs 172 and 173). -/
def Obligations.RequestMessages : Prop :=
  (∀ (t : Time) (port addr udpPort : Nat) (b : List Byte) (s : State),
    let slot := bits (field b 0 16) 111 96
    s.netServed = true → requestHead b = true → slot < 16 → 32 ≤ b.length → s.dapMacOk slot b = true →
    (requestItems 9000 b).isSome = true → ((s.txn slot).held (bits (field b 0 16) 95 64)).isSome = false →
    (s.txn slot).fresh (bits (field b 0 16) 95 64) = true → s.mgmt.waiting.length < 256 →
    exec (.dapRequest t port addr udpPort b) s
      = .next (((s.begin t).keeperWork.bump E.dapCounts 0 1).queueRequest (.udp port addr udpPort) (.dap slot) b)) ∧
  (∀ (t : Time) (src job gen : Nat) (b : List Byte) (s : State),
    s.inbandServed = true → requestHead b = true → bits (field b 0 16) 111 96 = 0xFFFF → s.leaderRequest src job gen = true →
    (requestItems 4560 b).isSome = true → s.mgmt.waiting.length < 256 →
    exec (.dictInbandRequest t src job gen b) s
      = .next (((s.begin t).keeperWork.bump E.dapCounts 0 1).queueRequest (.inband src job gen) (.inband job gen src) b)) ∧
  (∀ (t : Time) (b : List Byte) (s : State),
    s.mgmt.mbx ≠ .busy → s.boardServed = true → requestHead b = true → bits (field b 0 16) 111 96 = 0xFFFE →
    (requestItems 9000 b).isSome = true → s.mgmt.waiting.length < 256 →
    ∃ u, exec (.mbxDoorbell t b) s = .next u ∧ u.mgmt.mbx = .busy ∧ u.mgmt.mbxReq = b ∧
      u.mgmt.waiting = s.mgmt.waiting ++ [⟨.pcie, .pcie, none, b⟩]) ∧
  (∀ (t : Time) (n : Nat) (s : State),
    let b := (List.range (n % 65536)).map (fun i => Tab.getD s.mgmt.smbReq i 0)
    s.smbusServed = true → s.mgmt.smb ≠ .busy → requestHead b = true → bits (field b 0 16) 111 96 = 0xFFFE →
    (requestItems 1024 b).isSome = true → s.mgmt.waiting.length < 256 →
    ∃ u, exec (.smbusExecute t true n) s = .next u ∧ u.mgmt.smb = .busy ∧
      u.mgmt.waiting = s.mgmt.waiting ++ [⟨.smbus, .smbus, none, b⟩]) ∧
  (∀ (t : Time) (port addr udpPort : Nat) (b : List Byte) (s : State) (u : State),
     let slot := bits (field b 0 16) 111 96
     let txn := bits (field b 0 16) 95 64
     s.netServed = true → requestHead b = true → slot < 16 → 32 ≤ b.length → (requestItems 9000 b).isSome = true →
     exec (.dapRequest t port addr udpPort b) s = .next u →
     ((s.dapMacOk slot b = false → u.mgmt.waiting = s.mgmt.waiting ∧ u.rd E.dapCounts 2 = (s.rd E.dapCounts 2 + 1) % 2 ^ 64) ∧
      (s.dapMacOk slot b = true → bit (field b 0 16) 63 = false → (s.txn slot).fresh txn = false →
         u.mgmt.waiting = s.mgmt.waiting ∧ u.rd E.dapCounts 3 = (s.rd E.dapCounts 3 + 1) % 2 ^ 64) ∧
      (s.dapMacOk slot b = true → bit (field b 0 16) 63 = false → (s.txn slot).fresh txn = true → 256 ≤ s.mgmt.waiting.length →
         u.mgmt.waiting = s.mgmt.waiting ∧ u.rd E.dapCounts 4 = (s.rd E.dapCounts 4 + 1) % 2 ^ 64))) ∧
  (∀ (t : Time) (versions halted : Bool) (m : WaitMsg) (l : List ReqItem) (content : List Byte) (s w : State),
     let h := field m.bytes 0 16
     let slot := bits h 111 96
     let key := match m.judged with
       | some k => k.key
       | none => 0
     let resp := response key slot stOk (bits h 95 64) l.length content
     s.mgmt.waiting[nextMessage s.mgmt.waiting]? = some m → requestItems m.origin.limit m.bytes = some l →
     (slot < 16 → (s.txn slot).fresh (bits h 95 64) = true ∧ ((s.txn slot).held (bits h 95 64)) = none) →
     ({ s.begin t with mgmt := { s.mgmt with waiting := s.mgmt.waiting.eraseIdx (nextMessage s.mgmt.waiting), judged := m.judged } }).execItems
       ⟨t, m.path⟩ l ⟨versions, halted⟩ (m.origin.limit - 16 - macLen slot) = (content, w) →
     w.rd E.deviceState 0 ≠ 0 →
     exec (.messageExecute t versions halted) s
       = .next (((({ w with mgmt := { w.mgmt with judged := none } }).keepResponse slot (bits h 95 64) l resp).countFixed
           (8 * (18 + w.keeper)) 1).answer m.origin resp))

/-- The mailbox and the SMBus target: what each register does, and nothing else. The operand of MBX_DOORBELL and the limits of
SMBus fragments are the model's choice (logs 167, 174 and 175). -/
def Obligations.BoardPaths : Prop :=
  (∀ (t : Time) (s : State), s.mgmt.mbx = .done →
    exec (.mbxClear t) s = .next { s.begin t with mgmt := { s.mgmt with mbx := .idle } }) ∧
  (∀ (t : Time) (b : List Byte) (s : State), s.mgmt.mbx = .busy → exec (.mbxDoorbell t b) s = .next (s.begin t)) ∧
  (∀ (t : Time) (s : State), s.smbusServed = true →
    exec (.smbusStatus t) s = .next ({ s.begin t with
      mgmt := { s.mgmt with smbAlert := false, smbSev := 0 }, out := [.smbus s.statusBlock] })) ∧
  (∀ (t : Time) (offset : Nat) (b : List Byte) (s : State), s.smbusServed = true → s.mgmt.smb ≠ .busy → b.length ≤ 253 →
    ∃ u, exec (.smbusRequestFragment t true offset b) s = .next u ∧
      u = { s.begin t with mgmt := { s.mgmt with smbReq := u.mgmt.smbReq } } ∧
      ∀ i, Tab.get? u.mgmt.smbReq i
        = if i < 1024 ∧ offset ≤ i ∧ i < offset + b.length then b[i - offset]? else Tab.get? s.mgmt.smbReq i) ∧
  (∀ (t : Time) (s : State), s.smbusServed = true →
    exec (.smbusStateRead t) s = .next { s.begin t with out := [.smbus [match s.mgmt.smb with
      | .idle => 0
      | .busy => 1
      | .done => 2]] }) ∧
  (∀ (t : Time) (offset : Nat) (s : State), s.smbusServed = true → offset < 65536 →
    exec (.smbusResponseOffset t true offset) s = .next { s.begin t with mgmt := { s.mgmt with smbOffset := offset } }) ∧
  (∀ (t : Time) (s : State), s.smbusServed = true →
    exec (.smbusResponseRead t) s
      = .next { s.begin t with out := [.smbus ((s.mgmt.smbResp.drop s.mgmt.smbOffset).take 255)] }) ∧
  (∀ (t : Time) (offset n : Nat) (b : List Byte) (s : State), s.smbusServed = true →
    exec (.smbusRequestFragment t false offset b) s = .next (s.begin t) ∧
    exec (.smbusExecute t false n) s = .next (s.begin t) ∧ exec (.smbusResponseOffset t false offset) s = .next (s.begin t))

/-- A notice offered to a queue: an enabled queue whose least severity it meets and whose mask holds its row takes it at its end
under the queue's next SEQ, or, full, discards it and counts it in NQ_LOST; any other queue is untouched. A notice limited to
one per interval: an occurrence inside the interval of its last record forms none and is counted as withheld; any other is
formed and is the last from then on. -/
def Obligations.NoticesReachTheirQueues : Prop :=
  (∀ (q code sev record : Nat) (s : State),
     let cfg := s.rd E.nqConfig q
     let takes := bit cfg 255 = true ∧ bits cfg 251 250 ≤ sev ∧ bit (bits cfg 247 230) (noticeRow code) = true
     let u := s.offer q code sev record
     (¬takes → u = s) ∧
     (takes → (s.nq q).records.length < 4096 →
       (u.nq q).records = (s.nq q).records ++ [⟨s.now, BitVec.ofNat 256 (record + (s.nq q).seq % 65536 * 2 ^ 130)⟩] ∧
       (u.nq q).seq = ((s.nq q).seq + 1) % 65536 ∧ u.regs = s.regs) ∧
     (takes → 4096 ≤ (s.nq q).records.length →
       (u.nq q).records = (s.nq q).records ∧ u.rd E.nqLost q = (s.rd E.nqLost q + 1) % 2 ^ 64) ∧
     (∀ p, p ≠ q → u.nq p = s.nq p)) ∧
  (∀ (interval key code sev src : Nat) (ctx : List Item) (s : State),
     let inside := ∃ x, lastOf s.mgmt.limits code key = some x ∧ s.now < x + interval
     (inside → s.raiseLim interval key code sev src ctx
       = { s with mgmt := { s.mgmt with
           withheld := setWithheld s.mgmt.withheld code src (withheldOf s.mgmt.withheld code src + 1) } }) ∧
     (¬inside → ∃ w : State, s.raiseLim interval key code sev src ctx = w.raise code sev src ctx ∧
       w = { s with mgmt := w.mgmt } ∧ lastOf w.mgmt.limits code key = some s.now ∧ w.mgmt.queues = s.mgmt.queues))

/-- The queues' own commands: NQ_POP returns the oldest record of a POLL queue and removes it, zeros where there is none;
NQ_CONFIG sets and empties a queue; an acknowledgement removes what it covers; records are pushed when BATCH wait or the
oldest has waited 100 µs, and go again 1 ms after they were last sent. Zeros from a queue that is not POLL and the ports of a
push are the model's choice (log 150). -/
def Obligations.QueueCommands : Prop :=
  (∀ (a : Access) (q : Nat) (r : Queued) (l : List Queued) (s : State), s.Gives a E.nqPop q true → s.nqSink q = 0 →
    (s.nq q).records = r :: l → (s.nq q).loss = none →
    exec (.nqPop a q) s = .next ({ (s.begin a.t).setNq q { s.nq q with records := l, pushed := (s.nq q).pushed - 1 } with
      out := [.item stOk r.record.toNat] })) ∧
  (∀ (a : Access) (q : Nat) (s : State), s.Gives a E.nqPop q true → s.nqSink q = 0 → (s.nq q).records = [] → (s.nq q).loss = none →
    ∃ u, exec (.nqPop a q) s = .next u ∧ u.out = [.item stOk 0] ∧ (u.nq q).records = []) ∧
  (∀ (a : Access) (q : Nat) (v : BitVec 256) (s : State), s.Takes a E.nqConfig q 32 0 true → nqRule v.toNat (s.begin a.t) = .ok →
    (s.nq q).loss = none →
    ∃ u, exec (.nqConfig a q v) s = .next u ∧ u.rd E.nqConfig q = nqMask v.toNat ∧ (u.nq q).records = [] ∧
      (u.nq q).seq = (s.nq q).seq ∧ u.out = [.item stOk 0] ∧ ∀ p, p ≠ q → u.nq p = s.nq p) ∧
  (∀ (t : Time) (q : Nat) (r : Queued) (l : List Queued) (s : State), s.pushes q = true → (s.nq q).records.drop (s.nq q).pushed = r :: l →
    (s.nqBatch q ≤ (r :: l).length ∨ r.entered + 100 * us ≤ t) →
    exec (.noticePush t q) s = .next ((s.begin t).pushQueue q (s.nqBatch q))) ∧
  (∀ (t : Time) (q : Nat) (s : State), s.pushes q = true → 0 < (s.nq q).pushed → (s.nq q).sentAt + ms ≤ t →
    exec (.noticeResend t q) s = .next (((s.begin t).keeperWork.setNq q { s.nq q with sentAt := t }).sendBatches q (s.nq q).pushed
      ((s.nq q).records.take (s.nq q).pushed))) ∧
  (∀ (t : Time) (b : List Byte) (s : State),
    let h := field b 0 16
    let q := bits h 15 8
    s.netServed = true → b.length = 32 → bits h 127 124 = 1 → bits h 123 120 = 4 → bits h 111 96 < 16 → bits h 47 32 = 32 →
    bits h 55 48 = 0 → q < 8 → s.dapMacOk (bits h 111 96) b = true → s.pushes q = true → (s.nq q).loss = none →
    ∃ u, exec (.noticeAck t none b) s = .next u ∧
      (u.nq q).records = (s.nq q).records.drop (ackCount ((s.nq q).records.take (s.nq q).pushed) (bits h 31 16)) ∧
      ∀ p, p ≠ q → u.nq p = s.nq p)

/-- The ring of the PCIe window: the next record is written at NRING_HEAD, which moves on, and a write into an empty ring raises
vector 1; a write of NRING_TAIL acknowledges the records it passes; PERST_N returns the window's registers to reset. The
offset as operand of NRING_TAIL is the model's choice (log 167). -/
def Obligations.RingOfThePciWindow : Prop :=
  (∀ (t : Time) (q : Nat) (r : Queued) (s : State), s.ringQueue = some q → ((s.nq q).records.drop (s.nq q).pushed).head? = some r →
    (s.mgmt.ringHead + 1) % s.mgmt.ringSize ≠ s.mgmt.ringTail % s.mgmt.ringSize →
    ∃ u, exec (.nringWrite t) s = .next u ∧ u.mgmt.ringHead = (s.mgmt.ringHead + 1) % s.mgmt.ringSize ∧
      (u.nq q).pushed = (s.nq q).pushed + 1 ∧ (u.nq q).records = (s.nq q).records ∧ u.regs = s.regs ∧
      u.out = .pcieWrite (s.mgmt.ringBase + 32 * s.mgmt.ringHead) r.record
        :: if s.mgmt.ringHead = s.mgmt.ringTail then [.msix 1] else []) ∧
  (∀ (t : Time) (v q : Nat) (s : State), s.ringQueue = some q → v < 2 ^ 32 → (s.nq q).loss = none →
    let n := min ((v + s.mgmt.ringSize - s.mgmt.ringTail % s.mgmt.ringSize) % s.mgmt.ringSize) (s.nq q).pushed
    ∃ u, exec (.nringTail t 0x110 v) s = .next u ∧ u.mgmt.ringTail = v ∧ (u.nq q).records = (s.nq q).records.drop n ∧
      (u.nq q).pushed = (s.nq q).pushed - n) ∧
  (∀ (t : Time) (s : State), ∃ u, exec (.perstN t) s = .next u ∧ u.mgmt.mbx = .idle ∧ u.mgmt.mbxReq = [] ∧ u.mgmt.mbxResp = [] ∧
    u.mgmt.ringBase = 0 ∧ u.mgmt.ringSize = 0 ∧ u.mgmt.ringHead = 0 ∧ u.mgmt.ringTail = 0 ∧ u.mgmt.ringCtrl = 0 ∧
    u.regs = s.regs ∧ ∀ q, (u.nq q).records = (s.nq q).records)

/-- CONFIG_LOCK: an accepted write of 1 sets the lock, takes the pins back from the TAP and raises CONFIG_LOCKED; from then on a
write of an entry with the right RWL returns LOCKED where no earlier cause of R478 holds. KEY_WRITE sets a slot to its record,
clears the slot's transactions and raises KEY_CHANGED; other slots stay. ENTRY_QUERY answers an entry's type, right and
element count, and nothing of an absent one. -/
def Obligations.ConfigurationLockAndKeys : Prop :=
  (∀ (a : Access) (s : State), s.Takes a E.configLock 0 1 1 true →
    exec (.configLock a 1) s = .next ((({ (s.commitAt a).wr E.configLock 0 1 with
      power := { s.power with tap := if 3 ≤ s.power.tap then 0 else s.power.tap } }).raise 0xF004 0 31 []).answerItem stOk)) ∧
  (∀ (a : Access) (e first count len : Nat) (own : Bool) (r : EntryRow) (s : State),
    entryRow e = some r → r.right = .rwl → s.rd E.configLock 0 = 1 → s.rd E.deviceState 0 ≠ 4 → s.confined a.path = none →
    rightsAllow (s.rightsOf a.path) e true = true → s.itemStatus a e first count len true own = stLocked) ∧
  (∀ (a : Access) (v : Nat) (s : State), s.mgmt.pass = .alone → s.rd E.configLock 0 = 1 → s.rd E.deviceState 0 ≠ 4 →
    s.confined a.path = none → rightsAllow (s.rightsOf a.path) E.configLock true = true →
    exec (.configLock a v) s = .next ((s.begin a.t).answerItem stLocked)) ∧
  (∀ (a : Access) (v : BitVec 384) (s : State), s.Takes a E.keyWrite 0 48 0 true → bits v.toNat 383 376 ≤ 17 →
     ∃ w : State, exec (.keyWrite a v) s = .next ((w.raise 0xF005 0 31 [.v 16 (bits v.toNat 383 376)]).answerItem stOk) ∧
       w = { s.commitAt a with mgmt := w.mgmt } ∧
       w.mgmt.keys.get? (bits v.toNat 383 376) = some ⟨bit v.toNat 375, if 16 ≤ bits v.toNat 383 376 then 0 else bits v.toNat 374 371,
         bits v.toNat 367 352, bits v.toNat 255 0⟩ ∧
       (w.mgmt.txns.get? (bits v.toNat 383 376) = none) ∧
       (∀ k, k ≠ bits v.toNat 383 376 → w.mgmt.keys.get? k = s.mgmt.keys.get? k ∧ w.mgmt.txns.get? k = s.mgmt.txns.get? k)) ∧
  (∀ (a : Access) (v : BitVec 128) (s : State), s.Takes a E.entryQuery 0 16 0 true →
     ∃ u, exec (.entryQuery a v) s = .next u ∧ u.out = [.item stOk 0] ∧
       SameBut [(E.entryQuery, 0), (E.commitLast, 0), (E.domainState, 18 + s.keeper)] s u ∧
       bits (u.rd E.entryQuery 0) 127 104 = bits v.toNat 127 104 ∧
       match entryRow (bits v.toNat 127 104) with
       | none => bits (u.rd E.entryQuery 0) 103 0 = 0
       | some r => bits (u.rd E.entryQuery 0) 103 96 = r.ty.code ∧ bits (u.rd E.entryQuery 0) 95 93 = r.right.code ∧
           bits (u.rd E.entryQuery 0) 87 64 = max 1 r.count % 2 ^ 24)

/-- Firmware: a segment is kept at its offset; FW_COMMIT begins the verification and shows 0xFF; its end reports 0 and sets
BOOT_PREF to the slot not running only for an image of valid form and signature whose security version is at least FW_SVN_MIN,
and the slot then holds it; FW_SVN_COMMIT raises FW_SVN_MIN to the running image's version and never lowers it. The verdict on
an image is an operand (log 154), and a slot that nothing has written holds zeros (log 15). -/
def Obligations.Firmware : Prop :=
  (∀ (a : Access) (d : List Byte) (s : State), s.Takes a E.fwStage 0 d.length 0 true → 1 ≤ field d 4 4 → field d 4 4 ≤ 4096 →
    d.length = 8 + field d 4 4 →
    ∃ u, exec (.fwStage a d) s = .next u ∧ u = { (s.commitAt a).answerItem stOk with mgmt := { s.mgmt with fwStage := u.mgmt.fwStage } } ∧
      ∀ i, Tab.get? u.mgmt.fwStage i = if field d 0 4 ≤ i ∧ i < field d 0 4 + field d 4 4 then (d.drop 8)[i - field d 0 4]?
        else Tab.get? s.mgmt.fwStage i) ∧
  (∀ (a : Access) (n : Nat) (s : State), s.Takes a E.fwCommit 0 4 n true → s.rd E.fwStatus 0 ≠ 0xFF →
    exec (.fwCommit a n) s = .next ({ (s.commitAt a).wr E.fwStatus 0 0xFF with mgmt := { s.mgmt with fwImage := some n } }.answerItem stOk)) ∧
  (∀ (t : Time) (signed : Bool) (svn version n : Nat) (img : List Byte) (s : State), s.mgmt.fwImage = some n →
    s.stagedImage n = some img → signed = true → s.rd E.fwSvnMin 0 ≤ svn →
    let slot := 1 - s.rd E.bootSlot 0
    exec (.fwVerifyDone t true signed svn version) s
      = .next (({ ((s.begin t).wr E.fwStatus 0 0).wr E.bootPref 0 slot with mgmt := { s.mgmt with
          fwImage := none, fwStage := [], fwSlots := s.mgmt.fwSlots.set slot ⟨false, svn, version, sha384 img⟩ } }).raise 0xF006 0 31 [.v 16 slot, .v 32 version])) ∧
  (∀ (t : Time) (shape signed : Bool) (svn version n : Nat) (s : State), s.mgmt.fwImage = some n →
    (shape = false ∨ s.stagedImage n = none ∨ signed = false ∨ svn < s.rd E.fwSvnMin 0) →
    ∃ u, exec (.fwVerifyDone t shape signed svn version) s = .next u ∧ u.mgmt.fwImage = none ∧ u.mgmt.fwSlots = s.mgmt.fwSlots ∧
      u.rd E.bootPref 0 = s.rd E.bootPref 0 ∧
      u.rd E.fwStatus 0 = if shape = false ∨ s.stagedImage n = none then 1 else if signed = false then 2 else 3) ∧
  (∀ (a : Access) (s : State), s.Takes a E.fwSvnCommit 0 1 1 true →
    ∃ u, exec (.fwSvnCommit a 1) s = .next u ∧ u.rd E.fwSvnMin 0 = max (s.rd E.fwSvnMin 0) s.mgmt.running.svn ∧
      SameBut [(E.fwSvnMin, 0), (E.commitLast, 0), (E.domainState, 18 + s.keeper)] s u)

/-- Attestation and the colophon key: the nonce is kept; a report carries it in [1415:1160]; an export request of an epoch up to
the current one is kept, a later epoch is out of range; a report and an export take free values for what their secrets decide.
The epoch after a reset and the free values of secrets are the model's choice (logs 152 and 153). -/
def Obligations.Attestation : Prop :=
  (∀ (a : Access) (v : BitVec 256) (s : State), s.Takes a E.attestNonce 0 32 0 true →
    exec (.attestNonce a v) s = .next ({ s.commitAt a with mgmt := { s.mgmt with nonce := v } }.answerItem stOk)) ∧
  (∀ (a : Access) (s : State), s.Gives a E.attestReport 0 true →
    ∃ v, exec (.attestReportRead a) s = .next { s.begin a.t with fresh := s.fresh + 1, out := [.item stOk v] } ∧
      bits v 1415 1160 = s.mgmt.nonce.toNat ∧ bits v 2047 2040 = 1) ∧
  (∀ (a : Access) (v : BitVec 808) (s : State), s.Takes a E.colophonExportReq 0 101 0 true → bits v.toNat 807 776 ≤ s.rd E.keyEpoch 0 →
    exec (.colophonExportReq a v) s = .next ({ s.commitAt a with mgmt := { s.mgmt with exportReq := some v } }.answerItem stOk)) ∧
  (∀ (a : Access) (v : BitVec 808) (s : State), s.Takes a E.colophonExportReq 0 101 0 true → s.rd E.keyEpoch 0 < bits v.toNat 807 776 →
    exec (.colophonExportReq a v) s = .next ((s.begin a.t).answerItem stRange)) ∧
  (∀ (a : Access) (r : BitVec 808) (s : State), s.Gives a E.colophonExport 0 true → s.mgmt.exportReq = some r →
    ∃ v, exec (.colophonExportRead a) s = .next (({ s.begin a.t with fresh := s.fresh + 2 }.raise 0xF008 0 31
        [.v 32 (bits r.toNat 807 776), .v 16 (slotName a.path)]).emit (.item stOk v)) ∧ bits v 2439 2408 = bits r.toNat 807 776) ∧
  (∀ (a : Access) (s : State), s.Takes a E.keyRotate 0 1 1 true →
    exec (.keyRotate a 1) s = .next (((s.commitAt a).advanceEpoch a.t).answerItem stOk)) ∧
  (∀ (t : Time) (s : State), s.rd E.keyPeriod 0 ≠ 0 → s.mgmt.keyPeriodAt + s.rd E.keyPeriod 0 ≤ t →
    exec (.keyPeriodExpiry t) s = .next ({ s.begin t with mgmt := { s.mgmt with
      keyPeriodAt := s.mgmt.keyPeriodAt + s.rd E.keyPeriod 0 } }.advanceEpoch t)) ∧
  (∀ (t : Time) (s : State), s.mgmt.epochAt ≠ some t →
    ∃ w : State, s.advanceEpoch t = w.raise 0x7C09 0 31 [.v 32 (s.rd E.keyEpoch 0), .v 32 ((s.rd E.keyEpoch 0 + 1) % 2 ^ 32)] ∧
      w.rd E.keyEpoch 0 = (s.rd E.keyEpoch 0 + 1) % 2 ^ 32 ∧ w.mgmt.epochAt = some t)

/-- A PREPARE of each kind whose MAC and form are right, at a device with a GEI: the exchange is held, or was held before, and
answered with a VOTE; what it concerns and what its phases do are its kind's. A PREPARE that is new is answered by its kind's
check, held with that answer, and voted on; RESOURCE is the answer of a device with no quire die in service, or in BRACE to an
exchange that admits something. Which prepares BRACE refuses is the model's choice (log 91). -/
def Obligations.PreparesAreVotedOn : Prop :=
  (∀ (t : Time) (p : Peer) (b : List Byte) (s : State),
     let r := b.drop 9
     s.PeerTaken p 1 b → s.gei ≠ 0 → 9 ≤ b.length →
     (field b 0 1 = 0 → 68 ≤ r.length → r.length = 68 + 8 * field r 8 1 + 4 * field r 7 1 →
       exec (.peerPrepareRegistration t p b) s = .next ((s.begin t).onPrepare (field b 5 3) (field b 1 4) 0 (field r 0 4) r (regPhase (field r 0 4) (r.drop 4) noGei))) ∧
     (field b 0 1 = 1 → r.length = 8 →
       exec (.peerPrepareHsetExclude t p b) s = .next ((s.begin t).onPrepare (field b 5 3) (field b 1 4) 1 (field r 0 4) r (excludePhase (field r 0 4) (field r 5 3)))) ∧
     (field b 0 1 = 2 → r.length = 4 →
       exec (.peerPrepareDeregister t p b) s = .next ((s.begin t).onPrepare (field b 5 3) (field b 1 4) 2 (field r 0 4) r (deregPhase (field r 0 4)))) ∧
     (field b 0 1 = 3 → r.length = 32 →
       exec (.peerPrepareTensorCreate t p b) s = .next ((s.begin t).onPrepare (field b 5 3) (field b 1 4) 3 ((tensorOf (field r 0 32)).handle) r (tensorPhase (field r 0 32)))) ∧
     (field b 0 1 = 4 → r.length = 4 →
       exec (.peerPrepareTensorDestroy t p b) s = .next ((s.begin t).onPrepare (field b 5 3) (field b 1 4) 4 (field r 0 4) r (destroyPhase (field r 0 4)))) ∧
     (field b 0 1 = 5 → 32 ≤ r.length →
       exec (.peerPrepareGraph t p b) s = .next ((s.begin t).onPrepare (field b 5 3) (field b 1 4) 5 ((imageOf r).id) r (graphPhase r))) ∧
     (field b 0 1 = 6 → r.length = 8 → field r 4 4 = 2 →
       exec (.peerPrepareGraphControl t p b) s = .next ((s.begin t).onPrepare (field b 5 3) (field b 1 4) 6 (field r 0 4) r (removePhase (field r 0 4)))) ∧
     (field b 0 1 = 7 → r.length = 8 →
       exec (.peerPrepareSubnormal t p b) s = .next ((s.begin t).onPrepare (field b 5 3) (field b 1 4) 7 (field r 0 4) r (subnormalPhase (field r 0 4) (bit (field r 4 4) 0)))) ∧
     (field b 0 1 = 8 → r.length = 48 →
       exec (.peerPrepareParityGroup t p b) s = .next ((s.begin t).onPrepare (field b 5 3) (field b 1 4) 8 (parityKey (field r 0 2) (field r 2 1)) r (parityPhase (field r 0 48)))) ∧
     (field b 0 1 = 9 → r.length = 4 →
       exec (.peerPrepareParityDelete t p b) s = .next ((s.begin t).onPrepare (field b 5 3) (field b 1 4) 9 (parityKey (field r 0 2) (field r 2 1)) r (parityDropPhase (parityKey (field r 0 2) (field r 2 1)))))) ∧
  (∀ (orig xid kind subject : Nat) (r : List Byte) (ph : Phase) (s : State),
     (s.coll.helds.find? (fun (x : HeldX) => x.orig == orig && x.xid == xid) = none →
       let v := (ph.answer s).1
       let w := (ph.answer s).2
       s.onPrepare orig xid kind subject r ph
         = ({ w with coll := { w.coll with helds := w.coll.helds ++ [(⟨orig, xid, kind, subject, r, v, false⟩ : HeldX)] } }).sendPeer orig 2
             (toBytes 4 xid ++ toBytes 1 v ++ toBytes 3 0)) ∧
     ((s.quires = [] ∨ (ph.grows = true ∧ s.power.brace.isSome = true)) → ph.answer s = (ph.full, s)))

/-- R489: a peer that gives no VOTE within 5 ms counts as not holding, and the exchange ends UNREACHABLE; a VOTE, COMMIT or
RELEASE of an unknown exchange is ignored; a PREPARE already held is answered with its earlier VOTE. That the bound is 5 ms
for every kind is the model's choice (log 100). -/
def Obligations.ExchangeCorners : Prop :=
  (∀ (t : Time) (xid : Nat) (l : Led) (s : State), s.coll.leds.find? (fun (x : Led) => x.xid == xid) = some l → l.since + 5 * ms ≤ t →
    exec (.prepareTimeout t xid) s = .next ((s.begin t).finishLed l)) ∧
  (∀ (l : Led) (ph : Phase) (s : State), l.votes.length < l.devices.length → l.votes.all (fun x => x.2 == 0) = true →
    ∃ w, s.endLed l ph = ph.outcome 0x0B 0 w) ∧
  (∀ (t : Time) (p : Peer) (b : List Byte) (s : State), s.PeerTaken p 2 b → b.length = 8 →
    s.coll.leds.find? (fun (l : Led) => l.xid == field b 0 4) = none → exec (.peerVote t p b) s = .next (s.begin t)) ∧
  (∀ (t : Time) (p : Peer) (b : List Byte) (s : State), b.length = 8 →
    s.coll.helds.find? (fun (x : HeldX) => x.orig == p.src && x.xid == field b 0 4 && !x.ended) = none →
    (s.PeerTaken p 3 b → exec (.peerCommit t p b) s = .next (s.begin t)) ∧
    (s.PeerTaken p 4 b → exec (.peerRelease t p b) s = .next (s.begin t))) ∧
  (∀ (orig xid kind subject : Nat) (r : List Byte) (ph : Phase) (h : HeldX) (s : State),
    s.coll.helds.find? (fun (x : HeldX) => x.orig == orig && x.xid == xid) = some h →
    s.onPrepare orig xid kind subject r ph = s.sendPeer orig 2 (toBytes 4 xid ++ toBytes 1 h.vote ++ toBytes 3 0))

/-- A VOTE of a device that was asked and has not answered is kept; with the last one the exchange ends.  A COMMIT or RELEASE of
an exchange held here ends it, once: where this device had held, by its kind's phase; where it had refused, with no more
effect. The end of an exchange this device leads: where every device holds, it is committed at each and the outcome is 0;
otherwise RELEASE with the outcome's code goes to each of the others and this device releases what it had held, and the
outcome is the code of the lowest GEI that refused, or UNREACHABLE with GEI 0 where none refused (R66). That an exchange ends
when every device has voted is the model's choice (log 100). -/
def Obligations.ExchangeEnds : Prop :=
  (∀ (t : Time) (p : Peer) (b : List Byte) (l : Led) (s : State), s.PeerTaken p 2 b → b.length = 8 →
    s.coll.leds.find? (fun (x : Led) => x.xid == field b 0 4) = some l → l.devices.contains p.src = true →
    l.votes.any (fun x => x.1 == p.src) = false →
    let l' : Led := { l with votes := l.votes ++ [(p.src, field b 4 1)] }
    let w : State := { s.begin t with coll := { s.coll with leds := s.coll.leds.map (fun (x : Led) => if x.xid = l.xid then l' else x) } }
    exec (.peerVote t p b) s = .next (if l.votes.length + 1 = l.devices.length then w.finishLed l' else w)) ∧
  (∀ (t : Time) (p : Peer) (b : List Byte) (h : HeldX) (subject : Nat) (ph : Phase) (s : State), b.length = 8 →
    s.coll.helds.find? (fun (x : HeldX) => x.orig == p.src && x.xid == field b 0 4 && !x.ended) = some h →
    phaseOf h.kind h.record = some (subject, ph) → h.vote = 0 →
    let w : State := { s.begin t with coll := { s.coll with helds := s.coll.helds.map (fun (x : HeldX) =>
      if x.orig = h.orig ∧ x.xid = h.xid then { x with ended := true } else x) } }
    (s.PeerTaken p 3 b → exec (.peerCommit t p b) s = .next (ph.commit w)) ∧
    (s.PeerTaken p 4 b → exec (.peerRelease t p b) s = .next (ph.release w))) ∧
  (∀ (t : Time) (p : Peer) (b : List Byte) (h : HeldX) (subject : Nat) (ph : Phase) (s : State), b.length = 8 →
    s.coll.helds.find? (fun (x : HeldX) => x.orig == p.src && x.xid == field b 0 4 && !x.ended) = some h →
    phaseOf h.kind h.record = some (subject, ph) → h.vote ≠ 0 →
    let w : State := { s.begin t with coll := { s.coll with helds := s.coll.helds.map (fun (x : HeldX) =>
      if x.orig = h.orig ∧ x.xid = h.xid then { x with ended := true } else x) } }
    (s.PeerTaken p 3 b → exec (.peerCommit t p b) s = .next w) ∧
    (s.PeerTaken p 4 b → exec (.peerRelease t p b) s = .next w)) ∧
  (∀ (l : Led) (ph : Phase) (s : State),
     let w : State := { s with coll := { s.coll with leds := s.coll.leds.filter (fun (x : Led) => x.xid != l.xid) } }
     let others := l.devices.filter (fun d => d != s.gei)
     (l.votes.length = l.devices.length → l.votes.all (fun x => x.2 == 0) = true →
       let c := others.foldl (fun (s : State) d => s.sendPeer d 3 (toBytes 4 l.xid ++ toBytes 4 0)) w
       s.endLed l ph = ph.outcome 0 0 (if l.devices.contains s.gei then ph.commit c else c)) ∧
     (∀ gei code, (gei, code) ∈ l.votes → code ≠ 0 → (∀ x ∈ l.votes, x.2 ≠ 0 → gei ≤ x.1 ∧ (x.1 = gei → x.2 = code)) →
       let c := others.foldl (fun (s : State) d => s.sendPeer d 4 (toBytes 4 l.xid ++ toBytes 1 code ++ toBytes 3 0)) w
       s.endLed l ph = ph.outcome code gei (if l.votes.any (fun x => x.1 == s.gei && x.2 == 0) then ph.release c else c)) ∧
     (l.votes.length ≠ l.devices.length → l.votes.all (fun x => x.2 == 0) = true →
       let c := others.foldl (fun (s : State) d => s.sendPeer d 4 (toBytes 4 l.xid ++ toBytes 1 0x0B ++ toBytes 3 0)) w
       s.endLed l ph = ph.outcome 0x0B 0 (if l.votes.any (fun x => x.1 == s.gei && x.2 == 0) then ph.release c else c)))

/-- Registration, its end and exclusion: a record that passes R65 starts the two phases at its home set, and one written here that
fails leaves its code in REG_STATUS; a DEREGISTER or HSET_EXCLUDE that its rule allows starts its own. Where a refused record
leaves its code is the model's choice (log 41). -/
def Obligations.Registrations : Prop :=
  (∀ (a : Access) (b : List Byte) (s : State), s.Takes a E.register 0 b.length 0 true → regRule a b (s.begin a.t) = .ok →
    exec (.register a b) s
      = .next ((((s.commitAt a).wr E.regStatus 0 0xFF).startReg ((s.commitAt a).regOp a b) b noGei).answerItem stOk)) ∧
  (∀ (a : Access) (b : List Byte) (s : State), s.Takes a E.register 0 b.length 0 true → s.regFails (s.regOp a b) b true ≠ 0 →
    let code := s.regFails (s.regOp a b) b true
    exec (.register a b) s = .next ((((s.begin a.t).wr E.regStatus 0 code).reportReg (s.regOp a b) (field b 5 1)
      (((s.begin a.t).wr E.regStatus 0 code).rd E.regStatus 0) s.gei noGei).answerItem stRefused)) ∧
  (∀ (t : Time) (f : Cf) (header : BitVec 256) (b : List Byte) (s : State),
    let op := bits header.toNat 247 232 * 65536 + field b 0 2
    bits header.toNat 251 248 = 0xB → ctlFormOk f.job header.toNat b = true → s.registrar f (bits header.toNat 247 216) = true →
    jobOf op = f.job → s.regFails op b true = 0 →
    exec (.registerFrame t f header b) s = .next ((s.begin t).startReg op b f.src)) ∧
  (∀ (a : Access) (op c : Nat) (s : State), s.Takes a E.deregister 0 4 op true → s.ctxOf op = some c →
    exec (.deregister a op) s = .next ((((s.commitAt a).wr E.deregStatus 0 0xFF).startLed 2 op (toBytes 4 op)
      ((s.commitAt a).hsetOf op) noGei (deregPhase op)).answerItem stOk)) ∧
  (∀ (a : Access) (v : BitVec 64) (s : State), s.Takes a E.hsetExclude 0 8 0 true → excludeRule v.toNat (s.begin a.t) = .ok →
    let op := bits v.toNat 63 32
    let gei := bits v.toNat 23 0
    exec (.hsetExclude a v) s = .next ((((s.commitAt a).wr E.hsetStatus 0 0xFF).startLed 1 op (toBytes 8 v.toNat)
      (((s.commitAt a).hsetOf op).filter (fun d => !(d == gei && (s.commitAt a).anyLost [d]))) noGei (excludePhase op gei)).answerItem stOk))

/-- A contribution of an open instance that meets no cause of Table 9, to the die that holds its chunk, is tested against the
chunk's cover map there; one that crosses the quire ring arrives in its turn. At the die that holds a chunk (R82, R85, R86): a
frame covered before is dropped and counted, one that overlaps what is covered is refused with OVERLAP and restarts the chunk,
any other is converted and applied. The order of the causes of Table 9 is the model's reading (log 30). -/
def Obligations.ContributionsReachTheirChunk : Prop :=
  (∀ (t : Time) (f : Cf) (header : BitVec 384) (payload : List Byte) (c : Nat) (x : Ctx) (i : Inst) (k : Chunk) (s : State),
    let v := header.toNat
    let h := chOf v
    bits v 379 376 = 1 → chunkFormOk f.job v payload = true → s.HoldsInst h.op h.inst c x i → i.state = .opened →
    (x.stands h.inst = .isOpen ∨ x.stands h.inst = .next) → s.cause x i (x.stands h.inst) f h (checkOk f.src v payload) = none →
    ((homes x.reg.op h.phase h.chunk (x.hsetAt i.ver)).1 = s.gei ∨ s.fromH1 x i f.src h = true) →
    findChunk i.chunks h.phase h.chunk = some k → ((x.refit i k f.stamp).turned h).gated h = false →
    h.anchor = ((x.refit i k f.stamp).turned h).anchor → x.reg.plainChunk h.phase = false →
    (s.candidates x.reg.op h.phase h.chunk).1 = some k.die →
    exec (.contrib t f header payload false) s = .next (((s.begin t).stitch f.die (8 + k.die) f.port (72 + payload.length)).atChunk
      c h.inst x i (x.refit i k f.stamp) f h payload)) ∧
  (∀ (t : Time) (y : Crossing) (r : List Crossing) (c : Nat) (x : Ctx) (i : Inst) (k : Chunk) (s : State),
    let h := chOf y.header.toNat
    s.coll.crossing = y :: r → s.HoldsInst h.op h.inst c x i → i.state = .opened → findChunk i.chunks h.phase h.chunk = some k →
    exec (.steeredForward t) s = .next (({ s.begin t with coll := { s.coll with crossing := r } }).atChunk c h.inst x i (x.refit i k y.stamp)
      ⟨y.die, noPort, y.stamp, y.src, jobOf h.op, x.gen⟩ h y.payload)) ∧
  (∀ (c n : Nat) (x : Ctx) (i : Inst) (k : Chunk) (f : Cf) (h : Ch) (payload : List Byte) (s : State),
     (k.turned h).gated h = false →
     ((∃ y ∈ (k.turned h).cover, y.first = h.first ∧ y.count = h.covers ∧ bit y.frames h.frame = true) →
       (∀ y ∈ (k.turned h).cover, ∀ z ∈ (k.turned h).cover, y.first = z.first → y.count = z.count → y = z) →
       s.atChunk c n x i k f h payload = s.dup k.die (jobOf x.reg.op)) ∧
     ((∀ y ∈ (k.turned h).cover, ¬(y.first = h.first ∧ y.count = h.covers)) →
       (∃ y ∈ (k.turned h).cover, y.first < h.first + h.covers ∧ h.first < y.first + y.count) →
       s.atChunk c n x i k f h payload = (s.refuse f h 0x08 0 0).restart c n (k.turned h)) ∧
     ((∀ y ∈ (k.turned h).cover, y.first + y.count ≤ h.first ∨ h.first + h.covers ≤ y.first) → 0 < h.covers →
       s.atChunk c n x i k f h payload = s.applyFrame c n x i (k.turned h) f h payload) ∧
     ((∃ y ∈ (k.turned h).cover, y.first = h.first ∧ y.count = h.covers ∧ bit y.frames h.frame = false) →
       (∀ y ∈ (k.turned h).cover, ∀ z ∈ (k.turned h).cover, y.first = z.first → y.count = z.count → y = z) →
       s.atChunk c n x i k f h payload = s.applyFrame c n x i (k.turned h) f h payload))

/-- An accepted frame of a chunk in SRAM that is OPEN or RESENDING in pass 0, without a trap or an overflow and with the witness
it carries, joins the chunk's accumulator, witness, flags and cover map; the chunk is COMPLETING once its members are all
covered, and otherwise stays as it was. -/
def Obligations.AcceptedFrameAdds : Prop :=
  ∀ (c n : Nat) (x : Ctx) (i : Inst) (k : Chunk) (f : Cf) (h : Ch) (payload : List Byte) (s : State),
    let ar := x.reg.phaseAr k.phase
    let b := bring ar x.reg.op h k.anchor payload
    s.coll.ctxs.get? c = some x → findInst x.insts n = some i → findChunk i.chunks k.phase k.chunk = some k →
    (k.state = .opened ∨ k.state = .resending) → k.pass = 0 → k.bypassIn = false → k.inStacks = [] →
    b.nan = none → b.rov = false → b.bound = true → k.flags &&& flagInf = 0 →
    (h.witp = true → b.wit = h.wit) →
    ∃ k', (s.applyFrame c n x i k f h payload).chunk? c n k.phase k.chunk = some k' ∧
      k'.acc = k.acc.join ar.op b.acc ∧ k'.wit = combineWit ar.op (k.acc == .empty) k.wit b.wit ∧
      k'.flags = k.flags ||| b.flags ∧ k'.cover = putCover k.cover h f.src ∧
      (k'.state = .completing ∨ k'.state = k.state) ∧ k'.slots = k.slots ∧ k'.die = k.die ∧ k'.anchor = k.anchor

/-- The completion pipeline takes a chunk in COMPLETING that it has not taken yet, when no other of its die goes before it; the
oldest record of a die's queue is emitted. R163: the colophon ring takes each record at RING_NEXT, which counts on; once it is
full the oldest record is gone, and counted. -/
def Obligations.CompletionAndEmission : Prop :=
  (∀ (t : Time) (op inst phase chunk c bad : Nat) (ups : List (Nat × Nat)) (x : Ctx) (i : Inst) (k : Chunk) (s : State),
    s.gei ≠ 0 → s.HoldsInst op inst c x i → findChunk i.chunks phase chunk = some k → k.state = .completing → k.queued = false →
    s.firstIn ⟨c, inst, k⟩ = true →
    let w := (s.begin t).complete c inst x i k ups bad
    exec (.chunkCompletion t op inst phase chunk ups bad) s
      = .next (if w.mismatchLimit k.die then w.excludeDie (8 + k.die) 3 else w)) ∧
  (∀ (c n bad : Nat) (ups : List (Nat × Nat)) (x : Ctx) (i : Inst) (k : Chunk) (s : State),
    let ar := x.reg.phaseAr k.phase
    let acc := ups.foldl (fun a u => a.flip (if k.pass = 1 then 192 else 128) u) k.acc
    (s.coll.records.getD k.die []).length < 4096 →
    (k.witness ar x.reg.op acc ≠ k.wit → s.complete c n x i k ups bad = s.mismatch c n x i k) ∧
    (i.recompute ≤ k.recomputes → s.mismatch c n x i k
      = (((s.noteMismatch x.reg.op n k).bump E.unresolved 0 1).raise 0x7C04 2 (8 + k.die)
          [.v 32 x.reg.op, .v 8 n, .v 32 k.chunk, .v 16 k.die]).abortHere c n 0x0A k.chunk) ∧
    (k.recomputes < i.recompute → s.mismatch c n x i k = (s.noteMismatch x.reg.op n k).recompute c n k true)) ∧
  (∀ (t : Time) (die : Nat) (r : QRec) (l : List QRec) (x : Ctx) (i : Inst) (k : Chunk) (s : State),
    s.coll.records.getD die [] = r :: l → s.coll.ctxs.get? r.ctx = some x → findInst x.insts r.inst = some i →
    findChunk i.chunks r.phase r.chunk = some k → r.phase = 0 → k.phase = 0 → k.bypassIn = false → x.reg.type ≠ 7 →
    let w : State := { s.begin t with coll := { s.coll with
      records := if l.isEmpty then s.coll.records.del die else s.coll.records.set die l } }
    let w1 := w.ringWrite r.record
    let w2 := w1.parityResult r.ctx r.inst x k.chunk (w1.resultBodies r.inst x i k (bits r.record.toNat 527 520)) k.payload
    let w3 := w2.sendResult r.ctx r.inst x i 0 k.chunk k.bookAt (w2.resultBodies r.inst x i k (bits r.record.toNat 527 520))
    let w4 := w3.sendRecord r.ctx r.inst x i k r.record
    exec (.colophonEmit t die) s
      = .next (((w4.raiseTo E.latSeenMax 0 (w4.now - k.lastStamp)).endChunk r.ctx r.inst k).chunkDone r.ctx r.inst
          (ckey 0 k.chunk)).noteEligible) ∧
  (∀ (r : BitVec 640) (s : State), s.rd E.ringNext 0 < 2 ^ 64 - 1 →
     let n := s.rd E.ringNext 0
     let u := s.ringWrite r
     u.coll.ring.get? n = some r ∧ u.rd E.ringNext 0 = n + 1 ∧
       (n < 8388608 → u.rd E.recordsOverwritten 0 = s.rd E.recordsOverwritten 0 ∧ ∀ m, m ≠ n → u.coll.ring.get? m = s.coll.ring.get? m) ∧
       (8388608 ≤ n → u.coll.ring.get? (n - 8388608) = none ∧
         u.rd E.recordsOverwritten 0 = (s.rd E.recordsOverwritten 0 + 1) % 2 ^ 64 ∧
         ∀ m, m ≠ n → m ≠ n - 8388608 → u.coll.ring.get? m = s.coll.ring.get? m))

/-- Members' control frames, each at the instance it opens or finds open: BEACON and THROTTLE are progress, ABORT ends the
instance with its reason; a refused result goes again once; a count result joins its vector; a DONE is a rank's. A
CHECK_FAILED that names no phase concerns the latest result, and HSET_VER is not checked: the model's choices (logs 37 and
38). -/
def Obligations.MembersFrames : Prop :=
  (∀ (t : Time) (f : Cf) (header : BitVec 256) (c k : Nat) (x : Ctx) (s : State),
    let v := header.toNat
    let n := bits v 215 208
    let w := (s.begin t).openInst c n f.stamp
    (s.FromMember f 5 v c x k → exec (.beacon t f header) s = .next (w.progress c n k (.beacon (bits v 127 96)) f.stamp)) ∧
    (s.FromMember f 6 v c x k → exec (.throttle t f header) s = .next (w.progress c n k (.throttle (bits v 127 96)) f.stamp)) ∧
    (s.FromMember f 8 v c x k → exec (.memberAbort t f header) s
      = .next (w.abortHere c n (if bits v 167 160 = 0x0D then 0x0D else 0x0C) allOnes))) ∧
  (∀ (t : Time) (f : Cf) (header : BitVec 256) (c k : Nat) (x : Ctx) (i : Inst) (y : Tally) (s : State),
    let v := header.toNat
    bits v 251 248 = 9 → ctlFormOk f.job v [] = true → s.HoldsInst (bits v 247 216) (bits v 215 208) c x i → x.reg.collEn = true →
    (homes x.reg.op 2 allOnes (x.hsetAt i.ver)).1 = s.gei → x.reg.rankOf f.src = some k → x.stands (bits v 215 208) ≠ .ahead →
    i.tallySent = false → i.tally.getD { first := f.stamp, last := f.stamp } = y → f.stamp ≤ y.deadline x.reg → y.ranks.contains k = false →
    let y' : Tally := { y with first := min y.first f.stamp, ranks := insertNat k y.ranks, flags := y.flags ||| bits v 159 152,
                               last := f.stamp }
    let w := if y.mark.isSome then (s.begin t).bump E.cancelled 0 1 else s.begin t
    exec (.done t f header) s = .next (if y'.ranks.length = x.reg.m then
        ((w.setInst c { i with tally := some y', tallySent := true }).sendTally x { i with tally := some y' } 0 f.stamp).settle c
      else (s.begin t).setInst c { i with tally := some y' })) ∧
  (∀ (t : Time) (f : Cf) (header : BitVec 256) (c : Nat) (x : Ctx) (i : Inst) (y : Result) (s : State),
    let v := header.toNat
    let note := [Item.v 32 (bits v 247 216), .v 8 (bits v 215 208), .v 32 (bits v 207 176), .v 24 f.src]
    bits v 251 248 = 4 → ctlFormOk f.job v [] = true → bits v 167 160 = 9 → s.HoldsInst (bits v 247 216) (bits v 215 208) c x i → i.state ≠ .aborted →
    i.results.reverse.find? (fun (z : Result) => z.chunk == bits v 207 176 && isReceiver x i z.phase z.chunk f.src) = some y → i.completeSent = false →
    (y.resent.contains f.src = false → y.frames ≠ [] →
      exec (.refuseCheckFailed t f header) s = .next ((y.frames.foldl (fun (s : State) b => s.sendTo x 2 f.src (resentFrame s.gei b))
        ((s.begin t).setInst c
          { i with
            results := i.results.map (fun (z : Result) =>
              if z.phase = y.phase ∧ z.chunk = y.chunk then { z with resent := z.resent ++ [f.src] } else z)
            lastLeft := max i.lastLeft t })).raise 0x7009 0 (8 + y.stack / 2) note)) ∧
    (y.resent.contains f.src = true →
      exec (.refuseCheckFailed t f header) s = .next ((s.begin t).abortHere c (bits v 215 208) 0x06 (bits v 207 176)))) ∧
  (∀ (t : Time) (f : Cf) (header : BitVec 384) (payload : List Byte) (c : Nat) (x : Ctx) (i : Inst) (s : State),
    let v := header.toNat
    let h := chOf v
    let hs := x.hsetAt (x.verOf h.inst)
    bits v 379 376 = 2 → chunkFormOk f.job v payload = true → h.phase = 1 → s.HoldsInst h.op h.inst c x i → i.state = .opened →
    (x.stands h.inst = .isOpen ∨ x.stands h.inst = .next) → hs.contains s.gei = true → hs.contains f.src = true →
    h.hver = x.verOf h.inst → x.reg.v = true → h.chunk < x.reg.countChunks → h.fmt = 0x10 →
    h.count = min 1024 (x.reg.positions - 1024 * h.chunk) → checkOk f.src v payload = true → i.vectors.get? h.chunk = none →
    exec (.countResult t f header payload) s
      = .next ((s.begin t).takeVector c h.inst h.chunk ((elemsOf 0x10 h.count payload).map (fun e => signed 32 e.raw)))) ∧
  (∀ (t : Time) (f : Cf) (body : List Byte) (s : State),
    let kind := field body 0 1 % 16
    32 ≤ body.length → ctlFormOk f.job (field body 0 32) (body.drop 32) = true → (kind = 7 ∨ kind = 10 ∨ kind = 12 ∨ kind = 13) →
    exec (.collectiveMisdirected t f body) s = .next ((s.begin t).bump E.misdirected 0 1))

/-- R133: a progress event whose stamp lies past the deadline in force is counted in LATE_PROGRESS and moves nothing; any other
moves the member's last data and deadline as on_progress computes them. R134: at a member's deadline the stall timer marks its
record and counts TENTATIVE; two microseconds after, a record that progress has saved is cancelled, and with none left to
confirm the instance goes on; in BRACE none is settled.  A tally's deadline is settled alike (R136): marked TENTATIVE when it
comes, and confirmed 2 µs later with a TALLY DEADLINE and TALLY_DEADLINE. A stall is settled from the arrivals saved at the
window's start: the model's reading (log 44). -/
def Obligations.DeadlinesAndStallTimers : Prop :=
  (∀ (c n k : Nat) (p : Progress) (stamp : Time) (x : Ctx) (i : Inst) (s : State),
     s.coll.ctxs.get? c = some x → findInst x.insts n = some i →
     let m := i.stall x.reg k
     let u := s.progress c n k p stamp
     ∃ y j, u.coll.ctxs.get? c = some y ∧ findInst y.insts n = some j ∧ y.reg = x.reg ∧
       (∀ q, q ≠ k → j.stall x.reg q = i.stall x.reg q) ∧ j.chunks = i.chunks ∧ j.state = i.state ∧
       (m.d < stamp → (j.stall x.reg k).d = m.d ∧ (j.stall x.reg k).tData = m.tData ∧ (j.stall x.reg k).saved = m.saved ∧
         u.rd E.lateProgress 0 = (s.rd E.lateProgress 0 + 1) % 2 ^ 64) ∧
       (stamp ≤ m.d → (j.stall x.reg k).saved = true ∧ match p with
         | .contrib => (j.stall x.reg k).tData = max m.tData stamp ∧ (j.stall x.reg k).d = max m.tData stamp + x.reg.stallLimit
         | .beacon _ => (j.stall x.reg k).tData = m.tData ∧
             (j.stall x.reg k).d = max m.d (min (stamp + x.reg.stallLimit) (m.tData + x.reg.stallMax))
         | .throttle e => (j.stall x.reg k).tData = m.tData ∧
             (j.stall x.reg k).d = min (m.d + e * us) (m.tData + x.reg.stallMax)) ∧
       (∀ v, p = .beacon v → (j.stall x.reg k).beacon = v)) ∧
  (∀ (t : Time) (op inst rank c : Nat) (x : Ctx) (i : Inst) (s : State), s.HoldsInst op inst c x i → i.state = .opened →
    (i.stall x.reg rank).mark = none → (i.stall x.reg rank).d ≤ t → x.owes i s.gei rank = true →
    let m : Stall := { i.stall x.reg rank with mark := some t, saved := false }
    exec (.stallTentative t op inst rank) s
      = .next (((s.begin t).setInst c { i with stalls := i.stalls.set rank m }).bump E.tentative 0 1)) ∧
  (∀ (t : Time) (op inst c : Nat) (x : Ctx) (i : Inst) (s : State), s.HoldsInst op inst c x i → i.state = .opened →
    s.power.brace = none →
    let due := i.stalls.filter (fun (y : Nat × Stall) => y.2.settled t)
    let w := (due.foldl (fun (s : State) (y : Nat × Stall) => s.bump (if y.2.saved then E.cancelled else E.confirmed) 0 1) (s.begin t)).setInst c
      { i with stalls := i.stalls.map (fun (y : Nat × Stall) => if y.2.settled t then (y.1, { y.2 with mark := none, saved := false }) else y) }
    (due.all (fun (y : Nat × Stall) => y.2.saved) = true → exec (.stallSettle t op inst) s = .next w) ∧
    (∀ k m, due = [(k, m)] → m.saved = false → exec (.stallSettle t op inst) s
      = .next ((w.raise 0x7405 2 (8 + w.areaDie c) [.v 32 op, .v 8 inst, .v 24 (x.reg.geiOf k), .tm m.tData, .tm m.d]).abortHere c inst 0x05
          allOnes))) ∧
  (∀ (t : Time) (op inst : Nat) (s : State), s.power.brace.isSome = true → exec (.stallSettle t op inst) s = .next (s.begin t)) ∧
  (∀ (t : Time) (op inst c : Nat) (x : Ctx) (i : Inst) (y : Tally) (s : State), s.HoldsInst op inst c x i → i.tally = some y →
    i.tallySent = false → y.mark = none → y.deadline x.reg ≤ t → t < y.deadline x.reg + 2 * us →
    exec (.tallyDeadline t op inst) s
      = .next (((s.begin t).bump E.tentative 0 1).setInst c { i with tally := some { y with mark := some t } })) ∧
  (∀ (t : Time) (op inst c m : Nat) (x : Ctx) (i : Inst) (y : Tally) (s : State), s.HoldsInst op inst c x i → i.tally = some y →
    i.tallySent = false → y.mark = some m → y.deadline x.reg ≤ t → m + 2 * us ≤ t → s.power.brace = none →
    let w := (((((s.begin t).setInst c i).bump E.confirmed 0 1).setInst c { i with tallySent := true })).sendTally x i 1
      (y.deadline x.reg)
    exec (.tallyDeadline t op inst) s
      = .next ((w.raise 0x7007 1 (8 + w.areaDie c) [.v 32 op, .v 8 inst, .v 32 y.ranks.length, .v 32 x.reg.m]).settle c))

/-- The end of an instance at a home: a completion message is kept once for each device and may complete it; a completed
instance's COMPLETE goes out, and its stored results are freed, once its last result has left for CHECK_GRACE; another home's
abort ends it here; an ended one ignores it. The instance completes at this home when every chunk homed here has and the
exchange has (R75, R574): E_hi is the largest exponent of the messages and its own, and in automatic mode the next anchor
follows from it (R38). The wait for bypassed chunks at the exchange is the model's choice (log 46). -/
def Obligations.InstancesEnd : Prop :=
  (∀ (t : Time) (p : Peer) (body : List Byte) (c : Nat) (x : Ctx) (i : Inst) (s : State),
    let n := field body 5 1
    let v := field body 9 24
    let hs := x.hsetAt (x.verOf n)
    field body 0 1 = 0 → s.PeerTaken p 7 body → body.length = 33 → s.HoldsInst (field body 1 4) n c x i → i.state = .opened →
    (x.stands n = .isOpen ∨ x.stands n = .next) → hs.contains p.src = true → hs.contains s.gei = true →
    i.msgs.any (fun (m : Exchanged) => m.src == p.src) = false →
    exec (.exchangeCompletion t p body) s
      = .next (((s.begin t).setInst c { i with msgs := i.msgs ++ [⟨p.src, bits v 191 160, expOf v⟩] }).tryComplete c n)) ∧
  (∀ (t : Time) (op inst c : Nat) (x : Ctx) (i : Inst) (s : State), s.HoldsInst op inst c x i → i.state = .completed →
    i.completeSent = false → i.handedOn = true → i.lastLeft + s.rd E.checkGrace 0 ≤ t →
    s.resultQueued op inst = false →
    exec (.completeSend t op inst) s
      = .next ((((i.results.foldl (fun (s : State) (y : Result) => s.returnSpill y.stack y.bytes) (s.begin t)).setInst c
          { i with completeSent := true, completeAt := t, results := [] }).sendMembers i.group x 7
          (ctlHeader 7 op inst allOnes (x.verOf ((inst + 1) % 256)) 0 i.flags (x.nextAnchorShown t) 0 (x.chunksHomed i s.gei) 0 i.doneAt)).settle c)) ∧
  (∀ (t : Time) (p : Peer) (body : List Byte) (c : Nat) (x : Ctx) (i : Inst) (s : State),
    let v := field body 0 32
    s.PeerTaken p 6 body → body.length = 32 → bits v 251 248 = 8 → s.HoldsInst (bits v 247 216) (bits v 215 208) c x i →
    x.reg.hset.contains p.src = true → x.stands (bits v 215 208) ≠ .ahead →
    (i.state = .opened → exec (.abortRelay t p body) s = .next (((s.begin t).abortActs c x i (bits v 167 160) (bits v 207 176)
      (bits v 119 96) (ctlTime v) true).settle c)) ∧
    (i.state = .aborted → exec (.abortRelay t p body) s = .next (s.begin t))) ∧
  (∀ (c n : Nat) (x : Ctx) (i : Inst) (s : State), s.coll.ctxs.get? c = some x → findInst x.insts n = some i → n < 256 →
     i.state = .opened → i.sentMsg = true → i.exchanged (x.hsetAt i.ver) s.gei = true →
     i.homesDone x.reg (x.hsetAt i.ver) s.gei = true → x.reg.auto = true → x.opn = n → findInst x.insts ((n + 1) % 256) = none →
     x.leaving s.gei = false →
     ∃ y, (s.tryComplete c n).coll.ctxs.get? c = some y ∧ y.expHi = i.eHi ∧ y.opn = (n + 1) % 256 ∧ y.reg = x.reg ∧
       y.anchorNext = nextAnchor i.eHi x.reg.ar.guard (i.anchor.getD (x.anchorFor (some i) s.now)) ∧
       ∃ j, findInst y.insts n = some j ∧ j.state = .completed ∧ j.doneAt = s.now ∧ j.flags = i.flags)

/-- The leaf role (R88): a qualifying contribution kept at its ingress die is taken into its slot there and its cells are
released, and one that no longer qualifies goes on its way; a slot that has waited PR_HOLD sends its runs; the table takes and
drops entries. A slot of the leaf role closed: no further contribution joins it, and its SRAM slot is free. The reduction
SRAM: a die publishes its free slots; a completed copy frees its chunk's slots; a die reopens its deferred chunks in their
order, each in RESENDING with a REQUEST, while it has the space for their bookkeeping and a slot (R129). R117: a chunk takes
the first free SRAM slot of its die from its bank group upward, wrapping from group 31 to group 0. What a leaf keeps apart and
when it forgets a slot are the model's choice (logs 34 and 35). -/
def Obligations.LeafRoleAndSlots : Prop :=
  (∀ (t : Time) (frame : Nat) (g : Stored) (f : Mft) (s : State), findFrame s.net.frames frame = some g → g.packet = .mft f →
    g.localOwner = true → keptForLeaf s.gei f = true →
    (s.preTakes f = true →
      exec (.prereduceContrib t frame) s = .next (((s.begin t).preTake g.die g.inPort g.stamp f).release frame ownerLocal)) ∧
    (s.preTakes f = false →
      exec (.prereduceContrib t frame) s = .next (((s.begin t).routeOn g.inPort g.stamp f).release frame ownerLocal))) ∧
  (∀ (t : Time) (p : PreSlot) (s : State), s.coll.preSlots.find? (fun (y : PreSlot) =>
      !y.ring && !y.closed && decide (y.openedAt + s.rd E.prHold 0 ≤ t)) = some p →
    exec (.prHoldExpiry t) s = .next ((s.begin t).closePre p)) ∧
  (∀ (a : Access) (v : BitVec 128) (s : State), s.Takes a E.prWrite 0 16 0 true → prRule v (s.begin a.t) = .ok →
    ∃ u, exec (.prWrite a v) s = .next u ∧ u.rd E.prStatus 0 = 0 ∧ u.out = [.item stOk 0] ∧
      (∀ op, op ≠ bits v.toNat 127 96 → u.coll.pre.get? op = s.coll.pre.get? op) ∧
      (bit v.toNat 95 = true → u.coll.pre.get? (bits v.toNat 127 96) = some ⟨bits v.toNat 94 91, bits v.toNat 87 70, bits v.toNat 69 51⟩) ∧
      (bit v.toNat 95 = false → u.coll.pre.get? (bits v.toNat 127 96) = none)) ∧
  (∀ (p : PreSlot) (k : Nat) (s : State), p.ring = false → p.slot = some k → p.parts = [] → (s.slotsUsed p.die).Nodup →
     let u := s.closePre p
     (∃ y ∈ u.coll.preSlots, y.op = p.op ∧ y.inst = p.inst ∧ y.chunk = p.chunk ∧ y.anchor = p.anchor ∧ y.closed = true ∧ y.parts = []) ∧
       k ∉ u.slotsUsed p.die ∧ ∀ j, j ≠ k → (j ∈ u.slotsUsed p.die ↔ j ∈ s.slotsUsed p.die)) ∧
  (∀ (t : Time) (die : Nat) (s : State), exec (.slotCountPublish t die) s
    = .next { s.begin t with coll := { s.coll with published := s.coll.published.set die (s.sramFree die) } }) ∧
  (∀ (t : Time) (op inst phase chunk c : Nat) (x : Ctx) (i : Inst) (k : Chunk) (s : State), s.HoldsInst op inst c x i →
    findChunk i.chunks phase chunk = some k → k.spilling = true →
    exec (.spillCopyDone t op inst phase chunk) s
      = .next ((k.slots.foldl (fun (s : State) j => s.freeSlot k.die j) (s.begin t)).setChunk c inst { k with spilling := false, slots := [] })) ∧
  (∀ (t : Time) (die : Nat) (s : State),
    ((s.begin t).reopenOne die = none → exec (.deferredReopen t die) s = .next (s.begin t)) ∧
    (∀ v : State, (s.begin t).reopenOne die = some v → v.reopenOne die = none → exec (.deferredReopen t die) s = .next v)) ∧
  (∀ (die c n key j : Nat) (x : Ctx) (i : Inst) (k : Chunk) (s v : State), s.firstDeferred die = some (c, n, key) →
    s.coll.ctxs.get? c = some x → findInst x.insts n = some i → x.reg.plainChunk (key / 2 ^ 32) = false →
    let ph := key / 2 ^ 32
    let ch := key % 2 ^ 32
    let w := s.modInst c n (fun (j : Inst) => { j with deferred := j.deferred.erase key })
    let b := x.newChunk i ph ch ((i.elements x.reg ph ch).getD 1024) s.now s.gei true .resending
    let o := x.opening c i b die
    (w.quireUp die = true → w.bookFits o = true → w.slotFor o = some j →
      w.openBy c n x i b o ((w.candidates x.reg.op ph ch).1 != some die) (.sram j) = some v → v.chunk? c n ph ch = some k →
      s.reopenOne die = some (v.request c n k 2)) ∧
    (w.quireUp die = false ∨ w.bookFits o = false ∨ (w.slotFor o = none ∧ w.directStack o = none) → s.reopenOne die = none)) ∧
  (∀ (q group k : Nat) (s : State), s.findSlot q group = some k → (s.slotsUsed q).Pairwise (· < ·) → (∀ j ∈ s.slotsUsed q, j < 16384) →
     k < 16384 ∧ k ∉ s.slotsUsed q ∧
       ∀ j, j < 16384 → (j + 16384 - 512 * (group % 32)) % 16384 < (k + 16384 - 512 * (group % 32)) % 16384 → j ∈ s.slotsUsed q)

/-- The BYPASS messages between the two homes of a chunk: REFUSED defers it at h1, EMITTED frees h1's bookkeeping, RECOMPUTE has
h1 ask for every contribution again, RESTART clears it at h2, where a copy under way stops. -/
def Obligations.BypassMessages : Prop :=
  ∀ (t : Time) (p : Peer) (body : List Byte) (c : Nat) (x : Ctx) (i : Inst) (k : Chunk) (s : State),
    (s.FromOtherHome p body 0 c x i k →
      let w := (((s.begin t).raise 0x7404 1 (8 + k.die) [.v 32 x.reg.op, .v 8 i.num, .v 32 k.chunk, .v 24 s.gei, .v 24 k.h2]).endChunk c i.num
        k).modInst c i.num (fun (j : Inst) => { j with bypassed := j.bypassed.filter (fun (y : Nat × Nat) => y.1 != ckey k.phase k.chunk) })
      ∀ j, w.inst? c i.num = some j → exec (.bypassRefused t p body) s = .next (w.deferChunk c i.num x j k.phase k.chunk)) ∧
    (s.FromOtherHome p body 1 c x i k → exec (.bypassEmitted t p body) s
      = .next ((((s.begin t).endChunk c i.num k).modInst c i.num (fun (j : Inst) =>
          { j with emitted := insertNat (ckey k.phase k.chunk) j.emitted })).tryComplete c i.num)) ∧
    (s.FromOtherHome p body 2 c x i k → exec (.bypassRecompute t p body) s
      = .next (((s.begin t).setChunk c i.num { k with cover := [], forwarded := false, request := 3 }).request c i.num
          { k with cover := [], forwarded := false, request := 3 } 3)) ∧
    (s.FromOtherHome p body 3 c x i k → k.state ≠ .completing →
      ∃ u k', exec (.bypassRestart t p body) s = .next u ∧ u.chunk? c i.num k.phase k.chunk = some k' ∧
        k'.cover = [] ∧ k'.acc = .empty ∧ k'.wit = 0 ∧ k'.flags = 0 ∧ k'.pass = 0 ∧ k'.state = .opened ∧ k'.slots = k.slots ∧
        k'.spilling = false ∧ k'.anchor = (if k.phase = 1 then 0 else x.anchorFor (some i) t) ∧
        (k.spilling = false → u = { s.begin t with coll := { s.coll with ctxs := u.coll.ctxs } }))

/-- The entries of the collective chapters: HOME_QUERY and WEIGHT_QUERY answer for any operation, MEMBER_QUERY the record of a
member, as a read finds them; WINDOW_ANCHOR sets the anchor of the instances whose first contribution comes from its commit on
(R36); TRAP_VALID clears. -/
def Obligations.CollectiveEntries : Prop :=
  (∀ (a : Access) (v : BitVec 128) (s : State), s.Takes a E.homeQuery 0 16 0 (s.ownsOp a (bits v.toNat 127 96)) →
    ∃ u, exec (.homeQuery a v) s = .next u ∧ u.out = [.item stOk 0] ∧
      SameBut [(E.homeQuery, 0), (E.commitLast, 0), (E.domainState, 18 + s.keeper)] s u ∧
      u.Answers E.homeQuery (homeAnswer v.toNat)) ∧
  (∀ (v c : Nat) (x : Ctx) (s : State), v < 2 ^ 128 → s.ctxOf (bits v 127 96) = some c → s.coll.ctxs.get? c = some x →
    let hm := homes (bits v 127 96) (bits v 95 94) (bits v 63 32) x.hset
    bits (homeAnswer v s) 127 94 = bits v 127 94 ∧ bits (homeAnswer v s) 87 64 = hm.1 % 2 ^ 24 ∧
      bits (homeAnswer v s) 63 32 = bits v 63 32 ∧ bits (homeAnswer v s) 23 0 = hm.2 % 2 ^ 24) ∧
  (∀ (a : Access) (v : BitVec 256) (s : State), s.Takes a E.memberQuery 0 32 0 true →
    ∃ u, exec (.memberQuery a v) s = .next u ∧ u.out = [.item stOk 0] ∧
      SameBut [(E.memberQuery, 0), (E.commitLast, 0), (E.domainState, 18 + s.keeper)] s u ∧
      u.Answers E.memberQuery (memberAnswer v.toNat)) ∧
  (∀ (v : Nat) (x : Ctx) (i : Inst) (s : State), v < 2 ^ 256 → s.coll.ctxs.get? (bits v 255 240) = some x →
    findInst x.insts x.opn = some i → bits v 239 222 < x.reg.m →
    let m := i.stall x.reg (bits v 239 222)
    bits (memberAnswer v s) 255 222 = bits v 255 222 ∧ bits (memberAnswer v s) 221 144 = timeLayout m.tData % 2 ^ 78 ∧
      bits (memberAnswer v s) 143 66 = timeLayout m.d % 2 ^ 78 ∧ bit (memberAnswer v s) 65 = x.owes i s.gei (bits v 239 222) ∧
      bit (memberAnswer v s) 64 = m.mark.isSome ∧ bits (memberAnswer v s) 63 32 = m.beacon % 2 ^ 32 ∧
      bits (memberAnswer v s) 31 0 = m.throttled % 2 ^ 32) ∧
  (∀ (a : Access) (v : BitVec 192) (s : State), s.Takes a E.weightQuery 0 24 0 (s.ownsOp a (bits v.toNat 191 160)) →
    ∃ u, exec (.weightQuery a v) s = .next u ∧ u.out = [.item stOk 0] ∧
      bits (u.rd E.weightQuery 0) 63 0
        = weight (wseed (bits v.toNat 191 160) (bits v.toNat 127 126) (bits v.toNat 159 128)) (bits v.toNat 73 64)) ∧
  (∀ (a : Access) (ctx v : Nat) (x : Ctx) (s : State), s.Takes a E.windowAnchor ctx 2 v true → s.coll.ctxs.get? ctx = some x →
    x.reg.auto = false → x.reg.zeroAnchor = false →
    ∃ u y, exec (.windowAnchor a ctx v) s = .next u ∧ u.coll.ctxs.get? ctx = some y ∧
      ∀ i stamp, y.anchorFor i stamp = match i.bind (fun (j : Inst) => j.anchor) with
        | some k => k
        | none => if a.t ≤ stamp then signed 16 v else x.anchorFor i stamp) ∧
  (∀ (a : Access) (s : State), s.Takes a E.trapValid 0 1 1 true →
    ∃ u, exec (.trapValid a 1) s = .next u ∧ u.rd E.trapValid 0 = 0 ∧ u.out = [.item stOk 0] ∧
      SameBut [(E.trapValid, 0), (E.commitLast, 0), (E.domainState, 18 + s.keeper)] s u)

/-- R147: the generator of a witness's weights, which depend on the operation, the phase, the chunk and the index alone; every
weight lies from 1 to p - 1, and the witness of integers is their weighted sum modulo p. -/
def Obligations.WitnessIsWeightedSum : Prop :=
  ∀ (op phase chunk : Nat) (l : List Int),
    wseed op phase chunk = mix64 (mix64 (op * 2 ^ 32 + chunk) ^^^ mix64 ((phase * 2 ^ 56) ^^^ 0x2D8F41A7C6930E5B)) ∧
    (∀ i, let w := mix64 (wseed op phase chunk ^^^ (i * 0xB7E151628AED2A6B % 2 ^ 64)) % 2 ^ 61
      weight (wseed op phase chunk) i = if w = 0 ∨ w = 2 ^ 61 - 1 then 1 else w) ∧
    (∀ i, 1 ≤ weight (wseed op phase chunk) i ∧ weight (wseed op phase chunk) i < 2 ^ 61 - 1) ∧
    witnessInts (wseed op phase chunk) 0 l < 2 ^ 61 - 1 ∧
    (witnessInts (wseed op phase chunk) 0 l : Int)
      = ((List.range l.length).map (fun i => (weight (wseed op phase chunk) i : Int) * l.getD i 0)).sum % (2 ^ 61 - 1)

/-- The witness of a sum is the sum of the witnesses: contributions may be added in any grouping and order, and the witness that
accompanies them added with them still witnesses the total. Whatever the grouping and the order, and however a window or a
spill splits the work: adding a chunk's contributions one after another gives the same sums in every order. -/
def Obligations.SumsAndWitnessesAdd : Prop :=
  (∀ (seed off : Nat) (ls : List (List Int)) (n : Nat), (∀ l ∈ ls, l.length = n) →
     witnessInts seed off (ls.foldl (fun a b => List.zipWith (· + ·) a b) (List.replicate n 0))
       = ls.foldl (fun a b => combineWit 0 false a (witnessInts seed off b)) 0) ∧
  (∀ (ls ms : List (List Int)) (n : Nat), ls.Perm ms → (∀ l ∈ ls, l.length = n) →
     ls.foldl (fun a b => a.join 0 (.ints b)) (Acc.ints (List.replicate n 0))
       = ms.foldl (fun a b => a.join 0 (.ints b)) (Acc.ints (List.replicate n 0)))

/-- R33: a decoded finite element enters the window exactly where its lowest bit lies at or above the anchor, unless its magnitude
would reach 2^(L+W), which overflows; below the anchor it is rounded to nearest, ties to even, and BWR says whether bits were
lost. -/
def Obligations.RoundsIntoWindow : Prop :=
  (∀ l w, toWindow .zero l w = ⟨0, false, false⟩) ∧ (∀ sg l w, toWindow (.inf sg) l w = ⟨0, false, true⟩) ∧
  (∀ l w, toWindow .nan l w = ⟨0, false, true⟩) ∧
  (∀ code l w xs, (convert 0 code l w xs).acc = .ints (xs.map (fun x => (toWindow (decode code x) l w).q))) ∧
  ∀ (sg : Bool) (m : Nat) (e l : Int) (w : Nat), 0 < m → m < 2 ^ 33 →
    let r := toWindow (.fin sg m e) l w
    let mag : Nat := r.q.natAbs
    (l ≤ e → bitlen m + (e - l).toNat ≤ w →
      r.bwr = false ∧ r.rov = false ∧ r.q = (if sg then -1 else 1) * (m * 2 ^ (e - l).toNat : Nat)) ∧
    (l ≤ e → w < bitlen m + (e - l).toNat → r = ⟨0, false, true⟩) ∧
    (e < l → r.rov = false ∧ r.bwr = decide (m % 2 ^ (l - e).toNat ≠ 0) ∧ (sg = false → 0 ≤ r.q) ∧ (sg = true → r.q ≤ 0) ∧
      2 * (mag * 2 ^ (l - e).toNat) ≤ 2 * m + 2 ^ (l - e).toNat ∧ 2 * m ≤ 2 * (mag * 2 ^ (l - e).toNat) + 2 ^ (l - e).toNat ∧
      (2 * (mag * 2 ^ (l - e).toNat) = 2 * m + 2 ^ (l - e).toNat ∨ 2 * m = 2 * (mag * 2 ^ (l - e).toNat) + 2 ^ (l - e).toNat →
        mag % 2 = 0))

/-- R45: XOR, OR and AND take each element's raw bits, whatever they encode: no flag, no trap, and the result is the bits
themselves. Max and min (R44, R226): the order keys of two finite decoded values order them as their values do, +0 and -0
alike, and the key that is kept gives back exactly the value it was formed from; two contributions join key by key. -/
def Obligations.RawAndExtremeOperators : Prop :=
  (∀ (op code : Nat) (l : Int) (w : Nat) (xs : List Elem), (op = 3 ∨ op = 4 ∨ op = 5) →
     let c := convert op code l w xs
     c.acc = .raws (xs.map (·.raw)) ∧ c.bwr = false ∧ c.rov = false ∧ c.inf = false ∧ c.nan = none ∧ c.maxExp = none ∧
     (∀ (f : Fuse) (b : Bool) (x y : List Nat), x.length = y.length →
       ∃ z, (Acc.raws x).join op (.raws y) = .raws z ∧ z.length = x.length ∧
         (∀ i, i < x.length → z.getD i 0 = if op = 3 then x.getD i 0 ^^^ y.getD i 0 else if op = 4 then x.getD i 0 ||| y.getD i 0
           else x.getD i 0 &&& y.getD i 0) ∧
         convertOut code f l b (.raws z) = (code, z.flatMap (fun r => toBytes (elemBits code / 8) r), false))) ∧
  (let val := fun (d : Dec) => match d with
     | .fin sg m e => (if sg then -1 else 1 : ℚ) * m * (2 : ℚ) ^ e
     | _ => 0
   let ok := fun (d : Dec) => match d with
     | .zero => True
     | .fin _ m e => 0 < m ∧ m < 2 ^ 33 ∧ -149 ≤ (bitlen m : Int) - 1 + e ∧ (bitlen m : Int) - 1 + e ≤ 142
     | _ => False
   let back := fun (k : Int) => ((keyValue k).1 : ℚ) * (2 : ℚ) ^ (keyValue k).2
   (∀ a b : Dec, ok a → ok b →
     back (max (orderKey a) (orderKey b)) = max (val a) (val b) ∧ back (min (orderKey a) (orderKey b)) = min (val a) (val b) ∧
     (orderKey a < orderKey b ↔ val a < val b) ∧ noKey < orderKey a ∧ orderKey a < noLeast) ∧
   (∀ x y : List Int, (Acc.keys x).join 1 (.keys y) = .keys (List.zipWith max x y) ∧
     (Acc.keys x).join 2 (.keys y) = .keys (List.zipWith min x y)))

/-- Any error in one symbol of a stored block is located: the block is classified CORRECTED, and what is read is what was stored
(R230). Any error in two or three symbols of a stored block is classed UNCORRECTABLE and never miscorrected (R230). -/
def Obligations.BlockErrorsAreClassified : Prop :=
  (∀ (c : List Byte) (p : Nat) (e : Byte), c.length = 68 → classify c = .clean → p < 68 → c.getD p 0 ≠ e → classify (c.set p e) = .corrected) ∧
  (∀ v : BitVec 512, readWord (codeword v) = (.clean, v) ∧
    ∀ p e, p < 68 → 0 < e → e < 256 → readWord (codeword v ^^^ BitVec.ofNat 544 (e * 2 ^ (8 * p))) = (.corrected, v)) ∧
  (∀ (c r : List Byte), c.length = 68 → r.length = 68 → classify c = .clean →
     let n := ((List.range 68).filter (fun i => r.getD i 0 != c.getD i 0)).length
     (n = 2 ∨ n = 3) → classify r = .bad)

/-- The tensor and graph commands: each, once its rule allows it, starts its two phases, keeps its bytes or answers. The answer to
zeros written by TENSOR_IO and to unknown graphs is the model's choice (logs 74 and 75). -/
def Obligations.GraphCommands : Prop :=
  (∀ (a : Access) (v : BitVec 256) (s : State),
    let d := tensorOf v.toNat
    s.Takes a E.tensorCreate 0 32 0 (s.ownsJob a (jobOf d.op)) → s.tensorCheck v.toNat = 0 → s.leads a d.op = true →
    exec (.tensorCreate a v) s = .next ((((s.commitAt a).wr E.tensorStatus 0 0xFF).startLed 3 d.handle (toBytes 32 v.toNat)
      ((s.commitAt a).hsetOf d.op) noGei (tensorPhase v.toNat)).answerItem stOk)) ∧
  (∀ (a : Access) (h : Nat) (s : State), s.Takes a E.tensorDestroy 0 4 h (s.ownsJob a (h / 65536)) → s.destroyCode h = 0 →
    exec (.tensorDestroy a h) s = .next ((((s.commitAt a).wr E.tensorStatus 0 0xFF).startLed 4 h (toBytes 4 h)
      ((s.commitAt a).tensorDevices h) noGei (destroyPhase h)).answerItem stOk)) ∧
  (∀ (a : Access) (d : List Byte) (t : Tensor) (s : State),
    let h := field d 0 4
    let k := field d 4 4
    s.Takes a E.tensorIo 0 d.length 0 (s.ownsJob a (h / 65536)) → s.tensor? h = some t → t.cls ≠ 2 → k < t.count →
    s.holderOf t k = s.gei →
    ((d.drop 8).all (fun b => b == 0) = true → ∃ u, exec (.tensorIo a d) s = .next u ∧ u.graphs = s.graphs ∧ u.out = [.item stOk 0] ∧
      u.rd E.tensorIo 0 = h * 2 ^ 32 + k) ∧
    ((d.drop 8).any (fun b => b != 0) = true → s.tensorBusy h = false → (ioValues d).any (notFinite fp32) = false →
      let w := (((s.commitAt a).wr E.tensorStatus 0 0).wr E.tensorIo 0 (h * 2 ^ 32 + k)).writeStripe t k (ioValues d)
      exec (.tensorIo a d) s = .next ((if (t.stripe k).lost then w.markInexact h else w).answerItem stOk)) ∧
    ((d.drop 8).any (fun b => b != 0) = true → s.tensorBusy h = true → ∃ u, exec (.tensorIo a d) s = .next u ∧
      u.graphs = s.graphs ∧ u.rd E.tensorStatus 0 = 0x0C ∧ u.out = [.item stRefused 0])) ∧
  (∀ (a : Access) (v : BitVec 128) (s : State), s.Takes a E.tensorQuery 0 16 0 (s.ownsJob a (bits v.toNat 127 112)) →
    ∃ u, exec (.tensorQuery a v) s = .next u ∧ u.out = [.item stOk 0] ∧
      SameBut [(E.tensorQuery, 0), (E.commitLast, 0), (E.domainState, 18 + s.keeper)] s u ∧
      u.Answers E.tensorQuery (tensorAnswer v.toNat)) ∧
  (∀ (v : Nat) (t : Tensor) (s : State), v < 2 ^ 128 → s.tensor? (bits v 127 96) = some t →
    bits (tensorAnswer v s) 127 96 = bits v 127 96 ∧ bits (tensorAnswer v s) 95 64 = t.version % 2 ^ 32 ∧
      bits (tensorAnswer v s) 55 32 = (if t.cls = 1 then s.ownerOf t else noGei) % 2 ^ 24 ∧
      bits (tensorAnswer v s) 31 0 = (s.heldStripes t).length % 2 ^ 32) ∧
  (∀ (a : Access) (d : List Byte) (s : State), d.length = 8 + field d 4 4 → s.Takes a E.graphStage 0 d.length 0 (s.ownsJob a (s.imageJob a)) →
    1 ≤ field d 4 4 → field d 4 4 ≤ 4096 → field d 0 4 + field d 4 4 ≤ 1115680 →
    exec (.graphStage a d) s = .next (({ s.commitAt a with graphs := { s.graphs with
      stage := overlay s.graphs.stage (field d 0 4) (d.drop 8) } }).answerItem stOk)) ∧
  (∀ (a : Access) (len : Nat) (s : State),
    let b := s.graphs.stage.take len
    s.Takes a E.graphCommit 0 4 len (s.ownsJob a (s.imageJob a)) → s.commitCode a len = 0 →
    exec (.graphCommit a len) s = .next ((((s.commitAt a).wr E.graphStatus 0 0xFF).startLed 5 (imageOf b).id b
      ((s.commitAt a).hsetOf (bits (imageOf b).head 223 192)) noGei (graphPhase b)).answerItem stOk)) ∧
  (∀ (a : Access) (id n : Nat) (g : Graph) (s : State), s.Takes a E.graphControl 0 8 0 (s.ownsJob a (id / 65536)) →
    s.resident id = some (n, g) →
    (s.rebuilding id = false → g.state = gsHalted → exec (.graphResume a id) s
      = .next ((((s.commitAt a).setGraph n { g with state := gsWaiting }).passSkipped 256 n).answerItem stOk)) ∧
    exec (.graphRemove a id) s = .next (((s.commitAt a).startLed 6 id (toBytes 4 id ++ toBytes 4 2) ((s.commitAt a).graphDevices id) noGei
      (removePhase id)).answerItem stOk)) ∧
  (∀ (a : Access) (d : List Byte) (n : Nat) (g : Graph) (s : State),
    s.Takes a E.constWrite 0 d.length 0 (s.ownsJob a (field d 0 4 / 65536)) → s.resident (field d 0 4) = some (n, g) →
    exec (.constWrite a d) s = .next (((s.commitAt a).modGraph n (fun (g : Graph) =>
      { g with constsNext := (List.range 256).map (fun i => field d (4 + 4 * i) 4) })).answerItem stOk)) ∧
  (∀ (a : Access) (v : BitVec 128) (s : State),
    s.Takes a E.nodeQuery 0 16 0 (s.ownsJob a (match s.graphs.slots.get? (bits v.toNat 127 122) with
      | some g => g.id / 65536
      | none => 0)) →
    ∃ u, exec (.nodeQuery a v) s = .next u ∧ u.out = [.item stOk 0] ∧
      SameBut [(E.nodeQuery, 0), (E.commitLast, 0), (E.domainState, 18 + s.keeper)] s u ∧ u.Answers E.nodeQuery (nodeAnswer v.toNat)) ∧
  (∀ (v : Nat) (g : Graph) (r : Run) (s : State), v < 2 ^ 128 → s.graphs.slots.get? (bits v 127 122) = some g → g.run = some r →
    bits (nodeAnswer v s) 127 108 = bits v 127 108 ∧
      (∀ q, q < 10 → bits (nodeAnswer v s) (43 + 4 * q) (40 + 4 * q) = s.nodeState g (bits v 121 108) q) ∧
      bits (nodeAnswer v s) 31 0 = (r.done.filter (fun (x : Nat × Nat) => x.1 == bits v 121 108)).length % 2 ^ 32) ∧
  (∀ (a : Access) (v : BitVec 64) (s : State),
    let id := v.toNat / 2 ^ 32
    s.Takes a E.subnormalSet 0 8 0 (s.ownsJob a (id / 65536)) → bits v.toNat 7 0 ≤ 1 → (s.resident id).isSome = true →
    exec (.subnormalSet a v) s = .next (((s.commitAt a).startLed 7 id (toBytes 8 v.toNat) ((s.commitAt a).graphDevices id) noGei
      (subnormalPhase id (bit v.toNat 0))).answerItem stOk))

/-- The runs of a graph: a run begins, opens its stripes in the order in which they became eligible, ties by ascending stripe
index (R177), issues and completes its tasks; the other devices' values, reports and results are taken; a fence without its
reports aborts the run. Passing over instances and the causes of a run's end are the model's choice (logs 67, 68, 69 and 78). -/
def Obligations.GraphRuns : Prop :=
  (∀ (t : Time) (slot : Nat) (g : Graph) (s : State), s.graphs.slots.get? slot = some g → g.state = gsWaiting → g.run = none →
    g.migrating = false → s.power.brace = none → s.quires ≠ [] → s.runnable g = true →
    let r : Run := { inst := g.next, flush := g.subNext, consts := g.constsNext }
    exec (.runStart t slot) s = .next (((((s.begin t).setGraph slot { g with state := gsRunning, run := some r }).wr
      E.subnormalMode slot (b2n g.subNext))).tryCommit slot).noteEligible) ∧
  (∀ (t : Time) (slot die stage group stripe : Nat) (g : Graph) (s : State),
    let w := (s.begin t).noteEligible
    s.graphs.slots.get? slot = some g →
    (w.nextEligible die = some (slot, die, stage, group, stripe) → stageBuffers (w.checkedOf g) stage ≤ w.buffersFree die →
      exec (.stripeOpen t slot die stage group stripe) s
        = .next (w.modRun slot (fun (q : Run) => { q with opened := q.opened ++ [(die, stage, group, stripe)] })).noteEligible) ∧
    (w.nextEligible die ≠ some (slot, die, stage, group, stripe) ∨ w.buffersFree die < stageBuffers (w.checkedOf g) stage →
      exec (.stripeOpen t slot die stage group stripe) s = .next w)) ∧
  (∀ s : State,
    let kept := s.graphs.eligible.filter (fun x => s.allEligible.contains x)
    let l := s.noteEligible.graphs.eligible
    (∀ x, x ∈ l ↔ x ∈ s.allEligible) ∧ l.take kept.length = kept ∧
      ((l.drop kept.length).map (fun x => x.2.2.2.2)).Pairwise (· ≤ ·)) ∧
  (∀ (t : Time) (slot die : Nat) (g : Graph) (r : Run) (k : Nat × Nat) (x : GNode) (s : State), s.graphs.slots.get? slot = some g →
    s.rd E.throttled die = 0 → g.run = some r → s.nextTask g r die = some k → g.node k.1 = some x → x.kind ≠ 5 →
    let w := ((s.begin t).modRun slot (fun (q : Run) => { q with issued := q.issued ++ [k] })).engineOn die
    exec (.taskIssue t slot die) s = .next (if x.kind = 3 then w.issueStore g x k.2 else w)) ∧
  (∀ (t : Time) (slot die : Nat) (g : Graph) (r : Run) (k : Nat × Nat) (x : GNode) (s : State), s.graphs.slots.get? slot = some g →
    s.rd E.throttled die = 0 → g.run = some r → s.nextTask g r die = some k → g.node k.1 = some x → x.kind = 5 →
    exec (.taskIssue t slot die) s
      = .next ((((s.begin t).modRun slot (fun (q : Run) => { q with issued := q.issued ++ [k] })).engineOn die).issueMm slot k.1 die g r x)) ∧
  (∀ (t : Time) (slot die : Nat) (g : Graph) (p : Pub) (k : Nat × Nat) (s : State), s.graphs.slots.get? slot = some g →
    s.rd E.throttled die = 0 → g.run = none → g.pub = some p → s.nextPub g p die = some k →
    exec (.taskIssue t slot die) s = .next (((s.begin t).modGraph slot (fun (h : Graph) =>
      { h with pub := some { p with issued := p.issued ++ [k] } })).engineOn die)) ∧
  (∀ (t : Time) (slot node index : Nat) (g : Graph) (x : GNode) (s : State), s.graphs.slots.get? slot = some g → g.node node = some x →
    let die := if x.kind = 6 ∨ x.kind = 7 then s.firstDie else match s.domain g x.domain with
      | some d => s.stripeDie d index
      | none => s.firstDie
    let w := (s.begin t).touchEngine die
    let told := (w.countFixed (8 * (8 + die) + 2) 1).countEvent (8 * (8 + die) + 2) 0x60 x.kind (g.id / 65536) 1
    (∀ r, x.kind ≠ 8 → g.run = some r → r.issued.contains (node, index) = true → r.done.contains (node, index) = false →
      exec (.taskComplete t slot node index) s = .next (told.runTask slot node index g r x).noteEligible) ∧
    (∀ p, x.kind = 8 → g.pub = some p → p.issued.contains (node, index) = true → p.done.contains (node, index) = false →
      exec (.taskComplete t slot node index) s = .next (told.doPublish slot node index g p x))) ∧
  (∀ (t : Time) (die : Nat) (s : State), bit (s.rd E.coldState die) 4 = true → s.pendingAt die = false →
    s.graphs.engines.getD die 0 + 100 * us ≤ t →
    exec (.updateEngineIdle t die) s = .next ((s.begin t).wr E.coldState die (s.rd E.coldState die - 16))) ∧
  (∀ (t : Time) (p : Peer) (body : List Byte) (n : Nat) (g : Graph) (s : State),
    let inst := field body 5 1
    let cur := match g.run with
      | some r => r.inst
      | none => g.next
    s.PeerTaken p 7 body → body.length = 33 → s.resident (field body 1 4) = some (n, g) → (s.hsetOf g.op).contains p.src = true →
    (inst + 256 - cur) % 256 < 128 → g.msgs.any (fun (m : GMsg) => m.src == p.src && m.inst == inst && m.node == field body 6 2) = false →
    (field body 0 1 = 1 → exec (.exchangeCollectSum t p body) s = .next (((s.begin t).modGraph n (fun (h : Graph) =>
      { h with msgs := h.msgs ++ [⟨p.src, inst, field body 6 2, 1, signed 192 (field body 9 24)⟩] })).tryCollect n (field body 6 2)).noteEligible) ∧
    (field body 0 1 = 2 → exec (.exchangeCollectMax t p body) s = .next (((s.begin t).modGraph n (fun (h : Graph) =>
      { h with msgs := h.msgs ++ [⟨p.src, inst, field body 6 2, 2, signed 192 (field body 9 24)⟩] })).tryCollect n (field body 6 2)).noteEligible)) ∧
  (∀ (t : Time) (p : Peer) (body : List Byte) (n : Nat) (g : Graph) (s : State),
    let ver := field body 4 4
    s.PeerTaken p 8 body → body.length = 12 → s.resident (field body 0 4) = some (n, g) → (s.graphPeers g).contains p.src = true →
    g.version < ver →
    (g.owed.contains p.src = true → ver = g.version + 1 → exec (.fenceReport t p body) s
      = .next ((s.begin t).modGraph n (fun (h : Graph) => { h with owed := h.owed.erase p.src }))) ∧
    (g.owed.contains p.src = false ∨ ver ≠ g.version + 1 → exec (.fenceReport t p body) s = .next (((s.begin t).modGraph n (fun (h : Graph) => { h with
      reports := h.reports.filter (fun (x : Nat × Nat × Bool) => !(x.1 == p.src && x.2.1 == ver)) ++ [(p.src, ver, field body 8 1 == 0)]
      })).tryCommit n))) ∧
  (∀ (t : Time) (slot : Nat) (g : Graph) (r : Run) (f : Time) (s : State), s.graphs.slots.get? slot = some g → g.run = some r →
    r.fenceAt = some f → f + g.limit * ms ≤ t →
    let missing := (s.graphPeers g).filter (fun d => !g.reports.any (fun (x : Nat × Nat × Bool) => x.1 == d && x.2.1 == g.version + 1))
    let w := (((s.begin t).sendFence g false).modRun slot (fun (q : Run) => { q with sent := true })).raise 0x8007 2 31 [.v 32 g.id, .v 8 r.inst, .v 32 missing.length]
    exec (.fenceLimitExpiry t slot) s = .next (w.free.2.failRun slot (w.free.1 % 256) 0)) ∧
  (∀ (t : Time) (f : Cf) (body : List Byte) (s : State),
    (pubMalformed f.src body = true → exec (.publishResend t f body) s = .next ((s.begin t).bump E.pubMalformed 0 1)) ∧
    (pubMalformed f.src body = false → bits (field body 0 32) 251 248 = 3 →
      exec (.publishResend t f body) s = .next ((s.begin t).answerResend f (field body 0 32)))) ∧
  (∀ (t : Time) (p : Peer) (body : List Byte) (n slot : Nat) (g : Graph) (s : State),
    let fmt := field body 1 1
    let op := field body 4 4
    let inst := field body 8 4
    let cur := match g.run with
      | some r => r.inst
      | none => g.next
    let raws := (List.range 1024).map (fun i => field body (16 + n * i) n)
    n = elemBits fmt / 8 → n ≠ 0 → isMx fmt = false → field body 0 1 = 0 → s.PeerTaken p 9 body → body.length = 16 + 1024 * n →
    s.boundTo op = some (slot, g) → (s.hsetOf op).contains p.src = true → inst < 256 → (inst + 256 - cur) % 256 < 128 →
    let w := ((s.begin t).keepGrad op inst (field body 12 4) (raws.map (toLane fmt))).noteEligible
    exec (.updateHeldResult t p body) s = .next (if (homes op 0 (field body 12 4) (w.hsetOf op)).1 = w.gei then
      w.passResult op inst (field body 12 4) fmt raws else w)) ∧
  (∀ (t : Time) (p : Peer) (body : List Byte) (n : Nat) (d : Tensor) (s : State),
    let fmt := field body 1 1
    let h := field body 4 4
    let k := field body 12 4
    n = elemBits fmt / 8 → n ≠ 0 → isMx fmt = false → field body 0 1 = 1 → s.PeerTaken p 9 body → body.length = 16 + 1024 * n →
    s.tensor? h = some d → d.fmt = fmt → d.cls ≠ 2 → k < d.count → s.holderOf d k = s.gei → s.tensorBusy h = false →
    exec (.updateCommittedStripe t p body) s = .next ((s.begin t).restoreStripe h k (field body 8 4) (stripeVals fmt (body.drop 16))))

/-- The matrix arrays: an array in service takes the tile put ahead of its next, else the next tile of its die; a tile that passes
its checks is passed, one that fails is told and recomputed, or its array retired; an array idle for 100 µs stops.  A tile
whose accumulators no fault has changed passes the check of R211. When a die's part is computed and where a repeated tile goes
are the model's choice (log 73). -/
def Obligations.MatrixArrays : Prop :=
  (∀ (t : Time) (j : Nat) (x : Tile) (l : List Tile) (s : State), j < 40 → s.arrayUp j = true → s.rd E.throttled (j / 4) = 0 →
    (s.array j).ahead = x :: l → s.tileRoom j x = true → exec (.tileIssue t j) s = .next ((s.begin t).startTile j x)) ∧
  (∀ (t : Time) (j : Nat) (x : Tile) (s : State), j < 40 → s.arrayUp j = true → s.rd E.throttled (j / 4) = 0 →
    (s.array j).ahead = [] → s.nextTile (j / 4) = some x → s.tileRoom j x = true →
    let w := ((s.begin t).noteProduct x).modProduct x.slot x.node (fun (p : Product) => { p with issued := p.issued ++ [(x.i, x.j)] })
    exec (.tileIssue t j) s
      = .next (({ w with graphs := { w.graphs with lastSlot := w.graphs.lastSlot.set (j / 4) x.slot } }).startTile j x)) ∧
  (∀ (j : Nat) (x : Tile) (s : State), j < 40 → (s.array j).tiles = [] → (s.array j).ahead = [] → let u := s.startTile j x
    (u.array j).tiles = [x] ∧ (u.array j).last = s.now ∧ u.fresh = s.fresh ∧
      (s.rd E.arrayState j = 0 → u.rd E.arrayState j = 1 ∧ u.rd E.starts j = (s.rd E.starts j + 1) % 2 ^ 64) ∧
      (s.rd E.arrayState j ≠ 0 → u.rd E.arrayState j = s.rd E.arrayState j) ∧
      u.rd E.recomputes_8840 0 = (if x.miss = 0 then s.rd E.recomputes_8840 0 else (s.rd E.recomputes_8840 0 + 1) % 2 ^ 64) ∧
      u.rd E.arrayDataflow j = (if (u.tileInner x).1 < 512 ∨ (∃ y, u.nextTile (j / 4) = some y ∧ u.shares x y = true) then 2 else 1)) ∧
  (∀ (t : Time) (j row col line stalls : Nat) (wrong : List (Nat × Nat × Nat)) (epi : Bool) (x : Tile) (s : State),
    (s.array j).tiles.find? (fun (y : Tile) => y.i == row && y.j == col) = some x →
    let w := (s.begin t).bump E.feederStalls j stalls
    (w.abftFails x wrong = none → epi = false →
      exec (.tileComplete t j row col wrong epi line stalls) s = .next ((w.takeOff j x).passTile j x).noteEligible) ∧
    (w.abftFails x wrong = none → epi = true → exec (.tileComplete t j row col wrong epi line stalls) s
      = .next ((w.tellMismatch j x epi line).tileMismatch j x).noteEligible) ∧
    (∀ k, w.abftFails x wrong = some k → exec (.tileComplete t j row col wrong epi line stalls) s
      = .next ((w.tellMismatch j x epi k).tileMismatch j x).noteEligible)) ∧
  (∀ (x : Tile) (s : State), s.abftFails x [] = none) ∧
  (∀ (t : Time) (j : Nat) (s : State), s.rd E.arrayState j = 1 → (s.array j).tiles = [] → (s.array j).ahead = [] →
    (s.array j).last + 100 * us ≤ t → s.nextTile (j / 4) = none →
    exec (.arrayIdleStop t j) s = .next (((s.begin t).wr E.arrayState j 0).coldBit j false))

/-- R231: an uncorrectable block is entered in the stack's poison list; until a WR or FILL writes it, every other command and the
patrol scrub meet it as uncorrectable; a block to be entered in a list of 4,096 excludes the stack with the cause POISON_FULL. -/
def Obligations.PoisonList : Prop :=
  (∀ (t : Time) (h cmd b word n retries : Nat) (data : BitVec 512) (e : BitVec 544) (wait : List Nat) (x : Holds) (s v : State),
    h < 20 → s.stackUp h = true → cmd ≤ 9 → cmd ≠ 1 → cmd ≠ 2 → b < stackBlocks →
    s.AtStack t h b retries e wait x v → (b ∈ s.poisoned h ∨ (readWord (v.stored h b)).1 = .bad) →
    exec (.stackCommandDone t h cmd b n retries false ⟨word, data, ⟨e, wait⟩⟩ x) s = .next (v.badBlock h b (v.holdsAt h b x))) ∧
  (∀ (t : Time) (h : Nat) (e : BitVec 544) (wait : List Nat) (x : Holds) (s : State), h < 20 → s.stackUp h = true →
    (wait.any (fun n => decide (0 < n)) = false ∨ (s.begin t).scrubLate h = true) →
    let b := s.graphs.scrubAt.getD h 0
    let w := ((s.begin t).scrubNext h).upset h b e
    (b ∈ s.poisoned h ∨ (readWord (w.stored h b)).1 = .bad) →
    exec (.scrubStep t h ⟨e, wait⟩ x) s = .next (w.badBlock h b (w.holdsAt h b x))) ∧
  (∀ (h b : Nat) (x : Holds) (s : State), b ∈ s.poisoned h → s.stackUp h = true → s.badBlock h b x = s.blockLost h x) ∧
  (∀ (h b : Nat) (x : Holds) (s : State), h < 20 → b ∉ s.poisoned h →
    let w := ((s.bump E.uncorrectable h 1).wr E.ueLast 0 (pack [(5, h), (3, holdsPart x), (40, b), (32, s.now / sec), (30, s.now % sec / ns),
      (18, 0)])).raise 0x8C02 2 (8 + h / 2) [.v 16 h, .v 8 (holdsPart x), .v 40 b, .v 32 (holdsOwner x)]
    let recent := ((s.graphs.poisonAt.getD h []).filter (fun t => decide (s.now < t + sec))).length + 1
    (4096 ≤ (s.poisoned h).length → s.badBlock h b x
      = if (w.excludeStack h 3).stackUp h then (w.excludeStack h 3).blockLost h x else w.excludeStack h 3) ∧
    ((s.poisoned h).length < 4096 → recent ≤ s.rd E.ueLimit 0 → b ∈ (s.newPoison h b x).poisoned h ∧
      (s.newPoison h b x).rd E.poisonEntries h = (s.poisoned h).length + 1 ∧
      ∀ k, k ≠ b → (k ∈ (s.newPoison h b x).poisoned h ↔ k ∈ s.poisoned h))) ∧
  (∀ (t : Time) (h cmd b word n retries : Nat) (data : BitVec 512) (e : BitVec 544) (wait : List Nat) (x : Holds) (s v : State),
    h < 20 → s.stackUp h = true → (cmd = 1 ∨ cmd = 2) → b < stackBlocks → s.AtStack t h b retries e wait x v →
    ∃ u, exec (.stackCommandDone t h cmd b n retries false ⟨word, data, ⟨e, wait⟩⟩ x) s = .next u ∧
      (∀ k, k ∈ u.poisoned h ↔ k ∈ s.poisoned h ∧ ¬(b ≤ k ∧ k < b + if cmd = 1 then 1 else min n (stackBlocks - b))) ∧
      (∀ g, g ≠ h → u.poisoned g = s.poisoned g) ∧
      (cmd = 1 → u = v.putBlock h b data) ∧
      (cmd = 2 → u = v.patternBlocks h b n (packWords (List.replicate 4 (data.toNat % 2 ^ 128)))))

/-- The stacks' other commands (Table 2): a block without data errors that cannot be corrected is read, a corrected one counted
and told; a combining command writes back the word it has combined, the XA192 pair of ACC_ADD192 into both slots; what is
written outside the chunks' slots is what is read back; a command that has failed four times in a row excludes the stack
(R229); a transfer whose class is not in turn waits (R238); the patrol scrub reads the next block and writes back a corrected
one (R233); the temperature acts by Table 4 (R235), and that of an excluded stack is reported; partitions take their new
sizes, or the request is refused with BUSY or RANGE (R222). What counts as a retry and a repeated uncorrectable read are the
model's choice (log 92), as is the answer to a refused PART_REQUEST (log 93). -/
def Obligations.StackMemory : Prop :=
  (∀ (t : Time) (h cmd b word n retries : Nat) (data : BitVec 512) (e : BitVec 544) (wait : List Nat) (x : Holds) (s v : State),
    h < 20 → s.stackUp h = true → b < stackBlocks → s.AtStack t h b retries e wait x v →
    b ∉ s.poisoned h → (readWord (v.stored h b)).1 ≠ .bad →
    let d := (readWord (v.stored h b)).2
    let r := if (readWord (v.stored h b)).1 = .corrected then v.correctedRead h else v
    let j := word % 4
    (cmd = 0 → exec (.stackCommandDone t h cmd b n retries false ⟨word, data, ⟨e, wait⟩⟩ x) s
      = .next { r with graphs := { r.graphs with given := r.graphs.given.set h d } }) ∧
    (cmd = 3 ∨ (5 ≤ cmd ∧ cmd ≤ 9) → exec (.stackCommandDone t h cmd b n retries false ⟨word, data, ⟨e, wait⟩⟩ x) s
      = .next ((r.putBlock h b (putWordAt d j (combined cmd (wordAt d j) (data.toNat % 2 ^ 128)))).bump E.accCommands h 1)) ∧
    (cmd = 4 → r.partner h b ∉ r.poisoned h → (readWord (r.stored h (r.partner h b))).1 ≠ .bad →
      let d2 := (readWord (r.stored h (r.partner h b))).2
      let q := if (readWord (r.stored h (r.partner h b))).1 = .corrected then r.correctedRead h else r
      let z := added192 (wordAt d j) (wordAt d2 j) data.toNat
      exec (.stackCommandDone t h cmd b n retries false ⟨word, data, ⟨e, wait⟩⟩ x) s
        = .next (((q.putBlock h b (putWordAt d j z.1)).putBlock h (r.partner h b) (putWordAt d2 j z.2)).bump E.accCommands h 1))) ∧
  (∀ (h b : Nat) (d : BitVec 512) (s : State), s.slotAt h b = none →
    (s.putBlock h b d).blockData h b = d ∧ ∀ g k, (g, k) ≠ (h, b) → (s.putBlock h b d).blockData g k = s.blockData g k) ∧
  (∀ (lo hi d : Nat), lo < 2 ^ 128 → hi < 2 ^ 128 →
    let q := signed 192 (hi % 2 ^ 64 * 2 ^ 128 + lo) + signed 192 (d % 2 ^ 192)
    wrapInt 128 (signed 64 (hi % 2 ^ 64)) = hi →
    added192 lo hi d = (wrapInt 192 q % 2 ^ 128, wrapInt 128 (q / 2 ^ 128))) ∧
  (∀ (t : Time) (h cmd b word n retries : Nat) (data : BitVec 512) (e : BitVec 544) (wait : List Nat) (x : Holds) (s v : State),
    h < 20 → s.stackUp h = true → cmd ≤ 9 → b < stackBlocks →
    (s.begin t).serve h (holdsClass (s.holdsAt h b x)) wait = some v →
    let w := if retries = 0 then v.transferred h (holdsClass (s.holdsAt h b x))
      else (v.transferred h (holdsClass (s.holdsAt h b x))).bump E.interfaceRetries h 1
    exec (.stackCommandDone t h cmd b n retries true ⟨word, data, ⟨e, wait⟩⟩ x) s = .next (if 4 ≤ retries then w.excludeStack h 2 else w)) ∧
  (∀ (t : Time) (h cmd b word n retries : Nat) (failed : Bool) (data : BitVec 512) (e : BitVec 544) (wait : List Nat) (x : Holds) (s : State),
    h < 20 → s.stackUp h = true → cmd ≤ 9 → b < stackBlocks → (s.begin t).serve h (holdsClass (s.holdsAt h b x)) wait = none →
    exec (.stackCommandDone t h cmd b n retries failed ⟨word, data, ⟨e, wait⟩⟩ x) s = .next (s.begin t)) ∧
  (∀ (weights : Nat) (turn : Nat × Nat) (wait : List Nat) (c left : Nat), serveNext weights turn wait = some (c, left) →
    0 < wait.getD c 0 ∧
      (0 < turn.2 → 0 < wait.getD turn.1 0 → c = turn.1 ∧ left = turn.2 - 1) ∧
      (turn.2 = 0 ∨ wait.getD turn.1 0 = 0 → c < 4 ∧ left = bits weights (31 - 8 * c) (24 - 8 * c) - 1 ∧
        ∀ i, i < 4 → (turn.1 + 1 + i) % 4 = c → ∀ k, k < i → wait.getD ((turn.1 + 1 + k) % 4) 0 = 0)) ∧
  (∀ (t : Time) (h : Nat) (e : BitVec 544) (wait : List Nat) (x : Holds) (s : State), h < 20 → s.stackUp h = true →
    let b := s.graphs.scrubAt.getD h 0
    let w := ((s.begin t).scrubNext h).upset h b e
    let d := (readWord (w.stored h b)).2
    (wait.any (fun n => decide (0 < n)) = false ∨ (s.begin t).scrubLate h = true → b ∉ s.poisoned h →
      ((readWord (w.stored h b)).1 = .clean → exec (.scrubStep t h ⟨e, wait⟩ x) s
        = .next (if ((w.graphs.upsets.getD h []).get? b).isSome then w.putBlock h b d else w)) ∧
      ((readWord (w.stored h b)).1 = .corrected → ((w.graphs.upsets.getD h []).get? b).isSome = true →
        exec (.scrubStep t h ⟨e, wait⟩ x) s = .next ((w.correctedRead h).putBlock h b d))) ∧
    (wait.any (fun n => decide (0 < n)) = true → (s.begin t).scrubLate h = false →
      exec (.scrubStep t h ⟨e, wait⟩ x) s = .next (s.begin t))) ∧
  (∀ (h : Nat) (s : State), let next := (s.graphs.scrubAt.getD h 0 + 1) % stackBlocks
    (s.scrubNext h).graphs.scrubAt.getD h 0 = next ∧
      (s.scrubNext h).rd E.scrubPasses h = if next = 0 then (s.rd E.scrubPasses h + 1) % 2 ^ 64 else s.rd E.scrubPasses h) ∧
  (∀ (t : Time) (h : Nat) (temp : Int) (s : State), h < 20 → s.stackUp h = false →
    exec (.stackTempSample t h temp) s = .next ((s.begin t).wr E.stackTemp h (wrapInt 16 temp))) ∧
  (∀ (t : Time) (h : Nat) (temp : Int) (s : State), h < 20 → s.stackUp h = true →
    let w := (s.begin t).wr E.stackTemp h (wrapInt 16 temp)
    let note := [Item.v 16 h, .v 32 (wrapInt 32 temp)]
    let v := if 95 * 16 < temp then (w.raiseLim sec h 0x8C06 1 (8 + h / 2) note) else w
    (temp ≤ 85 * 16 → 82 * 16 < temp ∨ w.rd E.refreshMode h ≠ 1 → exec (.stackTempSample t h temp) s = .next w) ∧
    (temp ≤ 82 * 16 → w.rd E.refreshMode h = 1 → exec (.stackTempSample t h temp) s
      = .next ((w.wr E.refreshMode h 0).raise 0x8C05 0 (8 + h / 2) note)) ∧
    (85 * 16 < temp → temp ≤ 95 * 16 → w.rd E.refreshMode h = 0 → exec (.stackTempSample t h temp) s
      = .next ((w.wr E.refreshMode h 1).raise 0x8C04 0 (8 + h / 2) note)) ∧
    (85 * 16 < temp → w.rd E.refreshMode h ≠ 0 → temp ≤ 105 * 16 → exec (.stackTempSample t h temp) s = .next v) ∧
    (105 * 16 < temp → w.rd E.refreshMode h ≠ 0 → exec (.stackTempSample t h temp) s = .next (v.excludeStack h 5)) ∧
    (95 * 16 < temp → w.rd E.refreshMode h = 0 →
      let x := ((w.wr E.refreshMode h 1).raise 0x8C04 0 (8 + h / 2) note).raiseLim sec h 0x8C06 1 (8 + h / 2) note
      exec (.stackTempSample t h temp) s = .next (if 105 * 16 < temp then x.excludeStack h 5 else x))) ∧
  (∀ (a : Access) (v : BitVec 64) (s : State),
    let spill := bits v.toNat 63 48
    let spawn := bits v.toNat 47 32
    let sample := bits v.toNat 31 16
    let fits := 20 ≤ spill ∧ spill ≤ 768 ∧ spawn ≤ 256 ∧ 2 ≤ sample ∧ sample ≤ 64 ∧ 832 + spill + spawn + sample ≤ 1920
    let busy := s.coll.ctxs ≠ [] ∨ s.graphs.tensors.any (fun (x : Nat × Tensor) => x.2.admitted) = true ∨
      s.spawns.any (fun (x : Nat × Session) => !x.2.data.isEmpty) = true
    let w := ((((((s.commitAt a).wr E.partRequest 0 (v.toNat / 65536 * 65536)).wr E.partStatus 0 0).wr E.spillGib 0 spill).wr E.spawnGib 0
      spawn).wr E.sampleGib 0 sample).wr E.stateGib 0 (1920 - spill - spawn - sample)
    s.Takes a E.partRequest 0 8 0 true →
    (¬busy → fits → exec (.partRequest a v) s = .next (((({ w with probes := { w.probes with snaps := [], samples := [] } }).raise 0x8C08 0 31
      [.v 32 spill, .v 32 spawn, .v 32 sample, .v 32 (1920 - spill - spawn - sample)]).evalStarts 64).answerItem stOk)) ∧
    (busy ∨ ¬fits → exec (.partRequest a v) s
      = .next (((s.begin a.t).wr E.partStatus 0 (if s.coll.ctxs.isEmpty && !s.graphs.tensors.any (fun (x : Nat × Tensor) => x.2.admitted) &&
        !s.spawns.any (fun (x : Nat × Session) => !x.2.data.isEmpty) then 2 else 1)).answerItem stRefused)))

/-- Frames through the switch: a frame received whole and sound is taken by its kind, any other is dropped for its reason; a frame
that waited for cells tries again; the scheduler's pick starts; an owner releases a frame's cells; the link frames are taken
and sent; the load view is told. The name 1024 for local delivery is the model's (log 19). -/
def Obligations.FramesThroughTheSwitch : Prop :=
  (∀ (t : Time) (port staged buffered : Nat) (first : Byte) (b : List Byte) (ups : List (Nat × Nat)) (s : State),
    let d := dieOf port
    let w := (s.begin t).arrives port b.length
    let job := bits (field b 0 16) 39 24
    (s.isUp port = false → exec (.mftFrameReceive t port first b staged buffered ups) s = .next (s.begin t)) ∧
    (s.isUp port = true → s.attachFull d (buffered + b.length) = true →
      exec (.mftFrameReceive t port first b staged buffered ups) s = .next ((s.begin t).bump E.attachDrops d 1)) ∧
    (s.isUp port = true → s.attachFull d (buffered + b.length) = false →
    (first ≠ 0xD7 → exec (.mftFrameReceive t port first b staged buffered ups) s = .next (w.drop .frameCheck port)) ∧
    (first = 0xD7 → (w.port port).mftNow = false →
      exec (.mftFrameReceive t port first b staged buffered ups) s = .next (w.drop .mftDisabled port)) ∧
    (first = 0xD7 → (w.port port).mftNow = true → (b.length < 64 ∨ 4608 < b.length) →
      exec (.mftFrameReceive t port first b staged buffered ups) s = .next (w.drop .runtGiant port)) ∧
    (first = 0xD7 → (w.port port).mftNow = true → 64 ≤ b.length → b.length ≤ 4608 →
      (crc64 (b.take (b.length - 8)) ≠ field b (b.length - 8) 8 →
        exec (.mftFrameReceive t port first b staged buffered ups) s = .next (w.failsCheck (w.roomy.acceptMft port b staged) port)) ∧
      (crc64 (b.take (b.length - 8)) = field b (b.length - 8) 8 →
        exec (.mftFrameReceive t port first b staged buffered ups) s
          = .next (((((w.countFixed (8 * d) 1).countEvent (8 * d) 0x01 port job 1).countEvent (8 * d) 0x02 port job b.length).findUpsets d
              ups).acceptMft port b staged))))) ∧
  (∀ (t : Time) (port staged buffered : Nat) (b : List Byte) (ups : List (Nat × Nat)) (s : State),
    let d := dieOf port
    let w := (s.begin t).arrives port b.length
    s.isUp port = true → s.attachFull d (buffered + b.length) = false →
    (b.length < 64 ∨ 9216 < b.length → exec (.ethFrameReceive t port b staged buffered ups) s = .next (w.drop .runtGiant port)) ∧
    (64 ≤ b.length → b.length ≤ 9216 → fcsBytes (b.take (b.length - 4)) ≠ b.drop (b.length - 4) →
      exec (.ethFrameReceive t port b staged buffered ups) s = .next (w.failsCheck (w.roomy.acceptEth port b staged) port)) ∧
    (64 ≤ b.length → b.length ≤ 9216 → fcsBytes (b.take (b.length - 4)) = b.drop (b.length - 4) →
      exec (.ethFrameReceive t port b staged buffered ups) s
        = .next (((((w.countFixed (8 * d) 1).countEvent (8 * d) 0x01 port 0 1).countEvent (8 * d) 0x02 port 0 b.length).findUpsets d
            ups).acceptEth port b staged))) ∧
  (∀ (t : Time) (cls : Nat) (f : Mft) (r : List (Nat × Mft)) (s : State), s.net.waiting = (cls, f) :: r →
    let w : State := { s.begin t with net := { s.net with waiting := [] } }
    let u := if f.hdr.mcast = true then w.multicast 0 noPort t (.mft f) f.hdr.dest 2 else w.originateAs cls 2 f
    exec (.originCellRetry t) s = .next { u with net := { u.net with waiting := u.net.waiting ++ r } }) ∧
  (∀ (t : Time) (port : Nat) (s : State), s.held port = false →
    (∀ c b r, (s.port port).linkQueue = (c, b) :: r → exec (.schedulerPick t port) s
      = .next (((((s.begin t).setPort port { s.port port with linkQueue := r }).freeCell (dieOf port) 3 c).attach (dieOf port) 1 64).emit
          (.link port b))) ∧
    ((s.port port).linkQueue = [] → s.isUp port = true → (s.port port).sending = none →
      let w := (List.range 9).foldl (fun (s : State) k => s.prepareQueue port k) (s.begin t)
      ∀ k u, ((w.circuitsOf port).foldl (fun (s : State) c => s.prepareCirc port c) w).pickTier port = (some k, u) →
        exec (.schedulerPick t port) s = .next ((u.start port k).settlePort port))) ∧
  (∀ (t : Time) (frame owner : Nat) (frees listed : List (Nat × Nat)) (f : Stored) (s : State), findFrame s.net.frames frame = some f →
    let w := (s.begin t).setPort owner { s.port owner with sending := none }
    let freed := fun (u : State) => (frees.foldl (fun (u : State) x => u.freeRequest x.1 x.2) u).listUsed listed
    (1024 ≤ owner → exec (.frameTransmitted t frame ⟨owner, frees, listed⟩) s = .next (freed ((s.begin t).release frame owner))) ∧
    (owner < 1024 → (s.port owner).sending.map (·.frame) = some frame →
      (f.inPort ≠ noPort → exec (.frameTransmitted t frame ⟨owner, frees, listed⟩) s = .next (freed (w.release frame owner))) ∧
      (∀ m : Mft, f.packet = .mft m → m.hdr.ptype = 2 → f.inPort = noPort →
        exec (.frameTransmitted t frame ⟨owner, frees, listed⟩) s = .next (freed ((w.collFrameLeft m.body).release frame owner))))) ∧
  (∀ (t : Time) (port : Nat) (body : BitVec 192) (s : State),
    let w := (s.begin t).attach (dieOf port) 0 64
    ((s.port port).mftNow = false →
      exec (.creditReceive t port body) s = .next (if s.isUp port then w.drop .mftDisabled port else w) ∧
      exec (.helloReceive t port body) s = .next (if s.isUp port then w.drop .mftDisabled port else w)) ∧
    ((s.port port).mftNow = true →
    (linkFormOk body 1 = false → exec (.creditReceive t port body) s = .next (if s.isUp port then w.drop .malformed port else w)) ∧
    (linkFormOk body 2 = false → exec (.helloReceive t port body) s = .next (if s.isUp port then w.drop .malformed port else w)) ∧
    (linkFormOk body 1 = true → ∃ p, exec (.creditReceive t port body) s = .next (w.setPort port p) ∧ p.creditSeen = true ∧
      (p.credit 8).limit = bits body.toNat 175 160 ∧
      ∀ k, k < 8 → (p.credit k).limit = if bit (s.agreed port) k then bits body.toNat (159 - 16 * (7 - k)) (144 - 16 * (7 - k))
        else ((s.port port).credit k).limit) ∧
    (linkFormOk body 2 = true → exec (.helloReceive t port body) s = .next (((w.wr E.portPeer port
      (pack [(24, bits body.toNat 183 160), (11, bits body.toNat 159 149), (2, bits body.toNat 148 147), (8, bits body.toNat 143 136), (2, 0),
        (1, 1)]))).setPort port { s.port port with helloSeen := true })) ∧
    ((s.begin t).takeCells (dieOf port) 3 1 = none →
      exec (.creditSend t port) s = .next ((s.begin t).poolEmpty (dieOf port) 3) ∧
      exec (.helloSend t port) s = .next ((s.begin t).poolEmpty (dieOf port) 3)) ∧
    (∀ c u, (s.begin t).takeCells (dieOf port) 3 1 = some ([c], u) →
      exec (.creditSend t port) s = .next (u.setPort port
        { u.port port with linkQueue := (u.port port).linkQueue ++ [(c, (s.begin t).creditBody port)], creditSent := true }) ∧
      exec (.helloSend t port) s = .next (u.setPort port
        { u.port port with linkQueue := (u.port port).linkQueue ++ [(c, (s.begin t).helloBody port)], helloSent := true })))) ∧
  (∀ (t : Time) (die q : Nat) (d : Queue) (s : State), (q, d) ∈ s.net.queues → (∀ x ∈ s.net.queues, x.1 = q → x.2 = d) → q / 1152 = die → d.descs ≠ [] →
    ∃ u, exec (.loadSummary t die) s = .next u ∧ u.net.loadView.get? q = some (ceilDiv (depthOf d.descs) 4096) ∧
      (∀ p, p / 1152 ≠ die → u.net.loadView.get? p = s.net.loadView.get? p) ∧ u.regs = s.regs ∧ u.out = [])

/-- R267: an owner's release clears its bit; the frame's cells are freed with the last release; a release by an owner whose bit is
clear is counted and changes no frame. The name 1024 for local delivery is the model's (log 19). -/
def Obligations.CellsFreedByLastOwner : Prop :=
  ∀ (id owner : Nat) (f : Stored) (s : State), findFrame s.net.frames id = some f →
    ((if owner = ownerLocal then f.localOwner = false else owner ∉ f.owners) → s.release id owner
      = (s.bump E.doubleRelease 0 1).raise 0x5005 2 f.die [.v 16 f.die, .v 16 (ownerBit owner), .v 32 (f.cells.headD 0)]) ∧
    (owner ≠ ownerLocal → owner ∈ f.owners → (f.owners.erase owner ≠ [] ∨ f.localOwner = true) →
      ∃ u, s.release id owner = u ∧ u = { s with net := { s.net with frames := u.net.frames } } ∧
        findFrame u.net.frames id = some { f with owners := f.owners.erase owner }) ∧
    (f.localOwner = true → f.owners ≠ [] →
      ∃ u, s.release id ownerLocal = u ∧ u = { s with net := { s.net with frames := u.net.frames } } ∧
        findFrame u.net.frames id = some { f with localOwner := false }) ∧
    (f.localOwner = true → f.owners = [] →
      s.release id ownerLocal = s.freeFrame { f with localOwner := false } ∧ findFrame (s.release id ownerLocal).net.frames id = none) ∧
    (owner ≠ ownerLocal → f.owners = [owner] → f.localOwner = false →
      s.release id owner = s.freeFrame { f with owners := [] } ∧ findFrame (s.release id owner).net.frames id = none)

/-- Switch tables and ports: a table write that its rule allows makes a new version, whose old one retires when no frame holds it,
and is reported when it has not after 100 ms; a fault held for PORT_DOWN_HOLD takes a port DOWN, PORT_ADMIN 0 does at once,
and a port comes UP when R274 lets it. PORT_ADMIN of a port that the fiber's mode does not make has no effect: the model's
choice (log 119). -/
def Obligations.PortsAndSwitchTables : Prop :=
  (∀ (a : Access) (d : List Byte) (s : State), s.Takes a E.sprayWrite 0 d.length 0 true → sprayRule d (s.begin a.t) = .ok →
    exec (.sprayWrite a d) s = .next ((sprayAct d (s.commitAt a)).answerItem stOk) ∧
    ∃ v, (sprayAct d s).net.sprays.get? (field d 0 2) = some v ∧ v.cur = ⟨sprayMembers d, field d 2 2⟩) ∧
  (∀ (a : Access) (v : BitVec 128) (s : State), s.Takes a E.circuitWrite 0 16 0 true → circuitRule v (s.begin a.t) = .ok →
    exec (.circuitWrite a v) s = .next ((circuitAct v (s.commitAt a)).answerItem stOk)) ∧
  (∀ (a : Access) (d : List Byte) (s : State), s.Takes a E.mcastWrite 0 d.length 0 true →
    mcastRule State.graphNames d (s.begin a.t) = .ok →
    exec (.mcastWrite a d) s = .next ((mcastAct d (s.commitAt a)).answerItem stOk) ∧
    ∃ v, (mcastAct d s).net.mcasts.get? (field d 0 2) = some v ∧ v.cur = mcastMembers d) ∧
  (∀ (t : Time) (index : Nat) (v : Versioned Spray) (s : State), s.net.sprays.get? index = some v → v.draining = true →
    (v.oldHeld = 0 → ∃ u, exec (.versionRetire t 0 index) s = .next u ∧
      u.net.sprays.get? index = some { v with draining := false, slow := false } ∧
      (∀ k, k ≠ index → u.net.sprays.get? k = s.net.sprays.get? k) ∧ SameBut [(E.draining, 0)] s u) ∧
    (v.slow = false → v.since + 100 * ms ≤ t → exec (.drainSlow t 0 index) s = .next (({ s.begin t with net := { s.net with
      sprays := s.net.sprays.modify index (fun v => { v with slow := true }) } }).raise 0x5008 1 31
        [.v 16 0, .v 16 index, .v 32 v.oldHeld]))) ∧
  (∀ (t : Time) (index : Nat) (v : Versioned (BitVec 128)) (s : State), s.net.circuits.get? index = some v → v.draining = true →
    (v.oldHeld = 0 → ∃ u, exec (.versionRetire t 1 index) s = .next u ∧
      u.net.circuits.get? index = some { v with draining := false, slow := false } ∧
      (∀ k, k ≠ index → u.net.circuits.get? k = s.net.circuits.get? k) ∧ SameBut [(E.draining, 0)] s u) ∧
    (v.slow = false → v.since + 100 * ms ≤ t → exec (.drainSlow t 1 index) s = .next (({ s.begin t with net := { s.net with
      circuits := s.net.circuits.modify index (fun v => { v with slow := true }) } }).raise 0x5008 1 31
        [.v 16 1, .v 16 index, .v 32 v.oldHeld]))) ∧
  (∀ (t : Time) (table index : Nat) (v : Versioned (List Nat)) (s : State), 2 ≤ table → s.net.mcasts.get? index = some v → v.draining = true →
    (v.oldHeld = 0 → ∃ u, exec (.versionRetire t table index) s = .next u ∧
      u.net.mcasts.get? index = some { v with draining := false, slow := false } ∧
      (∀ k, k ≠ index → u.net.mcasts.get? k = s.net.mcasts.get? k) ∧ SameBut [(E.draining, 0)] s u) ∧
    (v.slow = false → v.since + 100 * ms ≤ t → exec (.drainSlow t table index) s = .next (({ s.begin t with net := { s.net with
      mcasts := s.net.mcasts.modify index (fun v => { v with slow := true }) } }).raise 0x5008 1 31
        [.v 16 table, .v 16 index, .v 32 v.oldHeld]))) ∧
  (∀ (t : Time) (port : Nat) (s : State), s.held port = false →
    exec (.pcsLinkFault t port) s = .next ((s.begin t).setPort port { s.port port with faultSince := some t, okSince := none })) ∧
  (∀ (t f : Time) (port : Nat) (s : State), (s.port port).faultSince = some f → f + s.rd E.portDownHold 0 ≤ t → s.rd E.portState port = 2 →
    exec (.portDownHoldExpiry t port) s = .next ((s.begin t).portDown port 1 1)) ∧
  (∀ (t : Time) (port : Nat) (s : State), (s.begin t).mayComeUp port = true → exec (.portUp t port) s = .next ((s.begin t).portUp port)) ∧
  (∀ (a : Access) (port v : Nat) (s : State), s.Takes a E.portAdmin port 1 v true → portAdminRule port v (s.begin a.t) = .ok →
    s.portExists port = true →
    let w := (s.commitAt a).wr E.portAdmin port v
    (v ≠ 0 → exec (.portAdmin a port v) s = .next ((w.remap (dieOf port)).answerItem stOk)) ∧
    (v = 0 → w.rd E.portState port = 2 → exec (.portAdmin a port v) s = .next (((w.portDown port 1 3).remap (dieOf port)).answerItem stOk)) ∧
    (v = 0 → w.rd E.portState port = 3 → exec (.portAdmin a port v) s = .next (((w.wr E.portState port 1).remap (dieOf port)).answerItem stOk)) ∧
    (v = 0 → w.rd E.portState port ≠ 2 → w.rd E.portState port ≠ 3 → exec (.portAdmin a port v) s = .next ((w.remap (dieOf port)).answerItem stOk)))

/-- Shaping, policing and gates: a record that its rule allows takes effect with full buckets; a wheel slot evaluates the queues
that are due; a pending gate list replaces the operational one at its change time, and each entry gives way to the next when
its interval ends; the end of a sample period latches every queue's depth and delays. -/
def Obligations.TrafficCommands : Prop :=
  (∀ (a : Access) (v : BitVec 128) (s : State),
    let i := 9 * bits v.toNat 127 117 + bits v.toNat 116 113
    s.Takes a E.shaperWrite 0 16 0 true → shaperRule v (s.begin a.t) = .ok →
    exec (.shaperWrite a v) s = .next ((shaperAct v (s.commitAt a)).answerItem stOk) ∧
    ((shaperAct v s).queue i).shaper = v ∧ ((shaperAct v s).queue i).descs = (s.queue i).descs ∧ ((shaperAct v s).queue i).wheel = none ∧
    ((shaperAct v s).queue i).stopped = false ∧
    ((shaperAct v s).queue i).cb = ({ rate := bits v.toNat 112 92, burst := bits v.toNat 70 47 } : Bucket).full s.now ∧
    ((shaperAct v s).queue i).pb = ({ rate := bits v.toNat 91 71, burst := bits v.toNat 46 23 } : Bucket).full s.now ∧
    ∀ j, j ≠ i → (shaperAct v s).queue j = s.queue j) ∧
  (∀ (t : Time) (port : Nat) (s : State), ∃ u, exec (.wheelSlot t port) s = .next u ∧ (∀ k, k < 9 →
      u.queue (9 * port + k) = if (s.queue (9 * port + k)).wheel.any (fun x => decide (x ≤ t)) then (s.queue (9 * port + k)).eval t
        else s.queue (9 * port + k)) ∧
      (∀ j, (j < 9 * port ∨ 9 * port + 9 ≤ j) → u.queue j = s.queue j) ∧
      ((s.circuitsOf port).Nodup → ∀ c, u.circQueue c =
        if c ∈ s.circuitsOf port ∧ (s.circQueue c).wheel.any (fun x => decide (x ≤ t)) = true then (s.circQueue c).eval t
        else s.circQueue c)) ∧
  (∀ (a : Access) (v : BitVec 64) (s : State), s.Takes a E.policerWrite 0 8 0 true → policerRule v (s.begin a.t) = .ok →
    let i := 8 * bits v.toNat 63 53 + bits v.toNat 52 50
    let b : Bucket := { rate := bits v.toNat 44 24, burst := bits v.toNat 23 0 }
    ∃ u, exec (.policerWrite a v) s = .next u ∧ u.net.policers.get? i = some { record := v, bucket := b.full a.t } ∧
      (∀ j, j ≠ i → u.net.policers.get? j = s.net.policers.get? j) ∧ u.out = [.item stOk 0] ∧
      SameBut [(E.policer, i), (E.policerStatus, 0), (E.commitLast, 0), (E.domainState, 18 + s.keeper)] s u) ∧
  (∀ (a : Access) (d : List Byte) (s : State), s.Takes a E.gateWrite 0 d.length 0 true → gateRule d (s.begin a.t) = .ok →
    exec (.gateWrite a d) s = .next ((gateAct d (s.commitAt a)).answerItem stOk)) ∧
  (∀ (t : Time) (port : Nat) (l : GateList) (c : Time) (s : State), (s.gatesOf port).pend = some l → (s.gatesOf port).changeAt = some c →
    c ≤ t →
    (s.clock.own = false ∨ (l.lock = false ∧ ∀ o, (s.gatesOf port).oper = some o → o.lock = false) →
      ∃ u, exec (.gateListActive t port) s = .next u ∧ u.gatesOf port = ⟨if l.entries = [] then none else some l, c, 0, c, none, none,
        (s.gatesOf port).committed⟩ ∧ ∀ p, p ≠ port → u.gatesOf p = s.gatesOf p) ∧
    (s.clock.own = true → (l.lock = true ∨ ∃ o, (s.gatesOf port).oper = some o ∧ o.lock = true) →
      exec (.gateListActive t port) s = .next (s.begin t))) ∧
  (∀ (t : Time) (port : Nat) (l : GateList) (s : State), (s.gatesOf port).oper = some l →
    let g := s.gatesOf port
    let e := g.entryAt + intervalAt l g.index * ns
    let j := if g.index + 1 < l.entries.length then g.index + 1 else 0
    e ≤ t → exec (.gateTransition t port) s = .next (((s.begin t).setGates port { g with
      index := j, entryAt := e, cycleAt := if j = 0 then e else g.cycleAt }).wr E.gateNow port (gatesAt g.oper j))) ∧
  (∀ (a : Access) (v : Nat) (s : State),
    (s.Takes a E.groupChange 0 12 v true →
      exec (.groupChange a v) s = .next ((groupChangeAct v (s.commitAt a)).answerItem stOk)) ∧
    (s.Takes a E.groupCycle 0 4 v true → groupCycleRule v (s.begin a.t) = .ok →
      exec (.groupCycle a v) s = .next (((s.commitAt a).wr E.groupCycle 0 v).answerItem stOk))) ∧
  (∀ (t : Time) (q : Nat) (d : Queue) (s : State), (q, d) ∈ s.net.queues → (∀ x ∈ s.net.queues, x.1 < 2 ^ 24 ∧ (x.1 = q → x.2 = d)) →
    ∃ u, exec (.samplePeriodEnd t) s = .next u ∧ u.rd E.depthSample q = depthOf d.descs ∧ u.rd E.delayMax q = d.maxNow ∧
      u.rd E.delayMean q = (if d.cntNow = 0 then 0 else d.sumNow / d.cntNow) ∧
      u.queue q = { d with maxNow := 0, sumNow := 0, cntNow := 0 })

/-- The forwarding tables: each record that its rule allows is in its table after, a query answers what the table holds, the
oldest learn record is read and removed, a sweep removes the entries that have aged, and a filter entry rebuilt is sound
again. -/
def Obligations.ForwardingTables : Prop :=
  (∀ (a : Access) (v : BitVec 64) (s : State), s.Takes a E.geiExactWrite 0 8 0 true → geiExactRule v (s.begin a.t) = .ok →
    let g := bits v.toNat 63 40
    ∃ u, exec (.geiExactWrite a v) s = .next u ∧ u.out = [.item stOk 0] ∧
      u.net.exact.get? g = (if bit v.toNat 39 then some (bits v.toNat 15 0) else none) ∧
      (∀ k, k ≠ g → u.net.exact.get? k = s.net.exact.get? k) ∧ (∀ die, u.parityBad die 1 g = false) ∧
      SameBut [(E.geiExactStatus, 0), (E.commitLast, 0), (E.domainState, 18 + s.keeper)] s u) ∧
  (∀ (a : Access) (v : BitVec 64) (s : State), s.Takes a E.geiQuery 0 8 0 true →
    (∃ u, exec (.geiQuery a v) s = .next u ∧ u.out = [.item stOk 0] ∧
      SameBut [(E.geiQuery, 0), (E.commitLast, 0), (E.domainState, 18 + s.keeper)] s u ∧ u.Answers E.geiQuery (geiAnswer v.toNat)) ∧
    ∀ w : State, bits (geiAnswer v.toNat w) 63 61 = bits v.toNat 63 61 ∧ bits (geiAnswer v.toNat w) 55 32 = bits v.toNat 55 32 ∧
      bits (geiAnswer v.toNat w) 17 16 = (w.geiLookup (bits v.toNat 63 61) (bits v.toNat 55 32)).1 % 4 ∧
      bits (geiAnswer v.toNat w) 15 0 = (w.geiLookup (bits v.toNat 63 61) (bits v.toNat 55 32)).2 % 65536) ∧
  (∀ (a : Access) (v : Nat) (s : State), s.Takes a E.addrMode 0 1 v true →
    (s.net.addrs.any (fun d => !d.2.isEmpty) = false →
      ∃ u, exec (.addrMode a v) s = .next u ∧ u.rd E.addrMode 0 = v ∧ (u.rd E.addrCapacity 0 = if v = 1 then 524288 else 131072) ∧
        u.out = [.item stOk 0] ∧ u.net = s.net ∧
        SameBut [(E.addrMode, 0), (E.addrCapacity, 0), (E.commitLast, 0), (E.domainState, 18 + s.keeper)] s u) ∧
    (s.net.addrs.any (fun d => !d.2.isEmpty) = true →
      exec (.addrMode a v) s = .next ((s.begin a.t).answerItem stRefused))) ∧
  (∀ (a : Access) (v : BitVec 128) (s : State), s.Takes a E.addrWrite 0 16 0 true → addrRule v (s.begin a.t) = .ok →
    exec (.addrWrite a v) s = .next ((addrAct v (s.commitAt a)).answerItem stOk)) ∧
  (∀ (v : BitVec 128) (s : State),
    let key := addrKey (bits v.toNat 111 100) (bits v.toNat 99 52)
    let e : AddrEntry := ⟨bits v.toNat 51 36, bit v.toNat 125, addrStamp s.now, true⟩
    (addrAct v s).rd E.addrStatus 0 = 0 ∧
    (bits v.toNat 127 126 = 0 → s.namesDown (bits v.toNat 51 36) = true → ∀ d, (addrAct v s).addrTab d = s.addrTab d) ∧
    (bits v.toNat 127 126 = 0 → s.namesDown (bits v.toNat 51 36) = false → ∀ d, (addrAct v s).addrTab d =
      if d < 8 ∧ (s.addrPut d key e).1 = true then (s.addrTab d).set key e else s.addrTab d) ∧
    (bits v.toNat 127 126 = 1 → ∀ d, ((addrAct v s).addrTab d).get? key = none ∧
      ∀ k, k ≠ key → ((addrAct v s).addrTab d).get? k = (s.addrTab d).get? k)) ∧
  (∀ (die key : Nat) (e : AddrEntry) (s : State), let u := (s.addrPut die key e).2
    ((s.addrPut die key e).1 = true → (u.addrTab die).get? key = some e ∧ ∀ k, k ≠ key → (u.addrTab die).get? k = (s.addrTab die).get? k) ∧
    ((s.addrPut die key e).1 = false → u = s) ∧ ∀ d, d ≠ die → u.addrTab d = s.addrTab d) ∧
  (∀ (a : Access) (v : BitVec 128) (s : State), s.Takes a E.addrQuery 0 16 0 true →
    let key := addrKey (bits v.toNat 111 100) (bits v.toNat 99 52)
    (∃ u, exec (.addrQuery a v) s = .next u ∧ u.out = [.item stOk 0] ∧
      SameBut [(E.addrQuery, 0), (E.commitLast, 0), (E.domainState, 18 + s.keeper)] s u ∧ u.Answers E.addrQuery (addrAnswer v.toNat)) ∧
    ∀ w : State, bits (addrAnswer v.toNat w) 127 125 = bits v.toNat 127 125 ∧
      bit (addrAnswer v.toNat w) 124 = (w.addrFind (bits v.toNat 127 125) key).isSome ∧
      ∀ e, w.addrFind (bits v.toNat 127 125) key = some e → bits (addrAnswer v.toNat w) 51 36 = e.hop % 65536 ∧
        bit (addrAnswer v.toNat w) 123 = e.static ∧
        bits (addrAnswer v.toNat w) 15 0 = if w.rd E.addrMode 0 = 1 then b2n e.hit else (addrStamp w.now + 65536 - e.stamp) % 65536) ∧
  (∀ (a : Access) (v : BitVec 64) (s : State), s.Takes a E.addrFlush 0 8 0 true →
    exec (.addrFlush a v) s = .next (((s.commitAt a).flushAddrs (bits v.toNat 63 52) (bits v.toNat 47 32)).answerItem stOk)) ∧
  (∀ (vid port die : Nat) (s : State), (s.flushAddrs vid port).addrTab die = (s.addrTab die).filter (fun x => x.2.static ||
      !((vid == 0 || vid == x.1 / 2 ^ 48) && (port == 0xFFFF || (!bit x.2.hop 15 && bits x.2.hop 10 0 == port))))) ∧
  (∀ (a : Access) (r : BitVec 128) (l : List (BitVec 128)) (s : State), s.Gives a E.learnPop 0 true → s.net.learnQ = r :: l →
    exec (.learnPop a) s = .next { s.begin a.t with
      net := { s.net with learnQ := l, learnFull := s.net.learnFull && !l.isEmpty }, out := [.item stOk r.toNat] }) ∧
  (∀ (t : Time) (die vid mac hop : Nat) (s : State),
    let key := addrKey vid mac
    let w : State := { s.begin t with net := { s.net with spread := s.net.spread.erase (die, key, hop) } }
    let e : AddrEntry := ⟨hop, false, addrStamp t, true⟩
    ((die, key, hop) ∉ s.net.spread → exec (.learnPropagate t die vid mac hop) s = .next (s.begin t)) ∧
    ((die, key, hop) ∈ s.net.spread →
      (s.namesDown hop = true → exec (.learnPropagate t die vid mac hop) s = .next w) ∧
      (s.namesDown hop = false → s.addrFind die key = none →
        ((w.addrPut die key e).1 = true → exec (.learnPropagate t die vid mac hop) s = .next (w.addrPut die key e).2) ∧
        ((w.addrPut die key e).1 = false → exec (.learnPropagate t die vid mac hop) s = .next (w.learnFull die key))) ∧
      (∀ o, s.namesDown hop = false → s.addrFind die key = some o →
        (o.static = true → exec (.learnPropagate t die vid mac hop) s = .next w) ∧
        (o.static = false → exec (.learnPropagate t die vid mac hop) s
          = .next (w.setAddrTab die ((s.addrTab die).set key { o with hop := hop, stamp := addrStamp t, hit := true })))))) ∧
  (∀ (t : Time) (die : Nat) (s : State),
    (s.rd E.addrMode 0 ≠ 1 →
      ∃ u, exec (.ageSweep t die) s = .next u ∧ u.addrTab die = (s.addrTab die).filter (fun x => x.2.static ||
        decide ((addrStamp t + 65536 - x.2.stamp) % 65536 * (2 ^ 24 * ns) < s.rd E.ageTime 0)) ∧
      (∀ d, d ≠ die → u.addrTab d = s.addrTab d) ∧ SameBut [(E.fwdCounts, 5)] s u) ∧
    (s.rd E.addrMode 0 = 1 →
      ∃ u, exec (.ageSweep t die) s = .next u ∧
        u.addrTab die = ((s.addrTab die).filter (fun x => x.2.static || x.2.hit)).map (fun x => (x.1, { x.2 with hit := false })) ∧
      (∀ d, d ≠ die → u.addrTab d = s.addrTab d) ∧ SameBut [(E.fwdCounts, 5)] s u)) ∧
  (∀ (a : Access) (v : BitVec 192) (s : State), s.Takes a E.prefixWrite 0 24 0 true → prefixRule v (s.begin a.t) = .ok →
    ∃ u, exec (.prefixWrite a v) s = .next u ∧ u.rd E.prefixStatus 0 = 0xFF ∧ u.net = { s.finishPrefix.net with prefixJob := some v } ∧
      u.out = [.item stOk 0] ∧
      SameBut [(E.prefixUnitsFree, 0), (E.prefixStatus, 0), (E.commitLast, 0), (E.domainState, 18 + s.keeper)] s u) ∧
  (∀ (t : Time) (v : BitVec 192) (s : State), s.net.prefixJob = some v →
    let key := pfxKey (bits v.toNat 189 189) (bits v.toNat 188 181) (bits v.toNat 127 0)
    let n := pfxUnits (bits v.toNat 189 189)
    let held := (s.net.prefixes.get? key).isSome
    ∃ u, exec (.prefixApplied t) s = .next u ∧ u = s.finishPrefix.begin t ∧ u.rd E.prefixStatus 0 = 0 ∧ u.net.prefixJob = none ∧
      u.rd E.prefixUnitsFree 0 = (if bits v.toNat 191 190 = 0 then (if held then s.rd E.prefixUnitsFree 0 else s.rd E.prefixUnitsFree 0 - n)
        else (if held then s.rd E.prefixUnitsFree 0 + n else s.rd E.prefixUnitsFree 0)) ∧ (∀ d, u.parityBad d 4 key = false) ∧
      u.net.prefixes.get? key = (if bits v.toNat 191 190 = 0 then some (bits v.toNat 180 167) else none) ∧
      ∀ k, k ≠ key → u.net.prefixes.get? k = s.net.prefixes.get? k) ∧
  (∀ (a : Access) (v : BitVec 128) (s : State), s.Takes a E.nexthopWrite 0 16 0 true → nexthopRule v (s.begin a.t) = .ok →
    ∃ u, exec (.nexthopWrite a v) s = .next u ∧ u.net.nextHops.get? (bits v.toNat 127 114) = some v ∧
      (∀ k, k ≠ bits v.toNat 127 114 → u.net.nextHops.get? k = s.net.nextHops.get? k) ∧
      (∀ d, u.parityBad d 6 (bits v.toNat 127 114) = false) ∧ u.out = [.item stOk 0] ∧
      SameBut [(E.nexthopStatus, 0), (E.commitLast, 0), (E.domainState, 18 + s.keeper)] s u) ∧
  (∀ (a : Access) (v : BitVec 192) (s : State), s.Takes a E.lpmQuery 0 24 0 true →
    (∃ u, exec (.lpmQuery a v) s = .next u ∧ u.out = [.item stOk 0] ∧
      SameBut [(E.lpmQuery, 0), (E.commitLast, 0), (E.domainState, 18 + s.keeper)] s u ∧ u.Answers E.lpmQuery (lpmAnswer v.toNat)) ∧
    ∀ w : State, bits (lpmAnswer v.toNat w) 127 0 = bits v.toNat 127 0 ∧
      bit (lpmAnswer v.toNat w) 187 = (w.lpm (bits v.toNat 191 189) (bits v.toNat 188 188) (bits v.toNat 127 0)).isSome ∧
      ∀ n nh, w.lpm (bits v.toNat 191 189) (bits v.toNat 188 188) (bits v.toNat 127 0) = some (n, nh) →
        bits (lpmAnswer v.toNat w) 186 179 = n % 256 ∧ bits (lpmAnswer v.toNat w) 178 165 = nh % 16384) ∧
  (∀ (t : Time) (die : Nat) (l : List (Nat × Nat)) (s : State), exec (.parityScrub t die l) s = .next ((s.begin t).findUpsets die l) ∧
    ((s.begin t).findUpsets die l).net = { s.net with badParity := ((s.begin t).findUpsets die l).net.badParity } ∧
    (∀ tab i, ((s.begin t).findUpsets die l).parityBad die tab i = (s.parityBad die tab i || l.contains (tab, i))) ∧
    ∀ d tab i, d ≠ die → ((s.begin t).findUpsets die l).parityBad d tab i = s.parityBad d tab i) ∧
  (∀ (t : Time) (die family index : Nat) (s : State), ∃ u, exec (.filterRebuild t die family index) s = .next u ∧
    u.parityBad die 5 (family * 65536 + index) = false ∧ u = { s.begin t with net := { s.net with badParity := u.net.badParity } } ∧
    ∀ d tab i, (d, tab, i) ≠ (die, 5, family * 65536 + index) → u.parityBad d tab i = s.parityBad d tab i)

/-- A lookup of an address finds the longest prefix that the table holds of it, by way of the filter (R318), and answers its next
hop; where that entry has bad parity on the die it answers none and falls back to no shorter one (R321). -/
def Obligations.LongestPrefixMatches : Prop :=
  ∀ (die fam a n nh : Nat) (s : State), fam ≤ 1 → a < 2 ^ famBits fam →
    (s.lpm die fam a = some (n, nh) ↔
      n ≤ famBits fam ∧ s.net.prefixes.get? (pfxKey fam n (maskTop fam n a)) = some nh ∧
        s.parityBad die 4 (pfxKey fam n (maskTop fam n a)) = false ∧
        ∀ m, n < m → m ≤ famBits fam → s.net.prefixes.get? (pfxKey fam m (maskTop fam m a)) = none)

/-- Fibers, lasers, stage monitors and engines: a fiber takes a mode only while its ports are DISABLED and leaves them so; a
port's second reports its bit error ratio; a laser module's report sets its state, and a bus that does not answer its own; an
engine's readings are shown; a discovered engine is admitted with its record or excluded with the first check it fails. The
order of an engine's checks and what tells that a laser is open are the model's choice (log 118). -/
def Obligations.FibersLasersAndMonitors : Prop :=
  (∀ (a : Access) (fiber v : Nat) (s : State), s.Takes a E.fiberMode fiber 1 v true →
    let w := (s.commitAt a).wr E.fiberMode fiber v
    ((∀ k, k < 4 → s.portExists (4 * fiber + k) = true → s.rd E.portAdmin (4 * fiber + k) = 0) →
      ∃ u : State, exec (.fiberMode a fiber v) s = .next ((State.remap u (fiber / 32)).answerItem stOk) ∧ u.rd E.fiberMode fiber = v ∧
        ∀ k, k < 4 → u.rd E.portAdmin (4 * fiber + k) = 0 ∧ u.rd E.portState (4 * fiber + k) =
          if w.portExists (4 * fiber + k) ∧ w.engineUp (fiber / 32) then 1 else 0) ∧
    ((∃ k, k < 4 ∧ s.portExists (4 * fiber + k) = true ∧ s.rd E.portAdmin (4 * fiber + k) ≠ 0) →
      exec (.fiberMode a fiber v) s = .next ((s.begin a.t).answerItem stRefused))) ∧
  (∀ (a : Access) (port v : Nat) (s : State), s.Takes a E.narrowEn port 1 v true →
    (v ≠ 1 ∨ s.rd E.portMft port ≠ 0 → exec (.narrowEn a port v) s = .next (((s.commitAt a).putValue E.narrowEn port v).answerItem stOk)) ∧
    (v = 1 → s.rd E.portMft port = 0 → exec (.narrowEn a port v) s = .next ((s.begin a.t).answerItem stRefused))) ∧
  (∀ (t : Time) (port ber good bad : Nat) (s : State), port < 1024 → s.portExists port = true →
    ∃ u : State, exec (.berMeasure t port ber good bad) s
        = .next (if s.rd E.berAlarm 0 < ber then u.raiseLim (60 * sec) port 0x400B 1 (dieOf port) [.v 16 port, .v 32 ber] else u) ∧
      u.rd E.preFecBer port = ber ∧ u.rd E.fecCorrected port = (s.rd E.fecCorrected port + good) % 2 ^ 64 ∧
      u.rd E.fecUncorrected port = (s.rd E.fecUncorrected port + bad) % 2 ^ 64) ∧
  (∀ (t : Time) (port : Nat) (s : State), s.narrowOf port = none →
    ∃ u, exec (.linkFaultCleared t port) s = .next u ∧ (u.port port).faultSince = none ∧ (u.port port).okSince = some t ∧
      (s.rd E.portState port = 2 ∨ (s.port port).linkQueue = [] → SameBut [] s u) ∧
      (s.rd E.portState port ≠ 2 → (u.port port).mask = s.rd E.losslessMask 0 ∧ (u.port port).helloSeen = false ∧ (u.port port).creditSeen = false ∧ (u.port port).linkQueue = [] ∧
        (u.port port).mftNow = (s.rd E.portMft port == 1)) ∧ ∀ p, p ≠ port → u.port p = s.port p) ∧
  (∀ (t : Time) (l : Nat) (ok there on : Bool) (alarm : Nat) (p : List Int) (g : List Nat) (s : State), l < 64 →
    s.rd E.lmBusState (l / 8) ≠ 1 →
    exec (.laserPoll t l ok there on alarm p g) s = .next (if ok then ((s.begin t).setBus (l / 8) 0).laserReport l there on alarm p g
      else (s.begin t).setBus (l / 8) 2)) ∧
  (∀ (l : Nat) (on : Bool) (alarm : Nat) (p : List Int) (g : List Nat) (s : State), l < 64 →
    (s.laserReport l false on alarm p g).rd E.laserState l = 0 ∧
    let u := s.laserReport l true on alarm p g
    (∀ k, k < 8 → u.rd E.laserPower (8 * l + k) = wrapInt 16 (p.getD k 0) ∧ u.rd E.laserPilot (8 * l + k) = g.getD k 0xFF) ∧
    (s.rd E.laserState l = 4 → u.rd E.laserState l = 4) ∧
    (s.rd E.laserState l ≠ 4 → alarm ≠ 0 → u.rd E.laserState l = 3) ∧
    (s.rd E.laserState l ≠ 4 → alarm = 0 → on = false → u.rd E.laserState l = 1) ∧
    (s.rd E.laserState l ≠ 4 → on = true → u.fullPower l = false → u.rd E.laserState l = 3) ∧
    (s.rd E.laserState l ≠ 4 → alarm = 0 → on = true → u.fullPower l = true → u.rd E.laserState l = if s.darkInput l then 4 else 2)) ∧
  (∀ (a : Access) (l v : Nat) (s : State), s.Takes a E.laserEnable l 1 v true →
    (v = 1 → s.fullPower l = true → s.darkInput l = true → exec (.laserEnable a l v) s = .next ((s.begin a.t).answerItem stRefused)) ∧
    (¬(v = 1 ∧ s.fullPower l = true ∧ s.darkInput l = true) → ∃ u : State, exec (.laserEnable a l v) s = .next (u.answerItem stOk) ∧
      u.rd E.laserEnable l = v ∧ u.rd E.laserState l = if (v = 1 ∧ s.rd E.laserState l = 4) ∨ (v = 0 ∧ s.rd E.laserState l = 2) then 1
        else s.rd E.laserState l)) ∧
  (∀ (t : Time) (n : Nat) (l : List (Bool × Bool × Nat × List Int × List Nat)) (s : State), n < 8 → s.rd E.lmBusState n = 0 →
    exec (.lmInt t n l) s = .next (((List.range 8).zip l).foldl (fun (u : State) x =>
      u.laserReport (8 * n + x.1) x.2.1 x.2.2.1 x.2.2.2.1 x.2.2.2.2.1 x.2.2.2.2.2) (s.begin t))) ∧
  (∀ (t : Time) (n found : Nat) (s : State), n < 8 →
    exec (.lmBusStuck t n true) s = .next ((s.begin t).setBus n 1) ∧ exec (.lmBusStuck t n false) s = .next (s.begin t) ∧
    (found ≤ 2 → s.rd E.lmBusState n ≠ 0 → exec (.lmBusRetry t n found) s = .next ((s.begin t).setBus n found)) ∧
    (s.setBus n found).rd E.lmBusState n = found) ∧
  (∀ (t : Time) (n : Nat) (l : List (Nat × Nat × Int)) (s : State), n < 8 → s.rd E.engineState n = 2 →
    ∃ u, exec (.monitorRead t n l) s = .next u ∧
      (∀ stage c k x, stage < 5 → c < 256 → (stage, c, x) ∈ l → k ∈ monitored stage c →
        (∀ d y, d < 256 → (stage, d, y) ∈ l → k ∈ monitored stage d → y = x) →
        u.rd E.monPower (2048 * stage + 256 * n + k) = wrapInt 16 x) ∧
      ∀ k, k < 256 → u.rd E.lossLocated (256 * n + k) = (u.lossOf (256 * n + k)).1) ∧
  (∀ (t : Time) (n : Nat) (v : BitVec 512) (band : Bool) (s : State), n < 8 → s.rd E.engineState n < 2 → s.rd E.dieState n ≠ 1 →
    (band = false ∨ s.noModule n = true → exec (.engineDiscovery t n v band) s = .next ((s.begin t).excludeEngine n 10)) ∧
    (band = true → s.noModule n = false →
      exec (.engineDiscovery t n v band) s = .next (if engineCause v.toNat = 0 then (s.begin t).admitEngine n v.toNat
        else (s.begin t).excludeEngine n (engineCause v.toNat))))

/-- Ring loops: a ring that sees light sweeps, a sweep's resonances are tried nearest first, three windows of its own tone lock it
and a false tone counts a wrong lock, a lost lock sweeps again, lost light takes it OFF, and a retry takes it out of FAULT.
Ties between candidates and the expected code before a calibration are the model's choice (log 115). -/
def Obligations.RingLoops : Prop :=
  (∀ (t : Time) (r : Nat) (s : State), r < 4096 → s.engineLit (ringEngine r) = true → s.rd E.ringState r = rgOff →
    ∃ u, exec (.lightPresent t r) s = .next u ∧ u.rd E.ringState r = rgSweep ∧ (u.loop r).fails = 0 ∧ SameBut [(E.ringState, r)] s u) ∧
  (∀ (t : Time) (r : Nat) (s : State), r < 4096 → s.rd E.ringState r ≠ rgParked → s.rd E.ringState r ≠ rgFault →
    let w := (s.begin t).wr E.ringState r rgOff
    exec (.lightLost t r) s = .next (if s.rd E.ringState r = rgLocked then w.ringLeft r else w)) ∧
  (∀ (t : Time) (r : Nat) (l : List Nat) (s : State), r < 4096 → s.rd E.ringState r = rgSweep →
    (exec (.sweepDone t r []) s = .next ((s.begin t).sweepFails r)) ∧
    (∀ h, (s.loop r).hexp = some h → l ≠ [] →
      let z := (((s.begin t).expectedCode r).1)
      let c := (l.foldl (fun b x => byDistance z x b) []).take 10
      ∃ u, exec (.sweepDone t r l) s = .next u ∧ u.rd E.ringHeater r = c.headD 0 ∧ u.rd E.ringState r = rgIdentify ∧
        (u.loop r).cands = c.tail ∧ (u.loop r).run = 0 ∧ SameBut [(E.ringHeater, r), (E.ringState, r)] s u ∧
        ∀ x ∈ l, ((c.headD 0 : Int) - z).natAbs ≤ ((x : Int) - z).natAbs)) ∧
  (∀ (t : Time) (r tone heater h : Nat) (s : State), r < 4096 → (s.loop r).hexp = some h →
    let x := s.loop r
    let n := if x.tone = tone then min 3 (x.run + 1) else 1
    let w := (((s.begin t).wr E.ringPilot r tone).wr E.ringHeater r heater).setLoop r ⟨x.cands, x.fails, x.hexp, x.temp, tone, n, x.since⟩
    let wrong := !(w.orderOk r).1 || (n == 3 && tone != 0xFF && tone != r / 2 % 8)
    (s.rd E.ringState r = rgIdentify → exec (.pilotWindow t r tone heater) s = .next (if wrong then (w.wrongLock r tone).nextCandidate r
      else if n = 3 ∧ tone = r / 2 % 8 then w.ringLocked r else w)) ∧
    (s.rd E.ringState r = rgLocked → exec (.pilotWindow t r tone heater) s
      = .next (if wrong then ((w.wrongLock r tone).wr E.ringState r rgSweep).ringLeft r else w))) ∧
  (∀ (t : Time) (r : Nat) (s : State), r < 4096 → s.rd E.ringState r = rgIdentify → (s.loop r).tone = 0xFF →
    (s.loop r).since + 200 * us ≤ t → exec (.identifyTimeout t r) s = .next (((s.begin t).wrongLock r 0xFF).nextCandidate r)) ∧
  (∀ (t : Time) (r : Nat) (s : State), r < 4096 → s.rd E.ringState r = rgLocked →
    exec (.ringLockLost t r) s = .next ((((s.begin t).bump E.relocks r 1).wr E.ringState r rgSweep).ringLeft r)) ∧
  (∀ (t : Time) (r tone heater : Nat) (l : List Nat) (s : State), 4096 ≤ r → (s.links.bypasses.get? ((r - 4096) / 2)).isSome = false →
    exec (.lightPresent t r) s = .next (s.begin t) ∧ exec (.lightLost t r) s = .next (s.begin t) ∧
    exec (.sweepDone t r l) s = .next (s.begin t) ∧ exec (.pilotWindow t r tone heater) s = .next (s.begin t) ∧
    exec (.identifyTimeout t r) s = .next (s.begin t) ∧ exec (.ringLockLost t r) s = .next (s.begin t)) ∧
  (∀ (a : Access) (r : Nat) (s : State), s.Takes a E.ringRetry 0 2 r true →
    (r < 4096 → ∃ u, exec (.ringRetry a r) s = .next u ∧
      u.rd E.ringState r = if s.rd E.ringState r = rgFault then rgOff else s.rd E.ringState r) ∧
    (4096 ≤ r → exec (.ringRetry a r) s = .next ((s.begin a.t).answerItem stRange))) ∧
  (∀ (r : Nat) (s : State), r < 4096 →
    ((s.loop r).cands = [] → (s.nextCandidate r) = s.sweepFails r) ∧ (s.sweepFails r).rd E.ringState r =
      if 3 ≤ (s.loop r).fails + 1 then rgFault else rgSweep)

/-- Calibration and bypass circuits: a slot calibrates the channels that are not skipped and tells of the skipped once a pass; a
narrowing or a widening that is late takes its port DOWN; a calibrated ring locks on its own tone; a circuit that its rule
allows is made with the channel's rings parked, DOWN where its receive input is dark, and one deleted frees them; a circuit's drop ring locks before its add ring,
the circuit is UP with both and DOWN when its drop ring is lost; an UP circuit's loss is shown. What a slot skips and when it
tells are the model's choice (log 117). -/
def Obligations.CalibrationAndBypass : Prop :=
  (∀ (t : Time) (s : State), let w := (s.begin t).adoptCal
    let chans := ((List.range 8).filter (fun n => w.engineUp n)).map (fun n => 256 * n + ((t - w.links.cal.base) % w.links.cal.period) / calSlot)
    let start := t - (t - w.links.cal.base) % w.links.cal.period
    let skip := chans.filter (fun c => w.skipsCal c)
    let u := (chans.filter (fun c => !w.skipsCal c)).foldl (fun (u : State) c => u.calChannel c) w
    let v := u.bump E.calSkipped 0 skip.length
    w.links.cal.base ≤ t → 0 < w.links.cal.period → (t - w.links.cal.base) % w.links.cal.period % calSlot = 0 →
    (t - w.links.cal.base) % w.links.cal.period < calPass →
    (skip = [] → exec (.calSlotStart t) s = .next u) ∧
    (skip ≠ [] → w.links.cal.told = some start → exec (.calSlotStart t) s = .next v) ∧
    (skip ≠ [] → w.links.cal.told ≠ some start → exec (.calSlotStart t) s
      = .next (({ v with links := { v.links with cal := { v.links.cal with told := some start } } }).raise 0x4008 0 31 [.v 32 skip.length]))) ∧
  (∀ (c : Nat) (s : State), c < 2048 → s.skipsCal c = false → s.rd E.ringState (2 * c) = rgLocked → s.rd E.ringState (2 * c + 1) = rgLocked →
    (s.calChannel c).rd E.ringState (2 * c) = rgCal ∧ (s.calChannel c).rd E.ringState (2 * c + 1) = rgCal ∧
    (s.rd E.portState (s.portOfChan c) = 2 → (s.calChannel c).narrowOf (s.portOfChan c) = some ⟨s.now, 1⟩)) ∧
  (∀ (t : Time) (port : Nat) (x : Narrow) (s : State), s.narrowOf port = some x →
    (x.phase = 1 → x.slot + 50 * us ≤ t → exec (.narrowDeadline t port) s
      = .next ((((s.begin t).portDown port 1 5).bump E.narrowFailed 0 1).raise 0x4007 1 (dieOf port) [.v 16 port, .tm x.slot])) ∧
    (x.phase = 3 → x.slot + calSlot ≤ t → exec (.narrowDeadline t port) s = .next ((s.begin t).portDown port 1 5)) ∧
    (x.phase = 2 → x.slot + calSlot ≤ t + 100 * us →
      exec (.narrowReturn t port) s = .next ((s.begin t).setNarrow port (some ⟨x.slot, 3⟩)))) ∧
  (∀ (t : Time) (c p q i j : Nat) (s : State), c < 2048 → s.rd E.ringState (2 * c) = rgCal → s.rd E.ringState (2 * c + 1) = rgCal →
    ∃ u, exec (.calDone t c p i q j) s = .next u ∧ u.rd E.ringState (2 * c) = (if i = c % 8 then rgLocked else rgSweep) ∧
      u.rd E.ringState (2 * c + 1) = (if j = c % 8 then rgLocked else rgSweep) ∧ (u.loop (2 * c)).hexp = some p ∧
      (u.loop (2 * c + 1)).hexp = some q ∧ u.rd E.ringHeater (2 * c) = p ∧ u.rd E.ringHeater (2 * c + 1) = q) ∧
  (∀ (a : Access) (v : BitVec 64) (s : State), s.Takes a E.bypassWrite 0 8 0 true → bypassRule v.toNat (s.begin a.t) = .ok →
    let n := bits v.toNat 63 61
    let c := 64 * n + bits v.toNat 60 55
    (bits v.toNat 54 53 = 0 → ∃ u : State, exec (.bypassCreate a v) s = .next ((u.remap n).answerItem stOk) ∧
      u.links.bypasses.get? c = some ⟨bits v.toNat 52 50, bits v.toNat 49 45, bits v.toNat 44 40⟩ ∧
      u.rd E.bypassState c = (if s.lowAt 4 (chanAt n (bits v.toNat 49 45) (bits v.toNat 52 50)) = true then 3 else 1) ∧
      (∀ k, k ≠ c → u.links.bypasses.get? k = s.links.bypasses.get? k)) ∧
    (bits v.toNat 54 53 = 1 → ∃ u : State, exec (.bypassDelete a v) s = .next ((u.remap n).answerItem stOk) ∧
      u.links.bypasses.get? c = none ∧ u.rd E.bypassState c = 0 ∧ (∀ k, k ≠ c → u.links.bypasses.get? k = s.links.bypasses.get? k))) ∧
  (∀ (t : Time) (c : Nat) (s : State), c < 512 → (s.links.bypasses.get? c).isSome = true →
    (s.engineLit (c / 64) = true → s.rd E.ringState (dropRing c) = rgOff → ∃ u, exec (.lightPresent t (dropRing c)) s = .next u ∧
      u.rd E.ringState (dropRing c) = rgSweep ∧
      u.rd E.bypassState c = if s.rd E.bypassState c = 3 ∧ s.rd E.ringState (dropRing c + 1) ≠ rgFault then 1 else s.rd E.bypassState c) ∧
    (s.rd E.ringState (dropRing c) = rgLocked → s.rd E.bypassState c = 2 →
      (∃ u, exec (.lightLost t (dropRing c)) s = .next u ∧ u.rd E.ringState (dropRing c) = rgOff ∧
        u.rd E.ringState (dropRing c + 1) = rgOff ∧ u.rd E.bypassState c = 3) ∧
      ∃ u, exec (.ringLockLost t (dropRing c)) s = .next u ∧ u.rd E.ringState (dropRing c) = rgSweep ∧
        u.rd E.ringState (dropRing c + 1) = rgOff ∧ u.rd E.bypassState c = 3) ∧
    (s.ringLocked (dropRing c)).rd E.ringState (dropRing c) = rgLocked ∧
    (s.rd E.ringState (dropRing c + 1) = rgOff → (s.ringLocked (dropRing c)).rd E.ringState (dropRing c + 1) = rgSweep) ∧
    (s.rd E.ringState (dropRing c) = rgLocked → (s.ringLocked (dropRing c + 1)).rd E.bypassState c = 2)) ∧
  (∀ (t : Time) (c : Nat) (x : Int) (s : State), c < 512 → s.rd E.bypassState c = 2 →
    let w := (s.begin t).wr E.bypassLoss c (wrapInt 16 x)
    exec (.bypassLossMeasure t c x) s = .next (if 10 * (bits (s.rd E.engineCap (c / 64)) 311 304 : Int) < x
      then w.raise 0x400A 1 (c / 64) [.v 16 (c / 64), .v 16 (c % 64), .v 16 (wrapInt 16 x)] else w))

/-- Modules and stitch channels: a module that trained at a usable width is a spare of that width until the map takes it, one that
did not is FAILED; a failed lane leaves it in RETRAINING; a retrain or unequal widths train it from scratch; more than 16
replays within 100 µs test a channel, whose failed wires are repaired up to the spares and retire it beyond them. A stitch
flit's bytes spell it, its receiver takes DATA flits in sequence only, a source crosses on its own channel, and stripes are
numbered and put in order again. When a width record is written and the retrain of an ABSENT module are the model's choice
(log 113). -/
def Obligations.ModulesAndStitchChannels : Prop :=
  (∀ (t : Time) (m rate width : Nat) (upper : Bool) (repairs : Nat) (s : State), m < 256 → s.rd E.moduleState m = 1 ∨ s.rd E.moduleState m = 4 →
    t ≤ (s.ucie m).since + 150 * us →
    let w := min width (s.ucie m).most
    (rate < 32 ∨ (w ≠ 64 ∧ w ≠ 32) → exec (.moduleTrained t m rate width upper repairs) s = .next ((s.begin t).moduleFails m)) ∧
    (32 ≤ rate → w = 64 ∨ w = 32 → ∃ u : State, exec (.moduleTrained t m rate width upper repairs) s = .next ((u.trainEnds m w).remap (m / 32)) ∧
      u.rd E.moduleState m = 3 ∧ u.rd E.moduleWidth m = w ∧ u.rd E.moduleRepairs m = repairs)) ∧
  (∀ (t : Time) (m : Nat) (s : State), m < 256 → s.rd E.moduleState m = 1 ∨ s.rd E.moduleState m = 4 →
    ((s.ucie m).since + 150 * us ≤ t → exec (.moduleTrainTimeout t m) s = .next ((s.begin t).moduleFails m)) ∧
    (t < (s.ucie m).since + 150 * us → exec (.moduleTrainTimeout t m) s = .next (s.begin t))) ∧
  (∀ (m : Nat) (s : State), m < 256 → (s.moduleFails m).rd E.moduleState m = 5 ∧ (s.moduleFails m).rd E.moduleWidth m = 0) ∧
  (∀ (t : Time) (m n : Nat) (s : State), m < 256 → s.rd E.moduleState m = 2 ∨ s.rd E.moduleState m = 3 →
    ∃ u, exec (.failedLane t m n) s = .next u ∧ u.rd E.moduleState m = 4 ∧ (u.ucie m).since = t ∧
      u.rd E.moduleReplays m = (s.rd E.moduleReplays m + n) % 2 ^ 64) ∧
  (∀ (a : Access) (m : Nat) (s : State), s.Takes a E.moduleRetrain 0 2 m true →
    (retrainRule m (s.begin a.t) = .ok → s.rd E.moduleState m ≠ 0 → ∃ u, exec (.moduleRetrain a m) s = .next u ∧
      u.rd E.moduleState m = 1 ∧ u.rd E.moduleRepairs m = 0 ∧ (u.ucie m).asked = true ∧ u.rd E.moduleRetrainStatus 0 = 0xFF) ∧
    (m < 256 → s.rd E.moduleState m = 1 ∨ s.rd E.moduleState m = 4 → exec (.moduleRetrain a m) s = .next ((s.begin a.t).answerItem stRefused))) ∧
  (∀ (t : Time) (m e x y : Nat) (s : State), m < 256 → 2 ≤ s.rd E.moduleState m → s.rd E.moduleState m ≤ 4 →
    ∃ u, exec (.widthExchange t m e x y) s = .next u ∧ u.rd E.moduleState m = 1 ∧ (u.ucie m).since = t ∧
      (x ≠ y → (u.ucie m).most = min x y ∧ (u.ucie m).log = some (e, x, y, t) ∧ u.rd E.moduleRepairs m = 0) ∧
      (x = y → (u.ucie m).most = (s.ucie m).most ∧ u.rd E.moduleRepairs m = s.rd E.moduleRepairs m)) ∧
  (∀ (t : Time) (p c n : Nat) (s : State), bundleHas p c = true →
    ∃ u, exec (.stitchNak t p c n) s = .next u ∧ u.rd E.pairReplays p = (s.rd E.pairReplays p + n) % 2 ^ 64 ∧
      (u.channel p c).naks = (s.channel p c).naks.filter (fun x => decide (t < x + 100 * us)) ++ [t] ∧
      (u.channel p c).state = (s.channel p c).state ∧ SameBut [(E.pairReplays, p)] s u) ∧
  (∀ (t : Time) (p c : Nat) (s : State), bundleHas p c = true → (s.channel p c).state = 0 →
    (16 < ((s.channel p c).naks.filter (fun x => decide (t < x + 100 * us))).length →
      ∃ u : State, exec (.channelTestStart t p c) s = .next (u.showPair p) ∧ (u.channel p c).state = 1 ∧ (u.channel p c).since = t ∧
        (u.channel p c).bad = (s.channel p c).bad) ∧
    (((s.channel p c).naks.filter (fun x => decide (t < x + 100 * us))).length ≤ 16 → exec (.channelTestStart t p c) s = .next (s.begin t))) ∧
  (∀ (t : Time) (p c : Nat) (l : List Nat) (s : State), bundleHas p c = true → (s.channel p c).state = 1 →
    (s.channel p c).since + 4 * us ≤ t →
    let bad := (l.filter (fun w => decide (w < 68))).foldl (fun b w => insertNat w b) (s.channel p c).bad
    (bad = (s.channel p c).bad → ∃ u, exec (.channelTestDone t p c l) s = .next u ∧ (u.channel p c).state = 0 ∧ (u.channel p c).bad = bad ∧
      u.rd E.pairTestsClean p = (s.rd E.pairTestsClean p + 1) % 2 ^ 64) ∧
    (bad ≠ (s.channel p c).bad → exec (.channelTestDone t p c l) s = .next ((s.begin t).channelFails p c bad)) ∧
    (bad.length ≤ 4 → ((s.channelFails p c bad).channel p c).state = 0 ∧ ((s.channelFails p c bad).channel p c).bad = bad) ∧
    (4 < bad.length → (∃ d, d < bundleSize (p / 20) (p % 20) ∧ d ≠ c ∧ (s.channel p d).state ≠ 2) →
      ((s.channelFails p c bad).channel p c).state = 2 ∧ ((s.channelFails p c bad).channel p c).bad = bad)) ∧
  (∀ f : StitchFlit, f.type ≤ 2 → f.seq < 1024 → f.ack < 1024 → f.credit < 256 → f.payload.length = 250 → stitchOf f.bytes = some f) ∧
  (∀ (c : Channel) (f : StitchFlit), c.take none = (c, true) ∧ (f.type ≠ 1 → c.take (some f) = (c, false)) ∧
    (f.type = 1 → f.seq = c.want → c.take (some f) = ({ c with want := (c.want + 1) % 1024 }, false)) ∧
    (f.type = 1 → f.seq ≠ c.want → c.take (some f) = (c, true))) ∧
  (∀ (p src : Nat) (s : State), (∀ c, c < bundleSize (p / 20) (p % 20) → (s.channel p c).state = 0) → 0 < bundleSize (p / 20) (p % 20) →
    s.channelFor p src = some (src % bundleSize (p / 20) (p % 20))) ∧
  (∀ (n k : Nat) (l : FlitLane) (s : State), n < 8 →
    (s.rd E.moduleState (32 * n + k) = 2 → k < 32 → 2 * (32 * n + k) ∈ s.roundPlaces n ∧
      (2 * (32 * n + k) + 1 ∈ s.roundPlaces n ↔ s.rd E.moduleWidth (32 * n + k) = 64)) ∧
    (s.roundPlaces n ≠ [] → (l.send (s.roundPlaces n)).next = (l.next + 1) % 2 ^ 24) ∧
    (l.held = [] → (l.arrive l.want).want = (l.want + 1) % 2 ^ 24 ∧ (l.arrive l.want).held = []) ∧
    (l.want < 2 ^ 24 → k ≠ 0 → k < 4096 → l.held = [] → (l.arrive ((l.want + k) % 2 ^ 24)).want = l.want ∧
      (l.arrive ((l.want + k) % 2 ^ 24)).held = [(l.want + k) % 2 ^ 24])) ∧
  (∀ (t : Time) (k : Nat) (s : State), k < 10 → exec (.ringEntryWait t k) s = .next ((s.begin t).bump E.ringEntryWaits k 1))

/-- Fabric time: the first offset of a selected source, or the next after an arm, is removed by a step, any other by rate within
RATE_LIMIT; TIME frames are sent with the device's key and its stamp, refused when malformed, and measure a link by R400; a
parent that is silent is lost; PTP messages of the domain are taken at ports that take part. The rate within its bound is a
free value (log 140); PARENT_CHANGED and the details of PTP are the model's choice (logs 143 and 144). -/
def Obligations.FabricTimeSources : Prop :=
  (∀ (t : Time) (s : State), exec (.timeSync t) s = .next (s.begin t)) ∧
  (∀ (off : Int) (s : State),
    (s.rd E.timeState 0 = tsFreeRun ∨ s.clock.armed = true → (s.measured off).rd E.timeState 0 = tsAcquiring ∧
      (s.measured off).rd E.stepDone 0 = 1 ∧ (s.measured off).clock.armed = false) ∧
    (s.rd E.timeState 0 ≠ tsFreeRun → s.clock.armed = false → 0 < s.rd E.rateLimit 0 → s.rd E.rateLimit 0 ≤ 200000 →
      ((s.measured off).rdInt 32 E.rateAdj 0).natAbs ≤ 1000 * s.rd E.rateLimit 0 ∧ (s.measured off).now = s.now ∧
      (s.rd E.stepThreshold 0 < off.natAbs → (s.measured off).rdInt 32 E.rateAdj 0 =
        if off < 0 then -(1000 * s.rd E.rateLimit 0 : Int) else 1000 * s.rd E.rateLimit 0))) ∧
  (∀ (a : Access) (v : Nat) (s : State), s.Takes a E.stepArm 0 1 v true →
    (stepArmRule s = .ok → v ≠ 0 → ∃ u, exec (.stepArm a v) s = .next u ∧ u.clock.armed = true ∧ u.rd E.stepStatus 0 = 0) ∧
    (stepArmRule s ≠ .ok → ∃ u, exec (.stepArm a v) s = .next u ∧ u.clock.armed = s.clock.armed ∧ u.rd E.stepStatus 0 = 4)) ∧
  (∀ (t : Time) (port : Nat) (s : State), s.linkMode port = true →
    ((s.begin t).takeCells (dieOf port) 3 1 = none →
      exec (.timeFrameSend t port) s = .next ((s.begin t).poolEmpty (dieOf port) 3)) ∧
    ((s.begin t).takeCells (dieOf port) 3 1 ≠ none → ∃ u, exec (.timeFrameSend t port) s = .next u ∧
      u.out = [.link port ((s.begin t).timeBody port)] ∧
      (u.linkTime port).seq = ((s.linkTime port).seq + 1) % 256 ∧
      (u.linkTime port).sent = (((s.linkTime port).seq, t) :: (s.linkTime port).sent).take 4 ∧
      ∀ p, p ≠ port → u.linkTime p = s.linkTime p)) ∧
  (∀ (t : Time) (port : Nat) (b : BitVec 192) (s : State),
    let w := (s.begin t).attach (dieOf port) 0 64
    ((s.port port).mftNow = false → exec (.timeFrameReceive t port b) s = .next (if s.isUp port then w.drop .mftDisabled port else w)) ∧
    ((s.port port).mftNow = true → linkFormOk b 3 = false →
      exec (.timeFrameReceive t port b) s = .next (if s.isUp port then w.drop .malformed port else w)) ∧
    (linkFormOk b 3 = true → s.linkMode port = true →
      (bits b.toNat 166 165 = 3 ∨ 1000000000 ≤ bits b.toNat 85 56 →
        exec (.timeFrameReceive t port b) s = .next (w.bump E.timeIgnored 0 1)) ∧
      (bits b.toNat 166 165 ≠ 3 → bits b.toNat 85 56 < 1000000000 →
        exec (.timeFrameReceive t port b) s = .next (w.takeTime port b.toNat)))) ∧
  (∀ (p v : Nat) (t1 : Time) (s : State), (s.linkTime p).stampOf (bits v 175 168) = some t1 → bit v 167 = true →
    let rtt := ftDiff s.now t1 - (bits v 39 0 : Int)
    let delay := rtt / 2 + s.rdInt 32 E.linkAsym p * 4096
    (0 ≤ rtt → s.measureLink p v = some (delay, ftDiff (timeOfLayout (bits v 117 40)) s.now + delay)) ∧ (rtt < 0 → s.measureLink p v = none)) ∧
  (∀ (t : Time) (p : Nat) (s : State), s.clock.parent = some (3, p) →
    exec (.parentTimeout t) s = .next (((s.begin t).setLinkTime p { s.linkTime p with said := none }).loseParent)) ∧
  (∀ (t : Time) (port : Nat) (m : Ptp) (s : State), port < 1026 → ((s.begin t).ptpEval).ptpOn port = true →
    (m.domain ≠ s.rd E.ptpDomain 0 ∨ (m.udp = true ∧ port < 1024) → exec (.ptpMessage t port m) s = .next (s.begin t).ptpEval) ∧
    (m.domain = s.rd E.ptpDomain 0 → m.udp = false ∨ 1024 ≤ port →
      exec (.ptpMessage t port m) s = .next ((s.begin t).ptpEval.takePtp port m))) ∧
  (∀ (t : Time) (port : Nat) (s : State), let w := (s.begin t).ptpEval
    port < 1026 → w.ptpOn port = true → w.rd E.ptpPortState port = psMaster →
    ∃ u, exec (.ptpMessageSend t port 0) s = .next u ∧ ∃ m f : Ptp, u.out = w.out ++ [.ptp port m, .ptp port f] ∧ m.kind = 0 ∧
      m.twoStep = true ∧ f.kind = 8 ∧ f.seq = m.seq ∧ f.stamp = t ∧ m.src = ptpId port ∧ m.domain = s.rd E.ptpDomain 0) ∧
  (∀ (t : Time) (port : Nat) (up : Bool) (s : State), port < 2 →
    exec (.mgmtPortLinkChange t port up) s = .next (((s.begin t).setClock { s.clock with
      mgmtUp := if up then insertNat port s.clock.mgmtUp else s.clock.mgmtUp.filter (fun p => p != port) }).ptpEval))

/-- Board groups, pulses and captures: the leader drives its clock and a second's word, a member takes a word with a right CRC and
misses any other; an output fires at its next edge; an edge is captured in order, lost and told when its queue is full, and
read out oldest first. The number a pulse pin shows and the answers to a bad TPO record are the model's choice (log 146). -/
def Obligations.GroupsPulsesAndCaptures : Prop :=
  (∀ (t : Time) (s : State), s.rd E.groupRole 0 = 1 → t % sec = 0 → s.power.vio = true →
    exec (.groupSyncEmit t) s = .next { s.begin t with out := [.pin 4 (groupWord (t / sec) (s.rd E.timeState 0))] }) ∧
  (∀ s : State, s.trefSwings = true ↔ s.power.vio = true ∧ s.rd E.groupRole 0 = 1) ∧
  (∀ (n st : Nat), let w := groupWord n st
    w % 256 = crc8 (toBytes 5 (w / 256)) ∧ bits w 47 16 = n % 2 ^ 32 ∧ bits w 15 14 = st % 4 ∧ bits w 13 8 = 0) ∧
  (∀ (t : Time) (w : BitVec 48) (s : State), s.rd E.groupRole 0 = 2 → s.power.vio = true →
    exec (.groupSyncWord t w) s = .next (if crc8 (toBytes 5 (w.toNat / 256)) = w.toNat % 256 then (s.begin t).takeWord w.toNat
      else (s.begin t).missWord)) ∧
  (∀ (t : Time) (s : State), s.rd E.groupRole 0 = 2 → exec (.groupWordMissing t) s = .next (s.begin t).missWord ∧
    (s.rd E.groupState 0 = 1 → exec (.trefInLost t) s = .next (s.begin t).loseLock)) ∧
  (∀ (s : State),
    (s.clock.missed = 0 → s.missWord.clock.missed = 1 ∧ s.missWord.clock.edges = 0 ∧ s.missWord.rd E.groupState 0 = s.rd E.groupState 0) ∧
    (0 < s.clock.missed → s.rd E.groupState 0 = 1 → s.missWord.rd E.groupState 0 = 2 ∧ s.missWord.clock.own = true)) ∧
  (∀ (a : Access) (k : Nat) (v : BitVec 160) (s : State), s.Takes a E.tpoConfig k 20 v.toNat true → tpoRule v.toNat a.t (s.begin a.t) = .ok →
    ∃ u, exec (.tpoConfig a k v) s = .next u ∧ u.rd E.tpoConfig k = v.toNat / 2 ^ 31 * 2 ^ 31 ∧ (u.pulse k).from_ = a.t + us ∧
      (u.pulse k).old = (s.begin a.t).pulseAt k a.t ∧
      SameBut [(E.tpoConfig, k), (E.tpoNext, k), (E.commitLast, 0), (E.domainState, 18 + s.keeper)] s u) ∧
  (∀ (t : Time) (k : Nat) (s : State), k < 4 → s.power.vio = true → (s.begin t).nextEdge k = some t →
    let r := s.pulseAt k t
    ∃ u, exec (.tpoEdge t k) s = .next u ∧ u.out = [.pin k (bits r 63 32 * 2 + bits r 31 31)] ∧ (u.pulse k).last = some t ∧
      SameBut [(E.tpoNext, k)] s u) ∧
  (∀ (t : Time) (k : Nat) (fall : Bool) (s : State), k < 2 → s.power.vio = true → s.rd E.tcapEdge k = 2 ∨ s.rd E.tcapEdge k = b2n fall →
    let c := s.capture k
    (c.queue.length < 64 → ∃ u, exec (.tcapEdge t k fall) s = .next u ∧ (u.capture k).queue = c.queue ++ [(b2n fall, t, c.lost)] ∧
      (u.capture k).lost = 0 ∧ u.rd E.tcapPending k = c.queue.length + 1 ∧ SameBut [(E.tcapPending, k)] s u) ∧
    (64 ≤ c.queue.length → ∃ u : State, exec (.tcapEdge t k fall) s = .next (if c.told then u else u.raise 0x3008 1 31 [.v 16 k]) ∧
      (u.capture k).queue = c.queue ∧ (u.capture k).lost = c.lost + 1 ∧ u.rd E.tcapLost k = (s.rd E.tcapLost k + 1) % 2 ^ 64)) ∧
  (∀ (a : Access) (k : Nat) (s : State), s.Gives a E.tcapPop k true →
    ((s.capture k).queue = [] → ∃ u, exec (.tcapPop a k) s = .next u ∧ u.out = [.item stOk 0]) ∧
    (∀ e x n r, (s.capture k).queue = (e, x, n) :: r → ∃ u, exec (.tcapPop a k) s = .next u ∧
      u.out = [.item stOk (pack [(1, 1), (1, e), (78, timeLayout x), (16, n), (32, 0)])] ∧ (u.capture k).queue = r ∧
      u.rd E.tcapPending k = r.length))

/-- Dies, keepers and peers: a die declared is excluded once with its cause and time; the standby takes over without touching
fabric time, or is switched to, or rejoins; beats keep a peer ALIVE, their absence makes it LOST and ends what it shares, and
a newer home-set version that leaves this device out frees the operation here. A write of 0 that commands nothing and what a
takeover drops are the model's choice (logs 99, 111 and 137). -/
def Obligations.DiesKeepersAndPeers : Prop :=
  (∀ (t : Time) (d : Nat) (s : State),
    exec (.healthFlitAbsent t d) s = .next (if d = 18 + s.keeper then s.begin t else (s.begin t).excludeDie d 1) ∧
    exec (.healthFlitFatal t d) s = .next (if d = 18 + s.keeper then s.begin t else (s.begin t).excludeDie d 2)) ∧
  (∀ (d cause : Nat) (s : State),
    (s.rd E.dieState d = 1 ∨ 20 ≤ d → s.excludeDie d cause = s) ∧
    (d < 20 → (s.markExcluded d cause).rd E.dieState d = 1 ∧ (s.markExcluded d cause).rd E.dieCause d = cause ∧
      (s.markExcluded d cause).rd E.dieExcludedAt d = timeLayout s.now)) ∧
  (∀ (t : Time) (fatal : Bool) (s : State), s.keeper < 2 →
    (s.rd E.standbyState 0 = 2 → exec (.keeperTakeover t fatal) s
      = .next ((s.begin t).takeover (if fatal then 2 else 1) (if fatal then 2 else 1))) ∧
    (s.rd E.standbyState 0 ≠ 2 → exec (.keeperTakeover t fatal) s = .next ((s.begin t).deviceReset 6))) ∧
  (∀ (cause why : Nat) (s : State), s.keeper < 2 → let u := s.takeover cause why
    u.keeper = 1 - s.keeper ∧ u.rd E.takeovers 0 = (s.rd E.takeovers 0 + 1) % 2 ^ 64 ∧ u.now = s.now ∧
    u.rd E.timeState 0 = s.rd E.timeState 0 ∧ u.rd E.rateAdj 0 = s.rd E.rateAdj 0 ∧ u.rd E.stepDone 0 = s.rd E.stepDone 0 ∧
    u.rd E.dieState (18 + (1 - s.keeper)) = 0 ∧
    u.rd E.dieState (18 + s.keeper) = (if cause = 3 then 2 else 1) ∧ u.rd E.standbyState 0 = (if cause = 3 then 2 else 3) ∧
    u.mgmt.waiting = [] ∧ u.mgmt.mbx = .idle) ∧
  (∀ (a : Access) (v : Nat) (s : State),
    (s.Takes a E.keeperSwitch 0 1 v true → s.rd E.standbyState 0 = 2 → v ≠ 0 →
      exec (.keeperSwitch a v) s = .next (((s.commitAt a).takeover 3 0).answerItem stOk)) ∧
    (s.Takes a E.keeperSwitch 0 1 v true → s.rd E.standbyState 0 ≠ 2 →
      exec (.keeperSwitch a v) s = .next ((s.begin a.t).answerItem stRefused)) ∧
    (s.Takes a E.keeperRejoin 0 1 v true → s.rd E.standbyState 0 = 0 ∨ s.rd E.standbyState 0 = 3 → v ≠ 0 →
      ∃ u, exec (.keeperRejoin a v) s = .next u ∧ u.rd E.standbyState 0 = 1 ∧ u.power.rejoin = some a.t) ∧
    (s.Takes a E.keeperRejoin 0 1 v true → s.rd E.standbyState 0 = 1 ∨ s.rd E.standbyState 0 = 2 →
      exec (.keeperRejoin a v) s = .next ((s.begin a.t).answerItem stRefused))) ∧
  (∀ (t : Time) (s : State), s.power.rejoin.isSome = true → s.keeper < 2 → ∃ u, exec (.keeperRejoined t) s = .next u ∧
    u.rd E.standbyState 0 = 2 ∧ u.rd E.dieState (18 + (1 - s.keeper)) = 2 ∧ u.rd E.dieCause (18 + (1 - s.keeper)) = 0 ∧ u.power.rejoin = none) ∧
  (∀ (t : Time) (s : State), s.gei ≠ 0 → let w := (s.begin t).knowPeers
    let body := toBytes 24 (pack [(24, s.gei), (8, 0), (32, s.coll.beatSeq), (78, timeLayout t), (50, 0)])
    let u := w.peerSet.foldl (fun (z : State) d => z.sendPeer d 5 body) w
    exec (.hsBeatSend t) s = .next { u with
      coll := { u.coll with beatSeq := (s.coll.beatSeq + 1) % 2 ^ 32 } } ∧ ∀ d ∈ w.peerSet, (w.coll.peers.get? d).isSome = true) ∧
  (∀ (t : Time) (p : Peer) (b : List Byte) (x : PeerDev) (s : State), s.PeerTaken p 5 b → b.length = 24 →
    s.coll.peers.get? (field b 0 3) = some x →
    let w := (s.begin t).setPeer (field b 0 3) { beat := t }
    exec (.hsBeat t p b) s = .next (if x.lost then (w.raise 0x9007 0 31 [.v 24 (field b 0 3)]).tellVersions (field b 0 3) else w)) ∧
  (∀ (t : Time) (d : Nat) (x : PeerDev) (s : State), s.coll.peers.get? d = some x → x.lost = false →
    (x.beat + s.rd E.hsLost 0 ≤ t → (s.begin t).peerSet.contains d = true → exec (.peerLost t d) s
      = .next ((((s.begin t).setPeer d ⟨x.beat, true⟩).raise 0x9006 2 31 [.v 24 d, .tm x.beat]).losePeer d)) ∧
    (t < x.beat + s.rd E.hsLost 0 → exec (.peerLost t d) s = .next (s.begin t))) ∧
  (∀ (t : Time) (p : Peer) (b : List Byte) (c : Nat) (x : Ctx) (s : State), s.PeerTaken p 7 b → b.length = 33 → field b 0 1 = 3 →
    s.ctxOf (field b 1 4) = some c → s.coll.ctxs.get? c = some x →
    let ahead := (field b 9 24 % 256 + 256 - x.ver) % 256
    exec (.exchangeHsetVer t p b) s = .next (if ahead = 0 ∨ 128 ≤ ahead ∨ bit (field b 9 24) 8 = true then s.begin t
      else (((s.begin t).freeCtx c).stripesReleased (field b 1 4)).raise 0x9008 0 31 [.v 32 (field b 1 4), .v 8 (field b 9 24 % 256)])) ∧
  (∀ (t : Time) (n : Nat) (g : Graph) (s : State), s.graphs.slots.get? n = some g → g.migrating = true → g.run = none →
    ∃ u y, exec (.migrationDone t n) s = .next u ∧ u.graphs.slots.get? n = some y ∧ y.migrating = false ∧ y.moved = [])

/-- Parity groups and rebuilds: creation and deletion start their two phases at the devices that the record names, a query answers
the group; PARITY_DONE and the wait let a data device report its fence, a commit makes pending parity committed and an abort
drops it; a rebuild starts as its rule allows and restores both copies; a coarse fill clears LOST with zeros. What other
devices answer comes as operands (log 10); the codes of refusals are the model's choice (logs 101 and 102). -/
def Obligations.ParityGroupsAndRebuilds : Prop :=
  (∀ (a : Access) (v : BitVec 384) (g : Graph) (s : State), let p := parityOf v.toNat
    s.Takes a E.parityCreate 0 48 0 (s.ownsJob a p.job) →
    (parityMalformed v.toNat = true → ∃ u, exec (.parityCreate a v) s = .next u ∧ u.out = [.item stRefused 0] ∧ u.rd E.parityStatus 0 = 1) ∧
    (parityMalformed v.toNat = false → s.graphFor p = some g → (s.begin a.t).leads a g.op = true → (p.pgei :: p.data).contains s.gei = true →
      exec (.parityCreate a v) s = .next ((((s.commitAt a).wr E.parityStatus 0 0xFF).startLed 8 (parityKey p.job p.group) (toBytes 48 v.toNat)
        (p.data ++ [p.pgei]) noGei (parityPhase v.toNat)).answerItem stOk))) ∧
  (∀ (a : Access) (v : BitVec 32) (p : Parity) (s : State), let r := v.toNat / 256 * 256
    let key := parityKey (bits r 31 16) (bits r 15 8)
    s.Takes a E.parityDelete 0 4 0 (s.ownsJob a (bits r 31 16)) → s.graphs.parity.get? key = some p →
    exec (.parityDelete a v) s = .next ((((s.commitAt a).wr E.parityStatus 0 0xFF).startLed 9 key (toBytes 4 r)
      (p.data ++ [p.pgei]) noGei (parityDropPhase key)).answerItem stOk)) ∧
  (∀ (a : Access) (v : BitVec 128) (s : State), s.Takes a E.parityQuery 0 16 0 (s.ownsJob a (bits v.toNat 127 112)) →
    let key := parityKey (bits v.toNat 127 112) (bits v.toNat 111 104)
    (∃ u, exec (.parityQuery a v) s = .next u ∧ u.out = [.item stOk 0] ∧
      SameBut [(E.parityQuery, 0), (E.commitLast, 0), (E.domainState, 18 + s.keeper)] s u ∧
      u.Answers E.parityQuery (parityAnswer v.toNat)) ∧
    ∀ w : State, bits (parityAnswer v.toNat w) 127 104 = bits v.toNat 127 104 ∧
      (w.graphs.parity.get? key = none → bits (parityAnswer v.toNat w) 103 0 = 0) ∧
      ∀ p, w.graphs.parity.get? key = some p → p.admitted = true →
        bits (parityAnswer v.toNat w) 103 100 = (p.state + 1) % 16 ∧
        bits (parityAnswer v.toNat w) 99 98 = (if p.pgei = w.gei then 2 else 1) ∧
        bits (parityAnswer v.toNat w) 95 64 = (p.committed.getD 0) % 2 ^ 32 ∧
        bits (parityAnswer v.toNat w) 63 32 = p.pages % 2 ^ 32) ∧
  (∀ (t : Time) (p : Peer) (b : List Byte) (g : Parity) (s : State), s.PeerTaken p 11 b → b.length = 8 →
    s.graphs.parity.get? (parityKey (field b 2 2) (field b 1 1)) = some g → g.admitted = true →
    let ver := field b 4 4
    (field b 0 1 = 0 → p.src = g.pgei → g.round = some ver → g.state ≠ 2 →
      exec (.parityDone t p b) s = .next (((s.begin t).setParity { g with doneFor := some ver }).parityReport g)) ∧
    (field b 0 1 = 1 → g.pgei = s.gei → g.data.contains p.src = true → g.told ≠ some ver → g.state ≠ 2 →
      (g.pending.isSome = true → g.full = true → ∃ q, exec (.parityCommitted t p b) s = .next ((s.begin t).setParity q) ∧
        q.committed = some ver ∧ q.cPages = g.pPages ∧ q.pending = none ∧ q.state = 0) ∧
      (g.pending = none ∨ g.full = false → ∃ q, exec (.parityCommitted t p b) s = .next ((s.begin t).unprotect q ver) ∧
        q.committed = g.committed ∧ q.cPages = g.cPages ∧ q.pending = none)) ∧
    (field b 0 1 = 2 → g.pgei = s.gei → g.data.contains p.src = true →
      exec (.parityAborted t p b) s = .next ((s.begin t).setParity { g with
        pending := none, pPages := [] }))) ∧
  (∀ (t : Time) (j k ver : Nat) (g : Parity) (s : State), s.graphs.parity.get? (parityKey j k) = some g → g.round = some ver →
    g.admitted = true → g.state ≠ 2 → g.doneFor ≠ some ver → g.waived ≠ some ver → g.storedAt + s.rd E.parityWait 0 ≤ t →
    exec (.parityWaitExpiry t j k) s = .next (((s.begin t).unprotect { g with waived := some ver } ver).parityReport g)) ∧
  (∀ (a : Access) (v : BitVec 64) (vs halted : Bool) (p : Parity) (s : State),
    s.Takes a E.rebuildStart 0 8 0 (s.ownsJob a (bits v.toNat 63 48)) →
    s.graphs.parity.get? (parityKey (bits v.toNat 63 48) (bits v.toNat 47 40)) = some p →
    (rebuildRule v.toNat vs halted (s.begin a.t) = .ok → exec (.rebuildStart a v vs halted) s
      = .next (((s.commitAt a).startRebuild p (bits v.toNat 39 36) (bits v.toNat 31 0)).answerItem stOk)) ∧
    (bits v.toNat 39 36 < p.data.length → p.committed ≠ some (bits v.toNat 31 0) →
      ∃ u, exec (.rebuildStart a v vs halted) s = .next u ∧ u.rd E.rebuildStatus 0 = 2 ∧ u.out = [.item stRefused 0])) ∧
  (∀ (t : Time) (ver : Nat) (l : List (Nat × Nat × Nat × Nat)) (r : Rebuild) (s : State), s.graphs.rebuild = some r → r.count ≠ 0 →
    exec (.rebuildDone t true ver l) s = .next ((s.begin t).failRebuild r) ∧
    (r.pages.length < r.count → exec (.rebuildDone t false ver l) s = .next (s.begin t)) ∧
    (r.count ≤ r.pages.length → r.target ≠ s.gei → exec (.rebuildDone t false ver l) s
      = .next ((((s.begin t).wr E.rebuildStatus 0 0).raise 0x900E 0 31 [.v 16 r.group, .v 32 r.count]).endRebuild r))) ∧
  (∀ (h k ver : Nat) (x : List Nat) (y : Tensor) (s : State), s.tensor? h = some y → y.handle = h →
    ∃ z, (s.restoreStripe h k ver x).tensor? h = some z ∧ z.version = ver ∧ (z.stripe k).lost = false ∧
      (z.stripe k).c0 = (z.stripe k).c1 ∧ (z.stripe k).c0.ver = ver ∧ (z.stripe k).c0.vals = x.take (y.present k)) ∧
  (∀ (a : Access) (v : BitVec 128) (y : Tensor) (s : State), let h := bits v.toNat 127 96
    s.Takes a E.coarseFill 0 16 0 (s.ownsJob a (h / 65536)) → s.tensor? h = some y → y.handle = h → s.haltedFor h = true →
    ∃ u, exec (.coarseFill a v) s = .next u ∧ ∀ k ∈ s.heldStripes y, bits v.toNat 95 64 ≤ k → k < bits v.toNat 95 64 + bits v.toNat 63 32 →
      (y.stripe k).lost = true → ∃ z, u.tensor? h = some z ∧ (z.stripe k).lost = false ∧ (z.stripe k).cur.vals = List.replicate (y.present k) 0)

/-- Jobs: a start that its checks pass joins the queue and is admitted at once when it is alone, no retire is RETIRING and its
quotas fit, a refused one is told; a pending start can be withdrawn or time out; a retire or an advance purges, and completes
into QUARANTINE or the next generation; queries answer the job's state and quotas. Where a refused start is stored, the purge
in one step and the two modes of one entry are the model's choice (logs 130 to 134). -/
def Obligations.Jobs : Prop :=
  (∀ (a : Access) (v : BitVec 512) (s : State), s.Takes a E.jobStart 0 64 0 true →
    ((s.begin a.t).startCode v.toNat = 0 → exec (.jobStart a v) s = .next ((State.takeStart v.toNat (s.commitAt a)).answerItem stOk)) ∧
    ((s.begin a.t).startCode v.toNat ≠ 0 → exec (.jobStart a v) s
      = .next ((State.startRefused v.toNat (s.begin a.t)).answerItem stRefused))) ∧
  (∀ (v : Nat) (s : State), let tag := bits v 511 496
    let u := State.takeStart v s
    s.startCode v = 0 → tag ∉ s.starts → (s.job tag).state = .free ∨ (s.job tag).state = .quarantine →
    (s.starts = [] → s.power.brace = none → s.retiringAny = false → quotasFit v s.quotasFree = true →
      (u.job tag).state = .active ∧ (u.job tag).gen = bits v 495 488 ∧ (u.job tag).status = 0 ∧ u.starts = []) ∧
    (s.power.brace.isSome = true ∨ s.retiringAny = true ∨ (s.starts = [] ∧ quotasFit v s.quotasFree = false) →
      (u.job tag).state = .pending ∧ (u.job tag).status = 4 ∧ u.starts = s.starts ++ [tag])) ∧
  (∀ (a : Access) (tag : Nat) (s : State), s.Takes a E.jobWithdraw 0 2 tag true →
    ((s.job tag).state = .pending → ∃ u, exec (.jobWithdraw a tag) s = .next u ∧ (u.job tag).state = .free ∧ (u.job tag).status = 8 ∧
      u.starts = s.starts.filter (fun x => x != tag) ∧ u.rd E.jobWithdrawStatus 0 = 8) ∧
    ((s.job tag).state ≠ .pending → ∃ u, exec (.jobWithdraw a tag) s = .next u ∧ u.jobs = s.jobs ∧ u.starts = s.starts ∧
      u.rd E.jobWithdrawStatus 0 = 0x0B ∧ u.out = [.item stRefused 0])) ∧
  (∀ (t : Time) (tag : Nat) (s : State), let n := bits (s.job tag).record.toNat 335 320
    (s.job tag).state = .pending → n ≠ 0 → (s.job tag).since + n * ms ≤ t →
    exec (.pendingLimitExpiry t tag) s = .next (let u := (s.begin t).evalStarts 65
      if (u.job tag).state = .pending then u.dropStart tag 7 else u)) ∧
  (∀ (a : Access) (v : BitVec 32) (s : State), s.Takes a E.jobRetire 0 4 0 true → let tag := bits v.toNat 31 16
    ((s.begin a.t).retireCode v.toNat = 0 →
      exec (.jobRetire a v) s = .next ((State.takeRetire v.toNat (s.commitAt a)).answerItem stOk) ∧
      exec (.jobAdvance a v) s = .next ((State.takeRetire v.toNat (s.commitAt a)).answerItem stOk)) ∧
    (tag ≠ 0 → bits v.toNat 7 0 ≤ 1 → (s.job tag).state = .retiring → ∃ u, exec (.jobRetire a v) s = .next u ∧
      u.jobs = s.jobs.set tag { s.job tag with status := 2 } ∧ u.rd E.jobRetireStatus 0 = 2 ∧ u.out = [.item stRefused 0])) ∧
  (∀ (v : Nat) (s : State), let tag := bits v 31 16
    let adv := bits v 7 0 == 1
    let j : Job := { s.job tag with
      state := .retiring, status := 0xFF, since := s.now, advance := adv, retired := s.now, slow := false }
    ((s.job tag).state = .active → State.takeRetire v s = ((s.setJob tag j).wr E.jobRetireStatus 0 0xFF).purge tag adv) ∧
    ((s.job tag).state = .pending → (State.takeRetire v s) = (s.dropStart tag 8).wr E.jobRetireStatus 0 8)) ∧
  (∀ (tag : Nat) (s : State), let u := s.purge tag false
    (∀ x ∈ u.graphs.tensors, x.1 / 65536 ≠ tag) ∧ (∀ x ∈ u.spawns, x.2.job ≠ tag) ∧
    ∀ x ∈ (s.purge tag true).graphs.parity, x.2.job = tag → x.2.pending = none ∧ x.2.state ≠ 0) ∧
  (∀ (t : Time) (tag : Nat) (s : State), let j := s.job tag
    j.state = .retiring → s.drainingOf tag = [] → (tag ∉ s.starts) →
    ∃ u, exec (.jobRetired t tag) s = .next u ∧ (u.job tag).since = t ∧ (u.job tag).state = (if j.advance then .active else .quarantine) ∧
      (u.job tag).gen = (if j.advance then (j.gen + 1) % 256 else j.gen) ∧ (j.gen, t) ∈ (u.job tag).old ∧
      u.rd E.jobRetireStatus 0 = if j.advance then 0 else 0x0A) ∧
  (∀ (t : Time) (tag : Nat) (s : State), let j := s.job tag
    (j.state = .retiring → s.drainingOf tag ≠ [] → exec (.jobRetired t tag) s = .next (s.begin t)) ∧
    (j.state = .retiring → s.drainingOf tag ≠ [] → j.slow = false → j.retired + 100 * ms ≤ t →
      exec (.retireSlow t tag) s = .next (((s.begin t).setJob tag { j with slow := true }).raise 0x7014 1 31
        ([.v 16 tag, .v 8 j.gen] ++ (s.drainingOf tag).foldl (fun l x => l ++ [.v 8 x.1, .v 16 x.2]) []))) ∧
    (j.state = .quarantine → j.since + 10 * sec ≤ t →
      exec (.quarantineEnd t tag) s = .next ((s.begin t).setJob tag { j with state := .free, since := t })) ∧
    (j.state = .quarantine → t < j.since + 10 * sec → exec (.quarantineEnd t tag) s = .next (s.begin t))) ∧
  (∀ (a : Access) (v : BitVec 256) (s : State), s.Takes a E.jobQuery 0 32 0 (s.ownsJob a (bits v.toNat 255 240)) →
    (∃ u, exec (.jobQuery a v) s = .next u ∧ u.out = [.item stOk 0] ∧
      SameBut [(E.jobQuery, 0), (E.commitLast, 0), (E.domainState, 18 + s.keeper)] s u ∧ u.Answers E.jobQuery (jobAnswer v.toNat)) ∧
    ∀ w : State, let j := w.job (bits v.toNat 255 240)
      bits (jobAnswer v.toNat w) 255 240 = bits v.toNat 255 240 ∧
      bits (jobAnswer v.toNat w) 239 236 = (j.at_ w.now).code ∧ bits (jobAnswer v.toNat w) 235 228 = j.status % 256 ∧
      bits (jobAnswer v.toNat w) 227 220 = j.gen % 256 ∧ bits (jobAnswer v.toNat w) 77 0 = timeLayout j.since % 2 ^ 78) ∧
  (∀ (a : Access) (v : BitVec 512) (s : State), s.Takes a E.jobQuota 0 64 0 (s.ownsJob a (bits v.toNat 511 496)) →
    (∃ u, exec (.jobQuota a v) s = .next u ∧ u.out = [.item stOk 0] ∧
      SameBut [(E.jobQuota, 0), (E.commitLast, 0), (E.domainState, 18 + s.keeper)] s u ∧ u.Answers E.jobQuota (quotaAnswer v.toNat)) ∧
    ∀ w : State, bits (quotaAnswer v.toNat w) 511 496 = bits v.toNat 511 496 ∧
      bits (quotaAnswer v.toNat w) 463 449 = w.jobContexts (bits v.toNat 511 496) % 2 ^ 15)

/-- Spawn sessions: opened by a record that its checks pass, closed and queried; a good block is cached once; a range request is
served in ascending order with a NACK for each run not held; an ACK joins the cover, a REPARENT is adopted up to 64 ranges; an
alternate that answers becomes the parent; a gap is asked for after 200 µs and again every 1 ms. Range requests served whole
and the fields not checked are the model's choice (logs 135 and 136). -/
def Obligations.SpawnSessions : Prop :=
  (∀ (a : Access) (v : BitVec 384) (s : State), s.Takes a E.spawnOpen 0 48 0 true →
    ((s.begin a.t).openCode v.toNat = 0 → ∃ u, exec (.spawnOpen a v) s = .next u ∧
      u.session? (bits v.toNat 367 352) (bits v.toNat 383 368) = some (sessionOf v.toNat) ∧ u.rd E.spawnStatus 0 = 0 ∧
      ∀ k, k ≠ spawnKey (bits v.toNat 367 352) (bits v.toNat 383 368) → u.spawns.get? k = s.spawns.get? k) ∧
    ((s.begin a.t).openCode v.toNat ≠ 0 → ∃ u, exec (.spawnOpen a v) s = .next u ∧ u.spawns = s.spawns ∧
      u.rd E.spawnStatus 0 = (s.begin a.t).openCode v.toNat)) ∧
  (∀ (a : Access) (v : BitVec 32) (s : State), s.Takes a E.spawnClose 0 4 0 true →
    ∃ u, exec (.spawnClose a v) s = .next u ∧ u.session? (bits v.toNat 31 16) (bits v.toNat 15 0) = none ∧
      ∀ k, k ≠ spawnKey (bits v.toNat 31 16) (bits v.toNat 15 0) → u.spawns.get? k = s.spawns.get? k) ∧
  (∀ (a : Access) (v : BitVec 256) (s : State), s.Takes a E.spawnQuery 0 32 0 (s.ownsJob a (bits v.toNat 255 240)) →
    (∃ u, exec (.spawnQuery a v) s = .next u ∧ u.out = [.item stOk 0] ∧
      SameBut [(E.spawnQuery, 0), (E.commitLast, 0), (E.domainState, 18 + s.keeper)] s u ∧ u.Answers E.spawnQuery (spawnAnswer v.toNat)) ∧
    ∀ w : State, bits (spawnAnswer v.toNat w) 255 224 = bits v.toNat 255 224 ∧
      (w.session? (bits v.toNat 255 240) (bits v.toNat 239 224) = none → bits (spawnAnswer v.toNat w) 223 0 = 0) ∧
      ∀ x, w.session? (bits v.toNat 255 240) (bits v.toNat 239 224) = some x →
        bits (spawnAnswer v.toNat w) 223 192 = x.data.length % 2 ^ 32 ∧ bits (spawnAnswer v.toNat w) 191 160 = x.missing.length % 2 ^ 32 ∧
        bits (spawnAnswer v.toNat w) 133 110 = x.parent % 2 ^ 24 ∧ bits (spawnAnswer v.toNat w) 109 78 = x.filled.length % 2 ^ 32) ∧
  (∀ (t : Time) (f : Cf) (b : List Byte) (s : State), spawnFormOk b = false →
    exec (.spawnBlock t f b) s = .next ((s.begin t).bump E.spawnBad 0 1) ∧
    exec (.spawnAck t f b) s = .next ((s.begin t).bump E.spawnBad 0 1)) ∧
  (∀ (t : Time) (f : Cf) (b : List Byte) (x : Session) (s : State), let v := field b 0 32
    let k := bits v 231 200
    let first := k
    let n := bits v 199 168
    let r := (bits v 167 150, bits v 149 131, f.src)
    spawnFormOk b = true → s.session? f.job (bits v 247 232) = some x →
    (bits v 251 248 = 1 → x.cache = true →
      (x.blockOk b = true → exec (.spawnBlock t f b) s = .next ((s.begin t).cacheBlock x k (b.drop 32))) ∧
      (x.blockOk b = false → exec (.spawnBlock t f b) s = .next (((s.begin t).bump E.spawnBad 0 1).raiseLim ms 0 0x701C 1 31
        [.v 16 f.job, .v 8 f.gen, .v 16 x.number, .v 32 k, .v 16 f.port]))) ∧
    (bits v 251 248 = 2 → exec (.spawnRangeReq t f b) s
      = .next ((missingRuns (fun j => (x.data.get? j).isSome) n first).foldl (fun (u : State) y => u.nack f.job x.number f.src y.1 y.2)
          (((List.range n).map (fun i => first + i)).foldl (fun (u : State) j => u.serveBlock x j f.src) (s.begin t)))) ∧
    (bits v 251 248 = 3 → exec (.spawnAck t f b) s
      = .next (((s.begin t).setSession { x with
          cover := joinRange x.cover (bits v 167 150, bits v 149 131) }).ackSession (spawnKey x.job x.number))) ∧
    (bits v 251 248 = 4 → x.adopted.contains r = false → 64 ≤ x.adopted.length →
      exec (.spawnReparent t f b) s = .next ((s.begin t).nack f.job (bits v 247 232) f.src 0 0)) ∧
    (bits v 251 248 = 4 → x.adopted.contains r = false → x.adopted.length < 64 → ∃ u : State, exec (.spawnReparent t f b) s
        = .next (u.ackSession (spawnKey f.job (bits v 247 232))) ∧ u.rd E.reparents 0 = (s.rd E.reparents 0 + 1) % 2 ^ 64 ∧
      ∀ y, u.spawns.get? (spawnKey x.job x.number) = some y → y.adopted = x.adopted ++ [r]) ∧
    (∀ j, x.alt = some j → x.alts.getD j 0 = f.src →
      (bits v 251 248 = 5 → exec (.spawnAdopted t f b) s = .next ((((s.begin t).setSession { x with
          parent := f.src, alt := none, acked := [] }).raise 0x7019 1 31
            [.v 16 f.job, .v 8 f.gen, .v 16 x.number, .v 24 x.parent, .v 24 f.src]).ackSession (spawnKey x.job x.number))) ∧
      (bits v 251 248 = 6 → n = 0 → exec (.spawnNack t f b) s = .next ((s.begin t).tryAlternate x (j + 1))))) ∧
  (∀ (x : Session) (k h : Nat) (d : List Byte) (s : State), s.blockStack k = some h → x.fill = false → x.data.get? k = none →
    ∃ y, (s.cacheBlock x k d).spawns.get? (spawnKey x.job x.number) = some y ∧ y.data.get? k = some (h, d) ∧
      (∀ j, j ≠ k → y.data.get? j = x.data.get? j)) ∧
  (∀ (held : Nat → Bool) (n b j : Nat), (∃ r ∈ missingRuns held n b, r.1 ≤ j ∧ j < r.1 + r.2) ↔ b ≤ j ∧ j < b + n ∧ held j = false) ∧
  (∀ (t : Time) (x : Session) (b : Nat), (∃ e, (b, e) ∈ (x.settle t).asks) ↔ b ∈ x.missing) ∧
  (∀ (t : Time) (x : Session) (b : Nat) (e : Time), b ∈ x.missing →
    (x.asks.find? (fun y => y.1 == b) = some (b, e) → (b, e) ∈ (x.settle t).asks) ∧
    ((∀ y ∈ x.asks, y.1 ≠ b) → (b, t + 200 * us) ∈ (x.settle t).asks)) ∧
  (∀ (t : Time) (job n : Nat) (x : Session) (s : State), s.session? job n = some x →
    let due := (x.asks.filter (fun y => decide (y.2 ≤ t))).map (·.1)
    exec (.spawnGapTimer t job n) s
      = .next (((missingRuns (fun b => !due.contains b) (x.high.getD 0) 0).flatMap (fun r => cutRun (r.2 / 4096 + 1) r.1 r.2)).foldl
          (fun (u : State) r => u.sendSpawn job x.parent (spawnBody 2 n r.1 r.2 0 0 0) []) ((s.begin t).setSession { x with
            asks := x.asks.map (fun y => if y.2 ≤ t then (y.1, t + ms) else y) })))

/-- Counters, snapshots and samples: a counter is cleared by a nonzero write, selected by a record that its rule allows with its
value at 0, and wraps at 2^48 with OVF set; an instant of the configuration in force is written, or counted as missed; a
sampler counts its eligible events down and takes the one that brings a countdown to 0. COUNTER_WRAP's amount and what a
sampler reloads are the model's choice (logs 155 and 156). -/
def Obligations.CountersSnapshotsAndSamples : Prop :=
  (∀ (a : Access) (k v : Nat) (s : State), s.Takes a E.counterValue k 8 v true →
    ∃ u, exec (.counterValue a k v) s = .next u ∧ u.rd E.counterValue k = (if v = 0 then s.rd E.counterValue k else 0) ∧ u.out = [.item stOk 0] ∧
      SameBut [(E.counterValue, k), (E.commitLast, 0), (E.domainState, 18 + s.keeper)] s u) ∧
  (∀ (a : Access) (k : Nat) (v : BitVec 128) (s : State), s.Takes a E.counterSelect k 16 0 true →
    (selectRule k v.toNat s = .ok → ∃ u, exec (.counterSelect a k v) s = .next u ∧ u.rd E.counterSelect k = selectMask v.toNat ∧
      u.rd E.counterValue (6 * (k / 4) + k % 4) = 0 ∧
      SameBut [(E.counterSelect, k), (E.counterValue, 6 * (k / 4) + k % 4), (E.commitLast, 0), (E.domainState, 18 + s.keeper)] s u) ∧
    (selectRule k v.toNat s = .range → exec (.counterSelect a k v) s = .next ((s.begin a.t).answerItem stRange)) ∧
    (bits v.toNat 127 120 ≠ 0 → blockExists (k / 4) = false → selectRule k v.toNat s = .range)) ∧
  (∀ (t : Time) (k n : Nat) (s : State), blockExists (k / 6) = true → k < 960 →
    let v := s.rd E.counterValue k
    (s.blockState (k / 6) = 0 → ∃ u, exec (.counterWrap t k n) s = .next u ∧ bits (u.rd E.counterValue k) 47 0 = (v + n) % 2 ^ 48 ∧
      (2 ^ 48 ≤ v % 2 ^ 48 + n → bit (u.rd E.counterValue k) 63 = true) ∧
      (v % 2 ^ 48 + n < 2 ^ 48 → v < 2 ^ 64 → bits v 62 48 = 0 → bit (u.rd E.counterValue k) 63 = bit v 63)) ∧
    (s.blockState (k / 6) ≠ 0 → exec (.counterWrap t k n) s = .next (s.begin t))) ∧
  (∀ (t : Time) (period base mask : Nat) (fresh : Bool) (s : State), (s.begin t).snapConfig t = (period, base, mask, fresh) → 0 < period →
    ((t : Int) - (timeNear t base : Nat)) % (period : Int) = 0 →
    (exec (.snapshotInstant t true) s = .next ((s.begin t).keeperWork.writeSnap t mask fresh)) ∧
    (∃ u : State, exec (.snapshotInstant t false) s = .next (u.raiseLim sec 0 0xA002 1 31 [.v 32 (s.probes.missed + 1)]) ∧
      u.probes.missed = s.probes.missed + 1 ∧ u.rd E.snapMissed 0 = (s.rd E.snapMissed 0 + 1) % 2 ^ 64)) ∧
  (∀ (t : Time) (mask : Nat) (changed : Bool) (s : State), let u := s.writeSnap t mask changed
    u.rd E.snapNext 0 = s.rd E.snapNext 0 + 1 ∧ u.probes.missed = 0 ∧ u.probes.written = s.probes.written + 1 +
      ((List.range 160).filter (fun b => bit mask b && blockExists b)).length) ∧
  (∀ (a : Access) (k : Nat) (v : BitVec 128) (s : State), s.Takes a E.sampler k 16 0 true →
    (bits v.toNat 123 100 = 0 → exec (.sampler a k v) s = .next ((s.begin a.t).answerItem stRange)) ∧
    (bits v.toNat 123 100 ≠ 0 → bit v.toNat 126 = false → ∃ u, exec (.sampler a k v) s = .next u ∧ u.rd E.sampler k = samplerMask v.toNat ∧
      ∀ x ∈ sourcesOf (k + 1), u.probes.downs.get? (sourceKey (k + 1) x) = some (bits v.toNat 123 100))) ∧
  (∀ (t : Time) (kind src held : Nat) (r : BitVec 512) (s : State), 1 ≤ kind → kind ≤ 4 → src ∈ sourcesOf kind →
    s.rd E.dieState (sourceDie kind src) ≠ 1 → eligible (s.rd E.sampler (kind - 1)) kind r.toNat = true →
    let key := sourceKey kind src
    let n := s.probes.downs.getD key 0
    (1 < n → ∃ u, exec (.sampleTaken t kind src held r) s = .next u ∧ u.probes.downs.get? key = some (n - 1) ∧
      u.probes.samples = s.probes.samples ∧ SameBut [] s u) ∧
    (n ≤ 1 → s.probes.lastAt.get? key = none → held < 1024 → ∃ u : State, exec (.sampleTaken t kind src held r) s
      = .next (u.writeSample (sampleOf kind src r.toNat)) ∧ u.probes.lastAt.get? key = some t ∧ SameBut [] s u) ∧
    (n ≤ 1 → s.probes.lastAt.get? key = none → 1024 ≤ held → ∃ u, exec (.sampleTaken t kind src held r) s = .next u ∧
      u.rd E.samplesDropped (kind - 1) = (s.rd E.samplesDropped (kind - 1) + 1) % 2 ^ 64 ∧ u.probes.samples = s.probes.samples))

/-- Resets: power on, the pin, the supply, RESET_DEVICE and a base tile at 115 °C restart the device from its start-up step with
the cause shown, the key slots kept but at a power-on; the loss of VAON releases THERMTRIP_N; the straps are sampled at the
release. The held state after VAON_LOST is the model's choice (log 165). -/
def Obligations.Resets : Prop :=
  (∀ (t : Time) (s : State), s.power.vaon = false → exec (.powerOn t) s
    = .next (((s.begin t).setPower { s.power with vaon := true }).powerOnReset)) ∧
  (∀ (t : Time) (s : State), s.power.vaon = true → exec (.vaonLost t) s
    = .next (((s.begin t).setPower { s.power with vaon := false, trip := false, sag := false }).restartAt 1 false)) ∧
  (∀ (t : Time) (s : State), s.power.pinLow = false →
    let w := (s.begin t).setPower { s.power with pinLow := true }
    exec (.resetNAssert t) s = .next (if s.power.vaon then w.deviceReset 2 else w)) ∧
  (∀ (t : Time) (n : Nat) (s : State), s.power.pinLow = true → s.power.vaon = true →
    ∃ u, exec (.resetNRelease t n) s = .next u ∧ u.rd E.straps 0 = n % 16 ∧ u.rd E.smbAddress 0 = 0x58 + n % 8 ∧ u.power.pinLow = false ∧
      u.power.mfg = !bit n 3 ∧ (bit n 3 = true → s.power.step = 0 → s.power.sag = false → s.rd E.deviceState 0 ≠ 4 →
        u.power.step = s.power.heldStep)) ∧
  (∀ (a : Access) (v : Nat) (s : State), s.Takes a E.resetDevice 0 1 v true →
    exec (.resetDevice a v) s = .next ((if v = 1 then (s.commitAt a).deviceReset 4 else s.commitAt a).answerItem stOk)) ∧
  (∀ (t : Time) (s : State),
    (s.power.sag = false → s.power.vaon = true →
      exec (.vinResetEnter t) s = .next (((s.begin t).setPower { s.power with sag := true }).deviceReset 3)) ∧
    (s.power.sag = true → exec (.vinResetExit t) s = .next (((s.begin t).setPower { s.power with sag := false }).letStart))) ∧
  (∀ (cause : Nat) (s : State), let u := s.deviceReset cause
    u.now = 0 ∧ u.rd E.resetCause 0 = cause ∧ u.rd E.resets 0 = (s.rd E.resets 0 + 1) % 2 ^ 32 ∧ u.rd E.roleNow 0 = s.rd E.role 0 ∧
    u.rd E.deviceState 0 = 0 ∧ u.rd E.bootPref 0 = s.rd E.bootPref 0 ∧ u.rd E.fwSvnMin 0 = s.rd E.fwSvnMin 0 ∧ u.mgmt.keys = s.mgmt.keys ∧
    u.coll = {} ∧ u.graphs = {} ∧ u.jobs = [] ∧ u.spawns = [] ∧ u.pending = s.pending ∧
    u.power.step = if s.power.pinLow || s.power.sag || !s.power.vaon then 0 else 2) ∧
  (∀ (s : State), let u := s.powerOnReset
    u.now = 0 ∧ u.rd E.resetCause 0 = 1 ∧ u.rd E.resets 0 = 0 ∧ u.mgmt.keys = [] ∧ u.rd E.deviceState 0 = 0 ∧ u.jobs = [] ∧
    u.power.step = if s.power.pinLow || s.power.sag || !s.power.vaon then 0 else 1) ∧
  (∀ (t : Time) (d b p c : List (Nat × Int)) (s : State), (∃ x ∈ b, x.1 < 64 ∧ 1840 ≤ x.2) →
    ∃ u, exec (.tempSample t d b p c) s = .next u ∧ u.rd E.resetCause 0 = 8 ∧ u.power.trip = true ∧ u.thermtripPin = .low)

/-- Start-up: each step that completes is timed and the next begins; a slot that passes is booted, the other is the fallback and
none is RECOVERY; the last step makes the device READY and tells it with the reset cause; a start-up that failed is repeated
from step 3 up to three times; a partial reset starts and completes with its status. The status 0 of a partial reset is the
model's choice (log 160). -/
def Obligations.StartUp : Prop :=
  (∀ (t : Time) (ver : List Nat) (dif : Bool) (d r : List Nat) (walk : List (Nat × Nat × List Nat)) (us_ : Nat) (st : List Nat) (s : State),
    let n := s.power.step
    let w := (s.begin t).wr E.startupTimes (n - 1) ((t - s.power.stepAt) / us)
    let go := fun (m : Nat) (u : State) => n = m → exec (.startupStepDone t ver dif d r walk us_ st) s = .next u
    s.power.mfg = false →
    go 1 w.nextStep ∧ go 3 w.nextStep ∧ go 7 w.nextStep ∧
    go 4 ((List.range 8).foldl (fun (x : State) k => x.wr E.domainState k 1) w).nextStep ∧
    go 5 (w.testStep d r walk us_) ∧ go 8 w.readyStep ∧
    go 2 (if (w.bootStep ver dif).rd E.deviceState 0 = 1 then (w.bootStep ver dif).nextStep else w.bootStep ver dif) ∧
    ((∀ m, m < 256 → s.rd E.moduleState m ≠ 1) → (∀ k, k < 8 → s.rd E.engineState k ≠ 1) →
      go 6 (st.foldl (fun (x : State) h => x.excludeStack h 1) w).nextStep)) ∧
  (∀ (ver : List Nat) (dif : Bool) (s : State), s.rd E.bootPref 0 ≤ 1 →
    let p := s.rd E.bootPref 0
    (s.slotPasses ver p = true → s.bootStep ver dif = s.boot p dif) ∧
    (s.slotPasses ver p = false → s.slotPasses ver (1 - p) = true → (s.bootStep ver dif).rd E.bootSlot 0 = 1 - p) ∧
    (s.slotPasses ver p = false → s.slotPasses ver (1 - p) = false → (s.bootStep ver dif).rd E.deviceState 0 = 4 ∧
      (s.bootStep ver dif).power.step = 0)) ∧
  (∀ (slot : Nat) (s : State), let u := s.boot slot false
    u.rd E.bootSlot 0 = slot ∧ u.rd E.fwVersion 0 = (s.mgmt.fwSlots.getD slot {}).version ∧ u.rd E.keyEpoch 0 = (s.mgmt.epochFlash + 1) % 2 ^ 32 ∧
    u.rd E.standbyState 0 = 2 ∧ u.rd E.deviceState 0 = 1) ∧
  (∀ (s : State), let u := s.readyStep
    u.rd E.deviceState 0 = (if s.power.brace.isSome then 3 else 2) ∧ u.power.step = 9 ∧ u.rd E.startupTotal 0 = s.now - s.power.startAt ∧
    (u.readyPin = .high) ∧ u.rd E.resetCause 0 = s.rd E.resetCause 0) ∧
  (∀ (t : Time) (f : Time) (s : State), s.power.failedAt = some f → s.power.repeats < 3 → f + sec ≤ t →
    ∃ u, exec (.startupRetry t) s = .next u ∧ u.power.step = 3 ∧ u.power.failedAt = none ∧ u.power.repeats = s.power.repeats + 1) ∧
  (∀ (t : Time) (s : State), (s.power.failedAt = none ∨ 3 ≤ s.power.repeats) → exec (.startupRetry t) s = .next (s.begin t)) ∧
  (∀ (a : Access) (d : Nat) (s : State), s.Takes a E.dieReset 0 1 d true →
    (s.mayReset d = true → exec (.dieReset a d) s = .next (((s.commitAt a).startReset d).answerItem stOk)) ∧
    (s.mayReset d = false → exec (.dieReset a d) s = .next ((s.begin a.t).answerItem stRefused))) ∧
  (∀ (t : Time) (d : Nat) (s : State), exec (.dieRecoverableFault t d) s = .next (if s.mayReset d then (s.begin t).startReset d else s.begin t)) ∧
  (∀ (t : Time) (d : Nat) (x : Time) (s : State), d < 18 → s.power.resets.get? d = some x →
    ∃ u, exec (.dieResetDone t d []) s = .next u ∧ u.power.resets.get? d = none ∧ u.rd E.dieResetStatus 0 = 0)

/-- The supply warning, power, clocks and temperature: BRACE is entered and left with its times; the readings are shown; a phase
that fails is counted; an input lost is changed over from, or held; idle clocks stop; thresholds warn, throttle and exclude;
VIO and the TAP are taken. The clock changed over outside AUTO, the records that leave BRACE and the TAP's scans are the
model's choice (logs 161, 162 and 164). -/
def Obligations.PowerClocksAndTemperature : Prop :=
  (∀ (t : Time) (vin : Nat) (s : State), s.power.brace = none → s.power.sag = false →
    ∃ u : State, exec (.vinWarningEnter t vin) s = .next (((u.raise 0x2001 2 31 [.v 32 vin]).drainRecords).pushAll) ∧ u.power.brace = some t ∧
      u.rd E.supplyState 0 = 1 ∧ u.rd E.vinNow 0 = vin ∧ u.rd E.braceEntries 0 = (s.rd E.braceEntries 0 + 1) % 2 ^ 64 ∧
      u.rd E.deviceState 0 = if s.rd E.deviceState 0 = 2 then 3 else s.rd E.deviceState 0) ∧
  (∀ (t : Time) (vin : Nat) (b : Time) (s : State), s.power.brace = some b →
    ∃ u : State, exec (.vinWarningExit t vin) s = .next (((u.raise 0x2002 0 31 [.v 32 vin, .v 32 ((t - b) / us)]).rearmAll).reopenAll.evalStarts 65) ∧
      u.power.brace = none ∧ u.rd E.supplyState 0 = 0 ∧
      u.rd E.deviceState 0 = if s.rd E.deviceState 0 = 3 then 2 else s.rd E.deviceState 0) ∧
  (∀ (m : Stall) (limit : Nat) (t : Time), (m.rearmed limit t).d = max m.d (t + limit)) ∧
  (∀ (t : Time) (vin va vio p : Nat) (l : List Nat) (s : State),
    ∃ u : State, exec (.powerMeasure t vin va vio p l) s = .next (if s.rd E.powerLimit 0 < p then u.raiseLim sec 0 0x200B 1 31 [.v 32 p] else u) ∧
      u.rd E.vinNow 0 = vin ∧ u.rd E.vaonNow 0 = va ∧ u.rd E.vioNow 0 = vio ∧ u.rd E.powerNow 0 = p ∧
      u.rd E.powerPeak 0 = max (s.rd E.powerPeak 0) p ∧ u.rd E.vinMin 0 = min (s.rd E.vinMin 0) vin ∧ ∀ k, k < 6 → u.rd E.powerClass k = l.getD k 0) ∧
  (∀ (t : Time) (d n : Nat) (ok : Bool) (s : State), d < 20 →
    let w := ((s.begin t).bump32 E.phaseFaults d 1).raise 0x200C 1 31 [.v 16 d, .v 32 n]
    exec (.regulatorFault t d n ok) s = .next (if ok then w else w.excludeDie d 8)) ∧
  (∀ (t : Time) (i : Nat) (s : State), i ≤ 1 → (if i = 0 then s.power.lostA else s.power.lostB) = none →
    ((if i = 0 then s.power.lostB else s.power.lostA).isSome = true → ∃ u : State, exec (.refclkFailover t i) s = .next (u.raise 0x2005 2 31 []) ∧
      u.power.both = some t ∧ u.usesB = s.usesB ∧ bit (u.rd E.refclkState 0) 3 = true) ∧
    ((if i = 0 then s.power.lostB else s.power.lostA) = none → s.rd E.refclkSel 0 = 2 → s.usesB = (i == 1) →
      ∃ u : State, exec (.refclkFailover t i) s = .next (u.raise 0x2004 1 31 [.v 8 (1 - i)]) ∧ u.usesB = !s.usesB ∧
        u.rd E.clockFailovers 0 = (s.rd E.clockFailovers 0 + 1) % 2 ^ 64)) ∧
  (∀ (t : Time) (b : Time) (s : State), s.power.both = some b →
    exec (.refclkHoldExpiry t) s = .next (if b + 10 * ms ≤ t then (s.begin t).deviceReset 7 else s.begin t)) ∧
  (∀ (t : Time) (i : Nat) (s : State), i ≤ 1 → (if i = 0 then s.power.lostA else s.power.lostB).isSome = true →
    ∃ u, exec (.refclkRestored t i) s = .next u ∧ (if i = 0 then u.power.lostA else u.power.lostB) = none ∧ u.power.both = none ∧
      u.usesB = if s.power.both.isSome then i == 1 else s.usesB) ∧
  (∀ (a : Access) (v : Nat) (s : State), s.Takes a E.refclkSel 0 1 v true →
    exec (.refclkSel a v) s = .next ((State.selectClock v (s.commitAt a)).answerItem stOk)) ∧
  (∀ (v : Nat) (s : State), let u := State.selectClock v s
    u.rd E.refclkSel 0 = v ∧ (s.power.both.isSome = true → u.usesB = s.usesB) ∧
    (s.usesB = true → s.power.both = none → v = 0 → u.usesB = !s.steadyA)) ∧
  (∀ (t : Time) (d : Nat) (s : State), d < 8 → s.rd E.domainState d = 1 → (∀ p, p / 128 = d → s.rd E.portState p ≠ 2 ∧ (s.port p).okSince = none) →
    (∀ f ∈ s.net.frames, f.die ≠ d) → exec (.switchClockIdle t d) s = .next ((s.begin t).wr E.domainState d 0)) ∧
  (∀ (t : Time) (s : State), s.rd E.domainState (18 + s.keeper) = 1 → s.mgmt.waiting = [] → s.coll.leds = [] →
    (∀ q, q < 8 → s.pushes q = true → (s.nq q).records.length ≤ (s.nq q).pushed) →
    exec (.keeperCoreIdle t) s = .next ((s.begin t).wr E.domainState (18 + s.keeper) 2)) ∧
  (∀ (t : Time) (d : Nat) (x : Int) (s : State), d < 28 →
    exec (.tempSample t [(d, x)] [] [] []) s = .next ((s.begin t).readDie d x)) ∧
  (∀ (d : Nat) (v : Int) (s : State), 8 ≤ d → d < 18 →
    (1680 ≤ v → s.power.warm.contains d = false → (s.warnDie d v).rd E.throttled (d - 8) = 1) ∧
    (v ≤ 1600 → s.power.warm.contains d = true → (s.warnDie d v).rd E.throttled (d - 8) = 0) ∧
    (1600 < v → v < 1680 → s.warnDie d v = s)) ∧
  (∀ (t : Time) (inside : Bool) (s : State), ∃ u, exec (.vioRangeChange t inside) s = .next u ∧ u.power.vio = inside ∧ SameBut [] s u) ∧
  (∀ (t : Time) (i data pins : Nat) (s : State), s.power.vio = true → s.power.vaon = true →
    ∃ u, exec (.jtagInstruction t i data pins) s = .next u ∧ u.power.tap = s.tapActs i ∧ SameBut [] s u ∧
      u.out = [.jtag (if s.tapActs i = 1 then s.rd E.jtagIdcode 0 else if s.tapActs i = 2 ∨ s.tapActs i = 3 then pins else 0)])

/-- A write of an entry with no command of its own: one that passes the checks of R478 commits its value, later than every commit
before it, and changes no other element; one that meets a cause answers it and changes nothing, as does one that names a port
index that does not exist. DICT_WRITE as a message of one item is the model's choice (log 179). -/
def Obligations.DictionaryWrites : Prop :=
  (∀ (a : Access) (e n el v : Nat) (s : State),
    (e, n) ∈ [(E.syncBand, 12), (E.stepThreshold, 12), (E.rateLimit, 4), (E.tableOwner, 2), (E.parityWait, 12), (E.portVid, 2), (E.linkAsym, 4),
      (E.monLow, 2)] →
    (s.itemStatus a e el (countOf e) n true true = stOk → rangeStatus e v = stOk → v < 256 ^ n → s.portless e el = true →
      ∃ u, exec (.dictWrite a e el (countOf e) (toBytes n v)) s = .next u ∧ u.out = [.item stRange 0] ∧ SameBut [] s u) ∧
    (s.itemStatus a e el (countOf e) n true true = stOk → rangeStatus e v = stOk → v < 256 ^ n → s.portless e el = false →
      ∃ u, exec (.dictWrite a e el (countOf e) (toBytes n v)) s = .next u ∧ u.rd e el = v ∧ u.out = [.item stOk 0] ∧
        SameBut [(e, el), (E.commitLast, 0), (E.domainState, 18 + s.keeper)] s u) ∧
    (s.itemStatus a e el (countOf e) n true true ≠ stOk → el < 2 ^ 24 →
      ∃ u, exec (.dictWrite a e el (countOf e) (toBytes n v)) s = .next u ∧
        u.out = [.item (s.itemStatus a e el (countOf e) n true true) 0] ∧ SameBut [] s u)) ∧
  (∀ (a : Access) (s : State), ∃ n, (s.commitAt a).rd E.commitLast 0 = timeLayout n ∧ a.t ≤ n ∧ timeNear a.t (s.rd E.commitLast 0) < n)

/-- The causes of an item's status stand in the order of R478: an absent entry, recovery, the request's rights, the entry's right,
the configuration lock, the elements, the length. -/
def Obligations.CausesInOrder : Prop :=
  ∀ (a : Access) (e first count len : Nat) (write own : Bool) (s : State),
    let st := s.itemStatus a e first count len write own
    let allowed := rightsAllow (s.rightsOf a.path) e write && (s.confined a.path).all (fun _ => inbandEntry e write && own)
    (entryRow e = none → st = stNoEntry) ∧
    ∀ r, entryRow e = some r →
      (s.rd E.deviceState 0 = 4 → ¬(0x1000 ≤ e / 256 ∧ e / 256 ≤ 0x1003) → e / 256 ≠ 0xF200 → st = stRecovery) ∧
      (s.rd E.deviceState 0 ≠ 4 →
        (allowed = false → st = stNotAuthorised) ∧
        (allowed = true → write = true → r.right = .ro → st = stReadOnly) ∧
        (allowed = true → write = false → r.right = .wo → st = stWriteOnly) ∧
        (allowed = true → write = true → r.right = .rwl → s.rd E.configLock 0 = 1 → st = stLocked) ∧
        (allowed = true → write = false → r.right ≠ .wo →
          (r.count = 0 → (count ≠ 0 ∨ first ≠ 0) → st = stNoElement) ∧
          (0 < r.count → (count = 0 ∨ r.count < first + count) → st = stNoElement) ∧
          (0 < r.count → 0 < count → first + count ≤ r.count → st = if len = 0 then stOk else stLength)))

/-- A notice that is raised writes no element of the dictionary but the notice counts, the highest severity, the losses of the
queues, the performance counters and the keeper's clock, and no part of the machine but these, the management state and the
outputs. -/
def Obligations.NoticesTouchLittle : Prop :=
  ∀ (code sev src : Nat) (ctx : List Item) (s : State), s.keeper < 2 → let u := s.raise code sev src ctx
    (∀ e el, el < 2 ^ 24 → e ∉ [E.noticesRaised, E.severityHighest, E.nqLost, E.counterValue, E.domainState] → u.rd e el = s.rd e el) ∧
    u.rd E.noticesRaised 0 ≠ s.rd E.noticesRaised 0 ∧ sev ≤ u.rd E.severityHighest 0 ∧
    u.coll = s.coll ∧ u.graphs = s.graphs ∧ u.net = s.net ∧ u.links = s.links ∧ u.jobs = s.jobs ∧ u.spawns = s.spawns ∧
    u.starts = s.starts ∧ u.clock = s.clock ∧ u.power = s.power ∧ u.probes = s.probes ∧ u.now = s.now ∧ u.pending = s.pending
end

