-- ==== Sys2Proof/Laws/State.lean ====
section
/-!
SUPPORT. One lemma for each field of the state and each setter: what the setter leaves there.
-/
namespace Sys2Proof.Machine

@[simp] theorem State.begin_pending (s : State) (t : Time) : (s.begin t).pending = s.pending := rfl
@[simp] theorem State.begin_now (s : State) (t : Time) : (s.begin t).now = t := rfl
@[simp] theorem State.begin_fresh (s : State) (t : Time) : (s.begin t).fresh = s.fresh := rfl
@[simp] theorem State.begin_regs (s : State) (t : Time) : (s.begin t).regs = s.regs := rfl
@[simp] theorem State.begin_out (s : State) (t : Time) : (s.begin t).out = [] := rfl
@[simp] theorem State.begin_net (s : State) (t : Time) : (s.begin t).net = s.net := rfl
@[simp] theorem State.begin_mgmt (s : State) (t : Time) : (s.begin t).mgmt = s.mgmt := rfl
@[simp] theorem State.begin_jobs (s : State) (t : Time) : (s.begin t).jobs = s.jobs := rfl
@[simp] theorem State.begin_starts (s : State) (t : Time) : (s.begin t).starts = s.starts := rfl
@[simp] theorem State.begin_spawns (s : State) (t : Time) : (s.begin t).spawns = s.spawns := rfl
@[simp] theorem State.begin_coll (s : State) (t : Time) : (s.begin t).coll = s.coll := rfl
@[simp] theorem State.begin_graphs (s : State) (t : Time) : (s.begin t).graphs = s.graphs := rfl
@[simp] theorem State.begin_links (s : State) (t : Time) : (s.begin t).links = s.links := rfl
@[simp] theorem State.begin_power (s : State) (t : Time) : (s.begin t).power = s.power := rfl
@[simp] theorem State.begin_clock (s : State) (t : Time) : (s.begin t).clock = s.clock := rfl
@[simp] theorem State.begin_probes (s : State) (t : Time) : (s.begin t).probes = s.probes := rfl

@[simp] theorem State.emit_pending (s : State) (o : Output) : (s.emit o).pending = s.pending := rfl
@[simp] theorem State.emit_now (s : State) (o : Output) : (s.emit o).now = s.now := rfl
@[simp] theorem State.emit_fresh (s : State) (o : Output) : (s.emit o).fresh = s.fresh := rfl
@[simp] theorem State.emit_regs (s : State) (o : Output) : (s.emit o).regs = s.regs := rfl
@[simp] theorem State.emit_out (s : State) (o : Output) : (s.emit o).out = s.out ++ [o] := rfl
@[simp] theorem State.emit_net (s : State) (o : Output) : (s.emit o).net = s.net := rfl
@[simp] theorem State.emit_mgmt (s : State) (o : Output) : (s.emit o).mgmt = s.mgmt := rfl
@[simp] theorem State.emit_jobs (s : State) (o : Output) : (s.emit o).jobs = s.jobs := rfl
@[simp] theorem State.emit_starts (s : State) (o : Output) : (s.emit o).starts = s.starts := rfl
@[simp] theorem State.emit_spawns (s : State) (o : Output) : (s.emit o).spawns = s.spawns := rfl
@[simp] theorem State.emit_coll (s : State) (o : Output) : (s.emit o).coll = s.coll := rfl
@[simp] theorem State.emit_graphs (s : State) (o : Output) : (s.emit o).graphs = s.graphs := rfl
@[simp] theorem State.emit_links (s : State) (o : Output) : (s.emit o).links = s.links := rfl
@[simp] theorem State.emit_power (s : State) (o : Output) : (s.emit o).power = s.power := rfl
@[simp] theorem State.emit_clock (s : State) (o : Output) : (s.emit o).clock = s.clock := rfl
@[simp] theorem State.emit_probes (s : State) (o : Output) : (s.emit o).probes = s.probes := rfl

@[simp] theorem State.wr_pending (s : State) (e el v : Nat) : (s.wr e el v).pending = s.pending := rfl
@[simp] theorem State.wr_now (s : State) (e el v : Nat) : (s.wr e el v).now = s.now := rfl
@[simp] theorem State.wr_fresh (s : State) (e el v : Nat) : (s.wr e el v).fresh = s.fresh := rfl
@[simp] theorem State.wr_regs (s : State) (e el v : Nat) : (s.wr e el v).regs = wrIn s.regs e el v := rfl
@[simp] theorem State.wr_out (s : State) (e el v : Nat) : (s.wr e el v).out = s.out := rfl
@[simp] theorem State.wr_net (s : State) (e el v : Nat) : (s.wr e el v).net = s.net := rfl
@[simp] theorem State.wr_mgmt (s : State) (e el v : Nat) : (s.wr e el v).mgmt = s.mgmt := rfl
@[simp] theorem State.wr_jobs (s : State) (e el v : Nat) : (s.wr e el v).jobs = s.jobs := rfl
@[simp] theorem State.wr_starts (s : State) (e el v : Nat) : (s.wr e el v).starts = s.starts := rfl
@[simp] theorem State.wr_spawns (s : State) (e el v : Nat) : (s.wr e el v).spawns = s.spawns := rfl
@[simp] theorem State.wr_coll (s : State) (e el v : Nat) : (s.wr e el v).coll = s.coll := rfl
@[simp] theorem State.wr_graphs (s : State) (e el v : Nat) : (s.wr e el v).graphs = s.graphs := rfl
@[simp] theorem State.wr_links (s : State) (e el v : Nat) : (s.wr e el v).links = s.links := rfl
@[simp] theorem State.wr_power (s : State) (e el v : Nat) : (s.wr e el v).power = s.power := rfl
@[simp] theorem State.wr_clock (s : State) (e el v : Nat) : (s.wr e el v).clock = s.clock := rfl
@[simp] theorem State.wr_probes (s : State) (e el v : Nat) : (s.wr e el v).probes = s.probes := rfl

@[simp] theorem State.setNq_pending (s : State) (q : Nat) (v : NQueue) : (s.setNq q v).pending = s.pending := rfl
@[simp] theorem State.setNq_now (s : State) (q : Nat) (v : NQueue) : (s.setNq q v).now = s.now := rfl
@[simp] theorem State.setNq_fresh (s : State) (q : Nat) (v : NQueue) : (s.setNq q v).fresh = s.fresh := rfl
@[simp] theorem State.setNq_regs (s : State) (q : Nat) (v : NQueue) : (s.setNq q v).regs = s.regs := rfl
@[simp] theorem State.setNq_out (s : State) (q : Nat) (v : NQueue) : (s.setNq q v).out = s.out := rfl
@[simp] theorem State.setNq_net (s : State) (q : Nat) (v : NQueue) : (s.setNq q v).net = s.net := rfl
@[simp] theorem State.setNq_mgmt (s : State) (q : Nat) (v : NQueue) : (s.setNq q v).mgmt = { s.mgmt with queues := s.mgmt.queues.set q v } := rfl
@[simp] theorem State.setNq_jobs (s : State) (q : Nat) (v : NQueue) : (s.setNq q v).jobs = s.jobs := rfl
@[simp] theorem State.setNq_starts (s : State) (q : Nat) (v : NQueue) : (s.setNq q v).starts = s.starts := rfl
@[simp] theorem State.setNq_spawns (s : State) (q : Nat) (v : NQueue) : (s.setNq q v).spawns = s.spawns := rfl
@[simp] theorem State.setNq_coll (s : State) (q : Nat) (v : NQueue) : (s.setNq q v).coll = s.coll := rfl
@[simp] theorem State.setNq_graphs (s : State) (q : Nat) (v : NQueue) : (s.setNq q v).graphs = s.graphs := rfl
@[simp] theorem State.setNq_links (s : State) (q : Nat) (v : NQueue) : (s.setNq q v).links = s.links := rfl
@[simp] theorem State.setNq_power (s : State) (q : Nat) (v : NQueue) : (s.setNq q v).power = s.power := rfl
@[simp] theorem State.setNq_clock (s : State) (q : Nat) (v : NQueue) : (s.setNq q v).clock = s.clock := rfl
@[simp] theorem State.setNq_probes (s : State) (q : Nat) (v : NQueue) : (s.setNq q v).probes = s.probes := rfl

@[simp] theorem State.setPass_pending (s : State) (p : Pass) (l : Tab Nat) : (s.setPass p l).pending = s.pending := rfl
@[simp] theorem State.setPass_now (s : State) (p : Pass) (l : Tab Nat) : (s.setPass p l).now = s.now := rfl
@[simp] theorem State.setPass_fresh (s : State) (p : Pass) (l : Tab Nat) : (s.setPass p l).fresh = s.fresh := rfl
@[simp] theorem State.setPass_regs (s : State) (p : Pass) (l : Tab Nat) : (s.setPass p l).regs = s.regs := rfl
@[simp] theorem State.setPass_out (s : State) (p : Pass) (l : Tab Nat) : (s.setPass p l).out = s.out := rfl
@[simp] theorem State.setPass_net (s : State) (p : Pass) (l : Tab Nat) : (s.setPass p l).net = s.net := rfl
@[simp] theorem State.setPass_mgmt (s : State) (p : Pass) (l : Tab Nat) : (s.setPass p l).mgmt = { s.mgmt with pass := p, planned := l } := rfl
@[simp] theorem State.setPass_jobs (s : State) (p : Pass) (l : Tab Nat) : (s.setPass p l).jobs = s.jobs := rfl
@[simp] theorem State.setPass_starts (s : State) (p : Pass) (l : Tab Nat) : (s.setPass p l).starts = s.starts := rfl
@[simp] theorem State.setPass_spawns (s : State) (p : Pass) (l : Tab Nat) : (s.setPass p l).spawns = s.spawns := rfl
@[simp] theorem State.setPass_coll (s : State) (p : Pass) (l : Tab Nat) : (s.setPass p l).coll = s.coll := rfl
@[simp] theorem State.setPass_graphs (s : State) (p : Pass) (l : Tab Nat) : (s.setPass p l).graphs = s.graphs := rfl
@[simp] theorem State.setPass_links (s : State) (p : Pass) (l : Tab Nat) : (s.setPass p l).links = s.links := rfl
@[simp] theorem State.setPass_power (s : State) (p : Pass) (l : Tab Nat) : (s.setPass p l).power = s.power := rfl
@[simp] theorem State.setPass_clock (s : State) (p : Pass) (l : Tab Nat) : (s.setPass p l).clock = s.clock := rfl
@[simp] theorem State.setPass_probes (s : State) (p : Pass) (l : Tab Nat) : (s.setPass p l).probes = s.probes := rfl

@[simp] theorem State.setJob_pending (s : State) (tag : Nat) (j : Job) : (s.setJob tag j).pending = s.pending := rfl
@[simp] theorem State.setJob_now (s : State) (tag : Nat) (j : Job) : (s.setJob tag j).now = s.now := rfl
@[simp] theorem State.setJob_fresh (s : State) (tag : Nat) (j : Job) : (s.setJob tag j).fresh = s.fresh := rfl
@[simp] theorem State.setJob_regs (s : State) (tag : Nat) (j : Job) : (s.setJob tag j).regs = s.regs := rfl
@[simp] theorem State.setJob_out (s : State) (tag : Nat) (j : Job) : (s.setJob tag j).out = s.out := rfl
@[simp] theorem State.setJob_net (s : State) (tag : Nat) (j : Job) : (s.setJob tag j).net = s.net := rfl
@[simp] theorem State.setJob_mgmt (s : State) (tag : Nat) (j : Job) : (s.setJob tag j).mgmt = s.mgmt := rfl
@[simp] theorem State.setJob_jobs (s : State) (tag : Nat) (j : Job) : (s.setJob tag j).jobs = s.jobs.set tag j := rfl
@[simp] theorem State.setJob_starts (s : State) (tag : Nat) (j : Job) : (s.setJob tag j).starts = s.starts := rfl
@[simp] theorem State.setJob_spawns (s : State) (tag : Nat) (j : Job) : (s.setJob tag j).spawns = s.spawns := rfl
@[simp] theorem State.setJob_coll (s : State) (tag : Nat) (j : Job) : (s.setJob tag j).coll = s.coll := rfl
@[simp] theorem State.setJob_graphs (s : State) (tag : Nat) (j : Job) : (s.setJob tag j).graphs = s.graphs := rfl
@[simp] theorem State.setJob_links (s : State) (tag : Nat) (j : Job) : (s.setJob tag j).links = s.links := rfl
@[simp] theorem State.setJob_power (s : State) (tag : Nat) (j : Job) : (s.setJob tag j).power = s.power := rfl
@[simp] theorem State.setJob_clock (s : State) (tag : Nat) (j : Job) : (s.setJob tag j).clock = s.clock := rfl
@[simp] theorem State.setJob_probes (s : State) (tag : Nat) (j : Job) : (s.setJob tag j).probes = s.probes := rfl

@[simp] theorem State.setSession_pending (s : State) (x : Session) : (s.setSession x).pending = s.pending := rfl
@[simp] theorem State.setSession_now (s : State) (x : Session) : (s.setSession x).now = s.now := rfl
@[simp] theorem State.setSession_fresh (s : State) (x : Session) : (s.setSession x).fresh = s.fresh := rfl
@[simp] theorem State.setSession_regs (s : State) (x : Session) : (s.setSession x).regs = s.regs := rfl
@[simp] theorem State.setSession_out (s : State) (x : Session) : (s.setSession x).out = s.out := rfl
@[simp] theorem State.setSession_net (s : State) (x : Session) : (s.setSession x).net = s.net := rfl
@[simp] theorem State.setSession_mgmt (s : State) (x : Session) : (s.setSession x).mgmt = s.mgmt := rfl
@[simp] theorem State.setSession_jobs (s : State) (x : Session) : (s.setSession x).jobs = s.jobs := rfl
@[simp] theorem State.setSession_starts (s : State) (x : Session) : (s.setSession x).starts = s.starts := rfl
@[simp] theorem State.setSession_spawns (s : State) (x : Session) : (s.setSession x).spawns = s.spawns.set (spawnKey x.job x.number) x := rfl
@[simp] theorem State.setSession_coll (s : State) (x : Session) : (s.setSession x).coll = s.coll := rfl
@[simp] theorem State.setSession_graphs (s : State) (x : Session) : (s.setSession x).graphs = s.graphs := rfl
@[simp] theorem State.setSession_links (s : State) (x : Session) : (s.setSession x).links = s.links := rfl
@[simp] theorem State.setSession_power (s : State) (x : Session) : (s.setSession x).power = s.power := rfl
@[simp] theorem State.setSession_clock (s : State) (x : Session) : (s.setSession x).clock = s.clock := rfl
@[simp] theorem State.setSession_probes (s : State) (x : Session) : (s.setSession x).probes = s.probes := rfl

@[simp] theorem State.setPower_pending (s : State) (p : Power) : (s.setPower p).pending = s.pending := rfl
@[simp] theorem State.setPower_now (s : State) (p : Power) : (s.setPower p).now = s.now := rfl
@[simp] theorem State.setPower_fresh (s : State) (p : Power) : (s.setPower p).fresh = s.fresh := rfl
@[simp] theorem State.setPower_regs (s : State) (p : Power) : (s.setPower p).regs = s.regs := rfl
@[simp] theorem State.setPower_out (s : State) (p : Power) : (s.setPower p).out = s.out := rfl
@[simp] theorem State.setPower_net (s : State) (p : Power) : (s.setPower p).net = s.net := rfl
@[simp] theorem State.setPower_mgmt (s : State) (p : Power) : (s.setPower p).mgmt = s.mgmt := rfl
@[simp] theorem State.setPower_jobs (s : State) (p : Power) : (s.setPower p).jobs = s.jobs := rfl
@[simp] theorem State.setPower_starts (s : State) (p : Power) : (s.setPower p).starts = s.starts := rfl
@[simp] theorem State.setPower_spawns (s : State) (p : Power) : (s.setPower p).spawns = s.spawns := rfl
@[simp] theorem State.setPower_coll (s : State) (p : Power) : (s.setPower p).coll = s.coll := rfl
@[simp] theorem State.setPower_graphs (s : State) (p : Power) : (s.setPower p).graphs = s.graphs := rfl
@[simp] theorem State.setPower_links (s : State) (p : Power) : (s.setPower p).links = s.links := rfl
@[simp] theorem State.setPower_power (s : State) (p : Power) : (s.setPower p).power = p := rfl
@[simp] theorem State.setPower_clock (s : State) (p : Power) : (s.setPower p).clock = s.clock := rfl
@[simp] theorem State.setPower_probes (s : State) (p : Power) : (s.setPower p).probes = s.probes := rfl

@[simp] theorem State.setClock_pending (s : State) (c : Clock) : (s.setClock c).pending = s.pending := rfl
@[simp] theorem State.setClock_now (s : State) (c : Clock) : (s.setClock c).now = s.now := rfl
@[simp] theorem State.setClock_fresh (s : State) (c : Clock) : (s.setClock c).fresh = s.fresh := rfl
@[simp] theorem State.setClock_regs (s : State) (c : Clock) : (s.setClock c).regs = s.regs := rfl
@[simp] theorem State.setClock_out (s : State) (c : Clock) : (s.setClock c).out = s.out := rfl
@[simp] theorem State.setClock_net (s : State) (c : Clock) : (s.setClock c).net = s.net := rfl
@[simp] theorem State.setClock_mgmt (s : State) (c : Clock) : (s.setClock c).mgmt = s.mgmt := rfl
@[simp] theorem State.setClock_jobs (s : State) (c : Clock) : (s.setClock c).jobs = s.jobs := rfl
@[simp] theorem State.setClock_starts (s : State) (c : Clock) : (s.setClock c).starts = s.starts := rfl
@[simp] theorem State.setClock_spawns (s : State) (c : Clock) : (s.setClock c).spawns = s.spawns := rfl
@[simp] theorem State.setClock_coll (s : State) (c : Clock) : (s.setClock c).coll = s.coll := rfl
@[simp] theorem State.setClock_graphs (s : State) (c : Clock) : (s.setClock c).graphs = s.graphs := rfl
@[simp] theorem State.setClock_links (s : State) (c : Clock) : (s.setClock c).links = s.links := rfl
@[simp] theorem State.setClock_power (s : State) (c : Clock) : (s.setClock c).power = s.power := rfl
@[simp] theorem State.setClock_clock (s : State) (c : Clock) : (s.setClock c).clock = c := rfl
@[simp] theorem State.setClock_probes (s : State) (c : Clock) : (s.setClock c).probes = s.probes := rfl

@[simp] theorem State.setPort_pending (s : State) (p : Nat) (v : Port) : (s.setPort p v).pending = s.pending := rfl
@[simp] theorem State.setPort_now (s : State) (p : Nat) (v : Port) : (s.setPort p v).now = s.now := rfl
@[simp] theorem State.setPort_fresh (s : State) (p : Nat) (v : Port) : (s.setPort p v).fresh = s.fresh := rfl
@[simp] theorem State.setPort_regs (s : State) (p : Nat) (v : Port) : (s.setPort p v).regs = s.regs := rfl
@[simp] theorem State.setPort_out (s : State) (p : Nat) (v : Port) : (s.setPort p v).out = s.out := rfl
@[simp] theorem State.setPort_net (s : State) (p : Nat) (v : Port) : (s.setPort p v).net = { s.net with ports := s.net.ports.set p v } := rfl
@[simp] theorem State.setPort_mgmt (s : State) (p : Nat) (v : Port) : (s.setPort p v).mgmt = s.mgmt := rfl
@[simp] theorem State.setPort_jobs (s : State) (p : Nat) (v : Port) : (s.setPort p v).jobs = s.jobs := rfl
@[simp] theorem State.setPort_starts (s : State) (p : Nat) (v : Port) : (s.setPort p v).starts = s.starts := rfl
@[simp] theorem State.setPort_spawns (s : State) (p : Nat) (v : Port) : (s.setPort p v).spawns = s.spawns := rfl
@[simp] theorem State.setPort_coll (s : State) (p : Nat) (v : Port) : (s.setPort p v).coll = s.coll := rfl
@[simp] theorem State.setPort_graphs (s : State) (p : Nat) (v : Port) : (s.setPort p v).graphs = s.graphs := rfl
@[simp] theorem State.setPort_links (s : State) (p : Nat) (v : Port) : (s.setPort p v).links = s.links := rfl
@[simp] theorem State.setPort_power (s : State) (p : Nat) (v : Port) : (s.setPort p v).power = s.power := rfl
@[simp] theorem State.setPort_clock (s : State) (p : Nat) (v : Port) : (s.setPort p v).clock = s.clock := rfl
@[simp] theorem State.setPort_probes (s : State) (p : Nat) (v : Port) : (s.setPort p v).probes = s.probes := rfl

@[simp] theorem State.setAddrTab_pending (s : State) (die : Nat) (t : Tab AddrEntry) : (s.setAddrTab die t).pending = s.pending := rfl
@[simp] theorem State.setAddrTab_now (s : State) (die : Nat) (t : Tab AddrEntry) : (s.setAddrTab die t).now = s.now := rfl
@[simp] theorem State.setAddrTab_fresh (s : State) (die : Nat) (t : Tab AddrEntry) : (s.setAddrTab die t).fresh = s.fresh := rfl
@[simp] theorem State.setAddrTab_regs (s : State) (die : Nat) (t : Tab AddrEntry) : (s.setAddrTab die t).regs = s.regs := rfl
@[simp] theorem State.setAddrTab_out (s : State) (die : Nat) (t : Tab AddrEntry) : (s.setAddrTab die t).out = s.out := rfl
@[simp] theorem State.setAddrTab_net (s : State) (die : Nat) (t : Tab AddrEntry) : (s.setAddrTab die t).net = { s.net with addrs := s.net.addrs.set die t } := rfl
@[simp] theorem State.setAddrTab_mgmt (s : State) (die : Nat) (t : Tab AddrEntry) : (s.setAddrTab die t).mgmt = s.mgmt := rfl
@[simp] theorem State.setAddrTab_jobs (s : State) (die : Nat) (t : Tab AddrEntry) : (s.setAddrTab die t).jobs = s.jobs := rfl
@[simp] theorem State.setAddrTab_starts (s : State) (die : Nat) (t : Tab AddrEntry) : (s.setAddrTab die t).starts = s.starts := rfl
@[simp] theorem State.setAddrTab_spawns (s : State) (die : Nat) (t : Tab AddrEntry) : (s.setAddrTab die t).spawns = s.spawns := rfl
@[simp] theorem State.setAddrTab_coll (s : State) (die : Nat) (t : Tab AddrEntry) : (s.setAddrTab die t).coll = s.coll := rfl
@[simp] theorem State.setAddrTab_graphs (s : State) (die : Nat) (t : Tab AddrEntry) : (s.setAddrTab die t).graphs = s.graphs := rfl
@[simp] theorem State.setAddrTab_links (s : State) (die : Nat) (t : Tab AddrEntry) : (s.setAddrTab die t).links = s.links := rfl
@[simp] theorem State.setAddrTab_power (s : State) (die : Nat) (t : Tab AddrEntry) : (s.setAddrTab die t).power = s.power := rfl
@[simp] theorem State.setAddrTab_clock (s : State) (die : Nat) (t : Tab AddrEntry) : (s.setAddrTab die t).clock = s.clock := rfl
@[simp] theorem State.setAddrTab_probes (s : State) (die : Nat) (t : Tab AddrEntry) : (s.setAddrTab die t).probes = s.probes := rfl

@[simp] theorem State.setCtx_pending (s : State) (c : Nat) (v : Ctx) : (s.setCtx c v).pending = s.pending := rfl
@[simp] theorem State.setCtx_now (s : State) (c : Nat) (v : Ctx) : (s.setCtx c v).now = s.now := rfl
@[simp] theorem State.setCtx_fresh (s : State) (c : Nat) (v : Ctx) : (s.setCtx c v).fresh = s.fresh := rfl
@[simp] theorem State.setCtx_regs (s : State) (c : Nat) (v : Ctx) : (s.setCtx c v).regs = s.regs := rfl
@[simp] theorem State.setCtx_out (s : State) (c : Nat) (v : Ctx) : (s.setCtx c v).out = s.out := rfl
@[simp] theorem State.setCtx_net (s : State) (c : Nat) (v : Ctx) : (s.setCtx c v).net = s.net := rfl
@[simp] theorem State.setCtx_mgmt (s : State) (c : Nat) (v : Ctx) : (s.setCtx c v).mgmt = s.mgmt := rfl
@[simp] theorem State.setCtx_jobs (s : State) (c : Nat) (v : Ctx) : (s.setCtx c v).jobs = s.jobs := rfl
@[simp] theorem State.setCtx_starts (s : State) (c : Nat) (v : Ctx) : (s.setCtx c v).starts = s.starts := rfl
@[simp] theorem State.setCtx_spawns (s : State) (c : Nat) (v : Ctx) : (s.setCtx c v).spawns = s.spawns := rfl
@[simp] theorem State.setCtx_coll (s : State) (c : Nat) (v : Ctx) : (s.setCtx c v).coll = { s.coll with ctxs := s.coll.ctxs.set c v } := rfl
@[simp] theorem State.setCtx_graphs (s : State) (c : Nat) (v : Ctx) : (s.setCtx c v).graphs = s.graphs := rfl
@[simp] theorem State.setCtx_links (s : State) (c : Nat) (v : Ctx) : (s.setCtx c v).links = s.links := rfl
@[simp] theorem State.setCtx_power (s : State) (c : Nat) (v : Ctx) : (s.setCtx c v).power = s.power := rfl
@[simp] theorem State.setCtx_clock (s : State) (c : Nat) (v : Ctx) : (s.setCtx c v).clock = s.clock := rfl
@[simp] theorem State.setCtx_probes (s : State) (c : Nat) (v : Ctx) : (s.setCtx c v).probes = s.probes := rfl

@[simp] theorem State.modCtx_pending (s : State) (c : Nat) (f : Ctx → Ctx) : (s.modCtx c f).pending = s.pending := rfl
@[simp] theorem State.modCtx_now (s : State) (c : Nat) (f : Ctx → Ctx) : (s.modCtx c f).now = s.now := rfl
@[simp] theorem State.modCtx_fresh (s : State) (c : Nat) (f : Ctx → Ctx) : (s.modCtx c f).fresh = s.fresh := rfl
@[simp] theorem State.modCtx_regs (s : State) (c : Nat) (f : Ctx → Ctx) : (s.modCtx c f).regs = s.regs := rfl
@[simp] theorem State.modCtx_out (s : State) (c : Nat) (f : Ctx → Ctx) : (s.modCtx c f).out = s.out := rfl
@[simp] theorem State.modCtx_net (s : State) (c : Nat) (f : Ctx → Ctx) : (s.modCtx c f).net = s.net := rfl
@[simp] theorem State.modCtx_mgmt (s : State) (c : Nat) (f : Ctx → Ctx) : (s.modCtx c f).mgmt = s.mgmt := rfl
@[simp] theorem State.modCtx_jobs (s : State) (c : Nat) (f : Ctx → Ctx) : (s.modCtx c f).jobs = s.jobs := rfl
@[simp] theorem State.modCtx_starts (s : State) (c : Nat) (f : Ctx → Ctx) : (s.modCtx c f).starts = s.starts := rfl
@[simp] theorem State.modCtx_spawns (s : State) (c : Nat) (f : Ctx → Ctx) : (s.modCtx c f).spawns = s.spawns := rfl
@[simp] theorem State.modCtx_coll (s : State) (c : Nat) (f : Ctx → Ctx) : (s.modCtx c f).coll = { s.coll with ctxs := s.coll.ctxs.modify c f } := rfl
@[simp] theorem State.modCtx_graphs (s : State) (c : Nat) (f : Ctx → Ctx) : (s.modCtx c f).graphs = s.graphs := rfl
@[simp] theorem State.modCtx_links (s : State) (c : Nat) (f : Ctx → Ctx) : (s.modCtx c f).links = s.links := rfl
@[simp] theorem State.modCtx_power (s : State) (c : Nat) (f : Ctx → Ctx) : (s.modCtx c f).power = s.power := rfl
@[simp] theorem State.modCtx_clock (s : State) (c : Nat) (f : Ctx → Ctx) : (s.modCtx c f).clock = s.clock := rfl
@[simp] theorem State.modCtx_probes (s : State) (c : Nat) (f : Ctx → Ctx) : (s.modCtx c f).probes = s.probes := rfl

@[simp] theorem State.setPeer_pending (s : State) (d : Nat) (p : PeerDev) : (s.setPeer d p).pending = s.pending := rfl
@[simp] theorem State.setPeer_now (s : State) (d : Nat) (p : PeerDev) : (s.setPeer d p).now = s.now := rfl
@[simp] theorem State.setPeer_fresh (s : State) (d : Nat) (p : PeerDev) : (s.setPeer d p).fresh = s.fresh := rfl
@[simp] theorem State.setPeer_regs (s : State) (d : Nat) (p : PeerDev) : (s.setPeer d p).regs = s.regs := rfl
@[simp] theorem State.setPeer_out (s : State) (d : Nat) (p : PeerDev) : (s.setPeer d p).out = s.out := rfl
@[simp] theorem State.setPeer_net (s : State) (d : Nat) (p : PeerDev) : (s.setPeer d p).net = s.net := rfl
@[simp] theorem State.setPeer_mgmt (s : State) (d : Nat) (p : PeerDev) : (s.setPeer d p).mgmt = s.mgmt := rfl
@[simp] theorem State.setPeer_jobs (s : State) (d : Nat) (p : PeerDev) : (s.setPeer d p).jobs = s.jobs := rfl
@[simp] theorem State.setPeer_starts (s : State) (d : Nat) (p : PeerDev) : (s.setPeer d p).starts = s.starts := rfl
@[simp] theorem State.setPeer_spawns (s : State) (d : Nat) (p : PeerDev) : (s.setPeer d p).spawns = s.spawns := rfl
@[simp] theorem State.setPeer_coll (s : State) (d : Nat) (p : PeerDev) : (s.setPeer d p).coll = { s.coll with peers := s.coll.peers.set d p } := rfl
@[simp] theorem State.setPeer_graphs (s : State) (d : Nat) (p : PeerDev) : (s.setPeer d p).graphs = s.graphs := rfl
@[simp] theorem State.setPeer_links (s : State) (d : Nat) (p : PeerDev) : (s.setPeer d p).links = s.links := rfl
@[simp] theorem State.setPeer_power (s : State) (d : Nat) (p : PeerDev) : (s.setPeer d p).power = s.power := rfl
@[simp] theorem State.setPeer_clock (s : State) (d : Nat) (p : PeerDev) : (s.setPeer d p).clock = s.clock := rfl
@[simp] theorem State.setPeer_probes (s : State) (d : Nat) (p : PeerDev) : (s.setPeer d p).probes = s.probes := rfl

@[simp] theorem State.setTensor_pending (s : State) (t : Tensor) : (s.setTensor t).pending = s.pending := rfl
@[simp] theorem State.setTensor_now (s : State) (t : Tensor) : (s.setTensor t).now = s.now := rfl
@[simp] theorem State.setTensor_fresh (s : State) (t : Tensor) : (s.setTensor t).fresh = s.fresh := rfl
@[simp] theorem State.setTensor_regs (s : State) (t : Tensor) : (s.setTensor t).regs = s.regs := rfl
@[simp] theorem State.setTensor_out (s : State) (t : Tensor) : (s.setTensor t).out = s.out := rfl
@[simp] theorem State.setTensor_net (s : State) (t : Tensor) : (s.setTensor t).net = s.net := rfl
@[simp] theorem State.setTensor_mgmt (s : State) (t : Tensor) : (s.setTensor t).mgmt = s.mgmt := rfl
@[simp] theorem State.setTensor_jobs (s : State) (t : Tensor) : (s.setTensor t).jobs = s.jobs := rfl
@[simp] theorem State.setTensor_starts (s : State) (t : Tensor) : (s.setTensor t).starts = s.starts := rfl
@[simp] theorem State.setTensor_spawns (s : State) (t : Tensor) : (s.setTensor t).spawns = s.spawns := rfl
@[simp] theorem State.setTensor_coll (s : State) (t : Tensor) : (s.setTensor t).coll = s.coll := rfl
@[simp] theorem State.setTensor_graphs (s : State) (t : Tensor) : (s.setTensor t).graphs = { s.graphs with tensors := s.graphs.tensors.set t.handle t } := rfl
@[simp] theorem State.setTensor_links (s : State) (t : Tensor) : (s.setTensor t).links = s.links := rfl
@[simp] theorem State.setTensor_power (s : State) (t : Tensor) : (s.setTensor t).power = s.power := rfl
@[simp] theorem State.setTensor_clock (s : State) (t : Tensor) : (s.setTensor t).clock = s.clock := rfl
@[simp] theorem State.setTensor_probes (s : State) (t : Tensor) : (s.setTensor t).probes = s.probes := rfl

@[simp] theorem State.setArray_pending (s : State) (j : Nat) (a : MatArray) : (s.setArray j a).pending = s.pending := rfl
@[simp] theorem State.setArray_now (s : State) (j : Nat) (a : MatArray) : (s.setArray j a).now = s.now := rfl
@[simp] theorem State.setArray_fresh (s : State) (j : Nat) (a : MatArray) : (s.setArray j a).fresh = s.fresh := rfl
@[simp] theorem State.setArray_regs (s : State) (j : Nat) (a : MatArray) : (s.setArray j a).regs = s.regs := rfl
@[simp] theorem State.setArray_out (s : State) (j : Nat) (a : MatArray) : (s.setArray j a).out = s.out := rfl
@[simp] theorem State.setArray_net (s : State) (j : Nat) (a : MatArray) : (s.setArray j a).net = s.net := rfl
@[simp] theorem State.setArray_mgmt (s : State) (j : Nat) (a : MatArray) : (s.setArray j a).mgmt = s.mgmt := rfl
@[simp] theorem State.setArray_jobs (s : State) (j : Nat) (a : MatArray) : (s.setArray j a).jobs = s.jobs := rfl
@[simp] theorem State.setArray_starts (s : State) (j : Nat) (a : MatArray) : (s.setArray j a).starts = s.starts := rfl
@[simp] theorem State.setArray_spawns (s : State) (j : Nat) (a : MatArray) : (s.setArray j a).spawns = s.spawns := rfl
@[simp] theorem State.setArray_coll (s : State) (j : Nat) (a : MatArray) : (s.setArray j a).coll = s.coll := rfl
@[simp] theorem State.setArray_graphs (s : State) (j : Nat) (a : MatArray) : (s.setArray j a).graphs = { s.graphs with arrays := s.graphs.arrays.set j a } := rfl
@[simp] theorem State.setArray_links (s : State) (j : Nat) (a : MatArray) : (s.setArray j a).links = s.links := rfl
@[simp] theorem State.setArray_power (s : State) (j : Nat) (a : MatArray) : (s.setArray j a).power = s.power := rfl
@[simp] theorem State.setArray_clock (s : State) (j : Nat) (a : MatArray) : (s.setArray j a).clock = s.clock := rfl
@[simp] theorem State.setArray_probes (s : State) (j : Nat) (a : MatArray) : (s.setArray j a).probes = s.probes := rfl

@[simp] theorem State.setParity_pending (s : State) (p : Parity) : (s.setParity p).pending = s.pending := rfl
@[simp] theorem State.setParity_now (s : State) (p : Parity) : (s.setParity p).now = s.now := rfl
@[simp] theorem State.setParity_fresh (s : State) (p : Parity) : (s.setParity p).fresh = s.fresh := rfl
@[simp] theorem State.setParity_regs (s : State) (p : Parity) : (s.setParity p).regs = s.regs := rfl
@[simp] theorem State.setParity_out (s : State) (p : Parity) : (s.setParity p).out = s.out := rfl
@[simp] theorem State.setParity_net (s : State) (p : Parity) : (s.setParity p).net = s.net := rfl
@[simp] theorem State.setParity_mgmt (s : State) (p : Parity) : (s.setParity p).mgmt = s.mgmt := rfl
@[simp] theorem State.setParity_jobs (s : State) (p : Parity) : (s.setParity p).jobs = s.jobs := rfl
@[simp] theorem State.setParity_starts (s : State) (p : Parity) : (s.setParity p).starts = s.starts := rfl
@[simp] theorem State.setParity_spawns (s : State) (p : Parity) : (s.setParity p).spawns = s.spawns := rfl
@[simp] theorem State.setParity_coll (s : State) (p : Parity) : (s.setParity p).coll = s.coll := rfl
@[simp] theorem State.setParity_graphs (s : State) (p : Parity) : (s.setParity p).graphs = { s.graphs with parity := s.graphs.parity.set (parityKey p.job p.group) p } := rfl
@[simp] theorem State.setParity_links (s : State) (p : Parity) : (s.setParity p).links = s.links := rfl
@[simp] theorem State.setParity_power (s : State) (p : Parity) : (s.setParity p).power = s.power := rfl
@[simp] theorem State.setParity_clock (s : State) (p : Parity) : (s.setParity p).clock = s.clock := rfl
@[simp] theorem State.setParity_probes (s : State) (p : Parity) : (s.setParity p).probes = s.probes := rfl

@[simp] theorem State.setChannel_pending (s : State) (pair ch : Nat) (c : Channel) : (s.setChannel pair ch c).pending = s.pending := rfl
@[simp] theorem State.setChannel_now (s : State) (pair ch : Nat) (c : Channel) : (s.setChannel pair ch c).now = s.now := rfl
@[simp] theorem State.setChannel_fresh (s : State) (pair ch : Nat) (c : Channel) : (s.setChannel pair ch c).fresh = s.fresh := rfl
@[simp] theorem State.setChannel_regs (s : State) (pair ch : Nat) (c : Channel) : (s.setChannel pair ch c).regs = s.regs := rfl
@[simp] theorem State.setChannel_out (s : State) (pair ch : Nat) (c : Channel) : (s.setChannel pair ch c).out = s.out := rfl
@[simp] theorem State.setChannel_net (s : State) (pair ch : Nat) (c : Channel) : (s.setChannel pair ch c).net = s.net := rfl
@[simp] theorem State.setChannel_mgmt (s : State) (pair ch : Nat) (c : Channel) : (s.setChannel pair ch c).mgmt = s.mgmt := rfl
@[simp] theorem State.setChannel_jobs (s : State) (pair ch : Nat) (c : Channel) : (s.setChannel pair ch c).jobs = s.jobs := rfl
@[simp] theorem State.setChannel_starts (s : State) (pair ch : Nat) (c : Channel) : (s.setChannel pair ch c).starts = s.starts := rfl
@[simp] theorem State.setChannel_spawns (s : State) (pair ch : Nat) (c : Channel) : (s.setChannel pair ch c).spawns = s.spawns := rfl
@[simp] theorem State.setChannel_coll (s : State) (pair ch : Nat) (c : Channel) : (s.setChannel pair ch c).coll = s.coll := rfl
@[simp] theorem State.setChannel_graphs (s : State) (pair ch : Nat) (c : Channel) : (s.setChannel pair ch c).graphs = s.graphs := rfl
@[simp] theorem State.setChannel_links (s : State) (pair ch : Nat) (c : Channel) : (s.setChannel pair ch c).links = { s.links with channels := s.links.channels.set (8 * pair + ch) c } := rfl
@[simp] theorem State.setChannel_power (s : State) (pair ch : Nat) (c : Channel) : (s.setChannel pair ch c).power = s.power := rfl
@[simp] theorem State.setChannel_clock (s : State) (pair ch : Nat) (c : Channel) : (s.setChannel pair ch c).clock = s.clock := rfl
@[simp] theorem State.setChannel_probes (s : State) (pair ch : Nat) (c : Channel) : (s.setChannel pair ch c).probes = s.probes := rfl

@[simp] theorem State.setLane_pending (s : State) (n dir : Nat) (k : FlitLane) : (s.setLane n dir k).pending = s.pending := rfl
@[simp] theorem State.setLane_now (s : State) (n dir : Nat) (k : FlitLane) : (s.setLane n dir k).now = s.now := rfl
@[simp] theorem State.setLane_fresh (s : State) (n dir : Nat) (k : FlitLane) : (s.setLane n dir k).fresh = s.fresh := rfl
@[simp] theorem State.setLane_regs (s : State) (n dir : Nat) (k : FlitLane) : (s.setLane n dir k).regs = s.regs := rfl
@[simp] theorem State.setLane_out (s : State) (n dir : Nat) (k : FlitLane) : (s.setLane n dir k).out = s.out := rfl
@[simp] theorem State.setLane_net (s : State) (n dir : Nat) (k : FlitLane) : (s.setLane n dir k).net = s.net := rfl
@[simp] theorem State.setLane_mgmt (s : State) (n dir : Nat) (k : FlitLane) : (s.setLane n dir k).mgmt = s.mgmt := rfl
@[simp] theorem State.setLane_jobs (s : State) (n dir : Nat) (k : FlitLane) : (s.setLane n dir k).jobs = s.jobs := rfl
@[simp] theorem State.setLane_starts (s : State) (n dir : Nat) (k : FlitLane) : (s.setLane n dir k).starts = s.starts := rfl
@[simp] theorem State.setLane_spawns (s : State) (n dir : Nat) (k : FlitLane) : (s.setLane n dir k).spawns = s.spawns := rfl
@[simp] theorem State.setLane_coll (s : State) (n dir : Nat) (k : FlitLane) : (s.setLane n dir k).coll = s.coll := rfl
@[simp] theorem State.setLane_graphs (s : State) (n dir : Nat) (k : FlitLane) : (s.setLane n dir k).graphs = s.graphs := rfl
@[simp] theorem State.setLane_links (s : State) (n dir : Nat) (k : FlitLane) : (s.setLane n dir k).links = { s.links with lanes := s.links.lanes.set (2 * n + dir) k } := rfl
@[simp] theorem State.setLane_power (s : State) (n dir : Nat) (k : FlitLane) : (s.setLane n dir k).power = s.power := rfl
@[simp] theorem State.setLane_clock (s : State) (n dir : Nat) (k : FlitLane) : (s.setLane n dir k).clock = s.clock := rfl
@[simp] theorem State.setLane_probes (s : State) (n dir : Nat) (k : FlitLane) : (s.setLane n dir k).probes = s.probes := rfl

@[simp] theorem State.setCells_pending (s : State) (h : Nat) (l : Tab (BitVec 512)) : (s.setCells h l).pending = s.pending := rfl
@[simp] theorem State.setCells_now (s : State) (h : Nat) (l : Tab (BitVec 512)) : (s.setCells h l).now = s.now := rfl
@[simp] theorem State.setCells_fresh (s : State) (h : Nat) (l : Tab (BitVec 512)) : (s.setCells h l).fresh = s.fresh := rfl
@[simp] theorem State.setCells_regs (s : State) (h : Nat) (l : Tab (BitVec 512)) : (s.setCells h l).regs = s.regs := rfl
@[simp] theorem State.setCells_out (s : State) (h : Nat) (l : Tab (BitVec 512)) : (s.setCells h l).out = s.out := rfl
@[simp] theorem State.setCells_net (s : State) (h : Nat) (l : Tab (BitVec 512)) : (s.setCells h l).net = s.net := rfl
@[simp] theorem State.setCells_mgmt (s : State) (h : Nat) (l : Tab (BitVec 512)) : (s.setCells h l).mgmt = s.mgmt := rfl
@[simp] theorem State.setCells_jobs (s : State) (h : Nat) (l : Tab (BitVec 512)) : (s.setCells h l).jobs = s.jobs := rfl
@[simp] theorem State.setCells_starts (s : State) (h : Nat) (l : Tab (BitVec 512)) : (s.setCells h l).starts = s.starts := rfl
@[simp] theorem State.setCells_spawns (s : State) (h : Nat) (l : Tab (BitVec 512)) : (s.setCells h l).spawns = s.spawns := rfl
@[simp] theorem State.setCells_coll (s : State) (h : Nat) (l : Tab (BitVec 512)) : (s.setCells h l).coll = s.coll := rfl
@[simp] theorem State.setCells_graphs (s : State) (h : Nat) (l : Tab (BitVec 512)) : (s.setCells h l).graphs = { s.graphs with cells := if l.isEmpty then s.graphs.cells.del h else s.graphs.cells.set h l } := rfl
@[simp] theorem State.setCells_links (s : State) (h : Nat) (l : Tab (BitVec 512)) : (s.setCells h l).links = s.links := rfl
@[simp] theorem State.setCells_power (s : State) (h : Nat) (l : Tab (BitVec 512)) : (s.setCells h l).power = s.power := rfl
@[simp] theorem State.setCells_clock (s : State) (h : Nat) (l : Tab (BitVec 512)) : (s.setCells h l).clock = s.clock := rfl
@[simp] theorem State.setCells_probes (s : State) (h : Nat) (l : Tab (BitVec 512)) : (s.setCells h l).probes = s.probes := rfl

@[simp] theorem State.setUpsets_pending (s : State) (h : Nat) (l : Tab (BitVec 544)) : (s.setUpsets h l).pending = s.pending := rfl
@[simp] theorem State.setUpsets_now (s : State) (h : Nat) (l : Tab (BitVec 544)) : (s.setUpsets h l).now = s.now := rfl
@[simp] theorem State.setUpsets_fresh (s : State) (h : Nat) (l : Tab (BitVec 544)) : (s.setUpsets h l).fresh = s.fresh := rfl
@[simp] theorem State.setUpsets_regs (s : State) (h : Nat) (l : Tab (BitVec 544)) : (s.setUpsets h l).regs = s.regs := rfl
@[simp] theorem State.setUpsets_out (s : State) (h : Nat) (l : Tab (BitVec 544)) : (s.setUpsets h l).out = s.out := rfl
@[simp] theorem State.setUpsets_net (s : State) (h : Nat) (l : Tab (BitVec 544)) : (s.setUpsets h l).net = s.net := rfl
@[simp] theorem State.setUpsets_mgmt (s : State) (h : Nat) (l : Tab (BitVec 544)) : (s.setUpsets h l).mgmt = s.mgmt := rfl
@[simp] theorem State.setUpsets_jobs (s : State) (h : Nat) (l : Tab (BitVec 544)) : (s.setUpsets h l).jobs = s.jobs := rfl
@[simp] theorem State.setUpsets_starts (s : State) (h : Nat) (l : Tab (BitVec 544)) : (s.setUpsets h l).starts = s.starts := rfl
@[simp] theorem State.setUpsets_spawns (s : State) (h : Nat) (l : Tab (BitVec 544)) : (s.setUpsets h l).spawns = s.spawns := rfl
@[simp] theorem State.setUpsets_coll (s : State) (h : Nat) (l : Tab (BitVec 544)) : (s.setUpsets h l).coll = s.coll := rfl
@[simp] theorem State.setUpsets_graphs (s : State) (h : Nat) (l : Tab (BitVec 544)) : (s.setUpsets h l).graphs = { s.graphs with upsets := if l.isEmpty then s.graphs.upsets.del h else s.graphs.upsets.set h l } := rfl
@[simp] theorem State.setUpsets_links (s : State) (h : Nat) (l : Tab (BitVec 544)) : (s.setUpsets h l).links = s.links := rfl
@[simp] theorem State.setUpsets_power (s : State) (h : Nat) (l : Tab (BitVec 544)) : (s.setUpsets h l).power = s.power := rfl
@[simp] theorem State.setUpsets_clock (s : State) (h : Nat) (l : Tab (BitVec 544)) : (s.setUpsets h l).clock = s.clock := rfl
@[simp] theorem State.setUpsets_probes (s : State) (h : Nat) (l : Tab (BitVec 544)) : (s.setUpsets h l).probes = s.probes := rfl

@[simp] theorem State.free_pending (s : State) : s.free.2.pending = s.pending := rfl
@[simp] theorem State.free_now (s : State) : s.free.2.now = s.now := rfl
@[simp] theorem State.free_fresh (s : State) : s.free.2.fresh = s.fresh + 1 := rfl
@[simp] theorem State.free_regs (s : State) : s.free.2.regs = s.regs := rfl
@[simp] theorem State.free_out (s : State) : s.free.2.out = s.out := rfl
@[simp] theorem State.free_net (s : State) : s.free.2.net = s.net := rfl
@[simp] theorem State.free_mgmt (s : State) : s.free.2.mgmt = s.mgmt := rfl
@[simp] theorem State.free_jobs (s : State) : s.free.2.jobs = s.jobs := rfl
@[simp] theorem State.free_starts (s : State) : s.free.2.starts = s.starts := rfl
@[simp] theorem State.free_spawns (s : State) : s.free.2.spawns = s.spawns := rfl
@[simp] theorem State.free_coll (s : State) : s.free.2.coll = s.coll := rfl
@[simp] theorem State.free_graphs (s : State) : s.free.2.graphs = s.graphs := rfl
@[simp] theorem State.free_links (s : State) : s.free.2.links = s.links := rfl
@[simp] theorem State.free_power (s : State) : s.free.2.power = s.power := rfl
@[simp] theorem State.free_clock (s : State) : s.free.2.clock = s.clock := rfl
@[simp] theorem State.free_probes (s : State) : s.free.2.probes = s.probes := rfl

@[simp] theorem State.free_value (s : State) : s.free.1 = Config.freeValue s.fresh := rfl

end Sys2Proof.Machine
end

