-- ==== Sys2Proof/Laws/Tab.lean ====
section
/-!
SUPPORT. Tables by number: a read after a write, and that writes keep the numbers rising.
-/
namespace Sys2Proof.Machine

variable {α : Type}

/-- The value just set is read. -/
@[simp] theorem Tab.get_set_same (m : Tab α) (k : Nat) (v : α) : (m.set k v).get? k = some v := by
  induction m with
  | nil => simp [Tab.set, Tab.get?]
  | cons x r ih =>
    obtain ⟨i, w⟩ := x
    have hk : Nat.beq k k = true := Nat.beq_eq.mpr rfl
    simp only [Tab.set]
    cases hb : Nat.blt k i <;> cases he : Nat.beq i k
    · simp only [cond_false, Tab.get?, he, ih]
    · simp only [cond_false, cond_true, Tab.get?, hk]
    · simp only [cond_true, Tab.get?, hk]
    · simp only [cond_true, Tab.get?, hk]

/-- Other numbers read as before a set. -/
theorem Tab.get_set_other (m : Tab α) {k j : Nat} (v : α) (h : j ≠ k) : (m.set k v).get? j = m.get? j := by
  have hkj : Nat.beq k j = false := by rw [← Bool.not_eq_true, Nat.beq_eq]; omega
  induction m with
  | nil => simp [Tab.set, Tab.get?, hkj]
  | cons x r ih =>
    obtain ⟨i, w⟩ := x
    simp only [Tab.set]
    cases hb : Nat.blt k i <;> cases he : Nat.beq i k
    · simp only [cond_false, Tab.get?, ih]
    · have hi : i = k := Nat.beq_eq.mp he
      subst hi
      simp only [cond_false, cond_true, Tab.get?, hkj]
    · simp only [cond_true, Tab.get?, hkj, cond_false]
    · simp only [cond_true, Tab.get?, hkj, cond_false]

/-- Other numbers read as before a removal. -/
theorem Tab.get_del_other (m : Tab α) {k j : Nat} (h : j ≠ k) : (m.del k).get? j = m.get? j := by
  induction m with
  | nil => rfl
  | cons x r ih =>
    obtain ⟨i, w⟩ := x
    simp only [Tab.del]
    cases he : Nat.beq i k
    · simp only [cond_false, Tab.get?, ih]
    · have hi : i = k := Nat.beq_eq.mp he
      have hj : Nat.beq i j = false := by rw [← Bool.not_eq_true, Nat.beq_eq]; omega
      simp only [cond_true, Tab.get?, hj, cond_false, ih]

/-- A number below every number of a table is not in it. -/
theorem Tab.get_none_of_lt (m : Tab α) (k : Nat) (h : ∀ x ∈ m, k < x.1) : m.get? k = none := by
  induction m with
  | nil => rfl
  | cons x r ih =>
    obtain ⟨i, w⟩ := x
    have h0 := h (i, w) (by simp)
    have hi : Nat.beq i k = false := by rw [← Bool.not_eq_true, Nat.beq_eq]; simp at h0; omega
    simp only [Tab.get?, hi, cond_false]
    exact ih (fun y hy => h y (by simp [hy]))

/-- In a rising table the first number is below the others. -/
theorem Tab.wf_cons {i : Nat} {w : α} {r : Tab α} (h : Tab.wf ((i, w) :: r) = true) :
    Tab.wf r = true ∧ ∀ x ∈ r, i < x.1 := by
  induction r generalizing i w with
  | nil => simp [Tab.wf]
  | cons y t ih =>
    obtain ⟨j, u⟩ := y
    simp only [Tab.wf, Bool.and_eq_true, Nat.blt_eq] at h
    refine ⟨h.2, fun x hx => ?_⟩
    rcases List.mem_cons.mp hx with rfl | hx
    · exact h.1
    · exact Nat.lt_trans h.1 ((ih h.2).2 x hx)

/-- A number put before a rising table whose numbers are all greater. -/
theorem Tab.wf_of_lt {i : Nat} {w : α} {r : Tab α} (h : Tab.wf r = true) (hl : ∀ x ∈ r, i < x.1) :
    Tab.wf ((i, w) :: r) = true := by
  cases r with
  | nil => rfl
  | cons y t =>
    obtain ⟨j, u⟩ := y
    simp only [Tab.wf, Bool.and_eq_true, Nat.blt_eq]
    exact ⟨hl (j, u) (by simp), h⟩

/-- What a set can hold. -/
theorem Tab.mem_set {m : Tab α} {k : Nat} {v : α} {x : Nat × α} (h : x ∈ m.set k v) : x = (k, v) ∨ x ∈ m := by
  induction m with
  | nil => simp [Tab.set] at h; exact .inl h
  | cons y r ih =>
    obtain ⟨i, w⟩ := y
    simp only [Tab.set] at h
    cases hb : Nat.blt k i <;> cases he : Nat.beq i k <;> simp only [hb, he, cond_true, cond_false, List.mem_cons] at h ⊢ <;>
      grind

/-- A set keeps the numbers rising. -/
theorem Tab.wf_set {m : Tab α} (k : Nat) (v : α) (h : Tab.wf m = true) : Tab.wf (m.set k v) = true := by
  induction m with
  | nil => rfl
  | cons y r ih =>
    obtain ⟨i, w⟩ := y
    obtain ⟨hr, hl⟩ := Tab.wf_cons h
    simp only [Tab.set]
    cases hb : Nat.blt k i
    · cases he : Nat.beq i k
      · simp only [cond_false]
        refine Tab.wf_of_lt (ih hr) (fun x hx => ?_)
        rcases Tab.mem_set hx with rfl | hx
        · have h1 : ¬ k < i := fun hh => by rw [Nat.blt_eq.mpr hh] at hb; exact Bool.noConfusion hb
          have h2 : i ≠ k := fun hh => by rw [Nat.beq_eq.mpr hh] at he; exact Bool.noConfusion he
          show i < k
          omega
        · exact hl x hx
      · have hi : i = k := Nat.beq_eq.mp he
        subst hi
        simp only [cond_false, cond_true]
        exact Tab.wf_of_lt hr hl
    · simp only [cond_true]
      refine Tab.wf_of_lt h (fun x hx => ?_)
      have hk : k < i := Nat.blt_eq.mp hb
      rcases List.mem_cons.mp hx with rfl | hx
      · exact hk
      · exact Nat.lt_trans hk (hl x hx)

/-- What is left after a removal was there. -/
theorem Tab.mem_del {m : Tab α} {k : Nat} {x : Nat × α} (h : x ∈ m.del k) : x ∈ m := by
  induction m with
  | nil => simp [Tab.del] at h
  | cons y r ih =>
    obtain ⟨i, w⟩ := y
    simp only [Tab.del] at h
    cases he : Nat.beq i k <;> simp only [he, cond_true, cond_false, List.mem_cons] at h ⊢ <;> grind

/-- A removal keeps the numbers rising. -/
theorem Tab.wf_del {m : Tab α} (k : Nat) (h : Tab.wf m = true) : Tab.wf (m.del k) = true := by
  induction m with
  | nil => rfl
  | cons y r ih =>
    obtain ⟨i, w⟩ := y
    obtain ⟨hr, hl⟩ := Tab.wf_cons h
    simp only [Tab.del]
    cases he : Nat.beq i k
    · simp only [cond_false]
      exact Tab.wf_of_lt (ih hr) (fun x hx => hl x (Tab.mem_del hx))
    · simpa only [cond_true] using ih hr

/-- A removed number is not read. -/
theorem Tab.get_del_same (m : Tab α) (k : Nat) : (m.del k).get? k = none := by
  induction m with
  | nil => rfl
  | cons y r ih =>
    obtain ⟨i, w⟩ := y
    simp only [Tab.del]
    cases he : Nat.beq i k
    · simp only [cond_false, Tab.get?, he, ih]
    · simp only [cond_true, ih]

/-- A filter keeps the numbers rising. -/
theorem Tab.wf_filter {m : Tab α} (p : Nat × α → Bool) (h : Tab.wf m = true) : Tab.wf (m.filter p) = true := by
  induction m with
  | nil => rfl
  | cons y r ih =>
    obtain ⟨i, w⟩ := y
    obtain ⟨hr, hl⟩ := Tab.wf_cons h
    simp only [List.filter_cons]
    split
    · exact Tab.wf_of_lt (ih hr) (fun x hx => hl x (List.mem_of_mem_filter hx))
    · exact ih hr

end Sys2Proof.Machine
end

