-- ==== Sys2Proof/Laws/Elements.lean ====
section
/-!
SUPPORT. Dictionary elements: what a write of one leaves in it and in the others.
-/
namespace Sys2Proof.Machine

/-- Elements below 2^24 of two entries share a key only where they are the same. -/
theorem elKey_inj {e el e' el' : Nat} (h : el < 2 ^ 24) (h' : el' < 2 ^ 24) (hk : elKey e el = elKey e' el') :
    e = e' ∧ el = el' := by
  unfold elKey at hk
  omega

/-- A write of an element keeps the elements rising. -/
theorem wrIn_wf {r : Tab Nat} (e el v : Nat) (h : Tab.wf r = true) : Tab.wf (wrIn r e el v) = true := by
  unfold wrIn
  split
  · exact Tab.wf_del _ h
  · exact Tab.wf_set _ _ h

/-- The element written reads as the value. -/
theorem rdIn_wrIn_same {r : Tab Nat} (e el v : Nat) : rdIn (wrIn r e el v) e el = v := by
  unfold rdIn wrIn
  by_cases hv : v = dfltOf e el
  · rw [if_pos hv, Tab.get_del_same]; exact hv.symm
  · rw [if_neg hv, Tab.get_set_same]

/-- Every other element reads as before. -/
theorem rdIn_wrIn_other {r : Tab Nat} {e el e' el' : Nat} (v : Nat) (h : elKey e' el' ≠ elKey e el) :
    rdIn (wrIn r e el v) e' el' = rdIn r e' el' := by
  unfold rdIn wrIn
  by_cases hv : v = dfltOf e el
  · rw [if_pos hv, Tab.get_del_other _ h]
  · rw [if_neg hv, Tab.get_set_other _ _ h]

/-- The element written reads as the value. -/
@[simp] theorem State.rd_wr_same (s : State) (e el v : Nat) : (s.wr e el v).rd e el = v :=
  rdIn_wrIn_same e el v

/-- Every other element reads as before. -/
theorem State.rd_wr_other (s : State) {e el e' el' : Nat} (v : Nat) (h : elKey e' el' ≠ elKey e el) :
    (s.wr e el v).rd e' el' = s.rd e' el' :=
  rdIn_wrIn_other v h

/-- An element is read from the elements alone. -/
theorem State.rd_congr {s t : State} (h : s.regs = t.regs) (e el : Nat) : s.rd e el = t.rd e el := by
  unfold State.rd
  rw [h]

@[simp] theorem State.rd_begin (s : State) (t : Time) (e el : Nat) : (s.begin t).rd e el = s.rd e el := rfl
@[simp] theorem State.rd_emit (s : State) (o : Output) (e el : Nat) : (s.emit o).rd e el = s.rd e el := rfl
@[simp] theorem State.rd_free (s : State) (e el : Nat) : s.free.2.rd e el = s.rd e el := rfl
@[simp] theorem State.rd_setClock (s : State) (c : Clock) (e el : Nat) : (s.setClock c).rd e el = s.rd e el := rfl
@[simp] theorem State.rd_setPower (s : State) (p : Power) (e el : Nat) : (s.setPower p).rd e el = s.rd e el := rfl
@[simp] theorem State.rd_setNq (s : State) (q : Nat) (v : NQueue) (e el : Nat) : (s.setNq q v).rd e el = s.rd e el := rfl
@[simp] theorem State.rd_setJob (s : State) (tag : Nat) (j : Job) (e el : Nat) : (s.setJob tag j).rd e el = s.rd e el := rfl
@[simp] theorem State.rd_setPass (s : State) (p : Pass) (l : Tab Nat) (e el : Nat) : (s.setPass p l).rd e el = s.rd e el := rfl

end Sys2Proof.Machine
end

