-- ==== Sys2Proof/Laws/Access.lean ====
section
/-!
SUPPORT. What a dictionary access does: an accepted write commits and takes effect, a refused one leaves its reason, and a
cause of Table 4 changes nothing.
-/
namespace Sys2Proof.Machine

/-- An accepted write commits, takes effect and answers OK. -/
theorem State.writeWith_ok {s : State} {a : Access} {e el len val : Nat} {own : Bool} {rule : State → Verdict}
    {told act : State → State} (h : s.Takes a e el len val own) (hr : rule (s.begin a.t) = .ok) :
    s.writeWith a e el len val own rule told act = (act (s.commitAt a)).answerItem stOk := by
  obtain ⟨hp, hi, hv⟩ := h
  have hi' : (s.begin a.t).itemStatus a e el (countOf e) len true own = stOk := hi
  unfold State.writeWith
  simp [hp, hi', hv, hr, State.commitAt, State.answerItem]

/-- The same for a write whose refusal does nothing else. -/
theorem State.writeOne_ok {s : State} {a : Access} {e el len val : Nat} {own : Bool} {rule : State → Verdict}
    {act : State → State} (h : s.Takes a e el len val own) (hr : rule (s.begin a.t) = .ok) :
    s.writeOne a e el len val own rule act = (act (s.commitAt a)).answerItem stOk :=
  State.writeWith_ok h hr

/-- A write that its entry's own rule refuses leaves the reason in the status entry that the rule names. -/
theorem State.writeWith_refused {s : State} {a : Access} {e el len val code st : Nat} {own : Bool} {rule : State → Verdict}
    {told act : State → State} (h : s.Takes a e el len val own) (hr : rule (s.begin a.t) = .refused st code) :
    s.writeWith a e el len val own rule told act
      = (told ((Verdict.refused st code).record (s.begin a.t))).answerItem stRefused := by
  obtain ⟨hp, hi, hv⟩ := h
  have hi' : (s.begin a.t).itemStatus a e el (countOf e) len true own = stOk := hi
  unfold State.writeWith
  simp [hp, hi', hv, hr, State.answerItem, Verdict.status]

/-- A write with a cause of Table 4 that precedes RANGE answers it and changes nothing else. -/
theorem State.writeWith_cause {s : State} {a : Access} {e el len val : Nat} {own : Bool} {rule : State → Verdict}
    {told act : State → State} (hp : s.mgmt.pass = .alone) (hi : s.itemStatus a e el (countOf e) len true own ≠ stOk) :
    s.writeWith a e el len val own rule told act
      = (s.begin a.t).answerItem (s.itemStatus a e el (countOf e) len true own) := by
  have e' : (s.begin a.t).itemStatus a e el (countOf e) len true own = s.itemStatus a e el (countOf e) len true own := rfl
  unfold State.writeWith
  simp [hp, e', hi, State.answerItem]

/-- A read answers its value. -/
theorem State.readOne_ok {s : State} {a : Access} {e el : Nat} {own : Bool} {value : State → Nat} {after : State → State}
    (h : s.Gives a e el own) :
    s.readOne a e el own value after = (after (s.begin a.t)).emit (.item stOk (value (s.begin a.t))) := by
  have h' : (s.begin a.t).itemStatus a e el (countOf e) 0 false own = stOk := h
  unfold State.readOne
  simp [h']

end Sys2Proof.Machine
end

