-- ==== Sys2Proof/Laws/Bits.lean ====
section
/-!
SUPPORT. Numbers, fields and bytes: a field is a quotient, a packed number a sum, and the bytes of a number spell it.
-/
namespace Sys2Proof.Machine

/-- A field by division. -/
theorem bits_div (v hi lo : Nat) : bits v hi lo = v / 2 ^ lo % 2 ^ (hi + 1 - lo) := by
  unfold bits
  rw [Nat.shiftRight_eq_div_pow]

theorem pack_nil : pack [] = 0 := rfl

theorem foldl_pack (l : List (Nat × Nat)) (acc : Nat) :
    l.foldl (fun acc wv => acc * 2 ^ wv.1 + wv.2 % 2 ^ wv.1) acc = acc * 2 ^ (l.map Prod.fst).sum + pack l := by
  induction l generalizing acc with
  | nil => simp [pack]
  | cons x r ih =>
    unfold pack
    rw [List.foldl_cons, List.foldl_cons, ih, ih, List.map_cons, List.sum_cons, pow_add]
    ring

/-- The first field of a packed number stands above the others. -/
theorem pack_cons (w v : Nat) (l : List (Nat × Nat)) :
    pack ((w, v) :: l) = v % 2 ^ w * 2 ^ (l.map Prod.fst).sum + pack l := by
  conv_lhs => unfold pack
  rw [List.foldl_cons, foldl_pack]
  simp

@[simp] theorem toBytes_length (n v : Nat) : (toBytes n v).length = n := by
  induction n with
  | zero => rfl
  | succ n ih => simp [toBytes, ih]

/-- The bytes of a number spell it, cut to their width. -/
theorem ofBytes_toBytes (n v : Nat) : ofBytes (toBytes n v) = v % 2 ^ (8 * n) := by
  have aux : ∀ (n v acc : Nat), (toBytes n v).foldl (fun acc (b : Byte) => acc * 256 + b.toNat) acc
      = acc * 2 ^ (8 * n) + v % 2 ^ (8 * n) := by
    intro n
    induction n with
    | zero => intro v acc; simp [toBytes, Nat.mod_one]
    | succ n ih =>
      intro v acc
      simp only [toBytes, List.foldl_cons, ih, BitVec.toNat_ofNat, Nat.shiftRight_eq_div_pow]
      have e : v % 2 ^ (8 * (n + 1)) = 2 ^ (8 * n) * (v / 2 ^ (8 * n) % 256) + v % 2 ^ (8 * n) := by
        rw [show 8 * (n + 1) = 8 * n + 8 by omega, pow_add, Nat.mod_mul]
        norm_num
        ring
      rw [e, show 8 * (n + 1) = 8 * n + 8 by omega, pow_add]
      norm_num
      ring
  simpa [ofBytes] using aux n v 0

/-- The number at the head of a byte string that begins with its bytes. -/
theorem field_toBytes (n v : Nat) (r : List Byte) : field (toBytes n v ++ r) 0 n = v % 2 ^ (8 * n) := by
  unfold field slice
  rw [List.drop_zero, List.take_append_of_le_length (by rw [toBytes_length]), List.take_of_length_le (by rw [toBytes_length]),
    ofBytes_toBytes]

end Sys2Proof.Machine
end

