-- ==== Sys2Proof/Laws/Keeps.lean ====
section
/-!
SUPPORT. What every operation keeps: the dictionary's elements stay in rising order, and the queue of commands is not touched.
-/
namespace Sys2Proof.Machine

/-- From one state to another the queue of commands is the same, no free value is used again, and the dictionary's elements,
the jobs and the spawn sessions, each where in rising order, stay so. -/
structure Keeps (s t : State) : Prop where
  queue : t.pending = s.pending
  fresh : s.fresh ≤ t.fresh
  elements : Tab.wf s.regs = true → Tab.wf t.regs = true
  jobs : Tab.wf s.jobs = true → Tab.wf t.jobs = true
  sessions : Tab.wf s.spawns = true → Tab.wf t.spawns = true

theorem Keeps.rfl {s : State} : Keeps s s := ⟨Eq.refl _, Nat.le_refl _, id, id, id⟩

theorem Keeps.of_id {z s : State} (h : Keeps z s) : Keeps z (id s) := h

/-- A state made of another by changes elsewhere. -/
theorem Keeps.upd {s0 s : State} (h : Keeps s0 s) (now : Time) (out : List Output) (net : Net) (mgmt : Mgmt)
    (starts : List Nat) (coll : Coll) (graphs : Graphs) (links : Links) (power : Power) (clock : Clock) (probes : Probes) :
    Keeps s0 (State.mk s.pending now s.fresh s.regs out net mgmt s.jobs starts s.spawns coll graphs links power clock probes) :=
  ⟨h.queue, h.fresh, h.elements, h.jobs, h.sessions⟩

/-- The same with a free value taken. -/
theorem Keeps.take {s0 s : State} (h : Keeps s0 s) (now : Time) (out : List Output) (net : Net) (mgmt : Mgmt)
    (starts : List Nat) (coll : Coll) (graphs : Graphs) (links : Links) (power : Power) (clock : Clock) (probes : Probes) :
    Keeps s0 (State.mk s.pending now (s.fresh + 1) s.regs out net mgmt s.jobs starts s.spawns coll graphs links power clock probes) :=
  ⟨h.queue, Nat.le_succ_of_le h.fresh, h.elements, h.jobs, h.sessions⟩

/-- A job set. -/
theorem Keeps.job {s0 s : State} (h : Keeps s0 s) (k : Nat) (j : Job) (now : Time) (out : List Output) (net : Net) (mgmt : Mgmt)
    (starts : List Nat) (coll : Coll) (graphs : Graphs) (links : Links) (power : Power) (clock : Clock) (probes : Probes) :
    Keeps s0 (State.mk s.pending now s.fresh s.regs out net mgmt (s.jobs.set k j) starts s.spawns coll graphs links power clock probes) :=
  ⟨h.queue, h.fresh, h.elements, fun hj => Tab.wf_set k j (h.jobs hj), h.sessions⟩

/-- A session set. -/
theorem Keeps.session {s0 s : State} (h : Keeps s0 s) (k : Nat) (x : Session) (now : Time) (out : List Output) (net : Net) (mgmt : Mgmt)
    (starts : List Nat) (coll : Coll) (graphs : Graphs) (links : Links) (power : Power) (clock : Clock) (probes : Probes) :
    Keeps s0 (State.mk s.pending now s.fresh s.regs out net mgmt s.jobs starts (s.spawns.set k x) coll graphs links power clock probes) :=
  ⟨h.queue, h.fresh, h.elements, h.jobs, fun hs => Tab.wf_set k x (h.sessions hs)⟩

/-- A session removed. -/
theorem Keeps.sessionDel {s0 s : State} (h : Keeps s0 s) (k : Nat) (now : Time) (out : List Output) (net : Net) (mgmt : Mgmt)
    (starts : List Nat) (coll : Coll) (graphs : Graphs) (links : Links) (power : Power) (clock : Clock) (probes : Probes) :
    Keeps s0 (State.mk s.pending now s.fresh s.regs out net mgmt s.jobs starts (s.spawns.del k) coll graphs links power clock probes) :=
  ⟨h.queue, h.fresh, h.elements, h.jobs, fun hs => Tab.wf_del k (h.sessions hs)⟩

/-- Sessions removed. -/
theorem Keeps.sessionFilter {s0 s : State} (h : Keeps s0 s) (p : Nat × Session → Bool) (now : Time) (out : List Output) (net : Net) (mgmt : Mgmt)
    (starts : List Nat) (coll : Coll) (graphs : Graphs) (links : Links) (power : Power) (clock : Clock) (probes : Probes) :
    Keeps s0 (State.mk s.pending now s.fresh s.regs out net mgmt s.jobs starts (s.spawns.filter p) coll graphs links power clock probes) :=
  ⟨h.queue, h.fresh, h.elements, h.jobs, fun hs => Tab.wf_filter p (h.sessions hs)⟩

/-- A table mapped value by value keeps its numbers. -/
theorem Tab.wf_map {α : Type} {m : Tab α} (f : Nat × α → α) (h : Tab.wf m = true) :
    Tab.wf (m.map (fun x => (x.1, f x))) = true := by
  induction m with
  | nil => rfl
  | cons y r ih =>
    obtain ⟨hr, hl⟩ := Tab.wf_cons h
    refine Tab.wf_of_lt (ih hr) (fun x hx => ?_)
    obtain ⟨a, ha, rfl⟩ := List.mem_map.mp hx
    exact hl a ha

/-- Sessions changed in their places. -/
theorem Keeps.sessionMap {s0 s : State} (h : Keeps s0 s) (f : Nat × Session → Session) (now : Time) (out : List Output) (net : Net) (mgmt : Mgmt)
    (starts : List Nat) (coll : Coll) (graphs : Graphs) (links : Links) (power : Power) (clock : Clock) (probes : Probes) :
    Keeps s0 (State.mk s.pending now s.fresh s.regs out net mgmt s.jobs starts (s.spawns.map (fun x => (x.1, f x))) coll graphs links power clock probes) :=
  ⟨h.queue, h.fresh, h.elements, h.jobs, fun hs => Tab.wf_map f (h.sessions hs)⟩

theorem Keeps.ite {s0 s t : State} {c : Prop} [Decidable c] (h : Keeps s0 s) (h' : Keeps s0 t) :
    Keeps s0 (if c then s else t) := by
  split <;> assumption

theorem Keeps.ite2 {α : Type} {s0 : State} {p q : α × State} {c : Prop} [Decidable c] (h : Keeps s0 p.2) (h' : Keeps s0 q.2) :
    Keeps s0 (if c then p else q).2 := by
  split <;> assumption

theorem Keeps.foldl {α : Type} {s0 s : State} {f : State → α → State} {l : List α} (h : Keeps s0 s)
    (hf : ∀ x a, Keeps s0 x → Keeps s0 (f x a)) : Keeps s0 (l.foldl f s) := by
  induction l generalizing s with
  | nil => exact h
  | cons a r ih => exact ih (hf s a h)

theorem Keeps.foldl2 {α β : Type} {s0 : State} {p : β × State} {f : β × State → α → β × State} {l : List α}
    (h : Keeps s0 p.2) (hf : ∀ x a, Keeps s0 x.2 → Keeps s0 (f x a).2) : Keeps s0 (l.foldl f p).2 := by
  induction l generalizing p with
  | nil => exact h
  | cons a r ih => exact ih (hf p a h)

theorem Keeps.snd_eq {α : Type} {s0 t : State} {p : α × State} {a : α} (e : p = (a, t)) (h : Keeps s0 p.2) : Keeps s0 t := by
  subst e; exact h

theorem Keeps.snd2_eq {α β : Type} {s0 t : State} {p : α × β × State} {a : α} {b : β} (e : p = (a, b, t))
    (h : Keeps s0 p.2.2) : Keeps s0 t := by
  subst e; exact h

theorem Keeps.mid_eq {α β : Type} {s0 t : State} {p : α × State × β} {a : α} {b : β} (e : p = (a, t, b))
    (h : Keeps s0 p.2.1) : Keeps s0 t := by
  subst e; exact h

/-- An outcome's next state, where it has one. -/
structure KeepsNext (z : State) (o : Host.Outcome State Fault Refusal) : Prop where
  keeps : ∀ t, o = .next t → Keeps z t

theorem KeepsNext.next {z s : State} (h : Keeps z s) : KeepsNext z (.next s) :=
  ⟨fun _ e => Host.Outcome.next.inj e ▸ h⟩

theorem KeepsNext.ite {z : State} {o p : Host.Outcome State Fault Refusal} {c : Prop} [Decidable c] (h : KeepsNext z o)
    (h' : KeepsNext z p) : KeepsNext z (if c then o else p) := by
  split <;> assumption

/-- A state that may be absent. -/
structure KeepsSome (z : State) (o : Option State) : Prop where
  keeps : ∀ t, o = some t → Keeps z t

theorem KeepsSome.none {z : State} : KeepsSome z none := ⟨fun _ e => nomatch e⟩
theorem KeepsSome.some {z s : State} (h : Keeps z s) : KeepsSome z (some s) :=
  ⟨fun _ e => Option.some.inj e ▸ h⟩
theorem KeepsSome.ite {z : State} {o p : Option State} {c : Prop} [Decidable c] (h : KeepsSome z o)
    (h' : KeepsSome z p) : KeepsSome z (if c then o else p) := by
  split <;> assumption

/-- A state that comes with a value, and may be absent. -/
structure KeepsPair {α : Type} (z : State) (o : Option (α × State)) : Prop where
  keeps : ∀ a t, o = some (a, t) → Keeps z t

theorem KeepsPair.none {α : Type} {z : State} : KeepsPair (α := α) z none := ⟨fun _ _ e => nomatch e⟩
theorem KeepsPair.some {α : Type} {z s : State} {a : α} (h : Keeps z s) : KeepsPair z (some (a, s)) :=
  ⟨fun _ _ e => (Prod.mk.inj (Option.some.inj e)).2 ▸ h⟩
theorem KeepsPair.ite {α : Type} {z : State} {o p : Option (α × State)} {c : Prop} [Decidable c] (h : KeepsPair z o)
    (h' : KeepsPair z p) : KeepsPair z (if c then o else p) := by
  split <;> assumption

theorem KeepsSome.map {α : Type} {z : State} {o : Option (α × State)} {f : α × State → State} (h : KeepsPair z o)
    (hf : ∀ y, Keeps z y.2 → Keeps z (f y)) : KeepsSome z (o.map f) := by
  cases o with
  | none => exact .none
  | some y => exact .some (hf y (h.keeps y.1 y.2 (Eq.refl _)))

theorem KeepsPair.map {α β : Type} {z : State} {o : Option (α × State)} {f : α × State → β × State} (h : KeepsPair z o)
    (hf : ∀ y, Keeps z y.2 → Keeps z (f y).2) : KeepsPair z (o.map f) := by
  cases o with
  | none => exact .none
  | some y => exact .some (hf y (h.keeps y.1 y.2 (Eq.refl _)))

theorem KeepsPair.of_map {α β : Type} {z : State} {o : Option α} {f : α → β × State} (hf : ∀ y, Keeps z (f y).2) :
    KeepsPair z (o.map f) := by
  cases o with
  | none => exact .none
  | some y => exact .some (hf y)

theorem KeepsSome.mapState {z : State} {o : Option State} {f : State → State} (h : KeepsSome z o)
    (hf : ∀ y, Keeps z y → Keeps z (f y)) : KeepsSome z (o.map f) := by
  cases o with
  | none => exact .none
  | some y => exact .some (hf y (h.keeps y (Eq.refl _)))

theorem KeepsSome.bind {α : Type} {z : State} {o : Option (α × State)} {f : α × State → Option State} (h : KeepsPair z o)
    (hf : ∀ y, Keeps z y.2 → KeepsSome z (f y)) : KeepsSome z (o.bind f) := by
  cases o with
  | none => exact .none
  | some y => exact hf y (h.keeps y.1 y.2 (Eq.refl _))

theorem KeepsSome.of_bind {α : Type} {z : State} {o : Option α} {f : α → Option State} (hf : ∀ y, KeepsSome z (f y)) :
    KeepsSome z (o.bind f) := by
  cases o with
  | none => exact .none
  | some y => exact hf y

theorem KeepsPair.bind {α β : Type} {z : State} {o : Option (α × State)} {f : α × State → Option (β × State)}
    (h : KeepsPair z o) (hf : ∀ y, Keeps z y.2 → KeepsPair z (f y)) : KeepsPair z (o.bind f) := by
  cases o with
  | none => exact .none
  | some y => exact hf y (h.keeps y.1 y.2 (Eq.refl _))

theorem KeepsPair.of_bind {α β : Type} {z : State} {o : Option α} {f : α → Option (β × State)}
    (hf : ∀ y, KeepsPair z (f y)) : KeepsPair z (o.bind f) := by
  cases o with
  | none => exact .none
  | some y => exact hf y

theorem Keeps.some_eq {s0 t : State} {o : Option State} (e : o = some t) (h : KeepsSome s0 o) : Keeps s0 t := h.keeps t e

theorem Keeps.some2_eq {α : Type} {s0 t : State} {o : Option (α × State)} {a : α} (e : o = some (a, t)) (h : KeepsPair s0 o) : Keeps s0 t := h.keeps a t e

theorem State.wr_keeps {s0 : State} (s : State) (e el v : Nat) (h : Keeps s0 s) : Keeps s0 (s.wr e el v) :=
  ⟨h.queue, h.fresh, fun hs => wrIn_wf e el v (h.elements hs), h.jobs, h.sessions⟩

/-- What a phase of an exchange keeps. -/
structure KeepsPhase (ph : Phase) : Prop where
  hold : ∀ z s, Keeps z s → Keeps z (ph.hold s).2
  commit : ∀ z s, Keeps z s → Keeps z (ph.commit s)
  release : ∀ z s, Keeps z s → Keeps z (ph.release s)
  outcome : ∀ z a b s, Keeps z s → Keeps z (ph.outcome a b s)

end Sys2Proof.Machine
end

