-- ==== Sys2Proof/Laws/KeepsNet.lean ====
section
/-!
SUPPORT. What each function keeps (`Keeps`): The shared operations, routes, frames, stores, the writes and reads of the dictionary and fabric time.
-/
namespace Sys2Proof.Machine

theorem State.limited_keeps {z : State} (s : State) (interval : Nat) (key : Nat) (code : Nat) (src : Nat) (h0 : Keeps z s) :
    Keeps z (State.limited s interval key code src).2 := by
  unfold State.limited
  repeat' first
    | with_reducible assumption | extract_lets | fail_if_no_progress (with_reducible apply Keeps.upd)
    | with_reducible apply Keeps.ite2

theorem State.raiseTo_keeps {z : State} (s : State) (e : Nat) (el : Nat) (v : Nat) (h0 : Keeps z s) :
    Keeps z (State.raiseTo s e el v) := by
  unfold State.raiseTo
  repeat' first
    | with_reducible assumption | extract_lets | with_reducible apply State.wr_keeps | with_reducible apply Keeps.ite

theorem State.bump_keeps {z : State} (s : State) (e : Nat) (el : Nat) (n : Nat) (h0 : Keeps z s) :
    Keeps z (State.bump s e el n) := by
  unfold State.bump
  repeat' first
    | with_reducible assumption | with_reducible apply State.wr_keeps

theorem State.emit_keeps {z : State} (s : State) (o : Output) (h0 : Keeps z s) :
    Keeps z (State.emit s o) := by
  unfold State.emit
  repeat' first
    | with_reducible assumption | fail_if_no_progress (with_reducible apply Keeps.upd)

theorem State.keeperWork_keeps {z : State} (s : State) (h0 : Keeps z s) :
    Keeps z (State.keeperWork s) := by
  unfold State.keeperWork
  repeat' first
    | with_reducible assumption | extract_lets | with_reducible apply State.wr_keeps | with_reducible apply Keeps.ite

theorem State.setNq_keeps {z : State} (s : State) (q : Nat) (v : NQueue) (h0 : Keeps z s) :
    Keeps z (State.setNq s q v) := by
  unfold State.setNq
  repeat' first
    | with_reducible assumption | extract_lets | fail_if_no_progress (with_reducible apply Keeps.upd)

theorem State.offer_keeps {z : State} (s : State) (q : Nat) (code : Nat) (sev : Nat) (rec4 : Nat) (h0 : Keeps z s) :
    Keeps z (State.offer s q code sev rec4) := by
  unfold State.offer
  repeat' first
    | with_reducible assumption | extract_lets | with_reducible apply State.setNq_keeps
    | with_reducible apply State.bump_keeps | with_reducible apply Keeps.ite

theorem State.form_keeps {z : State} (s : State) (code : Nat) (sev : Nat) (src : Nat) (ctx : List Item) (h0 : Keeps z s) :
    Keeps z (State.form s code sev src ctx) := by
  unfold State.form
  repeat' first
    | with_reducible assumption | intro _ | extract_lets | with_reducible apply State.raiseTo_keeps
    | with_reducible apply State.bump_keeps | with_reducible apply State.emit_keeps
    | with_reducible apply State.keeperWork_keeps | with_reducible apply State.offer_keeps
    | fail_if_no_progress (with_reducible apply Keeps.upd) | with_reducible apply Keeps.foldl | with_reducible apply Keeps.ite

theorem State.addCounter_keeps {z : State} (s : State) (b : Nat) (k : Nat) (n : Nat) (h0 : Keeps z s) :
    Keeps z (State.addCounter s b k n) := by
  unfold State.addCounter
  repeat' first
    | with_reducible assumption | extract_lets | with_reducible apply State.wr_keeps | with_reducible apply State.form_keeps
    | (refine Keeps.snd_eq (by with_reducible assumption) ?_; with_reducible apply State.limited_keeps)
    | with_reducible apply Keeps.ite | split

theorem State.countEvent_keeps {z : State} (s : State) (b : Nat) (event : Nat) (arg : Nat) (job : Nat) (n : Nat)
    (h0 : Keeps z s) :
    Keeps z (State.countEvent s b event arg job n) := by
  unfold State.countEvent
  repeat' first
    | with_reducible assumption | intro _ | extract_lets | with_reducible apply State.addCounter_keeps
    | with_reducible apply Keeps.foldl | with_reducible apply Keeps.ite

theorem State.raise_keeps {z : State} (s : State) (code : Nat) (sev : Nat) (src : Nat) (ctx : List Item) (h0 : Keeps z s) :
    Keeps z (State.raise s code sev src ctx) := by
  unfold State.raise
  repeat' first
    | with_reducible assumption | extract_lets | with_reducible apply State.countEvent_keeps
    | with_reducible apply State.form_keeps

theorem State.begin_keeps {z : State} (s : State) (t1 : Time) (h0 : Keeps z s) :
    Keeps z (State.begin s t1) := by
  unfold State.begin
  repeat' first
    | with_reducible assumption | fail_if_no_progress (with_reducible apply Keeps.upd)

theorem State.raiseLim_keeps {z : State} (s : State) (interval : Nat) (key : Nat) (code : Nat) (sev : Nat) (src : Nat)
    (ctx : List Item) (h0 : Keeps z s) :
    Keeps z (State.raiseLim s interval key code sev src ctx) := by
  unfold State.raiseLim
  repeat' first
    | with_reducible assumption | extract_lets | with_reducible apply State.raise_keeps
    | (refine Keeps.snd_eq (by with_reducible assumption) ?_; with_reducible apply State.limited_keeps) | split

theorem State.countFixed_keeps {z : State} (s : State) (b : Nat) (n : Nat) (h0 : Keeps z s) :
    Keeps z (State.countFixed s b n) := by
  unfold State.countFixed
  repeat' first
    | with_reducible assumption | with_reducible apply State.addCounter_keeps

theorem State.free_keeps {z : State} (s : State) (h0 : Keeps z s) :
    Keeps z (State.free s).2 := by
  unfold State.free
  repeat' first
    | with_reducible assumption | with_reducible apply Keeps.take

theorem State.bump32_keeps {z : State} (s : State) (e : Nat) (el : Nat) (n : Nat) (h0 : Keeps z s) :
    Keeps z (State.bump32 s e el n) := by
  unfold State.bump32
  repeat' first
    | with_reducible assumption | with_reducible apply State.wr_keeps

theorem State.reportLoss_keeps {z : State} (s : State) (q : Nat) (h0 : Keeps z s) :
    Keeps z (State.reportLoss s q) := by
  unfold State.reportLoss
  repeat' first
    | with_reducible assumption | extract_lets | with_reducible apply State.bump_keeps
    | with_reducible apply State.setNq_keeps | with_reducible apply State.raiseTo_keeps
    | fail_if_no_progress (with_reducible apply Keeps.upd) | with_reducible apply Keeps.ite | split

theorem State.setChannel_keeps {z : State} (s : State) (pair : Nat) (ch : Nat) (c : Channel) (h0 : Keeps z s) :
    Keeps z (State.setChannel s pair ch c) := by
  unfold State.setChannel
  repeat' first
    | with_reducible assumption | extract_lets | fail_if_no_progress (with_reducible apply Keeps.upd)

theorem State.stitch_keeps {z : State} (s : State) (a : Nat) (b : Nat) (src : Nat) (bytes : Nat) (h0 : Keeps z s) :
    Keeps z (State.stitch s a b src bytes) := by
  unfold State.stitch
  repeat' first
    | with_reducible assumption | with_reducible apply State.setChannel_keeps | split

theorem State.setLane_keeps {z : State} (s : State) (n : Nat) (dir : Nat) (k : FlitLane) (h0 : Keeps z s) :
    Keeps z (State.setLane s n dir k) := by
  unfold State.setLane
  repeat' first
    | with_reducible assumption | extract_lets | fail_if_no_progress (with_reducible apply Keeps.upd)

theorem State.attach_keeps {z : State} (s : State) (n : Nat) (dir : Nat) (bytes : Nat) (h0 : Keeps z s) :
    Keeps z (State.attach s n dir bytes) := by
  unfold State.attach
  repeat' first
    | with_reducible assumption | extract_lets | with_reducible apply State.setLane_keeps | with_reducible apply Keeps.ite

theorem State.resendLane_keeps {z : State} (s : State) (m : Nat) (h0 : Keeps z s) :
    Keeps z (State.resendLane s m) := by
  unfold State.resendLane
  repeat' first
    | with_reducible assumption | intro _ | extract_lets | with_reducible apply State.setLane_keeps
    | with_reducible apply Keeps.foldl | with_reducible apply Keeps.ite

theorem State.reassign_keeps {z : State} (s : State) (pair : Nat) (h0 : Keeps z s) :
    Keeps z (State.reassign s pair) := by
  unfold State.reassign
  repeat' first
    | with_reducible assumption | intro _ | extract_lets | with_reducible apply State.setChannel_keeps
    | with_reducible apply Keeps.foldl | with_reducible apply Keeps.ite | split

theorem State.resolveSpray_keeps {z : State} (s : State) (die : Nat) (cls : Nat) (g : Nat) (h0 : Keeps z s) :
    Keeps z (State.resolveSpray s die cls g).2 := by
  unfold State.resolveSpray
  repeat' first
    | with_reducible assumption | extract_lets | fail_if_no_progress (with_reducible apply Keeps.upd)
    | with_reducible apply Keeps.ite2 | split

theorem State.resolveHop_keeps {z : State} (s : State) (die : Nat) (cls : Nat) (job : Nat) (h4 : Nat) (h0 : Keeps z s) :
    Keeps z (State.resolveHop s die cls job h4).2 := by
  unfold State.resolveHop
  repeat' first
    | with_reducible assumption | extract_lets | with_reducible apply State.resolveSpray_keeps
    | with_reducible apply Keeps.ite2 | split

theorem State.resolveDetour_keeps {z : State} (s : State) (die : Nat) (cls : Nat) (job : Nat) (h4 : Nat) (detoured : Bool)
    (h0 : Keeps z s) :
    Keeps z (State.resolveDetour s die cls job h4 detoured).2 := by
  unfold State.resolveDetour
  repeat' first
    | with_reducible assumption | extract_lets | with_reducible apply State.resolveHop_keeps
    | (refine Keeps.snd_eq (by with_reducible assumption) ?_; with_reducible apply State.resolveHop_keeps)
    | (refine Keeps.snd_eq (by with_reducible assumption) ?_; with_reducible apply State.resolveSpray_keeps)
    | with_reducible apply Keeps.ite2 | split

theorem State.resolveGei_keeps {z : State} (s : State) (die : Nat) (cls : Nat) (job : Nat) (gei : Nat) (detoured : Bool)
    (h0 : Keeps z s) :
    Keeps z (State.resolveGei s die cls job gei detoured).2.1 := by
  unfold State.resolveGei
  repeat' first
    | with_reducible assumption | with_reducible apply State.resolveDetour_keeps | split

theorem State.setPort_keeps {z : State} (s : State) (p : Nat) (v : Port) (h0 : Keeps z s) :
    Keeps z (State.setPort s p v) := by
  unfold State.setPort
  repeat' first
    | with_reducible assumption | extract_lets | fail_if_no_progress (with_reducible apply Keeps.upd)

theorem State.parityMiss_keeps {z : State} (s : State) (die : Nat) (table : Nat) (index : Nat) (h0 : Keeps z s) :
    Keeps z (State.parityMiss s die table index) := by
  unfold State.parityMiss
  repeat' first
    | with_reducible assumption | extract_lets | with_reducible apply State.raise_keeps
    | with_reducible apply State.bump_keeps

theorem State.poolEmpty_keeps {z : State} (s : State) (die : Nat) (pool : Nat) (h0 : Keeps z s) :
    Keeps z (State.poolEmpty s die pool) := by
  unfold State.poolEmpty
  repeat' first
    | with_reducible assumption | extract_lets | with_reducible apply State.raiseLim_keeps
    | with_reducible apply State.countEvent_keeps

theorem State.drop_keeps {z : State} (s : State) (d : Drop) (inPort : Nat) (h0 : Keeps z s) :
    Keeps z (State.drop s d inPort) := by
  unfold State.drop
  repeat' first
    | with_reducible assumption | extract_lets | with_reducible apply State.bump_keeps
    | with_reducible apply State.countEvent_keeps | with_reducible apply Keeps.ite

theorem State.doubleFree_keeps {z : State} (s : State) (die : Nat) (c : Nat) (h0 : Keeps z s) :
    Keeps z (State.doubleFree s die c) := by
  unfold State.doubleFree
  repeat' first
    | with_reducible assumption | extract_lets | with_reducible apply State.raise_keeps
    | with_reducible apply State.bump_keeps

theorem State.skipStrays_keeps {z : State} (s : State) (die : Nat) (h0 : Keeps z s) :
    Keeps z (State.skipStrays s die) := by
  unfold State.skipStrays
  repeat' first
    | with_reducible assumption | intro _ | extract_lets | with_reducible apply State.doubleFree_keeps
    | fail_if_no_progress (with_reducible apply Keeps.upd) | with_reducible apply Keeps.foldl | with_reducible apply Keeps.ite

theorem State.takeCells_keeps {z : State} (s : State) (die : Nat) (pool : Nat) (n : Nat) (h0 : Keeps z s) :
    KeepsPair z (State.takeCells s die pool n) := by
  unfold State.takeCells
  repeat' first
    | with_reducible assumption | extract_lets | with_reducible apply State.skipStrays_keeps
    | with_reducible apply State.wr_keeps | with_reducible apply State.countFixed_keeps | with_reducible apply KeepsPair.none
    | with_reducible apply KeepsPair.some | with_reducible apply KeepsPair.ite
    | fail_if_no_progress (with_reducible apply Keeps.upd) | with_reducible apply Keeps.ite

theorem State.holdBy_keeps {z : State} (s : State) (h1 : Held) (f : Nat → Nat) (h0 : Keeps z s) :
    Keeps z (State.holdBy s h1 f) := by
  unfold State.holdBy
  repeat' first
    | with_reducible assumption | extract_lets | fail_if_no_progress (with_reducible apply Keeps.upd) | split

theorem State.holdAll_keeps {z : State} (s : State) (l : List Held) (h0 : Keeps z s) :
    Keeps z (State.holdAll s l) := by
  unfold State.holdAll
  repeat' first
    | with_reducible assumption | intro _ | extract_lets | with_reducible apply State.holdBy_keeps
    | with_reducible apply Keeps.foldl

theorem State.store_keeps {z : State} (s : State) (die : Nat) (pool : Nat) (owners : List Nat) (loc : Bool) (inPort : Nat)
    (stamp : Time) (pk : Packet) (held : List Held) (copy : Bool) (credit : Bool) (h0 : Keeps z s) :
    KeepsPair z (State.store s die pool owners loc inPort stamp pk held copy credit) := by
  unfold State.store
  repeat' first
    | with_reducible assumption | extract_lets | with_reducible apply State.holdAll_keeps
    | (refine Keeps.some2_eq (by with_reducible assumption) ?_; with_reducible apply State.takeCells_keeps)
    | with_reducible apply KeepsPair.none | with_reducible apply KeepsPair.some
    | fail_if_no_progress (with_reducible apply Keeps.upd) | split

theorem State.setQueue_keeps {z : State} (s : State) (q : Nat) (v : Queue) (h0 : Keeps z s) :
    Keeps z (State.setQueue s q v) := by
  unfold State.setQueue
  repeat' first
    | with_reducible assumption | extract_lets | with_reducible apply State.raiseTo_keeps
    | with_reducible apply State.wr_keeps | fail_if_no_progress (with_reducible apply Keeps.upd)

theorem State.setCircQueue_keeps {z : State} (s : State) (c : Nat) (v : CircQueue) (h0 : Keeps z s) :
    Keeps z (State.setCircQueue s c v) := by
  unfold State.setCircQueue
  repeat' first
    | with_reducible assumption | extract_lets | with_reducible apply State.wr_keeps
    | fail_if_no_progress (with_reducible apply Keeps.upd)

theorem State.enqueue_keeps {z : State} (s : State) (p : Nat) (circ : Option Nat) (d : Desc) (pk : Packet) (h0 : Keeps z s) :
    Keeps z (State.enqueue s p circ d pk) := by
  unfold State.enqueue
  repeat' first
    | with_reducible assumption | extract_lets | with_reducible apply State.countEvent_keeps
    | with_reducible apply State.bump_keeps | with_reducible apply State.setQueue_keeps
    | with_reducible apply State.setCircQueue_keeps | with_reducible apply Keeps.ite | split

theorem State.forwardAs_keeps {z : State} (s : State) (cls : Nat) (inPort : Nat) (stamp : Time) (pk : Packet) (tg : Target)
    (hop : Nat) (hopsIn : Nat) (pool : Nat) (h0 : Keeps z s) :
    Keeps z (State.forwardAs s cls inPort stamp pk tg hop hopsIn pool) := by
  unfold State.forwardAs
  repeat' first
    | with_reducible assumption | extract_lets | with_reducible apply State.drop_keeps
    | with_reducible apply State.poolEmpty_keeps | with_reducible apply State.enqueue_keeps
    | with_reducible apply State.stitch_keeps
    | (refine Keeps.some2_eq (by with_reducible assumption) ?_; with_reducible apply State.store_keeps) | split

theorem State.originateAs_keeps {z : State} (s : State) (cls : Nat) (pool : Nat) (f : Mft) (h0 : Keeps z s) :
    Keeps z (State.originateAs s cls pool f) := by
  unfold State.originateAs
  repeat' first
    | with_reducible assumption | extract_lets | with_reducible apply State.resolveGei_keeps
    | with_reducible apply State.resolveDetour_keeps | with_reducible apply State.bump_keeps
    | with_reducible apply State.poolEmpty_keeps | with_reducible apply State.forwardAs_keeps
    | with_reducible apply State.drop_keeps | fail_if_no_progress (with_reducible apply Keeps.upd)
    | with_reducible apply Keeps.ite | refine Keeps.mid_eq (by with_reducible assumption) ?_ | split

theorem State.originateTo_keeps {z : State} (s : State) (pool : Nat) (f : Mft) (h0 : Keeps z s) :
    Keeps z (State.originateTo s pool f) := by
  unfold State.originateTo
  repeat' first
    | with_reducible assumption | with_reducible apply State.originateAs_keeps

theorem State.originate_keeps {z : State} (s : State) (f : Mft) (h0 : Keeps z s) :
    Keeps z (State.originate s f) := by
  unfold State.originate
  repeat' first
    | with_reducible assumption | with_reducible apply State.originateTo_keeps

theorem State.freeCell_keeps {z : State} (s : State) (die : Nat) (pool : Nat) (c : Nat) (h0 : Keeps z s) :
    Keeps z (State.freeCell s die pool c) := by
  unfold State.freeCell
  repeat' first
    | with_reducible assumption | extract_lets | with_reducible apply State.wr_keeps
    | with_reducible apply State.doubleFree_keeps | fail_if_no_progress (with_reducible apply Keeps.upd)
    | with_reducible apply Keeps.ite

theorem State.creditFreed_keeps {z : State} (s : State) (inPort : Nat) (cls : Nat) (n : Nat) (h0 : Keeps z s) :
    Keeps z (State.creditFreed s inPort cls n) := by
  unfold State.creditFreed
  repeat' first
    | with_reducible assumption | extract_lets | with_reducible apply State.setPort_keeps | with_reducible apply Keeps.ite

theorem State.letGo_keeps {z : State} (s : State) (l : List Held) (h0 : Keeps z s) :
    Keeps z (State.letGo s l) := by
  unfold State.letGo
  repeat' first
    | with_reducible assumption | intro _ | extract_lets | with_reducible apply State.holdBy_keeps
    | with_reducible apply Keeps.foldl

theorem State.freeFrame_keeps {z : State} (s : State) (f : Stored) (h0 : Keeps z s) :
    Keeps z (State.freeFrame s f) := by
  unfold State.freeFrame
  repeat' first
    | with_reducible assumption | intro _ | extract_lets | with_reducible apply State.freeCell_keeps
    | with_reducible apply State.creditFreed_keeps | with_reducible apply State.letGo_keeps
    | fail_if_no_progress (with_reducible apply Keeps.upd) | with_reducible apply Keeps.foldl | with_reducible apply Keeps.ite

theorem State.release_keeps {z : State} (s : State) (id1 : Nat) (owner : Nat) (h0 : Keeps z s) :
    Keeps z (State.release s id1 owner) := by
  unfold State.release
  repeat' first
    | with_reducible assumption | extract_lets | with_reducible apply State.raise_keeps
    | with_reducible apply State.bump_keeps | with_reducible apply State.freeFrame_keeps
    | fail_if_no_progress (with_reducible apply Keeps.upd) | with_reducible apply Keeps.ite | split

theorem State.pathFault_keeps {z : State} (s : State) (f : Mft) (die : Nat) (cause : Nat) (hop : Nat) (hopsLeft : Nat)
    (h0 : Keeps z s) :
    Keeps z (State.pathFault s f die cause hop hopsLeft) := by
  unfold State.pathFault
  repeat' first
    | with_reducible assumption | extract_lets | with_reducible apply State.bump_keeps
    | with_reducible apply State.raiseLim_keeps | with_reducible apply State.originateTo_keeps
    | fail_if_no_progress (with_reducible apply Keeps.upd) | with_reducible apply Keeps.ite

theorem State.dropRoute_keeps {z : State} (s : State) (f : Mft) (inPort : Nat) (cause : Nat) (hop : Nat) (hopsLeft : Nat)
    (h0 : Keeps z s) :
    Keeps z (State.dropRoute s f inPort cause hop hopsLeft) := by
  unfold State.dropRoute
  repeat' first
    | with_reducible assumption | extract_lets | with_reducible apply State.drop_keeps
    | with_reducible apply State.pathFault_keeps | with_reducible apply Keeps.ite

theorem mcastPorts_keeps {z : State} (die cls inPort : Nat) (l : List Nat) (acc : Copies) (s : State)
    (h : Keeps z s) : Keeps z (mcastPorts die cls inPort l acc s).2 := by
  induction l generalizing acc s with
  | nil => exact h
  | cons x r ih =>
    unfold mcastPorts
    have hr := State.resolveSpray_keeps s die cls (bits x 11 0) h
    split
    rename_i res t e
    have hp : Keeps z t := by
      split at e
      · exact Keeps.snd_eq e hr
      · split at e <;> (cases e; exact h)
    split
    · split <;> exact ih _ _ hp
    · exact ih _ _ hp

theorem State.waitFor_keeps {z : State} (s : State) (pk : Packet) (die : Nat) (pool : Nat) (h0 : Keeps z s) :
    Keeps z (State.waitFor s pk die pool) := by
  unfold State.waitFor
  repeat' first
    | with_reducible assumption | extract_lets | with_reducible apply State.poolEmpty_keeps
    | fail_if_no_progress (with_reducible apply Keeps.upd) | split

theorem State.mcastDie_keeps {z : State} (s : State) (d : Nat) (inPort : Nat) (pool : Nat) (stamp : Time) (pk : Packet)
    (ports : List (Nat × Via × List Held)) (held : List Held) (credit : Bool) (loc : Bool) (h0 : Keeps z s) :
    Keeps z (State.mcastDie s d inPort pool stamp pk ports held credit loc) := by
  unfold State.mcastDie
  repeat' first
    | with_reducible assumption | intro _ | extract_lets | with_reducible apply State.drop_keeps
    | with_reducible apply State.poolEmpty_keeps | with_reducible apply State.stitch_keeps
    | with_reducible apply State.countEvent_keeps | with_reducible apply State.enqueue_keeps
    | (refine Keeps.some2_eq (by with_reducible assumption) ?_; with_reducible apply State.store_keeps)
    | with_reducible apply Keeps.foldl | with_reducible apply Keeps.foldl2 | with_reducible apply Keeps.ite | split

theorem State.multicast_keeps {z : State} (s : State) (die : Nat) (inPort : Nat) (stamp : Time) (pk : Packet) (g : Nat)
    (pool : Nat) (h0 : Keeps z s) :
    Keeps z (State.multicast s die inPort stamp pk g pool) := by
  unfold State.multicast
  repeat' first
    | with_reducible assumption | intro _ | extract_lets | with_reducible apply State.drop_keeps
    | with_reducible apply mcastPorts_keeps | with_reducible apply State.waitFor_keeps
    | with_reducible apply State.mcastDie_keeps | with_reducible apply Keeps.foldl | with_reducible apply Keeps.ite | split

theorem State.originateAll_keeps {z : State} (s : State) (group : Nat) (dests : List Nat) (mk : Nat → Mft) (h0 : Keeps z s) :
    Keeps z (State.originateAll s group dests mk) := by
  unfold State.originateAll
  repeat' first
    | with_reducible assumption | intro _ | extract_lets | with_reducible apply State.multicast_keeps
    | with_reducible apply State.originate_keeps | with_reducible apply Keeps.foldl | with_reducible apply Keeps.ite

theorem State.forward_keeps {z : State} (s : State) (inPort : Nat) (stamp : Time) (pk : Packet) (tg : Target) (hop : Nat)
    (hopsIn : Nat) (pool : Nat) (h0 : Keeps z s) :
    Keeps z (State.forward s inPort stamp pk tg hop hopsIn pool) := by
  unfold State.forward
  repeat' first
    | with_reducible assumption | with_reducible apply State.forwardAs_keeps

theorem State.listUsed_keeps {z : State} (s : State) (l : List (Nat × Nat)) (h0 : Keeps z s) :
    Keeps z (State.listUsed s l) := by
  unfold State.listUsed
  repeat' first
    | with_reducible assumption | extract_lets | fail_if_no_progress (with_reducible apply Keeps.upd)
    | with_reducible apply Keeps.ite

theorem State.freeRequest_keeps {z : State} (s : State) (die : Nat) (c : Nat) (h0 : Keeps z s) :
    Keeps z (State.freeRequest s die c) := by
  unfold State.freeRequest
  repeat' first
    | with_reducible assumption | extract_lets | with_reducible apply State.freeCell_keeps

theorem State.committed_keeps {z : State} (s : State) (t1 : Time) (h0 : Keeps z s) :
    Keeps z (State.committed s t1) := by
  unfold State.committed
  repeat' first
    | with_reducible assumption | extract_lets | with_reducible apply State.wr_keeps
    | with_reducible apply State.keeperWork_keeps

theorem Verdict.record_keeps {z : State} (v : Verdict) (s : State) (h1 : Keeps z s) :
    Keeps z (Verdict.record v s) := by
  unfold Verdict.record
  repeat' first
    | with_reducible assumption | extract_lets | with_reducible apply State.wr_keeps | with_reducible apply Keeps.ite | split

theorem State.writeWith_keeps {z : State} (s : State) (a : Access) (e : Nat) (el : Nat) (len : Nat) (val : Nat) (own : Bool)
    (rule : State → Verdict) (told : State → State) (act : State → State) (h0 : Keeps z s) (h8 : ∀ y0, Keeps z y0 → Keeps z
    (told y0)) (h9 : ∀ y0, Keeps z y0 → Keeps z (act y0)) :
    Keeps z (State.writeWith s a e el len val own rule told act) := by
  unfold State.writeWith
  repeat' first
    | with_reducible assumption | with_reducible apply h9 | with_reducible apply h8 | extract_lets
    | with_reducible apply State.begin_keeps | with_reducible apply State.emit_keeps
    | with_reducible apply State.committed_keeps | with_reducible apply Verdict.record_keeps | with_reducible apply Keeps.ite
    | split

theorem State.writeOne_keeps {z : State} (s : State) (a : Access) (e : Nat) (el : Nat) (len : Nat) (val : Nat) (own : Bool)
    (rule : State → Verdict) (act : State → State) (h0 : Keeps z s) (h8 : ∀ y0, Keeps z y0 → Keeps z (act y0)) :
    Keeps z (State.writeOne s a e el len val own rule act) := by
  unfold State.writeOne
  repeat' first
    | with_reducible assumption | intro _ | extract_lets | with_reducible apply State.writeWith_keeps
    | with_reducible apply Keeps.of_id

theorem State.putValue_keeps {z : State} (s : State) (e : Nat) (el : Nat) (v : Nat) (h0 : Keeps z s) :
    Keeps z (State.putValue s e el v) := by
  unfold State.putValue
  repeat' first
    | with_reducible assumption | extract_lets | with_reducible apply State.wr_keeps | with_reducible apply Keeps.ite | split

theorem State.readOne_keeps {z : State} (s : State) (a : Access) (e : Nat) (el : Nat) (own : Bool) (value : State → Nat)
    (after : State → State) (h0 : Keeps z s) (h6 : ∀ y0, Keeps z y0 → Keeps z (after y0)) :
    Keeps z (State.readOne s a e el own value after) := by
  unfold State.readOne
  repeat' first
    | with_reducible assumption | with_reducible apply h6 | extract_lets | with_reducible apply State.begin_keeps
    | with_reducible apply State.emit_keeps | with_reducible apply Keeps.ite

theorem State.setClock_keeps {z : State} (s : State) (c : Clock) (h0 : Keeps z s) :
    Keeps z (State.setClock s c) := by
  unfold State.setClock
  repeat' first
    | with_reducible assumption | fail_if_no_progress (with_reducible apply Keeps.upd)

theorem State.setPtpPort_keeps {z : State} (s : State) (p : Nat) (x : PtpPort) (h0 : Keeps z s) :
    Keeps z (State.setPtpPort s p x) := by
  unfold State.setPtpPort
  repeat' first
    | with_reducible assumption | extract_lets | with_reducible apply State.setClock_keeps

theorem State.showRoot_keeps {z : State} (s : State) (h0 : Keeps z s) :
    Keeps z (State.showRoot s) := by
  unfold State.showRoot
  repeat' first
    | with_reducible assumption | extract_lets | with_reducible apply State.wr_keeps

theorem State.setParent_keeps {z : State} (s : State) (x : Option (Nat × Nat)) (h0 : Keeps z s) :
    Keeps z (State.setParent s x) := by
  unfold State.setParent
  repeat' first
    | with_reducible assumption | extract_lets | with_reducible apply State.setClock_keeps
    | with_reducible apply State.raise_keeps | with_reducible apply State.wr_keeps | with_reducible apply State.showRoot_keeps
    | with_reducible apply Keeps.ite | split | dsimp +zetaDelta only

theorem State.loseParent_keeps {z : State} (s : State) (h0 : Keeps z s) :
    Keeps z (State.loseParent s) := by
  unfold State.loseParent
  repeat' first
    | with_reducible assumption | extract_lets | with_reducible apply State.setParent_keeps
    | with_reducible apply State.raise_keeps

theorem State.checkParent_keeps {z : State} (s : State) (h0 : Keeps z s) :
    Keeps z (State.checkParent s) := by
  unfold State.checkParent
  repeat' first
    | with_reducible assumption | extract_lets | with_reducible apply State.loseParent_keeps
    | with_reducible apply State.showRoot_keeps | with_reducible apply Keeps.ite | split

theorem State.ptpEval_keeps {z : State} (s : State) (h0 : Keeps z s) :
    Keeps z (State.ptpEval s) := by
  unfold State.ptpEval
  repeat' first
    | with_reducible assumption | intro _ | extract_lets | with_reducible apply State.setPtpPort_keeps
    | with_reducible apply State.wr_keeps | with_reducible apply State.setClock_keeps
    | with_reducible apply State.checkParent_keeps | with_reducible apply Keeps.foldl | with_reducible apply Keeps.ite

theorem State.timePortDown_keeps {z : State} (s : State) (p : Nat) (h0 : Keeps z s) :
    Keeps z (State.timePortDown s p) := by
  unfold State.timePortDown
  repeat' first
    | with_reducible assumption | extract_lets | with_reducible apply State.setClock_keeps
    | with_reducible apply State.ptpEval_keeps | with_reducible apply State.loseParent_keeps | with_reducible apply Keeps.ite

theorem State.setLinkTime_keeps {z : State} (s : State) (p : Nat) (x : LinkTime) (h0 : Keeps z s) :
    Keeps z (State.setLinkTime s p x) := by
  unfold State.setLinkTime
  repeat' first
    | with_reducible assumption | extract_lets | with_reducible apply State.setClock_keeps

end Sys2Proof.Machine
end

