-- ==== Sys2Proof/Laws/KeepsColl.lean ====
section
/-!
SUPPORT. What each function keeps (`Keeps`): The parts of the collective engine.
-/
namespace Sys2Proof.Machine

theorem State.modCtx_keeps {z : State} (s : State) (c : Nat) (f : Ctx → Ctx) (h0 : Keeps z s) :
    Keeps z (State.modCtx s c f) := by
  unfold State.modCtx
  repeat' first
    | with_reducible assumption | extract_lets | fail_if_no_progress (with_reducible apply Keeps.upd)

theorem State.modInst_keeps {z : State} (s : State) (c : Nat) (n : Nat) (f : Inst → Inst) (h0 : Keeps z s) :
    Keeps z (State.modInst s c n f) := by
  unfold State.modInst
  repeat' first
    | with_reducible assumption | with_reducible apply State.modCtx_keeps

theorem State.freeTold_keeps {z : State} (s : State) (h0 : Keeps z s) :
    Keeps z (State.freeTold s) := by
  unfold State.freeTold
  repeat' first
    | with_reducible assumption | extract_lets | with_reducible apply State.free_keeps | with_reducible apply Keeps.ite

theorem State.useSpill_keeps {z : State} (s : State) (who : Nat × Nat) (h2 : Nat) (n : Nat) (h0 : Keeps z s) :
    Keeps z (State.useSpill s who h2 n) := by
  unfold State.useSpill
  repeat' first
    | with_reducible assumption | extract_lets | with_reducible apply State.raiseLim_keeps
    | with_reducible apply State.freeTold_keeps | fail_if_no_progress (with_reducible apply Keeps.upd)
    | with_reducible apply Keeps.ite

theorem State.freeSlot_keeps {z : State} (s : State) (q : Nat) (k : Nat) (h0 : Keeps z s) :
    Keeps z (State.freeSlot s q k) := by
  unfold State.freeSlot
  repeat' first
    | with_reducible assumption | extract_lets | fail_if_no_progress (with_reducible apply Keeps.upd)

theorem State.returnSpill_keeps {z : State} (s : State) (h1 : Nat) (n : Nat) (h0 : Keeps z s) :
    Keeps z (State.returnSpill s h1 n) := by
  unfold State.returnSpill
  repeat' first
    | with_reducible assumption | extract_lets | fail_if_no_progress (with_reducible apply Keeps.upd)

theorem State.setChunk_keeps {z : State} (s : State) (c : Nat) (n : Nat) (k : Chunk) (h0 : Keeps z s) :
    Keeps z (State.setChunk s c n k) := by
  unfold State.setChunk
  repeat' first
    | with_reducible assumption | with_reducible apply State.modInst_keeps

theorem State.setPoison_keeps {z : State} (s : State) (h1 : Nat) (l : List Nat) (h0 : Keeps z s) :
    Keeps z (State.setPoison s h1 l) := by
  unfold State.setPoison
  repeat' first
    | with_reducible assumption | extract_lets | with_reducible apply State.wr_keeps
    | fail_if_no_progress (with_reducible apply Keeps.upd)

theorem State.setUpsets_keeps {z : State} (s : State) (h1 : Nat) (l : Tab (BitVec 544)) (h0 : Keeps z s) :
    Keeps z (State.setUpsets s h1 l) := by
  unfold State.setUpsets
  repeat' first
    | with_reducible assumption | extract_lets | fail_if_no_progress (with_reducible apply Keeps.upd)

theorem State.setCells_keeps {z : State} (s : State) (h1 : Nat) (l : Tab (BitVec 512)) (h0 : Keeps z s) :
    Keeps z (State.setCells s h1 l) := by
  unfold State.setCells
  repeat' first
    | with_reducible assumption | extract_lets | fail_if_no_progress (with_reducible apply Keeps.upd)

theorem State.freshBlocks_keeps {z : State} (s : State) (h1 : Nat) (b : Nat) (n : Nat) (h0 : Keeps z s) :
    Keeps z (State.freshBlocks s h1 b n) := by
  unfold State.freshBlocks
  repeat' first
    | with_reducible assumption | extract_lets | with_reducible apply State.setPoison_keeps
    | with_reducible apply State.setUpsets_keeps | with_reducible apply State.setCells_keeps

theorem State.takeStack_keeps {z : State} (s : State) (who : Nat × Nat) (h2 : Nat) (n : Nat) (h0 : Keeps z s) :
    Keeps z (State.takeStack s who h2 n).2 := by
  unfold State.takeStack
  repeat' first
    | with_reducible assumption | intro _ | extract_lets | with_reducible apply State.freshBlocks_keeps
    | with_reducible apply State.useSpill_keeps | with_reducible apply Keeps.foldl

theorem State.takeSlot_keeps {z : State} (s : State) (q : Nat) (k : Nat) (h0 : Keeps z s) :
    Keeps z (State.takeSlot s q k) := by
  unfold State.takeSlot
  repeat' first
    | with_reducible assumption | extract_lets | with_reducible apply State.raiseLim_keeps
    | with_reducible apply State.freeTold_keeps | fail_if_no_progress (with_reducible apply Keeps.upd)
    | with_reducible apply Keeps.ite

theorem State.setInst_keeps {z : State} (s : State) (c : Nat) (i : Inst) (h0 : Keeps z s) :
    Keeps z (State.setInst s c i) := by
  unfold State.setInst
  repeat' first
    | with_reducible assumption | with_reducible apply State.modCtx_keeps

theorem State.setCtx_keeps {z : State} (s : State) (c : Nat) (v : Ctx) (h0 : Keeps z s) :
    Keeps z (State.setCtx s c v) := by
  unfold State.setCtx
  repeat' first
    | with_reducible assumption | extract_lets | fail_if_no_progress (with_reducible apply Keeps.upd)

theorem State.collFrameLeft_keeps {z : State} (s : State) (body : List Byte) (h0 : Keeps z s) :
    Keeps z (State.collFrameLeft s body) := by
  unfold State.collFrameLeft
  repeat' first
    | with_reducible assumption | extract_lets | with_reducible apply State.setInst_keeps
    | with_reducible apply State.wr_keeps | with_reducible apply State.raiseTo_keeps | with_reducible apply Keeps.ite | split

theorem State.sendColl_keeps {z : State} (s : State) (job : Nat) (gen : Nat) (kind : Nat) (dest : Nat) (body : List Byte)
    (h0 : Keeps z s) :
    Keeps z (State.sendColl s job gen kind dest body) := by
  unfold State.sendColl
  repeat' first
    | with_reducible assumption | extract_lets | with_reducible apply State.originate_keeps | with_reducible apply Keeps.ite

theorem State.sendTo_keeps {z : State} (s : State) (c : Ctx) (kind : Nat) (dest : Nat) (body : List Byte) (h0 : Keeps z s) :
    Keeps z (State.sendTo s c kind dest body) := by
  unfold State.sendTo
  repeat' first
    | with_reducible assumption | with_reducible apply State.sendColl_keeps

theorem State.sendPeer_keeps {z : State} (s : State) (dest : Nat) (sub : Nat) (body : List Byte) (h0 : Keeps z s) :
    Keeps z (State.sendPeer s dest sub body) := by
  unfold State.sendPeer
  repeat' first
    | with_reducible assumption | extract_lets | with_reducible apply State.originateAs_keeps
    | with_reducible apply State.originate_keeps | with_reducible apply Keeps.ite

theorem State.sendMembers_keeps {z : State} (s : State) (group : Nat) (c : Ctx) (kind : Nat) (body : List Byte)
    (h0 : Keeps z s) :
    Keeps z (State.sendMembers s group c kind body) := by
  unfold State.sendMembers
  repeat' first
    | with_reducible assumption | extract_lets | with_reducible apply State.originateAll_keeps
    | with_reducible apply Keeps.ite

theorem State.endLed_keeps {z : State} (s : State) (l : Led) (ph : Phase) (h0 : Keeps z s) (h2 : KeepsPhase ph) :
    Keeps z (State.endLed s l ph) := by
  unfold State.endLed
  repeat' first
    | with_reducible assumption | with_reducible apply h2.commit | with_reducible apply h2.release
    | with_reducible apply h2.outcome | intro _ | extract_lets | with_reducible apply State.sendPeer_keeps
    | fail_if_no_progress (with_reducible apply Keeps.upd) | with_reducible apply Keeps.foldl | with_reducible apply Keeps.ite

theorem Phase.answer_keeps {z : State} (ph : Phase) (s : State) (h0 : KeepsPhase ph) (h1 : Keeps z s) :
    Keeps z (Phase.answer ph s).2 := by
  unfold Phase.answer
  repeat' first
    | with_reducible assumption | with_reducible apply h0.hold | with_reducible apply Keeps.ite2

theorem State.startLed_keeps {z : State} (s : State) (kind : Nat) (subject : Nat) (record : List Byte) (devices : List Nat)
    (reply : Nat) (ph : Phase) (h0 : Keeps z s) (h6 : KeepsPhase ph) :
    Keeps z (State.startLed s kind subject record devices reply ph) := by
  unfold State.startLed
  repeat' first
    | with_reducible assumption | intro _ | extract_lets | with_reducible apply Phase.answer_keeps
    | with_reducible apply State.sendPeer_keeps | with_reducible apply State.endLed_keeps
    | fail_if_no_progress (with_reducible apply Keeps.upd) | with_reducible apply Keeps.foldl | with_reducible apply Keeps.ite
    | with_reducible apply Keeps.ite2

theorem State.peerAccept_keeps {z : State} (s : State) (p : Peer) (sub : Nat) (body : List Byte) (lenOk : Bool)
    (h0 : Keeps z s) :
    Keeps z (State.peerAccept s p sub body lenOk).2 := by
  unfold State.peerAccept
  repeat' first
    | with_reducible assumption | extract_lets | with_reducible apply State.raiseLim_keeps
    | with_reducible apply State.bump_keeps | with_reducible apply Keeps.ite2

theorem State.onPrepare_keeps {z : State} (s : State) (orig : Nat) (xid : Nat) (kind : Nat) (subject : Nat)
    (record : List Byte) (ph : Phase) (h0 : Keeps z s) (h6 : KeepsPhase ph) :
    Keeps z (State.onPrepare s orig xid kind subject record ph) := by
  unfold State.onPrepare
  repeat' first
    | with_reducible assumption | extract_lets | with_reducible apply State.sendPeer_keeps
    | with_reducible apply Phase.answer_keeps | fail_if_no_progress (with_reducible apply Keeps.upd) | split

theorem State.endHeld_keeps {z : State} (s : State) (h1 : HeldX) (commit : Bool) (ph : Phase) (h0 : Keeps z s)
    (h3 : KeepsPhase ph) :
    Keeps z (State.endHeld s h1 commit ph) := by
  unfold State.endHeld
  repeat' first
    | with_reducible assumption | with_reducible apply h3.commit | with_reducible apply h3.release | extract_lets
    | fail_if_no_progress (with_reducible apply Keeps.upd) | with_reducible apply Keeps.ite

theorem State.setGraph_keeps {z : State} (s : State) (n : Nat) (g : Graph) (h0 : Keeps z s) :
    Keeps z (State.setGraph s n g) := by
  unfold State.setGraph
  repeat' first
    | with_reducible assumption | extract_lets | with_reducible apply State.wr_keeps
    | fail_if_no_progress (with_reducible apply Keeps.upd)

theorem State.modGraph_keeps {z : State} (s : State) (n : Nat) (f : Graph → Graph) (h0 : Keeps z s) :
    Keeps z (State.modGraph s n f) := by
  unfold State.modGraph
  repeat' first
    | with_reducible assumption | with_reducible apply State.setGraph_keeps | split

theorem State.dropGraph_keeps {z : State} (s : State) (n : Nat) (h0 : Keeps z s) :
    Keeps z (State.dropGraph s n) := by
  unfold State.dropGraph
  repeat' first
    | with_reducible assumption | extract_lets | with_reducible apply State.wr_keeps
    | fail_if_no_progress (with_reducible apply Keeps.upd)

theorem State.setTensor_keeps {z : State} (s : State) (t1 : Tensor) (h0 : Keeps z s) :
    Keeps z (State.setTensor s t1) := by
  unfold State.setTensor
  repeat' first
    | with_reducible assumption | extract_lets | fail_if_no_progress (with_reducible apply Keeps.upd)

theorem State.modRun_keeps {z : State} (s : State) (n : Nat) (f : Run → Run) (h0 : Keeps z s) :
    Keeps z (State.modRun s n f) := by
  unfold State.modRun
  repeat' first
    | with_reducible assumption | with_reducible apply State.modGraph_keeps

theorem State.gainLost_keeps {z : State} (s : State) (before : State) (op : Nat) (h0 : Keeps z s) (h1 : Keeps z before) :
    Keeps z (State.gainLost s before op) := by
  unfold State.gainLost
  repeat' first
    | with_reducible assumption | intro _ | extract_lets | with_reducible apply State.setTensor_keeps
    | with_reducible apply Keeps.foldl | with_reducible apply Keeps.ite

theorem State.sendUpdate_keeps {z : State} (s : State) (dest : Nat) (kind : Nat) (fmt : Nat) (key : Nat) (num : Nat)
    (idx : Nat) (vals : List Nat) (h0 : Keeps z s) :
    Keeps z (State.sendUpdate s dest kind fmt key num idx vals) := by
  unfold State.sendUpdate
  repeat' first
    | with_reducible assumption | with_reducible apply State.sendPeer_keeps

theorem State.passResult_keeps {z : State} (s : State) (op : Nat) (inst : Nat) (chunk : Nat) (fmt : Nat) (vals : List Nat)
    (h0 : Keeps z s) :
    Keeps z (State.passResult s op inst chunk fmt vals) := by
  unfold State.passResult
  repeat' first
    | with_reducible assumption | intro _ | extract_lets | with_reducible apply State.sendUpdate_keeps
    | with_reducible apply Keeps.foldl | split

theorem State.resultHeld_keeps {z : State} (s : State) (op : Nat) (inst : Nat) (chunk : Nat) (h14 : Nat) (bypassIn : Bool)
    (fmt : Nat) (vals : List Nat) (h0 : Keeps z s) :
    Keeps z (State.resultHeld s op inst chunk h14 bypassIn fmt vals) := by
  unfold State.resultHeld
  repeat' first
    | with_reducible assumption | extract_lets | with_reducible apply State.sendUpdate_keeps
    | with_reducible apply State.passResult_keeps | with_reducible apply Keeps.ite

theorem State.keepGrad_keeps {z : State} (s : State) (op : Nat) (inst : Nat) (chunk : Nat) (lanes : List Nat)
    (h0 : Keeps z s) :
    Keeps z (State.keepGrad s op inst chunk lanes) := by
  unfold State.keepGrad
  repeat' first
    | with_reducible assumption | with_reducible apply State.modGraph_keeps | split

theorem State.sendSpawn_keeps {z : State} (s : State) (job : Nat) (dest : Nat) (body : Nat) (payload : List Byte)
    (h0 : Keeps z s) :
    Keeps z (State.sendSpawn s job dest body payload) := by
  unfold State.sendSpawn
  repeat' first
    | with_reducible assumption | extract_lets | with_reducible apply State.originate_keeps | with_reducible apply Keeps.ite
    | split

theorem State.setSession_keeps {z : State} (s : State) (x : Session) (h0 : Keeps z s) :
    Keeps z (State.setSession s x) := by
  unfold State.setSession
  repeat' first
    | with_reducible assumption | with_reducible apply Keeps.session

theorem State.ackSession_keeps {z : State} (s : State) (key : Nat) (h0 : Keeps z s) :
    Keeps z (State.ackSession s key) := by
  unfold State.ackSession
  repeat' first
    | with_reducible assumption | intro _ | extract_lets | with_reducible apply State.sendSpawn_keeps
    | with_reducible apply State.raise_keeps | with_reducible apply State.setSession_keeps | with_reducible apply Keeps.foldl
    | with_reducible apply Keeps.ite | split

theorem State.writeStripe_keeps {z : State} (s : State) (t1 : Tensor) (k : Nat) (vals : List Nat) (h0 : Keeps z s) :
    Keeps z (State.writeStripe s t1 k vals) := by
  unfold State.writeStripe
  repeat' first
    | with_reducible assumption | extract_lets | with_reducible apply State.bump_keeps
    | with_reducible apply State.setTensor_keeps

theorem State.markInexact_keeps {z : State} (s : State) (h1 : Nat) (h0 : Keeps z s) :
    Keeps z (State.markInexact s h1) := by
  unfold State.markInexact
  repeat' first
    | with_reducible assumption | extract_lets | with_reducible apply State.raise_keeps | with_reducible apply State.wr_keeps
    | with_reducible apply Keeps.ite | split

theorem State.fillBlock_keeps {z : State} (s : State) (x : Session) (b : Nat) (h0 : Keeps z s) :
    Keeps z (State.fillBlock s x b) := by
  unfold State.fillBlock
  repeat' first
    | with_reducible assumption | extract_lets | with_reducible apply State.writeStripe_keeps
    | with_reducible apply State.markInexact_keeps | with_reducible apply State.setSession_keeps
    | with_reducible apply Keeps.ite | split

theorem State.fillSession_keeps {z : State} (s : State) (key : Nat) (h0 : Keeps z s) :
    Keeps z (State.fillSession s key) := by
  unfold State.fillSession
  repeat' first
    | with_reducible assumption | intro _ | extract_lets | with_reducible apply State.fillBlock_keeps
    | with_reducible apply Keeps.foldl | with_reducible apply Keeps.ite | split

theorem State.refill_keeps {z : State} (s : State) (h0 : Keeps z s) :
    Keeps z (State.refill s) := by
  unfold State.refill
  repeat' first
    | with_reducible assumption | intro _ | extract_lets | with_reducible apply State.ackSession_keeps
    | with_reducible apply State.fillSession_keeps | with_reducible apply Keeps.foldl | with_reducible apply Keeps.ite

theorem State.loseBlocks_keeps {z : State} (s : State) (gone : Nat → Nat → Nat → Bool) (h0 : Keeps z s) :
    Keeps z (State.loseBlocks s gone) := by
  unfold State.loseBlocks
  repeat' first
    | with_reducible assumption | extract_lets | with_reducible apply State.bump_keeps | with_reducible apply Keeps.sessionMap
    | with_reducible apply Keeps.ite

theorem State.serveBlock_keeps {z : State} (s : State) (x : Session) (b : Nat) (dest : Nat) (h0 : Keeps z s) :
    Keeps z (State.serveBlock s x b dest) := by
  unfold State.serveBlock
  repeat' first
    | with_reducible assumption | extract_lets | with_reducible apply State.bump_keeps
    | with_reducible apply State.sendSpawn_keeps | split

theorem State.dropTiles_keeps {z : State} (s : State) (slot : Nat) (h0 : Keeps z s) :
    Keeps z (State.dropTiles s slot) := by
  unfold State.dropTiles
  repeat' first
    | with_reducible assumption | intro _ | extract_lets | with_reducible apply State.wr_keeps
    | fail_if_no_progress (with_reducible apply Keeps.upd) | with_reducible apply Keeps.foldl | with_reducible apply Keeps.ite

theorem State.stripesReleased_keeps {z : State} (s : State) (op : Nat) (h0 : Keeps z s) :
    Keeps z (State.stripesReleased s op) := by
  unfold State.stripesReleased
  repeat' first
    | with_reducible assumption | extract_lets | with_reducible apply State.dropGraph_keeps
    | with_reducible apply State.dropTiles_keeps | fail_if_no_progress (with_reducible apply Keeps.upd) | split

theorem State.sendFence_keeps {z : State} (s : State) (g : Graph) (ok : Bool) (h0 : Keeps z s) :
    Keeps z (State.sendFence s g ok) := by
  unfold State.sendFence
  repeat' first
    | with_reducible assumption | intro _ | extract_lets | with_reducible apply State.sendPeer_keeps
    | with_reducible apply Keeps.foldl

theorem State.tellParity_keeps {z : State} (s : State) (g : Graph) (kind : Nat) (h0 : Keeps z s) :
    Keeps z (State.tellParity s g kind) := by
  unfold State.tellParity
  repeat' first
    | with_reducible assumption | intro _ | extract_lets | with_reducible apply State.sendPeer_keeps
    | fail_if_no_progress (with_reducible apply Keeps.upd) | with_reducible apply Keeps.foldl | with_reducible apply Keeps.ite

theorem State.voidCopies_keeps {z : State} (s : State) (g : Graph) (h0 : Keeps z s) :
    Keeps z (State.voidCopies s g) := by
  unfold State.voidCopies
  repeat' first
    | with_reducible assumption | intro _ | extract_lets | with_reducible apply State.setTensor_keeps
    | with_reducible apply Keeps.foldl | split

theorem State.stopRun_keeps {z : State} (s : State) (n : Nat) (cause : Nat) (node : Nat) (byInst : Bool) (h0 : Keeps z s) :
    Keeps z (State.stopRun s n cause node byInst) := by
  unfold State.stopRun
  repeat' first
    | with_reducible assumption | extract_lets | with_reducible apply State.sendFence_keeps
    | with_reducible apply State.tellParity_keeps | with_reducible apply State.voidCopies_keeps
    | with_reducible apply State.dropTiles_keeps | with_reducible apply State.raise_keeps
    | with_reducible apply State.bump_keeps | with_reducible apply State.setGraph_keeps
    | with_reducible apply State.refill_keeps | with_reducible apply Keeps.ite | split

theorem State.passSkipped_keeps {z : State} (f : Nat) (s : State) (n : Nat) (h : Keeps z s) :
    Keeps z (State.passSkipped f s n) := by
  induction f generalizing s with
  | zero => exact h
  | succ f ih =>
    unfold State.passSkipped
    repeat' first
      | with_reducible assumption
      | with_reducible apply ih
      | with_reducible apply State.stopRun_keeps
      | with_reducible apply State.wr_keeps
      | with_reducible apply State.modGraph_keeps
      | extract_lets
      | with_reducible apply Keeps.ite
      | split
      | dsimp +zetaDelta only

theorem State.instanceAborted_keeps {z : State} (s : State) (op : Nat) (inst : Nat) (reason : Nat) (h0 : Keeps z s) :
    Keeps z (State.instanceAborted s op inst reason) := by
  unfold State.instanceAborted
  repeat' first
    | with_reducible assumption | extract_lets | with_reducible apply State.stopRun_keeps
    | with_reducible apply State.modGraph_keeps | with_reducible apply State.passSkipped_keeps
    | with_reducible apply Keeps.ite | split

theorem State.freeChunk_keeps {z : State} (s : State) (k : Chunk) (h0 : Keeps z s) :
    Keeps z (State.freeChunk s k) := by
  unfold State.freeChunk
  repeat' first
    | with_reducible assumption | intro _ | extract_lets | with_reducible apply State.freeSlot_keeps
    | with_reducible apply State.returnSpill_keeps | with_reducible apply Keeps.foldl

theorem State.endChunk_keeps {z : State} (s : State) (c : Nat) (n : Nat) (k : Chunk) (h0 : Keeps z s) :
    Keeps z (State.endChunk s c n k) := by
  unfold State.endChunk
  repeat' first
    | with_reducible assumption | extract_lets | with_reducible apply State.modInst_keeps
    | with_reducible apply State.freeChunk_keeps

theorem State.freeInst_keeps {z : State} (s : State) (i : Inst) (h0 : Keeps z s) :
    Keeps z (State.freeInst s i) := by
  unfold State.freeInst
  repeat' first
    | with_reducible assumption | intro _ | extract_lets | with_reducible apply State.freeChunk_keeps
    | with_reducible apply State.returnSpill_keeps | with_reducible apply Keeps.foldl

theorem State.dropRecords_keeps {z : State} (s : State) (c : Nat) (n : Nat) (h0 : Keeps z s) :
    Keeps z (State.dropRecords s c n) := by
  unfold State.dropRecords
  repeat' first
    | with_reducible assumption | extract_lets | fail_if_no_progress (with_reducible apply Keeps.upd)

theorem State.freeCtx_keeps {z : State} (s : State) (c : Nat) (h0 : Keeps z s) :
    Keeps z (State.freeCtx s c) := by
  unfold State.freeCtx
  repeat' first
    | with_reducible assumption | intro _ | extract_lets | with_reducible apply State.dropRecords_keeps
    | with_reducible apply State.freeInst_keeps | with_reducible apply State.wr_keeps
    | with_reducible apply State.returnSpill_keeps | fail_if_no_progress (with_reducible apply Keeps.upd)
    | with_reducible apply Keeps.foldl | split

theorem State.settle_keeps {z : State} (s : State) (c : Nat) (h0 : Keeps z s) :
    Keeps z (State.settle s c) := by
  unfold State.settle
  repeat' first
    | with_reducible assumption | intro _ | extract_lets | with_reducible apply State.modCtx_keeps
    | with_reducible apply State.freeInst_keeps | with_reducible apply State.raise_keeps
    | with_reducible apply State.stripesReleased_keeps | with_reducible apply State.freeCtx_keeps
    | with_reducible apply Keeps.foldl | with_reducible apply Keeps.ite | split | dsimp +zetaDelta only

theorem State.sendTally_keeps {z : State} (s : State) (c : Ctx) (i : Inst) (code : Nat) (t4 : Time) (h0 : Keeps z s) :
    Keeps z (State.sendTally s c i code t4) := by
  unfold State.sendTally
  repeat' first
    | with_reducible assumption | extract_lets | with_reducible apply State.sendTo_keeps

theorem State.dropWaiting_keeps {z : State} (s : State) (op : Nat) (n : Nat) (h0 : Keeps z s) :
    Keeps z (State.dropWaiting s op n) := by
  unfold State.dropWaiting
  repeat' first
    | with_reducible assumption | extract_lets | fail_if_no_progress (with_reducible apply Keeps.upd)

theorem State.abortActs_keeps {z : State} (s : State) (c : Nat) (x : Ctx) (i : Inst) (reason : Nat) (chunk : Nat)
    (origin : Nat) (fault : Time) (relayed : Bool) (h0 : Keeps z s) :
    Keeps z (State.abortActs s c x i reason chunk origin fault relayed) := by
  unfold State.abortActs
  repeat' first
    | with_reducible assumption | intro _ | extract_lets | with_reducible apply State.dropRecords_keeps
    | with_reducible apply State.wr_keeps | with_reducible apply State.sendMembers_keeps
    | with_reducible apply State.bump_keeps | with_reducible apply State.sendPeer_keeps
    | with_reducible apply State.sendTally_keeps | with_reducible apply State.instanceAborted_keeps
    | with_reducible apply State.raise_keeps | with_reducible apply State.dropWaiting_keeps
    | with_reducible apply State.freeInst_keeps | with_reducible apply State.setInst_keeps
    | fail_if_no_progress (with_reducible apply Keeps.upd) | with_reducible apply Keeps.foldl | with_reducible apply Keeps.ite

theorem State.abortInst_keeps {z : State} (s : State) (c : Nat) (n : Nat) (reason : Nat) (chunk : Nat) (origin : Nat)
    (fault : Time) (relayed : Bool) (h0 : Keeps z s) :
    Keeps z (State.abortInst s c n reason chunk origin fault relayed) := by
  unfold State.abortInst
  repeat' first
    | with_reducible assumption | extract_lets | with_reducible apply State.settle_keeps
    | with_reducible apply State.abortActs_keeps | with_reducible apply State.modCtx_keeps | with_reducible apply Keeps.ite
    | split

theorem State.abortHere_keeps {z : State} (s : State) (c : Nat) (n : Nat) (reason : Nat) (chunk : Nat) (h0 : Keeps z s) :
    Keeps z (State.abortHere s c n reason chunk) := by
  unfold State.abortHere
  repeat' first
    | with_reducible assumption | with_reducible apply State.abortInst_keeps

theorem State.sendCompletion_keeps {z : State} (s : State) (c : Nat) (n : Nat) (h0 : Keeps z s) :
    Keeps z (State.sendCompletion s c n) := by
  unfold State.sendCompletion
  repeat' first
    | with_reducible assumption | intro _ | extract_lets | with_reducible apply State.setInst_keeps
    | with_reducible apply State.sendPeer_keeps | with_reducible apply Keeps.foldl | with_reducible apply Keeps.ite | split

theorem State.openInst_keeps {z : State} (s : State) (c : Nat) (n : Nat) (stamp : Time) (h0 : Keeps z s) :
    Keeps z (State.openInst s c n stamp) := by
  unfold State.openInst
  repeat' first
    | with_reducible assumption | extract_lets | with_reducible apply State.setInst_keeps
    | with_reducible apply State.abortHere_keeps | with_reducible apply Keeps.ite | split

theorem State.tryComplete_keeps {z : State} (s : State) (c : Nat) (n : Nat) (h0 : Keeps z s) :
    Keeps z (State.tryComplete s c n) := by
  unfold State.tryComplete
  repeat' first
    | with_reducible assumption | extract_lets | with_reducible apply State.sendCompletion_keeps
    | with_reducible apply State.setInst_keeps | with_reducible apply State.modCtx_keeps
    | with_reducible apply State.raise_keeps | with_reducible apply State.settle_keeps | with_reducible apply Keeps.ite
    | split

theorem State.chunkDone_keeps {z : State} (s : State) (c : Nat) (n : Nat) (key : Nat) (h0 : Keeps z s) :
    Keeps z (State.chunkDone s c n key) := by
  unfold State.chunkDone
  repeat' first
    | with_reducible assumption | extract_lets | with_reducible apply State.tryComplete_keeps
    | with_reducible apply State.modInst_keeps

theorem State.seeFlags_keeps {z : State} (s : State) (c : Nat) (n : Nat) (fl : Nat) (h0 : Keeps z s) :
    Keeps z (State.seeFlags s c n fl) := by
  unfold State.seeFlags
  repeat' first
    | with_reducible assumption | extract_lets | with_reducible apply State.modInst_keeps
    | with_reducible apply State.wr_keeps

theorem State.rearm_keeps {z : State} (s : State) (c : Nat) (n : Nat) (e : Nat × Nat) (t4 : Time) (h0 : Keeps z s) :
    Keeps z (State.rearm s c n e t4) := by
  unfold State.rearm
  repeat' first
    | with_reducible assumption | with_reducible apply State.modInst_keeps | split

theorem State.progress_keeps {z : State} (s : State) (c : Nat) (n : Nat) (k : Nat) (p : Progress) (stamp : Time)
    (h0 : Keeps z s) :
    Keeps z (State.progress s c n k p stamp) := by
  unfold State.progress
  repeat' first
    | with_reducible assumption | extract_lets | with_reducible apply State.setInst_keeps
    | with_reducible apply State.bump_keeps | with_reducible apply State.raise_keeps | with_reducible apply Keeps.ite | split
    | dsimp +zetaDelta only

theorem State.noteBypass_keeps {z : State} (s : State) (c : Nat) (n : Nat) (x : Ctx) (i : Inst) (k : Chunk) (h0 : Keeps z s) :
    Keeps z (State.noteBypass s c n x i k) := by
  unfold State.noteBypass
  repeat' first
    | with_reducible assumption | extract_lets | with_reducible apply State.countEvent_keeps
    | with_reducible apply State.bump_keeps | with_reducible apply State.raise_keeps
    | with_reducible apply State.modInst_keeps | with_reducible apply Keeps.ite

theorem State.deferChunk_keeps {z : State} (s : State) (c : Nat) (n : Nat) (x : Ctx) (i : Inst) (phase : Nat) (chunk : Nat)
    (h0 : Keeps z s) :
    Keeps z (State.deferChunk s c n x i phase chunk) := by
  unfold State.deferChunk
  repeat' first
    | with_reducible assumption | extract_lets | with_reducible apply State.modInst_keeps
    | with_reducible apply State.countEvent_keeps | with_reducible apply State.raise_keeps | with_reducible apply Keeps.ite

theorem State.stackFor_keeps {z : State} (s : State) (c : Nat) (who : Nat × Nat) (k : Chunk) (n : Nat) (h0 : Keeps z s) :
    KeepsPair z (State.stackFor s c who k n) := by
  unfold State.stackFor
  repeat' first
    | with_reducible assumption | intro _ | extract_lets | with_reducible apply State.takeStack_keeps
    | with_reducible apply KeepsPair.none | with_reducible apply KeepsPair.ite | with_reducible apply KeepsPair.of_map

theorem State.spill_keeps {z : State} (s : State) (v : Placed) (give : Bool) (h0 : Keeps z s) :
    Keeps z (State.spill s v give) := by
  unfold State.spill
  repeat' first
    | with_reducible assumption | intro _ | extract_lets | with_reducible apply State.takeStack_keeps
    | with_reducible apply State.freeSlot_keeps | with_reducible apply State.countEvent_keeps
    | with_reducible apply State.bump_keeps | with_reducible apply State.setChunk_keeps | with_reducible apply Keeps.foldl
    | with_reducible apply Keeps.ite

theorem State.sramFor_keeps {z : State} (q : Nat) (skip : Placed → Bool) (n : Nat) (s : State) (group : Nat) (h : Keeps z s) :
    KeepsPair z (State.sramFor q skip n s group) := by
  induction n generalizing s group with
  | zero => exact .some h
  | succ n ih =>
    unfold State.sramFor
    dsimp only
    refine KeepsPair.bind ?_ (fun y hy => KeepsPair.map (ih _ _ hy) (fun _ hz => hz))
    split
    · exact .some (State.takeSlot_keeps _ _ _ h)
    · exact KeepsPair.of_bind (fun x => KeepsPair.of_map (fun j => State.takeSlot_keeps _ _ _ (State.spill_keeps _ _ _ h)))

theorem State.moveSlots_keeps {z : State} (s : State) (c : Nat) (who : Nat × Nat) (k : Chunk) (n : Nat) (h0 : Keeps z s) :
    KeepsPair z (State.moveSlots s c who k n) := by
  unfold State.moveSlots
  repeat' first
    | with_reducible assumption | intro _ | extract_lets | with_reducible apply State.setChunk_keeps
    | with_reducible apply State.returnSpill_keeps | with_reducible apply State.sramFor_keeps
    | (refine Keeps.some2_eq (by with_reducible assumption) ?_; with_reducible apply State.stackFor_keeps)
    | with_reducible apply KeepsPair.some | with_reducible apply KeepsPair.map | with_reducible apply Keeps.foldl | split

theorem State.takeBook_keeps {z : State} (s : State) (who : Nat × Nat) (q : Nat) (chunk : Nat) (n : Nat) (h0 : Keeps z s) :
    KeepsPair z (State.takeBook s who q chunk n) := by
  unfold State.takeBook
  repeat' first
    | with_reducible assumption | intro _ | extract_lets | with_reducible apply State.useSpill_keeps
    | with_reducible apply KeepsPair.of_map

theorem State.request_keeps {z : State} (s : State) (c : Nat) (n : Nat) (k : Chunk) (code : Nat) (h0 : Keeps z s) :
    Keeps z (State.request s c n k code) := by
  unfold State.request
  repeat' first
    | with_reducible assumption | intro _ | extract_lets | with_reducible apply State.sendTo_keeps
    | with_reducible apply State.rearm_keeps | with_reducible apply Keeps.foldl | split

theorem State.sendBypass_keeps {z : State} (s : State) (dest : Nat) (kind : Nat) (op : Nat) (n : Nat) (chunk : Nat)
    (h0 : Keeps z s) :
    Keeps z (State.sendBypass s dest kind op n chunk) := by
  unfold State.sendBypass
  repeat' first
    | with_reducible assumption | with_reducible apply State.sendPeer_keeps

theorem State.stopCopy_keeps {z : State} (s : State) (k : Chunk) (h0 : Keeps z s) :
    Keeps z (State.stopCopy s k).2 := by
  unfold State.stopCopy
  repeat' first
    | with_reducible assumption | intro _ | extract_lets | with_reducible apply State.returnSpill_keeps
    | with_reducible apply Keeps.foldl | with_reducible apply Keeps.ite2

theorem State.fillSlots_keeps {z : State} (s : State) (k : Chunk) (h0 : Keeps z s) :
    Keeps z (State.fillSlots s k) := by
  unfold State.fillSlots
  repeat' first
    | with_reducible assumption | intro _ | extract_lets | with_reducible apply State.freshBlocks_keeps
    | with_reducible apply Keeps.foldl

theorem State.askAgain_keeps {z : State} (s : State) (c : Nat) (n : Nat) (k : Chunk) (code : Nat) (h0 : Keeps z s) :
    Keeps z (State.askAgain s c n k code) := by
  unfold State.askAgain
  repeat' first
    | with_reducible assumption | extract_lets | with_reducible apply State.setChunk_keeps
    | with_reducible apply State.fillSlots_keeps | with_reducible apply State.sendBypass_keeps
    | with_reducible apply State.request_keeps | with_reducible apply Keeps.ite

theorem State.recompute_keeps {z : State} (s : State) (c : Nat) (n : Nat) (k : Chunk) (counts : Bool) (h0 : Keeps z s) :
    Keeps z (State.recompute s c n k counts) := by
  unfold State.recompute
  repeat' first
    | with_reducible assumption | extract_lets | with_reducible apply State.stopCopy_keeps
    | with_reducible apply State.askAgain_keeps | with_reducible apply State.bump_keeps

theorem State.refuse_keeps {z : State} (s : State) (f : Cf) (h2 : Ch) (code : Nat) (a : Int) (b : Nat) (h0 : Keeps z s) :
    Keeps z (State.refuse s f h2 code a b) := by
  unfold State.refuse
  repeat' first
    | with_reducible assumption | extract_lets | with_reducible apply State.bump_keeps
    | with_reducible apply State.sendColl_keeps

theorem State.dup_keeps {z : State} (s : State) (q : Nat) (job : Nat) (h0 : Keeps z s) :
    Keeps z (State.dup s q job) := by
  unfold State.dup
  repeat' first
    | with_reducible assumption | extract_lets | with_reducible apply State.countEvent_keeps
    | with_reducible apply State.bump_keeps

theorem State.restart_keeps {z : State} (s : State) (c : Nat) (n : Nat) (k : Chunk) (h0 : Keeps z s) :
    Keeps z (State.restart s c n k) := by
  unfold State.restart
  repeat' first
    | with_reducible assumption | extract_lets | with_reducible apply State.askAgain_keeps
    | with_reducible apply State.sendBypass_keeps | with_reducible apply State.setChunk_keeps
    | with_reducible apply State.request_keeps
    | (refine Keeps.snd_eq (by with_reducible assumption) ?_; with_reducible apply State.stopCopy_keeps) | split

theorem State.openPlain_keeps {z : State} (s : State) (c : Nat) (n : Nat) (x : Ctx) (i : Inst) (b : Chunk) (h0 : Keeps z s) :
    KeepsSome z (State.openPlain s c n x i b) := by
  unfold State.openPlain
  repeat' first
    | with_reducible assumption | intro _ | extract_lets | with_reducible apply State.setChunk_keeps
    | with_reducible apply State.takeBook_keeps | with_reducible apply KeepsSome.none | with_reducible apply KeepsSome.ite
    | with_reducible apply KeepsSome.map

theorem State.takePlace_keeps {z : State} (s : State) (who : Nat × Nat) (b : Chunk) (x3 : Tier) (h0 : Keeps z s) :
    KeepsPair z (State.takePlace s who b x3) := by
  unfold State.takePlace
  repeat' first
    | with_reducible assumption | extract_lets | with_reducible apply State.takeSlot_keeps
    | with_reducible apply State.takeStack_keeps | with_reducible apply State.bump_keeps | with_reducible apply KeepsPair.none
    | with_reducible apply KeepsPair.some | split

theorem State.spillOwn_keeps {z : State} (f : Nat) (s : State) (q : Nat) (h : Keeps z s) :
    Keeps z (State.spillOwn f s q) := by
  induction f generalizing s with
  | zero => exact h
  | succ f ih =>
    unfold State.spillOwn
    split
    · split
      · refine ih _ (State.spill_keeps _ _ _ h)
      · exact h
    · exact h

theorem State.openBy_keeps {z : State} (s : State) (c : Nat) (n : Nat) (x : Ctx) (i : Inst) (b : Chunk) (o : Opening)
    (steer : Bool) (t8 : Tier) (h0 : Keeps z s) :
    KeepsSome z (State.openBy s c n x i b o steer t8) := by
  unfold State.openBy
  repeat' first
    | with_reducible assumption | intro _ | extract_lets | with_reducible apply State.takePlace_keeps
    | with_reducible apply State.bump_keeps | with_reducible apply State.noteBypass_keeps
    | with_reducible apply State.setChunk_keeps | with_reducible apply State.spillOwn_keeps
    | with_reducible apply State.takeBook_keeps | with_reducible apply KeepsSome.map | with_reducible apply KeepsSome.bind
    | with_reducible apply Keeps.ite | split

theorem State.reopenOne_keeps {z : State} (s : State) (q : Nat) (h0 : Keeps z s) :
    KeepsSome z (State.reopenOne s q) := by
  unfold State.reopenOne
  repeat' first
    | with_reducible assumption | intro _ | extract_lets | with_reducible apply State.modInst_keeps
    | with_reducible apply State.request_keeps | with_reducible apply State.openPlain_keeps
    | with_reducible apply State.openBy_keeps | with_reducible apply KeepsSome.ite | with_reducible apply KeepsSome.mapState
    | with_reducible apply KeepsSome.of_bind | split

theorem State.reopenDie_keeps {z : State} (f : Nat) (s : State) (q : Nat) (h : Keeps z s) :
    Keeps z (State.reopenDie f s q) := by
  induction f generalizing s with
  | zero => exact h
  | succ f ih =>
    unfold State.reopenDie
    split
    · exact ih _ (Keeps.some_eq (by assumption) (State.reopenOne_keeps _ _ h))
    · exact h

theorem State.reopen_keeps {z : State} (s : State) (q : Nat) (h0 : Keeps z s) :
    Keeps z (State.reopen s q) := by
  unfold State.reopen
  repeat' first
    | with_reducible assumption | with_reducible apply State.reopenDie_keeps

theorem State.reopenFor_keeps {z : State} (s : State) (op : Nat) (phase : Nat) (chunk : Nat) (h0 : Keeps z s) :
    Keeps z (State.reopenFor s op phase chunk) := by
  unfold State.reopenFor
  repeat' first
    | with_reducible assumption | extract_lets | with_reducible apply State.reopen_keeps | with_reducible apply Keeps.ite
    | split

theorem State.tier_keeps {z : State} (s : State) (o : Opening) (h0 : Keeps z s) :
    Keeps z (State.tier s o).2 := by
  unfold State.tier
  repeat' first
    | with_reducible assumption | extract_lets | with_reducible apply State.spill_keeps | with_reducible apply Keeps.ite2
    | split

theorem State.openAt_keeps {z : State} (s : State) (c : Nat) (n : Nat) (x : Ctx) (i : Inst) (b : Chunk) (q : Nat)
    (steer : Bool) (h0 : Keeps z s) :
    Keeps z (State.openAt s c n x i b q steer).2 := by
  unfold State.openAt
  repeat' first
    | with_reducible assumption | extract_lets | with_reducible apply State.deferChunk_keeps
    | (refine Keeps.snd_eq (by with_reducible assumption) ?_; with_reducible apply State.tier_keeps)
    | (refine Keeps.some_eq (by with_reducible assumption) ?_; with_reducible apply State.openBy_keeps)
    | with_reducible apply Keeps.ite | split

theorem State.openChunk_keeps {z : State} (s : State) (c : Nat) (n : Nat) (phase : Nat) (chunk : Nat) (count : Nat)
    (stamp : Time) (h17 : Nat) (st : ChunkState) (h0 : Keeps z s) :
    Keeps z (State.openChunk s c n phase chunk count stamp h17 st).2 := by
  unfold State.openChunk
  repeat' first
    | with_reducible assumption | extract_lets | with_reducible apply State.reopenFor_keeps
    | with_reducible apply State.deferChunk_keeps | with_reducible apply State.openAt_keeps
    | (refine Keeps.some_eq (by with_reducible assumption) ?_; with_reducible apply State.openPlain_keeps)
    | with_reducible apply Keeps.ite | with_reducible apply Keeps.ite2 | split

theorem State.trap_keeps {z : State} (s : State) (c : Nat) (x : Ctx) (k : Chunk) (f : Cf) (h5 : Ch) (payload : List Byte)
    (el : Nat) (h0 : Keeps z s) :
    Keeps z (State.trap s c x k f h5 payload el) := by
  unfold State.trap
  repeat' first
    | with_reducible assumption | extract_lets | with_reducible apply State.bump_keeps | with_reducible apply State.wr_keeps
    | with_reducible apply State.raise_keeps | with_reducible apply State.abortHere_keeps
    | with_reducible apply State.setChunk_keeps | with_reducible apply Keeps.ite

theorem State.forwardBypass_keeps {z : State} (s : State) (x : Ctx) (i : Inst) (k : Chunk) (h4 : Ch) (b : Brought)
    (payload : List Byte) (h0 : Keeps z s) :
    Keeps z (State.forwardBypass s x i k h4 b payload) := by
  unfold State.forwardBypass
  repeat' first
    | with_reducible assumption | intro _ | extract_lets | with_reducible apply State.sendTo_keeps
    | with_reducible apply Keeps.foldl | with_reducible apply Keeps.ite | split

theorem State.widenSlot_keeps {z : State} (s : State) (c : Nat) (who : Nat × Nat) (k : Chunk) (h0 : Keeps z s) :
    KeepsPair z (State.widenSlot s c who k) := by
  unfold State.widenSlot
  repeat' first
    | with_reducible assumption | intro _ | extract_lets | with_reducible apply State.stackFor_keeps
    | with_reducible apply State.setChunk_keeps | with_reducible apply State.freeSlot_keeps
    | with_reducible apply State.takeStack_keeps | with_reducible apply State.moveSlots_keeps
    | (refine Keeps.some2_eq (by with_reducible assumption) ?_; with_reducible apply State.sramFor_keeps)
    | with_reducible apply KeepsPair.some | with_reducible apply KeepsPair.ite | with_reducible apply Keeps.foldl | split

theorem State.overflowDone_keeps {z : State} (s : State) (c : Nat) (n : Nat) (x : Ctx) (i : Inst) (k : Chunk)
    (h0 : Keeps z s) :
    Keeps z (State.overflowDone s c n x i k) := by
  unfold State.overflowDone
  repeat' first
    | with_reducible assumption | extract_lets | with_reducible apply State.abortHere_keeps
    | with_reducible apply State.raise_keeps | with_reducible apply State.modInst_keeps
    | with_reducible apply State.bump_keeps | with_reducible apply State.spillOwn_keeps
    | with_reducible apply State.request_keeps | with_reducible apply State.setChunk_keeps
    | (refine Keeps.some2_eq (by with_reducible assumption) ?_; with_reducible apply State.widenSlot_keeps)
    | with_reducible apply Keeps.ite | split

theorem State.countLook_keeps {z : State} (s : State) (c : Nat) (n : Nat) (x : Ctx) (i : Inst) (k : Chunk) (h0 : Keeps z s) :
    Keeps z (State.countLook s c n x i k) := by
  unfold State.countLook
  repeat' first
    | with_reducible assumption | extract_lets | with_reducible apply State.setChunk_keeps
    | with_reducible apply State.tryComplete_keeps | with_reducible apply State.overflowDone_keeps
    | with_reducible apply Keeps.ite | split

theorem State.applyFrame_keeps {z : State} (s : State) (c : Nat) (n : Nat) (x : Ctx) (i : Inst) (k : Chunk) (f : Cf)
    (h7 : Ch) (payload : List Byte) (h0 : Keeps z s) :
    Keeps z (State.applyFrame s c n x i k f h7 payload) := by
  unfold State.applyFrame
  repeat' first
    | with_reducible assumption | intro _ | extract_lets | with_reducible apply State.abortHere_keeps
    | with_reducible apply State.raise_keeps | with_reducible apply State.setChunk_keeps
    | with_reducible apply State.trap_keeps | with_reducible apply State.restart_keeps
    | with_reducible apply State.refuse_keeps | with_reducible apply State.dup_keeps | with_reducible apply State.bump_keeps
    | with_reducible apply State.raiseLim_keeps | with_reducible apply State.modInst_keeps
    | with_reducible apply State.rearm_keeps | with_reducible apply State.countFixed_keeps
    | with_reducible apply State.countEvent_keeps | with_reducible apply State.progress_keeps
    | with_reducible apply State.forwardBypass_keeps | with_reducible apply State.countLook_keeps
    | with_reducible apply State.freeSlot_keeps | with_reducible apply Keeps.foldl | with_reducible apply Keeps.ite | split

theorem State.atChunk_keeps {z : State} (s : State) (c : Nat) (n : Nat) (x : Ctx) (i : Inst) (k : Chunk) (f : Cf) (h7 : Ch)
    (payload : List Byte) (h0 : Keeps z s) :
    Keeps z (State.atChunk s c n x i k f h7 payload) := by
  unfold State.atChunk
  repeat' first
    | with_reducible assumption | extract_lets | with_reducible apply State.dup_keeps
    | with_reducible apply State.restart_keeps | with_reducible apply State.refuse_keeps
    | with_reducible apply State.applyFrame_keeps | with_reducible apply Keeps.ite | split

theorem State.storeResult_keeps {z : State} (s : State) (c : Nat) (n : Nat) (who : Nat × Nat) (y : Result) (h0 : Keeps z s) :
    Keeps z (State.storeResult s c n who y) := by
  unfold State.storeResult
  repeat' first
    | with_reducible assumption | extract_lets | with_reducible apply State.useSpill_keeps
    | with_reducible apply State.modInst_keeps | with_reducible apply Keeps.ite2

theorem State.sendResult_keeps {z : State} (s : State) (c : Nat) (n : Nat) (x : Ctx) (i : Inst) (phase : Nat) (chunk : Nat)
    (stack : Nat) (frames : List (List Byte)) (h0 : Keeps z s) :
    Keeps z (State.sendResult s c n x i phase chunk stack frames) := by
  unfold State.sendResult
  repeat' first
    | with_reducible assumption | intro _ | extract_lets | with_reducible apply State.sendMembers_keeps
    | with_reducible apply State.sendTo_keeps | with_reducible apply State.storeResult_keeps
    | with_reducible apply State.modInst_keeps | with_reducible apply Keeps.foldl | with_reducible apply Keeps.ite

theorem State.applyCopy_keeps {z : State} (s : State) (c : Nat) (n : Nat) (x : Ctx) (i : Inst) (k : Chunk) (f : Cf)
    (h7 : Ch) (payload : List Byte) (h0 : Keeps z s) :
    Keeps z (State.applyCopy s c n x i k f h7 payload) := by
  unfold State.applyCopy
  repeat' first
    | with_reducible assumption | extract_lets | with_reducible apply State.dup_keeps
    | with_reducible apply State.modInst_keeps | with_reducible apply State.progress_keeps
    | with_reducible apply State.setChunk_keeps | with_reducible apply State.sendResult_keeps
    | with_reducible apply State.chunkDone_keeps | with_reducible apply State.endChunk_keeps | with_reducible apply Keeps.ite
    | split

theorem State.takeVector_keeps {z : State} (s : State) (c : Nat) (n : Nat) (chunk : Nat) (l : List Int) (h0 : Keeps z s) :
    Keeps z (State.takeVector s c n chunk l) := by
  unfold State.takeVector
  repeat' first
    | with_reducible assumption | extract_lets | with_reducible apply State.modInst_keeps
    | with_reducible apply State.abortHere_keeps | with_reducible apply State.raise_keeps
    | with_reducible apply State.tryComplete_keeps | with_reducible apply Keeps.ite | split

theorem State.badColl_keeps {z : State} (s : State) (f : Cf) (op : Nat) (inst : Nat) (kind : Nat) (h0 : Keeps z s) :
    Keeps z (State.badColl s f op inst kind) := by
  unfold State.badColl
  repeat' first
    | with_reducible assumption | extract_lets | with_reducible apply State.raiseLim_keeps
    | with_reducible apply State.bump_keeps

theorem State.damaged_keeps {z : State} (s : State) (f : Cf) (h2 : Ch) (q : Nat) (h0 : Keeps z s) :
    Keeps z (State.damaged s f h2 q) := by
  unfold State.damaged
  repeat' first
    | with_reducible assumption | extract_lets | with_reducible apply State.refuse_keeps
    | with_reducible apply State.raise_keeps | with_reducible apply State.bump_keeps

theorem State.passOn_keeps {z : State} (s : State) (x : Ctx) (src : Nat) (dest : Nat) (header : Nat) (payload : List Byte)
    (h0 : Keeps z s) :
    Keeps z (State.passOn s x src dest header payload) := by
  unfold State.passOn
  repeat' first
    | with_reducible assumption | with_reducible apply State.originate_keeps

theorem State.setPreSlot_keeps {z : State} (s : State) (p : PreSlot) (h0 : Keeps z s) :
    Keeps z (State.setPreSlot s p) := by
  unfold State.setPreSlot
  repeat' first
    | with_reducible assumption | extract_lets | fail_if_no_progress (with_reducible apply Keeps.upd)

theorem State.ringTake_keeps {z : State} (s : State) (x : Ctx) (i : Inst) (f : Cf) (header : Nat) (h5 : Ch)
    (payload : List Byte) (h0 : Keeps z s) :
    Keeps z (State.ringTake s x i f header h5 payload) := by
  unfold State.ringTake
  repeat' first
    | with_reducible assumption | intro _ | extract_lets | with_reducible apply State.passOn_keeps
    | with_reducible apply State.bump_keeps | with_reducible apply State.setPreSlot_keeps
    | with_reducible apply State.sendTo_keeps | fail_if_no_progress (with_reducible apply Keeps.upd)
    | with_reducible apply Keeps.foldl | with_reducible apply Keeps.ite

theorem State.tookIn_keeps {z : State} (s : State) (c : Nat) (n : Nat) (key : Nat) (h0 : Keeps z s) :
    Keeps z (State.tookIn s c n key) := by
  unfold State.tookIn
  repeat' first
    | with_reducible assumption | extract_lets | with_reducible apply State.bump_keeps
    | with_reducible apply State.modInst_keeps

theorem State.refuseBypass_keeps {z : State} (s : State) (c : Nat) (n : Nat) (x : Ctx) (f : Cf) (h5 : Ch) (h0 : Keeps z s) :
    Keeps z (State.refuseBypass s c n x f h5) := by
  unfold State.refuseBypass
  repeat' first
    | with_reducible assumption | extract_lets | with_reducible apply State.modInst_keeps
    | with_reducible apply State.raise_keeps | with_reducible apply State.bump_keeps
    | with_reducible apply State.tryComplete_keeps | with_reducible apply State.sendBypass_keeps

theorem State.windowMismatch_keeps {z : State} (s : State) (c : Nat) (n : Nat) (x : Ctx) (k : Option Chunk) (f : Cf)
    (h6 : Ch) (want : Int) (byp : Bool) (h0 : Keeps z s) :
    Keeps z (State.windowMismatch s c n x k f h6 want byp) := by
  unfold State.windowMismatch
  repeat' first
    | with_reducible assumption | extract_lets | with_reducible apply State.raise_keeps
    | with_reducible apply State.refuse_keeps | with_reducible apply State.restart_keeps
    | with_reducible apply State.tookIn_keeps | with_reducible apply State.askAgain_keeps
    | with_reducible apply State.refuseBypass_keeps
    | (refine Keeps.snd_eq (by with_reducible assumption) ?_; with_reducible apply State.openChunk_keeps)
    | with_reducible apply Keeps.ite | split

theorem State.toDie_keeps {z : State} (s : State) (c : Nat) (n : Nat) (f : Cf) (header : Nat) (h5 : Ch)
    (payload : List Byte) (first : Bool) (h0 : Keeps z s) :
    Keeps z (State.toDie s c n f header h5 payload first) := by
  unfold State.toDie
  repeat' first
    | with_reducible assumption | extract_lets | with_reducible apply State.stitch_keeps
    | with_reducible apply State.applyCopy_keeps | with_reducible apply State.atChunk_keeps
    | fail_if_no_progress (with_reducible apply Keeps.upd) | with_reducible apply Keeps.ite | split

theorem State.firstContrib_keeps {z : State} (s : State) (c : Nat) (n : Nat) (x : Ctx) (j : Inst) (f : Cf) (header : Nat)
    (h7 : Ch) (payload : List Byte) (byp : Bool) (h0 : Keeps z s) :
    Keeps z (State.firstContrib s c n x j f header h7 payload byp) := by
  unfold State.firstContrib
  repeat' first
    | with_reducible assumption | extract_lets | with_reducible apply State.dup_keeps | with_reducible apply State.bump_keeps
    | with_reducible apply State.windowMismatch_keeps | with_reducible apply State.refuse_keeps
    | with_reducible apply State.toDie_keeps | with_reducible apply State.tookIn_keeps
    | with_reducible apply State.refuseBypass_keeps
    | (refine Keeps.snd_eq (by with_reducible assumption) ?_; with_reducible apply State.openChunk_keeps)
    | with_reducible apply Keeps.ite | split

theorem State.takeContrib_keeps {z : State} (s : State) (f : Cf) (header : Nat) (payload : List Byte) (upset : Bool)
    (h0 : Keeps z s) :
    Keeps z (State.takeContrib s f header payload upset) := by
  unfold State.takeContrib
  repeat' first
    | with_reducible assumption | extract_lets | with_reducible apply State.badColl_keeps
    | with_reducible apply State.refuse_keeps | with_reducible apply State.bump_keeps
    | with_reducible apply State.damaged_keeps | with_reducible apply State.ringTake_keeps
    | with_reducible apply State.openInst_keeps | with_reducible apply State.dup_keeps
    | with_reducible apply State.windowMismatch_keeps | with_reducible apply State.toDie_keeps
    | with_reducible apply State.firstContrib_keeps | with_reducible apply Keeps.ite | split | dsimp only
    | dsimp +zetaDelta only

theorem execContrib_keeps {z : State} (t0 : Time) (f : Cf) (header : BitVec 384) (payload : List Byte) (upset : Bool)
    (s : State) (h5 : Keeps z s) :
    KeepsNext z (execContrib t0 f header payload upset s) := by
  unfold execContrib
  repeat' first
    | with_reducible assumption | extract_lets | with_reducible apply State.begin_keeps
    | with_reducible apply State.takeContrib_keeps | with_reducible apply KeepsNext.next | with_reducible apply Keeps.ite

theorem execSteeredForward_keeps {z : State} (t0 : Time) (s : State) (h1 : Keeps z s) :
    KeepsNext z (execSteeredForward t0 s) := by
  unfold execSteeredForward
  repeat' first
    | with_reducible assumption | extract_lets | with_reducible apply State.begin_keeps
    | with_reducible apply State.bump_keeps | with_reducible apply State.atChunk_keeps | with_reducible apply State.dup_keeps
    | with_reducible apply KeepsNext.next | fail_if_no_progress (with_reducible apply Keeps.upd)
    | with_reducible apply Keeps.ite | split

theorem execDeferredReopen_keeps {z : State} (t0 : Time) (die : Nat) (s : State) (h2 : Keeps z s) :
    KeepsNext z (execDeferredReopen t0 die s) := by
  unfold execDeferredReopen
  repeat' first
    | with_reducible assumption | extract_lets | with_reducible apply State.begin_keeps
    | with_reducible apply State.reopen_keeps | with_reducible apply KeepsNext.next

theorem prAct_keeps {z : State} (r : BitVec 128) (s : State) (h1 : Keeps z s) :
    Keeps z (prAct r s) := by
  unfold prAct
  repeat' first
    | with_reducible assumption | extract_lets | with_reducible apply State.wr_keeps
    | fail_if_no_progress (with_reducible apply Keeps.upd)

theorem execPrWrite_keeps {z : State} (a : Access) (record : BitVec 128) (s : State) (h2 : Keeps z s) :
    KeepsNext z (execPrWrite a record s) := by
  unfold execPrWrite
  repeat' first
    | with_reducible assumption | intro _ | extract_lets | with_reducible apply State.writeOne_keeps
    | with_reducible apply prAct_keeps | with_reducible apply KeepsNext.next

theorem State.routeOn_keeps {z : State} (s : State) (p : Nat) (stamp : Time) (f : Mft) (h0 : Keeps z s) :
    Keeps z (State.routeOn s p stamp f) := by
  unfold State.routeOn
  repeat' first
    | with_reducible assumption | extract_lets | with_reducible apply State.bump_keeps
    | with_reducible apply State.forward_keeps | with_reducible apply State.drop_keeps
    | with_reducible apply State.dropRoute_keeps
    | (refine Keeps.mid_eq (by with_reducible assumption) ?_; with_reducible apply State.resolveGei_keeps)
    | (refine Keeps.snd_eq (by with_reducible assumption) ?_; with_reducible apply State.resolveDetour_keeps)
    | with_reducible apply Keeps.ite | split

theorem State.closePre_keeps {z : State} (s : State) (p : PreSlot) (h0 : Keeps z s) :
    Keeps z (State.closePre s p) := by
  unfold State.closePre
  repeat' first
    | with_reducible assumption | intro _ | extract_lets | with_reducible apply State.freeSlot_keeps
    | with_reducible apply State.setPreSlot_keeps | with_reducible apply State.bump_keeps
    | with_reducible apply State.originate_keeps | with_reducible apply Keeps.foldl | with_reducible apply Keeps.ite | split
    | dsimp +zetaDelta only

theorem State.preTake_keeps {z : State} (s : State) (die : Nat) (port : Nat) (stamp : Time) (f : Mft) (h0 : Keeps z s) :
    Keeps z (State.preTake s die port stamp f) := by
  unfold State.preTake
  repeat' first
    | with_reducible assumption | extract_lets | with_reducible apply State.routeOn_keeps
    | with_reducible apply State.bump_keeps | with_reducible apply State.takeSlot_keeps
    | with_reducible apply State.setPreSlot_keeps | with_reducible apply State.closePre_keeps
    | fail_if_no_progress (with_reducible apply Keeps.upd) | with_reducible apply Keeps.ite
    | refine Keeps.snd_eq (by with_reducible assumption) ?_ | split | dsimp only | dsimp +zetaDelta only

theorem execPrereduceContrib_keeps {z : State} (t0 : Time) (frame : Nat) (s : State) (h2 : Keeps z s) :
    KeepsNext z (execPrereduceContrib t0 frame s) := by
  unfold execPrereduceContrib
  repeat' first
    | with_reducible assumption | extract_lets | with_reducible apply State.begin_keeps
    | with_reducible apply State.release_keeps | with_reducible apply State.preTake_keeps
    | with_reducible apply State.routeOn_keeps | with_reducible apply KeepsNext.next | with_reducible apply Keeps.ite | split

theorem execPrHoldExpiry_keeps {z : State} (t0 : Time) (s : State) (h1 : Keeps z s) :
    KeepsNext z (execPrHoldExpiry t0 s) := by
  unfold execPrHoldExpiry
  repeat' first
    | with_reducible assumption | extract_lets | with_reducible apply State.begin_keeps
    | with_reducible apply State.closePre_keeps | with_reducible apply KeepsNext.next | split

end Sys2Proof.Machine
end

