-- ==== Sys2Proof/Laws/KeepsForward.lean ====
section
/-!
SUPPORT. What each function keeps (`Keeps`): The switch, its queues and forwarding.
-/
namespace Sys2Proof.Machine

theorem State.setNarrow_keeps {z : State} (s : State) (p : Nat) (n : Option Narrow) (h0 : Keeps z s) :
    Keeps z (State.setNarrow s p n) := by
  unfold State.setNarrow
  repeat' first
    | with_reducible assumption | extract_lets | fail_if_no_progress (with_reducible apply Keeps.upd)

theorem State.setRate_keeps {z : State} (s : State) (p : Nat) (rate : Nat) (waves : Nat) (h0 : Keeps z s) :
    Keeps z (State.setRate s p rate waves) := by
  unfold State.setRate
  repeat' first
    | with_reducible assumption | extract_lets | with_reducible apply State.wr_keeps

theorem State.abortSending_keeps {z : State} (s : State) (p : Nat) (h0 : Keeps z s) :
    Keeps z (State.abortSending s p) := by
  unfold State.abortSending
  repeat' first
    | with_reducible assumption | extract_lets | with_reducible apply State.setPort_keeps
    | with_reducible apply State.release_keeps | with_reducible apply State.drop_keeps | split

theorem State.moveFrame_keeps {z : State} (s : State) (f : Stored) (d : Desc) (p : Nat) (tg : Target) (h0 : Keeps z s) :
    Keeps z (State.moveFrame s f d p tg) := by
  unfold State.moveFrame
  repeat' first
    | with_reducible assumption | extract_lets | with_reducible apply State.drop_keeps
    | with_reducible apply State.release_keeps | with_reducible apply State.bump_keeps
    | with_reducible apply State.holdAll_keeps | with_reducible apply State.enqueue_keeps
    | fail_if_no_progress (with_reducible apply Keeps.upd) | with_reducible apply Keeps.ite | split

theorem State.reexamine_keeps {z : State} (s : State) (p : Nat) (d : Desc) (h0 : Keeps z s) :
    Keeps z (State.reexamine s p d) := by
  unfold State.reexamine
  repeat' first
    | with_reducible assumption | extract_lets | with_reducible apply State.release_keeps
    | with_reducible apply State.drop_keeps | with_reducible apply State.dropRoute_keeps
    | with_reducible apply State.moveFrame_keeps
    | (refine Keeps.snd_eq (by with_reducible assumption) ?_; with_reducible apply State.resolveSpray_keeps)
    | with_reducible apply Keeps.ite | split | dsimp +zetaDelta only

theorem State.flushAddrs_keeps {z : State} (s : State) (vid : Nat) (port : Nat) (h0 : Keeps z s) :
    Keeps z (State.flushAddrs s vid port) := by
  unfold State.flushAddrs
  repeat' first
    | with_reducible assumption | extract_lets | with_reducible apply State.bump_keeps
    | fail_if_no_progress (with_reducible apply Keeps.upd) | with_reducible apply Keeps.ite

theorem State.reportEmptyGroups_keeps {z : State} (s : State) (p : Nat) (h0 : Keeps z s) :
    Keeps z (State.reportEmptyGroups s p) := by
  unfold State.reportEmptyGroups
  repeat' first
    | with_reducible assumption | intro _ | extract_lets | with_reducible apply State.raise_keeps
    | with_reducible apply Keeps.foldl | with_reducible apply Keeps.ite

theorem State.portDown_keeps {z : State} (s : State) (p : Nat) (st : Nat) (cause : Nat) (h0 : Keeps z s) :
    Keeps z (State.portDown s p st cause) := by
  unfold State.portDown
  repeat' first
    | with_reducible assumption | intro _ | extract_lets | with_reducible apply State.setNarrow_keeps
    | with_reducible apply State.setRate_keeps | with_reducible apply State.wr_keeps | with_reducible apply State.raise_keeps
    | with_reducible apply State.abortSending_keeps | with_reducible apply State.setQueue_keeps
    | with_reducible apply State.reexamine_keeps | with_reducible apply State.setCircQueue_keeps
    | with_reducible apply State.timePortDown_keeps | with_reducible apply State.flushAddrs_keeps
    | with_reducible apply State.reportEmptyGroups_keeps | with_reducible apply Keeps.foldl | with_reducible apply Keeps.ite

theorem State.countDraining_keeps {z : State} (s : State) (h0 : Keeps z s) :
    Keeps z (State.countDraining s) := by
  unfold State.countDraining
  repeat' first
    | with_reducible assumption | extract_lets | with_reducible apply State.wr_keeps

theorem sprayAct_keeps {z : State} (b : List Byte) (s : State) (h1 : Keeps z s) :
    Keeps z (sprayAct b s) := by
  unfold sprayAct
  repeat' first
    | with_reducible assumption | extract_lets | with_reducible apply State.countDraining_keeps
    | with_reducible apply State.wr_keeps | with_reducible apply State.raise_keeps
    | fail_if_no_progress (with_reducible apply Keeps.upd) | with_reducible apply Keeps.ite

theorem execSprayWrite_keeps {z : State} (a : Access) (data : List Byte) (s : State) (h2 : Keeps z s) :
    KeepsNext z (execSprayWrite a data s) := by
  unfold execSprayWrite
  repeat' first
    | with_reducible assumption | intro _ | extract_lets | with_reducible apply State.writeOne_keeps
    | with_reducible apply sprayAct_keeps | with_reducible apply KeepsNext.next

theorem mcastAct_keeps {z : State} (b : List Byte) (s : State) (h1 : Keeps z s) :
    Keeps z (mcastAct b s) := by
  unfold mcastAct
  repeat' first
    | with_reducible assumption | extract_lets | with_reducible apply State.wr_keeps
    | with_reducible apply State.countDraining_keeps | fail_if_no_progress (with_reducible apply Keeps.upd)

theorem State.showReserved_keeps {z : State} (s : State) (p : Nat) (h0 : Keeps z s) :
    Keeps z (State.showReserved s p) := by
  unfold State.showReserved
  repeat' first
    | with_reducible assumption | extract_lets | with_reducible apply State.wr_keeps

theorem circuitAct_keeps {z : State} (r : BitVec 128) (s : State) (h1 : Keeps z s) :
    Keeps z (circuitAct r s) := by
  unfold circuitAct
  repeat' first
    | with_reducible assumption | extract_lets | with_reducible apply State.countDraining_keeps
    | with_reducible apply State.wr_keeps | with_reducible apply State.showReserved_keeps
    | fail_if_no_progress (with_reducible apply Keeps.upd)

theorem execCircuitWrite_keeps {z : State} (a : Access) (record : BitVec 128) (s : State) (h2 : Keeps z s) :
    KeepsNext z (execCircuitWrite a record s) := by
  unfold execCircuitWrite
  repeat' first
    | with_reducible assumption | intro _ | extract_lets | with_reducible apply State.writeOne_keeps
    | with_reducible apply circuitAct_keeps | with_reducible apply KeepsNext.next

theorem State.fillBuckets_keeps {z : State} (s : State) (p : Nat) (h0 : Keeps z s) :
    Keeps z (State.fillBuckets s p) := by
  unfold State.fillBuckets
  repeat' first
    | with_reducible assumption | intro _ | extract_lets | fail_if_no_progress (with_reducible apply Keeps.upd)
    | with_reducible apply Keeps.foldl

theorem State.portUp_keeps {z : State} (s : State) (p : Nat) (h0 : Keeps z s) :
    Keeps z (State.portUp s p) := by
  unfold State.portUp
  repeat' first
    | with_reducible assumption | extract_lets | with_reducible apply State.setPort_keeps
    | with_reducible apply State.fillBuckets_keeps | with_reducible apply State.setRate_keeps
    | with_reducible apply State.wr_keeps | with_reducible apply State.raise_keeps

theorem State.arrives_keeps {z : State} (s : State) (p : Nat) (n : Nat) (h0 : Keeps z s) :
    Keeps z (State.arrives s p n) := by
  unfold State.arrives
  repeat' first
    | with_reducible assumption | extract_lets | with_reducible apply State.attach_keeps | with_reducible apply State.wr_keeps

theorem State.failsCheck_keeps {z : State} (s : State) (r : State) (p : Nat) (h0 : Keeps z s) (h1 : Keeps z r) :
    Keeps z (State.failsCheck s r p) := by
  unfold State.failsCheck
  repeat' first
    | with_reducible assumption | intro _ | extract_lets | with_reducible apply State.poolEmpty_keeps
    | with_reducible apply State.freeCell_keeps | with_reducible apply State.setPort_keeps
    | with_reducible apply State.drop_keeps
    | (refine Keeps.some2_eq (by with_reducible assumption) ?_; with_reducible apply State.takeCells_keeps)
    | with_reducible apply Keeps.foldl | with_reducible apply Keeps.foldl2 | with_reducible apply Keeps.ite | split
    | dsimp +zetaDelta only

theorem State.police_keeps {z : State} (s : State) (p : Nat) (cls : Nat) (len : Nat) (mft : Bool) (h0 : Keeps z s) :
    Keeps z (State.police s p cls len mft).2 := by
  unfold State.police
  repeat' first
    | with_reducible assumption | extract_lets | with_reducible apply State.bump_keeps | with_reducible apply State.drop_keeps
    | with_reducible apply State.raise_keeps
    | (refine Keeps.snd_eq (by with_reducible assumption) ?_; with_reducible apply State.limited_keeps)
    | fail_if_no_progress (with_reducible apply Keeps.upd) | with_reducible apply Keeps.ite2 | split

theorem State.deliver_keeps {z : State} (s : State) (p : Nat) (f : Mft) (h0 : Keeps z s) :
    Keeps z (State.deliver s p f) := by
  unfold State.deliver
  repeat' first
    | with_reducible assumption | extract_lets | with_reducible apply State.poolEmpty_keeps
    | with_reducible apply State.drop_keeps | with_reducible apply State.raiseLim_keeps
    | (refine Keeps.some2_eq (by with_reducible assumption) ?_; with_reducible apply State.store_keeps)
    | with_reducible apply Keeps.ite | split

theorem State.routeMft_keeps {z : State} (s : State) (p : Nat) (f : Mft) (h0 : Keeps z s) :
    Keeps z (State.routeMft s p f) := by
  unfold State.routeMft
  repeat' first
    | with_reducible assumption | extract_lets | with_reducible apply State.multicast_keeps
    | with_reducible apply State.drop_keeps | with_reducible apply State.deliver_keeps
    | with_reducible apply State.routeOn_keeps | with_reducible apply Keeps.ite

theorem State.acceptMft_keeps {z : State} (s : State) (p : Nat) (bytes : List Byte) (staged : Nat) (h0 : Keeps z s) :
    Keeps z (State.acceptMft s p bytes staged) := by
  unfold State.acceptMft
  repeat' first
    | with_reducible assumption | extract_lets | with_reducible apply State.drop_keeps
    | with_reducible apply State.raiseLim_keeps | with_reducible apply State.bump_keeps
    | with_reducible apply State.setPort_keeps | with_reducible apply State.routeMft_keeps
    | with_reducible apply State.creditFreed_keeps
    | (refine Keeps.snd_eq (by with_reducible assumption) ?_; with_reducible apply State.police_keeps)
    | with_reducible apply Keeps.ite | split

theorem State.roomy_keeps {z : State} (s : State) (h0 : Keeps z s) :
    Keeps z (State.roomy s) := by
  unfold State.roomy
  repeat' first
    | with_reducible assumption | intro _ | extract_lets | with_reducible apply State.wr_keeps
    | with_reducible apply Keeps.foldl

theorem State.findUpsets_keeps {z : State} (s : State) (die : Nat) (l : List (Nat × Nat)) (h0 : Keeps z s) :
    Keeps z (State.findUpsets s die l) := by
  unfold State.findUpsets
  repeat' first
    | with_reducible assumption | intro _ | extract_lets | with_reducible apply State.parityMiss_keeps
    | fail_if_no_progress (with_reducible apply Keeps.upd) | with_reducible apply Keeps.foldl | with_reducible apply Keeps.ite

theorem execMftFrameReceive_keeps {z : State} (t0 : Time) (port : Nat) (first : Byte) (bytes : List Byte) (staged : Nat)
    (buffered : Nat) (upsets : List (Nat × Nat)) (s : State) (h7 : Keeps z s) :
    KeepsNext z (execMftFrameReceive t0 port first bytes staged buffered upsets s) := by
  unfold execMftFrameReceive
  repeat' first
    | with_reducible assumption | extract_lets | with_reducible apply State.begin_keeps
    | with_reducible apply State.bump_keeps | with_reducible apply State.arrives_keeps | with_reducible apply State.drop_keeps
    | with_reducible apply State.failsCheck_keeps | with_reducible apply State.acceptMft_keeps
    | with_reducible apply State.roomy_keeps | with_reducible apply State.countEvent_keeps
    | with_reducible apply State.countFixed_keeps | with_reducible apply State.findUpsets_keeps
    | with_reducible apply KeepsNext.next | with_reducible apply Keeps.ite

theorem State.formAgain_keeps {z : State} (s : State) (cls : Nat) (f : Mft) (h0 : Keeps z s) :
    Keeps z (State.formAgain s cls f) := by
  unfold State.formAgain
  repeat' first
    | with_reducible assumption | extract_lets | with_reducible apply State.multicast_keeps
    | with_reducible apply State.originateAs_keeps | with_reducible apply Keeps.ite

theorem execOriginCellRetry_keeps {z : State} (t0 : Time) (s : State) (h1 : Keeps z s) :
    KeepsNext z (execOriginCellRetry t0 s) := by
  unfold execOriginCellRetry
  repeat' first
    | with_reducible assumption | extract_lets | with_reducible apply State.begin_keeps
    | with_reducible apply State.formAgain_keeps | with_reducible apply KeepsNext.next
    | fail_if_no_progress (with_reducible apply Keeps.upd) | split

theorem execFrameTransmitted_keeps {z : State} (t0 : Time) (frame : Nat) (x : OwnerDone) (s : State) (h5 : Keeps z s) :
    KeepsNext z (execFrameTransmitted t0 frame x s) := by
  unfold execFrameTransmitted
  repeat' first
    | with_reducible assumption | intro _ | extract_lets | with_reducible apply State.begin_keeps
    | with_reducible apply State.setPort_keeps | with_reducible apply State.collFrameLeft_keeps
    | with_reducible apply State.release_keeps | with_reducible apply State.listUsed_keeps
    | with_reducible apply State.freeRequest_keeps | with_reducible apply KeepsNext.next | with_reducible apply Keeps.foldl
    | with_reducible apply Keeps.ite | split | dsimp +zetaDelta only

theorem State.dropLink_keeps {z : State} (s : State) (p : Nat) (d : Drop) (h0 : Keeps z s) :
    Keeps z (State.dropLink s p d) := by
  unfold State.dropLink
  repeat' first
    | with_reducible assumption | extract_lets | with_reducible apply State.drop_keeps | with_reducible apply Keeps.ite

theorem execCreditReceive_keeps {z : State} (t0 : Time) (port : Nat) (body : BitVec 192) (s : State) (h3 : Keeps z s) :
    KeepsNext z (execCreditReceive t0 port body s) := by
  unfold execCreditReceive
  repeat' first
    | with_reducible assumption | extract_lets | with_reducible apply State.attach_keeps
    | with_reducible apply State.begin_keeps | with_reducible apply State.dropLink_keeps
    | with_reducible apply State.setPort_keeps | with_reducible apply KeepsNext.next | with_reducible apply Keeps.ite

theorem State.queueLink_keeps {z : State} (s : State) (p : Nat) (body : BitVec 192) (mark : Port → Port) (h0 : Keeps z s) :
    Keeps z (State.queueLink s p body mark) := by
  unfold State.queueLink
  repeat' first
    | with_reducible assumption | extract_lets | with_reducible apply State.poolEmpty_keeps
    | with_reducible apply State.setPort_keeps
    | (refine Keeps.some2_eq (by with_reducible assumption) ?_; with_reducible apply State.takeCells_keeps) | split

theorem execCreditSend_keeps {z : State} (t0 : Time) (port : Nat) (s : State) (h2 : Keeps z s) :
    KeepsNext z (execCreditSend t0 port s) := by
  unfold execCreditSend
  repeat' first
    | with_reducible assumption | extract_lets | with_reducible apply State.begin_keeps
    | with_reducible apply State.queueLink_keeps | with_reducible apply KeepsNext.next | with_reducible apply Keeps.ite

theorem execHelloReceive_keeps {z : State} (t0 : Time) (port : Nat) (body : BitVec 192) (s : State) (h3 : Keeps z s) :
    KeepsNext z (execHelloReceive t0 port body s) := by
  unfold execHelloReceive
  repeat' first
    | with_reducible assumption | extract_lets | with_reducible apply State.attach_keeps
    | with_reducible apply State.begin_keeps | with_reducible apply State.dropLink_keeps
    | with_reducible apply State.setPort_keeps | with_reducible apply State.wr_keeps | with_reducible apply KeepsNext.next
    | with_reducible apply Keeps.ite

theorem execHelloSend_keeps {z : State} (t0 : Time) (port : Nat) (s : State) (h2 : Keeps z s) :
    KeepsNext z (execHelloSend t0 port s) := by
  unfold execHelloSend
  repeat' first
    | with_reducible assumption | extract_lets | with_reducible apply State.begin_keeps
    | with_reducible apply State.queueLink_keeps | with_reducible apply KeepsNext.next | with_reducible apply Keeps.ite

theorem execLoadSummary_keeps {z : State} (t0 : Time) (die : Nat) (s : State) (h2 : Keeps z s) :
    KeepsNext z (execLoadSummary t0 die s) := by
  unfold execLoadSummary
  repeat' first
    | with_reducible assumption | extract_lets | with_reducible apply State.begin_keeps | with_reducible apply KeepsNext.next
    | fail_if_no_progress (with_reducible apply Keeps.upd)

theorem execVersionRetire_keeps {z : State} (t0 : Time) (table : Nat) (index : Nat) (s : State) (h3 : Keeps z s) :
    KeepsNext z (execVersionRetire t0 table index s) := by
  unfold execVersionRetire
  repeat' first
    | with_reducible assumption | extract_lets | with_reducible apply State.begin_keeps
    | with_reducible apply State.countDraining_keeps | with_reducible apply KeepsNext.next
    | fail_if_no_progress (with_reducible apply Keeps.upd)

theorem execDrainSlow_keeps {z : State} (t0 : Time) (table : Nat) (index : Nat) (s : State) (h3 : Keeps z s) :
    KeepsNext z (execDrainSlow t0 table index s) := by
  unfold execDrainSlow
  repeat' first
    | with_reducible assumption | extract_lets | with_reducible apply State.begin_keeps
    | with_reducible apply State.raise_keeps | with_reducible apply KeepsNext.next
    | fail_if_no_progress (with_reducible apply Keeps.upd) | split

theorem execPcsLinkFault_keeps {z : State} (t0 : Time) (port : Nat) (s : State) (h2 : Keeps z s) :
    KeepsNext z (execPcsLinkFault t0 port s) := by
  unfold execPcsLinkFault
  repeat' first
    | with_reducible assumption | extract_lets | with_reducible apply State.begin_keeps
    | with_reducible apply State.setPort_keeps | with_reducible apply KeepsNext.next | with_reducible apply Keeps.ite

theorem execPortDownHoldExpiry_keeps {z : State} (t0 : Time) (port : Nat) (s : State) (h2 : Keeps z s) :
    KeepsNext z (execPortDownHoldExpiry t0 port s) := by
  unfold execPortDownHoldExpiry
  repeat' first
    | with_reducible assumption | extract_lets | with_reducible apply State.begin_keeps
    | with_reducible apply State.portDown_keeps | with_reducible apply KeepsNext.next | with_reducible apply Keeps.ite | split

theorem execPortUp_keeps {z : State} (t0 : Time) (port : Nat) (s : State) (h2 : Keeps z s) :
    KeepsNext z (execPortUp t0 port s) := by
  unfold execPortUp
  repeat' first
    | with_reducible assumption | extract_lets | with_reducible apply State.begin_keeps
    | with_reducible apply State.portUp_keeps | with_reducible apply KeepsNext.next | with_reducible apply Keeps.ite

theorem State.widthUp_keeps {z : State} (s : State) (p : Nat) (x : Narrow) (h0 : Keeps z s) :
    Keeps z (State.widthUp s p x) := by
  unfold State.widthUp
  repeat' first
    | with_reducible assumption | extract_lets | with_reducible apply State.setRate_keeps
    | with_reducible apply State.setNarrow_keeps | with_reducible apply Keeps.ite

theorem State.linkUp_keeps {z : State} (s : State) (p : Nat) (h0 : Keeps z s) :
    Keeps z (State.linkUp s p) := by
  unfold State.linkUp
  repeat' first
    | with_reducible assumption | intro _ | extract_lets | with_reducible apply State.freeCell_keeps
    | with_reducible apply State.setPort_keeps | with_reducible apply Keeps.foldl

theorem execLinkFaultCleared_keeps {z : State} (t0 : Time) (port : Nat) (s : State) (h2 : Keeps z s) :
    KeepsNext z (execLinkFaultCleared t0 port s) := by
  unfold execLinkFaultCleared
  repeat' first
    | with_reducible assumption | extract_lets | with_reducible apply State.begin_keeps
    | with_reducible apply State.widthUp_keeps | with_reducible apply State.setPort_keeps
    | with_reducible apply State.linkUp_keeps | with_reducible apply KeepsNext.next | with_reducible apply Keeps.ite | split

theorem policerAct_keeps {z : State} (r : BitVec 64) (s : State) (h1 : Keeps z s) :
    Keeps z (policerAct r s) := by
  unfold policerAct
  repeat' first
    | with_reducible assumption | extract_lets | with_reducible apply State.wr_keeps
    | fail_if_no_progress (with_reducible apply Keeps.upd)

theorem shaperAct_keeps {z : State} (r : BitVec 128) (s : State) (h1 : Keeps z s) :
    Keeps z (shaperAct r s) := by
  unfold shaperAct
  repeat' first
    | with_reducible assumption | extract_lets | with_reducible apply State.wr_keeps
    | with_reducible apply State.showReserved_keeps | fail_if_no_progress (with_reducible apply Keeps.upd)

theorem execShaperWrite_keeps {z : State} (a : Access) (record : BitVec 128) (s : State) (h2 : Keeps z s) :
    KeepsNext z (execShaperWrite a record s) := by
  unfold execShaperWrite
  repeat' first
    | with_reducible assumption | intro _ | extract_lets | with_reducible apply State.writeOne_keeps
    | with_reducible apply shaperAct_keeps | with_reducible apply KeepsNext.next

theorem execPolicerWrite_keeps {z : State} (a : Access) (record : BitVec 64) (s : State) (h2 : Keeps z s) :
    KeepsNext z (execPolicerWrite a record s) := by
  unfold execPolicerWrite
  repeat' first
    | with_reducible assumption | intro _ | extract_lets | with_reducible apply State.writeOne_keeps
    | with_reducible apply policerAct_keeps | with_reducible apply KeepsNext.next

theorem State.setGates_keeps {z : State} (s : State) (p : Nat) (g : Gates) (h0 : Keeps z s) :
    Keeps z (State.setGates s p g) := by
  unfold State.setGates
  repeat' first
    | with_reducible assumption | extract_lets | fail_if_no_progress (with_reducible apply Keeps.upd)

theorem State.showChange_keeps {z : State} (s : State) (p : Nat) (c : Option Time) (h0 : Keeps z s) :
    Keeps z (State.showChange s p c) := by
  unfold State.showChange
  repeat' first
    | with_reducible assumption | with_reducible apply State.wr_keeps

theorem gateAct_keeps {z : State} (b : List Byte) (s : State) (h1 : Keeps z s) :
    Keeps z (gateAct b s) := by
  unfold gateAct
  repeat' first
    | with_reducible assumption | extract_lets | with_reducible apply State.setGates_keeps
    | with_reducible apply State.wr_keeps | with_reducible apply State.showChange_keeps

theorem execGateWrite_keeps {z : State} (a : Access) (data : List Byte) (s : State) (h2 : Keeps z s) :
    KeepsNext z (execGateWrite a data s) := by
  unfold execGateWrite
  repeat' first
    | with_reducible assumption | intro _ | extract_lets | with_reducible apply State.writeOne_keeps
    | with_reducible apply gateAct_keeps | with_reducible apply KeepsNext.next

theorem State.relock_keeps {z : State} (s : State) (h0 : Keeps z s) :
    Keeps z (State.relock s) := by
  unfold State.relock
  repeat' first
    | with_reducible assumption | intro _ | extract_lets | with_reducible apply State.showChange_keeps
    | with_reducible apply State.setGates_keeps | with_reducible apply Keeps.foldl | with_reducible apply Keeps.ite | split

theorem groupChangeAct_keeps {z : State} (v : Nat) (s : State) (h1 : Keeps z s) :
    Keeps z (groupChangeAct v s) := by
  unfold groupChangeAct
  repeat' first
    | with_reducible assumption | extract_lets | with_reducible apply State.relock_keeps | with_reducible apply State.wr_keeps

theorem execGroupChange_keeps {z : State} (a : Access) (value : Nat) (s : State) (h2 : Keeps z s) :
    KeepsNext z (execGroupChange a value s) := by
  unfold execGroupChange
  repeat' first
    | with_reducible assumption | intro _ | extract_lets | with_reducible apply State.writeOne_keeps
    | with_reducible apply groupChangeAct_keeps | with_reducible apply KeepsNext.next

theorem execGroupCycle_keeps {z : State} (a : Access) (value : Nat) (s : State) (h2 : Keeps z s) :
    KeepsNext z (execGroupCycle a value s) := by
  unfold execGroupCycle
  repeat' first
    | with_reducible assumption | intro _ | extract_lets | with_reducible apply State.writeOne_keeps
    | with_reducible apply State.wr_keeps | with_reducible apply KeepsNext.next

theorem groupBaseAct_keeps {z : State} (v : Nat) (s : State) (h1 : Keeps z s) :
    Keeps z (groupBaseAct v s) := by
  unfold groupBaseAct
  repeat' first
    | with_reducible assumption | intro _ | extract_lets | with_reducible apply State.wr_keeps
    | with_reducible apply State.relock_keeps | with_reducible apply State.setGates_keeps | with_reducible apply Keeps.foldl
    | with_reducible apply Keeps.ite | split

theorem State.dropStale_keeps {z : State} (s : State) (p : Nat) (l : List Desc) (h : Keeps z s) :
    Keeps z (s.dropStale p l).2 := by
  induction l generalizing s with
  | nil => exact h
  | cons d r ih =>
    unfold State.dropStale
    split
    · refine ih _ (State.release_keeps _ _ _ (State.bump_keeps _ _ _ _ (State.drop_keeps _ _ _ h)))
    · exact h

theorem State.prepareQueue_keeps {z : State} (s : State) (p : Nat) (k : Nat) (h0 : Keeps z s) :
    Keeps z (State.prepareQueue s p k) := by
  unfold State.prepareQueue
  repeat' first
    | with_reducible assumption | extract_lets | with_reducible apply State.setQueue_keeps
    | with_reducible apply State.countEvent_keeps | with_reducible apply State.bump_keeps
    | (refine Keeps.snd_eq (by with_reducible assumption) ?_; with_reducible apply State.dropStale_keeps)
    | with_reducible apply Keeps.ite | split

theorem State.prepareCirc_keeps {z : State} (s : State) (p : Nat) (c : Nat) (h0 : Keeps z s) :
    Keeps z (State.prepareCirc s p c) := by
  unfold State.prepareCirc
  repeat' first
    | with_reducible assumption | extract_lets | with_reducible apply State.dropStale_keeps
    | with_reducible apply State.setCircQueue_keeps | with_reducible apply Keeps.ite

theorem State.setDeficit_keeps {z : State} (s : State) (p : Nat) (k : Nat) (n : Nat) (h0 : Keeps z s) :
    Keeps z (State.setDeficit s p k n) := by
  unfold State.setDeficit
  repeat' first
    | with_reducible assumption | extract_lets | fail_if_no_progress (with_reducible apply Keeps.upd)

theorem State.pickExcess_keeps {z : State} (p f : Nat) (s : State) (h : Keeps z s) :
    Keeps z (State.pickExcess p f s).2 := by
  induction f generalizing s with
  | zero => exact h
  | succ f ih =>
    unfold State.pickExcess
    dsimp only
    split
    · exact ih _ (State.setPort_keeps _ _ _ h)
    · repeat' split
      all_goals first
        | exact State.setPort_keeps _ _ _ (State.setDeficit_keeps _ _ _ _ h)
        | exact ih _ (State.setPort_keeps _ _ _ (State.setDeficit_keeps _ _ _ _ h))

theorem State.pickTier_keeps {z : State} (s : State) (p : Nat) (h0 : Keeps z s) :
    Keeps z (State.pickTier s p).2 := by
  unfold State.pickTier
  repeat' first
    | with_reducible assumption | extract_lets | with_reducible apply State.pickExcess_keeps | with_reducible apply Keeps.ite2
    | split

theorem State.settlePort_keeps {z : State} (s : State) (p : Nat) (h0 : Keeps z s) :
    Keeps z (State.settlePort s p) := by
  unfold State.settlePort
  repeat' first
    | with_reducible assumption | intro _ | extract_lets | with_reducible apply State.setDeficit_keeps
    | with_reducible apply State.setPort_keeps | with_reducible apply Keeps.foldl | with_reducible apply Keeps.ite

theorem State.measure_keeps {z : State} (s : State) (p : Nat) (circ : Option Nat) (d : Desc) (h0 : Keeps z s) :
    Keeps z (State.measure s p circ d) := by
  unfold State.measure
  repeat' first
    | with_reducible assumption | extract_lets | with_reducible apply State.raiseTo_keeps
    | with_reducible apply State.raiseLim_keeps | fail_if_no_progress (with_reducible apply Keeps.upd)
    | with_reducible apply Keeps.ite | split | dsimp +zetaDelta only

theorem State.start_keeps {z : State} (s : State) (p : Nat) (pk : Pick) (h0 : Keeps z s) :
    Keeps z (State.start s p pk) := by
  unfold State.start
  repeat' first
    | with_reducible assumption | extract_lets | with_reducible apply State.measure_keeps
    | with_reducible apply State.setPort_keeps | with_reducible apply State.countEvent_keeps
    | with_reducible apply State.countFixed_keeps | with_reducible apply State.emit_keeps
    | with_reducible apply State.attach_keeps | with_reducible apply State.setQueue_keeps
    | with_reducible apply State.setCircQueue_keeps | with_reducible apply Keeps.ite | split | dsimp +zetaDelta only

theorem execSchedulerPick_keeps {z : State} (t0 : Time) (port : Nat) (s : State) (h2 : Keeps z s) :
    KeepsNext z (execSchedulerPick t0 port s) := by
  unfold execSchedulerPick
  repeat' first
    | with_reducible assumption | intro _ | extract_lets | with_reducible apply State.begin_keeps
    | with_reducible apply State.emit_keeps | with_reducible apply State.attach_keeps
    | with_reducible apply State.freeCell_keeps | with_reducible apply State.setPort_keeps
    | with_reducible apply State.prepareQueue_keeps | with_reducible apply State.prepareCirc_keeps
    | with_reducible apply State.settlePort_keeps | with_reducible apply State.start_keeps
    | (refine Keeps.snd_eq (by with_reducible assumption) ?_; with_reducible apply State.pickTier_keeps)
    | with_reducible apply KeepsNext.next | with_reducible apply Keeps.foldl | with_reducible apply Keeps.ite | split

theorem execWheelSlot_keeps {z : State} (t0 : Time) (port : Nat) (s : State) (h2 : Keeps z s) :
    KeepsNext z (execWheelSlot t0 port s) := by
  unfold execWheelSlot
  repeat' first
    | with_reducible assumption | intro _ | extract_lets | with_reducible apply State.begin_keeps
    | with_reducible apply KeepsNext.next | fail_if_no_progress (with_reducible apply Keeps.upd)
    | with_reducible apply Keeps.foldl | with_reducible apply Keeps.ite

theorem execGateListActive_keeps {z : State} (t0 : Time) (port : Nat) (s : State) (h2 : Keeps z s) :
    KeepsNext z (execGateListActive t0 port s) := by
  unfold execGateListActive
  repeat' first
    | with_reducible assumption | extract_lets | with_reducible apply State.begin_keeps
    | with_reducible apply State.setGates_keeps | with_reducible apply State.wr_keeps | with_reducible apply State.raise_keeps
    | with_reducible apply KeepsNext.next | with_reducible apply Keeps.ite | split

theorem execGateTransition_keeps {z : State} (t0 : Time) (port : Nat) (s : State) (h2 : Keeps z s) :
    KeepsNext z (execGateTransition t0 port s) := by
  unfold execGateTransition
  repeat' first
    | with_reducible assumption | extract_lets | with_reducible apply State.begin_keeps | with_reducible apply State.wr_keeps
    | with_reducible apply State.setGates_keeps | with_reducible apply KeepsNext.next | with_reducible apply Keeps.ite | split

theorem execSamplePeriodEnd_keeps {z : State} (t0 : Time) (s : State) (h1 : Keeps z s) :
    KeepsNext z (execSamplePeriodEnd t0 s) := by
  unfold execSamplePeriodEnd
  repeat' first
    | with_reducible assumption | intro _ | extract_lets | with_reducible apply State.begin_keeps
    | with_reducible apply State.wr_keeps | with_reducible apply KeepsNext.next
    | fail_if_no_progress (with_reducible apply Keeps.upd) | with_reducible apply Keeps.foldl

theorem State.gateLock_keeps {z : State} (s : State) (locked : Bool) (h0 : Keeps z s) :
    Keeps z (State.gateLock s locked) := by
  unfold State.gateLock
  repeat' first
    | with_reducible assumption | extract_lets | with_reducible apply State.wr_keeps | with_reducible apply State.raise_keeps

theorem execGeiQuery_keeps {z : State} (a : Access) (record : BitVec 64) (s : State) (h2 : Keeps z s) :
    KeepsNext z (execGeiQuery a record s) := by
  unfold execGeiQuery
  repeat' first
    | with_reducible assumption | intro _ | extract_lets | with_reducible apply State.writeOne_keeps
    | with_reducible apply State.wr_keeps | with_reducible apply KeepsNext.next

theorem State.clearBadAll_keeps {z : State} (s : State) (table : Nat) (index : Nat) (h0 : Keeps z s) :
    Keeps z (State.clearBadAll s table index) := by
  unfold State.clearBadAll
  repeat' first
    | with_reducible assumption | extract_lets | fail_if_no_progress (with_reducible apply Keeps.upd)

theorem geiExactAct_keeps {z : State} (r : BitVec 64) (s : State) (h1 : Keeps z s) :
    Keeps z (geiExactAct r s) := by
  unfold geiExactAct
  repeat' first
    | with_reducible assumption | extract_lets | with_reducible apply State.wr_keeps
    | with_reducible apply State.clearBadAll_keeps | fail_if_no_progress (with_reducible apply Keeps.upd)

theorem execGeiExactWrite_keeps {z : State} (a : Access) (record : BitVec 64) (s : State) (h2 : Keeps z s) :
    KeepsNext z (execGeiExactWrite a record s) := by
  unfold execGeiExactWrite
  repeat' first
    | with_reducible assumption | intro _ | extract_lets | with_reducible apply State.writeOne_keeps
    | with_reducible apply geiExactAct_keeps | with_reducible apply KeepsNext.next

theorem addrModeAct_keeps {z : State} (v : Nat) (s : State) (h1 : Keeps z s) :
    Keeps z (addrModeAct v s) := by
  unfold addrModeAct
  repeat' first
    | with_reducible assumption | extract_lets | with_reducible apply State.wr_keeps

theorem execAddrMode_keeps {z : State} (a : Access) (value : Nat) (s : State) (h2 : Keeps z s) :
    KeepsNext z (execAddrMode a value s) := by
  unfold execAddrMode
  repeat' first
    | with_reducible assumption | intro _ | extract_lets | with_reducible apply State.writeOne_keeps
    | with_reducible apply addrModeAct_keeps | with_reducible apply KeepsNext.next

theorem State.clearBad_keeps {z : State} (s : State) (die : Nat) (table : Nat) (index : Nat) (h0 : Keeps z s) :
    Keeps z (State.clearBad s die table index) := by
  unfold State.clearBad
  repeat' first
    | with_reducible assumption | extract_lets | fail_if_no_progress (with_reducible apply Keeps.upd)

theorem State.setAddrTab_keeps {z : State} (s : State) (die : Nat) (t2 : Tab AddrEntry) (h0 : Keeps z s) :
    Keeps z (State.setAddrTab s die t2) := by
  unfold State.setAddrTab
  repeat' first
    | with_reducible assumption | extract_lets | fail_if_no_progress (with_reducible apply Keeps.upd)

theorem State.addrPut_keeps {z : State} (s : State) (die : Nat) (key : Nat) (e : AddrEntry) (h0 : Keeps z s) :
    Keeps z (State.addrPut s die key e).2 := by
  unfold State.addrPut
  repeat' first
    | with_reducible assumption | extract_lets | with_reducible apply State.clearBad_keeps
    | with_reducible apply State.setAddrTab_keeps | with_reducible apply Keeps.ite2

theorem State.learnFull_keeps {z : State} (s : State) (die : Nat) (key : Nat) (h0 : Keeps z s) :
    Keeps z (State.learnFull s die key) := by
  unfold State.learnFull
  repeat' first
    | with_reducible assumption | extract_lets | with_reducible apply State.raiseLim_keeps
    | with_reducible apply State.bump_keeps

theorem addrAct_keeps {z : State} (r : BitVec 128) (s : State) (h1 : Keeps z s) :
    Keeps z (addrAct r s) := by
  unfold addrAct
  repeat' first
    | with_reducible assumption | intro _ | extract_lets | with_reducible apply State.learnFull_keeps
    | with_reducible apply State.clearBadAll_keeps | with_reducible apply State.wr_keeps
    | (refine Keeps.snd_eq (by with_reducible assumption) ?_; with_reducible apply State.addrPut_keeps)
    | fail_if_no_progress (with_reducible apply Keeps.upd) | with_reducible apply Keeps.foldl | with_reducible apply Keeps.ite
    | split

theorem execAddrWrite_keeps {z : State} (a : Access) (record : BitVec 128) (s : State) (h2 : Keeps z s) :
    KeepsNext z (execAddrWrite a record s) := by
  unfold execAddrWrite
  repeat' first
    | with_reducible assumption | intro _ | extract_lets | with_reducible apply State.writeOne_keeps
    | with_reducible apply addrAct_keeps | with_reducible apply KeepsNext.next

theorem execAddrQuery_keeps {z : State} (a : Access) (record : BitVec 128) (s : State) (h2 : Keeps z s) :
    KeepsNext z (execAddrQuery a record s) := by
  unfold execAddrQuery
  repeat' first
    | with_reducible assumption | intro _ | extract_lets | with_reducible apply State.writeOne_keeps
    | with_reducible apply State.wr_keeps | with_reducible apply KeepsNext.next

theorem addrFlushAct_keeps {z : State} (r : BitVec 64) (s : State) (h1 : Keeps z s) :
    Keeps z (addrFlushAct r s) := by
  unfold addrFlushAct
  repeat' first
    | with_reducible assumption | with_reducible apply State.flushAddrs_keeps

theorem execAddrFlush_keeps {z : State} (a : Access) (record : BitVec 64) (s : State) (h2 : Keeps z s) :
    KeepsNext z (execAddrFlush a record s) := by
  unfold execAddrFlush
  repeat' first
    | with_reducible assumption | intro _ | extract_lets | with_reducible apply State.writeOne_keeps
    | with_reducible apply addrFlushAct_keeps | with_reducible apply KeepsNext.next

theorem State.applyPrefix_keeps {z : State} (s : State) (r : BitVec 192) (h0 : Keeps z s) :
    Keeps z (State.applyPrefix s r) := by
  unfold State.applyPrefix
  repeat' first
    | with_reducible assumption | extract_lets | with_reducible apply State.wr_keeps
    | with_reducible apply State.clearBadAll_keeps | fail_if_no_progress (with_reducible apply Keeps.upd)

theorem State.finishPrefix_keeps {z : State} (s : State) (h0 : Keeps z s) :
    Keeps z (State.finishPrefix s) := by
  unfold State.finishPrefix
  repeat' first
    | with_reducible assumption | extract_lets | with_reducible apply State.wr_keeps
    | with_reducible apply State.applyPrefix_keeps | fail_if_no_progress (with_reducible apply Keeps.upd) | split

theorem prefixAct_keeps {z : State} (r : BitVec 192) (s : State) (h1 : Keeps z s) :
    Keeps z (prefixAct r s) := by
  unfold prefixAct
  repeat' first
    | with_reducible assumption | extract_lets | with_reducible apply State.finishPrefix_keeps
    | with_reducible apply State.wr_keeps | fail_if_no_progress (with_reducible apply Keeps.upd)

theorem execPrefixWrite_keeps {z : State} (a : Access) (record : BitVec 192) (s : State) (h2 : Keeps z s) :
    KeepsNext z (execPrefixWrite a record s) := by
  unfold execPrefixWrite
  repeat' first
    | with_reducible assumption | intro _ | extract_lets | with_reducible apply State.writeOne_keeps
    | with_reducible apply prefixAct_keeps | with_reducible apply KeepsNext.next

theorem nexthopAct_keeps {z : State} (r : BitVec 128) (s : State) (h1 : Keeps z s) :
    Keeps z (nexthopAct r s) := by
  unfold nexthopAct
  repeat' first
    | with_reducible assumption | extract_lets | with_reducible apply State.wr_keeps
    | with_reducible apply State.clearBadAll_keeps | fail_if_no_progress (with_reducible apply Keeps.upd)

theorem execNexthopWrite_keeps {z : State} (a : Access) (record : BitVec 128) (s : State) (h2 : Keeps z s) :
    KeepsNext z (execNexthopWrite a record s) := by
  unfold execNexthopWrite
  repeat' first
    | with_reducible assumption | intro _ | extract_lets | with_reducible apply State.writeOne_keeps
    | with_reducible apply nexthopAct_keeps | with_reducible apply KeepsNext.next

theorem execLpmQuery_keeps {z : State} (a : Access) (record : BitVec 192) (s : State) (h2 : Keeps z s) :
    KeepsNext z (execLpmQuery a record s) := by
  unfold execLpmQuery
  repeat' first
    | with_reducible assumption | intro _ | extract_lets | with_reducible apply State.writeOne_keeps
    | with_reducible apply State.wr_keeps | with_reducible apply KeepsNext.next

theorem State.suppressPair_keeps {z : State} (s : State) (die : Nat) (key : Nat) (h0 : Keeps z s) :
    Keeps z (State.suppressPair s die key) := by
  unfold State.suppressPair
  repeat' first
    | with_reducible assumption | extract_lets | fail_if_no_progress (with_reducible apply Keeps.upd)

theorem State.spreadAddr_keeps {z : State} (s : State) (die : Nat) (key : Nat) (hop : Nat) (h0 : Keeps z s) :
    Keeps z (State.spreadAddr s die key hop) := by
  unfold State.spreadAddr
  repeat' first
    | with_reducible assumption | extract_lets | fail_if_no_progress (with_reducible apply Keeps.upd)

theorem State.learnAt_keeps {z : State} (s : State) (die : Nat) (key : Nat) (hop : Nat) (h0 : Keeps z s) :
    Keeps z (State.learnAt s die key hop) := by
  unfold State.learnAt
  repeat' first
    | with_reducible assumption | extract_lets | with_reducible apply State.setAddrTab_keeps
    | with_reducible apply State.learnFull_keeps
    | (refine Keeps.snd_eq (by with_reducible assumption) ?_; with_reducible apply State.addrPut_keeps)
    | with_reducible apply Keeps.ite | split

theorem State.learnRecord_keeps {z : State} (s : State) (kind : Nat) (port : Nat) (vid : Nat) (mac : Nat) (old : Nat)
    (h0 : Keeps z s) :
    Keeps z (State.learnRecord s kind port vid mac old) := by
  unfold State.learnRecord
  repeat' first
    | with_reducible assumption | extract_lets | with_reducible apply State.bump_keeps
    | with_reducible apply State.raise_keeps | fail_if_no_progress (with_reducible apply Keeps.upd)
    | with_reducible apply Keeps.ite

theorem State.refreshAddr_keeps {z : State} (s : State) (die : Nat) (key : Nat) (h0 : Keeps z s) :
    Keeps z (State.refreshAddr s die key) := by
  unfold State.refreshAddr
  repeat' first
    | with_reducible assumption | with_reducible apply State.setAddrTab_keeps

theorem State.learn_keeps {z : State} (s : State) (port : Nat) (vid : Nat) (mac : Nat) (h0 : Keeps z s) :
    Keeps z (State.learn s port vid mac) := by
  unfold State.learn
  repeat' first
    | with_reducible assumption | extract_lets | with_reducible apply State.suppressPair_keeps
    | with_reducible apply State.spreadAddr_keeps | with_reducible apply State.learnAt_keeps
    | with_reducible apply State.bump_keeps | with_reducible apply State.learnRecord_keeps
    | with_reducible apply State.refreshAddr_keeps | with_reducible apply State.raiseLim_keeps
    | with_reducible apply Keeps.ite | split

theorem execPrefixApplied_keeps {z : State} (t0 : Time) (s : State) (h1 : Keeps z s) :
    KeepsNext z (execPrefixApplied t0 s) := by
  unfold execPrefixApplied
  repeat' first
    | with_reducible assumption | extract_lets | with_reducible apply State.finishPrefix_keeps
    | with_reducible apply State.begin_keeps | with_reducible apply KeepsNext.next

theorem State.learnDrop_keeps {z : State} (s : State) (h0 : Keeps z s) :
    Keeps z (State.learnDrop s) := by
  unfold State.learnDrop
  repeat' first
    | with_reducible assumption | extract_lets | fail_if_no_progress (with_reducible apply Keeps.upd)

theorem State.sendEth_keeps {z : State} (s : State) (p : Nat) (b : List Byte) (tc : Nat) (hop : Nat) (bridged : Bool)
    (h0 : Keeps z s) :
    Keeps z (State.sendEth s p b tc hop bridged) := by
  unfold State.sendEth
  repeat' first
    | with_reducible assumption | extract_lets | with_reducible apply State.bump_keeps | with_reducible apply State.drop_keeps
    | with_reducible apply State.forward_keeps
    | (refine Keeps.snd_eq (by with_reducible assumption) ?_; with_reducible apply State.resolveDetour_keeps)
    | with_reducible apply Keeps.ite | split

theorem State.routeEth_keeps {z : State} (s : State) (p : Nat) (vid : Nat) (b : List Byte) (tc : Nat) (h0 : Keeps z s) :
    Keeps z (State.routeEth s p vid b tc) := by
  unfold State.routeEth
  repeat' first
    | with_reducible assumption | extract_lets | with_reducible apply State.drop_keeps | with_reducible apply State.bump_keeps
    | with_reducible apply State.sendEth_keeps | with_reducible apply Keeps.ite | split | dsimp only | dsimp +zetaDelta only

theorem State.flood_keeps {z : State} (s : State) (p : Nat) (vid : Nat) (b : List Byte) (tc : Nat) (h0 : Keeps z s) :
    Keeps z (State.flood s p vid b tc) := by
  unfold State.flood
  repeat' first
    | with_reducible assumption | extract_lets | with_reducible apply State.bump_keeps | with_reducible apply State.drop_keeps
    | with_reducible apply State.multicast_keeps | with_reducible apply Keeps.ite

theorem State.bridge_keeps {z : State} (s : State) (p : Nat) (vid : Nat) (b : List Byte) (tc : Nat) (h0 : Keeps z s) :
    Keeps z (State.bridge s p vid b tc) := by
  unfold State.bridge
  repeat' first
    | with_reducible assumption | extract_lets | with_reducible apply State.flood_keeps
    | with_reducible apply State.sendEth_keeps | with_reducible apply State.refreshAddr_keeps | with_reducible apply Keeps.ite
    | split

theorem State.acceptEth_keeps {z : State} (s : State) (p : Nat) (b : List Byte) (staged : Nat) (h0 : Keeps z s) :
    Keeps z (State.acceptEth s p b staged) := by
  unfold State.acceptEth
  repeat' first
    | with_reducible assumption | extract_lets | with_reducible apply State.drop_keeps
    | with_reducible apply State.learn_keeps | with_reducible apply State.routeEth_keeps
    | with_reducible apply State.bridge_keeps
    | (refine Keeps.snd_eq (by with_reducible assumption) ?_; with_reducible apply State.police_keeps)
    | with_reducible apply Keeps.ite | split

theorem execEthFrameReceive_keeps {z : State} (t0 : Time) (port : Nat) (bytes : List Byte) (staged : Nat) (buffered : Nat)
    (upsets : List (Nat × Nat)) (s : State) (h6 : Keeps z s) :
    KeepsNext z (execEthFrameReceive t0 port bytes staged buffered upsets s) := by
  unfold execEthFrameReceive
  repeat' first
    | with_reducible assumption | extract_lets | with_reducible apply State.begin_keeps
    | with_reducible apply State.bump_keeps | with_reducible apply State.arrives_keeps | with_reducible apply State.drop_keeps
    | with_reducible apply State.failsCheck_keeps | with_reducible apply State.acceptEth_keeps
    | with_reducible apply State.roomy_keeps | with_reducible apply State.countEvent_keeps
    | with_reducible apply State.countFixed_keeps | with_reducible apply State.findUpsets_keeps
    | with_reducible apply KeepsNext.next | with_reducible apply Keeps.ite

theorem execLearnPop_keeps {z : State} (a : Access) (s : State) (h1 : Keeps z s) :
    KeepsNext z (execLearnPop a s) := by
  unfold execLearnPop
  repeat' first
    | with_reducible assumption | intro _ | extract_lets | with_reducible apply State.readOne_keeps
    | with_reducible apply State.learnDrop_keeps | with_reducible apply KeepsNext.next

theorem execLearnPropagate_keeps {z : State} (t0 : Time) (die : Nat) (vid : Nat) (mac : Nat) (hop : Nat) (s : State)
    (h5 : Keeps z s) :
    KeepsNext z (execLearnPropagate t0 die vid mac hop s) := by
  unfold execLearnPropagate
  repeat' first
    | with_reducible assumption | extract_lets | with_reducible apply State.begin_keeps
    | with_reducible apply State.learnAt_keeps | with_reducible apply KeepsNext.next
    | fail_if_no_progress (with_reducible apply Keeps.upd) | with_reducible apply Keeps.ite

theorem execAgeSweep_keeps {z : State} (t0 : Time) (die : Nat) (s : State) (h2 : Keeps z s) :
    KeepsNext z (execAgeSweep t0 die s) := by
  unfold execAgeSweep
  repeat' first
    | with_reducible assumption | extract_lets | with_reducible apply State.begin_keeps
    | with_reducible apply State.bump_keeps | with_reducible apply State.setAddrTab_keeps
    | with_reducible apply KeepsNext.next

theorem execParityScrub_keeps {z : State} (t0 : Time) (die : Nat) (found : List (Nat × Nat)) (s : State) (h3 : Keeps z s) :
    KeepsNext z (execParityScrub t0 die found s) := by
  unfold execParityScrub
  repeat' first
    | with_reducible assumption | extract_lets | with_reducible apply State.findUpsets_keeps
    | with_reducible apply State.begin_keeps | with_reducible apply KeepsNext.next

theorem execFilterRebuild_keeps {z : State} (t0 : Time) (die : Nat) (family : Nat) (index : Nat) (s : State)
    (h4 : Keeps z s) :
    KeepsNext z (execFilterRebuild t0 die family index s) := by
  unfold execFilterRebuild
  repeat' first
    | with_reducible assumption | extract_lets | with_reducible apply State.clearBad_keeps
    | with_reducible apply State.begin_keeps | with_reducible apply KeepsNext.next

end Sys2Proof.Machine
end

