-- ==== Sys2Proof/Laws/KeepsGroups.lean ====
section
/-!
SUPPORT. What each function keeps (`Keeps`): Parity rounds, members, completion and registrations.
-/
namespace Sys2Proof.Machine

theorem State.rebuildPage_keeps {z : State} (s : State) (c : Nat) (n : Nat) (x : Ctx) (chunk : Nat) (frames : List
    (List Byte)) (page : List Nat) (h0 : Keeps z s) :
    Keeps z (State.rebuildPage s c n x chunk frames page) := by
  unfold State.rebuildPage
  repeat' first
    | with_reducible assumption | intro _ | extract_lets | with_reducible apply State.wr_keeps
    | with_reducible apply State.modInst_keeps | with_reducible apply State.sendTo_keeps
    | fail_if_no_progress (with_reducible apply Keeps.upd) | with_reducible apply Keeps.foldl | with_reducible apply Keeps.ite
    | split

theorem State.setParity_keeps {z : State} (s : State) (p : Parity) (h0 : Keeps z s) :
    Keeps z (State.setParity s p) := by
  unfold State.setParity
  repeat' first
    | with_reducible assumption | extract_lets | fail_if_no_progress (with_reducible apply Keeps.upd)

theorem State.breakParity_keeps {z : State} (s : State) (op : Nat) (h0 : Keeps z s) :
    Keeps z (State.breakParity s op) := by
  unfold State.breakParity
  repeat' first
    | with_reducible assumption | intro _ | extract_lets | with_reducible apply State.raise_keeps
    | with_reducible apply State.setParity_keeps | with_reducible apply Keeps.foldl | with_reducible apply Keeps.ite | split

theorem State.sendPage_keeps {z : State} (s : State) (op : Nat) (inst : Nat) (r : Nat) (rank : Nat) (dest : Nat)
    (pass : Nat) (resent : Bool) (page : List Byte) (h0 : Keeps z s) :
    Keeps z (State.sendPage s op inst r rank dest pass resent page) := by
  unfold State.sendPage
  repeat' first
    | with_reducible assumption | with_reducible apply State.sendColl_keeps

theorem State.answerRebuild_keeps {z : State} (s : State) (src : Nat) (v : Nat) (h0 : Keeps z s) :
    Keeps z (State.answerRebuild s src v) := by
  unfold State.answerRebuild
  repeat' first
    | with_reducible assumption | extract_lets | with_reducible apply State.sendPage_keeps | with_reducible apply Keeps.ite
    | split

theorem State.sendParity_keeps {z : State} (s : State) (p : Parity) (dest : Nat) (kind : Nat) (ver : Nat) (h0 : Keeps z s) :
    Keeps z (State.sendParity s p dest kind ver) := by
  unfold State.sendParity
  repeat' first
    | with_reducible assumption | with_reducible apply State.sendPeer_keeps

theorem State.keepPage_keeps {z : State} (s : State) (p : Parity) (n : Nat) (chunk : Nat) (page : List Nat) (h0 : Keeps z s) :
    Keeps z (State.keepPage s p n chunk page) := by
  unfold State.keepPage
  repeat' first
    | with_reducible assumption | intro _ | extract_lets | with_reducible apply State.free_keeps
    | with_reducible apply State.setParity_keeps | with_reducible apply State.sendParity_keeps
    | with_reducible apply Keeps.foldl | with_reducible apply Keeps.ite | split

theorem State.parityResult_keeps {z : State} (s : State) (c : Nat) (n : Nat) (x : Ctx) (chunk : Nat) (frames : List
    (List Byte)) (payload : List Byte) (h0 : Keeps z s) :
    Keeps z (State.parityResult s c n x chunk frames payload) := by
  unfold State.parityResult
  repeat' first
    | with_reducible assumption | extract_lets | with_reducible apply State.keepPage_keeps
    | with_reducible apply State.rebuildPage_keeps | with_reducible apply Keeps.ite | split

theorem State.takePage_keeps {z : State} (s : State) (op : Nat) (chunk : Nat) (payload : List Byte) (h0 : Keeps z s) :
    Keeps z (State.takePage s op chunk payload) := by
  unfold State.takePage
  repeat' first
    | with_reducible assumption | extract_lets | fail_if_no_progress (with_reducible apply Keeps.upd)

theorem State.answerPage_keeps {z : State} (s : State) (src : Nat) (v : Nat) (h0 : Keeps z s) :
    Keeps z (State.answerPage s src v) := by
  unfold State.answerPage
  repeat' first
    | with_reducible assumption | extract_lets | with_reducible apply State.sendPage_keeps | with_reducible apply Keeps.ite
    | split

theorem State.startRounds_keeps {z : State} (s : State) (g : Graph) (h0 : Keeps z s) :
    Keeps z (State.startRounds s g) := by
  unfold State.startRounds
  repeat' first
    | with_reducible assumption | intro _ | extract_lets | with_reducible apply State.setParity_keeps
    | with_reducible apply State.sendPage_keeps | with_reducible apply Keeps.foldl | with_reducible apply Keeps.ite

theorem execWindowAnchor_keeps {z : State} (a : Access) (ctx : Nat) (value : Nat) (s : State) (h3 : Keeps z s) :
    KeepsNext z (execWindowAnchor a ctx value s) := by
  unfold execWindowAnchor
  repeat' first
    | with_reducible assumption | intro _ | extract_lets | with_reducible apply State.writeOne_keeps
    | with_reducible apply State.modCtx_keeps | with_reducible apply KeepsNext.next

theorem execTrapValid_keeps {z : State} (a : Access) (value : Nat) (s : State) (h2 : Keeps z s) :
    KeepsNext z (execTrapValid a value s) := by
  unfold execTrapValid
  repeat' first
    | with_reducible assumption | intro _ | extract_lets | with_reducible apply State.writeOne_keeps
    | with_reducible apply State.putValue_keeps | with_reducible apply KeepsNext.next

theorem execHomeQuery_keeps {z : State} (a : Access) (record : BitVec 128) (s : State) (h2 : Keeps z s) :
    KeepsNext z (execHomeQuery a record s) := by
  unfold execHomeQuery
  repeat' first
    | with_reducible assumption | intro _ | extract_lets | with_reducible apply State.writeOne_keeps
    | with_reducible apply State.wr_keeps | with_reducible apply KeepsNext.next

theorem execMemberQuery_keeps {z : State} (a : Access) (record : BitVec 256) (s : State) (h2 : Keeps z s) :
    KeepsNext z (execMemberQuery a record s) := by
  unfold execMemberQuery
  repeat' first
    | with_reducible assumption | intro _ | extract_lets | with_reducible apply State.writeOne_keeps
    | with_reducible apply State.wr_keeps | with_reducible apply KeepsNext.next

theorem execWeightQuery_keeps {z : State} (a : Access) (record : BitVec 192) (s : State) (h2 : Keeps z s) :
    KeepsNext z (execWeightQuery a record s) := by
  unfold execWeightQuery
  repeat' first
    | with_reducible assumption | intro _ | extract_lets | with_reducible apply State.writeOne_keeps
    | with_reducible apply State.wr_keeps | with_reducible apply KeepsNext.next

theorem State.takeCount_keeps {z : State} (s : State) (f : Cf) (v : Nat) (payload : List Byte) (h0 : Keeps z s) :
    Keeps z (State.takeCount s f v payload) := by
  unfold State.takeCount
  repeat' first
    | with_reducible assumption | extract_lets | with_reducible apply State.badColl_keeps
    | with_reducible apply State.bump_keeps | with_reducible apply State.refuse_keeps
    | with_reducible apply State.openInst_keeps | with_reducible apply State.takeVector_keeps | with_reducible apply Keeps.ite
    | split

theorem execCountResult_keeps {z : State} (t0 : Time) (f : Cf) (header : BitVec 384) (payload : List Byte) (s : State)
    (h4 : Keeps z s) :
    KeepsNext z (execCountResult t0 f header payload s) := by
  unfold execCountResult
  repeat' first
    | with_reducible assumption | extract_lets | with_reducible apply State.begin_keeps
    | with_reducible apply State.takeCount_keeps | with_reducible apply KeepsNext.next | with_reducible apply Keeps.ite

theorem State.lateRefusal_keeps {z : State} (s : State) (op : Nat) (n : Nat) (chunk : Nat) (src : Nat) (h0 : Keeps z s) :
    Keeps z (State.lateRefusal s op n chunk src) := by
  unfold State.lateRefusal
  repeat' first
    | with_reducible assumption | extract_lets | with_reducible apply State.raise_keeps
    | with_reducible apply State.bump_keeps

theorem State.takeRefuse_keeps {z : State} (s : State) (f : Cf) (v : Nat) (h0 : Keeps z s) :
    Keeps z (State.takeRefuse s f v) := by
  unfold State.takeRefuse
  repeat' first
    | with_reducible assumption | intro _ | extract_lets | with_reducible apply State.badColl_keeps
    | with_reducible apply State.bump_keeps | with_reducible apply State.lateRefusal_keeps
    | with_reducible apply State.abortHere_keeps | with_reducible apply State.setInst_keeps
    | with_reducible apply State.sendTo_keeps | with_reducible apply State.raise_keeps | with_reducible apply Keeps.foldl
    | with_reducible apply Keeps.ite | split

theorem execRefuseCheckFailed_keeps {z : State} (t0 : Time) (f : Cf) (header : BitVec 256) (s : State) (h3 : Keeps z s) :
    KeepsNext z (execRefuseCheckFailed t0 f header s) := by
  unfold execRefuseCheckFailed
  repeat' first
    | with_reducible assumption | extract_lets | with_reducible apply State.begin_keeps
    | with_reducible apply State.takeRefuse_keeps | with_reducible apply KeepsNext.next | with_reducible apply Keeps.ite

theorem State.memberFrame_keeps {z : State} (s : State) (f : Cf) (kind : Nat) (v : Nat)
    (act : State → Nat → Ctx → Nat → State) (h0 : Keeps z s) (h4 : ∀ y0 y1 y2 y3, Keeps z y0 → Keeps z (act y0 y1 y2 y3)) :
    Keeps z (State.memberFrame s f kind v act) := by
  unfold State.memberFrame
  repeat' first
    | with_reducible assumption | with_reducible apply h4 | extract_lets | with_reducible apply State.badColl_keeps
    | with_reducible apply State.refuse_keeps | with_reducible apply State.bump_keeps
    | with_reducible apply State.openInst_keeps | with_reducible apply Keeps.ite | split

theorem execBeacon_keeps {z : State} (t0 : Time) (f : Cf) (header : BitVec 256) (s : State) (h3 : Keeps z s) :
    KeepsNext z (execBeacon t0 f header s) := by
  unfold execBeacon
  repeat' first
    | with_reducible assumption | intro _ | extract_lets | with_reducible apply State.memberFrame_keeps
    | with_reducible apply State.begin_keeps | with_reducible apply State.progress_keeps | with_reducible apply KeepsNext.next

theorem execThrottle_keeps {z : State} (t0 : Time) (f : Cf) (header : BitVec 256) (s : State) (h3 : Keeps z s) :
    KeepsNext z (execThrottle t0 f header s) := by
  unfold execThrottle
  repeat' first
    | with_reducible assumption | intro _ | extract_lets | with_reducible apply State.memberFrame_keeps
    | with_reducible apply State.begin_keeps | with_reducible apply State.progress_keeps | with_reducible apply KeepsNext.next

theorem execMemberAbort_keeps {z : State} (t0 : Time) (f : Cf) (header : BitVec 256) (s : State) (h3 : Keeps z s) :
    KeepsNext z (execMemberAbort t0 f header s) := by
  unfold execMemberAbort
  repeat' first
    | with_reducible assumption | intro _ | extract_lets | with_reducible apply State.memberFrame_keeps
    | with_reducible apply State.begin_keeps | with_reducible apply State.abortHere_keeps
    | with_reducible apply KeepsNext.next

theorem State.takeDone_keeps {z : State} (s : State) (f : Cf) (v : Nat) (h0 : Keeps z s) :
    Keeps z (State.takeDone s f v) := by
  unfold State.takeDone
  repeat' first
    | with_reducible assumption | extract_lets | with_reducible apply State.badColl_keeps
    | with_reducible apply State.bump_keeps | with_reducible apply State.refuse_keeps
    | with_reducible apply State.openInst_keeps | with_reducible apply State.settle_keeps
    | with_reducible apply State.sendTally_keeps | with_reducible apply State.setInst_keeps | with_reducible apply Keeps.ite
    | split

theorem execDone_keeps {z : State} (t0 : Time) (f : Cf) (header : BitVec 256) (s : State) (h3 : Keeps z s) :
    KeepsNext z (execDone t0 f header s) := by
  unfold execDone
  repeat' first
    | with_reducible assumption | extract_lets | with_reducible apply State.begin_keeps
    | with_reducible apply State.takeDone_keeps | with_reducible apply KeepsNext.next | with_reducible apply Keeps.ite

theorem State.takeOther_keeps {z : State} (s : State) (f : Cf) (body : List Byte) (h0 : Keeps z s) :
    Keeps z (State.takeOther s f body) := by
  unfold State.takeOther
  repeat' first
    | with_reducible assumption | extract_lets | with_reducible apply State.badColl_keeps
    | with_reducible apply State.takePage_keeps | with_reducible apply State.refuse_keeps
    | with_reducible apply State.bump_keeps | with_reducible apply State.answerPage_keeps
    | with_reducible apply State.answerRebuild_keeps | with_reducible apply Keeps.ite

theorem execCollectiveMisdirected_keeps {z : State} (t0 : Time) (f : Cf) (body : List Byte) (s : State) (h3 : Keeps z s) :
    KeepsNext z (execCollectiveMisdirected t0 f body s) := by
  unfold execCollectiveMisdirected
  repeat' first
    | with_reducible assumption | extract_lets | with_reducible apply State.takeOther_keeps
    | with_reducible apply State.begin_keeps | with_reducible apply KeepsNext.next

theorem execTallyDeadline_keeps {z : State} (t0 : Time) (op : Nat) (inst : Nat) (s : State) (h3 : Keeps z s) :
    KeepsNext z (execTallyDeadline t0 op inst s) := by
  unfold execTallyDeadline
  repeat' first
    | with_reducible assumption | extract_lets | with_reducible apply State.begin_keeps
    | with_reducible apply State.bump_keeps | with_reducible apply State.setInst_keeps
    | with_reducible apply State.sendTally_keeps | with_reducible apply State.settle_keeps
    | with_reducible apply State.raise_keeps | with_reducible apply KeepsNext.next | with_reducible apply Keeps.ite | split

theorem execExchangeCompletion_keeps {z : State} (t0 : Time) (p : Peer) (body : List Byte) (s : State) (h3 : Keeps z s) :
    KeepsNext z (execExchangeCompletion t0 p body s) := by
  unfold execExchangeCompletion
  repeat' first
    | with_reducible assumption | extract_lets | with_reducible apply State.begin_keeps
    | with_reducible apply State.openInst_keeps | with_reducible apply State.tryComplete_keeps
    | with_reducible apply State.setInst_keeps
    | (refine Keeps.snd_eq (by with_reducible assumption) ?_; with_reducible apply State.peerAccept_keeps)
    | with_reducible apply KeepsNext.next | with_reducible apply Keeps.ite | split

theorem execCompleteSend_keeps {z : State} (t0 : Time) (op : Nat) (inst : Nat) (s : State) (h3 : Keeps z s) :
    KeepsNext z (execCompleteSend t0 op inst s) := by
  unfold execCompleteSend
  repeat' first
    | with_reducible assumption | intro _ | extract_lets | with_reducible apply State.begin_keeps
    | with_reducible apply State.returnSpill_keeps | with_reducible apply State.setInst_keeps
    | with_reducible apply State.settle_keeps | with_reducible apply State.sendMembers_keeps
    | with_reducible apply KeepsNext.next | with_reducible apply Keeps.foldl | with_reducible apply Keeps.ite | split

theorem execAbortRelay_keeps {z : State} (t0 : Time) (p : Peer) (body : List Byte) (s : State) (h3 : Keeps z s) :
    KeepsNext z (execAbortRelay t0 p body s) := by
  unfold execAbortRelay
  repeat' first
    | with_reducible assumption | extract_lets | with_reducible apply State.begin_keeps
    | with_reducible apply State.openInst_keeps | with_reducible apply State.abortInst_keeps
    | (refine Keeps.snd_eq (by with_reducible assumption) ?_; with_reducible apply State.peerAccept_keeps)
    | with_reducible apply KeepsNext.next | with_reducible apply Keeps.ite | split

theorem execStallTentative_keeps {z : State} (t0 : Time) (op : Nat) (inst : Nat) (rank : Nat) (s : State) (h4 : Keeps z s) :
    KeepsNext z (execStallTentative t0 op inst rank s) := by
  unfold execStallTentative
  repeat' first
    | with_reducible assumption | extract_lets | with_reducible apply State.begin_keeps
    | with_reducible apply State.bump_keeps | with_reducible apply State.setInst_keeps | with_reducible apply KeepsNext.next
    | with_reducible apply Keeps.ite | split

theorem execStallSettle_keeps {z : State} (t0 : Time) (op : Nat) (inst : Nat) (s : State) (h3 : Keeps z s) :
    KeepsNext z (execStallSettle t0 op inst s) := by
  unfold execStallSettle
  repeat' first
    | with_reducible assumption | intro _ | extract_lets | with_reducible apply State.begin_keeps
    | with_reducible apply State.bump_keeps | with_reducible apply State.setInst_keeps
    | with_reducible apply State.abortHere_keeps | with_reducible apply State.raise_keeps
    | with_reducible apply KeepsNext.next | with_reducible apply Keeps.foldl | with_reducible apply Keeps.ite | split
    | dsimp only | dsimp +zetaDelta only

theorem execSlotCountPublish_keeps {z : State} (t0 : Time) (die : Nat) (s : State) (h2 : Keeps z s) :
    KeepsNext z (execSlotCountPublish t0 die s) := by
  unfold execSlotCountPublish
  repeat' first
    | with_reducible assumption | extract_lets | with_reducible apply State.begin_keeps | with_reducible apply KeepsNext.next
    | fail_if_no_progress (with_reducible apply Keeps.upd)

theorem execSpillCopyDone_keeps {z : State} (t0 : Time) (op : Nat) (inst : Nat) (phase : Nat) (chunk : Nat) (s : State)
    (h5 : Keeps z s) :
    KeepsNext z (execSpillCopyDone t0 op inst phase chunk s) := by
  unfold execSpillCopyDone
  repeat' first
    | with_reducible assumption | intro _ | extract_lets | with_reducible apply State.begin_keeps
    | with_reducible apply State.setChunk_keeps | with_reducible apply State.freeSlot_keeps
    | with_reducible apply KeepsNext.next | with_reducible apply Keeps.foldl | with_reducible apply Keeps.ite | split

theorem State.bypassMsg_keeps {z : State} (s : State) (p : Peer) (body : List Byte) (kind : Nat)
    (act : State → Nat → Ctx → Inst → Chunk → State) (h0 : Keeps z s) (h4 : ∀ y0 y1 y2 y3 y4, Keeps z y0 → Keeps z
    (act y0 y1 y2 y3 y4)) :
    Keeps z (State.bypassMsg s p body kind act) := by
  unfold State.bypassMsg
  repeat' first
    | with_reducible assumption | with_reducible apply h4 | extract_lets
    | (refine Keeps.snd_eq (by with_reducible assumption) ?_; with_reducible apply State.peerAccept_keeps)
    | with_reducible apply Keeps.ite | split

theorem execBypassRefused_keeps {z : State} (t0 : Time) (p : Peer) (body : List Byte) (s : State) (h3 : Keeps z s) :
    KeepsNext z (execBypassRefused t0 p body s) := by
  unfold execBypassRefused
  repeat' first
    | with_reducible assumption | intro _ | extract_lets | with_reducible apply State.bypassMsg_keeps
    | with_reducible apply State.begin_keeps | with_reducible apply State.raise_keeps
    | with_reducible apply State.endChunk_keeps | with_reducible apply State.modInst_keeps
    | with_reducible apply State.deferChunk_keeps | with_reducible apply KeepsNext.next | split

theorem execBypassEmitted_keeps {z : State} (t0 : Time) (p : Peer) (body : List Byte) (s : State) (h3 : Keeps z s) :
    KeepsNext z (execBypassEmitted t0 p body s) := by
  unfold execBypassEmitted
  repeat' first
    | with_reducible assumption | intro _ | extract_lets | with_reducible apply State.bypassMsg_keeps
    | with_reducible apply State.begin_keeps | with_reducible apply State.endChunk_keeps
    | with_reducible apply State.tryComplete_keeps | with_reducible apply State.modInst_keeps
    | with_reducible apply KeepsNext.next

theorem execBypassRecompute_keeps {z : State} (t0 : Time) (p : Peer) (body : List Byte) (s : State) (h3 : Keeps z s) :
    KeepsNext z (execBypassRecompute t0 p body s) := by
  unfold execBypassRecompute
  repeat' first
    | with_reducible assumption | intro _ | extract_lets | with_reducible apply State.bypassMsg_keeps
    | with_reducible apply State.begin_keeps | with_reducible apply State.request_keeps
    | with_reducible apply State.setChunk_keeps | with_reducible apply KeepsNext.next

theorem execBypassRestart_keeps {z : State} (t0 : Time) (p : Peer) (body : List Byte) (s : State) (h3 : Keeps z s) :
    KeepsNext z (execBypassRestart t0 p body s) := by
  unfold execBypassRestart
  repeat' first
    | with_reducible assumption | intro _ | extract_lets | with_reducible apply State.bypassMsg_keeps
    | with_reducible apply State.begin_keeps | with_reducible apply State.stopCopy_keeps
    | with_reducible apply State.setChunk_keeps | with_reducible apply KeepsNext.next | with_reducible apply Keeps.ite

theorem State.ringWrite_keeps {z : State} (s : State) (r : BitVec 640) (h0 : Keeps z s) :
    Keeps z (State.ringWrite s r) := by
  unfold State.ringWrite
  repeat' first
    | with_reducible assumption | extract_lets | with_reducible apply State.wr_keeps | with_reducible apply State.bump_keeps
    | with_reducible apply State.raise_keeps | fail_if_no_progress (with_reducible apply Keeps.upd)
    | with_reducible apply Keeps.ite

theorem State.sendRecord_keeps {z : State} (s : State) (c : Nat) (n : Nat) (x : Ctx) (i : Inst) (k : Chunk) (r : BitVec 640)
    (h0 : Keeps z s) :
    Keeps z (State.sendRecord s c n x i k r) := by
  unfold State.sendRecord
  repeat' first
    | with_reducible assumption | intro _ | extract_lets | with_reducible apply State.sendMembers_keeps
    | with_reducible apply State.sendTo_keeps | with_reducible apply Keeps.foldl | with_reducible apply Keeps.ite

theorem State.emitRecord_keeps {z : State} (s : State) (die : Nat) (h0 : Keeps z s) :
    Keeps z (State.emitRecord s die) := by
  unfold State.emitRecord
  repeat' first
    | with_reducible assumption | extract_lets | with_reducible apply State.ringWrite_keeps
    | with_reducible apply State.parityResult_keeps | with_reducible apply State.sendResult_keeps
    | with_reducible apply State.sendRecord_keeps | with_reducible apply State.raiseTo_keeps
    | with_reducible apply State.setChunk_keeps | with_reducible apply State.endChunk_keeps
    | with_reducible apply State.resultHeld_keeps | with_reducible apply State.sendBypass_keeps
    | with_reducible apply State.takeVector_keeps | with_reducible apply State.chunkDone_keeps
    | fail_if_no_progress (with_reducible apply Keeps.upd) | with_reducible apply Keeps.ite | split

theorem State.noteMismatch_keeps {z : State} (s : State) (op : Nat) (n : Nat) (k : Chunk) (h0 : Keeps z s) :
    Keeps z (State.noteMismatch s op n k) := by
  unfold State.noteMismatch
  repeat' first
    | with_reducible assumption | extract_lets | with_reducible apply State.raise_keeps
    | with_reducible apply State.bump_keeps | with_reducible apply State.countEvent_keeps
    | fail_if_no_progress (with_reducible apply Keeps.upd)

theorem State.mismatch_keeps {z : State} (s : State) (c : Nat) (n : Nat) (x : Ctx) (i : Inst) (k : Chunk) (h0 : Keeps z s) :
    Keeps z (State.mismatch s c n x i k) := by
  unfold State.mismatch
  repeat' first
    | with_reducible assumption | extract_lets | with_reducible apply State.noteMismatch_keeps
    | with_reducible apply State.abortHere_keeps | with_reducible apply State.raise_keeps
    | with_reducible apply State.bump_keeps | with_reducible apply State.recompute_keeps | with_reducible apply Keeps.ite

theorem State.complete_keeps {z : State} (s : State) (c : Nat) (n : Nat) (x : Ctx) (i : Inst) (k : Chunk) (ups : List
    (Nat × Nat)) (bad : Nat) (h0 : Keeps z s) :
    Keeps z (State.complete s c n x i k ups bad) := by
  unfold State.complete
  repeat' first
    | with_reducible assumption | extract_lets | with_reducible apply State.raiseLim_keeps
    | with_reducible apply State.mismatch_keeps | with_reducible apply State.raise_keeps
    | with_reducible apply State.bump_keeps | with_reducible apply State.modInst_keeps
    | with_reducible apply State.seeFlags_keeps | with_reducible apply State.countEvent_keeps
    | with_reducible apply State.setChunk_keeps | fail_if_no_progress (with_reducible apply Keeps.upd)
    | with_reducible apply Keeps.ite

theorem State.holdReg_keeps {z : State} (s : State) (op : Nat) (rec_2 : List Byte) (h0 : Keeps z s) :
    Keeps z (State.holdReg s op rec_2).2 := by
  unfold State.holdReg
  repeat' first
    | with_reducible assumption | extract_lets | with_reducible apply State.raise_keeps
    | with_reducible apply State.useSpill_keeps | with_reducible apply State.setCtx_keeps | with_reducible apply Keeps.ite2

theorem State.commitReg_keeps {z : State} (s : State) (op : Nat) (h0 : Keeps z s) :
    Keeps z (State.commitReg s op) := by
  unfold State.commitReg
  repeat' first
    | with_reducible assumption | extract_lets | with_reducible apply State.setCtx_keeps
    | with_reducible apply State.raise_keeps | with_reducible apply State.wr_keeps | split

theorem State.releaseReg_keeps {z : State} (s : State) (op : Nat) (h0 : Keeps z s) :
    Keeps z (State.releaseReg s op) := by
  unfold State.releaseReg
  repeat' first
    | with_reducible assumption | extract_lets | with_reducible apply State.freeCtx_keeps | with_reducible apply Keeps.ite
    | split

theorem State.reportReg_keeps {z : State} (s : State) (op : Nat) (first : Nat) (code : Nat) (gei : Nat) (reply : Nat)
    (h0 : Keeps z s) :
    Keeps z (State.reportReg s op first code gei reply) := by
  unfold State.reportReg
  repeat' first
    | with_reducible assumption | extract_lets | with_reducible apply State.wr_keeps
    | with_reducible apply State.sendColl_keeps | with_reducible apply State.raise_keeps | with_reducible apply Keeps.ite

theorem regPhase_keeps (op : Nat) (rec_1 : List Byte) (reply : Nat) :
    KeepsPhase (regPhase op rec_1 reply) := by
  unfold regPhase
  repeat' first
    | with_reducible apply KeepsPhase.mk | with_reducible assumption | intro _ | extract_lets
    | with_reducible apply State.holdReg_keeps | with_reducible apply State.commitReg_keeps
    | with_reducible apply State.releaseReg_keeps | with_reducible apply State.reportReg_keeps

theorem State.firstVer_keeps {z : State} (s : State) (x : Ctx) (gei : Nat) (h0 : Keeps z s) :
    Keeps z (State.firstVer s x gei).2 := by
  unfold State.firstVer
  repeat' first
    | with_reducible assumption | extract_lets | with_reducible apply State.free_keeps | with_reducible apply Keeps.ite2

theorem State.commitExclude_keeps {z : State} (s : State) (op : Nat) (gei : Nat) (h0 : Keeps z s) :
    Keeps z (State.commitExclude s op gei) := by
  unfold State.commitExclude
  repeat' first
    | with_reducible assumption | extract_lets | with_reducible apply State.firstVer_keeps
    | with_reducible apply State.setCtx_keeps | with_reducible apply State.breakParity_keeps
    | with_reducible apply State.gainLost_keeps | with_reducible apply State.raise_keeps
    | with_reducible apply State.settle_keeps | with_reducible apply Keeps.ite | split

theorem excludePhase_keeps (op : Nat) (gei : Nat) :
    KeepsPhase (excludePhase op gei) := by
  unfold excludePhase
  repeat' first
    | with_reducible apply KeepsPhase.mk | with_reducible assumption | intro _ | extract_lets
    | with_reducible apply State.commitExclude_keeps | with_reducible apply State.wr_keeps

theorem State.holdDereg_keeps {z : State} (s : State) (op : Nat) (h0 : Keeps z s) :
    Keeps z (State.holdDereg s op).2 := by
  unfold State.holdDereg
  repeat' first
    | with_reducible assumption | with_reducible apply State.modCtx_keeps | split

theorem State.endOp_keeps {z : State} (s : State) (c : Nat) (reason : Nat) (h0 : Keeps z s) :
    Keeps z (State.endOp s c reason) := by
  unfold State.endOp
  repeat' first
    | with_reducible assumption | intro _ | extract_lets | with_reducible apply State.abortHere_keeps
    | with_reducible apply State.freeCtx_keeps | with_reducible apply Keeps.foldl | with_reducible apply Keeps.ite | split

theorem State.deregister_keeps {z : State} (s : State) (c : Nat) (reason : Nat) (x : Ctx) (h0 : Keeps z s) :
    Keeps z (State.deregister s c reason x) := by
  unfold State.deregister
  repeat' first
    | with_reducible assumption | extract_lets | with_reducible apply State.raise_keeps
    | with_reducible apply State.endOp_keeps

theorem State.commitDereg_keeps {z : State} (s : State) (op : Nat) (h0 : Keeps z s) :
    Keeps z (State.commitDereg s op) := by
  unfold State.commitDereg
  repeat' first
    | with_reducible assumption | with_reducible apply State.deregister_keeps | split

theorem State.releaseDereg_keeps {z : State} (s : State) (op : Nat) (h0 : Keeps z s) :
    Keeps z (State.releaseDereg s op) := by
  unfold State.releaseDereg
  repeat' first
    | with_reducible assumption | with_reducible apply State.modCtx_keeps | split

theorem deregPhase_keeps (op : Nat) :
    KeepsPhase (deregPhase op) := by
  unfold deregPhase
  repeat' first
    | with_reducible apply KeepsPhase.mk | with_reducible assumption | intro _ | extract_lets
    | with_reducible apply State.holdDereg_keeps | with_reducible apply State.commitDereg_keeps
    | with_reducible apply State.releaseDereg_keeps | with_reducible apply State.wr_keeps

theorem State.startReg_keeps {z : State} (s : State) (op : Nat) (rec_2 : List Byte) (reply : Nat) (h0 : Keeps z s) :
    Keeps z (State.startReg s op rec_2 reply) := by
  unfold State.startReg
  repeat' first
    | with_reducible assumption | extract_lets | with_reducible apply State.startLed_keeps
    | with_reducible apply regPhase_keeps

theorem execRegister_keeps {z : State} (a : Access) (record : List Byte) (s : State) (h2 : Keeps z s) :
    KeepsNext z (execRegister a record s) := by
  unfold execRegister
  repeat' first
    | with_reducible assumption | intro _ | extract_lets | with_reducible apply State.writeWith_keeps
    | with_reducible apply State.reportReg_keeps | with_reducible apply State.startReg_keeps
    | with_reducible apply State.wr_keeps | with_reducible apply KeepsNext.next

theorem execDeregister_keeps {z : State} (a : Access) (op : Nat) (s : State) (h2 : Keeps z s) :
    KeepsNext z (execDeregister a op s) := by
  unfold execDeregister
  repeat' first
    | with_reducible assumption | intro _ | extract_lets | with_reducible apply State.writeOne_keeps
    | with_reducible apply State.startLed_keeps | with_reducible apply State.wr_keeps | with_reducible apply deregPhase_keeps
    | with_reducible apply KeepsNext.next

theorem execHsetExclude_keeps {z : State} (a : Access) (record : BitVec 64) (s : State) (h2 : Keeps z s) :
    KeepsNext z (execHsetExclude a record s) := by
  unfold execHsetExclude
  repeat' first
    | with_reducible assumption | intro _ | extract_lets | with_reducible apply State.writeOne_keeps
    | with_reducible apply State.startLed_keeps | with_reducible apply State.wr_keeps
    | with_reducible apply excludePhase_keeps | with_reducible apply KeepsNext.next

theorem execRegisterFrame_keeps {z : State} (t0 : Time) (f : Cf) (header : BitVec 256) (record : List Byte) (s : State)
    (h4 : Keeps z s) :
    KeepsNext z (execRegisterFrame t0 f header record s) := by
  unfold execRegisterFrame
  repeat' first
    | with_reducible assumption | extract_lets | with_reducible apply State.begin_keeps
    | with_reducible apply State.badColl_keeps | with_reducible apply State.startReg_keeps
    | with_reducible apply State.reportReg_keeps | with_reducible apply KeepsNext.next | with_reducible apply Keeps.ite

end Sys2Proof.Machine
end

