-- ==== Sys2Proof/Laws/KeepsGraph.lean ====
section
/-!
SUPPORT. What each function keeps (`Keeps`): Graphs, tensors, matrices and parity groups.
-/
namespace Sys2Proof.Machine

theorem State.holdTensor_keeps {z : State} (s : State) (v : Nat) (h0 : Keeps z s) :
    Keeps z (State.holdTensor s v).2 := by
  unfold State.holdTensor
  repeat' first
    | with_reducible assumption | extract_lets | with_reducible apply State.setTensor_keeps | with_reducible apply Keeps.ite2

theorem State.commitTensor_keeps {z : State} (s : State) (h1 : Nat) (h0 : Keeps z s) :
    Keeps z (State.commitTensor s h1) := by
  unfold State.commitTensor
  repeat' first
    | with_reducible assumption | with_reducible apply State.setTensor_keeps | split

theorem State.dropTensor_keeps {z : State} (s : State) (h1 : Nat) (h0 : Keeps z s) :
    Keeps z (State.dropTensor s h1) := by
  unfold State.dropTensor
  repeat' first
    | with_reducible assumption | extract_lets | fail_if_no_progress (with_reducible apply Keeps.upd)

theorem State.releaseTensor_keeps {z : State} (s : State) (h1 : Nat) (h0 : Keeps z s) :
    Keeps z (State.releaseTensor s h1) := by
  unfold State.releaseTensor
  repeat' first
    | with_reducible assumption | extract_lets | with_reducible apply State.dropTensor_keeps | with_reducible apply Keeps.ite
    | split

theorem tensorPhase_keeps (v : Nat) :
    KeepsPhase (tensorPhase v) := by
  unfold tensorPhase
  repeat' first
    | with_reducible apply KeepsPhase.mk | with_reducible assumption | intro _ | extract_lets
    | with_reducible apply State.holdTensor_keeps | with_reducible apply State.commitTensor_keeps
    | with_reducible apply State.releaseTensor_keeps | with_reducible apply State.wr_keeps

theorem destroyPhase_keeps (h0 : Nat) :
    KeepsPhase (destroyPhase h0) := by
  unfold destroyPhase
  repeat' first
    | with_reducible apply KeepsPhase.mk | with_reducible assumption | intro _ | extract_lets
    | with_reducible apply State.dropTensor_keeps | with_reducible apply State.wr_keeps | with_reducible apply Keeps.of_id

theorem State.holdGraph_keeps {z : State} (s : State) (b : List Byte) (h0 : Keeps z s) :
    Keeps z (State.holdGraph s b).2 := by
  unfold State.holdGraph
  repeat' first
    | with_reducible assumption | extract_lets | with_reducible apply State.setGraph_keeps | with_reducible apply Keeps.ite2
    | split

theorem State.holdOwn_keeps {z : State} (s : State) (r : Reg) (h0 : Keeps z s) :
    Keeps z (State.holdOwn s r).2 := by
  unfold State.holdOwn
  repeat' first
    | with_reducible assumption | extract_lets | with_reducible apply State.setCtx_keeps
    | with_reducible apply State.useSpill_keeps | with_reducible apply Keeps.ite2

theorem State.renewParity_keeps {z : State} (s : State) (which : Parity → Bool) (h0 : Keeps z s) :
    Keeps z (State.renewParity s which) := by
  unfold State.renewParity
  repeat' first
    | with_reducible assumption | intro _ | extract_lets | with_reducible apply State.commitReg_keeps
    | (refine Keeps.snd_eq (by with_reducible assumption) ?_; with_reducible apply State.holdOwn_keeps)
    | with_reducible apply Keeps.foldl | with_reducible apply Keeps.ite | split

theorem State.commitGraph_keeps {z : State} (s : State) (id1 : Nat) (h0 : Keeps z s) :
    Keeps z (State.commitGraph s id1) := by
  unfold State.commitGraph
  repeat' first
    | with_reducible assumption | intro _ | extract_lets | with_reducible apply State.renewParity_keeps
    | with_reducible apply State.setTensor_keeps
    | with_reducible apply State.raise_keeps | with_reducible apply State.wr_keeps | with_reducible apply State.setGraph_keeps
    | with_reducible apply Keeps.foldl | split

theorem State.releaseGraph_keeps {z : State} (s : State) (id1 : Nat) (h0 : Keeps z s) :
    Keeps z (State.releaseGraph s id1) := by
  unfold State.releaseGraph
  repeat' first
    | with_reducible assumption | extract_lets | with_reducible apply State.dropGraph_keeps | with_reducible apply Keeps.ite
    | split

theorem State.reportGraph_keeps {z : State} (s : State) (id1 : Nat) (code : Nat) (gei : Nat) (h0 : Keeps z s) :
    Keeps z (State.reportGraph s id1 code gei) := by
  unfold State.reportGraph
  repeat' first
    | with_reducible assumption | extract_lets | with_reducible apply State.wr_keeps | with_reducible apply State.raise_keeps
    | with_reducible apply Keeps.ite

theorem graphPhase_keeps (b : List Byte) :
    KeepsPhase (graphPhase b) := by
  unfold graphPhase
  repeat' first
    | with_reducible apply KeepsPhase.mk | with_reducible assumption | intro _ | extract_lets
    | with_reducible apply State.holdGraph_keeps | with_reducible apply State.commitGraph_keeps
    | with_reducible apply State.releaseGraph_keeps | with_reducible apply State.reportGraph_keeps

theorem State.freeHeld_keeps {z : State} (s : State) (op : Nat) (inst : Nat) (chunk : Nat) (h0 : Keeps z s) :
    Keeps z (State.freeHeld s op inst chunk) := by
  unfold State.freeHeld
  repeat' first
    | with_reducible assumption | extract_lets | with_reducible apply State.endChunk_keeps | with_reducible apply Keeps.ite
    | split

theorem State.freeAllHeld_keeps {z : State} (s : State) (op : Nat) (inst : Nat) (h0 : Keeps z s) :
    Keeps z (State.freeAllHeld s op inst) := by
  unfold State.freeAllHeld
  repeat' first
    | with_reducible assumption | intro _ | extract_lets | with_reducible apply State.settle_keeps
    | with_reducible apply State.endChunk_keeps | with_reducible apply Keeps.foldl | split

theorem State.failRun_keeps {z : State} (s : State) (n : Nat) (cause : Nat) (node : Nat) (h0 : Keeps z s) :
    Keeps z (State.failRun s n cause node) := by
  unfold State.failRun
  repeat' first
    | with_reducible assumption | extract_lets | with_reducible apply State.freeAllHeld_keeps
    | with_reducible apply State.stopRun_keeps | split

theorem State.tellLost_keeps {z : State} (s : State) (h1 : Nat) (ks : List Nat) (h0 : Keeps z s) :
    Keeps z (State.tellLost s h1 ks) := by
  unfold State.tellLost
  repeat' first
    | with_reducible assumption | intro _ | extract_lets | with_reducible apply State.raise_keeps
    | with_reducible apply Keeps.foldl

theorem State.failNode_keeps {z : State} (s : State) (n : Nat) (node : Nat) (code : Nat) (h0 : Keeps z s) :
    Keeps z (State.failNode s n node code) := by
  unfold State.failNode
  repeat' first
    | with_reducible assumption | extract_lets | with_reducible apply State.sendFence_keeps
    | with_reducible apply State.failRun_keeps | with_reducible apply State.wr_keeps | with_reducible apply Keeps.ite | split
    | dsimp +zetaDelta only

theorem State.faultNode_keeps {z : State} (s : State) (n : Nat) (node : Nat) (code : Nat) (src : Nat) (items : List Item)
    (h0 : Keeps z s) :
    Keeps z (State.faultNode s n node code src items) := by
  unfold State.faultNode
  repeat' first
    | with_reducible assumption | extract_lets | with_reducible apply State.failNode_keeps
    | with_reducible apply State.raise_keeps | split

theorem State.noteEligible_keeps {z : State} (s : State) (h0 : Keeps z s) :
    Keeps z (State.noteEligible s) := by
  unfold State.noteEligible
  repeat' first
    | with_reducible assumption | extract_lets | fail_if_no_progress (with_reducible apply Keeps.upd)

theorem execColophonEmit_keeps {z : State} (t0 : Time) (die : Nat) (s : State) (h2 : Keeps z s) :
    KeepsNext z (execColophonEmit t0 die s) := by
  unfold execColophonEmit
  repeat' first
    | with_reducible assumption | extract_lets | with_reducible apply State.noteEligible_keeps
    | with_reducible apply State.emitRecord_keeps | with_reducible apply State.begin_keeps
    | with_reducible apply KeepsNext.next

theorem State.moveVersion_keeps {z : State} (s : State) (g : Graph) (ver : Nat) (h0 : Keeps z s) :
    Keeps z (State.moveVersion s g ver) := by
  unfold State.moveVersion
  repeat' first
    | with_reducible assumption | intro _ | extract_lets | with_reducible apply State.tellLost_keeps
    | with_reducible apply State.setTensor_keeps | with_reducible apply Keeps.foldl | split

theorem State.tryCommit_keeps {z : State} (s : State) (n : Nat) (h0 : Keeps z s) :
    Keeps z (State.tryCommit s n) := by
  unfold State.tryCommit
  repeat' first
    | with_reducible assumption | extract_lets | with_reducible apply State.free_keeps
    | with_reducible apply State.failRun_keeps | with_reducible apply State.tellParity_keeps
    | with_reducible apply State.moveVersion_keeps | with_reducible apply State.raise_keeps
    | with_reducible apply State.bump_keeps | with_reducible apply State.setGraph_keeps
    | with_reducible apply State.passSkipped_keeps | with_reducible apply State.refill_keeps
    | with_reducible apply State.freeAllHeld_keeps | with_reducible apply Keeps.ite | split

theorem State.touchEngine_keeps {z : State} (s : State) (q : Nat) (h0 : Keeps z s) :
    Keeps z (State.touchEngine s q) := by
  unfold State.touchEngine
  repeat' first
    | with_reducible assumption | extract_lets | fail_if_no_progress (with_reducible apply Keeps.upd)

theorem State.engineOn_keeps {z : State} (s : State) (q : Nat) (h0 : Keeps z s) :
    Keeps z (State.engineOn s q) := by
  unfold State.engineOn
  repeat' first
    | with_reducible assumption | extract_lets | with_reducible apply State.touchEngine_keeps
    | with_reducible apply State.wr_keeps | with_reducible apply Keeps.ite

theorem State.doPublish_keeps {z : State} (s : State) (n : Nat) (node : Nat) (k : Nat) (g : Graph) (p : Pub) (x : GNode)
    (h0 : Keeps z s) :
    Keeps z (State.doPublish s n node k g p x) := by
  unfold State.doPublish
  repeat' first
    | with_reducible assumption | extract_lets | with_reducible apply State.multicast_keeps
    | with_reducible apply State.bump_keeps | with_reducible apply State.modGraph_keeps | with_reducible apply Keeps.ite
    | split

theorem State.closeStripe_keeps {z : State} (s : State) (n : Nat) (node : Nat) (k : Nat) (h0 : Keeps z s) :
    Keeps z (State.closeStripe s n node k) := by
  unfold State.closeStripe
  repeat' first
    | with_reducible assumption | extract_lets | with_reducible apply State.modRun_keeps | with_reducible apply Keeps.ite
    | split

theorem State.retireChunk_keeps {z : State} (s : State) (n : Nat) (chunk : Nat) (h0 : Keeps z s) :
    Keeps z (State.retireChunk s n chunk) := by
  unfold State.retireChunk
  repeat' first
    | with_reducible assumption | extract_lets | with_reducible apply State.modGraph_keeps
    | with_reducible apply State.freeHeld_keeps | with_reducible apply Keeps.ite | split

theorem State.finish_keeps {z : State} (s : State) (n : Nat) (node : Nat) (k : Nat) (outs : List (Nat × List Nat))
    (h0 : Keeps z s) :
    Keeps z (State.finish s n node k outs) := by
  unfold State.finish
  repeat' first
    | with_reducible assumption | with_reducible apply State.modRun_keeps

theorem State.doReduceIn_keeps {z : State} (s : State) (n : Nat) (node : Nat) (k : Nat) (g : Graph) (r : Run) (t6 : Tensor)
    (h0 : Keeps z s) :
    Keeps z (State.doReduceIn s n node k g r t6) := by
  unfold State.doReduceIn
  repeat' first
    | with_reducible assumption | extract_lets | with_reducible apply State.retireChunk_keeps
    | with_reducible apply State.finish_keeps | split

theorem State.faultLost_keeps {z : State} (s : State) (n : Nat) (node : Nat) (h0 : Keeps z s) :
    Keeps z (State.faultLost s n node) := by
  unfold State.faultLost
  repeat' first
    | with_reducible assumption | with_reducible apply State.failNode_keeps

theorem State.doLoad_keeps {z : State} (s : State) (n : Nat) (node : Nat) (k : Nat) (t4 : Tensor) (h0 : Keeps z s) :
    Keeps z (State.doLoad s n node k t4) := by
  unfold State.doLoad
  repeat' first
    | with_reducible assumption | extract_lets | with_reducible apply State.faultLost_keeps
    | with_reducible apply State.finish_keeps | with_reducible apply Keeps.ite

theorem State.doStore_keeps {z : State} (s : State) (n : Nat) (node : Nat) (k : Nat) (g : Graph) (r : Run) (x : GNode)
    (t7 : Tensor) (h0 : Keeps z s) :
    Keeps z (State.doStore s n node k g r x t7) := by
  unfold State.doStore
  repeat' first
    | with_reducible assumption | extract_lets | with_reducible apply State.faultNode_keeps
    | with_reducible apply State.bump_keeps | with_reducible apply State.modRun_keeps | with_reducible apply State.raise_keeps
    | with_reducible apply State.setTensor_keeps | with_reducible apply State.finish_keeps
    | with_reducible apply State.startRounds_keeps | with_reducible apply Keeps.ite | split

theorem State.doVec_keeps {z : State} (s : State) (n : Nat) (node : Nat) (k : Nat) (g : Graph) (r : Run) (x : GNode)
    (t7 : Tensor) (h0 : Keeps z s) :
    Keeps z (State.doVec s n node k g r x t7) := by
  unfold State.doVec
  repeat' first
    | with_reducible assumption | extract_lets | with_reducible apply State.faultNode_keeps
    | with_reducible apply State.finish_keeps | with_reducible apply Keeps.ite | split

theorem State.tryCollect_keeps {z : State} (s : State) (n : Nat) (node : Nat) (h0 : Keeps z s) :
    Keeps z (State.tryCollect s n node) := by
  unfold State.tryCollect
  repeat' first
    | with_reducible assumption | extract_lets | with_reducible apply State.modRun_keeps
    | with_reducible apply State.faultNode_keeps | with_reducible apply Keeps.ite | split

theorem State.sendCollect_keeps {z : State} (s : State) (g : Graph) (inst : Nat) (node : Nat) (kind : Nat) (v : Int)
    (h0 : Keeps z s) :
    Keeps z (State.sendCollect s g inst node kind v) := by
  unfold State.sendCollect
  repeat' first
    | with_reducible assumption | intro _ | extract_lets | with_reducible apply State.sendPeer_keeps
    | with_reducible apply Keeps.foldl

theorem State.doCollect_keeps {z : State} (s : State) (n : Nat) (node : Nat) (g : Graph) (r : Run) (x : GNode)
    (h0 : Keeps z s) :
    Keeps z (State.doCollect s n node g r x) := by
  unfold State.doCollect
  repeat' first
    | with_reducible assumption | extract_lets | with_reducible apply State.faultNode_keeps
    | with_reducible apply State.modRun_keeps | with_reducible apply State.tryCollect_keeps
    | with_reducible apply State.sendCollect_keeps | split | dsimp only | dsimp +zetaDelta only

theorem State.tryReport_keeps {z : State} (s : State) (n : Nat) (h0 : Keeps z s) :
    Keeps z (State.tryReport s n) := by
  unfold State.tryReport
  repeat' first
    | with_reducible assumption | extract_lets | with_reducible apply State.tryCommit_keeps
    | with_reducible apply State.modRun_keeps | with_reducible apply State.sendFence_keeps | with_reducible apply Keeps.ite
    | split

theorem State.doFence_keeps {z : State} (s : State) (n : Nat) (node : Nat) (h0 : Keeps z s) :
    Keeps z (State.doFence s n node) := by
  unfold State.doFence
  repeat' first
    | with_reducible assumption | extract_lets | with_reducible apply State.modGraph_keeps
    | with_reducible apply State.tryReport_keeps | with_reducible apply State.modRun_keeps

theorem State.publishCapacity_keeps {z : State} (s : State) (h0 : Keeps z s) :
    Keeps z (State.publishCapacity s) := by
  unfold State.publishCapacity
  repeat' first
    | with_reducible assumption | extract_lets | with_reducible apply State.wr_keeps | with_reducible apply State.bump32_keeps
    | with_reducible apply State.free_keeps | with_reducible apply State.raise_keeps

theorem State.showPair_keeps {z : State} (s : State) (pair : Nat) (h0 : Keeps z s) :
    Keeps z (State.showPair s pair) := by
  unfold State.showPair
  repeat' first
    | with_reducible assumption | extract_lets | with_reducible apply State.wr_keeps | with_reducible apply Keeps.ite

theorem State.coldBit_keeps {z : State} (s : State) (j : Nat) (on : Bool) (h0 : Keeps z s) :
    Keeps z (State.coldBit s j on) := by
  unfold State.coldBit
  repeat' first
    | with_reducible assumption | extract_lets | with_reducible apply State.wr_keeps | with_reducible apply Keeps.ite

theorem State.setArray_keeps {z : State} (s : State) (j : Nat) (a : MatArray) (h0 : Keeps z s) :
    Keeps z (State.setArray s j a) := by
  unfold State.setArray
  repeat' first
    | with_reducible assumption | extract_lets | fail_if_no_progress (with_reducible apply Keeps.upd)

theorem State.modProduct_keeps {z : State} (s : State) (slot : Nat) (node : Nat) (f : Product → Product) (h0 : Keeps z s) :
    Keeps z (State.modProduct s slot node f) := by
  unfold State.modProduct
  repeat' first
    | with_reducible assumption | with_reducible apply State.modRun_keeps

theorem State.unissue_keeps {z : State} (s : State) (x : Tile) (h0 : Keeps z s) :
    Keeps z (State.unissue s x) := by
  unfold State.unissue
  repeat' first
    | with_reducible assumption | with_reducible apply State.modProduct_keeps

theorem State.putAhead_keeps {z : State} (s : State) (q : Nat) (x : Tile) (h0 : Keeps z s) :
    Keeps z (State.putAhead s q x) := by
  unfold State.putAhead
  repeat' first
    | with_reducible assumption | extract_lets | with_reducible apply State.setArray_keeps | split

theorem State.clearArray_keeps {z : State} (s : State) (j : Nat) (h0 : Keeps z s) :
    Keeps z (State.clearArray s j) := by
  unfold State.clearArray
  repeat' first
    | with_reducible assumption | intro _ | extract_lets | with_reducible apply State.setArray_keeps
    | with_reducible apply State.unissue_keeps | with_reducible apply State.wr_keeps
    | with_reducible apply State.putAhead_keeps | with_reducible apply Keeps.foldl

theorem State.failNoArrays_keeps {z : State} (s : State) (h0 : Keeps z s) :
    Keeps z (State.failNoArrays s) := by
  unfold State.failNoArrays
  repeat' first
    | with_reducible assumption | intro _ | extract_lets | with_reducible apply State.faultNode_keeps
    | with_reducible apply Keeps.foldl | with_reducible apply Keeps.ite | split

theorem State.startTile_keeps {z : State} (s : State) (j : Nat) (x : Tile) (h0 : Keeps z s) :
    Keeps z (State.startTile s j x) := by
  unfold State.startTile
  repeat' first
    | with_reducible assumption | extract_lets | with_reducible apply State.setArray_keeps
    | with_reducible apply State.coldBit_keeps | with_reducible apply State.bump_keeps | with_reducible apply State.wr_keeps
    | with_reducible apply Keeps.ite

theorem State.seen_keeps {z : State} (s : State) (slot : Nat) (node : Nat) (v : MmSeen) (h0 : Keeps z s) :
    Keeps z (State.seen s slot node v) := by
  unfold State.seen
  repeat' first
    | with_reducible assumption | extract_lets | with_reducible apply State.bump_keeps
    | with_reducible apply State.raise_keeps | with_reducible apply State.modRun_keeps | with_reducible apply State.wr_keeps
    | with_reducible apply Keeps.ite | split

theorem State.noteProduct_keeps {z : State} (s : State) (x : Tile) (h0 : Keeps z s) :
    Keeps z (State.noteProduct s x) := by
  unfold State.noteProduct
  repeat' first
    | with_reducible assumption | extract_lets | with_reducible apply State.modProduct_keeps
    | with_reducible apply State.seen_keeps | with_reducible apply Keeps.ite | split

theorem execTileIssue_keeps {z : State} (t0 : Time) (array : Nat) (s : State) (h2 : Keeps z s) :
    KeepsNext z (execTileIssue t0 array s) := by
  unfold execTileIssue
  repeat' first
    | with_reducible assumption | extract_lets | with_reducible apply State.begin_keeps
    | with_reducible apply State.startTile_keeps | with_reducible apply State.modProduct_keeps
    | with_reducible apply State.noteProduct_keeps | with_reducible apply KeepsNext.next
    | fail_if_no_progress (with_reducible apply Keeps.upd) | with_reducible apply Keeps.ite | split

theorem State.retireArray_keeps {z : State} (s : State) (j : Nat) (h0 : Keeps z s) :
    Keeps z (State.retireArray s j) := by
  unfold State.retireArray
  repeat' first
    | with_reducible assumption | extract_lets | with_reducible apply State.coldBit_keeps
    | with_reducible apply State.wr_keeps | with_reducible apply State.clearArray_keeps
    | with_reducible apply State.failNoArrays_keeps | with_reducible apply State.publishCapacity_keeps
    | with_reducible apply State.raise_keeps

theorem State.takeOff_keeps {z : State} (s : State) (j : Nat) (x : Tile) (h0 : Keeps z s) :
    Keeps z (State.takeOff s j x) := by
  unfold State.takeOff
  repeat' first
    | with_reducible assumption | extract_lets | with_reducible apply State.setArray_keeps
    | with_reducible apply State.wr_keeps | with_reducible apply Keeps.ite

theorem State.tileMismatch_keeps {z : State} (s : State) (j : Nat) (x : Tile) (h0 : Keeps z s) :
    Keeps z (State.tileMismatch s j x) := by
  unfold State.tileMismatch
  repeat' first
    | with_reducible assumption | extract_lets | with_reducible apply State.setArray_keeps
    | with_reducible apply State.retireArray_keeps | with_reducible apply State.bump_keeps
    | with_reducible apply State.takeOff_keeps | with_reducible apply State.putAhead_keeps
    | with_reducible apply State.faultNode_keeps | with_reducible apply Keeps.ite | split

theorem State.tellMismatch_keeps {z : State} (s : State) (j : Nat) (x : Tile) (epi : Bool) (line : Nat) (h0 : Keeps z s) :
    Keeps z (State.tellMismatch s j x epi line) := by
  unfold State.tellMismatch
  repeat' first
    | with_reducible assumption | extract_lets | with_reducible apply State.raise_keeps
    | with_reducible apply State.countEvent_keeps | with_reducible apply State.bump_keeps | with_reducible apply Keeps.ite
    | split

theorem State.mmTaskDone_keeps {z : State} (s : State) (slot : Nat) (node : Nat) (q : Nat) (h0 : Keeps z s) :
    Keeps z (State.mmTaskDone s slot node q) := by
  unfold State.mmTaskDone
  repeat' first
    | with_reducible assumption | extract_lets | with_reducible apply State.touchEngine_keeps
    | with_reducible apply State.faultNode_keeps | with_reducible apply State.modRun_keeps | split

theorem State.advance_keeps {z : State} (s : State) (x : Tile) (q : Nat) (h0 : Keeps z s) :
    Keeps z (State.advance s x q) := by
  unfold State.advance
  repeat' first
    | with_reducible assumption | extract_lets | with_reducible apply State.modProduct_keeps
    | with_reducible apply State.mmTaskDone_keeps | with_reducible apply Keeps.ite | split

theorem State.passTile_keeps {z : State} (s : State) (j : Nat) (x : Tile) (h0 : Keeps z s) :
    Keeps z (State.passTile s j x) := by
  unfold State.passTile
  repeat' first
    | with_reducible assumption | extract_lets | with_reducible apply State.countFixed_keeps
    | with_reducible apply State.bump_keeps | with_reducible apply State.modProduct_keeps
    | with_reducible apply State.advance_keeps

theorem execTileComplete_keeps {z : State} (t0 : Time) (array : Nat) (i : Nat) (j : Nat) (wrong : List (Nat × Nat × Nat))
    (epi : Bool) (line : Nat) (stalls : Nat) (s : State) (h8 : Keeps z s) :
    KeepsNext z (execTileComplete t0 array i j wrong epi line stalls s) := by
  unfold execTileComplete
  repeat' first
    | with_reducible assumption | extract_lets | with_reducible apply State.begin_keeps
    | with_reducible apply State.bump_keeps | with_reducible apply State.noteEligible_keeps
    | with_reducible apply State.tileMismatch_keeps | with_reducible apply State.tellMismatch_keeps
    | with_reducible apply State.passTile_keeps | with_reducible apply State.takeOff_keeps
    | with_reducible apply KeepsNext.next | with_reducible apply Keeps.ite | split

theorem execArrayIdleStop_keeps {z : State} (t0 : Time) (array : Nat) (s : State) (h2 : Keeps z s) :
    KeepsNext z (execArrayIdleStop t0 array s) := by
  unfold execArrayIdleStop
  repeat' first
    | with_reducible assumption | extract_lets | with_reducible apply State.begin_keeps
    | with_reducible apply State.coldBit_keeps | with_reducible apply State.wr_keeps | with_reducible apply KeepsNext.next
    | with_reducible apply Keeps.ite

theorem State.freeOpHeld_keeps {z : State} (s : State) (op : Nat) (h0 : Keeps z s) :
    Keeps z (State.freeOpHeld s op) := by
  unfold State.freeOpHeld
  repeat' first
    | with_reducible assumption | intro _ | extract_lets | with_reducible apply State.freeAllHeld_keeps
    | with_reducible apply Keeps.foldl | split

theorem State.removeGraph_keeps {z : State} (s : State) (id1 : Nat) (cause : Nat) (h0 : Keeps z s) :
    Keeps z (State.removeGraph s id1 cause) := by
  unfold State.removeGraph
  repeat' first
    | with_reducible assumption | extract_lets | with_reducible apply State.stopRun_keeps
    | with_reducible apply State.dropGraph_keeps | with_reducible apply State.freeOpHeld_keeps
    | with_reducible apply Keeps.ite | split

theorem removePhase_keeps (id0 : Nat) :
    KeepsPhase (removePhase id0) := by
  unfold removePhase
  repeat' first
    | with_reducible apply KeepsPhase.mk | with_reducible assumption | intro _ | extract_lets
    | with_reducible apply State.free_keeps | with_reducible apply State.removeGraph_keeps

theorem subnormalPhase_keeps (id0 : Nat) (flush : Bool) :
    KeepsPhase (subnormalPhase id0 flush) := by
  unfold subnormalPhase
  repeat' first
    | with_reducible apply KeepsPhase.mk | with_reducible assumption | intro _ | extract_lets
    | with_reducible apply State.modGraph_keeps | split | dsimp only

theorem execMcastWrite_keeps {z : State} (a : Access) (data : List Byte) (s : State) (h2 : Keeps z s) :
    KeepsNext z (execMcastWrite a data s) := by
  unfold execMcastWrite
  repeat' first
    | with_reducible assumption | intro _ | extract_lets | with_reducible apply State.writeOne_keeps
    | with_reducible apply mcastAct_keeps | with_reducible apply KeepsNext.next

theorem execTensorCreate_keeps {z : State} (a : Access) (record : BitVec 256) (s : State) (h2 : Keeps z s) :
    KeepsNext z (execTensorCreate a record s) := by
  unfold execTensorCreate
  repeat' first
    | with_reducible assumption | intro _ | extract_lets | with_reducible apply State.writeOne_keeps
    | with_reducible apply State.startLed_keeps | with_reducible apply State.wr_keeps | with_reducible apply tensorPhase_keeps
    | with_reducible apply KeepsNext.next

theorem execTensorDestroy_keeps {z : State} (a : Access) (handle : Nat) (s : State) (h2 : Keeps z s) :
    KeepsNext z (execTensorDestroy a handle s) := by
  unfold execTensorDestroy
  repeat' first
    | with_reducible assumption | intro _ | extract_lets | with_reducible apply State.writeOne_keeps
    | with_reducible apply State.startLed_keeps | with_reducible apply State.wr_keeps
    | with_reducible apply destroyPhase_keeps | with_reducible apply KeepsNext.next

theorem execTensorIo_keeps {z : State} (a : Access) (data : List Byte) (s : State) (h2 : Keeps z s) :
    KeepsNext z (execTensorIo a data s) := by
  unfold execTensorIo
  repeat' first
    | with_reducible assumption | intro _ | extract_lets | with_reducible apply State.writeOne_keeps
    | with_reducible apply State.wr_keeps | with_reducible apply State.writeStripe_keeps
    | with_reducible apply State.markInexact_keeps | with_reducible apply KeepsNext.next | with_reducible apply Keeps.ite
    | split

theorem execTensorQuery_keeps {z : State} (a : Access) (record : BitVec 128) (s : State) (h2 : Keeps z s) :
    KeepsNext z (execTensorQuery a record s) := by
  unfold execTensorQuery
  repeat' first
    | with_reducible assumption | intro _ | extract_lets | with_reducible apply State.writeOne_keeps
    | with_reducible apply State.wr_keeps | with_reducible apply KeepsNext.next

theorem execGraphStage_keeps {z : State} (a : Access) (data : List Byte) (s : State) (h2 : Keeps z s) :
    KeepsNext z (execGraphStage a data s) := by
  unfold execGraphStage
  repeat' first
    | with_reducible assumption | intro _ | extract_lets | with_reducible apply State.writeOne_keeps
    | with_reducible apply KeepsNext.next | fail_if_no_progress (with_reducible apply Keeps.upd)

theorem execGraphCommit_keeps {z : State} (a : Access) (len : Nat) (s : State) (h2 : Keeps z s) :
    KeepsNext z (execGraphCommit a len s) := by
  unfold execGraphCommit
  repeat' first
    | with_reducible assumption | intro _ | extract_lets | with_reducible apply State.writeWith_keeps
    | with_reducible apply State.reportGraph_keeps | with_reducible apply State.startLed_keeps
    | with_reducible apply State.wr_keeps | with_reducible apply graphPhase_keeps | with_reducible apply KeepsNext.next

theorem execGraphResume_keeps {z : State} (a : Access) (id1 : Nat) (s : State) (h2 : Keeps z s) :
    KeepsNext z (execGraphResume a id1 s) := by
  unfold execGraphResume
  repeat' first
    | with_reducible assumption | intro _ | extract_lets | with_reducible apply State.writeOne_keeps
    | with_reducible apply State.passSkipped_keeps | with_reducible apply State.setGraph_keeps
    | with_reducible apply KeepsNext.next | with_reducible apply Keeps.ite | split

theorem execGraphRemove_keeps {z : State} (a : Access) (id1 : Nat) (s : State) (h2 : Keeps z s) :
    KeepsNext z (execGraphRemove a id1 s) := by
  unfold execGraphRemove
  repeat' first
    | with_reducible assumption | intro _ | extract_lets | with_reducible apply State.writeOne_keeps
    | with_reducible apply State.startLed_keeps | with_reducible apply removePhase_keeps | with_reducible apply KeepsNext.next

theorem execConstWrite_keeps {z : State} (a : Access) (data : List Byte) (s : State) (h2 : Keeps z s) :
    KeepsNext z (execConstWrite a data s) := by
  unfold execConstWrite
  repeat' first
    | with_reducible assumption | intro _ | extract_lets | with_reducible apply State.writeOne_keeps
    | with_reducible apply State.modGraph_keeps | with_reducible apply KeepsNext.next | split

theorem execSubnormalSet_keeps {z : State} (a : Access) (record : BitVec 64) (s : State) (h2 : Keeps z s) :
    KeepsNext z (execSubnormalSet a record s) := by
  unfold execSubnormalSet
  repeat' first
    | with_reducible assumption | intro _ | extract_lets | with_reducible apply State.writeOne_keeps
    | with_reducible apply State.startLed_keeps | with_reducible apply subnormalPhase_keeps
    | with_reducible apply KeepsNext.next

theorem execNodeQuery_keeps {z : State} (a : Access) (record : BitVec 128) (s : State) (h2 : Keeps z s) :
    KeepsNext z (execNodeQuery a record s) := by
  unfold execNodeQuery
  repeat' first
    | with_reducible assumption | intro _ | extract_lets | with_reducible apply State.writeOne_keeps
    | with_reducible apply State.wr_keeps | with_reducible apply KeepsNext.next

theorem execRunStart_keeps {z : State} (t0 : Time) (slot : Nat) (s : State) (h2 : Keeps z s) :
    KeepsNext z (execRunStart t0 slot s) := by
  unfold execRunStart
  repeat' first
    | with_reducible assumption | extract_lets | with_reducible apply State.begin_keeps
    | with_reducible apply State.setGraph_keeps | with_reducible apply State.noteEligible_keeps
    | with_reducible apply State.tryCommit_keeps | with_reducible apply State.wr_keeps | with_reducible apply KeepsNext.next
    | with_reducible apply Keeps.ite | split

theorem execStripeOpen_keeps {z : State} (t0 : Time) (slot : Nat) (die : Nat) (stage : Nat) (group : Nat) (stripe : Nat)
    (s : State) (h6 : Keeps z s) :
    KeepsNext z (execStripeOpen t0 slot die stage group stripe s) := by
  unfold execStripeOpen
  repeat' first
    | with_reducible assumption | extract_lets | with_reducible apply State.noteEligible_keeps
    | with_reducible apply State.begin_keeps | with_reducible apply State.modRun_keeps | with_reducible apply KeepsNext.next
    | with_reducible apply Keeps.ite | split

theorem State.issueMm_keeps {z : State} (s : State) (slot : Nat) (node : Nat) (die : Nat) (g : Graph) (r : Run) (x : GNode)
    (h0 : Keeps z s) :
    Keeps z (State.issueMm s slot node die g r x) := by
  unfold State.issueMm
  repeat' first
    | with_reducible assumption | extract_lets | with_reducible apply State.faultNode_keeps | with_reducible apply Keeps.ite

theorem State.issueStore_keeps {z : State} (s : State) (g : Graph) (x : GNode) (k : Nat) (h0 : Keeps z s) :
    Keeps z (State.issueStore s g x k) := by
  unfold State.issueStore
  repeat' first
    | with_reducible assumption | extract_lets | with_reducible apply State.setTensor_keeps | split

theorem execTaskIssue_keeps {z : State} (t0 : Time) (slot : Nat) (die : Nat) (s : State) (h3 : Keeps z s) :
    KeepsNext z (execTaskIssue t0 slot die s) := by
  unfold execTaskIssue
  repeat' first
    | with_reducible assumption | extract_lets | with_reducible apply State.begin_keeps
    | with_reducible apply State.engineOn_keeps | with_reducible apply State.modRun_keeps
    | with_reducible apply State.issueMm_keeps | with_reducible apply State.issueStore_keeps
    | with_reducible apply State.modGraph_keeps | with_reducible apply KeepsNext.next | with_reducible apply Keeps.ite | split
    | dsimp only | dsimp +zetaDelta only

theorem State.runTask_keeps {z : State} (s : State) (slot : Nat) (node : Nat) (k : Nat) (g : Graph) (r : Run) (x : GNode)
    (h0 : Keeps z s) :
    Keeps z (State.runTask s slot node k g r x) := by
  unfold State.runTask
  repeat' first
    | with_reducible assumption | extract_lets | with_reducible apply State.closeStripe_keeps
    | with_reducible apply State.doReduceIn_keeps | with_reducible apply State.doLoad_keeps
    | with_reducible apply State.doStore_keeps | with_reducible apply State.doVec_keeps
    | with_reducible apply State.doCollect_keeps | with_reducible apply State.doFence_keeps | split

theorem execTaskComplete_keeps {z : State} (t0 : Time) (slot : Nat) (node : Nat) (index : Nat) (s : State) (h4 : Keeps z s) :
    KeepsNext z (execTaskComplete t0 slot node index s) := by
  unfold execTaskComplete
  repeat' first
    | with_reducible assumption | extract_lets | with_reducible apply State.begin_keeps
    | with_reducible apply State.touchEngine_keeps | with_reducible apply State.countEvent_keeps
    | with_reducible apply State.countFixed_keeps | with_reducible apply State.doPublish_keeps
    | with_reducible apply State.noteEligible_keeps | with_reducible apply State.runTask_keeps
    | with_reducible apply KeepsNext.next | with_reducible apply Keeps.ite | split

theorem execUpdateEngineIdle_keeps {z : State} (t0 : Time) (die : Nat) (s : State) (h2 : Keeps z s) :
    KeepsNext z (execUpdateEngineIdle t0 die s) := by
  unfold execUpdateEngineIdle
  repeat' first
    | with_reducible assumption | extract_lets | with_reducible apply State.begin_keeps | with_reducible apply State.wr_keeps
    | with_reducible apply KeepsNext.next | with_reducible apply Keeps.ite

theorem State.takeCollect_keeps {z : State} (s : State) (p : Peer) (kind : Nat) (body : List Byte) (h0 : Keeps z s) :
    Keeps z (State.takeCollect s p kind body) := by
  unfold State.takeCollect
  repeat' first
    | with_reducible assumption | extract_lets | with_reducible apply State.noteEligible_keeps
    | with_reducible apply State.tryCollect_keeps | with_reducible apply State.modGraph_keeps
    | (refine Keeps.snd_eq (by with_reducible assumption) ?_; with_reducible apply State.peerAccept_keeps)
    | with_reducible apply Keeps.ite | split

theorem execExchangeCollectSum_keeps {z : State} (t0 : Time) (p : Peer) (body : List Byte) (s : State) (h3 : Keeps z s) :
    KeepsNext z (execExchangeCollectSum t0 p body s) := by
  unfold execExchangeCollectSum
  repeat' first
    | with_reducible assumption | extract_lets | with_reducible apply State.begin_keeps
    | with_reducible apply State.takeCollect_keeps | with_reducible apply KeepsNext.next | with_reducible apply Keeps.ite

theorem execExchangeCollectMax_keeps {z : State} (t0 : Time) (p : Peer) (body : List Byte) (s : State) (h3 : Keeps z s) :
    KeepsNext z (execExchangeCollectMax t0 p body s) := by
  unfold execExchangeCollectMax
  repeat' first
    | with_reducible assumption | extract_lets | with_reducible apply State.begin_keeps
    | with_reducible apply State.takeCollect_keeps | with_reducible apply KeepsNext.next | with_reducible apply Keeps.ite

theorem execFenceReport_keeps {z : State} (t0 : Time) (p : Peer) (body : List Byte) (s : State) (h3 : Keeps z s) :
    KeepsNext z (execFenceReport t0 p body s) := by
  unfold execFenceReport
  repeat' first
    | with_reducible assumption | extract_lets | with_reducible apply State.begin_keeps
    | with_reducible apply State.modGraph_keeps | with_reducible apply State.tryCommit_keeps
    | (refine Keeps.snd_eq (by with_reducible assumption) ?_; with_reducible apply State.peerAccept_keeps)
    | with_reducible apply KeepsNext.next | with_reducible apply Keeps.ite | split

theorem execFenceLimitExpiry_keeps {z : State} (t0 : Time) (slot : Nat) (s : State) (h2 : Keeps z s) :
    KeepsNext z (execFenceLimitExpiry t0 slot s) := by
  unfold execFenceLimitExpiry
  repeat' first
    | with_reducible assumption | extract_lets | with_reducible apply State.begin_keeps
    | with_reducible apply State.raise_keeps | with_reducible apply State.modRun_keeps
    | with_reducible apply State.sendFence_keeps | with_reducible apply State.free_keeps
    | with_reducible apply State.failRun_keeps | with_reducible apply KeepsNext.next | with_reducible apply Keeps.ite | split

theorem State.answerResend_keeps {z : State} (s : State) (f : Cf) (h2 : Nat) (h0 : Keeps z s) :
    Keeps z (State.answerResend s f h2) := by
  unfold State.answerResend
  repeat' first
    | with_reducible assumption | extract_lets | with_reducible apply State.bump_keeps
    | with_reducible apply State.originate_keeps | with_reducible apply State.raiseLim_keeps | split | dsimp +zetaDelta only

theorem execPublishResend_keeps {z : State} (t0 : Time) (f : Cf) (body : List Byte) (s : State) (h3 : Keeps z s) :
    KeepsNext z (execPublishResend t0 f body s) := by
  unfold execPublishResend
  repeat' first
    | with_reducible assumption | extract_lets | with_reducible apply State.begin_keeps
    | with_reducible apply State.bump_keeps | with_reducible apply State.answerResend_keeps
    | with_reducible apply KeepsNext.next | with_reducible apply Keeps.ite

theorem execUpdateHeldResult_keeps {z : State} (t0 : Time) (p : Peer) (body : List Byte) (s : State) (h3 : Keeps z s) :
    KeepsNext z (execUpdateHeldResult t0 p body s) := by
  unfold execUpdateHeldResult
  repeat' first
    | with_reducible assumption | extract_lets | with_reducible apply State.begin_keeps
    | with_reducible apply State.noteEligible_keeps | with_reducible apply State.keepGrad_keeps
    | with_reducible apply State.passResult_keeps
    | (refine Keeps.snd_eq (by with_reducible assumption) ?_; with_reducible apply State.peerAccept_keeps)
    | with_reducible apply KeepsNext.next | with_reducible apply Keeps.ite | split

theorem State.holdParity_keeps {z : State} (s : State) (v : Nat) (h0 : Keeps z s) :
    Keeps z (State.holdParity s v).2 := by
  unfold State.holdParity
  repeat' first
    | with_reducible assumption | extract_lets | with_reducible apply State.free_keeps
    | with_reducible apply State.holdOwn_keeps | with_reducible apply State.setParity_keeps
    | (refine Keeps.snd_eq (by with_reducible assumption) ?_; with_reducible apply State.holdOwn_keeps)
    | with_reducible apply Keeps.ite2 | split

theorem State.commitParity_keeps {z : State} (s : State) (v : Nat) (h0 : Keeps z s) :
    Keeps z (State.commitParity s v) := by
  unfold State.commitParity
  repeat' first
    | with_reducible assumption | extract_lets | with_reducible apply State.setParity_keeps
    | with_reducible apply State.commitReg_keeps | with_reducible apply Keeps.ite | split

theorem State.dropParity_keeps {z : State} (s : State) (key : Nat) (h0 : Keeps z s) :
    Keeps z (State.dropParity s key) := by
  unfold State.dropParity
  repeat' first
    | with_reducible assumption | extract_lets | fail_if_no_progress (with_reducible apply Keeps.upd)

theorem State.releaseParity_keeps {z : State} (s : State) (v : Nat) (h0 : Keeps z s) :
    Keeps z (State.releaseParity s v) := by
  unfold State.releaseParity
  repeat' first
    | with_reducible assumption | extract_lets | with_reducible apply State.dropParity_keeps
    | with_reducible apply State.releaseReg_keeps | with_reducible apply Keeps.ite | split

theorem parityPhase_keeps (v : Nat) :
    KeepsPhase (parityPhase v) := by
  unfold parityPhase
  repeat' first
    | with_reducible apply KeepsPhase.mk | with_reducible assumption | intro _ | extract_lets
    | with_reducible apply State.holdParity_keeps | with_reducible apply State.commitParity_keeps
    | with_reducible apply State.releaseParity_keeps | with_reducible apply State.wr_keeps

theorem State.removeParity_keeps {z : State} (s : State) (key : Nat) (h0 : Keeps z s) :
    Keeps z (State.removeParity s key) := by
  unfold State.removeParity
  repeat' first
    | with_reducible assumption | extract_lets | with_reducible apply State.dropParity_keeps
    | with_reducible apply State.endOp_keeps | split

theorem parityDropPhase_keeps (key : Nat) :
    KeepsPhase (parityDropPhase key) := by
  unfold parityDropPhase
  repeat' first
    | with_reducible apply KeepsPhase.mk | with_reducible assumption | intro _ | extract_lets
    | with_reducible apply State.removeParity_keeps | with_reducible apply State.wr_keeps

theorem execParityCreate_keeps {z : State} (a : Access) (record : BitVec 384) (s : State) (h2 : Keeps z s) :
    KeepsNext z (execParityCreate a record s) := by
  unfold execParityCreate
  repeat' first
    | with_reducible assumption | intro _ | extract_lets | with_reducible apply State.writeOne_keeps
    | with_reducible apply State.startLed_keeps | with_reducible apply State.wr_keeps | with_reducible apply parityPhase_keeps
    | with_reducible apply KeepsNext.next

theorem execParityDelete_keeps {z : State} (a : Access) (record : BitVec 32) (s : State) (h2 : Keeps z s) :
    KeepsNext z (execParityDelete a record s) := by
  unfold execParityDelete
  repeat' first
    | with_reducible assumption | intro _ | extract_lets | with_reducible apply State.writeOne_keeps
    | with_reducible apply State.startLed_keeps | with_reducible apply State.wr_keeps
    | with_reducible apply parityDropPhase_keeps | with_reducible apply KeepsNext.next | split

theorem execParityQuery_keeps {z : State} (a : Access) (record : BitVec 128) (s : State) (h2 : Keeps z s) :
    KeepsNext z (execParityQuery a record s) := by
  unfold execParityQuery
  repeat' first
    | with_reducible assumption | intro _ | extract_lets | with_reducible apply State.writeOne_keeps
    | with_reducible apply State.wr_keeps | with_reducible apply KeepsNext.next

theorem execCoarseFill_keeps {z : State} (a : Access) (record : BitVec 128) (s : State) (h2 : Keeps z s) :
    KeepsNext z (execCoarseFill a record s) := by
  unfold execCoarseFill
  repeat' first
    | with_reducible assumption | intro _ | extract_lets | with_reducible apply State.writeOne_keeps
    | with_reducible apply State.setTensor_keeps | with_reducible apply State.markInexact_keeps
    | with_reducible apply KeepsNext.next | with_reducible apply Keeps.ite | split

theorem State.endRebuild_keeps {z : State} (s : State) (r : Rebuild) (h0 : Keeps z s) :
    Keeps z (State.endRebuild s r) := by
  unfold State.endRebuild
  repeat' first
    | with_reducible assumption | extract_lets | with_reducible apply State.endOp_keeps
    | fail_if_no_progress (with_reducible apply Keeps.upd) | split

theorem State.failRebuild_keeps {z : State} (s : State) (r : Rebuild) (h0 : Keeps z s) :
    Keeps z (State.failRebuild s r) := by
  unfold State.failRebuild
  repeat' first
    | with_reducible assumption | extract_lets | with_reducible apply State.endRebuild_keeps
    | with_reducible apply State.raise_keeps | with_reducible apply State.wr_keeps

theorem State.startRebuild_keeps {z : State} (s : State) (p : Parity) (index : Nat) (ver : Nat) (h0 : Keeps z s) :
    Keeps z (State.startRebuild s p index ver) := by
  unfold State.startRebuild
  repeat' first
    | with_reducible assumption | intro _ | extract_lets | with_reducible apply State.commitReg_keeps
    | with_reducible apply State.holdOwn_keeps | with_reducible apply State.raise_keeps | with_reducible apply State.wr_keeps
    | with_reducible apply State.sendColl_keeps | with_reducible apply State.takeContrib_keeps
    | fail_if_no_progress (with_reducible apply Keeps.upd) | with_reducible apply Keeps.foldl

theorem execRebuildStart_keeps {z : State} (a : Access) (record : BitVec 64) (versions : Bool) (halted : Bool) (s : State)
    (h4 : Keeps z s) :
    KeepsNext z (execRebuildStart a record versions halted s) := by
  unfold execRebuildStart
  repeat' first
    | with_reducible assumption | intro _ | extract_lets | with_reducible apply State.writeOne_keeps
    | with_reducible apply State.startRebuild_keeps | with_reducible apply KeepsNext.next | split

theorem State.restoreStripe_keeps {z : State} (s : State) (h1 : Nat) (k : Nat) (ver : Nat) (vals : List Nat)
    (h0 : Keeps z s) :
    Keeps z (State.restoreStripe s h1 k ver vals) := by
  unfold State.restoreStripe
  repeat' first
    | with_reducible assumption | extract_lets | with_reducible apply State.setTensor_keeps | split

theorem execUpdateCommittedStripe_keeps {z : State} (t0 : Time) (p : Peer) (body : List Byte) (s : State) (h3 : Keeps z s) :
    KeepsNext z (execUpdateCommittedStripe t0 p body s) := by
  unfold execUpdateCommittedStripe
  repeat' first
    | with_reducible assumption | extract_lets | with_reducible apply State.begin_keeps
    | with_reducible apply State.restoreStripe_keeps
    | (refine Keeps.snd_eq (by with_reducible assumption) ?_; with_reducible apply State.peerAccept_keeps)
    | with_reducible apply KeepsNext.next | with_reducible apply Keeps.ite | split

theorem State.unprotect_keeps {z : State} (s : State) (p : Parity) (ver : Nat) (h0 : Keeps z s) :
    Keeps z (State.unprotect s p ver) := by
  unfold State.unprotect
  repeat' first
    | with_reducible assumption | extract_lets | with_reducible apply State.raise_keeps
    | with_reducible apply State.setParity_keeps

theorem State.parityMsg_keeps {z : State} (s : State) (p : Peer) (body : List Byte) (kind : Nat)
    (act : State → Parity → Nat → State) (h0 : Keeps z s) (h4 : ∀ y0 y1 y2, Keeps z y0 → Keeps z (act y0 y1 y2)) :
    Keeps z (State.parityMsg s p body kind act) := by
  unfold State.parityMsg
  repeat' first
    | with_reducible assumption | with_reducible apply h4 | extract_lets
    | (refine Keeps.snd_eq (by with_reducible assumption) ?_; with_reducible apply State.peerAccept_keeps)
    | with_reducible apply Keeps.ite | split

theorem State.parityReport_keeps {z : State} (s : State) (g : Parity) (h0 : Keeps z s) :
    Keeps z (State.parityReport s g) := by
  unfold State.parityReport
  repeat' first
    | with_reducible assumption | with_reducible apply State.tryReport_keeps | split

theorem execParityDone_keeps {z : State} (t0 : Time) (p : Peer) (body : List Byte) (s : State) (h3 : Keeps z s) :
    KeepsNext z (execParityDone t0 p body s) := by
  unfold execParityDone
  repeat' first
    | with_reducible assumption | intro _ | extract_lets | with_reducible apply State.parityMsg_keeps
    | with_reducible apply State.begin_keeps | with_reducible apply State.parityReport_keeps
    | with_reducible apply State.setParity_keeps | with_reducible apply KeepsNext.next | with_reducible apply Keeps.ite

theorem execParityCommitted_keeps {z : State} (t0 : Time) (p : Peer) (body : List Byte) (s : State) (h3 : Keeps z s) :
    KeepsNext z (execParityCommitted t0 p body s) := by
  unfold execParityCommitted
  repeat' first
    | with_reducible assumption | intro _ | extract_lets | with_reducible apply State.parityMsg_keeps
    | with_reducible apply State.begin_keeps | with_reducible apply State.setParity_keeps
    | with_reducible apply State.unprotect_keeps | with_reducible apply KeepsNext.next | with_reducible apply Keeps.ite

theorem execParityAborted_keeps {z : State} (t0 : Time) (p : Peer) (body : List Byte) (s : State) (h3 : Keeps z s) :
    KeepsNext z (execParityAborted t0 p body s) := by
  unfold execParityAborted
  repeat' first
    | with_reducible assumption | intro _ | extract_lets | with_reducible apply State.parityMsg_keeps
    | with_reducible apply State.begin_keeps | with_reducible apply State.setParity_keeps
    | with_reducible apply KeepsNext.next | with_reducible apply Keeps.ite

theorem execParityWaitExpiry_keeps {z : State} (t0 : Time) (job : Nat) (group : Nat) (s : State) (h3 : Keeps z s) :
    KeepsNext z (execParityWaitExpiry t0 job group s) := by
  unfold execParityWaitExpiry
  repeat' first
    | with_reducible assumption | extract_lets | with_reducible apply State.begin_keeps
    | with_reducible apply State.parityReport_keeps | with_reducible apply State.unprotect_keeps
    | with_reducible apply KeepsNext.next | with_reducible apply Keeps.ite | split

theorem State.writeRebuilt_keeps {z : State} (s : State) (ver : Nat) (l : List (Nat × Nat × Nat × Nat)) (b : List Byte)
    (h : Keeps z s) : Keeps z (s.writeRebuilt ver l b) := by
  induction l generalizing s b with
  | nil => exact h
  | cons x r ih =>
    unfold State.writeRebuilt
    refine ih _ _ (Keeps.ite (State.restoreStripe_keeps _ _ _ _ _ h) (State.sendUpdate_keeps _ _ _ _ _ _ _ _ h))

theorem execRebuildDone_keeps {z : State} (t0 : Time) (failed : Bool) (version : Nat) (layout : List
    (Nat × Nat × Nat × Nat)) (s : State) (h4 : Keeps z s) :
    KeepsNext z (execRebuildDone t0 failed version layout s) := by
  unfold execRebuildDone
  repeat' first
    | with_reducible assumption | extract_lets | with_reducible apply State.begin_keeps
    | with_reducible apply State.failRebuild_keeps | with_reducible apply State.endRebuild_keeps
    | with_reducible apply State.writeRebuilt_keeps | with_reducible apply State.raise_keeps
    | with_reducible apply State.wr_keeps | with_reducible apply KeepsNext.next | with_reducible apply Keeps.ite | split

end Sys2Proof.Machine
end

