-- ==== Sys2Proof/Laws/KeepsUnits.lean ====
section
/-!
SUPPORT. What each function keeps (`Keeps`): Exchanges, stacks, dies and links.
-/
namespace Sys2Proof.Machine

theorem phaseOf_keeps {kind n : Nat} {r : List Byte} {ph : Phase} (h : phaseOf kind r = some (n, ph)) : KeepsPhase ph := by
  unfold phaseOf at h
  dsimp only at h
  split at h <;> (try split at h) <;> (try cases h)
  · exact regPhase_keeps _ _ _
  · exact excludePhase_keeps _ _
  · exact deregPhase_keeps _
  · exact tensorPhase_keeps _
  · exact destroyPhase_keeps _
  · exact graphPhase_keeps _
  · exact removePhase_keeps _
  · exact subnormalPhase_keeps _ _
  · exact parityPhase_keeps _
  · exact parityDropPhase_keeps _

theorem State.finishLed_keeps {z : State} (s0 : State) (l1 : Led) (h0 : Keeps z s0) :
    Keeps z (State.finishLed s0 l1) := by
  unfold State.finishLed
  split
  · exact State.endLed_keeps _ _ _ h0 (regPhase_keeps _ _ _)
  · split
    · exact State.endLed_keeps _ _ _ h0 (phaseOf_keeps ‹_›)
    · exact Keeps.upd h0 ..

theorem State.takePrepare_keeps {z : State} (s0 : State) (p1 : Peer) (body2 : List Byte) (kind3 : Nat) (h0 : Keeps z s0) :
    Keeps z (State.takePrepare s0 p1 body2 kind3) := by
  unfold State.takePrepare
  split
  · exact h0
  · dsimp only
    have hp := State.peerAccept_keeps s0 p1 1 body2 (decide (9 ≤ body2.length) && (phaseOf kind3 (body2.drop 9)).isSome) h0
    split
    · exact Keeps.snd_eq ‹_› hp
    · have hs := Keeps.snd_eq ‹_› hp
      split
      · split
        · exact State.onPrepare_keeps _ _ _ _ _ _ _ hs (phaseOf_keeps ‹_›)
        · exact hs
      · exact hs

theorem execPeerPrepareRegistration_keeps {z : State} (t0 : Time) (p : Peer) (body : List Byte) (s : State) (h3 : Keeps z s) :
    KeepsNext z (execPeerPrepareRegistration t0 p body s) := by
  unfold execPeerPrepareRegistration
  repeat' first
    | with_reducible assumption | extract_lets | with_reducible apply State.takePrepare_keeps
    | with_reducible apply State.begin_keeps | with_reducible apply KeepsNext.next

theorem execPeerPrepareHsetExclude_keeps {z : State} (t0 : Time) (p : Peer) (body : List Byte) (s : State) (h3 : Keeps z s) :
    KeepsNext z (execPeerPrepareHsetExclude t0 p body s) := by
  unfold execPeerPrepareHsetExclude
  repeat' first
    | with_reducible assumption | extract_lets | with_reducible apply State.takePrepare_keeps
    | with_reducible apply State.begin_keeps | with_reducible apply KeepsNext.next

theorem execPeerPrepareDeregister_keeps {z : State} (t0 : Time) (p : Peer) (body : List Byte) (s : State) (h3 : Keeps z s) :
    KeepsNext z (execPeerPrepareDeregister t0 p body s) := by
  unfold execPeerPrepareDeregister
  repeat' first
    | with_reducible assumption | extract_lets | with_reducible apply State.takePrepare_keeps
    | with_reducible apply State.begin_keeps | with_reducible apply KeepsNext.next

theorem execPeerPrepareTensorCreate_keeps {z : State} (t0 : Time) (p : Peer) (body : List Byte) (s : State) (h3 : Keeps z s) :
    KeepsNext z (execPeerPrepareTensorCreate t0 p body s) := by
  unfold execPeerPrepareTensorCreate
  repeat' first
    | with_reducible assumption | extract_lets | with_reducible apply State.takePrepare_keeps
    | with_reducible apply State.begin_keeps | with_reducible apply KeepsNext.next

theorem execPeerPrepareTensorDestroy_keeps {z : State} (t0 : Time) (p : Peer) (body : List Byte) (s : State)
    (h3 : Keeps z s) :
    KeepsNext z (execPeerPrepareTensorDestroy t0 p body s) := by
  unfold execPeerPrepareTensorDestroy
  repeat' first
    | with_reducible assumption | extract_lets | with_reducible apply State.takePrepare_keeps
    | with_reducible apply State.begin_keeps | with_reducible apply KeepsNext.next

theorem execPeerPrepareGraph_keeps {z : State} (t0 : Time) (p : Peer) (body : List Byte) (s : State) (h3 : Keeps z s) :
    KeepsNext z (execPeerPrepareGraph t0 p body s) := by
  unfold execPeerPrepareGraph
  repeat' first
    | with_reducible assumption | extract_lets | with_reducible apply State.takePrepare_keeps
    | with_reducible apply State.begin_keeps | with_reducible apply KeepsNext.next

theorem execPeerPrepareGraphControl_keeps {z : State} (t0 : Time) (p : Peer) (body : List Byte) (s : State) (h3 : Keeps z s) :
    KeepsNext z (execPeerPrepareGraphControl t0 p body s) := by
  unfold execPeerPrepareGraphControl
  repeat' first
    | with_reducible assumption | extract_lets | with_reducible apply State.takePrepare_keeps
    | with_reducible apply State.begin_keeps | with_reducible apply KeepsNext.next

theorem execPeerPrepareSubnormal_keeps {z : State} (t0 : Time) (p : Peer) (body : List Byte) (s : State) (h3 : Keeps z s) :
    KeepsNext z (execPeerPrepareSubnormal t0 p body s) := by
  unfold execPeerPrepareSubnormal
  repeat' first
    | with_reducible assumption | extract_lets | with_reducible apply State.takePrepare_keeps
    | with_reducible apply State.begin_keeps | with_reducible apply KeepsNext.next

theorem execPeerPrepareParityGroup_keeps {z : State} (t0 : Time) (p : Peer) (body : List Byte) (s : State) (h3 : Keeps z s) :
    KeepsNext z (execPeerPrepareParityGroup t0 p body s) := by
  unfold execPeerPrepareParityGroup
  repeat' first
    | with_reducible assumption | extract_lets | with_reducible apply State.takePrepare_keeps
    | with_reducible apply State.begin_keeps | with_reducible apply KeepsNext.next

theorem execPeerPrepareParityDelete_keeps {z : State} (t0 : Time) (p : Peer) (body : List Byte) (s : State) (h3 : Keeps z s) :
    KeepsNext z (execPeerPrepareParityDelete t0 p body s) := by
  unfold execPeerPrepareParityDelete
  repeat' first
    | with_reducible assumption | extract_lets | with_reducible apply State.takePrepare_keeps
    | with_reducible apply State.begin_keeps | with_reducible apply KeepsNext.next

theorem execPeerVote_keeps {z : State} (t0 : Time) (p : Peer) (body : List Byte) (s : State) (h3 : Keeps z s) :
    KeepsNext z (execPeerVote t0 p body s) := by
  unfold execPeerVote
  repeat' first
    | with_reducible assumption | extract_lets | with_reducible apply State.begin_keeps
    | with_reducible apply State.finishLed_keeps
    | (refine Keeps.snd_eq (by with_reducible assumption) ?_; with_reducible apply State.peerAccept_keeps)
    | with_reducible apply KeepsNext.next | fail_if_no_progress (with_reducible apply Keeps.upd)
    | with_reducible apply Keeps.ite | split

theorem State.takeEnd_keeps {z : State} (s0 : State) (p1 : Peer) (sub2 : Nat) (body3 : List Byte) (h0 : Keeps z s0) :
    Keeps z (State.takeEnd s0 p1 sub2 body3) := by
  unfold State.takeEnd
  have hp : Keeps z (s0.peerAccept p1 sub2 body3 (body3.length == 8)).2 := State.peerAccept_keeps _ _ _ _ _ h0
  split
  · exact Keeps.snd_eq ‹_› hp
  · have hs := Keeps.snd_eq ‹_› hp
    split
    · exact hs
    · split
      · exact State.endHeld_keeps _ _ _ _ hs (phaseOf_keeps ‹_›)
      · exact hs

theorem execPeerCommit_keeps {z : State} (t0 : Time) (p : Peer) (body : List Byte) (s : State) (h3 : Keeps z s) :
    KeepsNext z (execPeerCommit t0 p body s) := by
  unfold execPeerCommit
  repeat' first
    | with_reducible assumption | extract_lets | with_reducible apply State.takeEnd_keeps
    | with_reducible apply State.begin_keeps | with_reducible apply KeepsNext.next

theorem execPeerRelease_keeps {z : State} (t0 : Time) (p : Peer) (body : List Byte) (s : State) (h3 : Keeps z s) :
    KeepsNext z (execPeerRelease t0 p body s) := by
  unfold execPeerRelease
  repeat' first
    | with_reducible assumption | extract_lets | with_reducible apply State.takeEnd_keeps
    | with_reducible apply State.begin_keeps | with_reducible apply KeepsNext.next

theorem execPrepareTimeout_keeps {z : State} (t0 : Time) (xid : Nat) (s : State) (h2 : Keeps z s) :
    KeepsNext z (execPrepareTimeout t0 xid s) := by
  unfold execPrepareTimeout
  repeat' first
    | with_reducible assumption | extract_lets | with_reducible apply State.begin_keeps
    | with_reducible apply State.finishLed_keeps | with_reducible apply KeepsNext.next | with_reducible apply Keeps.ite
    | split

theorem State.putBlock_keeps {z : State} (s : State) (h1 : Nat) (b : Nat) (v : BitVec 512) (h0 : Keeps z s) :
    Keeps z (State.putBlock s h1 b v) := by
  unfold State.putBlock
  repeat' first
    | with_reducible assumption | extract_lets | with_reducible apply State.freshBlocks_keeps
    | with_reducible apply State.setChunk_keeps | with_reducible apply State.setCells_keeps | with_reducible apply Keeps.ite
    | split

theorem State.serve_keeps {z : State} (s : State) (h1 : Nat) (cls : Nat) (wait : List Nat) (h0 : Keeps z s) :
    KeepsSome z (State.serve s h1 cls wait) := by
  unfold State.serve
  repeat' first
    | with_reducible assumption | extract_lets | with_reducible apply KeepsSome.none | with_reducible apply KeepsSome.some
    | with_reducible apply KeepsSome.ite | fail_if_no_progress (with_reducible apply Keeps.upd) | split

theorem State.upset_keeps {z : State} (s : State) (h1 : Nat) (b : Nat) (e : BitVec 544) (h0 : Keeps z s) :
    Keeps z (State.upset s h1 b e) := by
  unfold State.upset
  repeat' first
    | with_reducible assumption | extract_lets | with_reducible apply State.setUpsets_keeps

theorem State.loseResult_keeps {z : State} (s : State) (op : Nat) (inst : Nat) (chunk : Nat) (h0 : Keeps z s) :
    Keeps z (State.loseResult s op inst chunk) := by
  unfold State.loseResult
  repeat' first
    | with_reducible assumption | extract_lets | with_reducible apply State.raise_keeps
    | with_reducible apply State.freeHeld_keeps | with_reducible apply State.failRun_keeps
    | with_reducible apply State.wr_keeps | with_reducible apply State.modGraph_keeps
    | with_reducible apply State.passSkipped_keeps | with_reducible apply State.freeAllHeld_keeps
    | with_reducible apply Keeps.ite | split | dsimp only | dsimp +zetaDelta only

theorem State.replaceBook_keeps {z : State} (s : State) (c : Nat) (who : Nat × Nat) (k : Chunk) (h0 : Keeps z s) :
    KeepsPair z (State.replaceBook s c who k) := by
  unfold State.replaceBook
  repeat' first
    | with_reducible assumption | intro _ | extract_lets | with_reducible apply State.setChunk_keeps
    | with_reducible apply State.returnSpill_keeps | with_reducible apply State.takeBook_keeps
    | with_reducible apply KeepsPair.none | with_reducible apply KeepsPair.ite | with_reducible apply KeepsPair.map

theorem State.relocate_keeps {z : State} (s : State) (c : Nat) (who : Nat × Nat) (k : Chunk) (slot : Bool) (book : Bool)
    (h0 : Keeps z s) :
    KeepsPair z (State.relocate s c who k slot book) := by
  unfold State.relocate
  repeat' first
    | with_reducible assumption | extract_lets | with_reducible apply State.moveSlots_keeps
    | with_reducible apply State.replaceBook_keeps | with_reducible apply KeepsPair.none | with_reducible apply KeepsPair.some
    | with_reducible apply KeepsPair.ite | refine Keeps.some2_eq (by with_reducible assumption) ?_ | split
    | dsimp +zetaDelta only

theorem State.noPlace_keeps {z : State} (s : State) (c : Nat) (n : Nat) (k : Chunk) (h0 : Keeps z s) :
    Keeps z (State.noPlace s c n k) := by
  unfold State.noPlace
  repeat' first
    | with_reducible assumption | extract_lets | with_reducible apply State.abortHere_keeps
    | with_reducible apply State.raise_keeps | with_reducible apply Keeps.ite

theorem State.loseChunk_keeps {z : State} (s : State) (c : Nat) (n : Nat) (k : Chunk) (slot : Bool) (book : Bool)
    (h0 : Keeps z s) :
    Keeps z (State.loseChunk s c n k slot book) := by
  unfold State.loseChunk
  repeat' first
    | with_reducible assumption | intro _ | extract_lets | with_reducible apply State.freeSlot_keeps
    | with_reducible apply State.setChunk_keeps | with_reducible apply State.returnSpill_keeps
    | with_reducible apply State.noPlace_keeps | with_reducible apply State.request_keeps
    | with_reducible apply State.sendBypass_keeps | with_reducible apply State.recompute_keeps
    | (refine Keeps.some2_eq (by with_reducible assumption) ?_; with_reducible apply State.relocate_keeps)
    | with_reducible apply Keeps.foldl | with_reducible apply Keeps.ite | split

theorem State.stackChunks_keeps {z : State} (s : State) (h1 : Nat) (h0 : Keeps z s) :
    Keeps z (State.stackChunks s h1) := by
  unfold State.stackChunks
  repeat' first
    | with_reducible assumption | intro _ | extract_lets | with_reducible apply State.loseResult_keeps
    | with_reducible apply State.loseChunk_keeps | with_reducible apply Keeps.foldl | with_reducible apply Keeps.ite | split

theorem State.moveArea_keeps {z : State} (s : State) (c : Nat) (h0 : Keeps z s) :
    Keeps z (State.moveArea s c) := by
  unfold State.moveArea
  repeat' first
    | with_reducible assumption | extract_lets | with_reducible apply State.modCtx_keeps
    | with_reducible apply State.useSpill_keeps | with_reducible apply Keeps.ite | split

theorem State.loseArea_keeps {z : State} (s : State) (c : Nat) (h0 : Keeps z s) :
    Keeps z (State.loseArea s c) := by
  unfold State.loseArea
  repeat' first
    | with_reducible assumption | intro _ | extract_lets | with_reducible apply State.abortHere_keeps
    | with_reducible apply Keeps.foldl | split

theorem State.loseFrames_keeps {z : State} (s : State) (p : Nat → Inst → Result → Bool) (h0 : Keeps z s) :
    Keeps z (State.loseFrames s p) := by
  unfold State.loseFrames
  repeat' first
    | with_reducible assumption | extract_lets | fail_if_no_progress (with_reducible apply Keeps.upd)

theorem State.loseCopies_keeps {z : State} (s : State) (h1 : Nat) (ks : List (Nat × Bool)) (h0 : Keeps z s) :
    Keeps z (State.loseCopies s h1 ks) := by
  unfold State.loseCopies
  repeat' first
    | with_reducible assumption | extract_lets | with_reducible apply State.tellLost_keeps
    | with_reducible apply State.setTensor_keeps | split

theorem State.loseScratch_keeps {z : State} (s : State) (n : Nat) (h0 : Keeps z s) :
    Keeps z (State.loseScratch s n) := by
  unfold State.loseScratch
  repeat' first
    | with_reducible assumption | extract_lets | with_reducible apply State.failRun_keeps
    | with_reducible apply State.wr_keeps | with_reducible apply Keeps.ite | split

theorem State.loseEntry_keeps {z : State} (s : State) (seq : Nat) (h0 : Keeps z s) :
    Keeps z (State.loseEntry s seq) := by
  unfold State.loseEntry
  repeat' first
    | with_reducible assumption | extract_lets | fail_if_no_progress (with_reducible apply Keeps.upd)
    | with_reducible apply Keeps.ite

theorem State.loseSamplesOn_keeps {z : State} (s : State) (h1 : Nat) (h0 : Keeps z s) :
    Keeps z (State.loseSamplesOn s h1) := by
  unfold State.loseSamplesOn
  repeat' first
    | with_reducible assumption | extract_lets | fail_if_no_progress (with_reducible apply Keeps.upd)

theorem State.dropStack_keeps {z : State} (s : State) (h1 : Nat) (cause : Nat) (h0 : Keeps z s) :
    Keeps z (State.dropStack s h1 cause) := by
  unfold State.dropStack
  repeat' first
    | with_reducible assumption | intro _ | extract_lets | with_reducible apply State.wr_keeps
    | with_reducible apply State.raise_keeps | with_reducible apply State.stackChunks_keeps
    | with_reducible apply State.moveArea_keeps | with_reducible apply State.loseArea_keeps
    | with_reducible apply State.loseFrames_keeps | with_reducible apply State.loseCopies_keeps
    | with_reducible apply State.loseScratch_keeps | with_reducible apply State.loseBlocks_keeps
    | with_reducible apply State.loseEntry_keeps | with_reducible apply State.publishCapacity_keeps
    | with_reducible apply State.loseSamplesOn_keeps | with_reducible apply State.bump_keeps
    | fail_if_no_progress (with_reducible apply Keeps.upd) | with_reducible apply Keeps.foldl | with_reducible apply Keeps.ite

theorem State.loseSample_keeps {z : State} (s : State) (kind : Nat) (index : Nat) (h0 : Keeps z s) :
    Keeps z (State.loseSample s kind index) := by
  unfold State.loseSample
  repeat' first
    | with_reducible assumption | extract_lets | fail_if_no_progress (with_reducible apply Keeps.upd)
    | with_reducible apply Keeps.ite

theorem State.blockLost_keeps {z : State} (s : State) (h1 : Nat) (x : Holds) (h0 : Keeps z s) :
    Keeps z (State.blockLost s h1 x) := by
  unfold State.blockLost
  repeat' first
    | with_reducible assumption | extract_lets | with_reducible apply State.loseResult_keeps
    | with_reducible apply State.loseChunk_keeps | with_reducible apply State.loseArea_keeps
    | with_reducible apply State.loseFrames_keeps | with_reducible apply State.loseCopies_keeps
    | with_reducible apply State.loseScratch_keeps | with_reducible apply State.loseBlocks_keeps
    | with_reducible apply State.loseEntry_keeps | with_reducible apply State.bump_keeps
    | with_reducible apply State.loseSample_keeps | with_reducible apply Keeps.ite | split

theorem State.restartAt_keeps {z : State} (s0 : State) (step1 : Nat) (keys2 : Bool) (h0 : Keeps z s0) :
    Keeps z (State.restartAt s0 step1 keys2) := by
  exact ⟨h0.queue, h0.fresh, fun hs => Tab.wf_filter _ (h0.elements hs), fun _ => Eq.refl _, fun _ => Eq.refl _⟩

theorem State.deviceReset_keeps {z : State} (s : State) (cause : Nat) (h0 : Keeps z s) :
    Keeps z (State.deviceReset s cause) := by
  unfold State.deviceReset
  repeat' first
    | with_reducible assumption | extract_lets | with_reducible apply State.wr_keeps
    | with_reducible apply State.restartAt_keeps

theorem State.powerOnReset_keeps {z : State} (s : State) (h0 : Keeps z s) :
    Keeps z (State.powerOnReset s) := by
  unfold State.powerOnReset
  repeat' first
    | with_reducible assumption | extract_lets | with_reducible apply State.wr_keeps
    | with_reducible apply State.restartAt_keeps

theorem State.migrate_keeps {z : State} (s : State) (before : List (Nat × List (Nat × Nat))) (q : Nat) (h0 : Keeps z s) :
    Keeps z (State.migrate s before q) := by
  unfold State.migrate
  repeat' first
    | with_reducible assumption | intro _ | extract_lets | with_reducible apply State.modGraph_keeps
    | with_reducible apply Keeps.foldl | with_reducible apply Keeps.ite | split

theorem State.abortFault_keeps {z : State} (s : State) (p : Ctx → Inst → Bool) (h0 : Keeps z s) :
    Keeps z (State.abortFault s p) := by
  unfold State.abortFault
  repeat' first
    | with_reducible assumption | intro _ | extract_lets | with_reducible apply State.abortHere_keeps
    | with_reducible apply Keeps.foldl

theorem State.markExcluded_keeps {z : State} (s : State) (d : Nat) (cause : Nat) (h0 : Keeps z s) :
    Keeps z (State.markExcluded s d cause) := by
  unfold State.markExcluded
  repeat' first
    | with_reducible assumption | extract_lets | with_reducible apply State.wr_keeps | with_reducible apply State.raise_keeps

theorem State.loseFramesIn_keeps {z : State} (s : State) (d : Nat) (h0 : Keeps z s) :
    Keeps z (State.loseFramesIn s d) := by
  unfold State.loseFramesIn
  repeat' first
    | with_reducible assumption | intro _ | extract_lets | with_reducible apply State.freeFrame_keeps
    | fail_if_no_progress (with_reducible apply Keeps.upd) | with_reducible apply Keeps.foldl

theorem State.excludeSwitch_keeps {z : State} (s : State) (d : Nat) (cause : Nat) (h0 : Keeps z s) :
    Keeps z (State.excludeSwitch s d cause) := by
  unfold State.excludeSwitch
  repeat' first
    | with_reducible assumption | intro _ | extract_lets | with_reducible apply State.abortFault_keeps
    | with_reducible apply State.wr_keeps | with_reducible apply State.markExcluded_keeps
    | with_reducible apply State.loseFramesIn_keeps | with_reducible apply State.portDown_keeps
    | with_reducible apply State.deviceReset_keeps | with_reducible apply State.publishCapacity_keeps
    | fail_if_no_progress (with_reducible apply Keeps.upd) | with_reducible apply Keeps.foldl | with_reducible apply Keeps.ite

theorem State.dropArrays_keeps {z : State} (s : State) (q : Nat) (h0 : Keeps z s) :
    Keeps z (State.dropArrays s q) := by
  unfold State.dropArrays
  repeat' first
    | with_reducible assumption | intro _ | extract_lets | with_reducible apply State.coldBit_keeps
    | with_reducible apply State.wr_keeps | with_reducible apply State.clearArray_keeps | with_reducible apply Keeps.foldl

theorem State.excludeQuire_keeps {z : State} (s : State) (q : Nat) (cause : Nat) (h0 : Keeps z s) :
    Keeps z (State.excludeQuire s q cause) := by
  unfold State.excludeQuire
  repeat' first
    | with_reducible assumption | intro _ | extract_lets | with_reducible apply State.abortFault_keeps
    | with_reducible apply State.markExcluded_keeps | with_reducible apply State.loseResult_keeps
    | with_reducible apply State.dropStack_keeps | with_reducible apply State.wr_keeps
    | with_reducible apply State.dropArrays_keeps | with_reducible apply State.failRun_keeps
    | with_reducible apply State.failNoArrays_keeps | with_reducible apply State.migrate_keeps
    | with_reducible apply State.publishCapacity_keeps | fail_if_no_progress (with_reducible apply Keeps.upd)
    | with_reducible apply Keeps.foldl | with_reducible apply Keeps.ite | split

theorem State.releaseLeds_keeps {z : State} (s : State) (h0 : Keeps z s) :
    Keeps z (State.releaseLeds s) := by
  unfold State.releaseLeds
  repeat' first
    | with_reducible assumption | intro _ | extract_lets | with_reducible apply State.finishLed_keeps
    | with_reducible apply Keeps.foldl

theorem State.restartTraining_keeps {z : State} (s : State) (h0 : Keeps z s) : Keeps z (State.restartTraining s) := by
  unfold State.restartTraining
  repeat' first | with_reducible assumption | fail_if_no_progress (with_reducible apply Keeps.upd)

theorem State.takeover_keeps {z : State} (s : State) (cause : Nat) (why : Nat) (h0 : Keeps z s) :
    Keeps z (State.takeover s cause why) := by
  unfold State.takeover
  repeat' first
    | with_reducible assumption | extract_lets | with_reducible apply State.wr_keeps | with_reducible apply State.raise_keeps
    | with_reducible apply State.markExcluded_keeps | with_reducible apply State.restartTraining_keeps
    | with_reducible apply State.releaseLeds_keeps
    | with_reducible apply State.bump_keeps | with_reducible apply State.publishCapacity_keeps
    | fail_if_no_progress (with_reducible apply Keeps.upd) | with_reducible apply Keeps.ite

theorem State.excludeKeeper_keeps {z : State} (s : State) (k : Nat) (cause : Nat) (h0 : Keeps z s) :
    Keeps z (State.excludeKeeper s k cause) := by
  unfold State.excludeKeeper
  repeat' first
    | with_reducible assumption | extract_lets | with_reducible apply State.takeover_keeps
    | with_reducible apply State.deviceReset_keeps | with_reducible apply State.wr_keeps
    | with_reducible apply State.markExcluded_keeps | with_reducible apply State.publishCapacity_keeps
    | with_reducible apply State.raise_keeps | with_reducible apply Keeps.ite

theorem State.excludeDie_keeps {z : State} (s : State) (d : Nat) (cause : Nat) (h0 : Keeps z s) :
    Keeps z (State.excludeDie s d cause) := by
  unfold State.excludeDie
  repeat' first
    | with_reducible assumption | extract_lets | with_reducible apply State.excludeSwitch_keeps
    | with_reducible apply State.excludeQuire_keeps | with_reducible apply State.excludeKeeper_keeps
    | with_reducible apply Keeps.ite

theorem State.excludeStack_keeps {z : State} (s : State) (h1 : Nat) (cause : Nat) (h0 : Keeps z s) :
    Keeps z (State.excludeStack s h1 cause) := by
  unfold State.excludeStack
  repeat' first
    | with_reducible assumption | extract_lets | with_reducible apply State.dropStack_keeps
    | with_reducible apply State.excludeDie_keeps | with_reducible apply Keeps.ite

theorem State.checkRing_keeps {z : State} (s : State) (h0 : Keeps z s) :
    Keeps z (State.checkRing s) := by
  unfold State.checkRing
  repeat' first
    | with_reducible assumption | intro _ | extract_lets | with_reducible apply State.excludeDie_keeps
    | with_reducible apply State.raise_keeps | with_reducible apply Keeps.foldl | with_reducible apply Keeps.ite

theorem State.setJob_keeps {z : State} (s : State) (tag : Nat) (j : Job) (h0 : Keeps z s) :
    Keeps z (State.setJob s tag j) := by
  unfold State.setJob
  repeat' first
    | with_reducible assumption | with_reducible apply Keeps.job

theorem State.startJob_keeps {z : State} (s : State) (tag : Nat) (h0 : Keeps z s) :
    Keeps z (State.startJob s tag) := by
  unfold State.startJob
  repeat' first
    | with_reducible assumption | extract_lets | with_reducible apply State.setJob_keeps
    | with_reducible apply State.raise_keeps | fail_if_no_progress (with_reducible apply Keeps.upd)

theorem State.evalStarts_keeps {z : State} (s : State) (n : Nat) (h : Keeps z s) : Keeps z (s.evalStarts n) := by
  induction n generalizing s with
  | zero => exact h
  | succ n ih =>
    unfold State.evalStarts
    split
    · exact h
    · split
      · exact h
      · refine ih _ (State.startJob_keeps _ _ h)

theorem State.newPoison_keeps {z : State} (s : State) (h1 : Nat) (b : Nat) (x : Holds) (h0 : Keeps z s) :
    Keeps z (State.newPoison s h1 b x) := by
  unfold State.newPoison
  repeat' first
    | with_reducible assumption | extract_lets | with_reducible apply State.bump_keeps | with_reducible apply State.wr_keeps
    | with_reducible apply State.raise_keeps | with_reducible apply State.excludeStack_keeps
    | with_reducible apply State.setPoison_keeps | fail_if_no_progress (with_reducible apply Keeps.upd)
    | with_reducible apply Keeps.ite

theorem State.badBlock_keeps {z : State} (s : State) (h1 : Nat) (b : Nat) (x : Holds) (h0 : Keeps z s) :
    Keeps z (State.badBlock s h1 b x) := by
  unfold State.badBlock
  repeat' first
    | with_reducible assumption | extract_lets | with_reducible apply State.newPoison_keeps
    | with_reducible apply State.blockLost_keeps | with_reducible apply Keeps.ite

theorem State.correctedRead_keeps {z : State} (s : State) (h1 : Nat) (h0 : Keeps z s) :
    Keeps z (State.correctedRead s h1) := by
  unfold State.correctedRead
  repeat' first
    | with_reducible assumption | extract_lets | with_reducible apply State.countEvent_keeps
    | with_reducible apply State.bump_keeps | with_reducible apply State.raiseLim_keeps

theorem State.readBlock_keeps {z : State} (s : State) (h1 : Nat) (b : Nat) (x : Holds) (h0 : Keeps z s) :
    Keeps z (State.readBlock s h1 b x).2 := by
  unfold State.readBlock
  repeat' first
    | with_reducible assumption | extract_lets | with_reducible apply State.badBlock_keeps
    | with_reducible apply State.correctedRead_keeps | with_reducible apply Keeps.ite | with_reducible apply Keeps.ite2

theorem State.onBlock_keeps {z : State} (s : State) (h1 : Nat) (b : Nat) (x : Holds) (f : State → BitVec 512 → State)
    (h0 : Keeps z s) (h4 : ∀ y0 y1, Keeps z y0 → Keeps z (f y0 y1)) :
    Keeps z (State.onBlock s h1 b x f) := by
  unfold State.onBlock
  repeat' first
    | with_reducible assumption | with_reducible apply h4 | extract_lets | with_reducible apply State.readBlock_keeps
    | with_reducible apply Keeps.ite

theorem State.patternBlocks_keeps {z : State} (s : State) (h1 : Nat) (b : Nat) (n : Nat) (v : BitVec 512) (h0 : Keeps z s) :
    Keeps z (State.patternBlocks s h1 b n v) := by
  unfold State.patternBlocks
  repeat' first
    | with_reducible assumption | intro _ | extract_lets | with_reducible apply State.putBlock_keeps
    | with_reducible apply Keeps.foldl

theorem State.combine_keeps {z : State} (s : State) (h1 : Nat) (cmd : Nat) (b : Nat) (j : Nat) (d : Nat) (x : Holds)
    (h0 : Keeps z s) :
    Keeps z (State.combine s h1 cmd b j d x) := by
  unfold State.combine
  repeat' first
    | with_reducible assumption | intro _ | extract_lets | with_reducible apply State.onBlock_keeps
    | with_reducible apply State.bump_keeps | with_reducible apply State.putBlock_keeps | with_reducible apply Keeps.ite

theorem State.stackCommand_keeps {z : State} (s : State) (h1 : Nat) (cmd : Nat) (b : Nat) (word : Nat) (count : Nat)
    (data : BitVec 512) (x : Holds) (h0 : Keeps z s) :
    Keeps z (State.stackCommand s h1 cmd b word count data x) := by
  unfold State.stackCommand
  repeat' first
    | with_reducible assumption | intro _ | extract_lets | with_reducible apply State.onBlock_keeps
    | with_reducible apply State.putBlock_keeps | with_reducible apply State.patternBlocks_keeps
    | with_reducible apply State.combine_keeps | fail_if_no_progress (with_reducible apply Keeps.upd) | split

theorem execPartRequest_keeps {z : State} (a : Access) (record : BitVec 64) (s : State) (h2 : Keeps z s) :
    KeepsNext z (execPartRequest a record s) := by
  unfold execPartRequest
  repeat' first
    | with_reducible assumption | intro _ | extract_lets | with_reducible apply State.writeOne_keeps
    | with_reducible apply State.wr_keeps | with_reducible apply State.evalStarts_keeps
    | with_reducible apply State.raise_keeps | with_reducible apply KeepsNext.next
    | fail_if_no_progress (with_reducible apply Keeps.upd)

theorem State.transferred_keeps {z : State} (s : State) (h1 : Nat) (cls : Nat) (h0 : Keeps z s) :
    Keeps z (State.transferred s h1 cls) := by
  unfold State.transferred
  repeat' first
    | with_reducible assumption | extract_lets | with_reducible apply State.countEvent_keeps
    | with_reducible apply State.countFixed_keeps

theorem execStackCommandDone_keeps {z : State} (t0 : Time) (stack : Nat) (cmd : Nat) (block : Nat) (count : Nat)
    (retries : Nat) (failed : Bool) (x : Carried) (holds : Holds) (s : State) (h12 : Keeps z s) :
    KeepsNext z (execStackCommandDone t0 stack cmd block count retries failed x holds s) := by
  unfold execStackCommandDone
  repeat' first
    | with_reducible assumption | extract_lets | with_reducible apply State.begin_keeps
    | with_reducible apply State.transferred_keeps | with_reducible apply State.bump_keeps
    | with_reducible apply State.excludeStack_keeps | with_reducible apply State.stackCommand_keeps
    | with_reducible apply State.upset_keeps
    | (refine Keeps.some_eq (by with_reducible assumption) ?_; with_reducible apply State.serve_keeps)
    | with_reducible apply KeepsNext.next | with_reducible apply Keeps.ite | split

theorem State.scrubNext_keeps {z : State} (s : State) (h1 : Nat) (h0 : Keeps z s) :
    Keeps z (State.scrubNext s h1) := by
  unfold State.scrubNext
  repeat' first
    | with_reducible assumption | extract_lets | with_reducible apply State.bump_keeps
    | fail_if_no_progress (with_reducible apply Keeps.upd) | with_reducible apply Keeps.ite

theorem execScrubStep_keeps {z : State} (t0 : Time) (stack : Nat) (met : Met) (holds : Holds) (s : State)
    (h5 : Keeps z s) :
    KeepsNext z (execScrubStep t0 stack met holds s) := by
  unfold execScrubStep
  repeat' first
    | with_reducible assumption | intro _ | extract_lets | with_reducible apply State.begin_keeps
    | with_reducible apply State.upset_keeps | with_reducible apply State.scrubNext_keeps
    | with_reducible apply State.onBlock_keeps | with_reducible apply State.putBlock_keeps
    | with_reducible apply KeepsNext.next | with_reducible apply Keeps.ite

theorem execStackTempSample_keeps {z : State} (t0 : Time) (stack : Nat) (temp : Int) (s : State) (h3 : Keeps z s) :
    KeepsNext z (execStackTempSample t0 stack temp s) := by
  unfold execStackTempSample
  repeat' first
    | with_reducible assumption | extract_lets | with_reducible apply State.begin_keeps | with_reducible apply State.wr_keeps
    | with_reducible apply State.raise_keeps | with_reducible apply State.raiseLim_keeps
    | with_reducible apply State.excludeStack_keeps | with_reducible apply KeepsNext.next | with_reducible apply Keeps.ite

theorem State.rejoined_keeps {z : State} (s : State) (h0 : Keeps z s) :
    Keeps z (State.rejoined s) := by
  unfold State.rejoined
  repeat' first
    | with_reducible assumption | extract_lets | with_reducible apply State.wr_keeps | with_reducible apply State.raise_keeps
    | fail_if_no_progress (with_reducible apply Keeps.upd)

theorem execKeeperSwitch_keeps {z : State} (a : Access) (value : Nat) (s : State) (h2 : Keeps z s) :
    KeepsNext z (execKeeperSwitch a value s) := by
  unfold execKeeperSwitch
  repeat' first
    | with_reducible assumption | intro _ | extract_lets | with_reducible apply State.writeOne_keeps
    | with_reducible apply State.takeover_keeps | with_reducible apply KeepsNext.next | with_reducible apply Keeps.ite

theorem execKeeperRejoin_keeps {z : State} (a : Access) (value : Nat) (s : State) (h2 : Keeps z s) :
    KeepsNext z (execKeeperRejoin a value s) := by
  unfold execKeeperRejoin
  repeat' first
    | with_reducible assumption | intro _ | extract_lets | with_reducible apply State.writeOne_keeps
    | with_reducible apply State.wr_keeps | with_reducible apply KeepsNext.next
    | fail_if_no_progress (with_reducible apply Keeps.upd) | with_reducible apply Keeps.ite

theorem State.moveStripe_keeps {z : State} (s : State) (x : Nat × Nat) (h0 : Keeps z s) :
    Keeps z (State.moveStripe s x) := by
  unfold State.moveStripe
  repeat' first
    | with_reducible assumption | extract_lets | with_reducible apply State.setTensor_keeps | split

theorem execMigrationDone_keeps {z : State} (t0 : Time) (slot : Nat) (s : State) (h2 : Keeps z s) :
    KeepsNext z (execMigrationDone t0 slot s) := by
  unfold execMigrationDone
  repeat' first
    | with_reducible assumption | intro _ | extract_lets | with_reducible apply State.begin_keeps
    | with_reducible apply State.moveStripe_keeps | with_reducible apply State.modGraph_keeps
    | with_reducible apply State.raise_keeps | with_reducible apply KeepsNext.next | with_reducible apply Keeps.foldl
    | with_reducible apply Keeps.ite | split

theorem execChunkCompletion_keeps {z : State} (t0 : Time) (op : Nat) (inst : Nat) (phase : Nat) (chunk : Nat) (ups : List
    (Nat × Nat)) (bad : Nat) (s : State) (h7 : Keeps z s) :
    KeepsNext z (execChunkCompletion t0 op inst phase chunk ups bad s) := by
  unfold execChunkCompletion
  repeat' first
    | with_reducible assumption | extract_lets | with_reducible apply State.begin_keeps
    | with_reducible apply State.complete_keeps | with_reducible apply State.excludeDie_keeps
    | with_reducible apply KeepsNext.next | with_reducible apply Keeps.ite | split

theorem State.declareDie_keeps {z : State} (s : State) (die : Nat) (cause : Nat) (h0 : Keeps z s) :
    Keeps z (State.declareDie s die cause) := by
  unfold State.declareDie
  repeat' first
    | with_reducible assumption | extract_lets | with_reducible apply State.excludeDie_keeps | with_reducible apply Keeps.ite

theorem execHealthFlitAbsent_keeps {z : State} (t0 : Time) (die : Nat) (s : State) (h2 : Keeps z s) :
    KeepsNext z (execHealthFlitAbsent t0 die s) := by
  unfold execHealthFlitAbsent
  repeat' first
    | with_reducible assumption | extract_lets | with_reducible apply State.declareDie_keeps
    | with_reducible apply State.begin_keeps | with_reducible apply KeepsNext.next

theorem execHealthFlitFatal_keeps {z : State} (t0 : Time) (die : Nat) (s : State) (h2 : Keeps z s) :
    KeepsNext z (execHealthFlitFatal t0 die s) := by
  unfold execHealthFlitFatal
  repeat' first
    | with_reducible assumption | extract_lets | with_reducible apply State.declareDie_keeps
    | with_reducible apply State.begin_keeps | with_reducible apply KeepsNext.next

theorem execKeeperTakeover_keeps {z : State} (t0 : Time) (fatal : Bool) (s : State) (h2 : Keeps z s) :
    KeepsNext z (execKeeperTakeover t0 fatal s) := by
  unfold execKeeperTakeover
  repeat' first
    | with_reducible assumption | extract_lets | with_reducible apply State.begin_keeps
    | with_reducible apply State.excludeKeeper_keeps | with_reducible apply KeepsNext.next

theorem execKeeperRejoined_keeps {z : State} (t0 : Time) (s : State) (h1 : Keeps z s) :
    KeepsNext z (execKeeperRejoined t0 s) := by
  unfold execKeeperRejoined
  repeat' first
    | with_reducible assumption | extract_lets | with_reducible apply State.begin_keeps
    | with_reducible apply State.rejoined_keeps | with_reducible apply KeepsNext.next | with_reducible apply Keeps.ite

theorem State.remap_keeps {z : State} (s : State) (n : Nat) (h0 : Keeps z s) :
    Keeps z (State.remap s n) := by
  unfold State.remap
  repeat' first
    | with_reducible assumption | intro _ | extract_lets | with_reducible apply State.wr_keeps
    | with_reducible apply State.portDown_keeps | with_reducible apply State.publishCapacity_keeps
    | with_reducible apply State.raise_keeps | with_reducible apply Keeps.foldl | with_reducible apply Keeps.ite

theorem State.setUcie_keeps {z : State} (s : State) (m : Nat) (u : Ucie) (h0 : Keeps z s) :
    Keeps z (State.setUcie s m u) := by
  unfold State.setUcie
  repeat' first
    | with_reducible assumption | extract_lets | fail_if_no_progress (with_reducible apply Keeps.upd)

theorem State.retrain_keeps {z : State} (s : State) (m : Nat) (u : Ucie) (h0 : Keeps z s) :
    Keeps z (State.retrain s m u) := by
  unfold State.retrain
  repeat' first
    | with_reducible assumption | extract_lets | with_reducible apply State.remap_keeps
    | with_reducible apply State.setUcie_keeps | with_reducible apply State.wr_keeps

theorem execModuleRetrain_keeps {z : State} (a : Access) (module : Nat) (s : State) (h2 : Keeps z s) :
    KeepsNext z (execModuleRetrain a module s) := by
  unfold execModuleRetrain
  repeat' first
    | with_reducible assumption | intro _ | extract_lets | with_reducible apply State.writeOne_keeps
    | with_reducible apply State.retrain_keeps | with_reducible apply State.wr_keeps | with_reducible apply KeepsNext.next
    | with_reducible apply Keeps.ite

theorem State.publishOnce_keeps {z : State} (s : State) (before : State) (h0 : Keeps z s) (h1 : Keeps z before) :
    Keeps z (State.publishOnce s before) := by
  unfold State.publishOnce
  repeat' first
    | with_reducible assumption | extract_lets | with_reducible apply State.publishCapacity_keeps
    | with_reducible apply Keeps.ite

theorem State.logWidth_keeps {z : State} (s : State) (record : Nat) (h0 : Keeps z s) :
    Keeps z (State.logWidth s record) := by
  unfold State.logWidth
  repeat' first
    | with_reducible assumption | extract_lets | with_reducible apply State.raise_keeps
    | with_reducible apply State.bump32_keeps | with_reducible apply State.wr_keeps

theorem State.trainEnds_keeps {z : State} (s : State) (m : Nat) (width : Nat) (h0 : Keeps z s) :
    Keeps z (State.trainEnds s m width) := by
  unfold State.trainEnds
  repeat' first
    | with_reducible assumption | extract_lets | with_reducible apply State.setUcie_keeps
    | with_reducible apply State.logWidth_keeps | with_reducible apply State.free_keeps | with_reducible apply State.wr_keeps
    | with_reducible apply Keeps.ite | split | dsimp +zetaDelta only

theorem State.moduleFails_keeps {z : State} (s : State) (m : Nat) (h0 : Keeps z s) :
    Keeps z (State.moduleFails s m) := by
  unfold State.moduleFails
  repeat' first
    | with_reducible assumption | extract_lets | with_reducible apply State.wr_keeps
    | with_reducible apply State.publishOnce_keeps | with_reducible apply State.remap_keeps
    | with_reducible apply State.trainEnds_keeps | with_reducible apply State.raise_keeps

theorem execModuleTrained_keeps {z : State} (t0 : Time) (module : Nat) (rate : Nat) (width : Nat) (upper : Bool)
    (repairs : Nat) (s : State) (h6 : Keeps z s) :
    KeepsNext z (execModuleTrained t0 module rate width upper repairs s) := by
  unfold execModuleTrained
  repeat' first
    | with_reducible assumption | extract_lets | with_reducible apply State.begin_keeps
    | with_reducible apply State.moduleFails_keeps | with_reducible apply State.wr_keeps
    | with_reducible apply State.raise_keeps | with_reducible apply State.remap_keeps
    | with_reducible apply State.trainEnds_keeps | with_reducible apply KeepsNext.next | with_reducible apply Keeps.ite

theorem execModuleTrainTimeout_keeps {z : State} (t0 : Time) (module : Nat) (s : State) (h2 : Keeps z s) :
    KeepsNext z (execModuleTrainTimeout t0 module s) := by
  unfold execModuleTrainTimeout
  repeat' first
    | with_reducible assumption | extract_lets | with_reducible apply State.begin_keeps
    | with_reducible apply State.moduleFails_keeps | with_reducible apply KeepsNext.next | with_reducible apply Keeps.ite

theorem execFailedLane_keeps {z : State} (t0 : Time) (module : Nat) (replays : Nat) (s : State) (h3 : Keeps z s) :
    KeepsNext z (execFailedLane t0 module replays s) := by
  unfold execFailedLane
  repeat' first
    | with_reducible assumption | extract_lets | with_reducible apply State.begin_keeps | with_reducible apply State.wr_keeps
    | with_reducible apply State.bump_keeps | with_reducible apply State.countEvent_keeps
    | with_reducible apply State.resendLane_keeps | with_reducible apply State.remap_keeps
    | with_reducible apply State.setUcie_keeps | with_reducible apply KeepsNext.next | with_reducible apply Keeps.ite

theorem execWidthExchange_keeps {z : State} (t0 : Time) (module : Nat) (reset : Nat) (widthS : Nat) (widthE : Nat)
    (s : State) (h5 : Keeps z s) :
    KeepsNext z (execWidthExchange t0 module reset widthS widthE s) := by
  unfold execWidthExchange
  repeat' first
    | with_reducible assumption | extract_lets | with_reducible apply State.begin_keeps
    | with_reducible apply State.remap_keeps | with_reducible apply State.setUcie_keeps | with_reducible apply State.wr_keeps
    | with_reducible apply State.retrain_keeps | with_reducible apply KeepsNext.next | with_reducible apply Keeps.ite

theorem execStitchNak_keeps {z : State} (t0 : Time) (pair : Nat) (ch : Nat) (flits : Nat) (s : State) (h4 : Keeps z s) :
    KeepsNext z (execStitchNak t0 pair ch flits s) := by
  unfold execStitchNak
  repeat' first
    | with_reducible assumption | extract_lets | with_reducible apply State.begin_keeps
    | with_reducible apply State.setChannel_keeps | with_reducible apply State.bump_keeps
    | with_reducible apply KeepsNext.next | with_reducible apply Keeps.ite

theorem execChannelTestStart_keeps {z : State} (t0 : Time) (pair : Nat) (ch : Nat) (s : State) (h3 : Keeps z s) :
    KeepsNext z (execChannelTestStart t0 pair ch s) := by
  unfold execChannelTestStart
  repeat' first
    | with_reducible assumption | extract_lets | with_reducible apply State.begin_keeps
    | with_reducible apply State.showPair_keeps | with_reducible apply State.reassign_keeps
    | with_reducible apply State.setChannel_keeps | with_reducible apply KeepsNext.next | with_reducible apply Keeps.ite

theorem State.bundleEmpty_keeps {z : State} (s : State) (pair : Nat) (h0 : Keeps z s) :
    Keeps z (State.bundleEmpty s pair) := by
  unfold State.bundleEmpty
  repeat' first
    | with_reducible assumption | extract_lets | with_reducible apply State.excludeDie_keeps
    | with_reducible apply State.checkRing_keeps | with_reducible apply State.raise_keeps | with_reducible apply Keeps.ite

theorem State.channelFails_keeps {z : State} (s : State) (pair : Nat) (ch : Nat) (bad : List Nat) (h0 : Keeps z s) :
    Keeps z (State.channelFails s pair ch bad) := by
  unfold State.channelFails
  repeat' first
    | with_reducible assumption | intro _ | extract_lets | with_reducible apply State.showPair_keeps
    | with_reducible apply State.reassign_keeps | with_reducible apply State.setChannel_keeps
    | with_reducible apply State.publishCapacity_keeps | with_reducible apply State.raise_keeps
    | with_reducible apply State.bundleEmpty_keeps | with_reducible apply Keeps.foldl | with_reducible apply Keeps.ite

theorem execChannelTestDone_keeps {z : State} (t0 : Time) (pair : Nat) (ch : Nat) (wires : List Nat) (s : State)
    (h4 : Keeps z s) :
    KeepsNext z (execChannelTestDone t0 pair ch wires s) := by
  unfold execChannelTestDone
  repeat' first
    | with_reducible assumption | extract_lets | with_reducible apply State.begin_keeps
    | with_reducible apply State.bump_keeps | with_reducible apply State.showPair_keeps
    | with_reducible apply State.reassign_keeps | with_reducible apply State.setChannel_keeps
    | with_reducible apply State.channelFails_keeps | with_reducible apply KeepsNext.next | with_reducible apply Keeps.ite

theorem execRingEntryWait_keeps {z : State} (t0 : Time) (quire : Nat) (s : State) (h2 : Keeps z s) :
    KeepsNext z (execRingEntryWait t0 quire s) := by
  unfold execRingEntryWait
  repeat' first
    | with_reducible assumption | extract_lets | with_reducible apply State.begin_keeps
    | with_reducible apply State.bump_keeps | with_reducible apply KeepsNext.next | with_reducible apply Keeps.ite

end Sys2Proof.Machine
end

