-- ==== Sys2Proof/Laws/KeepsFabric.lean ====
section
/-!
SUPPORT. What each function keeps (`Keeps`): Optics, rings, jobs, spawns and peers.
-/
namespace Sys2Proof.Machine

theorem execPortAdmin_keeps {z : State} (a : Access) (port : Nat) (value : Nat) (s : State) (h3 : Keeps z s) :
    KeepsNext z (execPortAdmin a port value s) := by
  unfold execPortAdmin
  repeat' first
    | with_reducible assumption | intro _ | extract_lets | with_reducible apply State.writeOne_keeps
    | with_reducible apply State.wr_keeps | with_reducible apply State.portDown_keeps | with_reducible apply State.remap_keeps
    | with_reducible apply KeepsNext.next | with_reducible apply Keeps.ite

theorem execFiberMode_keeps {z : State} (a : Access) (fiber : Nat) (value : Nat) (s : State) (h3 : Keeps z s) :
    KeepsNext z (execFiberMode a fiber value s) := by
  unfold execFiberMode
  repeat' first
    | with_reducible assumption | intro _ | extract_lets | with_reducible apply State.writeOne_keeps
    | with_reducible apply State.wr_keeps | with_reducible apply State.remap_keeps | with_reducible apply KeepsNext.next
    | with_reducible apply Keeps.foldl | with_reducible apply Keeps.ite

theorem execNarrowEn_keeps {z : State} (a : Access) (port : Nat) (value : Nat) (s : State) (h3 : Keeps z s) :
    KeepsNext z (execNarrowEn a port value s) := by
  unfold execNarrowEn
  repeat' first
    | with_reducible assumption | intro _ | extract_lets | with_reducible apply State.writeOne_keeps
    | with_reducible apply State.putValue_keeps | with_reducible apply KeepsNext.next

theorem execLaserEnable_keeps {z : State} (a : Access) (laser : Nat) (value : Nat) (s : State) (h3 : Keeps z s) :
    KeepsNext z (execLaserEnable a laser value s) := by
  unfold execLaserEnable
  repeat' first
    | with_reducible assumption | intro _ | extract_lets | with_reducible apply State.writeOne_keeps
    | with_reducible apply State.putValue_keeps | with_reducible apply State.wr_keeps | with_reducible apply KeepsNext.next
    | with_reducible apply Keeps.ite

theorem execBerMeasure_keeps {z : State} (t0 : Time) (port : Nat) (ber : Nat) (corrected : Nat) (uncorrected : Nat)
    (s : State) (h5 : Keeps z s) :
    KeepsNext z (execBerMeasure t0 port ber corrected uncorrected s) := by
  unfold execBerMeasure
  repeat' first
    | with_reducible assumption | extract_lets | with_reducible apply State.begin_keeps
    | with_reducible apply State.bump_keeps | with_reducible apply State.wr_keeps
    | with_reducible apply State.countEvent_keeps | with_reducible apply State.countFixed_keeps
    | with_reducible apply State.raiseLim_keeps | with_reducible apply KeepsNext.next | with_reducible apply Keeps.ite

theorem State.setBus_keeps {z : State} (s : State) (n : Nat) (st : Nat) (h0 : Keeps z s) :
    Keeps z (State.setBus s n st) := by
  unfold State.setBus
  repeat' first
    | with_reducible assumption | extract_lets | with_reducible apply State.wr_keeps | with_reducible apply State.raise_keeps
    | with_reducible apply Keeps.ite

theorem State.laserReport_keeps {z : State} (s : State) (l : Nat) (present : Bool) (on : Bool) (alarm : Nat)
    (powers : List Int) (tones : List Nat) (h0 : Keeps z s) :
    Keeps z (State.laserReport s l present on alarm powers tones) := by
  unfold State.laserReport
  repeat' first
    | with_reducible assumption | intro _ | extract_lets | with_reducible apply State.wr_keeps
    | with_reducible apply State.raise_keeps | with_reducible apply Keeps.foldl | with_reducible apply Keeps.ite

theorem execLaserPoll_keeps {z : State} (t0 : Time) (laser : Nat) (answers : Bool) (present : Bool) (on : Bool)
    (alarm : Nat) (powers : List Int) (tones : List Nat) (s : State) (h8 : Keeps z s) :
    KeepsNext z (execLaserPoll t0 laser answers present on alarm powers tones s) := by
  unfold execLaserPoll
  repeat' first
    | with_reducible assumption | extract_lets | with_reducible apply State.begin_keeps
    | with_reducible apply State.setBus_keeps | with_reducible apply State.laserReport_keeps
    | with_reducible apply KeepsNext.next | with_reducible apply Keeps.ite

theorem execLmInt_keeps {z : State} (t0 : Time) (bus : Nat) (reads : List (Bool × Bool × Nat × List Int × List Nat))
    (s : State) (h3 : Keeps z s) :
    KeepsNext z (execLmInt t0 bus reads s) := by
  unfold execLmInt
  repeat' first
    | with_reducible assumption | intro _ | extract_lets | with_reducible apply State.begin_keeps
    | with_reducible apply State.laserReport_keeps | with_reducible apply KeepsNext.next | with_reducible apply Keeps.foldl
    | with_reducible apply Keeps.ite

theorem execLmBusStuck_keeps {z : State} (t0 : Time) (bus : Nat) (low : Bool) (s : State) (h3 : Keeps z s) :
    KeepsNext z (execLmBusStuck t0 bus low s) := by
  unfold execLmBusStuck
  repeat' first
    | with_reducible assumption | extract_lets | with_reducible apply State.begin_keeps
    | with_reducible apply State.setBus_keeps | with_reducible apply KeepsNext.next | with_reducible apply Keeps.ite

theorem execLmBusRetry_keeps {z : State} (t0 : Time) (bus : Nat) (found : Nat) (s : State) (h3 : Keeps z s) :
    KeepsNext z (execLmBusRetry t0 bus found s) := by
  unfold execLmBusRetry
  repeat' first
    | with_reducible assumption | extract_lets | with_reducible apply State.begin_keeps
    | with_reducible apply State.setBus_keeps | with_reducible apply KeepsNext.next | with_reducible apply Keeps.ite

theorem State.locate_keeps {z : State} (s : State) (c : Nat) (h0 : Keeps z s) :
    Keeps z (State.locate s c) := by
  unfold State.locate
  repeat' first
    | with_reducible assumption | extract_lets | with_reducible apply State.wr_keeps
    | with_reducible apply State.raiseLim_keeps | with_reducible apply Keeps.ite

theorem execMonitorRead_keeps {z : State} (t0 : Time) (engine : Nat) (readings : List (Nat × Nat × Int)) (s : State)
    (h3 : Keeps z s) :
    KeepsNext z (execMonitorRead t0 engine readings s) := by
  unfold execMonitorRead
  repeat' first
    | with_reducible assumption | intro _ | extract_lets | with_reducible apply State.begin_keeps
    | with_reducible apply State.wr_keeps | with_reducible apply State.locate_keeps | with_reducible apply KeepsNext.next
    | with_reducible apply Keeps.foldl | with_reducible apply Keeps.ite

theorem State.excludeEngine_keeps {z : State} (s : State) (n : Nat) (cause : Nat) (h0 : Keeps z s) :
    Keeps z (State.excludeEngine s n cause) := by
  unfold State.excludeEngine
  repeat' first
    | with_reducible assumption | intro _ | extract_lets | with_reducible apply State.wr_keeps
    | with_reducible apply State.raise_keeps | with_reducible apply State.portDown_keeps
    | with_reducible apply State.publishCapacity_keeps | with_reducible apply Keeps.foldl | with_reducible apply Keeps.ite

theorem State.admitEngine_keeps {z : State} (s : State) (n : Nat) (v : Nat) (h0 : Keeps z s) :
    Keeps z (State.admitEngine s n v) := by
  unfold State.admitEngine
  repeat' first
    | with_reducible assumption | intro _ | extract_lets | with_reducible apply State.wr_keeps
    | with_reducible apply State.remap_keeps | with_reducible apply Keeps.foldl | with_reducible apply Keeps.ite

theorem execEngineDiscovery_keeps {z : State} (t0 : Time) (engine : Nat) (record : BitVec 512) (sideband : Bool) (s : State)
    (h4 : Keeps z s) :
    KeepsNext z (execEngineDiscovery t0 engine record sideband s) := by
  unfold execEngineDiscovery
  repeat' first
    | with_reducible assumption | extract_lets | with_reducible apply State.begin_keeps
    | with_reducible apply State.excludeEngine_keeps | with_reducible apply State.admitEngine_keeps
    | with_reducible apply KeepsNext.next | with_reducible apply Keeps.ite

theorem execBypassLossMeasure_keeps {z : State} (t0 : Time) (circuit : Nat) (loss : Int) (s : State) (h3 : Keeps z s) :
    KeepsNext z (execBypassLossMeasure t0 circuit loss s) := by
  unfold execBypassLossMeasure
  repeat' first
    | with_reducible assumption | extract_lets | with_reducible apply State.begin_keeps | with_reducible apply State.wr_keeps
    | with_reducible apply State.raise_keeps | with_reducible apply KeepsNext.next | with_reducible apply Keeps.ite

theorem State.setLoop_keeps {z : State} (s : State) (r : Nat) (x : RingLoop) (h0 : Keeps z s) :
    Keeps z (State.setLoop s r x) := by
  unfold State.setLoop
  repeat' first
    | with_reducible assumption | extract_lets | fail_if_no_progress (with_reducible apply Keeps.upd)

theorem State.clearBypassRings_keeps {z : State} (s : State) (c : Nat) (h0 : Keeps z s) :
    Keeps z (State.clearBypassRings s c) := by
  unfold State.clearBypassRings
  repeat' first
    | with_reducible assumption | extract_lets | with_reducible apply State.setLoop_keeps
    | with_reducible apply State.wr_keeps

theorem State.park_keeps {z : State} (s : State) (r : Nat) (h0 : Keeps z s) :
    Keeps z (State.park s r) := by
  unfold State.park
  repeat' first
    | with_reducible assumption | extract_lets | with_reducible apply State.wr_keeps | with_reducible apply Keeps.ite

theorem State.createBypass_keeps {z : State} (s : State) (v : Nat) (h0 : Keeps z s) :
    Keeps z (State.createBypass s v) := by
  unfold State.createBypass
  repeat' first
    | with_reducible assumption | extract_lets | with_reducible apply State.clearBypassRings_keeps
    | with_reducible apply State.park_keeps | with_reducible apply State.remap_keeps | with_reducible apply State.wr_keeps
    | fail_if_no_progress (with_reducible apply Keeps.upd)

theorem State.unpark_keeps {z : State} (s : State) (r : Nat) (h0 : Keeps z s) :
    Keeps z (State.unpark s r) := by
  unfold State.unpark
  repeat' first
    | with_reducible assumption | extract_lets | with_reducible apply State.wr_keeps | with_reducible apply Keeps.ite

theorem State.deleteBypass_keeps {z : State} (s : State) (v : Nat) (h0 : Keeps z s) :
    Keeps z (State.deleteBypass s v) := by
  unfold State.deleteBypass
  repeat' first
    | with_reducible assumption | extract_lets | with_reducible apply State.clearBypassRings_keeps
    | with_reducible apply State.unpark_keeps | with_reducible apply State.remap_keeps | with_reducible apply State.wr_keeps
    | fail_if_no_progress (with_reducible apply Keeps.upd) | split

theorem State.bypassAct_keeps {z : State} (v : Nat) (s : State) (h1 : Keeps z s) :
    Keeps z (State.bypassAct v s) := by
  unfold State.bypassAct
  repeat' first
    | with_reducible assumption | extract_lets | with_reducible apply State.createBypass_keeps
    | with_reducible apply State.deleteBypass_keeps | with_reducible apply Keeps.ite

theorem execBypassCreate_keeps {z : State} (a : Access) (record : BitVec 64) (s : State) (h2 : Keeps z s) :
    KeepsNext z (execBypassCreate a record s) := by
  unfold execBypassCreate
  repeat' first
    | with_reducible assumption | intro _ | extract_lets | with_reducible apply State.writeOne_keeps
    | with_reducible apply State.bypassAct_keeps | with_reducible apply KeepsNext.next

theorem State.bypassDown_keeps {z : State} (s : State) (c : Nat) (h0 : Keeps z s) :
    Keeps z (State.bypassDown s c) := by
  unfold State.bypassDown
  repeat' first
    | with_reducible assumption | extract_lets | with_reducible apply State.wr_keeps | with_reducible apply State.free_keeps
    | with_reducible apply State.raise_keeps | with_reducible apply Keeps.ite

theorem State.ringLeft_keeps {z : State} (s : State) (r : Nat) (h0 : Keeps z s) :
    Keeps z (State.ringLeft s r) := by
  unfold State.ringLeft
  repeat' first
    | with_reducible assumption | extract_lets | with_reducible apply State.countEvent_keeps
    | with_reducible apply State.portDown_keeps | with_reducible apply State.bypassDown_keeps
    | with_reducible apply State.free_keeps | with_reducible apply State.raise_keeps | with_reducible apply State.wr_keeps
    | with_reducible apply Keeps.ite

theorem execRingLockLost_keeps {z : State} (t0 : Time) (ring : Nat) (s : State) (h2 : Keeps z s) :
    KeepsNext z (execRingLockLost t0 ring s) := by
  unfold execRingLockLost
  repeat' first
    | with_reducible assumption | extract_lets | with_reducible apply State.begin_keeps
    | with_reducible apply State.bump_keeps | with_reducible apply State.ringLeft_keeps | with_reducible apply State.wr_keeps
    | with_reducible apply KeepsNext.next | with_reducible apply Keeps.ite

theorem execRingRetry_keeps {z : State} (a : Access) (ring : Nat) (s : State) (h2 : Keeps z s) :
    KeepsNext z (execRingRetry a ring s) := by
  unfold execRingRetry
  repeat' first
    | with_reducible assumption | intro _ | extract_lets | with_reducible apply State.writeOne_keeps
    | with_reducible apply State.wr_keeps | with_reducible apply KeepsNext.next | with_reducible apply Keeps.ite

theorem execBypassDelete_keeps {z : State} (a : Access) (record : BitVec 64) (s : State) (h2 : Keeps z s) :
    KeepsNext z (execBypassDelete a record s) := by
  unfold execBypassDelete
  repeat' first
    | with_reducible assumption | intro _ | extract_lets | with_reducible apply State.writeOne_keeps
    | with_reducible apply State.bypassAct_keeps | with_reducible apply KeepsNext.next

theorem State.engineDark_keeps {z : State} (s : State) (n : Nat) (h0 : Keeps z s) :
    Keeps z (State.engineDark s n) := by
  unfold State.engineDark
  repeat' first
    | with_reducible assumption | intro _ | extract_lets | with_reducible apply State.wr_keeps
    | with_reducible apply State.ringLeft_keeps | with_reducible apply State.portDown_keeps | with_reducible apply Keeps.foldl
    | with_reducible apply Keeps.ite

theorem State.ringFaults_keeps {z : State} (s : State) (r : Nat) (h0 : Keeps z s) :
    Keeps z (State.ringFaults s r) := by
  unfold State.ringFaults
  repeat' first
    | with_reducible assumption | extract_lets | with_reducible apply State.wr_keeps
    | with_reducible apply State.publishCapacity_keeps | with_reducible apply State.raise_keeps
    | with_reducible apply Keeps.ite

theorem execLightPresent_keeps {z : State} (t0 : Time) (ring : Nat) (s : State) (h2 : Keeps z s) :
    KeepsNext z (execLightPresent t0 ring s) := by
  unfold execLightPresent
  repeat' first
    | with_reducible assumption | extract_lets | with_reducible apply State.begin_keeps
    | with_reducible apply State.setLoop_keeps | with_reducible apply State.wr_keeps | with_reducible apply KeepsNext.next
    | with_reducible apply Keeps.ite

theorem execLightLost_keeps {z : State} (t0 : Time) (ring : Nat) (s : State) (h2 : Keeps z s) :
    KeepsNext z (execLightLost t0 ring s) := by
  unfold execLightLost
  repeat' first
    | with_reducible assumption | extract_lets | with_reducible apply State.begin_keeps | with_reducible apply State.wr_keeps
    | with_reducible apply State.ringLeft_keeps | with_reducible apply KeepsNext.next | with_reducible apply Keeps.ite

theorem State.sweepFails_keeps {z : State} (s : State) (r : Nat) (h0 : Keeps z s) :
    Keeps z (State.sweepFails s r) := by
  unfold State.sweepFails
  repeat' first
    | with_reducible assumption | extract_lets | with_reducible apply State.setLoop_keeps
    | with_reducible apply State.ringFaults_keeps | with_reducible apply State.wr_keeps | with_reducible apply Keeps.ite

theorem State.expectedCode_keeps {z : State} (s : State) (r : Nat) (h0 : Keeps z s) :
    Keeps z (State.expectedCode s r).2 := by
  unfold State.expectedCode
  repeat' first
    | with_reducible assumption | extract_lets | with_reducible apply State.free_keeps
    | with_reducible apply State.setLoop_keeps | split

theorem State.nextCandidate_keeps {z : State} (s : State) (r : Nat) (h0 : Keeps z s) :
    Keeps z (State.nextCandidate s r) := by
  unfold State.nextCandidate
  repeat' first
    | with_reducible assumption | extract_lets | with_reducible apply State.sweepFails_keeps
    | with_reducible apply State.setLoop_keeps | with_reducible apply State.wr_keeps | split

theorem execSweepDone_keeps {z : State} (t0 : Time) (ring : Nat) (found : List Nat) (s : State) (h3 : Keeps z s) :
    KeepsNext z (execSweepDone t0 ring found s) := by
  unfold execSweepDone
  repeat' first
    | with_reducible assumption | extract_lets | with_reducible apply State.begin_keeps
    | with_reducible apply State.sweepFails_keeps | with_reducible apply State.expectedCode_keeps
    | with_reducible apply State.nextCandidate_keeps | with_reducible apply State.setLoop_keeps
    | with_reducible apply KeepsNext.next | with_reducible apply Keeps.ite

theorem State.orderOk_keeps {z : State} (s : State) (r : Nat) (h0 : Keeps z s) :
    Keeps z (State.orderOk s r).2 := by
  unfold State.orderOk
  repeat' first
    | with_reducible assumption | with_reducible apply State.expectedCode_keeps

theorem State.wrongLock_keeps {z : State} (s : State) (r : Nat) (tone : Nat) (h0 : Keeps z s) :
    Keeps z (State.wrongLock s r tone) := by
  unfold State.wrongLock
  repeat' first
    | with_reducible assumption | extract_lets | with_reducible apply State.bump_keeps
    | with_reducible apply State.raiseLim_keeps | with_reducible apply Keeps.ite

theorem State.ringLocked_keeps {z : State} (s : State) (r : Nat) (h0 : Keeps z s) :
    Keeps z (State.ringLocked s r) := by
  unfold State.ringLocked
  repeat' first
    | with_reducible assumption | extract_lets | with_reducible apply State.setLoop_keeps
    | with_reducible apply State.wr_keeps | with_reducible apply State.raise_keeps | with_reducible apply Keeps.ite

theorem execPilotWindow_keeps {z : State} (t0 : Time) (ring : Nat) (tone : Nat) (heater : Nat) (s : State) (h4 : Keeps z s) :
    KeepsNext z (execPilotWindow t0 ring tone heater s) := by
  unfold execPilotWindow
  repeat' first
    | with_reducible assumption | extract_lets | with_reducible apply State.begin_keeps
    | with_reducible apply State.setLoop_keeps | with_reducible apply State.wr_keeps
    | with_reducible apply State.orderOk_keeps | with_reducible apply State.nextCandidate_keeps
    | with_reducible apply State.wrongLock_keeps | with_reducible apply State.ringLocked_keeps
    | with_reducible apply State.ringLeft_keeps | with_reducible apply KeepsNext.next | with_reducible apply Keeps.ite

theorem execIdentifyTimeout_keeps {z : State} (t0 : Time) (ring : Nat) (s : State) (h2 : Keeps z s) :
    KeepsNext z (execIdentifyTimeout t0 ring s) := by
  unfold execIdentifyTimeout
  repeat' first
    | with_reducible assumption | extract_lets | with_reducible apply State.begin_keeps
    | with_reducible apply State.nextCandidate_keeps | with_reducible apply State.wrongLock_keeps
    | with_reducible apply KeepsNext.next | with_reducible apply Keeps.ite

theorem State.adoptCal_keeps {z : State} (s : State) (h0 : Keeps z s) :
    Keeps z (State.adoptCal s) := by
  unfold State.adoptCal
  repeat' first
    | with_reducible assumption | extract_lets | fail_if_no_progress (with_reducible apply Keeps.upd)
    | with_reducible apply Keeps.ite | split

theorem State.startCal_keeps {z : State} (s : State) (r : Nat) (h0 : Keeps z s) :
    Keeps z (State.startCal s r) := by
  unfold State.startCal
  repeat' first
    | with_reducible assumption | extract_lets | with_reducible apply State.wr_keeps | with_reducible apply Keeps.ite

theorem State.calChannel_keeps {z : State} (s : State) (c : Nat) (h0 : Keeps z s) :
    Keeps z (State.calChannel s c) := by
  unfold State.calChannel
  repeat' first
    | with_reducible assumption | extract_lets | with_reducible apply State.setNarrow_keeps
    | with_reducible apply State.startCal_keeps | with_reducible apply Keeps.ite

theorem execCalSlotStart_keeps {z : State} (t0 : Time) (s : State) (h1 : Keeps z s) :
    KeepsNext z (execCalSlotStart t0 s) := by
  unfold execCalSlotStart
  repeat' first
    | with_reducible assumption | intro _ | extract_lets | with_reducible apply State.adoptCal_keeps
    | with_reducible apply State.begin_keeps | with_reducible apply State.calChannel_keeps
    | with_reducible apply State.bump_keeps | with_reducible apply State.raise_keeps | with_reducible apply KeepsNext.next
    | fail_if_no_progress (with_reducible apply Keeps.upd) | with_reducible apply Keeps.foldl | with_reducible apply Keeps.ite
    | split

theorem execNarrowDeadline_keeps {z : State} (t0 : Time) (port : Nat) (s : State) (h2 : Keeps z s) :
    KeepsNext z (execNarrowDeadline t0 port s) := by
  unfold execNarrowDeadline
  repeat' first
    | with_reducible assumption | extract_lets | with_reducible apply State.begin_keeps
    | with_reducible apply State.raise_keeps | with_reducible apply State.bump_keeps
    | with_reducible apply State.portDown_keeps | with_reducible apply KeepsNext.next | with_reducible apply Keeps.ite | split

theorem State.calDone_keeps {z : State} (s : State) (r : Nat) (code : Nat) (tone : Nat) (h0 : Keeps z s) :
    Keeps z (State.calDone s r code tone) := by
  unfold State.calDone
  repeat' first
    | with_reducible assumption | extract_lets | with_reducible apply State.setLoop_keeps
    | with_reducible apply State.wr_keeps | with_reducible apply Keeps.ite

theorem execCalDone_keeps {z : State} (t0 : Time) (chan : Nat) (txCode : Nat) (txTone : Nat) (rxCode : Nat) (rxTone : Nat)
    (s : State) (h6 : Keeps z s) :
    KeepsNext z (execCalDone t0 chan txCode txTone rxCode rxTone s) := by
  unfold execCalDone
  repeat' first
    | with_reducible assumption | extract_lets | with_reducible apply State.begin_keeps
    | with_reducible apply State.calDone_keeps | with_reducible apply KeepsNext.next | with_reducible apply Keeps.ite

theorem execNarrowReturn_keeps {z : State} (t0 : Time) (port : Nat) (s : State) (h2 : Keeps z s) :
    KeepsNext z (execNarrowReturn t0 port s) := by
  unfold execNarrowReturn
  repeat' first
    | with_reducible assumption | extract_lets | with_reducible apply State.begin_keeps
    | with_reducible apply State.setNarrow_keeps | with_reducible apply KeepsNext.next | with_reducible apply Keeps.ite
    | split

theorem State.tellRefused_keeps {z : State} (s : State) (tag : Nat) (gen : Nat) (code : Nat) (h0 : Keeps z s) :
    Keeps z (State.tellRefused s tag gen code) := by
  unfold State.tellRefused
  repeat' first
    | with_reducible assumption | with_reducible apply State.raise_keeps

theorem State.reportJob_keeps {z : State} (s : State) (tag : Nat) (code : Nat) (h0 : Keeps z s) :
    Keeps z (State.reportJob s tag code) := by
  unfold State.reportJob
  repeat' first
    | with_reducible assumption | extract_lets | with_reducible apply State.setJob_keeps | with_reducible apply Keeps.ite

theorem State.startRefused_keeps {z : State} (v : Nat) (s : State) (h1 : Keeps z s) :
    Keeps z (State.startRefused v s) := by
  unfold State.startRefused
  repeat' first
    | with_reducible assumption | extract_lets | with_reducible apply State.tellRefused_keeps
    | with_reducible apply State.reportJob_keeps

theorem State.takeStart_keeps {z : State} (v : Nat) (s : State) (h1 : Keeps z s) :
    Keeps z (State.takeStart v s) := by
  unfold State.takeStart
  repeat' first
    | with_reducible assumption | extract_lets | with_reducible apply State.setJob_keeps
    | with_reducible apply State.evalStarts_keeps | with_reducible apply State.free_keeps
    | with_reducible apply State.raise_keeps | fail_if_no_progress (with_reducible apply Keeps.upd)
    | with_reducible apply Keeps.ite

theorem execJobStart_keeps {z : State} (a : Access) (record : BitVec 512) (s : State) (h2 : Keeps z s) :
    KeepsNext z (execJobStart a record s) := by
  unfold execJobStart
  repeat' first
    | with_reducible assumption | intro _ | extract_lets | with_reducible apply State.writeWith_keeps
    | with_reducible apply State.startRefused_keeps | with_reducible apply State.takeStart_keeps
    | with_reducible apply KeepsNext.next

theorem State.dropStart_keeps {z : State} (s : State) (tag : Nat) (code : Nat) (h0 : Keeps z s) :
    Keeps z (State.dropStart s tag code) := by
  unfold State.dropStart
  repeat' first
    | with_reducible assumption | extract_lets | with_reducible apply State.tellRefused_keeps
    | with_reducible apply State.setJob_keeps | fail_if_no_progress (with_reducible apply Keeps.upd)

theorem execJobWithdraw_keeps {z : State} (a : Access) (tag : Nat) (s : State) (h2 : Keeps z s) :
    KeepsNext z (execJobWithdraw a tag s) := by
  unfold execJobWithdraw
  repeat' first
    | with_reducible assumption | intro _ | extract_lets | with_reducible apply State.writeOne_keeps
    | with_reducible apply State.wr_keeps | with_reducible apply State.dropStart_keeps | with_reducible apply KeepsNext.next

theorem State.dropTables_keeps {z : State} (s : State) (tag : Nat) (h0 : Keeps z s) :
    Keeps z (State.dropTables s tag) := by
  unfold State.dropTables
  repeat' first
    | with_reducible assumption | intro _ | extract_lets | with_reducible apply State.wr_keeps
    | with_reducible apply State.showReserved_keeps | with_reducible apply State.countDraining_keeps
    | fail_if_no_progress (with_reducible apply Keeps.upd) | with_reducible apply Keeps.foldl

theorem State.dropOps_keeps {z : State} (s : State) (tag : Nat) (h0 : Keeps z s) :
    Keeps z (State.dropOps s tag) := by
  unfold State.dropOps
  repeat' first
    | with_reducible assumption | intro _ | extract_lets | with_reducible apply State.deregister_keeps
    | with_reducible apply State.endOp_keeps | with_reducible apply State.removeGraph_keeps
    | with_reducible apply State.dropTiles_keeps | with_reducible apply Keeps.foldl | with_reducible apply Keeps.ite

theorem State.dropRebuild_keeps {z : State} (s : State) (tag : Nat) (h0 : Keeps z s) :
    Keeps z (State.dropRebuild s tag) := by
  unfold State.dropRebuild
  repeat' first
    | with_reducible assumption | extract_lets | with_reducible apply State.failRebuild_keeps | with_reducible apply Keeps.ite
    | split

theorem State.dropCounters_keeps {z : State} (s : State) (tag : Nat) (h0 : Keeps z s) :
    Keeps z (State.dropCounters s tag) := by
  unfold State.dropCounters
  repeat' first
    | with_reducible assumption | intro _ | extract_lets | with_reducible apply State.wr_keeps
    | with_reducible apply Keeps.foldl

theorem State.purge_keeps {z : State} (s : State) (tag : Nat) (advance : Bool) (h0 : Keeps z s) :
    Keeps z (State.purge s tag advance) := by
  unfold State.purge
  repeat' first
    | with_reducible assumption | intro _ | extract_lets | with_reducible apply State.dropTables_keeps
    | with_reducible apply State.dropOps_keeps | with_reducible apply State.dropRebuild_keeps
    | with_reducible apply State.dropCounters_keeps | with_reducible apply State.removeParity_keeps
    | fail_if_no_progress (with_reducible apply Keeps.upd) | with_reducible apply Keeps.sessionFilter
    | with_reducible apply Keeps.foldl | with_reducible apply Keeps.ite

theorem State.takeRetire_keeps {z : State} (v : Nat) (s : State) (h1 : Keeps z s) :
    Keeps z (State.takeRetire v s) := by
  unfold State.takeRetire
  repeat' first
    | with_reducible assumption | extract_lets | with_reducible apply State.wr_keeps
    | with_reducible apply State.dropStart_keeps | with_reducible apply State.setJob_keeps
    | with_reducible apply State.purge_keeps | with_reducible apply Keeps.ite

theorem State.writeRetire_keeps {z : State} (s : State) (a : Access) (v : Nat) (h0 : Keeps z s) :
    Keeps z (State.writeRetire s a v) := by
  unfold State.writeRetire
  repeat' first
    | with_reducible assumption | intro _ | extract_lets | with_reducible apply State.writeWith_keeps
    | with_reducible apply State.reportJob_keeps | with_reducible apply State.takeRetire_keeps

theorem execJobAdvance_keeps {z : State} (a : Access) (record : BitVec 32) (s : State) (h2 : Keeps z s) :
    KeepsNext z (execJobAdvance a record s) := by
  unfold execJobAdvance
  repeat' first
    | with_reducible assumption | extract_lets | with_reducible apply State.writeRetire_keeps
    | with_reducible apply KeepsNext.next

theorem execJobRetire_keeps {z : State} (a : Access) (record : BitVec 32) (s : State) (h2 : Keeps z s) :
    KeepsNext z (execJobRetire a record s) := by
  unfold execJobRetire
  repeat' first
    | with_reducible assumption | extract_lets | with_reducible apply State.writeRetire_keeps
    | with_reducible apply KeepsNext.next

theorem execJobQuery_keeps {z : State} (a : Access) (record : BitVec 256) (s : State) (h2 : Keeps z s) :
    KeepsNext z (execJobQuery a record s) := by
  unfold execJobQuery
  repeat' first
    | with_reducible assumption | intro _ | extract_lets | with_reducible apply State.writeOne_keeps
    | with_reducible apply State.wr_keeps | with_reducible apply KeepsNext.next

theorem execJobQuota_keeps {z : State} (a : Access) (record : BitVec 512) (s : State) (h2 : Keeps z s) :
    KeepsNext z (execJobQuota a record s) := by
  unfold execJobQuota
  repeat' first
    | with_reducible assumption | intro _ | extract_lets | with_reducible apply State.writeOne_keeps
    | with_reducible apply State.wr_keeps | with_reducible apply KeepsNext.next

theorem execRetireSlow_keeps {z : State} (t0 : Time) (tag : Nat) (s : State) (h2 : Keeps z s) :
    KeepsNext z (execRetireSlow t0 tag s) := by
  unfold execRetireSlow
  repeat' first
    | with_reducible assumption | extract_lets | with_reducible apply State.begin_keeps
    | with_reducible apply State.raise_keeps | with_reducible apply State.setJob_keeps | with_reducible apply KeepsNext.next
    | with_reducible apply Keeps.ite

theorem execPendingLimitExpiry_keeps {z : State} (t0 : Time) (tag : Nat) (s : State) (h2 : Keeps z s) :
    KeepsNext z (execPendingLimitExpiry t0 tag s) := by
  unfold execPendingLimitExpiry
  repeat' first
    | with_reducible assumption | extract_lets | with_reducible apply State.begin_keeps
    | with_reducible apply State.evalStarts_keeps | with_reducible apply State.dropStart_keeps
    | with_reducible apply KeepsNext.next | with_reducible apply Keeps.ite

theorem execJobRetired_keeps {z : State} (t0 : Time) (tag : Nat) (s : State) (h2 : Keeps z s) :
    KeepsNext z (execJobRetired t0 tag s) := by
  unfold execJobRetired
  repeat' first
    | with_reducible assumption | extract_lets | with_reducible apply State.begin_keeps | with_reducible apply State.wr_keeps
    | with_reducible apply State.setJob_keeps | with_reducible apply State.raise_keeps
    | with_reducible apply State.renewParity_keeps | with_reducible apply State.evalStarts_keeps
    | with_reducible apply KeepsNext.next | with_reducible apply Keeps.ite

theorem execQuarantineEnd_keeps {z : State} (t0 : Time) (tag : Nat) (s : State) (h2 : Keeps z s) :
    KeepsNext z (execQuarantineEnd t0 tag s) := by
  unfold execQuarantineEnd
  repeat' first
    | with_reducible assumption | extract_lets | with_reducible apply State.begin_keeps
    | with_reducible apply State.setJob_keeps | with_reducible apply KeepsNext.next | with_reducible apply Keeps.ite

theorem execSpawnOpen_keeps {z : State} (a : Access) (record : BitVec 384) (s : State) (h2 : Keeps z s) :
    KeepsNext z (execSpawnOpen a record s) := by
  unfold execSpawnOpen
  repeat' first
    | with_reducible assumption | intro _ | extract_lets | with_reducible apply State.writeOne_keeps
    | with_reducible apply State.wr_keeps | with_reducible apply State.setSession_keeps | with_reducible apply KeepsNext.next

theorem execSpawnClose_keeps {z : State} (a : Access) (record : BitVec 32) (s : State) (h2 : Keeps z s) :
    KeepsNext z (execSpawnClose a record s) := by
  unfold execSpawnClose
  repeat' first
    | with_reducible assumption | intro _ | extract_lets | with_reducible apply State.writeOne_keeps
    | with_reducible apply KeepsNext.next | with_reducible apply Keeps.sessionDel

theorem execSpawnQuery_keeps {z : State} (a : Access) (record : BitVec 256) (s : State) (h2 : Keeps z s) :
    KeepsNext z (execSpawnQuery a record s) := by
  unfold execSpawnQuery
  repeat' first
    | with_reducible assumption | intro _ | extract_lets | with_reducible apply State.writeOne_keeps
    | with_reducible apply State.wr_keeps | with_reducible apply KeepsNext.next

theorem State.tryAlternate_keeps {z : State} (s : State) (x : Session) (j : Nat) (h0 : Keeps z s) :
    Keeps z (State.tryAlternate s x j) := by
  unfold State.tryAlternate
  repeat' first
    | with_reducible assumption | extract_lets | with_reducible apply State.sendSpawn_keeps
    | with_reducible apply State.setSession_keeps | split

theorem State.spawnMsg_keeps {z : State} (s : State) (body : List Byte) (kind : Nat) (act : State → Nat → State)
    (h0 : Keeps z s) (h3 : ∀ y0 y1, Keeps z y0 → Keeps z (act y0 y1)) :
    Keeps z (State.spawnMsg s body kind act) := by
  unfold State.spawnMsg
  repeat' first
    | with_reducible assumption | with_reducible apply h3 | extract_lets | with_reducible apply State.bump_keeps
    | with_reducible apply Keeps.ite

theorem State.cacheBlock_keeps {z : State} (s : State) (x : Session) (b : Nat) (payload : List Byte) (h0 : Keeps z s) :
    Keeps z (State.cacheBlock s x b payload) := by
  unfold State.cacheBlock
  repeat' first
    | with_reducible assumption | intro _ | extract_lets | with_reducible apply State.bump_keeps
    | with_reducible apply State.setSession_keeps | with_reducible apply State.serveBlock_keeps
    | with_reducible apply State.ackSession_keeps | with_reducible apply State.fillBlock_keeps
    | with_reducible apply Keeps.foldl | with_reducible apply Keeps.ite | split

theorem execSpawnBlock_keeps {z : State} (t0 : Time) (f : Cf) (body : List Byte) (s : State) (h3 : Keeps z s) :
    KeepsNext z (execSpawnBlock t0 f body s) := by
  unfold execSpawnBlock
  repeat' first
    | with_reducible assumption | intro _ | extract_lets | with_reducible apply State.begin_keeps
    | with_reducible apply State.spawnMsg_keeps | with_reducible apply State.raiseLim_keeps
    | with_reducible apply State.bump_keeps | with_reducible apply State.cacheBlock_keeps
    | with_reducible apply KeepsNext.next | with_reducible apply Keeps.ite | split

theorem State.nack_keeps {z : State} (s : State) (job : Nat) (session : Nat) (dest : Nat) (first : Nat) (count : Nat)
    (h0 : Keeps z s) :
    Keeps z (State.nack s job session dest first count) := by
  unfold State.nack
  repeat' first
    | with_reducible assumption | with_reducible apply State.sendSpawn_keeps

theorem execSpawnRangeReq_keeps {z : State} (t0 : Time) (f : Cf) (body : List Byte) (s : State) (h3 : Keeps z s) :
    KeepsNext z (execSpawnRangeReq t0 f body s) := by
  unfold execSpawnRangeReq
  repeat' first
    | with_reducible assumption | intro _ | extract_lets | with_reducible apply State.begin_keeps
    | with_reducible apply State.spawnMsg_keeps | with_reducible apply State.nack_keeps
    | with_reducible apply State.serveBlock_keeps | with_reducible apply KeepsNext.next | with_reducible apply Keeps.foldl
    | split

theorem execSpawnAck_keeps {z : State} (t0 : Time) (f : Cf) (body : List Byte) (s : State) (h3 : Keeps z s) :
    KeepsNext z (execSpawnAck t0 f body s) := by
  unfold execSpawnAck
  repeat' first
    | with_reducible assumption | intro _ | extract_lets | with_reducible apply State.begin_keeps
    | with_reducible apply State.spawnMsg_keeps | with_reducible apply State.ackSession_keeps
    | with_reducible apply State.setSession_keeps | with_reducible apply KeepsNext.next | split

theorem execSpawnReparent_keeps {z : State} (t0 : Time) (f : Cf) (body : List Byte) (s : State) (h3 : Keeps z s) :
    KeepsNext z (execSpawnReparent t0 f body s) := by
  unfold execSpawnReparent
  repeat' first
    | with_reducible assumption | intro _ | extract_lets | with_reducible apply State.begin_keeps
    | with_reducible apply State.spawnMsg_keeps | with_reducible apply State.nack_keeps
    | with_reducible apply State.sendSpawn_keeps | with_reducible apply State.bump_keeps
    | with_reducible apply State.setSession_keeps | with_reducible apply State.ackSession_keeps
    | with_reducible apply KeepsNext.next | with_reducible apply Keeps.ite | split

theorem execSpawnAdopted_keeps {z : State} (t0 : Time) (f : Cf) (body : List Byte) (s : State) (h3 : Keeps z s) :
    KeepsNext z (execSpawnAdopted t0 f body s) := by
  unfold execSpawnAdopted
  repeat' first
    | with_reducible assumption | intro _ | extract_lets | with_reducible apply State.begin_keeps
    | with_reducible apply State.spawnMsg_keeps | with_reducible apply State.setSession_keeps
    | with_reducible apply State.raise_keeps | with_reducible apply State.ackSession_keeps
    | with_reducible apply KeepsNext.next | with_reducible apply Keeps.ite | split

theorem execSpawnNack_keeps {z : State} (t0 : Time) (f : Cf) (body : List Byte) (s : State) (h3 : Keeps z s) :
    KeepsNext z (execSpawnNack t0 f body s) := by
  unfold execSpawnNack
  repeat' first
    | with_reducible assumption | intro _ | extract_lets | with_reducible apply State.begin_keeps
    | with_reducible apply State.spawnMsg_keeps | with_reducible apply State.tryAlternate_keeps
    | with_reducible apply KeepsNext.next | with_reducible apply Keeps.ite | split

theorem execSpawnGapTimer_keeps {z : State} (t0 : Time) (job : Nat) (session : Nat) (s : State) (h3 : Keeps z s) :
    KeepsNext z (execSpawnGapTimer t0 job session s) := by
  unfold execSpawnGapTimer
  repeat' first
    | with_reducible assumption | intro _ | extract_lets | with_reducible apply State.begin_keeps
    | with_reducible apply State.setSession_keeps | with_reducible apply State.sendSpawn_keeps
    | with_reducible apply KeepsNext.next | with_reducible apply Keeps.foldl | split

theorem State.setPeer_keeps {z : State} (s : State) (d : Nat) (p : PeerDev) (h0 : Keeps z s) :
    Keeps z (State.setPeer s d p) := by
  unfold State.setPeer
  repeat' first
    | with_reducible assumption | extract_lets | fail_if_no_progress (with_reducible apply Keeps.upd)

theorem State.knowPeers_keeps {z : State} (s : State) (h0 : Keeps z s) :
    Keeps z (State.knowPeers s) := by
  unfold State.knowPeers
  repeat' first
    | with_reducible assumption | intro _ | extract_lets | with_reducible apply State.setPeer_keeps
    | fail_if_no_progress (with_reducible apply Keeps.upd) | with_reducible apply Keeps.foldl | split

theorem execHsBeatSend_keeps {z : State} (t0 : Time) (s : State) (h1 : Keeps z s) :
    KeepsNext z (execHsBeatSend t0 s) := by
  unfold execHsBeatSend
  repeat' first
    | with_reducible assumption | intro _ | extract_lets | with_reducible apply State.knowPeers_keeps
    | with_reducible apply State.begin_keeps | with_reducible apply State.sendPeer_keeps | with_reducible apply KeepsNext.next
    | fail_if_no_progress (with_reducible apply Keeps.upd) | with_reducible apply Keeps.foldl | with_reducible apply Keeps.ite

theorem State.tellVersions_keeps {z : State} (s : State) (d : Nat) (h0 : Keeps z s) :
    Keeps z (State.tellVersions s d) := by
  unfold State.tellVersions
  repeat' first
    | with_reducible assumption | intro _ | extract_lets | with_reducible apply State.sendPeer_keeps
    | with_reducible apply Keeps.foldl | with_reducible apply Keeps.ite

theorem execHsBeat_keeps {z : State} (t0 : Time) (p : Peer) (body : List Byte) (s : State) (h3 : Keeps z s) :
    KeepsNext z (execHsBeat t0 p body s) := by
  unfold execHsBeat
  repeat' first
    | with_reducible assumption | extract_lets | with_reducible apply State.begin_keeps
    | with_reducible apply State.setPeer_keeps | with_reducible apply State.tellVersions_keeps
    | with_reducible apply State.raise_keeps
    | (refine Keeps.snd_eq (by with_reducible assumption) ?_; with_reducible apply State.peerAccept_keeps)
    | with_reducible apply KeepsNext.next | with_reducible apply Keeps.ite | split

theorem State.losePeer_keeps {z : State} (s : State) (d : Nat) (h0 : Keeps z s) :
    Keeps z (State.losePeer s d) := by
  unfold State.losePeer
  repeat' first
    | with_reducible assumption | intro _ | extract_lets | with_reducible apply State.abortHere_keeps
    | with_reducible apply State.unprotect_keeps | with_reducible apply State.failRebuild_keeps
    | with_reducible apply State.tryAlternate_keeps | with_reducible apply Keeps.foldl | with_reducible apply Keeps.ite
    | split | dsimp +zetaDelta only

theorem execPeerLost_keeps {z : State} (t0 : Time) (gei : Nat) (s : State) (h2 : Keeps z s) :
    KeepsNext z (execPeerLost t0 gei s) := by
  unfold execPeerLost
  repeat' first
    | with_reducible assumption | extract_lets | with_reducible apply State.begin_keeps
    | with_reducible apply State.losePeer_keeps | with_reducible apply State.raise_keeps
    | with_reducible apply State.setPeer_keeps | with_reducible apply KeepsNext.next | with_reducible apply Keeps.ite | split

theorem execExchangeHsetVer_keeps {z : State} (t0 : Time) (p : Peer) (body : List Byte) (s : State) (h3 : Keeps z s) :
    KeepsNext z (execExchangeHsetVer t0 p body s) := by
  unfold execExchangeHsetVer
  repeat' first
    | with_reducible assumption | extract_lets | with_reducible apply State.begin_keeps
    | with_reducible apply State.raise_keeps | with_reducible apply State.stripesReleased_keeps
    | with_reducible apply State.freeCtx_keeps
    | (refine Keeps.snd_eq (by with_reducible assumption) ?_; with_reducible apply State.peerAccept_keeps)
    | with_reducible apply KeepsNext.next | with_reducible apply Keeps.ite | split

end Sys2Proof.Machine
end

