-- ==== Sys2Proof/Laws/KeepsTime.lean ====
section
/-!
SUPPORT. What each function keeps (`Keeps`): Fabric time, records, keys and counters.
-/
namespace Sys2Proof.Machine

theorem State.showChanges_keeps {z : State} (s : State) (h0 : Keeps z s) :
    Keeps z (State.showChanges s) := by
  unfold State.showChanges
  repeat' first
    | with_reducible assumption | intro _ | extract_lets | with_reducible apply State.showChange_keeps
    | with_reducible apply Keeps.foldl | with_reducible apply Keeps.ite

theorem shRegs_wf (now : Time) (d : Int) {m : Tab Nat} (h : Tab.wf m = true) : Tab.wf (shRegs now d m) = true := by
  have e : shRegs now d m = m.map (fun x => (x.1, if ownInstants.contains x.1 then timeLayout (shT d (timeNear now x.2)) else x.2)) := by
    unfold shRegs
    refine List.map_congr_left (fun x _ => ?_)
    split <;> rfl
  rw [e]
  exact Tab.wf_map _ h

theorem State.shift_keeps {z : State} (s0 : State) (off1 : Int) (h0 : Keeps z s0) :
    Keeps z (State.shift s0 off1) := by
  unfold State.shift
  extract_lets d lost s1 s2
  have h1 : Keeps z s1 := State.bump_keeps _ _ _ _ (State.bump_keeps _ _ _ _ h0)
  have h2 : Keeps z s2 := State.wr_keeps _ _ _ _ (State.wr_keeps _ _ _ _ h1)
  exact ⟨h2.queue, h2.fresh, fun h => shRegs_wf _ _ (h2.elements h), fun h => Tab.wf_map (fun x => Job.sh d x.2) (h2.jobs h),
    fun h => Tab.wf_map (fun x => Session.sh d x.2) (h2.sessions h)⟩

theorem execTimeSync_keeps {z : State} (t0 : Time) (s : State) (h1 : Keeps z s) :
    KeepsNext z (execTimeSync t0 s) := by
  unfold execTimeSync
  repeat' first
    | with_reducible assumption | extract_lets | with_reducible apply State.begin_keeps | with_reducible apply KeepsNext.next

theorem State.setPulse_keeps {z : State} (s : State) (k : Nat) (x : Pulse) (h0 : Keeps z s) :
    Keeps z (State.setPulse s k x) := by
  unfold State.setPulse
  repeat' first
    | with_reducible assumption | extract_lets | with_reducible apply State.setClock_keeps

theorem State.showEdge_keeps {z : State} (s : State) (k : Nat) (h0 : Keeps z s) :
    Keeps z (State.showEdge s k) := by
  unfold State.showEdge
  repeat' first
    | with_reducible assumption | with_reducible apply State.wr_keeps

theorem State.setTpo_keeps {z : State} (s : State) (k : Nat) (v : Nat) (h0 : Keeps z s) :
    Keeps z (State.setTpo s k v) := by
  unfold State.setTpo
  repeat' first
    | with_reducible assumption | extract_lets | with_reducible apply State.setPulse_keeps
    | with_reducible apply State.showEdge_keeps | with_reducible apply State.wr_keeps

theorem execTpoConfig_keeps {z : State} (a : Access) (output : Nat) (record : BitVec 160) (s : State) (h3 : Keeps z s) :
    KeepsNext z (execTpoConfig a output record s) := by
  unfold execTpoConfig
  repeat' first
    | with_reducible assumption | intro _ | extract_lets | with_reducible apply State.writeOne_keeps
    | with_reducible apply State.setTpo_keeps | with_reducible apply KeepsNext.next

theorem execStepArm_keeps {z : State} (a : Access) (value : Nat) (s : State) (h2 : Keeps z s) :
    KeepsNext z (execStepArm a value s) := by
  unfold execStepArm
  repeat' first
    | with_reducible assumption | intro _ | extract_lets | with_reducible apply State.writeOne_keeps
    | with_reducible apply State.wr_keeps | with_reducible apply State.setClock_keeps | with_reducible apply KeepsNext.next
    | with_reducible apply Keeps.ite

theorem execTpoEdge_keeps {z : State} (t0 : Time) (output : Nat) (s : State) (h2 : Keeps z s) :
    KeepsNext z (execTpoEdge t0 output s) := by
  unfold execTpoEdge
  repeat' first
    | with_reducible assumption | extract_lets | with_reducible apply State.begin_keeps
    | with_reducible apply State.showEdge_keeps | with_reducible apply State.setPulse_keeps
    | with_reducible apply State.emit_keeps | with_reducible apply KeepsNext.next | with_reducible apply Keeps.ite

theorem State.consider_keeps {z : State} (s : State) (x : Nat × Nat) (better : Nat) (setBetter : Nat → State → State)
    (h0 : Keeps z s) (h3 : ∀ y0 y1, Keeps z y1 → Keeps z (setBetter y0 y1)) :
    Keeps z (State.consider s x better setBetter) := by
  unfold State.consider
  repeat' first
    | with_reducible assumption | with_reducible apply h3 | extract_lets | with_reducible apply State.loseParent_keeps
    | with_reducible apply State.setParent_keeps | with_reducible apply State.showRoot_keeps | with_reducible apply Keeps.ite
    | split

theorem State.considerPtp_keeps {z : State} (s : State) (p : Nat) (h0 : Keeps z s) :
    Keeps z (State.considerPtp s p) := by
  unfold State.considerPtp
  repeat' first
    | with_reducible assumption | intro _ | extract_lets | with_reducible apply State.consider_keeps
    | with_reducible apply State.setPtpPort_keeps

theorem State.setCapture_keeps {z : State} (s : State) (k : Nat) (x : Capture) (h0 : Keeps z s) :
    Keeps z (State.setCapture s k x) := by
  unfold State.setCapture
  repeat' first
    | with_reducible assumption | extract_lets | with_reducible apply State.wr_keeps
    | with_reducible apply State.setClock_keeps

theorem State.capPop_keeps {z : State} (s : State) (k : Nat) (h0 : Keeps z s) :
    Keeps z (State.capPop s k) := by
  unfold State.capPop
  repeat' first
    | with_reducible assumption | extract_lets | with_reducible apply State.setCapture_keeps | split

theorem State.timeCell_keeps {z : State} (s : State) (port : Nat) (h0 : Keeps z s) :
    Keeps z (State.timeCell s port).2 := by
  unfold State.timeCell
  repeat' first
    | with_reducible assumption | intro _ | extract_lets | with_reducible apply State.poolEmpty_keeps
    | with_reducible apply State.attach_keeps | with_reducible apply State.freeCell_keeps
    | (refine Keeps.some2_eq (by with_reducible assumption) ?_; with_reducible apply State.takeCells_keeps)
    | with_reducible apply Keeps.foldl | split

theorem execTimeFrameSend_keeps {z : State} (t0 : Time) (port : Nat) (s : State) (h2 : Keeps z s) :
    KeepsNext z (execTimeFrameSend t0 port s) := by
  unfold execTimeFrameSend
  repeat' first
    | with_reducible assumption | extract_lets | with_reducible apply State.begin_keeps
    | with_reducible apply State.timeCell_keeps | with_reducible apply State.setLinkTime_keeps
    | with_reducible apply State.emit_keeps | with_reducible apply KeepsNext.next | with_reducible apply Keeps.ite

theorem State.showDelay_keeps {z : State} (s : State) (p : Nat) (delay : Int) (h0 : Keeps z s) :
    Keeps z (State.showDelay s p delay) := by
  unfold State.showDelay
  repeat' first
    | with_reducible assumption | extract_lets | with_reducible apply State.free_keeps | with_reducible apply State.wr_keeps
    | with_reducible apply Keeps.ite

theorem State.stepTime_keeps {z : State} (s : State) (off : Int) (h0 : Keeps z s) :
    Keeps z (State.stepTime s off) := by
  unfold State.stepTime
  repeat' first
    | with_reducible assumption | intro _ | extract_lets | with_reducible apply State.wr_keeps
    | with_reducible apply State.showChanges_keeps | with_reducible apply State.shift_keeps
    | with_reducible apply State.setClock_keeps | with_reducible apply State.showEdge_keeps
    | with_reducible apply State.setPulse_keeps | with_reducible apply State.raise_keeps | with_reducible apply Keeps.foldl

theorem State.countBand_keeps {z : State} (s : State) (off : Int) (h0 : Keeps z s) :
    Keeps z (State.countBand s off) := by
  unfold State.countBand
  repeat' first
    | with_reducible assumption | extract_lets | with_reducible apply State.setClock_keeps
    | with_reducible apply State.wr_keeps | with_reducible apply State.raise_keeps | with_reducible apply State.showRoot_keeps
    | with_reducible apply Keeps.ite

theorem State.adjustRate_keeps {z : State} (s : State) (h0 : Keeps z s) :
    Keeps z (State.adjustRate s) := by
  unfold State.adjustRate
  repeat' first
    | with_reducible assumption | extract_lets | with_reducible apply State.free_keeps | with_reducible apply State.wr_keeps

theorem State.measured_keeps {z : State} (s : State) (off : Int) (h0 : Keeps z s) :
    Keeps z (State.measured s off) := by
  unfold State.measured
  repeat' first
    | with_reducible assumption | extract_lets | with_reducible apply State.wr_keeps
    | with_reducible apply State.stepTime_keeps | with_reducible apply State.raiseLim_keeps
    | with_reducible apply State.setClock_keeps | with_reducible apply State.countBand_keeps
    | with_reducible apply State.adjustRate_keeps | with_reducible apply Keeps.ite

theorem State.takeTime_keeps {z : State} (s : State) (p : Nat) (v : Nat) (h0 : Keeps z s) :
    Keeps z (State.takeTime s p v) := by
  unfold State.takeTime
  repeat' first
    | with_reducible assumption | intro _ | extract_lets | with_reducible apply State.setLinkTime_keeps
    | with_reducible apply State.consider_keeps | with_reducible apply State.showDelay_keeps
    | with_reducible apply State.measured_keeps | with_reducible apply Keeps.ite | split | dsimp only | dsimp +zetaDelta only

theorem execTimeFrameReceive_keeps {z : State} (t0 : Time) (port : Nat) (body : BitVec 192) (s : State) (h3 : Keeps z s) :
    KeepsNext z (execTimeFrameReceive t0 port body s) := by
  unfold execTimeFrameReceive
  repeat' first
    | with_reducible assumption | extract_lets | with_reducible apply State.attach_keeps
    | with_reducible apply State.begin_keeps | with_reducible apply State.dropLink_keeps
    | with_reducible apply State.bump_keeps | with_reducible apply State.takeTime_keeps | with_reducible apply KeepsNext.next
    | with_reducible apply Keeps.ite

theorem State.ptpSynced_keeps {z : State} (s : State) (p : Nat) (d : Int) (t2 : Time) (h0 : Keeps z s) :
    Keeps z (State.ptpSynced s p d t2) := by
  unfold State.ptpSynced
  repeat' first
    | with_reducible assumption | extract_lets | with_reducible apply State.setPtpPort_keeps
    | with_reducible apply State.wr_keeps | with_reducible apply State.considerPtp_keeps
    | with_reducible apply State.measured_keeps | with_reducible apply Keeps.ite | split

theorem State.sendPtp_keeps {z : State} (s : State) (p : Nat) (m : Ptp) (h0 : Keeps z s) :
    Keeps z (State.sendPtp s p m) := by
  unfold State.sendPtp
  repeat' first
    | with_reducible assumption | with_reducible apply State.emit_keeps

theorem State.takePtp_keeps {z : State} (s : State) (p : Nat) (m : Ptp) (h0 : Keeps z s) :
    Keeps z (State.takePtp s p m) := by
  unfold State.takePtp
  repeat' first
    | with_reducible assumption | extract_lets | with_reducible apply State.setPtpPort_keeps
    | with_reducible apply State.ptpSynced_keeps | with_reducible apply State.sendPtp_keeps
    | with_reducible apply State.free_keeps | with_reducible apply State.considerPtp_keeps
    | with_reducible apply State.ptpEval_keeps | with_reducible apply Keeps.ite | split

theorem execPtpMessage_keeps {z : State} (t0 : Time) (port : Nat) (m : Ptp) (s : State) (h3 : Keeps z s) :
    KeepsNext z (execPtpMessage t0 port m s) := by
  unfold execPtpMessage
  repeat' first
    | with_reducible assumption | extract_lets | with_reducible apply State.ptpEval_keeps
    | with_reducible apply State.begin_keeps | with_reducible apply State.takePtp_keeps | with_reducible apply KeepsNext.next
    | with_reducible apply Keeps.ite

theorem execParentTimeout_keeps {z : State} (t0 : Time) (s : State) (h1 : Keeps z s) :
    KeepsNext z (execParentTimeout t0 s) := by
  unfold execParentTimeout
  repeat' first
    | with_reducible assumption | extract_lets | with_reducible apply State.begin_keeps
    | with_reducible apply State.loseParent_keeps | with_reducible apply State.setLinkTime_keeps
    | with_reducible apply KeepsNext.next | split

theorem execGroupSyncEmit_keeps {z : State} (t0 : Time) (s : State) (h1 : Keeps z s) :
    KeepsNext z (execGroupSyncEmit t0 s) := by
  unfold execGroupSyncEmit
  repeat' first
    | with_reducible assumption | extract_lets | with_reducible apply State.begin_keeps
    | with_reducible apply State.emit_keeps | with_reducible apply KeepsNext.next | with_reducible apply Keeps.ite

theorem State.gainLock_keeps {z : State} (s : State) (off : Int) (h0 : Keeps z s) :
    Keeps z (State.gainLock s off) := by
  unfold State.gainLock
  repeat' first
    | with_reducible assumption | extract_lets | with_reducible apply State.showRoot_keeps
    | with_reducible apply State.setClock_keeps | with_reducible apply State.raise_keeps | with_reducible apply State.wr_keeps
    | with_reducible apply State.gateLock_keeps | with_reducible apply Keeps.ite

theorem State.takeWord_keeps {z : State} (s : State) (w : Nat) (h0 : Keeps z s) :
    Keeps z (State.takeWord s w) := by
  unfold State.takeWord
  repeat' first
    | with_reducible assumption | extract_lets | with_reducible apply State.setClock_keeps
    | with_reducible apply State.measured_keeps | with_reducible apply State.gainLock_keeps | with_reducible apply Keeps.ite

theorem State.loseLock_keeps {z : State} (s : State) (h0 : Keeps z s) :
    Keeps z (State.loseLock s) := by
  unfold State.loseLock
  repeat' first
    | with_reducible assumption | extract_lets | with_reducible apply State.setClock_keeps
    | with_reducible apply State.raise_keeps | with_reducible apply State.wr_keeps | with_reducible apply State.gateLock_keeps
    | with_reducible apply State.setParent_keeps
    | (refine Keeps.snd_eq (by with_reducible assumption) ?_; with_reducible apply State.free_keeps) | split

theorem State.missWord_keeps {z : State} (s : State) (h0 : Keeps z s) :
    Keeps z (State.missWord s) := by
  unfold State.missWord
  repeat' first
    | with_reducible assumption | extract_lets | with_reducible apply State.setClock_keeps
    | with_reducible apply State.loseLock_keeps | with_reducible apply Keeps.ite

theorem execGroupSyncWord_keeps {z : State} (t0 : Time) (word : BitVec 48) (s : State) (h2 : Keeps z s) :
    KeepsNext z (execGroupSyncWord t0 word s) := by
  unfold execGroupSyncWord
  repeat' first
    | with_reducible assumption | extract_lets | with_reducible apply State.begin_keeps
    | with_reducible apply State.takeWord_keeps | with_reducible apply State.missWord_keeps
    | with_reducible apply KeepsNext.next | with_reducible apply Keeps.ite

theorem execTrefInLost_keeps {z : State} (t0 : Time) (s : State) (h1 : Keeps z s) :
    KeepsNext z (execTrefInLost t0 s) := by
  unfold execTrefInLost
  repeat' first
    | with_reducible assumption | extract_lets | with_reducible apply State.begin_keeps
    | with_reducible apply State.loseLock_keeps | with_reducible apply KeepsNext.next | with_reducible apply Keeps.ite

theorem execTcapEdge_keeps {z : State} (t0 : Time) (input : Nat) (falling : Bool) (s : State) (h3 : Keeps z s) :
    KeepsNext z (execTcapEdge t0 input falling s) := by
  unfold execTcapEdge
  repeat' first
    | with_reducible assumption | extract_lets | with_reducible apply State.begin_keeps
    | with_reducible apply State.setCapture_keeps | with_reducible apply State.bump_keeps
    | with_reducible apply State.raise_keeps | with_reducible apply KeepsNext.next | with_reducible apply Keeps.ite

theorem execTcapPop_keeps {z : State} (a : Access) (input : Nat) (s : State) (h2 : Keeps z s) :
    KeepsNext z (execTcapPop a input s) := by
  unfold execTcapPop
  repeat' first
    | with_reducible assumption | intro _ | extract_lets | with_reducible apply State.readOne_keeps
    | with_reducible apply State.capPop_keeps | with_reducible apply KeepsNext.next

theorem execGroupWordMissing_keeps {z : State} (t0 : Time) (s : State) (h1 : Keeps z s) :
    KeepsNext z (execGroupWordMissing t0 s) := by
  unfold execGroupWordMissing
  repeat' first
    | with_reducible assumption | extract_lets | with_reducible apply State.begin_keeps
    | with_reducible apply State.missWord_keeps | with_reducible apply KeepsNext.next | with_reducible apply Keeps.ite

theorem execMgmtPortLinkChange_keeps {z : State} (t0 : Time) (port : Nat) (up : Bool) (s : State) (h3 : Keeps z s) :
    KeepsNext z (execMgmtPortLinkChange t0 port up s) := by
  unfold execMgmtPortLinkChange
  repeat' first
    | with_reducible assumption | extract_lets | with_reducible apply State.begin_keeps
    | with_reducible apply State.ptpEval_keeps | with_reducible apply State.setClock_keeps
    | with_reducible apply KeepsNext.next | with_reducible apply Keeps.ite

theorem execPtpMessageSend_keeps {z : State} (t0 : Time) (port : Nat) (kind : Nat) (s : State) (h3 : Keeps z s) :
    KeepsNext z (execPtpMessageSend t0 port kind s) := by
  unfold execPtpMessageSend
  repeat' first
    | with_reducible assumption | extract_lets | with_reducible apply State.ptpEval_keeps
    | with_reducible apply State.begin_keeps | with_reducible apply State.sendPtp_keeps
    | with_reducible apply State.setPtpPort_keeps | with_reducible apply State.free_keeps
    | with_reducible apply KeepsNext.next | with_reducible apply Keeps.ite

theorem State.setNqConfig_keeps {z : State} (q : Nat) (v : Nat) (s : State) (h2 : Keeps z s) :
    Keeps z (State.setNqConfig q v s) := by
  unfold State.setNqConfig
  repeat' first
    | with_reducible assumption | extract_lets | with_reducible apply State.setNq_keeps | with_reducible apply State.wr_keeps
    | with_reducible apply State.reportLoss_keeps | with_reducible apply Keeps.ite

theorem execNqConfig_keeps {z : State} (a : Access) (queue : Nat) (record : BitVec 256) (s : State) (h3 : Keeps z s) :
    KeepsNext z (execNqConfig a queue record s) := by
  unfold execNqConfig
  repeat' first
    | with_reducible assumption | intro _ | extract_lets | with_reducible apply State.writeOne_keeps
    | with_reducible apply State.setNqConfig_keeps | with_reducible apply KeepsNext.next

theorem State.sendNotices_keeps {z : State} (s : State) (q : Nat) (l : List Queued) (h0 : Keeps z s) :
    Keeps z (State.sendNotices s q l) := by
  unfold State.sendNotices
  repeat' first
    | with_reducible assumption | extract_lets | with_reducible apply State.free_keeps | with_reducible apply State.emit_keeps
    | with_reducible apply State.originate_keeps | with_reducible apply Keeps.ite | split

theorem State.sendBatches_keeps {z : State} (s : State) (q n : Nat) (l : List Queued) (h : Keeps z s) :
    Keeps z (s.sendBatches q n l) := by
  induction n generalizing s l with
  | zero => exact h
  | succ n ih =>
    unfold State.sendBatches
    split
    · exact h
    · refine ih _ _ (State.sendNotices_keeps _ _ _ h)

theorem State.pushQueue_keeps {z : State} (s : State) (q : Nat) (n : Nat) (h0 : Keeps z s) :
    Keeps z (State.pushQueue s q n) := by
  unfold State.pushQueue
  repeat' first
    | with_reducible assumption | extract_lets | with_reducible apply State.sendBatches_keeps
    | with_reducible apply State.setNq_keeps | with_reducible apply State.keeperWork_keeps | with_reducible apply Keeps.ite

theorem State.ackRecords_keeps {z : State} (s : State) (q : Nat) (n : Nat) (h0 : Keeps z s) :
    Keeps z (State.ackRecords s q n) := by
  unfold State.ackRecords
  repeat' first
    | with_reducible assumption | extract_lets | with_reducible apply State.reportLoss_keeps
    | with_reducible apply State.setNq_keeps

theorem State.nqPop_keeps {z : State} (s : State) (q : Nat) (h0 : Keeps z s) :
    Keeps z (State.nqPop s q) := by
  unfold State.nqPop
  repeat' first
    | with_reducible assumption | extract_lets | with_reducible apply State.ackRecords_keeps | with_reducible apply Keeps.ite

theorem State.authFailed_keeps {z : State} (s : State) (slot : Nat) (h0 : Keeps z s) :
    Keeps z (State.authFailed s slot) := by
  unfold State.authFailed
  repeat' first
    | with_reducible assumption | extract_lets | with_reducible apply State.bump_keeps
    | with_reducible apply State.raiseLim_keeps

theorem execNoticeAck_keeps {z : State} (t0 : Time) (src : Option Nat) (bytes : List Byte) (s : State) (h3 : Keeps z s) :
    KeepsNext z (execNoticeAck t0 src bytes s) := by
  unfold execNoticeAck
  repeat' first
    | with_reducible assumption | extract_lets | with_reducible apply State.begin_keeps
    | with_reducible apply State.bump_keeps | with_reducible apply State.authFailed_keeps
    | with_reducible apply State.ackRecords_keeps | with_reducible apply State.keeperWork_keeps
    | with_reducible apply KeepsNext.next | with_reducible apply Keeps.ite

theorem execNoticePush_keeps {z : State} (t0 : Time) (queue : Nat) (s : State) (h2 : Keeps z s) :
    KeepsNext z (execNoticePush t0 queue s) := by
  unfold execNoticePush
  repeat' first
    | with_reducible assumption | extract_lets | with_reducible apply State.begin_keeps
    | with_reducible apply State.pushQueue_keeps | with_reducible apply KeepsNext.next | with_reducible apply Keeps.ite

theorem execNoticeResend_keeps {z : State} (t0 : Time) (queue : Nat) (s : State) (h2 : Keeps z s) :
    KeepsNext z (execNoticeResend t0 queue s) := by
  unfold execNoticeResend
  repeat' first
    | with_reducible assumption | extract_lets | with_reducible apply State.begin_keeps
    | with_reducible apply State.sendBatches_keeps | with_reducible apply State.setNq_keeps
    | with_reducible apply State.keeperWork_keeps | with_reducible apply KeepsNext.next | with_reducible apply Keeps.ite

theorem execNqPop_keeps {z : State} (a : Access) (queue : Nat) (s : State) (h2 : Keeps z s) :
    KeepsNext z (execNqPop a queue s) := by
  unfold execNqPop
  repeat' first
    | with_reducible assumption | intro _ | extract_lets | with_reducible apply State.readOne_keeps
    | with_reducible apply State.nqPop_keeps | with_reducible apply KeepsNext.next

theorem State.setTail_keeps {z : State} (s : State) (v : Nat) (h0 : Keeps z s) :
    Keeps z (State.setTail s v) := by
  unfold State.setTail
  repeat' first
    | with_reducible assumption | extract_lets | with_reducible apply State.ackRecords_keeps
    | fail_if_no_progress (with_reducible apply Keeps.upd) | split

theorem execNringTail_keeps {z : State} (t0 : Time) (offset : Nat) (value : Nat) (s : State) (h3 : Keeps z s) :
    KeepsNext z (execNringTail t0 offset value s) := by
  unfold execNringTail
  repeat' first
    | with_reducible assumption | extract_lets | with_reducible apply State.begin_keeps
    | with_reducible apply State.setTail_keeps | with_reducible apply KeepsNext.next
    | fail_if_no_progress (with_reducible apply Keeps.upd) | with_reducible apply Keeps.ite

theorem execNringWrite_keeps {z : State} (t0 : Time) (s : State) (h1 : Keeps z s) :
    KeepsNext z (execNringWrite t0 s) := by
  unfold execNringWrite
  repeat' first
    | with_reducible assumption | extract_lets | with_reducible apply State.begin_keeps
    | with_reducible apply State.emit_keeps | with_reducible apply State.setNq_keeps | with_reducible apply KeepsNext.next
    | fail_if_no_progress (with_reducible apply Keeps.upd) | with_reducible apply Keeps.ite | split

theorem execPerstN_keeps {z : State} (t0 : Time) (s : State) (h1 : Keeps z s) :
    KeepsNext z (execPerstN t0 s) := by
  unfold execPerstN
  repeat' first
    | with_reducible assumption | extract_lets | with_reducible apply State.begin_keeps
    | with_reducible apply State.setNq_keeps | with_reducible apply KeepsNext.next
    | fail_if_no_progress (with_reducible apply Keeps.upd) | split | dsimp +zetaDelta only

theorem State.mgmtRefused_keeps {z : State} (s : State) (family : Nat) (src : Nat) (h0 : Keeps z s) :
    Keeps z (State.mgmtRefused s family src) := by
  unfold State.mgmtRefused
  repeat' first
    | with_reducible assumption | with_reducible apply State.raiseLim_keeps

theorem execConfigLock_keeps {z : State} (a : Access) (value : Nat) (s : State) (h2 : Keeps z s) :
    KeepsNext z (execConfigLock a value s) := by
  unfold execConfigLock
  repeat' first
    | with_reducible assumption | intro _ | extract_lets | with_reducible apply State.writeOne_keeps
    | with_reducible apply State.raise_keeps | with_reducible apply State.wr_keeps | with_reducible apply KeepsNext.next
    | fail_if_no_progress (with_reducible apply Keeps.upd) | with_reducible apply Keeps.ite

theorem State.setKey_keeps {z : State} (v : Nat) (s : State) (h1 : Keeps z s) :
    Keeps z (State.setKey v s) := by
  unfold State.setKey
  repeat' first
    | with_reducible assumption | extract_lets | with_reducible apply State.raise_keeps
    | fail_if_no_progress (with_reducible apply Keeps.upd)

theorem execKeyWrite_keeps {z : State} (a : Access) (record : BitVec 384) (s : State) (h2 : Keeps z s) :
    KeepsNext z (execKeyWrite a record s) := by
  unfold execKeyWrite
  repeat' first
    | with_reducible assumption | intro _ | extract_lets | with_reducible apply State.writeOne_keeps
    | with_reducible apply State.setKey_keeps | with_reducible apply KeepsNext.next

theorem execEntryQuery_keeps {z : State} (a : Access) (record : BitVec 128) (s : State) (h2 : Keeps z s) :
    KeepsNext z (execEntryQuery a record s) := by
  unfold execEntryQuery
  repeat' first
    | with_reducible assumption | intro _ | extract_lets | with_reducible apply State.writeOne_keeps
    | with_reducible apply State.wr_keeps | with_reducible apply KeepsNext.next

theorem State.stageSegment_keeps {z : State} (data : List Byte) (s : State) (h1 : Keeps z s) :
    Keeps z (State.stageSegment data s) := by
  unfold State.stageSegment
  repeat' first
    | with_reducible assumption | extract_lets | fail_if_no_progress (with_reducible apply Keeps.upd)

theorem execFwStage_keeps {z : State} (a : Access) (data : List Byte) (s : State) (h2 : Keeps z s) :
    KeepsNext z (execFwStage a data s) := by
  unfold execFwStage
  repeat' first
    | with_reducible assumption | intro _ | extract_lets | with_reducible apply State.writeOne_keeps
    | with_reducible apply State.stageSegment_keeps | with_reducible apply KeepsNext.next

theorem execFwCommit_keeps {z : State} (a : Access) (len : Nat) (s : State) (h2 : Keeps z s) :
    KeepsNext z (execFwCommit a len s) := by
  unfold execFwCommit
  repeat' first
    | with_reducible assumption | intro _ | extract_lets | with_reducible apply State.writeOne_keeps
    | with_reducible apply State.wr_keeps | with_reducible apply KeepsNext.next
    | fail_if_no_progress (with_reducible apply Keeps.upd)

theorem execFwSvnCommit_keeps {z : State} (a : Access) (value : Nat) (s : State) (h2 : Keeps z s) :
    KeepsNext z (execFwSvnCommit a value s) := by
  unfold execFwSvnCommit
  repeat' first
    | with_reducible assumption | intro _ | extract_lets | with_reducible apply State.writeOne_keeps
    | with_reducible apply State.raiseTo_keeps | with_reducible apply KeepsNext.next | with_reducible apply Keeps.ite

theorem execAttestNonce_keeps {z : State} (a : Access) (nonce : BitVec 256) (s : State) (h2 : Keeps z s) :
    KeepsNext z (execAttestNonce a nonce s) := by
  unfold execAttestNonce
  repeat' first
    | with_reducible assumption | intro _ | extract_lets | with_reducible apply State.writeOne_keeps
    | with_reducible apply KeepsNext.next | fail_if_no_progress (with_reducible apply Keeps.upd)

theorem execColophonExportReq_keeps {z : State} (a : Access) (record : BitVec 808) (s : State) (h2 : Keeps z s) :
    KeepsNext z (execColophonExportReq a record s) := by
  unfold execColophonExportReq
  repeat' first
    | with_reducible assumption | intro _ | extract_lets | with_reducible apply State.writeOne_keeps
    | with_reducible apply KeepsNext.next | fail_if_no_progress (with_reducible apply Keeps.upd)

theorem State.advanceEpoch_keeps {z : State} (s : State) (t1 : Time) (h0 : Keeps z s) :
    Keeps z (State.advanceEpoch s t1) := by
  unfold State.advanceEpoch
  repeat' first
    | with_reducible assumption | extract_lets | with_reducible apply State.wr_keeps | with_reducible apply State.raise_keeps
    | fail_if_no_progress (with_reducible apply Keeps.upd) | with_reducible apply Keeps.ite

theorem execKeyRotate_keeps {z : State} (a : Access) (value : Nat) (s : State) (h2 : Keeps z s) :
    KeepsNext z (execKeyRotate a value s) := by
  unfold execKeyRotate
  repeat' first
    | with_reducible assumption | intro _ | extract_lets | with_reducible apply State.writeOne_keeps
    | with_reducible apply State.advanceEpoch_keeps | with_reducible apply KeepsNext.next | with_reducible apply Keeps.ite

theorem State.tellExport_keeps {z : State} (a : Access) (s : State) (h1 : Keeps z s) :
    Keeps z (State.tellExport a s) := by
  unfold State.tellExport
  repeat' first
    | with_reducible assumption | extract_lets | with_reducible apply State.raise_keeps
    | with_reducible apply State.free_keeps | split

theorem execFwVerifyDone_keeps {z : State} (t0 : Time) (shape : Bool) (signed : Bool) (svn : Nat) (version : Nat)
    (s : State) (h5 : Keeps z s) :
    KeepsNext z (execFwVerifyDone t0 shape signed svn version s) := by
  unfold execFwVerifyDone
  repeat' first
    | with_reducible assumption | extract_lets | with_reducible apply State.begin_keeps | with_reducible apply State.wr_keeps
    | with_reducible apply State.raise_keeps | with_reducible apply KeepsNext.next
    | fail_if_no_progress (with_reducible apply Keeps.upd) | with_reducible apply Keeps.ite | split

theorem execAttestReportRead_keeps {z : State} (a : Access) (s : State) (h1 : Keeps z s) :
    KeepsNext z (execAttestReportRead a s) := by
  unfold execAttestReportRead
  repeat' first
    | with_reducible assumption | intro _ | extract_lets | with_reducible apply State.readOne_keeps
    | with_reducible apply State.free_keeps | with_reducible apply KeepsNext.next

theorem execColophonExportRead_keeps {z : State} (a : Access) (s : State) (h1 : Keeps z s) :
    KeepsNext z (execColophonExportRead a s) := by
  unfold execColophonExportRead
  repeat' first
    | with_reducible assumption | intro _ | extract_lets | with_reducible apply State.readOne_keeps
    | with_reducible apply State.tellExport_keeps | with_reducible apply KeepsNext.next

theorem execKeyPeriodExpiry_keeps {z : State} (t0 : Time) (s : State) (h1 : Keeps z s) :
    KeepsNext z (execKeyPeriodExpiry t0 s) := by
  unfold execKeyPeriodExpiry
  repeat' first
    | with_reducible assumption | extract_lets | with_reducible apply State.begin_keeps
    | with_reducible apply State.advanceEpoch_keeps | with_reducible apply KeepsNext.next
    | fail_if_no_progress (with_reducible apply Keeps.upd) | with_reducible apply Keeps.ite

theorem execCounterValue_keeps {z : State} (a : Access) (el : Nat) (value : Nat) (s : State) (h3 : Keeps z s) :
    KeepsNext z (execCounterValue a el value s) := by
  unfold execCounterValue
  repeat' first
    | with_reducible assumption | intro _ | extract_lets | with_reducible apply State.writeOne_keeps
    | with_reducible apply State.putValue_keeps | with_reducible apply KeepsNext.next

theorem State.setSelect_keeps {z : State} (el : Nat) (v : Nat) (s : State) (h2 : Keeps z s) :
    Keeps z (State.setSelect el v s) := by
  unfold State.setSelect
  repeat' first
    | with_reducible assumption | extract_lets | with_reducible apply State.wr_keeps

theorem execCounterSelect_keeps {z : State} (a : Access) (el : Nat) (record : BitVec 128) (s : State) (h3 : Keeps z s) :
    KeepsNext z (execCounterSelect a el record s) := by
  unfold execCounterSelect
  repeat' first
    | with_reducible assumption | intro _ | extract_lets | with_reducible apply State.writeOne_keeps
    | with_reducible apply State.setSelect_keeps | with_reducible apply KeepsNext.next

theorem State.reload_keeps {z : State} (s : State) (kind : Nat) (source : Nat) (h0 : Keeps z s) :
    Keeps z (State.reload s kind source) := by
  unfold State.reload
  repeat' first
    | with_reducible assumption | extract_lets | with_reducible apply State.free_keeps
    | fail_if_no_progress (with_reducible apply Keeps.upd) | with_reducible apply Keeps.ite

theorem execSampler_keeps {z : State} (a : Access) (el : Nat) (record : BitVec 128) (s : State) (h3 : Keeps z s) :
    KeepsNext z (execSampler a el record s) := by
  unfold execSampler
  repeat' first
    | with_reducible assumption | intro _ | extract_lets | with_reducible apply State.writeOne_keeps
    | with_reducible apply State.reload_keeps | with_reducible apply State.wr_keeps | with_reducible apply KeepsNext.next
    | with_reducible apply Keeps.foldl

theorem State.setSnap_keeps {z : State} (s : State) (e : Nat) (v : Nat) (h0 : Keeps z s) :
    Keeps z (State.setSnap s e v) := by
  unfold State.setSnap
  repeat' first
    | with_reducible assumption | extract_lets | with_reducible apply State.wr_keeps
    | fail_if_no_progress (with_reducible apply Keeps.upd)

theorem execCounterWrap_keeps {z : State} (t0 : Time) (el : Nat) (amount : Nat) (s : State) (h3 : Keeps z s) :
    KeepsNext z (execCounterWrap t0 el amount s) := by
  unfold execCounterWrap
  repeat' first
    | with_reducible assumption | extract_lets | with_reducible apply State.begin_keeps
    | with_reducible apply State.addCounter_keeps | with_reducible apply KeepsNext.next | with_reducible apply Keeps.ite

theorem State.writeSnap_keeps {z : State} (s : State) (t1 : Time) (mask : Nat) (changed : Bool) (h0 : Keeps z s) :
    Keeps z (State.writeSnap s t1 mask changed) := by
  unfold State.writeSnap
  repeat' first
    | with_reducible assumption | extract_lets | with_reducible apply State.bump_keeps | with_reducible apply State.wr_keeps
    | fail_if_no_progress (with_reducible apply Keeps.upd)

theorem execSnapshotInstant_keeps {z : State} (t0 : Time) (written : Bool) (s : State) (h2 : Keeps z s) :
    KeepsNext z (execSnapshotInstant t0 written s) := by
  unfold execSnapshotInstant
  repeat' first
    | with_reducible assumption | extract_lets | with_reducible apply State.begin_keeps
    | with_reducible apply State.raiseLim_keeps | with_reducible apply State.bump_keeps
    | with_reducible apply State.writeSnap_keeps | with_reducible apply State.keeperWork_keeps
    | with_reducible apply KeepsNext.next | fail_if_no_progress (with_reducible apply Keeps.upd)
    | with_reducible apply Keeps.ite

theorem State.writeSample_keeps {z : State} (s : State) (r : BitVec 512) (h0 : Keeps z s) :
    Keeps z (State.writeSample s r) := by
  unfold State.writeSample
  repeat' first
    | with_reducible assumption | extract_lets | with_reducible apply State.bump_keeps | with_reducible apply State.wr_keeps
    | fail_if_no_progress (with_reducible apply Keeps.upd)

theorem execSampleTaken_keeps {z : State} (t0 : Time) (kind : Nat) (source : Nat) (buffered : Nat) (record : BitVec 512)
    (s : State) (h5 : Keeps z s) :
    KeepsNext z (execSampleTaken t0 kind source buffered record s) := by
  unfold execSampleTaken
  repeat' first
    | with_reducible assumption | extract_lets | with_reducible apply State.begin_keeps
    | with_reducible apply State.reload_keeps | with_reducible apply State.raiseLim_keeps
    | with_reducible apply State.bump_keeps | with_reducible apply State.writeSample_keeps
    | with_reducible apply KeepsNext.next | fail_if_no_progress (with_reducible apply Keeps.upd)
    | with_reducible apply Keeps.ite

end Sys2Proof.Machine
end

