-- ==== Sys2Proof/Laws/KeepsMessage.lean ====
section
/-!
SUPPORT. What each function keeps (`Keeps`): Start-up, power, heat and the messages of the dictionary.
-/
namespace Sys2Proof.Machine

theorem State.setPower_keeps {z : State} (s : State) (p : Power) (h0 : Keeps z s) :
    Keeps z (State.setPower s p) := by
  unfold State.setPower
  repeat' first
    | with_reducible assumption | fail_if_no_progress (with_reducible apply Keeps.upd)

theorem execVaonLost_keeps {z : State} (t0 : Time) (s : State) (h1 : Keeps z s) :
    KeepsNext z (execVaonLost t0 s) := by
  unfold execVaonLost
  repeat' first
    | with_reducible assumption | extract_lets | with_reducible apply State.begin_keeps
    | with_reducible apply State.restartAt_keeps | with_reducible apply State.setPower_keeps
    | with_reducible apply KeepsNext.next | with_reducible apply Keeps.ite

theorem execResetDevice_keeps {z : State} (a : Access) (value : Nat) (s : State) (h2 : Keeps z s) :
    KeepsNext z (execResetDevice a value s) := by
  unfold execResetDevice
  repeat' first
    | with_reducible assumption | intro _ | extract_lets | with_reducible apply State.writeOne_keeps
    | with_reducible apply State.deviceReset_keeps | with_reducible apply KeepsNext.next | with_reducible apply Keeps.ite

theorem State.tellDegraded_keeps {z : State} (s : State) (h0 : Keeps z s) :
    Keeps z (State.tellDegraded s) := by
  unfold State.tellDegraded
  repeat' first
    | with_reducible assumption | with_reducible apply State.raise_keeps

theorem State.readyStep_keeps {z : State} (s : State) (h0 : Keeps z s) :
    Keeps z (State.readyStep s) := by
  unfold State.readyStep
  repeat' first
    | with_reducible assumption | extract_lets | with_reducible apply State.wr_keeps
    | with_reducible apply State.publishCapacity_keeps | with_reducible apply State.tellDegraded_keeps
    | with_reducible apply State.raise_keeps | with_reducible apply State.setPower_keeps | with_reducible apply Keeps.ite

theorem execPowerOn_keeps {z : State} (t0 : Time) (s : State) (h1 : Keeps z s) :
    KeepsNext z (execPowerOn t0 s) := by
  unfold execPowerOn
  repeat' first
    | with_reducible assumption | extract_lets | with_reducible apply State.begin_keeps
    | with_reducible apply State.powerOnReset_keeps | with_reducible apply State.setPower_keeps
    | with_reducible apply KeepsNext.next | with_reducible apply Keeps.ite

theorem execResetNAssert_keeps {z : State} (t0 : Time) (s : State) (h1 : Keeps z s) :
    KeepsNext z (execResetNAssert t0 s) := by
  unfold execResetNAssert
  repeat' first
    | with_reducible assumption | extract_lets | with_reducible apply State.begin_keeps
    | with_reducible apply State.setPower_keeps | with_reducible apply State.deviceReset_keeps
    | with_reducible apply KeepsNext.next | with_reducible apply Keeps.ite

theorem State.startFrom_keeps {z : State} (s : State) (step : Nat) (h0 : Keeps z s) :
    Keeps z (State.startFrom s step) := by
  unfold State.startFrom
  repeat' first
    | with_reducible assumption | extract_lets | with_reducible apply State.setPower_keeps

theorem State.letStart_keeps {z : State} (s : State) (h0 : Keeps z s) :
    Keeps z (State.letStart s) := by
  unfold State.letStart
  repeat' first
    | with_reducible assumption | extract_lets | with_reducible apply State.startFrom_keeps | with_reducible apply Keeps.ite

theorem execResetNRelease_keeps {z : State} (t0 : Time) (straps : Nat) (s : State) (h2 : Keeps z s) :
    KeepsNext z (execResetNRelease t0 straps s) := by
  unfold execResetNRelease
  repeat' first
    | with_reducible assumption | extract_lets | with_reducible apply State.begin_keeps
    | with_reducible apply State.setPower_keeps | with_reducible apply State.wr_keeps
    | with_reducible apply State.startFrom_keeps | with_reducible apply State.letStart_keeps
    | with_reducible apply KeepsNext.next | with_reducible apply Keeps.ite

theorem State.boot_keeps {z : State} (s : State) (slot : Nat) (differs : Bool) (h0 : Keeps z s) :
    Keeps z (State.boot s slot differs) := by
  unfold State.boot
  repeat' first
    | with_reducible assumption | extract_lets | with_reducible apply State.wr_keeps | with_reducible apply State.free_keeps
    | with_reducible apply State.excludeKeeper_keeps | fail_if_no_progress (with_reducible apply Keeps.upd)
    | with_reducible apply Keeps.ite

theorem State.bootStep_keeps {z : State} (s : State) (verified : List Nat) (differs : Bool) (h0 : Keeps z s) :
    Keeps z (State.bootStep s verified differs) := by
  unfold State.bootStep
  repeat' first
    | with_reducible assumption | extract_lets | with_reducible apply State.boot_keeps | with_reducible apply State.free_keeps
    | with_reducible apply State.raise_keeps | with_reducible apply State.setPower_keeps | with_reducible apply State.wr_keeps
    | with_reducible apply Keeps.ite

theorem State.nextStep_keeps {z : State} (s : State) (h0 : Keeps z s) :
    Keeps z (State.nextStep s) := by
  unfold State.nextStep
  repeat' first
    | with_reducible assumption | extract_lets | with_reducible apply State.setPower_keeps

theorem State.failDie_keeps {z : State} (s : State) (d : Nat) (h0 : Keeps z s) :
    Keeps z (State.failDie s d) := by
  unfold State.failDie
  repeat' first
    | with_reducible assumption | extract_lets | with_reducible apply State.wr_keeps
    | with_reducible apply State.markExcluded_keeps | with_reducible apply State.excludeQuire_keeps
    | with_reducible apply State.excludeKeeper_keeps | with_reducible apply Keeps.ite

theorem State.wireWalk_keeps {z : State} (s : State) (walk : List (Nat × Nat × List Nat)) (walkUs : Nat) (h0 : Keeps z s) :
    Keeps z (State.wireWalk s walk walkUs) := by
  unfold State.wireWalk
  repeat' first
    | with_reducible assumption | intro _ | extract_lets | with_reducible apply State.channelFails_keeps
    | with_reducible apply State.wr_keeps | with_reducible apply State.raise_keeps | with_reducible apply Keeps.foldl
    | with_reducible apply Keeps.ite

theorem State.testStep_keeps {z : State} (s : State) (dies : List Nat) (arrays : List Nat) (walk : List
    (Nat × Nat × List Nat)) (walkUs : Nat) (h0 : Keeps z s) :
    Keeps z (State.testStep s dies arrays walk walkUs) := by
  unfold State.testStep
  repeat' first
    | with_reducible assumption | intro _ | extract_lets | with_reducible apply State.failDie_keeps
    | with_reducible apply State.retireArray_keeps | with_reducible apply State.wireWalk_keeps
    | with_reducible apply State.setPower_keeps | with_reducible apply State.tellDegraded_keeps
    | with_reducible apply State.setUcie_keeps | with_reducible apply State.wr_keeps | with_reducible apply Keeps.foldl
    | with_reducible apply Keeps.ite

theorem execStartupStepDone_keeps {z : State} (t0 : Time) (verified : List Nat) (differs : Bool) (dies : List Nat)
    (arrays : List Nat) (walk : List (Nat × Nat × List Nat)) (walkUs : Nat) (badStacks : List Nat) (s : State)
    (h8 : Keeps z s) :
    KeepsNext z (execStartupStepDone t0 verified differs dies arrays walk walkUs badStacks s) := by
  unfold execStartupStepDone
  repeat' first
    | with_reducible assumption | intro _ | extract_lets | with_reducible apply State.begin_keeps
    | with_reducible apply State.wr_keeps | with_reducible apply State.bootStep_keeps
    | with_reducible apply State.nextStep_keeps | with_reducible apply State.testStep_keeps
    | with_reducible apply State.excludeStack_keeps | with_reducible apply State.readyStep_keeps
    | with_reducible apply KeepsNext.next | with_reducible apply Keeps.foldl | with_reducible apply Keeps.ite

theorem execStartupRetry_keeps {z : State} (t0 : Time) (s : State) (h1 : Keeps z s) :
    KeepsNext z (execStartupRetry t0 s) := by
  unfold execStartupRetry
  repeat' first
    | with_reducible assumption | intro _ | extract_lets | with_reducible apply State.begin_keeps
    | with_reducible apply State.wr_keeps | with_reducible apply State.setPower_keeps | with_reducible apply KeepsNext.next
    | with_reducible apply Keeps.foldl | with_reducible apply Keeps.ite | split

theorem State.startReset_keeps {z : State} (s : State) (d : Nat) (h0 : Keeps z s) :
    Keeps z (State.startReset s d) := by
  unfold State.startReset
  repeat' first
    | with_reducible assumption | extract_lets | with_reducible apply State.setPower_keeps
    | with_reducible apply State.wr_keeps | with_reducible apply State.engineDark_keeps | with_reducible apply Keeps.ite

theorem execDieReset_keeps {z : State} (a : Access) (die : Nat) (s : State) (h2 : Keeps z s) :
    KeepsNext z (execDieReset a die s) := by
  unfold execDieReset
  repeat' first
    | with_reducible assumption | intro _ | extract_lets | with_reducible apply State.writeOne_keeps
    | with_reducible apply State.startReset_keeps | with_reducible apply KeepsNext.next

theorem State.showClocks_keeps {z : State} (s : State) (useB : Bool) (h0 : Keeps z s) :
    Keeps z (State.showClocks s useB) := by
  unfold State.showClocks
  repeat' first
    | with_reducible assumption | extract_lets | with_reducible apply State.wr_keeps

theorem State.selectClock_keeps {z : State} (v : Nat) (s : State) (h1 : Keeps z s) :
    Keeps z (State.selectClock v s) := by
  unfold State.selectClock
  repeat' first
    | with_reducible assumption | extract_lets | with_reducible apply State.wr_keeps
    | with_reducible apply State.showClocks_keeps | with_reducible apply Keeps.ite

theorem execRefclkSel_keeps {z : State} (a : Access) (value : Nat) (s : State) (h2 : Keeps z s) :
    KeepsNext z (execRefclkSel a value s) := by
  unfold execRefclkSel
  repeat' first
    | with_reducible assumption | intro _ | extract_lets | with_reducible apply State.writeOne_keeps
    | with_reducible apply State.selectClock_keeps | with_reducible apply KeepsNext.next

theorem execRegulatorFault_keeps {z : State} (t0 : Time) (die : Nat) (left : Nat) (carries : Bool) (s : State)
    (h4 : Keeps z s) :
    KeepsNext z (execRegulatorFault t0 die left carries s) := by
  unfold execRegulatorFault
  repeat' first
    | with_reducible assumption | extract_lets | with_reducible apply State.begin_keeps
    | with_reducible apply State.raise_keeps | with_reducible apply State.bump32_keeps
    | with_reducible apply State.excludeDie_keeps | with_reducible apply KeepsNext.next | with_reducible apply Keeps.ite

theorem State.readVin_keeps {z : State} (s : State) (mv : Nat) (h0 : Keeps z s) :
    Keeps z (State.readVin s mv) := by
  unfold State.readVin
  repeat' first
    | with_reducible assumption | extract_lets | with_reducible apply State.wr_keeps | with_reducible apply Keeps.ite

theorem State.pushAll_keeps {z : State} (s : State) (h0 : Keeps z s) :
    Keeps z (State.pushAll s) := by
  unfold State.pushAll
  repeat' first
    | with_reducible assumption | intro _ | extract_lets | with_reducible apply State.pushQueue_keeps
    | with_reducible apply Keeps.foldl | with_reducible apply Keeps.ite

theorem State.drainRecords_keeps {z : State} (s : State) (h0 : Keeps z s) :
    Keeps z (State.drainRecords s) := by
  unfold State.drainRecords
  repeat' first
    | with_reducible assumption | intro _ | extract_lets | with_reducible apply State.emitRecord_keeps
    | with_reducible apply Keeps.foldl

theorem execVinWarningEnter_keeps {z : State} (t0 : Time) (vin : Nat) (s : State) (h2 : Keeps z s) :
    KeepsNext z (execVinWarningEnter t0 vin s) := by
  unfold execVinWarningEnter
  repeat' first
    | with_reducible assumption | extract_lets | with_reducible apply State.begin_keeps
    | with_reducible apply State.setPower_keeps | with_reducible apply State.readVin_keeps
    | with_reducible apply State.bump_keeps | with_reducible apply State.wr_keeps | with_reducible apply State.pushAll_keeps
    | with_reducible apply State.drainRecords_keeps | with_reducible apply State.raise_keeps
    | with_reducible apply KeepsNext.next | with_reducible apply Keeps.ite

theorem execRefclkHoldExpiry_keeps {z : State} (t0 : Time) (s : State) (h1 : Keeps z s) :
    KeepsNext z (execRefclkHoldExpiry t0 s) := by
  unfold execRefclkHoldExpiry
  repeat' first
    | with_reducible assumption | extract_lets | with_reducible apply State.begin_keeps
    | with_reducible apply State.deviceReset_keeps | with_reducible apply KeepsNext.next | with_reducible apply Keeps.ite
    | split

theorem State.mergeMaps_keeps {z : State} (s : State) (x : Nat × Nat × List Nat × List Nat) (h0 : Keeps z s) :
    Keeps z (State.mergeMaps s x) := by
  unfold State.mergeMaps
  repeat' first
    | with_reducible assumption | extract_lets | with_reducible apply State.channelFails_keeps
    | with_reducible apply State.logWidth_keeps | with_reducible apply Keeps.ite

theorem execDieResetDone_keeps {z : State} (t0 : Time) (die : Nat) (maps : List (Nat × Nat × List Nat × List Nat))
    (s : State) (h3 : Keeps z s) :
    KeepsNext z (execDieResetDone t0 die maps s) := by
  unfold execDieResetDone
  repeat' first
    | with_reducible assumption | intro _ | extract_lets | with_reducible apply State.begin_keeps
    | with_reducible apply State.setPower_keeps | with_reducible apply State.mergeMaps_keeps
    | with_reducible apply State.rejoined_keeps | with_reducible apply State.raise_keeps | with_reducible apply State.wr_keeps
    | with_reducible apply KeepsNext.next | with_reducible apply Keeps.foldl | with_reducible apply Keeps.ite

theorem State.reopenAll_keeps {z : State} (s : State) (h0 : Keeps z s) :
    Keeps z (State.reopenAll s) := by
  unfold State.reopenAll
  repeat' first
    | with_reducible assumption | intro _ | extract_lets | with_reducible apply State.reopen_keeps
    | with_reducible apply Keeps.foldl

theorem State.rearmAll_keeps {z : State} (s : State) (h0 : Keeps z s) :
    Keeps z (State.rearmAll s) := by
  unfold State.rearmAll
  repeat' first
    | with_reducible assumption | extract_lets | fail_if_no_progress (with_reducible apply Keeps.upd)

theorem execVinWarningExit_keeps {z : State} (t0 : Time) (vin : Nat) (s : State) (h2 : Keeps z s) :
    KeepsNext z (execVinWarningExit t0 vin s) := by
  unfold execVinWarningExit
  repeat' first
    | with_reducible assumption | extract_lets | with_reducible apply State.begin_keeps
    | with_reducible apply State.setPower_keeps | with_reducible apply State.readVin_keeps
    | with_reducible apply State.wr_keeps | with_reducible apply State.raise_keeps
    | with_reducible apply State.evalStarts_keeps | with_reducible apply State.reopenAll_keeps
    | with_reducible apply State.rearmAll_keeps | with_reducible apply KeepsNext.next | with_reducible apply Keeps.ite | split

theorem execVinResetEnter_keeps {z : State} (t0 : Time) (s : State) (h1 : Keeps z s) :
    KeepsNext z (execVinResetEnter t0 s) := by
  unfold execVinResetEnter
  repeat' first
    | with_reducible assumption | extract_lets | with_reducible apply State.begin_keeps
    | with_reducible apply State.deviceReset_keeps | with_reducible apply State.setPower_keeps
    | with_reducible apply KeepsNext.next | with_reducible apply Keeps.ite

theorem execVinResetExit_keeps {z : State} (t0 : Time) (s : State) (h1 : Keeps z s) :
    KeepsNext z (execVinResetExit t0 s) := by
  unfold execVinResetExit
  repeat' first
    | with_reducible assumption | extract_lets | with_reducible apply State.begin_keeps
    | with_reducible apply State.letStart_keeps | with_reducible apply State.setPower_keeps
    | with_reducible apply KeepsNext.next | with_reducible apply Keeps.ite

theorem execPowerMeasure_keeps {z : State} (t0 : Time) (vin : Nat) (vaon : Nat) (vio : Nat) (power : Nat)
    (classes : List Nat) (s : State) (h6 : Keeps z s) :
    KeepsNext z (execPowerMeasure t0 vin vaon vio power classes s) := by
  unfold execPowerMeasure
  repeat' first
    | with_reducible assumption | intro _ | extract_lets | with_reducible apply State.begin_keeps
    | with_reducible apply State.wr_keeps | with_reducible apply State.readVin_keeps
    | with_reducible apply State.raiseTo_keeps | with_reducible apply State.raiseLim_keeps
    | with_reducible apply KeepsNext.next | with_reducible apply Keeps.foldl | with_reducible apply Keeps.ite

theorem execRefclkFailover_keeps {z : State} (t0 : Time) (input : Nat) (s : State) (h2 : Keeps z s) :
    KeepsNext z (execRefclkFailover t0 input s) := by
  unfold execRefclkFailover
  repeat' first
    | with_reducible assumption | extract_lets | with_reducible apply State.begin_keeps
    | with_reducible apply State.setPower_keeps | with_reducible apply State.raise_keeps
    | with_reducible apply State.showClocks_keeps | with_reducible apply State.bump_keeps
    | with_reducible apply KeepsNext.next | with_reducible apply Keeps.ite

theorem execSwitchClockIdle_keeps {z : State} (t0 : Time) (die : Nat) (s : State) (h2 : Keeps z s) :
    KeepsNext z (execSwitchClockIdle t0 die s) := by
  unfold execSwitchClockIdle
  repeat' first
    | with_reducible assumption | extract_lets | with_reducible apply State.begin_keeps | with_reducible apply State.wr_keeps
    | with_reducible apply KeepsNext.next | with_reducible apply Keeps.ite

theorem execKeeperCoreIdle_keeps {z : State} (t0 : Time) (s : State) (h1 : Keeps z s) :
    KeepsNext z (execKeeperCoreIdle t0 s) := by
  unfold execKeeperCoreIdle
  repeat' first
    | with_reducible assumption | extract_lets | with_reducible apply State.begin_keeps | with_reducible apply State.wr_keeps
    | with_reducible apply KeepsNext.next | with_reducible apply Keeps.ite

theorem execRefclkRestored_keeps {z : State} (t0 : Time) (input : Nat) (s : State) (h2 : Keeps z s) :
    KeepsNext z (execRefclkRestored t0 input s) := by
  unfold execRefclkRestored
  repeat' first
    | with_reducible assumption | extract_lets | with_reducible apply State.begin_keeps
    | with_reducible apply State.setPower_keeps | with_reducible apply State.showClocks_keeps
    | with_reducible apply KeepsNext.next | with_reducible apply Keeps.ite

theorem execDieRecoverableFault_keeps {z : State} (t0 : Time) (die : Nat) (s : State) (h2 : Keeps z s) :
    KeepsNext z (execDieRecoverableFault t0 die s) := by
  unfold execDieRecoverableFault
  repeat' first
    | with_reducible assumption | extract_lets | with_reducible apply State.begin_keeps
    | with_reducible apply State.startReset_keeps | with_reducible apply KeepsNext.next | with_reducible apply Keeps.ite

theorem State.wrInt_keeps {z : State} (s : State) (e : Nat) (el : Nat) (v : Int) (h0 : Keeps z s) :
    Keeps z (State.wrInt s e el v) := by
  unfold State.wrInt
  repeat' first
    | with_reducible assumption | with_reducible apply State.wr_keeps

theorem State.feedForward_keeps {z : State} (s : State) (n : Nat) (d : Int) (h0 : Keeps z s) :
    Keeps z (State.feedForward s n d).2 := by
  unfold State.feedForward
  repeat' first
    | with_reducible assumption | extract_lets | with_reducible apply State.free_keeps | with_reducible apply Keeps.ite2

theorem State.moveHeater_keeps {z : State} (s : State) (r : Nat) (c : Int) (h0 : Keeps z s) :
    Keeps z (State.moveHeater s r c) := by
  unfold State.moveHeater
  repeat' first
    | with_reducible assumption | extract_lets | with_reducible apply State.wr_keeps | with_reducible apply State.free_keeps
    | with_reducible apply Keeps.ite

theorem State.feedEngine_keeps {z : State} (s : State) (n : Nat) (d : Int) (h0 : Keeps z s) :
    Keeps z (State.feedEngine s n d) := by
  unfold State.feedEngine
  repeat' first
    | with_reducible assumption | intro _ | extract_lets | with_reducible apply State.feedForward_keeps
    | with_reducible apply State.moveHeater_keeps | with_reducible apply Keeps.foldl | with_reducible apply Keeps.ite

theorem State.feedAll_keeps {z : State} (s : State) (base : List (Nat × Int)) (h0 : Keeps z s) :
    Keeps z (State.feedAll s base) := by
  unfold State.feedAll
  repeat' first
    | with_reducible assumption | intro _ | extract_lets | with_reducible apply State.feedEngine_keeps
    | with_reducible apply Keeps.foldl | with_reducible apply Keeps.ite | split

theorem State.rate_keeps {z : State} (s : State) (key : Nat) (v : Int) (h0 : Keeps z s) :
    Keeps z (State.rate s key v).2 := by
  unfold State.rate
  repeat' first
    | with_reducible assumption | extract_lets | with_reducible apply State.setPower_keeps

theorem State.setWarm_keeps {z : State} (s : State) (key : Nat) (on : Bool) (h0 : Keeps z s) :
    Keeps z (State.setWarm s key on) := by
  unfold State.setWarm
  repeat' first
    | with_reducible assumption | extract_lets | with_reducible apply State.setPower_keeps

theorem State.readPhotonic_keeps {z : State} (s : State) (n : Nat) (v : Int) (h0 : Keeps z s) :
    Keeps z (State.readPhotonic s n v) := by
  unfold State.readPhotonic
  repeat' first
    | with_reducible assumption | extract_lets | with_reducible apply State.wrInt_keeps
    | with_reducible apply State.raiseTo_keeps | with_reducible apply State.raiseLim_keeps
    | with_reducible apply State.raise_keeps | with_reducible apply State.setWarm_keeps
    | (refine Keeps.snd_eq (by with_reducible assumption) ?_; with_reducible apply State.rate_keeps)
    | with_reducible apply Keeps.ite | split | dsimp +zetaDelta only

theorem State.limitDie_keeps {z : State} (s : State) (d : Nat) (v : Int) (h0 : Keeps z s) :
    Keeps z (State.limitDie s d v) := by
  unfold State.limitDie
  repeat' first
    | with_reducible assumption | extract_lets | with_reducible apply State.excludeDie_keeps
    | with_reducible apply State.raise_keeps | with_reducible apply State.excludeKeeper_keeps
    | with_reducible apply State.setPower_keeps | with_reducible apply State.engineDark_keeps | with_reducible apply Keeps.ite

theorem State.warnDie_keeps {z : State} (s : State) (d : Nat) (v : Int) (h0 : Keeps z s) :
    Keeps z (State.warnDie s d v) := by
  unfold State.warnDie
  repeat' first
    | with_reducible assumption | extract_lets | with_reducible apply State.wr_keeps | with_reducible apply State.raise_keeps
    | with_reducible apply State.setWarm_keeps | with_reducible apply Keeps.ite

theorem State.readDie_keeps {z : State} (s : State) (d : Nat) (v : Int) (h0 : Keeps z s) :
    Keeps z (State.readDie s d v) := by
  unfold State.readDie
  repeat' first
    | with_reducible assumption | extract_lets | with_reducible apply State.wrInt_keeps
    | with_reducible apply State.raiseTo_keeps | with_reducible apply State.limitDie_keeps
    | with_reducible apply State.warnDie_keeps
    | (refine Keeps.snd_eq (by with_reducible assumption) ?_; with_reducible apply State.rate_keeps)
    | with_reducible apply Keeps.ite | split

theorem execTempSample_keeps {z : State} (t0 : Time) (dies : List (Nat × Int)) (base : List (Nat × Int)) (photonic : List
    (Nat × Int)) (comp : List (Nat × Int)) (s : State) (h5 : Keeps z s) :
    KeepsNext z (execTempSample t0 dies base photonic comp s) := by
  unfold execTempSample
  repeat' first
    | with_reducible assumption | intro _ | extract_lets | with_reducible apply State.begin_keeps
    | with_reducible apply State.deviceReset_keeps | with_reducible apply State.wrInt_keeps
    | with_reducible apply State.setPower_keeps | with_reducible apply State.feedAll_keeps
    | with_reducible apply State.wr_keeps | with_reducible apply State.readPhotonic_keeps
    | with_reducible apply State.readDie_keeps | with_reducible apply KeepsNext.next | with_reducible apply Keeps.foldl
    | with_reducible apply Keeps.ite

theorem execJtagInstruction_keeps {z : State} (t0 : Time) (instr : Nat) (data : Nat) (pins : Nat) (s : State)
    (h4 : Keeps z s) :
    KeepsNext z (execJtagInstruction t0 instr data pins s) := by
  unfold execJtagInstruction
  repeat' first
    | with_reducible assumption | extract_lets | with_reducible apply State.begin_keeps
    | with_reducible apply State.emit_keeps | with_reducible apply State.setPower_keeps | with_reducible apply KeepsNext.next
    | with_reducible apply Keeps.ite

theorem execVioRangeChange_keeps {z : State} (t0 : Time) (inside : Bool) (s : State) (h2 : Keeps z s) :
    KeepsNext z (execVioRangeChange t0 inside s) := by
  unfold execVioRangeChange
  repeat' first
    | with_reducible assumption | extract_lets | with_reducible apply State.begin_keeps
    | with_reducible apply State.setPower_keeps | with_reducible apply KeepsNext.next

theorem State.afterRead_keeps {z : State} (s : State) (a : Access) (e : Nat) (el : Nat) (h0 : Keeps z s) :
    Keeps z (State.afterRead s a e el) := by
  unfold State.afterRead
  repeat' first
    | with_reducible assumption | extract_lets | with_reducible apply State.nqPop_keeps
    | with_reducible apply State.learnDrop_keeps | with_reducible apply State.capPop_keeps
    | with_reducible apply State.free_keeps | with_reducible apply State.tellExport_keeps | with_reducible apply Keeps.ite

theorem State.takeRole_keeps {z : State} (s : State) (v : Nat) (h0 : Keeps z s) :
    Keeps z (State.takeRole s v) := by
  unfold State.takeRole
  repeat' first
    | with_reducible assumption | extract_lets | with_reducible apply State.wr_keeps
    | with_reducible apply State.setClock_keeps | with_reducible apply State.showRoot_keeps

theorem State.plainAct_keeps {z : State} (e : Nat) (el : Nat) (v : Nat) (s : State) (h3 : Keeps z s) :
    Keeps z (State.plainAct e el v s) := by
  unfold State.plainAct
  repeat' first
    | with_reducible assumption | extract_lets | with_reducible apply State.clearBadAll_keeps
    | with_reducible apply State.putValue_keeps | with_reducible apply State.ptpEval_keeps
    | with_reducible apply State.showRoot_keeps | with_reducible apply State.takeRole_keeps
    | with_reducible apply groupBaseAct_keeps | with_reducible apply State.setSnap_keeps | with_reducible apply State.wr_keeps
    | fail_if_no_progress (with_reducible apply Keeps.upd) | with_reducible apply Keeps.ite

theorem State.writePlain_keeps {z : State} (s : State) (a : Access) (e : Nat) (el : Nat) (len : Nat) (v : Nat)
    (h0 : Keeps z s) :
    Keeps z (State.writePlain s a e el len v) := by
  unfold State.writePlain
  repeat' first
    | with_reducible assumption | intro _ | extract_lets | with_reducible apply State.writeOne_keeps
    | with_reducible apply State.plainAct_keeps

theorem State.setPass_keeps {z : State} (s : State) (p : Pass) (planned : Tab Nat) (h0 : Keeps z s) :
    Keeps z (State.setPass s p planned) := by
  unfold State.setPass
  repeat' first
    | with_reducible assumption | extract_lets | fail_if_no_progress (with_reducible apply Keeps.upd)

theorem after_keeps {z : State} (o0 : Host.Outcome State Fault Refusal) (s1 : State) (h0 : KeepsNext z o0) (h1 : Keeps z s1) :
    Keeps z (after o0 s1) := by
  unfold after
  split
  · exact h0.keeps _ (Eq.refl _)
  · exact h1

theorem State.netRow_keeps {z : State} (s : State) (a : Access) (e : Nat) (d : List Byte) (h0 : Keeps z s) :
    KeepsSome z (State.netRow s a e d) := by
  unfold State.netRow
  repeat' first
    | with_reducible assumption | extract_lets | with_reducible apply after_keeps
    | with_reducible apply execGeiExactWrite_keeps | with_reducible apply execGeiQuery_keeps
    | with_reducible apply execAddrMode_keeps | with_reducible apply execAddrWrite_keeps
    | with_reducible apply execAddrQuery_keeps | with_reducible apply execAddrFlush_keeps
    | with_reducible apply execPrefixWrite_keeps | with_reducible apply execNexthopWrite_keeps
    | with_reducible apply execLpmQuery_keeps | with_reducible apply execMcastWrite_keeps
    | with_reducible apply execSprayWrite_keeps | with_reducible apply execCircuitWrite_keeps
    | with_reducible apply execShaperWrite_keeps | with_reducible apply execPolicerWrite_keeps
    | with_reducible apply execGateWrite_keeps | with_reducible apply execGroupChange_keeps
    | with_reducible apply execGroupCycle_keeps | with_reducible apply KeepsSome.none | with_reducible apply KeepsSome.some
    | with_reducible apply KeepsSome.ite

theorem State.controlRow_keeps {z : State} (s : State) (a : Access) (d : List Byte) (h0 : Keeps z s) :
    Keeps z (State.controlRow s a d) := by
  unfold State.controlRow
  repeat' first
    | with_reducible assumption | intro _ | extract_lets | with_reducible apply after_keeps
    | with_reducible apply execGraphResume_keeps | with_reducible apply execGraphRemove_keeps
    | with_reducible apply State.writeOne_keeps | with_reducible apply Keeps.ite

theorem State.collRow_keeps {z : State} (s : State) (a : Access) (e : Nat) (el : Nat) (d : List Byte) (h0 : Keeps z s) :
    KeepsSome z (State.collRow s a e el d) := by
  unfold State.collRow
  repeat' first
    | with_reducible assumption | extract_lets | with_reducible apply after_keeps
    | with_reducible apply execTensorCreate_keeps | with_reducible apply execTensorDestroy_keeps
    | with_reducible apply execTensorIo_keeps | with_reducible apply execTensorQuery_keeps
    | with_reducible apply execGraphStage_keeps | with_reducible apply execGraphCommit_keeps
    | with_reducible apply State.controlRow_keeps | with_reducible apply execConstWrite_keeps
    | with_reducible apply execSubnormalSet_keeps | with_reducible apply execNodeQuery_keeps
    | with_reducible apply execRegister_keeps | with_reducible apply execDeregister_keeps
    | with_reducible apply execHsetExclude_keeps | with_reducible apply execWindowAnchor_keeps
    | with_reducible apply execTrapValid_keeps | with_reducible apply execHomeQuery_keeps
    | with_reducible apply execMemberQuery_keeps | with_reducible apply execWeightQuery_keeps
    | with_reducible apply execPrWrite_keeps | with_reducible apply execParityCreate_keeps
    | with_reducible apply execParityDelete_keeps | with_reducible apply execParityQuery_keeps
    | with_reducible apply execCoarseFill_keeps | with_reducible apply KeepsSome.none | with_reducible apply KeepsSome.some
    | with_reducible apply KeepsSome.ite

theorem State.jobRow_keeps {z : State} (s : State) (a : Access) (e : Nat) (d : List Byte) (h0 : Keeps z s) :
    KeepsSome z (State.jobRow s a e d) := by
  unfold State.jobRow
  repeat' first
    | with_reducible assumption | extract_lets | with_reducible apply after_keeps | with_reducible apply execJobStart_keeps
    | with_reducible apply execJobWithdraw_keeps | with_reducible apply execJobAdvance_keeps
    | with_reducible apply execJobRetire_keeps | with_reducible apply execJobQuery_keeps
    | with_reducible apply execJobQuota_keeps | with_reducible apply execSpawnOpen_keeps
    | with_reducible apply execSpawnClose_keeps | with_reducible apply execSpawnQuery_keeps
    | with_reducible apply KeepsSome.none | with_reducible apply KeepsSome.some | with_reducible apply KeepsSome.ite
    | with_reducible apply Keeps.ite

theorem State.linkRow_keeps {z : State} (s : State) (a : Access) (e : Nat) (el : Nat) (d : List Byte) (h0 : Keeps z s) :
    KeepsSome z (State.linkRow s a e el d) := by
  unfold State.linkRow
  repeat' first
    | with_reducible assumption | extract_lets | with_reducible apply after_keeps | with_reducible apply execPortAdmin_keeps
    | with_reducible apply execFiberMode_keeps | with_reducible apply execNarrowEn_keeps
    | with_reducible apply execLaserEnable_keeps | with_reducible apply execRingRetry_keeps
    | with_reducible apply execBypassCreate_keeps | with_reducible apply execBypassDelete_keeps
    | with_reducible apply execModuleRetrain_keeps | with_reducible apply execPartRequest_keeps
    | with_reducible apply execTpoConfig_keeps | with_reducible apply execStepArm_keeps | with_reducible apply KeepsSome.none
    | with_reducible apply KeepsSome.some | with_reducible apply KeepsSome.ite | with_reducible apply Keeps.ite

theorem State.keeperRow_keeps {z : State} (s : State) (a : Access) (e : Nat) (el : Nat) (d : List Byte) (h0 : Keeps z s) :
    KeepsSome z (State.keeperRow s a e el d) := by
  unfold State.keeperRow
  repeat' first
    | with_reducible assumption | extract_lets | with_reducible apply after_keeps
    | with_reducible apply execKeeperSwitch_keeps | with_reducible apply execKeeperRejoin_keeps
    | with_reducible apply execNqConfig_keeps | with_reducible apply execConfigLock_keeps
    | with_reducible apply execKeyWrite_keeps | with_reducible apply execEntryQuery_keeps
    | with_reducible apply execFwStage_keeps | with_reducible apply execFwCommit_keeps
    | with_reducible apply execFwSvnCommit_keeps | with_reducible apply execAttestNonce_keeps
    | with_reducible apply execColophonExportReq_keeps | with_reducible apply execKeyRotate_keeps
    | with_reducible apply execCounterValue_keeps | with_reducible apply execCounterSelect_keeps
    | with_reducible apply execSampler_keeps | with_reducible apply execResetDevice_keeps
    | with_reducible apply execDieReset_keeps | with_reducible apply execRefclkSel_keeps | with_reducible apply KeepsSome.none
    | with_reducible apply KeepsSome.some | with_reducible apply KeepsSome.ite

theorem State.rebuildRow_keeps {z : State} (s : State) (a : Access) (e : Nat) (d : List Byte) (versions : Bool)
    (halted : Bool) (h0 : Keeps z s) :
    KeepsSome z (State.rebuildRow s a e d versions halted) := by
  unfold State.rebuildRow
  repeat' first
    | with_reducible assumption | extract_lets | with_reducible apply after_keeps
    | with_reducible apply execRebuildStart_keeps | with_reducible apply KeepsSome.none | with_reducible apply KeepsSome.some
    | with_reducible apply KeepsSome.ite

theorem State.writeRow_keeps {z : State} (s : State) (a : Access) (e : Nat) (el : Nat) (d : List Byte) (env : Env)
    (h0 : Keeps z s) :
    Keeps z (State.writeRow s a e el d env) := by
  unfold State.writeRow
  repeat' first
    | with_reducible assumption | with_reducible apply State.writePlain_keeps
    | (refine Keeps.some_eq (by with_reducible assumption) ?_; with_reducible apply State.netRow_keeps)
    | (refine Keeps.some_eq (by with_reducible assumption) ?_; with_reducible apply State.collRow_keeps)
    | (refine Keeps.some_eq (by with_reducible assumption) ?_; with_reducible apply State.jobRow_keeps)
    | (refine Keeps.some_eq (by with_reducible assumption) ?_; with_reducible apply State.linkRow_keeps)
    | (refine Keeps.some_eq (by with_reducible assumption) ?_; with_reducible apply State.keeperRow_keeps)
    | (refine Keeps.some_eq (by with_reducible assumption) ?_; with_reducible apply State.rebuildRow_keeps) | split

theorem State.writeQuiet_keeps {z : State} (s : State) (a : Access) (e : Nat) (el : Nat) (d : List Byte) (env : Env)
    (h0 : Keeps z s) :
    Keeps z (State.writeQuiet s a e el d env).2 := by
  unfold State.writeQuiet
  repeat' first
    | with_reducible assumption | extract_lets | with_reducible apply State.writeRow_keeps
    | fail_if_no_progress (with_reducible apply Keeps.upd)

theorem State.writeParts_keeps {z : State} (s : State) (a : Access) (x : ReqItem) (env : Env) (h0 : Keeps z s) :
    Keeps z (State.writeParts s a x env).2 := by
  unfold State.writeParts
  repeat' first
    | with_reducible assumption | intro _ | extract_lets | with_reducible apply State.writeQuiet_keeps
    | with_reducible apply Keeps.foldl2

theorem State.checkItem_keeps {z : State} (s : State) (a : Access) (x : ReqItem) (env : Env) (h0 : Keeps z s) :
    Keeps z (State.checkItem s a x env).2 := by
  unfold State.checkItem
  repeat' first
    | with_reducible assumption | extract_lets | with_reducible apply State.writeParts_keeps | with_reducible apply Keeps.ite2

theorem State.commitAll_keeps {z : State} (s : State) (a : Access) (l : List ReqItem) (env : Env) (h0 : Keeps z s) :
    Keeps z (State.commitAll s a l env) := by
  unfold State.commitAll
  repeat' first
    | with_reducible assumption | intro _ | extract_lets | with_reducible apply State.committed_keeps
    | with_reducible apply State.setPass_keeps | with_reducible apply State.writeParts_keeps
    | with_reducible apply Keeps.foldl

theorem execDictWrite_keeps {z : State} (a0 : Access) (entry1 : Nat) (first2 : Nat) (count3 : Nat) (data4 : List Byte)
    (s5 : State) (h5 : Keeps z s5) :
    KeepsNext z (execDictWrite a0 entry1 first2 count3 data4 s5) := by
  have key : ∀ (x : ReqItem) (env : Env), KeepsNext z (
      let s := (s5.begin a0.t).setPass .checking (plannedOf [x])
      let r := s.checkItem a0 x env
      .next (if r.1 = stOk then ((r.2.commitAll a0 [x] env).setPass .alone []).emit (.item stOk 0)
        else (r.2.setPass .alone []).emit (.item r.1 0))) := by
    intro x env
    extract_lets s r
    have hs : Keeps z s := State.setPass_keeps _ _ _ (State.begin_keeps _ _ h5)
    have hr : Keeps z r.2 := State.checkItem_keeps _ _ _ _ hs
    refine KeepsNext.next (Keeps.ite ?_ ?_)
    · exact State.emit_keeps _ _ (State.setPass_keeps _ _ _ (State.commitAll_keeps _ _ _ _ hr))
    · exact State.emit_keeps _ _ (State.setPass_keeps _ _ _ hr)
  exact key _ _

theorem State.checkAll_keeps {z : State} (s : State) (a : Access) (l : List ReqItem) (env : Env) (h0 : Keeps z s) :
    Keeps z (State.checkAll s a l env).2 := by
  unfold State.checkAll
  repeat' first
    | with_reducible assumption | intro _ | extract_lets | with_reducible apply State.checkItem_keeps
    | with_reducible apply State.setPass_keeps | with_reducible apply Keeps.foldl2 | with_reducible apply Keeps.ite2

theorem State.readItem_keeps {z : State} (s : State) (a : Access) (x : ReqItem) (h0 : Keeps z s) :
    Keeps z (State.readItem s a x).2.2 := by
  unfold State.readItem
  repeat' first
    | with_reducible assumption | intro _ | extract_lets | with_reducible apply State.afterRead_keeps
    | with_reducible apply Keeps.foldl2 | split

theorem State.respond_keeps {z : State} (s : State) (a : Access) (l : List (ReqItem × Nat)) (room : Nat) (h : Keeps z s) :
    Keeps z (s.respond a l room).2 := by
  induction l generalizing s room with
  | nil => exact h
  | cons x r ih =>
    unfold State.respond
    dsimp only
    apply ih
    split
    · split
      · exact h
      · exact State.readItem_keeps _ _ _ h
    · exact h

theorem State.execItems_keeps {z : State} (s : State) (a : Access) (l : List ReqItem) (env : Env) (room : Nat)
    (h0 : Keeps z s) :
    Keeps z (State.execItems s a l env room).2 := by
  unfold State.execItems
  repeat' first
    | with_reducible assumption | extract_lets | with_reducible apply State.checkAll_keeps
    | with_reducible apply State.commitAll_keeps | with_reducible apply State.setPass_keeps
    | with_reducible apply State.respond_keeps | with_reducible apply Keeps.ite

theorem State.queueRequest_keeps {z : State} (s : State) (o : Origin) (path : Path) (b : List Byte) (h0 : Keeps z s) :
    Keeps z (State.queueRequest s o path b) := by
  unfold State.queueRequest
  repeat' first
    | with_reducible assumption | extract_lets | fail_if_no_progress (with_reducible apply Keeps.upd)

theorem State.answer_keeps {z : State} (s : State) (o : Origin) (b : List Byte) (h0 : Keeps z s) :
    Keeps z (State.answer s o b) := by
  unfold State.answer
  repeat' first
    | with_reducible assumption | extract_lets | with_reducible apply State.bump_keeps | with_reducible apply State.emit_keeps
    | with_reducible apply State.originate_keeps | fail_if_no_progress (with_reducible apply Keeps.upd) | split

theorem State.keepResponse_keeps {z : State} (s : State) (slot : Nat) (txn : Nat) (l : List ReqItem) (resp : List Byte)
    (h0 : Keeps z s) :
    Keeps z (State.keepResponse s slot txn l resp) := by
  unfold State.keepResponse
  repeat' first
    | with_reducible assumption | extract_lets | fail_if_no_progress (with_reducible apply Keeps.upd)
    | with_reducible apply Keeps.ite

theorem State.runMessage_keeps {z : State} (s : State) (t1 : Time) (m : WaitMsg) (env : Env) (h0 : Keeps z s) :
    Keeps z (State.runMessage s t1 m env) := by
  unfold State.runMessage
  repeat' first
    | with_reducible assumption | extract_lets | with_reducible apply State.execItems_keeps
    | with_reducible apply State.answer_keeps | with_reducible apply State.countFixed_keeps
    | with_reducible apply State.keepResponse_keeps | fail_if_no_progress (with_reducible apply Keeps.upd)
    | with_reducible apply Keeps.ite | split

theorem execMessageExecute_keeps {z : State} (t0 : Time) (versions : Bool) (halted : Bool) (s : State) (h3 : Keeps z s) :
    KeepsNext z (execMessageExecute t0 versions halted s) := by
  unfold execMessageExecute
  repeat' first
    | with_reducible assumption | extract_lets | with_reducible apply State.begin_keeps
    | with_reducible apply State.answer_keeps | with_reducible apply State.bump_keeps
    | with_reducible apply State.runMessage_keeps | with_reducible apply KeepsNext.next
    | fail_if_no_progress (with_reducible apply Keeps.upd) | with_reducible apply Keeps.ite | split

theorem State.answerWhole_keeps {z : State} (s : State) (o : Origin) (h2 : Nat) (status : Nat) (h0 : Keeps z s) :
    Keeps z (State.answerWhole s o h2 status) := by
  unfold State.answerWhole
  repeat' first
    | with_reducible assumption | extract_lets | with_reducible apply State.answer_keeps

theorem State.takeIn_keeps {z : State} (s : State) (o : Origin) (path : Path) (b : List Byte) (h0 : Keeps z s) :
    Keeps z (State.takeIn s o path b) := by
  unfold State.takeIn
  repeat' first
    | with_reducible assumption | extract_lets | with_reducible apply State.bump_keeps
    | with_reducible apply State.keeperWork_keeps | with_reducible apply State.answerWhole_keeps
    | with_reducible apply State.answer_keeps | with_reducible apply State.queueRequest_keeps | with_reducible apply Keeps.ite

theorem execDapRequest_keeps {z : State} (t0 : Time) (port : Nat) (addr : Nat) (udpPort : Nat) (bytes : List Byte)
    (s : State) (h5 : Keeps z s) :
    KeepsNext z (execDapRequest t0 port addr udpPort bytes s) := by
  unfold execDapRequest
  repeat' first
    | with_reducible assumption | extract_lets | with_reducible apply State.begin_keeps
    | with_reducible apply State.bump_keeps | with_reducible apply State.authFailed_keeps
    | with_reducible apply State.takeIn_keeps | with_reducible apply KeepsNext.next | with_reducible apply Keeps.ite

theorem State.dropLocal_keeps {z : State} (s : State) (o : Origin) (h0 : Keeps z s) :
    Keeps z (State.dropLocal s o) := by
  unfold State.dropLocal
  repeat' first
    | with_reducible assumption | extract_lets | fail_if_no_progress (with_reducible apply Keeps.upd) | split

theorem State.localRequest_keeps {z : State} (s : State) (o : Origin) (path : Path) (b : List Byte) (h0 : Keeps z s) :
    Keeps z (State.localRequest s o path b) := by
  unfold State.localRequest
  repeat' first
    | with_reducible assumption | extract_lets | with_reducible apply State.dropLocal_keeps
    | with_reducible apply State.bump_keeps | with_reducible apply State.takeIn_keeps | with_reducible apply Keeps.ite

theorem execMbxDoorbell_keeps {z : State} (t0 : Time) (request : List Byte) (s : State) (h2 : Keeps z s) :
    KeepsNext z (execMbxDoorbell t0 request s) := by
  unfold execMbxDoorbell
  repeat' first
    | with_reducible assumption | extract_lets | with_reducible apply State.begin_keeps
    | with_reducible apply State.localRequest_keeps | with_reducible apply KeepsNext.next
    | fail_if_no_progress (with_reducible apply Keeps.upd) | with_reducible apply Keeps.ite

theorem execMbxClear_keeps {z : State} (t0 : Time) (s : State) (h1 : Keeps z s) :
    KeepsNext z (execMbxClear t0 s) := by
  unfold execMbxClear
  repeat' first
    | with_reducible assumption | extract_lets | with_reducible apply State.begin_keeps | with_reducible apply KeepsNext.next
    | fail_if_no_progress (with_reducible apply Keeps.upd) | with_reducible apply Keeps.ite

theorem execSmbusStatus_keeps {z : State} (t0 : Time) (s : State) (h1 : Keeps z s) :
    KeepsNext z (execSmbusStatus t0 s) := by
  unfold execSmbusStatus
  repeat' first
    | with_reducible assumption | extract_lets | with_reducible apply State.begin_keeps
    | with_reducible apply State.emit_keeps | with_reducible apply KeepsNext.next
    | fail_if_no_progress (with_reducible apply Keeps.upd) | with_reducible apply Keeps.ite

theorem execSmbusRequestFragment_keeps {z : State} (t0 : Time) (pec : Bool) (offset : Nat) (bytes : List Byte) (s : State)
    (h4 : Keeps z s) :
    KeepsNext z (execSmbusRequestFragment t0 pec offset bytes s) := by
  unfold execSmbusRequestFragment
  repeat' first
    | with_reducible assumption | extract_lets | with_reducible apply State.begin_keeps | with_reducible apply KeepsNext.next
    | fail_if_no_progress (with_reducible apply Keeps.upd) | with_reducible apply Keeps.ite

theorem execSmbusExecute_keeps {z : State} (t0 : Time) (pec : Bool) (length : Nat) (s : State) (h3 : Keeps z s) :
    KeepsNext z (execSmbusExecute t0 pec length s) := by
  unfold execSmbusExecute
  repeat' first
    | with_reducible assumption | extract_lets | with_reducible apply State.begin_keeps
    | with_reducible apply State.localRequest_keeps | with_reducible apply KeepsNext.next
    | fail_if_no_progress (with_reducible apply Keeps.upd) | with_reducible apply Keeps.ite

theorem execSmbusStateRead_keeps {z : State} (t0 : Time) (s : State) (h1 : Keeps z s) :
    KeepsNext z (execSmbusStateRead t0 s) := by
  unfold execSmbusStateRead
  repeat' first
    | with_reducible assumption | extract_lets | with_reducible apply State.begin_keeps
    | with_reducible apply State.emit_keeps | with_reducible apply KeepsNext.next | with_reducible apply Keeps.ite

theorem execSmbusResponseOffset_keeps {z : State} (t0 : Time) (pec : Bool) (offset : Nat) (s : State) (h3 : Keeps z s) :
    KeepsNext z (execSmbusResponseOffset t0 pec offset s) := by
  unfold execSmbusResponseOffset
  repeat' first
    | with_reducible assumption | extract_lets | with_reducible apply State.begin_keeps | with_reducible apply KeepsNext.next
    | fail_if_no_progress (with_reducible apply Keeps.upd) | with_reducible apply Keeps.ite

theorem execSmbusResponseRead_keeps {z : State} (t0 : Time) (s : State) (h1 : Keeps z s) :
    KeepsNext z (execSmbusResponseRead t0 s) := by
  unfold execSmbusResponseRead
  repeat' first
    | with_reducible assumption | extract_lets | with_reducible apply State.begin_keeps
    | with_reducible apply State.emit_keeps | with_reducible apply KeepsNext.next | with_reducible apply Keeps.ite

theorem execDictInbandRequest_keeps {z : State} (t0 : Time) (src : Nat) (job : Nat) (gen : Nat) (bytes : List Byte)
    (s : State) (h5 : Keeps z s) :
    KeepsNext z (execDictInbandRequest t0 src job gen bytes s) := by
  unfold execDictInbandRequest
  repeat' first
    | with_reducible assumption | extract_lets | with_reducible apply State.begin_keeps
    | with_reducible apply State.bump_keeps | with_reducible apply State.takeIn_keeps
    | with_reducible apply State.mgmtRefused_keeps | with_reducible apply State.authFailed_keeps
    | with_reducible apply KeepsNext.next | with_reducible apply Keeps.ite

end Sys2Proof.Machine
end

