-- ==== Sys2Proof/Laws/Ops.lean ====
section
/-!
SUPPORT. What the operations most meanings share leave alone: a commit, a keeper's work, a counter and a notice.
-/
namespace Sys2Proof.Machine

/-- The keeper waking changes one element of the dictionary at most. -/
theorem State.keeperWork_eq (s : State) : s.keeperWork = { s with regs := s.keeperWork.regs } := by
  unfold State.keeperWork
  dsimp only
  split <;> rfl

theorem State.rd_keeperWork (s : State) {e el : Nat} (h : elKey e el ≠ elKey E.domainState (18 + s.keeper)) :
    s.keeperWork.rd e el = s.rd e el := by
  unfold State.keeperWork
  dsimp only
  split
  · exact State.rd_wr_other _ _ h
  · rfl

/-- A commit changes COMMIT_LAST and the keeper's domain state, and begins the command. -/
theorem State.commitAt_eq (s : State) (a : Access) :
    s.commitAt a = { s with now := a.t, out := [], regs := (s.commitAt a).regs } := by
  unfold State.commitAt State.committed
  dsimp only
  rw [State.keeperWork_eq]
  rfl

@[simp] theorem State.commitAt_now (s : State) (a : Access) : (s.commitAt a).now = a.t := by rw [State.commitAt_eq]
@[simp] theorem State.commitAt_out (s : State) (a : Access) : (s.commitAt a).out = [] := by rw [State.commitAt_eq]
@[simp] theorem State.commitAt_fresh (s : State) (a : Access) : (s.commitAt a).fresh = s.fresh := by rw [State.commitAt_eq]
@[simp] theorem State.commitAt_pending (s : State) (a : Access) : (s.commitAt a).pending = s.pending := by rw [State.commitAt_eq]
@[simp] theorem State.commitAt_net (s : State) (a : Access) : (s.commitAt a).net = s.net := by rw [State.commitAt_eq]
@[simp] theorem State.commitAt_mgmt (s : State) (a : Access) : (s.commitAt a).mgmt = s.mgmt := by rw [State.commitAt_eq]
@[simp] theorem State.commitAt_jobs (s : State) (a : Access) : (s.commitAt a).jobs = s.jobs := by rw [State.commitAt_eq]
@[simp] theorem State.commitAt_starts (s : State) (a : Access) : (s.commitAt a).starts = s.starts := by rw [State.commitAt_eq]
@[simp] theorem State.commitAt_spawns (s : State) (a : Access) : (s.commitAt a).spawns = s.spawns := by rw [State.commitAt_eq]
@[simp] theorem State.commitAt_coll (s : State) (a : Access) : (s.commitAt a).coll = s.coll := by rw [State.commitAt_eq]
@[simp] theorem State.commitAt_graphs (s : State) (a : Access) : (s.commitAt a).graphs = s.graphs := by rw [State.commitAt_eq]
@[simp] theorem State.commitAt_links (s : State) (a : Access) : (s.commitAt a).links = s.links := by rw [State.commitAt_eq]
@[simp] theorem State.commitAt_power (s : State) (a : Access) : (s.commitAt a).power = s.power := by rw [State.commitAt_eq]
@[simp] theorem State.commitAt_clock (s : State) (a : Access) : (s.commitAt a).clock = s.clock := by rw [State.commitAt_eq]
@[simp] theorem State.commitAt_probes (s : State) (a : Access) : (s.commitAt a).probes = s.probes := by rw [State.commitAt_eq]

/-- Every element but COMMIT_LAST and the keeper's domain state reads through a commit as before. -/
theorem State.rd_commitAt (s : State) (a : Access) {e el : Nat} (h : elKey e el ≠ elKey E.commitLast 0)
    (h' : elKey e el ≠ elKey E.domainState (18 + s.keeper)) : (s.commitAt a).rd e el = s.rd e el := by
  unfold State.commitAt State.committed
  dsimp only
  rw [State.rd_wr_other _ _ h]
  exact State.rd_keeperWork (s.begin a.t) h'

/-- A commit keeps the dictionary's order. -/
theorem State.commitAt_wf (s : State) (a : Access) (h : Tab.wf s.regs = true) : Tab.wf (s.commitAt a).regs = true := by
  unfold State.commitAt State.committed
  dsimp only
  refine wrIn_wf _ _ _ ?_
  unfold State.keeperWork
  dsimp only
  split
  · exact wrIn_wf E.domainState _ 1 (show Tab.wf (s.begin a.t).regs = true from h)
  · exact h

/-- A state is another but for what notices and counters change. -/
structure Noted (s t : State) : Prop where
  eq : t = { s with regs := t.regs, out := t.out, mgmt := { s.mgmt with
    queues := t.mgmt.queues, limits := t.mgmt.limits, withheld := t.mgmt.withheld, smbSev := t.mgmt.smbSev, smbAlert := t.mgmt.smbAlert } }

theorem Noted.rfl {s : State} : Noted s s := ⟨Eq.refl _⟩

theorem Noted.trans {s t u : State} (h : Noted s t) (k : Noted t u) : Noted s u := by
  obtain ⟨h⟩ := h
  obtain ⟨k⟩ := k
  constructor
  rw [h] at k
  exact k

theorem State.wr_noted (s : State) (e el v : Nat) : Noted s (s.wr e el v) := ⟨Eq.refl _⟩

theorem State.bump_noted (s : State) (e el n : Nat) : Noted s (s.bump e el n) := ⟨Eq.refl _⟩

theorem State.raiseTo_noted (s : State) (e el v : Nat) : Noted s (s.raiseTo e el v) := by
  unfold State.raiseTo
  split
  · exact State.wr_noted ..
  · exact Noted.rfl

theorem Noted.foldl {α : Type} {s : State} {f : State → α → State} (hf : ∀ t a, Noted t (f t a)) (l : List α) :
    Noted s (l.foldl f s) := by
  induction l generalizing s with
  | nil => exact Noted.rfl
  | cons a r ih => exact (hf s a).trans ih

theorem State.offer_noted (s : State) (q code sev rec : Nat) : Noted s (s.offer q code sev rec) := by
  unfold State.offer
  dsimp only
  split
  · split <;> exact ⟨Eq.refl _⟩
  · exact Noted.rfl

theorem State.keeperWork_noted (s : State) : Noted s s.keeperWork := by
  unfold State.keeperWork
  dsimp only
  split
  · exact State.wr_noted ..
  · exact Noted.rfl

theorem State.form_noted (s : State) (code sev src : Nat) (ctx : List Item) : Noted s (s.form code sev src ctx) := by
  unfold State.form
  dsimp only
  refine Noted.trans ?_ (State.keeperWork_noted _)
  refine Noted.trans ?_ (Noted.foldl (fun t q => State.offer_noted t q ..) _)
  have h : Noted s (State.raiseTo (State.bump { s with mgmt := { s.mgmt with
      withheld := setWithheld s.mgmt.withheld code src 0 } } E.noticesRaised 0 1) E.severityHighest 0 sev) :=
    Noted.trans ⟨Eq.refl _⟩ ((State.bump_noted _ _ _ _).trans (State.raiseTo_noted _ _ _ _))
  split
  · exact h.trans ⟨Eq.refl _⟩
  · exact h.trans ⟨Eq.refl _⟩

theorem State.limited_noted (s : State) (interval key code src : Nat) : Noted s (s.limited interval key code src).2 := by
  unfold State.limited
  dsimp only
  cases lastOf s.mgmt.limits code key with
  | none => exact ⟨Eq.refl _⟩
  | some x =>
    dsimp only
    by_cases h : s.now < x + interval
    · simp only [h, decide_true, if_true]
      exact ⟨Eq.refl _⟩
    · simp only [h, decide_false]
      exact ⟨Eq.refl _⟩

theorem State.addCounter_noted (s : State) (b k n : Nat) : Noted s (s.addCounter b k n) := by
  unfold State.addCounter
  dsimp only
  split
  · exact Noted.rfl
  split
  · exact State.wr_noted ..
  · have h0 := State.wr_noted s E.counterValue (6 * b + k) (2 ^ 63 + (s.rd E.counterValue (6 * b + k) % 2 ^ 48 + n) % 2 ^ 48)
    refine h0.trans ?_
    generalize s.wr E.counterValue (6 * b + k) (2 ^ 63 + (s.rd E.counterValue (6 * b + k) % 2 ^ 48 + n) % 2 ^ 48) = w
    have h := State.limited_noted w (65536 * 1000000000) b 0xA001 (b / 8)
    split
    · rename_i e; rw [e] at h; exact h
    · rename_i e; rw [e] at h; exact h.trans (State.form_noted ..)

theorem State.countEvent_noted (s : State) (b event arg job n : Nat) : Noted s (s.countEvent b event arg job n) := by
  unfold State.countEvent
  refine Noted.foldl (fun t k => ?_) _
  dsimp only
  split
  · exact State.addCounter_noted ..
  · exact Noted.rfl

/-- A notice raised changes only what notices and counters change. -/
theorem State.raise_noted (s : State) (code sev src : Nat) (ctx : List Item) : Noted s (s.raise code sev src ctx) :=
  (State.form_noted ..).trans (State.countEvent_noted ..)

theorem State.raiseLim_noted (s : State) (interval key code sev src : Nat) (ctx : List Item) :
    Noted s (s.raiseLim interval key code sev src ctx) := by
  unfold State.raiseLim
  have h := State.limited_noted s interval key code src
  split
  · rename_i e; rw [e] at h; exact h
  · rename_i e; rw [e] at h; exact h.trans (State.raise_noted ..)

/-- The entries whose elements notices and counters change. -/
def noteEntries : List Nat := [E.noticesRaised, E.severityHighest, E.nqLost, E.counterValue, E.domainState]

/-- Every element of another entry reads alike, and so the active keeper is the same. -/
def SameEntries (s t : State) : Prop := ∀ e el, el < 2 ^ 24 → e ∉ noteEntries → t.rd e el = s.rd e el

theorem SameEntries.rfl {s : State} : SameEntries s s := fun _ _ _ _ => Eq.refl _

theorem SameEntries.trans {s t u : State} (h : SameEntries s t) (k : SameEntries t u) : SameEntries s u :=
  fun e el h1 h2 => (k e el h1 h2).trans (h e el h1 h2)

theorem SameEntries.of_regs {s t : State} (h : s.regs = t.regs) : SameEntries s t :=
  fun e el _ _ => (State.rd_congr h e el).symm

theorem SameEntries.keeper {s t : State} (h : SameEntries s t) : t.keeper = s.keeper := by
  unfold State.keeper
  rw [h E.keeperActive 0 (by decide) (by decide)]

theorem State.wr_sameEntries (s : State) {e el : Nat} (v : Nat) (he : e ∈ noteEntries) (hl : el < 2 ^ 24) :
    SameEntries s (s.wr e el v) := by
  intro e' el' h1 h2
  refine State.rd_wr_other _ _ (fun k => ?_)
  obtain ⟨rfl, _⟩ := elKey_inj h1 hl k
  exact h2 he

theorem SameEntries.foldl {α : Type} {s : State} {f : State → α → State} {l : List α}
    (hf : ∀ t a, a ∈ l → t.keeper = s.keeper → SameEntries t (f t a)) : SameEntries s (l.foldl f s) := by
  induction l generalizing s with
  | nil => exact SameEntries.rfl
  | cons a r ih =>
    have h := hf s a (by simp) (Eq.refl _)
    exact h.trans (ih (fun t b hb hk => hf t b (by simp [hb]) (hk.trans h.keeper)))

theorem State.keeper_lt (s : State) : s.keeper < 2 := Nat.mod_lt _ (by decide)

theorem State.keeperWork_sameEntries (s : State) : SameEntries s s.keeperWork := by
  unfold State.keeperWork
  dsimp only
  split
  · exact State.wr_sameEntries _ _ (by decide) (by have := s.keeper_lt; omega)
  · exact SameEntries.rfl

theorem State.offer_sameEntries (s : State) {q : Nat} (code sev rec : Nat) (hq : q < 2 ^ 24) : SameEntries s (s.offer q code sev rec) := by
  unfold State.offer
  dsimp only
  split
  · split
    · exact (State.wr_sameEntries s _ (e := E.nqLost) (by decide) hq).trans (SameEntries.of_regs (Eq.refl _))
    · exact SameEntries.of_regs (Eq.refl _)
  · exact SameEntries.rfl

theorem State.raiseTo_sameEntries (s : State) {e el : Nat} (v : Nat) (he : e ∈ noteEntries) (hl : el < 2 ^ 24) :
    SameEntries s (s.raiseTo e el v) := by
  unfold State.raiseTo
  split
  · exact State.wr_sameEntries _ _ he hl
  · exact SameEntries.rfl

theorem State.form_sameEntries (s : State) (code sev src : Nat) (ctx : List Item) : SameEntries s (s.form code sev src ctx) := by
  unfold State.form
  dsimp only
  refine SameEntries.trans ?_ (State.keeperWork_sameEntries _)
  refine SameEntries.trans ?_ (SameEntries.foldl (fun t q hq _ => State.offer_sameEntries t _ _ _
    (by have := List.mem_range.mp hq; omega)))
  have h : SameEntries s (State.raiseTo (State.bump { s with mgmt := { s.mgmt with
      withheld := setWithheld s.mgmt.withheld code src 0 } } E.noticesRaised 0 1) E.severityHighest 0 sev) :=
    (SameEntries.of_regs (Eq.refl _)).trans ((State.wr_sameEntries _ _ (e := E.noticesRaised) (by decide) (by decide)).trans
      (State.raiseTo_sameEntries _ _ (by decide) (by decide)))
  split
  · exact h.trans (SameEntries.of_regs (Eq.refl _))
  · exact h.trans (SameEntries.of_regs (Eq.refl _))

theorem State.limited_sameEntries (s : State) (interval key code src : Nat) :
    SameEntries s (s.limited interval key code src).2 := by
  refine SameEntries.of_regs ?_
  unfold State.limited
  dsimp only
  cases lastOf s.mgmt.limits code key with
  | none => rfl
  | some x =>
    dsimp only
    by_cases h : s.now < x + interval
    · simp only [h, decide_true, if_true]
    · simp only [h, decide_false]
      rfl

theorem State.addCounter_sameEntries (s : State) {b k : Nat} (n : Nat) (h : 6 * b + k < 2 ^ 24) : SameEntries s (s.addCounter b k n) := by
  unfold State.addCounter
  dsimp only
  split
  · exact SameEntries.rfl
  split
  · exact State.wr_sameEntries _ _ (by decide) h
  · have h0 := State.wr_sameEntries s (2 ^ 63 + (s.rd E.counterValue (6 * b + k) % 2 ^ 48 + n) % 2 ^ 48) (e := E.counterValue) (by decide) h
    refine h0.trans ?_
    generalize s.wr E.counterValue (6 * b + k) (2 ^ 63 + (s.rd E.counterValue (6 * b + k) % 2 ^ 48 + n) % 2 ^ 48) = w
    have h := State.limited_sameEntries w (65536 * 1000000000) b 0xA001 (b / 8)
    split
    · rename_i e; rw [e] at h; exact h
    · rename_i e; rw [e] at h; exact SameEntries.trans h (State.form_sameEntries _ _ _ _ _)

theorem State.countEvent_sameEntries (s : State) {b : Nat} (event arg job n : Nat) (h : b < 2 ^ 20) :
    SameEntries s (s.countEvent b event arg job n) := by
  unfold State.countEvent
  refine SameEntries.foldl (fun t k hk _ => ?_)
  dsimp only
  split
  · exact State.addCounter_sameEntries _ _ (by have := List.mem_range.mp hk; omega)
  · exact SameEntries.rfl

/-- A notice raised leaves every element but those of five entries as it was. -/
theorem State.raise_sameEntries (s : State) (code sev src : Nat) (ctx : List Item) : SameEntries s (s.raise code sev src ctx) :=
  SameEntries.trans (State.form_sameEntries _ _ _ _ _)
    (State.countEvent_sameEntries _ _ _ _ _ (by have := s.keeper_lt; omega))

theorem State.raiseLim_sameEntries (s : State) (interval key code sev src : Nat) (ctx : List Item) :
    SameEntries s (s.raiseLim interval key code sev src ctx) := by
  unfold State.raiseLim
  have h := State.limited_sameEntries s interval key code src
  split
  · rename_i e; rw [e] at h; exact h
  · rename_i e; rw [e] at h; exact SameEntries.trans h (State.raise_sameEntries _ _ _ _ _)

end Sys2Proof.Machine
end

