-- ==== Sys2Proof/Machine/Operands.lean ====
section
/-!
DEFINITION. The operands of the commands: the ranges the spec gives them (spec/00 R5, R6, R7, and the rule of each command).
-/
namespace Sys2Proof.Machine

/-- Fabric ports (R6), switch dies, quire dies, dies, stacks, arrays, engines, optical inputs, rings, channels, modules,
fibers, laser-module buses, management ports. -/
def isPort (n : Nat) : Bool := decide (n < 1024)
def isSwitchDie (n : Nat) : Bool := decide (n < 8)
def isQuire (n : Nat) : Bool := decide (n < 10)
def isDie (n : Nat) : Bool := decide (n < 20)
def isStack (n : Nat) : Bool := decide (n < 20)
def isArray (n : Nat) : Bool := decide (n < 40)
def isEngine (n : Nat) : Bool := decide (n < 8)
def isLaser (n : Nat) : Bool := decide (n < 64)
def isRing (n : Nat) : Bool := decide (n < 4096)
def isChannel (n : Nat) : Bool := decide (n < 2048)
def isModule (n : Nat) : Bool := decide (n < 256)
def isFiber (n : Nat) : Bool := decide (n < 256)
def isBus (n : Nat) : Bool := decide (n < 8)
def isMgmtPort (n : Nat) : Bool := decide (n < 2)

/-- PTP ports: the fabric ports, then the two management ports (R398). -/
def isPtpPort (n : Nat) : Bool := decide (n < 1026)

/-- A pair of dies of a stitch bundle, as 20 times one code plus the other. -/
def isPair (n : Nat) : Bool := decide (n < 400)

/-- Notice queues, and graph slots (R492, spec/06 R193). -/
def isQueue (n : Nat) : Bool := decide (n < 8)
def isSlot (n : Nat) : Bool := decide (n < 64)

/-- The width of a field. -/
def fits (w n : Nat) : Bool := decide (n < 2 ^ w)

/-- A GEI, a job tag, an operation or graph ID, an instance, a phase and a chunk. -/
def isGei (n : Nat) : Bool := fits 24 n
def isTag (n : Nat) : Bool := fits 16 n
def isOp (n : Nat) : Bool := fits 32 n
def isInst (n : Nat) : Bool := fits 8 n
def isPhase (n : Nat) : Bool := decide (n ≤ 1)
def isChunk (n : Nat) : Bool := fits 32 n

/-- A chunk of an instance of an operation. -/
def isChunkName (op inst phase chunk : Nat) : Bool := isOp op && isInst inst && isPhase phase && isChunk chunk

/-- An element of an array entry. -/
def isElement (e el : Nat) : Bool :=
  match entryRow e with
  | some r => decide (el < r.count)
  | none => false

/-- A value of an entry's type. -/
def isValue (e v : Nat) : Bool :=
  match entryRow e with
  | some r => fits (8 * r.ty.size) v
  | none => false

/-- The length of an entry's data (R472). -/
def isLength (e n : Nat) : Bool :=
  match entryRow e with
  | some r => match r.ty with
    | .bytes lo hi => decide (lo ≤ n) && decide (n ≤ hi)
    | ty => n == ty.size
  | none => false

/-- A path by which requests come (R479, R490). -/
def isPath : Path → Bool
  | .pcie => true
  | .smbus => true
  | .dap slot => decide (slot < 16)
  | .inband job gen src => isTag job && fits 8 gen && isGei src

/-- A PEER frame's source and job tag. -/
def isPeer (p : Peer) : Bool := isGei p.src && isTag p.job

/-- A collective frame's place of arrival and its header fields. -/
def isCf (f : Cf) : Bool :=
  isSwitchDie f.die && (isPort f.port || f.port == 0xFFFF) && isGei f.src && isTag f.job && fits 8 f.gen

/-- The body of a management or collective frame fits a frame (R243). -/
def isBody (b : List Byte) : Bool := decide (b.length ≤ 4608)

/-- Each index of a list of readings is below a bound. -/
def indicesBelow (n : Nat) (l : List (Nat × Int)) : Bool := l.all (fun x => decide (x.1 < n))

end Sys2Proof.Machine
end

