-- ==== Sys2Proof/WellFormed.lean ====
section
/-!
DEFINITION. Well-formed commands: every operand lies in the range the spec gives it.
-/
namespace Sys2Proof

open Machine

/-- A command whose operands are in range. -/
def Instr.wf (i : Instr) : Bool :=
  match i with
  | .dictWrite a entry first count _ => isPath a.path && fits 24 entry && fits 24 first && fits 16 count
  | .messageExecute _ _ _ => true
  | .dapRequest _ port _ _ bytes => isMgmtPort port && decide (bytes.length ≤ 9000)
  | .noticeAck _ _ bytes => decide (bytes.length ≤ 9000)
  | .noticePush _ queue => isQueue queue
  | .noticeResend _ queue => isQueue queue
  | .nqPop a queue => isPath a.path && isQueue queue
  | .nqConfig a queue _ => isPath a.path && isQueue queue
  | .mbxDoorbell _ request => decide (request.length ≤ 12288)
  | .mbxClear _ => true
  | .nringTail _ offset value => fits 16 offset && fits 32 value
  | .nringWrite _ => true
  | .perstN _ => true
  | .smbusStatus _ => true
  | .smbusRequestFragment _ _ offset bytes => fits 16 offset && decide (bytes.length ≤ 253)
  | .smbusExecute _ _ length => fits 16 length
  | .smbusStateRead _ => true
  | .smbusResponseOffset _ _ offset => fits 16 offset
  | .smbusResponseRead _ => true
  | .dictInbandRequest _ src job gen bytes => isGei src && isTag job && fits 8 gen && isBody bytes
  | .configLock a value => isPath a.path && isValue E.configLock value
  | .keyWrite a _ => isPath a.path
  | .entryQuery a _ => isPath a.path
  | .fwStage a data => isPath a.path && isLength E.fwStage data.length
  | .fwCommit a len => isPath a.path && isValue E.fwCommit len
  | .fwVerifyDone _ _ _ _ _ => true
  | .fwSvnCommit a value => isPath a.path && isValue E.fwSvnCommit value
  | .attestNonce a _ => isPath a.path
  | .attestReportRead a => isPath a.path
  | .colophonExportReq a _ => isPath a.path
  | .colophonExportRead a => isPath a.path
  | .keyRotate a value => isPath a.path && isValue E.keyRotate value
  | .keyPeriodExpiry _ => true
  | .peerPrepareRegistration _ p body => isPeer p && isBody body
  | .peerPrepareHsetExclude _ p body => isPeer p && isBody body
  | .peerPrepareDeregister _ p body => isPeer p && isBody body
  | .peerPrepareTensorCreate _ p body => isPeer p && isBody body
  | .peerPrepareTensorDestroy _ p body => isPeer p && isBody body
  | .peerPrepareGraph _ p body => isPeer p && isBody body
  | .peerPrepareGraphControl _ p body => isPeer p && isBody body
  | .peerPrepareSubnormal _ p body => isPeer p && isBody body
  | .peerPrepareParityGroup _ p body => isPeer p && isBody body
  | .peerPrepareParityDelete _ p body => isPeer p && isBody body
  | .peerVote _ p body => isPeer p && isBody body
  | .peerCommit _ p body => isPeer p && isBody body
  | .peerRelease _ p body => isPeer p && isBody body
  | .prepareTimeout _ xid => fits 32 xid
  | .register a record => isPath a.path && isLength E.register record.length
  | .registerFrame _ f _ record => isCf f && isBody record
  | .deregister a op => isPath a.path && isValue E.deregister op
  | .hsetExclude a _ => isPath a.path
  | .homeQuery a _ => isPath a.path
  | .contrib _ f _ payload _ => isCf f && isBody payload
  | .chunkCompletion _ op inst phase chunk _ _ => isOp op && isInst inst && isPhase phase && isChunk chunk
  | .colophonEmit _ die => isQuire die
  | .countResult _ f _ payload => isCf f && isBody payload
  | .refuseCheckFailed _ f _ => isCf f
  | .beacon _ f _ => isCf f
  | .throttle _ f _ => isCf f
  | .memberAbort _ f _ => isCf f
  | .done _ f _ => isCf f
  | .collectiveMisdirected _ f body => isCf f && isBody body
  | .tallyDeadline _ op inst => isOp op && isInst inst
  | .exchangeCompletion _ p body => isPeer p && isBody body
  | .completeSend _ op inst => isOp op && isInst inst
  | .abortRelay _ p body => isPeer p && isBody body
  | .stallTentative _ op inst rank => isOp op && isInst inst && fits 18 rank
  | .stallSettle _ op inst => isOp op && isInst inst
  | .prereduceContrib _ _ => true
  | .prHoldExpiry _ => true
  | .prWrite a _ => isPath a.path
  | .windowAnchor a ctx value => isPath a.path && isElement E.windowAnchor ctx && isValue E.windowAnchor value
  | .trapValid a value => isPath a.path && isValue E.trapValid value
  | .slotCountPublish _ die => isQuire die
  | .steeredForward _ => true
  | .spillCopyDone _ op inst phase chunk => isOp op && isInst inst && isPhase phase && isChunk chunk
  | .deferredReopen _ die => isQuire die
  | .bypassRefused _ p body => isPeer p && isBody body
  | .bypassEmitted _ p body => isPeer p && isBody body
  | .bypassRecompute _ p body => isPeer p && isBody body
  | .bypassRestart _ p body => isPeer p && isBody body
  | .memberQuery a _ => isPath a.path
  | .weightQuery a _ => isPath a.path
  | .tensorCreate a _ => isPath a.path
  | .tensorDestroy a handle => isPath a.path && isValue E.tensorDestroy handle
  | .tensorIo a data => isPath a.path && isLength E.tensorIo data.length
  | .tensorQuery a _ => isPath a.path
  | .graphStage a data => isPath a.path && isLength E.graphStage data.length
  | .graphCommit a len => isPath a.path && isValue E.graphCommit len
  | .graphResume a id => isPath a.path && isOp id
  | .graphRemove a id => isPath a.path && isOp id
  | .constWrite a data => isPath a.path && isLength E.constWrite data.length
  | .nodeQuery a _ => isPath a.path
  | .runStart _ slot => isSlot slot
  | .stripeOpen _ slot die _ group stripe => isSlot slot && isQuire die && isChunk group && isChunk stripe
  | .taskIssue _ slot die => isSlot slot && isQuire die
  | .taskComplete _ slot node _ => isSlot slot && fits 14 node
  | .updateEngineIdle _ die => isQuire die
  | .exchangeCollectSum _ p body => isPeer p && isBody body
  | .exchangeCollectMax _ p body => isPeer p && isBody body
  | .fenceReport _ p body => isPeer p && isBody body
  | .fenceLimitExpiry _ slot => isSlot slot
  | .publishResend _ f body => isCf f && isBody body
  | .updateHeldResult _ p body => isPeer p && isBody body
  | .updateCommittedStripe _ p body => isPeer p && isBody body
  | .subnormalSet a _ => isPath a.path
  | .tileIssue _ array => isArray array
  | .tileComplete _ array _ _ wrong _ _ _ => isArray array && wrong.all (fun x => decide (x.1 < 128) && decide (x.2.1 < 128) && decide (x.2.2 < 2 ^ 64))
  | .arrayIdleStop _ array => isArray array
  | .stackCommandDone _ stack cmd _ _ _ _ _ _ => isStack stack && decide (cmd ≤ 9)
  | .scrubStep _ stack _ _ => isStack stack
  | .stackTempSample _ stack _ => isStack stack
  | .partRequest a _ => isPath a.path
  | .mftFrameReceive _ port _ _ _ _ _ => isPort port
  | .ethFrameReceive _ port _ _ _ _ => isPort port
  | .originCellRetry _ => true
  | .schedulerPick _ port => isPort port
  | .frameTransmitted _ _ x => (x.frees ++ x.listed).all (fun x => isSwitchDie x.1 && decide (x.2 < 1048576))
  | .creditReceive _ port _ => isPort port
  | .creditSend _ port => isPort port
  | .helloReceive _ port _ => isPort port
  | .helloSend _ port => isPort port
  | .loadSummary _ die => isSwitchDie die
  | .sprayWrite a data => isPath a.path && isLength E.sprayWrite data.length
  | .circuitWrite a _ => isPath a.path
  | .mcastWrite a data => isPath a.path && isLength E.mcastWrite data.length
  | .versionRetire _ _ _ => true
  | .drainSlow _ _ _ => true
  | .pcsLinkFault _ port => isPort port
  | .portDownHoldExpiry _ port => isPort port
  | .portUp _ port => isPort port
  | .portAdmin a port value => isPath a.path && isPort port && isValue E.portAdmin value
  | .shaperWrite a _ => isPath a.path
  | .wheelSlot _ port => isPort port
  | .policerWrite a _ => isPath a.path
  | .gateWrite a data => isPath a.path && isLength E.gateWrite data.length
  | .gateListActive _ port => isPort port
  | .gateTransition _ port => isPort port
  | .groupChange a value => isPath a.path && isValue E.groupChange value
  | .groupCycle a value => isPath a.path && isValue E.groupCycle value
  | .samplePeriodEnd _ => true
  | .geiExactWrite a _ => isPath a.path
  | .geiQuery a _ => isPath a.path
  | .addrMode a value => isPath a.path && isValue E.addrMode value
  | .addrWrite a _ => isPath a.path
  | .addrQuery a _ => isPath a.path
  | .addrFlush a _ => isPath a.path
  | .learnPop a => isPath a.path
  | .learnPropagate _ die vid mac _ => isSwitchDie die && fits 12 vid && fits 48 mac
  | .ageSweep _ die => isSwitchDie die
  | .prefixWrite a _ => isPath a.path
  | .prefixApplied _ => true
  | .nexthopWrite a _ => isPath a.path
  | .lpmQuery a _ => isPath a.path
  | .parityScrub _ die _ => isSwitchDie die
  | .filterRebuild _ die _ _ => isSwitchDie die
  | .fiberMode a fiber value => isPath a.path && isFiber fiber && isValue E.fiberMode value
  | .narrowEn a port value => isPath a.path && isPort port && isValue E.narrowEn value
  | .berMeasure _ port _ _ _ => isPort port
  | .laserPoll _ laser _ _ _ _ _ _ => isLaser laser
  | .laserEnable a laser value => isPath a.path && isLaser laser && isValue E.laserEnable value
  | .lmInt _ bus reads => isBus bus && decide (reads.length = 8)
  | .lmBusStuck _ bus _ => isBus bus
  | .lmBusRetry _ bus _ => isBus bus
  | .lightPresent _ ring => isRing ring
  | .lightLost _ ring => isRing ring
  | .sweepDone _ ring _ => isRing ring
  | .pilotWindow _ ring _ heater => isRing ring && fits 16 heater
  | .identifyTimeout _ ring => isRing ring
  | .ringLockLost _ ring => isRing ring
  | .ringRetry a ring => isPath a.path && isValue E.ringRetry ring
  | .calSlotStart _ => true
  | .narrowDeadline _ port => isPort port
  | .calDone _ chan _ _ _ _ => isChannel chan
  | .narrowReturn _ port => isPort port
  | .monitorRead _ engine _ => isEngine engine
  | .bypassCreate a _ => isPath a.path
  | .bypassDelete a _ => isPath a.path
  | .bypassLossMeasure _ circuit _ => isElement E.bypassState circuit
  | .engineDiscovery _ engine _ _ => isEngine engine
  | .moduleTrained _ module _ _ _ _ => isModule module
  | .moduleTrainTimeout _ module => isModule module
  | .failedLane _ module _ => isModule module
  | .moduleRetrain a module => isPath a.path && isValue E.moduleRetrain module
  | .widthExchange _ module _ _ _ => isModule module
  | .stitchNak _ pair _ _ => isPair pair
  | .channelTestStart _ pair _ => isPair pair
  | .channelTestDone _ pair _ wires => isPair pair && wires.all (fun w => decide (w < 68))
  | .ringEntryWait _ quire => isQuire quire
  | .timeSync _ => true
  | .timeFrameSend _ port => isPort port
  | .timeFrameReceive _ port _ => isPort port
  | .ptpMessage _ port _ => isPtpPort port
  | .parentTimeout _ => true
  | .stepArm a value => isPath a.path && isValue E.stepArm value
  | .groupSyncEmit _ => true
  | .groupSyncWord _ _ => true
  | .trefInLost _ => true
  | .tpoConfig a output _ => isPath a.path && decide (output < 4)
  | .tpoEdge _ output => decide (output < 4)
  | .tcapEdge _ input _ => decide (input < 2)
  | .tcapPop a input => isPath a.path && decide (input < 2)
  | .healthFlitAbsent _ die => isDie die
  | .healthFlitFatal _ die => isDie die
  | .migrationDone _ slot => isSlot slot
  | .hsBeatSend _ => true
  | .hsBeat _ p body => isPeer p && isBody body
  | .peerLost _ gei => isGei gei
  | .exchangeHsetVer _ p body => isPeer p && isBody body
  | .keeperTakeover _ _ => true
  | .keeperSwitch a value => isPath a.path && isValue E.keeperSwitch value
  | .keeperRejoin a value => isPath a.path && isValue E.keeperRejoin value
  | .keeperRejoined _ => true
  | .parityCreate a _ => isPath a.path
  | .parityDelete a _ => isPath a.path
  | .parityQuery a _ => isPath a.path
  | .parityDone _ p body => isPeer p && isBody body
  | .parityCommitted _ p body => isPeer p && isBody body
  | .parityAborted _ p body => isPeer p && isBody body
  | .parityWaitExpiry _ job group => isTag job && fits 8 group
  | .rebuildStart a _ _ _ => isPath a.path
  | .rebuildDone _ _ _ _ => true
  | .coarseFill a _ => isPath a.path
  | .jobStart a _ => isPath a.path
  | .jobRetire a _ => isPath a.path
  | .jobAdvance a _ => isPath a.path
  | .jobWithdraw a tag => isPath a.path && isValue E.jobWithdraw tag
  | .jobQuery a _ => isPath a.path
  | .jobQuota a _ => isPath a.path
  | .pendingLimitExpiry _ tag => isTag tag
  | .jobRetired _ tag => isTag tag
  | .retireSlow _ tag => isTag tag
  | .quarantineEnd _ tag => isTag tag
  | .spawnOpen a _ => isPath a.path
  | .spawnClose a _ => isPath a.path
  | .spawnQuery a _ => isPath a.path
  | .spawnBlock _ f body => isCf f && isBody body
  | .spawnRangeReq _ f body => isCf f && isBody body
  | .spawnAck _ f body => isCf f && isBody body
  | .spawnReparent _ f body => isCf f && isBody body
  | .spawnAdopted _ f body => isCf f && isBody body
  | .spawnNack _ f body => isCf f && isBody body
  | .spawnGapTimer _ job session => isTag job && fits 16 session
  | .counterValue a el value => isPath a.path && isElement E.counterValue el && isValue E.counterValue value
  | .counterSelect a el _ => isPath a.path && isElement E.counterSelect el
  | .counterWrap _ el _ => isElement E.counterValue el
  | .snapshotInstant _ _ => true
  | .sampler a el _ => isPath a.path && isElement E.sampler el
  | .sampleTaken _ kind _ _ _ => decide (1 ≤ kind) && decide (kind ≤ 4)
  | .powerOn _ => true
  | .vaonLost _ => true
  | .resetNAssert _ => true
  | .resetNRelease _ straps => fits 4 straps
  | .resetDevice a value => isPath a.path && isValue E.resetDevice value
  | .startupStepDone _ _ _ dies arrays _ _ badStacks => dies.all isDie && arrays.all isArray && badStacks.all isStack
  | .startupRetry _ => true
  | .dieReset a die => isPath a.path && isValue E.dieReset die
  | .dieResetDone _ die _ => isDie die
  | .vinWarningEnter _ _ => true
  | .vinWarningExit _ _ => true
  | .vinResetEnter _ => true
  | .vinResetExit _ => true
  | .powerMeasure _ _ _ _ _ classes => decide (classes.length = 6)
  | .regulatorFault _ die _ _ => isDie die
  | .refclkFailover _ input => decide (input < 2)
  | .refclkHoldExpiry _ => true
  | .refclkSel a value => isPath a.path && isValue E.refclkSel value
  | .switchClockIdle _ die => isSwitchDie die
  | .keeperCoreIdle _ => true
  | .tempSample _ dies base photonic comp => indicesBelow 28 dies && indicesBelow 64 base && indicesBelow 8 photonic && indicesBelow 8 comp
  | .jtagInstruction _ instr _ _ => decide (instr < 6)
  | .groupWordMissing _ => true
  | .linkFaultCleared _ port => isPort port
  | .refclkRestored _ input => decide (input < 2)
  | .dieRecoverableFault _ die => isDie die
  | .mgmtPortLinkChange _ port _ => isMgmtPort port
  | .ptpMessageSend _ port _ => isPtpPort port
  | .vioRangeChange _ _ => true

end Sys2Proof
end

