-- ==== Sys2Proof/Tests/Slice0.lean ====
section
/-!
SUPPORT. Tests: ill-formed commands, the spec's worked examples, and for each statement of Certificates/Slice0 with hypotheses
states and operands that meet them, clause by clause.
-/

namespace Sys2Proof.Tests
open Sys2Proof Sys2Proof.Machine

set_option Elab.async false

/-! ### The states and operands of the tests -/

/-- An outcome is the next state given. -/
def isNext (o : Host.Outcome State Fault Refusal) (t : State) : Bool :=
  match o with
  | .next u => decide (u = t)
  | _ => false

theorem eq_next_iff (o : Host.Outcome State Fault Refusal) (t : State) : o = .next t ↔ isNext o t = true := by
  cases o <;> simp [isNext]

/-- The machine in service, with every right at the PCIe path. -/
def ready : State := (State.reset.wr E.deviceState 0 2).wr E.localRights 0 15

/-- An access at the PCIe path. -/
def acc : Access := ⟨1000, .pcie⟩

/-- The machine in service with the key of zeros in key slot 0 and in the fabric key slot, and a GEI. -/
def keyed : State :=
  { ready.wr E.deviceGei 0 5 with mgmt := { ready.mgmt with keys := [(0, ⟨true, 15, 0, 0⟩), (16, ⟨true, 0, 0, 0⟩)] } }

/-- An item that reads an entry. -/
def readItem (e : Nat) : ReqItem := ⟨pack [(4, 1), (4, 0), (24, e), (24, 0), (16, 0), (8, 0), (16, 0)], []⟩

/-- A request that reads one entry, with the MAC of the key of zeros under a key slot. -/
def request (slot txn e : Nat) : List Byte :=
  let b := requestBytes slot txn false [readItem e] (List.replicate (macLen slot) 0)
  let c := b.take (b.length - macLen slot)
  if slot < 16 then c ++ toBytes 16 (mac128 0 c) else c

/-- A message that waits. -/
def waitMsg : WaitMsg := ⟨.pcie, .pcie, none, request 0xFFFE 1 E.deviceState⟩

/-- A record of a notice queue. -/
def rec1 : Queued := ⟨100, 0⟩

/-- A state with a notice queue in it and the queue's sink. -/
def withNq (s : State) (q sink : Nat) (v : NQueue) : State :=
  (s.wr E.nqConfig q (s.rd E.nqConfig q % 2 ^ 252 + sink * 2 ^ 252 + 2 ^ 255 - s.rd E.nqConfig q / 2 ^ 255 * 2 ^ 255)).setNq q v

/-- A state with its management records changed. -/
def withMgmt (s : State) (f : Mgmt → Mgmt) : State := { s with mgmt := f s.mgmt }

/-- A PEER frame with the fabric key's MAC. -/
def peerOf (src sub : Nat) (body : List Byte) : Peer :=
  ⟨src, 0, BitVec.ofNat 128 (mac128 0 (mgmtHeader 3 sub (body.length + 16) ++ body))⟩

/-- A message of key slot 0 that waits alone, and what running its items leaves. -/
def dapMsg : WaitMsg := ⟨.udp 0 0 0, .dap 0, some ⟨true, 15, 0, 0⟩, request 0 1 E.deviceState⟩
def dapWaiting : State := withMgmt keyed (fun m => { m with waiting := [dapMsg] })
def dapRan : List Byte × State :=
  ({ dapWaiting.begin 1000 with mgmt := { dapWaiting.mgmt with waiting := [], judged := dapMsg.judged } }).execItems ⟨1000, .dap 0⟩
    [readItem E.deviceState] ⟨true, false⟩ (9000 - 16 - 16)

/-! A registration of three members at one home device, its context, instance and chunk. -/

def sumArith : Nat := pack [(8, 16), (8, 16), (4, 0), (2, 0), (1, 0), (1, 1), (8, 0), (16, 0), (16, 0), (32, 0x3F800000), (32, 0),
  (32, 0xFF7FFFFF), (32, 0x7F7FFFFF), (16, 256), (48, 0)]
def regBytes (type v limit : Nat) : List Byte :=
  toBytes 32 (pack [(16, 1), (4, type), (1, v), (1, 0), (1, 1), (1, 0), (8, 1), (8, 1), (8, 0), (24, 0), (24, 0), (32, 2), (16, limit),
    (16, 2000), (32, 1), (64, 0)]) ++ toBytes 32 sumArith ++ toBytes 8 (10 * 2 ^ 40 + 12 * 2 ^ 16) ++ toBytes 4 5
def op1 : Nat := 0x10001
def reg1 : Reg := regOf op1 (regBytes 0 0 200)
def die1 : Nat := ((keyed.candidates op1 0 0).1).getD 0
def chunk1 : Chunk := { phase := 0, chunk := 0, state := .opened, die := die1, slots := [7], h1 := 5, openedAt := 0, count := 4 }
def inst1 : Inst := { num := 0, ver := 0, openedAt := 0, anchor := some 0, chunks := [chunk1] }
def ctx1 : Ctx := { reg := reg1, gen := 3, admitted := true, anchorNext := 0, insts := [inst1] }

/-- A job led by GEI 9 with every quota at its greatest. -/
def job1 : Job := { state := .active, record := BitVec.ofNat 512 (9 * 2 ^ 464 + (2 ^ 464 - 1)), gen := 3 }

/-- The machine that holds one context of that job. -/
def home (x : Ctx) : State :=
  { keyed.wr E.regJobTag 0 1 with
    jobs := [(1, job1)], coll := { ctxs := [(0, x)] } }

/-- That machine with its chunk, or its instance, changed. -/
def withChunk (k : Chunk) : State := home { ctx1 with insts := [{ inst1 with chunks := [k] }] }
def withInst (i : Inst) : State := home { ctx1 with insts := [i] }

/-- Frames of a member, and the headers they carry. -/
def cf (src : Nat) : Cf := ⟨0, 3, 900, src, 1, 3⟩
def pay4 : List Byte := toBytes 16 (pack [(32, 1), (32, 2), (32, 3), (32, 2 ^ 32 - 4)])
def ch1 : Ch := { kind := 1, op := op1, inst := 0, chunk := 0, hver := 0, phase := 0, pass := 0, fmt := 16, anchor := 0, count := 4, frame := 0,
                  first := 1, covers := 1 }
def chHead (h : Ch) (src : Nat) (p : List Byte) : BitVec 384 := BitVec.ofNat 384 (ofBytes (h.bytes src p))
def ctlHead (kind op chunk reason flags a : Nat) : BitVec 256 := BitVec.ofNat 256 (pack [(4, 1), (4, kind), (32, op), (8, 0), (32, chunk), (8, 0),
  (8, reason), (8, flags), (24, 0), (32, a), (96, 0)])

/-- A registration of floating-point sums in a window mode. -/
def regF (mode : Nat) : Reg := { reg1 with arith := pack [(8, 3), (8, 3), (4, 0), (2, mode), (1, 0), (1, 0), (8, 0), (16, 0), (16, 0), (32, 0x3F800000), (32, 0),
  (32, 0xFF7FFFFF), (32, 0x7F7FFFFF), (16, 256), (48, 0)] }

/-- The leaf's contribution kept at its ingress die. -/
def leafFrame : Mft := ⟨{ ptype := 2, dest := 9, src := 11, job := 1, gen := 3 }, [], ch1.bytes 11 pay4 ++ pay4⟩
def kept : Stored := ⟨4, 0, 0, [1], [], true, 3, 900, .mft leafFrame, [], false, false⟩
def preOpen : PreSlot := { op := op1, inst := 0, chunk := 0, anchor := 0, count := 4, hver := 0, ring := false, slot := some 7, openedAt := 0 }
def leaf : State :=
  { (home ctx1).wr E.roleNow 0 1 |>.wr E.prereduceEn 0 1 with
    net := { frames := [kept] }, coll := { pre := [(op1, ⟨0, 0, 3⟩)], preSlots := [preOpen], slots := [(0, [3, 7, 9])] } }

/-- A port with one frame queued, and what its scheduler picks. -/
def queued : State :=
  let s := ready.wr E.portState 0 2
  { s with
    net := { s.net with
      frames := [{ kept with owners := [0], localOwner := false, inPort := noPort }]
      queues := [(0, { shaper := shaperDefault 0, descs := [⟨4, 200, 0, 1, .port false, 0, 0, false, false, false⟩] })] } }
def picked : Option Pick × State :=
  let w := (List.range 9).foldl (fun (s : State) k => s.prepareQueue 0 k) (queued.begin 1000)
  ((w.circuitsOf 0).foldl (fun (s : State) c => s.prepareCirc 0 c) w).pickTier 0

/-- A BYPASS message about the chunk. -/
def bypassMsg (kind : Nat) : List Byte := toBytes 16 (kind * 2 ^ 120 + op1 * 2 ^ 64)
def sentOut : Chunk := { chunk1 with state := .bypassOut, h2 := 9, slots := [] }
def takenIn : Chunk := { chunk1 with bypassIn := true, h1 := 9, acc := .ints [1, 1, 1, 1], flags := 1 }

/-! A tensor in stripes and a whole one, and a graph over them. -/

def tensorV : Nat := pack [(16, 5), (4, 0), (8, 3), (4, 0), (32, op1), (32, 0), (40, 1500), (16, 0), (16, 0), (88, 0)]
def tensor1 : Tensor := { tensorOf tensorV with admitted := true }
def tensor2 : Tensor := { handle := 0x10006, cls := 1, fmt := 3, op := op1, first := 0, elements := 16384, rows := 128, cols := 128, admitted := true }
def ctxU (hs : List Nat) : Ctx :=
  { ctx1 with
    reg := { reg1 with type := 7, hset := hs, arith := pack [(8, 3), (8, 3), (4, 0), (2, 0), (1, 0), (1, 0), (8, 0), (16, 0), (16, 0),
      (32, 0x3F800000), (32, 0), (32, 0xFF7FFFFF), (32, 0x7F7FFFFF), (16, 256), (48, 0)] }
    insts := [{ inst1 with chunks := [] }] }
def nodes1 : List GNode := [⟨2, 0, 5, [], 0⟩, ⟨7, 0, 0xFFFF, [⟨3, 0, 0⟩], 0⟩, ⟨8, 0, 5, [⟨3, 0, 1⟩], 0⟩]
def nodesM : List GNode := [⟨5, 0, 6, [], 0⟩]
def graph1 : Graph := { id := 0x10001, state := 2, op := op1, auto := false, next := 0, limit := 5, nodes := nodes1, progs := [], groups := [], constsNext := [],
                        version := 3 }
def run1 : Run := { inst := 0, flush := false, consts := [] }
def withGraphs (hs : List Nat) (gs : Graphs) : State := { home (ctxU hs) with graphs := gs }
def tens : Tab Tensor := [(0x10005, tensor1), (0x10006, tensor2)]
def graphAt (hs : List Nat) (g : Graph) : State := withGraphs hs { tensors := tens, slots := [(0, g)] }
def die5 : Nat := (withGraphs [5] { tensors := tens }).stripeDie tensor1 0
def die6 : Nat := (withGraphs [5] { tensors := tens }).bandDie tensor2 0
def image1 : List Byte := toBytes 32 (pack [(16, 1), (4, 1), (1, 0), (3, 0), (8, 5), (32, op1), (16, 2), (8, 0), (8, 0), (32, 3), (32, 1000), (96, 0)])
  ++ toBytes 64 (2 * 2 ^ 508 + 5 * 2 ^ 480) ++ toBytes 64 (7 * 2 ^ 508 + 0xFFFF * 2 ^ 480) ++ List.replicate 1024 0
def tile1 : Tile := { slot := 0, node := 0, prod := 0, i := 0, j := 0 }

/-- A product of two values of 0, and a machine that holds its tile in array 1 of that die. -/
def tensorS : Tensor := { tensor2 with handle := 0x10007, elements := 1024, rows := 1, cols := 1 }
def graphS : Graph := { graph1 with
  nodes := [⟨2, 0, 7, [], 0⟩, ⟨5, 0, 7, [⟨2, 0, 0⟩, ⟨2, 0, 0⟩], 3 * 2 ^ 240 + 2 ^ 238⟩]
  state := 3
  run := some { run1 with issued := [(1, die6)], outs := [(outKey 0 0 0, [0])] } }
def tileS : Tile := { tile1 with node := 1 }
def tiled : State :=
  withGraphs [5] { tensors := [(0x10007, tensorS)], slots := [(0, graphS)], arrays := [(4 * die6 + 1, { tiles := [tileS] })] }

/-- States with a parity group, a rebuild, and changed power or probe records. -/
def withParity (s : State) (g : Parity) : State := { s with graphs := { s.graphs with parity := [(parityKey 1 2, g)] } }
def withRebuild (s : State) (r : Rebuild) : State := { s with graphs := { s.graphs with rebuild := some r } }
def withPower (s : State) (f : Power → Power) : State := { s with power := f s.power }
def withProbes (s : State) (f : Probes → Probes) : State := { s with probes := f s.probes }

/-- A parity group of a job, at a data device and at its parity device; a rebuild of the latter. -/
def parD : Parity := { job := 1, group := 2, graph := 1, pgei := 9, data := [5, 6], pages := 1, admitted := true }
def parP : Parity := { parD with pgei := 5, data := [6, 7] }
def rebuild1 : Rebuild := { job := 1, group := 2, index := 0, version := 3, target := 5, count := 2 }

/-- A spawn session, the machine that holds one, and a body's header. -/
def sess1 : Session :=
  { job := 1, number := 2, group := 3, parent := 9, alts := [10, 11, 12, 13], blocks := 8, last := 16, cache := true, fill := false,
    first := 0, count := 4, tensor := 0, fillFirst := 0 }
def withSess (x : Session) : State := { home ctx1 with spawns := [(spawnKey 1 2, x)] }
def spawnHead (k b n c len : Nat) : List Byte :=
  toBytes 32 (pack [(4, 1), (4, k), (16, 2), (32, b), (32, n), (18, 0), (19, c), (3, 0), (13, len), (51, 0), (64, 0)])
def block7 : List Byte :=
  let h := (spawnHead 1 7 0 0 16).take 24
  let p : List Byte := List.replicate 16 0
  h ++ toBytes 8 (crc64 (h ++ p)) ++ p

/-- An engine in service, two firmware images, and a tensor with a LOST stripe. -/
def lit0 : State := ((ready.wr E.engineState 0 2).wr E.dieState 0 0).wr E.bypassLimit 0 8
def images : State := withMgmt ready (fun m => { m with fwSlots := [(0, ⟨false, 3, 7, 5⟩), (1, ⟨false, 3, 8, 6⟩)] })
def lostT : Tensor := { tensor1 with stripes := [(1, ⟨⟨3, [], false⟩, ⟨3, [], false⟩, false⟩)] }

/-- A whole stripe for TENSOR_IO: the value one, then zeros. -/
def io3 : List Byte := (toBytes 4 0x10005 ++ toBytes 4 1 ++ toBytes 4 0x3F800000) ++ List.replicate 4092 0#8

/-- An instance with one deferred chunk, the machine that holds it, and what opening the chunk again leaves. -/
def defInst : Inst := { inst1 with deferred := [0], chunks := [] }
def defHome : State := withInst defInst
def defOpened : State := ((defHome.begin 1000).reopenOne die1).getD ready

def defCtx : Ctx := { ctx1 with insts := [defInst] }
def defPlaced : State :=
  let s := defHome.begin 1000
  let b := defCtx.newChunk defInst 0 0 ((defInst.elements reg1 0 0).getD 1024) s.now s.gei true .resending
  let o := defCtx.opening 0 defInst b die1
  let w := s.modInst 0 0 (fun (j : Inst) => { j with deferred := j.deferred.erase 0 })
  (w.openBy 0 0 defCtx defInst b o ((w.candidates op1 0 0).1 != some die1) (.sram ((w.slotFor o).getD 0))).getD ready
def defFull : State := { defHome with coll := { defHome.coll with stackUsed := (List.range 20).map (fun h => (h, 2 ^ 60)) } }

/-- What a stack's transfer leaves once its turn has come. -/
def served (s : State) (t : Time) (h b retries : Nat) (e : BitVec 544) (wait : List Nat) (x : Holds) : Option State :=
  ((s.begin t).serve h (holdsClass (s.holdsAt h b x)) wait).map fun w =>
    (if retries = 0 then w.transferred h (holdsClass (s.holdsAt h b x))
      else (w.transferred h (holdsClass (s.holdsAt h b x))).bump E.interfaceRetries h 1).upset h b e

theorem atStack_iff (s : State) (t : Time) (h b retries : Nat) (e : BitVec 544) (wait : List Nat) (x : Holds) (v : State) :
    s.AtStack t h b retries e wait x v ↔ served s t h b retries e wait x = some v := by
  cases h1 : (s.begin t).serve h (holdsClass (s.holdsAt h b x)) wait <;> simp [State.AtStack, served, h1, eq_comm]

theorem ofBytes_zeros (n : Nat) : ofBytes (List.replicate n 0#8) = 0 := by
  induction n with
  | zero => rfl
  | succ n ih => simpa [List.replicate_succ, ofBytes] using ih

theorem field_zeros (p : List Byte) (m off n : Nat) (h : p.length ≤ off) : field (p ++ List.replicate m 0#8) off n = 0 := by
  simp [field, slice, List.drop_append, List.drop_eq_nil_of_le h, ofBytes_zeros]

theorem io3_finite : (ioValues io3).any (notFinite fp32) = false := by
  rw [List.any_eq_false]
  intro x hx
  obtain ⟨i, -, rfl⟩ := List.mem_map.mp hx
  cases i with
  | zero => decide +kernel
  | succ i =>
    rw [io3, field_zeros _ _ _ _ (by rw [show (toBytes 4 0x10005 ++ toBytes 4 1 ++ toBytes 4 0x3F800000).length = 12 from by decide]; omega)]
    decide +kernel

/-! ### Ill-formed commands: each check of the operands refuses a term -/

/-- A byte string that no frame or message holds. -/
def tooLong : List Byte := List.replicate 9001 0

theorem test_ill_formed_messages : ([.dictWrite ⟨0, .dap 16⟩ 0 0 0 [],
    .dictWrite acc (2 ^ 24) 0 0 [],
    .dictWrite acc 0 (2 ^ 24) 0 [],
    .dictWrite acc 0 0 (2 ^ 16) []] : List Instr).all (fun i => !i.wf) = true := by
  decide +kernel

theorem test_ill_formed_requests : ([.dapRequest 0 2 0 0 [],
    .dapRequest 0 0 0 0 tooLong,
    .noticeAck 0 none tooLong,
    .noticePush 0 8,
    .mbxDoorbell 0 (tooLong ++ tooLong),
    .nringTail 0 (2 ^ 16) 0,
    .nringTail 0 0 (2 ^ 32)] : List Instr).all (fun i => !i.wf) = true := by
  decide +kernel

theorem test_ill_formed_smbus : ([.smbusRequestFragment 0 false (2 ^ 16) [],
    .smbusRequestFragment 0 false 0 tooLong,
    .smbusExecute 0 false (2 ^ 16),
    .dictInbandRequest 0 (2 ^ 24) 0 0 [],
    .dictInbandRequest 0 0 (2 ^ 16) 0 [],
    .dictInbandRequest 0 0 0 256 [],
    .dictInbandRequest 0 0 0 0 tooLong] : List Instr).all (fun i => !i.wf) = true := by
  decide +kernel

theorem test_ill_formed_management : ([.configLock acc 256,
    .fwStage acc tooLong,
    .peerVote 0 ⟨2 ^ 24, 0, 0⟩ [],
    .peerVote 0 ⟨0, 2 ^ 16, 0⟩ [],
    .peerVote 0 ⟨0, 0, 0⟩ tooLong,
    .prepareTimeout 0 (2 ^ 32)] : List Instr).all (fun i => !i.wf) = true := by
  decide +kernel

theorem test_ill_formed_chunks : ([.chunkCompletion 0 (2 ^ 32) 0 0 0 [] 0,
    .chunkCompletion 0 0 256 0 0 [] 0,
    .chunkCompletion 0 0 0 2 0 [] 0,
    .chunkCompletion 0 0 0 0 (2 ^ 32) [] 0,
    .colophonEmit 0 10] : List Instr).all (fun i => !i.wf) = true := by
  decide +kernel

theorem test_ill_formed_members : ([.beacon 0 ⟨8, 0, 0, 0, 0, 0⟩ 0,
    .beacon 0 ⟨0, 1024, 0, 0, 0, 0⟩ 0,
    .beacon 0 ⟨0, 0, 0, 2 ^ 24, 0, 0⟩ 0,
    .beacon 0 ⟨0, 0, 0, 0, 2 ^ 16, 0⟩ 0,
    .beacon 0 ⟨0, 0, 0, 0, 0, 256⟩ 0,
    .stallTentative 0 0 0 (2 ^ 18),
    .windowAnchor acc (2 ^ 24) 0,
    .windowAnchor acc 0 (2 ^ 64)] : List Instr).all (fun i => !i.wf) = true := by
  decide +kernel

theorem test_ill_formed_graphs : ([.runStart 0 64,
    .stripeOpen 0 0 0 0 (2 ^ 32) 0,
    .taskComplete 0 0 (2 ^ 14) 0,
    .tileIssue 0 40,
    .stackCommandDone 0 20 0 0 0 0 false ⟨0, 0, ⟨0, []⟩⟩ (.free 0),
    .stackCommandDone 0 0 10 0 0 0 false ⟨0, 0, ⟨0, []⟩⟩ (.free 0),
    .tileComplete 0 0 0 0 [(128, 0, 0)] false 0 0] : List Instr).all (fun i => !i.wf) = true := by
  decide +kernel

theorem test_ill_formed_switch : ([.creditSend 0 1024,
    .frameTransmitted 0 0 ⟨0, [(8, 0)], []⟩,
    .loadSummary 0 8,
    .sprayWrite acc [],
    .portAdmin acc 1024 0,
    .learnPropagate 0 0 4096 0 0,
    .learnPropagate 0 0 0 (2 ^ 48) 0,
    .fiberMode acc 256 0,
    .laserEnable acc 64 0,
    .lmInt 0 8 [],
    .lmInt 0 0 []] : List Instr).all (fun i => !i.wf) = true := by
  decide +kernel

theorem test_ill_formed_rings : ([.lightLost 0 4096,
    .pilotWindow 0 0 0 (2 ^ 16),
    .calDone 0 2048 0 0 0 0,
    .monitorRead 0 8 [],
    .bypassLossMeasure 0 512 0,
    .moduleTrainTimeout 0 256,
    .channelTestStart 0 400 0,
    .channelTestDone 0 0 0 [68],
    .ringEntryWait 0 10] : List Instr).all (fun i => !i.wf) = true := by
  decide +kernel

theorem test_ill_formed_time : ([.ptpMessageSend 0 1026 0,
    .tpoConfig acc 4 0,
    .tpoEdge 0 4,
    .tcapEdge 0 2 true,
    .healthFlitFatal 0 20,
    .peerLost 0 (2 ^ 24),
    .parityWaitExpiry 0 0 256,
    .quarantineEnd 0 (2 ^ 16),
    .spawnGapTimer 0 0 (2 ^ 16)] : List Instr).all (fun i => !i.wf) = true := by
  decide +kernel

theorem test_ill_formed_counters : ([.counterValue acc 960 0,
    .counterWrap 0 960 0,
    .sampleTaken 0 0 0 0 0,
    .sampleTaken 0 5 0 0 0,
    .resetNRelease 0 16,
    .startupStepDone 0 [] false [20] [] [] 0 [],
    .startupStepDone 0 [] false [] [40] [] 0 [],
    .startupStepDone 0 [] false [] [] [] 0 [20]] : List Instr).all (fun i => !i.wf) = true := by
  decide +kernel

theorem test_ill_formed_power : ([.powerMeasure 0 0 0 0 0 [],
    .refclkFailover 0 2,
    .tempSample 0 [(28, 0)] [] [] [],
    .tempSample 0 [] [(64, 0)] [] [],
    .tempSample 0 [] [] [(8, 0)] [],
    .tempSample 0 [] [] [] [(8, 0)],
    .jtagInstruction 0 6 0 0,
    .mgmtPortLinkChange 0 2 true] : List Instr).all (fun i => !i.wf) = true := by
  decide +kernel

theorem test_well_formed : ([.creditSend 5 1023, .configLock acc 1, .beacon 0 (cf 9) 0, .lmInt 0 7 (List.replicate 8 (true, false, 0, [], [])),
    .chunkCompletion 0 op1 255 1 (2 ^ 32 - 1) [] 0, .resetNRelease 0 15, .tempSample 0 [(27, 0)] [(63, 0)] [(7, 0)] []] : List Instr).all Instr.wf = true := by
  decide +kernel

/-! ### The spec's worked examples (spec/02, spec/05, spec/11) and known codes -/

/-- crc64 over the nine ASCII digits (R139). -/
theorem test_crc64_check : crc64 [0x31, 0x32, 0x33, 0x34, 0x35, 0x36, 0x37, 0x38, 0x39] = 0x62EC59E3F1A4F00A := by decide +kernel

/-- SHA-256 of the three ASCII bytes of abc, as FIPS 180 prints it. -/
theorem test_sha256_abc : sha256 [0x61, 0x62, 0x63] = 0xBA7816BF8F01CFEA414140DE5DAE2223B00361A396177A9CB410FF61F20015AD := by decide +kernel

/-- The BF16 element 0x3E20 and its negative at L = −108. -/
theorem test_window_exact : toWindow (decode 3 ⟨0x3E20, 0⟩) (-108) 109 = ⟨160 * 2 ^ 98, false, false⟩ ∧
    toWindow (decode 3 ⟨0xBE20, 0⟩) (-108) 109 = ⟨-(160 * 2 ^ 98), false, false⟩ := by decide +kernel

/-- The ties below the window: 180 / 8 goes to 22, 188 / 8 to 24. -/
theorem test_window_ties : toWindow (decode 3 ⟨0x0BB4, 0⟩) (-108) 109 = ⟨22, true, false⟩ ∧
    toWindow (decode 3 ⟨0x0BBC, 0⟩) (-108) 109 = ⟨24, true, false⟩ := by decide +kernel

/-- 3.0 leaves the window at L = −108. -/
theorem test_window_overflow : (toWindow (decode 3 ⟨0x4040, 0⟩) (-108) 109).rov = true := by decide +kernel

/-- Anchors of the Fenwater instances. -/
theorem test_anchors : nextAnchor (some (-4)) 4 0 = -108 ∧ nextAnchor (some 1) 4 (-108) = -103 ∧ widenAnchor (-108) (some 1) = -108 := by
  decide +kernel

/-- The MXFP4 block of the replica group: scale 0x79 and four encodings. -/
theorem test_mx_block : (fpFmt 0x0C).map (fun f => mxBlock f [(13 * 2 ^ 124, -134), (-(13 * 2 ^ 126), -134), (5 * 2 ^ 123, -134), (5 * 2 ^ 128, -134)])
    = some (0x79, [2, 13, 0, 6], false) := by decide +kernel

/-- The witnesses of q and −q add up to 0. -/
theorem test_witness_cancels : (witnessInts 7 0 [160 * 2 ^ 98] + witnessInts 7 0 [-(160 * 2 ^ 98)]) % (2 ^ 61 - 1) = 0 := by decide +kernel

/-- Four IPv4 prefixes of the storage network. -/
def routes : State :=
  { ready with
    net := { ready.net with
      prefixes := [(pfxKey 0 0 0, 1), (pfxKey 0 10 (10 * 2 ^ 24 + 64 * 2 ^ 16), 5), (pfxKey 0 17 (10 * 2 ^ 24 + 77 * 2 ^ 16 + 128 * 2 ^ 8), 9),
        (pfxKey 0 24 (10 * 2 ^ 24 + 77 * 2 ^ 16 + 130 * 2 ^ 8), 12)] } }

theorem test_longest_prefix : routes.lpm 0 0 (10 * 2 ^ 24 + 77 * 2 ^ 16 + 130 * 2 ^ 8 + 9) = some (24, 12) ∧
    routes.lpm 0 0 (10 * 2 ^ 24 + 77 * 2 ^ 16 + 200 * 2 ^ 8 + 1) = some (17, 9) ∧
    routes.lpm 0 0 (10 * 2 ^ 24 + 77 * 2 ^ 16 + 5 * 2 ^ 8 + 5) = some (10, 5) ∧ routes.lpm 0 0 (10 * 2 ^ 24 + 9 * 2 ^ 16 + 2 ^ 8 + 1) = some (0, 1) := by
  decide +kernel

/-- Port P517: fiber pair F129 and, when that fiber runs in 1.6 Tb/s mode, no port. -/
theorem test_port_517 : fiberOf 517 = 129 ∧ ready.portExists 517 = true ∧ (ready.wr E.fiberMode 129 2).portExists 517 = false ∧
    (ready.wr E.fiberMode 129 2).portExists 516 = true := by decide +kernel

/-! ### The queue and the first steps -/

theorem test_idle : step ready = .next ready := by rw [eq_next_iff]; decide +kernel

theorem test_first_step : step { ready with pending := [.mbxClear 5, .powerOn 7] } = .next { ready with pending := [.powerOn 7], now := 5 } := by
  rw [eq_next_iff]; decide +kernel

/-- A device out of reset is BOOTING at start-up step 1 with every queue empty. -/
theorem test_reset : State.reset.rd E.deviceState 0 = 0 ∧ State.reset.power.step = 1 ∧ State.reset.pending = [] := by decide +kernel

/-- No row of the table has bits. -/
theorem test_no_words : decodeTableWord 16 0 = none ∧ ready.withFetchWord 16 0 = ready := by decide +kernel

/-! ### States and operands that meet the hypotheses of the statements -/

theorem test_StepTakesFront_met :
  (∃ (s : State) (c : Instr) (rest : List Instr), s.pending = c :: rest) ∧
  (∃ (s : State), s.pending = []) :=
  ⟨⟨{ ready with pending := [.creditSend 5 0] }, .creditSend 5 0, [], by decide +kernel⟩,
    ⟨ready, by decide +kernel⟩⟩

theorem test_StepKeepsRising_met :
  (∃ (s t : State), s.Rising ∧ step s = .next t) :=
  ⟨{ ready with pending := [.mbxClear 5] }, { ready with now := 5 }, by rw [eq_next_iff]; unfold State.Rising; decide +kernel⟩

theorem test_StepTakesOne_met :
  (∃ (s t : State) (c : Instr) (rest : List Instr), s.pending = c :: rest ∧ step s = .next t) :=
  ⟨{ ready with pending := [.mbxClear 5] }, { ready with now := 5 }, .mbxClear 5, [], by rw [eq_next_iff]; decide +kernel⟩

theorem test_RequestReadsBack_met :
  (∃ (limit slot : Nat) (l : List ReqItem) (mac : List Byte), slot < 2 ^ 16 ∧ mac.length = macLen slot ∧ 1 ≤ l.length ∧ l.length ≤ 64 ∧ (∀ x ∈ l,
    x.Formed) ∧ 16 + (itemBytes l).length + mac.length ≤ limit ∧ limit < 2 ^ 16) :=
  ⟨9000, 65534, [readItem E.deviceState], [], by unfold ReqItem.Formed; decide +kernel⟩

theorem test_RequestMessages_met :
  (∃ (b : List Byte) (s : State),
      let slot := bits (field b 0 16) 111 96
      s.netServed = true ∧ requestHead b = true ∧ slot < 16 ∧ 32 ≤ b.length ∧ s.dapMacOk slot b = true ∧ (requestItems 9000 b).isSome = true ∧
        ((s.txn slot).held (bits (field b 0 16) 95 64)).isSome = false ∧ (s.txn slot).fresh (bits (field b 0 16) 95 64) = true ∧
        s.mgmt.waiting.length < 256) ∧
  (∃ (src job gen : Nat) (b : List Byte) (s : State), s.inbandServed = true ∧ requestHead b = true ∧ bits (field b 0 16) 111 96 = 0xFFFF ∧
    s.leaderRequest src job gen = true ∧ (requestItems 4560 b).isSome = true ∧ s.mgmt.waiting.length < 256) ∧
  (∃ (b : List Byte) (s : State), s.mgmt.mbx ≠ .busy ∧ s.boardServed = true ∧ requestHead b = true ∧ bits (field b 0 16) 111 96 = 0xFFFE ∧
    (requestItems 9000 b).isSome = true ∧ s.mgmt.waiting.length < 256) ∧
  (∃ (n : Nat) (s : State),
      let b := (List.range (n % 65536)).map (fun i => Tab.getD s.mgmt.smbReq i 0)
      s.smbusServed = true ∧ s.mgmt.smb ≠ .busy ∧ requestHead b = true ∧ bits (field b 0 16) 111 96 = 0xFFFE ∧ (requestItems 1024 b).isSome = true ∧
        s.mgmt.waiting.length < 256) ∧
  (∃ (t : Time) (port addr udpPort : Nat) (b : List Byte) (s u : State),
      let slot := bits (field b 0 16) 111 96
      s.netServed = true ∧ requestHead b = true ∧ slot < 16 ∧ 32 ≤ b.length ∧ (requestItems 9000 b).isSome = true ∧
        exec (.dapRequest t port addr udpPort b) s = .next u ∧ s.dapMacOk slot b = false) ∧
  (∃ (t : Time) (port addr udpPort : Nat) (b : List Byte) (s u : State),
      let slot := bits (field b 0 16) 111 96
      let txn := bits (field b 0 16) 95 64
      s.netServed = true ∧ requestHead b = true ∧ slot < 16 ∧ 32 ≤ b.length ∧ (requestItems 9000 b).isSome = true ∧
        exec (.dapRequest t port addr udpPort b) s = .next u ∧ s.dapMacOk slot b = true ∧ bit (field b 0 16) 63 = false ∧
        (s.txn slot).fresh txn = false) ∧
  (∃ (t : Time) (port addr udpPort : Nat) (b : List Byte) (s u : State),
      let slot := bits (field b 0 16) 111 96
      let txn := bits (field b 0 16) 95 64
      s.netServed = true ∧ requestHead b = true ∧ slot < 16 ∧ 32 ≤ b.length ∧ (requestItems 9000 b).isSome = true ∧
        exec (.dapRequest t port addr udpPort b) s = .next u ∧ s.dapMacOk slot b = true ∧ bit (field b 0 16) 63 = false ∧
        (s.txn slot).fresh txn = true ∧ 256 ≤ s.mgmt.waiting.length) ∧
  (∃ (t : Time) (versions halted : Bool) (m : WaitMsg) (l : List ReqItem) (content : List Byte) (s w : State),
      let h := field m.bytes 0 16
      let slot := bits h 111 96
      s.mgmt.waiting[nextMessage s.mgmt.waiting]? = some m ∧ requestItems m.origin.limit m.bytes = some l ∧
        (slot < 16 → (s.txn slot).fresh (bits h 95 64) = true ∧ ((s.txn slot).held (bits h 95 64)) = none) ∧
        ({ s.begin t with mgmt := { s.mgmt with waiting := s.mgmt.waiting.eraseIdx (nextMessage s.mgmt.waiting), judged := m.judged } }).execItems ⟨t,
        m.path⟩ l ⟨versions, halted⟩ (m.origin.limit - 16 - macLen slot) = (content, w) ∧ w.rd E.deviceState 0 ≠ 0) :=
  ⟨⟨request 0 1 E.deviceState, keyed, by decide +kernel⟩,
    ⟨9, 1, 3, request 0xFFFF 1 E.timeNow, { keyed with jobs := [(1, { state := .active, record := BitVec.ofNat 512 (9 * 2 ^ 464), gen := 3 })] },
      by decide +kernel⟩,
    ⟨request 0xFFFE 1 E.deviceState, ready, by decide +kernel⟩,
    ⟨28, withMgmt ready (fun m => { m with smbReq := withIdx (request 0xFFFE 1 E.deviceState) 0 }), by decide +kernel⟩,
    ⟨1000, 0, 0, 0, requestBytes 0 1 false [readItem E.deviceState] (List.replicate 16 1), keyed,
      after (exec (.dapRequest (1000) (0) (0) (0) (requestBytes 0 1 false [readItem E.deviceState] (List.replicate 16 1))) (keyed)) (keyed),
      by rw [eq_next_iff]; decide +kernel⟩,
    ⟨1000, 0, 0, 0, request 0 1 E.deviceState, withMgmt keyed (fun m => { m with txns := [(0, { highest := some 70 })] }),
      after (exec (.dapRequest (1000) (0) (0) (0) (request 0 1 E.deviceState)) (withMgmt keyed (fun m => { m with txns := [(0, { highest := some 70 })] }))) (withMgmt keyed (fun m => { m with txns := [(0, { highest := some 70 })] })),
      by rw [eq_next_iff]; decide +kernel⟩,
    ⟨1000, 0, 0, 0, request 0 1 E.deviceState, withMgmt keyed (fun m => { m with waiting := List.replicate 256 waitMsg }),
      after (exec (.dapRequest (1000) (0) (0) (0) (request 0 1 E.deviceState)) (withMgmt keyed (fun m => { m with waiting := List.replicate 256 waitMsg }))) (withMgmt keyed (fun m => { m with waiting := List.replicate 256 waitMsg })),
      by rw [eq_next_iff]; decide +kernel⟩,
    ⟨1000, true, false, dapMsg, [readItem E.deviceState], dapRan.1, dapWaiting, dapRan.2, by decide +kernel⟩⟩

theorem test_BoardPaths_met :
  (∃ (s : State), s.mgmt.mbx = .done) ∧
  (∃ (s : State), s.mgmt.mbx = .busy) ∧
  (∃ (b : List Byte) (s : State), s.smbusServed = true ∧ s.mgmt.smb ≠ .busy ∧ b.length ≤ 253) ∧
  (∃ (offset : Nat) (s : State), s.smbusServed = true ∧ offset < 65536) :=
  ⟨⟨withMgmt ready (fun m => { m with mbx := .done }), by decide +kernel⟩,
    ⟨withMgmt ready (fun m => { m with mbx := .busy }), by decide +kernel⟩,
    ⟨[1, 2, 3], withMgmt ready (fun m => { m with smbReq := [(1020, 1), (1022, 5)] }), by decide +kernel⟩,
    ⟨65535, ready, by decide +kernel⟩⟩

theorem test_NoticesReachTheirQueues_met :
  (∃ (q code sev : Nat) (s : State),
      let cfg := s.rd E.nqConfig q
      let takes := bit cfg 255 = true ∧ bits cfg 251 250 ≤ sev ∧ bit (bits cfg 247 230) (noticeRow code) = true
      ¬takes) ∧
  (∃ (q code sev : Nat) (s : State),
      let cfg := s.rd E.nqConfig q
      let takes := bit cfg 255 = true ∧ bits cfg 251 250 ≤ sev ∧ bit (bits cfg 247 230) (noticeRow code) = true
      takes ∧ (s.nq q).records.length < 4096) ∧
  (∃ (q code sev : Nat) (s : State),
      let cfg := s.rd E.nqConfig q
      let takes := bit cfg 255 = true ∧ bits cfg 251 250 ≤ sev ∧ bit (bits cfg 247 230) (noticeRow code) = true
      takes ∧ 4096 ≤ (s.nq q).records.length) ∧
  (∃ (q p : Nat), p ≠ q) ∧
  (∃ (interval key code : Nat) (s : State),
      let inside := ∃ x, lastOf s.mgmt.limits code key = some x ∧ s.now < x + interval
      inside) ∧
  (∃ (interval key code : Nat) (s : State),
      let inside := ∃ x, lastOf s.mgmt.limits code key = some x ∧ s.now < x + interval
      ¬inside) :=
  ⟨⟨1, 0xF001, 2, ready, by decide +kernel⟩,
    ⟨0, 0xF001, 0, ready, by decide +kernel⟩,
    ⟨0, 0xF001, 0, ready.setNq 0 { records := List.replicate 4096 rec1 }, by decide +kernel⟩,
    ⟨0, 1, by decide +kernel⟩,
    ⟨10, 0, 0xF001, withMgmt ready (fun m => { m with limits := [⟨0xF001, 0, 0⟩] }), by decide +kernel⟩,
    ⟨10, 0, 0xF001, ready, by decide +kernel⟩⟩

theorem test_QueueCommands_met :
  (∃ (a : Access) (q : Nat) (r : Queued) (l : List Queued) (s : State), s.Gives a E.nqPop q true ∧ s.nqSink q = 0 ∧ (s.nq q).records = r :: l ∧
    (s.nq q).loss = none) ∧
  (∃ (a : Access) (q : Nat) (s : State), s.Gives a E.nqPop q true ∧ s.nqSink q = 0 ∧ (s.nq q).records = [] ∧ (s.nq q).loss = none) ∧
  (∃ (a : Access) (q : Nat) (v : BitVec 256) (s : State), s.Takes a E.nqConfig q 32 0 true ∧ nqRule v.toNat (s.begin a.t) = .ok ∧
    (s.nq q).loss = none) ∧
  (∃ (t : Time) (q : Nat) (r : Queued) (l : List Queued) (s : State), s.pushes q = true ∧ (s.nq q).records.drop (s.nq q).pushed = r :: l ∧
    (s.nqBatch q ≤ (r :: l).length ∨ r.entered + 100 * us ≤ t)) ∧
  (∃ (t : Time) (q : Nat) (s : State), s.pushes q = true ∧ 0 < (s.nq q).pushed ∧ (s.nq q).sentAt + ms ≤ t) ∧
  (∃ (b : List Byte) (s : State),
      let h := field b 0 16
      let q := bits h 15 8
      s.netServed = true ∧ b.length = 32 ∧ bits h 127 124 = 1 ∧ bits h 123 120 = 4 ∧ bits h 111 96 < 16 ∧ bits h 47 32 = 32 ∧ bits h 55 48 = 0 ∧
        q < 8 ∧ s.dapMacOk (bits h 111 96) b = true ∧ s.pushes q = true ∧ (s.nq q).loss = none) :=
  ⟨⟨acc, 0, rec1, [rec1], withNq ready 0 0 { records := [rec1, rec1] }, by unfold State.Gives; decide +kernel⟩,
    ⟨acc, 7, withNq ready 7 0 {}, by unfold State.Gives; decide +kernel⟩,
    ⟨acc, 1, BitVec.ofNat 256 (pack [(1, 1), (3, 3), (2, 2), (2, 0), (18, 1), (6, 0), (40, 5), (8, 15), (8, 32), (40, 0), (128, 0)]), ready,
      by unfold State.Takes; decide +kernel⟩,
    ⟨100 + 100 * us, 1, rec1, [], withNq keyed 1 1 { records := [rec1] }, by decide +kernel⟩,
    ⟨ms, 7, withNq keyed 7 3 { records := [rec1, rec1], pushed := 1 }, by decide +kernel⟩,
    ⟨let b := (dapHeader 4 0 0 0 0 32 0 7); b ++ toBytes 16 (mac128 0 b), withNq keyed 7 3 { records := [rec1, rec1], pushed := 1 },
      by decide +kernel⟩⟩

theorem test_RingOfThePciWindow_met :
  (∃ (q : Nat) (r : Queued) (s : State), s.ringQueue = some q ∧ ((s.nq q).records.drop (s.nq q).pushed).head? = some r ∧
    (s.mgmt.ringHead + 1) % s.mgmt.ringSize ≠ s.mgmt.ringTail % s.mgmt.ringSize) ∧
  (∃ (v q : Nat) (s : State), s.ringQueue = some q ∧ v < 2 ^ 32 ∧ (s.nq q).loss = none) :=
  ⟨⟨3, rec1, withMgmt (withNq ready 3 2 { records := [rec1] }) (fun m => { m with ringCtrl := 0x301, ringSize := 64, ringHead := 62, ringTail := 62 }),
    by decide +kernel⟩,
    ⟨1, 3, withMgmt (withNq ready 3 2 { records := [rec1, rec1, rec1], pushed := 2 }) (fun m => { m with ringCtrl := 0x301, ringSize := 64, ringHead := 1, ringTail := 63 }),
      by decide +kernel⟩⟩

theorem test_ConfigurationLockAndKeys_met :
  (∃ (a : Access) (s : State), s.Takes a E.configLock 0 1 1 true) ∧
  (∃ (a : Access) (e : Nat) (r : EntryRow) (s : State), entryRow e = some r ∧ r.right = .rwl ∧ s.rd E.configLock 0 = 1 ∧ s.rd E.deviceState 0 ≠ 4 ∧
    s.confined a.path = none ∧ rightsAllow (s.rightsOf a.path) e true = true) ∧
  (∃ (a : Access) (s : State), s.mgmt.pass = .alone ∧ s.rd E.configLock 0 = 1 ∧ s.rd E.deviceState 0 ≠ 4 ∧ s.confined a.path = none ∧
    rightsAllow (s.rightsOf a.path) E.configLock true = true) ∧
  (∃ (a : Access) (v : BitVec 384) (s : State), s.Takes a E.keyWrite 0 48 0 true ∧ bits v.toNat 383 376 ≤ 17) ∧
  (∃ (a : Access) (s : State), s.Takes a E.entryQuery 0 16 0 true) :=
  ⟨⟨acc, ready, by unfold State.Takes; decide +kernel⟩,
    ⟨acc, E.deviceGei, ((entryRow E.deviceGei).getD ⟨0, .enumT, .ro, 0, 0, []⟩), ready.wr E.configLock 0 1, by decide +kernel⟩,
    ⟨acc, ready.wr E.configLock 0 1, by decide +kernel⟩,
    ⟨acc, BitVec.ofNat 384 (pack [(8, 17), (1, 1), (4, 7), (3, 0), (16, 2), (96, 0), (256, 9)]),
      withMgmt keyed (fun m => { m with txns := [(0, { highest := some 70 })] }), by unfold State.Takes; decide +kernel⟩,
    ⟨acc, ready, by unfold State.Takes; decide +kernel⟩⟩

theorem test_Firmware_met :
  (∃ (a : Access) (d : List Byte) (s : State), s.Takes a E.fwStage 0 d.length 0 true ∧ 1 ≤ field d 4 4 ∧ field d 4 4 ≤ 4096 ∧
    d.length = 8 + field d 4 4) ∧
  (∃ (a : Access) (n : Nat) (s : State), s.Takes a E.fwCommit 0 4 n true ∧ s.rd E.fwStatus 0 ≠ 0xFF) ∧
  (∃ (signed : Bool) (svn n : Nat) (img : List Byte) (s : State), s.mgmt.fwImage = some n ∧ s.stagedImage n = some img ∧ signed = true ∧
    s.rd E.fwSvnMin 0 ≤ svn) ∧
  (∃ (shape signed : Bool) (svn n : Nat) (s : State), s.mgmt.fwImage = some n ∧
    (shape = false ∨ s.stagedImage n = none ∨ signed = false ∨ svn < s.rd E.fwSvnMin 0)) ∧
  (∃ (a : Access) (s : State), s.Takes a E.fwSvnCommit 0 1 1 true) :=
  ⟨⟨acc, [0, 0, 0, 2, 0, 0, 0, 3, 7, 8, 9], withMgmt ready (fun m => { m with fwStage := [(1, 4), (3, 5)] }), by unfold State.Takes; decide +kernel⟩,
    ⟨acc, 4, ready, by unfold State.Takes; decide +kernel⟩,
    ⟨true, 0, 2, [7, 8], withMgmt ready (fun m => { m with fwStage := [(0, 7), (1, 8)], fwImage := some 2 }), by decide +kernel⟩,
    ⟨true, true, 0, 2, withMgmt (ready.wr E.fwSvnMin 0 3) (fun m => { m with fwStage := [(0, 7), (1, 8)], fwImage := some 2 }), by decide +kernel⟩,
    ⟨acc, withMgmt (ready.wr E.fwSvnMin 0 3) (fun m => { m with running := { svn := 4 } }), by unfold State.Takes; decide +kernel⟩⟩

theorem test_Attestation_met :
  (∃ (a : Access) (s : State), s.Takes a E.attestNonce 0 32 0 true) ∧
  (∃ (a : Access) (s : State), s.Gives a E.attestReport 0 true) ∧
  (∃ (a : Access) (v : BitVec 808) (s : State), s.Takes a E.colophonExportReq 0 101 0 true ∧ bits v.toNat 807 776 ≤ s.rd E.keyEpoch 0) ∧
  (∃ (a : Access) (v : BitVec 808) (s : State), s.Takes a E.colophonExportReq 0 101 0 true ∧ s.rd E.keyEpoch 0 < bits v.toNat 807 776) ∧
  (∃ (a : Access) (r : BitVec 808) (s : State), s.Gives a E.colophonExport 0 true ∧ s.mgmt.exportReq = some r) ∧
  (∃ (a : Access) (s : State), s.Takes a E.keyRotate 0 1 1 true) ∧
  (∃ (t : Time) (s : State), s.rd E.keyPeriod 0 ≠ 0 ∧ s.mgmt.keyPeriodAt + s.rd E.keyPeriod 0 ≤ t) ∧
  (∃ (t : Time) (s : State), s.mgmt.epochAt ≠ some t) :=
  ⟨⟨acc, ready, by unfold State.Takes; decide +kernel⟩,
    ⟨acc, withMgmt ready (fun m => { m with nonce := 5 }), by unfold State.Gives; decide +kernel⟩,
    ⟨acc, BitVec.ofNat 808 (3 * 2 ^ 776 + 1), ready.wr E.keyEpoch 0 3, by unfold State.Takes; decide +kernel⟩,
    ⟨acc, BitVec.ofNat 808 (4 * 2 ^ 776 + 1), ready.wr E.keyEpoch 0 3, by unfold State.Takes; decide +kernel⟩,
    ⟨acc, BitVec.ofNat 808 (3 * 2 ^ 776 + 1), withMgmt (ready.wr E.keyEpoch 0 3) (fun m => { m with exportReq := some (BitVec.ofNat 808 (3 * 2 ^ 776 + 1)) }),
      by unfold State.Gives; decide +kernel⟩,
    ⟨acc, ready.wr E.keyEpoch 0 3, by unfold State.Takes; decide +kernel⟩,
    ⟨1000, ready.wr E.keyPeriod 0 1000, by decide +kernel⟩,
    ⟨1000, ready.begin 1000, by decide +kernel⟩⟩

theorem test_PreparesAreVotedOn_met_a :
  (∃ (p : Peer) (b : List Byte) (s : State),
      let r := b.drop 9
      s.PeerTaken p 1 b ∧ s.gei ≠ 0 ∧ 9 ≤ b.length ∧ field b 0 1 = 0 ∧ 68 ≤ r.length ∧ r.length = 68 + 8 * field r 8 1 + 4 * field r 7 1) ∧
  (∃ (p : Peer) (b : List Byte) (s : State),
      let r := b.drop 9
      s.PeerTaken p 1 b ∧ s.gei ≠ 0 ∧ 9 ≤ b.length ∧ field b 0 1 = 1 ∧ r.length = 8) ∧
  (∃ (p : Peer) (b : List Byte) (s : State),
      let r := b.drop 9
      s.PeerTaken p 1 b ∧ s.gei ≠ 0 ∧ 9 ≤ b.length ∧ field b 0 1 = 2 ∧ r.length = 4) ∧
  (∃ (p : Peer) (b : List Byte) (s : State),
      let r := b.drop 9
      s.PeerTaken p 1 b ∧ s.gei ≠ 0 ∧ 9 ≤ b.length ∧ field b 0 1 = 3 ∧ r.length = 32) ∧
  (∃ (p : Peer) (b : List Byte) (s : State),
      let r := b.drop 9
      s.PeerTaken p 1 b ∧ s.gei ≠ 0 ∧ 9 ≤ b.length ∧ field b 0 1 = 4 ∧ r.length = 4) ∧
  (∃ (p : Peer) (b : List Byte) (s : State),
      let r := b.drop 9
      s.PeerTaken p 1 b ∧ s.gei ≠ 0 ∧ 9 ≤ b.length ∧ field b 0 1 = 5 ∧ 32 ≤ r.length) ∧
  (∃ (p : Peer) (b : List Byte) (s : State),
      let r := b.drop 9
      s.PeerTaken p 1 b ∧ s.gei ≠ 0 ∧ 9 ≤ b.length ∧ field b 0 1 = 6 ∧ r.length = 8 ∧ field r 4 4 = 2) ∧
  (∃ (p : Peer) (b : List Byte) (s : State),
      let r := b.drop 9
      s.PeerTaken p 1 b ∧ s.gei ≠ 0 ∧ 9 ≤ b.length ∧ field b 0 1 = 7 ∧ r.length = 8) ∧
  (∃ (p : Peer) (b : List Byte) (s : State),
      let r := b.drop 9
      s.PeerTaken p 1 b ∧ s.gei ≠ 0 ∧ 9 ≤ b.length ∧ field b 0 1 = 8 ∧ r.length = 48) :=
  ⟨⟨peerOf 9 1 (toBytes 1 0 ++ toBytes 4 77 ++ toBytes 3 9 ++ toBytes 1 0 ++ (List.replicate 68 0)),
    (toBytes 1 0 ++ toBytes 4 77 ++ toBytes 3 9 ++ toBytes 1 0 ++ (List.replicate 68 0)), keyed, by unfold State.PeerTaken; decide +kernel⟩,
    ⟨peerOf 9 1 (toBytes 1 1 ++ toBytes 4 77 ++ toBytes 3 9 ++ toBytes 1 0 ++ (List.replicate 8 0)),
      (toBytes 1 1 ++ toBytes 4 77 ++ toBytes 3 9 ++ toBytes 1 0 ++ (List.replicate 8 0)), keyed, by unfold State.PeerTaken; decide +kernel⟩,
    ⟨peerOf 9 1 (toBytes 1 2 ++ toBytes 4 77 ++ toBytes 3 9 ++ toBytes 1 0 ++ (List.replicate 4 0)),
      (toBytes 1 2 ++ toBytes 4 77 ++ toBytes 3 9 ++ toBytes 1 0 ++ (List.replicate 4 0)), keyed, by unfold State.PeerTaken; decide +kernel⟩,
    ⟨peerOf 9 1 (toBytes 1 3 ++ toBytes 4 77 ++ toBytes 3 9 ++ toBytes 1 0 ++ (List.replicate 32 0)),
      (toBytes 1 3 ++ toBytes 4 77 ++ toBytes 3 9 ++ toBytes 1 0 ++ (List.replicate 32 0)), keyed, by unfold State.PeerTaken; decide +kernel⟩,
    ⟨peerOf 9 1 (toBytes 1 4 ++ toBytes 4 77 ++ toBytes 3 9 ++ toBytes 1 0 ++ (List.replicate 4 0)),
      (toBytes 1 4 ++ toBytes 4 77 ++ toBytes 3 9 ++ toBytes 1 0 ++ (List.replicate 4 0)), keyed, by unfold State.PeerTaken; decide +kernel⟩,
    ⟨peerOf 9 1 (toBytes 1 5 ++ toBytes 4 77 ++ toBytes 3 9 ++ toBytes 1 0 ++ (List.replicate 32 0)),
      (toBytes 1 5 ++ toBytes 4 77 ++ toBytes 3 9 ++ toBytes 1 0 ++ (List.replicate 32 0)), keyed, by unfold State.PeerTaken; decide +kernel⟩,
    ⟨peerOf 9 1 (toBytes 1 6 ++ toBytes 4 77 ++ toBytes 3 9 ++ toBytes 1 0 ++ (toBytes 8 2)),
      (toBytes 1 6 ++ toBytes 4 77 ++ toBytes 3 9 ++ toBytes 1 0 ++ (toBytes 8 2)), keyed, by unfold State.PeerTaken; decide +kernel⟩,
    ⟨peerOf 9 1 (toBytes 1 7 ++ toBytes 4 77 ++ toBytes 3 9 ++ toBytes 1 0 ++ (List.replicate 8 0)),
      (toBytes 1 7 ++ toBytes 4 77 ++ toBytes 3 9 ++ toBytes 1 0 ++ (List.replicate 8 0)), keyed, by unfold State.PeerTaken; decide +kernel⟩,
    ⟨peerOf 9 1 (toBytes 1 8 ++ toBytes 4 77 ++ toBytes 3 9 ++ toBytes 1 0 ++ (List.replicate 48 0)),
      (toBytes 1 8 ++ toBytes 4 77 ++ toBytes 3 9 ++ toBytes 1 0 ++ (List.replicate 48 0)), keyed, by unfold State.PeerTaken; decide +kernel⟩⟩

theorem test_PreparesAreVotedOn_met_b :
  (∃ (p : Peer) (b : List Byte) (s : State),
      let r := b.drop 9
      s.PeerTaken p 1 b ∧ s.gei ≠ 0 ∧ 9 ≤ b.length ∧ field b 0 1 = 9 ∧ r.length = 4) ∧
  (∃ (orig xid : Nat) (s : State), s.coll.helds.find? (fun (x : HeldX) => x.orig == orig && x.xid == xid) = none) ∧
  (∃ (ph : Phase) (s : State), (s.quires = [] ∨ (ph.grows = true ∧ s.power.brace.isSome = true))) :=
  ⟨⟨peerOf 9 1 (toBytes 1 9 ++ toBytes 4 77 ++ toBytes 3 9 ++ toBytes 1 0 ++ (List.replicate 4 0)),
    (toBytes 1 9 ++ toBytes 4 77 ++ toBytes 3 9 ++ toBytes 1 0 ++ (List.replicate 4 0)), keyed, by unfold State.PeerTaken; decide +kernel⟩,
    ⟨9, 77, keyed, by decide +kernel⟩,
    ⟨tensorPhase 0, { ready with power := { ready.power with brace := some 0 } }, by decide +kernel⟩⟩

theorem test_ExchangeCorners_met :
  (∃ (t : Time) (xid : Nat) (l : Led) (s : State), s.coll.leds.find? (fun (x : Led) => x.xid == xid) = some l ∧ l.since + 5 * ms ≤ t) ∧
  (∃ (l : Led), l.votes.length < l.devices.length ∧ l.votes.all (fun x => x.2 == 0) = true) ∧
  (∃ (p : Peer) (b : List Byte) (s : State), s.PeerTaken p 2 b ∧ b.length = 8 ∧ s.coll.leds.find? (fun (l : Led) => l.xid == field b 0 4) = none) ∧
  (∃ (p : Peer) (b : List Byte) (s : State), b.length = 8 ∧
    s.coll.helds.find? (fun (x : HeldX) => x.orig == p.src && x.xid == field b 0 4 && !x.ended) = none ∧ s.PeerTaken p 3 b) ∧
  (∃ (p : Peer) (b : List Byte) (s : State), b.length = 8 ∧
    s.coll.helds.find? (fun (x : HeldX) => x.orig == p.src && x.xid == field b 0 4 && !x.ended) = none ∧ s.PeerTaken p 4 b) ∧
  (∃ (orig xid : Nat) (h : HeldX) (s : State), s.coll.helds.find? (fun (x : HeldX) => x.orig == orig && x.xid == xid) = some h) :=
  ⟨⟨5 * ms, 7, ⟨7, 2, 0, toBytes 4 0, [5, 9], [], 0, 0⟩,
    { keyed with coll := { keyed.coll with leds := [⟨7, 2, 0, toBytes 4 0, [5, 9], [], 0, 0⟩] } }, by decide +kernel⟩,
    ⟨⟨7, 2, 0, toBytes 4 0, [5, 9], [], 0, 0⟩, by decide +kernel⟩,
    ⟨peerOf 9 2 (toBytes 8 (8 * 2 ^ 32)), toBytes 8 (8 * 2 ^ 32),
      { keyed with coll := { keyed.coll with leds := [⟨7, 2, 0, toBytes 4 0, [5, 9], [], 0, 0⟩] } }, by unfold State.PeerTaken; decide +kernel⟩,
    ⟨peerOf 9 3 (toBytes 8 (8 * 2 ^ 32)), toBytes 8 (8 * 2 ^ 32), keyed, by unfold State.PeerTaken; decide +kernel⟩,
    ⟨peerOf 9 4 (toBytes 8 (8 * 2 ^ 32)), toBytes 8 (8 * 2 ^ 32), keyed, by unfold State.PeerTaken; decide +kernel⟩,
    ⟨9, 77, ⟨9, 77, 2, 0, toBytes 4 0, 3, false⟩, { keyed with coll := { keyed.coll with helds := [⟨9, 77, 2, 0, toBytes 4 0, 3, false⟩] } },
      by decide +kernel⟩⟩

theorem test_ExchangeEnds_met :
  (∃ (p : Peer) (b : List Byte) (l : Led) (s : State), s.PeerTaken p 2 b ∧ b.length = 8 ∧
    s.coll.leds.find? (fun (x : Led) => x.xid == field b 0 4) = some l ∧ l.devices.contains p.src = true ∧
    l.votes.any (fun x => x.1 == p.src) = false) ∧
  (∃ (p : Peer) (b : List Byte) (h : HeldX) (subject : Nat) (ph : Phase) (s : State), b.length = 8 ∧
    s.coll.helds.find? (fun (x : HeldX) => x.orig == p.src && x.xid == field b 0 4 && !x.ended) = some h ∧ phaseOf h.kind h.record = some (subject,
    ph) ∧ h.vote = 0 ∧ s.PeerTaken p 3 b) ∧
  (∃ (p : Peer) (b : List Byte) (h : HeldX) (subject : Nat) (ph : Phase) (s : State), b.length = 8 ∧
    s.coll.helds.find? (fun (x : HeldX) => x.orig == p.src && x.xid == field b 0 4 && !x.ended) = some h ∧ phaseOf h.kind h.record = some (subject,
    ph) ∧ h.vote = 0 ∧ s.PeerTaken p 4 b) ∧
  (∃ (p : Peer) (b : List Byte) (h : HeldX) (subject : Nat) (ph : Phase) (s : State), b.length = 8 ∧
    s.coll.helds.find? (fun (x : HeldX) => x.orig == p.src && x.xid == field b 0 4 && !x.ended) = some h ∧ phaseOf h.kind h.record = some (subject,
    ph) ∧ h.vote ≠ 0 ∧ s.PeerTaken p 3 b) ∧
  (∃ (p : Peer) (b : List Byte) (h : HeldX) (subject : Nat) (ph : Phase) (s : State), b.length = 8 ∧
    s.coll.helds.find? (fun (x : HeldX) => x.orig == p.src && x.xid == field b 0 4 && !x.ended) = some h ∧ phaseOf h.kind h.record = some (subject,
    ph) ∧ h.vote ≠ 0 ∧ s.PeerTaken p 4 b) ∧
  (∃ (l : Led), l.votes.length = l.devices.length ∧ l.votes.all (fun x => x.2 == 0) = true) ∧
  (∃ (l : Led) (gei code : Nat), (gei, code) ∈ l.votes ∧ code ≠ 0 ∧ (∀ x ∈ l.votes, x.2 ≠ 0 → gei ≤ x.1 ∧ (x.1 = gei → x.2 = code))) ∧
  (∃ (l : Led), l.votes.length ≠ l.devices.length ∧ l.votes.all (fun x => x.2 == 0) = true) :=
  ⟨⟨peerOf 9 2 (toBytes 8 (7 * 2 ^ 32)), toBytes 8 (7 * 2 ^ 32), ⟨7, 2, 0, toBytes 4 0, [5, 9], [(5, 0)], 0, 0⟩,
    { keyed with coll := { keyed.coll with leds := [⟨7, 2, 0, toBytes 4 0, [5, 9], [(5, 0)], 0, 0⟩] } }, by unfold State.PeerTaken; decide +kernel⟩,
    ⟨peerOf 9 3 (toBytes 8 (7 * 2 ^ 32)), toBytes 8 (7 * 2 ^ 32), ⟨9, 7, 2, 0, toBytes 4 0, 0, false⟩, 0, deregPhase 0,
      { keyed with coll := { keyed.coll with helds := [⟨9, 7, 2, 0, toBytes 4 0, 0, false⟩] } }, by decide +kernel, by decide +kernel, rfl,
      by decide +kernel, by unfold State.PeerTaken; decide +kernel⟩,
    ⟨peerOf 9 4 (toBytes 8 (7 * 2 ^ 32)), toBytes 8 (7 * 2 ^ 32), ⟨9, 7, 2, 0, toBytes 4 0, 0, false⟩, 0, deregPhase 0,
      { keyed with coll := { keyed.coll with helds := [⟨9, 7, 2, 0, toBytes 4 0, 0, false⟩] } }, by decide +kernel, by decide +kernel, rfl,
      by decide +kernel, by unfold State.PeerTaken; decide +kernel⟩,
    ⟨peerOf 9 3 (toBytes 8 (7 * 2 ^ 32)), toBytes 8 (7 * 2 ^ 32), ⟨9, 7, 2, 0, toBytes 4 0, 2, false⟩, 0, deregPhase 0,
      { keyed with coll := { keyed.coll with helds := [⟨9, 7, 2, 0, toBytes 4 0, 2, false⟩] } }, by decide +kernel, by decide +kernel, rfl,
      by decide +kernel, by unfold State.PeerTaken; decide +kernel⟩,
    ⟨peerOf 9 4 (toBytes 8 (7 * 2 ^ 32)), toBytes 8 (7 * 2 ^ 32), ⟨9, 7, 2, 0, toBytes 4 0, 2, false⟩, 0, deregPhase 0,
      { keyed with coll := { keyed.coll with helds := [⟨9, 7, 2, 0, toBytes 4 0, 2, false⟩] } }, by decide +kernel, by decide +kernel, rfl,
      by decide +kernel, by unfold State.PeerTaken; decide +kernel⟩,
    ⟨⟨7, 2, 0, toBytes 4 0, [5, 9], [(5, 0), (9, 0)], 0, 0⟩, by decide +kernel⟩,
    ⟨⟨7, 2, 0, toBytes 4 0, [5, 9], [(9, 3), (5, 2)], 0, 0⟩, 5, 2, by decide +kernel⟩,
    ⟨⟨7, 2, 0, toBytes 4 0, [5, 9], [(5, 0)], 0, 0⟩, by decide +kernel⟩⟩

theorem test_Registrations_met :
  (∃ (a : Access) (b : List Byte) (s : State), s.Takes a E.register 0 b.length 0 true ∧ regRule a b (s.begin a.t) = .ok) ∧
  (∃ (a : Access) (b : List Byte) (s : State), s.Takes a E.register 0 b.length 0 true ∧ s.regFails (s.regOp a b) b true ≠ 0) ∧
  (∃ (f : Cf) (header : BitVec 256) (b : List Byte) (s : State),
      let op := bits header.toNat 247 232 * 65536 + field b 0 2
      bits header.toNat 251 248 = 0xB ∧ ctlFormOk f.job header.toNat b = true ∧ s.registrar f (bits header.toNat 247 216) = true ∧ jobOf op = f.job ∧
        s.regFails op b true = 0) ∧
  (∃ (a : Access) (op c : Nat) (s : State), s.Takes a E.deregister 0 4 op true ∧ s.ctxOf op = some c) ∧
  (∃ (a : Access) (v : BitVec 64) (s : State), s.Takes a E.hsetExclude 0 8 0 true ∧ excludeRule v.toNat (s.begin a.t) = .ok) :=
  ⟨⟨acc, regBytes 0 0 200, home ctx1, by unfold State.Takes; decide +kernel⟩,
    ⟨acc, regBytes 0 0 0, home ctx1, by unfold State.Takes; decide +kernel⟩,
    ⟨cf 9, ctlHead 11 op1 0 0 0 0, regBytes 0 0 2000, home ctx1, by decide +kernel⟩,
    ⟨acc, op1, 0, home ctx1, by unfold State.Takes; decide +kernel⟩,
    ⟨acc, BitVec.ofNat 64 (op1 * 2 ^ 32 + 5), home { ctx1 with reg := { reg1 with hset := [5, 6] } }, by unfold State.Takes; decide +kernel⟩⟩

theorem test_ContributionsReachTheirChunk_met :
  (∃ (f : Cf) (header : BitVec 384) (payload : List Byte) (c : Nat) (x : Ctx) (i : Inst) (k : Chunk) (s : State),
      let v := header.toNat
      let h := chOf v
      bits v 379 376 = 1 ∧ chunkFormOk f.job v payload = true ∧ s.HoldsInst h.op h.inst c x i ∧ i.state = .opened ∧
        (x.stands h.inst = .isOpen ∨ x.stands h.inst = .next) ∧ s.cause x i (x.stands h.inst) f h (checkOk f.src v payload) = none ∧
        ((homes x.reg.op h.phase h.chunk (x.hsetAt i.ver)).1 = s.gei ∨ s.fromH1 x i f.src h = true) ∧ findChunk i.chunks h.phase h.chunk = some k ∧
        ((x.refit i k f.stamp).turned h).gated h = false ∧ h.anchor = ((x.refit i k f.stamp).turned h).anchor ∧ x.reg.plainChunk h.phase = false ∧
        (s.candidates x.reg.op h.phase h.chunk).1 = some k.die) ∧
  (∃ (y : Crossing) (r : List Crossing) (c : Nat) (x : Ctx) (i : Inst) (k : Chunk) (s : State),
      let h := chOf y.header.toNat
      s.coll.crossing = y :: r ∧ s.HoldsInst h.op h.inst c x i ∧ i.state = .opened ∧ findChunk i.chunks h.phase h.chunk = some k) ∧
  (∃ (k : Chunk) (h : Ch), (k.turned h).gated h = false ∧ (∃ y ∈ (k.turned h).cover, y.first = h.first ∧ y.count = h.covers ∧
    bit y.frames h.frame = true) ∧ (∀ y ∈ (k.turned h).cover, ∀ z ∈ (k.turned h).cover, y.first = z.first → y.count = z.count → y = z)) ∧
  (∃ (k : Chunk) (h : Ch), (k.turned h).gated h = false ∧ (∀ y ∈ (k.turned h).cover, ¬(y.first = h.first ∧ y.count = h.covers)) ∧
    (∃ y ∈ (k.turned h).cover, y.first < h.first + h.covers ∧ h.first < y.first + y.count)) ∧
  (∃ (k : Chunk) (h : Ch), (k.turned h).gated h = false ∧ (∀ y ∈ (k.turned h).cover, y.first + y.count ≤ h.first ∨ h.first + h.covers ≤ y.first) ∧
    0 < h.covers) ∧
  (∃ (k : Chunk) (h : Ch), (k.turned h).gated h = false ∧ (∃ y ∈ (k.turned h).cover, y.first = h.first ∧ y.count = h.covers ∧
    bit y.frames h.frame = false) ∧ (∀ y ∈ (k.turned h).cover, ∀ z ∈ (k.turned h).cover, y.first = z.first → y.count = z.count → y = z)) :=
  ⟨⟨cf 11, chHead ch1 11 pay4, pay4, 0, ctx1, inst1, chunk1, home ctx1, by unfold State.HoldsInst; decide +kernel⟩,
    ⟨⟨2, 800, 11, chHead ch1 11 pay4, pay4⟩, [], 0, ctx1, inst1, chunk1,
      { home ctx1 with coll := { (home ctx1).coll with crossing := [⟨2, 800, 11, chHead ch1 11 pay4, pay4⟩] } },
      by unfold State.HoldsInst; decide +kernel⟩,
    ⟨{ chunk1 with cover := [⟨1, 1, 1, 1, 11⟩] }, ch1, by decide +kernel⟩,
    ⟨{ chunk1 with cover := [⟨1, 2, 1, 1, 11⟩] }, ch1, by decide +kernel⟩,
    ⟨{ chunk1 with cover := [⟨0, 1, 1, 1, 10⟩, ⟨2, 1, 1, 1, 12⟩] }, ch1, by decide +kernel⟩,
    ⟨{ chunk1 with cover := [⟨1, 1, 2, 2, 11⟩] }, ch1, by decide +kernel⟩⟩

theorem test_AcceptedFrameAdds_met :
  (∃ (c n : Nat) (x : Ctx) (i : Inst) (k : Chunk) (h : Ch) (payload : List Byte) (s : State),
      let ar := x.reg.phaseAr k.phase
      let b := bring ar x.reg.op h k.anchor payload
      s.coll.ctxs.get? c = some x ∧ findInst x.insts n = some i ∧ findChunk i.chunks k.phase k.chunk = some k ∧
        (k.state = .opened ∨ k.state = .resending) ∧ k.pass = 0 ∧ k.bypassIn = false ∧ k.inStacks = [] ∧ b.nan = none ∧ b.rov = false ∧
        b.bound = true ∧ k.flags &&& flagInf = 0 ∧ (h.witp = true → b.wit = h.wit)) :=
  ⟨0, 0, { ctx1 with insts := [{ inst1 with chunks := [{ chunk1 with acc := .ints [1, 1, 1, 1], cover := [⟨0, 1, 1, 1, 10⟩] }] }] },
    { inst1 with chunks := [{ chunk1 with acc := .ints [1, 1, 1, 1], cover := [⟨0, 1, 1, 1, 10⟩] }] },
    { chunk1 with acc := .ints [1, 1, 1, 1], cover := [⟨0, 1, 1, 1, 10⟩] }, ch1, pay4,
    withChunk ({ chunk1 with acc := .ints [1, 1, 1, 1], cover := [⟨0, 1, 1, 1, 10⟩] }), by decide +kernel⟩

theorem test_CompletionAndEmission_met :
  (∃ (op inst phase chunk c : Nat) (x : Ctx) (i : Inst) (k : Chunk) (s : State), s.gei ≠ 0 ∧ s.HoldsInst op inst c x i ∧
    findChunk i.chunks phase chunk = some k ∧ k.state = .completing ∧ k.queued = false ∧ s.firstIn ⟨c, inst, k⟩ = true) ∧
  (∃ (ups : List (Nat × Nat)) (x : Ctx) (k : Chunk) (s : State),
      let ar := x.reg.phaseAr k.phase
      let acc := ups.foldl (fun a u => a.flip (if k.pass = 1 then 192 else 128) u) k.acc
      (s.coll.records.getD k.die []).length < 4096 ∧ k.witness ar x.reg.op acc ≠ k.wit) ∧
  (∃ (i : Inst) (k : Chunk) (s : State), (s.coll.records.getD k.die []).length < 4096 ∧ i.recompute ≤ k.recomputes) ∧
  (∃ (i : Inst) (k : Chunk) (s : State), (s.coll.records.getD k.die []).length < 4096 ∧ k.recomputes < i.recompute) ∧
  (∃ (die : Nat) (r : QRec) (l : List QRec) (x : Ctx) (i : Inst) (k : Chunk) (s : State), s.coll.records.getD die [] = r :: l ∧
    s.coll.ctxs.get? r.ctx = some x ∧ findInst x.insts r.inst = some i ∧ findChunk i.chunks r.phase r.chunk = some k ∧ r.phase = 0 ∧ k.phase = 0 ∧
    k.bypassIn = false ∧ x.reg.type ≠ 7) ∧
  (∃ (s : State) (m : Nat), s.rd E.ringNext 0 < 2 ^ 64 - 1 ∧ (
      let n := s.rd E.ringNext 0
      n < 8388608 ∧ m ≠ n)) ∧
  (∃ (s : State) (m : Nat), s.rd E.ringNext 0 < 2 ^ 64 - 1 ∧ (
      let n := s.rd E.ringNext 0
      8388608 ≤ n ∧ m ≠ n ∧ m ≠ n - 8388608)) :=
  ⟨⟨op1, 0, 0, 0, 0, { ctx1 with insts := [{ inst1 with chunks := [{ chunk1 with state := .completing, acc := .ints [1, 2, 3, -4], cover := [⟨0, 3, 1, 1, 10⟩] }] }] },
    { inst1 with chunks := [{ chunk1 with state := .completing, acc := .ints [1, 2, 3, -4], cover := [⟨0, 3, 1, 1, 10⟩] }] },
    { chunk1 with state := .completing, acc := .ints [1, 2, 3, -4], cover := [⟨0, 3, 1, 1, 10⟩] },
    withChunk ({ chunk1 with state := .completing, acc := .ints [1, 2, 3, -4], cover := [⟨0, 3, 1, 1, 10⟩] }),
    by unfold State.HoldsInst; decide +kernel⟩,
    ⟨[], { ctx1 with insts := [{ inst1 with chunks := [{ chunk1 with state := .completing, acc := .ints [1, 2, 3, -4], cover := [⟨0, 3, 1, 1, 10⟩] }] }] },
      { chunk1 with state := .completing, acc := .ints [1, 2, 3, -4], cover := [⟨0, 3, 1, 1, 10⟩] },
      withChunk ({ chunk1 with state := .completing, acc := .ints [1, 2, 3, -4], cover := [⟨0, 3, 1, 1, 10⟩] }), by decide +kernel⟩,
    ⟨{ inst1 with chunks := [{ chunk1 with state := .completing, acc := .ints [1, 2, 3, -4], recomputes := 2 }] },
      { chunk1 with state := .completing, acc := .ints [1, 2, 3, -4], recomputes := 2 },
      withChunk ({ chunk1 with state := .completing, acc := .ints [1, 2, 3, -4], recomputes := 2 }), by decide +kernel⟩,
    ⟨{ inst1 with chunks := [{ chunk1 with state := .completing, acc := .ints [1, 2, 3, -4], cover := [⟨0, 3, 1, 1, 10⟩] }] },
      { chunk1 with state := .completing, acc := .ints [1, 2, 3, -4], cover := [⟨0, 3, 1, 1, 10⟩] },
      withChunk ({ chunk1 with state := .completing, acc := .ints [1, 2, 3, -4], cover := [⟨0, 3, 1, 1, 10⟩] }), by decide +kernel⟩,
    ⟨die1, ⟨0, 0, 0, 0, 5⟩, [], { ctx1 with insts := [{ inst1 with chunks := [{ chunk1 with state := .completing, queued := true, acc := .ints [1, 2, 3, -4], cover := [⟨0, 3, 1, 1, 10⟩] }] }] },
      { inst1 with chunks := [{ chunk1 with state := .completing, queued := true, acc := .ints [1, 2, 3, -4], cover := [⟨0, 3, 1, 1, 10⟩] }] },
      { chunk1 with state := .completing, queued := true, acc := .ints [1, 2, 3, -4], cover := [⟨0, 3, 1, 1, 10⟩] },
      { withChunk ({ chunk1 with state := .completing, queued := true, acc := .ints [1, 2, 3, -4], cover := [⟨0, 3, 1, 1, 10⟩] }) with coll := { (withChunk ({ chunk1 with state := .completing, queued := true, acc := .ints [1, 2, 3, -4], cover := [⟨0, 3, 1, 1, 10⟩] })).coll with records := [(die1, [⟨0, 0, 0, 0, 5⟩])] } },
      by decide +kernel⟩,
    ⟨{ ready.wr E.ringNext 0 8388607 with coll := { ring := [(3, 8)] } }, 3, by decide +kernel⟩,
    ⟨{ ready.wr E.ringNext 0 8388608 with coll := { ring := [(0, 8), (3, 8)] } }, 3, by decide +kernel⟩⟩

theorem test_MembersFrames_met :
  (∃ (f : Cf) (header : BitVec 256) (c k : Nat) (x : Ctx) (s : State),
      let v := header.toNat
      s.FromMember f 5 v c x k) ∧
  (∃ (f : Cf) (header : BitVec 256) (c k : Nat) (x : Ctx) (s : State),
      let v := header.toNat
      s.FromMember f 6 v c x k) ∧
  (∃ (f : Cf) (header : BitVec 256) (c k : Nat) (x : Ctx) (s : State),
      let v := header.toNat
      s.FromMember f 8 v c x k) ∧
  (∃ (f : Cf) (header : BitVec 256) (c k : Nat) (x : Ctx) (i : Inst) (y : Tally) (s : State),
      let v := header.toNat
      bits v 251 248 = 9 ∧ ctlFormOk f.job v [] = true ∧ s.HoldsInst (bits v 247 216) (bits v 215 208) c x i ∧ x.reg.collEn = true ∧
        (homes x.reg.op 2 allOnes (x.hsetAt i.ver)).1 = s.gei ∧ x.reg.rankOf f.src = some k ∧ x.stands (bits v 215 208) ≠ .ahead ∧
        i.tallySent = false ∧ i.tally.getD { first := f.stamp, last := f.stamp } = y ∧ f.stamp ≤ y.deadline x.reg ∧ y.ranks.contains k = false) ∧
  (∃ (f : Cf) (header : BitVec 256) (c : Nat) (x : Ctx) (i : Inst) (y : Result) (s : State),
      let v := header.toNat
      bits v 251 248 = 4 ∧ ctlFormOk f.job v [] = true ∧ bits v 167 160 = 9 ∧ s.HoldsInst (bits v 247 216) (bits v 215 208) c x i ∧
        i.state ≠ .aborted ∧ i.results.reverse.find? (fun (z : Result) => z.chunk == bits v 207 176 && isReceiver x i z.phase z.chunk f.src) = some y ∧
        i.completeSent = false ∧ y.resent.contains f.src = false ∧ y.frames ≠ []) ∧
  (∃ (f : Cf) (header : BitVec 256) (c : Nat) (x : Ctx) (i : Inst) (y : Result) (s : State),
      let v := header.toNat
      bits v 251 248 = 4 ∧ ctlFormOk f.job v [] = true ∧ bits v 167 160 = 9 ∧ s.HoldsInst (bits v 247 216) (bits v 215 208) c x i ∧
        i.state ≠ .aborted ∧ i.results.reverse.find? (fun (z : Result) => z.chunk == bits v 207 176 && isReceiver x i z.phase z.chunk f.src) = some y ∧
        i.completeSent = false ∧ y.resent.contains f.src = true) ∧
  (∃ (f : Cf) (header : BitVec 384) (payload : List Byte) (c : Nat) (x : Ctx) (i : Inst) (s : State),
      let v := header.toNat
      let h := chOf v
      let hs := x.hsetAt (x.verOf h.inst)
      bits v 379 376 = 2 ∧ chunkFormOk f.job v payload = true ∧ h.phase = 1 ∧ s.HoldsInst h.op h.inst c x i ∧ i.state = .opened ∧
        (x.stands h.inst = .isOpen ∨ x.stands h.inst = .next) ∧ hs.contains s.gei = true ∧ hs.contains f.src = true ∧ h.hver = x.verOf h.inst ∧
        x.reg.v = true ∧ h.chunk < x.reg.countChunks ∧ h.fmt = 0x10 ∧ h.count = min 1024 (x.reg.positions - 1024 * h.chunk) ∧
        checkOk f.src v payload = true ∧ i.vectors.get? h.chunk = none) ∧
  (∃ (f : Cf) (body : List Byte),
      let kind := field body 0 1 % 16
      32 ≤ body.length ∧ ctlFormOk f.job (field body 0 32) (body.drop 32) = true ∧ (kind = 7 ∨ kind = 10 ∨ kind = 12 ∨ kind = 13)) :=
  ⟨⟨cf 11, ctlHead 5 op1 0 0 0 9, 0, 1, ctx1, home ctx1, by unfold State.FromMember; decide +kernel⟩,
    ⟨cf 11, ctlHead 6 op1 0 0 0 9, 0, 1, ctx1, home ctx1, by unfold State.FromMember; decide +kernel⟩,
    ⟨cf 11, ctlHead 8 op1 0 0x0D 0 9, 0, 1, ctx1, home ctx1, by unfold State.FromMember; decide +kernel⟩,
    ⟨cf 11, ctlHead 9 op1 0 0 2 9, 0, 1, ctx1, inst1, ⟨900, [], 0, 900, none, 0⟩, home ctx1, by unfold State.HoldsInst; decide +kernel⟩,
    ⟨cf 11, ctlHead 4 op1 0 9 0 0, 0, { ctx1 with insts := [{ inst1 with results := [(⟨0, 0, [[1, 2, 3]], [], 0, 0⟩ : Result)] }] },
      { inst1 with results := [(⟨0, 0, [[1, 2, 3]], [], 0, 0⟩ : Result)] }, (⟨0, 0, [[1, 2, 3]], [], 0, 0⟩ : Result),
      withInst ({ inst1 with results := [(⟨0, 0, [[1, 2, 3]], [], 0, 0⟩ : Result)] }), by unfold State.HoldsInst; decide +kernel⟩,
    ⟨cf 11, ctlHead 4 op1 0 9 0 0, 0, { ctx1 with insts := [{ inst1 with results := [(⟨0, 0, [[1, 2, 3]], [11], 0, 0⟩ : Result)] }] },
      { inst1 with results := [(⟨0, 0, [[1, 2, 3]], [11], 0, 0⟩ : Result)] }, (⟨0, 0, [[1, 2, 3]], [11], 0, 0⟩ : Result),
      withInst ({ inst1 with results := [(⟨0, 0, [[1, 2, 3]], [11], 0, 0⟩ : Result)] }), by unfold State.HoldsInst; decide +kernel⟩,
    ⟨cf 6, chHead { ch1 with kind := 2, phase := 1, count := 3, first := 0 } 6 (toBytes 12 7), toBytes 12 7, 0,
      { ctx1 with reg := { { reg1 with v := true, type := 1 } with hset := [5, 6] } }, inst1,
      home { ctx1 with reg := { { reg1 with v := true, type := 1 } with hset := [5, 6] } }, by unfold State.HoldsInst; decide +kernel⟩,
    ⟨cf 11, toBytes 32 (ctlHead 7 op1 0 0 0 0).toNat, by decide +kernel⟩⟩

theorem test_DeadlinesAndStallTimers_met :
  (∃ (c n : Nat) (x : Ctx) (i : Inst) (s : State), s.coll.ctxs.get? c = some x ∧ findInst x.insts n = some i) ∧
  (∃ (t : Time) (op inst rank c : Nat) (x : Ctx) (i : Inst) (s : State), s.HoldsInst op inst c x i ∧ i.state = .opened ∧
    (i.stall x.reg rank).mark = none ∧ (i.stall x.reg rank).d ≤ t ∧ x.owes i s.gei rank = true) ∧
  (∃ (t : Time) (op inst c : Nat) (x : Ctx) (i : Inst) (s : State), s.HoldsInst op inst c x i ∧ i.state = .opened ∧ s.power.brace = none ∧ (
      let due := i.stalls.filter (fun (y : Nat × Stall) => y.2.settled t)
      due.all (fun (y : Nat × Stall) => y.2.saved) = true)) ∧
  (∃ (t : Time) (op inst c : Nat) (x : Ctx) (i : Inst) (s : State) (k : Nat) (m : Stall), s.HoldsInst op inst c x i ∧ i.state = .opened ∧
    s.power.brace = none ∧ (
      let due := i.stalls.filter (fun (y : Nat × Stall) => y.2.settled t)
      due = [(k, m)] ∧ m.saved = false)) ∧
  (∃ (s : State), s.power.brace.isSome = true) ∧
  (∃ (t : Time) (op inst c : Nat) (x : Ctx) (i : Inst) (y : Tally) (s : State), s.HoldsInst op inst c x i ∧ i.tally = some y ∧ i.tallySent = false ∧
    y.mark = none ∧ y.deadline x.reg ≤ t ∧ t < y.deadline x.reg + 2 * us) ∧
  (∃ (t : Time) (op inst c m : Nat) (x : Ctx) (i : Inst) (y : Tally) (s : State), s.HoldsInst op inst c x i ∧ i.tally = some y ∧ i.tallySent = false ∧
    y.mark = some m ∧ y.deadline x.reg ≤ t ∧ m + 2 * us ≤ t ∧ s.power.brace = none) :=
  ⟨⟨0, 0, ctx1, inst1, home ctx1, by decide +kernel⟩,
    ⟨200 * ms, op1, 0, 1, 0, ctx1, inst1, home ctx1, by unfold State.HoldsInst; decide +kernel⟩,
    ⟨6 + 2 * us, op1, 0, 0, { ctx1 with insts := [{ inst1 with stalls := [(1, { tData := 0, d := 5, mark := some 6, saved := true })] }] },
      { inst1 with stalls := [(1, { tData := 0, d := 5, mark := some 6, saved := true })] },
      withInst ({ inst1 with stalls := [(1, { tData := 0, d := 5, mark := some 6, saved := true })] }), by unfold State.HoldsInst; decide +kernel⟩,
    ⟨6 + 2 * us, op1, 0, 0, { ctx1 with insts := [{ inst1 with stalls := [(1, { tData := 0, d := 5, mark := some 6 })] }] },
      { inst1 with stalls := [(1, { tData := 0, d := 5, mark := some 6 })] },
      withInst ({ inst1 with stalls := [(1, { tData := 0, d := 5, mark := some 6 })] }), 1, { tData := 0, d := 5, mark := some 6 },
      by unfold State.HoldsInst; decide +kernel⟩,
    ⟨{ home ctx1 with power := { ready.power with brace := some 1 } }, by decide +kernel⟩,
    ⟨5 + 200 * ms, op1, 0, 0, { ctx1 with insts := [{ inst1 with tally := some ⟨5, [1], 0, 9, none, 0⟩ }] },
      { inst1 with tally := some ⟨5, [1], 0, 9, none, 0⟩ }, ⟨5, [1], 0, 9, none, 0⟩, withInst ({ inst1 with tally := some ⟨5, [1], 0, 9, none, 0⟩ }),
      by unfold State.HoldsInst; decide +kernel⟩,
    ⟨5 + 200 * ms + 2 * us, op1, 0, 0, 5 + 200 * ms, { ctx1 with insts := [{ inst1 with tally := some ⟨5, [1], 0, 9, some (5 + 200 * ms), 0⟩ }] },
      { inst1 with tally := some ⟨5, [1], 0, 9, some (5 + 200 * ms), 0⟩ }, ⟨5, [1], 0, 9, some (5 + 200 * ms), 0⟩,
      withInst ({ inst1 with tally := some ⟨5, [1], 0, 9, some (5 + 200 * ms), 0⟩ }), by unfold State.HoldsInst; decide +kernel⟩⟩

theorem test_InstancesEnd_met :
  (∃ (p : Peer) (body : List Byte) (c : Nat) (x : Ctx) (i : Inst) (s : State),
      let n := field body 5 1
      let hs := x.hsetAt (x.verOf n)
      field body 0 1 = 0 ∧ s.PeerTaken p 7 body ∧ body.length = 33 ∧ s.HoldsInst (field body 1 4) n c x i ∧ i.state = .opened ∧
        (x.stands n = .isOpen ∨ x.stands n = .next) ∧ hs.contains p.src = true ∧ hs.contains s.gei = true ∧
        i.msgs.any (fun (m : Exchanged) => m.src == p.src) = false) ∧
  (∃ (t : Time) (op inst c : Nat) (x : Ctx) (i : Inst) (s : State), s.HoldsInst op inst c x i ∧ i.state = .completed ∧ i.completeSent = false ∧
    i.handedOn = true ∧ i.lastLeft + s.rd E.checkGrace 0 ≤ t ∧ s.resultQueued op inst = false) ∧
  (∃ (p : Peer) (body : List Byte) (c : Nat) (x : Ctx) (i : Inst) (s : State),
      let v := field body 0 32
      s.PeerTaken p 6 body ∧ body.length = 32 ∧ bits v 251 248 = 8 ∧ s.HoldsInst (bits v 247 216) (bits v 215 208) c x i ∧
        x.reg.hset.contains p.src = true ∧ x.stands (bits v 215 208) ≠ .ahead ∧ i.state = .opened) ∧
  (∃ (p : Peer) (body : List Byte) (c : Nat) (x : Ctx) (i : Inst) (s : State),
      let v := field body 0 32
      s.PeerTaken p 6 body ∧ body.length = 32 ∧ bits v 251 248 = 8 ∧ s.HoldsInst (bits v 247 216) (bits v 215 208) c x i ∧
        x.reg.hset.contains p.src = true ∧ x.stands (bits v 215 208) ≠ .ahead ∧ i.state = .aborted) ∧
  (∃ (c n : Nat) (x : Ctx) (i : Inst) (s : State), s.coll.ctxs.get? c = some x ∧ findInst x.insts n = some i ∧ n < 256 ∧ i.state = .opened ∧
    i.sentMsg = true ∧ i.exchanged (x.hsetAt i.ver) s.gei = true ∧ i.homesDone x.reg (x.hsetAt i.ver) s.gei = true ∧ x.reg.auto = true ∧ x.opn = n ∧
    findInst x.insts ((n + 1) % 256) = none ∧ x.leaving s.gei = false) :=
  ⟨⟨peerOf 9 7 (toBytes 1 0 ++ toBytes 4 op1 ++ toBytes 1 0 ++ toBytes 3 0 ++ toBytes 24 7),
    (toBytes 1 0 ++ toBytes 4 op1 ++ toBytes 1 0 ++ toBytes 3 0 ++ toBytes 24 7), 0,
    { ctx1 with reg := { reg1 with hset := [5, 9] }, insts := [inst1] }, inst1,
    home { ctx1 with reg := { reg1 with hset := [5, 9] }, insts := [inst1] }, by unfold State.PeerTaken State.HoldsInst; decide +kernel⟩,
    ⟨5 + (home ctx1).rd E.checkGrace 0, op1, 0, 0, { ctx1 with insts := [{ inst1 with state := .completed, chunks := [], lastLeft := 5 }] },
      { inst1 with state := .completed, chunks := [], lastLeft := 5 },
      home { ctx1 with insts := [{ inst1 with state := .completed, chunks := [], lastLeft := 5 }] }, by unfold State.HoldsInst; decide +kernel⟩,
    ⟨peerOf 9 6 (toBytes 32 (ctlHead 8 op1 0 6 0 0).toNat), (toBytes 32 (ctlHead 8 op1 0 6 0 0).toNat), 0,
      { ctx1 with reg := { reg1 with hset := [5, 9] }, insts := [inst1] }, inst1,
      home { ctx1 with reg := { reg1 with hset := [5, 9] }, insts := [inst1] }, by unfold State.PeerTaken State.HoldsInst; decide +kernel⟩,
    ⟨peerOf 9 6 (toBytes 32 (ctlHead 8 op1 0 6 0 0).toNat), (toBytes 32 (ctlHead 8 op1 0 6 0 0).toNat), 0,
      { ctx1 with reg := { reg1 with hset := [5, 9] }, insts := [{ inst1 with state := .aborted, chunks := [] }] },
      { inst1 with state := .aborted, chunks := [] },
      home { ctx1 with reg := { reg1 with hset := [5, 9] }, insts := [{ inst1 with state := .aborted, chunks := [] }] },
      by unfold State.PeerTaken State.HoldsInst; decide +kernel⟩,
    ⟨0, 0, { ctx1 with reg := regF 1, insts := [{ inst1 with sentMsg := true, msgs := [], done := [0, 1], chunks := [], maxExp := some 3 }] },
      { inst1 with sentMsg := true, msgs := [], done := [0, 1], chunks := [], maxExp := some 3 },
      home { ctx1 with reg := regF 1, insts := [{ inst1 with sentMsg := true, msgs := [], done := [0, 1], chunks := [], maxExp := some 3 }] },
      by decide +kernel⟩⟩

theorem test_LeafRoleAndSlots_met_a :
  (∃ (frame : Nat) (g : Stored) (f : Mft) (s : State), findFrame s.net.frames frame = some g ∧ g.packet = .mft f ∧ g.localOwner = true ∧
    keptForLeaf s.gei f = true ∧ s.preTakes f = true) ∧
  (∃ (frame : Nat) (g : Stored) (f : Mft) (s : State), findFrame s.net.frames frame = some g ∧ g.packet = .mft f ∧ g.localOwner = true ∧
    keptForLeaf s.gei f = true ∧ s.preTakes f = false) ∧
  (∃ (t : Time) (p : PreSlot) (s : State), s.coll.preSlots.find? (fun (y : PreSlot) => !y.ring && !y.closed && decide (y.openedAt + s.rd E.prHold 0 ≤ t)) = some p) ∧
  (∃ (a : Access) (v : BitVec 128) (s : State), s.Takes a E.prWrite 0 16 0 true ∧ prRule v (s.begin a.t) = .ok) ∧
  (∃ (p : PreSlot) (k : Nat) (s : State) (j : Nat), p.ring = false ∧ p.slot = some k ∧ p.parts = [] ∧ (s.slotsUsed p.die).Nodup ∧ j ≠ k) ∧
  (∃ (op inst phase chunk c : Nat) (x : Ctx) (i : Inst) (k : Chunk) (s : State), s.HoldsInst op inst c x i ∧ findChunk i.chunks phase chunk = some k ∧
    k.spilling = true) ∧
  (∃ (t : Time) (die : Nat) (s : State), (s.begin t).reopenOne die = none) ∧
  (∃ (t : Time) (die : Nat) (s v : State), (s.begin t).reopenOne die = some v ∧ v.reopenOne die = none) ∧
  (∃ (die c n key j : Nat) (x : Ctx) (i : Inst) (k : Chunk) (s v : State), s.firstDeferred die = some (c, n, key) ∧ s.coll.ctxs.get? c = some x ∧
    findInst x.insts n = some i ∧ x.reg.plainChunk (key / 2 ^ 32) = false ∧ (
      let ph := key / 2 ^ 32
      let ch := key % 2 ^ 32
      let w := s.modInst c n (fun (j : Inst) => { j with deferred := j.deferred.erase key })
      let b := x.newChunk i ph ch ((i.elements x.reg ph ch).getD 1024) s.now s.gei true .resending
      let o := x.opening c i b die
      w.quireUp die = true ∧ w.bookFits o = true ∧ w.slotFor o = some j ∧
        w.openBy c n x i b o ((w.candidates x.reg.op ph ch).1 != some die) (.sram j) = some v ∧ v.chunk? c n ph ch = some k)) :=
  ⟨⟨4, kept, leafFrame, leaf, by decide +kernel⟩,
    ⟨4, kept, leafFrame, leaf.wr E.prereduceEn 0 0, by decide +kernel⟩,
    ⟨leaf.rd E.prHold 0, preOpen, leaf, by decide +kernel⟩,
    ⟨acc, BitVec.ofNat 128 (pack [(32, 0x20001), (1, 1), (4, 0), (3, 0), (18, 0), (19, 262144), (51, 0)]), leaf,
      by unfold State.Takes; decide +kernel⟩,
    ⟨preOpen, 7, leaf, 3, by decide +kernel⟩,
    ⟨op1, 0, 0, 0, 0, { ctx1 with insts := [{ inst1 with chunks := [{ chunk1 with spilling := true }] }] },
      { inst1 with chunks := [{ chunk1 with spilling := true }] }, { chunk1 with spilling := true }, withChunk ({ chunk1 with spilling := true }),
      by unfold State.HoldsInst; decide +kernel⟩,
    ⟨1000, 0, ready, by decide +kernel⟩,
    ⟨1000, die1, defHome, defOpened, by decide +kernel⟩,
    ⟨die1, 0, 0, 0, ((defPlaced.chunk? 0 0 0 0).getD chunk1).slots.getD 0 0, defCtx, defInst, (defPlaced.chunk? 0 0 0 0).getD chunk1,
      defHome.begin 1000, defPlaced, by decide +kernel⟩⟩

theorem test_LeafRoleAndSlots_met_b :
  (∃ (die c n key j : Nat) (x : Ctx) (i : Inst) (s : State), s.firstDeferred die = some (c, n, key) ∧ s.coll.ctxs.get? c = some x ∧
    findInst x.insts n = some i ∧ x.reg.plainChunk (key / 2 ^ 32) = false ∧ (
      let ph := key / 2 ^ 32
      let ch := key % 2 ^ 32
      let w := s.modInst c n (fun (j : Inst) => { j with deferred := j.deferred.erase key })
      let b := x.newChunk i ph ch ((i.elements x.reg ph ch).getD 1024) s.now s.gei true .resending
      let o := x.opening c i b die
      (w.quireUp die = false ∨ w.bookFits o = false ∨ (w.slotFor o = none ∧ w.directStack o = none)))) ∧
  (∃ (q group k : Nat) (s : State) (j : Nat), s.findSlot q group = some k ∧ (s.slotsUsed q).Pairwise (· < ·) ∧ (∀ j ∈ s.slotsUsed q, j < 16384) ∧
    j < 16384 ∧ (j + 16384 - 512 * (group % 32)) % 16384 < (k + 16384 - 512 * (group % 32)) % 16384) :=
  ⟨⟨die1, 0, 0, 0, 0, defCtx, defInst, defFull, by decide +kernel⟩,
    ⟨0, 63, 15873, { ready with coll := { slots := [(0, [15872])] } }, 15872, by decide +kernel⟩⟩

theorem test_BypassMessages_met :
  (∃ (t : Time) (p : Peer) (body : List Byte) (c : Nat) (x : Ctx) (i : Inst) (k : Chunk) (s : State) (j : Inst), s.FromOtherHome p body 0 c x i k ∧ (
      let w := (((s.begin t).raise 0x7404 1 (8 + k.die) [.v 32 x.reg.op, .v 8 i.num, .v 32 k.chunk, .v 24 s.gei,
        .v 24 k.h2]).endChunk c i.num k).modInst c i.num (fun (j : Inst) => { j with bypassed := j.bypassed.filter (fun (y : Nat × Nat) => y.1 != ckey k.phase k.chunk) })
      w.inst? c i.num = some j)) ∧
  (∃ (p : Peer) (body : List Byte) (c : Nat) (x : Ctx) (i : Inst) (k : Chunk) (s : State), s.FromOtherHome p body 1 c x i k) ∧
  (∃ (p : Peer) (body : List Byte) (c : Nat) (x : Ctx) (i : Inst) (k : Chunk) (s : State), s.FromOtherHome p body 2 c x i k) ∧
  (∃ (p : Peer) (body : List Byte) (c : Nat) (x : Ctx) (i : Inst) (k : Chunk) (s : State), s.FromOtherHome p body 3 c x i k ∧
    k.state ≠ .completing) :=
  ⟨⟨1000, peerOf 9 10 (bypassMsg 0), bypassMsg 0, 0, { ctx1 with insts := [{ inst1 with chunks := [sentOut] }] }, { inst1 with chunks := [sentOut] },
    sentOut, withChunk (sentOut), (((((((withChunk (sentOut)).begin (1000)).raise 0x7404 1 (8 + (sentOut).die) [.v 32 ({ ctx1 with insts := [{ inst1 with chunks := [sentOut] }] }).reg.op,
    .v 8 ({ inst1 with chunks := [sentOut] }).num, .v 32 (sentOut).chunk, .v 24 (withChunk (sentOut)).gei,
    .v 24 (sentOut).h2]).endChunk (0) ({ inst1 with chunks := [sentOut] }).num (sentOut)).modInst (0) ({ inst1 with chunks := [sentOut] }).num (fun (j : Inst) => { j with bypassed := j.bypassed.filter (fun (y : Nat × Nat) => y.1 != ckey (sentOut).phase (sentOut).chunk) })).inst? (0) ({ inst1 with chunks := [sentOut] }).num).getD inst1),
    by unfold State.FromOtherHome State.PeerTaken State.HoldsInst; decide +kernel⟩,
    ⟨peerOf 9 10 (bypassMsg 1), bypassMsg 1, 0, { ctx1 with insts := [{ inst1 with chunks := [sentOut] }] }, { inst1 with chunks := [sentOut] },
      sentOut, withChunk (sentOut), by unfold State.FromOtherHome State.PeerTaken State.HoldsInst; decide +kernel⟩,
    ⟨peerOf 9 10 (bypassMsg 2), bypassMsg 2, 0, { ctx1 with insts := [{ inst1 with chunks := [sentOut] }] }, { inst1 with chunks := [sentOut] },
      sentOut, withChunk (sentOut), by unfold State.FromOtherHome State.PeerTaken State.HoldsInst; decide +kernel⟩,
    ⟨peerOf 9 10 (bypassMsg 3), bypassMsg 3, 0, { ctx1 with insts := [{ inst1 with chunks := [takenIn] }] }, { inst1 with chunks := [takenIn] },
      takenIn, withChunk (takenIn), by unfold State.FromOtherHome State.PeerTaken State.HoldsInst; decide +kernel⟩⟩

theorem test_CollectiveEntries_met :
  (∃ (a : Access) (v : BitVec 128) (s : State), s.Takes a E.homeQuery 0 16 0 (s.ownsOp a (bits v.toNat 127 96))) ∧
  (∃ (v c : Nat) (x : Ctx) (s : State), v < 2 ^ 128 ∧ s.ctxOf (bits v 127 96) = some c ∧ s.coll.ctxs.get? c = some x) ∧
  (∃ (a : Access) (s : State), s.Takes a E.memberQuery 0 32 0 true) ∧
  (∃ (v : Nat) (x : Ctx) (i : Inst) (s : State), v < 2 ^ 256 ∧ s.coll.ctxs.get? (bits v 255 240) = some x ∧ findInst x.insts x.opn = some i ∧
    bits v 239 222 < x.reg.m) ∧
  (∃ (a : Access) (v : BitVec 192) (s : State), s.Takes a E.weightQuery 0 24 0 (s.ownsOp a (bits v.toNat 191 160))) ∧
  (∃ (a : Access) (ctx v : Nat) (x : Ctx) (s : State), s.Takes a E.windowAnchor ctx 2 v true ∧ s.coll.ctxs.get? ctx = some x ∧ x.reg.auto = false ∧
    x.reg.zeroAnchor = false) ∧
  (∃ (a : Access) (s : State), s.Takes a E.trapValid 0 1 1 true) :=
  ⟨⟨acc, BitVec.ofNat 128 (op1 * 2 ^ 96 + 7), home ctx1, by unfold State.Takes; decide +kernel⟩,
    ⟨op1 * 2 ^ 96 + 7, 0, ctx1, home ctx1, by decide +kernel⟩,
    ⟨acc, ready, by unfold State.Takes; decide +kernel⟩,
    ⟨1 * 2 ^ 222, ctx1, inst1, home ctx1, by decide +kernel⟩,
    ⟨acc, BitVec.ofNat 192 (op1 * 2 ^ 160), ready, by unfold State.Takes; decide +kernel⟩,
    ⟨acc, 0, 65500, { ctx1 with reg := regF 0 }, home { ctx1 with reg := regF 0 }, by unfold State.Takes; decide +kernel⟩,
    ⟨acc, ready.wr E.trapValid 0 1, by unfold State.Takes; decide +kernel⟩⟩

theorem test_SumsAndWitnessesAdd_met :
  (∃ (ls ms : List (List Int)) (n : Nat), ls.Perm ms ∧ (∀ l ∈ ls, l.length = n)) :=
  ⟨[[1, -2], [2 ^ 100, 7]], [[2 ^ 100, 7], [1, -2]], 2, by decide +kernel⟩

theorem test_RoundsIntoWindow_met :
  (∃ (m : Nat) (e l : Int) (w : Nat), 0 < m ∧ m < 2 ^ 33 ∧ l ≤ e ∧ bitlen m + (e - l).toNat ≤ w) ∧
  (∃ (m : Nat) (e l : Int) (w : Nat), 0 < m ∧ m < 2 ^ 33 ∧ l ≤ e ∧ w < bitlen m + (e - l).toNat) ∧
  (∃ (sg : Bool) (m : Nat) (e l : Int), 0 < m ∧ m < 2 ^ 33 ∧ e < l ∧ sg = false) ∧
  (∃ (sg : Bool) (m : Nat) (e l : Int), 0 < m ∧ m < 2 ^ 33 ∧ e < l ∧ sg = true) ∧
  (∃ (sg : Bool) (m : Nat) (e l : Int) (w : Nat), 0 < m ∧ m < 2 ^ 33 ∧ (
      let r := toWindow (.fin sg m e) l w
      let mag : Nat := r.q.natAbs
      e < l ∧ (2 * (mag * 2 ^ (l - e).toNat) = 2 * m + 2 ^ (l - e).toNat ∨ 2 * m = 2 * (mag * 2 ^ (l - e).toNat) + 2 ^ (l - e).toNat))) :=
  ⟨⟨1, 108, 0, 109, by decide +kernel⟩,
    ⟨1, 109, 0, 109, by decide +kernel⟩,
    ⟨false, 3, -1, 0, by decide +kernel⟩,
    ⟨true, 3, -1, 0, by decide +kernel⟩,
    ⟨true, 5, -1, 0, 109, by decide +kernel⟩⟩

theorem test_RawAndExtremeOperators_met :
  (∃ (op : Nat) (x y : List Nat), (op = 3 ∨ op = 4 ∨ op = 5) ∧ x.length = y.length) ∧
  (∃ (a b : Dec),
      let ok := fun (d : Dec) => match d with
        | .zero => True
        | .fin _ m e => 0 < m ∧ m < 2 ^ 33 ∧ -149 ≤ (bitlen m : Int) - 1 + e ∧ (bitlen m : Int) - 1 + e ≤ 142
        | _ => False
      ok a ∧ ok b) :=
  ⟨⟨3, [1, 0xFFFF], [3, 0x7C00], by decide +kernel⟩,
    ⟨(.fin true 3 (-149)), .zero, by refine ⟨?_, ?_⟩ <;> simp <;> decide +kernel⟩⟩

theorem test_BlockErrorsAreClassified_met :
  (∃ (c : List Byte) (p : Nat) (e : Byte), c.length = 68 ∧ classify c = .clean ∧ p < 68 ∧ c.getD p 0 ≠ e) ∧
  (∃ (p e : Nat), p < 68 ∧ 0 < e ∧ e < 256) ∧
  (∃ (c r : List Byte), c.length = 68 ∧ r.length = 68 ∧ classify c = .clean ∧ (
      let n := ((List.range 68).filter (fun i => r.getD i 0 != c.getD i 0)).length
      (n = 2 ∨ n = 3))) :=
  ⟨⟨List.replicate 68 0, 67, 255, by decide +kernel⟩,
    ⟨67, 255, by decide +kernel⟩,
    ⟨List.replicate 68 0, ((List.replicate 68 0).set 0 1).set 67 1, by decide +kernel⟩⟩

theorem test_GraphCommands_met_a :
  (∃ (a : Access) (v : BitVec 256) (s : State),
      let d := tensorOf v.toNat
      s.Takes a E.tensorCreate 0 32 0 (s.ownsJob a (jobOf d.op)) ∧ s.tensorCheck v.toNat = 0 ∧ s.leads a d.op = true) ∧
  (∃ (a : Access) (h : Nat) (s : State), s.Takes a E.tensorDestroy 0 4 h (s.ownsJob a (h / 65536)) ∧ s.destroyCode h = 0) ∧
  (∃ (a : Access) (d : List Byte) (t : Tensor) (s : State),
      let h := field d 0 4
      let k := field d 4 4
      s.Takes a E.tensorIo 0 d.length 0 (s.ownsJob a (h / 65536)) ∧ s.tensor? h = some t ∧ t.cls ≠ 2 ∧ k < t.count ∧ s.holderOf t k = s.gei ∧
        (d.drop 8).all (fun b => b == 0) = true) ∧
  (∃ (a : Access) (d : List Byte) (t : Tensor) (s : State),
      let h := field d 0 4
      let k := field d 4 4
      s.Takes a E.tensorIo 0 d.length 0 (s.ownsJob a (h / 65536)) ∧ s.tensor? h = some t ∧ t.cls ≠ 2 ∧ k < t.count ∧ s.holderOf t k = s.gei ∧
        (d.drop 8).any (fun b => b != 0) = true ∧ s.tensorBusy h = false ∧ (ioValues d).any (notFinite fp32) = false) ∧
  (∃ (a : Access) (d : List Byte) (t : Tensor) (s : State),
      let h := field d 0 4
      let k := field d 4 4
      s.Takes a E.tensorIo 0 d.length 0 (s.ownsJob a (h / 65536)) ∧ s.tensor? h = some t ∧ t.cls ≠ 2 ∧ k < t.count ∧ s.holderOf t k = s.gei ∧
        (d.drop 8).any (fun b => b != 0) = true ∧ s.tensorBusy h = true) ∧
  (∃ (a : Access) (v : BitVec 128) (s : State), s.Takes a E.tensorQuery 0 16 0 (s.ownsJob a (bits v.toNat 127 112))) ∧
  (∃ (v : Nat) (t : Tensor) (s : State), v < 2 ^ 128 ∧ s.tensor? (bits v 127 96) = some t) ∧
  (∃ (a : Access) (d : List Byte) (s : State), d.length = 8 + field d 4 4 ∧ s.Takes a E.graphStage 0 d.length 0 (s.ownsJob a (s.imageJob a)) ∧
    1 ≤ field d 4 4 ∧ field d 4 4 ≤ 4096 ∧ field d 0 4 + field d 4 4 ≤ 1115680) ∧
  (∃ (a : Access) (len : Nat) (s : State), s.Takes a E.graphCommit 0 4 len (s.ownsJob a (s.imageJob a)) ∧ s.commitCode a len = 0) :=
  ⟨⟨acc, BitVec.ofNat 256 tensorV, withGraphs [5, 9] {}, by unfold State.Takes; decide +kernel⟩,
    ⟨acc, 0x10006, withGraphs [5, 9] { tensors := tens }, by unfold State.Takes; decide +kernel⟩,
    ⟨acc, (toBytes 4 0x10005 ++ toBytes 4 1 ++ toBytes 4 0 ++ List.replicate 4092 0), tensor1, withGraphs [5] { tensors := tens },
      by unfold State.Takes; decide +kernel⟩,
    ⟨acc, io3, tensor1, withGraphs [5] { tensors := tens }, by unfold State.Takes; decide +kernel, by decide +kernel, by decide +kernel,
      by decide +kernel, by decide +kernel, by decide +kernel, by decide +kernel, io3_finite⟩,
    ⟨acc, io3, tensor1, graphAt [5] { graph1 with state := 3, run := some run1 }, by unfold State.Takes; decide +kernel⟩,
    ⟨acc, BitVec.ofNat 128 (0x10005 * 2 ^ 96 + 7), graphAt [5] graph1, by unfold State.Takes; decide +kernel⟩,
    ⟨0x10005 * 2 ^ 96 + 7, tensor1, graphAt [5] graph1, by decide +kernel⟩,
    ⟨acc, (toBytes 4 1115679 ++ toBytes 4 1 ++ [9]), withGraphs [5] {}, by unfold State.Takes; decide +kernel⟩,
    ⟨acc, 1184, { withGraphs [5, 9] { tensors := tens, stage := image1 } with regs := ((withGraphs [5] {}).wr E.graphJobTag 0 1).regs },
      by unfold State.Takes; decide +kernel⟩⟩

theorem test_GraphCommands_met_b :
  (∃ (a : Access) (id n : Nat) (g : Graph) (s : State), s.Takes a E.graphControl 0 8 0 (s.ownsJob a (id / 65536)) ∧ s.resident id = some (n, g) ∧
    s.rebuilding id = false ∧ g.state = gsHalted) ∧
  (∃ (a : Access) (d : List Byte) (n : Nat) (g : Graph) (s : State), s.Takes a E.constWrite 0 d.length 0 (s.ownsJob a (field d 0 4 / 65536)) ∧
    s.resident (field d 0 4) = some (n, g)) ∧
  (∃ (a : Access) (v : BitVec 128) (s : State), s.Takes a E.nodeQuery 0 16 0 (s.ownsJob a (match s.graphs.slots.get? (bits v.toNat 127 122) with | some g => g.id / 65536 | none => 0))) ∧
  (∃ (v : Nat) (g : Graph) (r : Run) (s : State) (q : Nat), v < 2 ^ 128 ∧ s.graphs.slots.get? (bits v 127 122) = some g ∧ g.run = some r ∧ q < 10) ∧
  (∃ (a : Access) (v : BitVec 64) (s : State),
      let id := v.toNat / 2 ^ 32
      s.Takes a E.subnormalSet 0 8 0 (s.ownsJob a (id / 65536)) ∧ bits v.toNat 7 0 ≤ 1 ∧ (s.resident id).isSome = true) :=
  ⟨⟨acc, 0x10001, 0, { graph1 with state := 5 }, graphAt [5] { graph1 with state := 5 }, by unfold State.Takes; decide +kernel⟩,
    ⟨acc, (toBytes 4 0x10001 ++ toBytes 1024 7), 0, graph1, graphAt [5] graph1, by unfold State.Takes; decide +kernel⟩,
    ⟨acc, BitVec.ofNat 128 (1 * 2 ^ 108), graphAt [5] { graph1 with state := 3, run := some run1 }, by unfold State.Takes; decide +kernel⟩,
    ⟨1 * 2 ^ 108, { graph1 with state := 3, run := some run1 }, run1, graphAt [5] { graph1 with state := 3, run := some run1 }, 9, by decide +kernel⟩,
    ⟨acc, BitVec.ofNat 64 (0x10001 * 2 ^ 32 + 1), graphAt [5, 9] graph1, by unfold State.Takes; decide +kernel⟩⟩

theorem test_GraphRuns_met_a :
  (∃ (slot : Nat) (g : Graph) (s : State), s.graphs.slots.get? slot = some g ∧ g.state = gsWaiting ∧ g.run = none ∧ g.migrating = false ∧
    s.power.brace = none ∧ s.quires ≠ [] ∧ s.runnable g = true) ∧
  (∃ (t : Time) (slot die stage group stripe : Nat) (g : Graph) (s : State),
      let w := (s.begin t).noteEligible
      s.graphs.slots.get? slot = some g ∧ w.nextEligible die = some (slot, die, stage, group, stripe) ∧
        stageBuffers (w.checkedOf g) stage ≤ w.buffersFree die) ∧
  (∃ (t : Time) (slot die stage group stripe : Nat) (g : Graph) (s : State),
      let w := (s.begin t).noteEligible
      s.graphs.slots.get? slot = some g ∧ (w.nextEligible die ≠ some (slot, die, stage, group,
        stripe) ∨ w.buffersFree die < stageBuffers (w.checkedOf g) stage)) ∧
  (∃ (slot die : Nat) (g : Graph) (r : Run) (k : Nat × Nat) (x : GNode) (s : State), s.graphs.slots.get? slot = some g ∧ s.rd E.throttled die = 0 ∧
    g.run = some r ∧ s.nextTask g r die = some k ∧ g.node k.1 = some x ∧ x.kind ≠ 5) ∧
  (∃ (slot die : Nat) (g : Graph) (r : Run) (k : Nat × Nat) (x : GNode) (s : State), s.graphs.slots.get? slot = some g ∧ s.rd E.throttled die = 0 ∧
    g.run = some r ∧ s.nextTask g r die = some k ∧ g.node k.1 = some x ∧ x.kind = 5) ∧
  (∃ (slot die : Nat) (g : Graph) (p : Pub) (k : Nat × Nat) (s : State), s.graphs.slots.get? slot = some g ∧ s.rd E.throttled die = 0 ∧ g.run = none ∧
    g.pub = some p ∧ s.nextPub g p die = some k) ∧
  (∃ (slot node index : Nat) (g : Graph) (x : GNode) (s : State) (r : Run), s.graphs.slots.get? slot = some g ∧ g.node node = some x ∧ x.kind ≠ 8 ∧
    g.run = some r ∧ r.issued.contains (node, index) = true ∧ r.done.contains (node, index) = false) ∧
  (∃ (slot node index : Nat) (g : Graph) (x : GNode) (s : State) (p : Pub), s.graphs.slots.get? slot = some g ∧ g.node node = some x ∧ x.kind = 8 ∧
    g.pub = some p ∧ p.issued.contains (node, index) = true ∧ p.done.contains (node, index) = false) ∧
  (∃ (t : Time) (die : Nat) (s : State), bit (s.rd E.coldState die) 4 = true ∧ s.pendingAt die = false ∧
    s.graphs.engines.getD die 0 + 100 * us ≤ t) :=
  ⟨⟨0, graph1, graphAt [5] graph1, by decide +kernel⟩,
    ⟨1000, 0, die5, 0, 0, 0, { graph1 with state := 3, run := some run1 }, graphAt [5] { graph1 with state := 3, run := some run1 },
      by decide +kernel⟩,
    ⟨1000, 0, die5, 0, 0, 1, { graph1 with state := 3, run := some run1 }, graphAt [5] { graph1 with state := 3, run := some run1 },
      by decide +kernel⟩,
    ⟨0, die5, { graph1 with state := 3, run := some { run1 with opened := [(die5, 0, 0, 0)] } }, { run1 with opened := [(die5, 0, 0, 0)] }, (0, 0),
      ⟨2, 0, 5, [], 0⟩, graphAt [5] { graph1 with state := 3, run := some { run1 with opened := [(die5, 0, 0, 0)] } }, by decide +kernel⟩,
    ⟨0, die6, { graph1 with nodes := nodesM, state := 3, run := some run1 }, run1, (0, die6), ⟨5, 0, 6, [], 0⟩,
      graphAt [5] { graph1 with nodes := nodesM, state := 3, run := some run1 }, by decide +kernel⟩,
    ⟨0, die5, { graph1 with pub := some { version := 3 } }, { version := 3 }, (2, 0), graphAt [5] { graph1 with pub := some { version := 3 } },
      by decide +kernel⟩,
    ⟨0, 0, 0, { graph1 with state := 3, run := some { run1 with opened := [(die5, 0, 0, 0)], issued := [(0, 0)] } }, ⟨2, 0, 5, [], 0⟩,
      graphAt [5] { graph1 with state := 3, run := some { run1 with opened := [(die5, 0, 0, 0)], issued := [(0, 0)] } },
      { run1 with opened := [(die5, 0, 0, 0)], issued := [(0, 0)] }, by decide +kernel⟩,
    ⟨0, 2, 0, { graph1 with pub := some { version := 3, issued := [(2, 0)] } }, ⟨8, 0, 5, [⟨3, 0, 1⟩], 0⟩,
      graphAt [5] { graph1 with pub := some { version := 3, issued := [(2, 0)] } }, { version := 3, issued := [(2, 0)] }, by decide +kernel⟩,
    ⟨100 * us, 3, ready.wr E.coldState 3 16, by decide +kernel⟩⟩

theorem test_GraphRuns_met_b :
  (∃ (p : Peer) (body : List Byte) (n : Nat) (g : Graph) (s : State),
      let inst := field body 5 1
      let cur := match g.run with | some r => r.inst | none => g.next
      s.PeerTaken p 7 body ∧ body.length = 33 ∧ s.resident (field body 1 4) = some (n, g) ∧ (s.hsetOf g.op).contains p.src = true ∧
        (inst + 256 - cur) % 256 < 128 ∧ g.msgs.any (fun (m : GMsg) => m.src == p.src && m.inst == inst && m.node == field body 6 2) = false ∧
        field body 0 1 = 1) ∧
  (∃ (p : Peer) (body : List Byte) (n : Nat) (g : Graph) (s : State),
      let inst := field body 5 1
      let cur := match g.run with | some r => r.inst | none => g.next
      s.PeerTaken p 7 body ∧ body.length = 33 ∧ s.resident (field body 1 4) = some (n, g) ∧ (s.hsetOf g.op).contains p.src = true ∧
        (inst + 256 - cur) % 256 < 128 ∧ g.msgs.any (fun (m : GMsg) => m.src == p.src && m.inst == inst && m.node == field body 6 2) = false ∧
        field body 0 1 = 2) ∧
  (∃ (p : Peer) (body : List Byte) (n : Nat) (g : Graph) (s : State),
      let ver := field body 4 4
      s.PeerTaken p 8 body ∧ body.length = 12 ∧ s.resident (field body 0 4) = some (n, g) ∧ (s.graphPeers g).contains p.src = true ∧ g.version < ver ∧
        g.owed.contains p.src = true ∧ ver = g.version + 1) ∧
  (∃ (p : Peer) (body : List Byte) (n : Nat) (g : Graph) (s : State),
      let ver := field body 4 4
      s.PeerTaken p 8 body ∧ body.length = 12 ∧ s.resident (field body 0 4) = some (n, g) ∧ (s.graphPeers g).contains p.src = true ∧ g.version < ver ∧
        (g.owed.contains p.src = false ∨ ver ≠ g.version + 1)) ∧
  (∃ (t : Time) (slot : Nat) (g : Graph) (r : Run) (f : Time) (s : State), s.graphs.slots.get? slot = some g ∧ g.run = some r ∧ r.fenceAt = some f ∧
    f + g.limit * ms ≤ t) ∧
  (∃ (f : Cf) (body : List Byte), pubMalformed f.src body = true) ∧
  (∃ (f : Cf) (body : List Byte), pubMalformed f.src body = false ∧ bits (field body 0 32) 251 248 = 3) ∧
  (∃ (p : Peer) (body : List Byte) (n slot : Nat) (g : Graph) (s : State),
      let fmt := field body 1 1
      let op := field body 4 4
      let inst := field body 8 4
      let cur := match g.run with | some r => r.inst | none => g.next
      n = elemBits fmt / 8 ∧ n ≠ 0 ∧ isMx fmt = false ∧ field body 0 1 = 0 ∧ s.PeerTaken p 9 body ∧ body.length = 16 + 1024 * n ∧
        s.boundTo op = some (slot, g) ∧ (s.hsetOf op).contains p.src = true ∧ inst < 256 ∧ (inst + 256 - cur) % 256 < 128) ∧
  (∃ (p : Peer) (body : List Byte) (n : Nat) (d : Tensor) (s : State),
      let fmt := field body 1 1
      let h := field body 4 4
      let k := field body 12 4
      n = elemBits fmt / 8 ∧ n ≠ 0 ∧ isMx fmt = false ∧ field body 0 1 = 1 ∧ s.PeerTaken p 9 body ∧ body.length = 16 + 1024 * n ∧
        s.tensor? h = some d ∧ d.fmt = fmt ∧ d.cls ≠ 2 ∧ k < d.count ∧ s.holderOf d k = s.gei ∧ s.tensorBusy h = false) :=
  ⟨⟨peerOf 9 7 (toBytes 1 1 ++ toBytes 4 0x10001 ++ toBytes 1 0 ++ toBytes 2 9 ++ toBytes 1 0 ++ toBytes 24 7),
    (toBytes 1 1 ++ toBytes 4 0x10001 ++ toBytes 1 0 ++ toBytes 2 9 ++ toBytes 1 0 ++ toBytes 24 7), 0, graph1, graphAt [5, 9] graph1,
    by unfold State.PeerTaken; decide +kernel⟩,
    ⟨peerOf 9 7 (toBytes 1 2 ++ toBytes 4 0x10001 ++ toBytes 1 0 ++ toBytes 2 9 ++ toBytes 1 0 ++ toBytes 24 7),
      (toBytes 1 2 ++ toBytes 4 0x10001 ++ toBytes 1 0 ++ toBytes 2 9 ++ toBytes 1 0 ++ toBytes 24 7), 0, graph1, graphAt [5, 9] graph1,
      by unfold State.PeerTaken; decide +kernel⟩,
    ⟨peerOf 9 8 (toBytes 4 0x10001 ++ toBytes 4 4 ++ toBytes 4 0), (toBytes 4 0x10001 ++ toBytes 4 4 ++ toBytes 4 0), 0, { graph1 with owed := [9] },
      graphAt [5, 9] { graph1 with owed := [9] }, by unfold State.PeerTaken; decide +kernel⟩,
    ⟨peerOf 9 8 (toBytes 4 0x10001 ++ toBytes 4 4 ++ toBytes 4 0), (toBytes 4 0x10001 ++ toBytes 4 4 ++ toBytes 4 0), 0,
      { graph1 with state := 3, run := some run1 }, graphAt [5, 9] { graph1 with state := 3, run := some run1 },
      by unfold State.PeerTaken; decide +kernel⟩,
    ⟨7 + 5 * ms, 0, { graph1 with state := 4, run := some { run1 with fenceAt := some 7 } }, { run1 with fenceAt := some 7 }, 7, graphAt [5,
      9] { graph1 with state := 4, run := some { run1 with fenceAt := some 7 } }, by decide +kernel⟩,
    ⟨cf 11, [1], by decide +kernel⟩,
    ⟨cf 11, pubBody 11 3 0x10005 3 0 0 0 false 0 0 0 [], by decide +kernel⟩,
    ⟨peerOf 9 9 (toBytes 1 0 ++ toBytes 1 4 ++ toBytes 2 0 ++ toBytes 4 op1 ++ toBytes 4 0 ++ toBytes 4 1 ++ List.replicate 1024 0),
      (toBytes 1 0 ++ toBytes 1 4 ++ toBytes 2 0 ++ toBytes 4 op1 ++ toBytes 4 0 ++ toBytes 4 1 ++ List.replicate 1024 0), 1, 0,
      { graph1 with state := 3, run := some run1 }, graphAt [5, 9] { graph1 with state := 3, run := some run1 },
      by unfold State.PeerTaken; decide +kernel⟩,
    ⟨peerOf 9 9 (toBytes 1 1 ++ toBytes 1 4 ++ toBytes 2 0 ++ toBytes 4 0x10005 ++ toBytes 4 3 ++ toBytes 4 0 ++ List.replicate 1024 0),
      (toBytes 1 1 ++ toBytes 1 4 ++ toBytes 2 0 ++ toBytes 4 0x10005 ++ toBytes 4 3 ++ toBytes 4 0 ++ List.replicate 1024 0), 1,
      { tensor1 with fmt := 4 }, withGraphs [5] { tensors := [(0x10005, { tensor1 with fmt := 4 })] }, by unfold State.PeerTaken; decide +kernel⟩⟩

theorem test_MatrixArrays_met :
  (∃ (j : Nat) (x : Tile) (l : List Tile) (s : State), j < 40 ∧ s.arrayUp j = true ∧ s.rd E.throttled (j / 4) = 0 ∧ (s.array j).ahead = x :: l ∧
    s.tileRoom j x = true) ∧
  (∃ (j : Nat) (x : Tile) (s : State), j < 40 ∧ s.arrayUp j = true ∧ s.rd E.throttled (j / 4) = 0 ∧ (s.array j).ahead = [] ∧
    s.nextTile (j / 4) = some x ∧ s.tileRoom j x = true) ∧
  (∃ (j : Nat) (s : State), j < 40 ∧ (s.array j).tiles = [] ∧ (s.array j).ahead = [] ∧ s.rd E.arrayState j = 0) ∧
  (∃ (j : Nat) (s : State), j < 40 ∧ (s.array j).tiles = [] ∧ (s.array j).ahead = [] ∧ s.rd E.arrayState j ≠ 0) ∧
  (∃ (t : Time) (j row col stalls : Nat) (wrong : List (Nat × Nat × Nat)) (epi : Bool) (x : Tile) (s : State),
    (s.array j).tiles.find? (fun (y : Tile) => y.i == row && y.j == col) = some x ∧ (
      let w := (s.begin t).bump E.feederStalls j stalls
      w.abftFails x wrong = none ∧ epi = false)) ∧
  (∃ (t : Time) (j row col stalls : Nat) (wrong : List (Nat × Nat × Nat)) (epi : Bool) (x : Tile) (s : State),
    (s.array j).tiles.find? (fun (y : Tile) => y.i == row && y.j == col) = some x ∧ (
      let w := (s.begin t).bump E.feederStalls j stalls
      w.abftFails x wrong = none ∧ epi = true)) ∧
  (∃ (t : Time) (j row col stalls : Nat) (wrong : List (Nat × Nat × Nat)) (x : Tile) (s : State) (k : Nat),
    (s.array j).tiles.find? (fun (y : Tile) => y.i == row && y.j == col) = some x ∧ (
      let w := (s.begin t).bump E.feederStalls j stalls
      w.abftFails x wrong = some k)) ∧
  (∃ (t : Time) (j : Nat) (s : State), s.rd E.arrayState j = 1 ∧ (s.array j).tiles = [] ∧ (s.array j).ahead = [] ∧ (s.array j).last + 100 * us ≤ t ∧
    s.nextTile (j / 4) = none) :=
  ⟨⟨4 * die6 + 1, tile1, [], withGraphs [5] { tensors := tens, slots := [(0, graph1)], arrays := [(4 * die6 + 1, { ahead := [tile1] })] },
    by decide +kernel⟩,
    ⟨4 * die6 + 1, tile1, graphAt [5] { graph1 with nodes := nodesM, state := 3, run := some { run1 with issued := [(0, die6)] } },
      by decide +kernel⟩,
    ⟨4 * die6 + 1, graphAt [5] { graph1 with nodes := nodesM, state := 3, run := some { run1 with issued := [(0, die6)] } }, by decide +kernel⟩,
    ⟨4 * die6 + 1, (graphAt [5] { graph1 with nodes := nodesM, state := 3, run := some { run1 with issued := [(0, die6)] } }).wr E.arrayState (4 * die6 + 1) 1,
      by decide +kernel⟩,
    ⟨1000, 4 * die6 + 1, 0, 0, 3, [], false, tile1,
      withGraphs [5] { tensors := tens, slots := [(0, { graph1 with nodes := nodesM, state := 3, run := some { run1 with issued := [(0, die6)] } })], arrays := [(4 * die6 + 1, { tiles := [tile1] })] },
      by decide +kernel⟩,
    ⟨1000, 4 * die6 + 1, 0, 0, 3, [], true, tile1, withGraphs [5] { tensors := tens, slots := [(0, { graph1 with nodes := nodesM, state := 3, run := some { run1 with issued := [(0, die6)] } })], arrays := [(4 * die6 + 1, { tiles := [tile1] })] },
      by decide +kernel⟩,
    ⟨1000, 4 * die6 + 1, 0, 0, 3, [(0, 0, 0x40000000)], tileS, tiled, 0, by decide +kernel⟩,
    ⟨100 * us, 4 * die6 + 1, ready.wr E.arrayState (4 * die6 + 1) 1, by decide +kernel⟩⟩

theorem test_PoisonList_met :
  (∃ (t : Time) (h cmd b retries : Nat) (e : BitVec 544) (wait : List Nat) (x : Holds) (s v : State), h < 20 ∧ s.stackUp h = true ∧ cmd ≤ 9 ∧
    cmd ≠ 1 ∧ cmd ≠ 2 ∧ b < stackBlocks ∧ s.AtStack t h b retries e wait x v ∧ (b ∈ s.poisoned h ∨ (readWord (v.stored h b)).1 = .bad)) ∧
  (∃ (t : Time) (h : Nat) (e : BitVec 544) (wait : List Nat) (s : State), h < 20 ∧ s.stackUp h = true ∧
    (wait.any (fun n => decide (0 < n)) = false ∨ (s.begin t).scrubLate h = true) ∧ (
      let b := s.graphs.scrubAt.getD h 0
      let w := ((s.begin t).scrubNext h).upset h b e
      (b ∈ s.poisoned h ∨ (readWord (w.stored h b)).1 = .bad))) ∧
  (∃ (h b : Nat) (s : State), b ∈ s.poisoned h ∧ s.stackUp h = true) ∧
  (∃ (h b : Nat) (s : State), h < 20 ∧ b ∉ s.poisoned h ∧ 4096 ≤ (s.poisoned h).length) ∧
  (∃ (h b : Nat) (s : State) (k : Nat), h < 20 ∧ b ∉ s.poisoned h ∧ (
      let recent := ((s.graphs.poisonAt.getD h []).filter (fun t => decide (s.now < t + sec))).length + 1
      (s.poisoned h).length < 4096 ∧ recent ≤ s.rd E.ueLimit 0 ∧ k ≠ b)) ∧
  (∃ (t : Time) (h cmd b retries : Nat) (e : BitVec 544) (wait : List Nat) (x : Holds) (s v : State), h < 20 ∧ s.stackUp h = true ∧
    (cmd = 1 ∨ cmd = 2) ∧ b < stackBlocks ∧ s.AtStack t h b retries e wait x v) :=
  ⟨⟨1000, 2, 0, 9, 0, 0, default, .stripe 0x10005 3 0, { ready with graphs := { poison := [(2, [9])] } },
    ((served ({ ready with graphs := { poison := [(2, [9])] } }) (1000) (2) (9) (0) (0) (default) (.stripe 0x10005 3 0)).getD ({ ready with graphs := { poison := [(2, [9])] } })),
    by rw [atStack_iff]; decide +kernel⟩,
    ⟨1000, 2, 0, default, { ready with graphs := { poison := [(2, [0])] } }, by decide +kernel⟩,
    ⟨2, 9, { ready with graphs := { poison := [(2, [9])] } }, by decide +kernel⟩,
    ⟨2, 9, { ready with graphs := { poison := [(2, (List.range 5000).drop 904)] } }, by decide +kernel⟩,
    ⟨2, 9, { ready with graphs := { poison := [(2, [4])] } }, 4, by decide +kernel⟩,
    ⟨1000, 2, 2, 9, 0, 0, default, .stripe 0x10005 3 0, { ready with graphs := { poison := [(2, [4, 9, 12, 13])] } },
      ((served ({ ready with graphs := { poison := [(2, [4, 9, 12, 13])] } }) (1000) (2) (9) (0) (0) (default) (.stripe 0x10005 3 0)).getD ({ ready with graphs := { poison := [(2, [4, 9, 12, 13])] } })),
      by rw [atStack_iff]; decide +kernel⟩⟩

theorem test_StackMemory_met_a :
  (∃ (t : Time) (h cmd b retries : Nat) (e : BitVec 544) (wait : List Nat) (x : Holds) (s v : State), h < 20 ∧ s.stackUp h = true ∧ b < stackBlocks ∧
    s.AtStack t h b retries e wait x v ∧ b ∉ s.poisoned h ∧ (readWord (v.stored h b)).1 ≠ .bad ∧ cmd = 0) ∧
  (∃ (t : Time) (h cmd b retries : Nat) (e : BitVec 544) (wait : List Nat) (x : Holds) (s v : State), h < 20 ∧ s.stackUp h = true ∧ b < stackBlocks ∧
    s.AtStack t h b retries e wait x v ∧ b ∉ s.poisoned h ∧ (readWord (v.stored h b)).1 ≠ .bad ∧ (cmd = 3 ∨ (5 ≤ cmd ∧ cmd ≤ 9))) ∧
  (∃ (t : Time) (h cmd b retries : Nat) (e : BitVec 544) (wait : List Nat) (x : Holds) (s v : State), h < 20 ∧ s.stackUp h = true ∧ b < stackBlocks ∧
    s.AtStack t h b retries e wait x v ∧ b ∉ s.poisoned h ∧ (readWord (v.stored h b)).1 ≠ .bad ∧ (
      let r := if (readWord (v.stored h b)).1 = .corrected then v.correctedRead h else v
      cmd = 4 ∧ r.partner h b ∉ r.poisoned h ∧ (readWord (r.stored h (r.partner h b))).1 ≠ .bad)) ∧
  (∃ (h b : Nat) (s : State) (g k : Nat), s.slotAt h b = none ∧ (g, k) ≠ (h, b)) ∧
  (∃ (lo hi : Nat), lo < 2 ^ 128 ∧ hi < 2 ^ 128 ∧ wrapInt 128 (signed 64 (hi % 2 ^ 64)) = hi) ∧
  (∃ (t : Time) (h cmd b : Nat) (wait : List Nat) (x : Holds) (s v : State), h < 20 ∧ s.stackUp h = true ∧ cmd ≤ 9 ∧ b < stackBlocks ∧
    (s.begin t).serve h (holdsClass (s.holdsAt h b x)) wait = some v) ∧
  (∃ (t : Time) (h cmd b : Nat) (wait : List Nat) (x : Holds) (s : State), h < 20 ∧ s.stackUp h = true ∧ cmd ≤ 9 ∧ b < stackBlocks ∧
    (s.begin t).serve h (holdsClass (s.holdsAt h b x)) wait = none) ∧
  (∃ (weights : Nat) (turn : Nat × Nat) (wait : List Nat) (c left : Nat), serveNext weights turn wait = some (c, left) ∧ 0 < turn.2 ∧
    0 < wait.getD turn.1 0) ∧
  (∃ (weights : Nat) (turn : Nat × Nat) (wait : List Nat) (c left i k : Nat), serveNext weights turn wait = some (c, left) ∧
    (turn.2 = 0 ∨ wait.getD turn.1 0 = 0) ∧ i < 4 ∧ (turn.1 + 1 + i) % 4 = c ∧ k < i) :=
  ⟨⟨1000, 2, 0, 9, 1, BitVec.ofNat 544 (5 * 2 ^ 80), default, .stripe 0x10005 3 0, ready,
    ((served (ready) (1000) (2) (9) (1) (BitVec.ofNat 544 (5 * 2 ^ 80)) (default) (.stripe 0x10005 3 0)).getD (ready)),
    by rw [atStack_iff]; decide +kernel⟩,
    ⟨1000, 2, 9, 9, 1, 0, default, .stripe 0x10005 3 0, ready, ((served (ready) (1000) (2) (9) (1) (0) (default) (.stripe 0x10005 3 0)).getD (ready)),
      by rw [atStack_iff]; decide +kernel⟩,
    ⟨1000, 2, 4, 9, 1, 0, default, .stripe 0x10005 3 0, ready, ((served (ready) (1000) (2) (9) (1) (0) (default) (.stripe 0x10005 3 0)).getD (ready)),
      by rw [atStack_iff]; decide +kernel⟩,
    ⟨2, 9, ready, 2, 10, by decide +kernel⟩,
    ⟨2 ^ 128 - 1, 5, by decide +kernel⟩,
    ⟨1000, 2, 0, 9, default, .stripe 0x10005 3 0, ready,
      (((ready).begin (1000)).serve (2) (holdsClass ((ready).holdsAt (2) (9) (.stripe 0x10005 3 0))) (default)).getD (ready), by decide +kernel⟩,
    ⟨1000, 2, 0, 9, [1, 0, 0, 0], .stripe 0x10005 3 0, { ready with graphs := { arb := [(2, (0, 3))] } }, by decide +kernel⟩,
    ⟨0x02030405, (1, 2), [1, 1, 0, 0], 1, 1, by decide +kernel⟩,
    ⟨0x02030405, (1, 0), [1, 1, 0, 0], 0, 1, 2, 1, by decide +kernel⟩⟩

theorem test_StackMemory_met_b :
  (∃ (t : Time) (h : Nat) (e : BitVec 544) (wait : List Nat) (s : State), h < 20 ∧ s.stackUp h = true ∧ (
      let b := s.graphs.scrubAt.getD h 0
      let w := ((s.begin t).scrubNext h).upset h b e
      (wait.any (fun n => decide (0 < n)) = false ∨ (s.begin t).scrubLate h = true) ∧ b ∉ s.poisoned h ∧ (readWord (w.stored h b)).1 = .clean)) ∧
  (∃ (t : Time) (h : Nat) (e : BitVec 544) (wait : List Nat) (s : State), h < 20 ∧ s.stackUp h = true ∧ (
      let b := s.graphs.scrubAt.getD h 0
      let w := ((s.begin t).scrubNext h).upset h b e
      (wait.any (fun n => decide (0 < n)) = false ∨ (s.begin t).scrubLate h = true) ∧ b ∉ s.poisoned h ∧ (readWord (w.stored h b)).1 = .corrected ∧
        ((w.graphs.upsets.getD h []).get? b).isSome = true)) ∧
  (∃ (t : Time) (h : Nat) (wait : List Nat) (s : State), h < 20 ∧ s.stackUp h = true ∧ wait.any (fun n => decide (0 < n)) = true ∧
    (s.begin t).scrubLate h = false) ∧
  (∃ (h : Nat) (s : State), h < 20 ∧ s.stackUp h = false) ∧
  (∃ (t : Time) (h : Nat) (temp : Int) (s : State), h < 20 ∧ s.stackUp h = true ∧ (
      let w := (s.begin t).wr E.stackTemp h (wrapInt 16 temp)
      temp ≤ 85 * 16 ∧ (82 * 16 < temp ∨ w.rd E.refreshMode h ≠ 1))) ∧
  (∃ (t : Time) (h : Nat) (temp : Int) (s : State), h < 20 ∧ s.stackUp h = true ∧ (
      let w := (s.begin t).wr E.stackTemp h (wrapInt 16 temp)
      temp ≤ 82 * 16 ∧ w.rd E.refreshMode h = 1)) ∧
  (∃ (t : Time) (h : Nat) (temp : Int) (s : State), h < 20 ∧ s.stackUp h = true ∧ (
      let w := (s.begin t).wr E.stackTemp h (wrapInt 16 temp)
      85 * 16 < temp ∧ temp ≤ 95 * 16 ∧ w.rd E.refreshMode h = 0)) ∧
  (∃ (t : Time) (h : Nat) (temp : Int) (s : State), h < 20 ∧ s.stackUp h = true ∧ (
      let w := (s.begin t).wr E.stackTemp h (wrapInt 16 temp)
      85 * 16 < temp ∧ w.rd E.refreshMode h ≠ 0 ∧ temp ≤ 105 * 16)) ∧
  (∃ (t : Time) (h : Nat) (temp : Int) (s : State), h < 20 ∧ s.stackUp h = true ∧ (
      let w := (s.begin t).wr E.stackTemp h (wrapInt 16 temp)
      105 * 16 < temp ∧ w.rd E.refreshMode h ≠ 0)) :=
  ⟨⟨1000, 2, 0, default, ready, by decide +kernel⟩,
    ⟨1000, 2, BitVec.ofNat 544 (5 * 2 ^ 80), default, ready, by decide +kernel⟩,
    ⟨1000, 2, [0, 1, 0, 0], ready, by decide +kernel⟩,
    ⟨2, ready.wr E.stackState 2 1, by decide +kernel⟩,
    ⟨1000, 2, 85 * 16, ready, by decide +kernel⟩,
    ⟨1000, 2, 82 * 16, ready.wr E.refreshMode 2 1, by decide +kernel⟩,
    ⟨1000, 2, 95 * 16, ready, by decide +kernel⟩,
    ⟨1000, 2, 105 * 16, ready.wr E.refreshMode 2 1, by decide +kernel⟩,
    ⟨1000, 2, 105 * 16 + 1, ready.wr E.refreshMode 2 1, by decide +kernel⟩⟩

theorem test_StackMemory_met_c :
  (∃ (t : Time) (h : Nat) (temp : Int) (s : State), h < 20 ∧ s.stackUp h = true ∧ (
      let w := (s.begin t).wr E.stackTemp h (wrapInt 16 temp)
      95 * 16 < temp ∧ w.rd E.refreshMode h = 0)) ∧
  (∃ (a : Access) (v : BitVec 64) (s : State),
      let spill := bits v.toNat 63 48
      let spawn := bits v.toNat 47 32
      let sample := bits v.toNat 31 16
      let fits := 20 ≤ spill ∧ spill ≤ 768 ∧ spawn ≤ 256 ∧ 2 ≤ sample ∧ sample ≤ 64 ∧ 832 + spill + spawn + sample ≤ 1920
      let busy := s.coll.ctxs ≠ [] ∨ s.graphs.tensors.any (fun (x : Nat × Tensor) => x.2.admitted) = true ∨ s.spawns.any (fun (x : Nat × Session) => !x.2.data.isEmpty) = true
      s.Takes a E.partRequest 0 8 0 true ∧ ¬busy ∧ fits) ∧
  (∃ (a : Access) (v : BitVec 64) (s : State),
      let spill := bits v.toNat 63 48
      let spawn := bits v.toNat 47 32
      let sample := bits v.toNat 31 16
      let fits := 20 ≤ spill ∧ spill ≤ 768 ∧ spawn ≤ 256 ∧ 2 ≤ sample ∧ sample ≤ 64 ∧ 832 + spill + spawn + sample ≤ 1920
      let busy := s.coll.ctxs ≠ [] ∨ s.graphs.tensors.any (fun (x : Nat × Tensor) => x.2.admitted) = true ∨ s.spawns.any (fun (x : Nat × Session) => !x.2.data.isEmpty) = true
      s.Takes a E.partRequest 0 8 0 true ∧ (busy ∨ ¬fits)) :=
  ⟨⟨1000, 2, 105 * 16 + 1, ready, by decide +kernel⟩,
    ⟨acc, BitVec.ofNat 64 (pack [(16, 768), (16, 256), (16, 64), (16, 0)]), ready, by unfold State.Takes; decide +kernel⟩,
    ⟨acc, BitVec.ofNat 64 (pack [(16, 768), (16, 256), (16, 64), (16, 0)]), home ctx1, by unfold State.Takes; decide +kernel⟩⟩

theorem test_FramesThroughTheSwitch_met_a :
  (∃ (port : Nat) (s : State), s.isUp port = false) ∧
  (∃ (port buffered : Nat) (b : List Byte) (s : State),
      let d := dieOf port
      s.isUp port = true ∧ s.attachFull d (buffered + b.length) = true) ∧
  (∃ (port buffered : Nat) (first : Byte) (b : List Byte) (s : State),
      let d := dieOf port
      s.isUp port = true ∧ s.attachFull d (buffered + b.length) = false ∧ first ≠ 0xD7) ∧
  (∃ (t : Time) (port buffered : Nat) (first : Byte) (b : List Byte) (s : State),
      let d := dieOf port
      let w := (s.begin t).arrives port b.length
      s.isUp port = true ∧ s.attachFull d (buffered + b.length) = false ∧ first = 0xD7 ∧ (w.port port).mftNow = false) ∧
  (∃ (t : Time) (port buffered : Nat) (first : Byte) (b : List Byte) (s : State),
      let d := dieOf port
      let w := (s.begin t).arrives port b.length
      s.isUp port = true ∧ s.attachFull d (buffered + b.length) = false ∧ first = 0xD7 ∧ (w.port port).mftNow = true ∧
        (b.length < 64 ∨ 4608 < b.length)) ∧
  (∃ (t : Time) (port buffered : Nat) (first : Byte) (b : List Byte) (s : State),
      let d := dieOf port
      let w := (s.begin t).arrives port b.length
      s.isUp port = true ∧ s.attachFull d (buffered + b.length) = false ∧ first = 0xD7 ∧ (w.port port).mftNow = true ∧ 64 ≤ b.length ∧
        b.length ≤ 4608 ∧ crc64 (b.take (b.length - 8)) ≠ field b (b.length - 8) 8) ∧
  (∃ (t : Time) (port buffered : Nat) (first : Byte) (b : List Byte) (s : State),
      let d := dieOf port
      let w := (s.begin t).arrives port b.length
      s.isUp port = true ∧ s.attachFull d (buffered + b.length) = false ∧ first = 0xD7 ∧ (w.port port).mftNow = true ∧ 64 ≤ b.length ∧
        b.length ≤ 4608 ∧ crc64 (b.take (b.length - 8)) = field b (b.length - 8) 8) ∧
  (∃ (port buffered : Nat) (b : List Byte) (s : State),
      let d := dieOf port
      s.isUp port = true ∧ s.attachFull d (buffered + b.length) = false ∧ (b.length < 64 ∨ 9216 < b.length)) ∧
  (∃ (port buffered : Nat) (b : List Byte) (s : State),
      let d := dieOf port
      s.isUp port = true ∧ s.attachFull d (buffered + b.length) = false ∧ 64 ≤ b.length ∧ b.length ≤ 9216 ∧
        fcsBytes (b.take (b.length - 4)) ≠ b.drop (b.length - 4)) :=
  ⟨⟨0, ready, by decide +kernel⟩,
    ⟨0, 4194304, List.replicate 64 0, (((ready.wr E.portState 0 2)).wr E.moduleState 3 4), by decide +kernel⟩,
    ⟨0, 0, 0xD6, List.replicate 64 0, (ready.wr E.portState 0 2), by decide +kernel⟩,
    ⟨1000, 0, 0, 0xD7, List.replicate 64 0, ((ready.wr E.portState 0 2).setPort 0 { mftNow := false }), by decide +kernel⟩,
    ⟨1000, 0, 0, 0xD7, List.replicate 63 0, (ready.wr E.portState 0 2), by decide +kernel⟩,
    ⟨1000, 0, 0, 0xD7, (let b : List Byte := List.replicate 64 0; b ++ [0, 0, 0, 0, 0, 0, 0, 1]), (ready.wr E.portState 0 2), by decide +kernel⟩,
    ⟨1000, 0, 0, 0xD7, (let b : List Byte := List.replicate 56 0; b ++ toBytes 8 (crc64 b)), (ready.wr E.portState 0 2), by decide +kernel⟩,
    ⟨0, 0, List.replicate 63 0, (ready.wr E.portState 0 2), by decide +kernel⟩,
    ⟨0, 0, List.replicate 63 0 ++ [1], (ready.wr E.portState 0 2), by decide +kernel⟩⟩

theorem test_FramesThroughTheSwitch_met_b :
  (∃ (port buffered : Nat) (b : List Byte) (s : State),
      let d := dieOf port
      s.isUp port = true ∧ s.attachFull d (buffered + b.length) = false ∧ 64 ≤ b.length ∧ b.length ≤ 9216 ∧
        fcsBytes (b.take (b.length - 4)) = b.drop (b.length - 4)) ∧
  (∃ (cls : Nat) (f : Mft) (r : List (Nat × Mft)) (s : State), s.net.waiting = (cls, f) :: r) ∧
  (∃ (port : Nat) (s : State) (c : Nat) (b : BitVec 192) (r : List (Nat × BitVec 192)), s.held port = false ∧ (s.port port).linkQueue = (c, b) :: r) ∧
  (∃ (t : Time) (port : Nat) (s : State) (k : Pick) (u : State), s.held port = false ∧ (s.port port).linkQueue = [] ∧ s.isUp port = true ∧
    (s.port port).sending = none ∧ (
      let w := (List.range 9).foldl (fun (s : State) k => s.prepareQueue port k) (s.begin t)
      ((w.circuitsOf port).foldl (fun (s : State) c => s.prepareCirc port c) w).pickTier port = (some k, u))) ∧
  (∃ (frame owner : Nat) (f : Stored) (s : State), findFrame s.net.frames frame = some f ∧ 1024 ≤ owner) ∧
  (∃ (frame owner : Nat) (f : Stored) (s : State), findFrame s.net.frames frame = some f ∧ owner < 1024 ∧
    (s.port owner).sending.map (·.frame) = some frame ∧ f.inPort ≠ noPort) ∧
  (∃ (frame owner : Nat) (f : Stored) (s : State) (m : Mft), findFrame s.net.frames frame = some f ∧ owner < 1024 ∧
    (s.port owner).sending.map (·.frame) = some frame ∧ f.packet = .mft m ∧ m.hdr.ptype = 2 ∧ f.inPort = noPort) ∧
  (∃ (port : Nat) (s : State), (s.port port).mftNow = false) ∧
  (∃ (port : Nat) (body : BitVec 192) (s : State), (s.port port).mftNow = true ∧ linkFormOk body 1 = false) :=
  ⟨⟨0, 0, (let b : List Byte := List.replicate 60 0; b ++ fcsBytes b), (ready.wr E.portState 0 2), by decide +kernel⟩,
    ⟨8, leafFrame, [], { ready with net := { waiting := [(8, leafFrame)] } }, by decide +kernel⟩,
    ⟨0, (ready.setPort 0 { linkQueue := [(5, 7), (6, 8)] }), 5, 7, [(6, 8)], by decide +kernel⟩,
    ⟨1000, 0, queued, picked.1.getD (.circ 0 false), picked.2, by decide +kernel⟩,
    ⟨4, 1024, { kept with owners := [1, 3], localOwner := true },
      { ready with net := { ready.net with frames := [{ kept with owners := [1, 3], localOwner := true }] } }, by decide +kernel⟩,
    ⟨4, 1, { kept with inPort := 7 }, { ((ready.setPort 1 { sending := some ⟨4, 100, 0⟩ })) with net := { ((ready.setPort 1 { sending := some ⟨4, 100, 0⟩ })).net with frames := [{ kept with inPort := 7 }] } },
      by decide +kernel⟩,
    ⟨4, 1, { kept with inPort := noPort }, { ((ready.setPort 1 { sending := some ⟨4, 100, 0⟩ })) with net := { ((ready.setPort 1 { sending := some ⟨4, 100, 0⟩ })).net with frames := [{ kept with inPort := noPort }] } },
      leafFrame, by decide +kernel⟩,
    ⟨0, ((ready.wr E.portState 0 2).setPort 0 { mftNow := false }), by decide +kernel⟩,
    ⟨0, 0, ready, by decide +kernel⟩⟩

theorem test_FramesThroughTheSwitch_met_c :
  (∃ (port : Nat) (body : BitVec 192) (s : State), (s.port port).mftNow = true ∧ linkFormOk body 2 = false) ∧
  (∃ (port : Nat) (body : BitVec 192) (s : State), (s.port port).mftNow = true ∧ linkFormOk body 1 = true) ∧
  (∃ (port : Nat) (body : BitVec 192) (s : State), (s.port port).mftNow = true ∧ linkFormOk body 2 = true) ∧
  (∃ (t : Time) (port : Nat) (s : State), (s.port port).mftNow = true ∧ (s.begin t).takeCells (dieOf port) 3 1 = none) ∧
  (∃ (t : Time) (port : Nat) (s : State) (c : Nat) (u : State), (s.port port).mftNow = true ∧ (s.begin t).takeCells (dieOf port) 3 1 = some ([c],
    u)) ∧
  (∃ (die q : Nat) (d : Queue) (s : State), (q, d) ∈ s.net.queues ∧ (∀ x ∈ s.net.queues, x.1 = q → x.2 = d) ∧ q / 1152 = die ∧ d.descs ≠ []) :=
  ⟨⟨0, 0, ready, by decide +kernel⟩,
    ⟨0, BitVec.ofNat 192 (1 * 2 ^ 188 + 1 * 2 ^ 184 + 0xFF * 2 ^ 176 + 7 * 2 ^ 160 + 2 ^ 136), ready, by decide +kernel⟩,
    ⟨0, BitVec.ofNat 192 (1 * 2 ^ 188 + 2 * 2 ^ 184 + 0xFF * 2 ^ 176 + 7 * 2 ^ 160 + 2 ^ 136), ready, by decide +kernel⟩,
    ⟨1000, 0, ready.wr E.poolFree 3 0, by decide +kernel⟩,
    ⟨1000, 0, ready, 0, ((((ready).begin 1000).takeCells 0 3 1).map (·.2)).getD (ready), by decide +kernel⟩,
    ⟨1, 1152, { shaper := 0, descs := [⟨4, 5000, 0, 1, .port false, 7, 0, false, false, false⟩] },
      { ready with net := { queues := [(3, { shaper := 0 }), (1152, { shaper := 0, descs := [⟨4, 5000, 0, 1, .port false, 7, 0, false, false, false⟩] })] } },
      by decide +kernel⟩⟩

theorem test_CellsFreedByLastOwner_met :
  (∃ (id owner : Nat) (f : Stored) (s : State), findFrame s.net.frames id = some f ∧
    (if owner = ownerLocal then f.localOwner = false else owner ∉ f.owners)) ∧
  (∃ (id owner : Nat) (f : Stored) (s : State), findFrame s.net.frames id = some f ∧ owner ≠ ownerLocal ∧ owner ∈ f.owners ∧
    (f.owners.erase owner ≠ [] ∨ f.localOwner = true)) ∧
  (∃ (id : Nat) (f : Stored) (s : State), findFrame s.net.frames id = some f ∧ f.localOwner = true ∧ f.owners ≠ []) ∧
  (∃ (id : Nat) (f : Stored) (s : State), findFrame s.net.frames id = some f ∧ f.localOwner = true ∧ f.owners = []) ∧
  (∃ (id owner : Nat) (f : Stored) (s : State), findFrame s.net.frames id = some f ∧ owner ≠ ownerLocal ∧ f.owners = [owner] ∧
    f.localOwner = false) :=
  ⟨⟨4, 9, { kept with owners := [1, 3], localOwner := true },
    { ready with net := { ready.net with frames := [{ kept with owners := [1, 3], localOwner := true }] } }, by decide +kernel⟩,
    ⟨4, 3, { kept with owners := [1, 3], localOwner := true },
      { ready with net := { ready.net with frames := [{ kept with owners := [1, 3], localOwner := true }] } }, by decide +kernel⟩,
    ⟨4, { kept with owners := [1, 3], localOwner := true },
      { ready with net := { ready.net with frames := [{ kept with owners := [1, 3], localOwner := true }] } }, by decide +kernel⟩,
    ⟨4, { kept with owners := [], localOwner := true },
      { ready with net := { ready.net with frames := [{ kept with owners := [], localOwner := true }] } }, by decide +kernel⟩,
    ⟨4, 3, { kept with owners := [3], localOwner := false, inPort := 7 },
      { ready with net := { ready.net with frames := [{ kept with owners := [3], localOwner := false, inPort := 7 }] } }, by decide +kernel⟩⟩

theorem test_PortsAndSwitchTables_met_a :
  (∃ (a : Access) (d : List Byte) (s : State), s.Takes a E.sprayWrite 0 d.length 0 true ∧ sprayRule d (s.begin a.t) = .ok) ∧
  (∃ (a : Access) (v : BitVec 128) (s : State), s.Takes a E.circuitWrite 0 16 0 true ∧ circuitRule v (s.begin a.t) = .ok) ∧
  (∃ (a : Access) (d : List Byte) (s : State), s.Takes a E.mcastWrite 0 d.length 0 true ∧ mcastRule State.graphNames d (s.begin a.t) = .ok) ∧
  (∃ (index : Nat) (v : Versioned Spray) (s : State), s.net.sprays.get? index = some v ∧ v.draining = true ∧ v.oldHeld = 0) ∧
  (∃ (t : Time) (index : Nat) (v : Versioned Spray) (s : State), s.net.sprays.get? index = some v ∧ v.draining = true ∧ v.slow = false ∧
    v.since + 100 * ms ≤ t) ∧
  (∃ (index : Nat) (v : Versioned (BitVec 128)) (s : State), s.net.circuits.get? index = some v ∧ v.draining = true ∧ v.oldHeld = 0) ∧
  (∃ (t : Time) (index : Nat) (v : Versioned (BitVec 128)) (s : State), s.net.circuits.get? index = some v ∧ v.draining = true ∧ v.slow = false ∧
    v.since + 100 * ms ≤ t) ∧
  (∃ (table index : Nat) (v : Versioned (List Nat)) (s : State), 2 ≤ table ∧ s.net.mcasts.get? index = some v ∧ v.draining = true ∧ v.oldHeld = 0) ∧
  (∃ (t : Time) (table index : Nat) (v : Versioned (List Nat)) (s : State), 2 ≤ table ∧ s.net.mcasts.get? index = some v ∧ v.draining = true ∧
    v.slow = false ∧ v.since + 100 * ms ≤ t) :=
  ⟨⟨acc, ((toBytes 2 7 ++ toBytes 2 0xFFFF ++ toBytes 1 2 ++ toBytes 7 0 ++ toBytes 2 1 ++ toBytes 2 3) ++ List.replicate 124 0), ready,
    by unfold State.Takes; decide +kernel⟩,
    ⟨acc, BitVec.ofNat 128 (pack [(11, 7), (2, 1), (11, 0), (11, 10), (16, 0), (16, 100), (61, 0)]), ready, by unfold State.Takes; decide +kernel⟩,
    ⟨acc, ((toBytes 2 7 ++ toBytes 2 2 ++ toBytes 4 0 ++ toBytes 2 1 ++ toBytes 2 3) ++ List.replicate 2044 0), ready,
      by unfold State.Takes; decide +kernel⟩,
    ⟨7, { cur := ⟨[], 0⟩, draining := true, since := 5  },
      { ready with net := { ready.net with sprays := [(7, { cur := ⟨[], 0⟩, draining := true, since := 5  })] } }, by decide +kernel⟩,
    ⟨5 + 100 * ms, 7, { cur := ⟨[], 0⟩, draining := true, since := 5  },
      { ready with net := { ready.net with sprays := [(7, { cur := ⟨[], 0⟩, draining := true, since := 5  })] } }, by decide +kernel⟩,
    ⟨7, { cur := 0, draining := true, since := 5  },
      { ready with net := { ready.net with circuits := [(7, { cur := 0, draining := true, since := 5  })] } }, by decide +kernel⟩,
    ⟨5 + 100 * ms, 7, { cur := 0, draining := true, since := 5  },
      { ready with net := { ready.net with circuits := [(7, { cur := 0, draining := true, since := 5  })] } }, by decide +kernel⟩,
    ⟨2, 7, { cur := [], draining := true, since := 5  },
      { ready with net := { ready.net with mcasts := [(7, { cur := [], draining := true, since := 5  })] } }, by decide +kernel⟩,
    ⟨5 + 100 * ms, 2, 7, { cur := [], draining := true, since := 5  },
      { ready with net := { ready.net with mcasts := [(7, { cur := [], draining := true, since := 5  })] } }, by decide +kernel⟩⟩

theorem test_PortsAndSwitchTables_met_b :
  (∃ (port : Nat) (s : State), s.held port = false) ∧
  (∃ (t f : Time) (port : Nat) (s : State), (s.port port).faultSince = some f ∧ f + s.rd E.portDownHold 0 ≤ t ∧ s.rd E.portState port = 2) ∧
  (∃ (t : Time) (port : Nat) (s : State), (s.begin t).mayComeUp port = true) ∧
  (∃ (a : Access) (port v : Nat) (s : State), s.Takes a E.portAdmin port 1 v true ∧ portAdminRule port v (s.begin a.t) = .ok ∧
    s.portExists port = true ∧ v ≠ 0) ∧
  (∃ (a : Access) (port v : Nat) (s : State), s.Takes a E.portAdmin port 1 v true ∧ portAdminRule port v (s.begin a.t) = .ok ∧
    s.portExists port = true ∧ (
      let w := (s.commitAt a).wr E.portAdmin port v
      v = 0 ∧ w.rd E.portState port = 2)) ∧
  (∃ (a : Access) (port v : Nat) (s : State), s.Takes a E.portAdmin port 1 v true ∧ portAdminRule port v (s.begin a.t) = .ok ∧
    s.portExists port = true ∧ (
      let w := (s.commitAt a).wr E.portAdmin port v
      v = 0 ∧ w.rd E.portState port = 3)) ∧
  (∃ (a : Access) (port v : Nat) (s : State), s.Takes a E.portAdmin port 1 v true ∧ portAdminRule port v (s.begin a.t) = .ok ∧
    s.portExists port = true ∧ (
      let w := (s.commitAt a).wr E.portAdmin port v
      v = 0 ∧ w.rd E.portState port ≠ 2 ∧ w.rd E.portState port ≠ 3)) :=
  ⟨⟨0, ready, by decide +kernel⟩,
    ⟨1000 * sec, 5, 0, ((ready.wr E.portState 0 2).setPort 0 { faultSince := some 5 }), by decide +kernel⟩,
    ⟨sec, 0, (((ready.wr E.portState 0 1).wr E.portAdmin 0 1).setPort 0 { mftNow := false, okSince := some 0 }), by decide +kernel⟩,
    ⟨acc, 0, 1, ready, by unfold State.Takes; decide +kernel⟩,
    ⟨acc, 0, 0, (ready.wr E.portState 0 2), by unfold State.Takes; decide +kernel⟩,
    ⟨acc, 0, 0, ready.wr E.portState 0 3, by unfold State.Takes; decide +kernel⟩,
    ⟨acc, 0, 0, ready.wr E.portState 0 1, by unfold State.Takes; decide +kernel⟩⟩

theorem test_TrafficCommands_met :
  (∃ (a : Access) (v : BitVec 128) (s : State) (j : Nat),
      let i := 9 * bits v.toNat 127 117 + bits v.toNat 116 113
      s.Takes a E.shaperWrite 0 16 0 true ∧ shaperRule v (s.begin a.t) = .ok ∧ j ≠ i) ∧
  (∃ (a : Access) (v : BitVec 64) (s : State), s.Takes a E.policerWrite 0 8 0 true ∧ policerRule v (s.begin a.t) = .ok) ∧
  (∃ (a : Access) (d : List Byte) (s : State), s.Takes a E.gateWrite 0 d.length 0 true ∧ gateRule d (s.begin a.t) = .ok) ∧
  (∃ (t : Time) (port : Nat) (l : GateList) (c : Time) (s : State), (s.gatesOf port).pend = some l ∧ (s.gatesOf port).changeAt = some c ∧ c ≤ t ∧
    (s.clock.own = false ∨ (l.lock = false ∧ ∀ o, (s.gatesOf port).oper = some o → o.lock = false))) ∧
  (∃ (t : Time) (port : Nat) (l : GateList) (c : Time) (s : State), (s.gatesOf port).pend = some l ∧ (s.gatesOf port).changeAt = some c ∧ c ≤ t ∧
    s.clock.own = true ∧ (l.lock = true ∨ ∃ o, (s.gatesOf port).oper = some o ∧ o.lock = true)) ∧
  (∃ (t : Time) (port : Nat) (l : GateList) (s : State), (s.gatesOf port).oper = some l ∧ (
      let g := s.gatesOf port
      let e := g.entryAt + intervalAt l g.index * ns
      e ≤ t)) ∧
  (∃ (a : Access) (v : Nat) (s : State), s.Takes a E.groupChange 0 12 v true) ∧
  (∃ (a : Access) (v : Nat) (s : State), s.Takes a E.groupCycle 0 4 v true ∧ groupCycleRule v (s.begin a.t) = .ok) ∧
  (∃ (q : Nat) (d : Queue) (s : State), (q, d) ∈ s.net.queues ∧ (∀ x ∈ s.net.queues, x.1 < 2 ^ 24 ∧ (x.1 = q → x.2 = d))) :=
  ⟨⟨acc, BitVec.ofNat 128 (pack [(11, 0), (4, 3), (21, 10000), (21, 0), (24, 65536), (24, 65536), (8, 1), (15, 0)]), ready, 9,
    by unfold State.Takes; decide +kernel⟩,
    ⟨acc, BitVec.ofNat 64 (pack [(11, 2), (3, 1), (1, 1), (4, 0), (21, 100), (24, 10000)]), ready, by unfold State.Takes; decide +kernel⟩,
    ⟨acc, (toBytes 16 (pack [(11, 0), (9, 1), (1, 0), (13, 0), (32, 5), (30, 7), (32, 1000000)]) ++ toBytes 4 1000000 ++ toBytes 4 1023), ready,
      by unfold State.Takes; decide +kernel⟩,
    ⟨1000, 0, ⟨false, 5, 1000000, [(500000, 1023), (500000, 1)]⟩, 5,
      ready.setGates 0 { pend := some ⟨false, 5, 1000000, [(500000, 1023), (500000, 1)]⟩, changeAt := some 5 }, by decide +kernel⟩,
    ⟨1000, 0, ⟨true, 5, 1000000, [(500000, 1023), (500000, 1)]⟩, 5,
      { ready.setGates 0 { pend := some ⟨true, 5, 1000000, [(500000, 1023), (500000, 1)]⟩, changeAt := some 5 } with clock := { ready.clock with own := true } },
      by decide +kernel⟩,
    ⟨sec, 0, ⟨false, 5, 1000000, [(500000, 1023), (500000, 1)]⟩, ready.setGates 0 { oper := some ⟨false, 5, 1000000, [(500000, 1023), (500000, 1)]⟩ },
      by decide +kernel⟩,
    ⟨acc, 0, ready, by unfold State.Takes; decide +kernel⟩,
    ⟨acc, 1000, ready, by unfold State.Takes; decide +kernel⟩,
    ⟨3, { shaper := 0, maxNow := 9, sumNow := 10, cntNow := 3 },
      { ready with net := { ready.net with queues := [(3, { shaper := 0, maxNow := 9, sumNow := 10, cntNow := 3 })] } }, by decide +kernel⟩⟩

theorem test_ForwardingTables_met_a :
  (∃ (a : Access) (v : BitVec 64) (s : State), s.Takes a E.geiExactWrite 0 8 0 true ∧ geiExactRule v (s.begin a.t) = .ok) ∧
  (∃ (a : Access) (s : State), s.Takes a E.geiQuery 0 8 0 true) ∧
  (∃ (a : Access) (v : Nat) (s : State), s.Takes a E.addrMode 0 1 v true ∧ s.net.addrs.any (fun d => !d.2.isEmpty) = false) ∧
  (∃ (a : Access) (v : Nat) (s : State), s.Takes a E.addrMode 0 1 v true ∧ s.net.addrs.any (fun d => !d.2.isEmpty) = true) ∧
  (∃ (a : Access) (v : BitVec 128) (s : State), s.Takes a E.addrWrite 0 16 0 true ∧ addrRule v (s.begin a.t) = .ok) ∧
  (∃ (v : BitVec 128) (s : State), bits v.toNat 127 126 = 0 ∧ s.namesDown (bits v.toNat 51 36) = true) ∧
  (∃ (v : BitVec 128) (s : State), bits v.toNat 127 126 = 0 ∧ s.namesDown (bits v.toNat 51 36) = false) ∧
  (∃ (v : BitVec 128) (k : Nat),
      let key := addrKey (bits v.toNat 111 100) (bits v.toNat 99 52)
      bits v.toNat 127 126 = 1 ∧ k ≠ key) ∧
  (∃ (die key : Nat) (e : AddrEntry) (s : State) (k : Nat), (s.addrPut die key e).1 = true ∧ k ≠ key) :=
  ⟨⟨acc, BitVec.ofNat 64 (7 * 2 ^ 40 + 2 ^ 39 + 3), ready, by unfold State.Takes; decide +kernel⟩,
    ⟨acc, { ready with net := { ready.net with exact := [(7, 3)] } }, by unfold State.Takes; decide +kernel⟩,
    ⟨acc, 1, ready, by unfold State.Takes; decide +kernel⟩,
    ⟨acc, 1, (ready.setAddrTab 0 [(addrKey 5 0x020000000001, ⟨3, false, 0, true⟩)]), by unfold State.Takes; decide +kernel⟩,
    ⟨acc, BitVec.ofNat 128 (pack [(2, 0), (1, 0), (13, 0), (12, 5), (48, 0x020000000001), (16, 3), (36, 0)]), ready,
      by unfold State.Takes; decide +kernel⟩,
    ⟨BitVec.ofNat 128 (pack [(2, 0), (1, 0), (13, 0), (12, 5), (48, 0x020000000001), (16, 3), (36, 0)]), ready, by decide +kernel⟩,
    ⟨BitVec.ofNat 128 (pack [(2, 0), (1, 0), (13, 0), (12, 5), (48, 0x020000000001), (16, 3), (36, 0)]), ((ready).wr E.portState 3 2),
      by decide +kernel⟩,
    ⟨BitVec.ofNat 128 (pack [(2, 1), (1, 0), (13, 0), (12, 5), (48, 0x020000000001), (16, 3), (36, 0)]), 7, by decide +kernel⟩,
    ⟨0, addrKey 5 0x020000000001, ⟨3, false, 0, true⟩, ready.setAddrTab 0 [(7, ⟨3, false, 0, true⟩)], 7, by decide +kernel⟩⟩

theorem test_ForwardingTables_met_b :
  (∃ (die key : Nat) (e : AddrEntry) (s : State), (s.addrPut die key e).1 = false) ∧
  (∃ (die d : Nat), d ≠ die) ∧
  (∃ (a : Access) (v : BitVec 128) (s w : State) (e : AddrEntry), s.Takes a E.addrQuery 0 16 0 true ∧ (
      let key := addrKey (bits v.toNat 111 100) (bits v.toNat 99 52)
      w.addrFind (bits v.toNat 127 125) key = some e)) ∧
  (∃ (a : Access) (s : State), s.Takes a E.addrFlush 0 8 0 true) ∧
  (∃ (a : Access) (r : BitVec 128) (l : List (BitVec 128)) (s : State), s.Gives a E.learnPop 0 true ∧ s.net.learnQ = r :: l) ∧
  (∃ (die vid mac hop : Nat) (s : State),
      let key := addrKey vid mac
      (die, key, hop) ∉ s.net.spread) ∧
  (∃ (die vid mac hop : Nat) (s : State),
      let key := addrKey vid mac
      (die, key, hop) ∈ s.net.spread ∧ s.namesDown hop = true) ∧
  (∃ (t : Time) (die vid mac hop : Nat) (s : State),
      let key := addrKey vid mac
      let w : State := { s.begin t with net := { s.net with spread := s.net.spread.erase (die, key, hop) } }
      let e : AddrEntry := ⟨hop, false, addrStamp t, true⟩
      (die, key, hop) ∈ s.net.spread ∧ s.namesDown hop = false ∧ s.addrFind die key = none ∧ (w.addrPut die key e).1 = true) ∧
  (∃ (t : Time) (die vid mac hop : Nat) (s : State),
      let key := addrKey vid mac
      let w : State := { s.begin t with net := { s.net with spread := s.net.spread.erase (die, key, hop) } }
      let e : AddrEntry := ⟨hop, false, addrStamp t, true⟩
      (die, key, hop) ∈ s.net.spread ∧ s.namesDown hop = false ∧ s.addrFind die key = none ∧ (w.addrPut die key e).1 = false) :=
  ⟨⟨0, 5, ⟨3, false, 0, true⟩, ready.setAddrTab 0 ([14069, 95466, 172990, 211925].map (fun k => (k, ⟨3, true, 0, true⟩))), by decide +kernel⟩,
    ⟨0, 1, by decide +kernel⟩,
    ⟨acc, BitVec.ofNat 128 (pack [(3, 0), (13, 0), (12, 5), (48, 0x020000000001), (52, 0)]), (ready.setAddrTab 0 [(addrKey 5 0x020000000001, ⟨3,
      false, 0, true⟩)]), (ready.setAddrTab 0 [(addrKey 5 0x020000000001, ⟨3, false, 0, true⟩)]), ⟨3, false, 0, true⟩,
      by unfold State.Takes; decide +kernel⟩,
    ⟨acc, (ready.setAddrTab 0 [(addrKey 5 0x020000000001, ⟨3, false, 0, true⟩)]), by unfold State.Takes; decide +kernel⟩,
    ⟨acc, 7, [8], { ready with net := { ready.net with learnQ := [7, 8], learnFull := true } }, by unfold State.Gives; decide +kernel⟩,
    ⟨0, 5, 0x020000000001, 4, { ready with net := { ready.net with spread := [(0, addrKey 5 0x020000000001, 3)] } }, by decide +kernel⟩,
    ⟨0, 5, 0x020000000001, 3, { ready with net := { ready.net with spread := [(0, addrKey 5 0x020000000001, 3)] } }, by decide +kernel⟩,
    ⟨1000, 0, 5, 0x020000000001, 3, { ((ready).wr E.portState 3 2) with net := { ((ready).wr E.portState 3 2).net with spread := [(0, addrKey 5 0x020000000001, 3)] } },
      by decide +kernel⟩,
    ⟨1000, 0, 0, 5, 3, { ((ready.wr E.portState 3 2).setAddrTab 0 ([14069, 95466, 172990, 211925].map (fun k => (k, ⟨3, true, 0, true⟩)))) with net := { ((ready.wr E.portState 3 2).setAddrTab 0 ([14069, 95466, 172990, 211925].map (fun k => (k, ⟨3, true, 0, true⟩)))).net with spread := [(0, 5, 3)] } },
      by decide +kernel⟩⟩

theorem test_ForwardingTables_met_c :
  (∃ (die vid mac hop : Nat) (s : State) (o : AddrEntry),
      let key := addrKey vid mac
      (die, key, hop) ∈ s.net.spread ∧ s.namesDown hop = false ∧ s.addrFind die key = some o ∧ o.static = true) ∧
  (∃ (die vid mac hop : Nat) (s : State) (o : AddrEntry),
      let key := addrKey vid mac
      (die, key, hop) ∈ s.net.spread ∧ s.namesDown hop = false ∧ s.addrFind die key = some o ∧ o.static = false) ∧
  (∃ (s : State), s.rd E.addrMode 0 ≠ 1) ∧
  (∃ (s : State), s.rd E.addrMode 0 = 1) ∧
  (∃ (a : Access) (v : BitVec 192) (s : State), s.Takes a E.prefixWrite 0 24 0 true ∧ prefixRule v (s.begin a.t) = .ok) ∧
  (∃ (v : BitVec 192) (s : State), s.net.prefixJob = some v) ∧
  (∃ (a : Access) (v : BitVec 128) (s : State), s.Takes a E.nexthopWrite 0 16 0 true ∧ nexthopRule v (s.begin a.t) = .ok) ∧
  (∃ (a : Access) (v : BitVec 192) (s w : State) (n nh : Nat), s.Takes a E.lpmQuery 0 24 0 true ∧
    w.lpm (bits v.toNat 191 189) (bits v.toNat 188 188) (bits v.toNat 127 0) = some (n, nh)) :=
  ⟨⟨0, 5, 0x020000000001, 3, { (((ready.setAddrTab 0 [(addrKey 5 0x020000000001, ⟨3, true, 0, true⟩)])).wr E.portState 3 2) with net := { (((ready.setAddrTab 0 [(addrKey 5 0x020000000001, ⟨3, true, 0, true⟩)])).wr E.portState 3 2).net with spread := [(0, addrKey 5 0x020000000001, 3)] } },
    ⟨3, true, 0, true⟩, by decide +kernel⟩,
    ⟨0, 5, 0x020000000001, 3, { (((ready.setAddrTab 0 [(addrKey 5 0x020000000001, ⟨3, false, 0, true⟩)])).wr E.portState 3 2) with net := { (((ready.setAddrTab 0 [(addrKey 5 0x020000000001, ⟨3, false, 0, true⟩)])).wr E.portState 3 2).net with spread := [(0, addrKey 5 0x020000000001, 3)] } },
      ⟨3, false, 0, true⟩, by decide +kernel⟩,
    ⟨(ready.setAddrTab 0 [(addrKey 5 0x020000000001, ⟨3, false, 0, true⟩)]), by decide +kernel⟩,
    ⟨(ready.setAddrTab 0 [(addrKey 5 0x020000000001, ⟨3, false, 0, true⟩)]).wr E.addrMode 0 1, by decide +kernel⟩,
    ⟨acc, BitVec.ofNat 192 (pack [(2, 0), (1, 0), (8, 8), (14, 9), (39, 0), (128, 10 * 2 ^ 24)]), ready, by unfold State.Takes; decide +kernel⟩,
    ⟨BitVec.ofNat 192 (pack [(2, 0), (1, 0), (8, 8), (14, 9), (39, 0), (128, 10 * 2 ^ 24)]),
      { ready with net := { ready.net with prefixJob := some (BitVec.ofNat 192 (pack [(2, 0), (1, 0), (8, 8), (14, 9), (39, 0), (128, 10 * 2 ^ 24)])) } },
      by decide +kernel⟩,
    ⟨acc, BitVec.ofNat 128 (pack [(14, 9), (2, 0), (12, 5), (48, 0x020000000002), (16, 3), (36, 0)]), ready, by unfold State.Takes; decide +kernel⟩,
    ⟨acc, BitVec.ofNat 192 (pack [(3, 0), (1, 0), (60, 0), (128, 10 * 2 ^ 24 + 1)]),
      { ready with net := { ready.net with prefixes := [(pfxKey 0 8 (10 * 2 ^ 24), 9)] } },
      { ready with net := { ready.net with prefixes := [(pfxKey 0 8 (10 * 2 ^ 24), 9)] } }, 8, 9, by unfold State.Takes; decide +kernel⟩⟩

theorem test_LongestPrefixMatches_met :
  (∃ (fam a n m : Nat), fam ≤ 1 ∧ a < 2 ^ famBits fam ∧ n < m ∧ m ≤ famBits fam) :=
  ⟨0, 10 * 2 ^ 24 + 5, 8, 16, by decide +kernel⟩

theorem test_FibersLasersAndMonitors_met_a :
  (∃ (a : Access) (fiber v : Nat) (s : State), s.Takes a E.fiberMode fiber 1 v true ∧ (∀ k,
    k < 4 → s.portExists (4 * fiber + k) = true → s.rd E.portAdmin (4 * fiber + k) = 0)) ∧
  (∃ (a : Access) (fiber v : Nat) (s : State), s.Takes a E.fiberMode fiber 1 v true ∧ (∃ k, k < 4 ∧ s.portExists (4 * fiber + k) = true ∧
    s.rd E.portAdmin (4 * fiber + k) ≠ 0)) ∧
  (∃ (a : Access) (port v : Nat) (s : State), s.Takes a E.narrowEn port 1 v true ∧ (v ≠ 1 ∨ s.rd E.portMft port ≠ 0)) ∧
  (∃ (a : Access) (port v : Nat) (s : State), s.Takes a E.narrowEn port 1 v true ∧ v = 1 ∧ s.rd E.portMft port = 0) ∧
  (∃ (port : Nat) (s : State), port < 1024 ∧ s.portExists port = true) ∧
  (∃ (port : Nat) (s : State), s.narrowOf port = none) ∧
  (∃ (l : Nat) (s : State), l < 64 ∧ s.rd E.lmBusState (l / 8) ≠ 1) ∧
  (∃ (l k : Nat), l < 64 ∧ k < 8) ∧
  (∃ (l : Nat) (s : State), l < 64 ∧ s.rd E.laserState l = 4) :=
  ⟨⟨acc, 1, 1, (List.range 4).foldl (fun (s : State) k => s.wr E.portAdmin (4 + k) 0) ready, by unfold State.Takes; decide +kernel⟩,
    ⟨acc, 1, 1, ready.wr E.portAdmin 6 1, by unfold State.Takes; decide +kernel⟩,
    ⟨acc, 0, 0, ready, by unfold State.Takes; decide +kernel⟩,
    ⟨acc, 0, 1, ready.wr E.portMft 0 0, by unfold State.Takes; decide +kernel⟩,
    ⟨0, ready, by decide +kernel⟩,
    ⟨0, (ready.wr E.portState 0 1).setPort 0 { faultSince := some 3 }, by decide +kernel⟩,
    ⟨3, ready, by decide +kernel⟩,
    ⟨3, 2, by decide +kernel⟩,
    ⟨3, ready.wr E.laserState 3 4, by decide +kernel⟩⟩

theorem test_FibersLasersAndMonitors_met_b :
  (∃ (l alarm : Nat) (s : State), l < 64 ∧ s.rd E.laserState l ≠ 4 ∧ alarm ≠ 0) ∧
  (∃ (l : Nat) (on : Bool) (alarm : Nat) (s : State), l < 64 ∧ s.rd E.laserState l ≠ 4 ∧ alarm = 0 ∧ on = false) ∧
  (∃ (l : Nat) (on : Bool) (alarm : Nat) (p : List Int) (g : List Nat) (s : State), l < 64 ∧ (
      let u := s.laserReport l true on alarm p g
      s.rd E.laserState l ≠ 4 ∧ on = true ∧ u.fullPower l = false)) ∧
  (∃ (l : Nat) (on : Bool) (alarm : Nat) (p : List Int) (g : List Nat) (s : State), l < 64 ∧ (
      let u := s.laserReport l true on alarm p g
      s.rd E.laserState l ≠ 4 ∧ alarm = 0 ∧ on = true ∧ u.fullPower l = true)) ∧
  (∃ (a : Access) (l v : Nat) (s : State), s.Takes a E.laserEnable l 1 v true ∧ v = 1 ∧ s.fullPower l = true ∧ s.darkInput l = true) ∧
  (∃ (a : Access) (l v : Nat) (s : State), s.Takes a E.laserEnable l 1 v true ∧ (¬(v = 1 ∧ s.fullPower l = true ∧ s.darkInput l = true))) ∧
  (∃ (n : Nat) (s : State), n < 8 ∧ s.rd E.lmBusState n = 0) ∧
  (∃ (n found : Nat) (s : State), n < 8 ∧ found ≤ 2 ∧ s.rd E.lmBusState n ≠ 0) ∧
  (∃ (n : Nat) (s : State), n < 8 ∧ s.rd E.engineState n = 2) :=
  ⟨⟨3, 2, ready, by decide +kernel⟩,
    ⟨3, false, 0, ready, by decide +kernel⟩,
    ⟨3, true, 0, default, [1, 2], ready, by decide +kernel⟩,
    ⟨3, true, 0, (List.replicate 8 1700), [1, 2], ready, by decide +kernel⟩,
    ⟨acc, 0, 1, ((List.range 8).foldl (fun (u : State) k => (u.wr E.laserPower k 1700).wr E.monPower k 0x8001) ready),
      by unfold State.Takes; decide +kernel⟩,
    ⟨acc, 0, 1, ready.wr E.laserState 0 4, by unfold State.Takes; decide +kernel⟩,
    ⟨1, ready, by decide +kernel⟩,
    ⟨0, 2, ready.wr E.lmBusState 0 1, by decide +kernel⟩,
    ⟨1, ready.wr E.engineState 1 2, by decide +kernel⟩⟩

theorem test_FibersLasersAndMonitors_met_c :
  (∃ (n : Nat) (band : Bool) (s : State), n < 8 ∧ s.rd E.engineState n < 2 ∧ s.rd E.dieState n ≠ 1 ∧ (band = false ∨ s.noModule n = true)) ∧
  (∃ (n : Nat) (band : Bool) (s : State), n < 8 ∧ s.rd E.engineState n < 2 ∧ s.rd E.dieState n ≠ 1 ∧ band = true ∧ s.noModule n = false) :=
  ⟨⟨1, false, (ready.wr E.dieState 1 2).wr E.engineState 1 0, by decide +kernel⟩,
    ⟨1, true, ((ready.wr E.dieState 1 2).wr E.engineState 1 0).wr E.moduleState 32 3, by decide +kernel⟩⟩

theorem test_RingLoops_met_a :
  (∃ (r : Nat) (s : State), r < 4096 ∧ s.engineLit (ringEngine r) = true ∧ s.rd E.ringState r = rgOff) ∧
  (∃ (r : Nat) (s : State), r < 4096 ∧ s.rd E.ringState r ≠ rgParked ∧ s.rd E.ringState r ≠ rgFault) ∧
  (∃ (r : Nat) (l : List Nat) (s : State) (h : Nat), r < 4096 ∧ s.rd E.ringState r = rgSweep ∧ (s.loop r).hexp = some h ∧ l ≠ []) ∧
  (∃ (r h : Nat) (s : State), r < 4096 ∧ (s.loop r).hexp = some h ∧ s.rd E.ringState r = rgIdentify) ∧
  (∃ (r h : Nat) (s : State), r < 4096 ∧ (s.loop r).hexp = some h ∧ s.rd E.ringState r = rgLocked) ∧
  (∃ (t : Time) (r : Nat) (s : State), r < 4096 ∧ s.rd E.ringState r = rgIdentify ∧ (s.loop r).tone = 0xFF ∧ (s.loop r).since + 200 * us ≤ t) ∧
  (∃ (r : Nat) (s : State), 4096 ≤ r ∧ (s.links.bypasses.get? ((r - 4096) / 2)).isSome = false) ∧
  (∃ (a : Access) (r : Nat) (s : State), s.Takes a E.ringRetry 0 2 r true ∧ r < 4096) ∧
  (∃ (a : Access) (r : Nat) (s : State), s.Takes a E.ringRetry 0 2 r true ∧ 4096 ≤ r) :=
  ⟨⟨9, (((ready.wr E.engineState 0 2).wr E.dieState 0 0).wr E.ringState 9 0), by decide +kernel⟩,
    ⟨9, (ready.wr E.ringState 9 3), by decide +kernel⟩,
    ⟨9, [100, 470, 900], ((ready.setLoop 9 { hexp := some 480 }).wr E.ringState 9 1), 480, by decide +kernel⟩,
    ⟨9, 480, ((ready.setLoop 9 { hexp := some 480, tone := 4, run := 2 }).wr E.ringState 9 2), by decide +kernel⟩,
    ⟨9, 480, ((ready.setLoop 9 { hexp := some 480, tone := 5, run := 2 }).wr E.ringState 9 3), by decide +kernel⟩,
    ⟨200 * us, 9, (ready.wr E.ringState 9 2), by decide +kernel⟩,
    ⟨4096 + 6, lit0, by decide +kernel⟩,
    ⟨acc, 9, (ready.wr E.ringState 9 6), by unfold State.Takes; decide +kernel⟩,
    ⟨acc, 4096, ready, by unfold State.Takes; decide +kernel⟩⟩

theorem test_RingLoops_met_b :
  (∃ (r : Nat) (s : State), r < 4096 ∧ (s.loop r).cands = []) :=
  ⟨9, ready, by decide +kernel⟩

theorem test_CalibrationAndBypass_met_a :
  (∃ (t : Time) (s : State),
      let w := (s.begin t).adoptCal
      let chans := ((List.range 8).filter (fun n => w.engineUp n)).map (fun n => 256 * n + ((t - w.links.cal.base) % w.links.cal.period) / calSlot)
      let skip := chans.filter (fun c => w.skipsCal c)
      w.links.cal.base ≤ t ∧ 0 < w.links.cal.period ∧ (t - w.links.cal.base) % w.links.cal.period % calSlot = 0 ∧
        (t - w.links.cal.base) % w.links.cal.period < calPass ∧ skip = []) ∧
  (∃ (t : Time) (s : State),
      let w := (s.begin t).adoptCal
      let chans := ((List.range 8).filter (fun n => w.engineUp n)).map (fun n => 256 * n + ((t - w.links.cal.base) % w.links.cal.period) / calSlot)
      let start := t - (t - w.links.cal.base) % w.links.cal.period
      let skip := chans.filter (fun c => w.skipsCal c)
      w.links.cal.base ≤ t ∧ 0 < w.links.cal.period ∧ (t - w.links.cal.base) % w.links.cal.period % calSlot = 0 ∧
        (t - w.links.cal.base) % w.links.cal.period < calPass ∧ skip ≠ [] ∧ w.links.cal.told = some start) ∧
  (∃ (t : Time) (s : State),
      let w := (s.begin t).adoptCal
      let chans := ((List.range 8).filter (fun n => w.engineUp n)).map (fun n => 256 * n + ((t - w.links.cal.base) % w.links.cal.period) / calSlot)
      let start := t - (t - w.links.cal.base) % w.links.cal.period
      let skip := chans.filter (fun c => w.skipsCal c)
      w.links.cal.base ≤ t ∧ 0 < w.links.cal.period ∧ (t - w.links.cal.base) % w.links.cal.period % calSlot = 0 ∧
        (t - w.links.cal.base) % w.links.cal.period < calPass ∧ skip ≠ [] ∧ w.links.cal.told ≠ some start) ∧
  (∃ (c : Nat) (s : State), c < 2048 ∧ s.skipsCal c = false ∧ s.rd E.ringState (2 * c) = rgLocked ∧ s.rd E.ringState (2 * c + 1) = rgLocked ∧
    s.rd E.portState (s.portOfChan c) = 2) ∧
  (∃ (t : Time) (port : Nat) (x : Narrow) (s : State), s.narrowOf port = some x ∧ x.phase = 1 ∧ x.slot + 50 * us ≤ t) ∧
  (∃ (t : Time) (port : Nat) (x : Narrow) (s : State), s.narrowOf port = some x ∧ x.phase = 3 ∧ x.slot + calSlot ≤ t) ∧
  (∃ (t : Time) (port : Nat) (x : Narrow) (s : State), s.narrowOf port = some x ∧ x.phase = 2 ∧ x.slot + calSlot ≤ t + 100 * us) ∧
  (∃ (c : Nat) (s : State), c < 2048 ∧ s.rd E.ringState (2 * c) = rgCal ∧ s.rd E.ringState (2 * c + 1) = rgCal) ∧
  (∃ (a : Access) (v : BitVec 64) (s : State), s.Takes a E.bypassWrite 0 8 0 true ∧ bypassRule v.toNat (s.begin a.t) = .ok ∧
    bits v.toNat 54 53 = 0) :=
  ⟨⟨0, ((ready.wr E.calEn 0 1).wr E.engineState 0 2).wr E.dieState 0 0, by decide +kernel⟩,
    ⟨0, (let s : State := ((ready.wr E.engineState 0 2).wr E.dieState 0 0).wr E.calEn 0 0; { s with links := { s.links with cal := { s.links.cal with told := some 0 } } }),
      by decide +kernel⟩,
    ⟨0, ((ready.wr E.engineState 0 2).wr E.dieState 0 0).wr E.calEn 0 0, by decide +kernel⟩,
    ⟨3, ((((ready.wr E.calEn 0 1).wr E.ringState 6 3).wr E.ringState 7 3).wr E.portState (ready.portOfChan 3) 2).wr E.narrowEn (ready.portOfChan 3) 1,
      by decide +kernel⟩,
    ⟨7 + 50 * us, 0, ⟨7, 1⟩, ready.setNarrow 0 (some ⟨7, 1⟩), by decide +kernel⟩,
    ⟨7 + calSlot, 0, ⟨7, 3⟩, ready.setNarrow 0 (some ⟨7, 3⟩), by decide +kernel⟩,
    ⟨7 + calSlot, 0, ⟨7, 2⟩, ready.setNarrow 0 (some ⟨7, 2⟩), by decide +kernel⟩,
    ⟨3, ((ready.wr E.ringState 6 4).wr E.ringState 7 4), by decide +kernel⟩,
    ⟨acc, BitVec.ofNat 64 (pack [(3, 0), (6, 1), (2, 0), (3, 2), (5, 3), (5, 4), (40, 0)]),
      (lit0.wr E.engineCap 0 (2 ^ 408 * 4) |>.wr E.portAdmin (ready.portOfChan (chanAt 0 3 2)) 0 |>.wr E.portAdmin (ready.portOfChan (chanAt 0 4 2)) 0),
      by unfold State.Takes; decide +kernel⟩⟩

theorem test_CalibrationAndBypass_met_b :
  (∃ (a : Access) (v : BitVec 64) (s : State), s.Takes a E.bypassWrite 0 8 0 true ∧ bypassRule v.toNat (s.begin a.t) = .ok ∧ bits v.toNat 54 53 = 1) ∧
  (∃ (c : Nat) (s : State), c < 512 ∧ (s.links.bypasses.get? c).isSome = true ∧ s.engineLit (c / 64) = true ∧ s.rd E.ringState (dropRing c) = rgOff) ∧
  (∃ (c : Nat) (s : State), c < 512 ∧ (s.links.bypasses.get? c).isSome = true ∧ s.rd E.ringState (dropRing c) = rgLocked ∧ s.rd E.bypassState c = 2) ∧
  (∃ (c : Nat) (s : State), c < 512 ∧ (s.links.bypasses.get? c).isSome = true ∧ s.rd E.ringState (dropRing c + 1) = rgOff) :=
  ⟨⟨acc, BitVec.ofNat 64 (pack [(3, 0), (6, 1), (2, 1), (3, 2), (5, 3), (5, 4), (40, 0)]),
    { lit0 with links := { lit0.links with bypasses := [(1, ⟨2, 3, 4⟩)] } }, by unfold State.Takes; decide +kernel⟩,
    ⟨1, ({ lit0 with links := { lit0.links with bypasses := [(1, ⟨2, 3, 4⟩)] } }).wr E.bypassState 1 3, by decide +kernel⟩,
    ⟨1, (({ lit0 with links := { lit0.links with bypasses := [(1, ⟨2, 3, 4⟩)] } }).wr E.bypassState 1 2).wr E.ringState (dropRing 1) rgLocked,
      by decide +kernel⟩,
    ⟨1, { lit0 with links := { lit0.links with bypasses := [(1, ⟨2, 3, 4⟩)] } }, by decide +kernel⟩⟩

theorem test_ModulesAndStitchChannels_met_a :
  (∃ (t : Time) (m rate width : Nat) (s : State), m < 256 ∧ (s.rd E.moduleState m = 1 ∨ s.rd E.moduleState m = 4) ∧ t ≤ (s.ucie m).since + 150 * us ∧
    (
      let w := min width (s.ucie m).most
      (rate < 32 ∨ (w ≠ 64 ∧ w ≠ 32)))) ∧
  (∃ (t : Time) (m rate width : Nat) (s : State), m < 256 ∧ (s.rd E.moduleState m = 1 ∨ s.rd E.moduleState m = 4) ∧ t ≤ (s.ucie m).since + 150 * us ∧
    (
      let w := min width (s.ucie m).most
      32 ≤ rate ∧ (w = 64 ∨ w = 32))) ∧
  (∃ (t : Time) (m : Nat) (s : State), m < 256 ∧ (s.rd E.moduleState m = 1 ∨ s.rd E.moduleState m = 4) ∧ (s.ucie m).since + 150 * us ≤ t) ∧
  (∃ (t : Time) (m : Nat) (s : State), m < 256 ∧ (s.rd E.moduleState m = 1 ∨ s.rd E.moduleState m = 4) ∧ t < (s.ucie m).since + 150 * us) ∧
  (∃ (m : Nat) (s : State), m < 256 ∧ (s.rd E.moduleState m = 2 ∨ s.rd E.moduleState m = 3)) ∧
  (∃ (a : Access) (m : Nat) (s : State), s.Takes a E.moduleRetrain 0 2 m true ∧ retrainRule m (s.begin a.t) = .ok ∧ s.rd E.moduleState m ≠ 0) ∧
  (∃ (a : Access) (m : Nat) (s : State), s.Takes a E.moduleRetrain 0 2 m true ∧ m < 256 ∧ (s.rd E.moduleState m = 1 ∨ s.rd E.moduleState m = 4)) ∧
  (∃ (m : Nat) (s : State), m < 256 ∧ 2 ≤ s.rd E.moduleState m ∧ s.rd E.moduleState m ≤ 4) ∧
  (∃ (t : Time) (p c : Nat) (s : State), bundleHas p c = true ∧ (s.channel p c).state = 0 ∧
    16 < ((s.channel p c).naks.filter (fun x => decide (t < x + 100 * us))).length) :=
  ⟨⟨1000, 7, 32, 16, (ready.wr E.moduleState 7 1), by decide +kernel⟩,
    ⟨1000, 7, 32, 64, (ready.wr E.moduleState 7 4), by decide +kernel⟩,
    ⟨150 * us, 7, (ready.wr E.moduleState 7 1), by decide +kernel⟩,
    ⟨1000, 7, (ready.wr E.moduleState 7 4), by decide +kernel⟩,
    ⟨7, (ready.wr E.moduleState 7 2), by decide +kernel⟩,
    ⟨acc, 7, (ready.wr E.moduleState 7 2), by unfold State.Takes; decide +kernel⟩,
    ⟨acc, 7, (ready.wr E.moduleState 7 1), by unfold State.Takes; decide +kernel⟩,
    ⟨7, (ready.wr E.moduleState 7 2), by decide +kernel⟩,
    ⟨1000, 1, 2, (ready.setChannel 1 2 { naks := List.replicate 17 900 }), by decide +kernel⟩⟩

theorem test_ModulesAndStitchChannels_met_b :
  (∃ (t : Time) (p c : Nat) (s : State), bundleHas p c = true ∧ (s.channel p c).state = 0 ∧
    ((s.channel p c).naks.filter (fun x => decide (t < x + 100 * us))).length ≤ 16) ∧
  (∃ (t : Time) (p c : Nat) (l : List Nat) (s : State), bundleHas p c = true ∧ (s.channel p c).state = 1 ∧
    (s.channel p c).since + 4 * us ≤ t ∧ (
      let bad := (l.filter (fun w => decide (w < 68))).foldl (fun b w => insertNat w b) (s.channel p c).bad
      bad = (s.channel p c).bad)) ∧
  (∃ (t : Time) (p c : Nat) (l : List Nat) (s : State), bundleHas p c = true ∧ (s.channel p c).state = 1 ∧
    (s.channel p c).since + 4 * us ≤ t ∧ (
      let bad := (l.filter (fun w => decide (w < 68))).foldl (fun b w => insertNat w b) (s.channel p c).bad
      bad ≠ (s.channel p c).bad)) ∧
  (∃ (t : Time) (p c : Nat) (l : List Nat) (s : State), bundleHas p c = true ∧ (s.channel p c).state = 1 ∧
    (s.channel p c).since + 4 * us ≤ t ∧ (
      let bad := (l.filter (fun w => decide (w < 68))).foldl (fun b w => insertNat w b) (s.channel p c).bad
      bad.length ≤ 4)) ∧
  (∃ (t : Time) (p c : Nat) (l : List Nat) (s : State), bundleHas p c = true ∧ (s.channel p c).state = 1 ∧
    (s.channel p c).since + 4 * us ≤ t ∧ (
      let bad := (l.filter (fun w => decide (w < 68))).foldl (fun b w => insertNat w b) (s.channel p c).bad
      4 < bad.length ∧ (∃ d, d < bundleSize (p / 20) (p % 20) ∧ d ≠ c ∧ (s.channel p d).state ≠ 2))) ∧
  (∃ (f : StitchFlit), f.type ≤ 2 ∧ f.seq < 1024 ∧ f.ack < 1024 ∧ f.credit < 256 ∧ f.payload.length = 250) ∧
  (∃ (f : StitchFlit), f.type ≠ 1) ∧
  (∃ (c : Channel) (f : StitchFlit), f.type = 1 ∧ f.seq = c.want) ∧
  (∃ (c : Channel) (f : StitchFlit), f.type = 1 ∧ f.seq ≠ c.want) :=
  ⟨⟨1000, 1, 2, (ready.setChannel 1 2 { naks := List.replicate 16 900 }), by decide +kernel⟩,
    ⟨4 * us, 1, 2, [3, 68], (ready.setChannel 1 2 { state := 1, bad := [3] }), by decide +kernel⟩,
    ⟨4 * us, 1, 2, [3, 8], (ready.setChannel 1 2 { state := 1, bad := [3] }), by decide +kernel⟩,
    ⟨4 * us, 1, 2, [3, 8], (ready.setChannel 1 2 { state := 1, bad := [3] }), by decide +kernel⟩,
    ⟨4 * us, 1, 2, [3, 8, 9, 11, 12], (ready.setChannel 1 2 { state := 1, bad := [3] }), by decide +kernel⟩,
    ⟨⟨1, 5, 3, false, 2, List.replicate 250 7⟩, by decide +kernel⟩,
    ⟨⟨2, 5, 3, false, 2, List.replicate 250 7⟩, by decide +kernel⟩,
    ⟨{ want := 5 }, ⟨1, 5, 3, false, 2, List.replicate 250 7⟩, by decide +kernel⟩,
    ⟨{ want := 4 }, ⟨1, 5, 3, false, 2, List.replicate 250 7⟩, by decide +kernel⟩⟩

theorem test_ModulesAndStitchChannels_met_c :
  (∃ (p : Nat) (s : State), (∀ c, c < bundleSize (p / 20) (p % 20) → (s.channel p c).state = 0) ∧ 0 < bundleSize (p / 20) (p % 20)) ∧
  (∃ (n k : Nat) (s : State), n < 8 ∧ s.rd E.moduleState (32 * n + k) = 2 ∧ k < 32) ∧
  (∃ (n : Nat) (s : State), n < 8 ∧ s.roundPlaces n ≠ []) ∧
  (∃ (n k : Nat) (l : FlitLane), n < 8 ∧ l.want < 2 ^ 24 ∧ k ≠ 0 ∧ k < 4096 ∧ l.held = []) ∧
  (∃ (k : Nat), k < 10) :=
  ⟨⟨1, ready, by decide +kernel⟩,
    ⟨0, 3, (ready.wr E.moduleState 3 2).wr E.moduleWidth 3 64, by decide +kernel⟩,
    ⟨0, (ready.wr E.moduleState 3 2).wr E.moduleWidth 3 64, by decide +kernel⟩,
    ⟨0, 3, { next := 7, want := 9 }, by decide +kernel⟩,
    ⟨3, by decide +kernel⟩⟩

theorem test_FabricTimeSources_met_a :
  (∃ (s : State), (s.rd E.timeState 0 = tsFreeRun ∨ s.clock.armed = true)) ∧
  (∃ (off : Int) (s : State), s.rd E.timeState 0 ≠ tsFreeRun ∧ s.clock.armed = false ∧ 0 < s.rd E.rateLimit 0 ∧ s.rd E.rateLimit 0 ≤ 200000 ∧
    s.rd E.stepThreshold 0 < off.natAbs) ∧
  (∃ (a : Access) (v : Nat) (s : State), s.Takes a E.stepArm 0 1 v true ∧ stepArmRule s = .ok ∧ v ≠ 0) ∧
  (∃ (a : Access) (v : Nat) (s : State), s.Takes a E.stepArm 0 1 v true ∧ stepArmRule s ≠ .ok) ∧
  (∃ (t : Time) (port : Nat) (s : State), s.linkMode port = true ∧ (s.begin t).takeCells (dieOf port) 3 1 = none) ∧
  (∃ (t : Time) (port : Nat) (s : State), s.linkMode port = true ∧ (s.begin t).takeCells (dieOf port) 3 1 ≠ none) ∧
  (∃ (port : Nat) (s : State), (s.port port).mftNow = false) ∧
  (∃ (port : Nat) (b : BitVec 192) (s : State), (s.port port).mftNow = true ∧ linkFormOk b 3 = false) ∧
  (∃ (port : Nat) (b : BitVec 192) (s : State), linkFormOk b 3 = true ∧ s.linkMode port = true ∧
    (bits b.toNat 166 165 = 3 ∨ 1000000000 ≤ bits b.toNat 85 56)) :=
  ⟨⟨{ ready.wr E.timeState 0 2 with clock := { armed := true } }, by decide +kernel⟩,
    ⟨-(10 ^ 15), ready.wr E.timeState 0 2, by decide +kernel⟩,
    ⟨acc, 1, ready, by unfold State.Takes; decide +kernel⟩,
    ⟨acc, 1, home ctx1, by unfold State.Takes; decide +kernel⟩,
    ⟨1000, 0, ((ready.wr E.portTimeMode 0 2).wr E.portState 0 2).wr E.poolFree 3 0, by decide +kernel⟩,
    ⟨1000, 0, ((ready.wr E.portTimeMode 0 2).wr E.portState 0 2), by decide +kernel⟩,
    ⟨0, ready.setPort 0 { mftNow := false }, by decide +kernel⟩,
    ⟨0, 0, ready, by decide +kernel⟩,
    ⟨0, BitVec.ofNat 192 (1 * 2 ^ 188 + 3 * 2 ^ 184 + 5 * 2 ^ 168 + 3 * 2 ^ 165), ((ready.wr E.portTimeMode 0 2).wr E.portState 0 2),
      by decide +kernel⟩⟩

theorem test_FabricTimeSources_met_b :
  (∃ (port : Nat) (b : BitVec 192) (s : State), linkFormOk b 3 = true ∧ s.linkMode port = true ∧ bits b.toNat 166 165 ≠ 3 ∧
    bits b.toNat 85 56 < 1000000000) ∧
  (∃ (p v : Nat) (t1 : Time) (s : State), (s.linkTime p).stampOf (bits v 175 168) = some t1 ∧ bit v 167 = true ∧ (
      let rtt := ftDiff s.now t1 - (bits v 39 0 : Int)
      0 ≤ rtt)) ∧
  (∃ (p v : Nat) (t1 : Time) (s : State), (s.linkTime p).stampOf (bits v 175 168) = some t1 ∧ bit v 167 = true ∧ (
      let rtt := ftDiff s.now t1 - (bits v 39 0 : Int)
      rtt < 0)) ∧
  (∃ (p : Nat) (s : State), s.clock.parent = some (3, p)) ∧
  (∃ (t : Time) (port : Nat) (m : Ptp) (s : State), port < 1026 ∧ ((s.begin t).ptpEval).ptpOn port = true ∧
    (m.domain ≠ s.rd E.ptpDomain 0 ∨ (m.udp = true ∧ port < 1024))) ∧
  (∃ (t : Time) (port : Nat) (m : Ptp) (s : State), port < 1026 ∧ ((s.begin t).ptpEval).ptpOn port = true ∧ m.domain = s.rd E.ptpDomain 0 ∧
    (m.udp = false ∨ 1024 ≤ port)) ∧
  (∃ (t : Time) (port : Nat) (s : State),
      let w := (s.begin t).ptpEval
      port < 1026 ∧ w.ptpOn port = true ∧ w.rd E.ptpPortState port = psMaster) ∧
  (∃ (port : Nat), port < 2) :=
  ⟨⟨0, BitVec.ofNat 192 (1 * 2 ^ 188 + 3 * 2 ^ 184 + 5 * 2 ^ 168 + 0), ((ready.wr E.portTimeMode 0 2).wr E.portState 0 2), by decide +kernel⟩,
    ⟨0, 5 * 2 ^ 168 + 2 ^ 167 + 9, 700, ({ ready with clock := { links := [(0, { sent := [(5, 700)] })] } }).begin 1000, by decide +kernel⟩,
    ⟨0, 5 * 2 ^ 168 + 2 ^ 167 + 900, 700, ({ ready with clock := { links := [(0, { sent := [(5, 700)] })] } }).begin 1000, by decide +kernel⟩,
    ⟨0, { ((ready.wr E.portTimeMode 0 2).wr E.portState 0 2) with clock := { parent := some (3, 0) } }, by decide +kernel⟩,
    ⟨1000, 0, { kind := 11, domain := 3, src := 9 }, (ready.wr E.portTimeMode 0 1).wr E.portState 0 2, by decide +kernel⟩,
    ⟨1000, 0, { kind := 11, domain := ready.rd E.ptpDomain 0, src := 9 }, (ready.wr E.portTimeMode 0 1).wr E.portState 0 2, by decide +kernel⟩,
    ⟨1000, 0, ((ready.wr E.portTimeMode 0 1).wr E.portState 0 2).wr E.ptpPortState 0 psMaster, by decide +kernel⟩,
    ⟨1, by decide +kernel⟩⟩

theorem test_GroupsPulsesAndCaptures_met_a :
  (∃ (t : Time) (s : State), s.rd E.groupRole 0 = 1 ∧ t % sec = 0 ∧ s.power.vio = true) ∧
  (∃ (s : State), s.rd E.groupRole 0 = 2 ∧ s.power.vio = true) ∧
  (∃ (s : State), s.rd E.groupRole 0 = 2 ∧ s.rd E.groupState 0 = 1) ∧
  (∃ (s : State), s.clock.missed = 0) ∧
  (∃ (s : State), 0 < s.clock.missed ∧ s.rd E.groupState 0 = 1) ∧
  (∃ (a : Access) (k : Nat) (v : BitVec 160) (s : State), s.Takes a E.tpoConfig k 20 v.toNat true ∧ tpoRule v.toNat a.t (s.begin a.t) = .ok) ∧
  (∃ (t : Time) (k : Nat) (s : State), k < 4 ∧ s.power.vio = true ∧ (s.begin t).nextEdge k = some t) ∧
  (∃ (k : Nat) (fall : Bool) (s : State), k < 2 ∧ s.power.vio = true ∧ (s.rd E.tcapEdge k = 2 ∨ s.rd E.tcapEdge k = b2n fall) ∧ (
      let c := s.capture k
      c.queue.length < 64)) ∧
  (∃ (k : Nat) (fall : Bool) (s : State), k < 2 ∧ s.power.vio = true ∧ (s.rd E.tcapEdge k = 2 ∨ s.rd E.tcapEdge k = b2n fall) ∧ (
      let c := s.capture k
      64 ≤ c.queue.length)) :=
  ⟨⟨7 * sec, ready.wr E.groupRole 0 1, by decide +kernel⟩,
    ⟨ready.wr E.groupRole 0 2, by decide +kernel⟩,
    ⟨(ready.wr E.groupRole 0 2).wr E.groupState 0 1, by decide +kernel⟩,
    ⟨ready, by decide +kernel⟩,
    ⟨{ (ready.wr E.groupRole 0 2).wr E.groupState 0 1 with clock := { missed := 1 } }, by decide +kernel⟩,
    ⟨acc, 1, BitVec.ofNat 160 (pack [(32, 0), (30, 0), (2, 2), (32, 1000), (32, 100), (1, 1), (31, 0)]), ready,
      by unfold State.Takes; decide +kernel⟩,
    ⟨1000 * ns, 1, (ready.wr E.tpoConfig 1 (BitVec.ofNat 160 (pack [(32, 0), (30, 0), (2, 2), (32, 1000), (32, 100), (1, 1), (31, 0)])).toNat),
      by decide +kernel⟩,
    ⟨1, true, ready.wr E.tcapEdge 1 2, by decide +kernel⟩,
    ⟨1, true, ({ ready with clock := { caps := [(1, { queue := List.replicate 64 (0, 5, 0) })] } }).wr E.tcapEdge 1 2, by decide +kernel⟩⟩

theorem test_GroupsPulsesAndCaptures_met_b :
  (∃ (a : Access) (k : Nat) (s : State), s.Gives a E.tcapPop k true ∧ (s.capture k).queue = []) ∧
  (∃ (a : Access) (k : Nat) (s : State) (e : Nat) (x : Time) (n : Nat) (r : List (Nat × Time × Nat)), s.Gives a E.tcapPop k true ∧
    (s.capture k).queue = (e, x, n) :: r) :=
  ⟨⟨acc, 1, ready, by unfold State.Gives; decide +kernel⟩,
    ⟨acc, 1, { ready with clock := { caps := [(1, { queue := [(1, 7000, 2), (0, 9000, 0)] })] } }, 1, 7000, 2, [(0, 9000, 0)],
      by unfold State.Gives; decide +kernel⟩⟩

theorem test_DiesKeepersAndPeers_met_a :
  (∃ (d : Nat) (s : State), (s.rd E.dieState d = 1 ∨ 20 ≤ d)) ∧
  (∃ (d : Nat), d < 20) ∧
  (∃ (s : State), s.keeper < 2 ∧ s.rd E.standbyState 0 = 2) ∧
  (∃ (s : State), s.keeper < 2 ∧ s.rd E.standbyState 0 ≠ 2) ∧
  (∃ (a : Access) (v : Nat) (s : State), s.Takes a E.keeperSwitch 0 1 v true ∧ s.rd E.standbyState 0 = 2 ∧ v ≠ 0) ∧
  (∃ (a : Access) (v : Nat) (s : State), s.Takes a E.keeperSwitch 0 1 v true ∧ s.rd E.standbyState 0 ≠ 2) ∧
  (∃ (a : Access) (v : Nat) (s : State), s.Takes a E.keeperRejoin 0 1 v true ∧ (s.rd E.standbyState 0 = 0 ∨ s.rd E.standbyState 0 = 3) ∧ v ≠ 0) ∧
  (∃ (a : Access) (v : Nat) (s : State), s.Takes a E.keeperRejoin 0 1 v true ∧ (s.rd E.standbyState 0 = 1 ∨ s.rd E.standbyState 0 = 2)) ∧
  (∃ (s : State), s.power.rejoin.isSome = true ∧ s.keeper < 2) :=
  ⟨⟨20, ready, by decide +kernel⟩,
    ⟨4, by decide +kernel⟩,
    ⟨((ready.wr E.standbyState 0 2).wr E.dieState 19 2), by decide +kernel⟩,
    ⟨ready, by decide +kernel⟩,
    ⟨acc, 1, ((ready.wr E.standbyState 0 2).wr E.dieState 19 2), by unfold State.Takes; decide +kernel⟩,
    ⟨acc, 1, ready, by unfold State.Takes; decide +kernel⟩,
    ⟨acc, 1, ready, by unfold State.Takes; decide +kernel⟩,
    ⟨acc, 1, ((ready.wr E.standbyState 0 2).wr E.dieState 19 2), by unfold State.Takes; decide +kernel⟩,
    ⟨{ ready with power := { ready.power with rejoin := some 5 } }, by decide +kernel⟩⟩

theorem test_DiesKeepersAndPeers_met_b :
  (∃ (t : Time) (s : State) (d : Nat), s.gei ≠ 0 ∧ (
      let w := (s.begin t).knowPeers
      d ∈ w.peerSet)) ∧
  (∃ (p : Peer) (b : List Byte) (x : PeerDev) (s : State), s.PeerTaken p 5 b ∧ b.length = 24 ∧ s.coll.peers.get? (field b 0 3) = some x) ∧
  (∃ (t : Time) (d : Nat) (x : PeerDev) (s : State), s.coll.peers.get? d = some x ∧ x.lost = false ∧ x.beat + s.rd E.hsLost 0 ≤ t ∧
    (s.begin t).peerSet.contains d = true) ∧
  (∃ (t : Time) (d : Nat) (x : PeerDev) (s : State), s.coll.peers.get? d = some x ∧ x.lost = false ∧ t < x.beat + s.rd E.hsLost 0) ∧
  (∃ (p : Peer) (b : List Byte) (c : Nat) (x : Ctx) (s : State), s.PeerTaken p 7 b ∧ b.length = 33 ∧ field b 0 1 = 3 ∧
    s.ctxOf (field b 1 4) = some c ∧ s.coll.ctxs.get? c = some x) ∧
  (∃ (n : Nat) (g : Graph) (s : State), s.graphs.slots.get? n = some g ∧ g.migrating = true ∧ g.run = none) :=
  ⟨⟨1000, withGraphs [5, 9] {}, (((withGraphs [5, 9] {}).begin (1000)).knowPeers).peerSet.headD 0, by decide +kernel⟩,
    ⟨peerOf 11 5 (toBytes 24 (11 * 2 ^ 168)), toBytes 24 (11 * 2 ^ 168), { beat := 5, lost := true },
      { home ctx1 with coll := { (home ctx1).coll with peers := [(11, { beat := 5, lost := true })] } }, by unfold State.PeerTaken; decide +kernel⟩,
    ⟨1000 * sec, 11, { beat := 5 }, { home ctx1 with coll := { peers := [(11, { beat := 5 })], ctxs := [(0, { ctx1 with reg := { reg1 with hset := [5, 11] } })] } },
      by decide +kernel⟩,
    ⟨1000, 11, { beat := 1000 }, { home ctx1 with coll := { (home ctx1).coll with peers := [(11, { beat := 1000 })] } }, by decide +kernel⟩,
    ⟨peerOf 11 7 (toBytes 1 3 ++ toBytes 4 op1 ++ toBytes 28 1), (toBytes 1 3 ++ toBytes 4 op1 ++ toBytes 28 1), 0, ctx1, home ctx1,
      by unfold State.PeerTaken; decide +kernel⟩,
    ⟨0, { graph1 with migrating := true, moved := [(0x10005, 0)] }, graphAt [5] { graph1 with migrating := true, moved := [(0x10005, 0)] },
      by decide +kernel⟩⟩

theorem test_ParityGroupsAndRebuilds_met_a :
  (∃ (a : Access) (v : BitVec 384) (s : State),
      let p := parityOf v.toNat
      s.Takes a E.parityCreate 0 48 0 (s.ownsJob a p.job) ∧ parityMalformed v.toNat = true) ∧
  (∃ (a : Access) (v : BitVec 384) (g : Graph) (s : State),
      let p := parityOf v.toNat
      s.Takes a E.parityCreate 0 48 0 (s.ownsJob a p.job) ∧ parityMalformed v.toNat = false ∧ s.graphFor p = some g ∧
        (s.begin a.t).leads a g.op = true ∧ (p.pgei :: p.data).contains s.gei = true) ∧
  (∃ (a : Access) (v : BitVec 32) (p : Parity) (s : State),
      let r := v.toNat / 256 * 256
      let key := parityKey (bits r 31 16) (bits r 15 8)
      s.Takes a E.parityDelete 0 4 0 (s.ownsJob a (bits r 31 16)) ∧ s.graphs.parity.get? key = some p) ∧
  (∃ (a : Access) (v : BitVec 128) (s w : State), s.Takes a E.parityQuery 0 16 0 (s.ownsJob a (bits v.toNat 127 112)) ∧ (
      let key := parityKey (bits v.toNat 127 112) (bits v.toNat 111 104)
      w.graphs.parity.get? key = none)) ∧
  (∃ (a : Access) (v : BitVec 128) (s w : State) (p : Parity), s.Takes a E.parityQuery 0 16 0 (s.ownsJob a (bits v.toNat 127 112)) ∧ (
      let key := parityKey (bits v.toNat 127 112) (bits v.toNat 111 104)
      w.graphs.parity.get? key = some p ∧ p.admitted = true)) ∧
  (∃ (p : Peer) (b : List Byte) (g : Parity) (s : State), s.PeerTaken p 11 b ∧ b.length = 8 ∧
    s.graphs.parity.get? (parityKey (field b 2 2) (field b 1 1)) = some g ∧ g.admitted = true ∧ (
      let ver := field b 4 4
      field b 0 1 = 0 ∧ p.src = g.pgei ∧ g.round = some ver ∧ g.state ≠ 2)) ∧
  (∃ (p : Peer) (b : List Byte) (g : Parity) (s : State), s.PeerTaken p 11 b ∧ b.length = 8 ∧
    s.graphs.parity.get? (parityKey (field b 2 2) (field b 1 1)) = some g ∧ g.admitted = true ∧ (
      let ver := field b 4 4
      field b 0 1 = 1 ∧ g.pgei = s.gei ∧ g.data.contains p.src = true ∧ g.told ≠ some ver ∧ g.state ≠ 2 ∧ g.pending.isSome = true ∧ g.full = true)) ∧
  (∃ (p : Peer) (b : List Byte) (g : Parity) (s : State), s.PeerTaken p 11 b ∧ b.length = 8 ∧
    s.graphs.parity.get? (parityKey (field b 2 2) (field b 1 1)) = some g ∧ g.admitted = true ∧ (
      let ver := field b 4 4
      field b 0 1 = 1 ∧ g.pgei = s.gei ∧ g.data.contains p.src = true ∧ g.told ≠ some ver ∧ g.state ≠ 2 ∧ (g.pending = none ∨ g.full = false))) ∧
  (∃ (p : Peer) (b : List Byte) (g : Parity) (s : State), s.PeerTaken p 11 b ∧ b.length = 8 ∧
    s.graphs.parity.get? (parityKey (field b 2 2) (field b 1 1)) = some g ∧ g.admitted = true ∧ field b 0 1 = 2 ∧ g.pgei = s.gei ∧
    g.data.contains p.src = true) :=
  ⟨⟨acc, 0, ready, by unfold State.Takes; decide +kernel⟩,
    ⟨acc, BitVec.ofNat 384 (pack [(16, 1), (8, 2), (16, 1), (4, 2), (4, 0), (24, 9), (16, 0), (24, 5), (24, 6), (248, 0)]), graph1,
      graphAt [5] graph1, by unfold State.Takes; decide +kernel⟩,
    ⟨acc, BitVec.ofNat 32 (1 * 2 ^ 16 + 2 * 2 ^ 8), parD, withParity (graphAt [5, 9] graph1) parD, by unfold State.Takes; decide +kernel⟩,
    ⟨acc, BitVec.ofNat 128 (1 * 2 ^ 112 + 2 * 2 ^ 104), withParity (home ctx1) parD, home ctx1, by unfold State.Takes; decide +kernel⟩,
    ⟨acc, BitVec.ofNat 128 (1 * 2 ^ 112 + 2 * 2 ^ 104), withParity (home ctx1) parD, withParity (home ctx1) parD, parD,
      by unfold State.Takes; decide +kernel⟩,
    ⟨peerOf 9 11 (toBytes 1 0 ++ toBytes 1 2 ++ toBytes 2 1 ++ toBytes 4 3), (toBytes 1 0 ++ toBytes 1 2 ++ toBytes 2 1 ++ toBytes 4 3),
      { parD with round := some 3 }, withParity (graphAt [5, 9] graph1) { parD with round := some 3 }, by unfold State.PeerTaken; decide +kernel⟩,
    ⟨peerOf 6 11 (toBytes 1 1 ++ toBytes 1 2 ++ toBytes 2 1 ++ toBytes 4 3), (toBytes 1 1 ++ toBytes 1 2 ++ toBytes 2 1 ++ toBytes 4 3),
      { parP with pending := some 3, pPages := [(0, [1])] }, withParity (graphAt [5, 9] graph1) { parP with pending := some 3, pPages := [(0, [1])] },
      by unfold State.PeerTaken; decide +kernel⟩,
    ⟨peerOf 6 11 (toBytes 1 1 ++ toBytes 1 2 ++ toBytes 2 1 ++ toBytes 4 3), (toBytes 1 1 ++ toBytes 1 2 ++ toBytes 2 1 ++ toBytes 4 3), parP,
      withParity (graphAt [5, 9] graph1) parP, by unfold State.PeerTaken; decide +kernel⟩,
    ⟨peerOf 6 11 (toBytes 1 2 ++ toBytes 1 2 ++ toBytes 2 1 ++ toBytes 4 3), (toBytes 1 2 ++ toBytes 1 2 ++ toBytes 2 1 ++ toBytes 4 3),
      { parP with pending := some 3 }, withParity (graphAt [5, 9] graph1) { parP with pending := some 3 }, by unfold State.PeerTaken; decide +kernel⟩⟩

theorem test_ParityGroupsAndRebuilds_met_b :
  (∃ (t : Time) (j k ver : Nat) (g : Parity) (s : State), s.graphs.parity.get? (parityKey j k) = some g ∧ g.round = some ver ∧ g.admitted = true ∧
    g.state ≠ 2 ∧ g.doneFor ≠ some ver ∧ g.waived ≠ some ver ∧ g.storedAt + s.rd E.parityWait 0 ≤ t) ∧
  (∃ (a : Access) (v : BitVec 64) (vs halted : Bool) (p : Parity) (s : State), s.Takes a E.rebuildStart 0 8 0 (s.ownsJob a (bits v.toNat 63 48)) ∧
    s.graphs.parity.get? (parityKey (bits v.toNat 63 48) (bits v.toNat 47 40)) = some p ∧ rebuildRule v.toNat vs halted (s.begin a.t) = .ok) ∧
  (∃ (a : Access) (v : BitVec 64) (p : Parity) (s : State), s.Takes a E.rebuildStart 0 8 0 (s.ownsJob a (bits v.toNat 63 48)) ∧
    s.graphs.parity.get? (parityKey (bits v.toNat 63 48) (bits v.toNat 47 40)) = some p ∧ bits v.toNat 39 36 < p.data.length ∧
    p.committed ≠ some (bits v.toNat 31 0)) ∧
  (∃ (r : Rebuild) (s : State), s.graphs.rebuild = some r ∧ r.count ≠ 0 ∧ r.pages.length < r.count) ∧
  (∃ (r : Rebuild) (s : State), s.graphs.rebuild = some r ∧ r.count ≠ 0 ∧ r.count ≤ r.pages.length ∧ r.target ≠ s.gei) ∧
  (∃ (a : Access) (v : BitVec 128) (y : Tensor) (s : State),
      let h := bits v.toNat 127 96
      s.Takes a E.coarseFill 0 16 0 (s.ownsJob a (h / 65536)) ∧ s.tensor? h = some y ∧ y.handle = h ∧ s.haltedFor h = true) :=
  ⟨⟨1000 * sec, 1, 2, 3, { parD with round := some 3 }, withParity (graphAt [5, 9] graph1) { parD with round := some 3 }, by decide +kernel⟩,
    ⟨acc, BitVec.ofNat 64 (pack [(16, 1), (8, 2), (4, 0), (4, 0), (32, 3)]), true, true, { parP with committed := some 3, cPages := [(0, [1])] },
      withParity (graphAt [5, 9] graph1) { parP with committed := some 3, cPages := [(0, [1])] }, by unfold State.Takes; decide +kernel⟩,
    ⟨acc, BitVec.ofNat 64 (pack [(16, 1), (8, 2), (4, 0), (4, 0), (32, 3)]), parP, withParity (graphAt [5, 9] graph1) parP,
      by unfold State.Takes; decide +kernel⟩,
    ⟨{ rebuild1 with target := 5, pages := [] }, withRebuild (graphAt [5, 9] graph1) { rebuild1 with target := 5, pages := [] }, by decide +kernel⟩,
    ⟨{ rebuild1 with target := 6, pages := [(0, [1]), (1, [2])] }, withRebuild (graphAt [5,
      9] graph1) { rebuild1 with target := 6, pages := [(0, [1]), (1, [2])] }, by decide +kernel⟩,
    ⟨acc, BitVec.ofNat 128 (0x10005 * 2 ^ 96 + 2 * 2 ^ 32), lostT,
      withGraphs [5] { tensors := [(0x10005, lostT)], slots := [(0, { graph1 with state := gsHalted, nodes := [⟨3, 0, 5, [], 0⟩] })] },
      by unfold State.Takes; decide +kernel⟩⟩

theorem test_Jobs_met_a :
  (∃ (a : Access) (v : BitVec 512) (s : State), s.Takes a E.jobStart 0 64 0 true ∧ (s.begin a.t).startCode v.toNat = 0) ∧
  (∃ (a : Access) (v : BitVec 512) (s : State), s.Takes a E.jobStart 0 64 0 true ∧ (s.begin a.t).startCode v.toNat ≠ 0) ∧
  (∃ (v : Nat) (s : State),
      let tag := bits v 511 496
      s.startCode v = 0 ∧ tag ∉ s.starts ∧ ((s.job tag).state = .free ∨ (s.job tag).state = .quarantine) ∧ s.starts = [] ∧ s.power.brace = none ∧
        s.retiringAny = false ∧ quotasFit v s.quotasFree = true) ∧
  (∃ (v : Nat) (s : State),
      let tag := bits v 511 496
      s.startCode v = 0 ∧ tag ∉ s.starts ∧ ((s.job tag).state = .free ∨ (s.job tag).state = .quarantine) ∧
        (s.power.brace.isSome = true ∨ s.retiringAny = true ∨ (s.starts = [] ∧ quotasFit v s.quotasFree = false))) ∧
  (∃ (a : Access) (tag : Nat) (s : State), s.Takes a E.jobWithdraw 0 2 tag true ∧ (s.job tag).state = .pending) ∧
  (∃ (a : Access) (tag : Nat) (s : State), s.Takes a E.jobWithdraw 0 2 tag true ∧ (s.job tag).state ≠ .pending) ∧
  (∃ (t : Time) (tag : Nat) (s : State),
      let n := bits (s.job tag).record.toNat 335 320
      (s.job tag).state = .pending ∧ n ≠ 0 ∧ (s.job tag).since + n * ms ≤ t) ∧
  (∃ (a : Access) (v : BitVec 32) (s : State), s.Takes a E.jobRetire 0 4 0 true ∧ (s.begin a.t).retireCode v.toNat = 0) ∧
  (∃ (a : Access) (v : BitVec 32) (s : State), s.Takes a E.jobRetire 0 4 0 true ∧ (
      let tag := bits v.toNat 31 16
      tag ≠ 0 ∧ bits v.toNat 7 0 ≤ 1 ∧ (s.job tag).state = .retiring)) :=
  ⟨⟨acc, BitVec.ofNat 512 (7 * 2 ^ 496 + 3 * 2 ^ 488 + 9 * 2 ^ 464 + 1 * 2 ^ 320), ready, by unfold State.Takes; decide +kernel⟩,
    ⟨acc, 0, ready, by unfold State.Takes; decide +kernel⟩,
    ⟨(BitVec.ofNat 512 (7 * 2 ^ 496 + 3 * 2 ^ 488 + 9 * 2 ^ 464 + 1 * 2 ^ 320)).toNat, ready, by decide +kernel⟩,
    ⟨(BitVec.ofNat 512 (7 * 2 ^ 496 + 3 * 2 ^ 488 + 9 * 2 ^ 464 + 1 * 2 ^ 320)).toNat, { ready with power := { ready.power with brace := some 5 } },
      by decide +kernel⟩,
    ⟨acc, 7, { ready with jobs := [(7, { state := .pending, gen := 3 })], starts := [7, 8] }, by unfold State.Takes; decide +kernel⟩,
    ⟨acc, 7, { ready with jobs := [(7, { state := .active, gen := 3 })] }, by unfold State.Takes; decide +kernel⟩,
    ⟨sec, 7, { ready with jobs := [(7, { state := .pending, gen := 3, record := BitVec.ofNat 512 (7 * 2 ^ 496 + 3 * 2 ^ 488 + 9 * 2 ^ 464 + 1 * 2 ^ 320) })] },
      by decide +kernel⟩,
    ⟨acc, BitVec.ofNat 32 (7 * 2 ^ 16 + 3 * 2 ^ 8), { ready with jobs := [(7, { state := .active, gen := 3 })] },
      by unfold State.Takes; decide +kernel⟩,
    ⟨acc, BitVec.ofNat 32 (7 * 2 ^ 16 + 3 * 2 ^ 8), { ready with jobs := [(7, { state := .retiring, gen := 3 })] },
      by unfold State.Takes; decide +kernel⟩⟩

theorem test_Jobs_met_b :
  (∃ (v : Nat) (s : State),
      let tag := bits v 31 16
      (s.job tag).state = .active) ∧
  (∃ (tag : Nat) (s : State) (x : Nat × Tensor),
      let u := s.purge tag false
      x ∈ u.graphs.tensors) ∧
  (∃ (tag : Nat) (s : State) (x : Nat × Session),
      let u := s.purge tag false
      x ∈ u.spawns) ∧
  (∃ (tag : Nat) (s : State) (x : Nat × Parity), x ∈ (s.purge tag true).graphs.parity ∧ x.2.job = tag) ∧
  (∃ (tag : Nat) (s : State),
      let j := s.job tag
      j.state = .retiring ∧ s.drainingOf tag = [] ∧ (tag ∉ s.starts)) ∧
  (∃ (t : Time) (tag : Nat) (s : State),
      let j := s.job tag
      j.state = .retiring ∧ s.drainingOf tag ≠ [] ∧ j.slow = false ∧ j.retired + 100 * ms ≤ t) ∧
  (∃ (t : Time) (tag : Nat) (s : State),
      let j := s.job tag
      j.state = .quarantine ∧ j.since + 10 * sec ≤ t) ∧
  (∃ (t : Time) (tag : Nat) (s : State),
      let j := s.job tag
      j.state = .quarantine ∧ t < j.since + 10 * sec) ∧
  (∃ (a : Access) (v : BitVec 256) (s : State), s.Takes a E.jobQuery 0 32 0 (s.ownsJob a (bits v.toNat 255 240))) :=
  ⟨⟨7 * 2 ^ 16 + 3 * 2 ^ 8, { ready with jobs := [(7, { state := .active, gen := 3 })] }, by decide +kernel⟩,
    ⟨2, graphAt [5] graph1, (0x10005, tensor1), by decide +kernel⟩,
    ⟨7, { ready with spawns := [(65536 * 8 + 1, { job := 8, number := 1, group := 0, parent := 0, alts := [], blocks := 1, last := 1, cache := true, fill := false, first := 0, count := 1, tensor := 0, fillFirst := 0 })] },
      (65536 * 8 + 1, { job := 8, number := 1, group := 0, parent := 0, alts := [], blocks := 1, last := 1, cache := true, fill := false, first := 0, count := 1, tensor := 0, fillFirst := 0 }),
      by decide +kernel⟩,
    ⟨1, withParity (graphAt [5, 9] graph1) { parD with pending := some 3 }, (parityKey 1 2, { parD with state := 1 }), by decide +kernel⟩,
    ⟨7, { ready with jobs := [(7, { state := .retiring, gen := 3, advance := true })] }, by decide +kernel⟩,
    ⟨sec, 7, {  ready with jobs := [(7, { state := .retiring, gen := 3 })] , net := { sprays := [(3, { cur := ⟨[1], 0⟩, draining := true, owner := 7 })] } },
      by decide +kernel⟩,
    ⟨10 * sec, 7, { ready with jobs := [(7, { state := .quarantine, gen := 3 })] }, by decide +kernel⟩,
    ⟨10 * sec - 1, 7, { ready with jobs := [(7, { state := .quarantine, gen := 3 })] }, by decide +kernel⟩,
    ⟨acc, BitVec.ofNat 256 (7 * 2 ^ 240), { ready with jobs := [(7, { state := .active, gen := 3 })] }, by unfold State.Takes; decide +kernel⟩⟩

theorem test_Jobs_met_c :
  (∃ (a : Access) (v : BitVec 512) (s : State), s.Takes a E.jobQuota 0 64 0 (s.ownsJob a (bits v.toNat 511 496))) :=
  ⟨acc, BitVec.ofNat 512 (1 * 2 ^ 496), home ctx1, by unfold State.Takes; decide +kernel⟩

theorem test_SpawnSessions_met_a :
  (∃ (a : Access) (v : BitVec 384) (s : State), s.Takes a E.spawnOpen 0 48 0 true ∧ (s.begin a.t).openCode v.toNat = 0) ∧
  (∃ (a : Access) (v : BitVec 384) (s : State), s.Takes a E.spawnOpen 0 48 0 true ∧ (s.begin a.t).openCode v.toNat ≠ 0) ∧
  (∃ (a : Access) (s : State), s.Takes a E.spawnClose 0 4 0 true) ∧
  (∃ (a : Access) (v : BitVec 256) (s w : State), s.Takes a E.spawnQuery 0 32 0 (s.ownsJob a (bits v.toNat 255 240)) ∧
    w.session? (bits v.toNat 255 240) (bits v.toNat 239 224) = none) ∧
  (∃ (a : Access) (v : BitVec 256) (s w : State) (x : Session), s.Takes a E.spawnQuery 0 32 0 (s.ownsJob a (bits v.toNat 255 240)) ∧
    w.session? (bits v.toNat 255 240) (bits v.toNat 239 224) = some x) ∧
  (∃ (b : List Byte), spawnFormOk b = false) ∧
  (∃ (f : Cf) (b : List Byte) (x : Session) (s : State),
      let v := field b 0 32
      spawnFormOk b = true ∧ s.session? f.job (bits v 247 232) = some x ∧ bits v 251 248 = 1 ∧ x.cache = true ∧ x.blockOk b = true) ∧
  (∃ (f : Cf) (b : List Byte) (x : Session) (s : State),
      let v := field b 0 32
      spawnFormOk b = true ∧ s.session? f.job (bits v 247 232) = some x ∧ bits v 251 248 = 1 ∧ x.cache = true ∧ x.blockOk b = false) ∧
  (∃ (f : Cf) (b : List Byte) (x : Session) (s : State),
      let v := field b 0 32
      spawnFormOk b = true ∧ s.session? f.job (bits v 247 232) = some x ∧ bits v 251 248 = 2) :=
  ⟨⟨acc, BitVec.ofNat 384 (pack [(16, 2), (16, 1), (16, 3), (24, 9), (24, 10), (24, 11), (24, 12), (24, 13), (32, 8), (13, 16), (1, 1), (1, 0), (1,
    0), (18, 0), (19, 4), (3, 0), (32, 0), (32, 0), (64, 0)]), home ctx1, by unfold State.Takes; decide +kernel⟩,
    ⟨acc, 0, ready, by unfold State.Takes; decide +kernel⟩,
    ⟨acc, withSess sess1, by unfold State.Takes; decide +kernel⟩,
    ⟨acc, BitVec.ofNat 256 (1 * 2 ^ 240 + 2 * 2 ^ 224), withSess sess1, home ctx1, by unfold State.Takes; decide +kernel⟩,
    ⟨acc, BitVec.ofNat 256 (1 * 2 ^ 240 + 2 * 2 ^ 224), withSess sess1, withSess sess1, sess1, by unfold State.Takes; decide +kernel⟩,
    ⟨[1], by decide +kernel⟩,
    ⟨{ cf 9 with job := 1 }, block7, sess1, withSess sess1, by decide +kernel⟩,
    ⟨{ cf 9 with job := 1 }, (spawnHead 1 0 0 0 0), sess1, withSess sess1, by decide +kernel⟩,
    ⟨{ cf 9 with job := 1 }, (spawnHead 2 0 3 0 0), sess1, withSess sess1, by decide +kernel⟩⟩

theorem test_SpawnSessions_met_b :
  (∃ (f : Cf) (b : List Byte) (x : Session) (s : State),
      let v := field b 0 32
      spawnFormOk b = true ∧ s.session? f.job (bits v 247 232) = some x ∧ bits v 251 248 = 3) ∧
  (∃ (f : Cf) (b : List Byte) (x : Session) (s : State),
      let v := field b 0 32
      let r := (bits v 167 150, bits v 149 131, f.src)
      spawnFormOk b = true ∧ s.session? f.job (bits v 247 232) = some x ∧ bits v 251 248 = 4 ∧ x.adopted.contains r = false ∧ 64 ≤ x.adopted.length) ∧
  (∃ (f : Cf) (b : List Byte) (x : Session) (s : State),
      let v := field b 0 32
      let r := (bits v 167 150, bits v 149 131, f.src)
      spawnFormOk b = true ∧ s.session? f.job (bits v 247 232) = some x ∧ bits v 251 248 = 4 ∧ x.adopted.contains r = false ∧ x.adopted.length < 64) ∧
  (∃ (f : Cf) (b : List Byte) (x : Session) (s : State) (j : Nat),
      let v := field b 0 32
      spawnFormOk b = true ∧ s.session? f.job (bits v 247 232) = some x ∧ x.alt = some j ∧ x.alts.getD j 0 = f.src ∧ bits v 251 248 = 5) ∧
  (∃ (f : Cf) (b : List Byte) (x : Session) (s : State) (j : Nat),
      let v := field b 0 32
      let n := bits v 199 168
      spawnFormOk b = true ∧ s.session? f.job (bits v 247 232) = some x ∧ x.alt = some j ∧ x.alts.getD j 0 = f.src ∧ bits v 251 248 = 6 ∧ n = 0) ∧
  (∃ (x : Session) (k h : Nat) (s : State), s.blockStack k = some h ∧ x.fill = false ∧ x.data.get? k = none) ∧
  (∃ (x : Session) (b : Nat) (e : Time), b ∈ x.missing ∧ x.asks.find? (fun y => y.1 == b) = some (b, e)) ∧
  (∃ (x : Session) (b : Nat), b ∈ x.missing ∧ (∀ y ∈ x.asks, y.1 ≠ b)) ∧
  (∃ (job n : Nat) (x : Session) (s : State), s.session? job n = some x) :=
  ⟨⟨{ cf 9 with job := 1 }, (spawnHead 3 0 0 2 0), sess1, withSess sess1, by decide +kernel⟩,
    ⟨{ cf 9 with job := 1 }, (spawnHead 4 0 0 2 0), { sess1 with adopted := (List.range 64).map (fun k => (k, 1, 7)) },
      withSess { sess1 with adopted := (List.range 64).map (fun k => (k, 1, 7)) }, by decide +kernel⟩,
    ⟨{ cf 9 with job := 1 }, (spawnHead 4 0 0 2 0), sess1, withSess sess1, by decide +kernel⟩,
    ⟨{ cf 11 with job := 1 }, (spawnHead 5 0 0 0 0), { sess1 with alt := some 1 }, withSess { sess1 with alt := some 1 }, 1, by decide +kernel⟩,
    ⟨{ cf 11 with job := 1 }, (spawnHead 6 0 0 0 0), { sess1 with alt := some 1 }, withSess { sess1 with alt := some 1 }, 1, by decide +kernel⟩,
    ⟨sess1, 3, (ready.blockStack 3).getD 0, ready, by decide +kernel⟩,
    ⟨{ sess1 with high := some 3, asks := [(0, 1000)] }, 0, 1000, by decide +kernel⟩,
    ⟨{ sess1 with high := some 3, asks := [(0, 1000)] }, 1, by decide +kernel⟩,
    ⟨1, 2, { sess1 with high := some 3, asks := [(0, 1000)] }, withSess { sess1 with high := some 3, asks := [(0, 1000)] }, by decide +kernel⟩⟩

theorem test_CountersSnapshotsAndSamples_met_a :
  (∃ (a : Access) (k v : Nat) (s : State), s.Takes a E.counterValue k 8 v true) ∧
  (∃ (a : Access) (k : Nat) (v : BitVec 128) (s : State), s.Takes a E.counterSelect k 16 0 true ∧ selectRule k v.toNat s = .ok) ∧
  (∃ (a : Access) (k : Nat) (v : BitVec 128) (s : State), s.Takes a E.counterSelect k 16 0 true ∧ selectRule k v.toNat s = .range) ∧
  (∃ (a : Access) (k : Nat) (v : BitVec 128) (s : State), s.Takes a E.counterSelect k 16 0 true ∧ bits v.toNat 127 120 ≠ 0 ∧
    blockExists (k / 4) = false) ∧
  (∃ (k : Nat) (s : State), blockExists (k / 6) = true ∧ k < 960 ∧ s.blockState (k / 6) = 0) ∧
  (∃ (k : Nat) (s : State), blockExists (k / 6) = true ∧ k < 960 ∧ s.blockState (k / 6) ≠ 0) ∧
  (∃ (t : Time) (period base mask : Nat) (fresh : Bool) (s : State), (s.begin t).snapConfig t = (period, base, mask, fresh) ∧ 0 < period ∧
    ((t : Int) - (timeNear t base : Nat)) % (period : Int) = 0) ∧
  (∃ (a : Access) (k : Nat) (v : BitVec 128) (s : State), s.Takes a E.sampler k 16 0 true ∧ bits v.toNat 123 100 = 0) ∧
  (∃ (a : Access) (k : Nat) (v : BitVec 128) (s : State), s.Takes a E.sampler k 16 0 true ∧ bits v.toNat 123 100 ≠ 0 ∧ bit v.toNat 126 = false) :=
  ⟨⟨acc, 3, 1, ready.wr E.counterValue 3 77, by unfold State.Takes; decide +kernel⟩,
    ⟨acc, 3, BitVec.ofNat 128 (1 * 2 ^ 120 + 1 * 2 ^ 118 + 0xFFFF * 2 ^ 80), ready, by unfold State.Takes; decide +kernel⟩,
    ⟨acc, 3, BitVec.ofNat 128 (2 ^ 116), ready, by unfold State.Takes; decide +kernel⟩,
    ⟨acc, 4 * 5, BitVec.ofNat 128 (2 ^ 120), ready, by unfold State.Takes; decide +kernel⟩,
    ⟨3, (ready.wr E.domainState 0 1).wr E.counterValue 3 (2 ^ 47 + 5), by decide +kernel⟩,
    ⟨3, (ready.wr E.domainState 0 0).wr E.counterValue 3 (2 ^ 47 + 5), by decide +kernel⟩,
    ⟨1000 * sec, sec, 0, 5, false, ((ready.wr E.snapPeriod 0 sec).wr E.snapBase 0 0).wr E.snapMask 0 5, by decide +kernel⟩,
    ⟨acc, 0, 0, ready, by unfold State.Takes; decide +kernel⟩,
    ⟨acc, 0, BitVec.ofNat 128 (2 * 2 ^ 126 + 5 * 2 ^ 100 + 0xFFFF * 2 ^ 68), ready, by unfold State.Takes; decide +kernel⟩⟩

theorem test_CountersSnapshotsAndSamples_met_b :
  (∃ (kind src : Nat) (r : BitVec 512) (s : State), 1 ≤ kind ∧ kind ≤ 4 ∧ src ∈ sourcesOf kind ∧ s.rd E.dieState (sourceDie kind src) ≠ 1 ∧
    eligible (s.rd E.sampler (kind - 1)) kind r.toNat = true ∧ (
      let key := sourceKey kind src
      let n := s.probes.downs.getD key 0
      1 < n)) ∧
  (∃ (kind src held : Nat) (r : BitVec 512) (s : State), 1 ≤ kind ∧ kind ≤ 4 ∧ src ∈ sourcesOf kind ∧ s.rd E.dieState (sourceDie kind src) ≠ 1 ∧
    eligible (s.rd E.sampler (kind - 1)) kind r.toNat = true ∧ (
      let key := sourceKey kind src
      let n := s.probes.downs.getD key 0
      n ≤ 1 ∧ s.probes.lastAt.get? key = none ∧ held < 1024)) ∧
  (∃ (kind src held : Nat) (r : BitVec 512) (s : State), 1 ≤ kind ∧ kind ≤ 4 ∧ src ∈ sourcesOf kind ∧ s.rd E.dieState (sourceDie kind src) ≠ 1 ∧
    eligible (s.rd E.sampler (kind - 1)) kind r.toNat = true ∧ (
      let key := sourceKey kind src
      let n := s.probes.downs.getD key 0
      n ≤ 1 ∧ s.probes.lastAt.get? key = none ∧ 1024 ≤ held)) :=
  ⟨⟨1, 3, 0, withProbes (ready.wr E.sampler 0 (2 ^ 127 + 5 * 2 ^ 100 + 0xFFFF * 2 ^ 68)) (fun p => { p with downs := [(35, 5)] }), by decide +kernel⟩,
    ⟨1, 3, 1023, 0, ready.wr E.sampler 0 (2 ^ 127 + 5 * 2 ^ 100 + 0xFFFF * 2 ^ 68), by decide +kernel⟩,
    ⟨1, 3, 1024, 0, ready.wr E.sampler 0 (2 ^ 127 + 5 * 2 ^ 100 + 0xFFFF * 2 ^ 68), by decide +kernel⟩⟩

theorem test_Resets_met :
  (∃ (s : State), s.power.vaon = false) ∧
  (∃ (s : State), s.power.pinLow = false) ∧
  (∃ (s : State), s.power.pinLow = true ∧ s.power.vaon = true) ∧
  (∃ (a : Access) (v : Nat) (s : State), s.Takes a E.resetDevice 0 1 v true) ∧
  (∃ (s : State), s.power.sag = false ∧ s.power.vaon = true) ∧
  (∃ (s : State), s.power.sag = true) ∧
  (∃ (b : List (Nat × Int)), (∃ x ∈ b, x.1 < 64 ∧ 1840 ≤ x.2)) :=
  ⟨⟨withPower (ready) (fun p => { p with vaon := false }), by decide +kernel⟩,
    ⟨ready, by decide +kernel⟩,
    ⟨withPower (ready) (fun p => { p with pinLow := true, step := 0 }), by decide +kernel⟩,
    ⟨acc, 1, ready, by unfold State.Takes; decide +kernel⟩,
    ⟨ready, by decide +kernel⟩,
    ⟨withPower (ready) (fun p => { p with sag := true }), by decide +kernel⟩,
    ⟨[(3, 1840)], by decide +kernel⟩⟩

theorem test_StartUp_met :
  (∃ (s : State), s.power.mfg = false ∧ (∀ m, m < 256 → s.rd E.moduleState m ≠ 1) ∧ (∀ k, k < 8 → s.rd E.engineState k ≠ 1)) ∧
  (∃ (ver : List Nat) (s : State), s.rd E.bootPref 0 ≤ 1 ∧ (
      let p := s.rd E.bootPref 0
      s.slotPasses ver p = true)) ∧
  (∃ (ver : List Nat) (s : State), s.rd E.bootPref 0 ≤ 1 ∧ (
      let p := s.rd E.bootPref 0
      s.slotPasses ver p = false ∧ s.slotPasses ver (1 - p) = true)) ∧
  (∃ (ver : List Nat) (s : State), s.rd E.bootPref 0 ≤ 1 ∧ (
      let p := s.rd E.bootPref 0
      s.slotPasses ver p = false ∧ s.slotPasses ver (1 - p) = false)) ∧
  (∃ (t f : Time) (s : State), s.power.failedAt = some f ∧ s.power.repeats < 3 ∧ f + sec ≤ t) ∧
  (∃ (s : State), (s.power.failedAt = none ∨ 3 ≤ s.power.repeats)) ∧
  (∃ (a : Access) (d : Nat) (s : State), s.Takes a E.dieReset 0 1 d true ∧ s.mayReset d = true) ∧
  (∃ (a : Access) (d : Nat) (s : State), s.Takes a E.dieReset 0 1 d true ∧ s.mayReset d = false) ∧
  (∃ (d : Nat) (x : Time) (s : State), d < 18 ∧ s.power.resets.get? d = some x) :=
  ⟨⟨withPower (ready) (fun p => { p with step := 6 }), by decide +kernel⟩,
    ⟨[0, 1], images, by decide +kernel⟩,
    ⟨[1], images, by decide +kernel⟩,
    ⟨[], ready, by decide +kernel⟩,
    ⟨5 + sec, 5, withPower (ready) (fun p => { p with failedAt := some 5, step := 0 }), by decide +kernel⟩,
    ⟨ready, by decide +kernel⟩,
    ⟨acc, 3, ready, by unfold State.Takes; decide +kernel⟩,
    ⟨acc, 9, ready, by unfold State.Takes; decide +kernel⟩,
    ⟨3, 5, withPower (ready) (fun p => { p with resets := [(3, 5)] }), by decide +kernel⟩⟩

theorem test_PowerClocksAndTemperature_met_a :
  (∃ (s : State), s.power.brace = none ∧ s.power.sag = false) ∧
  (∃ (b : Time) (s : State), s.power.brace = some b) ∧
  (∃ (d : Nat), d < 20) ∧
  (∃ (i : Nat) (s : State), i ≤ 1 ∧ (if i = 0 then s.power.lostA else s.power.lostB) = none ∧
    (if i = 0 then s.power.lostB else s.power.lostA).isSome = true) ∧
  (∃ (i : Nat) (s : State), i ≤ 1 ∧ (if i = 0 then s.power.lostA else s.power.lostB) = none ∧
    (if i = 0 then s.power.lostB else s.power.lostA) = none ∧ s.rd E.refclkSel 0 = 2 ∧ s.usesB = (i == 1)) ∧
  (∃ (b : Time) (s : State), s.power.both = some b) ∧
  (∃ (i : Nat) (s : State), i ≤ 1 ∧ (if i = 0 then s.power.lostA else s.power.lostB).isSome = true) ∧
  (∃ (a : Access) (v : Nat) (s : State), s.Takes a E.refclkSel 0 1 v true) ∧
  (∃ (s : State), s.power.both.isSome = true) :=
  ⟨⟨ready, by decide +kernel⟩,
    ⟨5, withPower (ready.wr E.deviceState 0 3) (fun p => { p with brace := some 5 }), by decide +kernel⟩,
    ⟨3, by decide +kernel⟩,
    ⟨1, withPower (ready) (fun p => { p with lostA := some 5 }), by decide +kernel⟩,
    ⟨1, (ready.wr E.refclkSel 0 2).wr E.refclkState 0 7, by decide +kernel⟩,
    ⟨5, withPower (ready) (fun p => { p with both := some 5 }), by decide +kernel⟩,
    ⟨1, withPower (ready) (fun p => { p with lostB := some 5 }), by decide +kernel⟩,
    ⟨acc, 0, ready, by unfold State.Takes; decide +kernel⟩,
    ⟨withPower (ready) (fun p => { p with both := some 5 }), by decide +kernel⟩⟩

theorem test_PowerClocksAndTemperature_met_b :
  (∃ (v : Nat) (s : State), s.usesB = true ∧ s.power.both = none ∧ v = 0) ∧
  (∃ (d : Nat) (s : State), d < 8 ∧ s.rd E.domainState d = 1 ∧ (∀ p, p / 128 = d → s.rd E.portState p ≠ 2 ∧ (s.port p).okSince = none) ∧
    (∀ f ∈ s.net.frames, f.die ≠ d)) ∧
  (∃ (s : State), s.rd E.domainState (18 + s.keeper) = 1 ∧ s.mgmt.waiting = [] ∧ s.coll.leds = [] ∧ (∀ q,
    q < 8 → s.pushes q = true → (s.nq q).records.length ≤ (s.nq q).pushed)) ∧
  (∃ (d : Nat), d < 28) ∧
  (∃ (d : Nat) (v : Int) (s : State), 8 ≤ d ∧ d < 18 ∧ 1680 ≤ v ∧ s.power.warm.contains d = false) ∧
  (∃ (d : Nat) (v : Int) (s : State), 8 ≤ d ∧ d < 18 ∧ v ≤ 1600 ∧ s.power.warm.contains d = true) ∧
  (∃ (d : Nat) (v : Int), 8 ≤ d ∧ d < 18 ∧ 1600 < v ∧ v < 1680) ∧
  (∃ (s : State), s.power.vio = true ∧ s.power.vaon = true) :=
  ⟨⟨0, ready.wr E.refclkState 0 7, by decide +kernel⟩,
    ⟨3, ready.wr E.domainState 3 1, by decide +kernel,
      by decide +kernel, fun p hp => (by decide +kernel : ∀ p < 512, p / 128 = 3 → (ready.wr E.domainState 3 1).rd E.portState p ≠ 2 ∧ ((ready.wr E.domainState 3 1).port p).okSince = none) p (by omega) hp,
      by decide +kernel⟩,
    ⟨ready.wr E.domainState 18 1, by decide +kernel⟩,
    ⟨3, by decide +kernel⟩,
    ⟨9, 1680, ready, by decide +kernel⟩,
    ⟨9, 1600, withPower (ready) (fun p => { p with warm := [9] }), by decide +kernel⟩,
    ⟨9, 1601, by decide +kernel⟩,
    ⟨ready, by decide +kernel⟩⟩

theorem test_DictionaryWrites_met :
  (∃ (a : Access) (e n el v : Nat) (s : State), (e, n) ∈ [(E.syncBand, 12), (E.stepThreshold, 12), (E.rateLimit, 4), (E.tableOwner, 2), (E.parityWait,
    12), (E.portVid, 2), (E.linkAsym, 4), (E.monLow, 2)] ∧ s.itemStatus a e el (countOf e) n true true = stOk ∧ rangeStatus e v = stOk ∧ v < 256 ^ n ∧
    s.portless e el = true) ∧
  (∃ (a : Access) (e n el v : Nat) (s : State), (e, n) ∈ [(E.syncBand, 12), (E.stepThreshold, 12), (E.rateLimit, 4), (E.tableOwner, 2), (E.parityWait,
    12), (E.portVid, 2), (E.linkAsym, 4), (E.monLow, 2)] ∧ s.itemStatus a e el (countOf e) n true true = stOk ∧ rangeStatus e v = stOk ∧ v < 256 ^ n ∧
    s.portless e el = false) ∧
  (∃ (a : Access) (e n el : Nat) (s : State), (e, n) ∈ [(E.syncBand, 12), (E.stepThreshold, 12), (E.rateLimit, 4), (E.tableOwner, 2), (E.parityWait,
    12), (E.portVid, 2), (E.linkAsym, 4), (E.monLow, 2)] ∧ s.itemStatus a e el (countOf e) n true true ≠ stOk ∧ el < 2 ^ 24) :=
  ⟨⟨acc, E.portVid, 2, 1, 77, ready.wr E.fiberMode 0 1, by decide +kernel⟩,
    ⟨acc, E.tableOwner, 2, 0, 77, ready, by decide +kernel⟩,
    ⟨⟨1000, .inband 1 3 9⟩, E.tableOwner, 2, 0, State.reset, by decide +kernel⟩⟩

theorem test_CausesInOrder_met :
  (∃ (e : Nat), entryRow e = none) ∧
  (∃ (e : Nat) (s : State) (r : EntryRow), entryRow e = some r ∧ s.rd E.deviceState 0 = 4 ∧ (¬(0x1000 ≤ e / 256 ∧ e / 256 ≤ 0x1003)) ∧
    e / 256 ≠ 0xF200) ∧
  (∃ (a : Access) (e : Nat) (write own : Bool) (s : State) (r : EntryRow),
      let allowed := rightsAllow (s.rightsOf a.path) e write && (s.confined a.path).all (fun _ => inbandEntry e write && own)
      entryRow e = some r ∧ s.rd E.deviceState 0 ≠ 4 ∧ allowed = false) ∧
  (∃ (a : Access) (e : Nat) (write own : Bool) (s : State) (r : EntryRow),
      let allowed := rightsAllow (s.rightsOf a.path) e write && (s.confined a.path).all (fun _ => inbandEntry e write && own)
      entryRow e = some r ∧ s.rd E.deviceState 0 ≠ 4 ∧ allowed = true ∧ write = true ∧ r.right = .ro) ∧
  (∃ (a : Access) (e : Nat) (write own : Bool) (s : State) (r : EntryRow),
      let allowed := rightsAllow (s.rightsOf a.path) e write && (s.confined a.path).all (fun _ => inbandEntry e write && own)
      entryRow e = some r ∧ s.rd E.deviceState 0 ≠ 4 ∧ allowed = true ∧ write = false ∧ r.right = .wo) ∧
  (∃ (a : Access) (e : Nat) (write own : Bool) (s : State) (r : EntryRow),
      let allowed := rightsAllow (s.rightsOf a.path) e write && (s.confined a.path).all (fun _ => inbandEntry e write && own)
      entryRow e = some r ∧ s.rd E.deviceState 0 ≠ 4 ∧ allowed = true ∧ write = true ∧ r.right = .rwl ∧ s.rd E.configLock 0 = 1) ∧
  (∃ (a : Access) (e first count : Nat) (write own : Bool) (s : State) (r : EntryRow),
      let allowed := rightsAllow (s.rightsOf a.path) e write && (s.confined a.path).all (fun _ => inbandEntry e write && own)
      entryRow e = some r ∧ s.rd E.deviceState 0 ≠ 4 ∧ allowed = true ∧ write = false ∧ r.right ≠ .wo ∧ r.count = 0 ∧ (count ≠ 0 ∨ first ≠ 0)) ∧
  (∃ (a : Access) (e first count : Nat) (write own : Bool) (s : State) (r : EntryRow),
      let allowed := rightsAllow (s.rightsOf a.path) e write && (s.confined a.path).all (fun _ => inbandEntry e write && own)
      entryRow e = some r ∧ s.rd E.deviceState 0 ≠ 4 ∧ allowed = true ∧ write = false ∧ r.right ≠ .wo ∧ 0 < r.count ∧
        (count = 0 ∨ r.count < first + count)) ∧
  (∃ (a : Access) (e first count : Nat) (write own : Bool) (s : State) (r : EntryRow),
      let allowed := rightsAllow (s.rightsOf a.path) e write && (s.confined a.path).all (fun _ => inbandEntry e write && own)
      entryRow e = some r ∧ s.rd E.deviceState 0 ≠ 4 ∧ allowed = true ∧ write = false ∧ r.right ≠ .wo ∧ 0 < r.count ∧ 0 < count ∧
        first + count ≤ r.count) :=
  ⟨⟨0x123400, by decide +kernel⟩,
    ⟨E.portState, ready.wr E.deviceState 0 4, (entryRow (E.portState)).getD ⟨0, .bytes 0 0, .ro, 0, 0, []⟩, by decide +kernel⟩,
    ⟨⟨1000, .inband 1 3 9⟩, E.role, false, true, ready, (entryRow (E.role)).getD ⟨0, .bytes 0 0, .ro, 0, 0, []⟩, by decide +kernel⟩,
    ⟨acc, E.deviceState, true, true, ready, (entryRow (E.deviceState)).getD ⟨0, .bytes 0 0, .ro, 0, 0, []⟩, by decide +kernel⟩,
    ⟨acc, E.sprayWrite, false, true, ready, (entryRow (E.sprayWrite)).getD ⟨0, .bytes 0 0, .ro, 0, 0, []⟩, by decide +kernel⟩,
    ⟨acc, E.role, true, true, ready.wr E.configLock 0 1, (entryRow (E.role)).getD ⟨0, .bytes 0 0, .ro, 0, 0, []⟩, by decide +kernel⟩,
    ⟨acc, E.role, 0, 1, false, true, ready, (entryRow (E.role)).getD ⟨0, .bytes 0 0, .ro, 0, 0, []⟩, by decide +kernel⟩,
    ⟨acc, E.portState, 1023, 2, false, true, ready, (entryRow (E.portState)).getD ⟨0, .bytes 0 0, .ro, 0, 0, []⟩, by decide +kernel⟩,
    ⟨acc, E.portState, 1023, 1, false, true, ready, (entryRow (E.portState)).getD ⟨0, .bytes 0 0, .ro, 0, 0, []⟩, by decide +kernel⟩⟩

theorem test_NoticesTouchLittle_met :
  (∃ (s : State) (e el : Nat), s.keeper < 2 ∧ el < 2 ^ 24 ∧ e ∉ [E.noticesRaised, E.severityHighest, E.nqLost, E.counterValue, E.domainState]) :=
  ⟨ready, E.role, default, by decide +kernel⟩

end Sys2Proof.Tests
end

section
/-!
The proofs of the exact arithmetic: an element rounded into the window (R33), the raw operators (R45) and the order keys of
max and min (R44, R226).
-/
namespace Sys2Proof.Machine

/-! ### Rounding to nearest, ties to even (R33) -/

/-- `r` units of 2^k are nearest to `m`, and even where `m` lies halfway between two neighbours. -/
def NearestEven (m k r : Nat) : Prop :=
  2 * (r * 2 ^ k) ≤ 2 * m + 2 ^ k ∧ 2 * m ≤ 2 * (r * 2 ^ k) + 2 ^ k ∧
  (2 * (r * 2 ^ k) = 2 * m + 2 ^ k ∨ 2 * m = 2 * (r * 2 ^ k) + 2 ^ k → r % 2 = 0)

/-- The quotient and the remainder of `m` by 2^(j+1), against the half unit 2^j, decide between the two neighbours. -/
theorem roundShift_nearestEven (m j : Nat) : NearestEven m (j + 1) (roundShift m (j + 1)) := by
  have hunit : 2 ^ (j + 1) = 2 * 2 ^ j := pow_succ' 2 j
  have hsplit : m / 2 ^ (j + 1) * 2 ^ (j + 1) + m % 2 ^ (j + 1) = m := Nat.div_add_mod' m _
  have hrem : m % 2 ^ (j + 1) < 2 ^ (j + 1) := Nat.mod_lt m (Nat.two_pow_pos _)
  have hup : (m / 2 ^ (j + 1) + 1) * 2 ^ (j + 1) = m / 2 ^ (j + 1) * 2 ^ (j + 1) + 2 ^ (j + 1) := Nat.succ_mul _ _
  simp only [roundShift, Nat.shiftRight_eq_div_pow, Nat.add_sub_cancel]
  split
  next hround => exact ⟨by omega, by omega, by omega⟩
  next hround => exact ⟨by omega, by omega, by omega⟩

/-- A magnitude below half a unit rounds to zero. -/
theorem zero_nearestEven {m k : Nat} (h : 2 * m ≤ 2 ^ k) : NearestEven m k 0 :=
  ⟨by omega, by omega, by omega⟩

/-! ### Conversion into the window (R33) -/

theorem toWindow_of_fits {l e : Int} {m w : Nat} (s : Bool) (h : l ≤ e) (hw : bitlen m + (e - l).toNat ≤ w) :
    toWindow (.fin s m e) l w = ⟨(if s then -1 else 1) * (m * 2 ^ (e - l).toNat : Nat), false, false⟩ := by
  cases s <;> simp [toWindow, h, Nat.not_lt.mpr hw]

theorem toWindow_of_overflow {l e : Int} {m w : Nat} (s : Bool) (h : l ≤ e) (hw : w < bitlen m + (e - l).toNat) :
    toWindow (.fin s m e) l w = ⟨0, false, true⟩ := by
  simp [toWindow, h, hw]

/-- Below the anchor the integer is signed as the element and its magnitude is nearest; the cut at 40 bits changes nothing,
since a significand lies below 2^33. -/
theorem toWindow_of_below {l e : Int} {m : Nat} (s : Bool) (w : Nat) (h : e < l) (hm : 0 < m) (hlt : m < 2 ^ 33) :
    ∃ r : Nat, NearestEven m (l - e).toNat r ∧
      toWindow (.fin s m e) l w = ⟨if s then -(r : Int) else r, decide (m % 2 ^ (l - e).toNat ≠ 0), false⟩ := by
  obtain ⟨j, hj⟩ : ∃ j, (l - e).toNat = j + 1 := Nat.exists_eq_succ_of_ne_zero (by omega)
  simp only [toWindow, Int.not_le.mpr h, if_false, hj]
  split
  next hfar =>
    have hpow : 2 ^ 34 ≤ 2 ^ (j + 1) := Nat.pow_le_pow_right two_pos (by omega)
    have hmod : m % 2 ^ (j + 1) = m := Nat.mod_eq_of_lt (by omega)
    exact ⟨0, zero_nearestEven (by omega), by simp [hmod, hm.ne']⟩
  next => exact ⟨_, roundShift_nearestEven m j, rfl⟩

theorem convert_sum_acc (code : Nat) (l : Int) (w : Nat) (xs : List Elem) :
    (convert 0 code l w xs).acc = .ints (xs.map (fun x => (toWindow (decode code x) l w).q)) := by
  simp [convert, Function.comp_def]

/-- Settles O30: the three cases of a finite element are those of its lowest bit against the anchor and of its magnitude
against the window. -/
theorem roundsIntoWindow : Obligations.RoundsIntoWindow := by
  refine ⟨fun _ _ => rfl, fun _ _ _ => rfl, fun _ _ => rfl, convert_sum_acc, fun s m e l w hm hlt => ⟨?_, ?_, ?_⟩⟩
  · intro h hw
    simp [toWindow_of_fits s h hw]
  · exact toWindow_of_overflow s
  · intro h
    obtain ⟨r, ⟨hle, hge, htie⟩, hwin⟩ := toWindow_of_below s w h hm hlt
    have habs : (if s then -(r : Int) else r).natAbs = r := by cases s <;> simp
    simp only [hwin, habs, true_and]
    exact ⟨fun hs => by simp [hs], fun hs => by simp [hs], hle, hge, htie⟩

/-! ### XOR, OR and AND on raw bits (R45) -/

theorem convert_raw {op : Nat} (h : op = 3 ∨ op = 4 ∨ op = 5) (code : Nat) (l : Int) (w : Nat) (xs : List Elem) :
    convert op code l w xs = { acc := .raws (xs.map (·.raw)) } := if_pos h

/-- Raw contributions join position by position. -/
theorem join_raws (op : Nat) (x y : List Nat) : (Acc.raws x).join op (.raws y)
    = .raws (List.zipWith (fun p q => if op = 3 then p ^^^ q else if op = 4 then p ||| q else p &&& q) x y) := rfl

theorem getD_zipWith_of_lt {f : Nat → Nat → Nat} {x y : List Nat} {i : Nat} (hx : i < x.length) (hy : i < y.length) :
    (List.zipWith f x y).getD i 0 = f (x.getD i 0) (y.getD i 0) := by
  simp [List.getElem?_zipWith, List.getElem?_eq_getElem hx, List.getElem?_eq_getElem hy]

/-! ### Order keys (R44, R226) -/

/-- The number a decoded value stands for. -/
def Dec.value (d : Dec) : ℚ :=
  match d with
  | .fin s m e => (if s then -1 else 1 : ℚ) * m * (2 : ℚ) ^ e
  | _ => 0

/-- A zero, or a finite value within the exponents that R226 gives a key. -/
def Dec.Keyed (d : Dec) : Prop :=
  match d with
  | .zero => True
  | .fin _ m e => 0 < m ∧ m < 2 ^ 33 ∧ -149 ≤ (bitlen m : Int) - 1 + e ∧ (bitlen m : Int) - 1 + e ≤ 142
  | _ => False

/-- The number a key gives back. -/
def keyNumber (k : Int) : ℚ := ((keyValue k).1 : ℚ) * (2 : ℚ) ^ (keyValue k).2

/-- The number that a key's magnitude gives back: 33 bits of significand below the exponent. -/
def keyMagnitude (a : Nat) : ℚ := ((a % 2 ^ 33 : Nat) : ℚ) * (2 : ℚ) ^ (((a / 2 ^ 33 : Nat) : Int) - 182)

/-- The significand of a nonzero key has its top bit set. -/
def NormalKey (k : Int) : Prop := k = 0 ∨ 2 ^ 32 ≤ k.natAbs % 2 ^ 33

theorem keyNumber_of_nonneg {k : Int} (h : 0 ≤ k) : keyNumber k = keyMagnitude k.natAbs := by
  simp only [keyNumber, keyValue, keyMagnitude, if_neg (Int.not_lt.mpr h), Int.cast_natCast]

theorem keyNumber_neg (k : Int) : keyNumber (-k) = -keyNumber k := by
  unfold keyNumber keyValue
  rcases lt_trichotomy k 0 with h | rfl | h
  · simp [h, h.le]
  · simp
  · simp [h, h.le]

theorem NormalKey.neg {k : Int} (h : NormalKey k) : NormalKey (-k) := by
  simpa [NormalKey] using h

/-- Of two normal magnitudes the larger has the larger exponent, or the same exponent and the larger significand. -/
theorem keyMagnitude_lt {a b : Nat} (hb : 2 ^ 32 ≤ b % 2 ^ 33) (h : a < b) : keyMagnitude a < keyMagnitude b := by
  have hhi : ((a % 2 ^ 33 : Nat) : ℚ) < 2 ^ 33 := by exact_mod_cast Nat.mod_lt a (Nat.two_pow_pos 33)
  have hlo : (2 : ℚ) ^ 32 ≤ ((b % 2 ^ 33 : Nat) : ℚ) := by exact_mod_cast hb
  obtain hq | ⟨hq, hr⟩ : a / 2 ^ 33 < b / 2 ^ 33 ∨ a / 2 ^ 33 = b / 2 ^ 33 ∧ a % 2 ^ 33 < b % 2 ^ 33 := by omega
  · calc keyMagnitude a
      _ < 2 ^ 33 * (2 : ℚ) ^ (((a / 2 ^ 33 : Nat) : Int) - 182) := by unfold keyMagnitude; gcongr
      _ = 2 ^ 32 * (2 : ℚ) ^ (((a / 2 ^ 33 : Nat) : Int) - 182 + 1) := by rw [zpow_add_one₀ two_ne_zero]; ring
      _ ≤ 2 ^ 32 * (2 : ℚ) ^ (((b / 2 ^ 33 : Nat) : Int) - 182) := by gcongr; exacts [one_le_two, by omega]
      _ ≤ keyMagnitude b := by unfold keyMagnitude; gcongr
  · unfold keyMagnitude
    rw [hq]
    gcongr

theorem keyMagnitude_zero : keyMagnitude 0 = 0 := by simp [keyMagnitude]

/-- Signed comparison of normal keys is the order of the numbers they give back (R226). -/
theorem keyNumber_strictMonoOn : StrictMonoOn keyNumber {k | NormalKey k} := by
  have pos : ∀ {a b : Int}, 0 ≤ a → NormalKey b → a < b → keyNumber a < keyNumber b := by
    intro a b ha hb h
    rw [keyNumber_of_nonneg ha, keyNumber_of_nonneg (ha.trans h.le)]
    exact keyMagnitude_lt (hb.resolve_left (by omega)) (by omega)
  have zero : keyNumber 0 = 0 := keyMagnitude_zero
  intro a ha b hb h
  rcases le_or_gt 0 a with ha0 | ha0
  · exact pos ha0 hb h
  rcases le_or_gt b 0 with hb0 | hb0
  · have := pos (neg_nonneg.mpr hb0) ha.neg (neg_lt_neg h)
    rw [keyNumber_neg, keyNumber_neg] at this
    exact neg_lt_neg_iff.mp this
  · have hneg := pos le_rfl ha.neg (neg_pos.mpr ha0)
    rw [keyNumber_neg, zero] at hneg
    exact (neg_pos.mp hneg).trans (zero ▸ pos le_rfl hb hb0)

/-- A nonzero number lies between the powers of two that its bit length names. -/
theorem bitlen_bounds {m : Nat} (h : 0 < m) : ∃ t, bitlen m = t + 1 ∧ 2 ^ t ≤ m ∧ m < 2 ^ (t + 1) :=
  ⟨Nat.log2 m, if_neg h.ne', Nat.log2_self_le h.ne', Nat.lt_log2_self⟩

/-- The key of a positive value: its exponent above its significand shifted up to 33 bits. -/
theorem orderKey_pos {m : Nat} {e : Int} (h : (Dec.fin false m e).Keyed) :
    ∃ t n : Nat, orderKey (.fin false m e) = (t * 2 ^ 33 + n : Nat) ∧ t ≤ 292 ∧ 2 ^ 32 ≤ n ∧ n < 2 ^ 33 ∧
      (m : ℚ) * 2 ^ e = n * (2 : ℚ) ^ ((t : Int) - 182) := by
  obtain ⟨hm, hlt, hlo, hhi⟩ := h
  obtain ⟨j, hj, hle, hup⟩ := bitlen_bounds hm
  have hj33 : j < 33 := (Nat.pow_lt_pow_iff_right one_lt_two).mp (hle.trans_lt hlt)
  have hpow : 2 ^ j * 2 ^ (32 - j) = 2 ^ 32 := by rw [← pow_add]; congr 1; omega
  rw [hj] at hlo hhi
  refine ⟨(j + e + 150).toNat, m * 2 ^ (32 - j), ?_, by omega, ?_, ?_, ?_⟩
  · simp only [orderKey, hj, Bool.false_eq_true, if_false, Nat.reduceSubDiff]
    push_cast
    omega
  · exact hpow ▸ Nat.mul_le_mul_right _ hle
  · calc m * 2 ^ (32 - j)
      _ < 2 ^ (j + 1) * 2 ^ (32 - j) := Nat.mul_lt_mul_of_pos_right hup (Nat.two_pow_pos _)
      _ = 2 ^ 33 := by rw [← pow_add]; congr 1; omega
  · have hexp : e = ((32 - j : Nat) : Int) + (((j + e + 150).toNat : Int) - 182) := by omega
    conv_lhs => rw [hexp, zpow_add₀ two_ne_zero, zpow_natCast]
    push_cast
    ring

theorem orderKey_fin_true (m : Nat) (e : Int) : orderKey (.fin true m e) = -orderKey (.fin false m e) := rfl

theorem value_fin_true (m : Nat) (e : Int) : (Dec.fin true m e).value = -(Dec.fin false m e).value := by simp [Dec.value]

theorem value_fin_false (m : Nat) (e : Int) : (Dec.fin false m e).value = m * (2 : ℚ) ^ e := by simp [Dec.value]

/-- What holds of zero, of the positive values and of the negated ones holds of every value that has a key. -/
theorem Dec.Keyed.induction_on_sign {P : Dec → Prop} (zero : P .zero) (pos : ∀ m e, (Dec.fin false m e).Keyed → P (.fin false m e))
    (neg : ∀ m e, P (.fin false m e) → P (.fin true m e)) : ∀ {d : Dec}, d.Keyed → P d
  | .zero, _ => zero
  | .fin false m e, h => pos m e h
  | .fin true m e, h => neg m e (pos m e h)

theorem normalKey_orderKey {d : Dec} (h : d.Keyed) : NormalKey (orderKey d) := by
  refine h.induction_on_sign (P := fun d => NormalKey (orderKey d)) (.inl rfl) (fun m e h => ?_) (fun m e h => h.neg)
  obtain ⟨t, n, hkey, -, hlo, hhi, -⟩ := orderKey_pos h
  right
  rw [hkey]
  omega

/-- A key gives back exactly the value it was formed from (R226). -/
theorem keyNumber_orderKey {d : Dec} (h : d.Keyed) : keyNumber (orderKey d) = d.value := by
  refine h.induction_on_sign (P := fun d => keyNumber (orderKey d) = d.value) keyMagnitude_zero (fun m e h => ?_) (fun m e h => ?_)
  · obtain ⟨t, n, hkey, -, -, hhi, hval⟩ := orderKey_pos h
    have hmod : (t * 2 ^ 33 + n) % 2 ^ 33 = n := by omega
    have hdiv : (t * 2 ^ 33 + n) / 2 ^ 33 = t := by omega
    rw [hkey, keyNumber_of_nonneg (Int.natCast_nonneg _), Int.natAbs_natCast, keyMagnitude, hmod, hdiv, value_fin_false, hval]
  · rw [orderKey_fin_true, keyNumber_neg, h, value_fin_true]

theorem orderKey_natAbs_lt {d : Dec} (h : d.Keyed) : (orderKey d).natAbs < 2 ^ 42 := by
  refine h.induction_on_sign (P := fun d => (orderKey d).natAbs < 2 ^ 42) (by decide) (fun m e h => ?_) (fun m e h => ?_)
  · obtain ⟨t, n, hkey, ht, -, hhi, -⟩ := orderKey_pos h
    omega
  · rwa [orderKey_fin_true, Int.natAbs_neg]

/-- A key lies strictly between the fills of an empty slot (R226 Table 1). -/
theorem orderKey_between_fills {d : Dec} (h : d.Keyed) : noKey < orderKey d ∧ orderKey d < noLeast := by
  have := orderKey_natAbs_lt h
  unfold noKey noLeast
  omega

theorem orderKey_lt_iff {a b : Dec} (ha : a.Keyed) (hb : b.Keyed) : orderKey a < orderKey b ↔ a.value < b.value := by
  rw [← keyNumber_orderKey ha, ← keyNumber_orderKey hb]
  exact (keyNumber_strictMonoOn.lt_iff_lt (normalKey_orderKey ha) (normalKey_orderKey hb)).symm

theorem keyNumber_max {a b : Dec} (ha : a.Keyed) (hb : b.Keyed) :
    keyNumber (max (orderKey a) (orderKey b)) = max a.value b.value := by
  rw [keyNumber_strictMonoOn.monotoneOn.map_max (normalKey_orderKey ha) (normalKey_orderKey hb), keyNumber_orderKey ha,
    keyNumber_orderKey hb]

theorem keyNumber_min {a b : Dec} (ha : a.Keyed) (hb : b.Keyed) :
    keyNumber (min (orderKey a) (orderKey b)) = min a.value b.value := by
  rw [keyNumber_strictMonoOn.monotoneOn.map_min (normalKey_orderKey ha) (normalKey_orderKey hb), keyNumber_orderKey ha,
    keyNumber_orderKey hb]

/-- Settles O31: the raw operators never decode, and a key gives back its value in an order that signed comparison keeps. -/
theorem rawAndExtremeOperators : Obligations.RawAndExtremeOperators := by
  refine ⟨?_, fun a b ha hb => ?_, fun x y => ⟨rfl, rfl⟩⟩
  · intro op code l w xs hop
    simp only [convert_raw hop, true_and]
    intro f b x y hlen
    refine ⟨_, join_raws op x y, by simp [hlen], fun i hi => getD_zipWith_of_lt hi (hlen ▸ hi), rfl⟩
  · have ha : a.Keyed := by cases a <;> exact ha
    have hb : b.Keyed := by cases b <;> exact hb
    exact ⟨keyNumber_max ha hb, keyNumber_min ha hb, orderKey_lt_iff ha hb, orderKey_between_fills ha⟩

end Sys2Proof.Machine
end

section
/-!
The proofs of the witness of integers (R147): the range of its weights, and the fold that forms it as a weighted sum modulo p.
-/
namespace Sys2Proof.Machine

/-! ### The weights (R147) -/

/-- A weight is a remainder by 2^61 other than 0 and p, the two that 1 replaces. -/
theorem weight_bounds (seed i : Nat) : 1 ≤ weight seed i ∧ weight seed i < pMod := by
  have hlt : mix64 (seed ^^^ (i * 0xB7E151628AED2A6B % 2 ^ 64)) % 2 ^ 61 < 2 ^ 61 := Nat.mod_lt _ (by decide)
  simp only [weight]
  split
  next => decide
  next hkept =>
    rw [pMod] at hkept ⊢
    omega

theorem pMod_cast : (pMod : Int) = 2 ^ 61 - 1 := rfl

/-! ### The weighted sum (R147) -/

/-- The sum of w_i · q_i over the integers of `l`, whose positions run from `off` on, before its reduction modulo p. -/
def weightedSum (seed off : Nat) (l : List Int) : Int :=
  ((withIdx l off).map (fun x => (weight seed x.1 : Int) * x.2)).sum

@[simp] theorem weightedSum_nil (seed off : Nat) : weightedSum seed off [] = 0 := rfl

@[simp] theorem weightedSum_cons (seed off : Nat) (x : Int) (l : List Int) :
    weightedSum seed off (x :: l) = weight seed off * x + weightedSum seed (off + 1) l := rfl

theorem weightedSum_eq_sum_range (seed off : Nat) (l : List Int) :
    weightedSum seed off l = ((List.range l.length).map (fun i => (weight seed (off + i) : Int) * l.getD i 0)).sum := by
  induction l generalizing off with
  | nil => rfl
  | cons x l ih => simp [List.range_succ_eq_map, Function.comp_def, ih, Nat.add_assoc, Nat.add_comm 1]

/-! ### The witness of integers (R147) -/

/-- Reducing after every addition gives the reduced sum. -/
theorem foldl_add_emod {α : Type} (f : α → Int) (p a : Int) (xs : List α) :
    xs.foldl (fun r x => (r + f x) % p) (a % p) = (a + (xs.map f).sum) % p := by
  induction xs generalizing a with
  | nil => simp
  | cons x xs ih => simp only [List.foldl_cons, Int.emod_add_emod, ih, List.map_cons, List.sum_cons, Int.add_assoc]

theorem witnessInts_eq_weightedSum (seed off : Nat) (l : List Int) :
    (witnessInts seed off l : Int) = weightedSum seed off l % pMod := by
  have hfold := foldl_add_emod (fun x : Nat × Int => (weight seed x.1 : Int) * x.2) pMod 0 (withIdx l off)
  rw [Int.zero_emod, Int.zero_add] at hfold
  rw [witnessInts, hfold, weightedSum]
  exact Int.toNat_of_nonneg (Int.emod_nonneg _ (by decide))

theorem witnessInts_lt (seed off : Nat) (l : List Int) : witnessInts seed off l < pMod := by
  have hlt : weightedSum seed off l % pMod < pMod := Int.emod_lt_of_pos _ (by decide)
  rw [← witnessInts_eq_weightedSum] at hlt
  exact_mod_cast hlt

/-- Settles O28: the generator is R147's as it stands, its replaced values leave the weights in 1 to p - 1, and the running
remainder is that of the weighted sum. -/
theorem witnessIsWeightedSum : Obligations.WitnessIsWeightedSum := by
  intro op phase chunk l
  refine ⟨rfl, fun _ => rfl, weight_bounds _, witnessInts_lt _ _ _, ?_⟩
  simpa only [Nat.zero_add, pMod_cast, weightedSum_eq_sum_range] using witnessInts_eq_weightedSum (wseed op phase chunk) 0 l

end Sys2Proof.Machine
end

section
/-!
The proofs of the machine and its queue: one step, and what every command keeps of the queue and the tables.
-/
namespace Sys2Proof.Machine

/-! ### One step -/

theorem step_of_pending {s : State} {c : Instr} {rest : List Instr} (hp : s.pending = c :: rest) :
    step s = exec c { s with pending := rest } := by
  simp [step, hp]

theorem step_of_idle {s : State} (hp : s.pending = []) : step s = .next s := by
  simp [step, hp]

/-- Settles O1: the two cases of the queue. -/
theorem stepTakesFront : Obligations.StepTakesFront :=
  ⟨fun _ _ _ => step_of_pending, fun _ => step_of_idle⟩

/-- Settles O2: each command's meaning answers a next state, whatever it does to the state. -/
theorem noCommandStops : Obligations.NoCommandStops := by
  intro c s
  cases c <;> exact ⟨_, rfl⟩

/-- Settles O3: every table is empty at reset. -/
theorem resetRising : Obligations.ResetRising := ⟨⟨rfl, rfl, rfl⟩, rfl, rfl⟩

/-! ### What every command keeps -/

/-- Each command keeps the queue, the free values and the order of the tables, as its own meaning does. -/
theorem exec_keeps {z s : State} (h : Keeps z s) (c : Instr) : KeepsNext z (exec c s) := by
  cases c with
  | dictWrite => exact execDictWrite_keeps _ _ _ _ _ _ h
  | messageExecute => exact execMessageExecute_keeps _ _ _ _ h
  | dapRequest => exact execDapRequest_keeps _ _ _ _ _ _ h
  | noticeAck => exact execNoticeAck_keeps _ _ _ _ h
  | noticePush => exact execNoticePush_keeps _ _ _ h
  | noticeResend => exact execNoticeResend_keeps _ _ _ h
  | nqPop => exact execNqPop_keeps _ _ _ h
  | nqConfig => exact execNqConfig_keeps _ _ _ _ h
  | mbxDoorbell => exact execMbxDoorbell_keeps _ _ _ h
  | mbxClear => exact execMbxClear_keeps _ _ h
  | nringTail => exact execNringTail_keeps _ _ _ _ h
  | nringWrite => exact execNringWrite_keeps _ _ h
  | perstN => exact execPerstN_keeps _ _ h
  | smbusStatus => exact execSmbusStatus_keeps _ _ h
  | smbusRequestFragment => exact execSmbusRequestFragment_keeps _ _ _ _ _ h
  | smbusExecute => exact execSmbusExecute_keeps _ _ _ _ h
  | smbusStateRead => exact execSmbusStateRead_keeps _ _ h
  | smbusResponseOffset => exact execSmbusResponseOffset_keeps _ _ _ _ h
  | smbusResponseRead => exact execSmbusResponseRead_keeps _ _ h
  | dictInbandRequest => exact execDictInbandRequest_keeps _ _ _ _ _ _ h
  | configLock => exact execConfigLock_keeps _ _ _ h
  | keyWrite => exact execKeyWrite_keeps _ _ _ h
  | entryQuery => exact execEntryQuery_keeps _ _ _ h
  | fwStage => exact execFwStage_keeps _ _ _ h
  | fwCommit => exact execFwCommit_keeps _ _ _ h
  | fwVerifyDone => exact execFwVerifyDone_keeps _ _ _ _ _ _ h
  | fwSvnCommit => exact execFwSvnCommit_keeps _ _ _ h
  | attestNonce => exact execAttestNonce_keeps _ _ _ h
  | attestReportRead => exact execAttestReportRead_keeps _ _ h
  | colophonExportReq => exact execColophonExportReq_keeps _ _ _ h
  | colophonExportRead => exact execColophonExportRead_keeps _ _ h
  | keyRotate => exact execKeyRotate_keeps _ _ _ h
  | keyPeriodExpiry => exact execKeyPeriodExpiry_keeps _ _ h
  | peerPrepareRegistration => exact execPeerPrepareRegistration_keeps _ _ _ _ h
  | peerPrepareHsetExclude => exact execPeerPrepareHsetExclude_keeps _ _ _ _ h
  | peerPrepareDeregister => exact execPeerPrepareDeregister_keeps _ _ _ _ h
  | peerPrepareTensorCreate => exact execPeerPrepareTensorCreate_keeps _ _ _ _ h
  | peerPrepareTensorDestroy => exact execPeerPrepareTensorDestroy_keeps _ _ _ _ h
  | peerPrepareGraph => exact execPeerPrepareGraph_keeps _ _ _ _ h
  | peerPrepareGraphControl => exact execPeerPrepareGraphControl_keeps _ _ _ _ h
  | peerPrepareSubnormal => exact execPeerPrepareSubnormal_keeps _ _ _ _ h
  | peerPrepareParityGroup => exact execPeerPrepareParityGroup_keeps _ _ _ _ h
  | peerPrepareParityDelete => exact execPeerPrepareParityDelete_keeps _ _ _ _ h
  | peerVote => exact execPeerVote_keeps _ _ _ _ h
  | peerCommit => exact execPeerCommit_keeps _ _ _ _ h
  | peerRelease => exact execPeerRelease_keeps _ _ _ _ h
  | prepareTimeout => exact execPrepareTimeout_keeps _ _ _ h
  | register => exact execRegister_keeps _ _ _ h
  | registerFrame => exact execRegisterFrame_keeps _ _ _ _ _ h
  | deregister => exact execDeregister_keeps _ _ _ h
  | hsetExclude => exact execHsetExclude_keeps _ _ _ h
  | homeQuery => exact execHomeQuery_keeps _ _ _ h
  | contrib => exact execContrib_keeps _ _ _ _ _ _ h
  | chunkCompletion => exact execChunkCompletion_keeps _ _ _ _ _ _ _ _ h
  | colophonEmit => exact execColophonEmit_keeps _ _ _ h
  | countResult => exact execCountResult_keeps _ _ _ _ _ h
  | refuseCheckFailed => exact execRefuseCheckFailed_keeps _ _ _ _ h
  | beacon => exact execBeacon_keeps _ _ _ _ h
  | throttle => exact execThrottle_keeps _ _ _ _ h
  | memberAbort => exact execMemberAbort_keeps _ _ _ _ h
  | done => exact execDone_keeps _ _ _ _ h
  | collectiveMisdirected => exact execCollectiveMisdirected_keeps _ _ _ _ h
  | tallyDeadline => exact execTallyDeadline_keeps _ _ _ _ h
  | exchangeCompletion => exact execExchangeCompletion_keeps _ _ _ _ h
  | completeSend => exact execCompleteSend_keeps _ _ _ _ h
  | abortRelay => exact execAbortRelay_keeps _ _ _ _ h
  | stallTentative => exact execStallTentative_keeps _ _ _ _ _ h
  | stallSettle => exact execStallSettle_keeps _ _ _ _ h
  | prereduceContrib => exact execPrereduceContrib_keeps _ _ _ h
  | prHoldExpiry => exact execPrHoldExpiry_keeps _ _ h
  | prWrite => exact execPrWrite_keeps _ _ _ h
  | windowAnchor => exact execWindowAnchor_keeps _ _ _ _ h
  | trapValid => exact execTrapValid_keeps _ _ _ h
  | slotCountPublish => exact execSlotCountPublish_keeps _ _ _ h
  | steeredForward => exact execSteeredForward_keeps _ _ h
  | spillCopyDone => exact execSpillCopyDone_keeps _ _ _ _ _ _ h
  | deferredReopen => exact execDeferredReopen_keeps _ _ _ h
  | bypassRefused => exact execBypassRefused_keeps _ _ _ _ h
  | bypassEmitted => exact execBypassEmitted_keeps _ _ _ _ h
  | bypassRecompute => exact execBypassRecompute_keeps _ _ _ _ h
  | bypassRestart => exact execBypassRestart_keeps _ _ _ _ h
  | memberQuery => exact execMemberQuery_keeps _ _ _ h
  | weightQuery => exact execWeightQuery_keeps _ _ _ h
  | tensorCreate => exact execTensorCreate_keeps _ _ _ h
  | tensorDestroy => exact execTensorDestroy_keeps _ _ _ h
  | tensorIo => exact execTensorIo_keeps _ _ _ h
  | tensorQuery => exact execTensorQuery_keeps _ _ _ h
  | graphStage => exact execGraphStage_keeps _ _ _ h
  | graphCommit => exact execGraphCommit_keeps _ _ _ h
  | graphResume => exact execGraphResume_keeps _ _ _ h
  | graphRemove => exact execGraphRemove_keeps _ _ _ h
  | constWrite => exact execConstWrite_keeps _ _ _ h
  | nodeQuery => exact execNodeQuery_keeps _ _ _ h
  | runStart => exact execRunStart_keeps _ _ _ h
  | stripeOpen => exact execStripeOpen_keeps _ _ _ _ _ _ _ h
  | taskIssue => exact execTaskIssue_keeps _ _ _ _ h
  | taskComplete => exact execTaskComplete_keeps _ _ _ _ _ h
  | updateEngineIdle => exact execUpdateEngineIdle_keeps _ _ _ h
  | exchangeCollectSum => exact execExchangeCollectSum_keeps _ _ _ _ h
  | exchangeCollectMax => exact execExchangeCollectMax_keeps _ _ _ _ h
  | fenceReport => exact execFenceReport_keeps _ _ _ _ h
  | fenceLimitExpiry => exact execFenceLimitExpiry_keeps _ _ _ h
  | publishResend => exact execPublishResend_keeps _ _ _ _ h
  | updateHeldResult => exact execUpdateHeldResult_keeps _ _ _ _ h
  | updateCommittedStripe => exact execUpdateCommittedStripe_keeps _ _ _ _ h
  | subnormalSet => exact execSubnormalSet_keeps _ _ _ h
  | tileIssue => exact execTileIssue_keeps _ _ _ h
  | tileComplete => exact execTileComplete_keeps _ _ _ _ _ _ _ _ _ h
  | arrayIdleStop => exact execArrayIdleStop_keeps _ _ _ h
  | stackCommandDone => exact execStackCommandDone_keeps _ _ _ _ _ _ _ _ _ _ h
  | scrubStep => exact execScrubStep_keeps _ _ _ _ _ h
  | stackTempSample => exact execStackTempSample_keeps _ _ _ _ h
  | partRequest => exact execPartRequest_keeps _ _ _ h
  | mftFrameReceive => exact execMftFrameReceive_keeps _ _ _ _ _ _ _ _ h
  | ethFrameReceive => exact execEthFrameReceive_keeps _ _ _ _ _ _ _ h
  | originCellRetry => exact execOriginCellRetry_keeps _ _ h
  | schedulerPick => exact execSchedulerPick_keeps _ _ _ h
  | frameTransmitted => exact execFrameTransmitted_keeps _ _ _ _ h
  | creditReceive => exact execCreditReceive_keeps _ _ _ _ h
  | creditSend => exact execCreditSend_keeps _ _ _ h
  | helloReceive => exact execHelloReceive_keeps _ _ _ _ h
  | helloSend => exact execHelloSend_keeps _ _ _ h
  | loadSummary => exact execLoadSummary_keeps _ _ _ h
  | sprayWrite => exact execSprayWrite_keeps _ _ _ h
  | circuitWrite => exact execCircuitWrite_keeps _ _ _ h
  | mcastWrite => exact execMcastWrite_keeps _ _ _ h
  | versionRetire => exact execVersionRetire_keeps _ _ _ _ h
  | drainSlow => exact execDrainSlow_keeps _ _ _ _ h
  | pcsLinkFault => exact execPcsLinkFault_keeps _ _ _ h
  | portDownHoldExpiry => exact execPortDownHoldExpiry_keeps _ _ _ h
  | portUp => exact execPortUp_keeps _ _ _ h
  | portAdmin => exact execPortAdmin_keeps _ _ _ _ h
  | shaperWrite => exact execShaperWrite_keeps _ _ _ h
  | wheelSlot => exact execWheelSlot_keeps _ _ _ h
  | policerWrite => exact execPolicerWrite_keeps _ _ _ h
  | gateWrite => exact execGateWrite_keeps _ _ _ h
  | gateListActive => exact execGateListActive_keeps _ _ _ h
  | gateTransition => exact execGateTransition_keeps _ _ _ h
  | groupChange => exact execGroupChange_keeps _ _ _ h
  | groupCycle => exact execGroupCycle_keeps _ _ _ h
  | samplePeriodEnd => exact execSamplePeriodEnd_keeps _ _ h
  | geiExactWrite => exact execGeiExactWrite_keeps _ _ _ h
  | geiQuery => exact execGeiQuery_keeps _ _ _ h
  | addrMode => exact execAddrMode_keeps _ _ _ h
  | addrWrite => exact execAddrWrite_keeps _ _ _ h
  | addrQuery => exact execAddrQuery_keeps _ _ _ h
  | addrFlush => exact execAddrFlush_keeps _ _ _ h
  | learnPop => exact execLearnPop_keeps _ _ h
  | learnPropagate => exact execLearnPropagate_keeps _ _ _ _ _ _ h
  | ageSweep => exact execAgeSweep_keeps _ _ _ h
  | prefixWrite => exact execPrefixWrite_keeps _ _ _ h
  | prefixApplied => exact execPrefixApplied_keeps _ _ h
  | nexthopWrite => exact execNexthopWrite_keeps _ _ _ h
  | lpmQuery => exact execLpmQuery_keeps _ _ _ h
  | parityScrub => exact execParityScrub_keeps _ _ _ _ h
  | filterRebuild => exact execFilterRebuild_keeps _ _ _ _ _ h
  | fiberMode => exact execFiberMode_keeps _ _ _ _ h
  | narrowEn => exact execNarrowEn_keeps _ _ _ _ h
  | berMeasure => exact execBerMeasure_keeps _ _ _ _ _ _ h
  | laserPoll => exact execLaserPoll_keeps _ _ _ _ _ _ _ _ _ h
  | laserEnable => exact execLaserEnable_keeps _ _ _ _ h
  | lmInt => exact execLmInt_keeps _ _ _ _ h
  | lmBusStuck => exact execLmBusStuck_keeps _ _ _ _ h
  | lmBusRetry => exact execLmBusRetry_keeps _ _ _ _ h
  | lightPresent => exact execLightPresent_keeps _ _ _ h
  | lightLost => exact execLightLost_keeps _ _ _ h
  | sweepDone => exact execSweepDone_keeps _ _ _ _ h
  | pilotWindow => exact execPilotWindow_keeps _ _ _ _ _ h
  | identifyTimeout => exact execIdentifyTimeout_keeps _ _ _ h
  | ringLockLost => exact execRingLockLost_keeps _ _ _ h
  | ringRetry => exact execRingRetry_keeps _ _ _ h
  | calSlotStart => exact execCalSlotStart_keeps _ _ h
  | narrowDeadline => exact execNarrowDeadline_keeps _ _ _ h
  | calDone => exact execCalDone_keeps _ _ _ _ _ _ _ h
  | narrowReturn => exact execNarrowReturn_keeps _ _ _ h
  | monitorRead => exact execMonitorRead_keeps _ _ _ _ h
  | bypassCreate => exact execBypassCreate_keeps _ _ _ h
  | bypassDelete => exact execBypassDelete_keeps _ _ _ h
  | bypassLossMeasure => exact execBypassLossMeasure_keeps _ _ _ _ h
  | engineDiscovery => exact execEngineDiscovery_keeps _ _ _ _ _ h
  | moduleTrained => exact execModuleTrained_keeps _ _ _ _ _ _ _ h
  | moduleTrainTimeout => exact execModuleTrainTimeout_keeps _ _ _ h
  | failedLane => exact execFailedLane_keeps _ _ _ _ h
  | moduleRetrain => exact execModuleRetrain_keeps _ _ _ h
  | widthExchange => exact execWidthExchange_keeps _ _ _ _ _ _ h
  | stitchNak => exact execStitchNak_keeps _ _ _ _ _ h
  | channelTestStart => exact execChannelTestStart_keeps _ _ _ _ h
  | channelTestDone => exact execChannelTestDone_keeps _ _ _ _ _ h
  | ringEntryWait => exact execRingEntryWait_keeps _ _ _ h
  | timeSync => exact execTimeSync_keeps _ _ h
  | timeFrameSend => exact execTimeFrameSend_keeps _ _ _ h
  | timeFrameReceive => exact execTimeFrameReceive_keeps _ _ _ _ h
  | ptpMessage => exact execPtpMessage_keeps _ _ _ _ h
  | parentTimeout => exact execParentTimeout_keeps _ _ h
  | stepArm => exact execStepArm_keeps _ _ _ h
  | groupSyncEmit => exact execGroupSyncEmit_keeps _ _ h
  | groupSyncWord => exact execGroupSyncWord_keeps _ _ _ h
  | trefInLost => exact execTrefInLost_keeps _ _ h
  | tpoConfig => exact execTpoConfig_keeps _ _ _ _ h
  | tpoEdge => exact execTpoEdge_keeps _ _ _ h
  | tcapEdge => exact execTcapEdge_keeps _ _ _ _ h
  | tcapPop => exact execTcapPop_keeps _ _ _ h
  | healthFlitAbsent => exact execHealthFlitAbsent_keeps _ _ _ h
  | healthFlitFatal => exact execHealthFlitFatal_keeps _ _ _ h
  | migrationDone => exact execMigrationDone_keeps _ _ _ h
  | hsBeatSend => exact execHsBeatSend_keeps _ _ h
  | hsBeat => exact execHsBeat_keeps _ _ _ _ h
  | peerLost => exact execPeerLost_keeps _ _ _ h
  | exchangeHsetVer => exact execExchangeHsetVer_keeps _ _ _ _ h
  | keeperTakeover => exact execKeeperTakeover_keeps _ _ _ h
  | keeperSwitch => exact execKeeperSwitch_keeps _ _ _ h
  | keeperRejoin => exact execKeeperRejoin_keeps _ _ _ h
  | keeperRejoined => exact execKeeperRejoined_keeps _ _ h
  | parityCreate => exact execParityCreate_keeps _ _ _ h
  | parityDelete => exact execParityDelete_keeps _ _ _ h
  | parityQuery => exact execParityQuery_keeps _ _ _ h
  | parityDone => exact execParityDone_keeps _ _ _ _ h
  | parityCommitted => exact execParityCommitted_keeps _ _ _ _ h
  | parityAborted => exact execParityAborted_keeps _ _ _ _ h
  | parityWaitExpiry => exact execParityWaitExpiry_keeps _ _ _ _ h
  | rebuildStart => exact execRebuildStart_keeps _ _ _ _ _ h
  | rebuildDone => exact execRebuildDone_keeps _ _ _ _ _ h
  | coarseFill => exact execCoarseFill_keeps _ _ _ h
  | jobStart => exact execJobStart_keeps _ _ _ h
  | jobRetire => exact execJobRetire_keeps _ _ _ h
  | jobAdvance => exact execJobAdvance_keeps _ _ _ h
  | jobWithdraw => exact execJobWithdraw_keeps _ _ _ h
  | jobQuery => exact execJobQuery_keeps _ _ _ h
  | jobQuota => exact execJobQuota_keeps _ _ _ h
  | pendingLimitExpiry => exact execPendingLimitExpiry_keeps _ _ _ h
  | jobRetired => exact execJobRetired_keeps _ _ _ h
  | retireSlow => exact execRetireSlow_keeps _ _ _ h
  | quarantineEnd => exact execQuarantineEnd_keeps _ _ _ h
  | spawnOpen => exact execSpawnOpen_keeps _ _ _ h
  | spawnClose => exact execSpawnClose_keeps _ _ _ h
  | spawnQuery => exact execSpawnQuery_keeps _ _ _ h
  | spawnBlock => exact execSpawnBlock_keeps _ _ _ _ h
  | spawnRangeReq => exact execSpawnRangeReq_keeps _ _ _ _ h
  | spawnAck => exact execSpawnAck_keeps _ _ _ _ h
  | spawnReparent => exact execSpawnReparent_keeps _ _ _ _ h
  | spawnAdopted => exact execSpawnAdopted_keeps _ _ _ _ h
  | spawnNack => exact execSpawnNack_keeps _ _ _ _ h
  | spawnGapTimer => exact execSpawnGapTimer_keeps _ _ _ _ h
  | counterValue => exact execCounterValue_keeps _ _ _ _ h
  | counterSelect => exact execCounterSelect_keeps _ _ _ _ h
  | counterWrap => exact execCounterWrap_keeps _ _ _ _ h
  | snapshotInstant => exact execSnapshotInstant_keeps _ _ _ h
  | sampler => exact execSampler_keeps _ _ _ _ h
  | sampleTaken => exact execSampleTaken_keeps _ _ _ _ _ _ h
  | powerOn => exact execPowerOn_keeps _ _ h
  | vaonLost => exact execVaonLost_keeps _ _ h
  | resetNAssert => exact execResetNAssert_keeps _ _ h
  | resetNRelease => exact execResetNRelease_keeps _ _ _ h
  | resetDevice => exact execResetDevice_keeps _ _ _ h
  | startupStepDone => exact execStartupStepDone_keeps _ _ _ _ _ _ _ _ _ h
  | startupRetry => exact execStartupRetry_keeps _ _ h
  | dieReset => exact execDieReset_keeps _ _ _ h
  | dieResetDone => exact execDieResetDone_keeps _ _ _ _ h
  | vinWarningEnter => exact execVinWarningEnter_keeps _ _ _ h
  | vinWarningExit => exact execVinWarningExit_keeps _ _ _ h
  | vinResetEnter => exact execVinResetEnter_keeps _ _ h
  | vinResetExit => exact execVinResetExit_keeps _ _ h
  | powerMeasure => exact execPowerMeasure_keeps _ _ _ _ _ _ _ h
  | regulatorFault => exact execRegulatorFault_keeps _ _ _ _ _ h
  | refclkFailover => exact execRefclkFailover_keeps _ _ _ h
  | refclkHoldExpiry => exact execRefclkHoldExpiry_keeps _ _ h
  | refclkSel => exact execRefclkSel_keeps _ _ _ h
  | switchClockIdle => exact execSwitchClockIdle_keeps _ _ _ h
  | keeperCoreIdle => exact execKeeperCoreIdle_keeps _ _ h
  | tempSample => exact execTempSample_keeps _ _ _ _ _ _ h
  | jtagInstruction => exact execJtagInstruction_keeps _ _ _ _ _ h
  | groupWordMissing => exact execGroupWordMissing_keeps _ _ h
  | linkFaultCleared => exact execLinkFaultCleared_keeps _ _ _ h
  | refclkRestored => exact execRefclkRestored_keeps _ _ _ h
  | dieRecoverableFault => exact execDieRecoverableFault_keeps _ _ _ h
  | mgmtPortLinkChange => exact execMgmtPortLinkChange_keeps _ _ _ _ h
  | ptpMessageSend => exact execPtpMessageSend_keeps _ _ _ _ h
  | vioRangeChange => exact execVioRangeChange_keeps _ _ _ h

/-- A step that takes a command keeps what the command keeps of the state without it in the queue. -/
theorem step_keeps {s t : State} {c : Instr} {rest : List Instr} (hp : s.pending = c :: rest) (h : step s = .next t) :
    Keeps { s with pending := rest } t :=
  (exec_keeps .rfl c).keeps t (step_of_pending hp ▸ h)

/-- Settles O4: an idle block changes nothing, and a command keeps each table's order. -/
theorem stepKeepsRising : Obligations.StepKeepsRising := by
  intro s t ⟨hregs, hjobs, hspawns⟩ h
  cases hp : s.pending with
  | nil =>
    obtain rfl : s = t := Host.Outcome.next.inj ((step_of_idle hp).symm.trans h)
    exact ⟨hregs, hjobs, hspawns⟩
  | cons c rest =>
    have hk := step_keeps hp h
    exact ⟨hk.elements hregs, hk.jobs hjobs, hk.sessions hspawns⟩

/-- Settles O5: the queue after a step is the rest that the command was run with. -/
theorem stepTakesOne : Obligations.StepTakesOne := by
  intro s t c rest hp h
  have hk := step_keeps hp h
  exact ⟨hk.queue, hk.fresh⟩

end Sys2Proof.Machine
end

section
/-!
The proof of the request messages' layout (R479, R480): fields of packed numbers, and items read as they were laid out.
-/
namespace Sys2Proof.Machine

/-! ### Fields of a packed number -/

theorem pack_lt (l : List (Nat × Nat)) : pack l < 2 ^ (l.map Prod.fst).sum := by
  induction l with
  | nil => exact Nat.one_pos
  | cons x l ih =>
    obtain ⟨w, v⟩ := x
    have hv : v % 2 ^ w + 1 ≤ 2 ^ w := Nat.mod_lt _ (Nat.two_pow_pos w)
    rw [pack_cons, List.map_cons, List.sum_cons, pow_add]
    calc v % 2 ^ w * 2 ^ (l.map Prod.fst).sum + pack l
      _ < (v % 2 ^ w + 1) * 2 ^ (l.map Prod.fst).sum := by rw [Nat.add_mul, Nat.one_mul]; exact Nat.add_lt_add_left ih _
      _ ≤ 2 ^ w * 2 ^ (l.map Prod.fst).sum := Nat.mul_le_mul_right _ hv

theorem pack_append (l m : List (Nat × Nat)) : pack (l ++ m) = pack l * 2 ^ (m.map Prod.fst).sum + pack m := by
  rw [pack, List.foldl_append, foldl_pack]
  rfl

/-- A field of a packed number, between the fields before it and those after it. -/
theorem bits_pack (pre : List (Nat × Nat)) (w v : Nat) (post : List (Nat × Nat)) {hi lo : Nat}
    (hlo : lo = (post.map Prod.fst).sum) (hw : hi + 1 - lo = w) : bits (pack (pre ++ (w, v) :: post)) hi lo = v % 2 ^ w := by
  have hsplit : pack (pre ++ (w, v) :: post) = pack post + 2 ^ lo * (v % 2 ^ w + 2 ^ w * pack pre) := by
    rw [pack_append, pack_cons, List.map_cons, List.sum_cons, pow_add, ← hlo]
    ring
  rw [bits_div, hw, hsplit, Nat.add_mul_div_left _ _ (Nat.two_pow_pos lo), Nat.div_eq_of_lt (hlo ▸ pack_lt post), Nat.zero_add,
    Nat.add_mul_mod_self_left, Nat.mod_mod]

theorem slice_append (p l r : List Byte) (off n : Nat) (hoff : p.length = off) (hn : l.length = n) :
    slice (p ++ l ++ r) off n = l := by
  subst hoff hn
  simp [slice]

/-! ### A request message laid out and read (R479, R480) -/

theorem bytes_length {x : ReqItem} : x.bytes.length = 12 + x.data.length + padding x.data.length := by
  simp [ReqItem.bytes, Nat.add_assoc]

/-- An item's bytes at the head of a content are read as the item, and the rest as the rest. -/
theorem parseItems_bytes {x : ReqItem} (hx : x.Formed) (n : Nat) (r : List Byte) :
    parseItems (n + 1) (x.bytes ++ r) = (parseItems n r).map (x :: ·) := by
  obtain ⟨hhead, hdata⟩ := hx
  have hh : field (x.bytes ++ r) 0 12 = x.head := by
    rw [ReqItem.bytes, List.append_assoc, List.append_assoc, field_toBytes, Nat.mod_eq_of_lt hhead]
  have hslice : slice (x.bytes ++ r) 12 x.data.length = x.data := by
    rw [ReqItem.bytes, List.append_assoc]
    exact slice_append _ _ _ _ _ (toBytes_length 12 _) rfl
  have hlen : (if bits x.head 95 92 = 2 then bits x.head 15 0 else 0) = x.data.length := hdata.symm
  have hdrop : (x.bytes ++ r).drop (12 + x.data.length + padding x.data.length) = r := by
    rw [← bytes_length, List.drop_left]
  simp only [parseItems, hh, hlen, hslice, hdrop, List.length_append, bytes_length]
  rw [if_neg (by omega), if_neg (by omega)]
  cases parseItems n r <;> rfl

theorem parseItems_itemBytes (l : List ReqItem) (hl : ∀ x ∈ l, x.Formed) : parseItems l.length (itemBytes l) = some l := by
  induction l with
  | nil => rfl
  | cons x l ih =>
    have hrest := ih (fun y hy => hl y (List.mem_cons_of_mem _ hy))
    simp only [itemBytes, List.flatMap_cons, List.length_cons] at hrest ⊢
    rw [parseItems_bytes (hl x List.mem_cons_self), hrest]
    rfl

/-- A request has at least one item, so at least the 12 bytes of its header. -/
theorem itemBytes_length {l : List ReqItem} (hl : 1 ≤ l.length) : 12 ≤ (itemBytes l).length := by
  cases l with
  | nil => exact absurd hl (by decide)
  | cons x l =>
    rw [itemBytes, List.flatMap_cons, List.length_append, bytes_length]
    omega

/-- Settles O6: the header's fields are read by their places in Table 5, and what lies between it and the MAC item by item. -/
theorem requestReadsBack : Obligations.RequestReadsBack := by
  intro limit slot txn retry l mac hslot hmac hl1 hl64 hl hlimit hlt
  have h12 := itemBytes_length hl1
  generalize hn : 16 + (itemBytes l).length + mac.length = n at hlimit
  generalize hh : pack [(4, 1), (4, 1), (8, 0), (16, slot), (32, txn), (1, b2n retry), (7, 0), (8, l.length), (16, n), (16, 0), (8, 0),
    (8, 0)] = h
  have hbytes : requestBytes slot txn retry l mac = toBytes 16 h ++ itemBytes l ++ mac := by
    simp only [requestBytes, hn, hh]
  have hlt' : h < 2 ^ 128 := hh ▸ pack_lt _
  have hfield : field (toBytes 16 h ++ itemBytes l ++ mac) 0 16 = h := by
    rw [List.append_assoc, field_toBytes, Nat.mod_eq_of_lt hlt']
  have hitems : bits h 55 48 = l.length := by
    rw [← hh]
    exact (bits_pack [(4, 1), (4, 1), (8, 0), (16, slot), (32, txn), (1, b2n retry), (7, 0)] 8 l.length _ rfl rfl).trans (Nat.mod_eq_of_lt (by omega))
  have hlength : bits h 47 32 = n := by
    rw [← hh]
    exact (bits_pack [(4, 1), (4, 1), (8, 0), (16, slot), (32, txn), (1, b2n retry), (7, 0), (8, l.length)] 16 n _ rfl rfl).trans (Nat.mod_eq_of_lt (by omega))
  have hkey : bits h 111 96 = slot := by
    rw [← hh]
    exact (bits_pack [(4, 1), (4, 1), (8, 0)] 16 slot _ rfl rfl).trans (Nat.mod_eq_of_lt (by omega))
  have htotal : (toBytes 16 h ++ itemBytes l ++ mac).length = n := by simp [← hn, Nat.add_assoc]
  have hcontent : ((toBytes 16 h ++ itemBytes l ++ mac).take (n - mac.length)).drop 16 = itemBytes l := by
    rw [List.take_left' (by simp [← hn]), List.drop_left' (toBytes_length 16 h)]
  simp only [requestItems, hbytes, hfield, hitems, hlength, hkey, htotal, ← hmac, hcontent]
  rw [if_neg (by omega)]
  exact parseItems_itemBytes l hl

end Sys2Proof.Machine
end

section
/-!
The proof that sums and their witnesses add up alike in every order (R43, R147, R149).
-/
namespace Sys2Proof.Machine

/-! ### Lists of integers added place by place -/

theorem zipWith_add_comm (x y : List Int) : List.zipWith (· + ·) x y = List.zipWith (· + ·) y x :=
  List.zipWith_comm_of_comm Int.add_comm

theorem zipWith_add_right_comm (z x y : List Int) :
    List.zipWith (· + ·) (List.zipWith (· + ·) z x) y = List.zipWith (· + ·) (List.zipWith (· + ·) z y) x := by
  induction z generalizing x y with
  | nil => rfl
  | cons a z ih =>
    cases x <;> cases y <;> simp [ih, Int.add_right_comm]

/-! ### Witnesses of sums (R147, R149) -/

theorem weightedSum_zipWith_add (seed off : Nat) (x y : List Int) (h : x.length = y.length) :
    weightedSum seed off (List.zipWith (· + ·) x y) = weightedSum seed off x + weightedSum seed off y := by
  induction x generalizing off y with
  | nil =>
    obtain rfl : y = [] := List.eq_nil_of_length_eq_zero h.symm
    rfl
  | cons a x ih =>
    cases y with
    | nil => exact absurd h (by simp)
    | cons b y =>
      simp only [List.zipWith_cons_cons, weightedSum_cons, ih (off + 1) y (by simpa using h)]
      ring

theorem weightedSum_zeros (seed off n : Nat) : weightedSum seed off (List.replicate n 0) = 0 := by
  induction n generalizing off with
  | zero => rfl
  | succ n ih => simp [List.replicate_succ, ih]

/-- Witnesses of two lists combine to the witness of their sum. -/
theorem witnessInts_zipWith_add (seed off : Nat) (x y : List Int) (h : x.length = y.length) :
    witnessInts seed off (List.zipWith (· + ·) x y) = combineWit 0 false (witnessInts seed off x) (witnessInts seed off y) := by
  have hsum : (witnessInts seed off (List.zipWith (· + ·) x y) : Int)
      = (witnessInts seed off x + witnessInts seed off y) % pMod := by
    simp only [witnessInts_eq_weightedSum, weightedSum_zipWith_add seed off x y h, Int.emod_add_emod, Int.add_emod_emod]
  exact_mod_cast hsum

theorem witnessInts_zeros (seed off n : Nat) : witnessInts seed off (List.replicate n 0) = 0 := by
  have h := witnessInts_eq_weightedSum seed off (List.replicate n 0)
  rw [weightedSum_zeros, Int.zero_emod] at h
  exact_mod_cast h

/-- The witness carried along with a running sum witnesses it. -/
theorem witnessInts_foldl_add (seed off : Nat) (ls : List (List Int)) (x : List Int) (h : ∀ l ∈ ls, l.length = x.length) :
    witnessInts seed off (ls.foldl (fun a b => List.zipWith (· + ·) a b) x)
      = ls.foldl (fun a b => combineWit 0 false a (witnessInts seed off b)) (witnessInts seed off x) := by
  induction ls generalizing x with
  | nil => rfl
  | cons l ls ih =>
    have hl := h l List.mem_cons_self
    have hls : ∀ m ∈ ls, m.length = (List.zipWith (· + ·) x l).length := fun m hm => by
      simp [h m (List.mem_cons_of_mem _ hm), hl]
    simp only [List.foldl_cons, ih _ hls, witnessInts_zipWith_add seed off x l hl.symm]

/-! ### Contributions joined (R43) -/

/-- Contributions of integers join in either order to whatever has been joined before. -/
theorem join_ints_right_comm (a : Acc) (x y : List Int) :
    (a.join 0 (.ints x)).join 0 (.ints y) = (a.join 0 (.ints y)).join 0 (.ints x) := by
  cases a with
  | empty => exact congrArg Acc.ints (zipWith_add_comm x y)
  | ints z => exact congrArg Acc.ints (zipWith_add_right_comm z x y)
  | keys _ => rfl
  | raws _ => rfl

/-- Settles O29: the witness is carried through the fold, and the joins commute. -/
theorem sumsAndWitnessesAdd : Obligations.SumsAndWitnessesAdd := by
  refine ⟨fun seed off ls n h => ?_, fun ls ms n hperm _ => ?_⟩
  · rw [witnessInts_foldl_add seed off ls _ (by simpa using h), witnessInts_zeros]
  · exact hperm.foldl_eq' (fun x _ y _ a => join_ints_right_comm a x y) _

end Sys2Proof.Machine
end

section
/-!
The symbols of the block code (R230) in a field of characteristic 2, and power sums over it.
-/
namespace Sys2Proof.Machine

/-! ### The symbols of R230 in a field -/

/-- The low `n` bits of a number as a polynomial at a point. -/
def bitPoly {F : Type} [Field F] (α : F) : Nat → Nat → F
  | 0, _ => 0
  | n + 1, a => (a % 2 : Nat) + α * bitPoly α n (a / 2)

/-- A symbol times the generator: the shift within `gfMul`. -/
def gfShift (a : Nat) : Nat := if a < 128 then 2 * a else (2 * a) ^^^ 0x11D

theorem gfMul_succ (n a b : Nat) : gfMul (n + 1) a b = (if b % 2 = 1 then a else 0) ^^^ gfMul n (gfShift a) (b / 2) := rfl

theorem gfShift_lt {a : Nat} (ha : a < 256) : gfShift a < 256 := by
  have hall : ∀ x : Fin 256, gfShift x < 256 := by decide +kernel
  exact hall ⟨a, ha⟩

theorem gfMul_lt (n : Nat) {a : Nat} (b : Nat) (ha : a < 256) : gfMul n a b < 256 := by
  induction n generalizing a b with
  | zero => exact Nat.zero_lt_succ _
  | succ n ih =>
    rw [gfMul_succ]
    refine Nat.xor_lt_two_pow (n := 8) ?_ (ih _ (gfShift_lt ha))
    split
    · exact ha
    · exact Nat.zero_lt_succ _

theorem gfPow_lt (n : Nat) : gfPow n < 256 := by
  induction n with
  | zero => decide
  | succ n ih => exact gfMul_lt 8 2 ih

/-- The power 254 of a symbol: the product of its powers 2, 4, ..., 128. -/
def gfInverse (a : Nat) : Nat :=
  let sq := fun (x : Nat) => gfMul 8 x x
  let a2 := sq a
  let a4 := sq a2
  let a8 := sq a4
  let a16 := sq a8
  let a32 := sq a16
  let a64 := sq a32
  [a4, a8, a16, a32, a64, sq a64].foldl (gfMul 8) a2

/-- Every symbol but 0 has an inverse. -/
theorem gfMul_inverse {a : Nat} (ha : a < 256) (h0 : a ≠ 0) : ∃ b, gfMul 8 a b = 1 := by
  have hall : ∀ x : Fin 256, x.val ≠ 0 → gfMul 8 x (gfInverse x) = 1 := by decide +kernel
  exact ⟨_, hall ⟨a, ha⟩ h0⟩

theorem gfPow_injOn : ∀ i < 68, ∀ j < 68, gfPow i = gfPow j → i = j := by
  decide +kernel

section
variable {F : Type} [Field F] (α : F)

theorem bitPoly_succ (n a : Nat) : bitPoly α (n + 1) a = (a % 2 : Nat) + α * bitPoly α n (a / 2) := rfl

@[simp] theorem bitPoly_zero (n : Nat) : bitPoly α n 0 = 0 := by
  induction n with
  | zero => rfl
  | succ n ih => simp [bitPoly_succ, ih]

/-- Bits above a number do not count. -/
theorem bitPoly_of_lt (n : Nat) {a : Nat} (ha : a < 2 ^ n) : bitPoly α (n + 1) a = bitPoly α n a := by
  induction n generalizing a with
  | zero =>
    obtain rfl : a = 0 := by omega
    exact bitPoly_zero α 1
  | succ n ih =>
    have hhalf : a / 2 < 2 ^ n := by rw [pow_succ] at ha; omega
    rw [bitPoly_succ α (n + 1), ih hhalf, bitPoly_succ α n]

theorem bitPoly_double (n a : Nat) : bitPoly α (n + 1) (2 * a) = α * bitPoly α n a := by
  rw [bitPoly_succ, Nat.mul_mod_right, Nat.mul_div_cancel_left _ Nat.two_pos, Nat.cast_zero, zero_add]

theorem bitPoly_two : bitPoly α 8 2 = α := by norm_num [bitPoly]

end

section
variable {F : Type} [Field F] [CharP F 2] {α : F} (hα : α ^ 8 + α ^ 4 + α ^ 3 + α ^ 2 + 1 = 0)

theorem bitPoly_xor (α : F) (n a b : Nat) : bitPoly α n (a ^^^ b) = bitPoly α n a + bitPoly α n b := by
  induction n generalizing a b with
  | zero => exact (add_zero 0).symm
  | succ n ih =>
    have hlow : (((a ^^^ b) % 2 : Nat) : F) = (a % 2 : Nat) + (b % 2 : Nat) := by
      rw [Nat.xor_mod_two_eq, ← CharP.cast_eq_mod, CharP.cast_eq_mod F 2 a |>.symm, ← CharP.cast_eq_mod F 2 b, Nat.cast_add]
    simp only [bitPoly_succ, hlow, Nat.xor_div_two, ih]
    ring

include hα in
theorem bitPoly_gfShift {a : Nat} (ha : a < 256) : bitPoly α 8 (gfShift a) = α * bitPoly α 8 a := by
  have hroot : bitPoly α 9 0x11D = 0 := by
    simp only [bitPoly]
    norm_num
    linear_combination hα
  rw [← bitPoly_of_lt α 8 (gfShift_lt ha), ← bitPoly_double, gfShift]
  split
  · rfl
  · rw [bitPoly_xor, hroot, add_zero]

include hα in
theorem bitPoly_gfMul (n : Nat) {a : Nat} (b : Nat) (ha : a < 256) :
    bitPoly α 8 (gfMul n a b) = bitPoly α 8 a * bitPoly α n b := by
  induction n generalizing a b with
  | zero => exact (bitPoly_zero α 8).trans (mul_zero _).symm
  | succ n ih =>
    rw [gfMul_succ, bitPoly_xor, ih _ (gfShift_lt ha), bitPoly_gfShift hα ha, bitPoly_succ α n b]
    rcases Nat.mod_two_eq_zero_or_one b with h | h
    · simp only [h, zero_ne_one, if_false, bitPoly_zero, Nat.cast_zero]
      ring
    · simp only [h, if_true, Nat.cast_one]
      ring

include hα in
theorem bitPoly_eq_zero_iff {a : Nat} (ha : a < 256) : bitPoly α 8 a = 0 ↔ a = 0 := by
  refine ⟨fun h => ?_, fun h => h ▸ bitPoly_zero α 8⟩
  by_contra h0
  obtain ⟨b, hb⟩ := gfMul_inverse ha h0
  have h1 := bitPoly_gfMul hα 8 b ha
  rw [hb, h, zero_mul] at h1
  norm_num [bitPoly] at h1

include hα in
theorem bitPoly_inj {a b : Nat} (ha : a < 256) (hb : b < 256) (h : bitPoly α 8 a = bitPoly α 8 b) : a = b := by
  have hx : bitPoly α 8 (a ^^^ b) = 0 := by rw [bitPoly_xor, h, CharTwo.add_self_eq_zero]
  exact Nat.xor_eq_zero_iff.mp ((bitPoly_eq_zero_iff hα (Nat.xor_lt_two_pow (n := 8) ha hb)).mp hx)

include hα in
theorem bitPoly_gfPow (n : Nat) : bitPoly α 8 (gfPow n) = α ^ n := by
  induction n with
  | zero => norm_num [bitPoly, gfPow]
  | succ n ih => rw [gfPow, bitPoly_gfMul hα 8 2 (gfPow_lt n), ih, bitPoly_two, pow_succ]

include hα in
theorem pow_injOn {i j : Nat} (hi : i < 68) (hj : j < 68) (h : α ^ i = α ^ j) : i = j := by
  rw [← bitPoly_gfPow hα, ← bitPoly_gfPow hα] at h
  exact gfPow_injOn i hi j hj (bitPoly_inj hα (gfPow_lt i) (gfPow_lt j) h)

end

/-- A field with a root of the polynomial of R230. -/
theorem exists_symbolField : ∃ (F : Type) (_ : Field F) (_ : CharP F 2) (α : F), α ^ 8 + α ^ 4 + α ^ 3 + α ^ 2 + 1 = 0 := by
  let p : Polynomial (AlgebraicClosure (ZMod 2)) := .X ^ 8 + .X ^ 4 + .X ^ 3 + .X ^ 2 + 1
  have hp : p.degree ≠ 0 := by
    have : p.degree = 8 := by simp only [p]; compute_degree!
    rw [this]
    decide
  obtain ⟨α, h⟩ := IsAlgClosed.exists_root p hp
  exact ⟨AlgebraicClosure (ZMod 2), inferInstance, inferInstance, α, by simpa [p] using h⟩

/-! ### Weighted power sums -/

/-- As many power sums as there are points vanish only where every weight does. -/
theorem weights_eq_zero {F : Type} [Field F] (x w : Nat → F) (s : Finset Nat) (hx : Set.InjOn x s)
    (h : ∀ j < s.card, ∑ i ∈ s, w i * x i ^ j = 0) : ∀ i ∈ s, w i = 0 := by
  induction s using Finset.induction_on generalizing w with
  | empty => exact fun _ hi => absurd hi (Finset.notMem_empty _)
  | insert a s ha ih =>
    have hcard := Finset.card_insert_of_notMem ha
    have hdiff : ∀ i ∈ s, w i * (x i - x a) = 0 := by
      refine ih _ (hx.mono (by simp)) (fun j hj => ?_)
      have h0 := h j (by omega)
      have h1 := h (j + 1) (by omega)
      rw [Finset.sum_insert ha] at h0 h1
      calc ∑ i ∈ s, w i * (x i - x a) * x i ^ j
        _ = ∑ i ∈ s, w i * x i ^ (j + 1) - x a * ∑ i ∈ s, w i * x i ^ j := by
          rw [Finset.mul_sum, ← Finset.sum_sub_distrib]
          exact Finset.sum_congr rfl (fun i _ => by ring)
        _ = 0 := by linear_combination h1 - x a * h0
    have hs : ∀ i ∈ s, w i = 0 := fun i hi => by
      refine (mul_eq_zero.mp (hdiff i hi)).resolve_right (sub_ne_zero.mpr (fun he => ha ?_))
      rwa [← hx (Finset.mem_insert_of_mem hi) (Finset.mem_insert_self a s) he]
    have ha0 := h 0 (by omega)
    rw [Finset.sum_insert ha, Finset.sum_eq_zero (fun i hi => by rw [hs i hi, zero_mul])] at ha0
    exact Finset.forall_mem_insert _ _ _ |>.mpr ⟨by simpa using ha0, hs⟩

end Sys2Proof.Machine
end

section
/-!
The classes of a block of R230: its syndromes are power sums of its errors.
-/
namespace Sys2Proof.Machine

/-! ### Syndromes -/

theorem syndrome_lt (l : List Byte) (x : Nat) : syndrome l x < 256 := by
  have hfold : ∀ a < 256, l.foldl (fun a b => gfMul 8 a x ^^^ b.toNat) a < 256 := by
    induction l with
    | nil => exact fun _ ha => ha
    | cons b l ih => exact fun a ha => ih _ (Nat.xor_lt_two_pow (n := 8) (gfMul_lt 8 x ha) b.isLt)
  exact hfold 0 (by decide)

section
variable {F : Type} [Field F] [CharP F 2] {α : F} (hα : α ^ 8 + α ^ 4 + α ^ 3 + α ^ 2 + 1 = 0)

include hα in
theorem bitPoly_foldl (l : List Byte) (x : Nat) {a : Nat} (ha : a < 256) :
    bitPoly α 8 (l.foldl (fun a b => gfMul 8 a x ^^^ b.toNat) a) = bitPoly α 8 a * bitPoly α 8 x ^ l.length
      + ∑ i ∈ Finset.range l.length, bitPoly α 8 (l.getD i 0).toNat * bitPoly α 8 x ^ (l.length - 1 - i) := by
  induction l generalizing a with
  | nil => simp
  | cons b l ih =>
    rw [List.foldl_cons, ih (Nat.xor_lt_two_pow (n := 8) (gfMul_lt 8 x ha) b.isLt), bitPoly_xor, bitPoly_gfMul hα 8 x ha,
      List.length_cons, Finset.sum_range_succ']
    have hsum : ∀ i ∈ Finset.range l.length, bitPoly α 8 ((b :: l).getD (i + 1) 0).toNat * bitPoly α 8 x ^ (l.length + 1 - 1 - (i + 1))
        = bitPoly α 8 (l.getD i 0).toNat * bitPoly α 8 x ^ (l.length - 1 - i) := fun i _ => by
      rw [List.getD_cons_succ, show l.length + 1 - 1 - (i + 1) = l.length - 1 - i by omega]
    rw [Finset.sum_congr rfl hsum, List.getD_cons_zero, show l.length + 1 - 1 - 0 = l.length by omega]
    ring

/-- A syndrome is the code word's polynomial at its point. -/
theorem bitPoly_syndrome (hα : α ^ 8 + α ^ 4 + α ^ 3 + α ^ 2 + 1 = 0) {l : List Byte} (hl : l.length = 68) (x : Nat) :
    bitPoly α 8 (syndrome l x) = ∑ i ∈ Finset.range 68, bitPoly α 8 (l.getD i 0).toNat * bitPoly α 8 x ^ (67 - i) := by
  rw [syndrome, bitPoly_foldl hα l x (by decide), bitPoly_zero, zero_mul, zero_add, hl]

/-- The difference of two blocks' symbols at a place, in the field. -/
def symbolDiff (α : F) (c r : List Byte) (i : Nat) : F := bitPoly α 8 ((c.getD i 0).toNat ^^^ (r.getD i 0).toNat)

include hα in
theorem symbolDiff_eq_zero_iff (c r : List Byte) (i : Nat) : symbolDiff α c r i = 0 ↔ c.getD i 0 = r.getD i 0 := by
  rw [symbolDiff, bitPoly_eq_zero_iff hα (Nat.xor_lt_two_pow (n := 8) (c.getD i 0).isLt (r.getD i 0).isLt), Nat.xor_eq_zero_iff,
    BitVec.toNat_inj]

include hα in
theorem bitPoly_two_pow {j : Nat} (hj : j < 4) : bitPoly α 8 (2 ^ j) = α ^ j := by
  have hpow : gfPow j = 2 ^ j := by
    interval_cases j <;> decide
  rw [← hpow, bitPoly_gfPow hα]

/-- The syndromes of a block are those of its difference from a clean one, wherever the two may differ. -/
theorem bitPoly_syndrome_of_clean (hα : α ^ 8 + α ^ 4 + α ^ 3 + α ^ 2 + 1 = 0) {c r : List Byte} (hc : c.length = 68) (hr : r.length = 68)
    {j : Nat} (hj : j < 4) (hclean : syndrome c (2 ^ j) = 0) {s : Finset Nat} (hs : s ⊆ Finset.range 68)
    (heq : ∀ i < 68, i ∉ s → c.getD i 0 = r.getD i 0) :
    bitPoly α 8 (syndrome r (2 ^ j)) = ∑ i ∈ s, symbolDiff α c r i * (α ^ (67 - i)) ^ j := by
  have hzero := bitPoly_syndrome hα hc (2 ^ j)
  rw [hclean, bitPoly_zero] at hzero
  have hsub : ∑ i ∈ s, symbolDiff α c r i * (α ^ (67 - i)) ^ j
      = ∑ i ∈ Finset.range 68, symbolDiff α c r i * (α ^ (67 - i)) ^ j := by
    refine Finset.sum_subset hs (fun i hi hn => ?_)
    rw [(symbolDiff_eq_zero_iff hα c r i).mpr (heq i (Finset.mem_range.mp hi) hn), zero_mul]
  rw [hsub, bitPoly_syndrome hα hr, ← zero_add (Finset.sum _ _), hzero, ← Finset.sum_add_distrib]
  refine Finset.sum_congr rfl (fun i _ => ?_)
  rw [symbolDiff, bitPoly_xor, bitPoly_two_pow hα hj, ← pow_mul, ← pow_mul, Nat.mul_comm j, add_mul]

end

/-! ### What classifies a block -/

theorem classify_eq_clean_iff (l : List Byte) : classify l = .clean ↔ ∀ j < 4, syndrome l (2 ^ j) = 0 := by
  have hall : (∀ j < 4, syndrome l (2 ^ j) = 0) ↔ syndrome l 1 = 0 ∧ syndrome l 2 = 0 ∧ syndrome l 4 = 0 ∧ syndrome l 8 = 0 :=
    ⟨fun h => ⟨h 0 (by decide), h 1 (by decide), h 2 (by decide), h 3 (by decide)⟩,
      fun ⟨h0, h1, h2, h3⟩ j hj => by interval_cases j <;> assumption⟩
  rw [hall, classify]
  split
  next h => exact ⟨fun _ => h, fun _ => rfl⟩
  next h =>
    refine ⟨fun he => ?_, fun h' => absurd h' h⟩
    split at he <;> exact absurd he (by decide)

/-- The place located in a block, where there is one. -/
def located (l : List Byte) : Option Nat := errorAt (syndrome l 1) (syndrome l 2) (syndrome l 4) (syndrome l 8)

theorem classify_of_located {l : List Byte} {p : Nat} (h : located l = some p) : classify l = .corrected := by
  rw [located] at h
  have h0 : syndrome l 1 ≠ 0 := fun h0 => by simp [errorAt, h0] at h
  simp [classify, h, h0]

theorem classify_eq_bad {l : List Byte} (hc : classify l ≠ .clean) (h : located l = none) : classify l = .bad := by
  rw [located] at h
  simp only [classify, h] at hc ⊢
  split at hc
  · exact absurd rfl hc
  · rw [if_neg ‹_›]; rfl

/-- Whether a place explains the four syndromes. -/
def explains (l : List Byte) (p : Nat) : Bool :=
  syndrome l 2 == gfMul 8 (syndrome l 1) (gfPow p) && syndrome l 4 == gfMul 8 (syndrome l 2) (gfPow p) &&
    syndrome l 8 == gfMul 8 (syndrome l 4) (gfPow p)

theorem located_eq_some_iff (l : List Byte) (p : Nat) : located l = some p ↔
    syndrome l 1 ≠ 0 ∧ p < 68 ∧ explains l p = true ∧ ∀ q < p, explains l q = false := by
  have hfind : located l = if syndrome l 1 = 0 then none else (List.range 68).find? (explains l) := rfl
  rw [hfind]
  split
  next h => simp [h]
  next h =>
    rw [List.find?_range_eq_some]
    simp only [List.mem_range, Bool.not_eq_true']
    tauto

section
variable {F : Type} [Field F] [CharP F 2] {α : F} (hα : α ^ 8 + α ^ 4 + α ^ 3 + α ^ 2 + 1 = 0)

include hα in
/-- A place explains the syndromes where they are powers of it. -/
theorem explains_iff (l : List Byte) (p : Nat) :
    explains l p = true ↔ ∀ j < 4, bitPoly α 8 (syndrome l (2 ^ j)) = bitPoly α 8 (syndrome l 1) * (α ^ p) ^ j := by
  have hstep : ∀ x y, syndrome l y = gfMul 8 (syndrome l x) (gfPow p)
      ↔ bitPoly α 8 (syndrome l y) = bitPoly α 8 (syndrome l x) * α ^ p := fun x y => by
    rw [← bitPoly_gfPow hα, ← bitPoly_gfMul hα 8 (gfPow p) (syndrome_lt l x)]
    exact ⟨congrArg _, bitPoly_inj hα (syndrome_lt l y) (gfMul_lt 8 _ (syndrome_lt l x))⟩
  simp only [explains, Bool.and_eq_true, beq_iff_eq, hstep]
  constructor
  · rintro ⟨⟨h1, h2⟩, h3⟩ j hj
    interval_cases j
    · simp
    · simpa using h1
    · simp only [Nat.reducePow, h2, h1]; ring
    · simp only [Nat.reducePow, h3, h2, h1]; ring
  · intro h
    have h1 := h 1 (by decide)
    have h2 := h 2 (by decide)
    have h3 := h 3 (by decide)
    simp only [Nat.reducePow] at h1 h2 h3
    refine ⟨⟨by rw [h1, pow_one], by rw [h2, h1]; ring⟩, by rw [h3, h2]; ring⟩

end

/-- A block that differs from a clean one in one symbol: the place is located, and the first syndrome is the difference. -/
theorem located_of_one {c r : List Byte} (hc : c.length = 68) (hr : r.length = 68) (hclean : classify c = .clean) {i : Nat}
    (hi : i < 68) (hne : c.getD i 0 ≠ r.getD i 0) (heq : ∀ k < 68, k ≠ i → c.getD k 0 = r.getD k 0) :
    located r = some (67 - i) ∧ syndrome r 1 = (c.getD i 0).toNat ^^^ (r.getD i 0).toNat := by
  obtain ⟨F, _, _, α, hα⟩ := exists_symbolField
  have hsynd : ∀ j < 4, bitPoly α 8 (syndrome r (2 ^ j)) = symbolDiff α c r i * (α ^ (67 - i)) ^ j := fun j hj => by
    rw [bitPoly_syndrome_of_clean hα hc hr hj ((classify_eq_clean_iff c).mp hclean j hj) (s := {i}) (by simpa using hi)
      (fun k hk hn => heq k hk (by simpa using hn)), Finset.sum_singleton]
  have h0 : syndrome r 1 = (c.getD i 0).toNat ^^^ (r.getD i 0).toNat := by
    have h := hsynd 0 (by decide)
    rw [pow_zero, pow_zero, mul_one] at h
    exact bitPoly_inj hα (syndrome_lt r 1) (Nat.xor_lt_two_pow (n := 8) (c.getD i 0).isLt (r.getD i 0).isLt) h
  have hd : bitPoly α 8 (syndrome r 1) = symbolDiff α c r i := congrArg _ h0
  have hd0 : symbolDiff α c r i ≠ 0 := fun h => hne ((symbolDiff_eq_zero_iff hα c r i).mp h)
  refine ⟨(located_eq_some_iff _ _).mpr ⟨fun h => hd0 (by rw [← hd, h, bitPoly_zero]), by omega, ?_, fun q hq => ?_⟩, h0⟩
  · exact (explains_iff hα r _).mpr (fun j hj => hd ▸ hsynd j hj)
  · by_contra hex
    have h1 := (explains_iff hα r q).mp (by simpa using hex) 1 (by decide)
    rw [hsynd 1 (by decide), hd, pow_one, pow_one] at h1
    exact absurd (pow_injOn hα (by omega) (by omega) (mul_left_cancel₀ hd0 h1)) (by omega)

/-- A block that differs from a clean one in two or three symbols is neither clean nor located. -/
theorem classify_of_two_or_three {c r : List Byte} (hc : c.length = 68) (hr : r.length = 68) (hclean : classify c = .clean)
    {s : Finset Nat} (hs : s ⊆ Finset.range 68) (hne : ∀ i < 68, i ∈ s ↔ c.getD i 0 ≠ r.getD i 0) (h2 : 2 ≤ s.card) (h3 : s.card ≤ 3) :
    classify r = .bad := by
  obtain ⟨F, _, _, α, hα⟩ := exists_symbolField
  have hplaces : ∀ t ⊆ Finset.range 68, Set.InjOn (fun i => α ^ (67 - i)) t := fun t ht i hi k hk h => by
    have hi' := Finset.mem_range.mp (ht hi)
    have hk' := Finset.mem_range.mp (ht hk)
    have := pow_injOn hα (i := 67 - i) (j := 67 - k) (by omega) (by omega) h
    omega
  have hsynd : ∀ t, s ⊆ t → t ⊆ Finset.range 68 → ∀ j < 4,
      bitPoly α 8 (syndrome r (2 ^ j)) = ∑ i ∈ t, symbolDiff α c r i * (α ^ (67 - i)) ^ j := fun t hst ht j hj =>
    bitPoly_syndrome_of_clean hα hc hr hj ((classify_eq_clean_iff c).mp hclean j hj) ht
      (fun i hi hn => not_not.mp (fun hd => hn (hst ((hne i hi).mpr hd))))
  have hdiff : ∀ i ∈ s, symbolDiff α c r i ≠ 0 := fun i hi h =>
    (hne i (Finset.mem_range.mp (hs hi))).mp hi ((symbolDiff_eq_zero_iff hα c r i).mp h)
  obtain ⟨a, ha, b, hb, hab⟩ := Finset.one_lt_card.mp h2
  refine classify_eq_bad (fun h => ?_) (Option.eq_none_iff_forall_ne_some.mpr (fun p h => ?_))
  · refine hdiff a ha (weights_eq_zero _ _ s (hplaces s hs) (fun j hj => ?_) a ha)
    rw [← hsynd s subset_rfl hs j (by omega), (classify_eq_clean_iff r).mp h j (by omega), bitPoly_zero]
  · obtain ⟨-, hp, hex, -⟩ := (located_eq_some_iff r p).mp h
    have hpow := (explains_iff hα r p).mp hex
    let t := insert (67 - p) s
    have ht : t ⊆ Finset.range 68 := Finset.insert_subset (Finset.mem_range.mpr (by omega)) hs
    have hcard : t.card ≤ 4 := (Finset.card_insert_le _ _).trans (by omega)
    let w := fun i => symbolDiff α c r i - if i = 67 - p then bitPoly α 8 (syndrome r 1) else 0
    have hw : ∀ i ∈ t, w i = 0 := by
      refine weights_eq_zero _ w t (hplaces t ht) (fun j hj => ?_)
      simp only [w, sub_mul, Finset.sum_sub_distrib, ite_mul, zero_mul]
      rw [← hsynd t (Finset.subset_insert _ _) ht j (by omega), Finset.sum_ite_eq' t, if_pos (Finset.mem_insert_self _ _),
        hpow j (by omega), show 67 - (67 - p) = p by omega, sub_self]
    have hplace : ∀ i ∈ s, i = 67 - p := fun i hi => by
      by_contra hip
      refine hdiff i hi ?_
      simpa [w, hip] using hw i (Finset.mem_insert_of_mem hi)
    exact hab ((hplace a ha).trans (hplace b hb).symm)

end Sys2Proof.Machine
end

section
/-!
The proof of the block code (R230): the encoder's blocks are clean, one bad symbol is corrected, two or three are never miscorrected.
-/
namespace Sys2Proof.Machine

/-! ### Bytes of numbers -/

theorem getD_toBytes (n v : Nat) {i : Nat} (hi : i < n) : (toBytes n v).getD i 0 = BitVec.ofNat 8 (v >>> (8 * (n - 1 - i))) := by
  induction n generalizing i with
  | zero => exact absurd hi (Nat.not_lt_zero i)
  | succ n ih =>
    cases i with
    | zero => rfl
    | succ i =>
      rw [toBytes, List.getD_cons_succ, ih (by omega)]
      congr 3
      omega

theorem ofBytes_cons (b : Byte) (l : List Byte) : ofBytes (b :: l) = b.toNat * 2 ^ (8 * l.length) + ofBytes l := by
  have hfold : ∀ (l : List Byte) (a : Nat), l.foldl (fun acc (b : Byte) => acc * 256 + b.toNat) a
      = a * 2 ^ (8 * l.length) + ofBytes l := by
    intro l
    induction l with
    | nil => intro a; simp [ofBytes]
    | cons c l ih =>
      intro a
      rw [ofBytes, List.foldl_cons, List.foldl_cons, ih, ih, List.length_cons, Nat.mul_add_one 8, pow_add]
      ring
  rw [ofBytes, List.foldl_cons, hfold]
  simp

theorem ofBytes_lt (l : List Byte) : ofBytes l < 2 ^ (8 * l.length) := by
  induction l with
  | nil => decide
  | cons b l ih =>
    rw [ofBytes_cons, List.length_cons, Nat.mul_add_one 8, pow_add]
    calc b.toNat * 2 ^ (8 * l.length) + ofBytes l
      _ < (b.toNat + 1) * 2 ^ (8 * l.length) := by rw [Nat.add_mul, Nat.one_mul]; exact Nat.add_lt_add_left ih _
      _ ≤ 2 ^ 8 * 2 ^ (8 * l.length) := Nat.mul_le_mul_right _ b.isLt
      _ = 2 ^ (8 * l.length) * 2 ^ 8 := Nat.mul_comm _ _

/-- Bytes that a number ends in stand at the end of its bytes. -/
theorem toBytes_append (m : Nat) (a : Nat) (l : List Byte) :
    toBytes (m + l.length) (a * 2 ^ (8 * l.length) + ofBytes l) = toBytes m a ++ l := by
  have hbyte : ∀ n, (a * 2 ^ (8 * l.length) + ofBytes l) >>> (8 * (n + l.length)) = a >>> (8 * n) := fun n => by
    rw [Nat.mul_add, Nat.add_comm (8 * n), Nat.shiftRight_add, Nat.shiftRight_eq_div_pow _ (8 * l.length), Nat.mul_comm a,
      Nat.mul_add_div (Nat.two_pow_pos _), Nat.div_eq_of_lt (ofBytes_lt l), Nat.add_zero]
  induction m with
  | zero =>
    rw [Nat.zero_add, toBytes, List.nil_append]
    clear hbyte
    induction l generalizing a with
    | nil => rfl
    | cons b l ih =>
      have hsplit : a * 2 ^ (8 * (b :: l).length) + ofBytes (b :: l) = (a * 256 + b.toNat) * 2 ^ (8 * l.length) + ofBytes l := by
        rw [ofBytes_cons, List.length_cons, Nat.mul_add_one 8, pow_add]
        ring
      rw [hsplit, List.length_cons, toBytes, ih, Nat.shiftRight_eq_div_pow, Nat.mul_comm _ (2 ^ _),
        Nat.mul_add_div (Nat.two_pow_pos _), Nat.div_eq_of_lt (ofBytes_lt l), Nat.add_zero]
      congr 1
      apply BitVec.eq_of_toNat_eq
      have := b.isLt
      rw [BitVec.toNat_ofNat]
      omega
  | succ m ih => rw [Nat.add_right_comm, toBytes, ih, hbyte, toBytes, List.cons_append]

/-! ### The encoder (R230) -/

/-- One step of the check bytes. -/
def checkStep (r : List Nat) (b : Byte) : List Nat :=
  List.zipWith (· ^^^ ·) (r.drop 1 ++ [0]) ((rsGen.drop 1).map (fun c => gfMul 8 (b.toNat ^^^ r.headD 0) c))

theorem checkBytes_eq (data : List Byte) : checkBytes data = data.foldl checkStep [0, 0, 0, 0] := rfl

theorem checkStep_quad (b : Byte) (r0 r1 r2 r3 : Nat) :
    let f := b.toNat ^^^ r0
    checkStep [r0, r1, r2, r3] b = [r1 ^^^ gfMul 8 f 15, r2 ^^^ gfMul 8 f 54, r3 ^^^ gfMul 8 f 120, 0 ^^^ gfMul 8 f 64] := by
  have hgen : rsGen.drop 1 = [15, 54, 120, 64] := by decide +kernel
  rw [checkStep, hgen]
  rfl

/-- The four check bytes after data whose syndromes are `s`: they agree with them, moved up by four places, at each root. -/
def Checks (s : Nat → Nat) (r : List Nat) : Prop :=
  ∃ r0 r1 r2 r3, r = [r0, r1, r2, r3] ∧ r0 < 256 ∧ r1 < 256 ∧ r2 < 256 ∧ r3 < 256 ∧
    ∀ (F : Type) [Field F] [CharP F 2] (α : F), α ^ 8 + α ^ 4 + α ^ 3 + α ^ 2 + 1 = 0 → ∀ j < 4,
      bitPoly α 8 r0 * (α ^ j) ^ 3 + bitPoly α 8 r1 * (α ^ j) ^ 2 + bitPoly α 8 r2 * α ^ j + bitPoly α 8 r3
        = bitPoly α 8 (s j) * (α ^ j) ^ 4

theorem rsGen_root {F : Type} [Field F] [CharP F 2] {α : F} (hα : α ^ 8 + α ^ 4 + α ^ 3 + α ^ 2 + 1 = 0) {j : Nat} (hj : j < 4) :
    (α ^ j) ^ 4 + bitPoly α 8 15 * (α ^ j) ^ 3 + bitPoly α 8 54 * (α ^ j) ^ 2 + bitPoly α 8 120 * α ^ j + bitPoly α 8 64 = 0 := by
  have hzero : ∀ j < 4, syndrome [1, 15, 54, 120, 64] (2 ^ j) = 0 := by decide +kernel
  have h := bitPoly_foldl hα [1, 15, 54, 120, 64] (2 ^ j) (a := 0) (by decide)
  rw [← syndrome, hzero j hj, bitPoly_zero, zero_mul, zero_add, bitPoly_two_pow hα hj] at h
  simp only [List.length_cons, List.length_nil, Finset.sum_range_succ, Finset.sum_range_zero, zero_add, List.getD_cons_zero,
    List.getD_cons_succ] at h
  have hone : bitPoly α 8 1 = 1 := by norm_num [bitPoly]
  change 0 = bitPoly α 8 1 * (α ^ j) ^ 4 + bitPoly α 8 15 * (α ^ j) ^ 3 + bitPoly α 8 54 * (α ^ j) ^ 2
    + bitPoly α 8 120 * (α ^ j) ^ 1 + bitPoly α 8 64 * (α ^ j) ^ 0 at h
  linear_combination -h - (α ^ j) ^ 4 * hone

theorem checkStep_checks {s : Nat → Nat} {r : List Nat} (h : Checks s r) (hs : ∀ j < 4, s j < 256) (b : Byte) :
    Checks (fun j => gfMul 8 (s j) (2 ^ j) ^^^ b.toNat) (checkStep r b) := by
  obtain ⟨r0, r1, r2, r3, rfl, h0, h1, h2, h3, hroot⟩ := h
  have hf : b.toNat ^^^ r0 < 256 := Nat.xor_lt_two_pow (n := 8) b.isLt h0
  have hx : ∀ x < 256, ∀ c, x ^^^ gfMul 8 (b.toNat ^^^ r0) c < 256 := fun x hx c =>
    Nat.xor_lt_two_pow (n := 8) hx (gfMul_lt 8 c hf)
  refine ⟨_, _, _, _, checkStep_quad b r0 r1 r2 r3, hx _ h1 _, hx _ h2 _, hx _ h3 _, hx 0 (by decide) _, ?_⟩
  intro F _ _ α hα j hj
  have hr := hroot F α hα j hj
  have hg := rsGen_root hα hj
  have htwo : (2 : F) = 0 := CharTwo.two_eq_zero
  simp only [bitPoly_xor, bitPoly_gfMul hα 8 _ hf, bitPoly_gfMul hα 8 _ (hs j hj), bitPoly_two_pow hα hj, bitPoly_zero]
  linear_combination α ^ j * hr + (bitPoly α 8 b.toNat + bitPoly α 8 r0) * hg
    - (bitPoly α 8 b.toNat + bitPoly α 8 r0) * (α ^ j) ^ 4 * htwo

theorem checkBytes_checks (data : List Byte) : Checks (fun j => syndrome data (2 ^ j)) (checkBytes data) := by
  have hfold : ∀ (data : List Byte) (s : Nat → Nat) (r : List Nat), (∀ j < 4, s j < 256) → Checks s r →
      Checks (fun j => data.foldl (fun a b => gfMul 8 a (2 ^ j) ^^^ b.toNat) (s j)) (data.foldl checkStep r) := by
    intro data
    induction data with
    | nil => exact fun _ _ _ h => h
    | cons b data ih =>
      intro s r hs h
      exact ih _ _ (fun j hj => Nat.xor_lt_two_pow (n := 8) (gfMul_lt 8 _ (hs j hj)) b.isLt) (checkStep_checks h hs b)
  exact hfold data (fun _ => 0) _ (by decide) ⟨0, 0, 0, 0, rfl, by decide, by decide, by decide, by decide, by simp⟩

/-- Data followed by its check bytes is clean. -/
theorem classify_data_checkBytes (data : List Byte) :
    classify (data ++ (checkBytes data).map (BitVec.ofNat 8)) = .clean := by
  obtain ⟨F, _, _, α, hα⟩ := exists_symbolField
  obtain ⟨r0, r1, r2, r3, hr, h0, h1, h2, h3, hroot⟩ := checkBytes_checks data
  refine (classify_eq_clean_iff _).mpr (fun j hj => ?_)
  refine (bitPoly_eq_zero_iff hα (syndrome_lt _ _)).mp ?_
  have hs := hroot F α hα j hj
  have hdouble : ∀ x : F, x + x = 0 := CharTwo.add_self_eq_zero
  rw [syndrome, List.foldl_append, ← syndrome, hr, bitPoly_foldl hα _ _ (syndrome_lt data _), bitPoly_two_pow hα hj]
  simp only [List.map_cons, List.map_nil, List.length_cons, List.length_nil, Finset.sum_range_succ, Finset.sum_range_zero, zero_add,
    List.getD_cons_zero, List.getD_cons_succ, BitVec.toNat_ofNat, Nat.mod_eq_of_lt, h0, h1, h2, h3, Nat.reducePow]
  norm_num
  linear_combination hs + hdouble (bitPoly α 8 (syndrome data (2 ^ j)) * (α ^ j) ^ 4)

/-! ### Code words stored and read (R230) -/

theorem checkBytes_length (data : List Byte) : (checkBytes data).length = 4 := by
  obtain ⟨_, _, _, _, hr, _⟩ := checkBytes_checks data
  rw [hr]
  rfl

/-- The check bytes of a block's data, as stored. -/
def storedChecks (v : BitVec 512) : List Byte := (checkBytes (toBytes 64 v.toNat)).map (BitVec.ofNat 8)

theorem storedChecks_length (v : BitVec 512) : (storedChecks v).length = 4 := by
  rw [storedChecks, List.length_map, checkBytes_length]

theorem storedChecks_lt (v : BitVec 512) : ofBytes (storedChecks v) < 2 ^ 32 := by
  have h := ofBytes_lt (storedChecks v)
  rwa [storedChecks_length] at h

theorem codeword_toNat (v : BitVec 512) : (codeword v).toNat = v.toNat * 2 ^ 32 + ofBytes (storedChecks v) := by
  have hv := v.isLt
  have hc := storedChecks_lt v
  rw [codeword, BitVec.toNat_ofNat]
  exact Nat.mod_eq_of_lt (by rw [storedChecks] at hc; omega)

theorem toBytes_codeword (v : BitVec 512) : toBytes 68 (codeword v).toNat = toBytes 64 v.toNat ++ storedChecks v := by
  have h := toBytes_append 64 v.toNat (storedChecks v)
  rwa [storedChecks_length, ← codeword_toNat] at h

theorem classify_codeword (v : BitVec 512) : classify (toBytes 68 (codeword v).toNat) = .clean := by
  rw [toBytes_codeword]
  exact classify_data_checkBytes _

/-- A block as read: the class of its bytes, and its data with the located symbol corrected. -/
theorem readWord_eq (raw : BitVec 544) : readWord raw = (classify (toBytes 68 raw.toNat),
    BitVec.ofNat 512 ((match located (toBytes 68 raw.toNat) with
      | some p => raw.toNat ^^^ (syndrome (toBytes 68 raw.toNat) 1 * 2 ^ (8 * p))
      | none => raw.toNat) / 2 ^ 32)) := rfl

theorem codeword_data (v : BitVec 512) : BitVec.ofNat 512 ((codeword v).toNat / 2 ^ 32) = v := by
  have hc := storedChecks_lt v
  have hdiv : (codeword v).toNat / 2 ^ 32 = v.toNat := by rw [codeword_toNat]; omega
  rw [hdiv, BitVec.ofNat_toNat, BitVec.setWidth_eq]

theorem located_of_clean {l : List Byte} (h : classify l = .clean) : located l = none := by
  have h0 : syndrome l 1 = 0 := (classify_eq_clean_iff l).mp h 0 (by decide)
  exact if_pos h0

theorem readWord_codeword (v : BitVec 512) : readWord (codeword v) = (.clean, v) := by
  rw [readWord_eq, located_of_clean (classify_codeword v), classify_codeword]
  exact congrArg _ (codeword_data v)

theorem symbol_lt {e p n m : Nat} (he : e < 256) (hp : p < n) (hm : 8 * n = m) : e * 2 ^ (8 * p) < 2 ^ m := by
  subst hm
  calc e * 2 ^ (8 * p)
    _ < 2 ^ 8 * 2 ^ (8 * p) := Nat.mul_lt_mul_of_pos_right he (Nat.two_pow_pos _)
    _ = 2 ^ (8 + 8 * p) := (pow_add 2 8 (8 * p)).symm
    _ ≤ 2 ^ (8 * n) := Nat.pow_le_pow_right Nat.two_pos (by omega)

/-- An error in the symbol at a power of x changes that byte alone. -/
theorem getD_toBytes_xor (w : Nat) {p e i : Nat} (hp : p < 68) (he : e < 256) (hi : i < 68) :
    ((toBytes 68 (w ^^^ (e * 2 ^ (8 * p)))).getD i 0).toNat
      = ((toBytes 68 w).getD i 0).toNat ^^^ (if i = 67 - p then e else 0) := by
  rw [getD_toBytes 68 _ hi, getD_toBytes 68 _ hi, BitVec.toNat_ofNat, BitVec.toNat_ofNat, Nat.shiftRight_xor_distrib, Nat.xor_mod_two_pow]
  congr 1
  rw [← Nat.shiftLeft_eq]
  split
  next h =>
    subst h
    rw [show 68 - 1 - (67 - p) = p by omega, Nat.shiftLeft_shiftRight, Nat.mod_eq_of_lt he]
  next h =>
    rw [Nat.shiftLeft_eq, Nat.shiftRight_eq_div_pow]
    rcases Nat.lt_or_ge (68 - 1 - i) p with hlt | hge
    · obtain ⟨d, hd⟩ := Nat.exists_eq_add_of_lt hlt
      rw [hd, show 8 * (68 - 1 - i + d + 1) = 8 * (68 - 1 - i) + (8 * d + 8) by ring, pow_add, Nat.mul_left_comm,
        Nat.mul_div_cancel_left _ (Nat.two_pow_pos _), pow_add, ← Nat.mul_assoc, Nat.mul_mod_left]
    · have hlt : e * 2 ^ (8 * p) < 2 ^ (8 * (68 - 1 - i)) := symbol_lt he (by omega) rfl
      rw [Nat.div_eq_of_lt hlt, Nat.zero_mod]

theorem xor_error_toNat (w : BitVec 544) {p e : Nat} (hp : p < 68) (he : e < 256) :
    (w ^^^ BitVec.ofNat 544 (e * 2 ^ (8 * p))).toNat = w.toNat ^^^ (e * 2 ^ (8 * p)) := by
  rw [BitVec.toNat_xor, BitVec.toNat_ofNat, Nat.mod_eq_of_lt (symbol_lt (m := 544) he hp rfl)]

/-- A block read with one symbol in error: the symbol is located and corrected. -/
theorem readWord_one_error (v : BitVec 512) {p e : Nat} (hp : p < 68) (h0 : 0 < e) (he : e < 256) :
    readWord (codeword v ^^^ BitVec.ofNat 544 (e * 2 ^ (8 * p))) = (.corrected, v) := by
  have hbyte := fun i (hi : i < 68) => getD_toBytes_xor (codeword v).toNat hp he hi
  obtain ⟨hloc, hsyn⟩ := located_of_one (toBytes_length 68 (codeword v).toNat)
    (toBytes_length 68 ((codeword v).toNat ^^^ (e * 2 ^ (8 * p)))) (classify_codeword v) (i := 67 - p) (by omega)
    (fun h => by
      have h' := hbyte (67 - p) (by omega)
      rw [← h, if_pos rfl] at h'
      have hxor := congrArg (((toBytes 68 (codeword v).toNat).getD (67 - p) 0).toNat ^^^ ·) h'
      simp only [Nat.xor_self, ← Nat.xor_assoc, Nat.zero_xor] at hxor
      omega)
    (fun k hk hne => BitVec.eq_of_toNat_eq (by rw [hbyte k hk, if_neg hne, Nat.xor_zero]))
  rw [hbyte (67 - p) (by omega), if_pos rfl, ← Nat.xor_assoc, Nat.xor_self, Nat.zero_xor] at hsyn
  rw [show 67 - (67 - p) = p by omega] at hloc
  rw [readWord_eq, xor_error_toNat _ hp he, classify_of_located hloc, hloc, hsyn]
  simp only [Nat.xor_assoc, Nat.xor_self, Nat.xor_zero, codeword_data]

/-! ### The classes of a block's errors -/

/-- Settles O32: one differing symbol is located, as its syndromes are powers of its place, and two or three are explained by no
place, as four power sums vanish only for no error. -/
theorem blockErrorsAreClassified : Obligations.BlockErrorsAreClassified := by
  refine ⟨fun c p e hc hclean hp hne => ?_, fun v => ⟨readWord_codeword v, fun p e hp h0 he => readWord_one_error v hp h0 he⟩,
    fun c r hc hr hclean => ?_⟩
  · have hset : (c.set p e).getD p 0 = e := by simp [List.getD, hc, hp]
    exact classify_of_located (located_of_one hc ((List.length_set ..).trans hc) hclean hp (by rwa [hset])
      (fun k _ hk => by simp [List.getD, List.getElem?_set_ne (Ne.symm hk)])).1
  · intro n hn
    have hcard : ((Finset.range 68).filter (fun i => c.getD i 0 ≠ r.getD i 0)).card = n := by
      simp only [n, Finset.card, Finset.filter, Finset.range, Multiset.range, ne_comm (a := c.getD _ 0)]
      simp
      rfl
    refine classify_of_two_or_three hc hr hclean (Finset.filter_subset (fun i => c.getD i 0 ≠ r.getD i 0) _) (fun i hi => ?_)
      (by omega) (by omega)
    simp [hi]

end Sys2Proof.Machine
end

section
/-!
The proof of the longest-prefix match (R318, R321): keys of prefixes, the filter, and the search from the longest length down.
-/
namespace Sys2Proof.Machine

/-! ### Tables looked up -/

theorem Tab.mem_of_get {α : Type} {m : Tab α} {k : Nat} {v : α} (h : m.get? k = some v) : (k, v) ∈ m := by
  induction m with
  | nil => exact absurd h (by simp [Tab.get?])
  | cons x r ih =>
    obtain ⟨i, w⟩ := x
    rw [Tab.get?] at h
    cases hk : Nat.beq i k
    · rw [hk] at h
      exact List.mem_cons_of_mem _ (ih h)
    · rw [hk] at h
      obtain rfl : i = k := Nat.beq_eq.mp hk
      obtain rfl : w = v := Option.some.inj h
      exact List.mem_cons_self

/-! ### Keys of prefixes (R317) -/

theorem pfxFam_pfxKey {fam n p : Nat} (hn : n < 256) (hp : p < 2 ^ 128) : pfxFam (pfxKey fam n p) = fam := by
  rw [pfxFam, pfxKey]
  omega

theorem pfxLen_pfxKey {fam n p : Nat} (hn : n < 256) (hp : p < 2 ^ 128) : pfxLen (pfxKey fam n p) = n := by
  rw [pfxLen, pfxKey]
  omega

theorem pfxVal_pfxKey {fam n p : Nat} (hp : p < 2 ^ 128) : pfxVal (pfxKey fam n p) = p := by
  rw [pfxVal, pfxKey]
  omega

theorem famBits_le (fam : Nat) : famBits fam ≤ 128 := by
  rw [famBits]
  split <;> omega

theorem maskTop_le (fam n a : Nat) : maskTop fam n a ≤ a := Nat.div_mul_le_self ..

theorem maskTop_zero {fam a : Nat} (ha : a < 2 ^ famBits fam) : maskTop fam 0 a = 0 := by
  rw [maskTop, Nat.sub_zero, Nat.div_eq_of_lt ha, Nat.zero_mul]

/-! ### The filter (R318) -/

/-- The top bits of an address agree with the address's filter index in the bits that both fix. -/
theorem prefixMeets_maskTop (fam n a : Nat) : prefixMeets fam n (maskTop fam n a) (filterIndex fam a) = true := by
  simp only [prefixMeets, beq_iff_eq]
  generalize hlo : filterLow fam = lo
  generalize hd : famBits fam - n = d
  have hdk : d ≤ max lo d := Nat.le_max_right ..
  have hlk : lo ≤ max lo d := Nat.le_max_left ..
  generalize max lo d = k at hdk hlk
  obtain ⟨e, rfl⟩ := Nat.exists_eq_add_of_le hdk
  have hmask : maskTop fam n a / 2 ^ (d + e) = a / 2 ^ (d + e) := by
    rw [maskTop, hd, pow_add, ← Nat.div_div_eq_div_mul, Nat.mul_div_cancel _ (Nat.two_pow_pos d), Nat.div_div_eq_div_mul]
  rw [hmask, filterIndex, hlo]
  obtain ⟨j, hj⟩ := Nat.exists_eq_add_of_le hlk
  rw [hj, Nat.add_sub_cancel_left, Nat.add_sub_add_left, pow_add, ← Nat.div_div_eq_div_mul]
  generalize a / 2 ^ lo = q
  rcases Nat.le_total j 16 with h | h
  · have hsplit : 65536 = 2 ^ j * 2 ^ (16 - j) := by rw [← pow_add, Nat.add_sub_cancel' h]; rfl
    rw [hsplit, Nat.mod_mul_right_div_self]
  · have hlt : q % 65536 < 2 ^ j := (Nat.mod_lt q (by decide)).trans_le (Nat.pow_le_pow_right (i := 16) Nat.two_pos h)
    rw [Nat.sub_eq_zero_of_le h, pow_zero, Nat.mod_one, Nat.div_eq_of_lt hlt]

/-- The filter has every prefix of an address that the table holds. -/
theorem filterBit_of_get (s : State) (die : Nat) {fam a n nh : Nat} (ha : a < 2 ^ famBits fam) (hn : n ≤ famBits fam)
    (h : s.net.prefixes.get? (pfxKey fam n (maskTop fam n a)) = some nh) : s.filterBit die fam (filterIndex fam a) n = true := by
  have hfam := famBits_le fam
  have hp : maskTop fam n a < 2 ^ 128 :=
    ((maskTop_le fam n a).trans_lt ha).trans_le (Nat.pow_le_pow_right Nat.two_pos hfam)
  rw [State.filterBit, Bool.or_eq_true, List.any_eq_true]
  refine .inr ⟨_, Tab.mem_of_get h, ?_⟩
  simp only [pfxFam_pfxKey (show n < 256 by omega) hp, pfxLen_pfxKey (show n < 256 by omega) hp, pfxVal_pfxKey hp,
    prefixMeets_maskTop, beq_self_eq_true, Bool.and_self]

/-! ### The search (R318, R321) -/

/-- The prefix of a length: its next hop where it has one, none where its entry has bad parity. -/
def State.lpmHit (s : State) (die fam a n nh : Nat) : Option (Nat × Nat) :=
  if s.parityBad die 4 (pfxKey fam n (maskTop fam n a)) then none else some (n, nh)

theorem lpmFrom_zero (s : State) (die : Nat) {fam a : Nat} (ha : a < 2 ^ famBits fam) :
    s.lpmFrom die fam a 0 = (s.net.prefixes.get? (pfxKey fam 0 (maskTop fam 0 a))).bind (s.lpmHit die fam a 0) := by
  have hfilter := fun nh => filterBit_of_get s die (nh := nh) ha (Nat.zero_le _)
  cases hget : s.net.prefixes.get? (pfxKey fam 0 (maskTop fam 0 a)) with
  | none =>
    rw [maskTop_zero ha] at hget
    simp [State.lpmFrom, hget]
  | some nh =>
    have hf := hfilter nh hget
    simp only [maskTop_zero ha] at hget
    simp [State.lpmFrom, State.lpmHit, hf, hget, maskTop_zero ha]

theorem lpmFrom_succ (s : State) (die : Nat) {fam a n : Nat} (ha : a < 2 ^ famBits fam) (hn : n + 1 ≤ famBits fam) :
    s.lpmFrom die fam a (n + 1) = (s.net.prefixes.get? (pfxKey fam (n + 1) (maskTop fam (n + 1) a))).elim
      (s.lpmFrom die fam a n) (s.lpmHit die fam a (n + 1)) := by
  have hfilter := fun nh => filterBit_of_get s die (nh := nh) ha hn
  rw [State.lpmFrom]
  cases hget : s.net.prefixes.get? (pfxKey fam (n + 1) (maskTop fam (n + 1) a)) with
  | none => simp [hget]
  | some nh => simp [hget, hfilter nh hget, State.lpmHit]

theorem lpmHit_eq_some_iff (s : State) (die fam a n nh m nh' : Nat) : s.lpmHit die fam a n nh = some (m, nh')
    ↔ s.parityBad die 4 (pfxKey fam n (maskTop fam n a)) = false ∧ n = m ∧ nh = nh' := by
  rw [State.lpmHit]
  split <;> simp [*]

/-- The search from a length down finds the longest prefix up to it. -/
theorem lpmFrom_eq_some_iff (s : State) (die : Nat) {fam a : Nat} (ha : a < 2 ^ famBits fam) (n m nh : Nat) (hn : n ≤ famBits fam) :
    s.lpmFrom die fam a n = some (m, nh) ↔
      m ≤ n ∧ s.net.prefixes.get? (pfxKey fam m (maskTop fam m a)) = some nh ∧
        s.parityBad die 4 (pfxKey fam m (maskTop fam m a)) = false ∧
        ∀ j, m < j → j ≤ n → s.net.prefixes.get? (pfxKey fam j (maskTop fam j a)) = none := by
  induction n with
  | zero =>
    rw [lpmFrom_zero s die ha, Option.bind_eq_some_iff]
    simp only [lpmHit_eq_some_iff]
    constructor
    · rintro ⟨nh', hget, hpar, rfl, rfl⟩
      exact ⟨Nat.le_refl 0, hget, hpar, fun j h1 h2 => absurd h1 (by omega)⟩
    · rintro ⟨hm, hget, hpar, -⟩
      obtain rfl : m = 0 := by omega
      exact ⟨nh, hget, hpar, rfl, rfl⟩
  | succ n ih =>
    rw [lpmFrom_succ s die ha hn]
    cases hget : s.net.prefixes.get? (pfxKey fam (n + 1) (maskTop fam (n + 1) a)) with
    | some nh' =>
      simp only [Option.elim_some, lpmHit_eq_some_iff]
      constructor
      · rintro ⟨hpar, rfl, rfl⟩
        exact ⟨Nat.le_refl _, hget, hpar, fun j h1 h2 => absurd h1 (by omega)⟩
      · rintro ⟨hm, hgetm, hpar, hlonger⟩
        obtain rfl : m = n + 1 := by
          by_contra hne
          exact absurd (hget.symm.trans (hlonger (n + 1) (by omega) (Nat.le_refl _))) (by simp)
        exact ⟨hpar, rfl, Option.some.inj (hget.symm.trans hgetm)⟩
    | none =>
      simp only [Option.elim_none, ih (by omega)]
      constructor
      · rintro ⟨hm, hgetm, hpar, hlonger⟩
        refine ⟨by omega, hgetm, hpar, fun j h1 h2 => ?_⟩
        rcases Nat.lt_or_eq_of_le h2 with h | rfl
        · exact hlonger j h1 (by omega)
        · exact hget
      · rintro ⟨hm, hgetm, hpar, hlonger⟩
        refine ⟨?_, hgetm, hpar, fun j h1 h2 => hlonger j h1 (by omega)⟩
        by_contra hlt
        obtain rfl : m = n + 1 := by omega
        exact absurd (hget.symm.trans hgetm) (by simp)

/-- Settles O43: the filter misses no prefix that the table holds, so the search is the table's own from the longest length down. -/
theorem longestPrefixMatches : Obligations.LongestPrefixMatches := by
  intro die fam a n nh s _ ha
  exact lpmFrom_eq_some_iff s die ha _ n nh (Nat.le_refl _)

end Sys2Proof.Machine
end

section
/-!
The proofs about notices: the queues they reach (R491-R494), and what a raised notice changes.
-/
namespace Sys2Proof.Machine

/-! ### Elements of different entries, and the notice queues -/

theorem elKey_ne_of_entry_ne {e el e' el' : Nat} (h : e ≠ e') (hl : el < 2 ^ 24) (hl' : el' < 2 ^ 24) : elKey e el ≠ elKey e' el' :=
  fun hk => h (elKey_inj hl hl' hk).1

theorem Tab.getD_set_same {α : Type} (m : Tab α) (k : Nat) (v d : α) : (m.set k v).getD k d = v := by
  rw [Tab.getD, Tab.get_set_same, Option.getD_some]

theorem Tab.getD_set_other {α : Type} (m : Tab α) {k j : Nat} (v d : α) (h : j ≠ k) : (m.set k v).getD j d = m.getD j d := by
  rw [Tab.getD, Tab.get_set_other m v h, Tab.getD]

@[simp] theorem State.nq_setNq_same (s : State) (q : Nat) (v : NQueue) : (s.setNq q v).nq q = v :=
  Tab.getD_set_same ..

theorem State.nq_setNq_other (s : State) {q p : Nat} (v : NQueue) (h : p ≠ q) : (s.setNq q v).nq p = s.nq p :=
  Tab.getD_set_other _ _ _ h

theorem State.nq_congr {s t : State} (h : t.mgmt.queues = s.mgmt.queues) (q : Nat) : t.nq q = s.nq q := by
  rw [State.nq, State.nq, h]

@[simp] theorem State.nq_begin (s : State) (t : Time) (q : Nat) : (s.begin t).nq q = s.nq q := rfl
@[simp] theorem State.nq_emit (s : State) (o : Output) (q : Nat) : (s.emit o).nq q = s.nq q := rfl
@[simp] theorem State.nq_wr (s : State) (e el v q : Nat) : (s.wr e el v).nq q = s.nq q := rfl
@[simp] theorem State.nq_bump (s : State) (e el n q : Nat) : (s.bump e el n).nq q = s.nq q := rfl

@[simp] theorem State.nq_raiseTo (s : State) (e el v q : Nat) : (s.raiseTo e el v).nq q = s.nq q := by
  unfold State.raiseTo
  split <;> rfl

@[simp] theorem State.nq_keeperWork (s : State) (q : Nat) : s.keeperWork.nq q = s.nq q := by
  rw [State.keeperWork_eq]
  rfl

@[simp] theorem State.nq_commitAt (s : State) (a : Access) (q : Nat) : (s.commitAt a).nq q = s.nq q := by
  rw [State.commitAt_eq]
  rfl

@[simp] theorem State.rd_bump_same (s : State) (e el n : Nat) : (s.bump e el n).rd e el = (s.rd e el + n) % 2 ^ 64 :=
  State.rd_wr_same ..

theorem State.rd_bump_other (s : State) {e el e' el' : Nat} (n : Nat) (h : elKey e' el' ≠ elKey e el) :
    (s.bump e el n).rd e' el' = s.rd e' el' :=
  State.rd_wr_other s _ h

@[simp] theorem State.rd_raiseTo_same (s : State) (e el v : Nat) : (s.raiseTo e el v).rd e el = max (s.rd e el) v := by
  unfold State.raiseTo
  split
  next h => rw [State.rd_wr_same, Nat.max_eq_right h.le]
  next h => rw [Nat.max_eq_left (Nat.le_of_not_lt h)]

theorem State.rd_raiseTo_other (s : State) {e el e' el' : Nat} (v : Nat) (h : elKey e' el' ≠ elKey e el) :
    (s.raiseTo e el v).rd e' el' = s.rd e' el' := by
  unfold State.raiseTo
  split
  · exact State.rd_wr_other s _ h
  · rfl

/-! ### A notice offered to a queue (R492, R494) -/

/-- A queue takes a notice: it is enabled, the severity is enough and its mask holds the code's row. -/
def State.takesNotice (s : State) (q code sev : Nat) : Prop :=
  bit (s.rd E.nqConfig q) 255 = true ∧ bits (s.rd E.nqConfig q) 251 250 ≤ sev ∧
    bit (bits (s.rd E.nqConfig q) 247 230) (noticeRow code) = true

theorem State.offer_not_taken {s : State} {q code sev : Nat} (h : ¬s.takesNotice q code sev) (rec : Nat) :
    s.offer q code sev rec = s := if_neg h

theorem State.offer_taken {s : State} {q code sev : Nat} (h : s.takesNotice q code sev) (hroom : (s.nq q).records.length < 4096)
    (rec : Nat) : s.offer q code sev rec = s.setNq q ((s.nq q).push s.now rec) :=
  (if_pos h).trans (if_neg (Nat.not_le_of_lt hroom))

/-- A full queue's loss counts the notice it discards. -/
theorem State.offer_full {s : State} {q code sev : Nat} (h : s.takesNotice q code sev) (hfull : 4096 ≤ (s.nq q).records.length)
    (rec : Nat) : ∃ loss, s.offer q code sev rec = (s.bump E.nqLost q 1).setNq q { s.nq q with loss := loss } :=
  ⟨_, (if_pos h).trans (if_pos hfull)⟩

theorem State.nq_offer_other (s : State) {q p : Nat} (code sev rec : Nat) (h : p ≠ q) : (s.offer q code sev rec).nq p = s.nq p := by
  by_cases ht : s.takesNotice q code sev
  · rcases Nat.lt_or_ge (s.nq q).records.length 4096 with hl | hl
    · rw [State.offer_taken ht hl, State.nq_setNq_other s _ h]
    · obtain ⟨loss, heq⟩ := State.offer_full ht hl rec
      rw [heq, State.nq_setNq_other _ _ h, State.nq_bump]
  · rw [State.offer_not_taken ht]

theorem State.rd_offer (s : State) {q e el : Nat} (code sev rec : Nat) (h : elKey e el ≠ elKey E.nqLost q) :
    (s.offer q code sev rec).rd e el = s.rd e el := by
  by_cases ht : s.takesNotice q code sev
  · rcases Nat.lt_or_ge (s.nq q).records.length 4096 with hl | hl
    · rw [State.offer_taken ht hl, State.rd_setNq]
    · obtain ⟨loss, heq⟩ := State.offer_full ht hl rec
      rw [heq, State.rd_setNq, State.rd_bump_other s 1 h]
  · rw [State.offer_not_taken ht]

/-! ### A notice limited to one per interval (R491) -/

theorem lastOf_append_same (l : List Limit) (code key : Nat) (t : Time) (h : ∀ x ∈ l, ¬(x.code = code ∧ x.key = key)) :
    lastOf (l ++ [⟨code, key, t⟩]) code key = some t := by
  induction l with
  | nil => simp [lastOf]
  | cons x l ih =>
    rw [List.cons_append, lastOf, if_neg (h x List.mem_cons_self), ih (fun y hy => h y (List.mem_cons_of_mem _ hy))]

/-- The limits with an occurrence at a time as the last of its code and key. -/
def limitsAt (l : List Limit) (code key : Nat) (t : Time) : List Limit :=
  l.filter (fun (x : Limit) => !(x.code == code && x.key == key)) ++ [⟨code, key, t⟩]

theorem lastOf_limitsAt (l : List Limit) (code key : Nat) (t : Time) : lastOf (limitsAt l code key t) code key = some t := by
  refine lastOf_append_same _ code key t (fun x hx => ?_)
  simpa [imp_iff_not_or] using (List.mem_filter.mp hx).2

theorem State.limited_inside {s : State} {interval key code : Nat} {x : Time} (hlast : lastOf s.mgmt.limits code key = some x)
    (hx : s.now < x + interval) (src : Nat) :
    s.limited interval key code src = (true, { s with mgmt := { s.mgmt with
      withheld := setWithheld s.mgmt.withheld code src (withheldOf s.mgmt.withheld code src + 1) } }) := by
  simp [State.limited, hlast, hx]

theorem State.limited_outside {s : State} {interval key code : Nat}
    (h : ¬∃ x, lastOf s.mgmt.limits code key = some x ∧ s.now < x + interval) (src : Nat) :
    s.limited interval key code src = (false, { s with mgmt := { s.mgmt with limits := limitsAt s.mgmt.limits code key s.now } }) := by
  unfold State.limited limitsAt
  cases hlast : lastOf s.mgmt.limits code key with
  | none => simp
  | some x =>
    have hx : ¬s.now < x + interval := fun hx => h ⟨x, hlast, hx⟩
    simp [hx]

theorem State.limited_regs (s : State) (interval key code src : Nat) : (s.limited interval key code src).2.regs = s.regs := by
  by_cases h : ∃ x, lastOf s.mgmt.limits code key = some x ∧ s.now < x + interval
  · obtain ⟨x, hlast, hx⟩ := h
    rw [State.limited_inside hlast hx]
  · rw [State.limited_outside h]

/-- Settles O9: the three cases of an offered notice, and the two of a limited one. -/
theorem noticesReachTheirQueues : Obligations.NoticesReachTheirQueues := by
  refine ⟨fun q code sev record s => ⟨fun h => State.offer_not_taken h record, fun h hroom => ?_, fun h hfull => ?_, fun p hp =>
    State.nq_offer_other s code sev record hp⟩, fun interval key code sev src ctx s => ⟨fun ⟨x, hlast, hx⟩ => ?_, fun h => ?_⟩⟩
  · simp only [State.offer_taken h hroom, State.nq_setNq_same]
    exact ⟨rfl, rfl, rfl⟩
  · obtain ⟨loss, heq⟩ := State.offer_full h hfull record
    simp only [heq, State.nq_setNq_same, State.rd_setNq, State.rd_bump_same, and_self]
  · rw [State.raiseLim, State.limited_inside hlast hx]
  · rw [State.raiseLim, State.limited_outside h]
    exact ⟨_, rfl, rfl, lastOf_limitsAt _ _ _ _, rfl⟩

/-! ### What a raised notice counts -/

/-- From one state to another `k` notices were counted, modulo 2^64, and the highest severity did not fall. -/
structure Counted (s t : State) (k : Nat) : Prop where
  raised : t.rd E.noticesRaised 0 % 2 ^ 64 = (s.rd E.noticesRaised 0 + k) % 2 ^ 64
  bound : s.rd E.noticesRaised 0 < 2 ^ 64 → t.rd E.noticesRaised 0 < 2 ^ 64
  severity : s.rd E.severityHighest 0 ≤ t.rd E.severityHighest 0

theorem Counted.trans {s t u : State} {k n : Nat} (h : Counted s t k) (h' : Counted t u n) : Counted s u (k + n) where
  raised := by
    have h1 := h.raised
    have h2 := h'.raised
    omega
  bound := fun hs => h'.bound (h.bound hs)
  severity := h.severity.trans h'.severity

theorem Counted.of_rd {s t : State} (hn : t.rd E.noticesRaised 0 = s.rd E.noticesRaised 0)
    (hs : t.rd E.severityHighest 0 = s.rd E.severityHighest 0) : Counted s t 0 :=
  ⟨by rw [hn, Nat.add_zero], fun h => hn ▸ h, hs.ge⟩

theorem State.rd_foldl_offer (code sev rec : Nat) {e el : Nat} (l : List Nat) (s : State)
    (h : ∀ q ∈ l, elKey e el ≠ elKey E.nqLost q) :
    (l.foldl (fun (s : State) q => s.offer q code sev rec) s).rd e el = s.rd e el := by
  induction l generalizing s with
  | nil => rfl
  | cons q l ih => rw [List.foldl_cons, ih _ (fun p hp => h p (List.mem_cons_of_mem _ hp)), State.rd_offer s _ _ _ (h q List.mem_cons_self)]

/-- A notice formed is counted once and its severity is reached; the queues and the keeper's clock count no notice. -/
theorem State.rd_form (s : State) (code sev src : Nat) (ctx : List Item) :
    (s.form code sev src ctx).rd E.noticesRaised 0 = (s.rd E.noticesRaised 0 + 1) % 2 ^ 64 ∧
      (s.form code sev src ctx).rd E.severityHighest 0 = max (s.rd E.severityHighest 0) sev := by
  have hqueue : ∀ e, e ≠ E.nqLost → ∀ q ∈ List.range 8, elKey e 0 ≠ elKey E.nqLost q := fun e he q hq =>
    elKey_ne_of_entry_ne he (by decide) (by have := List.mem_range.mp hq; omega)
  have hkeeper : ∀ t : State, ∀ e, e ≠ E.domainState → elKey e 0 ≠ elKey E.domainState (18 + t.keeper) := fun t e he =>
    elKey_ne_of_entry_ne he (by decide) (by have := t.keeper_lt; omega)
  unfold State.form
  dsimp only
  rw [State.rd_keeperWork _ (hkeeper _ _ (by decide)), State.rd_keeperWork _ (hkeeper _ _ (by decide)),
    State.rd_foldl_offer _ _ _ _ _ (hqueue _ (by decide)), State.rd_foldl_offer _ _ _ _ _ (hqueue _ (by decide))]
  generalize hw : { s with mgmt := { s.mgmt with withheld := setWithheld s.mgmt.withheld code src 0 } } = w
  have hcount : ((w.bump E.noticesRaised 0 1).raiseTo E.severityHighest 0 sev).rd E.noticesRaised 0 = (s.rd E.noticesRaised 0 + 1) % 2 ^ 64 := by
    rw [State.rd_raiseTo_other _ _ (by decide), State.rd_bump_same, ← hw]
    rfl
  have hsev : ((w.bump E.noticesRaised 0 1).raiseTo E.severityHighest 0 sev).rd E.severityHighest 0
      = max (s.rd E.severityHighest 0) sev := by
    rw [State.rd_raiseTo_same, State.rd_bump_other _ _ (by decide), ← hw]
    rfl
  split <;> exact ⟨hcount, hsev⟩

theorem State.form_counted (s : State) (code sev src : Nat) (ctx : List Item) : Counted s (s.form code sev src ctx) 1 := by
  obtain ⟨hn, hs⟩ := s.rd_form code sev src ctx
  exact ⟨by rw [hn, Nat.mod_mod], fun _ => hn ▸ Nat.mod_lt _ (by decide), hs ▸ Nat.le_max_left ..⟩

/-- A counter raised counts at most the one notice of its overflow. -/
theorem State.addCounter_counted (s : State) {b k : Nat} (n : Nat) (h : 6 * b + k < 2 ^ 24) :
    ∃ m ≤ 1, Counted s (s.addCounter b k n) m := by
  have hwr : ∀ v, Counted s (s.wr E.counterValue (6 * b + k) v) 0 := fun v =>
    Counted.of_rd (State.rd_wr_other s v (elKey_ne_of_entry_ne (by decide) (by decide) h))
      (State.rd_wr_other s v (elKey_ne_of_entry_ne (by decide) (by decide) h))
  unfold State.addCounter
  dsimp only
  split
  · exact ⟨0, Nat.zero_le _, Counted.of_rd rfl rfl⟩
  split
  · exact ⟨0, Nat.zero_le _, hwr _⟩
  · generalize hw : s.wr E.counterValue (6 * b + k) (2 ^ 63 + (s.rd E.counterValue (6 * b + k) % 2 ^ 48 + n) % 2 ^ 48) = w
    have hlim : Counted s (w.limited (65536 * 1000000000) b 0xA001 (b / 8)).2 0 := by
      have hregs := w.limited_regs (65536 * 1000000000) b 0xA001 (b / 8)
      exact (hw ▸ hwr _ : Counted s w 0).trans (Counted.of_rd (State.rd_congr hregs _ _) (State.rd_congr hregs _ _))
    split
    next u heq => rw [heq] at hlim; exact ⟨0, Nat.zero_le _, hlim⟩
    next u heq => rw [heq] at hlim; exact ⟨1, Nat.le_refl _, hlim.trans (State.form_counted u _ _ _ _)⟩

theorem State.countEvent_counted (s : State) {b : Nat} (event arg job n : Nat) (h : b < 2 ^ 20) :
    ∃ m ≤ 4, Counted s (s.countEvent b event arg job n) m := by
  have hfold : ∀ (f : State → Nat → State) (l : List Nat), (∀ t k, k ∈ l → ∃ m ≤ 1, Counted t (f t k) m) →
      ∀ t, ∃ m ≤ l.length, Counted t (l.foldl f t) m := by
    intro f l
    induction l with
    | nil => exact fun _ t => ⟨0, Nat.le_refl _, Counted.of_rd rfl rfl⟩
    | cons a l ih =>
      intro hf t
      obtain ⟨m, hm, h1⟩ := hf t a List.mem_cons_self
      obtain ⟨m', hm', h2⟩ := ih (fun t k hk => hf t k (List.mem_cons_of_mem _ hk)) (f t a)
      exact ⟨m + m', by rw [List.length_cons]; omega, h1.trans h2⟩
  refine hfold _ (List.range 4) (fun t k hk => ?_) s
  dsimp only
  split
  · exact t.addCounter_counted n (by have := List.mem_range.mp hk; omega)
  · exact ⟨0, Nat.zero_le _, Counted.of_rd rfl rfl⟩

/-- A notice raised is counted, once for itself and at most four times for counters that overflow on it. -/
theorem State.raise_counted (s : State) (code sev src : Nat) (ctx : List Item) :
    (s.raise code sev src ctx).rd E.noticesRaised 0 ≠ s.rd E.noticesRaised 0 ∧
      sev ≤ (s.raise code sev src ctx).rd E.severityHighest 0 := by
  obtain ⟨hn, hs⟩ := s.rd_form code sev src ctx
  obtain ⟨m, hm, hcount⟩ := (s.form code sev src ctx).countEvent_counted (b := 8 * (18 + s.keeper)) 0xA1 sev 0 1
    (by have := s.keeper_lt; omega)
  have hraised := hcount.raised
  have hbound := hcount.bound (hn ▸ Nat.mod_lt _ (by decide))
  exact ⟨by rw [State.raise]; omega, (hs ▸ Nat.le_max_right _ _ : sev ≤ _).trans hcount.severity⟩

/-- Settles O60: a notice changes what notices and counters change, and its count rises by one to five. -/
theorem noticesTouchLittle : Obligations.NoticesTouchLittle := by
  intro code sev src ctx s _ u
  obtain ⟨hn, hs⟩ := s.raise_counted code sev src ctx
  have hu : u = { s with regs := u.regs, out := u.out, mgmt := _ } := (s.raise_noted code sev src ctx).eq
  refine ⟨s.raise_sameEntries code sev src ctx, hn, hs, ?_⟩
  rw [hu]
  exact ⟨rfl, rfl, rfl, rfl, rfl, rfl, rfl, rfl, rfl, rfl, rfl, rfl⟩

end Sys2Proof.Machine
end

section
/-!
The proof that the causes of an item's status stand in their order (R478).
-/
namespace Sys2Proof.Machine

/-! ### The causes of an item's status, in their order (R478) -/

/-- Whether the rights of a request and the job it is confined to reach an entry. -/
def State.allows (s : State) (a : Access) (e : Nat) (write own : Bool) : Bool :=
  rightsAllow (s.rightsOf a.path) e write && (s.confined a.path).all (fun _ => inbandEntry e write && own)

/-- The causes that an entry's right, the configuration lock and the elements and length of an item give, once the request's
rights reach the entry. -/
def State.rowStatus (s : State) (r : EntryRow) (first count len : Nat) (write : Bool) : Nat :=
  if write && r.right == .ro then stReadOnly
  else if !write && r.right == .wo then stWriteOnly
  else if write && r.right == .rwl && s.rd E.configLock 0 == 1 then stLocked
  else if (if r.count = 0 then !(count == 0 && first == 0) else (count == 0 || decide (r.count < first + count))) then stNoElement
  else if !write then (if len = 0 then stOk else stLength)
  else
    let n := max count 1
    match r.ty with
    | .bytes lo hi => if r.count = 0 then (if lo ≤ len ∧ len ≤ hi then stOk else stLength)
      else if len = n * hi then stOk else stLength
    | ty => if len = n * ty.size then stOk else stLength

theorem State.itemStatus_absent {e : Nat} (h : entryRow e = none) (s : State) (a : Access) (first count len : Nat) (write own : Bool) :
    s.itemStatus a e first count len write own = stNoEntry := by
  simp only [State.itemStatus, h]

section
variable {s : State} {e : Nat} {r : EntryRow} (hr : entryRow e = some r) (a : Access) (first count len : Nat) (write own : Bool)
include hr

theorem State.itemStatus_recovery (h4 : s.rd E.deviceState 0 = 4) (hid : ¬(0x1000 ≤ e / 256 ∧ e / 256 ≤ 0x1003)) (hrow : e / 256 ≠ 0xF200) :
    s.itemStatus a e first count len write own = stRecovery := by
  have hrec : (s.rd E.deviceState 0 == 4 && !((decide (0x1000 ≤ e / 256) && decide (e / 256 ≤ 0x1003)) || e / 256 == 0xF200)) = true := by
    rw [← Bool.decide_and, decide_eq_false hid, beq_false_of_ne hrow, h4]
    rfl
  simp only [State.itemStatus, hr, hrec, if_true]

/-- Outside recovery the request's rights are tested first, then the entry's right, the lock, the elements and the length. -/
theorem State.itemStatus_of_row (h4 : s.rd E.deviceState 0 ≠ 4) :
    s.itemStatus a e first count len write own
      = if !s.allows a e write own then stNotAuthorised else s.rowStatus r first count len write := by
  have hrec : (s.rd E.deviceState 0 == 4) = false := beq_false_of_ne h4
  simp only [State.itemStatus, State.allows, State.rowStatus, hr, hrec, Bool.false_and, Bool.false_eq_true, if_false]
  cases s.confined a.path <;> rfl

end

/-- Settles O59: each cause is met once those before it are passed. -/
theorem causesInOrder : Obligations.CausesInOrder := by
  intro a e first count len write own s st allowed
  refine ⟨fun h => State.itemStatus_absent h s a first count len write own, fun r hr =>
    ⟨State.itemStatus_recovery hr a first count len write own, fun h4 => ?_⟩⟩
  have hst : st = if !allowed then stNotAuthorised else s.rowStatus r first count len write :=
    State.itemStatus_of_row hr a first count len write own h4
  refine ⟨fun h => ?_, fun h hw hro => ?_, fun h hw hwo => ?_, fun h hw hrwl hlock => ?_, fun h hw hwo => ⟨?_, ?_, ?_⟩⟩
  · rw [hst, h]; rfl
  · simp [hst, h, State.rowStatus, hw, hro]
  · simp [hst, h, State.rowStatus, hw, hwo]
  · simp [hst, h, State.rowStatus, hw, hrwl, hlock]
  · intro hc hel
    have hsome : (count == 0 && first == 0) = false := by
      rcases hel with hne | hne <;> simp [hne]
    simp only [hst, h, State.rowStatus, hw, hc, hsome]
    simp [hwo]
  · intro hc hel
    simp [hst, h, State.rowStatus, hw, hwo, hc.ne', hel]
  · intro hc h0 hel
    simp [hst, h, State.rowStatus, hw, hwo, hc.ne', h0.ne', Nat.not_lt_of_le hel]

end Sys2Proof.Machine
end

section
/-!
The proof that a frame's cells are freed by its last owner (R267).
-/
namespace Sys2Proof.Machine

/-! ### Frames found by their number -/

theorem findFrame_eq_find (l : List Stored) (id : Nat) : findFrame l id = l.find? (fun f => f.id == id) := by
  induction l with
  | nil => rfl
  | cons x l ih =>
    rw [findFrame, List.find?_cons, ih]
    by_cases hx : x.id = id <;> simp only [hx, if_true, if_false, beq_self_eq_true, beq_false_of_ne, ne_eq, not_false_eq_true]

theorem findFrame_id {l : List Stored} {id : Nat} {f : Stored} (h : findFrame l id = some f) : f.id = id := by
  rw [findFrame_eq_find] at h
  simpa using List.find?_some h

/-- A frame replaced is found in the place of the old one. -/
theorem findFrame_setFrame {l : List Stored} {f g : Stored} (h : findFrame l g.id = some f) : findFrame (setFrame l g) g.id = some g := by
  induction l with
  | nil => exact absurd h (by simp [findFrame])
  | cons x l ih =>
    rw [setFrame, List.map_cons, findFrame]
    by_cases hx : x.id = g.id
    · simp [hx]
    · rw [findFrame, if_neg hx] at h
      simpa [hx, setFrame] using ih h

theorem findFrame_freeFrame (s : State) (f : Stored) : findFrame (s.freeFrame f).net.frames f.id = none := by
  rw [State.freeFrame, findFrame_eq_find, List.find?_eq_none]
  intro x hx
  simpa using (List.mem_filter.mp hx).2

/-! ### An owner's release (R267) -/

/-- The owner's bit of a frame. -/
def Stored.owned (f : Stored) (owner : Nat) : Bool := if owner = ownerLocal then f.localOwner else f.owners.contains owner

/-- A frame with an owner's bit cleared. -/
def Stored.without (f : Stored) (owner : Nat) : Stored :=
  if owner = ownerLocal then { f with localOwner := false } else { f with owners := f.owners.erase owner }

theorem Stored.without_id (f : Stored) (owner : Nat) : (f.without owner).id = f.id := by
  rw [Stored.without]
  split <;> rfl

section
variable {s : State} {id : Nat} {f : Stored} (hf : findFrame s.net.frames id = some f) {owner : Nat}
include hf

theorem State.release_clear (h : f.owned owner = false) : s.release id owner
    = (s.bump E.doubleRelease 0 1).raise 0x5005 2 f.die [.v 16 f.die, .v 16 (ownerBit owner), .v 32 (f.cells.headD 0)] := by
  rw [State.release, hf]
  exact if_pos (by rw [← Stored.owned, h]; rfl)

theorem State.release_last (h : f.owned owner = true) (hlast : (f.without owner).owners = [] ∧ (f.without owner).localOwner = false) :
    s.release id owner = s.freeFrame (f.without owner) := by
  rw [State.release, hf]
  exact (if_neg (by rw [← Stored.owned, h]; exact Bool.false_ne_true)).trans (if_pos hlast)

theorem State.release_shared (h : f.owned owner = true)
    (hleft : ¬((f.without owner).owners = [] ∧ (f.without owner).localOwner = false)) :
    s.release id owner = { s with net := { s.net with frames := setFrame s.net.frames (f.without owner) } } := by
  rw [State.release, hf]
  exact (if_neg (by rw [← Stored.owned, h]; exact Bool.false_ne_true)).trans (if_neg hleft)

end

/-- Settles O39: a clear bit, a bit that leaves others set, and the last bit. -/
theorem cellsFreedByLastOwner : Obligations.CellsFreedByLastOwner := by
  intro id owner f s hf
  obtain rfl := findFrame_id hf
  have hshared : ∀ o, f.owned o = true → ¬((f.without o).owners = [] ∧ (f.without o).localOwner = false) →
      ∃ u, s.release f.id o = u ∧ u = { s with net := { s.net with frames := u.net.frames } } ∧
        findFrame u.net.frames f.id = some (f.without o) := fun o h hleft => by
    refine ⟨_, State.release_shared hf h hleft, rfl, ?_⟩
    have hfound := findFrame_setFrame (l := s.net.frames) (f := f) (g := f.without o) (by rw [Stored.without_id]; exact hf)
    rwa [Stored.without_id] at hfound
  have hlast : ∀ o, f.owned o = true → (f.without o).owners = [] ∧ (f.without o).localOwner = false →
      s.release f.id o = s.freeFrame (f.without o) ∧ findFrame (s.release f.id o).net.frames f.id = none := fun o h hl => by
    rw [State.release_last hf h hl]
    have hfree := findFrame_freeFrame s (f.without o)
    rw [Stored.without_id] at hfree
    exact ⟨rfl, hfree⟩
  refine ⟨fun h => State.release_clear hf ?_, fun hne hmem hleft => ?_, fun hloc hleft => ?_, fun hloc hnone => ?_, fun hne hown hloc => ?_⟩
  · rw [Stored.owned]
    split
    next heq => simpa [heq] using h
    next hne => simpa [hne] using h
  · have hw : f.without owner = { f with owners := f.owners.erase owner } := if_neg hne
    have := hshared owner (by rw [Stored.owned, if_neg hne]; simpa using hmem)
    rw [hw] at this
    exact this (by simpa [imp_iff_not_or] using hleft)
  · exact hshared ownerLocal hloc (fun h => hleft h.1)
  · exact hlast ownerLocal hloc ⟨hnone, rfl⟩
  · have hw : f.without owner = { f with owners := [] } := (if_neg hne).trans (by simp [hown])
    have := hlast owner (by rw [Stored.owned, if_neg hne]; simp [hown])
    rw [hw] at this
    exact this ⟨rfl, hloc⟩

end Sys2Proof.Machine
end

section
/-!
The proofs about the commands of the notice queues (R492-R494) and the ring of the PCIe window (R484).
-/
namespace Sys2Proof.Machine

/-- A meaning's next state, by another form of it. -/
theorem next_congr {s t : State} (h : s = t) : (Host.Outcome.next s : Host.Outcome State Fault Refusal) = .next t := congrArg _ h

/-! ### Records removed from a queue (R493, R494) -/

theorem State.reportLoss_of_none {s : State} {q : Nat} (h : (s.nq q).loss = none) : s.reportLoss q = s := by
  simp only [State.reportLoss, h]

theorem State.ackRecords_of_no_loss {s : State} {q : Nat} (h : (s.nq q).loss = none) (n : Nat) :
    s.ackRecords q n = s.setNq q { s.nq q with records := (s.nq q).records.drop n, pushed := (s.nq q).pushed - n } :=
  State.reportLoss_of_none (by rw [State.nq_setNq_same]; exact h)

theorem State.setNqConfig_of_no_loss {s : State} {q : Nat} (h : (s.nq q).loss = none) (v : Nat) :
    State.setNqConfig q v s = (s.wr E.nqConfig q (nqMask v)).setNq q { s.nq q with records := [], pushed := 0 } := by
  unfold State.setNqConfig
  dsimp only
  split
  · exact State.reportLoss_of_none (by rw [State.nq_setNq_same]; exact h)
  · rfl

theorem State.rd_answerItem (s : State) (status e el : Nat) : (s.answerItem status).rd e el = s.rd e el := rfl
theorem State.nq_answerItem (s : State) (status q : Nat) : (s.answerItem status).nq q = s.nq q := rfl
theorem State.answerItem_out (s : State) (status : Nat) : (s.answerItem status).out = s.out ++ [.item status 0] := rfl

theorem State.nqHead_of_poll {s : State} {q : Nat} (h : s.nqSink q = 0) :
    s.nqHead q = ((s.nq q).records.head?.map (fun r => r.record.toNat)).getD 0 := by
  rw [State.nqHead, if_pos h]
  cases (s.nq q).records.head? <;> rfl

theorem State.nqPop_of_poll {s : State} {q : Nat} (h : s.nqSink q = 0) (hloss : (s.nq q).loss = none) :
    s.nqPop q = s.setNq q { s.nq q with records := (s.nq q).records.drop 1, pushed := (s.nq q).pushed - 1 } := by
  rw [State.nqPop, if_pos h, State.ackRecords_of_no_loss hloss]

/-- A read of NQ_POP at a POLL queue with no loss to report. -/
theorem exec_nqPop {a : Access} {q : Nat} {s : State} (hg : s.Gives a E.nqPop q true) (hsink : s.nqSink q = 0)
    (hloss : (s.nq q).loss = none) : exec (.nqPop a q) s
      = .next (((s.begin a.t).setNq q { s.nq q with records := (s.nq q).records.drop 1, pushed := (s.nq q).pushed - 1 }).emit
          (.item stOk (((s.nq q).records.head?.map (fun r => r.record.toNat)).getD 0))) := by
  have hhead := State.nqHead_of_poll (s := s.begin a.t) hsink
  have hpop := State.nqPop_of_poll (s := s.begin a.t) hsink hloss
  exact next_congr ((State.readOne_ok hg).trans (by rw [hhead, hpop]; rfl))

/-- An acknowledgement that a DAP sink sends: its message passes each check of R481 and R493. -/
theorem exec_noticeAck {t : Time} {b : List Byte} {s : State} (hnet : s.netServed = true) (hlen : b.length = 32)
    (hver : bits (field b 0 16) 127 124 = 1) (hmsg : bits (field b 0 16) 123 120 = 4) (hslot : bits (field b 0 16) 111 96 < 16)
    (hlength : bits (field b 0 16) 47 32 = 32) (hitems : bits (field b 0 16) 55 48 = 0) (hq : bits (field b 0 16) 15 8 < 8)
    (hmac : s.dapMacOk (bits (field b 0 16) 111 96) b = true) (hp : s.pushes (bits (field b 0 16) 15 8) = true) :
    let nq := s.nq (bits (field b 0 16) 15 8)
    exec (.noticeAck t none b) s = .next ((s.begin t).keeperWork.ackRecords (bits (field b 0 16) 15 8)
      (ackCount (nq.records.take nq.pushed) (bits (field b 0 16) 31 16))) := by
  have hnet' : (s.begin t).netServed = true := hnet
  have hmac' : (s.begin t).dapMacOk (bits (field b 0 16) 111 96) b = true := hmac
  refine next_congr ((if_neg ?_).trans ((if_neg ?_).trans ((if_neg ?_).trans ((if_neg ?_).trans (if_pos hp)))))
  · simp [hnet']
  · simp only [not_or, not_lt, not_not, not_le]
    exact ⟨hlen.ge, hver, hmsg, hslot⟩
  · simp [hmac']
  · simp only [not_or, not_lt, not_not]
    exact ⟨hlen, hlength, Nat.le_of_lt_succ hq, hitems⟩

/-- Settles O10: each command's meaning on a queue with no loss to report. -/
theorem queueCommands : Obligations.QueueCommands := by
  refine ⟨fun a q r l s hg hsink hrec hloss => ?_, fun a q s hg hsink hrec hloss => ?_, fun a q v s ht hrule hloss => ?_,
    fun t q r l s hp hrec hdue => ?_, fun t q s hp hpushed hsent => ?_, ?_⟩
  · rw [exec_nqPop hg hsink hloss, hrec]
    rfl
  · refine ⟨_, exec_nqPop hg hsink hloss, ?_, ?_⟩
    · rw [hrec]; rfl
    · rw [State.nq_emit, State.nq_setNq_same, hrec]; rfl
  · have hcommit : ((s.commitAt a).nq q).loss = none := by rw [State.nq_commitAt]; exact hloss
    refine ⟨_, next_congr (State.writeOne_ok ht hrule), ?_⟩
    rw [State.setNqConfig_of_no_loss hcommit, State.rd_answerItem, State.rd_setNq, State.rd_wr_same, State.nq_answerItem,
      State.nq_setNq_same, State.nq_commitAt, State.answerItem_out, State.setNq_out, State.wr_out, State.commitAt_out]
    exact ⟨rfl, rfl, rfl, rfl, fun p hp => by
      rw [State.nq_answerItem, State.nq_setNq_other _ _ hp, State.nq_wr, State.nq_commitAt]⟩
  · refine next_congr (if_pos ⟨hp, ?_⟩)
    rw [State.nq_begin, hrec, List.head?_cons]
    exact (Bool.or_eq_true ..).mpr (hdue.imp decide_eq_true decide_eq_true)
  · exact next_congr (if_pos ⟨hp, hpushed, hsent⟩)
  · intro t b s h q hnet hlen hver hmsg hslot hlength hitems hq hmac hp hloss
    have hkeep : ((s.begin t).keeperWork.nq q).loss = none := by rw [State.nq_keeperWork]; exact hloss
    refine ⟨_, exec_noticeAck hnet hlen hver hmsg hslot hlength hitems hq hmac hp, ?_, fun p hne => ?_⟩
    · rw [State.ackRecords_of_no_loss hkeep, State.nq_setNq_same, State.nq_keeperWork, State.nq_begin]
    · rw [State.ackRecords_of_no_loss hkeep, State.nq_setNq_other _ _ hne, State.nq_keeperWork, State.nq_begin]

/-! ### The ring of the PCIe window (R484) -/

/-- The next record written to a ring that has room. -/
theorem exec_nringWrite {t : Time} {q : Nat} {r : Queued} {s : State} (hq : s.ringQueue = some q)
    (hr : ((s.nq q).records.drop (s.nq q).pushed).head? = some r)
    (hroom : (s.mgmt.ringHead + 1) % s.mgmt.ringSize ≠ s.mgmt.ringTail % s.mgmt.ringSize) :
    ∃ u, exec (.nringWrite t) s = .next u ∧ u.mgmt = { s.mgmt with
        queues := s.mgmt.queues.set q { s.nq q with pushed := (s.nq q).pushed + 1 }, ringHead := (s.mgmt.ringHead + 1) % s.mgmt.ringSize } ∧
      u.regs = s.regs ∧ u.out = .pcieWrite (s.mgmt.ringBase + 32 * s.mgmt.ringHead) r.record
        :: if s.mgmt.ringHead = s.mgmt.ringTail then [.msix 1] else [] := by
  have hq' : (s.begin t).ringQueue = some q := hq
  have hr' : (((s.begin t).nq q).records.drop ((s.begin t).nq q).pushed).head? = some r := hr
  have hroom' : ¬((s.begin t).mgmt.ringHead + 1) % (s.begin t).mgmt.ringSize = (s.begin t).mgmt.ringTail % (s.begin t).mgmt.ringSize := hroom
  have hw : ∀ w : State, w.mgmt = s.mgmt →
      { w.setNq q { (s.begin t).nq q with pushed := (s.nq q).pushed + 1 } with mgmt :=
        { (w.setNq q { (s.begin t).nq q with pushed := (s.nq q).pushed + 1 }).mgmt with
          ringHead := (s.mgmt.ringHead + 1) % s.mgmt.ringSize } }.mgmt = { s.mgmt with
        queues := s.mgmt.queues.set q { s.nq q with pushed := (s.nq q).pushed + 1 }, ringHead := (s.mgmt.ringHead + 1) % s.mgmt.ringSize } :=
    fun w h => by rw [State.setNq_mgmt, h]; rfl
  by_cases hempty : s.mgmt.ringHead = s.mgmt.ringTail
  · have hempty' : (s.begin t).mgmt.ringHead = (s.begin t).mgmt.ringTail := hempty
    refine ⟨_, next_congr ?_, hw (((s.begin t).emit (.pcieWrite (s.mgmt.ringBase + 32 * s.mgmt.ringHead) r.record)).emit (.msix 1)) rfl,
      rfl, by rw [if_pos hempty]; rfl⟩
    simp only [hq', hr', if_neg hroom', if_pos hempty']
    rfl
  · have hempty' : ¬(s.begin t).mgmt.ringHead = (s.begin t).mgmt.ringTail := hempty
    refine ⟨_, next_congr ?_, hw ((s.begin t).emit (.pcieWrite (s.mgmt.ringBase + 32 * s.mgmt.ringHead) r.record)) rfl,
      rfl, by rw [if_neg hempty]; rfl⟩
    simp only [hq', hr', if_neg hroom', if_neg hempty']
    rfl

theorem State.nq_of_queues {u : State} {m : Tab NQueue} {q : Nat} {v : NQueue} (h : u.mgmt.queues = m.set q v) : u.nq q = v := by
  rw [State.nq, h, Tab.getD_set_same]

/-- Settles O11: a record written, records acknowledged, and the window reset. -/
theorem ringOfThePciWindow : Obligations.RingOfThePciWindow := by
  refine ⟨fun t q r s hq hr hroom => ?_, ?_, fun t s => ?_⟩
  · obtain ⟨u, hu, hmgmt, hregs, hout⟩ := exec_nringWrite hq hr hroom (t := t)
    have hnq : u.nq q = { s.nq q with pushed := (s.nq q).pushed + 1 } := State.nq_of_queues (by rw [hmgmt])
    exact ⟨u, hu, by rw [hmgmt], by rw [hnq], by rw [hnq], hregs, hout⟩
  · intro t v q s hq hv hloss n
    have hq' : (s.begin t).ringQueue = some q := hq
    have hmod : v % 2 ^ 32 = v := Nat.mod_eq_of_lt hv
    refine ⟨(s.begin t).setTail v, next_congr ((if_pos rfl).trans (by rw [hmod])), ?_⟩
    simp only [State.setTail, hq']
    rw [State.ackRecords_of_no_loss (by exact hloss), State.nq_setNq_same]
    exact ⟨rfl, rfl, rfl⟩
  · refine ⟨_, rfl, rfl, rfl, rfl, rfl, rfl, rfl, rfl, rfl, ?_, fun q => ?_⟩
    · cases (s.begin t).ringQueue <;> rfl
    · cases hq : (s.begin t).ringQueue with
      | none => rfl
      | some p =>
        have hnq : ((s.begin t).setNq p { (s.begin t).nq p with pushed := 0 }).nq q
            = if q = p then { s.nq q with pushed := 0 } else s.nq q := by
          split
          next h => subst h; exact State.nq_setNq_same ..
          next h => exact State.nq_setNq_other _ _ h
        refine (congrArg NQueue.records hnq).trans ?_
        split <;> rfl

end Sys2Proof.Machine
end

section
/-!
The proof about request messages: judged on their arrival, kept waiting and executed (R476, R479-R487).
-/
namespace Sys2Proof.Machine

/-! ### What the keeper's work and an answer leave -/

theorem State.keeperWork_mgmt (s : State) : s.keeperWork.mgmt = s.mgmt := by
  rw [State.keeperWork_eq]

theorem State.rd_keeperWork_of_entry (s : State) {e el : Nat} (he : e ≠ E.domainState) (hl : el < 2 ^ 24) :
    s.keeperWork.rd e el = s.rd e el :=
  s.rd_keeperWork (elKey_ne_of_entry_ne he hl (by have := s.keeper_lt; omega))

/-- A request counted on its arrival: the management state is as it was. -/
theorem State.counted_mgmt (s : State) (el : Nat) : (s.keeperWork.bump E.dapCounts el 1).mgmt = s.mgmt := by
  rw [State.bump, State.wr_mgmt, State.keeperWork_mgmt]

theorem State.txn_congr {s t : State} (h : t.mgmt = s.mgmt) (slot : Nat) : t.txn slot = s.txn slot := by
  rw [State.txn, State.txn, h]

/-! ### A request taken in (R479-R483) -/

section
variable {s : State} {o : Origin} {path : Path} {b : List Byte} (hitems : (requestItems o.limit b).isSome = true)
include hitems

/-- A request with nothing against it waits behind those that wait. -/
theorem State.takeIn_queued
    (hheld : bits (field b 0 16) 111 96 < 16 → ¬(bit (field b 0 16) 63 = true ∧
      ((s.txn (bits (field b 0 16) 111 96)).held (bits (field b 0 16) 95 64)).isSome = true))
    (hfresh : bits (field b 0 16) 111 96 < 16 → (s.txn (bits (field b 0 16) 111 96)).fresh (bits (field b 0 16) 95 64) = true)
    (hroom : s.mgmt.waiting.length < 256) : s.takeIn o path b = (s.keeperWork.bump E.dapCounts 0 1).queueRequest o path b := by
  have htxn := State.txn_congr (s.counted_mgmt 0)
  have hnone : (requestItems o.limit b).isNone = false := by
    rw [← Option.not_isSome, hitems]
    rfl
  simp only [State.takeIn, htxn, hnone, s.counted_mgmt 0]
  refine (if_neg Bool.false_ne_true).trans ((if_neg ?_).trans ((if_neg ?_).trans (if_neg ?_)))
  · exact fun ⟨hslot, h⟩ => hheld hslot h
  · exact fun ⟨hslot, h⟩ => by simp [hfresh hslot] at h
  · exact fun ⟨hfull, _⟩ => absurd hroom (Nat.not_lt_of_le hfull)

/-- A request under a key whose transaction was executed is counted and goes no further. -/
theorem State.takeIn_stale (hslot : bits (field b 0 16) 111 96 < 16) (hretry : bit (field b 0 16) 63 = false)
    (hfresh : (s.txn (bits (field b 0 16) 111 96)).fresh (bits (field b 0 16) 95 64) = false) :
    s.takeIn o path b = (s.keeperWork.bump E.dapCounts 0 1).bump E.dapCounts 3 1 := by
  have htxn := State.txn_congr (s.counted_mgmt 0)
  have hnone : (requestItems o.limit b).isNone = false := by
    rw [← Option.not_isSome, hitems]
    rfl
  simp only [State.takeIn, htxn, hnone, hretry, hfresh]
  exact (if_neg Bool.false_ne_true).trans ((if_neg (fun h => Bool.false_ne_true h.2.1)).trans (if_pos ⟨hslot, rfl⟩))

/-- A request under a key that finds the queue full is counted and answered BUSY. -/
theorem State.takeIn_full (hretry : bit (field b 0 16) 63 = false)
    (hfresh : (s.txn (bits (field b 0 16) 111 96)).fresh (bits (field b 0 16) 95 64) = true) (hfull : 256 ≤ s.mgmt.waiting.length)
    (hpath : slotName path ≠ 0xFFFE) :
    s.takeIn o path b = ((s.keeperWork.bump E.dapCounts 0 1).bump E.dapCounts 4 1).answerWhole o (field b 0 16) stBusy := by
  have htxn := State.txn_congr (s.counted_mgmt 0)
  have hnone : (requestItems o.limit b).isNone = false := by
    rw [← Option.not_isSome, hitems]
    rfl
  simp only [State.takeIn, htxn, hnone, hretry, hfresh, s.counted_mgmt 0]
  refine (if_neg Bool.false_ne_true).trans ((if_neg (fun h => Bool.false_ne_true h.2.1)).trans ((if_neg ?_).trans (if_pos ⟨hfull, hpath⟩)))
  exact fun h => Bool.false_ne_true h.2

end

/-! ### Requests of UDP -/

section
variable {t : Time} {port addr udpPort : Nat} {b : List Byte} {s : State} (hnet : s.netServed = true) (hhead : requestHead b = true)
  (hslot : bits (field b 0 16) 111 96 < 16)
include hnet hhead hslot

theorem exec_dapRequest_unauthenticated (hmac : s.dapMacOk (bits (field b 0 16) 111 96) b = false) :
    exec (.dapRequest t port addr udpPort b) s = .next ((s.begin t).authFailed (bits (field b 0 16) 111 96)) := by
  have hnet' : (s.begin t).netServed = true := hnet
  have hmac' : (s.begin t).dapMacOk (bits (field b 0 16) 111 96) b = false := hmac
  refine next_congr ((if_neg (by simp [hnet'])).trans ((if_neg ?_).trans (if_pos (.inr (by rw [hmac']; rfl)))))
  simp [hhead, hslot]

theorem exec_dapRequest_authenticated (hlen : 32 ≤ b.length) (hmac : s.dapMacOk (bits (field b 0 16) 111 96) b = true) :
    exec (.dapRequest t port addr udpPort b) s
      = .next ((s.begin t).takeIn (.udp port addr udpPort) (.dap (bits (field b 0 16) 111 96)) b) := by
  have hnet' : (s.begin t).netServed = true := hnet
  have hmac' : (s.begin t).dapMacOk (bits (field b 0 16) 111 96) b = true := hmac
  refine next_congr ((if_neg (by simp [hnet'])).trans ((if_neg ?_).trans (if_neg ?_)))
  · simp [hhead, hslot]
  · simp [hlen, hmac']

end

/-- A request on a board path. -/
theorem State.localRequest_accepted {s : State} {o : Origin} {path : Path} {b : List Byte} (hhead : requestHead b = true)
    (hslot : bits (field b 0 16) 111 96 = 0xFFFE) : s.localRequest o path b = s.takeIn o path b := by
  refine if_neg ?_
  simp [hhead, hslot]

/-- A failed MAC: nothing waits for it, and its element of DAP_COUNTS counts it. -/
theorem State.authFailed_counts (s : State) (slot : Nat) : (s.authFailed slot).mgmt.waiting = s.mgmt.waiting ∧
    (s.authFailed slot).rd E.dapCounts 2 = (s.rd E.dapCounts 2 + 1) % 2 ^ 64 := by
  have hnoted := (s.bump E.dapCounts 2 1).raiseLim_noted sec 0 0xF002 1 31
    [.v 16 slot, .v 32 ((s.bump E.dapCounts 2 1).rd E.dapCounts 2)]
  have hsame := (s.bump E.dapCounts 2 1).raiseLim_sameEntries sec 0 0xF002 1 31
    [.v 16 slot, .v 32 ((s.bump E.dapCounts 2 1).rd E.dapCounts 2)]
  exact ⟨by rw [State.authFailed, hnoted.eq, State.bump, State.wr_mgmt],
    (hsame E.dapCounts 2 (by decide) (by decide)).trans (State.rd_bump_same ..)⟩

theorem State.answerWhole_udp (s : State) (port addr udpPort h status : Nat) :
    (s.answerWhole (.udp port addr udpPort) h status).mgmt = s.mgmt ∧
      (s.answerWhole (.udp port addr udpPort) h status).rd E.dapCounts 4 = s.rd E.dapCounts 4 := by
  rw [State.answerWhole, State.answer]
  rw [State.emit_mgmt, State.rd_emit, State.rd_bump_other _ _ (by decide), State.bump, State.wr_mgmt]
  exact ⟨rfl, rfl⟩

/-- The next waiting message, judged fresh, runs. -/
theorem exec_messageExecute {t : Time} {versions halted : Bool} {m : WaitMsg} {s : State}
    (hm : s.mgmt.waiting[nextMessage s.mgmt.waiting]? = some m)
    (hkeyed : bits (field m.bytes 0 16) 111 96 < 16 → (s.txn (bits (field m.bytes 0 16) 111 96)).fresh (bits (field m.bytes 0 16) 95 64) = true ∧
      ((s.txn (bits (field m.bytes 0 16) 111 96)).held (bits (field m.bytes 0 16) 95 64)) = none) :
    exec (.messageExecute t versions halted) s
      = .next (({ s.begin t with mgmt := { s.mgmt with waiting := s.mgmt.waiting.eraseIdx (nextMessage s.mgmt.waiting) } }).runMessage t m
          ⟨versions, halted⟩) := by
  have hm' : (s.begin t).mgmt.waiting[nextMessage (s.begin t).mgmt.waiting]? = some m := hm
  refine next_congr ?_
  simp only [hm']
  refine (if_neg ?_).trans (if_neg ?_)
  · intro ⟨hslot, _, hheld⟩
    have hnone := (hkeyed hslot).2
    change (((s.txn _).held _).isSome = true) at hheld
    rw [hnone] at hheld
    exact Bool.false_ne_true hheld
  · intro ⟨hslot, hstale⟩
    have hfresh := (hkeyed hslot).1
    change (!(s.txn _).fresh _) = true at hstale
    rw [hfresh] at hstale
    exact Bool.false_ne_true hstale

/-- Settles O7: a request is judged on its arrival and executed in its turn. -/
theorem requestMessages : Obligations.RequestMessages := by
  refine ⟨?_, fun t src job gen b s hnet hhead hslot hleader hitems hroom => ?_, fun t b s hmbx hboard hhead hslot hitems hroom => ?_, ?_, ?_, ?_⟩
  · intro t port addr udpPort b s slot hnet hhead hslot hlen hmac hitems hheld hfresh hroom
    rw [exec_dapRequest_authenticated hnet hhead hslot hlen hmac]
    exact next_congr (State.takeIn_queued (s := s.begin t) hitems (fun _ h => by
      have hheld' : (((s.begin t).txn slot).held (bits (field b 0 16) 95 64)).isSome = false := hheld
      rw [hheld'] at h; exact Bool.false_ne_true h.2) (fun _ => hfresh) hroom)
  · have hnet' : (s.begin t).inbandServed = true := hnet
    have hleader' : (s.begin t).leaderRequest src job gen = true := hleader
    refine next_congr ((if_neg (by simp [hnet'])).trans ((if_neg ?_).trans ((if_pos hslot).trans ((if_pos hleader').trans
      (State.takeIn_queued (s := s.begin t) hitems (fun h => absurd h (by omega)) (fun h => absurd h (by omega)) hroom)))))
    simp [hhead, hslot]
  · let w := { s.begin t with mgmt := { s.mgmt with mbx := .busy, mbxReq := b } }
    have htake : w.localRequest .pcie .pcie b = (w.keeperWork.bump E.dapCounts 0 1).queueRequest .pcie .pcie b :=
      (State.localRequest_accepted hhead hslot).trans
        (State.takeIn_queued (s := w) hitems (fun h => absurd h (by omega)) (fun h => absurd h (by omega)) hroom)
    refine ⟨w.localRequest .pcie .pcie b, next_congr (if_neg ?_), ?_⟩
    · have hboard' : (s.begin t).boardServed = true := hboard
      simp [hmbx, hboard']
    · simp only [htake, State.queueRequest, w.counted_mgmt 0]
      exact ⟨rfl, rfl, rfl⟩
  · intro t n s b hsmb hbusy hhead hslot hitems hroom
    let w := { s.begin t with mgmt := { s.mgmt with smb := .busy } }
    have htake : w.localRequest .smbus .smbus b = (w.keeperWork.bump E.dapCounts 0 1).queueRequest .smbus .smbus b :=
      (State.localRequest_accepted hhead hslot).trans
        (State.takeIn_queued (s := w) hitems (fun h => absurd h (by omega)) (fun h => absurd h (by omega)) hroom)
    refine ⟨w.localRequest .smbus .smbus b, next_congr (if_neg ?_), ?_⟩
    · have hsmb' : (s.begin t).smbusServed = true := hsmb
      simp [hbusy, hsmb']
    · simp only [htake, State.queueRequest, w.counted_mgmt 0]
      exact ⟨rfl, rfl⟩
  · intro t port addr udpPort b s u slot txn hnet hhead hslot hlen hitems hu
    refine ⟨fun hmac => ?_, fun hmac hretry hfresh => ?_, fun hmac hretry hfresh hfull => ?_⟩
    · rw [exec_dapRequest_unauthenticated hnet hhead hslot hmac] at hu
      obtain rfl := Host.Outcome.next.inj hu
      exact State.authFailed_counts (s.begin t) slot
    · rw [exec_dapRequest_authenticated hnet hhead hslot hlen hmac,
        State.takeIn_stale (s := s.begin t) (o := .udp port addr udpPort) (path := .dap slot) hitems hslot hretry hfresh] at hu
      obtain rfl := Host.Outcome.next.inj hu
      rw [State.rd_bump_same, State.rd_bump_other _ _ (by decide), State.rd_keeperWork_of_entry _ (by decide) (by decide),
        State.bump, State.wr_mgmt, State.counted_mgmt]
      exact ⟨rfl, rfl⟩
    · rw [exec_dapRequest_authenticated hnet hhead hslot hlen hmac, State.takeIn_full (s := s.begin t) (o := .udp port addr udpPort) (path := .dap slot) hitems hretry hfresh hfull
        (show slot ≠ 0xFFFE by omega)] at hu
      obtain rfl := Host.Outcome.next.inj hu
      obtain ⟨hmgmt, hcount⟩ := (((s.begin t).keeperWork.bump E.dapCounts 0 1).bump E.dapCounts 4 1).answerWhole_udp port addr udpPort
        (field b 0 16) stBusy
      rw [hmgmt, hcount, State.rd_bump_same, State.rd_bump_other _ _ (by decide), State.rd_keeperWork_of_entry _ (by decide) (by decide),
        State.bump, State.wr_mgmt, State.counted_mgmt]
      exact ⟨rfl, rfl⟩
  · intro t versions halted m l content s w h slot key resp hm hl hkeyed hexec hrun
    rw [exec_messageExecute hm hkeyed, State.runMessage, hl]
    dsimp only
    rw [hexec]
    exact next_congr (if_neg hrun)

end Sys2Proof.Machine
end

section
/-!
The proof about the mailbox and the SMBus target (R484, R485).
-/
namespace Sys2Proof.Machine

/-! ### Bytes written into a buffer at an offset -/

/-- Bytes written one after another: a place within them holds its byte, and every other what it held. -/
theorem Tab.get_writeBytes (l : List Byte) (off : Nat) (p : Nat → Bool) (m : Tab Byte) (i : Nat) :
    (((withIdx l off).filter (fun c => p c.1)).foldl (fun (m : List (Nat × Byte)) c => Tab.set m c.1 c.2) m : Tab Byte).get? i
      = if p i = true ∧ off ≤ i ∧ i < off + l.length then l[i - off]? else m.get? i := by
  induction l generalizing off m with
  | nil => exact (if_neg (fun h => absurd h.2.2 (by simpa using h.2.1))).symm
  | cons b l ih =>
    rw [withIdx, List.filter_cons]
    have hnext : ∀ m' : Tab Byte, m'.get? i = (if p off = true ∧ i = off then some b else m.get? i) →
        (if p i = true ∧ off + 1 ≤ i ∧ i < off + 1 + l.length then l[i - (off + 1)]? else m'.get? i)
          = if p i = true ∧ off ≤ i ∧ i < off + (b :: l).length then (b :: l)[i - off]? else m.get? i := by
      intro m' hm'
      rw [hm', List.length_cons]
      rcases Nat.lt_trichotomy i off with h | rfl | h
      · rw [if_neg (by omega), if_neg (by omega), if_neg (by omega)]
      · rw [if_neg (by omega), Nat.sub_self, List.getElem?_cons_zero]
        by_cases hp : p i = true
        · rw [if_pos ⟨hp, rfl⟩, if_pos ⟨hp, Nat.le_refl i, by omega⟩]
        · rw [if_neg (fun h => hp h.1), if_neg (fun h => hp h.1)]
      · obtain ⟨k, rfl⟩ := Nat.exists_eq_add_of_lt h
        rw [show off + k + 1 - off = k + 1 by omega, show off + k + 1 - (off + 1) = k by omega, List.getElem?_cons_succ]
        by_cases hp : p (off + k + 1) = true ∧ k < l.length
        · rw [if_pos ⟨hp.1, by omega, by omega⟩, if_pos ⟨hp.1, by omega, by omega⟩]
        · rw [if_neg (fun h => hp ⟨h.1, by omega⟩), if_neg (by omega), if_neg (fun h => hp ⟨h.1, by omega⟩)]
    split
    next hp =>
      rw [List.foldl_cons, ih]
      refine hnext _ ?_
      by_cases hi : i = off
      · subst hi
        rw [Tab.get_set_same, if_pos ⟨hp, rfl⟩]
      · rw [Tab.get_set_other _ _ hi, if_neg (fun h => hi h.2)]
    next hp =>
      rw [ih]
      exact hnext _ (if_neg (fun h => hp h.1)).symm

/-- Settles O8: each register's meaning while its path is served. -/
theorem boardPaths : Obligations.BoardPaths := by
  have hserved : ∀ (t : Time) {s : State}, s.smbusServed = true → ¬(!(s.begin t).smbusServed) = true := fun t s h => by
    change ¬(!s.smbusServed) = true
    rw [h]
    exact Bool.false_ne_true
  refine ⟨fun t s h => next_congr (if_pos h), fun t b s h => next_congr (if_pos (.inl h)),
    fun t s h => next_congr (if_neg (hserved t h)), fun t offset b s h hbusy hlen => ?_, fun t s h => ?_,
    fun t offset s h hlt => ?_, fun t s h => next_congr (if_neg (hserved t h)), fun t offset n b s h => ⟨?_, ?_, ?_⟩⟩
  · refine ⟨_, next_congr (if_neg ?_), rfl, fun i => ?_⟩
    · rintro (h1 | h1 | h1 | h1)
      · exact hserved t h h1
      · exact Bool.false_ne_true h1
      · omega
      · exact hbusy h1
    · refine (Tab.get_writeBytes b offset (fun i => decide (i < 1024)) _ i).trans ?_
      simp only [decide_eq_true_eq]
      rfl
  · refine next_congr ((if_neg (hserved t h)).trans ?_)
    have hcode : BitVec.ofNat 8 (Mbx.code s.mgmt.smb) = match s.mgmt.smb with
        | .idle => (0 : Byte)
        | .busy => 1
        | .done => 2 := by
      cases s.mgmt.smb <;> rfl
    exact congrArg (fun c => (s.begin t).emit (.smbus [c])) hcode
  · refine next_congr ((if_neg ?_).trans (by rw [Nat.mod_eq_of_lt hlt]; rfl))
    exact not_or.mpr ⟨hserved t h, Bool.false_ne_true⟩
  · exact next_congr (if_pos (.inr (.inl rfl)))
  · exact next_congr (if_pos (.inr (.inl rfl)))
  · exact next_congr (if_pos (.inr rfl))

end Sys2Proof.Machine
end

section
/-!
Writes by their entry's own rule, and the proof about the configuration lock, the key slots and ENTRY_QUERY (R472, R477, R496).
-/
namespace Sys2Proof.Machine

/-! ### Writes that pass the checks, by their entry's own rule (R475, R478) -/

/-- A write whose entry's own rule finds its value out of range answers RANGE and changes nothing. -/
theorem State.writeOne_range {s : State} {a : Access} {e el len val : Nat} {own : Bool} {rule : State → Verdict} {act : State → State}
    (h : s.Takes a e el len val own) (hr : rule (s.begin a.t) = .range) :
    s.writeOne a e el len val own rule act = (s.begin a.t).answerItem stRange := by
  obtain ⟨hp, hi, hv⟩ := h
  have hi' : (s.begin a.t).itemStatus a e el (countOf e) len true own = stOk := hi
  unfold State.writeOne State.writeWith
  simp [hp, hi', hv, hr, State.answerItem]

/-- A write that its entry's own rule refuses with a code leaves it in its status entry. -/
theorem State.writeOne_refused {s : State} {a : Access} {e el len val st code : Nat} {own : Bool} {rule : State → Verdict}
    {act : State → State} (h : s.Takes a e el len val own) (hr : rule (s.begin a.t) = .refused st code) :
    s.writeOne a e el len val own rule act = ((Verdict.refused st code).record (s.begin a.t)).answerItem stRefused :=
  State.writeWith_refused h hr

theorem Verdict.record_refused {st : Nat} (hst : st ≠ 0) (code : Nat) (s : State) : (Verdict.refused st code).record s = s.wr st 0 code :=
  if_neg hst

/-- A command that writes one element in its commit changes that element, COMMIT_LAST and the keeper's clock alone. -/
theorem State.sameBut_wr_commitAt (s : State) (a : Access) (e el v : Nat) :
    SameBut [(e, el), (E.commitLast, 0), (E.domainState, 18 + s.keeper)] s ((s.commitAt a).wr e el v) := by
  intro e' el' h
  simp only [List.map_cons, List.map_nil, List.mem_cons, List.not_mem_nil, or_false, not_or] at h
  obtain ⟨hel, hlast, hdom⟩ := h
  rw [State.rd_wr_other _ _ hel, State.rd_commitAt s a hlast hdom]

theorem SameBut.congr {l : List (Nat × Nat)} {s t u : State} (h : SameBut l s t) (hu : ∀ e el, u.rd e el = t.rd e el) : SameBut l s u :=
  fun e el he => (hu e el).trans (h e el he)

/-- Every element of another entry than COMMIT_LAST and the clock domains reads through a commit as before. -/
theorem State.rd_commitAt_of_entry (s : State) (a : Access) {e el : Nat} (hc : e ≠ E.commitLast) (hd : e ≠ E.domainState)
    (hl : el < 2 ^ 24) : (s.commitAt a).rd e el = s.rd e el :=
  s.rd_commitAt a (elKey_ne_of_entry_ne hc hl (by decide)) (elKey_ne_of_entry_ne hd hl (by have := s.keeper_lt; omega))

/-! ### The configuration lock, the key slots and the entry query (R472, R477, R496) -/

theorem bits_lt (v hi lo : Nat) : bits v hi lo < 2 ^ (hi + 1 - lo) := Nat.mod_lt _ (Nat.two_pow_pos _)

theorem bits_entryAnswer_name (v : Nat) : bits (entryAnswer v) 127 104 = bits v 127 104 := by
  have hlt := bits_lt v 127 104
  unfold entryAnswer
  dsimp only
  cases entryRow (bits v 127 104) with
  | none => exact (bits_pack [] 24 _ _ rfl rfl).trans (Nat.mod_eq_of_lt hlt)
  | some r => exact (bits_pack [] 24 _ _ rfl rfl).trans (Nat.mod_eq_of_lt hlt)

theorem bits_entryAnswer_absent {v : Nat} (h : entryRow (bits v 127 104) = none) : bits (entryAnswer v) 103 0 = 0 := by
  simp only [entryAnswer, h]
  exact bits_pack [(24, bits v 127 104)] 104 0 [] rfl rfl

theorem Ty.code_lt (ty : Ty) : ty.code < 2 ^ 8 := by
  unfold Ty.code
  split <;> decide

theorem Right.code_lt (r : Right) : r.code < 2 ^ 3 := by
  cases r <;> decide

theorem bits_entryAnswer_row {v : Nat} {r : EntryRow} (h : entryRow (bits v 127 104) = some r) :
    bits (entryAnswer v) 103 96 = r.ty.code ∧ bits (entryAnswer v) 95 93 = r.right.code ∧
      bits (entryAnswer v) 87 64 = max 1 r.count % 2 ^ 24 := by
  simp only [entryAnswer, h]
  exact ⟨(bits_pack [(24, _)] 8 _ _ rfl rfl).trans (Nat.mod_eq_of_lt r.ty.code_lt),
    (bits_pack [(24, _), (8, _)] 3 _ _ rfl rfl).trans (Nat.mod_eq_of_lt r.right.code_lt),
    bits_pack [(24, _), (8, _), (3, _), (1, _), (4, _)] 24 _ _ rfl rfl⟩

/-- A write of a RWL entry while the lock is set: none of the causes before LOCKED holds. -/
theorem State.itemStatus_locked {s : State} {a : Access} {e : Nat} {r : EntryRow} (hr : entryRow e = some r) (hrwl : r.right = .rwl)
    (hlock : s.rd E.configLock 0 = 1) (h4 : s.rd E.deviceState 0 ≠ 4) (hconf : s.confined a.path = none)
    (hrights : rightsAllow (s.rightsOf a.path) e true = true) (first count len : Nat) (own : Bool) :
    s.itemStatus a e first count len true own = stLocked := by
  have hallow : s.allows a e true own = true := by
    rw [State.allows, hrights, hconf]
    rfl
  rw [State.itemStatus_of_row hr a first count len true own h4, hallow]
  simp [State.rowStatus, hrwl, hlock]

/-- Settles O12: the lock set and met, a key slot set, and an entry named. -/
theorem configurationLockAndKeys : Obligations.ConfigurationLockAndKeys := by
  refine ⟨fun a s ht => ?_, fun a e first count len own r s hr hrwl hlock h4 hconf hrights =>
    State.itemStatus_locked hr hrwl hlock h4 hconf hrights first count len own, fun a v s hp hlock h4 hconf hrights => ?_,
    fun a v s ht hslot => ?_, fun a v s ht => ?_⟩
  · refine next_congr ((State.writeOne_ok ht rfl).trans ?_)
    rw [if_pos rfl, State.commitAt_power]
  · obtain ⟨r, hr, hrwl⟩ : ∃ r, entryRow E.configLock = some r ∧ r.right = .rwl := ⟨_, rfl, rfl⟩
    have hst := State.itemStatus_locked hr hrwl hlock h4 hconf hrights 0 (countOf E.configLock) 1 true
    exact next_congr ((State.writeWith_cause hp (by rw [hst]; decide)).trans (by rw [hst]))
  · have hrule : (if bits v.toNat 383 376 ≤ 17 then Verdict.ok else .range) = .ok := if_pos hslot
    refine ⟨_, next_congr (State.writeOne_ok ht hrule), ?_, Tab.get_set_same .., Tab.get_del_same .., fun k hk => ?_⟩
    · rfl
    · exact ⟨(Tab.get_set_other _ _ hk).trans (by rw [State.commitAt_mgmt]), (Tab.get_del_other _ hk).trans (by rw [State.commitAt_mgmt])⟩
  · have hrd : (((s.commitAt a).wr E.entryQuery 0 (entryAnswer v.toNat)).answerItem stOk).rd E.entryQuery 0 = entryAnswer v.toNat := by
      rw [State.rd_answerItem, State.rd_wr_same]
    refine ⟨_, next_congr (State.writeOne_ok ht rfl), ?_, (s.sameBut_wr_commitAt a _ _ _).congr (fun _ _ => State.rd_answerItem ..), ?_, ?_⟩
    · rw [State.answerItem_out, State.wr_out, State.commitAt_out]
      rfl
    · rw [hrd, bits_entryAnswer_name]
    · rw [hrd]
      split
      next h => exact bits_entryAnswer_absent h
      next r h => exact bits_entryAnswer_row h

end Sys2Proof.Machine
end

section
/-!
The proofs about firmware (R499), attestation and the colophon key (R500-R502).
-/
namespace Sys2Proof.Machine

/-! ### Firmware (R499) -/

theorem foldl_zipIdx_set (l : List Byte) (off k : Nat) (m : Tab Byte) :
    (l.zipIdx k).foldl (fun (m : Tab Byte) x => m.set (off + x.2) x.1) m
      = (withIdx l (off + k)).foldl (fun (m : List (Nat × Byte)) c => Tab.set m c.1 c.2) m := by
  induction l generalizing k m with
  | nil => rfl
  | cons b l ih =>
    rw [List.zipIdx_cons, List.foldl_cons, ih, withIdx, List.foldl_cons]
    rfl

/-- The staged image after a segment: the segment's bytes from its offset on, and the others as they were. -/
theorem stageSegment_get (d : List Byte) (s : State) (i : Nat) : Tab.get? (State.stageSegment d s).mgmt.fwStage i
    = if field d 0 4 ≤ i ∧ i < field d 0 4 + (d.drop 8).length then (d.drop 8)[i - field d 0 4]? else Tab.get? s.mgmt.fwStage i := by
  have h := Tab.get_writeBytes (d.drop 8) (field d 0 4) (fun _ => true) s.mgmt.fwStage i
  rw [List.filter_true] at h
  simp only [true_and] at h
  rw [← h]
  exact congrArg (fun m : Tab Byte => m.get? i) (foldl_zipIdx_set (d.drop 8) (field d 0 4) 0 s.mgmt.fwStage)

/-- The code that the end of a verification reports (R499). -/
def State.verifyCode (s : State) (img : Option (List Byte)) (signed : Bool) (svn : Nat) : Nat :=
  if img.isNone then 0x01 else if !signed then 0x02 else if svn < s.rd E.fwSvnMin 0 then 0x03 else 0

/-- The staged image's verification over, with a code. -/
def State.verified (s : State) (code : Nat) : State :=
  { s.wr E.fwStatus 0 code with mgmt := { s.mgmt with fwImage := none, fwStage := [] } }

/-- An image that passed written to the slot not running, which is preferred from then on. -/
def State.written (s : State) (img : Option (List Byte)) (svn version : Nat) : State :=
  let slot := 1 - s.rd E.bootSlot 0
  { s.wr E.bootPref 0 slot with mgmt := { s.mgmt with
    fwSlots := s.mgmt.fwSlots.set slot ⟨false, svn, version, sha384 (img.getD [])⟩ } }.raise 0xF006 0 31 [.v 16 slot, .v 32 version]

theorem exec_fwVerifyDone {t : Time} {shape signed : Bool} {svn version n : Nat} {s : State} (h : s.mgmt.fwImage = some n) :
    let img := if shape then s.stagedImage n else none
    let code := (s.begin t).verifyCode img signed svn
    exec (.fwVerifyDone t shape signed svn version) s
      = .next (if code ≠ 0 then (s.begin t).verified code else ((s.begin t).verified code).written img svn version) := by
  have h' : (s.begin t).mgmt.fwImage = some n := h
  refine next_congr ?_
  rw [h']
  rfl

/-- Settles O13: an image staged, verified and committed. -/
theorem firmware : Obligations.Firmware := by
  refine ⟨fun a d s ht h1 h4096 hlen => ?_, fun a n s ht hst => ?_, ?_, fun t shape signed svn version n s himg hbad => ?_, fun a s ht => ?_⟩
  · have hrule : fwStageRule d (s.begin a.t) = .ok :=
      (if_neg (show ¬(field d 4 4 = 0 ∨ 4096 < field d 4 4) by omega)).trans (if_neg (not_not.mpr hlen))
    refine ⟨_, next_congr (State.writeOne_ok ht hrule), ?_, fun i => ?_⟩
    · simp only [State.stageSegment, State.commitAt_mgmt]
      rfl
    · refine (stageSegment_get d (s.commitAt a) i).trans ?_
      rw [State.commitAt_mgmt, List.length_drop, hlen, Nat.add_sub_cancel_left]
  · have hrule : (if (s.begin a.t).rd E.fwStatus 0 = 0xFF then Verdict.refused 0 0 else .ok) = .ok := if_neg hst
    refine next_congr ((State.writeOne_ok ht hrule).trans ?_)
    rw [State.commitAt_mgmt]
  · intro t signed svn version n img s himg hst hsigned hsvn slot
    have hcode : (s.begin t).verifyCode (if true then s.stagedImage n else none) signed svn = 0 := by
      simp [State.verifyCode, hst, hsigned, Nat.not_lt_of_le hsvn]
    have hslot : ((s.begin t).verified 0).rd E.bootSlot 0 = s.rd E.bootSlot 0 :=
      State.rd_wr_other (s.begin t) (e := E.fwStatus) (el := 0) 0 (by decide)
    have himage : (if true then s.stagedImage n else none) = some img := hst
    rw [exec_fwVerifyDone himg, hcode, himage, if_neg (not_not.mpr rfl), State.written, hslot]
    rfl
  · have hcode : (s.begin t).verifyCode (if shape then s.stagedImage n else none) signed svn
        = if shape = false ∨ s.stagedImage n = none then 1 else if signed = false then 2 else 3 := by
      cases shape <;> cases hst : s.stagedImage n <;> cases signed <;> simp_all [State.verifyCode]
    have hne : (s.begin t).verifyCode (if shape then s.stagedImage n else none) signed svn ≠ 0 := by
      rw [hcode]
      split
      · decide
      · split <;> decide
    refine ⟨_, (exec_fwVerifyDone himg).trans (next_congr (if_pos hne)), rfl, rfl, State.rd_wr_other (s.begin t) _ (by decide), ?_⟩
    rw [hcode]
    exact State.rd_wr_same ..
  · refine ⟨_, next_congr ((State.writeOne_ok ht rfl).trans (by rw [if_pos rfl])), ?_, ?_⟩
    · rw [State.rd_answerItem, State.rd_raiseTo_same, State.rd_commitAt_of_entry _ _ (by decide) (by decide) (by decide), State.commitAt_mgmt]
    · refine SameBut.congr (t := (s.commitAt a).raiseTo E.fwSvnMin 0 _) ?_ (fun _ _ => State.rd_answerItem ..)
      intro e el h
      simp only [List.map_cons, List.map_nil, List.mem_cons, List.not_mem_nil, or_false, not_or] at h
      obtain ⟨hel, hlast, hdom⟩ := h
      rw [State.rd_raiseTo_other _ _ hel, State.rd_commitAt s a hlast hdom]

/-! ### Attestation and the colophon key (R500-R502) -/

theorem bits_attestReport (s : State) : bits s.attestReport 1415 1160 = s.mgmt.nonce.toNat ∧ bits s.attestReport 2047 2040 = 1 :=
  ⟨(bits_pack [(8, 1), (8, 0), (8, _), (8, _), (24, _), (128, _), (32, _), (32, _), (384, _)] 256 _ _ (by simp) rfl).trans
      (Nat.mod_eq_of_lt s.mgmt.nonce.isLt),
    bits_pack [] 8 1 _ (by simp) rfl⟩

theorem exportAnswer_epoch {s : State} {r : BitVec 808} (h : s.mgmt.exportReq = some r) :
    bits s.exportAnswer 2439 2408 = bits r.toNat 807 776 := by
  simp only [State.exportAnswer, h]
  exact (bits_pack [] 32 _ _ (by simp) rfl).trans (Nat.mod_eq_of_lt (bits_lt r.toNat 807 776))

/-- Settles O14: a nonce kept, a report, an export, and the epoch advanced. -/
theorem attestation : Obligations.Attestation := by
  refine ⟨fun a v s ht => ?_, fun a s hg => ?_, fun a v s ht hep => ?_, fun a v s ht hep => ?_, fun a r s hg hreq => ?_, fun a s ht => ?_,
    fun t s hp hdue => ?_, fun t s hat => ?_⟩
  · refine next_congr ((State.writeOne_ok ht rfl).trans ?_)
    rw [State.commitAt_mgmt]
  · exact ⟨_, next_congr (State.readOne_ok hg), bits_attestReport (s.begin a.t)⟩
  · have hrule : (if (s.begin a.t).rd E.keyEpoch 0 < bits v.toNat 807 776 then Verdict.range else .ok) = .ok := if_neg (Nat.not_lt_of_le hep)
    refine next_congr ((State.writeOne_ok ht hrule).trans ?_)
    rw [State.commitAt_mgmt]
  · have hrule : (if (s.begin a.t).rd E.keyEpoch 0 < bits v.toNat 807 776 then Verdict.range else .ok) = .range := if_pos hep
    exact next_congr (State.writeOne_range ht hrule)
  · have hreq' : (s.begin a.t).mgmt.exportReq = some r := hreq
    have htell : State.tellExport a (s.begin a.t) = { s.begin a.t with fresh := s.fresh + 2 }.raise 0xF008 0 31
        [.v 32 (bits r.toNat 807 776), .v 16 (slotName a.path)] := by
      simp only [State.tellExport, hreq']
      rfl
    refine ⟨_, next_congr ((State.readOne_ok hg).trans (by rw [htell])), exportAnswer_epoch hreq'⟩
  · refine next_congr ((State.writeOne_ok ht rfl).trans ?_)
    rw [if_pos rfl]
  · exact next_congr (if_neg (not_or.mpr ⟨hp, Nat.not_lt_of_le hdue⟩))
  · exact ⟨_, if_neg hat, State.rd_wr_same .., rfl⟩

end Sys2Proof.Machine
end

section
/-!
Sending a frame leaves the device's GEI and the modules as they were: what counts, notices and frames change stands elsewhere in the dictionary.
-/
namespace Sys2Proof.Machine

/-! ### DEVICE_GEI and the modules stay while the device counts, raises notices and sends frames

Every entry these change at an element of any number stands after the entries of the modules in the dictionary, so that no
element of theirs can be one of DEVICE_GEI's or of a module's. -/

/-- DEVICE_GEI and the entries of the modules. -/
def quietEntries : List Nat :=
  [E.deviceGei, E.moduleState, E.moduleWidth, E.moduleRepairs, E.moduleRetrainStatus, E.moduleReplays]

/-- DEVICE_GEI and the modules are the same in two states. -/
structure Quiet (s t : State) : Prop where
  rd : ∀ e el, e ∈ quietEntries → el < 2 ^ 24 → t.rd e el = s.rd e el
  modules : t.links.modules = s.links.modules

theorem quietEntries_le : ∀ e ∈ quietEntries, e ≤ E.moduleReplays := by decide

theorem Quiet.of_regs {s t : State} (h : t.regs = s.regs) (hm : t.links.modules = s.links.modules) : Quiet s t :=
  ⟨fun e el _ _ => State.rd_congr h e el, hm⟩

theorem Quiet.refl (s : State) : Quiet s s := Quiet.of_regs rfl rfl

theorem Quiet.trans {s t u : State} (h : Quiet s t) (k : Quiet t u) : Quiet s u :=
  ⟨fun e el he hel => (k.rd e el he hel).trans (h.rd e el he hel), k.modules.trans h.modules⟩

theorem Quiet.net {s t : State} (h : Quiet s t) (n : Net) : Quiet s { t with net := n } := h.trans (Quiet.of_regs rfl rfl)

theorem Quiet.of_notes {s t : State} (h : Noted s t) (k : SameEntries s t) : Quiet s t :=
  ⟨fun e el he hel => k e el hel ((by decide : ∀ e ∈ quietEntries, e ∉ noteEntries) e he), by rw [h.eq]⟩

theorem Quiet.foldl {α : Type} {f : State → α → State} (hf : ∀ t a, Quiet t (f t a)) (l : List α) (s : State) : Quiet s (l.foldl f s) := by
  induction l generalizing s with
  | nil => exact Quiet.refl s
  | cons a l ih => exact (hf s a).trans (ih _)

theorem Quiet.wr (s : State) {e : Nat} (el v : Nat) (he : E.moduleReplays < e) : Quiet s (s.wr e el v) := by
  refine ⟨fun e' el' he' hel' => State.rd_wr_other _ _ ?_, rfl⟩
  have hle := quietEntries_le e' he'
  unfold elKey
  omega

theorem Quiet.wr_other (s : State) {e el : Nat} (v : Nat) (he : e ∉ quietEntries) (hel : el < 2 ^ 24) : Quiet s (s.wr e el v) :=
  ⟨fun _ _ he' hel' => State.rd_wr_other _ _ (elKey_ne_of_entry_ne (fun h => he (h ▸ he')) hel' hel), rfl⟩

theorem Quiet.bump (s : State) {e : Nat} (el n : Nat) (he : E.moduleReplays < e) : Quiet s (s.bump e el n) := Quiet.wr s _ _ he

theorem Quiet.raiseTo (s : State) {e : Nat} (el v : Nat) (he : E.moduleReplays < e) : Quiet s (s.raiseTo e el v) := by
  unfold State.raiseTo
  split
  · exact Quiet.wr s _ _ he
  · exact Quiet.refl s

theorem Quiet.raise (s : State) (code sev src : Nat) (ctx : List Item) : Quiet s (s.raise code sev src ctx) :=
  Quiet.of_notes (State.raise_noted ..) (State.raise_sameEntries _ _ _ _ _)

theorem Quiet.raiseLim (s : State) (interval key code sev src : Nat) (ctx : List Item) :
    Quiet s (s.raiseLim interval key code sev src ctx) :=
  Quiet.of_notes (State.raiseLim_noted ..) (State.raiseLim_sameEntries _ _ _ _ _ _ _)

theorem Quiet.addCounter (s : State) (b k n : Nat) : Quiet s (s.addCounter b k n) := by
  unfold State.addCounter
  dsimp only
  split
  · exact Quiet.refl s
  split
  · exact Quiet.wr s _ _ (by decide)
  · refine (Quiet.wr s (6 * b + k) (2 ^ 63 + (s.rd E.counterValue (6 * b + k) % 2 ^ 48 + n) % 2 ^ 48) (e := E.counterValue) (by decide)).trans ?_
    generalize s.wr E.counterValue (6 * b + k) (2 ^ 63 + (s.rd E.counterValue (6 * b + k) % 2 ^ 48 + n) % 2 ^ 48) = w
    have h : Quiet w (w.limited (65536 * 1000000000) b 0xA001 (b / 8)).2 :=
      Quiet.of_notes (State.limited_noted _ _ _ _ _) (State.limited_sameEntries _ _ _ _ _)
    split
    next e => rw [e] at h; exact h
    next e => rw [e] at h; exact h.trans (Quiet.of_notes (State.form_noted ..) (State.form_sameEntries _ _ _ _ _))

theorem Quiet.countEvent (s : State) (b event arg job n : Nat) : Quiet s (s.countEvent b event arg job n) := by
  refine Quiet.foldl (fun t k => ?_) _ _
  dsimp only
  split
  · exact Quiet.addCounter ..
  · exact Quiet.refl t

theorem Quiet.doubleFree (s : State) (die c : Nat) : Quiet s (s.doubleFree die c) :=
  (Quiet.bump s _ _ (by decide)).trans (Quiet.raise ..)

theorem Quiet.poolEmpty (s : State) (die pool : Nat) : Quiet s (s.poolEmpty die pool) :=
  (Quiet.countEvent ..).trans (Quiet.raiseLim ..)

theorem Quiet.drop (s : State) (d : Drop) (inPort : Nat) : Quiet s (s.drop d inPort) := by
  unfold State.drop
  dsimp only
  split
  · exact (Quiet.bump s _ _ (by decide)).trans ((Quiet.bump _ _ _ (by decide)).trans (Quiet.countEvent ..))
  · exact Quiet.bump s _ _ (by decide)

/-! ### Resolving a hop leaves the dictionary and the modules as they were -/

theorem Quiet.resolveSpray (s : State) (die cls g : Nat) : Quiet s (s.resolveSpray die cls g).2 := by
  unfold State.resolveSpray
  split
  · exact Quiet.refl s
  · split
    · exact Quiet.refl s
    · split
      · exact Quiet.refl s
      · exact (Quiet.refl s).net _

theorem Quiet.resolveHop (s : State) (die cls job h : Nat) : Quiet s (s.resolveHop die cls job h).2 := by
  unfold State.resolveHop
  split
  · exact Quiet.refl s
  split
  · exact Quiet.resolveSpray s ..
  split
  · dsimp only
    split
    · exact Quiet.refl s
    · repeat' split
      all_goals exact Quiet.refl s
  · dsimp only
    repeat' split
    all_goals exact Quiet.refl s

theorem Quiet.resolveDetour (s : State) (die cls job h : Nat) (detoured : Bool) :
    Quiet s (s.resolveDetour die cls job h detoured).2 := by
  have hop := Quiet.resolveHop s die cls job h
  unfold State.resolveDetour
  split
  next c t e =>
    rw [e] at hop
    split
    · have spray := Quiet.resolveSpray t die cls (t.detourGroup h)
      split
      next e' => rw [e'] at spray; exact hop.trans spray
      next e' => rw [e'] at spray; exact hop.trans spray
    · exact hop
  · exact hop

theorem Quiet.resolveGei (s : State) (die cls job gei : Nat) (detoured : Bool) :
    Quiet s (s.resolveGei die cls job gei detoured).2.1 := by
  unfold State.resolveGei
  split
  · exact Quiet.refl s
  · exact Quiet.refl s
  · exact Quiet.resolveDetour s ..

/-! ### Storing and queueing a frame -/

theorem Quiet.skipStrays (s : State) (die : Nat) : Quiet s (s.skipStrays die) := by
  unfold State.skipStrays
  dsimp only
  split
  · exact Quiet.refl s
  · refine ((Quiet.refl s).net _).trans (Quiet.foldl (fun t x => ?_) _ _)
    split
    · exact Quiet.doubleFree ..
    · exact Quiet.refl t

theorem Quiet.takeCells {s t : State} {die pool n : Nat} {cs : List Nat} (h : s.takeCells die pool n = some (cs, t)) : Quiet s t := by
  unfold State.takeCells at h
  dsimp only at h
  split at h
  · cases h
  · obtain ⟨-, rfl⟩ := Prod.mk.inj (Option.some.inj h)
    refine Quiet.trans ?_ (Quiet.addCounter ..)
    have hused : ∀ n, Quiet s { s.skipStrays die with net := n } := fun n => (Quiet.skipStrays s die).net n
    split
    · exact ((hused _).trans (Quiet.wr _ _ _ (by decide))).trans (Quiet.wr _ _ _ (by decide))
    · exact (hused _).trans (Quiet.wr _ _ _ (by decide))

theorem Quiet.holdBy (s : State) (h : Held) (f : Nat → Nat) : Quiet s (s.holdBy h f) := by
  unfold State.holdBy
  split <;> exact (Quiet.refl s).net _

theorem Quiet.store {s t : State} {die pool inPort id : Nat} {owners : List Nat} {loc copy credit : Bool} {stamp : Time} {pk : Packet}
    {held : List Held} (h : s.store die pool owners loc inPort stamp pk held copy credit = some (id, t)) : Quiet s t := by
  unfold State.store at h
  split at h
  · cases h
  next u hu =>
    obtain ⟨-, rfl⟩ := Prod.mk.inj (Option.some.inj h)
    exact ((Quiet.takeCells hu).trans (Quiet.foldl (fun t x => Quiet.holdBy t x _) held u)).net _

theorem Quiet.setQueue (s : State) (q : Nat) (v : Queue) : Quiet s (s.setQueue q v) :=
  (((Quiet.refl s).net _).trans (Quiet.wr _ _ _ (by decide))).trans (Quiet.raiseTo _ _ _ (by decide))

theorem Quiet.setCircQueue (s : State) (c : Nat) (v : CircQueue) : Quiet s (s.setCircQueue c v) :=
  ((Quiet.refl s).net _).trans (Quiet.wr _ _ _ (by decide))

theorem Quiet.enqueue (s : State) (p : Nat) (circ : Option Nat) (d : Desc) (pk : Packet) : Quiet s (s.enqueue p circ d pk) := by
  have marked : ∀ (u : State) (b : Bool), Quiet u (if b then (u.bump E.marked 0 1).countEvent (8 * dieOf p + 1) 0x12 (9 * p + d.cls)
      ((pk.job.getD (0, 0)).1) 1 else u) := fun u b => by
    split
    · exact (Quiet.bump u _ _ (by decide)).trans (Quiet.countEvent ..)
    · exact Quiet.refl u
  unfold State.enqueue
  dsimp only
  split
  · exact (marked s _).trans (Quiet.setQueue ..)
  · exact (marked s _).trans (Quiet.setCircQueue ..)

theorem Quiet.stitch (s : State) (a b src bytes : Nat) : Quiet s (s.stitch a b src bytes) := by
  unfold State.stitch
  split
  · exact Quiet.refl s
  · exact Quiet.of_regs rfl rfl

theorem Quiet.forwardAs (s : State) (cls inPort : Nat) (stamp : Time) (pk : Packet) (tg : Target) (hop hopsIn pool : Nat) :
    Quiet s (s.forwardAs cls inPort stamp pk tg hop hopsIn pool) := by
  unfold State.forwardAs
  dsimp only
  split
  · exact Quiet.drop ..
  · split
    · exact (Quiet.drop ..).trans (Quiet.poolEmpty ..)
    next h => exact (Quiet.store h).trans ((Quiet.stitch ..).trans (Quiet.enqueue ..))

/-! ### Frames that the device sends -/

theorem Quiet.originateAs (s : State) (cls pool : Nat) (f : Mft) : Quiet s (s.originateAs cls pool f) := by
  have hdet : ∀ (u : State) (b : Bool), Quiet u (if b then u.bump E.detoured 0 1 else u) := fun u b => by
    split
    · exact Quiet.bump u _ _ (by decide)
    · exact Quiet.refl u
  have resolved : ∀ (x : Res × State × Nat), Quiet s x.2.1 →
      Quiet s (match x with
        | (r, t, h) => match r with
          | .ok tg =>
            let w : Mft := { f with hops := f.hops.tail, hdr := { f.hdr with detoured := f.hdr.detoured || tg.det } }
            let u := if tg.det then t.bump E.detoured 0 1 else t
            if u.rd E.poolFree (4 * dieOf tg.port + pool) < cellsOf w.wire ∧ pool = 2 then
              let v := u.poolEmpty (dieOf tg.port) pool
              { v with net := { v.net with waiting := v.net.waiting ++ [(cls, f)] } }
            else u.forwardAs cls noPort u.now (.mft w) tg h 0 pool
          | _ => t.drop .route noPort) := by
    rintro ⟨r, t, h⟩ ht
    cases r with
    | ok tg =>
      have hu := Quiet.trans ht (hdet t tg.det)
      dsimp only
      generalize (if tg.det then t.bump E.detoured 0 1 else t) = u at hu ⊢
      split
      · exact (hu.trans (Quiet.poolEmpty ..)).net _
      · exact hu.trans (Quiet.forwardAs ..)
    | malformed => exact Quiet.trans ht (Quiet.drop ..)
    | fail c => exact Quiet.trans ht (Quiet.drop ..)
  cases f with
  | mk hdr hops body =>
    cases hops with
    | nil => exact resolved _ (Quiet.resolveGei s ..)
    | cons h l =>
      have ht := Quiet.resolveDetour s 0 cls hdr.job h hdr.detoured
      rcases hx : s.resolveDetour 0 cls hdr.job h hdr.detoured with ⟨r, t⟩
      rw [hx] at ht
      simp only [State.originateAs, hx]
      exact resolved (r, t, h) ht

theorem Quiet.originate (s : State) (f : Mft) : Quiet s (s.originate f) := Quiet.originateAs ..

theorem Quiet.sendPeer (s : State) (dest sub : Nat) (body : List Byte) : Quiet s (s.sendPeer dest sub body) := by
  unfold State.sendPeer
  dsimp only
  split
  · exact Quiet.originateAs ..
  · exact Quiet.originate ..

/-! ### The device's GEI -/

theorem Quiet.gei {s t : State} (h : Quiet s t) : t.gei = s.gei := h.rd _ _ (by decide) (by decide)

theorem State.gei_wr (s : State) {e : Nat} (el v : Nat) (he : E.deviceGei < e) : (s.wr e el v).gei = s.gei := by
  refine State.rd_wr_other _ _ ?_
  unfold elKey
  omega

theorem SameEntries.gei {s t : State} (h : SameEntries s t) : t.gei = s.gei := h _ _ (by decide) (by decide)

theorem foldl_gei {α : Type} {f : State → α → State} (hf : ∀ t a, (f t a).gei = t.gei) (l : List α) (s : State) :
    (l.foldl f s).gei = s.gei := by
  induction l generalizing s with
  | nil => rfl
  | cons a l ih => exact (ih _).trans (hf s a)

theorem State.gei_sendPeer (s : State) (dest sub : Nat) (body : List Byte) : (s.sendPeer dest sub body).gei = s.gei :=
  (Quiet.sendPeer ..).gei

end Sys2Proof.Machine
end

section
/-!
The proofs about the two phases of an exchange (R66, R488, R489) and the registry (R64-R70).
-/
namespace Sys2Proof.Machine

/-! ### PEER frames that are accepted (R488) -/

theorem State.peerAccept_of_taken {s : State} {p : Peer} {sub : Nat} {b : List Byte} (h : s.PeerTaken p sub b) {ok : Bool} (hok : ok = true) :
    s.peerAccept p sub b ok = (true, s) := by
  obtain ⟨hmac, hjob⟩ := h
  simp [State.peerAccept, hmac, hjob, hok]

/-! ### PREPARE and its kinds (R66, R489) -/

theorem State.takePrepare_of_form {s : State} {p : Peer} {b : List Byte} {kind subject : Nat} {ph : Phase} (hp : s.PeerTaken p 1 b)
    (hg : s.gei ≠ 0) (hlen : 9 ≤ b.length) (hkind : field b 0 1 = kind) (hph : phaseOf kind (b.drop 9) = some (subject, ph)) :
    s.takePrepare p b kind = s.onPrepare (field b 5 3) (field b 1 4) kind subject (b.drop 9) ph := by
  have hans : s.answers = true := by simpa [State.answers] using hg
  have hacc : s.peerAccept p 1 b (decide (9 ≤ b.length) && (some (subject, ph)).isSome) = (true, s) :=
    State.peerAccept_of_taken hp (by simp [hlen])
  simp only [State.takePrepare, hkind, ne_eq, not_true, if_false, hacc, hph, hans, if_true]

theorem field_drop (l : List Byte) (k off n : Nat) : field (l.drop k) off n = field l (k + off) n := by
  simp [field, slice]

theorem phaseOf_registration {r : List Byte} (hn : 68 ≤ r.length) (hr : r.length = 68 + 8 * field r 8 1 + 4 * field r 7 1) :
    phaseOf 0 r = some (field r 0 4, regPhase (field r 0 4) (r.drop 4) noGei) := by
  simp only [phaseOf, field_drop, Nat.reduceAdd]
  rw [if_neg]
  omega

theorem State.onPrepare_new {s : State} {orig xid : Nat} (kind subject : Nat) (r : List Byte) (ph : Phase)
    (h : s.coll.helds.find? (fun (x : HeldX) => x.orig == orig && x.xid == xid) = none) :
    s.onPrepare orig xid kind subject r ph
      = ({ (ph.answer s).2 with coll := { (ph.answer s).2.coll with helds := (ph.answer s).2.coll.helds ++
          [(⟨orig, xid, kind, subject, r, (ph.answer s).1, false⟩ : HeldX)] } }).sendPeer orig 2
          (toBytes 4 xid ++ toBytes 1 (ph.answer s).1 ++ toBytes 3 0) := by
  simp only [State.onPrepare, h]

/-- Settles O15: a PREPARE of the right form reaches its kind's phases, and a new one is held with its kind's answer. -/
theorem preparesAreVotedOn : Obligations.PreparesAreVotedOn := by
  refine ⟨fun t p b s => ?_, fun orig xid kind subject r ph s => ⟨State.onPrepare_new kind subject r ph, fun h => if_pos h⟩⟩
  intro r hp hg hlen
  have take : ∀ {kind subject ph}, field b 0 1 = kind → phaseOf kind (b.drop 9) = some (subject, ph) →
      (s.begin t).takePrepare p b kind = (s.begin t).onPrepare (field b 5 3) (field b 1 4) kind subject r ph :=
    fun hk hph => State.takePrepare_of_form (s := s.begin t) hp hg hlen hk hph
  exact ⟨fun hk hn hr => next_congr (take hk (phaseOf_registration hn hr)), fun hk hr => next_congr (take hk (if_pos hr)),
    fun hk hr => next_congr (take hk (if_pos hr)), fun hk hr => next_congr (take hk (if_pos hr)),
    fun hk hr => next_congr (take hk (if_pos hr)), fun hk hr => next_congr (take hk (if_pos hr)),
    fun hk hr h2 => next_congr (take hk (if_pos ⟨hr, h2⟩)), fun hk hr => next_congr (take hk (if_pos hr)),
    fun hk hr => next_congr (take hk (if_pos hr)), fun hk hr => next_congr (take hk (if_pos hr))⟩

/-! ### VOTE, COMMIT and RELEASE (R66, R489) -/

theorem State.takeEnd_unknown {s : State} {p : Peer} {b : List Byte} (sub : Nat) (hp : s.PeerTaken p sub b) (hlen : b.length = 8)
    (h : s.coll.helds.find? (fun (x : HeldX) => x.orig == p.src && x.xid == field b 0 4 && !x.ended) = none) : s.takeEnd p sub b = s := by
  simp only [State.takeEnd, State.peerAccept_of_taken hp (beq_iff_eq.mpr hlen), h]

theorem State.takeEnd_held {s : State} {p : Peer} {b : List Byte} {h : HeldX} {subject : Nat} {ph : Phase} (sub : Nat)
    (hp : s.PeerTaken p sub b) (hlen : b.length = 8)
    (hfind : s.coll.helds.find? (fun (x : HeldX) => x.orig == p.src && x.xid == field b 0 4 && !x.ended) = some h)
    (hph : phaseOf h.kind h.record = some (subject, ph)) : s.takeEnd p sub b = s.endHeld h (sub == 3) ph := by
  simp only [State.takeEnd, State.peerAccept_of_taken hp (beq_iff_eq.mpr hlen), hfind, hph]

/-! ### The end of an exchange that this device leads (R66) -/

theorem ledStatus_of_all_hold {l : Led} (h : l.votes.all (fun x => x.2 == 0) = true) : ledStatus l = (0x0B, 0) := by
  have hnone : l.votes.filter (fun (x : Nat × Nat) => x.2 != 0) = [] := by
    rw [List.filter_eq_nil_iff]
    intro x hx
    simpa using List.all_eq_true.mp h x hx
  simp only [ledStatus, hnone]

/-- The vote of the lower GEI of two. -/
def lowerVote (a b : Nat × Nat) : Nat × Nat := if b.1 < a.1 then b else a

theorem foldl_lowerVote (l : List (Nat × Nat)) (x : Nat × Nat) :
    l.foldl lowerVote x ∈ x :: l ∧ ∀ y ∈ x :: l, (l.foldl lowerVote x).1 ≤ y.1 := by
  induction l generalizing x with
  | nil => simp
  | cons z l ih =>
    obtain ⟨hmem, hle⟩ := ih (lowerVote x z)
    have hlow : (lowerVote x z).1 ≤ x.1 ∧ (lowerVote x z).1 ≤ z.1 := by
      unfold lowerVote
      split <;> omega
    have hstart := hle _ List.mem_cons_self
    refine ⟨?_, fun y hy => ?_⟩
    · rcases List.mem_cons.mp hmem with heq | htail
      · rw [List.foldl_cons, heq]
        unfold lowerVote
        split <;> simp
      · exact List.mem_cons_of_mem _ (List.mem_cons_of_mem _ htail)
    · rcases List.mem_cons.mp hy with rfl | hy
      · exact hstart.trans hlow.1
      · rcases List.mem_cons.mp hy with rfl | hy
        · exact hstart.trans hlow.2
        · exact hle y (List.mem_cons_of_mem _ hy)

/-- The exchange's code is that of the lowest GEI that refused. -/
theorem ledStatus_of_lowest {l : Led} {gei code : Nat} (hmem : (gei, code) ∈ l.votes) (hcode : code ≠ 0)
    (hlow : ∀ x ∈ l.votes, x.2 ≠ 0 → gei ≤ x.1 ∧ (x.1 = gei → x.2 = code)) : ledStatus l = (code, gei) := by
  have hin : (gei, code) ∈ l.votes.filter (fun (x : Nat × Nat) => x.2 != 0) := List.mem_filter.mpr ⟨hmem, by simpa using hcode⟩
  have href : ∀ x ∈ l.votes.filter (fun (x : Nat × Nat) => x.2 != 0), gei ≤ x.1 ∧ (x.1 = gei → x.2 = code) := fun x hx => by
    obtain ⟨hx, hne⟩ := List.mem_filter.mp hx
    exact hlow x hx (by simpa using hne)
  unfold ledStatus
  dsimp only
  generalize l.votes.filter (fun (x : Nat × Nat) => x.2 != 0) = refused at hin href
  cases refused with
  | nil => simp at hin
  | cons x r =>
    obtain ⟨hy, hle⟩ := foldl_lowerVote r x
    have hgei : (r.foldl lowerVote x).1 = gei := le_antisymm (hle _ hin) (href _ hy).1
    exact Prod.ext ((href _ hy).2 hgei) hgei

theorem State.endLed_commit (s : State) {l : Led} (ph : Phase) (hn : l.votes.length = l.devices.length)
    (h : l.votes.all (fun x => x.2 == 0) = true) :
    s.endLed l ph = ph.outcome 0 0 (if l.devices.contains s.gei then
        ph.commit ((l.devices.filter (fun d => d != s.gei)).foldl (fun (s : State) d => s.sendPeer d 3 (toBytes 4 l.xid ++ toBytes 4 0))
          { s with coll := { s.coll with leds := s.coll.leds.filter (fun (x : Led) => x.xid != l.xid) } })
      else (l.devices.filter (fun d => d != s.gei)).foldl (fun (s : State) d => s.sendPeer d 3 (toBytes 4 l.xid ++ toBytes 4 0))
          { s with coll := { s.coll with leds := s.coll.leds.filter (fun (x : Led) => x.xid != l.xid) } }) :=
  if_pos (by rw [h, hn, beq_self_eq_true]; rfl)

theorem State.endLed_release (s : State) {l : Led} (ph : Phase) {code gei : Nat} (hstatus : ledStatus l = (code, gei))
    (h : l.votes.length ≠ l.devices.length ∨ l.votes.all (fun x => x.2 == 0) = false) :
    s.endLed l ph = ph.outcome code gei (if l.votes.any (fun x => x.1 == s.gei && x.2 == 0) then
        ph.release ((l.devices.filter (fun d => d != s.gei)).foldl
          (fun (s : State) d => s.sendPeer d 4 (toBytes 4 l.xid ++ toBytes 1 code ++ toBytes 3 0))
          { s with coll := { s.coll with leds := s.coll.leds.filter (fun (x : Led) => x.xid != l.xid) } })
      else (l.devices.filter (fun d => d != s.gei)).foldl
          (fun (s : State) d => s.sendPeer d 4 (toBytes 4 l.xid ++ toBytes 1 code ++ toBytes 3 0))
          { s with coll := { s.coll with leds := s.coll.leds.filter (fun (x : Led) => x.xid != l.xid) } }) := by
  have hnot : ¬ (l.votes.length == l.devices.length && l.votes.all (fun x => x.2 == 0)) = true := by
    rcases h with h | h <;> simp [h]
  let w : State := { s with coll := { s.coll with leds := s.coll.leds.filter (fun (x : Led) => x.xid != l.xid) } }
  let c := (l.devices.filter (fun d => d != s.gei)).foldl
    (fun (s : State) d => s.sendPeer d 4 (toBytes 4 l.xid ++ toBytes 1 code ++ toBytes 3 0)) w
  have hgei : c.gei = s.gei := foldl_gei (fun t d => t.gei_sendPeer ..) _ w
  have hend : s.endLed l ph = ph.outcome code gei
      (if l.votes.any (fun x => x.1 == c.gei && x.2 == 0) then ph.release c else c) := by
    unfold State.endLed
    simp only [if_neg hnot, hstatus]
    rfl
  rw [hend, hgei]

/-- Settles O16: the 5 ms bound, the exchanges that are unknown, and a PREPARE that is repeated. -/
theorem exchangeCorners : Obligations.ExchangeCorners := by
  refine ⟨fun t xid l s hl ht => ?_, fun l ph s hn h => ?_, fun t p b s hp hlen hl => ?_, fun t p b s hlen hh => ⟨fun hp => ?_, fun hp => ?_⟩,
    fun orig xid kind subject r ph h s hh => ?_⟩
  · have hl' : (s.begin t).coll.leds.find? (fun (x : Led) => x.xid == xid) = some l := hl
    simp only [exec, execPrepareTimeout, hl', ht, if_true]
  · exact ⟨_, State.endLed_release s ph (ledStatus_of_all_hold h) (.inl hn.ne)⟩
  · have hp' : (s.begin t).PeerTaken p 2 b := hp
    have hl' : (s.begin t).coll.leds.find? (fun (l : Led) => l.xid == field b 0 4) = none := hl
    simp only [exec, execPeerVote, State.peerAccept_of_taken hp' (beq_iff_eq.mpr hlen), hl']
  · exact next_congr (State.takeEnd_unknown (s := s.begin t) 3 hp hlen hh)
  · exact next_congr (State.takeEnd_unknown (s := s.begin t) 4 hp hlen hh)
  · simp only [State.onPrepare, hh]

/-- Settles O17: a vote kept, an exchange ended where it is held, and the three ends of one that is led. -/
theorem exchangeEnds : Obligations.ExchangeEnds := by
  refine ⟨fun t p b l s hp hlen hl hdev hvote => ?_, fun t p b h subject ph s hlen hh hph hv => ?_,
    fun t p b h subject ph s hlen hh hph hv => ?_, fun l ph s => ?_⟩
  · have hp' : (s.begin t).PeerTaken p 2 b := hp
    have hl' : (s.begin t).coll.leds.find? (fun (l : Led) => l.xid == field b 0 4) = some l := hl
    have hnew : ¬ ((!l.devices.contains p.src) = true ∨ l.votes.any (fun (x : Nat × Nat) => x.1 == p.src) = true) := by simpa [hvote] using hdev
    simp only [exec, execPeerVote, State.peerAccept_of_taken hp' (beq_iff_eq.mpr hlen), hl', if_neg hnew, List.length_append,
      List.length_singleton]
    rfl
  · exact ⟨fun hp => next_congr ((State.takeEnd_held (s := s.begin t) 3 hp hlen hh hph).trans ((if_pos hv).trans (if_pos rfl))),
      fun hp => next_congr ((State.takeEnd_held (s := s.begin t) 4 hp hlen hh hph).trans ((if_pos hv).trans (if_neg (by decide))))⟩
  · exact ⟨fun hp => next_congr ((State.takeEnd_held (s := s.begin t) 3 hp hlen hh hph).trans (if_neg hv)),
      fun hp => next_congr ((State.takeEnd_held (s := s.begin t) 4 hp hlen hh hph).trans (if_neg hv))⟩
  · refine ⟨State.endLed_commit s ph, fun gei code hmem hcode hlow => ?_,
      fun hn h => State.endLed_release s ph (ledStatus_of_all_hold h) (.inl hn)⟩
    refine State.endLed_release s ph (ledStatus_of_lowest hmem hcode hlow) (.inr ?_)
    exact List.all_eq_false.mpr ⟨_, hmem, by simpa using hcode⟩

/-! ### Registration, its end and exclusion from a home set (R64-R70) -/

theorem State.writeWith_refused_told {s : State} {a : Access} {e el len val code st : Nat} {own : Bool} {rule : State → Verdict}
    {told act : State → State} (h : s.Takes a e el len val own) (hr : rule (s.begin a.t) = .refused st code) (hst : st ≠ 0) :
    s.writeWith a e el len val own rule told act = (told ((s.begin a.t).wr st 0 code)).answerItem stRefused := by
  rw [State.writeWith_refused h hr, Verdict.record_refused hst]

theorem regRule_refused {a : Access} {b : List Byte} {s : State} (h : s.regFails (s.regOp a b) b true ≠ 0) :
    regRule a b s = .refused E.regStatus (s.regFails (s.regOp a b) b true) :=
  if_neg h

theorem State.regOp_wr_regStatus (s : State) (a : Access) (b : List Byte) (v : Nat) : (s.wr E.regStatus 0 v).regOp a b = s.regOp a b := by
  have hrd : (s.wr E.regStatus 0 v).rd E.regJobTag 0 = s.rd E.regJobTag 0 :=
    State.rd_wr_other _ _ (elKey_ne_of_entry_ne (by decide) (by decide) (by decide))
  unfold State.regOp
  rw [hrd]
  rfl

/-- Settles O18: each command and frame of the registry starts its two phases, or leaves its code and is told. -/
theorem registrations : Obligations.Registrations := by
  refine ⟨fun a b s ht hrule => ?_, fun a b s ht h => ?_, fun t f header b s => ?_, fun a op c s ht hc => ?_, fun a v s ht hrule => ?_⟩
  · exact next_congr ((State.writeWith_ok ht hrule).trans rfl)
  · refine next_congr ((State.writeWith_refused_told ht (regRule_refused (s := s.begin a.t) h) (by decide)).trans ?_)
    rw [State.regOp_wr_regStatus, State.gei_wr _ _ _ (show E.deviceGei < E.regStatus by decide)]
    rfl
  · intro op hkind hform hreg hjob hok
    refine next_congr ((if_neg (not_not.mpr hkind)).trans ((if_neg (by simp [hform])).trans ?_))
    have hauth : ((s.begin t).registrar f (bits header.toNat 247 216) && jobOf op == f.job) = true := by
      rw [Bool.and_eq_true, beq_iff_eq]
      exact ⟨hreg, hjob⟩
    have hok' : (s.begin t).regFails op b ((s.begin t).registrar f (bits header.toNat 247 216) && jobOf op == f.job) = 0 := by
      rw [hauth]
      exact hok
    exact if_pos hok'
  · have hc' : (s.begin a.t).ctxOf op = some c := hc
    exact next_congr ((State.writeOne_ok ht (by simp [hc'])).trans rfl)
  · exact next_congr ((State.writeOne_ok ht hrule).trans rfl)

end Sys2Proof.Machine
end

section
/-!
The proof that contributions reach the chunk they belong to and its cover map (R82-R86, R115, R116, R120).
-/
namespace Sys2Proof.Machine

/-! ### The cover test (R83, R120) -/

/-- Where the accepted ranges are listed once each, the search by a range finds the entry of that range. -/
theorem find_cover {l : List Cover} {y : Cover} (hy : y ∈ l) (hone : ∀ y ∈ l, ∀ z ∈ l, y.first = z.first → y.count = z.count → y = z) :
    l.find? (fun (x : Cover) => x.first == y.first && x.count == y.count) = some y := by
  cases hz : l.find? (fun (x : Cover) => x.first == y.first && x.count == y.count) with
  | none => exact absurd (List.find?_eq_none.mp hz y hy) (by simp)
  | some z =>
    have hp := List.find?_some hz
    simp only [Bool.and_eq_true, beq_iff_eq] at hp
    rw [hone z (List.mem_of_find?_eq_some hz) y hy hp.1 hp.2]

theorem coverTest_of_mem {l : List Cover} {y : Cover} (frame : Nat) (hy : y ∈ l)
    (hone : ∀ y ∈ l, ∀ z ∈ l, y.first = z.first → y.count = z.count → y = z) :
    coverTest l y.first y.count frame = if bit y.frames frame then .duplicate else .later := by
  simp only [coverTest, find_cover hy hone]

theorem coverTest_of_new {l : List Cover} {f n : Nat} (frame : Nat) (h : ∀ y ∈ l, ¬(y.first = f ∧ y.count = n)) :
    coverTest l f n frame = if l.any (fun (x : Cover) => x.meets f n) then .overlap else .accept := by
  have hfind : l.find? (fun (x : Cover) => x.first == f && x.count == n) = none :=
    List.find?_eq_none.mpr fun y hy => by simpa using h y hy
  simp only [coverTest, hfind]

/-! ### A frame at the die that holds its chunk (R82, R85, R86) -/

section
variable {s : State} {c n : Nat} {x : Ctx} {i : Inst} {k : Chunk} {f : Cf} {h : Ch} {payload : List Byte}
variable (hg : (k.turned h).gated h = false)
include hg

theorem State.atChunk_duplicate (ht : coverTest (k.turned h).cover h.first h.covers h.frame = .duplicate) :
    s.atChunk c n x i k f h payload = s.dup (k.turned h).die (jobOf x.reg.op) := by
  simp only [State.atChunk, hg, ht, Bool.false_eq_true, if_false]

theorem State.atChunk_overlap (ht : coverTest (k.turned h).cover h.first h.covers h.frame = .overlap) :
    s.atChunk c n x i k f h payload = (s.refuse f h 0x08 0 0).restart c n (k.turned h) := by
  simp only [State.atChunk, hg, ht, Bool.false_eq_true, if_false]

theorem State.atChunk_accept (ht : coverTest (k.turned h).cover h.first h.covers h.frame = .accept) :
    s.atChunk c n x i k f h payload = s.applyFrame c n x i (k.turned h) f h payload := by
  simp only [State.atChunk, hg, ht, Bool.false_eq_true, if_false]

theorem State.atChunk_later (ht : coverTest (k.turned h).cover h.first h.covers h.frame = .later) :
    s.atChunk c n x i k f h payload = s.applyFrame c n x i (k.turned h) f h payload := by
  simp only [State.atChunk, hg, ht, Bool.false_eq_true, if_false]

end

theorem Chunk.turned_die (k : Chunk) (h : Ch) : (k.turned h).die = k.die := by
  unfold Chunk.turned
  split <;> rfl

theorem Ctx.refit_die (x : Ctx) (i : Inst) (k : Chunk) (stamp : Time) : (x.refit i k stamp).die = k.die := by
  unfold Ctx.refit
  split <;> rfl

theorem State.instOf_of_holds {s : State} {op n c : Nat} {x : Ctx} {i : Inst} (h : s.HoldsInst op n c x i) : s.instOf op n = some (c, i) := by
  obtain ⟨hc, hx, hi⟩ := h
  simp only [State.instOf, hc, State.inst?, hx, Option.bind_some, hi, Option.map_some]

/-! ### A contribution on its way to the die (R115, R116) -/

theorem Inst.takes_of_opened {i : Inst} (h : i.state = .opened) (phase chunk : Nat) : i.takes phase chunk = true := by
  simp [Inst.takes, h]

theorem State.toDie_near {s : State} {c n : Nat} {f : Cf} (header : Nat) {h : Ch} (payload : List Byte) {x : Ctx} {i : Inst} {k : Chunk}
    (hx : s.coll.ctxs.get? c = some x) (hi : findInst x.insts n = some i) (hk : findChunk i.chunks h.phase h.chunk = some k)
    (hplain : x.reg.plainChunk h.phase = false) (hq : (s.candidates x.reg.op h.phase h.chunk).1 = some k.die) :
    s.toDie c n f header h payload false
      = (s.stitch f.die (8 + k.die) f.port (72 + payload.length)).atChunk c n x i (x.refit i k f.stamp) f h payload := by
  simp only [State.toDie, hx, hi, hk, hplain, hq, ne_eq, not_true, false_and, and_false, if_false, Bool.false_eq_true]

theorem State.takeContrib_held {s : State} {f : Cf} {v : Nat} {payload : List Byte} {c : Nat} {x : Ctx} {i : Inst} {k : Chunk}
    (hform : chunkFormOk f.job v payload = true) (hold : s.HoldsInst (chOf v).op (chOf v).inst c x i) (hopen : i.state = .opened)
    (hst : x.stands (chOf v).inst = .isOpen ∨ x.stands (chOf v).inst = .next)
    (hcause : s.cause x i (x.stands (chOf v).inst) f (chOf v) (checkOk f.src v payload) = none)
    (hhome : (homes x.reg.op (chOf v).phase (chOf v).chunk (x.hsetAt i.ver)).1 = s.gei ∨ s.fromH1 x i f.src (chOf v) = true)
    (hk : findChunk i.chunks (chOf v).phase (chOf v).chunk = some k)
    (hgate : ((x.refit i k f.stamp).turned (chOf v)).gated (chOf v) = false)
    (hanchor : (chOf v).anchor = ((x.refit i k f.stamp).turned (chOf v)).anchor) :
    s.takeContrib f v payload false = s.toDie c (chOf v).inst f v (chOf v) payload false := by
  obtain ⟨hc, hx, hi⟩ := hold
  have htakes := Inst.takes_of_opened hopen (chOf v).phase (chOf v).chunk
  have hnotLate : ¬(some true = some false ∨ (x.stands (chOf v).inst = .late ∧ some true ≠ some true)) := by simp
  have hnotAhead : x.stands (chOf v).inst ≠ .ahead := by rcases hst with h | h <;> simp [h]
  have hhere : ¬((homes x.reg.op (chOf v).phase (chOf v).chunk (x.hsetAt i.ver)).1 ≠ s.gei ∧ (!s.fromH1 x i f.src (chOf v)) = true) := by
    rcases hhome with h | h <;> simp [h]
  unfold State.takeContrib
  simp only [hform, hc, hx, hi, Option.map_some, htakes, if_neg hnotLate, if_neg hnotAhead, Option.getD_some, hcause, if_neg hhere,
    hk, hgate, Bool.not_true, Bool.false_eq_true, if_false, false_and, if_neg (not_not.mpr hanchor)]

/-- Settles O19: a contribution's way to its die, over the quire ring too, and the cases of the cover test there. -/
theorem contributionsReachTheirChunk : Obligations.ContributionsReachTheirChunk := by
  refine ⟨fun t f header payload c x i k s => ?_, fun t y r c x i k s => ?_, fun c n x i k f h payload s hg => ⟨?_, ?_, ?_, ?_⟩⟩
  · intro v h hkind hform hold hopen hst hcause hhome hk hgate hanchor hplain hq
    obtain ⟨hc, hx, hi⟩ := hold
    refine next_congr ((if_pos hkind).trans ((State.takeContrib_held (s := s.begin t) hform ⟨hc, hx, hi⟩ hopen hst hcause hhome hk hgate
      hanchor).trans ?_))
    exact State.toDie_near (s := s.begin t) _ payload hx hi hk hplain hq
  · intro h hcross hold hopen hk
    obtain ⟨hc, hx, hi⟩ := hold
    have htakes := Inst.takes_of_opened hopen h.phase h.chunk
    have hcross' : (s.begin t).coll.crossing = y :: r := hcross
    obtain ⟨w, hw⟩ : ∃ w : State, w = { s.begin t with coll := { (s.begin t).coll with crossing := r } } := ⟨_, rfl⟩
    have hold' : w.HoldsInst h.op h.inst c x i := by
      rw [hw]
      exact ⟨hc, hx, hi⟩
    have hx' : (s.begin t).coll.ctxs.get? c = some x := hx
    simp only [exec, execSteeredForward, hcross', ← hw]
    simp only [show chOf y.header.toNat = h from rfl, State.instOf_of_holds hold', hx', htakes, hk, Bool.not_true, Bool.false_eq_true, if_false]
    rw [hw]
    rfl
  · rintro ⟨y, hy, hfirst, hcount, hbit⟩ hone
    have ht := coverTest_of_mem h.frame hy hone
    rw [hfirst, hcount, if_pos hbit] at ht
    rw [State.atChunk_duplicate hg ht, Chunk.turned_die]
  · rintro hnew ⟨y, hy, hlo, hhi⟩
    have hmeet : (k.turned h).cover.any (fun (x : Cover) => x.meets h.first h.covers) = true :=
      List.any_eq_true.mpr ⟨y, hy, by simp [Cover.meets, hlo, hhi]⟩
    exact State.atChunk_overlap hg ((coverTest_of_new h.frame hnew).trans (if_pos hmeet))
  · intro hapart hpos
    have hnew : ∀ y ∈ (k.turned h).cover, ¬(y.first = h.first ∧ y.count = h.covers) := fun y hy heq => by
      have := hapart y hy
      omega
    have hclear : (k.turned h).cover.any (fun (x : Cover) => x.meets h.first h.covers) = false := by
      refine List.any_eq_false.mpr fun y hy => ?_
      have := hapart y hy
      simp only [Cover.meets, Bool.and_eq_true, decide_eq_true_eq]
      omega
    exact State.atChunk_accept hg ((coverTest_of_new h.frame hnew).trans (by rw [hclear]; rfl))
  · rintro ⟨y, hy, hfirst, hcount, hbit⟩ hone
    have ht := coverTest_of_mem h.frame hy hone
    rw [hfirst, hcount, hbit] at ht
    exact State.atChunk_later hg ht

end Sys2Proof.Machine
end

section
/-!
The proof about the completion pipeline, emission and the colophon ring (R112, R153, R154, R157-R163).
-/
namespace Sys2Proof.Machine

/-! ### The colophon ring (R163) -/

theorem State.rd_raise_of_entry (s : State) (code sev src : Nat) (ctx : List Item) {e el : Nat} (hl : el < 2 ^ 24) (he : e ∉ noteEntries) :
    (s.raise code sev src ctx).rd e el = s.rd e el := State.raise_sameEntries s code sev src ctx e el hl he

theorem State.raise_coll (s : State) (code sev src : Nat) (ctx : List Item) : (s.raise code sev src ctx).coll = s.coll := by
  rw [(State.raise_noted s code sev src ctx).eq]

/-- The ring before it is full: the record is added at RING_NEXT. -/
theorem State.ringWrite_of_room {s : State} (r : BitVec 640) (h : s.rd E.ringNext 0 < 8388608) :
    s.ringWrite r = { s.wr E.ringNext 0 ((s.rd E.ringNext 0 + 1) % 2 ^ 64) with
      coll := { s.coll with ring := s.coll.ring.set (s.rd E.ringNext 0) r } } :=
  if_neg (Nat.not_le.mpr h)

/-- The ring once it is full: the oldest record goes, and is counted. -/
theorem State.ringWrite_of_full {s : State} (r : BitVec 640) (h : 8388608 ≤ s.rd E.ringNext 0) :
    (s.ringWrite r).coll.ring = (s.coll.ring.set (s.rd E.ringNext 0) r).del (s.rd E.ringNext 0 - 8388608) ∧
      (∀ e el, el < 2 ^ 24 → e ∉ noteEntries → (s.ringWrite r).rd e el
        = (((s.wr E.ringNext 0 ((s.rd E.ringNext 0 + 1) % 2 ^ 64)).bump E.recordsOverwritten 0 1).rd e el)) := by
  unfold State.ringWrite
  simp only [if_pos (show ringEntries ≤ s.rd E.ringNext 0 from h)]
  split
  · rw [State.raise_coll]
    exact ⟨rfl, fun e el hl he => State.rd_raise_of_entry _ _ _ _ _ hl he⟩
  · exact ⟨rfl, fun e el _ _ => rfl⟩

theorem ringNext_ne_recordsOverwritten : elKey E.recordsOverwritten 0 ≠ elKey E.ringNext 0 :=
  elKey_ne_of_entry_ne (by decide) (by decide) (by decide)

/-! ### Emission of a chunk of the data phase (R157, R161-R163) -/

/-- The oldest record of a die's queue leaves it for a chunk that is not held: the ring, the result and the sinks. -/
theorem State.emitRecord_of_data {s : State} {die : Nat} {r : QRec} {l : List QRec} {x : Ctx} {i : Inst} {k : Chunk}
    (hq : s.coll.records.getD die [] = r :: l) (hx : s.coll.ctxs.get? r.ctx = some x) (hi : findInst x.insts r.inst = some i)
    (hk : findChunk i.chunks r.phase r.chunk = some k) (hphase : k.phase = 0) (hbyp : k.bypassIn = false) (htype : x.reg.type ≠ 7) :
    let w : State := { s with coll := { s.coll with records := if l.isEmpty then s.coll.records.del die else s.coll.records.set die l } }
    let w1 := w.ringWrite r.record
    let w2 := w1.parityResult r.ctx r.inst x k.chunk (w1.resultBodies r.inst x i k (bits r.record.toNat 527 520)) k.payload
    let w3 := w2.sendResult r.ctx r.inst x i 0 k.chunk k.bookAt (w2.resultBodies r.inst x i k (bits r.record.toNat 527 520))
    let w4 := w3.sendRecord r.ctx r.inst x i k r.record
    s.emitRecord die = ((w4.raiseTo E.latSeenMax 0 (w4.now - k.lastStamp)).endChunk r.ctx r.inst k).chunkDone r.ctx r.inst (ckey 0 k.chunk) := by
  intro w w1 w2 w3 w4
  have hx' : w.coll.ctxs.get? r.ctx = some x := hx
  have hk' : w.chunk? r.ctx r.inst r.phase r.chunk = some k := by
    simp only [State.chunk?, State.inst?, hx', Option.bind_some, hi, hk]
  have htype' : (x.reg.type == 7) = false := by simpa using htype
  unfold State.emitRecord
  simp only [hq]
  rw [show ({ s with coll := { s.coll with records := if l.isEmpty then s.coll.records.del die else s.coll.records.set die l } } : State) = w from rfl]
  simp only [hx, hk', hi, htype', hphase, hbyp, Bool.false_and, Bool.false_eq_true, if_false, if_true, zero_ne_one]
  rfl

/-- Settles O21: what the pipeline takes and recomputes, what emission sends, and what the ring holds. -/
theorem completionAndEmission : Obligations.CompletionAndEmission := by
  refine ⟨fun t op inst phase chunk c bad ups x i k s hgei hold hk hstate hqueued hfirst => ?_, fun c n bad ups x i k s => ?_,
    fun t die r l x i k s hq hx hi hk hrp hphase hbyp htype => ?_, fun r s hn => ?_⟩
  · obtain ⟨hc, hx, hi⟩ := hold
    have hgei' : ¬ (s.begin t).gei = 0 := hgei
    have hc' : (s.begin t).ctxOf op = some c := hc
    have hx' : (s.begin t).coll.ctxs.get? c = some x := hx
    have hi' : (s.begin t).inst? c inst = some i := by simp only [State.inst?, hx', Option.bind_some, hi]
    have hwait : ¬(k.state ≠ .completing ∨ k.queued = true ∨ (!(s.begin t).firstIn ⟨c, inst, k⟩) = true) := by
      have : (s.begin t).firstIn ⟨c, inst, k⟩ = true := hfirst
      simp [hstate, hqueued, this]
    simp only [exec, execChunkCompletion, if_neg hgei', hc', hx', hi', hk, if_neg hwait]
  · intro ar acc hroom
    refine ⟨fun hwit => ?_, fun hlim => if_pos hlim, fun hlim => if_neg (Nat.not_le.mpr hlim)⟩
    refine (if_neg (Nat.not_le.mpr hroom)).trans ?_
    exact if_pos (by simpa only [beq_iff_eq] using hwit)
  · intro w w1 w2 w3 w4
    exact next_congr (congrArg State.noteEligible (State.emitRecord_of_data (s := s.begin t) hq hx hi hk hphase hbyp htype))
  · intro n u
    have hsucc : (n + 1) % 2 ^ 64 = n + 1 := Nat.mod_eq_of_lt (by omega)
    by_cases hfull : 8388608 ≤ n
    · obtain ⟨hring, hrd⟩ := State.ringWrite_of_full r hfull
      have hnext := (hrd E.ringNext 0 (by decide) (by decide)).trans
        ((State.rd_bump_other _ _ ringNext_ne_recordsOverwritten.symm).trans ((State.rd_wr_same ..).trans hsucc))
      have hcount := (hrd E.recordsOverwritten 0 (by decide) (by decide)).trans (State.rd_bump_same ..)
      rw [State.rd_wr_other _ _ ringNext_ne_recordsOverwritten] at hcount
      refine ⟨?_, hnext, fun h => absurd hfull (Nat.not_le.mpr h), fun _ => ⟨?_, hcount, fun m hm hold => ?_⟩⟩
      · exact (congrArg (·.get? n) hring).trans ((Tab.get_del_other _ (by omega)).trans (Tab.get_set_same ..))
      · exact (congrArg (·.get? (n - 8388608)) hring).trans (Tab.get_del_same ..)
      · exact (congrArg (·.get? m) hring).trans ((Tab.get_del_other _ hold).trans (Tab.get_set_other _ _ hm))
    · have hroom := Nat.not_le.mp hfull
      have hu : u = _ := State.ringWrite_of_room r hroom
      rw [hu]
      refine ⟨Tab.get_set_same .., (State.rd_wr_same ..).trans hsucc, fun _ => ⟨?_, fun m hm => Tab.get_set_other _ _ hm⟩, fun h => absurd h hfull⟩
      exact State.rd_wr_other _ _ ringNext_ne_recordsOverwritten

end Sys2Proof.Machine
end

section
/-!
Contexts, instances and chunks read back after one of them is set or changed.
-/
namespace Sys2Proof.Machine

/-! ### A table's entry changed by a function -/

theorem Tab.get_modify_same {α : Type} {m : Tab α} {k : Nat} {v : α} (f : α → α) (h : m.get? k = some v) : (m.modify k f).get? k = some (f v) := by
  simp only [Tab.modify, h, Tab.get_set_same]

theorem Tab.get_modify_other {α : Type} (m : Tab α) {k j : Nat} (f : α → α) (h : j ≠ k) : (m.modify k f).get? j = m.get? j := by
  unfold Tab.modify
  split
  · exact Tab.get_set_other _ _ h
  · rfl

/-! ### The instances of a context -/

theorem findInst_num {l : List Inst} {n : Nat} {i : Inst} (h : findInst l n = some i) : i.num = n := by
  induction l with
  | nil => cases h
  | cons x l ih =>
    rw [findInst] at h
    split at h
    next hx => exact (Option.some.inj h) ▸ hx
    · exact ih h

/-- Where every instance's number stays, the one found is the one changed. -/
theorem findInst_map {l : List Inst} {n : Nat} {i : Inst} (f : Inst → Inst) (hf : ∀ x, (f x).num = x.num) (h : findInst l n = some i) :
    findInst (l.map f) n = some (f i) := by
  induction l with
  | nil => cases h
  | cons x l ih =>
    rw [findInst] at h
    rw [List.map_cons, findInst, hf]
    split at h
    next hx => rw [if_pos hx, Option.some.inj h]
    next hx => rw [if_neg hx, ih h]

theorem findInst_putInst {l : List Inst} {i j : Inst} (h : findInst l i.num = some j) : findInst (putInst l i) i.num = some i := by
  have hj := findInst_num h
  rw [putInst, if_pos (by rw [h]; rfl), findInst_map _ (fun x => ?_) h, if_pos hj]
  split
  next hx => exact hx.symm
  · rfl

/-! ### An instance set, and one changed, in its context -/

section
variable {s : State} {c n : Nat} {x : Ctx} {i : Inst}

theorem State.ctx_modCtx (f : Ctx → Ctx) (hx : s.coll.ctxs.get? c = some x) : (s.modCtx c f).coll.ctxs.get? c = some (f x) :=
  Tab.get_modify_same f hx

theorem State.ctx_setInst (i : Inst) (hx : s.coll.ctxs.get? c = some x) :
    (s.setInst c i).coll.ctxs.get? c = some { x with insts := putInst x.insts i } := State.ctx_modCtx _ hx

theorem State.ctx_modInst (f : Inst → Inst) (hx : s.coll.ctxs.get? c = some x) :
    (s.modInst c n f).coll.ctxs.get? c = some { x with insts := x.insts.map (fun (i : Inst) => if i.num = n then f i else i) } :=
  State.ctx_modCtx _ hx

theorem findInst_modInst {l : List Inst} {f : Inst → Inst} (hf : (f i).num = i.num) (h : findInst l n = some i) :
    findInst (l.map (fun (i : Inst) => if i.num = n then f i else i)) n = some (f i) := by
  induction l with
  | nil => cases h
  | cons x l ih =>
    rw [findInst] at h
    rw [List.map_cons, findInst]
    split at h
    next hx =>
      obtain rfl := Option.some.inj h
      simp only [if_pos hx, hf]
    next hx => simp only [if_neg hx, ih h]

theorem State.inst?_of_get (hx : s.coll.ctxs.get? c = some x) (hi : findInst x.insts n = some i) : s.inst? c n = some i := by
  rw [State.inst?, hx]
  exact hi

theorem State.chunk?_of_get {p k : Nat} (hx : s.coll.ctxs.get? c = some x) (hi : findInst x.insts n = some i) :
    s.chunk? c n p k = findChunk i.chunks p k := by
  rw [State.chunk?, State.inst?_of_get hx hi]
  rfl

theorem State.inst?_modInst {f : Inst → Inst} (hf : (f i).num = i.num) (h : s.inst? c n = some i) : (s.modInst c n f).inst? c n = some (f i) := by
  cases hx : s.coll.ctxs.get? c with
  | none => simp [State.inst?, hx] at h
  | some x =>
    rw [State.inst?, hx] at h
    exact State.inst?_of_get (State.ctx_modInst f hx) (findInst_modInst hf h)

end

/-! ### The chunks of an instance -/

theorem findChunk_id {l : List Chunk} {p c : Nat} {k : Chunk} (h : findChunk l p c = some k) : k.phase = p ∧ k.chunk = c := by
  induction l with
  | nil => cases h
  | cons x l ih =>
    rw [findChunk] at h
    split at h
    next hx => exact (Option.some.inj h) ▸ hx
    · exact ih h

theorem findChunk_map {l : List Chunk} {p c : Nat} {k : Chunk} (f : Chunk → Chunk) (hf : ∀ x, (f x).phase = x.phase ∧ (f x).chunk = x.chunk)
    (h : findChunk l p c = some k) : findChunk (l.map f) p c = some (f k) := by
  induction l with
  | nil => cases h
  | cons x l ih =>
    rw [findChunk] at h
    rw [List.map_cons, findChunk, (hf x).1, (hf x).2]
    split at h
    next hx => rw [if_pos hx, Option.some.inj h]
    next hx => rw [if_neg hx, ih h]

theorem findChunk_append_new {l : List Chunk} {k : Chunk} (h : findChunk l k.phase k.chunk = none) :
    findChunk (l ++ [k]) k.phase k.chunk = some k := by
  induction l with
  | nil => simp [findChunk]
  | cons x l ih =>
    rw [findChunk] at h
    rw [List.cons_append, findChunk]
    split at h
    · cases h
    next hx => rw [if_neg hx, ih h]

theorem findChunk_putChunk (l : List Chunk) (k : Chunk) : findChunk (putChunk l k) k.phase k.chunk = some k := by
  unfold putChunk
  cases h : findChunk l k.phase k.chunk with
  | none => exact findChunk_append_new h
  | some j =>
    rw [if_pos (show (some j).isSome = true from rfl), findChunk_map _ (fun x => ?_) h, if_pos (findChunk_id h)]
    split
    next hx => exact ⟨hx.1.symm, hx.2.symm⟩
    · exact ⟨rfl, rfl⟩

theorem State.chunk?_setChunk {s : State} {c n : Nat} {i : Inst} (k : Chunk) (h : s.inst? c n = some i) :
    (s.setChunk c n k).chunk? c n k.phase k.chunk = some k := by
  rw [State.chunk?, State.setChunk, State.inst?_modInst rfl h]
  exact findChunk_putChunk _ _

end Sys2Proof.Machine
end

section
/-!
The proof about deadlines, late progress and the timers of stalls and tallies (R133-R136).
-/
namespace Sys2Proof.Machine

/-! ### A progress event (R133) -/

/-- The record that a progress event leaves: where its stamp lies past the deadline in force only a beacon's value is kept. -/
def Stall.after (m : Stall) (r : Reg) (p : Progress) (stamp : Time) : Stall :=
  if m.d < stamp then
    match p with
    | .beacon v => { m with beacon := v }
    | _ => m
  else { (m.progress r p stamp).1 with capped := m.capped || (m.progress r p stamp).2 }

theorem Stall.after_late {m : Stall} (r : Reg) (p : Progress) {stamp : Time} (h : m.d < stamp) :
    (m.after r p stamp).d = m.d ∧ (m.after r p stamp).tData = m.tData ∧ (m.after r p stamp).saved = m.saved := by
  unfold Stall.after
  rw [if_pos h]
  cases p <;> exact ⟨rfl, rfl, rfl⟩

theorem Stall.after_inTime {m : Stall} (r : Reg) (p : Progress) {stamp : Time} (h : ¬ m.d < stamp) :
    m.after r p stamp = { (m.progress r p stamp).1 with capped := m.capped || (m.progress r p stamp).2 } := if_neg h

theorem Stall.after_beacon (m : Stall) (r : Reg) (v : Nat) (stamp : Time) : (m.after r (.beacon v) stamp).beacon = v := by
  unfold Stall.after
  split <;> rfl

theorem Stall.after_fields {m : Stall} (r : Reg) (p : Progress) {stamp : Time} (h : ¬ m.d < stamp) :
    (m.after r p stamp).saved = (m.progress r p stamp).1.saved ∧ (m.after r p stamp).tData = (m.progress r p stamp).1.tData ∧
      (m.after r p stamp).d = (m.progress r p stamp).1.d := by
  rw [Stall.after_inTime _ _ h]
  exact ⟨rfl, rfl, rfl⟩

theorem Stall.tData_update (m : Stall) (d : Time) (saved : Bool) (beacon throttled : Nat) :
    ({ m with d := d, saved := saved, beacon := beacon, throttled := throttled } : Stall).tData = m.tData := rfl

theorem Stall.progress_contrib (m : Stall) (r : Reg) (stamp : Time) : (m.progress r .contrib stamp).1.saved = true ∧
    (m.progress r .contrib stamp).1.tData = max m.tData stamp ∧
    (m.progress r .contrib stamp).1.d = max m.tData stamp + r.stallLimit := ⟨rfl, rfl, rfl⟩

theorem Stall.progress_beacon (m : Stall) (r : Reg) (v : Nat) (stamp : Time) : (m.progress r (.beacon v) stamp).1.saved = true ∧
    (m.progress r (.beacon v) stamp).1.tData = m.tData ∧
    (m.progress r (.beacon v) stamp).1.d = max m.d (min (stamp + r.stallLimit) (m.tData + r.stallMax)) :=
  ⟨rfl, m.tData_update .., rfl⟩

theorem Stall.progress_throttle (m : Stall) (r : Reg) (e : Nat) (stamp : Time) : (m.progress r (.throttle e) stamp).1.saved = true ∧
    (m.progress r (.throttle e) stamp).1.tData = m.tData ∧
    (m.progress r (.throttle e) stamp).1.d = min (m.d + e * us) (m.tData + r.stallMax) :=
  ⟨rfl, m.tData_update .., rfl⟩

/-- A state in which an instance's stall record of a rank is another, and nothing else of the instance or its context. -/
structure StallSet (c n k : Nat) (x : Ctx) (i : Inst) (m : Stall) (u : State) : Prop where
  ctx : ∃ l, u.coll.ctxs.get? c = some { x with insts := l } ∧ ∃ t, findInst l n = some { i with stalls := t } ∧
    ({ i with stalls := t } : Inst).stall x.reg k = m ∧ ∀ q, q ≠ k → ({ i with stalls := t } : Inst).stall x.reg q = i.stall x.reg q

theorem StallSet.congr {c n k : Nat} {x : Ctx} {i : Inst} {m : Stall} {u w : State} (h : StallSet c n k x i m u) (hw : w.coll = u.coll) :
    StallSet c n k x i m w := by
  obtain ⟨h⟩ := h
  exact ⟨by rw [hw]; exact h⟩

section
variable {s : State} {c n : Nat} {x : Ctx} {i : Inst}

theorem StallSet.same (k : Nat) (hx : s.coll.ctxs.get? c = some x) (hi : findInst x.insts n = some i) :
    StallSet c n k x i (i.stall x.reg k) s :=
  ⟨⟨x.insts, hx, i.stalls, hi, rfl, fun _ _ => rfl⟩⟩

theorem Inst.stall_set_same (i : Inst) (r : Reg) (k : Nat) (m : Stall) : ({ i with stalls := i.stalls.set k m } : Inst).stall r k = m :=
  Tab.getD_set_same ..

theorem Inst.stall_set_other (i : Inst) (r : Reg) {k q : Nat} (m : Stall) (h : q ≠ k) :
    ({ i with stalls := i.stalls.set k m } : Inst).stall r q = i.stall r q := Tab.getD_set_other _ _ _ h

theorem StallSet.setInst {k : Nat} (m : Stall) {m' : Stall} (h : StallSet c n k x i m' s) (hn : i.num = n) :
    StallSet c n k x i m (s.setInst c { i with stalls := i.stalls.set k m }) := by
  obtain ⟨l, hx, t, hi, -, -⟩ := h.ctx
  have hi' : findInst l { i with stalls := i.stalls.set k m }.num = some { i with stalls := t } := hn.symm ▸ hi
  have hput := findInst_putInst hi'
  have hctx := State.ctx_setInst { i with stalls := i.stalls.set k m } hx
  exact ⟨⟨_, hctx, _, hn ▸ hput, i.stall_set_same .., fun q hq => i.stall_set_other _ _ hq⟩⟩

/-- A progress event leaves its record in the instance, and nothing else of the context. -/
theorem State.progress_stall (k : Nat) (p : Progress) (stamp : Time) (hx : s.coll.ctxs.get? c = some x) (hi : findInst x.insts n = some i) :
    StallSet c n k x i ((i.stall x.reg k).after x.reg p stamp) (s.progress c n k p stamp) := by
  have hn := findInst_num hi
  have h0 := StallSet.same k hx hi
  have hbeacon : ∃ m, StallSet c n k x i m (match p with
      | .beacon v => s.setInst c { i with stalls := i.stalls.set k { i.stall x.reg k with beacon := v } }
      | _ => s) ∧ ((i.stall x.reg k).d < stamp → m = (i.stall x.reg k).after x.reg p stamp) := by
    cases p with
    | contrib => exact ⟨_, h0, fun h => (if_pos h).symm⟩
    | beacon v => exact ⟨_, h0.setInst _ hn, fun h => (if_pos h).symm⟩
    | throttle e => exact ⟨_, h0, fun h => (if_pos h).symm⟩
  obtain ⟨m, hm, hlate⟩ := hbeacon
  unfold State.progress
  simp only [hx, hi]
  split
  next h => exact hlate h ▸ hm.congr rfl
  next h =>
    rw [Stall.after_inTime _ _ h]
    refine StallSet.setInst (m' := m) _ ?_ hn
    split
    · exact hm.congr (State.raise_coll ..)
    · exact hm

theorem State.progress_late {k : Nat} (p : Progress) {stamp : Time} (hx : s.coll.ctxs.get? c = some x) (hi : findInst x.insts n = some i)
    (h : (i.stall x.reg k).d < stamp) : (s.progress c n k p stamp).rd E.lateProgress 0 = (s.rd E.lateProgress 0 + 1) % 2 ^ 64 := by
  unfold State.progress
  simp only [hx, hi, if_pos h]
  rw [State.rd_bump_same]
  cases p <;> rfl

end

/-! ### The timers' commands (R134-R136) -/

theorem Stall.filter_unsaved_eq_nil {l : List (Nat × Stall)} (h : l.all (fun (y : Nat × Stall) => y.2.saved) = true) :
    l.filter (fun (y : Nat × Stall) => !y.2.saved) = [] := by
  rw [List.filter_eq_nil_iff]
  intro y hy
  simpa using List.all_eq_true.mp h y hy

/-- Settles O23: on_progress at the deadline, and the records that the timers mark, cancel and confirm. -/
theorem deadlinesAndStallTimers : Obligations.DeadlinesAndStallTimers := by
  refine ⟨fun c n k p stamp x i s hx hi => ?_, fun t op inst rank c x i s hold hopen hmark hd howes => ?_,
    fun t op inst c x i s hold hopen hbrace => ?_, fun t op inst s hbrace => ?_,
    fun t op inst c x i y s hold hy hsent hmark hd hwindow => ?_, fun t op inst c m x i y s hold hy hsent hmark hd hwindow hbrace => ?_⟩
  · intro m u
    obtain ⟨l, hl, st, hj, hk, hq⟩ := (State.progress_stall k p stamp hx hi).ctx
    refine ⟨_, _, hl, hj, rfl, fun q hne => hq q hne, rfl, rfl, fun hlate => ?_, fun hin => ?_, fun v hp => ?_⟩
    · obtain ⟨hd, htd, hsaved⟩ := Stall.after_late x.reg p hlate
      rw [hk]
      exact ⟨hd, htd, hsaved, State.progress_late p hx hi hlate⟩
    · obtain ⟨hsaved, htd, hd⟩ := Stall.after_fields x.reg p (Nat.not_lt.mpr hin)
      rw [hk, hsaved, htd, hd]
      cases p with
      | contrib => exact m.progress_contrib x.reg stamp
      | beacon v => exact m.progress_beacon x.reg v stamp
      | throttle e => exact m.progress_throttle x.reg e stamp
    · rw [hk, hp, Stall.after_beacon]
  · intro m
    have hinst := State.instOf_of_holds (s := s.begin t) hold
    have hx : (s.begin t).coll.ctxs.get? c = some x := hold.2.1
    have hdue : i.state = .opened ∧ (i.stall x.reg rank).mark.isNone = true ∧ (i.stall x.reg rank).d ≤ t ∧
        x.owes i (s.begin t).gei rank = true := ⟨hopen, by rw [hmark]; rfl, hd, howes⟩
    simp only [exec, execStallTentative, hinst, hx, if_pos hdue]
    rfl
  · intro due w
    have hinst := State.instOf_of_holds (s := s.begin t) hold
    have hx : (s.begin t).coll.ctxs.get? c = some x := hold.2.1
    have hgo : ¬(i.state ≠ .opened ∨ (s.begin t).power.brace.isSome = true) := by
      simp [hopen, hbrace]
    refine ⟨fun hall => ?_, fun k m hone hsaved => ?_⟩
    · simp only [exec, execStallSettle, hinst, hx, if_neg hgo]
      rw [Stall.filter_unsaved_eq_nil hall]
    · have hgone : due.filter (fun (y : Nat × Stall) => !y.2.saved) = [(k, m)] := by simp [hone, hsaved]
      simp only [exec, execStallSettle, hinst, hx, if_neg hgo]
      rw [hgone]
      rfl
  · refine next_congr ?_
    rcases hinst : (s.begin t).instOf op inst with _ | ⟨c, i⟩
    · rfl
    · rcases hx : (s.begin t).coll.ctxs.get? c with _ | x
      · simp only [hx]
      · simp only [hx]
        exact if_pos (Or.inr hbrace)
  · have hinst := State.instOf_of_holds (s := s.begin t) hold
    have hx : (s.begin t).coll.ctxs.get? c = some x := hold.2.1
    have hcome : ¬(i.tallySent = true ∨ t < y.deadline x.reg) := by simp [hsent, hd]
    have hnow : ¬(y.deadline x.reg + 2 * us ≤ t) := Nat.not_le.mpr hwindow
    have hwait : t < t + 2 * us := Nat.lt_add_of_pos_right (by decide)
    simp only [exec, execTallyDeadline, hinst, hy, hx, if_neg hcome, hmark, if_neg hnow, if_pos (Or.inl hwait)]
  · intro w
    have hinst := State.instOf_of_holds (s := s.begin t) hold
    have hx : (s.begin t).coll.ctxs.get? c = some x := hold.2.1
    have hcome : ¬(i.tallySent = true ∨ t < y.deadline x.reg) := by simp [hsent, hd]
    have hgo : ¬(t < m + 2 * us ∨ ((s.begin t).setInst c i).power.brace.isSome = true) := by
      have hpower : ((s.begin t).setInst c i).power = s.power := rfl
      simp [hpower, hbrace, hwindow]
    have hsame : ({ i with tally := some { y with mark := some m } } : Inst) = i := by
      rw [← hmark, ← hy]
    simp only [exec, execTallyDeadline, hinst, hy, hx, if_neg hcome, hmark, hsame, if_neg hgo, w]

end Sys2Proof.Machine
end

section
/-!
The proof about the end of an instance at a home: its completion, COMPLETE and aborts (R38, R74, R75, R146, R425, R574).
-/
namespace Sys2Proof.Machine

/-! ### What freeing an instance leaves (R122, R130) -/

theorem foldl_ctxs {α : Type} {f : State → α → State} (hf : ∀ t a, (f t a).coll.ctxs = t.coll.ctxs) (l : List α) (s : State) :
    (l.foldl f s).coll.ctxs = s.coll.ctxs := by
  induction l generalizing s with
  | nil => rfl
  | cons a l ih => exact (ih _).trans (hf s a)

theorem State.freeSlot_ctxs (s : State) (q k : Nat) : (s.freeSlot q k).coll.ctxs = s.coll.ctxs := rfl

theorem State.returnSpill_ctxs (s : State) (h n : Nat) : (s.returnSpill h n).coll.ctxs = s.coll.ctxs := rfl

theorem State.gei_freeSlot (s : State) (q k : Nat) : (s.freeSlot q k).gei = s.gei := rfl

theorem State.gei_returnSpill (s : State) (h n : Nat) : (s.returnSpill h n).gei = s.gei := rfl

theorem State.gei_freeChunk (s : State) (k : Chunk) : (s.freeChunk k).gei = s.gei := by
  unfold State.freeChunk
  dsimp only
  rw [State.gei_returnSpill, foldl_gei (fun t h => t.gei_returnSpill h slotBytes), foldl_gei (fun t j => t.gei_freeSlot k.die j)]

theorem State.gei_freeInst (s : State) (i : Inst) : (s.freeInst i).gei = s.gei := by
  unfold State.freeInst
  dsimp only
  rw [foldl_gei (fun t (y : Result) => t.gei_returnSpill y.stack y.bytes), foldl_gei (fun t k => t.gei_freeChunk k)]

theorem State.freeChunk_ctxs (s : State) (k : Chunk) : (s.freeChunk k).coll.ctxs = s.coll.ctxs := by
  unfold State.freeChunk
  dsimp only
  rw [State.returnSpill_ctxs, foldl_ctxs (fun t h => t.returnSpill_ctxs h slotBytes), foldl_ctxs (fun t j => t.freeSlot_ctxs k.die j)]

theorem State.freeInst_ctxs (s : State) (i : Inst) : (s.freeInst i).coll.ctxs = s.coll.ctxs := by
  unfold State.freeInst
  dsimp only
  rw [foldl_ctxs (fun t (y : Result) => t.returnSpill_ctxs y.stack y.bytes), foldl_ctxs (fun t k => t.freeChunk_ctxs k)]

/-! ### The open instance moves on (R74) -/

theorem findInst_filter {l : List Inst} {p : Inst → Bool} {n : Nat} {i : Inst} (h : findInst l n = some i) (hp : p i = true) :
    findInst (l.filter p) n = some i := by
  induction l with
  | nil => cases h
  | cons x l ih =>
    rw [findInst] at h
    split at h
    next hx =>
      obtain rfl := Option.some.inj h
      rw [List.filter_cons_of_pos hp, findInst, if_pos hx]
    next hx =>
      cases hpx : p x with
      | true => rw [List.filter_cons_of_pos hpx, findInst, if_neg hx, ih h]
      | false => rw [List.filter_cons_of_neg (by simp [hpx]), ih h]

/-- The instance that has ended gives way to the next, which has not opened. -/
theorem Ctx.advance_one (f : Nat) {x : Ctx} {i : Inst} (hi : findInst x.insts x.opn = some i) (hended : i.state ≠ .opened)
    (hnext : findInst x.insts ((x.opn + 1) % 256) = none) : x.advance (f + 2) = { x with opn := (x.opn + 1) % 256 } := by
  rw [Ctx.advance, hi]
  simp only [if_neg hended]
  rw [Ctx.advance, hnext]

theorem Ctx.keeps_last {x : Ctx} (me : Nat) {i : Inst} (h : x.opn = (i.num + 1) % 256) (hn : i.num < 256) : x.keeps me i = true := by
  have hd : (i.num + 256 - x.opn) % 256 = 255 := by omega
  simp [Ctx.keeps, hd]

/-- Settling a context that no exclusion of this device concerns: its open instance moves on, and what it keeps stays. -/
theorem State.settle_ctx {s : State} {c : Nat} {x : Ctx} (hx : s.coll.ctxs.get? c = some x) (hstay : (x.advance 256).leaving s.gei = false) :
    (s.settle c).coll.ctxs.get? c = some ((x.advance 256).prune s.gei) := by
  have hadv := State.ctx_modCtx (Ctx.advance 256) hx
  unfold State.settle
  simp only [hadv]
  generalize hw : (((x.advance 256).insts.filter (fun (i : Inst) => !(x.advance 256).keeps (s.modCtx c (Ctx.advance 256)).gei i)).foldl
    (fun (s : State) i => s.freeInst i) (s.modCtx c (Ctx.advance 256))) = w
  have hgei : w.gei = s.gei := by
    rw [← hw, foldl_gei (fun t i => t.gei_freeInst i)]
    rfl
  have hctxs : w.coll.ctxs.get? c = some (x.advance 256) := by
    rw [← hw, foldl_ctxs (fun t i => t.freeInst_ctxs i), hadv]
  have hprune := State.ctx_modCtx (fun (x : Ctx) => x.prune w.gei) hctxs
  have hleft : (w.modCtx c (fun (x : Ctx) => x.prune w.gei)).leftDone ((x.advance 256).prune w.gei) = false := by
    have hleaving : ((x.advance 256).prune w.gei).leaving (w.modCtx c (fun (x : Ctx) => x.prune w.gei)).gei = false := hgei ▸ hstay
    simp [State.leftDone, hleaving]
  simp only [hprune, hleft, Bool.false_eq_true, if_false]
  rw [hgei]

/-! ### Completion of an instance (R38, R75, R574) -/

theorem State.sendCompletion_of_sent {s : State} {c n : Nat} {x : Ctx} {i : Inst} (hx : s.coll.ctxs.get? c = some x)
    (hi : findInst x.insts n = some i) (hsent : i.sentMsg = true) : s.sendCompletion c n = s := by
  simp [State.sendCompletion, hx, hi, hsent]

theorem map_eq_of_findInst_none {l : List Inst} {m : Nat} {f : Inst → Inst} (h : findInst l m = none) (hf : ∀ k, k.num ≠ m → f k = k) :
    l.map f = l := by
  induction l with
  | nil => rfl
  | cons x l ih =>
    rw [findInst] at h
    split at h
    · cases h
    next hx => rw [List.map_cons, hf x hx, ih h]

theorem findInst_putInst_num {l : List Inst} {i j : Inst} {n : Nat} (hn : i.num = n) (h : findInst l n = some j) :
    findInst (putInst l i) n = some i := by
  subst hn
  exact findInst_putInst h

theorem findInst_map_other {l : List Inst} {i : Inst} {m : Nat} (hm : m ≠ i.num) :
    findInst (l.map (fun (x : Inst) => if x.num = i.num then i else x)) m = findInst l m := by
  induction l with
  | nil => rfl
  | cons x l ih =>
    rw [List.map_cons, findInst, findInst, ih]
    by_cases hx : x.num = i.num
    · rw [if_pos hx, if_neg (Ne.symm hm), if_neg (hx ▸ Ne.symm hm)]
    · rw [if_neg hx]

theorem findInst_append_other {l : List Inst} {i : Inst} {m : Nat} (hm : m ≠ i.num) : findInst (l ++ [i]) m = findInst l m := by
  induction l with
  | nil => exact if_neg (Ne.symm hm)
  | cons x l ih => rw [List.cons_append, findInst, findInst, ih]

theorem findInst_putInst_other {l : List Inst} {i : Inst} {m : Nat} (hm : m ≠ i.num) : findInst (putInst l i) m = findInst l m := by
  unfold putInst
  split
  · exact findInst_map_other hm
  · exact findInst_append_other hm

/-- The context of an instance that has completed here. -/
def Ctx.completed (x : Ctx) (i : Inst) (t : Time) (nxt : Int) : Ctx :=
  { x with insts := putInst x.insts { i with state := .completed, doneAt := t }, anchorNext := nxt, expHi := i.eHi,
           widenedLast := i.widened, histLast := i.hist }

section
variable {s : State} {c n : Nat} {x : Ctx} {i : Inst}

/-- In automatic mode an instance whose chunks and exchange have completed is COMPLETED, the next anchor is fixed, and the context
is settled. -/
theorem State.tryComplete_auto (hx : s.coll.ctxs.get? c = some x) (hi : findInst x.insts n = some i) (hopen : i.state = .opened)
    (hsent : i.sentMsg = true) (hexch : i.exchanged (x.hsetAt i.ver) s.gei = true)
    (hdone : i.homesDone x.reg (x.hsetAt i.ver) s.gei = true) (hauto : x.reg.auto = true)
    (hnext : findInst x.insts ((n + 1) % 256) = none) (hne : (n + 1) % 256 ≠ n) :
    ∃ w : State, s.tryComplete c n = w.settle c ∧ w.gei = s.gei ∧ w.coll.ctxs.get? c = some (x.completed i s.now
      (nextAnchor i.eHi x.reg.ar.guard (i.anchor.getD (x.anchorFor (some i) s.now)))) := by
  have hnum := findInst_num hi
  have hset := State.ctx_setInst { i with state := .completed, doneAt := s.now } hx
  have hmap : ∀ (nxt : Int), (putInst x.insts { i with state := .completed, doneAt := s.now }).map (fun (k : Inst) =>
      if k.num = (n + 1) % 256 ∧ (!k.accepted) = true ∧ x.reg.auto = true then { k with anchor := some nxt } else k)
        = putInst x.insts { i with state := .completed, doneAt := s.now } := fun nxt => by
    refine map_eq_of_findInst_none (m := (n + 1) % 256) ?_ (fun k hk => if_neg fun h => hk h.1)
    rw [findInst_putInst_other (by rw [← hnum] at hne ⊢; exact hne), hnext]
  have hdue : i.state = .opened ∧ i.exchanged (x.hsetAt i.ver) s.gei = true ∧ i.homesDone x.reg (x.hsetAt i.ver) s.gei = true :=
    ⟨hopen, hexch, hdone⟩
  unfold State.tryComplete
  simp only [State.sendCompletion_of_sent hx hi hsent, hx, hi, if_pos hdue, hauto, if_true, true_and]
  refine ⟨_, rfl, ?_⟩
  split
  · rw [State.raise_coll, State.ctx_modCtx _ hset, SameEntries.gei (State.raise_sameEntries _ _ _ _ _)]
    simp only [hmap]
    exact ⟨rfl, rfl⟩
  · rw [State.ctx_modCtx _ hset]
    simp only [hmap]
    exact ⟨rfl, rfl⟩

end

theorem State.openInst_of_held {s : State} {c n : Nat} {x : Ctx} {i : Inst} (stamp : Time) (hx : s.coll.ctxs.get? c = some x)
    (hi : findInst x.insts n = some i) : s.openInst c n stamp = s := by
  simp only [State.openInst, hx, hi]

/-- What is kept of the context once an instance has completed and its number has passed. -/
theorem Ctx.completed_prune {x : Ctx} {i : Inst} {n : Nat} (t : Time) (nxt : Int) (me : Nat) (hi : findInst x.insts n = some i) (hn : n < 256)
    (hopn : x.opn = n) (hnext : findInst x.insts ((n + 1) % 256) = none) :
    (x.completed i t nxt).advance 256 = { x.completed i t nxt with opn := (n + 1) % 256 } ∧
      findInst (({ x.completed i t nxt with opn := (n + 1) % 256 } : Ctx).prune me).insts n
        = some { i with state := .completed, doneAt := t } := by
  have hnum := findInst_num hi
  have hput := findInst_putInst_num (i := { i with state := .completed, doneAt := t }) hnum hi
  have hother : findInst (putInst x.insts { i with state := .completed, doneAt := t }) ((n + 1) % 256) = none := by
    rw [findInst_putInst_other (by simp only [hnum]; omega), hnext]
  refine ⟨?_, findInst_filter hput (Ctx.keeps_last me ?_ ?_)⟩
  · have hadv := Ctx.advance_one 254 (x := x.completed i t nxt) (i := { i with state := .completed, doneAt := t })
      (by rw [← hput, ← hopn]; rfl) (by simp) (by rw [← hother, ← hopn]; rfl)
    rw [hadv, ← hopn]
    rfl
  · simp only [hnum]
  · exact hnum ▸ hn

/-- Settles O24: the messages and commands that end an instance, and its completion in automatic mode. -/
theorem instancesEnd : Obligations.InstancesEnd := by
  refine ⟨fun t p body c x i s => ?_, fun t op inst c x i s hold hstate hsent hhanded hgrace hqueued => ?_, fun t p body c x i s => ?_,
    fun c n x i s hx hi hn hopen hsent hexch hdone hauto hopn hnext hleaving => ?_⟩
  · intro n v hs hkind hp hlen hold hopen hst hsrc hme hnew
    have hp' : (s.begin t).PeerTaken p 7 body := hp
    have hc : (s.begin t).ctxOf (field body 1 4) = some c := hold.1
    have hx : (s.begin t).coll.ctxs.get? c = some x := hold.2.1
    have hi : findInst x.insts (field body 5 1) = some i := hold.2.2
    have htake : ¬((¬(x.stands (field body 5 1) = .isOpen ∨ x.stands (field body 5 1) = .next)) ∨
        (!(x.hsetAt (x.verOf (field body 5 1))).contains p.src) = true ∨
        (!(x.hsetAt (x.verOf (field body 5 1))).contains (s.begin t).gei) = true) := by
      rintro (h | h | h)
      · exact h hst
      · rw [hsrc] at h
        cases h
      · have hme' : (x.hsetAt (x.verOf (field body 5 1))).contains (s.begin t).gei = true := hme
        rw [hme'] at h
        cases h
    have hfresh : ¬(i.state ≠ .opened ∨ i.msgs.any (fun (m : Exchanged) => m.src == p.src) = true) := by simp [hopen, hnew]
    simp only [exec, execExchangeCompletion, hkind, ne_eq, not_true, if_false, State.peerAccept_of_taken hp' (beq_iff_eq.mpr hlen), hc, hx]
    rw [if_neg (by simpa using htake)]
    simp only [State.openInst_of_held t hx hi, State.inst?_of_get hx hi]
    exact congrArg _ (if_neg hfresh)
  · have hinst := State.instOf_of_holds (s := s.begin t) hold
    have hx : (s.begin t).coll.ctxs.get? c = some x := hold.2.1
    have hdue : i.state = .completed ∧ (!i.completeSent) = true ∧ i.handedOn = true ∧ i.lastLeft + (s.begin t).rd E.checkGrace 0 ≤ t ∧
        (!(s.begin t).resultQueued op inst) = true := by
      have hqueued' : (s.begin t).resultQueued op inst = false := hqueued
      exact ⟨hstate, by rw [hsent]; rfl, hhanded, hgrace, by rw [hqueued']; rfl⟩
    simp only [exec, execCompleteSend, hinst, hx, if_pos hdue]
    rfl
  · intro v hp hlen hkind hold hsrc hst
    have hp' : (s.begin t).PeerTaken p 6 body := hp
    have hc : (s.begin t).ctxOf (bits v 247 216) = some c := hold.1
    have hx : (s.begin t).coll.ctxs.get? c = some x := hold.2.1
    have hi : findInst x.insts (bits v 215 208) = some i := hold.2.2
    have htake : ¬(bits v 251 248 ≠ 8 ∨ (!x.reg.hset.contains p.src) = true ∨ x.stands (bits v 215 208) = .ahead) := by
      rintro (h | h | h)
      · exact h hkind
      · rw [hsrc] at h
        cases h
      · exact hst h
    have hrelay : exec (.abortRelay t p body) s = .next ((s.begin t).abortInst c (bits v 215 208) (bits v 167 160) (bits v 207 176)
        (bits v 119 96) (ctlTime v) true) := by
      have hc' : (s.begin t).ctxOf (bits (field body 0 32) 247 216) = some c := hc
      simp only [exec, execAbortRelay, State.peerAccept_of_taken hp' (beq_iff_eq.mpr hlen), hc', hx]
      rw [if_neg htake, State.openInst_of_held t hx hi, ite_self]
    refine ⟨fun hopen => hrelay.trans ?_, fun haborted => hrelay.trans ?_⟩
    · simp only [State.abortInst, hx, hi, hopen]
    · simp only [State.abortInst, hx, hi, haborted]
  · obtain ⟨w, hw, hgei, hctx⟩ := State.tryComplete_auto hx hi hopen hsent hexch hdone hauto hnext (by omega)
    obtain ⟨hadv, hfind⟩ := Ctx.completed_prune s.now (nextAnchor i.eHi x.reg.ar.guard (i.anchor.getD (x.anchorFor (some i) s.now))) w.gei hi hn
      hopn hnext
    have hsettle := State.settle_ctx hctx (by rw [hadv, hgei]; exact hleaving)
    rw [hadv] at hsettle
    rw [hw]
    exact ⟨_, hsettle, rfl, rfl, rfl, rfl, _, hfind, rfl, rfl, rfl⟩

end Sys2Proof.Machine
end

section
/-!
The proof about the leaf role, the slots of the reduction SRAM and deferred chunks (R88, R116, R117, R129, R130).
-/
namespace Sys2Proof.Machine

/-! ### The first number that a rising list lacks -/

theorem lacking_one_cons {fuel k m : Nat} {l r : List Nat} (h : lacking fuel k 1 l = m :: r) (hl : l.Pairwise (· < ·)) (hk : ∀ i ∈ l, k ≤ i) :
    k ≤ m ∧ m < k + fuel ∧ m ∉ l ∧ ∀ j, k ≤ j → j < m → j ∈ l := by
  induction fuel generalizing k l with
  | zero => cases h
  | succ fuel ih =>
    cases l with
    | nil =>
      obtain ⟨rfl, -⟩ := List.cons.inj h
      exact ⟨le_rfl, by omega, List.not_mem_nil, fun j h1 h2 => absurd h2 (Nat.not_lt.mpr h1)⟩
    | cons i l =>
      obtain ⟨hi, hl'⟩ := List.pairwise_cons.mp hl
      rw [lacking] at h
      cases hb : Nat.beq i k with
      | true =>
        obtain rfl := Nat.eq_of_beq_eq_true hb
        rw [hb] at h
        obtain ⟨h1, h2, h3, h4⟩ := ih (k := i + 1) h hl' hi
        refine ⟨by omega, by omega, fun hm => ?_, fun j hj hjm => ?_⟩
        · rcases List.mem_cons.mp hm with rfl | hm
          · omega
          · exact h3 hm
        · rcases Nat.eq_or_lt_of_le hj with rfl | hj
          · exact List.mem_cons_self
          · exact List.mem_cons_of_mem _ (h4 j hj hjm)
      | false =>
        rw [hb] at h
        obtain ⟨rfl, -⟩ := List.cons.inj h
        have hik := hk i List.mem_cons_self
        have hne : i ≠ k := fun e => by simp [e] at hb
        refine ⟨le_rfl, by omega, fun hm => ?_, fun j h1 h2 => absurd h2 (Nat.not_lt.mpr h1)⟩
        rcases List.mem_cons.mp hm with rfl | hm
        · exact hne rfl
        · have := hi k hm
          omega

theorem lacking_one_nil {fuel k : Nat} {l : List Nat} (h : lacking fuel k 1 l = []) : ∀ j, k ≤ j → j < k + fuel → j ∈ l := by
  induction fuel generalizing k l with
  | zero => exact fun j h1 h2 => absurd h2 (by omega)
  | succ fuel ih =>
    cases l with
    | nil => cases h
    | cons i l =>
      rw [lacking] at h
      cases hb : Nat.beq i k with
      | true =>
        obtain rfl := Nat.eq_of_beq_eq_true hb
        rw [hb] at h
        intro j hj hjm
        rcases Nat.eq_or_lt_of_le hj with rfl | hj
        · exact List.mem_cons_self
        · exact List.mem_cons_of_mem _ (ih (k := i + 1) h j hj (by omega))
      | false =>
        rw [hb] at h
        cases h

/-! ### The search for a free SRAM slot (R117) -/

/-- What a search from slot `base` upward, wrapping at the end, has passed over and found. -/
theorem State.findSlot_spec {s : State} {q group k : Nat} (h : s.findSlot q group = some k) (hs : (s.slotsUsed q).Pairwise (· < ·)) :
    k ∉ s.slotsUsed q ∧ ((512 * (group % 32) ≤ k ∧ k < 16384 ∧ ∀ j, 512 * (group % 32) ≤ j → j < k → j ∈ s.slotsUsed q) ∨
      (k < 16384 ∧ (∀ j, 512 * (group % 32) ≤ j → j < 16384 → j ∈ s.slotsUsed q) ∧ ∀ j, j < k → j ∈ s.slotsUsed q)) := by
  have hbase : 512 * (group % 32) < 16384 := by omega
  unfold State.findSlot at h
  dsimp only at h
  generalize 512 * (group % 32) = base at h hbase ⊢
  have hsub : ∀ j, j ∈ (s.slotsUsed q).filter (fun k => decide (base ≤ k)) ↔ j ∈ s.slotsUsed q ∧ base ≤ j := fun j => by simp
  have wrapped : (∀ j, base ≤ j → j < 16384 → j ∈ s.slotsUsed q) → (lacking 16384 0 1 (s.slotsUsed q)).head? = some k →
      k ∉ s.slotsUsed q ∧ ((base ≤ k ∧ k < 16384 ∧ ∀ j, base ≤ j → j < k → j ∈ s.slotsUsed q) ∨
        (k < 16384 ∧ (∀ j, base ≤ j → j < 16384 → j ∈ s.slotsUsed q) ∧ ∀ j, j < k → j ∈ s.slotsUsed q)) := by
    intro hfull hhead
    cases hlow : lacking 16384 0 1 (s.slotsUsed q) with
    | nil =>
      rw [hlow] at hhead
      cases hhead
    | cons m r =>
      rw [hlow] at hhead
      obtain rfl := Option.some.inj hhead
      obtain ⟨-, hlt, hnot, hpast⟩ := lacking_one_cons hlow hs (fun i _ => Nat.zero_le i)
      exact ⟨hnot, .inr ⟨by omega, hfull, fun j hj => hpast j (Nat.zero_le j) hj⟩⟩
  split at h
  next m r hlack =>
    obtain ⟨hlo, -, hnot, hpast⟩ := lacking_one_cons hlack (hs.filter _) (fun i hi => ((hsub i).mp hi).2)
    split at h
    next hm =>
      obtain rfl := Option.some.inj h
      exact ⟨fun hk => hnot ((hsub m).mpr ⟨hk, hlo⟩), .inl ⟨hlo, hm, fun j h1 h2 => ((hsub j).mp (hpast j h1 h2)).1⟩⟩
    next hm => exact wrapped (fun j h1 h2 => ((hsub j).mp (hpast j h1 (by omega))).1) h
  next hlack => exact wrapped (fun j h1 h2 => ((hsub j).mp (lacking_one_nil hlack j h1 (by omega))).1) h

/-! ### The pre-reduce table (R88) -/

theorem State.answerItem_coll (s : State) (status : Nat) : (s.answerItem status).coll = s.coll := rfl

theorem prAct_out (r : BitVec 128) (s : State) : (prAct r s).out = s.out := by
  unfold prAct
  dsimp only
  rw [State.wr_out, State.wr_out]

theorem prAct_pre (r : BitVec 128) (s : State) : (prAct r s).coll.pre = if bit r.toNat 95 = true then
    s.coll.pre.set (bits r.toNat 127 96) ⟨bits r.toNat 94 91, bits r.toNat 87 70, bits r.toNat 69 51⟩
    else s.coll.pre.del (bits r.toNat 127 96) := by
  unfold prAct
  dsimp only
  rw [State.wr_coll, State.wr_coll]

/-! ### Deferred chunks (R129) -/

theorem le_foldl {α : Type} {g : Nat → α → Nat} (hg : ∀ n x, n ≤ g n x) (l : List α) (n : Nat) : n ≤ l.foldl g n := by
  induction l generalizing n with
  | nil => exact le_rfl
  | cons y l ih => exact (hg n y).trans (ih _)

theorem foldl_pos {α : Type} {g : Nat → α → Nat} (hg : ∀ n x, n ≤ g n x) {l : List α} {x : α} (hx : x ∈ l) (hpos : ∀ n, 0 < g n x) (n : Nat) :
    0 < l.foldl g n := by
  induction l generalizing n with
  | nil => cases hx
  | cons y l ih =>
    rcases List.mem_cons.mp hx with rfl | hx
    · exact (hpos n).trans_le (le_foldl hg l _)
    · exact ih hx _

/-- A deferred chunk that a die may reopen is one of the device's. -/
theorem State.deferredCount_pos {s : State} {q : Nat} {y : Nat × Nat × Nat} (h : s.firstDeferred q = some y) : 0 < s.deferredCount := by
  obtain ⟨x, hx, hsome⟩ := List.exists_of_findSome?_eq_some h
  have hstep : ∀ (n : Nat) (i : Inst), n ≤ n + i.deferred.length := fun n i => Nat.le_add_right n _
  refine foldl_pos (fun n x => le_foldl hstep _ n) hx (fun n => ?_) 0
  dsimp only at hsome
  split at hsome
  · cases hsome
  next z r hl =>
    have hz : z ∈ (x.2.insts.filter (fun (i : Inst) => !s.braced i)).flatMap (fun (i : Inst) => (i.deferred.filter (fun k =>
        s.mayReopen q x.2.reg.op (k / 2 ^ 32) (k % 2 ^ 32))).map (fun k => (i.num, k))) := hl ▸ List.mem_cons_self
    obtain ⟨i, hi, hmap⟩ := List.mem_flatMap.mp hz
    obtain ⟨k, hk, -⟩ := List.mem_map.mp hmap
    have hlen : 0 < i.deferred.length := List.length_pos_of_mem (List.mem_filter.mp hk).1
    exact foldl_pos hstep (List.mem_filter.mp hi).1 (fun n => by omega) n

theorem State.firstDeferred_of_reopenOne {s v : State} {q : Nat} (h : s.reopenOne q = some v) : ∃ y, s.firstDeferred q = some y := by
  cases hy : s.firstDeferred q with
  | none => simp [State.reopenOne, hy] at h
  | some y => exact ⟨y, rfl⟩

/-- A die's first deferred chunk that takes a slot opens in RESENDING by its tier, and asks again for what it lacks. -/
theorem State.reopenOne_eq {s : State} {die c n key : Nat} {x : Ctx} {i : Inst} (hfirst : s.firstDeferred die = some (c, n, key))
    (hx : s.coll.ctxs.get? c = some x) (hi : findInst x.insts n = some i) (hplain : x.reg.plainChunk (key / 2 ^ 32) = false) :
    let ph := key / 2 ^ 32
    let ch := key % 2 ^ 32
    let w := s.modInst c n (fun (j : Inst) => { j with deferred := j.deferred.erase key })
    let b := x.newChunk i ph ch ((i.elements x.reg ph ch).getD 1024) s.now s.gei true .resending
    let o := x.opening c i b die
    s.reopenOne die = (w.openBy c n x i b o ((w.candidates x.reg.op ph ch).1 != some die) (w.reopenTier o)).map (fun v =>
      (v.chunk? c n ph ch).elim v (fun k => v.request c n k 2)) := by
  intro ph ch w b o
  unfold State.reopenOne
  simp only [hfirst, Option.bind_some, hx, hi, hplain, Bool.false_eq_true, if_false]
  refine congrArg (fun f => Option.map f _) (funext fun v => ?_)
  cases v.chunk? c n ph ch <;> rfl

theorem State.reopenDie_of_none {s : State} {q : Nat} (h : s.reopenOne q = none) (f : Nat) : State.reopenDie f s q = s := by
  cases f with
  | zero => rfl
  | succ f => simp only [State.reopenDie, h]

theorem State.reopen_of_one {s v : State} {q : Nat} (h : s.reopenOne q = some v) (hv : v.reopenOne q = none) : s.reopen q = v := by
  obtain ⟨y, hy⟩ := State.firstDeferred_of_reopenOne h
  obtain ⟨f, hf⟩ := Nat.exists_eq_add_of_lt (State.deferredCount_pos hy)
  rw [State.reopen, hf, Nat.zero_add]
  simp only [State.reopenDie, h, State.reopenDie_of_none hv]

/-- Settles O25: the leaf role's frames, slots and table, and the slots of the reduction SRAM. -/
theorem leafRoleAndSlots : Obligations.LeafRoleAndSlots := by
  refine ⟨fun t frame g f s hg hpk hown hkept => ⟨fun htakes => ?_, fun htakes => ?_⟩, fun t p s hp => ?_, fun a v s ht hrule => ?_,
    fun p k s hring hslot hparts hnodup => ?_, fun t die s => rfl, fun t op inst phase chunk c x i k s hold hk hspill => ?_,
    fun t die s => ⟨fun h => ?_, fun v h hv => ?_⟩, fun die c n key j x i k s v hfirst hx hi hplain => ?_, fun q group k s h hs hlt => ?_⟩
  · have hg' : findFrame (s.begin t).net.frames frame = some g := hg
    have hkept' : keptForLeaf (s.begin t).gei f = true := hkept
    have htakes' : (s.begin t).preTakes f = true := htakes
    simp only [exec, execPrereduceContrib, hg', hpk, hown, hkept', htakes', Bool.not_true, Bool.or_self, Bool.false_eq_true, if_false, if_true]
  · have hg' : findFrame (s.begin t).net.frames frame = some g := hg
    have hkept' : keptForLeaf (s.begin t).gei f = true := hkept
    have htakes' : (s.begin t).preTakes f = false := htakes
    simp only [exec, execPrereduceContrib, hg', hpk, hown, hkept', htakes', Bool.not_true, Bool.or_self, Bool.false_eq_true, if_false]
  · have hp' : (s.begin t).coll.preSlots.find? (fun (y : PreSlot) =>
        !y.ring && !y.closed && decide (y.openedAt + (s.begin t).rd E.prHold 0 ≤ t)) = some p := hp
    simp only [exec, execPrHoldExpiry, hp']
  · refine ⟨_, next_congr (State.writeOne_ok ht hrule), ?_, ?_, ?_, ?_, ?_⟩
    · rw [State.rd_answerItem]
      exact State.rd_wr_same ..
    · rw [State.answerItem_out, prAct_out, State.commitAt_out]
      rfl
    · intro op hop
      rw [State.answerItem_coll, prAct_pre, State.commitAt_coll]
      split
      · exact Tab.get_set_other _ _ hop
      · exact Tab.get_del_other _ hop
    · intro hset
      rw [State.answerItem_coll, prAct_pre, if_pos hset]
      exact Tab.get_set_same ..
    · intro hdel
      rw [State.answerItem_coll, prAct_pre, if_neg (by simp [hdel])]
      exact Tab.get_del_same ..
  · intro u
    have hu : u = (s.freeSlot p.die k).setPreSlot { p with parts := [], closed := true, slot := none } := by
      simp [u, State.closePre, hslot, hparts, runs]
    have hused : u.slotsUsed p.die = (s.slotsUsed p.die).erase k := by
      rw [hu]
      exact Tab.getD_set_same ..
    refine ⟨⟨{ p with parts := [], closed := true, slot := none }, ?_, rfl, rfl, rfl, rfl, rfl, rfl⟩, ?_, fun j hj => ?_⟩
    · rw [hu]
      exact List.mem_append_right _ List.mem_cons_self
    · rw [hused]
      exact hnodup.not_mem_erase
    · rw [hused]
      exact List.mem_erase_of_ne hj
  · have hinst := State.instOf_of_holds (s := s.begin t) hold
    simp only [exec, execSpillCopyDone, hinst, hk, hspill, if_true]
  · exact next_congr (State.reopenDie_of_none h _)
  · exact next_congr (State.reopen_of_one h hv)
  · intro ph ch w b o
    have hone := State.reopenOne_eq hfirst hx hi hplain
    refine ⟨fun hup hbook hslot hopen hk => ?_, fun hno => ?_⟩
    · have htier : w.reopenTier o = .sram j := by
        have hup' : w.quireUp o.die = true := hup
        simp only [State.reopenTier, hup', hbook, hslot, Bool.not_true, Bool.or_self, Bool.false_eq_true, if_false]
      rw [hone, htier, hopen, Option.map_some, hk]
      rfl
    · have htier : w.reopenTier o = .defer := by
        have hdie : o.die = die := rfl
        rcases hno with h | h | ⟨h1, h2⟩
        · simp [State.reopenTier, hdie, h]
        · simp [State.reopenTier, h]
        · simp [State.reopenTier, h1, h2]
      rw [hone, htier]
      rfl
  · obtain ⟨hnot, hcase⟩ := State.findSlot_spec h hs
    rcases hcase with ⟨hlo, hk, hpast⟩ | ⟨hk, hfull, hpast⟩
    · exact ⟨hk, hnot, fun j hj hbefore => hpast j (by omega) (by omega)⟩
    · refine ⟨hk, hnot, fun j hj hbefore => ?_⟩
      by_cases hbase : 512 * (group % 32) ≤ j
      · exact hfull j hbase hj
      · have hkbase : k < 512 * (group % 32) := Nat.not_le.mp fun hle => hnot (hfull k hle hk)
        exact hpast j (by omega)

end Sys2Proof.Machine
end

section
/-!
The stripes and tasks of a graph's run (R175-R180): the order in which stripes wait, and what a task's commands do.
-/
namespace Sys2Proof.Machine

/-! ### The stripes that wait to open (R177) -/

theorem mem_insertStripe (x y : Nat × Nat × Nat × Nat × Nat) (l : List (Nat × Nat × Nat × Nat × Nat)) :
    y ∈ insertStripe x l ↔ y = x ∨ y ∈ l := by
  induction l with
  | nil => simp [insertStripe]
  | cons z l ih =>
    rw [insertStripe]
    split
    · exact List.mem_cons
    · rw [List.mem_cons, ih, List.mem_cons, or_left_comm]

theorem mem_foldl_insertStripe (y : Nat × Nat × Nat × Nat × Nat) (l a : List (Nat × Nat × Nat × Nat × Nat)) :
    y ∈ l.foldl (fun l x => insertStripe x l) a ↔ y ∈ l ∨ y ∈ a := by
  induction l generalizing a with
  | nil => simp
  | cons x l ih => rw [List.foldl_cons, ih, mem_insertStripe, List.mem_cons, or_assoc, or_left_comm]

theorem insertStripe_sorted (x : Nat × Nat × Nat × Nat × Nat) {l : List (Nat × Nat × Nat × Nat × Nat)}
    (h : (l.map (fun x => x.2.2.2.2)).Pairwise (· ≤ ·)) : ((insertStripe x l).map (fun x => x.2.2.2.2)).Pairwise (· ≤ ·) := by
  induction l with
  | nil => simp [insertStripe]
  | cons z l ih =>
    rw [List.map_cons, List.pairwise_cons] at h
    obtain ⟨hz, hl⟩ := h
    rw [insertStripe]
    split
    next hx =>
      rw [List.map_cons, List.map_cons, List.pairwise_cons, List.pairwise_cons]
      refine ⟨fun b hb => ?_, hz, hl⟩
      rcases List.mem_cons.mp hb with rfl | hb
      · exact hx.le
      · exact hx.le.trans (hz b hb)
    next hx =>
      rw [List.map_cons, List.pairwise_cons]
      refine ⟨fun b hb => ?_, ih hl⟩
      obtain ⟨y, hy, rfl⟩ := List.mem_map.mp hb
      rcases (mem_insertStripe x y l).mp hy with rfl | hy
      · exact Nat.not_lt.mp hx
      · exact hz _ (List.mem_map_of_mem hy)

theorem foldl_insertStripe_sorted (l : List (Nat × Nat × Nat × Nat × Nat)) {a : List (Nat × Nat × Nat × Nat × Nat)}
    (h : (a.map (fun x => x.2.2.2.2)).Pairwise (· ≤ ·)) : ((l.foldl (fun l x => insertStripe x l) a).map (fun x => x.2.2.2.2)).Pairwise (· ≤ ·) := by
  induction l generalizing a with
  | nil => exact h
  | cons x l ih => exact ih (insertStripe_sorted x h)

/-- The stripes that wait: those that are still eligible in the order they had, then the new ones by ascending index. -/
theorem State.noteEligible_order (s : State) :
    let kept := s.graphs.eligible.filter (fun x => s.allEligible.contains x)
    let l := s.noteEligible.graphs.eligible
    (∀ x, x ∈ l ↔ x ∈ s.allEligible) ∧ l.take kept.length = kept ∧ ((l.drop kept.length).map (fun x => x.2.2.2.2)).Pairwise (· ≤ ·) := by
  intro kept l
  have hl : l = kept ++ (s.allEligible.filter (fun x => !kept.contains x)).foldl (fun l x => insertStripe x l) [] := rfl
  refine ⟨fun x => ?_, ?_, ?_⟩
  · have hkept : x ∈ kept → x ∈ s.allEligible := fun h => by simpa using (List.mem_filter.mp h).2
    rw [hl, List.mem_append, mem_foldl_insertStripe]
    by_cases hx : x ∈ kept
    · simp [hx, hkept hx]
    · simp [hx]
  · rw [hl, List.take_left']
    rfl
  · rw [hl, List.drop_left' rfl]
    exact foldl_insertStripe_sorted _ List.Pairwise.nil

/-! ### What a command's beginning leaves of a run's tasks -/

theorem State.doneFrom_begin (s : State) (t : Time) (g : Graph) (r : Run) (l : List GNode) (acc : List Bool) :
    (s.begin t).doneFrom g r l acc = s.doneFrom g r l acc := by
  induction l generalizing acc with
  | nil => rfl
  | cons x l ih => exact ih _

theorem State.doneNodes_begin (s : State) (t : Time) (g : Graph) (r : Run) : (s.begin t).doneNodes g r = s.doneNodes g r :=
  s.doneFrom_begin t g r _ _

theorem State.nodeState_begin (s : State) (t : Time) (g : Graph) (i q : Nat) : (s.begin t).nodeState g i q = s.nodeState g i q := by
  unfold State.nodeState
  simp only [State.doneNodes_begin]
  rfl

theorem State.inFlightAll_begin (s : State) (t : Time) (q : Nat) : (s.begin t).inFlightAll q = s.inFlightAll q := by
  unfold State.inFlightAll State.inFlight
  simp only [State.nodeState_begin]
  rfl

theorem State.nextTask_begin (s : State) (t : Time) (g : Graph) (r : Run) (q : Nat) : (s.begin t).nextTask g r q = s.nextTask g r q := by
  unfold State.nextTask
  simp only [State.doneNodes_begin, State.inFlightAll_begin, State.nodeState_begin]
  rfl

theorem State.nextPub_begin (s : State) (t : Time) (g : Graph) (p : Pub) (q : Nat) : (s.begin t).nextPub g p q = s.nextPub g p q := by
  unfold State.nextPub
  simp only [State.inFlightAll_begin]
  rfl

theorem State.pendingAt_begin (s : State) (t : Time) (q : Nat) : (s.begin t).pendingAt q = s.pendingAt q := by
  unfold State.pendingAt
  simp only [State.nextTask_begin, State.nextPub_begin]
  rfl

/-! ### The tasks of a run (R175-R180) -/

/-- The die at which a task of a stripe runs. -/
def State.taskDie (s : State) (g : Graph) (x : GNode) (index : Nat) : Nat :=
  if x.kind = 6 ∨ x.kind = 7 then s.firstDie else (s.domain g x.domain).elim s.firstDie (fun d => s.stripeDie d index)

/-- The state in which a task's effect is taken: its engine has had a task, and it is counted. -/
def State.toldTask (s : State) (g : Graph) (x : GNode) (die : Nat) : State :=
  ((s.touchEngine die).countFixed (8 * (8 + die) + 2) 1).countEvent (8 * (8 + die) + 2) 0x60 x.kind (g.id / 65536) 1

section
variable {s : State} {slot : Nat} {g : Graph} (t : Time) (hslot : s.graphs.slots.get? slot = some g)
include hslot

theorem exec_runStart (hstate : g.state = gsWaiting) (hrun : g.run = none) (hmig : g.migrating = false) (hbrace : s.power.brace = none)
    (hq : s.quires ≠ []) (hr : s.runnable g = true) :
    let r : Run := { inst := g.next, flush := g.subNext, consts := g.constsNext }
    exec (.runStart t slot) s = .next (((((s.begin t).setGraph slot { g with state := gsRunning, run := some r }).wr
      E.subnormalMode slot (b2n g.subNext))).tryCommit slot).noteEligible := by
  intro r
  have hslot' : (s.begin t).graphs.slots.get? slot = some g := hslot
  have hgo : g.state = gsWaiting ∧ g.run.isNone = true ∧ (!g.migrating) = true ∧ (s.begin t).power.brace.isNone = true ∧
      (!(s.begin t).quires.isEmpty) = true ∧ (s.begin t).runnable g = true := by
    have hq' : (s.begin t).quires ≠ [] := hq
    refine ⟨hstate, by rw [hrun]; rfl, by rw [hmig]; rfl, ?_, by simpa using hq', hr⟩
    rw [State.begin_power, hbrace]
    rfl
  simp only [exec, execRunStart, hslot', if_pos hgo]
  rfl

theorem exec_taskIssue_run {die : Nat} {r : Run} {k : Nat × Nat} {x : GNode} (hthr : s.rd E.throttled die = 0) (hrun : g.run = some r)
    (hk : s.nextTask g r die = some k) (hx : g.node k.1 = some x) :
    let w := ((s.begin t).modRun slot (fun (q : Run) => { q with issued := q.issued ++ [k] })).engineOn die
    exec (.taskIssue t slot die) s
      = .next (if x.kind = 5 then w.issueMm slot k.1 die g r x else if x.kind = 3 then w.issueStore g x k.2 else w) := by
  have hslot' : (s.begin t).graphs.slots.get? slot = some g := hslot
  have hthr' : ¬(s.begin t).rd E.throttled die ≠ 0 := not_not.mpr hthr
  simp only [exec, execTaskIssue, hslot', if_neg hthr', hrun, Option.bind_some, State.nextTask_begin, hk, Option.map_some, hx]

theorem exec_taskIssue_pub {die : Nat} {p : Pub} {k : Nat × Nat} (hthr : s.rd E.throttled die = 0) (hrun : g.run = none)
    (hpub : g.pub = some p) (hk : s.nextPub g p die = some k) : exec (.taskIssue t slot die) s = .next (((s.begin t).modGraph slot
      (fun (h : Graph) => { h with pub := some { p with issued := p.issued ++ [k] } })).engineOn die) := by
  have hslot' : (s.begin t).graphs.slots.get? slot = some g := hslot
  have hthr' : ¬(s.begin t).rd E.throttled die ≠ 0 := not_not.mpr hthr
  simp only [exec, execTaskIssue, hslot', if_neg hthr', hrun, Option.bind_none, hpub, State.nextPub_begin, hk]

theorem exec_taskComplete_run {node index : Nat} {x : GNode} {r : Run} (hx : g.node node = some x) (hk : x.kind ≠ 8) (hrun : g.run = some r)
    (hissued : r.issued.contains (node, index) = true) (hdone : r.done.contains (node, index) = false) :
    exec (.taskComplete t slot node index) s
      = .next (((s.begin t).toldTask g x (s.taskDie g x index)).runTask slot node index g r x).noteEligible := by
  have hslot' : (s.begin t).graphs.slots.get? slot = some g := hslot
  have hdue : r.issued.contains (node, index) = true ∧ (!r.done.contains (node, index)) = true := ⟨hissued, by rw [hdone]; rfl⟩
  simp only [exec, execTaskComplete, hslot', hx, hrun, if_pos hdue, if_neg hk]
  by_cases h6 : x.kind = 6
  · simp only [State.taskDie, State.toldTask, h6, true_or, if_true]
    rfl
  by_cases h7 : x.kind = 7
  · simp only [State.taskDie, State.toldTask, h7, or_true, if_true]
    rfl
  have hdom : (s.begin t).domain g x.domain = s.domain g x.domain := rfl
  cases hd : s.domain g x.domain with
  | none =>
    simp only [State.taskDie, State.toldTask, h6, h7, hd, hdom, or_self, if_false, Option.elim_none]
    rfl
  | some d =>
    simp only [State.taskDie, State.toldTask, h6, h7, hd, hdom, or_self, if_false, Option.elim_some]
    rfl

theorem exec_taskComplete_pub {node index : Nat} {x : GNode} {p : Pub} (hx : g.node node = some x) (hk : x.kind = 8) (hpub : g.pub = some p)
    (hissued : p.issued.contains (node, index) = true) (hdone : p.done.contains (node, index) = false) :
    exec (.taskComplete t slot node index) s
      = .next (((s.begin t).toldTask g x (s.taskDie g x index)).doPublish slot node index g p x) := by
  have hslot' : (s.begin t).graphs.slots.get? slot = some g := hslot
  have hdue : p.issued.contains (node, index) = true ∧ (!p.done.contains (node, index)) = true := ⟨hissued, by rw [hdone]; rfl⟩
  have hdom : (s.begin t).domain g x.domain = s.domain g x.domain := rfl
  have hnot : ¬(x.kind = 6 ∨ x.kind = 7) := by omega
  simp only [exec, execTaskComplete, hslot', hx, hpub, if_pos hdue, if_pos hk, State.taskDie, if_neg hnot, State.toldTask]
  cases hd : s.domain g x.domain with
  | none =>
    simp only [hk, hd, hdom, Option.elim_none]
    rfl
  | some d =>
    simp only [hk, hd, hdom, Option.elim_some]
    rfl

end

end Sys2Proof.Machine
end

section
/-!
The proof about the runs of an update graph: tasks, messages and the fence (R175-R180, R188-R192, R438).
-/
namespace Sys2Proof.Machine

/-! ### The messages of a run (R178, R188, R189, R191, R192) -/

section
variable {s : State} {p : Peer} {body : List Byte} {n : Nat} {g : Graph}

theorem State.takeCollect_new (kind : Nat) (hp : s.PeerTaken p 7 body) (hlen : body.length = 33) (hg : s.resident (field body 1 4) = some (n, g))
    (hsrc : (s.hsetOf g.op).contains p.src = true) (hinst : (field body 5 1 + 256 - (match g.run with
      | some r => r.inst
      | none => g.next)) % 256 < 128)
    (hnew : g.msgs.any (fun (m : GMsg) => m.src == p.src && m.inst == field body 5 1 && m.node == field body 6 2) = false) :
    s.takeCollect p kind body = ((s.modGraph n (fun (h : Graph) => { h with
      msgs := h.msgs ++ [⟨p.src, field body 5 1, field body 6 2, kind, signed 192 (field body 9 24)⟩] })).tryCollect n (field body 6 2)).noteEligible := by
  unfold State.takeCollect
  simp only [State.peerAccept_of_taken hp (beq_iff_eq.mpr hlen), hg]
  refine if_neg ?_
  rintro (h | h | h)
  · rw [hsrc] at h
    cases h
  · exact absurd hinst (Nat.not_lt.mpr h)
  · rw [hnew] at h
    cases h

end

theorem transferForm {body : List Byte} {n fmt : Nat} (hn : n ≠ 0) (hmx : isMx fmt = false) (hlen : body.length = 16 + 1024 * n) :
    (body.length == 16 + 1024 * n && n != 0 && !isMx fmt) = true := by
  rw [hlen, hmx]
  simpa using hn

/-- Settles O34: a run's start, stripes and tasks, the other devices' messages, and the fence that waits too long. -/
theorem graphRuns : Obligations.GraphRuns := by
  refine ⟨fun t slot g s hslot hstate hrun hmig hbrace hq hr => exec_runStart t hslot hstate hrun hmig hbrace hq hr,
    fun t slot die stage group stripe g s => ?_, State.noteEligible_order,
    fun t slot die g r k x s hslot hthr hrun hk hx hkind => ?_, fun t slot die g r k x s hslot hthr hrun hk hx hkind => ?_,
    fun t slot die g p k s hslot hthr hrun hpub hk => exec_taskIssue_pub t hslot hthr hrun hpub hk,
    fun t slot node index g x s hslot hx => ?_, fun t die s hbit hpend hidle => ?_, fun t p body n g s => ?_, fun t p body n g s => ?_,
    fun t slot g r f s hslot hrun hf hlate => ?_, fun t f body s => ⟨fun h => ?_, fun h hkind => ?_⟩, fun t p body n slot g s => ?_,
    fun t p body n d s => ?_⟩
  · intro w hslot
    have hslot' : w.graphs.slots.get? slot = some g := hslot
    refine ⟨fun hnext hfree => ?_, fun hno => ?_⟩
    · exact next_congr (by
        simp only [show (s.begin t).noteEligible = w from rfl, hslot']
        exact if_pos ⟨hnext, hfree⟩)
    · exact next_congr (by
        simp only [show (s.begin t).noteEligible = w from rfl, hslot']
        refine if_neg fun h => ?_
        rcases hno with hno | hno
        · exact hno h.1
        · exact absurd h.2 (Nat.not_le.mpr hno))
  · intro w
    rw [exec_taskIssue_run t hslot hthr hrun hk hx, if_neg hkind]
  · rw [exec_taskIssue_run t hslot hthr hrun hk hx, if_pos hkind]
  · intro die w told
    have hdie : die = s.taskDie g x index := by
      simp only [die, State.taskDie]
      cases s.domain g x.domain <;> rfl
    have htold : told = (s.begin t).toldTask g x (s.taskDie g x index) := by rw [← hdie]; rfl
    rw [htold]
    exact ⟨fun r hk hrun hissued hdone => exec_taskComplete_run t hslot hx hk hrun hissued hdone,
      fun p hk hpub hissued hdone => exec_taskComplete_pub t hslot hx hk hpub hissued hdone⟩
  · refine next_congr (if_pos ⟨hbit, ?_, hidle⟩)
    rw [State.pendingAt_begin, hpend]
    rfl
  · intro inst cur hp hlen hg hsrc hinst hnew
    have htake : ∀ kind, (s.begin t).takeCollect p kind body = _ := fun kind => State.takeCollect_new (s := s.begin t) kind hp hlen hg hsrc hinst hnew
    exact ⟨fun hkind => next_congr ((if_pos hkind).trans (htake 1)), fun hkind => next_congr ((if_pos hkind).trans (htake 2))⟩
  · intro ver hp hlen hg hsrc hver
    have hp' : (s.begin t).PeerTaken p 8 body := hp
    have hg' : (s.begin t).resident (field body 0 4) = some (n, g) := hg
    have htake : ¬((!((s.begin t).graphPeers g).contains p.src) = true ∨ field body 4 4 ≤ g.version) := by
      have hsrc' : ((s.begin t).graphPeers g).contains p.src = true := hsrc
      rw [hsrc']
      rintro (h | h)
      · cases h
      · exact absurd hver (Nat.not_lt.mpr h)
    have hexec : exec (.fenceReport t p body) s = .next (if g.owed.contains p.src = true ∧ ver = g.version + 1 then
        (s.begin t).modGraph n (fun (h : Graph) => { h with owed := h.owed.erase p.src })
        else ((s.begin t).modGraph n (fun (h : Graph) => { h with
          reports := h.reports.filter (fun (x : Nat × Nat × Bool) => !(x.1 == p.src && x.2.1 == ver)) ++ [(p.src, ver, field body 8 1 == 0)] })).tryCommit n) := by
      simp only [exec, execFenceReport, State.peerAccept_of_taken hp' (beq_iff_eq.mpr hlen), hg', if_neg htake]
      rfl
    refine ⟨fun howed hnext => hexec.trans (next_congr (if_pos ⟨howed, hnext⟩)), fun hno => hexec.trans (next_congr (if_neg fun h => ?_))⟩
    rcases hno with hno | hno
    · rw [hno] at h
      cases h.1
    · exact hno h.2
  · intro missing w
    have hslot' : (s.begin t).graphs.slots.get? slot = some g := hslot
    simp only [exec, execFenceLimitExpiry, hslot', hrun, hf, if_neg (Nat.not_lt.mpr hlate)]
    rfl
  · exact next_congr (if_pos h)
  · exact next_congr ((if_neg (by simp [h])).trans (if_pos hkind))
  · intro fmt op inst cur raws hn hn0 hmx hkind hp hlen hg hsrc hsmall hinst w
    subst hn
    have hp' : (s.begin t).PeerTaken p 9 body := hp
    have hg' : (s.begin t).boundTo (field body 4 4) = some (slot, g) := hg
    have htake : ¬((!((s.begin t).hsetOf (field body 4 4)).contains p.src) = true ∨ 256 ≤ field body 8 4 ∨ 128 ≤ (field body 8 4 + 256 - cur) % 256) := by
      have hsrc' : ((s.begin t).hsetOf (field body 4 4)).contains p.src = true := hsrc
      rw [hsrc']
      rintro (h | h | h)
      · cases h
      · exact absurd hsmall (Nat.not_lt.mpr h)
      · exact absurd hinst (Nat.not_lt.mpr h)
    simp only [exec, execUpdateHeldResult, hkind, ne_eq, not_true, if_false, State.peerAccept_of_taken hp' (transferForm (fmt := field body 1 1) (n := elemBits (field body 1 1) / 8) hn0 hmx hlen),
      hg']
    exact congrArg _ (if_neg htake)
  · intro fmt h k hn hn0 hmx hkind hp hlen hd hfmt hcls hk hholder hbusy
    subst hn
    have hp' : (s.begin t).PeerTaken p 9 body := hp
    have hd' : (s.begin t).tensor? (field body 4 4) = some d := hd
    have hdue : d.fmt = field body 1 1 ∧ d.cls ≠ 2 ∧ field body 12 4 < d.count ∧ (s.begin t).holderOf d (field body 12 4) = (s.begin t).gei ∧
        (!(s.begin t).tensorBusy (field body 4 4)) = true := by
      have hbusy' : (s.begin t).tensorBusy (field body 4 4) = false := hbusy
      exact ⟨hfmt, hcls, hk, hholder, by rw [hbusy']; rfl⟩
    simp only [exec, execUpdateCommittedStripe, hkind, ne_eq, not_true, if_false, State.peerAccept_of_taken hp' (transferForm (fmt := field body 1 1) (n := elemBits (field body 1 1) / 8) hn0 hmx hlen),
      hd']
    exact congrArg _ (if_pos hdue)

end Sys2Proof.Machine
end

section
/-!
The matrix arrays: a tile's start and completion, and what it shows (R203, R207, R211-R215).
-/
namespace Sys2Proof.Machine

/-! The entries that say which tiles are next are not those that a tile's start shows. -/

theorem elKey_ne_of_lt {e el e' el' : Nat} (h : e' < e) (hl' : el' < 2 ^ 24) : elKey e el ≠ elKey e' el' := by
  simp only [elKey]
  omega

section
variable (s : State) {j : Nat} (v : Nat)

theorem State.quires_wr_arrayDataflow (hj : j < 40) : (s.wr E.arrayDataflow j v).quires = s.quires := by
  have hj' : j < 2 ^ 24 := by omega
  have hdie : ∀ d, (s.wr E.arrayDataflow j v).rd E.dieState d = s.rd E.dieState d := fun d =>
    State.rd_wr_other s v (elKey_ne_of_lt (by decide) hj')
  have hstack : ∀ h, (s.wr E.arrayDataflow j v).rd E.stackState h = s.rd E.stackState h := fun h =>
    State.rd_wr_other s v (elKey_ne_of_lt (by decide) hj')
  simp only [State.quires, State.quireUp, State.stackUp, hdie, hstack]

theorem State.arraysOf_wr_arrayDataflow (hj : j < 40) {q : Nat} (hq : q < 10) :
    (s.wr E.arrayDataflow j v).arraysOf q = s.arraysOf q := by
  refine List.filter_congr fun a ha => ?_
  have ha' : a < 2 ^ 24 := by
    obtain ⟨i, hi, rfl⟩ := List.mem_map.mp ha
    have := List.mem_range.mp hi
    omega
  rw [State.arrayUp, State.arrayUp, State.rd_wr_other s v (elKey_ne_of_entry_ne (by decide) ha' (by omega)),
    State.rd_wr_other s v (elKey_ne_of_lt (by decide) (by omega))]

theorem State.redirect_wr_arrayDataflow (hj : j < 40) (q : Nat) : (s.wr E.arrayDataflow j v).redirect q = s.redirect q := by
  simp only [State.redirect, State.quires_wr_arrayDataflow s v hj]
  refine List.find?_congr fun e he => ?_
  have hq : e ∈ s.quires := by
    rcases List.mem_append.mp he with h | h
    · exact List.mem_of_mem_drop h
    · exact List.mem_of_mem_take h
  rw [State.arraysOf_wr_arrayDataflow s v hj (List.mem_range.mp (List.mem_filter.mp hq).1)]

theorem State.tileAt_wr_arrayDataflow (hj : j < 40) (q last : Nat) :
    (s.wr E.arrayDataflow j v).tileAt q last = s.tileAt q last := by
  have hband : ∀ t b, (s.wr E.arrayDataflow j v).bandDie t b = s.bandDie t b := fun t b => by
    simp only [State.bandDie, State.candidates, State.quires_wr_arrayDataflow s v hj]
  have htile : ∀ n g, (s.wr E.arrayDataflow j v).tileOf n g q = s.tileOf n g q := fun n g => by
    simp only [State.tileOf, State.tileDie, hband]
    rfl
  simp only [State.tileAt, htile]
  rfl

theorem State.nextTile_wr_arrayDataflow (hj : j < 40) (q : Nat) : (s.wr E.arrayDataflow j v).nextTile q = s.nextTile q := by
  simp only [State.nextTile, State.tileAt_wr_arrayDataflow s v hj, State.redirect_wr_arrayDataflow s v hj,
    State.quires_wr_arrayDataflow s v hj]
  rfl

end

/-! A tile's start. -/

theorem State.rd_coldBit_other (s : State) {j e el : Nat} (on : Bool) (hj : j < 40) (he : e ≠ E.coldState) (hel : el < 2 ^ 24) :
    (s.coldBit j on).rd e el = s.rd e el := by
  unfold State.coldBit
  dsimp only
  split
  · rfl
  · exact State.rd_wr_other s _ (elKey_ne_of_entry_ne he hel (by omega))

theorem State.graphs_coldBit (s : State) (j : Nat) (on : Bool) : (s.coldBit j on).graphs = s.graphs := by
  unfold State.coldBit
  dsimp only
  split <;> rfl

theorem State.fresh_coldBit (s : State) (j : Nat) (on : Bool) : (s.coldBit j on).fresh = s.fresh := by
  unfold State.coldBit
  dsimp only
  split <;> rfl

/-- A stopped array starts (R215). -/
def State.wakeArray (s : State) (j : Nat) : State :=
  if s.rd E.arrayState j = 0 then ((s.wr E.arrayState j 1).bump E.starts j 1).coldBit j true else s

/-- A tile computed again is counted (R213). -/
def State.countAgain (s : State) (x : Tile) : State := if x.miss = 0 then s else s.bump E.recomputes_8840 0 1

/-- The tile is put on its array. -/
def State.seatTile (s : State) (j : Nat) (x : Tile) : State :=
  s.setArray j { s.array j with tiles := (s.array j).tiles ++ [x], ahead := (s.array j).ahead.filter (fun y => y != x), last := s.now }

theorem State.startTile_eq (s : State) (j : Nat) (x : Tile) :
    s.startTile j x = (((s.seatTile j x).wakeArray j).countAgain x).wr E.arrayDataflow j
      ((((s.seatTile j x).wakeArray j).countAgain x).dataflowOf j x) := rfl

section
variable (s : State) (j : Nat) (x : Tile)

theorem State.graphs_wakeArray : (s.wakeArray j).graphs = s.graphs := by
  unfold State.wakeArray
  split
  · exact State.graphs_coldBit ..
  · rfl

theorem State.graphs_countAgain : (s.countAgain x).graphs = s.graphs := by
  unfold State.countAgain
  split <;> rfl

theorem State.fresh_wakeArray : (s.wakeArray j).fresh = s.fresh := by
  unfold State.wakeArray
  split
  · exact State.fresh_coldBit ..
  · rfl

theorem State.fresh_countAgain : (s.countAgain x).fresh = s.fresh := by
  unfold State.countAgain
  split <;> rfl

theorem State.rd_countAgain_other {e el : Nat} (he : e ≠ E.recomputes_8840) (hel : el < 2 ^ 24) :
    (s.countAgain x).rd e el = s.rd e el := by
  unfold State.countAgain
  split
  · rfl
  · exact State.rd_bump_other s 1 (elKey_ne_of_entry_ne he hel (by decide))

theorem State.rd_countAgain_same : (s.countAgain x).rd E.recomputes_8840 0
    = if x.miss = 0 then s.rd E.recomputes_8840 0 else (s.rd E.recomputes_8840 0 + 1) % 2 ^ 64 := by
  unfold State.countAgain
  split
  · rfl
  · exact State.rd_bump_same ..

variable {j}

theorem State.rd_wakeArray_other {e el : Nat} (hj : j < 40) (hel : el < 2 ^ 24) (hs : e ≠ E.arrayState) (hn : e ≠ E.starts)
    (hc : e ≠ E.coldState) : (s.wakeArray j).rd e el = s.rd e el := by
  unfold State.wakeArray
  split
  · rw [State.rd_coldBit_other _ true hj hc hel, State.rd_bump_other _ 1 (elKey_ne_of_entry_ne hn hel (by omega)),
      State.rd_wr_other s 1 (elKey_ne_of_entry_ne hs hel (by omega))]
  · rfl

theorem State.rd_wakeArray_stopped (hj : j < 40) (h : s.rd E.arrayState j = 0) :
    (s.wakeArray j).rd E.arrayState j = 1 ∧ (s.wakeArray j).rd E.starts j = (s.rd E.starts j + 1) % 2 ^ 64 := by
  have hj' : j < 2 ^ 24 := by omega
  have hne : elKey E.starts j ≠ elKey E.arrayState j := elKey_ne_of_entry_ne (by decide) hj' hj'
  rw [State.wakeArray, if_pos h]
  constructor
  · rw [State.rd_coldBit_other _ true hj (by decide) hj', State.rd_bump_other _ 1 hne.symm, State.rd_wr_same]
  · rw [State.rd_coldBit_other _ true hj (by decide) hj', State.rd_bump_same, State.rd_wr_other s 1 hne]

theorem State.wakeArray_running (h : s.rd E.arrayState j ≠ 0) : s.wakeArray j = s := if_neg h

end

theorem State.array_congr {s u : State} (h : u.graphs = s.graphs) (j : Nat) : u.array j = s.array j :=
  congrArg (fun g : Graphs => g.arrays.getD j {}) h

/-- The dataflow of a tile that is alone on its array, by the tile that is next. -/
theorem State.dataflowOf_of_alone (s : State) {j : Nat} (x : Tile) (h : (s.array j).ahead = []) :
    s.dataflowOf j x = if (s.tileInner x).1 < 512 ∨ (∃ y, s.nextTile (j / 4) = some y ∧ s.shares x y = true) then 2 else 1 := by
  have hline : s.inLine j = s.nextTile (j / 4) := by rw [State.inLine, h]
  rw [State.dataflowOf, hline]
  refine if_congr (or_congr Iff.rfl ?_) rfl rfl
  cases s.nextTile (j / 4) with
  | none => simp
  | some y => simp

theorem State.startTile_shows (s : State) {j : Nat} (x : Tile) (hj : j < 40) (ht : (s.array j).tiles = []) (ha : (s.array j).ahead = []) :
    ((s.startTile j x).array j).tiles = [x] ∧ ((s.startTile j x).array j).last = s.now ∧ (s.startTile j x).fresh = s.fresh ∧
      (s.rd E.arrayState j = 0 → (s.startTile j x).rd E.arrayState j = 1 ∧ (s.startTile j x).rd E.starts j = (s.rd E.starts j + 1) % 2 ^ 64) ∧
      (s.rd E.arrayState j ≠ 0 → (s.startTile j x).rd E.arrayState j = s.rd E.arrayState j) ∧
      (s.startTile j x).rd E.recomputes_8840 0
        = (if x.miss = 0 then s.rd E.recomputes_8840 0 else (s.rd E.recomputes_8840 0 + 1) % 2 ^ 64) ∧
      (s.startTile j x).rd E.arrayDataflow j = (if ((s.startTile j x).tileInner x).1 < 512 ∨
        (∃ y, (s.startTile j x).nextTile (j / 4) = some y ∧ (s.startTile j x).shares x y = true) then 2 else 1) := by
  have hj' : j < 2 ^ 24 := by omega
  obtain ⟨v, hv⟩ : ∃ v, v = ((s.seatTile j x).wakeArray j).countAgain x := ⟨_, rfl⟩
  have hgraphs : v.graphs = (s.seatTile j x).graphs := by
    rw [hv, State.graphs_countAgain, State.graphs_wakeArray]
  have harr : v.array j = { s.array j with tiles := [x], ahead := [], last := s.now } := by
    rw [State.array_congr hgraphs, State.seatTile, ht, ha]
    exact Tab.getD_set_same ..
  have hother : ∀ e, e ≠ E.arrayDataflow → (v.wr E.arrayDataflow j (v.dataflowOf j x)).rd e j = v.rd e j := fun e he =>
    State.rd_wr_other v _ (elKey_ne_of_entry_ne he hj' hj')
  have hcount : ∀ e, e ≠ E.recomputes_8840 → v.rd e j = ((s.seatTile j x).wakeArray j).rd e j := fun e he => by
    rw [hv, State.rd_countAgain_other _ x he hj']
  rw [State.startTile_eq, ← hv]
  refine ⟨congrArg MatArray.tiles harr, congrArg MatArray.last harr, ?_, fun h0 => ⟨?_, ?_⟩, fun h0 => ?_, ?_, ?_⟩
  · rw [State.wr_fresh, hv, State.fresh_countAgain, State.fresh_wakeArray]
    rfl
  · rw [hother _ (by decide), hcount _ (by decide), (State.rd_wakeArray_stopped (s.seatTile j x) hj h0).1]
  · rw [hother _ (by decide), hcount _ (by decide), (State.rd_wakeArray_stopped (s.seatTile j x) hj h0).2]
    rfl
  · rw [hother _ (by decide), hcount _ (by decide), State.wakeArray_running (s.seatTile j x) h0]
    rfl
  · rw [State.rd_wr_other v _ (elKey_ne_of_entry_ne (by decide) (by decide) hj'), hv, State.rd_countAgain_same,
      State.rd_wakeArray_other _ hj (by decide) (by decide) (by decide) (by decide)]
    rfl
  · rw [State.rd_wr_same, State.nextTile_wr_arrayDataflow v _ hj, State.dataflowOf_of_alone v x (congrArg MatArray.ahead harr)]
    rfl

theorem exec_tileIssue {t : Time} {j : Nat} {s : State} (hj : j < 40) (hup : s.arrayUp j = true) (hth : s.rd E.throttled (j / 4) = 0) :
    exec (.tileIssue t j) s = .next (match (s.array j).ahead with
      | x :: _ => if s.tileRoom j x then (s.begin t).startTile j x else s.begin t
      | [] => match s.nextTile (j / 4) with
        | some x =>
          if s.tileRoom j x then
            let w := ((s.begin t).noteProduct x).modProduct x.slot x.node (fun (p : Product) => { p with issued := p.issued ++ [(x.i, x.j)] })
            ({ w with graphs := { w.graphs with lastSlot := w.graphs.lastSlot.set (j / 4) x.slot } } : State).startTile j x
          else s.begin t
        | none => s.begin t) := by
  refine next_congr (if_neg ?_)
  rintro (h | h | h)
  · omega
  · rw [show ((s.begin t).arrayUp j) = true from hup] at h
    cases h
  · exact h hth

/-- Settles O35: the commands are the model's; what a tile's start shows is read off entry by entry, and the tile next in line
stays the same as the array's entries change. -/
theorem matrixArrays : Obligations.MatrixArrays := by
  refine ⟨?issueAhead, ?issueNext, fun j x s hj ht ha => s.startTile_shows x hj ht ha, ?complete, fun x s => rfl, ?idle⟩
  case issueAhead =>
    intro t j x l s hj hup hth hahead hroom
    simp only [exec_tileIssue hj hup hth, hahead, if_pos hroom]
  case issueNext =>
    intro t j x s hj hup hth hahead hnext hroom w
    simp only [exec_tileIssue hj hup hth, hahead, hnext, if_pos hroom, w]
  case complete =>
    intro t j row col line stalls wrong epi x s hfind w
    have hfind' : ((s.begin t).array j).tiles.find? (fun (y : Tile) => y.i == row && y.j == col) = some x := hfind
    obtain ⟨u, hu⟩ : ∃ u, u = (s.begin t).bump E.feederStalls j stalls := ⟨_, rfl⟩
    rw [show w = u from hu.symm]
    refine ⟨fun h hepi => ?_, fun h hepi => ?_, fun k h => ?_⟩
    · simp only [exec, execTileComplete, hfind', ← hu, h, if_neg (Bool.eq_false_iff.mp hepi)]
    · simp only [exec, execTileComplete, hfind', ← hu, h, if_pos hepi]
    · simp only [exec, execTileComplete, hfind', ← hu, h]
  case idle =>
    intro t j s hrun ht ha hlate hnone
    refine next_congr (if_pos ⟨hrun, ?_, ?_, hlate, ?_⟩)
    · exact List.isEmpty_iff.mpr ht
    · exact List.isEmpty_iff.mpr ha
    · exact Option.isNone_iff_eq_none.mpr hnone

end Sys2Proof.Machine
end

section
/-!
The poison list of a stack (R230-R233): blocks met, entered and written.
-/
namespace Sys2Proof.Machine

/-! What each operation of a stack does to the poison lists. -/

theorem Noted.graphs {s t : State} (h : Noted s t) : t.graphs = s.graphs :=
  (congrArg State.graphs h.eq).trans (Eq.refl s.graphs)

theorem Noted.now {s t : State} (h : Noted s t) : t.now = s.now :=
  (congrArg State.now h.eq).trans (Eq.refl s.now)

theorem State.poisoned_congr {s u : State} (h : u.graphs.poison = s.graphs.poison) (g : Nat) : u.poisoned g = s.poisoned g :=
  congrArg (fun p : Tab (List Nat) => p.getD g []) h

theorem Tab.getD_setOrDel_same {α : Type} (m : Tab (List α)) (k : Nat) (l : List α) :
    (if l.isEmpty then m.del k else m.set k l).getD k [] = l := by
  cases l with
  | nil => exact congrArg (·.getD []) (Tab.get_del_same m k)
  | cons a r => exact Tab.getD_set_same ..

theorem Tab.getD_setOrDel_other {α : Type} (m : Tab (List α)) {k j : Nat} (l : List α) (h : j ≠ k) :
    (if l.isEmpty then m.del k else m.set k l).getD j [] = m.getD j [] := by
  cases l with
  | nil => exact congrArg (·.getD []) (Tab.get_del_other m h)
  | cons a r => exact Tab.getD_set_other m _ _ h

@[simp] theorem State.poisoned_setPoison_same (s : State) (h : Nat) (l : List Nat) : (s.setPoison h l).poisoned h = l :=
  Tab.getD_setOrDel_same s.graphs.poison h l

theorem State.poisoned_setPoison_other (s : State) {h g : Nat} (l : List Nat) (hg : g ≠ h) :
    (s.setPoison h l).poisoned g = s.poisoned g :=
  Tab.getD_setOrDel_other s.graphs.poison l hg

theorem State.poisoned_freshBlocks_same (s : State) (h b n : Nat) :
    (s.freshBlocks h b n).poisoned h = (s.poisoned h).filter (fun k => !inBlocks b n k) :=
  State.poisoned_setPoison_same s h _

theorem State.poisoned_freshBlocks_other (s : State) {h g : Nat} (b n : Nat) (hg : g ≠ h) :
    (s.freshBlocks h b n).poisoned g = s.poisoned g :=
  State.poisoned_setPoison_other s _ hg

/-- Past the freeing of the block, what is written changes no poison list. -/
theorem State.poison_putBlock (s : State) (h b : Nat) (v : BitVec 512) :
    (s.putBlock h b v).graphs.poison = (s.freshBlocks h b 1).graphs.poison := by
  unfold State.putBlock
  dsimp only
  split
  · rfl
  · split <;> rfl

theorem State.mem_poisoned_putBlock (s : State) (h b k : Nat) (v : BitVec 512) :
    k ∈ (s.putBlock h b v).poisoned h ↔ k ∈ s.poisoned h ∧ k ≠ b := by
  rw [State.poisoned_congr (s.poison_putBlock h b v), State.poisoned_freshBlocks_same, List.mem_filter, inBlocks]
  simp only [Bool.not_eq_true', Bool.and_eq_false_iff, decide_eq_false_iff_not]
  refine and_congr_right fun _ => ?_
  omega

theorem State.poisoned_putBlock_other (s : State) {h g : Nat} (b : Nat) (v : BitVec 512) (hg : g ≠ h) :
    (s.putBlock h b v).poisoned g = s.poisoned g := by
  rw [State.poisoned_congr (s.poison_putBlock h b v), State.poisoned_freshBlocks_other s b 1 hg]

section
variable (s : State) (h b : Nat) (v : BitVec 512)

theorem State.mem_poisoned_putBlocks (m k : Nat) :
    k ∈ ((List.range m).foldl (fun (s : State) i => s.putBlock h (b + i) v) s).poisoned h ↔ k ∈ s.poisoned h ∧ ¬(b ≤ k ∧ k < b + m) := by
  induction m with
  | zero => simp
  | succ m ih =>
    rw [List.range_succ, List.foldl_concat, State.mem_poisoned_putBlock, ih]
    constructor
    · rintro ⟨⟨hk, hout⟩, hne⟩
      exact ⟨hk, by omega⟩
    · rintro ⟨hk, hout⟩
      exact ⟨⟨hk, by omega⟩, by omega⟩

theorem State.poisoned_putBlocks_other {g : Nat} (hg : g ≠ h) (m : Nat) :
    ((List.range m).foldl (fun (s : State) i => s.putBlock h (b + i) v) s).poisoned g = s.poisoned g := by
  induction m with
  | zero => rfl
  | succ m ih => rw [List.range_succ, List.foldl_concat, State.poisoned_putBlock_other _ _ v hg, ih]

end

/-! A transfer at a stack's interface. -/

theorem State.serve_eq {s w : State} {h cls : Nat} {wait : List Nat} (hs : s.serve h cls wait = some w) :
    ∃ a, w = { s with graphs := { s.graphs with arb := a } } := by
  unfold State.serve at hs
  dsimp only at hs
  split at hs
  · split at hs
    · exact ⟨_, (Option.some.inj hs).symm⟩
    · cases hs
  · cases hs

theorem State.serve_poison {s w : State} {h cls : Nat} {wait : List Nat} (hs : s.serve h cls wait = some w) :
    w.graphs.poison = s.graphs.poison := by
  obtain ⟨a, rfl⟩ := State.serve_eq hs
  rfl

theorem State.serve_holdsAt {s w : State} {h cls : Nat} {wait : List Nat} (hs : s.serve h cls wait = some w) (g b : Nat) (x : Holds) :
    w.holdsAt g b x = s.holdsAt g b x := by
  obtain ⟨a, rfl⟩ := State.serve_eq hs
  rfl

theorem State.transferred_noted (s : State) (h cls : Nat) : Noted s (s.transferred h cls) :=
  (State.addCounter_noted ..).trans (State.countEvent_noted ..)

theorem State.AtStack.poisoned {s v : State} {t : Time} {h b retries : Nat} {e : BitVec 544} {wait : List Nat} {x : Holds}
    (hv : s.AtStack t h b retries e wait x v) (g : Nat) : v.poisoned g = s.poisoned g := by
  obtain ⟨w, hw, rfl⟩ := hv
  refine State.poisoned_congr ?_ g
  have hgraphs : (w.transferred h (holdsClass (s.holdsAt h b x))).graphs.poison = s.graphs.poison := by
    rw [(State.transferred_noted ..).graphs]
    exact State.serve_poison (s := s.begin t) hw
  by_cases hr : retries = 0
  · rw [if_pos hr]
    exact hgraphs
  · rw [if_neg hr]
    exact hgraphs

/-- A transfer served, and its retries, counted. -/
def State.countTransfer (w : State) (h cls retries : Nat) : State :=
  if retries = 0 then w.transferred h cls else (w.transferred h cls).bump E.interfaceRetries h 1

/-- The stack is in service, and the command and the block are ones it knows. -/
theorem takesCommand {s : State} {h cmd b : Nat} (hh : h < 20) (hup : s.stackUp h = true) (hcmd : cmd ≤ 9) (hb : b < stackBlocks) :
    ¬(20 ≤ h ∨ (!s.stackUp h) = true ∨ 9 < cmd ∨ stackBlocks ≤ b) := by
  rw [hup]
  rintro (h' | h' | h' | h')
  · omega
  · cases h'
  · omega
  · omega

theorem exec_stackCommandDone_served {t : Time} {h cmd b word n retries : Nat} {failed : Bool} {data : BitVec 512} {e : BitVec 544}
    {wait : List Nat} {x : Holds} {s w : State} (hh : h < 20) (hup : s.stackUp h = true) (hcmd : cmd ≤ 9) (hb : b < stackBlocks)
    (hw : (s.begin t).serve h (holdsClass (s.holdsAt h b x)) wait = some w) :
    exec (.stackCommandDone t h cmd b n retries failed ⟨word, data, ⟨e, wait⟩⟩ x) s = .next (if failed = true then
        if 4 ≤ retries then (w.countTransfer h (holdsClass (s.holdsAt h b x)) retries).excludeStack h 2
        else w.countTransfer h (holdsClass (s.holdsAt h b x)) retries
      else ((w.countTransfer h (holdsClass (s.holdsAt h b x)) retries).upset h b e).stackCommand h cmd b word n data x) := by
  have hpass := takesCommand (s := s.begin t) hh hup hcmd hb
  have hw' : (s.begin t).serve h (holdsClass ((s.begin t).holdsAt h b x)) wait = some w := hw
  have hx : w.holdsAt h b x = s.holdsAt h b x := State.serve_holdsAt (s := s.begin t) hw h b x
  simp only [exec, execStackCommandDone, if_neg hpass, hw', hx, State.countTransfer]

theorem exec_stackCommandDone {t : Time} {h cmd b word n retries : Nat} {data : BitVec 512} {e : BitVec 544} {wait : List Nat}
    {x : Holds} {s v : State} (hh : h < 20) (hup : s.stackUp h = true) (hcmd : cmd ≤ 9) (hb : b < stackBlocks)
    (hv : s.AtStack t h b retries e wait x v) :
    exec (.stackCommandDone t h cmd b n retries false ⟨word, data, ⟨e, wait⟩⟩ x) s = .next (v.stackCommand h cmd b word n data x) := by
  obtain ⟨w, hw, rfl⟩ := hv
  exact exec_stackCommandDone_served hh hup hcmd hb hw

/-- The block cannot be read: it is poisoned, or what is stored there is uncorrectable. -/
def State.Unreadable (s : State) (h b : Nat) : Prop := b ∈ s.poisoned h ∨ (readWord (s.stored h b)).1 = .bad

theorem State.onBlock_unreadable {s : State} {h b : Nat} (x : Holds) (f : State → BitVec 512 → State) (hbad : s.Unreadable h b) :
    s.onBlock h b x f = s.badBlock h b (s.holdsAt h b x) := by
  have hread : s.readBlock h b x = (none, s.badBlock h b (s.holdsAt h b x)) :=
    by simp only [State.readBlock, if_pos (hbad.imp_left List.contains_iff_mem.mpr)]
  simp only [State.onBlock, hread, Option.isSome_none, Bool.false_eq_true, if_false]

theorem State.stackCommand_unreadable {s : State} {h cmd b word n : Nat} {data : BitVec 512} (x : Holds) (h1 : cmd ≠ 1) (h2 : cmd ≠ 2)
    (hbad : s.Unreadable h b) : s.stackCommand h cmd b word n data x = s.badBlock h b (s.holdsAt h b x) := by
  match cmd with
  | 0 =>
    rw [State.stackCommand]
    exact State.onBlock_unreadable x _ hbad
  | 1 => exact absurd rfl h1
  | 2 => exact absurd rfl h2
  | k + 3 =>
    simp only [State.stackCommand, State.combine]
    exact State.onBlock_unreadable x _ hbad

/-- What the patrol scrub does with the block it has read: one that held upsets is written back (R233). -/
def scrubWrite (h b : Nat) (s : State) (v : BitVec 512) : State :=
  if ((s.graphs.upsets.getD h []).get? b).isSome then s.putBlock h b v else s

/-- The patrol scrub has a transfer: no class waits, or it is late. -/
theorem exec_scrubStep {t : Time} {h : Nat} {e : BitVec 544} {wait : List Nat} {x : Holds} {s : State} (hh : h < 20)
    (hup : s.stackUp h = true) (hidle : wait.any (fun n => decide (0 < n)) = false ∨ (s.begin t).scrubLate h = true) :
    exec (.scrubStep t h ⟨e, wait⟩ x) s = .next ((((s.begin t).scrubNext h).upset h (s.graphs.scrubAt.getD h 0) e).onBlock h
      (s.graphs.scrubAt.getD h 0) x (scrubWrite h (s.graphs.scrubAt.getD h 0))) := by
  have hpass : ¬(20 ≤ h ∨ (!(s.begin t).stackUp h) = true ∨
      (wait.any (fun n => decide (0 < n)) = true ∧ (!(s.begin t).scrubLate h) = true)) := by
    rw [show (s.begin t).stackUp h = true from hup]
    rintro (h' | h' | ⟨hwait, hlate⟩)
    · omega
    · cases h'
    · rcases hidle with hidle | hidle
      · rw [hidle] at hwait
        cases hwait
      · rw [hidle] at hlate
        cases hlate
  simp only [exec, execScrubStep, if_neg hpass]
  rfl

theorem State.poison_scrubNext (s : State) (h : Nat) : (s.scrubNext h).graphs.poison = s.graphs.poison := by
  unfold State.scrubNext
  dsimp only
  split <;> rfl

/-! The list of a block newly met. -/

theorem mem_insertNat (b k : Nat) (l : List Nat) : k ∈ insertNat b l ↔ k = b ∨ k ∈ l := by
  induction l with
  | nil => simp [insertNat]
  | cons i r ih =>
    rw [insertNat]
    cases hlt : Nat.blt b i with
    | true => simp
    | false =>
      cases heq : Nat.beq i b with
      | true =>
        have := Nat.eq_of_beq_eq_true heq
        simp [this]
      | false =>
        simp only [cond_false, List.mem_cons, ih]
        exact or_left_comm

theorem length_insertNat_new {b : Nat} {l : List Nat} (hb : b ∉ l) : (insertNat b l).length = l.length + 1 := by
  induction l with
  | nil => rfl
  | cons i r ih =>
    obtain ⟨hi, hr⟩ := List.ne_and_not_mem_of_not_mem_cons hb
    rw [insertNat]
    cases hlt : Nat.blt b i with
    | true => rfl
    | false =>
      have heq : Nat.beq i b = false := Bool.eq_false_iff.mpr fun h => hi (Nat.eq_of_beq_eq_true h).symm
      simp only [heq, cond_false, List.length_cons, ih hr]

section
variable (s : State) (h b : Nat) (x : Holds)

/-- The state in which a block newly met is entered in its list: counted, recorded and told (R231, R232). -/
def State.metBad : State :=
  ((s.bump E.uncorrectable h 1).wr E.ueLast 0 (pack [(5, h), (3, holdsPart x), (40, b), (32, (s.bump E.uncorrectable h 1).now / sec),
    (30, (s.bump E.uncorrectable h 1).now % sec / ns), (18, 0)])).raise 0x8C02 2 (8 + h / 2)
    [.v 16 h, .v 8 (holdsPart x), .v 40 b, .v 32 (holdsOwner x)]

theorem State.metBad_eq : s.metBad h b x =
    ((s.bump E.uncorrectable h 1).wr E.ueLast 0 (pack [(5, h), (3, holdsPart x), (40, b), (32, s.now / sec), (30, s.now % sec / ns),
      (18, 0)])).raise 0x8C02 2 (8 + h / 2) [.v 16 h, .v 8 (holdsPart x), .v 40 b, .v 32 (holdsOwner x)] := by
  have hnow : (s.bump E.uncorrectable h 1).now = s.now := State.wr_now ..
  rw [State.metBad, hnow]

theorem State.graphs_metBad : (s.metBad h b x).graphs = s.graphs := by
  rw [State.metBad, (State.raise_noted ..).graphs, State.wr_graphs, State.bump, State.wr_graphs]

theorem State.poisoned_metBad (g : Nat) : (s.metBad h b x).poisoned g = s.poisoned g :=
  State.poisoned_congr (congrArg Graphs.poison (s.graphs_metBad h b x)) g

theorem State.now_metBad : (s.metBad h b x).now = s.now := by
  rw [State.metBad, (State.raise_noted ..).now, State.wr_now, State.bump, State.wr_now]

theorem State.ueLimit_metBad (hh : h < 20) : (s.metBad h b x).rd E.ueLimit 0 = s.rd E.ueLimit 0 := by
  have hother : ∀ {e el}, e ≠ E.ueLimit → el < 20 → elKey E.ueLimit 0 ≠ elKey e el := fun he hel =>
    elKey_ne_of_entry_ne he.symm (by decide) (by omega)
  rw [State.metBad, State.rd_raise_of_entry _ _ _ _ _ (by decide) (by decide), State.rd_wr_other _ _ (hother (by decide) (by decide)),
    State.rd_bump_other s 1 (hother (by decide) hh)]

theorem State.badBlock_listed (hb : b ∈ s.poisoned h) (hup : s.stackUp h = true) : s.badBlock h b x = s.blockLost h x := by
  unfold State.badBlock
  simp only [List.contains_iff_mem.mpr hb, if_true, hup]

/-- The times at which blocks of a stack were newly met within the last second, and now. -/
def State.recentBad (s : State) (h : Nat) : List Time :=
  (s.graphs.poisonAt.getD h []).filter (fun t => decide (s.now < t + sec)) ++ [s.now]

/-- A block entered in its stack's list, and the time kept. -/
def State.listBlock (s : State) (h b : Nat) : State :=
  let s := s.setPoison h (insertNat b (s.poisoned h))
  { s with graphs := { s.graphs with poisonAt := s.graphs.poisonAt.set h (s.recentBad h) } }

/-- A block entered where the list has room; a full list, or too many in a second, exclude the stack. -/
def State.enterBlock (s : State) (h b : Nat) : State :=
  if 4096 ≤ (s.poisoned h).length then s.excludeStack h 3
  else if (s.listBlock h b).rd E.ueLimit 0 < ((s.setPoison h (insertNat b (s.poisoned h))).recentBad h).length then
    (s.listBlock h b).excludeStack h 4
  else s.listBlock h b

theorem State.recentBad_setPoison (s : State) (h : Nat) (l : List Nat) : (s.setPoison h l).recentBad h = s.recentBad h := rfl

theorem State.newPoison_eq : s.newPoison h b x = (s.metBad h b x).enterBlock h b := rfl

end

section
variable (s : State) {h : Nat} (b : Nat)

theorem State.enterBlock_full (hfull : 4096 ≤ (s.poisoned h).length) : s.enterBlock h b = s.excludeStack h 3 := if_pos hfull

theorem State.ueLimit_listBlock (hh : h < 20) : (s.listBlock h b).rd E.ueLimit 0 = s.rd E.ueLimit 0 :=
  State.rd_wr_other _ _ (elKey_ne_of_entry_ne (by decide) (by decide) (by omega))

theorem State.enterBlock_room (hh : h < 20) (hroom : (s.poisoned h).length < 4096) (hrecent : (s.recentBad h).length ≤ s.rd E.ueLimit 0) :
    s.enterBlock h b = s.listBlock h b := by
  rw [State.enterBlock, if_neg (Nat.not_le.mpr hroom), if_neg]
  rw [State.ueLimit_listBlock s b hh, State.recentBad_setPoison]
  exact Nat.not_lt.mpr hrecent

theorem State.poisoned_listBlock : (s.listBlock h b).poisoned h = insertNat b (s.poisoned h) := State.poisoned_setPoison_same ..

theorem State.poisonEntries_listBlock : (s.listBlock h b).rd E.poisonEntries h = (insertNat b (s.poisoned h)).length := State.rd_wr_same ..

end

section
variable (s : State) (h b : Nat) (x : Holds)

theorem State.newPoison_full (hfull : 4096 ≤ (s.poisoned h).length) : s.newPoison h b x = (s.metBad h b x).excludeStack h 3 := by
  rw [← State.poisoned_metBad s h b x] at hfull
  rw [State.newPoison_eq, State.enterBlock_full _ b hfull]

theorem State.recentBad_metBad : (s.metBad h b x).recentBad h = s.recentBad h := by
  rw [State.recentBad, State.graphs_metBad, State.now_metBad, State.recentBad]

theorem State.badBlock_full (hb : b ∉ s.poisoned h) (hfull : 4096 ≤ (s.poisoned h).length) :
    s.badBlock h b x = if ((s.metBad h b x).excludeStack h 3).stackUp h then ((s.metBad h b x).excludeStack h 3).blockLost h x
      else (s.metBad h b x).excludeStack h 3 := by
  unfold State.badBlock
  simp only [if_neg (fun h' => hb (List.contains_iff_mem.mp h')), State.newPoison_full s h b x hfull]

end

theorem State.newPoison_lists (s : State) {h b : Nat} (x : Holds) (hh : h < 20) (hb : b ∉ s.poisoned h)
    (hroom : (s.poisoned h).length < 4096) (hrecent : (s.recentBad h).length ≤ s.rd E.ueLimit 0) :
    b ∈ (s.newPoison h b x).poisoned h ∧ (s.newPoison h b x).rd E.poisonEntries h = (s.poisoned h).length + 1 ∧
      ∀ k, k ≠ b → (k ∈ (s.newPoison h b x).poisoned h ↔ k ∈ s.poisoned h) := by
  rw [← State.poisoned_metBad s h b x] at hroom
  rw [← State.recentBad_metBad s h b x, ← State.ueLimit_metBad s h b x hh] at hrecent
  rw [State.newPoison_eq, State.enterBlock_room _ b hh hroom hrecent, State.poisoned_listBlock, State.poisonEntries_listBlock,
    State.poisoned_metBad, length_insertNat_new hb]
  refine ⟨(mem_insertNat ..).mpr (Or.inl rfl), rfl, fun k hk => ?_⟩
  rw [mem_insertNat]
  exact or_iff_right hk

/-- Settles O36: the rules of a stack's poison list, for a command, the patrol scrub, a block already listed, a block newly met
and a block written. -/
theorem poisonList : Obligations.PoisonList := by
  refine ⟨?command, ?scrub, fun h b x s hb hup => s.badBlock_listed h b x hb hup, ?new, ?write⟩
  case command =>
    intro t h cmd b word n retries data e wait x s v hh hup hcmd h1 h2 hb hv hbad
    rw [exec_stackCommandDone hh hup hcmd hb hv]
    rw [← hv.poisoned h] at hbad
    exact congrArg _ (State.stackCommand_unreadable x h1 h2 hbad)
  case scrub =>
    intro t h e wait x s hh hup hidle b w hbad
    have hpoison : w.poisoned h = s.poisoned h := State.poisoned_congr (s.begin t |>.poison_scrubNext h) h
    rw [← hpoison] at hbad
    exact (exec_scrubStep hh hup hidle).trans (congrArg _ (State.onBlock_unreadable x _ hbad))
  case new =>
    intro h b x s hh hb w recent
    have hw : w = s.metBad h b x := (s.metBad_eq h b x).symm
    refine ⟨fun hfull => ?_, fun hroom hrecent => ?_⟩
    · rw [hw]
      exact s.badBlock_full h b x hb hfull
    · exact s.newPoison_lists x hh hb hroom (by rw [State.recentBad, List.length_append]; exact hrecent)
  case write =>
    intro t h cmd b word n retries data e wait x s v hh hup hcmd hb hv
    rcases hcmd with rfl | rfl
    · refine ⟨v.putBlock h b data, exec_stackCommandDone hh hup (by decide) hb hv, fun k => ?_, fun g hg => ?_, fun _ => rfl, fun h => absurd h (by decide)⟩
      · rw [State.mem_poisoned_putBlock, hv.poisoned h, if_pos rfl]
        refine and_congr_right fun _ => ?_
        omega
      · rw [State.poisoned_putBlock_other v b data hg, hv.poisoned g]
    · refine ⟨_, exec_stackCommandDone hh hup (by decide) hb hv, fun k => ?_, fun g hg => ?_, fun h => absurd h (by decide), fun _ => rfl⟩
      · rw [if_neg (by decide), ← hv.poisoned h]
        exact v.mem_poisoned_putBlocks h b _ _ k
      · rw [← hv.poisoned g]
        exact v.poisoned_putBlocks_other h b _ hg _

end Sys2Proof.Machine
end

section
/-!
The other commands of a stack (R219-R238): blocks read, combined and written, the patrol scrub, temperatures and partitions.
-/
namespace Sys2Proof.Machine

/-! A block that can be read. -/

/-- The state after a block has been read: a corrected one is counted and told (R232). -/
def State.readAt (s : State) (h b : Nat) : State := if (readWord (s.stored h b)).1 = .corrected then s.correctedRead h else s

theorem State.onBlock_readable {s : State} {h b : Nat} (x : Holds) (f : State → BitVec 512 → State) (hp : b ∉ s.poisoned h)
    (hr : (readWord (s.stored h b)).1 ≠ .bad) : s.onBlock h b x f = f (s.readAt h b) (readWord (s.stored h b)).2 := by
  have hno : ¬((s.poisoned h).contains b = true ∨ (readWord (s.stored h b)).1 = .bad) := by
    rintro (h' | h')
    · exact hp (List.contains_iff_mem.mp h')
    · exact hr h'
  have hread : s.readBlock h b x = (some (readWord (s.stored h b)).2, s.readAt h b) := by
    simp only [State.readBlock, if_neg hno, State.readAt]
  simp only [State.onBlock, hread, Option.isSome_some, if_true, Option.getD_some]

theorem State.stackCommand_combine (s : State) {h cmd b word n : Nat} (data : BitVec 512) (x : Holds) (hcmd : 3 ≤ cmd) :
    s.stackCommand h cmd b word n data x = s.combine h cmd b (word % 4) data.toNat x := by
  match cmd, hcmd with
  | k + 3, _ => rfl

theorem State.combine_readable {s : State} {h cmd b j d : Nat} (x : Holds) (hcmd : cmd ≠ 4) (hp : b ∉ s.poisoned h)
    (hr : (readWord (s.stored h b)).1 ≠ .bad) :
    s.combine h cmd b j d x = ((s.readAt h b).putBlock h b (putWordAt (readWord (s.stored h b)).2 j
      (combined cmd (wordAt (readWord (s.stored h b)).2 j) (d % 2 ^ 128)))).bump E.accCommands h 1 := by
  rw [State.combine, State.onBlock_readable x _ hp hr, if_pos hcmd]

theorem State.combine_pair_readable {s r : State} {h b b2 j d : Nat} {z : Nat × Nat} (x : Holds) (hp : b ∉ s.poisoned h)
    (hr : (readWord (s.stored h b)).1 ≠ .bad) (hread : s.readAt h b = r) (hb2 : r.partner h b = b2) (hp2 : b2 ∉ r.poisoned h)
    (hr2 : (readWord (r.stored h b2)).1 ≠ .bad)
    (hz : added192 (wordAt (readWord (s.stored h b)).2 j) (wordAt (readWord (r.stored h b2)).2 j) d = z) :
    s.combine h 4 b j d x = (((r.readAt h b2).putBlock h b (putWordAt (readWord (s.stored h b)).2 j z.1)).putBlock h b2
      (putWordAt (readWord (r.stored h b2)).2 j z.2)).bump E.accCommands h 1 := by
  rw [State.combine, State.onBlock_readable x _ hp hr, if_neg (by decide), hread, hb2]
  dsimp only
  rw [State.onBlock_readable x _ hp2 hr2, hz]

/-! What a block written outside the chunks' slots holds. -/

theorem Tab.get_filter_key {α : Type} (p : Nat → Bool) (m : Tab α) {k : Nat} (hk : p k = true) :
    Tab.get? (m.filter (fun x => p x.1)) k = m.get? k := by
  induction m with
  | nil => rfl
  | cons x r ih =>
    cases hx : p x.1 with
    | true => rw [List.filter_cons_of_pos (by exact hx), Tab.get?, Tab.get?, ih]
    | false =>
      have hne : Nat.beq x.1 k = false := Bool.eq_false_iff.mpr fun h => by
        rw [Nat.eq_of_beq_eq_true h, hk] at hx
        cases hx
      rw [List.filter_cons_of_neg (by simp [hx]), Tab.get?, hne, ih]
      rfl

/-- The block of a stack's cells, outside the chunks' slots. -/
def State.cell (s : State) (h b : Nat) : BitVec 512 := (s.graphs.cells.getD h []).getD b 0

theorem State.cells_setCells_same (s : State) (h : Nat) (l : Tab (BitVec 512)) : (s.setCells h l).graphs.cells.getD h [] = l :=
  Tab.getD_setOrDel_same s.graphs.cells h l

theorem State.cells_setCells_other (s : State) {h g : Nat} (l : Tab (BitVec 512)) (hg : g ≠ h) :
    (s.setCells h l).graphs.cells.getD g [] = s.graphs.cells.getD g [] :=
  Tab.getD_setOrDel_other s.graphs.cells l hg

theorem State.cells_freshBlocks_same (s : State) (h b n : Nat) :
    (s.freshBlocks h b n).graphs.cells.getD h [] = (s.graphs.cells.getD h []).filter (fun x => !inBlocks b n x.1) :=
  State.cells_setCells_same ..

theorem State.cells_freshBlocks_other (s : State) {h g : Nat} (b n : Nat) (hg : g ≠ h) :
    (s.freshBlocks h b n).graphs.cells.getD g [] = s.graphs.cells.getD g [] :=
  State.cells_setCells_other _ _ hg

theorem inBlocks_one (b k : Nat) : inBlocks b 1 k = decide (k = b) := by
  rw [inBlocks, ← Bool.decide_and]
  exact decide_eq_decide.mpr (by omega)

theorem Tab.get_filter_out {α : Type} (p : Nat → Bool) (m : Tab α) {k : Nat} (hk : p k = false) :
    Tab.get? (m.filter (fun x => p x.1)) k = none := by
  induction m with
  | nil => rfl
  | cons x r ih =>
    cases hx : p x.1 with
    | true =>
      have hne : Nat.beq x.1 k = false := Bool.eq_false_iff.mpr fun h => by
        rw [Nat.eq_of_beq_eq_true h, hk] at hx
        cases hx
      rw [List.filter_cons_of_pos (by exact hx), Tab.get?, hne, ih]
      rfl
    | false => rw [List.filter_cons_of_neg (by simp [hx]), ih]

theorem State.cell_freshBlocks_same (s : State) (h b : Nat) : (s.freshBlocks h b 1).cell h b = 0 := by
  rw [State.cell, State.cells_freshBlocks_same, Tab.getD, Tab.get_filter_out (fun k => !inBlocks b 1 k) _ (by simp [inBlocks_one])]
  rfl

theorem State.cell_freshBlocks_other (s : State) {h b g k : Nat} (hne : (g, k) ≠ (h, b)) : (s.freshBlocks h b 1).cell g k = s.cell g k := by
  by_cases hg : g = h
  · subst hg
    have hk : k ≠ b := fun hk => hne (by rw [hk])
    rw [State.cell, State.cells_freshBlocks_same, Tab.getD, Tab.get_filter_key (fun k => !inBlocks b 1 k) _ (by simp [inBlocks_one, hk])]
    rfl
  · rw [State.cell, State.cells_freshBlocks_other s b 1 hg]
    rfl

/-- A block outside the chunks' slots as it is stored: zeros are stored as no cell. -/
def State.putCell (s : State) (h b : Nat) (v : BitVec 512) : State :=
  if v = 0 then s else s.setCells h ((s.graphs.cells.getD h []).set b v)

theorem State.putBlock_cell {s : State} {h b : Nat} (v : BitVec 512) (hs : s.slotAt h b = none) :
    s.putBlock h b v = (s.freshBlocks h b 1).putCell h b v := by
  have hs' : (s.freshBlocks h b 1).slotAt h b = none := hs
  simp only [State.putBlock, hs', State.putCell]

theorem State.cell_putCell_same {s : State} {h b : Nat} (v : BitVec 512) (h0 : s.cell h b = 0) : (s.putCell h b v).cell h b = v := by
  unfold State.putCell
  split
  · next hv => rw [h0, hv]
  · rw [State.cell, State.cells_setCells_same, Tab.getD_set_same]

theorem State.cell_putCell_other (s : State) {h b g k : Nat} (v : BitVec 512) (hne : (g, k) ≠ (h, b)) :
    (s.putCell h b v).cell g k = s.cell g k := by
  unfold State.putCell
  split
  · rfl
  · by_cases hg : g = h
    · subst hg
      rw [State.cell, State.cells_setCells_same, Tab.getD_set_other _ _ _ fun hk => hne (by rw [hk])]
      rfl
    · rw [State.cell, State.cells_setCells_other _ _ hg]
      rfl

theorem State.coll_putCell (s : State) (h b : Nat) (v : BitVec 512) : (s.putCell h b v).coll = s.coll := by
  unfold State.putCell
  split <;> rfl

/-- A block in a chunk's slot is read off the chunk; any other is a cell. -/
theorem State.blockData_congr {s u : State} {g k : Nat} (hcoll : u.coll = s.coll) (hcell : u.cell g k = s.cell g k) :
    u.blockData g k = s.blockData g k := by
  have hslot : u.slotAt g k = s.slotAt g k := by
    unfold State.slotAt State.allChunks
    rw [hcoll]
  have hop : u.slotOp = s.slotOp := by
    funext x
    unfold State.slotOp
    rw [hcoll]
  rw [State.blockData, State.blockData, hslot, hop]
  cases s.slotAt g k with
  | some y => rfl
  | none => exact hcell

theorem State.blockData_cell {s : State} {h b : Nat} (hs : s.slotAt h b = none) : s.blockData h b = s.cell h b := by
  rw [State.blockData, hs]
  rfl

theorem State.blockData_putBlock {s : State} {h b : Nat} (v : BitVec 512) (hs : s.slotAt h b = none) :
    (s.putBlock h b v).blockData h b = v ∧ ∀ g k, (g, k) ≠ (h, b) → (s.putBlock h b v).blockData g k = s.blockData g k := by
  have hcoll : ((s.freshBlocks h b 1).putCell h b v).coll = s.coll := State.coll_putCell ..
  rw [State.putBlock_cell v hs]
  refine ⟨?_, fun g k hne => State.blockData_congr hcoll ?_⟩
  · have hs' : ((s.freshBlocks h b 1).putCell h b v).slotAt h b = none := by
      unfold State.slotAt State.allChunks at hs ⊢
      rw [hcoll]
      exact hs
    rw [State.blockData_cell hs', State.cell_putCell_same v (s.cell_freshBlocks_same h b)]
  · rw [State.cell_putCell_other _ v hne, State.cell_freshBlocks_other s hne]

/-! ACC_ADD192 (R227). -/

/-- A signed number of 192 bits by its upper 64 and lower 128. -/
theorem signed_upper_lower (h : Nat) {l : Nat} (hl : l < 2 ^ 128) : signed 192 (h * 2 ^ 128 + l) = signed 64 h * 2 ^ 128 + l := by
  simp only [signed]
  norm_num at *
  split_ifs <;> omega

theorem lower_upper (d : Nat) : d % 2 ^ 192 = d / 2 ^ 128 % 2 ^ 64 * 2 ^ 128 + d % 2 ^ 128 := by
  norm_num
  omega

theorem wrapInt_add (a b : Int) (c : Nat) : wrapInt 128 (a + b + c) = (wrapInt 128 a + wrapInt 128 b + c) % 2 ^ 128 := by
  simp only [wrapInt]
  norm_num
  omega

theorem wrapInt_lower (a : Int) (l : Nat) : wrapInt 192 (a * 2 ^ 128 + l) % 2 ^ 128 = l % 2 ^ 128 := by
  simp only [wrapInt]
  norm_num
  omega

/-- The sum of two numbers of 192 bits, in the words of slots A and B. -/
theorem added192_eq {lo hi : Nat} (d : Nat) (hlo : lo < 2 ^ 128) (hhi : wrapInt 128 (signed 64 (hi % 2 ^ 64)) = hi) :
    added192 lo hi d = (wrapInt 192 (signed 192 (hi % 2 ^ 64 * 2 ^ 128 + lo) + signed 192 (d % 2 ^ 192)) % 2 ^ 128,
      wrapInt 128 ((signed 192 (hi % 2 ^ 64 * 2 ^ 128 + lo) + signed 192 (d % 2 ^ 192)) / 2 ^ 128)) := by
  have hdl : d % 2 ^ 128 < 2 ^ 128 := Nat.mod_lt _ (by decide)
  obtain ⟨a, ha⟩ : ∃ a, a = signed 64 (hi % 2 ^ 64) := ⟨_, rfl⟩
  rw [← ha] at hhi
  obtain ⟨b, hb⟩ : ∃ b, b = signed 64 (d / 2 ^ 128 % 2 ^ 64) := ⟨_, rfl⟩
  have hsum : signed 192 (hi % 2 ^ 64 * 2 ^ 128 + lo) + signed 192 (d % 2 ^ 192) = (a + b) * 2 ^ 128 + ((lo + d % 2 ^ 128 : Nat) : Int) := by
    rw [lower_upper d, signed_upper_lower _ hlo, signed_upper_lower _ hdl, ← ha, ← hb, Nat.cast_add]
    ring
  have hquot : ((a + b) * 2 ^ 128 + ((lo + d % 2 ^ 128 : Nat) : Int)) / 2 ^ 128 = a + b + ((lo + d % 2 ^ 128) / 2 ^ 128 : Nat) := by
    rw [Int.add_comm, Int.add_mul_ediv_right _ _ (by decide), Int.add_comm]
    norm_num
  rw [added192, hsum, hquot, wrapInt_lower, wrapInt_add, ← hb, hhi]

/-! The order of service (R238). -/

theorem serveNext_spec {weights : Nat} {turn : Nat × Nat} {wait : List Nat} {c left : Nat} (h : serveNext weights turn wait = some (c, left)) :
    0 < wait.getD c 0 ∧
      (0 < turn.2 → 0 < wait.getD turn.1 0 → c = turn.1 ∧ left = turn.2 - 1) ∧
      (turn.2 = 0 ∨ wait.getD turn.1 0 = 0 → c < 4 ∧ left = bits weights (31 - 8 * c) (24 - 8 * c) - 1 ∧
        ∀ i, i < 4 → (turn.1 + 1 + i) % 4 = c → ∀ k, k < i → wait.getD ((turn.1 + 1 + k) % 4) 0 = 0) := by
  unfold serveNext at h
  dsimp only at h
  by_cases hturn : 0 < turn.2 ∧ 0 < wait.getD turn.1 0
  · rw [if_pos ⟨hturn.1, decide_eq_true hturn.2⟩] at h
    cases h
    exact ⟨hturn.2, fun _ _ => ⟨rfl, rfl⟩, fun hno => by omega⟩
  · rw [if_neg fun hn => hturn ⟨hn.1, of_decide_eq_true hn.2⟩, List.find?_map, Option.map_map, Option.map_eq_some_iff] at h
    obtain ⟨i, hfind, hi⟩ := h
    obtain ⟨hwork, hmem, hfirst⟩ := List.find?_range_eq_some.mp hfind
    cases hi
    refine ⟨of_decide_eq_true hwork, fun h0 h1 => absurd ⟨h0, h1⟩ hturn, fun _ => ⟨Nat.mod_lt _ (by decide), rfl, fun j hj hij k hk => ?_⟩⟩
    have hki : k < i := by
      have := List.mem_range.mp hmem
      dsimp only at hij
      omega
    have hnone := hfirst k hki
    simp only [Function.comp_apply, Bool.not_eq_true', decide_eq_false_iff_not] at hnone
    omega

theorem State.scrubNext_spec (s : State) (h : Nat) :
    (s.scrubNext h).graphs.scrubAt.getD h 0 = (s.graphs.scrubAt.getD h 0 + 1) % stackBlocks ∧
      (s.scrubNext h).rd E.scrubPasses h
        = if (s.graphs.scrubAt.getD h 0 + 1) % stackBlocks = 0 then (s.rd E.scrubPasses h + 1) % 2 ^ 64 else s.rd E.scrubPasses h := by
  unfold State.scrubNext
  dsimp only
  by_cases hn : (s.graphs.scrubAt.getD h 0 + 1) % stackBlocks = 0
  · rw [if_neg (not_not.mpr hn), if_pos hn]
    exact ⟨Tab.getD_set_same .., State.rd_bump_same ..⟩
  · rw [if_pos hn, if_neg hn]
    exact ⟨Tab.getD_set_same .., rfl⟩

theorem State.correctedRead_graphs (s : State) (h : Nat) : (s.correctedRead h).graphs = s.graphs := by
  have hn : Noted s (s.correctedRead h) :=
    (State.bump_noted ..).trans ((State.countEvent_noted ..).trans (State.raiseLim_noted ..))
  exact hn.graphs

/-! The temperature of a stack (R235). -/

/-- What a reading above 85 °C of a stack in normal refresh, and one of 82 °C or less of a stack in double refresh, change. -/
theorem exec_stackTempSample {t : Time} {h : Nat} {temp : Int} {s w : State} (hh : h < 20) (hup : s.stackUp h = true)
    (hw : w = (s.begin t).wr E.stackTemp h (wrapInt 16 temp)) :
    exec (.stackTempSample t h temp) s = .next (
      let note := [Item.v 16 h, .v 32 (wrapInt 32 temp)]
      let s := if 85 * 16 < temp ∧ w.rd E.refreshMode h = 0 then (w.wr E.refreshMode h 1).raise 0x8C04 0 (8 + h / 2) note
        else if temp ≤ 82 * 16 ∧ w.rd E.refreshMode h = 1 then (w.wr E.refreshMode h 0).raise 0x8C05 0 (8 + h / 2) note else w
      let s := if 95 * 16 < temp then s.raiseLim sec h 0x8C06 1 (8 + h / 2) note else s
      if 105 * 16 < temp then s.excludeStack h 5 else s) := by
  have hno : ¬20 ≤ h := by omega
  have hup' : (s.begin t).stackUp h = true := hup
  simp only [exec, execStackTempSample, if_neg hno, hup', Bool.not_true, Bool.false_eq_true, if_false, ← hw]

theorem stackTemp_excluded {t : Time} {h : Nat} {temp : Int} {s : State} (hh : h < 20) (hup : s.stackUp h = false) :
    exec (.stackTempSample t h temp) s = .next ((s.begin t).wr E.stackTemp h (wrapInt 16 temp)) := by
  have hno : ¬20 ≤ h := by omega
  have hup' : (s.begin t).stackUp h = false := hup
  simp only [exec, execStackTempSample, if_neg hno, hup', Bool.not_false, if_true]

/-! Partitions (R220-R222). -/

/-- Something is held that new partition sizes would lose. -/
def PartBusy (s : State) : Prop :=
  s.coll.ctxs.isEmpty = false ∨ s.graphs.tensors.any (fun (x : Nat × Tensor) => x.2.admitted) = true ∨
    s.spawns.any (fun (x : Nat × Session) => !x.2.data.isEmpty) = true

theorem partBusy_iff (s : State) : PartBusy s ↔ ¬(s.coll.ctxs.isEmpty && !s.graphs.tensors.any (fun (x : Nat × Tensor) => x.2.admitted) &&
    !s.spawns.any (fun (x : Nat × Session) => !x.2.data.isEmpty)) = true := by
  simp only [PartBusy, Bool.and_eq_true, Bool.not_eq_true', not_and_or, Bool.not_eq_true, Bool.not_eq_false, or_assoc]

/-- The act of PART_REQUEST. -/
def partAct (spill spawn sample v : Nat) (s : State) : State :=
  let s := (s.wr E.partRequest 0 (v / 65536 * 65536)).wr E.partStatus 0 0
  let s := ((s.wr E.spillGib 0 spill).wr E.spawnGib 0 spawn).wr E.sampleGib 0 sample
  let s := s.wr E.stateGib 0 (1920 - spill - spawn - sample)
  let s := { s with probes := { s.probes with snaps := [], samples := [] } }
  (s.raise 0x8C08 0 31 [.v 32 spill, .v 32 spawn, .v 32 sample, .v 32 (1920 - spill - spawn - sample)]).evalStarts 64

/-- The sizes that R222 allows. -/
def PartFits (spill spawn sample : Nat) : Prop :=
  20 ≤ spill ∧ spill ≤ 768 ∧ spawn ≤ 256 ∧ 2 ≤ sample ∧ sample ≤ 64 ∧ 832 + spill + spawn + sample ≤ 1920

/-- The rule of PART_REQUEST. -/
def partRule (spill spawn sample : Nat) (s : State) : Verdict :=
  let inRange := decide (20 ≤ spill) && decide (spill ≤ 768) && decide (spawn ≤ 256) && decide (2 ≤ sample) && decide (sample ≤ 64)
    && decide (832 + spill + spawn + sample ≤ 1920)
  if !s.coll.ctxs.isEmpty ∨ s.graphs.tensors.any (fun (x : Nat × Tensor) => x.2.admitted)
    ∨ s.spawns.any (fun (x : Nat × Session) => !x.2.data.isEmpty) then .refused E.partStatus 0x01
  else if !inRange then .refused E.partStatus 0x02 else .ok

theorem partRule_ok {s : State} {spill spawn sample : Nat} (hfree : ¬PartBusy s) (hfits : PartFits spill spawn sample) :
    partRule spill spawn sample s = .ok := by
  obtain ⟨h1, h2, h3, h4, h5, h6⟩ := hfits
  refine (if_neg ?_).trans (if_neg ?_)
  · rwa [Bool.not_eq_true']
  · simp [h1, h2, h3, h4, h5, h6]

theorem partRule_busy {s : State} {spill spawn sample : Nat} (hbusy : PartBusy s) :
    partRule spill spawn sample s = .refused E.partStatus 1 := by
  refine if_pos ?_
  rwa [Bool.not_eq_true']

theorem partRule_range {s : State} {spill spawn sample : Nat} (hfree : ¬PartBusy s) (hfits : ¬PartFits spill spawn sample) :
    partRule spill spawn sample s = .refused E.partStatus 2 := by
  refine (if_neg ?_).trans (if_pos ?_)
  · rwa [Bool.not_eq_true']
  · simp only [PartFits] at hfits
    simp only [Bool.not_eq_true', Bool.and_eq_false_iff, decide_eq_false_iff_not]
    omega

/-- Settles O37: a command on a block that can be read, on cells, and on an interface that fails or makes it wait; the patrol scrub,
the temperatures and the partition sizes. -/
theorem stackMemory : Obligations.StackMemory := by
  refine ⟨?read, fun h b d s hs => State.blockData_putBlock d hs, ?sum, ?failed, ?waits,
    fun weights turn wait c left h => serveNext_spec h, ?scrub, fun h s => s.scrubNext_spec h, fun t h temp s => stackTemp_excluded, ?temp, ?part⟩
  case read =>
    intro t h cmd b word n retries data e wait x s v hh hup hb hv hp hr d r j
    have hp' : b ∉ v.poisoned h := by rwa [hv.poisoned h]
    have hread : r = v.readAt h b := rfl
    refine ⟨fun hcmd => ?_, fun hcmd => ?_, fun hcmd hp2 hr2 => ?_⟩
    · subst hcmd
      rw [exec_stackCommandDone hh hup (by decide) hb hv, hread]
      refine congrArg _ ?_
      rw [State.stackCommand]
      exact State.onBlock_readable x _ hp' hr
    · rw [exec_stackCommandDone hh hup (by omega) hb hv, State.stackCommand_combine v data x (by omega),
        State.combine_readable x (by omega) hp' hr, hread]
    · intro d2 q z
      subst hcmd
      rw [exec_stackCommandDone hh hup (by decide) hb hv, State.stackCommand_combine v data x (by decide)]
      exact congrArg _ (State.combine_pair_readable x hp' hr hread.symm rfl hp2 hr2 rfl)
  case sum =>
    intro lo hi d hlo _ q hhi
    exact added192_eq d hlo hhi
  case failed =>
    intro t h cmd b word n retries data e wait x s v hh hup hcmd hb hv w
    exact (exec_stackCommandDone_served hh hup hcmd hb hv).trans (congrArg _ (if_pos rfl))
  case waits =>
    intro t h cmd b word n retries failed data e wait x s hh hup hcmd hb hnone
    have hpass := takesCommand (s := s.begin t) hh hup hcmd hb
    have hnone' : (s.begin t).serve h (holdsClass ((s.begin t).holdsAt h b x)) wait = none := hnone
    simp only [exec, execStackCommandDone, if_neg hpass, hnone']
  case scrub =>
    intro t h e wait x s hh hup b w d
    refine ⟨fun hidle hp => ?_, fun hwait hlate => ?_⟩
    · have hp' : b ∉ w.poisoned h := by
        have hpoison : w.poisoned h = s.poisoned h := State.poisoned_congr (s.begin t |>.poison_scrubNext h) h
        rwa [hpoison]
      have hexec : exec (.scrubStep t h ⟨e, wait⟩ x) s = .next (w.onBlock h b x (scrubWrite h b)) := exec_scrubStep hh hup hidle
      refine ⟨fun hclean => ?_, fun hcorr hups => ?_⟩
      · have hr : (readWord (w.stored h b)).1 ≠ .bad := by
          rw [hclean]
          decide
        have hread : w.readAt h b = w := if_neg (by rw [hclean]; decide)
        rw [hexec, State.onBlock_readable x _ hp' hr, hread]
        rfl
      · have hr : (readWord (w.stored h b)).1 ≠ .bad := by
          rw [hcorr]
          decide
        have hread : w.readAt h b = w.correctedRead h := if_pos hcorr
        rw [hexec, State.onBlock_readable x _ hp' hr, hread, scrubWrite, State.correctedRead_graphs, if_pos hups]
    · have hidle : 20 ≤ h ∨ (!(s.begin t).stackUp h) = true ∨
          (wait.any (fun n => decide (0 < n)) = true ∧ (!(s.begin t).scrubLate h) = true) := Or.inr (Or.inr ⟨hwait, by rw [hlate]; rfl⟩)
      simp only [exec, execScrubStep, if_pos hidle]
  case temp =>
    intro t h temp s hh hup w note v
    have hexec := exec_stackTempSample (temp := temp) hh hup (show w = _ from rfl)
    refine ⟨fun hcool hkeep => ?_, fun hcool hdouble => ?_, fun hwarm hmild hnormal => ?_, fun hwarm hdouble hmild => ?_,
      fun hhot hdouble => ?_, fun hwarm hnormal => ?_⟩
    · rw [hexec]
      have h1 : ¬(85 * 16 < temp ∧ w.rd E.refreshMode h = 0) := fun h' => by omega
      have h2 : ¬(temp ≤ 82 * 16 ∧ w.rd E.refreshMode h = 1) := fun h' => by omega
      have h3 : ¬95 * 16 < temp := by omega
      have h4 : ¬105 * 16 < temp := by omega
      simp only [if_neg h1, if_neg h2, if_neg h3, if_neg h4]
    · rw [hexec]
      have h1 : ¬(85 * 16 < temp ∧ w.rd E.refreshMode h = 0) := fun h' => by omega
      have h3 : ¬95 * 16 < temp := by omega
      have h4 : ¬105 * 16 < temp := by omega
      simp only [if_neg h1, if_pos (And.intro hcool hdouble), if_neg h3, if_neg h4, note]
    · rw [hexec]
      have h3 : ¬95 * 16 < temp := by omega
      have h4 : ¬105 * 16 < temp := by omega
      simp only [if_pos (And.intro hwarm hnormal), if_neg h3, if_neg h4, note]
    · rw [hexec]
      have h1 : ¬(85 * 16 < temp ∧ w.rd E.refreshMode h = 0) := fun h' => by omega
      have h2 : ¬(temp ≤ 82 * 16 ∧ w.rd E.refreshMode h = 1) := fun h' => by omega
      have h4 : ¬105 * 16 < temp := by omega
      simp only [if_neg h1, if_neg h2, if_neg h4, v, note]
    · rw [hexec]
      have h1 : ¬(85 * 16 < temp ∧ w.rd E.refreshMode h = 0) := fun h' => by omega
      have h2 : ¬(temp ≤ 82 * 16 ∧ w.rd E.refreshMode h = 1) := fun h' => by omega
      simp only [if_neg h1, if_neg h2, if_pos hhot, v, note]
    · intro x
      have h1 : 85 * 16 < temp ∧ w.rd E.refreshMode h = 0 := ⟨by omega, hnormal⟩
      rw [hexec]
      simp only [if_pos h1, if_pos hwarm, x, note]
  case part =>
    intro a v s spill spawn sample fits busy w ht
    have hbusy : busy ↔ PartBusy s := by
      rw [PartBusy, List.isEmpty_eq_false_iff]
    refine ⟨fun hfree hfits => ?_, fun hno => ?_⟩
    · exact next_congr (State.writeOne_ok ht (partRule_ok (fun h => hfree (hbusy.mpr h)) hfits))
    · have hcode : partRule spill spawn sample (s.begin a.t) = .refused E.partStatus (if s.coll.ctxs.isEmpty &&
          !s.graphs.tensors.any (fun (x : Nat × Tensor) => x.2.admitted) && !s.spawns.any (fun (x : Nat × Session) => !x.2.data.isEmpty)
          then 2 else 1) := by
        by_cases hb : PartBusy s
        · rw [if_neg ((partBusy_iff s).mp hb)]
          exact partRule_busy (s := s.begin a.t) hb
        · rw [if_pos (not_not.mp fun h => hb ((partBusy_iff s).mpr h))]
          exact partRule_range (s := s.begin a.t) hb fun h => hno.elim (fun h' => hb (hbusy.mp h')) (fun h' => h' h)
      have hexec := State.writeOne_refused (act := partAct spill spawn sample v.toNat) ht hcode
      rw [Verdict.record_refused (by decide)] at hexec
      exact next_congr hexec

end Sys2Proof.Machine
end

section
/-!
The frames of the switch (R250-R290): received, retried, picked, released; link frames and the load view.
-/
namespace Sys2Proof.Machine

/-! The credits that a CREDIT frame sets (R269). -/

theorem Port.credit_setCredit_same (p : Port) {k : Nat} (f : Credit → Credit) (hk : k < 9) :
    (p.setCredit k f).credit k = f (p.credit k) := by
  have hlen : k < (p.credits ++ List.replicate (9 - p.credits.length) (Credit.mk 0 0 0 0)).length := by
    rw [List.length_append, List.length_replicate]
    omega
  unfold Port.setCredit
  simp only [Port.credit, List.getD_eq_getElem?_getD, List.getElem?_set_self hlen, Option.getD_some]

theorem Port.credit_setCredit_other (p : Port) {k j : Nat} (f : Credit → Credit) (hj : j ≠ k) :
    (p.setCredit k f).credit j = p.credit j := by
  have hpad : ∀ (l : List Credit) n, (l ++ List.replicate n (Credit.mk 0 0 0 0))[j]?.getD (Credit.mk 0 0 0 0) = l[j]?.getD (Credit.mk 0 0 0 0) := by
    intro l n
    rw [List.getElem?_append]
    split
    · rfl
    · next h =>
      rw [List.getElem?_replicate, List.getElem?_eq_none (Nat.not_lt.mp h)]
      split <;> rfl
  unfold Port.setCredit
  simp only [Port.credit, List.getD_eq_getElem?_getD, List.getElem?_set_ne hj.symm, hpad]

/-- The credit of a class that a CREDIT frame sets, on a link whose lossless classes are `agreed`. -/
def Port.takeLimit (v agreed : Nat) (p : Port) (k : Nat) : Port :=
  if k = 8 then p.setCredit 8 (fun c => { c with limit := bits v 175 160 })
  else if bit agreed k then p.setCredit k (fun c => { c with limit := bits v (159 - 16 * (7 - k)) (144 - 16 * (7 - k)) })
  else p

/-- The limit of a class after a CREDIT frame. -/
def Port.newLimit (v agreed : Nat) (p : Port) (k : Nat) : Nat :=
  if k = 8 then bits v 175 160 else if bit agreed k then bits v (159 - 16 * (7 - k)) (144 - 16 * (7 - k)) else (p.credit k).limit

theorem Port.limit_takeLimit_same (v agreed : Nat) (p : Port) {k : Nat} (hk : k < 9) :
    ((p.takeLimit v agreed k).credit k).limit = p.newLimit v agreed k := by
  unfold Port.takeLimit Port.newLimit
  split
  · next h8 => rw [h8, Port.credit_setCredit_same p _ (by decide)]
  · split
    · rw [Port.credit_setCredit_same p _ hk]
    · rfl

theorem Port.credit_takeLimit_other (v agreed : Nat) (p : Port) {k j : Nat} (hj : j ≠ k) :
    (p.takeLimit v agreed k).credit j = p.credit j := by
  unfold Port.takeLimit
  split
  · next h8 => rw [Port.credit_setCredit_other p _ (by omega)]
  · split
    · rw [Port.credit_setCredit_other p _ hj]
    · rfl

theorem Port.limit_takeLimits (v agreed : Nat) (p : Port) (n : Nat) (hn : n ≤ 9) (j : Nat) :
    (((List.range n).foldl (Port.takeLimit v agreed) p).credit j).limit = if j < n then p.newLimit v agreed j else (p.credit j).limit := by
  induction n with
  | zero => rfl
  | succ n ih =>
    rw [List.range_succ, List.foldl_concat]
    by_cases hj : j = n
    · subst hj
      have hbefore := ih (by omega)
      rw [if_neg (Nat.lt_irrefl j)] at hbefore
      rw [Port.limit_takeLimit_same _ _ _ (by omega), if_pos (Nat.lt_succ_self j), Port.newLimit, Port.newLimit, hbefore]
    · rw [Port.credit_takeLimit_other _ _ _ hj, ih (by omega)]
      exact if_congr (by omega) rfl rfl

/-! The load view (R255). -/

theorem loadView_other (l : List (Nat × Queue)) (m : Tab Nat) {p : Nat} (hp : ∀ x ∈ l, x.1 ≠ p) :
    (l.foldl (fun (m : Tab Nat) x => m.set x.1 (ceilDiv (depthOf x.2.descs) 4096)) m).get? p = m.get? p := by
  induction l generalizing m with
  | nil => rfl
  | cons x r ih =>
    rw [List.foldl_cons, ih _ fun y hy => hp y (List.mem_cons_of_mem x hy)]
    exact Tab.get_set_other m _ (hp x List.mem_cons_self).symm

theorem loadView_same (l : List (Nat × Queue)) (m : Tab Nat) {q : Nat} {d : Queue} (hmem : (q, d) ∈ l) (hone : ∀ x ∈ l, x.1 = q → x.2 = d) :
    (l.foldl (fun (m : Tab Nat) x => m.set x.1 (ceilDiv (depthOf x.2.descs) 4096)) m).get? q = some (ceilDiv (depthOf d.descs) 4096) := by
  induction l generalizing m with
  | nil => cases hmem
  | cons x r ih =>
    rw [List.foldl_cons]
    have hone' : ∀ y ∈ r, y.1 = q → y.2 = d := fun y hy => hone y (List.mem_cons_of_mem x hy)
    by_cases hr : (q, d) ∈ r
    · exact ih _ hr hone'
    · have hx : x = (q, d) := by
        rcases List.mem_cons.mp hmem with h | h
        · exact h.symm
        · exact absurd h hr
      rw [loadView_other r _ fun y hy hq => hr (by rw [← hone' y hy hq, ← hq]; exact hy), hx]
      exact Tab.get_set_same ..

theorem exec_loadSummary {t : Time} {die q : Nat} {d : Queue} {s : State} (hmem : (q, d) ∈ s.net.queues)
    (hone : ∀ x ∈ s.net.queues, x.1 = q → x.2 = d) (hdie : q / 1152 = die) (hd : d.descs ≠ []) :
    ∃ u, exec (.loadSummary t die) s = .next u ∧ u.net.loadView.get? q = some (ceilDiv (depthOf d.descs) 4096) ∧
      (∀ p, p / 1152 ≠ die → u.net.loadView.get? p = s.net.loadView.get? p) ∧ u.regs = s.regs ∧ u.out = [] := by
  refine ⟨_, rfl, ?_, fun p hp => ?_, rfl, rfl⟩
  · refine loadView_same _ _ (List.mem_filter.mpr ⟨hmem, ?_⟩) fun x hx => hone x (List.mem_filter.mp hx).1
    simp [hdie, hd]
  · refine (loadView_other _ _ fun x hx hxp => ?_).trans (Tab.get_filter_key (fun k => k / 1152 != die) _ (bne_iff_ne.mpr hp))
    have := (List.mem_filter.mp hx).2
    simp only [Bool.and_eq_true, beq_iff_eq, hxp] at this
    exact hp this.1

/-! Frames received. -/

section
variable {t : Time} {port staged buffered : Nat} {first : Byte} {b : List Byte} {ups : List (Nat × Nat)} {s : State}

theorem exec_mftFrameReceive (hup : s.isUp port = true) (hfull : s.attachFull (dieOf port) (buffered + b.length) = false) :
    exec (.mftFrameReceive t port first b staged buffered ups) s = .next (
      let s := (s.begin t).arrives port b.length
      if first ≠ 0xD7 then s.drop .frameCheck port
      else if !(s.port port).mftNow then s.drop .mftDisabled port
      else if b.length < 64 ∨ 4608 < b.length then s.drop .runtGiant port
      else if crc64 (b.take (b.length - 8)) ≠ field b (b.length - 8) 8 then s.failsCheck (s.roomy.acceptMft port b staged) port
      else ((((s.countFixed (8 * dieOf port) 1).countEvent (8 * dieOf port) 0x01 port (bits (field b 0 16) 39 24) 1).countEvent
        (8 * dieOf port) 0x02 port (bits (field b 0 16) 39 24) b.length).findUpsets (dieOf port) ups).acceptMft port b staged) := by
  have hup' : (s.begin t).isUp port = true := hup
  have hfull' : (s.begin t).attachFull (dieOf port) (buffered + b.length) = false := hfull
  simp only [exec, execMftFrameReceive, hup', hfull', Bool.not_true, Bool.false_eq_true, if_false]

theorem exec_ethFrameReceive (hup : s.isUp port = true) (hfull : s.attachFull (dieOf port) (buffered + b.length) = false) :
    exec (.ethFrameReceive t port b staged buffered ups) s = .next (
      let s := (s.begin t).arrives port b.length
      if b.length < 64 ∨ 9216 < b.length then s.drop .runtGiant port
      else if fcsBytes (b.take (b.length - 4)) ≠ b.drop (b.length - 4) then s.failsCheck (s.roomy.acceptEth port b staged) port
      else ((((s.countFixed (8 * dieOf port) 1).countEvent (8 * dieOf port) 0x01 port 0 1).countEvent
        (8 * dieOf port) 0x02 port 0 b.length).findUpsets (dieOf port) ups).acceptEth port b staged) := by
  have hup' : (s.begin t).isUp port = true := hup
  have hfull' : (s.begin t).attachFull (dieOf port) (buffered + b.length) = false := hfull
  simp only [exec, execEthFrameReceive, hup', hfull', Bool.not_true, Bool.false_eq_true, if_false]

end

/-! Link frames. -/

section
variable {t : Time} {port : Nat} {body : BitVec 192} {s w : State}

theorem State.attach_net (s : State) (n dir bytes : Nat) : (s.attach n dir bytes).net = s.net := by
  unfold State.attach
  dsimp only
  split <;> rfl

theorem State.attach_regs (s : State) (n dir bytes : Nat) : (s.attach n dir bytes).regs = s.regs := by
  unfold State.attach
  dsimp only
  split <;> rfl

theorem State.isUp_attach (s : State) (n dir bytes p : Nat) : (s.attach n dir bytes).isUp p = s.isUp p := by
  unfold State.attach
  dsimp only
  split <;> rfl

theorem State.port_attach (s : State) (n dir bytes p : Nat) : (s.attach n dir bytes).port p = s.port p := by
  rw [State.port, State.attach_net, State.port]

theorem State.agreed_attach (s : State) (n dir bytes p : Nat) : (s.attach n dir bytes).agreed p = s.agreed p := by
  rw [State.agreed, State.port_attach, State.rd_congr (State.attach_regs ..), State.agreed]

/-- A link frame that arrives at a port that does not take MFT frames. -/
theorem exec_link_off (hw : w = (s.begin t).attach (dieOf port) 0 64) (hmft : (s.port port).mftNow = false) :
    exec (.creditReceive t port body) s = .next (w.dropLink port .mftDisabled) ∧
      exec (.helloReceive t port body) s = .next (w.dropLink port .mftDisabled) := by
  have hport : (w.port port).mftNow = false := by
    rw [hw, State.port_attach]
    exact hmft
  constructor
  · simp only [exec, execCreditReceive, ← hw, hport, Bool.not_false, if_true]
  · simp only [exec, execHelloReceive, ← hw, hport, Bool.not_false, if_true]

/-- A CREDIT frame sets the limits. -/
theorem exec_creditReceive (hw : w = (s.begin t).attach (dieOf port) 0 64) (hmft : (s.port port).mftNow = true) :
    exec (.creditReceive t port body) s = .next (if linkFormOk body 1 = false then w.dropLink port .malformed
      else w.setPort port { (List.range 9).foldl (Port.takeLimit body.toNat (w.agreed port)) (s.port port) with creditSeen := true }) := by
  have hport : w.port port = s.port port := by
    rw [hw, State.port_attach]
    rfl
  cases hf : linkFormOk body 1 with
  | true => simp only [exec, execCreditReceive, ← hw, hport, hmft, hf, Bool.not_true, Bool.false_eq_true, if_false, Bool.true_eq_false]; rfl
  | false => simp only [exec, execCreditReceive, ← hw, hport, hmft, hf, Bool.not_true, Bool.not_false, Bool.false_eq_true, if_false, if_true]

theorem exec_helloReceive (hw : w = (s.begin t).attach (dieOf port) 0 64) (hmft : (s.port port).mftNow = true) :
    exec (.helloReceive t port body) s = .next (if linkFormOk body 2 = false then w.dropLink port .malformed
      else (w.wr E.portPeer port (pack [(24, bits body.toNat 183 160), (11, bits body.toNat 159 149), (2, bits body.toNat 148 147),
        (8, bits body.toNat 143 136), (2, 0), (1, 1)])).setPort port { s.port port with helloSeen := true }) := by
  have hport : w.port port = s.port port := by
    rw [hw, State.port_attach]
    rfl
  cases hf : linkFormOk body 2 with
  | true => simp only [exec, execHelloReceive, ← hw, hport, hmft, hf, Bool.not_true, Bool.false_eq_true, if_false, Bool.true_eq_false]
  | false => simp only [exec, execHelloReceive, ← hw, hport, hmft, hf, Bool.not_true, Bool.not_false, Bool.false_eq_true, if_false, if_true]

theorem State.queueLink_none {mark : Port → Port} (h : s.takeCells (dieOf port) 3 1 = none) :
    s.queueLink port body mark = s.poolEmpty (dieOf port) 3 := by
  rw [State.queueLink, h]

theorem State.queueLink_some {mark : Port → Port} {c : Nat} {u : State} (h : s.takeCells (dieOf port) 3 1 = some ([c], u)) :
    s.queueLink port body mark = u.setPort port (mark { u.port port with linkQueue := (u.port port).linkQueue ++ [(c, body)] }) := by
  rw [State.queueLink, h]
  rfl

theorem exec_link_send (hmft : (s.port port).mftNow = true) :
    exec (.creditSend t port) s = .next ((s.begin t).queueLink port ((s.begin t).creditBody port) (fun p => { p with creditSent := true })) ∧
      exec (.helloSend t port) s = .next ((s.begin t).queueLink port ((s.begin t).helloBody port) (fun p => { p with helloSent := true })) :=
  ⟨next_congr (if_pos hmft), next_congr (if_pos hmft)⟩

end

/-! Frames that leave. -/

section
variable {t : Time} {frame owner : Nat} {frees listed : List (Nat × Nat)} {f : Stored} {s : State}

/-- What an owner that is done with a frame frees besides. -/
def State.freed (u : State) (frees listed : List (Nat × Nat)) : State :=
  (frees.foldl (fun (u : State) x => u.freeRequest x.1 x.2) u).listUsed listed

/-- An owner is done with a frame: where it is a port that was sending it, it sends it no longer. -/
def State.doneSending (s : State) (frame owner : Nat) : State :=
  if owner < 1024 ∧ ((s.port owner).sending.map (·.frame)) = some frame then s.setPort owner { s.port owner with sending := none } else s

theorem State.frames_doneSending (s : State) (frame owner : Nat) : (s.doneSending frame owner).net.frames = s.net.frames := by
  unfold State.doneSending
  split <;> rfl

/-- A frame released by another owner than a port, or one that came in at a port, tells the collective of nothing. -/
theorem exec_frameTransmitted_quiet (hfind : findFrame s.net.frames frame = some f) (hq : 1024 ≤ owner ∨ f.inPort ≠ noPort) :
    exec (.frameTransmitted t frame ⟨owner, frees, listed⟩) s
      = .next ((((s.begin t).doneSending frame owner).release frame owner).freed frees listed) := by
  have hfind' : findFrame ((s.begin t).doneSending frame owner).net.frames frame = some f := by
    rw [State.frames_doneSending]
    exact hfind
  have hno : ∀ n : Nat, ¬(owner < 1024 ∧ n = 2 ∧ f.inPort = noPort) := fun n h => hq.elim (fun h' => by omega) (fun h' => h' h.2.2)
  simp only [State.doneSending] at hfind' ⊢
  simp only [exec, execFrameTransmitted, hfind']
  cases f.packet with
  | mft m => simp only [if_neg (hno _), State.freed]
  | eth _ _ => rfl

/-- A collective frame of this device that has left a port is told to its instance. -/
theorem exec_frameTransmitted_coll {m : Mft} (hfind : findFrame s.net.frames frame = some f) (ho : owner < 1024) (hm : f.packet = .mft m)
    (htype : m.hdr.ptype = 2) (hin : f.inPort = noPort) :
    exec (.frameTransmitted t frame ⟨owner, frees, listed⟩) s
      = .next (((((s.begin t).doneSending frame owner).collFrameLeft m.body).release frame owner).freed frees listed) := by
  have hfind' : findFrame ((s.begin t).doneSending frame owner).net.frames frame = some f := by
    rw [State.frames_doneSending]
    exact hfind
  simp only [State.doneSending] at hfind' ⊢
  simp only [exec, execFrameTransmitted, hfind', hm, if_pos (And.intro ho (And.intro htype hin)), State.freed]

end

/-- Settles O38: frames received, retried, picked and released, the link frames and the load view are the model's; a CREDIT frame's
limits are set class by class. -/
theorem framesThroughTheSwitch : Obligations.FramesThroughTheSwitch := by
  refine ⟨?mft, ?eth, ?retry, ?pick, ?left, ?link, fun t die q d s => exec_loadSummary⟩
  case mft =>
    intro t port staged buffered first b ups s d w job
    refine ⟨fun hup => ?_, fun hup hfull => ?_, fun hup hfull => ?_⟩
    · have hup' : (s.begin t).isUp port = false := hup
      simp only [exec, execMftFrameReceive, hup', Bool.not_false, if_true]
    · have hup' : (s.begin t).isUp port = true := hup
      have hfull' : (s.begin t).attachFull (dieOf port) (buffered + b.length) = true := hfull
      simp only [exec, execMftFrameReceive, hup', hfull', Bool.not_true, Bool.false_eq_true, if_false, if_true, d]
    · have hexec := exec_mftFrameReceive (t := t) (staged := staged) (first := first) (ups := ups) hup hfull
      have hon : (w.port port).mftNow = true → ¬(!(w.port port).mftNow) = true := fun h => by rw [h]; decide
      refine ⟨fun hfirst => ?_, fun hfirst hmft => ?_, fun hfirst hmft hlen => ?_, fun hfirst hmft hlo hhi => ⟨fun hcrc => ?_, fun hcrc => ?_⟩⟩
      · exact hexec.trans (congrArg _ (if_pos hfirst))
      · exact hexec.trans (congrArg _ ((if_neg (not_not.mpr hfirst)).trans (if_pos (by rw [Bool.not_eq_true']; exact hmft))))
      · exact hexec.trans (congrArg _ ((if_neg (not_not.mpr hfirst)).trans ((if_neg (hon hmft)).trans (if_pos hlen))))
      · exact hexec.trans (congrArg _ ((if_neg (not_not.mpr hfirst)).trans ((if_neg (hon hmft)).trans
          ((if_neg (by omega)).trans (if_pos hcrc)))))
      · exact hexec.trans (congrArg _ ((if_neg (not_not.mpr hfirst)).trans ((if_neg (hon hmft)).trans
          ((if_neg (by omega)).trans (if_neg (not_not.mpr hcrc))))))
  case eth =>
    intro t port staged buffered b ups s d w hup hfull
    have hexec := exec_ethFrameReceive (t := t) (staged := staged) (ups := ups) hup hfull
    refine ⟨fun hlen => hexec.trans (congrArg _ (if_pos hlen)), fun hlo hhi hcrc => ?_, fun hlo hhi hcrc => ?_⟩
    · exact hexec.trans (congrArg _ ((if_neg (by omega)).trans (if_pos hcrc)))
    · exact hexec.trans (congrArg _ ((if_neg (by omega)).trans (if_neg (not_not.mpr hcrc))))
  case retry =>
    intro t cls f r s hwait w u
    have hwait' : (s.begin t).net.waiting = (cls, f) :: r := hwait
    simp only [exec, execOriginCellRetry, hwait']
    rfl
  case pick =>
    intro t port s hheld
    have hheld' : (s.begin t).held port = false := hheld
    refine ⟨fun c b r hq => ?_, fun hq hup hidle => ?_⟩
    · have hq' : ((s.begin t).port port).linkQueue = (c, b) :: r := hq
      simp only [exec, execSchedulerPick, hheld', hq', Bool.false_eq_true, if_false]
      rfl
    · intro w k u hpick
      have hq' : ((s.begin t).port port).linkQueue = [] := hq
      have hup' : (s.begin t).isUp port = true := hup
      have hidle' : ((s.begin t).port port).sending = none := hidle
      simp only [exec, execSchedulerPick, hheld', hq', hup', hidle', Bool.false_eq_true, if_false, Bool.not_true, Option.isSome_none, Bool.or_self]
      have hpick' : (((((List.range 9).foldl (fun (s : State) k => s.prepareQueue port k) (s.begin t)).circuitsOf port).foldl
        (fun (s : State) c => s.prepareCirc port c) ((List.range 9).foldl (fun (s : State) k => s.prepareQueue port k) (s.begin t))).pickTier
        port) = (some k, u) := hpick
      simp only [hpick']
  case left =>
    intro t frame owner frees listed f s hfind w freed
    refine ⟨fun hlocal => ?_, fun howner hsend => ⟨fun hin => ?_, fun m hm htype hin => ?_⟩⟩
    · rw [exec_frameTransmitted_quiet hfind (Or.inl hlocal), State.doneSending, if_neg (by omega)]
      rfl
    · rw [exec_frameTransmitted_quiet hfind (Or.inr hin), State.doneSending, if_pos ⟨howner, hsend⟩]
      rfl
    · rw [exec_frameTransmitted_coll hfind howner hm htype hin, State.doneSending, if_pos ⟨howner, hsend⟩]
      rfl
  case link =>
    intro t port body s w
    have hdrop : ∀ x, w.dropLink port x = if s.isUp port then w.drop x port else w := fun x => by
      rw [State.dropLink, State.isUp_attach]
      rfl
    refine ⟨fun hmft => ?_, fun hmft => ⟨fun hf => ?_, fun hf => ?_, fun hf => ?_, fun hf => ?_, fun hnone => ?_, fun c u htake => ?_⟩⟩
    · rw [← hdrop]
      exact exec_link_off rfl hmft
    · rw [exec_creditReceive rfl hmft, if_pos hf]
      exact congrArg _ (hdrop _)
    · rw [exec_helloReceive rfl hmft, if_pos hf]
      exact congrArg _ (hdrop _)
    · have hset : ∀ k, k < 9 → (((List.range 9).foldl (Port.takeLimit body.toNat (w.agreed port)) (s.port port)).credit k).limit
          = (s.port port).newLimit body.toNat (s.agreed port) k := fun k hk => by
        rw [Port.limit_takeLimits _ _ _ 9 (Nat.le_refl 9) k, if_pos hk, show w.agreed port = s.agreed port from State.agreed_attach ..]
      refine ⟨_, (exec_creditReceive rfl hmft).trans (congrArg _ (if_neg (by rw [hf]; decide))), rfl, ?_, fun k hk => ?_⟩
      · exact (hset 8 (by decide)).trans (if_pos rfl)
      · exact (hset k (by omega)).trans (if_neg (by omega))
    · rw [exec_helloReceive rfl hmft, if_neg (by rw [hf]; decide)]
    · rw [(exec_link_send hmft).1, (exec_link_send hmft).2, State.queueLink_none hnone, State.queueLink_none hnone]
      exact ⟨rfl, rfl⟩
    · rw [(exec_link_send hmft).1, (exec_link_send hmft).2, State.queueLink_some htake, State.queueLink_some htake]
      exact ⟨rfl, rfl⟩

end Sys2Proof.Machine
end

section
/-!
The loop of an optical ring (R334-R340): its transitions, the candidates of a sweep, and what a rewritten capacity changes.
-/
namespace Sys2Proof.Machine

/-! Which entries an operation may change. -/

/-- Every entry but those listed reads alike in two states. -/
def OnlyEntries (l : List Nat) (s t : State) : Prop := ∀ e el, el < 2 ^ 24 → e ∉ l → t.rd e el = s.rd e el

theorem OnlyEntries.trans {l : List Nat} {s t u : State} (h : OnlyEntries l s t) (k : OnlyEntries l t u) : OnlyEntries l s u :=
  fun e el hel he => (k e el hel he).trans (h e el hel he)

theorem OnlyEntries.of_regs {l : List Nat} {s t : State} (h : t.regs = s.regs) : OnlyEntries l s t :=
  fun e el _ _ => State.rd_congr h e el

theorem OnlyEntries.wr {l : List Nat} {s t : State} {e el : Nat} (h : OnlyEntries l s t) (v : Nat) (he : e ∈ l) (hel : el < 2 ^ 24) :
    OnlyEntries l s (t.wr e el v) := fun e' el' hel' he' =>
  (State.rd_wr_other t v (elKey_ne_of_entry_ne (ne_of_mem_of_not_mem he he').symm hel' hel)).trans (h e' el' hel' he')

theorem OnlyEntries.notes {l : List Nat} {s t u : State} (h : OnlyEntries l s t) (hl : noteEntries ⊆ l) (k : SameEntries t u) :
    OnlyEntries l s u := fun e el hel he => (k e el hel fun h' => he (hl h')).trans (h e el hel he)

theorem OnlyEntries.raise {l : List Nat} {s t : State} (h : OnlyEntries l s t) (hl : noteEntries ⊆ l) (code sev src : Nat)
    (ctx : List Item) : OnlyEntries l s (t.raise code sev src ctx) :=
  h.notes hl fun _ _ hel he => State.raise_sameEntries t code sev src ctx _ _ hel he

theorem OnlyEntries.free {l : List Nat} {s t : State} (h : OnlyEntries l s t) : OnlyEntries l s t.free.2 :=
  h.trans (OnlyEntries.of_regs rfl)

/-- The entries that are rewritten with the capacity (R423). -/
def capacityEntries : List Nat :=
  [E.capExcluded, E.capPorts, E.capLineRate, E.capQuireDies, E.capSramSlots, E.capReductionIngress, E.capArrays, E.capUpdateLanes,
    E.capStacks, E.capStateBytes, E.capSpillBytes, E.capStitchChannels, E.capModules, E.capOpticalChannels, E.capTime, E.capVersion]

theorem State.publishCapacity_only (s : State) : OnlyEntries (capacityEntries ++ noteEntries) s s.publishCapacity := by
  have hnotes : noteEntries ⊆ capacityEntries ++ noteEntries := List.subset_append_right ..
  have hbegin : OnlyEntries (capacityEntries ++ noteEntries) s s := OnlyEntries.of_regs rfl
  unfold State.publishCapacity
  dsimp only [State.bump32]
  refine OnlyEntries.raise ?_ hnotes _ _ _ _
  refine OnlyEntries.free ?_
  repeat refine OnlyEntries.wr ?_ _ (by decide) (by decide)
  exact hbegin

/-! The loop of a ring. -/

@[simp] theorem State.loop_setLoop_same (s : State) (r : Nat) (x : RingLoop) : (s.setLoop r x).loop r = x := by
  unfold State.setLoop State.loop
  split
  · next h => rw [h]; exact congrArg (·.getD {}) (Tab.get_del_same s.links.rings r)
  · exact Tab.getD_set_same ..

theorem State.loop_setLoop_other (s : State) {r q : Nat} (x : RingLoop) (hq : q ≠ r) : (s.setLoop r x).loop q = s.loop q := by
  unfold State.setLoop State.loop
  split
  · exact congrArg (·.getD {}) (Tab.get_del_other s.links.rings hq)
  · exact Tab.getD_set_other _ _ _ hq

@[simp] theorem State.rd_setLoop (s : State) (r : Nat) (x : RingLoop) (e el : Nat) : (s.setLoop r x).rd e el = s.rd e el := rfl

@[simp] theorem State.loop_wr (s : State) (e el v r : Nat) : (s.wr e el v).loop r = s.loop r := rfl

theorem State.ringExists_of_chan {s : State} {r : Nat} (hr : r < 4096) : s.ringExists r = true := by
  rw [State.ringExists, decide_eq_true hr, Bool.true_or]

theorem State.detuned_of_chan {s : State} {r : Nat} (hr : r < 4096) : s.detuned r = false := by
  rw [State.detuned, decide_eq_false (by omega), Bool.false_and, Bool.false_and]

theorem State.expectedTone_of_chan {s : State} {r : Nat} (hr : r < 4096) : s.expectedTone r = r / 2 % 8 := if_pos hr

/-- A ring that has been calibrated keeps its expected code. -/
theorem State.expectedCode_of_known {s : State} {r h : Nat} (hh : (s.loop r).hexp = some h) : (s.expectedCode r).2 = s := by
  simp only [State.expectedCode, hh]

theorem State.orderOk_of_known {s : State} {r h : Nat} (hh : (s.loop r).hexp = some h) : (s.orderOk r).2 = s := by
  simp only [State.orderOk, State.expectedCode_of_known hh]

/-! The candidates of a sweep, nearest first. -/

/-- How far a code lies from the expected one. -/
def distance (z : Int) (x : Nat) : Nat := ((x : Int) - z).natAbs

theorem byDistance_ne_nil (z : Int) (x : Nat) (l : List Nat) : byDistance z x l ≠ [] := by
  cases l with
  | nil => exact List.cons_ne_nil _ _
  | cons y r =>
    rw [byDistance]
    split <;> exact List.cons_ne_nil _ _

/-- The nearest code stays in front. -/
theorem headD_byDistance (z : Int) (x : Nat) {l : List Nat} (hl : l ≠ []) :
    distance z ((byDistance z x l).headD 0) ≤ distance z x ∧ distance z ((byDistance z x l).headD 0) ≤ distance z (l.headD 0) := by
  obtain ⟨y, r, rfl⟩ := List.exists_cons_of_ne_nil hl
  rw [byDistance]
  split
  · next h => exact ⟨le_rfl, h.le⟩
  · next h => exact ⟨not_lt.mp h, le_rfl⟩

theorem foldl_byDistance_ne_nil (z : Int) (l b : List Nat) (h : l ≠ [] ∨ b ≠ []) : l.foldl (fun b x => byDistance z x b) b ≠ [] := by
  induction l generalizing b with
  | nil => exact h.resolve_left fun h' => h' rfl
  | cons x r ih => exact ih _ (Or.inr (byDistance_ne_nil z x b))

theorem headD_foldl_byDistance (z : Int) (l : List Nat) {b : List Nat} (hb : b ≠ []) :
    distance z ((l.foldl (fun b x => byDistance z x b) b).headD 0) ≤ distance z (b.headD 0) ∧
      ∀ x ∈ l, distance z ((l.foldl (fun b x => byDistance z x b) b).headD 0) ≤ distance z x := by
  induction l generalizing b with
  | nil => exact ⟨le_rfl, fun x hx => by cases hx⟩
  | cons y r ih =>
    obtain ⟨hhead, hall⟩ := ih (byDistance_ne_nil z y b)
    obtain ⟨hy, hb'⟩ := headD_byDistance z y hb
    refine ⟨hhead.trans hb', fun x hx => ?_⟩
    rcases List.mem_cons.mp hx with rfl | hx
    · exact hhead.trans hy
    · exact hall x hx

/-- The first candidate is the nearest of all that a sweep has found. -/
theorem nearest_first (z : Int) {l : List Nat} (x : Nat) (hx : x ∈ l) :
    distance z ((l.foldl (fun b x => byDistance z x b) []).headD 0) ≤ distance z x := by
  cases l with
  | nil => cases hx
  | cons y r =>
    obtain ⟨hhead, hall⟩ := headD_foldl_byDistance z r (b := [y]) (List.cons_ne_nil _ _)
    rcases List.mem_cons.mp hx with rfl | hx
    · exact hhead
    · exact hall x hx

theorem headD_take (l : List Nat) (n : Nat) : (l.take (n + 1)).headD 0 = l.headD 0 := by
  cases l <;> rfl

/-! A ring's transitions. -/

theorem State.nextCandidate_none {s : State} {r : Nat} (h : (s.loop r).cands = []) : s.nextCandidate r = s.sweepFails r := by
  simp only [State.nextCandidate, h]

theorem State.nextCandidate_some {s : State} {r c : Nat} {l : List Nat} (h : (s.loop r).cands = c :: l) :
    s.nextCandidate r = ((s.wr E.ringHeater r c).wr E.ringState r rgIdentify).setLoop r
      { s.loop r with cands := l, tone := 0xFF, run := 0, since := s.now } := by
  simp only [State.nextCandidate, h]

theorem State.rd_ringFaults (s : State) {r : Nat} (hr : r < 2 ^ 24) : (s.ringFaults r).rd E.ringState r = rgFault := by
  have hpub : ∀ t : State, t.publishCapacity.rd E.ringState r = t.rd E.ringState r := fun t =>
    t.publishCapacity_only E.ringState r hr (by decide)
  unfold State.ringFaults
  dsimp only
  split
  · rw [hpub, State.rd_raise_of_entry _ _ _ _ _ hr (by decide), State.rd_wr_same]
  · rw [State.rd_wr_other _ _ (elKey_ne_of_entry_ne (by decide) hr (by omega)), State.rd_wr_same]

theorem State.rd_sweepFails (s : State) {r : Nat} (hr : r < 2 ^ 24) :
    (s.sweepFails r).rd E.ringState r = if 3 ≤ (s.loop r).fails + 1 then rgFault else rgSweep := by
  unfold State.sweepFails
  dsimp only
  split
  · exact State.rd_ringFaults _ hr
  · exact State.rd_wr_same ..

/-- One element written leaves every other as it was. -/
theorem SameBut.wr {l : List (Nat × Nat)} {s t : State} {e el : Nat} (h : SameBut l s t) (v : Nat) (he : (e, el) ∈ l) :
    SameBut l s (t.wr e el v) := fun e' el' hn =>
  (State.rd_wr_other t v fun hk => hn (List.mem_map.mpr ⟨(e, el), he, hk.symm⟩)).trans (h e' el' hn)

theorem SameBut.begin (l : List (Nat × Nat)) (s : State) (t : Time) : SameBut l s (s.begin t) := fun _ _ _ => rfl

theorem exec_lightPresent_chan {t : Time} {r : Nat} {s : State} (hr : r < 4096) (hlit : s.engineLit (ringEngine r) = true)
    (hoff : s.rd E.ringState r = rgOff) :
    exec (.lightPresent t r) s = .next (((s.begin t).wr E.ringState r rgSweep).setLoop r { s.loop r with fails := 0 }) := by
  have hpass : ¬((!(s.begin t).ringExists r) = true ∨ (!(s.begin t).engineLit (ringEngine r)) = true ∨ (s.begin t).rd E.ringState r ≠ rgOff ∨
      (s.begin t).detuned r = true) := by
    rw [State.ringExists_of_chan hr, State.detuned_of_chan hr, show (s.begin t).engineLit (ringEngine r) = true from hlit]
    rintro (h | h | h | h)
    · cases h
    · cases h
    · exact h hoff
    · cases h
  simp only [exec, execLightPresent, if_neg hpass]
  rw [if_neg (fun h => by omega)]
  rfl

theorem exec_lightLost_chan {t : Time} {r : Nat} {s : State} (hr : r < 4096) (hp : s.rd E.ringState r ≠ rgParked)
    (hf : s.rd E.ringState r ≠ rgFault) :
    exec (.lightLost t r) s = .next (if s.rd E.ringState r = rgLocked then ((s.begin t).wr E.ringState r rgOff).ringLeft r
      else (s.begin t).wr E.ringState r rgOff) := by
  have hpass : ¬((!(s.begin t).ringExists r) = true ∨ (s.begin t).rd E.ringState r = rgParked ∨ (s.begin t).rd E.ringState r = rgFault) := by
    rw [State.ringExists_of_chan hr]
    rintro (h | h | h)
    · cases h
    · exact hp h
    · exact hf h
  simp only [exec, execLightLost, if_neg hpass]
  rw [if_neg (fun h => by omega)]
  rfl

theorem exec_sweepDone_none {t : Time} {r : Nat} {s : State} (hr : r < 4096) (hs : s.rd E.ringState r = rgSweep) :
    exec (.sweepDone t r []) s = .next ((s.begin t).sweepFails r) := by
  have hpass : ¬((!(s.begin t).ringExists r) = true ∨ (s.begin t).rd E.ringState r ≠ rgSweep) := by
    rw [State.ringExists_of_chan hr]
    rintro (h | h)
    · cases h
    · exact h hs
  exact next_congr ((if_neg hpass).trans (if_pos rfl))

theorem exec_sweepDone_found {t : Time} {r h : Nat} {l : List Nat} {s : State} (hr : r < 4096) (hs : s.rd E.ringState r = rgSweep)
    (hh : (s.loop r).hexp = some h) (hl : l ≠ []) :
    exec (.sweepDone t r l) s = .next (((s.begin t).setLoop r { s.loop r with
      cands := (l.foldl (fun b x => byDistance ((s.begin t).expectedCode r).1 x b) []).take 10 }).nextCandidate r) := by
  have hpass : ¬((!(s.begin t).ringExists r) = true ∨ (s.begin t).rd E.ringState r ≠ rgSweep) := by
    rw [State.ringExists_of_chan hr]
    rintro (h | h)
    · cases h
    · exact h hs
  have hempty : ¬l.isEmpty = true := fun h => hl (List.isEmpty_iff.mp h)
  have hknown := State.expectedCode_of_known (s := s.begin t) hh
  simp only [exec, execSweepDone, if_neg hpass, if_neg hempty, hknown]
  rfl

theorem exec_pilotWindow_chan {t : Time} {r tone heater h : Nat} {s w : State} (hr : r < 4096)
    (hst : s.rd E.ringState r = rgIdentify ∨ s.rd E.ringState r = rgLocked) (hh : (s.loop r).hexp = some h)
    (hw : w = (((s.begin t).wr E.ringPilot r tone).wr E.ringHeater r heater).setLoop r { s.loop r with
      tone := tone, run := if (s.loop r).tone = tone then min 3 ((s.loop r).run + 1) else 1 }) :
    exec (.pilotWindow t r tone heater) s = .next (
      let n := if (s.loop r).tone = tone then min 3 ((s.loop r).run + 1) else 1
      let wrong := !(w.orderOk r).1 || (n == 3 && tone != 0xFF && tone != r / 2 % 8)
      if s.rd E.ringState r = rgIdentify then
        if wrong then (w.wrongLock r tone).nextCandidate r
        else if n = 3 ∧ tone = r / 2 % 8 then w.ringLocked r else w
      else if wrong then ((w.wrongLock r tone).wr E.ringState r rgSweep).ringLeft r else w) := by
  have hpass : ¬((!(s.begin t).ringExists r) = true ∨ ((s.begin t).rd E.ringState r ≠ rgIdentify ∧ (s.begin t).rd E.ringState r ≠ rgLocked)) := by
    rw [State.ringExists_of_chan hr]
    rintro (h | ⟨h1, h2⟩)
    · cases h
    · exact hst.elim h1 h2
  have hloop : (s.begin t).loop r = s.loop r := rfl
  have hknown : (w.orderOk r).2 = w := State.orderOk_of_known (h := h) (by rw [hw, State.loop_setLoop_same]; exact hh)
  simp only [exec, execPilotWindow, if_neg hpass, hloop, ← hw, hknown, State.expectedTone_of_chan hr]
  rfl

theorem exec_identifyTimeout_chan {t : Time} {r : Nat} {s : State} (hr : r < 4096) (hs : s.rd E.ringState r = rgIdentify)
    (htone : (s.loop r).tone = 0xFF) (hlate : (s.loop r).since + 200 * us ≤ t) :
    exec (.identifyTimeout t r) s = .next (((s.begin t).wrongLock r 0xFF).nextCandidate r) := by
  have hpass : ¬((!(s.begin t).ringExists r) = true ∨ (s.begin t).rd E.ringState r ≠ rgIdentify ∨ ((s.begin t).loop r).tone ≠ 0xFF ∨
      t < ((s.begin t).loop r).since + 200 * us) := by
    rw [State.ringExists_of_chan hr]
    rintro (h | h | h | h)
    · cases h
    · exact h hs
    · exact h htone
    · exact absurd hlate (Nat.not_le.mpr h)
  simp only [exec, execIdentifyTimeout, if_neg hpass]

theorem exec_ringLockLost_chan {t : Time} {r : Nat} {s : State} (hr : r < 4096) (hs : s.rd E.ringState r = rgLocked) :
    exec (.ringLockLost t r) s = .next ((((s.begin t).bump E.relocks r 1).wr E.ringState r rgSweep).ringLeft r) := by
  have hpass : ¬((!(s.begin t).ringExists r) = true ∨ (s.begin t).rd E.ringState r ≠ rgLocked) := by
    rw [State.ringExists_of_chan hr]
    rintro (h | h)
    · cases h
    · exact h hs
  simp only [exec, execRingLockLost, if_neg hpass, if_pos hr]

/-- A number past the channels' rings names no ring where its circuit does not exist. -/
theorem exec_ring_absent {t : Time} {r tone heater : Nat} {l : List Nat} {s : State} (hr : 4096 ≤ r)
    (hno : (s.links.bypasses.get? ((r - 4096) / 2)).isSome = false) :
    exec (.lightPresent t r) s = .next (s.begin t) ∧ exec (.lightLost t r) s = .next (s.begin t) ∧
    exec (.sweepDone t r l) s = .next (s.begin t) ∧ exec (.pilotWindow t r tone heater) s = .next (s.begin t) ∧
    exec (.identifyTimeout t r) s = .next (s.begin t) ∧ exec (.ringLockLost t r) s = .next (s.begin t) := by
  have habsent : (!(s.begin t).ringExists r) = true := by
    rw [State.ringExists, decide_eq_false (by omega), Bool.false_or, show (s.begin t).links = s.links from rfl, hno]
    rfl
  exact ⟨next_congr (if_pos (Or.inl habsent)), next_congr (if_pos (Or.inl habsent)), next_congr (if_pos (Or.inl habsent)),
    next_congr (if_pos (Or.inl habsent)), next_congr (if_pos (Or.inl habsent)), next_congr (if_pos (Or.inl habsent))⟩

/-- Settles O45: each transition of a ring of a channel, by the command that makes it; the candidates of a sweep are in the order of
their distance from the expected code. -/
theorem ringLoops : Obligations.RingLoops := by
  refine ⟨fun t r s hr hlit hoff => ?light, fun t r s hr hp hf => exec_lightLost_chan hr hp hf, ?sweep, ?pilot,
    fun t r s hr hs ht hl => exec_identifyTimeout_chan hr hs ht hl, fun t r s hr hs => exec_ringLockLost_chan hr hs,
    fun t r tone heater l s hr hno => exec_ring_absent hr hno, ?retry, ?next⟩
  case light =>
    refine ⟨_, exec_lightPresent_chan hr hlit hoff, ?_, ?_, ?_⟩
    · rw [State.rd_setLoop, State.rd_wr_same]
    · rw [State.loop_setLoop_same]
    · exact ((SameBut.begin _ s t).wr rgSweep (List.mem_singleton.mpr rfl)).congr fun _ _ => rfl
  case sweep =>
    intro t r l s hr hs
    refine ⟨exec_sweepDone_none hr hs, fun h hh hl => ?_⟩
    intro z c
    have hne : c ≠ [] := fun h0 => by
      rcases List.take_eq_nil_iff.mp h0 with h0 | h0
      · cases h0
      · exact foldl_byDistance_ne_nil z l [] (Or.inl hl) h0
    obtain ⟨x, rest, hc⟩ := List.exists_cons_of_ne_nil hne
    have hcands : (((s.begin t).setLoop r { s.loop r with cands := c }).loop r).cands = x :: rest := by
      rw [State.loop_setLoop_same]
      exact hc
    refine ⟨_, (exec_sweepDone_found hr hs hh hl).trans (congrArg _ (State.nextCandidate_some hcands)), ?_, ?_, ?_, ?_, ?_, fun y hy => ?_⟩
    · rw [State.rd_setLoop, State.rd_wr_other _ _ (elKey_ne_of_entry_ne (by decide) (by omega) (by omega)), State.rd_wr_same, hc]
      rfl
    · rw [State.rd_setLoop, State.rd_wr_same]
    · rw [State.loop_setLoop_same, hc]
      rfl
    · rw [State.loop_setLoop_same]
    · have hbut := (((SameBut.begin [(E.ringHeater, r), (E.ringState, r)] s t).congr (u := (s.begin t).setLoop r { s.loop r with cands := c })
        fun _ _ => rfl).wr (e := E.ringHeater) (el := r) x (by simp)).wr (e := E.ringState) (el := r) rgIdentify (by simp)
      exact hbut.congr fun _ _ => rfl
    · have hnear := nearest_first z y hy
      rw [← headD_take _ 9] at hnear
      exact hnear
  case pilot =>
    intro t r tone heater h s hr hh x n w wrong
    refine ⟨fun hs => ?_, fun hs => ?_⟩
    · exact (exec_pilotWindow_chan (w := w) hr (Or.inl hs) hh rfl).trans (congrArg _ (if_pos hs))
    · exact (exec_pilotWindow_chan (w := w) hr (Or.inr hs) hh rfl).trans (congrArg _ (if_neg (by rw [hs]; decide)))
  case retry =>
    intro a r s ht
    refine ⟨fun hr => ⟨_, next_congr (State.writeOne_ok ht (if_neg (by omega))), ?_⟩, fun hr => next_congr (State.writeOne_range ht (if_pos hr))⟩
    have hrd : (s.commitAt a).rd E.ringState r = s.rd E.ringState r :=
      s.rd_commitAt_of_entry a (by decide) (by decide) (by omega)
    rw [State.rd_answerItem, hrd]
    by_cases hf : s.rd E.ringState r = rgFault
    · rw [if_pos hf, if_pos hf, State.rd_wr_same]
    · rw [if_neg hf, if_neg hf, hrd]
  case next =>
    intro r s hr
    exact ⟨State.nextCandidate_none, s.rd_sweepFails (by omega)⟩

end Sys2Proof.Machine
end

section
/-!
Calibration, narrowing and bypass circuits (R341-R354).
-/
namespace Sys2Proof.Machine

/-! Calibration (R341-R346). -/

theorem State.startCal_links (s : State) (r : Nat) : (s.startCal r).links = s.links := by
  unfold State.startCal
  split <;> rfl

theorem State.rd_startCal_locked {s : State} {r : Nat} (h : s.rd E.ringState r = rgLocked) : (s.startCal r).rd E.ringState r = rgCal := by
  rw [State.startCal, if_pos h, State.rd_wr_same]

theorem State.rd_startCal_other (s : State) {r e el : Nat} (h : elKey e el ≠ elKey E.ringState r) : (s.startCal r).rd e el = s.rd e el := by
  unfold State.startCal
  split
  · exact State.rd_wr_other s _ h
  · rfl

theorem State.cal_calChannel (s : State) (c : Nat) : (s.calChannel c).links.cal = s.links.cal := by
  unfold State.calChannel
  dsimp only
  rw [State.startCal_links, State.startCal_links]
  split <;> rfl

theorem State.cal_calChannels (l : List Nat) (s : State) : (l.foldl (fun (u : State) c => u.calChannel c) s).links.cal = s.links.cal := by
  induction l generalizing s with
  | nil => rfl
  | cons c r ih => rw [List.foldl_cons, ih, State.cal_calChannel]

theorem ringKey_ne {r q : Nat} (hr : r < 2 ^ 24) (hq : q < 2 ^ 24) (h : r ≠ q) : elKey E.ringState r ≠ elKey E.ringState q :=
  fun hk => h (elKey_inj hr hq hk).2

theorem State.calChannel_locked (s : State) {c : Nat} (hc : c < 2048) (htx : s.rd E.ringState (2 * c) = rgLocked)
    (hrx : s.rd E.ringState (2 * c + 1) = rgLocked) :
    (s.calChannel c).rd E.ringState (2 * c) = rgCal ∧ (s.calChannel c).rd E.ringState (2 * c + 1) = rgCal ∧
    (s.rd E.portState (s.portOfChan c) = 2 → (s.calChannel c).narrowOf (s.portOfChan c) = some ⟨s.now, 1⟩) := by
  obtain ⟨w, hw⟩ : ∃ w, w = if s.rd E.portState (s.portOfChan c) = 2 then s.setNarrow (s.portOfChan c) (some ⟨s.now, 1⟩) else s := ⟨_, rfl⟩
  have hrd : ∀ e el, w.rd e el = s.rd e el := fun e el => by
    rw [hw]
    split <;> rfl
  have hne : elKey E.ringState (2 * c) ≠ elKey E.ringState (2 * c + 1) := ringKey_ne (by omega) (by omega) (by omega)
  have htx' : (w.startCal (2 * c)).rd E.ringState (2 * c) = rgCal := State.rd_startCal_locked (by rw [hrd, htx])
  have hrx' : (w.startCal (2 * c)).rd E.ringState (2 * c + 1) = rgLocked := by rw [State.rd_startCal_other w hne.symm, hrd, hrx]
  simp only [State.calChannel, ← hw]
  refine ⟨by rw [State.rd_startCal_other _ hne, htx'], State.rd_startCal_locked hrx', fun hup => ?_⟩
  rw [State.narrowOf, State.startCal_links, State.startCal_links, hw, if_pos hup]
  exact Tab.get_set_same ..

/-- A slot that begins: the channels that are not skipped are calibrated, and the skipped ones counted. -/
theorem exec_calSlotStart {t : Time} {s w v : State} {d : Nat} {skip go : List Nat} {u : State} (hw : w = (s.begin t).adoptCal)
    (hbase : w.links.cal.base ≤ t) (hperiod : 0 < w.links.cal.period) (hd : d = (t - w.links.cal.base) % w.links.cal.period)
    (hslot : d % calSlot = 0) (hpass : d < calPass)
    (hskip : skip = (((List.range 8).filter (fun n => w.engineUp n)).map (fun n => 256 * n + d / calSlot)).filter (fun c => w.skipsCal c))
    (hgo : go = (((List.range 8).filter (fun n => w.engineUp n)).map (fun n => 256 * n + d / calSlot)).filter (fun c => !w.skipsCal c))
    (hu : u = go.foldl (fun (u : State) c => u.calChannel c) w) (hv : v = u.bump E.calSkipped 0 skip.length) :
    exec (.calSlotStart t) s = .next (if skip.isEmpty then u else if v.links.cal.told = some (t - d) then v
      else ({ v with links := { v.links with cal := { v.links.cal with told := some (t - d) } } }).raise 0x4008 0 31 [.v 32 skip.length]) := by
  have hwithin : within w.links.cal.base w.links.cal.period t = some d := by
    rw [hd, within, if_neg fun h => h.elim (fun h' => absurd hbase (Nat.not_le.mpr h')) (fun h' => absurd hperiod (by rw [h']; decide))]
  have hok : ¬(d % calSlot ≠ 0 ∨ calPass ≤ d) := fun h => h.elim (fun h' => h' hslot) (fun h' => absurd hpass (Nat.not_lt.mpr h'))
  simp only [exec, execCalSlotStart, ← hw, hwithin, if_neg hok, List.partition_eq_filter_filter, Function.comp_def, ← hskip, ← hgo, ← hu, ← hv]

/-! Narrowing (R341-R343). -/

theorem exec_narrow {t : Time} {port : Nat} {x : Narrow} {s : State} (hx : s.narrowOf port = some x) :
    (x.phase = 1 → x.slot + 50 * us ≤ t → exec (.narrowDeadline t port) s
      = .next ((((s.begin t).portDown port 1 5).bump E.narrowFailed 0 1).raise 0x4007 1 (dieOf port) [.v 16 port, .tm x.slot])) ∧
    (x.phase = 3 → x.slot + calSlot ≤ t → exec (.narrowDeadline t port) s = .next ((s.begin t).portDown port 1 5)) ∧
    (x.phase = 2 → x.slot + calSlot ≤ t + 100 * us →
      exec (.narrowReturn t port) s = .next ((s.begin t).setNarrow port (some ⟨x.slot, 3⟩))) := by
  have hx' : (s.begin t).narrowOf port = some x := hx
  refine ⟨fun hphase hlate => ?_, fun hphase hlate => ?_, fun hphase hlate => ?_⟩
  · simp only [exec, execNarrowDeadline, hx', if_pos (And.intro hphase hlate)]
  · have hno : ¬(x.phase = 1 ∧ x.slot + 50 * us ≤ t) := fun h => by omega
    simp only [exec, execNarrowDeadline, hx', if_neg hno, if_pos (And.intro hphase hlate)]
  · simp only [exec, execNarrowReturn, hx', if_pos (And.intro hphase hlate)]

/-! A ring calibrated (Table 5). -/

theorem State.calDone_chan {s : State} {r : Nat} (code tone : Nat) (hr : r < 4096) (hcal : s.rd E.ringState r = rgCal) :
    (s.calDone r code tone).rd E.ringState r = (if tone = r / 2 % 8 then rgLocked else rgSweep) ∧
      ((s.calDone r code tone).loop r).hexp = some code ∧ (s.calDone r code tone).rd E.ringHeater r = code := by
  have hr' : r < 2 ^ 24 := by omega
  simp only [State.calDone, hcal, ne_eq, not_true, if_false, State.expectedTone_of_chan hr]
  refine ⟨State.rd_wr_same .., ?_, ?_⟩
  · rw [State.loop_wr, State.loop_wr, State.loop_wr, State.loop_setLoop_same]
  · rw [State.rd_wr_other _ _ (elKey_ne_of_entry_ne (by decide) hr' hr'), State.rd_wr_other _ _ (elKey_ne_of_entry_ne (by decide) hr' hr'),
      State.rd_wr_same]

theorem State.calDone_other (s : State) {r q : Nat} (code tone : Nat) (hr : r < 2 ^ 24) (hq : q < 2 ^ 24) (hne : q ≠ r) :
    (∀ e, (s.calDone r code tone).rd e q = s.rd e q) ∧ (s.calDone r code tone).loop q = s.loop q := by
  have hkey : ∀ e e', elKey e q ≠ elKey e' r := fun e e' hk => hne (elKey_inj hq hr hk).2
  unfold State.calDone
  dsimp only
  split
  · exact ⟨fun e => rfl, rfl⟩
  · refine ⟨fun e => ?_, ?_⟩
    · rw [State.rd_wr_other _ _ (hkey _ _), State.rd_wr_other _ _ (hkey _ _), State.rd_wr_other _ _ (hkey _ _)]
      rfl
    · rw [State.loop_wr, State.loop_wr, State.loop_wr, State.loop_setLoop_other _ _ hne]

theorem exec_calDone {t : Time} {c p q i j : Nat} {s : State} (hc : c < 2048) (htx : s.rd E.ringState (2 * c) = rgCal)
    (hrx : s.rd E.ringState (2 * c + 1) = rgCal) :
    ∃ u, exec (.calDone t c p i q j) s = .next u ∧ u.rd E.ringState (2 * c) = (if i = c % 8 then rgLocked else rgSweep) ∧
      u.rd E.ringState (2 * c + 1) = (if j = c % 8 then rgLocked else rgSweep) ∧ (u.loop (2 * c)).hexp = some p ∧
      (u.loop (2 * c + 1)).hexp = some q ∧ u.rd E.ringHeater (2 * c) = p ∧ u.rd E.ringHeater (2 * c + 1) = q := by
  obtain ⟨w, hw⟩ : ∃ w, w = (s.begin t).calDone (2 * c) p i := ⟨_, rfl⟩
  obtain ⟨h1, h2, h3⟩ := State.calDone_chan (s := s.begin t) p i (by omega) htx
  obtain ⟨hrd, hloop⟩ := State.calDone_other (s.begin t) p i (r := 2 * c) (q := 2 * c + 1) (by omega) (by omega) (by omega)
  rw [← hw] at h1 h2 h3 hrd hloop
  obtain ⟨k1, k2, k3⟩ := State.calDone_chan (s := w) (r := 2 * c + 1) q j (by omega) ((hrd _).trans hrx)
  obtain ⟨krd, kloop⟩ := State.calDone_other w q j (r := 2 * c + 1) (q := 2 * c) (by omega) (by omega) (by omega)
  refine ⟨w.calDone (2 * c + 1) q j, ?_, ?_, ?_, ?_, k2, ?_, k3⟩
  · rw [hw]
    exact next_congr (if_neg (by omega))
  · rw [krd, h1, Nat.mul_div_cancel_left c (by decide)]
  · rw [k1, show (2 * c + 1) / 2 = c by omega]
  · rw [kloop, h2]
  · rw [krd, h3]

/-! Bypass circuits (R349-R354). -/

/-- Every cause of a rule that allows a record is absent. -/
theorem firstCause_ok {e : Nat} {l : List (Bool × Nat)} (h : firstCause e l = .ok) : ∀ x ∈ l, x.1 = false := by
  induction l with
  | nil => exact fun x hx => by cases hx
  | cons y r ih =>
    obtain ⟨b, c⟩ := y
    cases b with
    | true => cases h
    | false =>
      intro x hx
      rcases List.mem_cons.mp hx with rfl | hx
      · rfl
      · exact ih h x hx

/-- The entries of a ring. -/
def ringWrites : List Nat := [E.ringState, E.ringHeater, E.ringPilot]

theorem OnlyEntries.refl (l : List Nat) (s : State) : OnlyEntries l s s := OnlyEntries.of_regs rfl

theorem OnlyEntries.mono {l k : List Nat} {s t : State} (h : OnlyEntries l s t) (hl : l ⊆ k) : OnlyEntries k s t :=
  fun e el hel he => h e el hel fun h' => he (hl h')

theorem State.commitAt_only (s : State) (a : Access) : OnlyEntries [E.commitLast, E.domainState] s (s.commitAt a) := fun e el hel he => by
  obtain ⟨hc, hd⟩ := List.ne_and_not_mem_of_not_mem_cons he
  exact s.rd_commitAt_of_entry a hc (List.ne_of_not_mem_cons hd) hel

theorem State.lowAt_congr {l : List Nat} {s t : State} (h : OnlyEntries l s t) (hp : E.monPower ∉ l) (hm : E.monLow ∉ l) {stage c : Nat}
    (hs : stage < 2 ^ 10) (hc : c < 2 ^ 20) : t.lowAt stage c = s.lowAt stage c := by
  unfold State.lowAt State.reading State.rdInt
  rw [h E.monPower _ (by omega) hp, h E.monLow _ (by omega) hm]

theorem State.clearBypassRings_only (s : State) {c : Nat} (hc : c < 512) : OnlyEntries ringWrites s (s.clearBypassRings c) := by
  have hd : ∀ k, k ≤ 1 → dropRing c + k < 2 ^ 24 := fun k hk => by
    rw [dropRing]
    omega
  have hstep : ∀ {t : State} r x, OnlyEntries ringWrites s t → OnlyEntries ringWrites s (t.setLoop r x) := fun r x h =>
    h.trans (OnlyEntries.of_regs rfl)
  unfold State.clearBypassRings
  refine OnlyEntries.wr (OnlyEntries.wr (OnlyEntries.wr (OnlyEntries.wr (hstep _ _ (hstep _ _ (OnlyEntries.wr (OnlyEntries.wr
    (OnlyEntries.refl _ _) _ (by decide) (hd 0 (by decide))) _ (by decide) (hd 1 (by decide))))) _ (by decide) (hd 0 (by decide))) _
    (by decide) (hd 1 (by decide))) _ (by decide) (hd 0 (by decide))) _ (by decide) (hd 1 (by decide))

theorem State.park_only (s : State) {r : Nat} (hr : r < 2 ^ 24) : OnlyEntries ringWrites s (s.park r) := by
  unfold State.park
  split
  · exact OnlyEntries.refl _ _
  · exact (OnlyEntries.refl _ _).wr _ (by decide) hr

theorem State.park_links (s : State) (r : Nat) : (s.park r).links = s.links := by
  unfold State.park
  split <;> rfl

theorem State.unpark_links (s : State) (r : Nat) : (s.unpark r).links = s.links := by
  unfold State.unpark
  split <;> rfl

theorem State.bypasses_clearBypassRings (s : State) (c : Nat) : (s.clearBypassRings c).links.bypasses = s.links.bypasses := rfl

/-- A circuit as it is made, before the map of its engine is. -/
def State.makeBypass (s : State) (n c wave inF outF : Nat) : State :=
  let s := s.clearBypassRings c
  let s := { s with links := { s.links with bypasses := s.links.bypasses.set c ⟨wave, inF, outF⟩ } }
  let s := (s.park (2 * chanAt n inF wave + 1)).park (2 * chanAt n outF wave)
  (s.wr E.bypassState c (if s.lowAt 4 (chanAt n inF wave) then 3 else 1)).wr E.bypassStatus 0 0

theorem State.createBypass_eq (s : State) (v : Nat) : s.createBypass v
    = (s.makeBypass (bits v 63 61) (64 * bits v 63 61 + bits v 60 55) (bits v 52 50) (bits v 49 45) (bits v 44 40)).remap (bits v 63 61) := rfl

theorem chanAt_lt {n f w : Nat} (hn : n < 8) (hf : f < 32) (hw : w < 8) : chanAt n f w < 2048 := by
  rw [chanAt]
  omega

theorem State.makeBypass_spec {s : State} {n c wave inF outF : Nat} (hc : c < 512) (hin : chanAt n inF wave < 2048)
    (hout : chanAt n outF wave < 2048) :
    (s.makeBypass n c wave inF outF).links.bypasses = s.links.bypasses.set c ⟨wave, inF, outF⟩ ∧
      (s.makeBypass n c wave inF outF).rd E.bypassState c = if s.lowAt 4 (chanAt n inF wave) then 3 else 1 := by
  obtain ⟨x, hx⟩ : ∃ x : State, x = { s.clearBypassRings c with links := { (s.clearBypassRings c).links with
      bypasses := (s.clearBypassRings c).links.bypasses.set c ⟨wave, inF, outF⟩ } } := ⟨_, rfl⟩
  obtain ⟨w, hw⟩ : ∃ w, w = (x.park (2 * chanAt n inF wave + 1)).park (2 * chanAt n outF wave) := ⟨_, rfl⟩
  have honly : OnlyEntries ringWrites s w := by
    rw [hw]
    refine ((OnlyEntries.trans ?_ (State.park_only x (by omega)))).trans (State.park_only _ (by omega))
    rw [hx]
    exact (s.clearBypassRings_only hc).trans (OnlyEntries.of_regs rfl)
  have hlow : w.lowAt 4 (chanAt n inF wave) = s.lowAt 4 (chanAt n inF wave) :=
    State.lowAt_congr honly (by decide) (by decide) (by decide) (by omega)
  have hmake : s.makeBypass n c wave inF outF = (w.wr E.bypassState c (if w.lowAt 4 (chanAt n inF wave) then 3 else 1)).wr E.bypassStatus 0 0 := by
    rw [hw, hx]
    rfl
  rw [hmake, hlow]
  refine ⟨?_, ?_⟩
  · rw [State.wr_links, State.wr_links, hw, State.park_links, State.park_links, hx]
    rfl
  · rw [State.rd_wr_other _ _ (elKey_ne_of_entry_ne (by decide) (by omega) (by decide)), State.rd_wr_same]

/-- What a circuit's deletion does before the map of its engine is made. -/
def State.dropBypass (s : State) (n c : Nat) (b : Bypass) : State :=
  let s := s.clearBypassRings c
  let s := { s with links := { s.links with bypasses := s.links.bypasses.del c } }
  let s := (s.unpark (2 * chanAt n b.inF b.wave + 1)).unpark (2 * chanAt n b.outF b.wave)
  ((s.wr E.bypassState c 0).wr E.bypassLoss c 0).wr E.bypassStatus 0 0

theorem State.deleteBypass_eq {s : State} {v : Nat} {b : Bypass} (hb : s.links.bypasses.get? (64 * bits v 63 61 + bits v 60 55) = some b) :
    s.deleteBypass v = (s.dropBypass (bits v 63 61) (64 * bits v 63 61 + bits v 60 55) b).remap (bits v 63 61) := by
  simp only [State.deleteBypass, hb]
  rfl

theorem State.dropBypass_spec (s : State) (n : Nat) {c : Nat} (b : Bypass) (hc : c < 512) :
    (s.dropBypass n c b).links.bypasses = s.links.bypasses.del c ∧ (s.dropBypass n c b).rd E.bypassState c = 0 := by
  have hc' : c < 2 ^ 24 := by omega
  unfold State.dropBypass
  refine ⟨?_, ?_⟩
  · rw [State.wr_links, State.wr_links, State.wr_links, State.unpark_links, State.unpark_links]
    rfl
  · rw [State.rd_wr_other _ _ (elKey_ne_of_entry_ne (by decide) hc' (by decide)),
      State.rd_wr_other _ _ (elKey_ne_of_entry_ne (by decide) hc' hc'), State.rd_wr_same]

theorem bypassIndex_lt (v : Nat) : 64 * bits v 63 61 + bits v 60 55 < 512 := by
  have := bits_lt v 63 61
  have := bits_lt v 60 55
  omega

theorem bypassChan_lt (v : Nat) : chanAt (bits v 63 61) (bits v 49 45) (bits v 52 50) < 2048 ∧
    chanAt (bits v 63 61) (bits v 44 40) (bits v 52 50) < 2048 :=
  ⟨chanAt_lt (bits_lt v 63 61) (bits_lt v 49 45) (bits_lt v 52 50), chanAt_lt (bits_lt v 63 61) (bits_lt v 44 40) (bits_lt v 52 50)⟩

theorem exec_bypassCreate {a : Access} {v : BitVec 64} {s : State} (ht : s.Takes a E.bypassWrite 0 8 0 true)
    (hr : bypassRule v.toNat (s.begin a.t) = .ok) (hop : bits v.toNat 54 53 = 0) :
    ∃ u : State, exec (.bypassCreate a v) s = .next ((u.remap (bits v.toNat 63 61)).answerItem stOk) ∧
      u.links.bypasses = s.links.bypasses.set (64 * bits v.toNat 63 61 + bits v.toNat 60 55)
        ⟨bits v.toNat 52 50, bits v.toNat 49 45, bits v.toNat 44 40⟩ ∧
      u.rd E.bypassState (64 * bits v.toNat 63 61 + bits v.toNat 60 55)
        = (if s.lowAt 4 (chanAt (bits v.toNat 63 61) (bits v.toNat 49 45) (bits v.toNat 52 50)) = true then 3 else 1) := by
  obtain ⟨hin, hout⟩ := bypassChan_lt v.toNat
  obtain ⟨hmap, hstate⟩ := State.makeBypass_spec (s := s.commitAt a) (bypassIndex_lt v.toNat) hin hout
  have hact : State.bypassAct v.toNat (s.commitAt a) = (s.commitAt a).createBypass v.toNat := if_pos hop
  refine ⟨_, (next_congr (State.writeOne_ok ht hr)).trans ?_, hmap.trans ?_, hstate.trans ?_⟩
  · rw [hact, State.createBypass_eq]
  · rw [State.commitAt_links]
  · rw [State.lowAt_congr (s.commitAt_only a) (by decide) (by decide) (by decide) (by omega)]

theorem exec_bypassDelete {a : Access} {v : BitVec 64} {s : State} (ht : s.Takes a E.bypassWrite 0 8 0 true)
    (hr : bypassRule v.toNat (s.begin a.t) = .ok) (hop : bits v.toNat 54 53 = 1) :
    ∃ u : State, exec (.bypassDelete a v) s = .next ((u.remap (bits v.toNat 63 61)).answerItem stOk) ∧
      u.links.bypasses = s.links.bypasses.del (64 * bits v.toNat 63 61 + bits v.toNat 60 55) ∧
      u.rd E.bypassState (64 * bits v.toNat 63 61 + bits v.toNat 60 55) = 0 := by
  have hused : (s.links.bypasses.get? (64 * bits v.toNat 63 61 + bits v.toNat 60 55)).isSome = true := by
    have hcause := firstCause_ok hr _ (List.mem_cons_of_mem _ List.mem_cons_self)
    simp only [hop, decide_eq_false_iff_not, not_or, true_and, Bool.not_eq_true'] at hcause
    obtain ⟨_, _, _, hused⟩ := hcause
    exact Bool.not_eq_false _ ▸ hused
  obtain ⟨b, hb⟩ := Option.isSome_iff_exists.mp hused
  have hb' : (s.commitAt a).links.bypasses.get? (64 * bits v.toNat 63 61 + bits v.toNat 60 55) = some b := by
    rw [State.commitAt_links]
    exact hb
  obtain ⟨hmap, hstate⟩ := (s.commitAt a).dropBypass_spec (bits v.toNat 63 61) b (bypassIndex_lt v.toNat)
  have hact : State.bypassAct v.toNat (s.commitAt a) = (s.commitAt a).deleteBypass v.toNat := if_neg (by omega)
  refine ⟨_, (next_congr (State.writeOne_ok ht hr)).trans ?_, hmap.trans ?_, hstate⟩
  · rw [hact, State.deleteBypass_eq hb']
  · rw [State.commitAt_links]

/-! The rings of a circuit (R352, R353). -/

theorem circuitOf_dropRing (c : Nat) : (dropRing c - 4096) / 2 = c := by
  rw [dropRing]
  omega

theorem circuitOf_addRing (c : Nat) : (dropRing c + 1 - 4096) / 2 = c := by
  rw [dropRing]
  omega

theorem dropRing_even (c : Nat) : dropRing c % 2 = 0 := by
  rw [dropRing]
  omega

theorem dropRing_ge (c : Nat) : ¬dropRing c < 4096 := by
  rw [dropRing]
  omega

theorem dropRing_lt {c : Nat} (hc : c < 512) : dropRing c + 1 < 2 ^ 24 := by
  rw [dropRing]
  omega

theorem ringEngine_dropRing (c : Nat) : ringEngine (dropRing c) = c / 64 := by
  rw [ringEngine, if_neg (dropRing_ge c), dropRing]
  omega

theorem State.ringExists_dropRing {s : State} {c : Nat} (h : (s.links.bypasses.get? c).isSome = true) : s.ringExists (dropRing c) = true := by
  rw [State.ringExists, circuitOf_dropRing, h, Bool.or_true]

theorem State.detuned_dropRing (s : State) (c : Nat) : s.detuned (dropRing c) = false := by
  rw [State.detuned, dropRing_even]
  simp

section
variable {s : State} {c : Nat}

theorem State.rd_raise_ring (t : State) (code sev src : Nat) (ctx : List Item) {e el : Nat} (he : e = E.ringState ∨ e = E.bypassState)
    (hel : el < 2 ^ 24) : (t.raise code sev src ctx).rd e el = t.rd e el :=
  State.rd_raise_of_entry t code sev src ctx hel (by rcases he with rfl | rfl <;> decide)

/-- A circuit that was UP goes DOWN, and its add ring is detuned. -/
theorem State.bypassDown_up (hc : c < 512) (hup : s.rd E.bypassState c = 2) :
    (s.bypassDown c).rd E.ringState (dropRing c + 1) = rgOff ∧ (s.bypassDown c).rd E.bypassState c = 3 ∧
      (s.bypassDown c).rd E.ringState (dropRing c) = s.rd E.ringState (dropRing c) := by
  have hlt := dropRing_lt hc
  have hne : elKey E.ringState (dropRing c) ≠ elKey E.ringState (dropRing c + 1) := ringKey_ne (by omega) hlt (by omega)
  have hbs : ∀ {el}, el < 2 ^ 24 → elKey E.ringState el ≠ elKey E.bypassState c := fun h => elKey_ne_of_entry_ne (by decide) h (by omega)
  have hup' : (s.wr E.ringState (dropRing c + 1) rgOff).rd E.bypassState c = 2 := by
    rw [State.rd_wr_other _ _ (hbs hlt).symm, hup]
  have hfree : ∀ (t : State) e el, t.free.2.rd e el = t.rd e el := fun t e el => rfl
  simp only [State.bypassDown, hup', ne_eq, not_true, if_false]
  rw [State.rd_raise_ring _ _ _ _ _ (Or.inl rfl) hlt, State.rd_raise_ring _ _ _ _ _ (Or.inr rfl) (by omega),
    State.rd_raise_ring _ _ _ _ _ (Or.inl rfl) (by omega)]
  refine ⟨?_, State.rd_wr_same .., ?_⟩
  · rw [State.rd_wr_other _ _ (hbs hlt), hfree, State.rd_wr_same]
  · rw [State.rd_wr_other _ _ (hbs (by omega)), hfree, State.rd_wr_other _ _ hne]

theorem State.ringLeft_dropRing (s : State) (c : Nat) : s.ringLeft (dropRing c) = s.bypassDown c := by
  rw [State.ringLeft, if_neg (dropRing_ge c), dropRing_even, circuitOf_dropRing]
  rfl

/-- The drop ring of a circuit that was UP leaves LOCKED. -/
theorem State.dropRing_left (hc : c < 512) (hup : s.rd E.bypassState c = 2) (st : Nat) :
    ((s.wr E.ringState (dropRing c) st).ringLeft (dropRing c)).rd E.ringState (dropRing c) = st ∧
      ((s.wr E.ringState (dropRing c) st).ringLeft (dropRing c)).rd E.ringState (dropRing c + 1) = rgOff ∧
      ((s.wr E.ringState (dropRing c) st).ringLeft (dropRing c)).rd E.bypassState c = 3 := by
  have hlt := dropRing_lt hc
  have hup' : (s.wr E.ringState (dropRing c) st).rd E.bypassState c = 2 := by
    rw [State.rd_wr_other _ _ (elKey_ne_of_entry_ne (by decide) (by omega) (by omega)), hup]
  obtain ⟨hadd, hdown, hdrop⟩ := State.bypassDown_up hc hup'
  rw [State.ringLeft_dropRing]
  exact ⟨hdrop.trans (State.rd_wr_same ..), hadd, hdown⟩

theorem exec_lightPresent_drop {t : Time} (hex : (s.links.bypasses.get? c).isSome = true)
    (hlit : s.engineLit (c / 64) = true) (hoff : s.rd E.ringState (dropRing c) = rgOff) (hc : c < 512) :
    ∃ u, exec (.lightPresent t (dropRing c)) s = .next u ∧ u.rd E.ringState (dropRing c) = rgSweep ∧
      u.rd E.bypassState c = if s.rd E.bypassState c = 3 ∧ s.rd E.ringState (dropRing c + 1) ≠ rgFault then 1 else s.rd E.bypassState c := by
  have hlt := dropRing_lt hc
  have hpass : ¬((!(s.begin t).ringExists (dropRing c)) = true ∨ (!(s.begin t).engineLit (ringEngine (dropRing c))) = true ∨
      (s.begin t).rd E.ringState (dropRing c) ≠ rgOff ∨ (s.begin t).detuned (dropRing c) = true) := by
    rw [State.ringExists_dropRing (s := s.begin t) hex, State.detuned_dropRing, ringEngine_dropRing,
      show (s.begin t).engineLit (c / 64) = true from hlit]
    rintro (h | h | h | h)
    · cases h
    · cases h
    · exact h hoff
    · cases h
  obtain ⟨w, hw⟩ : ∃ w, w = ((s.begin t).wr E.ringState (dropRing c) rgSweep).setLoop (dropRing c)
      { (s.begin t).loop (dropRing c) with fails := 0 } := ⟨_, rfl⟩
  have hring : w.rd E.ringState (dropRing c) = rgSweep := by
    rw [hw, State.rd_setLoop, State.rd_wr_same]
  have hadd : w.rd E.ringState (dropRing c + 1) = s.rd E.ringState (dropRing c + 1) := by
    rw [hw, State.rd_setLoop, State.rd_wr_other _ _ (ringKey_ne hlt (by omega) (by omega))]
    rfl
  have hstate : w.rd E.bypassState c = s.rd E.bypassState c := by
    rw [hw, State.rd_setLoop, State.rd_wr_other _ _ (elKey_ne_of_entry_ne (by decide) (by omega) (by omega))]
    rfl
  refine ⟨if s.rd E.bypassState c = 3 ∧ s.rd E.ringState (dropRing c + 1) ≠ rgFault then w.wr E.bypassState c 1 else w, ?_, ?_, ?_⟩
  · have hge : 4096 ≤ dropRing c := Nat.not_lt.mp (dropRing_ge c)
    simp only [exec, execLightPresent, if_neg hpass, ← hw, circuitOf_dropRing, dropRing_even, hge, hadd, hstate, true_and]
  · split
    · rw [State.rd_wr_other _ _ (elKey_ne_of_entry_ne (by decide) (by omega) (by omega)), hring]
    · exact hring
  · split
    · rw [State.rd_wr_same]
    · exact hstate

theorem exec_lightLost_drop {t : Time} (hc : c < 512) (hex : (s.links.bypasses.get? c).isSome = true)
    (hlock : s.rd E.ringState (dropRing c) = rgLocked) (hup : s.rd E.bypassState c = 2) :
    exec (.lightLost t (dropRing c)) s = .next (((s.begin t).wr E.ringState (dropRing c) rgOff).ringLeft (dropRing c)) := by
  have hlock' : (s.begin t).rd E.ringState (dropRing c) = rgLocked := hlock
  have hpass : ¬((!(s.begin t).ringExists (dropRing c)) = true ∨ rgLocked = rgParked ∨ rgLocked = rgFault) := by
    rw [State.ringExists_dropRing (s := s.begin t) hex]
    decide
  have hdown := (State.dropRing_left (s := s.begin t) hc hup rgOff).2.2
  have hno : ¬(4096 ≤ dropRing c ∧ (((s.begin t).wr E.ringState (dropRing c) rgOff).ringLeft (dropRing c)).rd E.bypassState
      ((dropRing c - 4096) / 2) = 1) := by
    rw [circuitOf_dropRing, hdown]
    exact fun h => by cases h.2
  simp only [exec, execLightLost, if_neg hpass, hlock', if_true, if_neg hno]

theorem exec_ringLockLost_drop {t : Time} (hex : (s.links.bypasses.get? c).isSome = true)
    (hlock : s.rd E.ringState (dropRing c) = rgLocked) :
    exec (.ringLockLost t (dropRing c)) s = .next (((s.begin t).wr E.ringState (dropRing c) rgSweep).ringLeft (dropRing c)) := by
  have hpass : ¬((!(s.begin t).ringExists (dropRing c)) = true ∨ (s.begin t).rd E.ringState (dropRing c) ≠ rgLocked) := by
    rw [State.ringExists_dropRing (s := s.begin t) hex]
    rintro (h | h)
    · cases h
    · exact h hlock
  simp only [exec, execRingLockLost, if_neg hpass, if_neg (dropRing_ge c)]

/-- A ring of a circuit shown LOCKED, and its loop's failures cleared. -/
def State.lockRing (s : State) (r : Nat) : State := (s.wr E.ringState r rgLocked).setLoop r { s.loop r with fails := 0, cands := [] }

/-- The add ring of a circuit starts once its drop ring is LOCKED (R352). -/
def State.startAdd (s : State) (r : Nat) : State :=
  if r % 2 = 0 ∧ s.rd E.ringState (r + 1) = rgOff then s.wr E.ringState (r + 1) rgSweep else s

/-- A circuit whose two rings are LOCKED is UP (R352). -/
def State.raiseCircuit (s : State) (c : Nat) : State :=
  if s.rd E.ringState (dropRing c) = rgLocked ∧ s.rd E.ringState (dropRing c + 1) = rgLocked ∧ s.rd E.bypassState c ≠ 2 then
    (s.wr E.bypassState c 2).raise 0x4009 0 (c / 64) [.v 16 (c / 64), .v 16 (c % 64)]
  else s

theorem State.ringLocked_drop (s : State) (c : Nat) : s.ringLocked (dropRing c) = ((s.lockRing (dropRing c)).startAdd (dropRing c)).raiseCircuit c := by
  simp only [State.ringLocked, if_neg (dropRing_ge c), circuitOf_dropRing]
  rfl

theorem State.ringLocked_add (s : State) (c : Nat) : s.ringLocked (dropRing c + 1) = (s.lockRing (dropRing c + 1)).raiseCircuit c := by
  have hge : ¬dropRing c + 1 < 4096 := fun h => dropRing_ge c (by omega)
  have hodd : ¬(dropRing c + 1) % 2 = 0 := by
    have := dropRing_even c
    omega
  simp only [State.ringLocked, if_neg hge, circuitOf_addRing, hodd, false_and, if_false]
  rfl

theorem State.rd_raiseCircuit_ring (s : State) {c r : Nat} (hc : c < 512) (hr : r < 2 ^ 24) :
    (s.raiseCircuit c).rd E.ringState r = s.rd E.ringState r := by
  unfold State.raiseCircuit
  split
  · rw [State.rd_raise_ring _ _ _ _ _ (Or.inl rfl) hr, State.rd_wr_other _ _ (elKey_ne_of_entry_ne (by decide) hr (by omega))]
  · rfl

/-- Both rings of a circuit are LOCKED: it is UP. -/
theorem State.raiseCircuit_locked (hc : c < 512) (hdrop : s.rd E.ringState (dropRing c) = rgLocked)
    (hadd : s.rd E.ringState (dropRing c + 1) = rgLocked) : (s.raiseCircuit c).rd E.bypassState c = 2 := by
  unfold State.raiseCircuit
  split
  · rw [State.rd_raise_ring _ _ _ _ _ (Or.inr rfl) (by omega), State.rd_wr_same]
  · next h => exact not_not.mp fun h' => h ⟨hdrop, hadd, h'⟩

theorem State.rd_lockRing_same (s : State) (r : Nat) : (s.lockRing r).rd E.ringState r = rgLocked := by
  rw [State.lockRing, State.rd_setLoop, State.rd_wr_same]

theorem State.rd_lockRing_other (s : State) {r q : Nat} (hr : r < 2 ^ 24) (hq : q < 2 ^ 24) (h : q ≠ r) :
    (s.lockRing r).rd E.ringState q = s.rd E.ringState q := by
  rw [State.lockRing, State.rd_setLoop, State.rd_wr_other s _ (ringKey_ne hq hr h)]

theorem State.dropRing_locks (s : State) (hc : c < 512) : (s.ringLocked (dropRing c)).rd E.ringState (dropRing c) = rgLocked ∧
    (s.rd E.ringState (dropRing c + 1) = rgOff → (s.ringLocked (dropRing c)).rd E.ringState (dropRing c + 1) = rgSweep) ∧
    (s.rd E.ringState (dropRing c) = rgLocked → (s.ringLocked (dropRing c + 1)).rd E.bypassState c = 2) := by
  have hlt := dropRing_lt hc
  rw [State.ringLocked_drop, State.ringLocked_add, State.rd_raiseCircuit_ring _ hc (by omega), State.rd_raiseCircuit_ring _ hc hlt]
  refine ⟨?_, fun hoff => ?_, fun hlock => ?_⟩
  · unfold State.startAdd
    split
    · rw [State.rd_wr_other _ _ (ringKey_ne (by omega) hlt (by omega)), State.rd_lockRing_same]
    · exact State.rd_lockRing_same ..
  · have hadd : (s.lockRing (dropRing c)).rd E.ringState (dropRing c + 1) = rgOff := by
      rw [State.rd_lockRing_other s (by omega) hlt (by omega), hoff]
    rw [State.startAdd, if_pos ⟨dropRing_even c, hadd⟩, State.rd_wr_same]
  · refine State.raiseCircuit_locked hc ?_ (State.rd_lockRing_same ..)
    rw [State.rd_lockRing_other s hlt (by omega) (by omega), hlock]

end

/-- Settles O46: the channels of a slot, narrowing, rings calibrated, circuits made and deleted, the rings of a circuit and its
loss. -/
theorem calibrationAndBypass : Obligations.CalibrationAndBypass := by
  refine ⟨?slot, fun c s hc _ htx hrx => s.calChannel_locked hc htx hrx, fun t port x s hx => exec_narrow hx,
    fun t c p q i j s hc htx hrx => exec_calDone hc htx hrx, ?bypass, ?rings, ?loss⟩
  case slot =>
    intro t s w chans start skip u v hbase hperiod hslot hpass
    have hexec := exec_calSlotStart (t := t) (s := s) (w := w) (v := v) (skip := skip) (u := u) rfl hbase hperiod rfl hslot hpass rfl rfl rfl rfl
    have hbump : v.links.cal = u.links.cal := by
      rw [show v = u.bump E.calSkipped 0 skip.length from rfl, State.bump, State.wr_links]
    have hcal : v.links.cal = w.links.cal := hbump.trans (State.cal_calChannels ..)
    refine ⟨fun h0 => ?_, fun h0 htold => ?_, fun h0 htold => ?_⟩
    · exact hexec.trans (congrArg _ (if_pos (List.isEmpty_iff.mpr h0)))
    · rw [← hcal] at htold
      exact hexec.trans (congrArg _ ((if_neg fun h => h0 (List.isEmpty_iff.mp h)).trans (if_pos htold)))
    · rw [← hcal] at htold
      exact hexec.trans (congrArg _ ((if_neg fun h => h0 (List.isEmpty_iff.mp h)).trans (if_neg htold)))
  case bypass =>
    intro a v s ht hr n c
    refine ⟨fun hop => ?_, fun hop => ?_⟩
    · obtain ⟨u, hexec, hmap, hstate⟩ := exec_bypassCreate ht hr hop
      refine ⟨u, hexec, ?_, hstate, fun k hk => ?_⟩
      · rw [hmap]
        exact Tab.get_set_same ..
      · rw [hmap]
        exact Tab.get_set_other _ _ hk
    · obtain ⟨u, hexec, hmap, hstate⟩ := exec_bypassDelete ht hr hop
      refine ⟨u, hexec, ?_, hstate, fun k hk => ?_⟩
      · rw [hmap]
        exact Tab.get_del_same ..
      · rw [hmap]
        exact Tab.get_del_other _ hk
  case rings =>
    intro t c s hc hex
    refine ⟨fun hlit hoff => exec_lightPresent_drop hex hlit hoff hc, fun hlock hup => ⟨?_, ?_⟩, s.dropRing_locks hc⟩
    · exact ⟨_, exec_lightLost_drop hc hex hlock hup, State.dropRing_left (s := s.begin t) hc hup rgOff⟩
    · exact ⟨_, exec_ringLockLost_drop hex hlock, State.dropRing_left (s := s.begin t) hc hup rgSweep⟩
  case loss =>
    intro t c x s hc hup w
    have hcap : w.rd E.engineCap (c / 64) = s.rd E.engineCap (c / 64) :=
      State.rd_wr_other _ _ (elKey_ne_of_entry_ne (by decide) (by omega) (by omega))
    have hpass : ¬(512 ≤ c ∨ (s.begin t).rd E.bypassState c ≠ 2) := by
      rintro (h | h)
      · omega
      · exact h hup
    rw [← hcap]
    exact next_congr (if_neg hpass)

end Sys2Proof.Machine
end

section
/-!
The refutation about keepers and peers (R430, R431): a takeover that clears an element of DIE_STATE.
-/
namespace Sys2Proof.Machine

/-! A takeover in a state whose graph stands in a slot past the dictionary's elements. The statement speaks of every state; no rule
bounds the number of a graph's slot there, and the entry of a slot past 2^24 is another entry's element. -/

/-- The number of a slot whose GRAPH_ID is the element of DIE_STATE that shows K0. -/
def straySlot : Nat := (E.dieState - E.graphId) * 2 ^ 24 + 18

/-- A graph without nodes. -/
def strayGraph : Graph := ⟨0, 0, 0, false, 0, 0, [], [], [], [], 0, false, none, none, [], [], [], [], [], false, [], 0⟩

/-- The removal of that graph, which this device leads and has alone to vote on. -/
def strayLed : Led :=
  { xid := 0, kind := 6, subject := 0, record := toBytes 4 0 ++ toBytes 4 2, devices := [0], votes := [(0, 0)], since := 0 }

def strayState : State :=
  { ({} : State) with
    graphs := { ({} : State).graphs with slots := [(straySlot, strayGraph)] }
    coll := { ({} : State).coll with leds := [strayLed] } }

/-- The entries that a commanded switch of keepers writes before the exchanges are released. -/
def State.switchShown (s : State) : State :=
  let new := 1 - s.keeper
  ((((((s.wr E.keeperActive 0 new).wr E.dieState (18 + new) 0).wr E.domainState (18 + new) 1).wr E.domainState (18 + s.keeper) 0).wr
    E.dieState (18 + s.keeper) 2).wr E.standbyState 0 2)

/-- The old keeper shows what the release of the exchanges leaves. -/
theorem State.rd_takeover_switch (s : State) (why : Nat) {d : Nat} (hd : d < 2 ^ 24) :
    (s.takeover 3 why).rd E.dieState d = s.switchShown.releaseLeds.rd E.dieState d := by
  have hother : ∀ {e}, e ≠ E.dieState → elKey E.dieState d ≠ elKey e 0 := fun he => elKey_ne_of_entry_ne he.symm hd (by decide)
  simp only [State.takeover, if_true]
  rw [State.rd_raise_of_entry _ _ _ _ _ hd (by decide), State.rd_wr_other _ _ (hother (by decide)),
    State.rd_bump_other _ _ (hother (by decide))]
  rfl

theorem strayState_switch : strayState.switchShown.releaseLeds.rd E.dieState 18 = 0 := by rfl

/-- Refutes O50: a keeper switched from is to show STANDBY in DIE_STATE, but a state whose exchange to remove a graph is committed by
the takeover, and whose graph stands in `straySlot`, has that element cleared with the graph's GRAPH_ID. -/
theorem not_diesKeepersAndPeers : ¬ Obligations.DiesKeepersAndPeers := by
  unfold Obligations.DiesKeepersAndPeers
  rintro ⟨-, -, -, htakeover, -⟩
  obtain ⟨-, -, -, -, -, -, -, hold, -⟩ := htakeover 3 0 strayState (by decide)
  have hzero : (strayState.takeover 3 0).rd E.dieState (18 + strayState.keeper) = 0 :=
    (strayState.rd_takeover_switch 0 (by decide)).trans strayState_switch
  rw [hzero] at hold
  cases hold

end Sys2Proof.Machine
end

section
/-!
Queries answered as they are read (R475), and the proof about parity groups and rebuilds (R433-R439).
-/
namespace Sys2Proof.Machine

/-! A query's entry holds its record, and a read of it is answered then (R475). -/

theorem queryView_held {w v : Nat} (ans : Nat → Nat) (hv : v < 2 ^ w) : queryView w (2 ^ w + v) ans = ans v := by
  rw [queryView, if_neg (by omega), Nat.add_mod_left, Nat.mod_eq_of_lt hv]

/-- A query written: its entry holds it, nothing else changes, and every later read is answered from the state then. -/
theorem State.query_written {s : State} {a : Access} {e len w v : Nat} {own : Bool} {ans : Nat → State → Nat}
    (ht : s.Takes a e 0 len 0 own) (hv : v < 2 ^ w) (hview : ∀ u : State, u.view e 0 = queryView w (u.rd e 0) (fun v => ans v u)) :
    ∃ u, (Host.Outcome.next (s.writeOne a e 0 len 0 own (fun _ => .ok) (fun s => s.wr e 0 (2 ^ w + v))) : Host.Outcome State Fault Refusal)
        = .next u ∧ u.out = [.item stOk 0] ∧
      SameBut [(e, 0), (E.commitLast, 0), (E.domainState, 18 + s.keeper)] s u ∧ u.Answers e (ans v) := by
  refine ⟨_, congrArg _ (State.writeOne_ok ht rfl), ?_, ?_, fun u hu => ?_⟩
  · rw [State.answerItem_out, State.wr_out, State.commitAt_out, List.nil_append]
  · exact (s.sameBut_wr_commitAt a e 0 (2 ^ w + v)).congr fun _ _ => State.rd_answerItem ..
  · rw [State.rd_answerItem, State.rd_wr_same] at hu
    rw [hview, hu, queryView_held _ hv]

/-! Parity groups (R433-R438). -/

/-- PARITY_CREATE's own rule. -/
def parityRule (a : Access) (v : Nat) (s : State) : Verdict :=
  let p := parityOf v
  let code := if parityMalformed v then 0x01
    else match s.graphFor p with
      | some g => if s.leads a g.op then (if (p.pgei :: p.data).contains s.gei then 0 else 0x05) else 0x02
      | none => if s.gei = p.pgei then 0 else 0x05
  if code = 0 then .ok else .refused E.parityStatus code

theorem parityRule_malformed {a : Access} {v : Nat} {s : State} (h : parityMalformed v = true) :
    parityRule a v s = .refused E.parityStatus 1 := by
  simp only [parityRule, h, if_true]
  rfl

theorem parityRule_ok {a : Access} {v : Nat} {s : State} {g : Graph} (h : parityMalformed v = false) (hg : s.graphFor (parityOf v) = some g)
    (hlead : s.leads a g.op = true) (hmem : ((parityOf v).pgei :: (parityOf v).data).contains s.gei = true) : parityRule a v s = .ok := by
  simp only [parityRule, h, hg, hlead, hmem, Bool.false_eq_true, if_false, if_true]

theorem parityMsg_taken {s : State} {p : Peer} {b : List Byte} {kind : Nat} {act : State → Parity → Nat → State} {g : Parity}
    (hp : s.PeerTaken p 11 b) (hlen : b.length = 8) (hkind : field b 0 1 = kind)
    (hg : s.graphs.parity.get? (parityKey (field b 2 2) (field b 1 1)) = some g) (ha : g.admitted = true) :
    s.parityMsg p b kind act = act s g (field b 4 4) := by
  simp only [State.parityMsg, hkind, ne_eq, not_true, if_false, State.peerAccept_of_taken hp (beq_iff_eq.mpr hlen), hg, ha, if_true]

theorem parityAnswer_none {s : State} {v : Nat} (h : s.graphs.parity.get? (parityKey (bits v 127 112) (bits v 111 104)) = none) :
    parityAnswer v s = pack [(16, bits v 127 112), (8, bits v 111 104), (104, 0)] := by
  simp only [parityAnswer, h]

theorem parityAnswer_held {s : State} {v : Nat} {p : Parity}
    (h : s.graphs.parity.get? (parityKey (bits v 127 112) (bits v 111 104)) = some p) (ha : p.admitted = false) :
    parityAnswer v s = pack [(16, bits v 127 112), (8, bits v 111 104), (104, 0)] := by
  simp only [parityAnswer, h, ha, Bool.not_false, if_true]

theorem parityAnswer_some {s : State} {v : Nat} {p : Parity}
    (h : s.graphs.parity.get? (parityKey (bits v 127 112) (bits v 111 104)) = some p) (ha : p.admitted = true) :
    parityAnswer v s = pack [(16, bits v 127 112), (8, bits v 111 104), (4, p.state + 1), (2, if p.pgei = s.gei then 2 else 1), (2, 0),
      (32, p.committed.getD 0), (32, p.pages), (4, if p.pgei = s.gei then 0 else p.data.idxOf s.gei), (28, 0)] := by
  simp only [parityAnswer, h, ha, Bool.not_true, Bool.false_eq_true, if_false]

/-- Every answer begins with the job and group it was asked for. -/
theorem bits_jobGroup (v : Nat) (post : List (Nat × Nat)) (hpost : (post.map Prod.fst).sum = 104) :
    bits (pack ((16, bits v 127 112) :: (8, bits v 111 104) :: post)) 127 104 = bits v 127 104 := by
  have hlt : pack post < 2 ^ 104 := hpost ▸ pack_lt post
  rw [pack_cons, pack_cons, List.map_cons, List.sum_cons, hpost]
  simp only [bits_div]
  norm_num at *
  omega

theorem parityAnswer_spec (v : Nat) (w : State) : bits (parityAnswer v w) 127 104 = bits v 127 104 ∧
    (w.graphs.parity.get? (parityKey (bits v 127 112) (bits v 111 104)) = none → bits (parityAnswer v w) 103 0 = 0) ∧
    ∀ p, w.graphs.parity.get? (parityKey (bits v 127 112) (bits v 111 104)) = some p → p.admitted = true →
      bits (parityAnswer v w) 103 100 = (p.state + 1) % 16 ∧
      bits (parityAnswer v w) 99 98 = (if p.pgei = w.gei then 2 else 1) ∧
      bits (parityAnswer v w) 95 64 = (p.committed.getD 0) % 2 ^ 32 ∧
      bits (parityAnswer v w) 63 32 = p.pages % 2 ^ 32 := by
  refine ⟨?_, fun h => ?_, fun p h ha => ?_⟩
  · cases h : w.graphs.parity.get? (parityKey (bits v 127 112) (bits v 111 104)) with
    | none => rw [parityAnswer_none h]; exact bits_jobGroup v _ rfl
    | some p =>
      cases ha : p.admitted with
      | false => rw [parityAnswer_held h ha]; exact bits_jobGroup v _ rfl
      | true => rw [parityAnswer_some h ha]; exact bits_jobGroup v _ rfl
  · rw [parityAnswer_none h]
    exact bits_pack [(16, _), (8, _)] 104 0 [] rfl rfl
  · rw [parityAnswer_some h ha]
    refine ⟨bits_pack [(16, _), (8, _)] 4 _ _ rfl rfl, (bits_pack [(16, _), (8, _), (4, _)] 2 _ _ rfl rfl).trans ?_,
      bits_pack [(16, _), (8, _), (4, _), (2, _), (2, _)] 32 _ _ rfl rfl,
      bits_pack [(16, _), (8, _), (4, _), (2, _), (2, _), (32, _)] 32 _ _ rfl rfl⟩
    split <;> rfl

/-! Stripes restored and filled (R438, R439). -/

theorem Tensor.stripe_putStripe_same (t : Tensor) (k : Nat) (v : Stripe) : (t.putStripe k v).stripe k = v := by
  unfold Tensor.putStripe Tensor.stripe
  dsimp only
  split
  · next h => rw [Tab.getD, Tab.get_del_same, h]; rfl
  · exact Tab.getD_set_same ..

theorem Tensor.stripe_putStripe_other (t : Tensor) {k j : Nat} (v : Stripe) (h : j ≠ k) : (t.putStripe k v).stripe j = t.stripe j := by
  unfold Tensor.putStripe Tensor.stripe
  dsimp only
  split
  · rw [Tab.getD, Tab.get_del_other _ h]; rfl
  · rw [Tab.getD_set_other _ _ _ h]; rfl

theorem Stripe.cur_putCur (x : Stripe) (c : Copy) : (x.putCur c).cur = c := by
  cases hs : x.second with
  | true => simp only [Stripe.putCur, Stripe.cur, hs, if_true]
  | false => simp only [Stripe.putCur, Stripe.cur, hs, Bool.false_eq_true, if_false]

theorem State.tensor_setTensor (s : State) {t : Tensor} (ha : t.admitted = true) : (s.setTensor t).tensor? t.handle = some t := by
  have hget : (s.setTensor t).graphs.tensors.get? t.handle = some t := Tab.get_set_same ..
  simp only [State.tensor?, hget, ha, if_true]

theorem State.tensor_admitted {s : State} {h : Nat} {t : Tensor} (ht : s.tensor? h = some t) : t.admitted = true := by
  unfold State.tensor? at ht
  split at ht
  · split at ht
    · next ha => rw [← Option.some.inj ht]; exact ha
    · cases ht
  · cases ht

theorem State.restoreStripe_spec {s : State} {h k ver : Nat} (x : List Nat) {y : Tensor} (hy : s.tensor? h = some y) (hh : y.handle = h) :
    ∃ z, (s.restoreStripe h k ver x).tensor? h = some z ∧ z.version = ver ∧ (z.stripe k).lost = false ∧
      (z.stripe k).c0 = (z.stripe k).c1 ∧ (z.stripe k).c0.ver = ver ∧ (z.stripe k).c0.vals = x.take (y.present k) := by
  have ha : y.admitted = true := State.tensor_admitted hy
  obtain ⟨c, hc⟩ : ∃ c : Copy, c = { ver := ver, vals := x.take (y.present k) } := ⟨_, rfl⟩
  have hstripe := Tensor.stripe_putStripe_same { y with version := ver } k { c0 := c, c1 := c }
  have hrestore : s.restoreStripe h k ver x = s.setTensor (({ y with version := ver } : Tensor).putStripe k { c0 := c, c1 := c }) := by
    simp only [State.restoreStripe, hy, hc]
  refine ⟨({ y with version := ver } : Tensor).putStripe k { c0 := c, c1 := c }, ?_, rfl, ?_, ?_, ?_, ?_⟩
  · rw [hrestore, ← hh]
    exact State.tensor_setTensor s (t := ({ y with version := ver } : Tensor).putStripe k { c0 := c, c1 := c }) ha
  all_goals rw [hstripe, hc]
  · rfl

/-- The LOST stripes of a list filled with given copies. -/
def Tensor.fill (t : Tensor) (z : Nat → Copy) (ks : List Nat) : Tensor :=
  ks.foldl (fun (t : Tensor) k => t.putStripe k ((t.stripe k).putCur (z k))) t

theorem Tensor.fill_shape (z : Nat → Copy) (ks : List Nat) (t : Tensor) :
    (t.fill z ks).handle = t.handle ∧ (t.fill z ks).admitted = t.admitted := by
  induction ks generalizing t with
  | nil => exact ⟨rfl, rfl⟩
  | cons k r ih => exact ih _

theorem Tensor.cur_fill (z : Nat → Copy) (ks : List Nat) (t : Tensor) {k : Nat} (h : k ∈ ks ∨ (t.stripe k).cur = z k) :
    ((t.fill z ks).stripe k).cur = z k := by
  induction ks generalizing t with
  | nil => exact h.resolve_left List.not_mem_nil
  | cons j r ih =>
    refine ih _ ?_
    by_cases hj : k = j
    · subst hj
      exact Or.inr (by rw [Tensor.stripe_putStripe_same, Stripe.cur_putCur])
    · rcases h with h | h
      · exact Or.inl ((List.mem_cons.mp h).resolve_left hj)
      · exact Or.inr (by rw [Tensor.stripe_putStripe_other _ _ hj, h])

theorem State.markInexact_graphs (s : State) (h : Nat) : (s.markInexact h).graphs = s.graphs := by
  unfold State.markInexact
  split
  · split
    · rw [(State.raise_noted ..).graphs]
      rfl
    · rfl
  · rfl

theorem State.tensor_congr {s u : State} (h : u.graphs = s.graphs) (k : Nat) : u.tensor? k = s.tensor? k := by
  unfold State.tensor?
  rw [h]

theorem State.gei_commitAt (s : State) (a : Access) : (s.commitAt a).gei = s.gei :=
  s.rd_commitAt_of_entry a (by decide) (by decide) (by decide)

theorem State.heldStripes_commitAt (s : State) (a : Access) (t : Tensor) : (s.commitAt a).heldStripes t = s.heldStripes t := by
  unfold State.heldStripes State.holderOf State.ownerOf State.hsetOf State.ctxOf
  rw [State.gei_commitAt, State.commitAt_coll]

/-- What a LOST stripe is filled with. -/
def Tensor.zeroCopy (t : Tensor) (k : Nat) : Copy := { ver := t.version, vals := List.replicate (t.present k) 0 }

theorem exec_coarseFill {a : Access} {v : BitVec 128} {y : Tensor} {s : State}
    (ht : s.Takes a E.coarseFill 0 16 0 (s.ownsJob a (bits v.toNat 127 96 / 65536))) (hy : s.tensor? (bits v.toNat 127 96) = some y)
    (hh : y.handle = bits v.toNat 127 96) (hhalt : s.haltedFor (bits v.toNat 127 96) = true) :
    ∃ u, exec (.coarseFill a v) s = .next u ∧ ∀ k ∈ s.heldStripes y, bits v.toNat 95 64 ≤ k → k < bits v.toNat 95 64 + bits v.toNat 63 32 →
      (y.stripe k).lost = true → ∃ z, u.tensor? (bits v.toNat 127 96) = some z ∧ (z.stripe k).lost = false ∧
        (z.stripe k).cur.vals = List.replicate (y.present k) 0 := by
  have hy' : (s.commitAt a).tensor? (bits v.toNat 127 96) = some y := (State.tensor_congr (s.commitAt_graphs a) _).trans hy
  obtain ⟨ks, hks⟩ : ∃ ks, ks = (s.heldStripes y).filter (fun k => decide (bits v.toNat 95 64 ≤ k) &&
    decide (k < bits v.toNat 95 64 + bits v.toNat 63 32) && (y.stripe k).lost) := ⟨_, rfl⟩
  have hrule : ¬(((s.begin a.t).tensor? (bits v.toNat 127 96)).isNone = true ∨ (!(s.begin a.t).haltedFor (bits v.toNat 127 96)) = true) := by
    rw [show (s.begin a.t).tensor? (bits v.toNat 127 96) = some y from hy, show (s.begin a.t).haltedFor (bits v.toNat 127 96) = true from hhalt]
    rintro (h | h) <;> cases h
  refine ⟨_, next_congr (State.writeOne_ok ht (if_neg hrule)), fun k hk hlo hhi hlost => ?_⟩
  obtain ⟨hhandle, hadm⟩ := Tensor.fill_shape y.zeroCopy ks y
  refine ⟨y.fill y.zeroCopy ks, ?_, ?_, ?_⟩
  · have hfill : ((s.commitAt a).setTensor (y.fill y.zeroCopy ks)).tensor? (bits v.toNat 127 96) = some (y.fill y.zeroCopy ks) := by
      rw [← hh, ← hhandle]
      exact State.tensor_setTensor _ (hadm.trans (State.tensor_admitted hy))
    refine Eq.trans (State.tensor_congr ?_ _) hfill
    simp only [hy', State.heldStripes_commitAt, ← hks]
    split
    · rfl
    · exact State.markInexact_graphs ..
  all_goals
    have hcur : ((y.fill y.zeroCopy ks).stripe k).cur = y.zeroCopy k := by
      refine Tensor.cur_fill _ _ _ (Or.inl ?_)
      rw [hks]
      exact List.mem_filter.mpr ⟨hk, by simp [hlo, hhi, hlost]⟩
  · rw [Stripe.lost, hcur]
    rfl
  · rw [hcur]
    rfl

/-- Settles O51: the commands and messages of parity groups are the model's; a query is answered as it is read, and what a stripe
restored or filled holds is read off its copies. -/
theorem parityGroupsAndRebuilds : Obligations.ParityGroupsAndRebuilds := by
  refine ⟨?create, ?delete, ?query, ?messages, ?wait, ?start, ?done, fun h k ver x y s hy hh => State.restoreStripe_spec x hy hh,
    fun a v y s => exec_coarseFill⟩
  case create =>
    intro a v g s p ht
    refine ⟨fun hbad => ?_, fun hgood hg hlead hmem => ?_⟩
    · have hrule : parityRule a v.toNat (s.begin a.t) = .refused E.parityStatus 1 := parityRule_malformed hbad
      refine ⟨_, next_congr (State.writeOne_refused ht hrule), ?_, ?_⟩
      · rw [Verdict.record_refused (by decide)]
        rfl
      · rw [State.rd_answerItem, Verdict.record_refused (by decide), State.rd_wr_same]
    · have hrule : parityRule a v.toNat (s.begin a.t) = .ok := parityRule_ok hgood hg hlead hmem
      exact next_congr (State.writeOne_ok ht hrule)
  case delete =>
    intro a v p s r key ht hg
    have hg' : (s.commitAt a).graphs.parity.get? key = some p := by
      rw [State.commitAt_graphs]
      exact hg
    have hrule : ¬((s.begin a.t).graphs.parity.get? key).isNone = true := by
      rw [show (s.begin a.t).graphs.parity.get? key = some p from hg]
      exact Bool.false_ne_true
    refine (next_congr (State.writeOne_ok ht (if_neg hrule))).trans ?_
    simp only [r, key] at hg' ⊢
    simp only [hg']
  case query =>
    intro a v s ht key
    exact ⟨State.query_written ht v.isLt fun _ => rfl, parityAnswer_spec v.toNat⟩
  case messages =>
    intro t p b g s hp hlen hg ha ver
    have hmsg : ∀ {kind act}, field b 0 1 = kind → (s.begin t).parityMsg p b kind act = act (s.begin t) g ver := fun hkind =>
      parityMsg_taken (s := s.begin t) hp hlen hkind hg ha
    refine ⟨fun hkind hsrc hround hstate => ?_, fun hkind hgei hmem htold hstate => ⟨fun hpend hfull => ?_, fun hno => ?_⟩,
      fun hkind hgei hmem => ?_⟩
    · refine next_congr ((hmsg hkind).trans ((if_pos ⟨hsrc, hround, hstate⟩).trans ?_))
      rw [hround]
    · have hpass : ¬(g.pgei ≠ (s.begin t).gei ∨ (!g.data.contains p.src) = true ∨ g.told = some ver) := by
        rw [hmem]
        rintro (h | h | h)
        · exact h hgei
        · cases h
        · exact htold h
      refine ⟨_, next_congr ((hmsg hkind).trans ((if_neg hpass).trans (if_pos ⟨hpend, hfull⟩))), rfl, rfl, rfl, if_neg hstate⟩
    · have hpass : ¬(g.pgei ≠ (s.begin t).gei ∨ (!g.data.contains p.src) = true ∨ g.told = some ver) := by
        rw [hmem]
        rintro (h | h | h)
        · exact h hgei
        · cases h
        · exact htold h
      have hnot : ¬(g.pending.isSome = true ∧ g.full = true) := by
        rintro ⟨h1, h2⟩
        rcases hno with h | h
        · rw [h] at h1
          cases h1
        · rw [h] at h2
          cases h2
      exact ⟨_, next_congr ((hmsg hkind).trans ((if_neg hpass).trans ((if_neg hnot).trans (if_neg hstate)))), rfl, rfl, rfl⟩
    · exact next_congr ((hmsg hkind).trans (if_pos ⟨hgei, hmem⟩))
  case wait =>
    intro t j k ver g s hg hround ha hstate hdone hwaived hlate
    have hg' : (s.begin t).graphs.parity.get? (parityKey j k) = some g := hg
    have hall : g.admitted = true ∧ g.state ≠ 2 ∧ g.doneFor ≠ some ver ∧ g.waived ≠ some ver ∧
        g.storedAt + (s.begin t).rd E.parityWait 0 ≤ t := ⟨ha, hstate, hdone, hwaived, hlate⟩
    simp only [exec, execParityWaitExpiry, hg', hround, if_pos hall]
  case start =>
    intro a v vs halted p s ht hp
    have hp' : (s.commitAt a).graphs.parity.get? (parityKey (bits v.toNat 63 48) (bits v.toNat 47 40)) = some p := by
      rw [State.commitAt_graphs]
      exact hp
    refine ⟨fun hrule => ?_, fun hlen hver => ?_⟩
    · refine (next_congr (State.writeOne_ok ht hrule)).trans ?_
      simp only [hp']
    · have hrule : rebuildRule v.toNat vs halted (s.begin a.t) = .refused E.rebuildStatus 2 := by
        have hp'' : (s.begin a.t).graphs.parity.get? (parityKey (bits v.toNat 63 48) (bits v.toNat 47 40)) = some p := hp
        simp only [rebuildRule, hp'', if_neg (Nat.not_le.mpr hlen), if_pos (Or.inr (Or.inr hver) :
          (!p.admitted) = true ∨ p.pgei ≠ (s.begin a.t).gei ∨ p.committed ≠ some (bits v.toNat 31 0))]
      refine ⟨_, next_congr (State.writeOne_refused ht hrule), ?_, ?_⟩
      · rw [State.rd_answerItem, Verdict.record_refused (by decide), State.rd_wr_same]
      · rw [Verdict.record_refused (by decide)]
        rfl
  case done =>
    intro t ver l r s hr hcount
    have hr' : (s.begin t).graphs.rebuild = some r := hr
    have hhere : (r.count != 0) = true := bne_iff_ne.mpr hcount
    refine ⟨?_, fun hshort => ?_, fun hfull htarget => ?_⟩
    · simp only [exec, execRebuildDone, hr', hhere, if_true]
    · simp only [exec, execRebuildDone, hr', hhere, if_true, Bool.false_eq_true, if_false, if_pos hshort]
    · have htarget' : ¬r.target = (s.begin t).gei := htarget
      simp only [exec, execRebuildDone, hr', hhere, if_true, Bool.false_eq_true, if_false, if_neg (Nat.not_lt.mpr hfull), if_neg htarget']

end Sys2Proof.Machine
end

section
/-!
The jobs (R446-R456, R469): the pending queue, a retire and its end, and the queries.
-/
namespace Sys2Proof.Machine

/-! A table's entry set where neither the old nor the new one passes a test leaves what passes it. -/

theorem Tab.filter_set {α : Type} {p : Nat × α → Bool} {k : Nat} {v : α} (hv : p (k, v) = false) (m : Tab α)
    (hw : ∀ w, m.get? k = some w → p (k, w) = false) : (m.set k v).filter p = List.filter p m := by
  induction m with
  | nil => simp only [Tab.set, List.filter, hv]
  | cons x r ih =>
    obtain ⟨i, w⟩ := x
    unfold Tab.set
    cases hlt : Nat.blt k i with
    | true => simp only [cond_true, List.filter_cons_of_neg, hv, Bool.false_eq_true, not_false_eq_true]
    | false =>
      cases heq : Nat.beq i k with
      | true =>
        have hik : i = k := Nat.eq_of_beq_eq_true heq
        have hold : p (i, w) = false := hik ▸ hw w (by simp only [Tab.get?, heq, cond_true])
        simp only [cond_true, cond_false, List.filter, hv, hold]
      | false =>
        have hrest := ih fun w' hw' => hw w' (by simpa only [Tab.get?, heq, cond_false] using hw')
        simp only [cond_false, List.filter, hrest]

theorem Tab.any_set {α : Type} {p : Nat × α → Bool} {k : Nat} {v : α} (hv : p (k, v) = false) (m : Tab α)
    (hw : ∀ w, m.get? k = some w → p (k, w) = false) : (m.set k v).any p = List.any m p := by
  have hfilter : ∀ l : Tab α, List.any l p = (l.filter p).any p := fun l => by simp only [List.any_filter, Bool.and_self]
  rw [hfilter, Tab.filter_set hv m hw, ← hfilter]

/-! The jobs' table (R446-R450). -/

theorem State.job_setJob (s : State) (tag : Nat) (j : Job) : (s.setJob tag j).job tag = j := Tab.getD_set_same ..

theorem State.job_of_get {s : State} {tag : Nat} {j : Job} (h : s.jobs.get? tag = some j) : s.job tag = j := by
  rw [State.job, Tab.getD, h, Option.getD_some]

theorem job_congr {s t : State} (h : t.jobs = s.jobs) (tag : Nat) : t.job tag = s.job tag := by rw [State.job, State.job, h]

theorem State.jobs_raise (s : State) (code sev src : Nat) (ctx : List Item) : (s.raise code sev src ctx).jobs = s.jobs := by
  rw [(s.raise_noted code sev src ctx).eq]

theorem State.starts_raise (s : State) (code sev src : Nat) (ctx : List Item) : (s.raise code sev src ctx).starts = s.starts := by
  rw [(s.raise_noted code sev src ctx).eq]

/-- A job that is not RETIRING before nor after a change leaves the test for one that is. -/
theorem State.retiringAny_setJob {s : State} {tag : Nat} {j : Job} (hold : (s.job tag).state ≠ .retiring) (hnew : j.state ≠ .retiring) :
    (s.setJob tag j).retiringAny = s.retiringAny :=
  Tab.any_set (p := fun x : Nat × Job => x.2.state == .retiring) (beq_false_of_ne hnew) s.jobs fun _ hw =>
    beq_false_of_ne fun h => hold (State.job_of_get hw ▸ h)

theorem State.holders_setJob {s : State} {tag : Nat} {j : Job} (hold : (s.job tag).state = .free ∨ (s.job tag).state = .quarantine)
    (hnew : j.state = .pending) : (s.setJob tag j).holders = s.holders := by
  refine Tab.filter_set (by rw [hnew]; rfl) s.jobs fun w hw => ?_
  rw [State.job_of_get hw] at hold
  obtain h | h := hold <;> rw [h] <;> rfl

theorem State.quotasFree_congr {s t : State} (hh : t.holders = s.holders) (hn : t.net = s.net) (hc : t.quotaTotals = s.quotaTotals) :
    t.quotasFree = s.quotasFree := by
  have htab : t.tablesOf 0 = s.tablesOf 0 := by rw [State.tablesOf, State.tablesOf, hn]
  rw [State.quotasFree, State.quotasFree, hh, htab, hc]

theorem State.quotaTotals_congr {s t : State} (h : t.regs = s.regs) : t.quotaTotals = s.quotaTotals := by
  have hrd : ∀ e el, t.rd e el = s.rd e el := fun _ _ => rd_congr h _ _
  have hup : t.stacksUp = s.stacksUp := by simp only [State.stacksUp, State.stackUp, hrd]
  have hpool : t.reservePool = s.reservePool := by simp only [State.reservePool, State.quires, State.quireUp, State.stackUp, hrd]
  rw [State.quotaTotals, State.quotaTotals, hup, hpool, hrd, hrd]

theorem bits_mod_two_pow {n hi : Nat} (h : hi < n) (v lo : Nat) : bits (v % 2 ^ n) hi lo = bits v hi lo := by
  rw [bits_div, bits_div]
  obtain hlo | hlo := Nat.lt_or_ge hi lo
  · rw [Nat.sub_eq_zero_of_le hlo, Nat.pow_zero, Nat.mod_one, Nat.mod_one]
  · have hsplit : 2 ^ n = 2 ^ lo * 2 ^ (n - lo) := by rw [← Nat.pow_add, Nat.add_sub_cancel' (by omega)]
    rw [hsplit, Nat.mod_mul_right_div_self, Nat.mod_mod_of_dvd _ (pow_dvd_pow 2 (by omega))]

/-- A record of 64 bytes keeps its quotas. -/
theorem quotasFit_ofNat {n : Nat} (hn : 512 ≤ n) (v : Nat) (l : List Nat) : quotasFit (BitVec.ofNat n v).toNat l = quotasFit v l := by
  have hfields : ∀ x ∈ quotaFields, x.1 < 512 := by decide
  have hquotas : quotasOf (v % 2 ^ n) = quotasOf v :=
    List.map_congr_left fun x hx => bits_mod_two_pow (Nat.lt_of_lt_of_le (hfields x hx) hn) v x.2
  rw [quotasFit, quotasFit, BitVec.toNat_ofNat, hquotas]

/-! The pending queue (R448, R450, R539). -/

theorem State.evalStarts_stays {s : State} {tag : Nat} {r : List Nat} (hs : s.starts = tag :: r)
    (h : s.power.brace.isSome = true ∨ s.retiringAny = true ∨ (!quotasFit (s.job tag).record.toNat s.quotasFree) = true) (n : Nat) :
    s.evalStarts (n + 1) = s := by
  simp only [State.evalStarts, hs, if_pos h]

theorem State.evalStarts_admits {s : State} {tag : Nat} {r : List Nat} (hs : s.starts = tag :: r) (hb : s.power.brace = none)
    (hr : s.retiringAny = false) (hq : quotasFit (s.job tag).record.toNat s.quotasFree = true) (n : Nat) :
    s.evalStarts (n + 1) = (s.startJob tag).evalStarts n := by
  simp only [State.evalStarts, hs, hb, hr, hq, Option.isSome_none, Bool.not_true, Bool.false_eq_true, or_self, if_false]

theorem State.evalStarts_none {s : State} (hs : s.starts = []) (n : Nat) : s.evalStarts n = s := by
  cases n with
  | zero => rfl
  | succ n => simp only [State.evalStarts, hs]

theorem State.starts_startJob (s : State) (tag : Nat) : (s.startJob tag).starts = s.starts.filter (fun x => x != tag) :=
  State.starts_raise ..

theorem State.job_startJob_same (s : State) (tag : Nat) :
    (s.startJob tag).job tag = { s.job tag with state := .active, status := 0, since := s.now } :=
  (job_congr (State.jobs_raise ..) tag).trans (State.job_setJob ..)

theorem State.job_startJob_other (s : State) {tag k : Nat} (h : k ≠ tag) : (s.startJob tag).job k = s.job k :=
  (job_congr (State.jobs_raise ..) k).trans (Tab.getD_set_other _ _ _ h)

theorem State.startJob_only (s : State) (tag : Nat) : OnlyEntries noteEntries s (s.startJob tag) := by
  unfold State.startJob
  refine OnlyEntries.raise ?_ (List.Subset.refl _) _ _ _ _
  exact OnlyEntries.of_regs rfl

/-- The queue's evaluation changes the jobs that wait in it, and notes. -/
theorem State.evalStarts_leaves {tag : Nat} (n : Nat) {s : State} (h : tag ∉ s.starts) :
    (s.evalStarts n).job tag = s.job tag ∧ OnlyEntries noteEntries s (s.evalStarts n) := by
  induction n generalizing s with
  | zero => exact ⟨rfl, OnlyEntries.refl _ s⟩
  | succ n ih =>
    unfold State.evalStarts
    split
    · exact ⟨rfl, OnlyEntries.refl _ s⟩
    · next k r hs =>
      split
      · exact ⟨rfl, OnlyEntries.refl _ s⟩
      · have hne : tag ≠ k := fun e => h (hs ▸ e ▸ List.mem_cons_self)
        have hout : tag ∉ (s.startJob k).starts := by
          rw [State.starts_startJob]
          exact fun hm => h (List.mem_of_mem_filter hm)
        obtain ⟨hjob, honly⟩ := ih hout
        exact ⟨hjob.trans (State.job_startJob_other s hne), (s.startJob_only k).trans honly⟩

/-- A start that waits in the queue. -/
def State.queuedJob (s : State) (v : Nat) : Job :=
  { state := .pending, gen := bits v 495 488, record := BitVec.ofNat 512 v, status := 4, since := s.now, old := (s.job (bits v 511 496)).old }

/-- A start that has joined the queue. -/
def State.joinStart (v : Nat) (s : State) : State :=
  let t := s.setJob (bits v 511 496) (s.queuedJob v)
  { t with starts := t.starts ++ [bits v 511 496] }

theorem State.job_joinStart (v : Nat) (s : State) : (State.joinStart v s).job (bits v 511 496) = s.queuedJob v :=
  State.job_setJob s (bits v 511 496) (s.queuedJob v)

theorem State.takeStart_admitted {v : Nat} {s : State} (h : (((State.joinStart v s).evalStarts 65).job (bits v 511 496)).state ≠ .pending) :
    State.takeStart v s = (State.joinStart v s).evalStarts 65 := if_pos h

theorem State.takeStart_waits {v : Nat} {s : State} (h : (((State.joinStart v s).evalStarts 65).job (bits v 511 496)).state = .pending) :
    (State.takeStart v s).jobs = ((State.joinStart v s).evalStarts 65).jobs ∧ (State.takeStart v s).starts = ((State.joinStart v s).evalStarts 65).starts := by
  have htake : State.takeStart v s = _ := if_neg (not_not_intro h)
  rw [htake]
  exact ⟨State.jobs_raise .., State.starts_raise ..⟩

section
variable {v : Nat} {s : State} (hstate : (s.job (bits v 511 496)).state = .free ∨ (s.job (bits v 511 496)).state = .quarantine)
include hstate

theorem State.retiringAny_joinStart : (State.joinStart v s).retiringAny = s.retiringAny := by
  refine State.retiringAny_setJob (j := s.queuedJob v) (fun h => ?_) (by exact fun h => JobState.noConfusion h)
  rw [h] at hstate
  revert hstate
  decide

theorem State.quotasFit_joinStart : quotasFit ((State.joinStart v s).job (bits v 511 496)).record.toNat (State.joinStart v s).quotasFree
    = quotasFit v s.quotasFree := by
  have hfree : (State.joinStart v s).quotasFree = s.quotasFree :=
    State.quotasFree_congr (State.holders_setJob (j := s.queuedJob v) hstate rfl) rfl (State.quotaTotals_congr rfl)
  rw [hfree, State.job_joinStart]
  exact quotasFit_ofNat (Nat.le_refl _) v _

theorem State.takeStart_admits (hnone : s.starts = []) (hb : s.power.brace = none) (hr : s.retiringAny = false)
    (hq : quotasFit v s.quotasFree = true) :
    ((State.takeStart v s).job (bits v 511 496)).state = .active ∧ ((State.takeStart v s).job (bits v 511 496)).gen = bits v 495 488 ∧
      ((State.takeStart v s).job (bits v 511 496)).status = 0 ∧ (State.takeStart v s).starts = [] := by
  have hqueue : (State.joinStart v s).starts = [bits v 511 496] := congrArg (· ++ [bits v 511 496]) hnone
  have hempty : ((State.joinStart v s).startJob (bits v 511 496)).starts = [] := by
    rw [State.starts_startJob, hqueue, List.filter_cons_of_neg (by simp), List.filter_nil]
  have heval : (State.joinStart v s).evalStarts 65 = (State.joinStart v s).startJob (bits v 511 496) := by
    rw [State.evalStarts_admits hqueue hb ((State.retiringAny_joinStart hstate).trans hr) ((State.quotasFit_joinStart hstate).trans hq),
      State.evalStarts_none hempty]
  have hjob := State.job_startJob_same (State.joinStart v s) (bits v 511 496)
  have htake : State.takeStart v s = (State.joinStart v s).startJob (bits v 511 496) := by
    rw [State.takeStart_admitted (by rw [heval, hjob]; exact fun h => JobState.noConfusion h), heval]
  rw [htake, hjob, State.job_joinStart]
  exact ⟨rfl, rfl, rfl, hempty⟩

theorem State.takeStart_queued (h : s.power.brace.isSome = true ∨ s.retiringAny = true ∨ (s.starts = [] ∧ quotasFit v s.quotasFree = false)) :
    ((State.takeStart v s).job (bits v 511 496)).state = .pending ∧ ((State.takeStart v s).job (bits v 511 496)).status = 4 ∧
      (State.takeStart v s).starts = s.starts ++ [bits v 511 496] := by
  have heval : (State.joinStart v s).evalStarts 65 = State.joinStart v s := by
    have hqueue : (State.joinStart v s).starts = s.starts ++ [bits v 511 496] := rfl
    obtain h | h | ⟨hnone, hq⟩ := h
    · cases hs : s.starts with
      | nil => exact State.evalStarts_stays (hqueue.trans (by rw [hs]; rfl)) (Or.inl h) _
      | cons k r => exact State.evalStarts_stays (hqueue.trans (by rw [hs]; rfl)) (Or.inl h) _
    · have hr := (State.retiringAny_joinStart hstate).trans h
      cases hs : s.starts with
      | nil => exact State.evalStarts_stays (hqueue.trans (by rw [hs]; rfl)) (Or.inr (Or.inl hr)) _
      | cons k r => exact State.evalStarts_stays (hqueue.trans (by rw [hs]; rfl)) (Or.inr (Or.inl hr)) _
    · refine State.evalStarts_stays (r := []) (hqueue.trans (by rw [hnone]; rfl)) (Or.inr (Or.inr ?_)) _
      rw [State.quotasFit_joinStart hstate, hq]
      rfl
  obtain ⟨hjobs, hstarts⟩ := State.takeStart_waits (v := v) (s := s) (by rw [heval, State.job_joinStart]; rfl)
  rw [heval] at hjobs hstarts
  rw [job_congr hjobs, State.job_joinStart]
  exact ⟨rfl, rfl, hstarts⟩
end

/-! A start removed (R469), and a retire (R451-R456). -/

theorem State.jobs_tellRefused (s : State) (tag gen code : Nat) : (s.tellRefused tag gen code).jobs = s.jobs := s.jobs_raise ..

theorem State.starts_tellRefused (s : State) (tag gen code : Nat) : (s.tellRefused tag gen code).starts = s.starts := s.starts_raise ..

theorem State.job_dropStart (s : State) (tag code : Nat) :
    (s.dropStart tag code).job tag = { s.job tag with state := .free, status := code, since := s.now } := by
  rw [State.dropStart, job_congr (State.jobs_tellRefused ..), State.job_setJob]

theorem State.starts_dropStart (s : State) (tag code : Nat) : (s.dropStart tag code).starts = s.starts.filter (fun x => x != tag) := by
  rw [State.dropStart, State.starts_tellRefused]
  rfl

theorem Verdict.record_untold (code : Nat) (s : State) : (Verdict.refused 0 code).record s = s := rfl

/-- JOB_START's own rule. -/
def startRule (v : Nat) (s : State) : Verdict := if s.startCode v = 0 then .ok else .refused 0 0

/-- JOB_WITHDRAW's own rule. -/
def withdrawRule (tag : Nat) (s : State) : Verdict :=
  if (s.job tag).state = .pending then .ok else .refused E.jobWithdrawStatus 0x0B

/-- JOB_RETIRE's own rule. -/
def retireRule (v : Nat) (s : State) : Verdict :=
  if s.retireCode v = 0 then .ok else .refused E.jobRetireStatus (s.retireCode v)

theorem State.retireCode_retiring {s : State} {v : Nat} (htag : bits v 31 16 ≠ 0) (hmode : bits v 7 0 ≤ 1)
    (h : (s.job (bits v 31 16)).state = .retiring) : s.retireCode v = 2 := by
  have hform : ¬ (1 < bits v 7 0 ∨ bits v 31 16 = 0) := fun h => h.elim (Nat.not_lt.mpr hmode) htag
  have hat : (s.job (bits v 31 16)).at_ s.now = .retiring := by
    rw [Job.at_, if_neg (fun hq => JobState.noConfusion (h.symm.trans hq.1)), h]
  simp only [State.retireCode, if_neg hform, hat]

theorem State.reportJob_retiring {s : State} {tag : Nat} (code : Nat) (htag : tag ≠ 0) (h : (s.job tag).state = .retiring) :
    s.reportJob tag code = s.setJob tag { s.job tag with status := code } := by
  have hat : (s.job tag).at_ s.now ≠ .free := by
    rw [Job.at_, if_neg (fun hq => JobState.noConfusion (h.symm.trans hq.1)), h]
    exact fun h => JobState.noConfusion h
  simp only [State.reportJob, if_neg htag, if_neg hat]

/-- The last act of a purge that does not advance: tensors and spawn sessions of the job go. -/
theorem State.purge_retire (s : State) (tag : Nat) : ∃ w : State, s.purge tag false = { w with
    graphs := { w.graphs with tensors := w.graphs.tensors.filter (fun (x : Nat × Tensor) => x.1 / 65536 != tag) }
    spawns := w.spawns.filter (fun (x : Nat × Session) => x.2.job != tag) } := by
  unfold State.purge
  exact ⟨_, if_neg Bool.false_ne_true⟩

/-- The last act of a purge that advances: the job's parity groups stay, pending nothing. -/
theorem State.purge_advance (s : State) (tag : Nat) : ∃ w : State, s.purge tag true = { w with
    graphs := { w.graphs with parity := w.graphs.parity.map (fun (x : Nat × Parity) => if x.2.job = tag then (x.1, x.2.advanced) else x) } } := by
  unfold State.purge
  exact ⟨_, if_pos rfl⟩

theorem purge_retire_leaves (s : State) (tag : Nat) :
    (∀ x ∈ (s.purge tag false).graphs.tensors, x.1 / 65536 ≠ tag) ∧ ∀ x ∈ (s.purge tag false).spawns, x.2.job ≠ tag := by
  obtain ⟨w, hw⟩ := s.purge_retire tag
  rw [hw]
  exact ⟨fun _ hx => bne_iff_ne.mp (List.mem_filter.mp hx).2, fun _ hx => bne_iff_ne.mp (List.mem_filter.mp hx).2⟩

theorem Parity.advanced_state (p : Parity) : p.advanced.state ≠ 0 := by
  unfold Parity.advanced
  dsimp only
  split <;> decide

theorem purge_advance_leaves (s : State) (tag : Nat) : ∀ x ∈ (s.purge tag true).graphs.parity, x.2.job = tag →
    x.2.pending = none ∧ x.2.state ≠ 0 := by
  intro x hx hjob
  obtain ⟨w, hw⟩ := s.purge_advance tag
  rw [hw] at hx
  obtain ⟨y, -, rfl⟩ := List.mem_map.mp hx
  by_cases hy : y.2.job = tag
  · rw [if_pos hy]
    exact ⟨rfl, Parity.advanced_state _⟩
  · rw [if_neg hy] at hjob
    exact absurd hjob hy

/-- The jobs and their queue stay, and of the dictionary REG_CONTEXT and what notices write change alone. -/
structure KeepsJobs (s t : State) : Prop where
  jobs : t.jobs = s.jobs
  starts : t.starts = s.starts
  only : OnlyEntries (E.regContext :: noteEntries) s t

theorem KeepsJobs.refl (s : State) : KeepsJobs s s := ⟨rfl, rfl, OnlyEntries.refl _ s⟩

theorem KeepsJobs.trans {s t u : State} (h : KeepsJobs s t) (k : KeepsJobs t u) : KeepsJobs s u :=
  ⟨k.jobs.trans h.jobs, k.starts.trans h.starts, h.only.trans k.only⟩

theorem KeepsJobs.of_notes {s t : State} (hn : Noted s t) (h : SameEntries s t) : KeepsJobs s t :=
  ⟨by rw [hn.eq], by rw [hn.eq], (OnlyEntries.refl _ s).notes (List.subset_cons_self ..) h⟩

theorem State.freeTold_keepsJobs (s : State) : KeepsJobs s s.freeTold := by
  unfold State.freeTold
  split
  · exact KeepsJobs.refl s
  · exact ⟨rfl, rfl, OnlyEntries.of_regs rfl⟩

theorem State.useSpill_keepsJobs (s : State) (who : Nat × Nat) (h n : Nat) : KeepsJobs s (s.useSpill who h n) := by
  obtain ⟨w, hw⟩ : ∃ w : State, w = { s with coll := { s.coll with
      stackUsed := s.coll.stackUsed.set h (s.coll.stackUsed.getD h 0 + n) } } := ⟨_, rfl⟩
  have hkeep : KeepsJobs s w := hw ▸ ⟨rfl, rfl, OnlyEntries.of_regs rfl⟩
  simp only [State.useSpill, ← hw]
  split
  · exact hkeep.trans (w.freeTold_keepsJobs.trans (KeepsJobs.of_notes (State.raiseLim_noted ..) (State.raiseLim_sameEntries _ _ _ _ _ _ _)))
  · exact hkeep

theorem State.holdOwn_keepsJobs (s : State) (r : Reg) : KeepsJobs s (s.holdOwn r).2 := by
  unfold State.holdOwn
  split
  · exact KeepsJobs.refl s
  · split
    · exact KeepsJobs.refl s
    · exact (s.useSpill_keepsJobs _ _ _).trans ⟨rfl, rfl, OnlyEntries.of_regs rfl⟩

theorem State.commitReg_keepsJobs (s : State) (op : Nat) : KeepsJobs s (s.commitReg op) := by
  unfold State.commitReg
  split
  · exact KeepsJobs.refl s
  · split
    · exact KeepsJobs.refl s
    · refine KeepsJobs.trans ?_ (KeepsJobs.of_notes (State.raise_noted ..) (State.raise_sameEntries _ _ _ _ _))
      exact ⟨rfl, rfl, OnlyEntries.wr (OnlyEntries.of_regs rfl) _ List.mem_cons_self (by decide)⟩

theorem KeepsJobs.foldl {α : Type} {s : State} {f : State → α → State} (hf : ∀ t a, KeepsJobs t (f t a)) (l : List α) :
    KeepsJobs s (l.foldl f s) := by
  induction l generalizing s with
  | nil => exact KeepsJobs.refl s
  | cons a r ih => exact (hf s a).trans ih

theorem State.renewParity_keepsJobs (s : State) (which : Parity → Bool) : KeepsJobs s (s.renewParity which) := by
  refine KeepsJobs.foldl (fun t x => ?_) _
  split
  · exact KeepsJobs.refl t
  · have hhold := t.holdOwn_keepsJobs x.2.roundReg
    split
    · next u heq => rw [heq] at hhold; exact hhold.trans (u.commitReg_keepsJobs _)
    · next u _ heq => rw [heq] at hhold; exact hhold

/-- A job once its purge is complete (R453, R455, R456). -/
def Job.retiredAt (j : Job) (t : Time) : Job :=
  { j with since := t, old := j.old.filter (fun x => decide (t < x.2 + 10 * sec)) ++ [(j.gen, t)],
           state := if j.advance then .active else .quarantine,
           gen := if j.advance then (j.gen + 1) % 256 else j.gen, status := if j.advance then 0 else 0x0A }

/-- The end of a purge reported and told. -/
def State.reportRetired (s : State) (tag : Nat) (j : Job) (t : Time) : State :=
  ((s.setJob tag (j.retiredAt t)).wr E.jobRetireStatus 0 (j.retiredAt t).status).raise 0x7013 0 31
    [.v 16 tag, .v 8 j.gen, .v 8 (b2n j.advance), .v 32 ((t - j.retired) / us)]

theorem State.job_reportRetired (s : State) (tag : Nat) (j : Job) (t : Time) : (s.reportRetired tag j t).job tag = j.retiredAt t :=
  (job_congr (State.jobs_raise ..) tag).trans (State.job_setJob ..)

theorem State.starts_reportRetired (s : State) (tag : Nat) (j : Job) (t : Time) : (s.reportRetired tag j t).starts = s.starts :=
  State.starts_raise ..

theorem State.rd_reportRetired (s : State) (tag : Nat) (j : Job) (t : Time) :
    (s.reportRetired tag j t).rd E.jobRetireStatus 0 = (j.retiredAt t).status :=
  (rd_raise_of_entry _ _ _ _ _ (by decide) (by decide)).trans (State.rd_wr_same ..)

/-- What a job retired leaves: an ADVANCE renews its parity operations, and the queue is evaluated. -/
def State.afterRetire (s : State) (tag : Nat) (j : Job) (t : Time) : State :=
  let w := s.reportRetired tag j t
  (if j.advance then w.renewParity (fun p => p.job == tag && p.pgei == w.gei) else w).evalStarts 65

theorem exec_jobRetired {t : Time} {tag : Nat} {s : State} (h : (s.job tag).state = .retiring) (hd : s.drainingOf tag = []) :
    exec (.jobRetired t tag) s = .next ((s.begin t).afterRetire tag (s.job tag) t) := by
  have hdone : ¬ ((s.job tag).state ≠ .retiring ∨ (!(s.drainingOf tag).isEmpty) = true) := by rw [h, hd]; decide
  exact next_congr (if_neg hdone)

theorem State.afterRetire_spec {s : State} {tag : Nat} (j : Job) (t : Time) (hq : tag ∉ s.starts) :
    (s.afterRetire tag j t).job tag = j.retiredAt t ∧
      (s.afterRetire tag j t).rd E.jobRetireStatus 0 = (j.retiredAt t).status := by
  obtain ⟨w, hw⟩ : ∃ w, w = s.reportRetired tag j t := ⟨_, rfl⟩
  obtain ⟨u, hu⟩ : ∃ u, u = if j.advance then w.renewParity (fun p => p.job == tag && p.pgei == w.gei) else w := ⟨_, rfl⟩
  have hkeep : KeepsJobs w u := by
    rw [hu]
    split
    · exact w.renewParity_keepsJobs _
    · exact KeepsJobs.refl w
  have hout : tag ∉ u.starts := by rw [hkeep.starts, hw, State.starts_reportRetired]; exact hq
  obtain ⟨hjob, honly⟩ := State.evalStarts_leaves 65 hout
  have hafter : s.afterRetire tag j t = u.evalStarts 65 := by rw [hu, hw]; rfl
  rw [hafter]
  constructor
  · rw [hjob, job_congr hkeep.jobs, hw, State.job_reportRetired]
  · rw [honly _ _ (by decide) (by decide), hkeep.only _ _ (by decide) (by decide), hw, State.rd_reportRetired]

/-! The jobs' queries (R469). -/

/-- An element that the device's state fixes reads as it is then. -/
theorem State.view_of_device {s : State} {e el n : Nat} (hp : s.portless e el = false) (hd : s.deviceView e el = some n) :
    s.view e el = n := by
  simp only [State.view, hp, hd, Bool.false_eq_true, if_false]

theorem toNat_lt_two_pow {w : Nat} (v : BitVec w) : v.toNat < 2 ^ w := v.isLt

theorem State.view_jobQuery (s : State) : s.view E.jobQuery 0 = queryView 256 (s.rd E.jobQuery 0) (fun v => jobAnswer v s) :=
  State.view_of_device rfl rfl

theorem State.view_jobQuota (s : State) : s.view E.jobQuota 0 = queryView 512 (s.rd E.jobQuota 0) (fun v => quotaAnswer v s) :=
  State.view_of_device rfl rfl

theorem bits_pack_of_lt (pre : List (Nat × Nat)) {w v : Nat} (post : List (Nat × Nat)) {hi lo : Nat} (hlo : lo = (post.map Prod.fst).sum)
    (hw : hi + 1 - lo = w) (hv : v < 2 ^ w) : bits (pack (pre ++ (w, v) :: post)) hi lo = v :=
  (bits_pack pre w v post hlo hw).trans (Nat.mod_eq_of_lt hv)

theorem JobState.code_lt (x : JobState) : x.code < 16 := by
  cases x <;> decide

theorem jobAnswer_spec (v : Nat) (w : State) :
    bits (jobAnswer v w) 255 240 = bits v 255 240 ∧
      bits (jobAnswer v w) 239 236 = ((w.job (bits v 255 240)).at_ w.now).code ∧
      bits (jobAnswer v w) 235 228 = (w.job (bits v 255 240)).status % 256 ∧
      bits (jobAnswer v w) 227 220 = (w.job (bits v 255 240)).gen % 256 ∧
      bits (jobAnswer v w) 77 0 = timeLayout (w.job (bits v 255 240)).since % 2 ^ 78 := by
  unfold jobAnswer
  exact ⟨bits_pack_of_lt [] _ rfl rfl (bits_lt v 255 240), bits_pack_of_lt [(16, _)] _ rfl rfl (JobState.code_lt _),
    bits_pack [(16, _), (4, _)] 8 _ _ rfl rfl, bits_pack [(16, _), (4, _), (8, _)] 8 _ _ rfl rfl,
    bits_pack [(16, _), (4, _), (8, _), (8, _), (6, _), (136, _)] 78 _ [] rfl rfl⟩

theorem quotaAnswer_spec (v : Nat) (w : State) : bits (quotaAnswer v w) 511 496 = bits v 511 496 ∧
    bits (quotaAnswer v w) 463 449 = w.jobContexts (bits v 511 496) % 2 ^ 15 := by
  simp only [quotaAnswer, quotaPack, quotaFields, State.quotasUsed, State.tablesOf, List.cons_append, List.nil_append,
    List.zip_cons_cons, List.zip_nil_left, List.map_cons, List.map_nil]
  exact ⟨bits_pack_of_lt [] _ (by simp) rfl (bits_lt v 511 496), bits_pack [(16, _), (32, _)] 15 _ _ (by simp) rfl⟩

/-! The jobs' commands at their times (R452, R455, R468). -/

theorem exec_jobStart {a : Access} {v : BitVec 512} {s : State} (ht : s.Takes a E.jobStart 0 64 0 true) :
    ((s.begin a.t).startCode v.toNat = 0 → exec (.jobStart a v) s = .next ((State.takeStart v.toNat (s.commitAt a)).answerItem stOk)) ∧
    ((s.begin a.t).startCode v.toNat ≠ 0 → exec (.jobStart a v) s
      = .next ((State.startRefused v.toNat (s.begin a.t)).answerItem stRefused)) := by
  refine ⟨fun h => ?_, fun h => ?_⟩
  · exact next_congr (State.writeWith_ok (rule := startRule v.toNat) (act := State.takeStart v.toNat) ht (if_pos h))
  · rw [← Verdict.record_untold 0 (s.begin a.t)]
    exact next_congr (State.writeWith_refused (rule := startRule v.toNat) (told := State.startRefused v.toNat) ht (if_neg h))

theorem exec_jobWithdraw {a : Access} {tag : Nat} {s : State} (ht : s.Takes a E.jobWithdraw 0 2 tag true) :
    ((s.job tag).state = .pending → ∃ u, exec (.jobWithdraw a tag) s = .next u ∧ (u.job tag).state = .free ∧ (u.job tag).status = 8 ∧
      u.starts = s.starts.filter (fun x => x != tag) ∧ u.rd E.jobWithdrawStatus 0 = 8) ∧
    ((s.job tag).state ≠ .pending → ∃ u, exec (.jobWithdraw a tag) s = .next u ∧ u.jobs = s.jobs ∧ u.starts = s.starts ∧
      u.rd E.jobWithdrawStatus 0 = 0x0B ∧ u.out = [.item stRefused 0]) := by
  refine ⟨fun h => ?_, fun h => ?_⟩
  · obtain ⟨w, hw⟩ : ∃ w, w = (s.commitAt a).dropStart tag 8 := ⟨_, rfl⟩
    have hjob := State.job_dropStart (s.commitAt a) tag 8
    have hstarts := (s.commitAt a).starts_dropStart tag 8
    rw [← hw] at hjob hstarts
    have hu : ((w.wr E.jobWithdrawStatus 0 8).answerItem stOk).job tag = w.job tag := job_congr (w.wr_jobs E.jobWithdrawStatus 0 8) tag
    refine ⟨(w.wr E.jobWithdrawStatus 0 8).answerItem stOk, ?_, ?_, ?_, ?_, ?_⟩
    · rw [hw]
      exact next_congr (State.writeOne_ok (rule := withdrawRule tag) ht (if_pos h))
    · rw [hu, hjob]
    · rw [hu, hjob]
    · exact hstarts.trans (by rw [State.commitAt_starts])
    · exact (State.rd_answerItem ..).trans (State.rd_wr_same ..)
  · refine ⟨_, next_congr ((State.writeOne_refused (rule := withdrawRule tag) ht (if_neg h)).trans
      (congrArg (State.answerItem · _) (Verdict.record_refused (by decide) _ _))), rfl, rfl, ?_, rfl⟩
    exact (State.rd_answerItem ..).trans (State.rd_wr_same ..)

theorem exec_pendingLimitExpiry {t : Time} {tag : Nat} {s : State} (h : (s.job tag).state = .pending)
    (hn : bits (s.job tag).record.toNat 335 320 ≠ 0) (hlate : (s.job tag).since + bits (s.job tag).record.toNat 335 320 * ms ≤ t) :
    exec (.pendingLimitExpiry t tag) s = .next (
      if (((s.begin t).evalStarts 65).job tag).state = .pending then ((s.begin t).evalStarts 65).dropStart tag 7
      else (s.begin t).evalStarts 65) := by
  have hwait : ¬ ((s.job tag).state ≠ .pending ∨ bits (s.job tag).record.toNat 335 320 = 0 ∨
      t < (s.job tag).since + bits (s.job tag).record.toNat 335 320 * ms) := fun hc =>
    hc.elim (fun hc => hc h) fun hc => hc.elim hn (Nat.not_lt.mpr hlate)
  exact next_congr (if_neg hwait)

theorem exec_jobRetire {a : Access} {v : BitVec 32} {s : State} (ht : s.Takes a E.jobRetire 0 4 0 true)
    (h : (s.begin a.t).retireCode v.toNat = 0) :
    exec (.jobRetire a v) s = .next ((State.takeRetire v.toNat (s.commitAt a)).answerItem stOk) ∧
      exec (.jobAdvance a v) s = .next ((State.takeRetire v.toNat (s.commitAt a)).answerItem stOk) := by
  have hok := State.writeWith_ok (rule := retireRule v.toNat) (told := fun u => u.reportJob (bits v.toNat 31 16) (u.retireCode v.toNat))
    (act := State.takeRetire v.toNat) ht (if_pos h)
  exact ⟨next_congr hok, next_congr hok⟩

theorem exec_jobRetire_retiring {a : Access} {v : BitVec 32} {s : State} (ht : s.Takes a E.jobRetire 0 4 0 true)
    (htag : bits v.toNat 31 16 ≠ 0) (hmode : bits v.toNat 7 0 ≤ 1) (h : (s.job (bits v.toNat 31 16)).state = .retiring) :
    ∃ u, exec (.jobRetire a v) s = .next u ∧
      u.jobs = s.jobs.set (bits v.toNat 31 16) { s.job (bits v.toNat 31 16) with status := 2 } ∧
      u.rd E.jobRetireStatus 0 = 2 ∧ u.out = [.item stRefused 0] := by
  have hcode : (s.begin a.t).retireCode v.toNat = 2 := State.retireCode_retiring htag hmode h
  have hrule : retireRule v.toNat (s.begin a.t) = .refused E.jobRetireStatus 2 := by
    rw [retireRule, hcode]
    rfl
  obtain ⟨w, hw⟩ : ∃ w, w = (s.begin a.t).wr E.jobRetireStatus 0 2 := ⟨_, rfl⟩
  have hjobs : w.jobs = s.jobs := hw ▸ rfl
  have hout : w.out = [] := hw ▸ rfl
  have hjob : w.job (bits v.toNat 31 16) = s.job (bits v.toNat 31 16) := job_congr hjobs _
  have hstate : (w.job (bits v.toNat 31 16)).state = .retiring := by rw [hjob, h]
  have htold : w.reportJob (bits v.toNat 31 16) (w.retireCode v.toNat)
      = w.setJob (bits v.toNat 31 16) { s.job (bits v.toNat 31 16) with status := 2 } := by
    rw [State.retireCode_retiring htag hmode hstate, State.reportJob_retiring 2 htag hstate, hjob]
  have hwrite := State.writeWith_refused_told (rule := retireRule v.toNat) (act := State.takeRetire v.toNat)
    (told := fun u => u.reportJob (bits v.toNat 31 16) (u.retireCode v.toNat)) ht hrule (by decide)
  rw [← hw, htold] at hwrite
  refine ⟨_, next_congr hwrite, ?_, ?_, ?_⟩
  · exact congrArg (Tab.set · _ _) hjobs
  · rw [hw]
    exact (State.rd_answerItem ..).trans ((State.rd_setJob ..).trans (State.rd_wr_same ..))
  · rw [State.answerItem_out, State.setJob_out, hout, List.nil_append]

theorem State.takeRetire_active {s : State} {v : Nat} (h : (s.job (bits v 31 16)).state = .active) :
    State.takeRetire v s = ((s.setJob (bits v 31 16) { s.job (bits v 31 16) with
      state := .retiring, status := 0xFF, since := s.now, advance := bits v 7 0 == 1, retired := s.now, slow := false }).wr
        E.jobRetireStatus 0 0xFF).purge (bits v 31 16) (bits v 7 0 == 1) :=
  if_neg fun hp => JobState.noConfusion (h.symm.trans hp)

theorem exec_jobRetired_waits {t : Time} {tag : Nat} {s : State} (hd : s.drainingOf tag ≠ []) :
    exec (.jobRetired t tag) s = .next (s.begin t) := by
  have hleft : (s.job tag).state ≠ .retiring ∨ (!(s.drainingOf tag).isEmpty) = true := by
    rw [List.isEmpty_eq_false_iff.mpr hd]
    exact Or.inr rfl
  exact next_congr (if_pos hleft)

theorem exec_retireSlow {t : Time} {tag : Nat} {s : State} (h : (s.job tag).state = .retiring) (hd : s.drainingOf tag ≠ [])
    (hslow : (s.job tag).slow = false) (hlate : (s.job tag).retired + 100 * ms ≤ t) :
    exec (.retireSlow t tag) s = .next (((s.begin t).setJob tag { s.job tag with slow := true }).raise 0x7014 1 31
      ([.v 16 tag, .v 8 (s.job tag).gen] ++ (s.drainingOf tag).foldl (fun l x => l ++ [.v 8 x.1, .v 16 x.2]) [])) := by
  have hwait : ¬ ((s.job tag).state ≠ .retiring ∨ (s.job tag).slow = true ∨ (s.drainingOf tag).isEmpty = true ∨
      t < (s.job tag).retired + 100 * ms) := by
    rw [h, hslow, List.isEmpty_eq_false_iff.mpr hd]
    exact fun hc => hc.elim (fun hc => hc rfl) fun hc => hc.elim Bool.false_ne_true fun hc =>
      hc.elim Bool.false_ne_true (Nat.not_lt.mpr hlate)
  exact next_congr (if_neg hwait)

theorem exec_quarantineEnd {t : Time} {tag : Nat} {s : State} (h : (s.job tag).state = .quarantine) :
    ((s.job tag).since + 10 * sec ≤ t →
      exec (.quarantineEnd t tag) s = .next ((s.begin t).setJob tag { s.job tag with state := .free, since := t })) ∧
    (t < (s.job tag).since + 10 * sec → exec (.quarantineEnd t tag) s = .next (s.begin t)) := by
  refine ⟨fun hlate => ?_, fun hearly => ?_⟩
  · have hwait : ¬ ((s.job tag).state ≠ .quarantine ∨ t < (s.job tag).since + 10 * sec) := fun hc =>
      hc.elim (fun hc => hc h) (Nat.not_lt.mpr hlate)
    exact next_congr (if_neg hwait)
  · have hwait : (s.job tag).state ≠ .quarantine ∨ t < (s.job tag).since + 10 * sec := Or.inr hearly
    exact next_congr (if_pos hwait)

theorem exec_jobRetired_done {t : Time} {tag : Nat} {s : State} (h : (s.job tag).state = .retiring) (hd : s.drainingOf tag = [])
    (hq : tag ∉ s.starts) : ∃ u, exec (.jobRetired t tag) s = .next u ∧ u.job tag = (s.job tag).retiredAt t ∧
      u.rd E.jobRetireStatus 0 = ((s.job tag).retiredAt t).status :=
  ⟨_, exec_jobRetired h hd, State.afterRetire_spec (s := s.begin t) _ t hq⟩

/-- Settles O52: each clause is the behaviour of one command of the jobs or of what it does to the queue. -/
theorem jobs : Obligations.Jobs := by
  unfold Obligations.Jobs
  refine ⟨fun _ _ _ ht => exec_jobStart ht, fun v s => ?_, fun _ _ _ ht => exec_jobWithdraw ht, fun t tag s => ?_,
    fun _ _ _ ht => ⟨exec_jobRetire ht, exec_jobRetire_retiring ht⟩, fun v s => ⟨State.takeRetire_active, fun h => if_pos h⟩,
    fun tag s => ?_, fun t tag s => ?_, fun t tag s => ?_,
    fun _ v _ ht => ⟨State.query_written ht (toNat_lt_two_pow v) State.view_jobQuery, jobAnswer_spec v.toNat⟩,
    fun _ v _ ht => ⟨State.query_written ht (toNat_lt_two_pow v) State.view_jobQuota, quotaAnswer_spec v.toNat⟩⟩
  case refine_1 =>
    intro tag u _ _ hstate
    exact ⟨State.takeStart_admits hstate, State.takeStart_queued hstate⟩
  case refine_2 =>
    intro n h hn hlate
    exact exec_pendingLimitExpiry h hn hlate
  case refine_3 =>
    obtain ⟨htensors, hspawns⟩ := purge_retire_leaves s tag
    exact ⟨htensors, hspawns, purge_advance_leaves s tag⟩
  case refine_4 =>
    intro j h hd hq
    obtain ⟨u, hu, hjob, hstatus⟩ := exec_jobRetired_done (t := t) h hd hq
    rw [← hjob] at hstatus
    refine ⟨u, hu, ?_, ?_, ?_, ?_, ?_⟩
    · rw [hjob, Job.retiredAt]
    · rw [hjob, Job.retiredAt]
    · rw [hjob, Job.retiredAt]
    · rw [hjob]
      exact List.mem_append_right _ List.mem_cons_self
    · rw [hstatus, hjob, Job.retiredAt]
  case refine_5 =>
    exact ⟨fun _ hd => exec_jobRetired_waits hd, exec_retireSlow, fun h => (exec_quarantineEnd h).1, fun h => (exec_quarantineEnd h).2⟩

end Sys2Proof.Machine
end

section
/-!
What a frame of the device that is queued, kept waiting or dropped may change (R249-R268).
-/
namespace Sys2Proof.Machine

/-! What a step that sends a frame into the switch may change. -/

/-- The entries that queueing or dropping a frame of the device writes. -/
def sentEntries : List Nat :=
  [E.detoured, E.poolFree, E.poolLow, E.drops, E.marked, E.depth, E.depthHwm, E.circuitDepth, E.doubleFree] ++ noteEntries

theorem noteEntries_sub_sent : noteEntries ⊆ sentEntries := List.subset_append_right _ _

/-- The switch, the channels between dies and the management state alone change, and of the dictionary the entries of frames sent. -/
structure Sends (s t : State) : Prop where
  eq : t = { s with regs := t.regs, out := t.out, mgmt := t.mgmt, net := t.net, links := t.links }
  only : OnlyEntries sentEntries s t

theorem Sends.refl (s : State) : Sends s s := ⟨rfl, OnlyEntries.refl _ s⟩

theorem Sends.trans {s t u : State} (h : Sends s t) (k : Sends t u) : Sends s u := by
  refine ⟨?_, h.only.trans k.only⟩
  have heq := k.eq
  rw [h.eq] at heq
  exact heq

theorem Sends.of_notes {s t : State} (h : Noted s t) (k : SameEntries s t) : Sends s t :=
  ⟨by rw [h.eq], (OnlyEntries.refl _ s).notes noteEntries_sub_sent k⟩

theorem Sends.wr (s : State) {e el : Nat} (v : Nat) (he : e ∈ sentEntries) (hl : el < 2 ^ 24) : Sends s (s.wr e el v) :=
  ⟨rfl, (OnlyEntries.refl _ s).wr v he hl⟩

theorem Sends.raiseTo (s : State) {e el : Nat} (v : Nat) (he : e ∈ sentEntries) (hl : el < 2 ^ 24) : Sends s (s.raiseTo e el v) := by
  unfold State.raiseTo
  split
  · exact Sends.wr s v he hl
  · exact Sends.refl s

theorem Sends.net (s : State) (n : Net) : Sends s { s with net := n } := ⟨rfl, OnlyEntries.of_regs rfl⟩

theorem Sends.foldl {α : Type} {s : State} {f : State → α → State} (hf : ∀ t a, Sends t (f t a)) (l : List α) : Sends s (l.foldl f s) := by
  induction l generalizing s with
  | nil => exact Sends.refl s
  | cons a r ih => exact (hf s a).trans ih

theorem Sends.raise (s : State) (code sev src : Nat) (ctx : List Item) : Sends s (s.raise code sev src ctx) :=
  Sends.of_notes (State.raise_noted ..) (State.raise_sameEntries _ _ _ _ _)

theorem Sends.raiseLim (s : State) (interval key code sev src : Nat) (ctx : List Item) : Sends s (s.raiseLim interval key code sev src ctx) :=
  Sends.of_notes (State.raiseLim_noted ..) (State.raiseLim_sameEntries _ _ _ _ _ _ _)

theorem Sends.countEvent (s : State) {b : Nat} (event arg job n : Nat) (hb : b < 2 ^ 20) : Sends s (s.countEvent b event arg job n) :=
  Sends.of_notes (State.countEvent_noted ..) (State.countEvent_sameEntries _ _ _ _ _ hb)

theorem Sends.doubleFree (s : State) (die c : Nat) : Sends s (s.doubleFree die c) :=
  (Sends.wr s _ (by decide) (by decide)).trans (Sends.raise ..)

/-! A hop resolves to a port of the device, and to a circuit by its number (R249-R257). -/

/-- Where a resolution may lead. -/
def Target.Inside (t : Target) : Prop := t.port < 1024 ∧ ∀ c, t.circ = some c → c < 2048

/-- What a resolution may answer, and the tables alone that it may turn. -/
def Resolved (s : State) (r : Res × State) : Prop := (∀ t, r.1 = .ok t → t.Inside) ∧ Sends s r.2

theorem Resolved.fails (s : State) (c : Nat) : Resolved s (.fail c, s) := ⟨fun _ h => Res.noConfusion h, Sends.refl s⟩

theorem Resolved.ok {s t : State} {g : Target} (hg : g.Inside) (ht : Sends s t) : Resolved s (.ok g, t) :=
  ⟨fun _ h => Res.ok.inj h ▸ hg, ht⟩

theorem State.isUp_lt {s : State} {p : Nat} (h : s.isUp p = true) : p < 1024 := by
  unfold State.isUp State.portExists at h
  simp only [Bool.and_eq_true, decide_eq_true_eq] at h
  exact h.1.1

theorem pickMember_mem (s : State) (die cls turn n : Nat) (l : List (Nat × Nat)) (best : Option (Nat × Nat)) {x : Nat × Nat}
    (h : pickMember s die cls turn n l best = some x) : x ∈ l ∨ best = some x := by
  induction l generalizing best with
  | nil => exact Or.inr h
  | cons y r ih =>
    obtain hin | hbest := ih _ h
    · exact Or.inl (List.mem_cons_of_mem _ hin)
    · cases best with
      | none => exact Or.inl (Option.some.inj hbest ▸ List.mem_cons_self)
      | some b =>
        dsimp only at hbest
        split at hbest
        · exact Or.inl (Option.some.inj hbest ▸ List.mem_cons_self)
        · exact Or.inr hbest

theorem State.resolveSpray_resolved (s : State) (die cls g : Nat) : Resolved s (s.resolveSpray die cls g) := by
  unfold State.resolveSpray
  split
  · exact Resolved.fails ..
  · split
    · exact Resolved.fails ..
    · split
      · exact Resolved.fails ..
      · next v _ _ _ p i h =>
        have hmem : (p, i) ∈ s.liveMembers v.cur :=
          (pickMember_mem _ _ _ _ _ _ _ h).resolve_right fun hnone => Option.noConfusion rfl (heq_of_eq hnone)
        have hup : s.isUp p = true := (List.mem_filter.mp hmem).2
        exact Resolved.ok ⟨State.isUp_lt hup, fun _ hc => Option.noConfusion rfl (heq_of_eq hc)⟩ (Sends.net s _)

theorem State.resolveHop_resolved (s : State) (die cls job h : Nat) : Resolved s (s.resolveHop die cls job h) := by
  unfold State.resolveHop
  split
  · exact ⟨fun _ h => Res.noConfusion h, Sends.refl s⟩
  split
  · exact s.resolveSpray_resolved ..
  split
  · dsimp only
    split
    · exact Resolved.fails ..
    split
    · exact Resolved.fails ..
    split
    · exact Resolved.fails ..
    split
    · exact Resolved.fails ..
    · next hup =>
      exact Resolved.ok ⟨State.isUp_lt (by simpa using hup), fun _ hc => Option.some.inj hc ▸ bits_lt ..⟩ (Sends.refl s)
  · dsimp only
    split
    · exact Resolved.fails ..
    split
    · exact Resolved.fails ..
    · next hup =>
      exact Resolved.ok ⟨State.isUp_lt (by simpa using hup), fun _ hc => Option.noConfusion rfl (heq_of_eq hc)⟩ (Sends.refl s)

theorem State.resolveDetour_resolved (s : State) (die cls job h : Nat) (detoured : Bool) :
    Resolved s (s.resolveDetour die cls job h detoured) := by
  have hhop := s.resolveHop_resolved die cls job h
  unfold State.resolveDetour
  split
  next c t e =>
    rw [e] at hhop
    obtain ⟨-, hkeep⟩ := hhop
    split
    · obtain ⟨hok, hspray⟩ := t.resolveSpray_resolved die cls (t.detourGroup h)
      split
      next g u e' =>
        rw [e'] at hok hspray
        exact Resolved.ok (hok g rfl) (hkeep.trans hspray)
      next r u _ e' =>
        rw [e'] at hspray
        exact ⟨fun _ h => Res.noConfusion h, hkeep.trans hspray⟩
    · exact ⟨fun _ h => Res.noConfusion h, hkeep⟩
  · exact hhop

theorem State.resolveGei_resolved (s : State) (die cls job gei : Nat) (detoured : Bool) :
    Resolved s ((s.resolveGei die cls job gei detoured).1, (s.resolveGei die cls job gei detoured).2.1) := by
  unfold State.resolveGei
  split
  · exact Resolved.fails ..
  · exact Resolved.fails ..
  · exact s.resolveDetour_resolved ..

/-! Cells, queues and drops (R253, R260, R261, R265-R268). -/

theorem Sends.poolEmpty (s : State) {die : Nat} (pool : Nat) (hd : die < 8) : Sends s (s.poolEmpty die pool) :=
  (Sends.countEvent s _ _ _ _ (by omega)).trans (Sends.raiseLim ..)

theorem Sends.drop (s : State) (d : Drop) : Sends s (s.drop d noPort) := by
  have hel : d.element < 2 ^ 24 := by cases d <;> decide
  have hport : ¬ noPort < 1024 := by decide
  have hdrop : s.drop d noPort = s.bump E.drops d.element 1 := by simp only [State.drop, if_neg hport]
  rw [hdrop]
  exact Sends.wr s _ (by decide) hel

theorem Sends.skipStrays (s : State) (die : Nat) : Sends s (s.skipStrays die) := by
  unfold State.skipStrays
  dsimp only
  split
  · exact Sends.refl s
  · refine (Sends.net s _).trans (Sends.foldl (fun t x => ?_) _)
    split
    · exact Sends.doubleFree ..
    · exact Sends.refl t

theorem Sends.takeCells {s t : State} {die pool n : Nat} {cs : List Nat} (hd : die < 8) (hp : pool < 4)
    (h : s.takeCells die pool n = some (cs, t)) : Sends s t := by
  unfold State.takeCells at h
  dsimp only at h
  split at h
  · cases h
  · obtain ⟨-, rfl⟩ := Prod.mk.inj (Option.some.inj h)
    have hcount : ∀ u : State, Sends u (u.countFixed (8 * die + 2) n) := fun u =>
      Sends.of_notes (State.addCounter_noted ..) (State.addCounter_sameEntries _ _ (by omega))
    refine Sends.trans ?_ (hcount _)
    have hfree : ∀ (u : State) (v : Nat), Sends s u → Sends s (u.wr E.poolFree (4 * die + pool) v) :=
      fun u v hu => hu.trans (Sends.wr u v (by decide) (by omega))
    split
    · exact (hfree _ _ ((Sends.skipStrays s die).trans (Sends.net _ _))).trans (Sends.wr _ _ (by decide) (by omega))
    · exact hfree _ _ ((Sends.skipStrays s die).trans (Sends.net _ _))

theorem Sends.holdBy (s : State) (h : Held) (f : Nat → Nat) : Sends s (s.holdBy h f) := by
  unfold State.holdBy
  split <;> exact Sends.net s _

theorem Sends.store {s t : State} {die pool inPort id : Nat} {owners : List Nat} {loc copy credit : Bool} {stamp : Time} {pk : Packet}
    {held : List Held} (hd : die < 8) (hp : pool < 4)
    (h : s.store die pool owners loc inPort stamp pk held copy credit = some (id, t)) : Sends s t := by
  unfold State.store at h
  split at h
  · cases h
  next u hu =>
    obtain ⟨-, rfl⟩ := Prod.mk.inj (Option.some.inj h)
    exact (Sends.takeCells hd hp hu).trans ((Sends.foldl (fun t x => Sends.holdBy t x _) held).trans (Sends.net _ _))

theorem Sends.stitch (s : State) (a b src bytes : Nat) : Sends s (s.stitch a b src bytes) := by
  unfold State.stitch
  split
  · exact Sends.refl s
  · exact ⟨rfl, OnlyEntries.of_regs rfl⟩

theorem Sends.setQueue (s : State) {q : Nat} (v : Queue) (hq : q < 2 ^ 24) : Sends s (s.setQueue q v) :=
  ((Sends.net s _).trans (Sends.wr _ _ (by decide) hq)).trans (Sends.raiseTo _ _ (by decide) hq)

theorem Sends.enqueue (s : State) {p : Nat} {circ : Option Nat} {d : Desc} (pk : Packet) (hp : p < 1024)
    (hc : ∀ c, circ = some c → c < 2048) (hd : d.cls < 9) : Sends s (s.enqueue p circ d pk) := by
  have hdie : dieOf p < 8 := Nat.div_lt_of_lt_mul hp
  have marked : ∀ (u : State) (b : Bool), Sends u (if b then (u.bump E.marked 0 1).countEvent (8 * dieOf p + 1) 0x12 (9 * p + d.cls)
      ((pk.job.getD (0, 0)).1) 1 else u) := fun u b => by
    split
    · exact (Sends.wr u _ (by decide) (by decide)).trans (Sends.countEvent _ _ _ _ _ (by omega))
    · exact Sends.refl u
  unfold State.enqueue
  dsimp only
  split
  · exact (marked s _).trans (Sends.setQueue _ _ (by omega))
  · have hcirc := hc _ rfl
    exact (marked s _).trans ((Sends.net _ _).trans (Sends.wr _ _ (by decide) (by omega)))

theorem Sends.forwardAs (s : State) {cls pool : Nat} (stamp : Time) (pk : Packet) {tg : Target} (hop hopsIn : Nat)
    (ht : tg.Inside) (hcls : cls < 9) (hp : pool < 4) : Sends s (s.forwardAs cls noPort stamp pk tg hop hopsIn pool) := by
  obtain ⟨hport, hcirc⟩ := ht
  have hdie : dieOf tg.port < 8 := Nat.div_lt_of_lt_mul hport
  unfold State.forwardAs
  dsimp only
  split
  · exact Sends.drop ..
  · split
    · exact (Sends.drop ..).trans (Sends.poolEmpty _ _ hdie)
    next h => exact (Sends.store hdie hp h).trans ((Sends.stitch ..).trans (Sends.enqueue _ _ hport hcirc hcls))

/-! Frames that the device sends (R251, R268). -/

/-- What becomes of a frame of the device once its route is resolved. -/
def State.originated (cls pool : Nat) (f : Mft) (h : Nat) : Res × State → State
  | (.ok tg, s) =>
    let w : Mft := { f with hops := f.hops.tail, hdr := { f.hdr with detoured := f.hdr.detoured || tg.det } }
    let s := if tg.det then s.bump E.detoured 0 1 else s
    if s.rd E.poolFree (4 * dieOf tg.port + pool) < cellsOf w.wire ∧ pool = 2 then
      let s := s.poolEmpty (dieOf tg.port) pool
      { s with net := { s.net with waiting := s.net.waiting ++ [(cls, f)] } }
    else s.forwardAs cls noPort s.now (.mft w) tg h 0 pool
  | (_, s) => s.drop .route noPort

theorem State.originateAs_eq (s : State) (cls pool : Nat) (f : Mft) : ∃ h r, Resolved s r ∧
    s.originateAs cls pool f = State.originated cls pool f h r := by
  cases f with
  | mk hdr hops body =>
    cases hops with
    | nil =>
      refine ⟨(s.resolveGei 0 cls hdr.job hdr.dest false).2.2, _, s.resolveGei_resolved 0 cls hdr.job hdr.dest false, ?_⟩
      unfold State.originateAs State.originated
      dsimp only
      cases (s.resolveGei 0 cls hdr.job hdr.dest false).1 <;> rfl
    | cons h l =>
      refine ⟨h, _, s.resolveDetour_resolved 0 cls hdr.job h hdr.detoured, ?_⟩
      unfold State.originateAs State.originated
      dsimp only
      rcases s.resolveDetour 0 cls hdr.job h hdr.detoured with ⟨r, t⟩
      cases r <;> rfl

theorem Sends.originateAs (s : State) {cls pool : Nat} (f : Mft) (hcls : cls < 9) (hp : pool < 4) : Sends s (s.originateAs cls pool f) := by
  obtain ⟨h, ⟨r, t⟩, ⟨hin, hkeep⟩, heq⟩ := s.originateAs_eq cls pool f
  rw [heq]
  refine hkeep.trans ?_
  cases r with
  | ok tg =>
    have hdet : Sends t (if tg.det then t.bump E.detoured 0 1 else t) := by
      split
      · exact Sends.wr t _ (by decide) (by decide)
      · exact Sends.refl t
    unfold State.originated
    dsimp only
    generalize (if tg.det then t.bump E.detoured 0 1 else t) = u at hdet ⊢
    split
    · exact hdet.trans ((Sends.poolEmpty _ _ (Nat.div_lt_of_lt_mul (hin tg rfl).1)).trans (Sends.net _ _))
    · exact hdet.trans (Sends.forwardAs _ _ _ _ _ (hin tg rfl) hcls hp)
  | malformed => exact Sends.drop ..
  | fail c => exact Sends.drop ..

theorem Sends.originate (s : State) {f : Mft} (hcls : f.cls < 9) : Sends s (s.originate f) :=
  Sends.originateAs s (pool := 2) f hcls (by decide)

end Sys2Proof.Machine
end

section
/-!
Spawn sessions (R459-R467): their messages, the blocks missing and asked for, and the query.
-/
namespace Sys2Proof.Machine

/-! Spawn messages sent (R460, R465). -/

theorem Sends.spawns {s t : State} (h : Sends s t) : t.spawns = s.spawns := by rw [h.eq]

theorem State.cls_mgmtFrame (s : State) (job gen dest family sub : Nat) (body : List Byte) :
    (s.mgmtFrame job gen dest family sub body).cls < 9 :=
  Nat.lt_of_lt_of_le (Nat.mod_lt _ (by decide)) (by decide : 8 ≤ 9)

theorem Sends.sendSpawn (s : State) (job dest body : Nat) (payload : List Byte) : Sends s (s.sendSpawn job dest body payload) := by
  unfold State.sendSpawn
  split
  · split
    · exact Sends.originate s (s.cls_mgmtFrame ..)
    · exact Sends.refl s
  · exact Sends.refl s

theorem State.spawns_serveBlock (s : State) (x : Session) (b dest : Nat) : (s.serveBlock x b dest).spawns = s.spawns := by
  unfold State.serveBlock
  split
  · rw [State.bump, State.wr_spawns, (Sends.sendSpawn ..).spawns]
  · rfl

theorem foldl_spawns {α : Type} {f : State → α → State} (hf : ∀ t a, (f t a).spawns = t.spawns) (l : List α) (s : State) :
    (l.foldl f s).spawns = s.spawns := by
  induction l generalizing s with
  | nil => rfl
  | cons a r ih => exact (ih _).trans (hf s a)

/-! Blocks missing and asked for (R462). -/

theorem Session.mem_settle {x : Session} {t : Time} {b : Nat} {e : Time} (h : (b, e) ∈ (x.settle t).asks) :
    ∃ c ∈ x.missing, (x.asks.find? (fun y => y.1 == c)).getD (c, t + 200 * us) = (b, e) := List.mem_map.mp h

theorem Session.settle_of_missing {x : Session} {t : Time} {b : Nat} (h : b ∈ x.missing) :
    (x.asks.find? (fun y => y.1 == b)).getD (b, t + 200 * us) ∈ (x.settle t).asks :=
  List.mem_map_of_mem h

/-- An entry asked for names its block. -/
theorem Session.ask_names (x : Session) (t : Time) (b : Nat) : ((x.asks.find? (fun y => y.1 == b)).getD (b, t + 200 * us)).1 = b := by
  cases h : x.asks.find? (fun y => y.1 == b) with
  | none => rfl
  | some y =>
    have hy := List.find?_some h
    exact eq_of_beq hy

theorem Session.settle_asks_iff (x : Session) (t : Time) (b : Nat) : (∃ e, (b, e) ∈ (x.settle t).asks) ↔ b ∈ x.missing := by
  constructor
  · rintro ⟨e, h⟩
    obtain ⟨c, hc, heq⟩ := Session.mem_settle h
    have hname := x.ask_names t c
    rw [heq] at hname
    rwa [← show b = c from hname] at hc
  · intro h
    have hmem := Session.settle_of_missing (t := t) h
    have hname := x.ask_names t b
    exact ⟨_, by rwa [← Prod.mk.eta (p := (x.asks.find? _).getD _), hname] at hmem⟩

theorem Session.settle_keeps {x : Session} {t : Time} {b : Nat} {e : Time} (h : b ∈ x.missing)
    (hask : x.asks.find? (fun y => y.1 == b) = some (b, e)) : (b, e) ∈ (x.settle t).asks := by
  have hmem := Session.settle_of_missing (t := t) h
  rwa [hask, Option.getD_some] at hmem

theorem Session.settle_new {x : Session} {t : Time} {b : Nat} (h : b ∈ x.missing) (hask : ∀ y ∈ x.asks, y.1 ≠ b) :
    (b, t + 200 * us) ∈ (x.settle t).asks := by
  have hnone : x.asks.find? (fun y => y.1 == b) = none := List.find?_eq_none.mpr fun y hy => by simpa using hask y hy
  have hmem := Session.settle_of_missing (t := t) h
  rwa [hnone, Option.getD_none] at hmem

/-- A run of a list covers a block. -/
def InRuns (l : List (Nat × Nat)) (j : Nat) : Prop := ∃ r ∈ l, r.1 ≤ j ∧ j < r.1 + r.2

theorem InRuns.cons {x : Nat × Nat} {l : List (Nat × Nat)} {j : Nat} : InRuns (x :: l) j ↔ (x.1 ≤ j ∧ j < x.1 + x.2) ∨ InRuns l j :=
  List.exists_mem_cons_iff ..

theorem missingRuns_cover (held : Nat → Bool) (n b j : Nat) : InRuns (missingRuns held n b) j ↔ b ≤ j ∧ j < b + n ∧ held j = false := by
  induction n generalizing b with
  | zero =>
    refine ⟨fun ⟨_, h, _⟩ => absurd h List.not_mem_nil, fun ⟨h1, h2, _⟩ => absurd h2 (by omega)⟩
  | succ n ih =>
    have hrest := ih (b + 1)
    have hfirst : b ≤ j ∧ j < b + (n + 1) ∧ held j = false ↔
        (j = b ∧ held b = false) ∨ (b + 1 ≤ j ∧ j < b + 1 + n ∧ held j = false) := by
      constructor
      · rintro ⟨h1, h2, h3⟩
        by_cases hj : j = b
        · exact Or.inl ⟨hj, hj ▸ h3⟩
        · exact Or.inr ⟨by omega, by omega, h3⟩
      · rintro (⟨rfl, h⟩ | ⟨h1, h2, h3⟩)
        · exact ⟨Nat.le_refl _, by omega, h⟩
        · exact ⟨by omega, by omega, h3⟩
    rw [hfirst, ← hrest]
    rw [missingRuns.eq_2]
    split
    · next hb =>
      have hno : ¬ (j = b ∧ held b = false) := fun h => by rw [hb] at h; exact Bool.noConfusion h.2
      exact ⟨Or.inr, fun h => h.resolve_left hno⟩
    · next hb =>
      have hfree : (j = b ∧ held b = false) ↔ j = b := and_iff_left (Bool.eq_false_iff.mpr hb)
      rw [hfree]
      cases hl : missingRuns held n (b + 1) with
      | nil =>
        simp only [InRuns.cons]
        have hone : (b ≤ j ∧ j < b + 1) ↔ j = b := by omega
        rw [hone]
      | cons y r =>
        dsimp only
        split
        · next hy =>
          simp only [InRuns.cons]
          have hjoin : (b ≤ j ∧ j < b + (y.2 + 1)) ↔ j = b ∨ (y.1 ≤ j ∧ j < y.1 + y.2) := by omega
          rw [hjoin, or_assoc]
        · simp only [InRuns.cons]
          have hone : (b ≤ j ∧ j < b + 1) ↔ j = b := by omega
          rw [hone]

/-! Sessions and what their messages do (R459-R467). -/

/-- SPAWN_OPEN's own rule. -/
def openRule (v : Nat) (s : State) : Verdict := if s.openCode v = 0 then .ok else .refused E.spawnStatus (s.openCode v)

theorem exec_spawnOpen_opens {a : Access} {v : BitVec 384} {s : State} (ht : s.Takes a E.spawnOpen 0 48 0 true)
    (h : (s.begin a.t).openCode v.toNat = 0) : ∃ u, exec (.spawnOpen a v) s = .next u ∧
      u.session? (bits v.toNat 367 352) (bits v.toNat 383 368) = some (sessionOf v.toNat) ∧ u.rd E.spawnStatus 0 = 0 ∧
      ∀ k, k ≠ spawnKey (bits v.toNat 367 352) (bits v.toNat 383 368) → u.spawns.get? k = s.spawns.get? k := by
  obtain ⟨w, hw⟩ : ∃ w, w = (s.commitAt a).setSession (sessionOf v.toNat) := ⟨_, rfl⟩
  have hsession : w.session? (bits v.toNat 367 352) (bits v.toNat 383 368) = some (sessionOf v.toNat) := hw ▸ Tab.get_set_same ..
  have hother : ∀ k, k ≠ spawnKey (bits v.toNat 367 352) (bits v.toNat 383 368) → w.spawns.get? k = s.spawns.get? k := fun k hk => by
    rw [hw, ← State.commitAt_spawns s a]
    exact Tab.get_set_other _ _ hk
  have hspawns : ((w.wr E.spawnStatus 0 0).answerItem stOk).spawns = w.spawns := w.wr_spawns E.spawnStatus 0 0
  refine ⟨(w.wr E.spawnStatus 0 0).answerItem stOk, ?_, ?_, ?_, fun k hk => ?_⟩
  · rw [hw]
    exact next_congr (State.writeOne_ok (rule := openRule v.toNat) ht (if_pos h))
  · rw [State.session?, hspawns]
    exact hsession
  · exact (State.rd_answerItem ..).trans (State.rd_wr_same ..)
  · rw [hspawns]
    exact hother k hk

theorem exec_spawnOpen_refused {a : Access} {v : BitVec 384} {s : State} (ht : s.Takes a E.spawnOpen 0 48 0 true)
    (h : (s.begin a.t).openCode v.toNat ≠ 0) : ∃ u, exec (.spawnOpen a v) s = .next u ∧ u.spawns = s.spawns ∧
      u.rd E.spawnStatus 0 = (s.begin a.t).openCode v.toNat := by
  refine ⟨_, next_congr ((State.writeOne_refused (rule := openRule v.toNat) ht (if_neg h)).trans
    (congrArg (State.answerItem · _) (Verdict.record_refused (by decide) _ _))), rfl, ?_⟩
  exact (State.rd_answerItem ..).trans (State.rd_wr_same ..)

theorem exec_spawnClose_closes {a : Access} {v : BitVec 32} {s : State} (ht : s.Takes a E.spawnClose 0 4 0 true) :
    ∃ u, exec (.spawnClose a v) s = .next u ∧ u.session? (bits v.toNat 31 16) (bits v.toNat 15 0) = none ∧
      ∀ k, k ≠ spawnKey (bits v.toNat 31 16) (bits v.toNat 15 0) → u.spawns.get? k = s.spawns.get? k := by
  refine ⟨_, next_congr (State.writeOne_ok ht rfl), Tab.get_del_same .., fun k hk => ?_⟩
  rw [← State.commitAt_spawns s a]
  exact Tab.get_del_other _ hk

theorem State.view_spawnQuery (s : State) : s.view E.spawnQuery 0 = queryView 256 (s.rd E.spawnQuery 0) (fun v => spawnAnswer v s) :=
  State.view_of_device rfl rfl

theorem spawnAnswer_none {v : Nat} {w : State} (h : w.session? (bits v 255 240) (bits v 239 224) = none) :
    spawnAnswer v w = pack [(16, bits v 255 240), (16, bits v 239 224), (224, 0)] := by
  simp only [spawnAnswer, h]

theorem spawnAnswer_some {v : Nat} {w : State} {x : Session} (h : w.session? (bits v 255 240) (bits v 239 224) = some x) :
    spawnAnswer v w = pack [(16, bits v 255 240), (16, bits v 239 224), (32, x.data.length), (32, x.missing.length), (19, x.covered),
      (7, x.adopted.length), (24, x.parent), (32, x.filled.length), (78, timeLayout x.doneAt)] := by
  simp only [spawnAnswer, h]

/-- Every answer begins with the job and session it was asked for. -/
theorem bits_jobSession (v : Nat) (post : List (Nat × Nat)) (hpost : (post.map Prod.fst).sum = 224) :
    bits (pack ((16, bits v 255 240) :: (16, bits v 239 224) :: post)) 255 224 = bits v 255 224 := by
  have hlt : pack post < 2 ^ 224 := hpost ▸ pack_lt post
  rw [pack_cons, pack_cons, List.map_cons, List.sum_cons, hpost]
  simp only [bits_div]
  norm_num at *
  omega

theorem spawnAnswer_spec (v : Nat) (w : State) : bits (spawnAnswer v w) 255 224 = bits v 255 224 ∧
    (w.session? (bits v 255 240) (bits v 239 224) = none → bits (spawnAnswer v w) 223 0 = 0) ∧
    ∀ x, w.session? (bits v 255 240) (bits v 239 224) = some x →
      bits (spawnAnswer v w) 223 192 = x.data.length % 2 ^ 32 ∧ bits (spawnAnswer v w) 191 160 = x.missing.length % 2 ^ 32 ∧
      bits (spawnAnswer v w) 133 110 = x.parent % 2 ^ 24 ∧ bits (spawnAnswer v w) 109 78 = x.filled.length % 2 ^ 32 := by
  refine ⟨?_, fun h => ?_, fun x h => ?_⟩
  · cases h : w.session? (bits v 255 240) (bits v 239 224) with
    | none => rw [spawnAnswer_none h]; exact bits_jobSession v _ rfl
    | some x => rw [spawnAnswer_some h]; exact bits_jobSession v _ rfl
  · rw [spawnAnswer_none h]
    exact bits_pack [(16, _), (16, _)] 224 0 [] rfl rfl
  · rw [spawnAnswer_some h]
    exact ⟨bits_pack [(16, _), (16, _)] 32 _ _ rfl rfl, bits_pack [(16, _), (16, _), (32, _)] 32 _ _ rfl rfl,
      bits_pack [(16, _), (16, _), (32, _), (32, _), (19, _), (7, _)] 24 _ _ rfl rfl,
      bits_pack [(16, _), (16, _), (32, _), (32, _), (19, _), (7, _), (24, _)] 32 _ _ rfl rfl⟩

theorem State.spawnMsg_bad {s : State} {b : List Byte} {kind : Nat} {act : State → Nat → State} (h : spawnFormOk b = false) :
    s.spawnMsg b kind act = s.bump E.spawnBad 0 1 := by
  simp only [State.spawnMsg, h, Bool.not_false, if_true]

theorem State.spawnMsg_taken {s : State} {b : List Byte} {kind : Nat} {act : State → Nat → State} (h : spawnFormOk b = true)
    (hk : bits (field b 0 32) 251 248 = kind) : s.spawnMsg b kind act = act s (field b 0 32) := by
  simp only [State.spawnMsg, h, hk, Bool.not_true, Bool.false_eq_true, if_false, ne_eq, not_true]

/-- A session that has cached one more block. -/
def Session.cached (x : Session) (k h : Nat) (d : List Byte) : Session :=
  { x with data := x.data.set k (h, d), high := some (match x.high with
    | some y => max y k
    | none => k) }

theorem State.spawns_cacheBlock {s : State} {x : Session} {k h : Nat} {d : List Byte} (hs : s.blockStack k = some h)
    (hfill : x.fill = false) (hk : x.data.get? k = none) :
    (s.cacheBlock x k d).spawns = s.spawns.set (spawnKey x.job x.number) ((x.cached k h d).settle s.now) := by
  have hfresh : ¬ (x.data.get? k).isSome = true := by rw [hk]; exact Bool.false_ne_true
  have hset : (s.setSession ((x.cached k h d).settle s.now)).spawns = s.spawns.set (spawnKey x.job x.number) ((x.cached k h d).settle s.now) := rfl
  unfold State.cacheBlock
  rw [hs]
  dsimp only
  rw [if_neg hfresh, if_neg fun hf => Bool.false_ne_true (hfill.symm.trans hf.1), foldl_spawns fun t a => State.spawns_serveBlock ..]
  exact (State.wr_spawns ..).trans hset

theorem State.cacheBlock_session {s : State} {x : Session} {k h : Nat} {d : List Byte} (hs : s.blockStack k = some h)
    (hfill : x.fill = false) (hk : x.data.get? k = none) :
    ∃ y, (s.cacheBlock x k d).spawns.get? (spawnKey x.job x.number) = some y ∧ y.data.get? k = some (h, d) ∧
      ∀ j, j ≠ k → y.data.get? j = x.data.get? j := by
  refine ⟨(x.cached k h d).settle s.now, ?_, Tab.get_set_same .., fun j hj => Tab.get_set_other _ _ hj⟩
  rw [State.spawns_cacheBlock hs hfill hk]
  exact Tab.get_set_same ..

/-! The messages of a session held (R461-R465). -/

section
variable {t : Time} {f : Cf} {b : List Byte} {x : Session} {s : State} (hform : spawnFormOk b = true)
  (hx : s.session? f.job (bits (field b 0 32) 247 232) = some x)
include hform hx

theorem exec_spawnBlock (hk : bits (field b 0 32) 251 248 = 1) (hcache : x.cache = true) :
    (x.blockOk b = true → exec (.spawnBlock t f b) s = .next ((s.begin t).cacheBlock x (bits (field b 0 32) 231 200) (b.drop 32))) ∧
    (x.blockOk b = false → exec (.spawnBlock t f b) s = .next (((s.begin t).bump E.spawnBad 0 1).raiseLim ms 0 0x701C 1 31
        [.v 16 f.job, .v 8 f.gen, .v 16 x.number, .v 32 (bits (field b 0 32) 231 200), .v 16 f.port])) := by
  have hx' : (s.begin t).session? f.job (bits (field b 0 32) 247 232) = some x := hx
  refine ⟨fun hb => next_congr ((State.spawnMsg_taken hform hk).trans ?_), fun hb => next_congr ((State.spawnMsg_taken hform hk).trans ?_)⟩
  all_goals simp only [hx', hcache, hb, Bool.not_true, Bool.not_false, Bool.false_eq_true, if_false, if_true]

theorem exec_spawnRangeReq (hk : bits (field b 0 32) 251 248 = 2) : exec (.spawnRangeReq t f b) s
    = .next ((missingRuns (fun j => (x.data.get? j).isSome) (bits (field b 0 32) 199 168) (bits (field b 0 32) 231 200)).foldl
        (fun (u : State) y => u.nack f.job x.number f.src y.1 y.2)
        (((List.range (bits (field b 0 32) 199 168)).map (fun i => bits (field b 0 32) 231 200 + i)).foldl
          (fun (u : State) j => u.serveBlock x j f.src) (s.begin t))) := by
  have hx' : (s.begin t).session? f.job (bits (field b 0 32) 247 232) = some x := hx
  refine next_congr ((State.spawnMsg_taken hform hk).trans ?_)
  simp only [hx']

theorem exec_spawnAck (hk : bits (field b 0 32) 251 248 = 3) : exec (.spawnAck t f b) s
    = .next (((s.begin t).setSession { x with
        cover := joinRange x.cover (bits (field b 0 32) 167 150, bits (field b 0 32) 149 131) }).ackSession (spawnKey x.job x.number)) := by
  have hx' : (s.begin t).session? f.job (bits (field b 0 32) 247 232) = some x := hx
  refine next_congr ((State.spawnMsg_taken hform hk).trans ?_)
  simp only [hx']

theorem exec_spawnReparent_full (hk : bits (field b 0 32) 251 248 = 4)
    (hnew : x.adopted.contains (bits (field b 0 32) 167 150, bits (field b 0 32) 149 131, f.src) = false) (hfull : 64 ≤ x.adopted.length) :
    exec (.spawnReparent t f b) s = .next ((s.begin t).nack f.job (bits (field b 0 32) 247 232) f.src 0 0) := by
  have hx' : (s.begin t).session? f.job (bits (field b 0 32) 247 232) = some x := hx
  refine next_congr ((State.spawnMsg_taken hform hk).trans ?_)
  simp only [hx', hnew, Bool.false_eq_true, if_false, if_pos hfull]

theorem exec_spawnReparent_adopts (hk : bits (field b 0 32) 251 248 = 4)
    (hnew : x.adopted.contains (bits (field b 0 32) 167 150, bits (field b 0 32) 149 131, f.src) = false) (hroom : x.adopted.length < 64) :
    ∃ u : State, exec (.spawnReparent t f b) s = .next (u.ackSession (spawnKey f.job (bits (field b 0 32) 247 232))) ∧
      u.rd E.reparents 0 = (s.rd E.reparents 0 + 1) % 2 ^ 64 ∧ ∀ y, u.spawns.get? (spawnKey x.job x.number) = some y →
        y.adopted = x.adopted ++ [(bits (field b 0 32) 167 150, bits (field b 0 32) 149 131, f.src)] := by
  obtain ⟨r, hr⟩ : ∃ r, r = (bits (field b 0 32) 167 150, bits (field b 0 32) 149 131, f.src) := ⟨_, rfl⟩
  obtain ⟨w, hw⟩ : ∃ w, w = (s.begin t).setSession { x with adopted := x.adopted ++ [r] } := ⟨_, rfl⟩
  have hget : w.spawns.get? (spawnKey x.job x.number) = some { x with adopted := x.adopted ++ [r] } := hw ▸ Tab.get_set_same ..
  have hcount : w.rd E.reparents 0 = s.rd E.reparents 0 := hw ▸ rfl
  obtain ⟨yes, hyes⟩ : ∃ yes, yes = spawnBody 5 (bits (field b 0 32) 247 232) 0 0 (bits (field b 0 32) 167 150)
    (bits (field b 0 32) 149 131) 0 := ⟨_, rfl⟩
  have hsent := Sends.sendSpawn (w.bump E.reparents 0 1) f.job f.src yes []
  have hx' : (s.begin t).session? f.job (bits (field b 0 32) 247 232) = some x := hx
  have hless : ¬ 64 ≤ x.adopted.length := Nat.not_le.mpr hroom
  refine ⟨(w.bump E.reparents 0 1).sendSpawn f.job f.src yes [], next_congr ((State.spawnMsg_taken hform hk).trans ?_), ?_, fun y hy => ?_⟩
  · rw [hr] at hw
    simp only [hx', hnew, Bool.false_eq_true, if_false, if_neg hless, hw, hyes]
  · rw [hsent.only _ _ (by decide) (by decide), State.rd_bump_same, hcount]
  · rw [hsent.spawns, State.bump, State.wr_spawns, hget] at hy
    rw [← Option.some.inj hy, hr]

theorem exec_spawnAdopted {j : Nat} (hk : bits (field b 0 32) 251 248 = 5) (halt : x.alt = some j) (hsrc : x.alts.getD j 0 = f.src) :
    exec (.spawnAdopted t f b) s = .next ((((s.begin t).setSession { x with parent := f.src, alt := none, acked := [] }).raise 0x7019 1 31
      [.v 16 f.job, .v 8 f.gen, .v 16 x.number, .v 24 x.parent, .v 24 f.src]).ackSession (spawnKey x.job x.number)) := by
  have hx' : (s.begin t).session? f.job (bits (field b 0 32) 247 232) = some x := hx
  refine next_congr ((State.spawnMsg_taken hform hk).trans ?_)
  simp only [hx', halt, hsrc, ne_eq, not_true, if_false]

theorem exec_spawnNack {j : Nat} (hk : bits (field b 0 32) 251 248 = 6) (hn : bits (field b 0 32) 199 168 = 0) (halt : x.alt = some j)
    (hsrc : x.alts.getD j 0 = f.src) : exec (.spawnNack t f b) s = .next ((s.begin t).tryAlternate x (j + 1)) := by
  have hx' : (s.begin t).session? f.job (bits (field b 0 32) 247 232) = some x := hx
  refine next_congr ((State.spawnMsg_taken hform hk).trans ?_)
  simp only [hx', halt, hsrc, hn, and_self, if_true]
end

theorem exec_spawnGapTimer {t : Time} {job n : Nat} {x : Session} {s : State} (hx : s.session? job n = some x) :
    exec (.spawnGapTimer t job n) s
      = .next (((missingRuns (fun b => !(x.due t).contains b) (x.high.getD 0) 0).flatMap (fun r => cutRun (r.2 / 4096 + 1) r.1 r.2)).foldl
          (fun (u : State) r => u.sendSpawn job x.parent (spawnBody 2 n r.1 r.2 0 0 0) []) ((s.begin t).setSession (x.asked t))) := by
  have hx' : (s.begin t).session? job n = some x := hx
  simp only [exec, execSpawnGapTimer, hx']

/-- Settles O53: each clause is the behaviour of one spawn command, or of how missing blocks are kept and asked for. -/
theorem spawnSessions : Obligations.SpawnSessions := by
  unfold Obligations.SpawnSessions
  refine ⟨fun _ _ _ ht => ⟨exec_spawnOpen_opens ht, exec_spawnOpen_refused ht⟩, fun _ _ _ ht => exec_spawnClose_closes ht,
    fun _ v _ ht => ⟨State.query_written ht (toNat_lt_two_pow v) State.view_spawnQuery, spawnAnswer_spec v.toNat⟩,
    fun _ _ _ _ hbad => ⟨next_congr (State.spawnMsg_bad hbad), next_congr (State.spawnMsg_bad hbad)⟩, fun t f b x s => ?_,
    fun _ _ _ _ _ hs hfill hk => State.cacheBlock_session hs hfill hk, missingRuns_cover, fun t x b => x.settle_asks_iff t b,
    fun _ _ _ _ hb => ⟨Session.settle_keeps hb, Session.settle_new hb⟩, fun t job n x s hx => ?_⟩
  · intro v k first n r hform hx
    exact ⟨fun hk hcache => exec_spawnBlock hform hx hk hcache, fun hk => exec_spawnRangeReq hform hx hk,
      fun hk => exec_spawnAck hform hx hk, fun hk hnew hfull => exec_spawnReparent_full hform hx hk hnew hfull,
      fun hk hnew hroom => exec_spawnReparent_adopts hform hx hk hnew hroom,
      fun j halt hsrc => ⟨fun hk => exec_spawnAdopted hform hx hk halt hsrc, fun hk hn => exec_spawnNack hform hx hk hn halt hsrc⟩⟩
  · exact exec_spawnGapTimer hx

end Sys2Proof.Machine
end

section
/-!
The control frames of members (R74, R80, R96, R107, R573).
-/
namespace Sys2Proof.Machine

/-! The control frames of members (R74, R80, R96, R107, R573). -/

theorem State.memberFrame_of_member {s : State} {f : Cf} {kind v c k : Nat} {x : Ctx} (act : State → Nat → Ctx → Nat → State)
    (h : s.FromMember f kind v c x k) : s.memberFrame f kind v act = act (s.openInst c (bits v 215 208) f.stamp) c x k := by
  obtain ⟨hkind, hform, hctx, hx, hrank, hstands, hopen, hleft⟩ := h
  have hctx' : s.ctxOf (ctlCh v).op = some c := hctx
  have hleft' : s.leftAt x (ctlCh v).inst = none := hleft
  have hstands' : x.stands (ctlCh v).inst = .isOpen ∨ x.stands (ctlCh v).inst = .next := hstands
  simp only [State.memberFrame, hkind, hform, hctx', hx, hrank, ne_eq, not_true, if_false, Bool.not_true, Bool.false_eq_true]
  cases hi : findInst x.insts (ctlCh v).inst with
  | none =>
    obtain hs | hs := hstands' <;> simp only [hs, hleft', Bool.false_eq_true, if_false] <;> rfl
  | some i =>
    have hstate : i.state = .opened := hopen i hi
    obtain hs | hs := hstands' <;> simp only [hs, hleft', hstate, bne_self_eq_false, Bool.false_eq_true, if_false] <;> rfl

/-- An instance number that is not ahead is the open one's, the next one's or an earlier one's. -/
theorem Ctx.not_ahead {x : Ctx} {n : Nat} (h : x.stands n ≠ .ahead) :
    ¬ (2 ≤ (n + 256 - x.opn) % 256 ∧ (n + 256 - x.opn) % 256 < 128) := by
  intro hd
  apply h
  simp only [Ctx.stands]
  rw [if_neg (by omega), if_neg (by omega), if_pos hd.2]

/-- A tally with one more rank. -/
def Tally.counted (y : Tally) (f : Cf) (v k : Nat) : Tally :=
  { y with first := min y.first f.stamp, ranks := insertNat k y.ranks, flags := y.flags ||| bits v 159 152, last := f.stamp }

theorem State.takeDone_counted {s : State} {f : Cf} {v c k : Nat} {x : Ctx} {i : Inst} {y : Tally} (hform : ctlFormOk f.job v [] = true)
    (hold : s.HoldsInst (bits v 247 216) (bits v 215 208) c x i) (hcoll : x.reg.collEn = true)
    (hhome : (homes x.reg.op 2 allOnes (x.hsetAt i.ver)).1 = s.gei) (hrank : x.reg.rankOf f.src = some k)
    (hahead : x.stands (bits v 215 208) ≠ .ahead) (hsent : i.tallySent = false)
    (hy : i.tally.getD { first := f.stamp, last := f.stamp } = y) (hdue : f.stamp ≤ y.deadline x.reg) (hnew : y.ranks.contains k = false) :
    s.takeDone f v = if (y.counted f v k).ranks.length = x.reg.m then
        (((if y.mark.isSome then s.bump E.cancelled 0 1 else s).setInst c { i with tally := some (y.counted f v k), tallySent := true }).sendTally x
          { i with tally := some (y.counted f v k) } 0 f.stamp).settle c
      else s.setInst c { i with tally := some (y.counted f v k) } := by
  obtain ⟨hctx, hx, hi⟩ := hold
  have hctx' : s.ctxOf (ctlCh v).op = some c := hctx
  have hi' : findInst x.insts (ctlCh v).inst = some i := hi
  have hnot : ¬ (2 ≤ ((ctlCh v).inst + 256 - x.opn) % 256 ∧ ((ctlCh v).inst + 256 - x.opn) % 256 < 128) := Ctx.not_ahead hahead
  have hlate : ¬ (i.tallySent = true ∨ y.deadline x.reg < f.stamp) := by
    rw [hsent]
    exact fun h => h.elim Bool.false_ne_true (Nat.not_lt.mpr hdue)
  have hmine : ¬ ((!x.reg.collEn) = true ∨ (homes x.reg.op 2 allOnes (x.hsetAt i.ver)).1 ≠ s.gei) := by
    rw [hcoll, hhome]
    exact fun h => h.elim (fun h => Bool.noConfusion h) fun h => h rfl
  simp only [State.takeDone, hform, hctx', hx, hi', if_neg hmine, hrank, if_neg hnot, State.openInst_of_held f.stamp hx hi', ite_self,
    State.inst?_of_get hx hi', hy, if_neg hlate, hnew, Bool.not_true, Bool.false_eq_true, if_false]
  rfl

section
variable {s : State} {f : Cf} {v c : Nat} {x : Ctx} {i : Inst} {y : Result} (hform : ctlFormOk f.job v [] = true)
  (hcause : bits v 167 160 = 9) (hold : s.HoldsInst (bits v 247 216) (bits v 215 208) c x i) (hstate : i.state ≠ .aborted)
  (hy : i.results.reverse.find? (fun (z : Result) => z.chunk == bits v 207 176 && isReceiver x i z.phase z.chunk f.src) = some y)
  (hcomplete : i.completeSent = false)
include hform hcause hold hstate hy hcomplete

theorem State.takeRefuse_again (hnew : y.resent.contains f.src = false) (hframes : y.frames ≠ []) : s.takeRefuse f v
    = (y.frames.foldl (fun (s : State) b => s.sendTo x 2 f.src (resentFrame s.gei b)) (s.setInst c { i with
        results := i.results.map (fun (z : Result) => if z.phase = y.phase ∧ z.chunk = y.chunk then { z with resent := z.resent ++ [f.src] } else z)
        lastLeft := max i.lastLeft s.now })).raise 0x7009 0 (8 + y.stack / 2)
          [Item.v 32 (bits v 247 216), .v 8 (bits v 215 208), .v 32 (bits v 207 176), .v 24 f.src] := by
  obtain ⟨hctx, hx, hi⟩ := hold
  have hctx' : s.ctxOf (ctlCh v).op = some c := hctx
  have hi' : findInst x.insts (ctlCh v).inst = some i := hi
  have hy' : i.results.reverse.find? (fun (z : Result) => z.chunk == (ctlCh v).chunk && isReceiver x i z.phase z.chunk f.src) = some y := hy
  have hagain : ¬ (y.resent.contains f.src = true ∨ y.frames.isEmpty = true) := by
    rw [hnew, List.isEmpty_eq_false_iff.mpr hframes]
    exact fun h => h.elim Bool.false_ne_true Bool.false_ne_true
  simp only [State.takeRefuse, hform, hcause, hctx', hx, hi', hy', if_neg hstate, hcomplete, if_neg hagain, ne_eq, not_true,
    Bool.not_true, Bool.false_eq_true, if_false]
  rfl

theorem State.takeRefuse_twice (hold' : y.resent.contains f.src = true) :
    s.takeRefuse f v = s.abortHere c (bits v 215 208) 0x06 (bits v 207 176) := by
  obtain ⟨hctx, hx, hi⟩ := hold
  have hctx' : s.ctxOf (ctlCh v).op = some c := hctx
  have hi' : findInst x.insts (ctlCh v).inst = some i := hi
  have hy' : i.results.reverse.find? (fun (z : Result) => z.chunk == (ctlCh v).chunk && isReceiver x i z.phase z.chunk f.src) = some y := hy
  simp only [State.takeRefuse, hform, hcause, hctx', hx, hi', hy', if_neg hstate, hcomplete, hold', ne_eq, not_true, true_or,
    Bool.not_true, Bool.false_eq_true, if_false, if_true]
  rfl
end

theorem State.takeCount_taken {s : State} {f : Cf} {v c : Nat} {payload : List Byte} {x : Ctx} {i : Inst}
    (hform : chunkFormOk f.job v payload = true) (hphase : (chOf v).phase = 1) (hold : s.HoldsInst (chOf v).op (chOf v).inst c x i)
    (hopen : i.state = .opened) (hstands : x.stands (chOf v).inst = .isOpen ∨ x.stands (chOf v).inst = .next)
    (hme : (x.hsetAt (x.verOf (chOf v).inst)).contains s.gei = true) (hsrc : (x.hsetAt (x.verOf (chOf v).inst)).contains f.src = true)
    (hver : (chOf v).hver = x.verOf (chOf v).inst) (hv : x.reg.v = true) (hchunk : (chOf v).chunk < x.reg.countChunks)
    (hfmt : (chOf v).fmt = 0x10) (hcount : (chOf v).count = min 1024 (x.reg.positions - 1024 * (chOf v).chunk))
    (hcheck : checkOk f.src v payload = true) (hnew : i.vectors.get? (chOf v).chunk = none) :
    s.takeCount f v payload
      = s.takeVector c (chOf v).inst (chOf v).chunk ((elemsOf 0x10 (chOf v).count payload).map (fun e => signed 32 e.raw)) := by
  obtain ⟨hctx, hx, hi⟩ := hold
  have hhomes : ¬ ((!(x.hsetAt (x.verOf (chOf v).inst)).contains s.gei) = true ∨ (!(x.hsetAt (x.verOf (chOf v).inst)).contains f.src) = true) := by
    rw [hme, hsrc]
    exact fun h => h.elim (fun h => Bool.noConfusion h) fun h => Bool.noConfusion h
  have hless : ¬ x.reg.countChunks ≤ (chOf v).chunk := Nat.not_le.mpr hchunk
  obtain hs | hs := hstands
  all_goals
    simp only [State.takeCount, hform, hphase, hctx, hx, hi, if_neg hhomes, hs, hopen, hver, hv, if_neg hless, hfmt, ← hcount, hcheck,
      State.openInst_of_held f.stamp hx hi, State.inst?_of_get hx hi, hnew, Option.isSome_none, or_self, ne_eq, not_true, bne_self_eq_false, Bool.not_true,
      Bool.false_eq_true, if_false]

theorem State.takeOther_misdirected {s : State} {f : Cf} {body : List Byte} (hlen : 32 ≤ body.length)
    (hform : ctlFormOk f.job (field body 0 32) (body.drop 32) = true)
    (hkind : field body 0 1 % 16 = 7 ∨ field body 0 1 % 16 = 10 ∨ field body 0 1 % 16 = 12 ∨ field body 0 1 % 16 = 13) :
    s.takeOther f body = s.bump E.misdirected 0 1 := by
  obtain ⟨n, hn⟩ : ∃ n, n = field body 0 1 % 16 := ⟨_, rfl⟩
  rw [← hn] at hkind
  have hchunk : ¬ (n = 1 ∨ n = 2) := by omega
  have hwhole : ¬ (body.length < 32 ∨ (!ctlFormOk f.job (field body 0 32) (body.drop 32)) = true) := by
    rw [hform]
    exact fun h => h.elim (Nat.not_lt.mpr hlen) fun h => Bool.noConfusion h
  have hthree : n ≠ 3 := by omega
  simp only [State.takeOther, ← hn, if_neg hchunk, if_neg hwhole, hthree, false_and, false_or, if_false, if_pos hkind]

/-- Settles O22: each clause is what one control frame does at the instance it finds. -/
theorem membersFrames : Obligations.MembersFrames := by
  unfold Obligations.MembersFrames
  refine ⟨fun t f header c k x s => ?_, fun t f header c k x i y s => ?_, fun t f header c x i y s => ?_,
    fun t f header payload c x i s => ?_, fun t f body s => ?_⟩
  · intro v n w
    refine ⟨fun h => ?_, fun h => ?_, fun h => ?_⟩
    all_goals
      have h' : (s.begin t).FromMember f _ v c x k := h
      exact next_congr (State.memberFrame_of_member _ h')
  · intro v hkind hform hold hcoll hhome hrank hahead hsent hy hdue hnew y' w
    have hold' : (s.begin t).HoldsInst (bits v 247 216) (bits v 215 208) c x i := hold
    exact next_congr ((if_pos hkind).trans (State.takeDone_counted hform hold' hcoll hhome hrank hahead hsent hy hdue hnew))
  · intro v note hkind hform hcause hold hstate hy hcomplete
    have hold' : (s.begin t).HoldsInst (bits v 247 216) (bits v 215 208) c x i := hold
    exact ⟨fun hnew hframes => next_congr ((if_pos hkind).trans
        (State.takeRefuse_again hform hcause hold' hstate hy hcomplete hnew hframes)),
      fun hagain => next_congr ((if_pos hkind).trans (State.takeRefuse_twice hform hcause hold' hstate hy hcomplete hagain))⟩
  · intro v h hs hkind hform hphase hold hopen hstands hme hsrc hver hv hchunk hfmt hcount hcheck hnew
    have hold' : (s.begin t).HoldsInst h.op h.inst c x i := hold
    exact next_congr ((if_pos hkind).trans
      (State.takeCount_taken hform hphase hold' hopen hstands hme hsrc hver hv hchunk hfmt hcount hcheck hnew))
  · intro kind hlen hform hkind
    exact next_congr (State.takeOther_misdirected hlen hform hkind)

end Sys2Proof.Machine
end

section
/-!
The BYPASS messages between the two homes of a chunk (R86, R128, R155).
-/
namespace Sys2Proof.Machine

/-! The BYPASS messages between the two homes of a chunk (R86, R128, R155). -/

theorem State.bypassMsg_taken {s : State} {p : Peer} {body : List Byte} {kind c : Nat} {x : Ctx} {i : Inst} {k : Chunk}
    (act : State → Nat → Ctx → Inst → Chunk → State) (h : s.FromOtherHome p body kind c x i k) :
    s.bypassMsg p body kind act = act s c x i k := by
  obtain ⟨hkind, hpeer, hlen, hold, hstate, hfind⟩ := h
  have hinst := State.instOf_of_holds hold
  obtain ⟨-, hx, -⟩ := hold
  simp only [State.bypassMsg, hkind, ne_eq, not_true, if_false, State.peerAccept_of_taken hpeer (beq_iff_eq.mpr hlen), hinst, hx]
  by_cases h3 : kind = 3
  · have hopen : i.state = .opened := hstate.resolve_right fun hc => hc.1 h3
    simp only [h3, if_true] at hfind
    simp only [h3, bne_self_eq_false, Bool.false_eq_true, if_false, hfind, hopen, true_or, if_true]
  · have hout : (kind != 3) = true := bne_iff_ne.mpr h3
    have hend : i.state = .opened ∨ (True ∧ i.state = .completed) := hstate.imp_right fun hc => ⟨trivial, hc.2⟩
    simp only [if_neg h3] at hfind
    simp only [hout, if_true, hfind, if_pos hend]

theorem State.inst?_num {s : State} {c n : Nat} {i : Inst} (h : s.inst? c n = some i) : i.num = n := by
  obtain ⟨x, -, hi⟩ := Option.bind_eq_some_iff.mp h
  exact findInst_num hi

/-- A chunk that its h1 has restarted, at its h2. -/
def Chunk.restarted (k : Chunk) (anchor : Int) : Chunk :=
  { k.cleared with flags := 0, eChunk := none, state := .opened, pass := 0, anchor := anchor }

theorem State.stopCopy_chunk (s : State) (k : Chunk) : (s.stopCopy k).1.spilling = false ∧ (s.stopCopy k).1.slots = k.slots ∧
    (s.stopCopy k).1.phase = k.phase ∧ (s.stopCopy k).1.chunk = k.chunk := by
  unfold State.stopCopy
  split <;> exact ⟨rfl, rfl, rfl, rfl⟩

theorem State.stopCopy_ctxs (s : State) (k : Chunk) : (s.stopCopy k).2.coll.ctxs = s.coll.ctxs := by
  unfold State.stopCopy
  split
  · exact foldl_ctxs (fun t h => t.returnSpill_ctxs h slotBytes) ..
  · rfl

theorem State.stopCopy_still (s : State) {k : Chunk} (h : k.spilling = false) : (s.stopCopy k).2 = s := by
  unfold State.stopCopy
  rw [if_neg fun hc => Bool.false_ne_true (h.symm.trans hc.1)]

theorem exec_bypassRestart {t : Time} {p : Peer} {body : List Byte} {c : Nat} {x : Ctx} {i : Inst} {k : Chunk} {s : State}
    (h : s.FromOtherHome p body 3 c x i k) (hk : k.state ≠ .completing) :
    ∃ u k', exec (.bypassRestart t p body) s = .next u ∧ u.chunk? c i.num k.phase k.chunk = some k' ∧
      k'.cover = [] ∧ k'.acc = .empty ∧ k'.wit = 0 ∧ k'.flags = 0 ∧ k'.pass = 0 ∧ k'.state = .opened ∧ k'.slots = k.slots ∧
      k'.spilling = false ∧ k'.anchor = (if k.phase = 1 then 0 else x.anchorFor (some i) t) ∧
      (k.spilling = false → u = { s.begin t with coll := { s.coll with ctxs := u.coll.ctxs } }) := by
  have h' : (s.begin t).FromOtherHome p body 3 c x i k := h
  obtain ⟨-, -, -, ⟨-, hx, hi⟩, -, -⟩ := id h'
  rw [← findInst_num hi] at hi
  obtain ⟨k₁, hk₁⟩ : ∃ k₁, k₁ = (s.begin t).stopCopy k := ⟨_, rfl⟩
  obtain ⟨hspill, hslots, hphase, hchunk⟩ := (s.begin t).stopCopy_chunk k
  have hctx : k₁.2.coll.ctxs.get? c = some x := by rw [hk₁, State.stopCopy_ctxs]; exact hx
  have hstill : k.spilling = false → k₁.2 = s.begin t := fun hs => hk₁ ▸ (s.begin t).stopCopy_still hs
  rw [← hk₁] at hspill hslots hphase hchunk
  obtain ⟨k', hk'⟩ : ∃ k', k' = k₁.1.restarted (if k.phase = 1 then 0 else x.anchorFor (some i) t) := ⟨_, rfl⟩
  refine ⟨k₁.2.setChunk c i.num k', k', ?_, ?_, ?_⟩
  · refine next_congr ((State.bypassMsg_taken _ h').trans ?_)
    rw [if_neg hk, hk', hk₁]
    rfl
  · have hput := State.chunk?_setChunk k' (State.inst?_of_get hctx hi)
    have hphase' : k'.phase = k.phase := hk' ▸ hphase
    have hchunk' : k'.chunk = k.chunk := hk' ▸ hchunk
    rwa [hphase', hchunk'] at hput
  · subst hk'
    refine ⟨rfl, rfl, rfl, rfl, rfl, rfl, hslots, hspill, rfl, fun hs => ?_⟩
    rw [hstill hs]
    rfl

/-- Settles O26: each message, from the chunk's other home, is its act on the chunk held here. -/
theorem bypassMessages : Obligations.BypassMessages := by
  unfold Obligations.BypassMessages
  refine fun t p body c x i k s => ⟨fun h => ?_, fun h => ?_, fun h => ?_, fun h hk => exec_bypassRestart h hk⟩
  · intro w j hj
    have h' : (s.begin t).FromOtherHome p body 0 c x i k := h
    refine next_congr ((State.bypassMsg_taken _ h').trans ?_)
    change (match w.inst? c i.num with
      | some j => w.deferChunk c j.num x j k.phase k.chunk
      | none => w) = w.deferChunk c i.num x j k.phase k.chunk
    simp only [hj, State.inst?_num hj]
  · have h' : (s.begin t).FromOtherHome p body 1 c x i k := h
    exact next_congr (State.bypassMsg_taken _ h')
  · have h' : (s.begin t).FromOtherHome p body 2 c x i k := h
    exact next_congr (State.bypassMsg_taken _ h')

end Sys2Proof.Machine
end

section
/-!
The entries of the collective chapters, and fields of answers that stand side by side.
-/
namespace Sys2Proof.Machine

/-! Fields of an answer: two that stand side by side, and one bit. -/

theorem bits_pack_two (v : Nat) {hi m lo : Nat} (post : List (Nat × Nat)) (hpost : (post.map Prod.fst).sum = lo) (hm : lo ≤ m) (hhi : m < hi) :
    bits (pack ((hi - m, bits v hi (m + 1)) :: (m + 1 - lo, bits v m lo) :: post)) hi lo = bits v hi lo := by
  have hlt : pack post < 2 ^ lo := hpost ▸ pack_lt post
  have hshift : v / 2 ^ (m + 1) = v / 2 ^ lo / 2 ^ (m + 1 - lo) := by
    rw [Nat.div_div_eq_div_mul, ← Nat.pow_add, Nat.add_sub_cancel' (by omega)]
  obtain ⟨a, ha⟩ : ∃ a, a = v / 2 ^ lo := ⟨_, rfl⟩
  have hlow : a % 2 ^ (m + 1 - lo) < 2 ^ (m + 1 - lo) := Nat.mod_lt _ (Nat.two_pow_pos _)
  have hwhole : pack ((hi - m, bits v hi (m + 1)) :: (m + 1 - lo, bits v m lo) :: post)
      = pack post + (a % 2 ^ (m + 1 - lo) + 2 ^ (m + 1 - lo) * (a / 2 ^ (m + 1 - lo) % 2 ^ (hi - m))) * 2 ^ lo := by
    have hhigh : hi + 1 - (m + 1) = hi - m := by omega
    rw [pack_cons, pack_cons, List.map_cons, List.sum_cons, hpost, bits_div, bits_div, hhigh, hshift, ← ha, Nat.mod_mod, Nat.mod_mod,
      Nat.pow_add]
    ring
  have hwidth : hi + 1 - lo = (m + 1 - lo) + (hi - m) := by omega
  rw [bits_div, hwhole, bits_div v hi lo, Nat.add_mul_div_right _ _ (Nat.two_pow_pos _), Nat.div_eq_of_lt hlt, Nat.zero_add, hwidth, Nat.pow_add,
    ← ha, Nat.mod_mul, Nat.mod_mul, Nat.add_mul_mod_self_left, Nat.add_mul_div_left _ _ (Nat.two_pow_pos _), Nat.div_eq_of_lt hlow,
    Nat.zero_add, Nat.mod_mod, Nat.mod_mod]

theorem bit_eq_bits (v i : Nat) : bit v i = Nat.beq (bits v i i) 1 := by
  rw [bit, bits, Nat.add_sub_cancel_left, Nat.pow_one]

theorem bit_pack (pre : List (Nat × Nat)) (b : Bool) (post : List (Nat × Nat)) {i : Nat} (h : i = (post.map Prod.fst).sum) :
    bit (pack (pre ++ (1, b2n b) :: post)) i = b := by
  rw [bit_eq_bits, bits_pack pre 1 _ post h (Nat.add_sub_cancel_left ..)]
  cases b <;> rfl

/-! The entries of the collective chapters (R36, R49, R77, R137, R147). -/

theorem State.view_homeQuery (s : State) : s.view E.homeQuery 0 = queryView 128 (s.rd E.homeQuery 0) (fun v => homeAnswer v s) :=
  State.view_of_device rfl rfl

theorem State.view_memberQuery (s : State) : s.view E.memberQuery 0 = queryView 256 (s.rd E.memberQuery 0) (fun v => memberAnswer v s) :=
  State.view_of_device rfl rfl

theorem homeAnswer_spec {v c : Nat} {x : Ctx} {s : State} (hc : s.ctxOf (bits v 127 96) = some c) (hx : s.coll.ctxs.get? c = some x) :
    bits (homeAnswer v s) 127 94 = bits v 127 94 ∧
      bits (homeAnswer v s) 87 64 = (homes (bits v 127 96) (bits v 95 94) (bits v 63 32) x.hset).1 % 2 ^ 24 ∧
      bits (homeAnswer v s) 63 32 = bits v 63 32 ∧
      bits (homeAnswer v s) 23 0 = (homes (bits v 127 96) (bits v 95 94) (bits v 63 32) x.hset).2 % 2 ^ 24 := by
  have hanswer : homeAnswer v s = pack [(32, bits v 127 96), (2, bits v 95 94), (6, 0),
      (24, (homes (bits v 127 96) (bits v 95 94) (bits v 63 32) x.hset).1), (32, bits v 63 32), (8, 0),
      (24, (homes (bits v 127 96) (bits v 95 94) (bits v 63 32) x.hset).2)] := by
    simp only [homeAnswer, hc, hx]
  rw [hanswer]
  exact ⟨bits_pack_two v (hi := 127) (m := 95) (lo := 94) _ rfl (by decide) (by decide),
    bits_pack [(32, _), (2, _), (6, _)] 24 _ _ rfl rfl, bits_pack_of_lt [(32, _), (2, _), (6, _), (24, _)] _ rfl rfl (bits_lt v 63 32),
    bits_pack [(32, _), (2, _), (6, _), (24, _), (32, _), (8, _)] 24 _ [] rfl rfl⟩

theorem memberAnswer_spec {v : Nat} {x : Ctx} {i : Inst} {s : State} (hx : s.coll.ctxs.get? (bits v 255 240) = some x)
    (hi : findInst x.insts x.opn = some i) (hk : bits v 239 222 < x.reg.m) :
    bits (memberAnswer v s) 255 222 = bits v 255 222 ∧
      bits (memberAnswer v s) 221 144 = timeLayout (i.stall x.reg (bits v 239 222)).tData % 2 ^ 78 ∧
      bits (memberAnswer v s) 143 66 = timeLayout (i.stall x.reg (bits v 239 222)).d % 2 ^ 78 ∧
      bit (memberAnswer v s) 65 = x.owes i s.gei (bits v 239 222) ∧
      bit (memberAnswer v s) 64 = (i.stall x.reg (bits v 239 222)).mark.isSome ∧
      bits (memberAnswer v s) 63 32 = (i.stall x.reg (bits v 239 222)).beacon % 2 ^ 32 ∧
      bits (memberAnswer v s) 31 0 = (i.stall x.reg (bits v 239 222)).throttled % 2 ^ 32 := by
  have hanswer : memberAnswer v s = pack [(16, bits v 255 240), (18, bits v 239 222),
      (78, timeLayout (i.stall x.reg (bits v 239 222)).tData), (78, timeLayout (i.stall x.reg (bits v 239 222)).d),
      (1, b2n (x.owes i s.gei (bits v 239 222))), (1, b2n (i.stall x.reg (bits v 239 222)).mark.isSome),
      (32, (i.stall x.reg (bits v 239 222)).beacon), (32, (i.stall x.reg (bits v 239 222)).throttled)] := by
    simp only [memberAnswer, hx, hi, if_neg (Nat.not_le.mpr hk)]
  rw [hanswer]
  exact ⟨bits_pack_two v (hi := 255) (m := 239) (lo := 222) _ rfl (by decide) (by decide), bits_pack [(16, _), (18, _)] 78 _ _ rfl rfl,
    bits_pack [(16, _), (18, _), (78, _)] 78 _ _ rfl rfl, bit_pack [(16, _), (18, _), (78, _), (78, _)] _ _ rfl,
    bit_pack [(16, _), (18, _), (78, _), (78, _), (1, _)] _ _ rfl, bits_pack [(16, _), (18, _), (78, _), (78, _), (1, _), (1, _)] 32 _ _ rfl rfl,
    bits_pack [(16, _), (18, _), (78, _), (78, _), (1, _), (1, _), (32, _)] 32 _ [] rfl rfl⟩

theorem weight_lt (seed i : Nat) : weight seed i < 2 ^ 64 := by
  unfold weight
  dsimp only
  split
  · decide
  · exact Nat.lt_of_lt_of_le (Nat.mod_lt _ (Nat.two_pow_pos _)) (Nat.pow_le_pow_right (by decide) (by decide))

theorem exec_weightQuery {a : Access} {v : BitVec 192} {s : State} (ht : s.Takes a E.weightQuery 0 24 0 (s.ownsOp a (bits v.toNat 191 160))) :
    ∃ u, exec (.weightQuery a v) s = .next u ∧ u.out = [.item stOk 0] ∧ bits (u.rd E.weightQuery 0) 63 0
      = weight (wseed (bits v.toNat 191 160) (bits v.toNat 127 126) (bits v.toNat 159 128)) (bits v.toNat 73 64) := by
  refine ⟨_, next_congr (State.writeOne_ok ht rfl), ?_, ?_⟩
  · rw [State.answerItem_out, State.wr_out, State.commitAt_out, List.nil_append]
  · rw [State.rd_answerItem, State.rd_wr_same]
    exact bits_pack_of_lt [(32, _), (32, _), (2, _), (52, _), (10, _)] [] rfl rfl (weight_lt _ _)

/-- A context whose fixed anchor has been written at a time. -/
def Ctx.anchored (x : Ctx) (t : Time) (v : Int) : Ctx := { x with writes := (t, v) :: x.writes }

theorem Ctx.anchorFor_anchored {x : Ctx} (t : Time) (v : Int) (hauto : x.reg.auto = false) (hzero : x.reg.zeroAnchor = false)
    (i : Option Inst) (stamp : Time) : (x.anchored t v).anchorFor i stamp = match i.bind (fun (j : Inst) => j.anchor) with
      | some k => k
      | none => if t ≤ stamp then v else x.anchorFor i stamp := by
  have hauto' : (x.anchored t v).reg.auto = false := hauto
  have hzero' : (x.anchored t v).reg.zeroAnchor = false := hzero
  have hwrite : anchorAt (x.anchored t v).writes stamp (x.anchored t v).reg.ar.anchor
      = if t ≤ stamp then v else anchorAt x.writes stamp x.reg.ar.anchor := by
    by_cases h : t ≤ stamp <;> simp only [anchorAt, Ctx.anchored, List.find?, h, decide_true, decide_false, if_true, if_false]
  cases i with
  | none => simpa only [Ctx.anchorFor, hauto, hauto', hzero, hzero', Bool.false_eq_true, if_false, Option.bind_none] using hwrite
  | some j =>
    cases hj : j.anchor with
    | none => simpa only [Ctx.anchorFor, hzero, hzero', Bool.false_eq_true, if_false, Option.bind_some, hj] using hwrite
    | some k => simp only [Ctx.anchorFor, hzero', Bool.false_eq_true, if_false, Option.bind_some, hj]

theorem exec_windowAnchor {a : Access} {ctx v : Nat} {x : Ctx} {s : State} (ht : s.Takes a E.windowAnchor ctx 2 v true)
    (hx : s.coll.ctxs.get? ctx = some x) (hauto : x.reg.auto = false) (hzero : x.reg.zeroAnchor = false) :
    ∃ u, exec (.windowAnchor a ctx v) s = .next u ∧ u.coll.ctxs.get? ctx = some (x.anchored a.t (signed 16 v)) := by
  have hx' : (s.begin a.t).coll.ctxs.get? ctx = some x := hx
  have hrule : windowRule ctx (s.begin a.t) = .ok := by
    simp only [windowRule, hx', hauto, hzero, Bool.or_false, Bool.false_eq_true, if_false]
  have hcommit : (s.commitAt a).coll.ctxs.get? ctx = some x := by rw [State.commitAt_coll]; exact hx
  refine ⟨_, next_congr (State.writeOne_ok ht hrule), (State.ctx_modCtx _ hcommit).trans ?_⟩
  rw [State.commitAt_now]
  rfl

theorem exec_trapValid {a : Access} {s : State} (ht : s.Takes a E.trapValid 0 1 1 true) :
    ∃ u, exec (.trapValid a 1) s = .next u ∧ u.rd E.trapValid 0 = 0 ∧ u.out = [.item stOk 0] ∧
      SameBut [(E.trapValid, 0), (E.commitLast, 0), (E.domainState, 18 + s.keeper)] s u := by
  have hput : ∀ w : State, w.putValue E.trapValid 0 1 = w.wr E.trapValid 0 0 := fun w => rfl
  refine ⟨_, next_congr ((State.writeOne_ok ht rfl).trans (by rw [hput])), ?_, ?_, ?_⟩
  · exact (State.rd_answerItem ..).trans (State.rd_wr_same ..)
  · rw [State.answerItem_out, State.wr_out, State.commitAt_out, List.nil_append]
  · exact (s.sameBut_wr_commitAt a E.trapValid 0 0).congr fun _ _ => State.rd_answerItem ..

/-- Settles O27: each clause is one entry of the collective chapters. -/
theorem collectiveEntries : Obligations.CollectiveEntries := by
  unfold Obligations.CollectiveEntries
  refine ⟨fun _ v _ ht => ?_, fun v c x s _ hc hx => homeAnswer_spec hc hx, fun _ v _ ht => ?_,
    fun v x i s _ hx hi hk => memberAnswer_spec hx hi hk, fun _ _ _ ht => exec_weightQuery ht, fun a ctx v x s ht hx hauto hzero => ?_,
    fun _ _ ht => exec_trapValid ht⟩
  · exact State.query_written ht (toNat_lt_two_pow v) State.view_homeQuery
  · exact State.query_written ht (toNat_lt_two_pow v) State.view_memberQuery
  · obtain ⟨u, hu, hctx⟩ := exec_windowAnchor ht hx hauto hzero
    exact ⟨u, _, hu, hctx, Ctx.anchorFor_anchored a.t (signed 16 v) hauto hzero⟩

end Sys2Proof.Machine
end

section
/-!
The tensor and graph commands (R167-R174, R179, R184, R193, R201).
-/
namespace Sys2Proof.Machine

/-! A field of a field, and digits of four bits (R179). -/

theorem bits_within (pre : List (Nat × Nat)) (w v : Nat) (post : List (Nat × Nat)) {hi lo l : Nat} (hl : l = (post.map Prod.fst).sum)
    (hlo : l ≤ lo) (hle : lo ≤ hi) (hhi : hi < l + w) :
    bits (pack (pre ++ (w, v) :: post)) hi lo = bits v (hi - l) (lo - l) := by
  have hwhole : bits (pack (pre ++ (w, v) :: post)) (l + w - 1) l = v % 2 ^ w := bits_pack pre w v post hl (by omega)
  have hinner : ∀ x, bits x hi lo = bits (bits x (l + w - 1) l) (hi - l) (lo - l) := fun x => by
    have hw : l + w - 1 + 1 - l = w := by omega
    have hwidth : hi - l + 1 - (lo - l) = hi + 1 - lo := by omega
    have hsplit : 2 ^ lo = 2 ^ l * 2 ^ (lo - l) := by rw [← Nat.pow_add, Nat.add_sub_cancel' hlo]
    rw [bits_div x, bits_div x, hw, bits_mod_two_pow (by omega), bits_div, hwidth, hsplit, Nat.div_div_eq_div_mul]
  rw [hinner, hwhole, bits_mod_two_pow (by omega)]

/-- Digits of four bits, the first lowest. -/
def digits (d : Nat → Nat) (n : Nat) : Nat := (List.range n).foldl (fun a q => a + d q * 2 ^ (4 * q)) 0

theorem digits_succ (d : Nat → Nat) (n : Nat) : digits d (n + 1) = digits d n + d n * 2 ^ (4 * n) := by
  rw [digits, List.range_succ, List.foldl_append]
  rfl

theorem digits_lt {d : Nat → Nat} (hd : ∀ q, d q < 16) (n : Nat) : digits d n < 2 ^ (4 * n) := by
  induction n with
  | zero => exact Nat.two_pow_pos _
  | succ n ih =>
    have hpow : 2 ^ (4 * (n + 1)) = 2 ^ (4 * n) * 16 := by rw [Nat.mul_add, Nat.pow_add]
    have hle : d n * 2 ^ (4 * n) ≤ 15 * 2 ^ (4 * n) := Nat.mul_le_mul_right _ (Nat.le_of_lt_succ (hd n))
    rw [digits_succ, hpow]
    omega

theorem bits_digits {d : Nat → Nat} (hd : ∀ q, d q < 16) {n q : Nat} (hq : q < n) : bits (digits d n) (4 * q + 3) (4 * q) = d q := by
  have hwidth : 4 * q + 3 + 1 - 4 * q = 4 := by omega
  rw [bits_div, hwidth]
  induction n with
  | zero => exact absurd hq (Nat.not_lt_zero q)
  | succ n ih =>
    rw [digits_succ]
    obtain hlt | rfl := Nat.lt_succ_iff_lt_or_eq.mp hq
    · have hpow : 2 ^ (4 * n) = 2 ^ (4 * (n - q - 1)) * 2 ^ 4 * 2 ^ (4 * q) := by
        rw [← Nat.pow_add, ← Nat.pow_add]
        congr 1
        omega
      rw [hpow, ← Nat.mul_assoc, Nat.add_mul_div_right _ _ (Nat.two_pow_pos _), ← Nat.mul_assoc, Nat.add_mul_mod_self_right, ih hlt]
    · rw [Nat.add_mul_div_right _ _ (Nat.two_pow_pos _), Nat.div_eq_of_lt (digits_lt hd q), Nat.zero_add]
      exact Nat.mod_eq_of_lt (hd q)

/-! Tensors (R167-R172). -/

/-- TENSOR_CREATE's own rule. -/
def tensorCreateRule (a : Access) (v : Nat) (s : State) : Verdict :=
  let code := codeFor (s.tensorCheck v) (s.leads a (tensorOf v).op)
  if code = 0 then .ok else .refused E.tensorStatus code

/-- TENSOR_DESTROY's own rule. -/
def tensorDestroyRule (h : Nat) (s : State) : Verdict :=
  let code := s.destroyCode h
  if code = 0 then .ok else .refused E.tensorStatus code

theorem exec_tensorCreate {a : Access} {v : BitVec 256} {s : State}
    (ht : s.Takes a E.tensorCreate 0 32 0 (s.ownsJob a (jobOf (tensorOf v.toNat).op))) (hcheck : s.tensorCheck v.toNat = 0)
    (hlead : s.leads a (tensorOf v.toNat).op = true) : exec (.tensorCreate a v) s = .next ((((s.commitAt a).wr E.tensorStatus 0 0xFF).startLed 3
      (tensorOf v.toNat).handle (toBytes 32 v.toNat) ((s.commitAt a).hsetOf (tensorOf v.toNat).op) noGei (tensorPhase v.toNat)).answerItem stOk) := by
  have hcheck' : (s.begin a.t).tensorCheck v.toNat = 0 := hcheck
  have hlead' : (s.begin a.t).leads a (tensorOf v.toNat).op = true := hlead
  have hrule : tensorCreateRule a v.toNat (s.begin a.t) = .ok := by
    simp only [tensorCreateRule, hcheck', hlead', codeFor, Nat.zero_ne_one, Bool.not_true, Bool.false_eq_true, if_false, if_true]
  exact next_congr (State.writeOne_ok (rule := tensorCreateRule a v.toNat) ht hrule)

theorem exec_tensorDestroy {a : Access} {h : Nat} {s : State} (ht : s.Takes a E.tensorDestroy 0 4 h (s.ownsJob a (h / 65536)))
    (hcode : s.destroyCode h = 0) : exec (.tensorDestroy a h) s = .next ((((s.commitAt a).wr E.tensorStatus 0 0xFF).startLed 4 h (toBytes 4 h)
      ((s.commitAt a).tensorDevices h) noGei (destroyPhase h)).answerItem stOk) :=
  next_congr (State.writeOne_ok (rule := tensorDestroyRule h) ht (if_pos hcode))

theorem List.any_ne_eq_false_of_all {l : List Byte} (h : l.all (fun b => b == 0) = true) : l.any (fun b => b != 0) = false := by
  rw [List.any_eq_false]
  intro b hb
  rw [bne, List.all_eq_true.mp h b hb]
  decide

/-- TENSOR_IO's own act. -/
def tensorIoAct (d : List Byte) (s : State) : State :=
  let s := (s.wr E.tensorStatus 0 0).wr E.tensorIo 0 (field d 0 4 * 2 ^ 32 + field d 4 4)
  match s.tensor? (field d 0 4) with
  | some t =>
    if (d.drop 8).any (fun b => b != 0) then
      let lost := (t.stripe (field d 4 4)).lost
      let s := s.writeStripe t (field d 4 4) (ioValues d)
      if lost then s.markInexact (field d 0 4) else s
    else s
  | none => s

section
variable {a : Access} {d : List Byte} {t : Tensor} {s : State}
  (hio : s.Takes a E.tensorIo 0 d.length 0 (s.ownsJob a (field d 0 4 / 65536))) (ht : s.tensor? (field d 0 4) = some t) (hcls : t.cls ≠ 2)
  (hk : field d 4 4 < t.count) (hmine : s.holderOf t (field d 4 4) = s.gei)

include ht hcls hk hmine in
theorem ioRule_held : ioRule d s = if (d.drop 8).any (fun b => b != 0) = true ∧ s.tensorBusy (field d 0 4) = true then
      .refused E.tensorStatus 0x0C
    else if (d.drop 8).any (fun b => b != 0) = true ∧ (ioValues d).any (notFinite fp32) = true then .refused E.tensorStatus 0x04 else .ok := by
  have hheld : ¬ (t.cls = 2 ∨ t.count ≤ field d 4 4 ∨ s.holderOf t (field d 4 4) ≠ s.gei) := fun h =>
    h.elim hcls fun h => h.elim (Nat.not_le.mpr hk) fun h => h hmine
  simp only [ioRule, ht, if_neg hheld]

include hio ht hcls hk hmine

theorem exec_tensorIo_zeros (hz : (d.drop 8).all (fun b => b == 0) = true) : ∃ u, exec (.tensorIo a d) s = .next u ∧ u.graphs = s.graphs ∧
    u.out = [.item stOk 0] ∧ u.rd E.tensorIo 0 = field d 0 4 * 2 ^ 32 + field d 4 4 := by
  have hno := List.any_ne_eq_false_of_all hz
  have hrule : ioRule d (s.begin a.t) = .ok := by
    rw [ioRule_held (s := s.begin a.t) ht hcls hk hmine, hno, if_neg (fun h => Bool.false_ne_true h.1), if_neg (fun h => Bool.false_ne_true h.1)]
  obtain ⟨w, hw⟩ : ∃ w, w = ((s.commitAt a).wr E.tensorStatus 0 0).wr E.tensorIo 0 (field d 0 4 * 2 ^ 32 + field d 4 4) := ⟨_, rfl⟩
  have hgraphs : w.graphs = s.graphs := by rw [hw, State.wr_graphs, State.wr_graphs, State.commitAt_graphs]
  have hout : w.out = [] := by rw [hw, State.wr_out, State.wr_out, State.commitAt_out]
  have ht' : w.tensor? (field d 0 4) = some t := by rw [← ht, State.tensor?, State.tensor?, hgraphs]
  have hact : tensorIoAct d (s.commitAt a) = w := by
    simp only [tensorIoAct, ← hw, ht', hno, Bool.false_eq_true, if_false]
  refine ⟨w.answerItem stOk, next_congr ((State.writeOne_ok (act := tensorIoAct d) hio hrule).trans (by rw [hact])), hgraphs, ?_, ?_⟩
  · rw [State.answerItem_out, hout, List.nil_append]
  · rw [State.rd_answerItem, hw, State.rd_wr_same]

theorem exec_tensorIo_writes (hw : (d.drop 8).any (fun b => b != 0) = true) (hidle : s.tensorBusy (field d 0 4) = false)
    (hfin : (ioValues d).any (notFinite fp32) = false) : exec (.tensorIo a d) s = .next ((if (t.stripe (field d 4 4)).lost then
      ((((s.commitAt a).wr E.tensorStatus 0 0).wr E.tensorIo 0 (field d 0 4 * 2 ^ 32 + field d 4 4)).writeStripe t (field d 4 4)
        (ioValues d)).markInexact (field d 0 4)
      else (((s.commitAt a).wr E.tensorStatus 0 0).wr E.tensorIo 0 (field d 0 4 * 2 ^ 32 + field d 4 4)).writeStripe t (field d 4 4)
        (ioValues d)).answerItem stOk) := by
  have hidle' : (s.begin a.t).tensorBusy (field d 0 4) = false := hidle
  have hrule : ioRule d (s.begin a.t) = .ok := by
    rw [ioRule_held (s := s.begin a.t) ht hcls hk hmine, hidle', hfin, if_neg (fun h => Bool.false_ne_true h.2),
      if_neg (fun h => Bool.false_ne_true h.2)]
  obtain ⟨w, hw'⟩ : ∃ w, w = ((s.commitAt a).wr E.tensorStatus 0 0).wr E.tensorIo 0 (field d 0 4 * 2 ^ 32 + field d 4 4) := ⟨_, rfl⟩
  have hgraphs : w.graphs = s.graphs := by rw [hw', State.wr_graphs, State.wr_graphs, State.commitAt_graphs]
  have ht' : w.tensor? (field d 0 4) = some t := by rw [← ht, State.tensor?, State.tensor?, hgraphs]
  have hact : tensorIoAct d (s.commitAt a) = if (t.stripe (field d 4 4)).lost then
      (w.writeStripe t (field d 4 4) (ioValues d)).markInexact (field d 0 4) else w.writeStripe t (field d 4 4) (ioValues d) := by
    simp only [tensorIoAct, ← hw', ht', hw, if_true]
  rw [← hw', ← hact]
  exact next_congr (State.writeOne_ok (act := tensorIoAct d) hio hrule)

theorem exec_tensorIo_busy (hw : (d.drop 8).any (fun b => b != 0) = true) (hbusy : s.tensorBusy (field d 0 4) = true) :
    ∃ u, exec (.tensorIo a d) s = .next u ∧ u.graphs = s.graphs ∧ u.rd E.tensorStatus 0 = 0x0C ∧ u.out = [.item stRefused 0] := by
  have hbusy' : (s.begin a.t).tensorBusy (field d 0 4) = true := hbusy
  have hrule : ioRule d (s.begin a.t) = .refused E.tensorStatus 0x0C := by
    rw [ioRule_held (s := s.begin a.t) ht hcls hk hmine, if_pos ⟨hw, hbusy'⟩]
  refine ⟨((s.begin a.t).wr E.tensorStatus 0 0x0C).answerItem stRefused, next_congr ((State.writeOne_refused (act := tensorIoAct d) hio hrule).trans
    (congrArg (State.answerItem · _) (Verdict.record_refused (by decide) _ _))), rfl, ?_, rfl⟩
  rw [State.rd_answerItem, State.rd_wr_same]
end

theorem State.view_tensorQuery (s : State) : s.view E.tensorQuery 0 = queryView 128 (s.rd E.tensorQuery 0) (fun v => tensorAnswer v s) :=
  State.view_of_device rfl rfl

theorem tensorAnswer_spec {v : Nat} {t : Tensor} {s : State} (ht : s.tensor? (bits v 127 96) = some t) :
    bits (tensorAnswer v s) 127 96 = bits v 127 96 ∧ bits (tensorAnswer v s) 95 64 = t.version % 2 ^ 32 ∧
      bits (tensorAnswer v s) 55 32 = (if t.cls = 1 then s.ownerOf t else noGei) % 2 ^ 24 ∧
      bits (tensorAnswer v s) 31 0 = (s.heldStripes t).length % 2 ^ 32 := by
  have hanswer : tensorAnswer v s = pack [(32, bits v 127 96), (32, t.version), (8, 0), (24, if t.cls = 1 then s.ownerOf t else noGei),
      (32, (s.heldStripes t).length)] := by
    simp only [tensorAnswer, ht]
  rw [hanswer]
  exact ⟨bits_pack_of_lt [] _ rfl rfl (bits_lt v 127 96), bits_pack [(32, _)] 32 _ _ rfl rfl, bits_pack [(32, _), (32, _), (8, _)] 24 _ _ rfl rfl,
    bits_pack [(32, _), (32, _), (8, _), (24, _)] 32 _ [] rfl rfl⟩

/-! Graphs and their images (R173, R174, R184, R193, R201). -/

theorem State.resident_congr {s t : State} (h : t.graphs = s.graphs) (id : Nat) : t.resident id = s.resident id := by
  rw [State.resident, State.resident, h]

theorem residentRule_ok {id : Nat} {s : State} (h : (s.resident id).isSome = true) : residentRule id s = .ok := if_pos h

/-- GRAPH_STAGE's own rule. -/
def graphStageRule (off len : Nat) (_ : State) : Verdict := if len = 0 ∨ 4096 < len ∨ 1115680 < off + len then .range else .ok

/-- GRAPH_STAGE's own act. -/
def graphStageAct (off : Nat) (d : List Byte) (s : State) : State :=
  { s with graphs := { s.graphs with stage := overlay s.graphs.stage off d } }

theorem exec_graphStage {a : Access} {d : List Byte} {s : State} (hd : d.length = 8 + field d 4 4)
    (ht : s.Takes a E.graphStage 0 d.length 0 (s.ownsJob a (s.imageJob a))) (hlo : 1 ≤ field d 4 4) (hhi : field d 4 4 ≤ 4096)
    (hfit : field d 0 4 + field d 4 4 ≤ 1115680) : exec (.graphStage a d) s = .next (({ s.commitAt a with graphs := { s.graphs with
      stage := overlay s.graphs.stage (field d 0 4) (d.drop 8) } }).answerItem stOk) := by
  have hrule : graphStageRule (field d 0 4) (field d 4 4) (s.begin a.t) = .ok := if_neg fun h =>
    h.elim (by omega) fun h => h.elim (Nat.not_lt.mpr hhi) (Nat.not_lt.mpr hfit)
  have hlen : (if (d.length == 8 + field d 4 4) = true then d.length else 0) = d.length := if_pos (beq_iff_eq.mpr hd)
  have hact : graphStageAct (field d 0 4) (d.drop 8) (s.commitAt a) = { s.commitAt a with graphs := { s.graphs with
      stage := overlay s.graphs.stage (field d 0 4) (d.drop 8) } } := by
    rw [graphStageAct, State.commitAt_graphs]
  rw [← hact]
  refine next_congr (Eq.trans ?_ (State.writeOne_ok (act := graphStageAct (field d 0 4) (d.drop 8)) ht hrule))
  rw [hlen]
  rfl

/-- GRAPH_COMMIT's own rule. -/
def graphCommitRule (a : Access) (len : Nat) (s : State) : Verdict :=
  let code := s.commitCode a len
  if code = 0 then .ok else .refused E.graphStatus code

/-- GRAPH_COMMIT's own act. -/
def graphCommitAct (b : List Byte) (s : State) : State :=
  (s.wr E.graphStatus 0 0xFF).startLed 5 (imageOf b).id b (s.hsetOf (bits (imageOf b).head 223 192)) noGei (graphPhase b)

theorem exec_graphCommit {a : Access} {len : Nat} {s : State} (ht : s.Takes a E.graphCommit 0 4 len (s.ownsJob a (s.imageJob a)))
    (hcode : s.commitCode a len = 0) : exec (.graphCommit a len) s = .next ((graphCommitAct (s.graphs.stage.take len) (s.commitAt a)).answerItem stOk) := by
  have hwrite := State.writeWith_ok (rule := graphCommitRule a len) (act := fun s => graphCommitAct (s.graphs.stage.take len) s)
    (told := fun s => s.reportGraph (imageOf (s.graphs.stage.take len)).id (s.rd E.graphStatus 0) s.gei) ht (if_pos hcode)
  rw [State.commitAt_graphs] at hwrite
  exact next_congr hwrite

/-- GRAPH_RESUME's own rule. -/
def graphResumeRule (id : Nat) (s : State) : Verdict := if s.rebuilding id then .refused E.graphStatus 0x0C else residentRule id s

section
variable {a : Access} {id n : Nat} {g : Graph} {s : State} (hg : s.resident id = some (n, g))
include hg

theorem State.resident_commitAt : (s.commitAt a).resident id = some (n, g) := by
  rw [State.resident_congr (State.commitAt_graphs ..), hg]

theorem exec_graphResume (ht : s.Takes a E.graphControl 0 8 0 (s.ownsJob a (id / 65536))) (hfree : s.rebuilding id = false)
    (hhalt : g.state = gsHalted) : exec (.graphResume a id) s
      = .next ((((s.commitAt a).setGraph n { g with state := gsWaiting }).passSkipped 256 n).answerItem stOk) := by
  have hfree' : (s.begin a.t).rebuilding id = false := hfree
  have hg' : (s.begin a.t).resident id = some (n, g) := hg
  have hrule : graphResumeRule id (s.begin a.t) = .ok := by
    rw [graphResumeRule, hfree', if_neg Bool.false_ne_true, residentRule_ok (by rw [hg']; rfl)]
  refine next_congr ((State.writeOne_ok (rule := graphResumeRule id) ht hrule).trans ?_)
  simp only [State.resident_commitAt hg, hhalt, if_true]

theorem exec_graphRemove (ht : s.Takes a E.graphControl 0 8 0 (s.ownsJob a (id / 65536))) : exec (.graphRemove a id) s
    = .next (((s.commitAt a).startLed 6 id (toBytes 4 id ++ toBytes 4 2) ((s.commitAt a).graphDevices id) noGei (removePhase id)).answerItem
      stOk) := by
  have hg' : (s.begin a.t).resident id = some (n, g) := hg
  exact next_congr (State.writeOne_ok ht (residentRule_ok (by rw [hg']; rfl)))
end

theorem exec_constWrite {a : Access} {d : List Byte} {n : Nat} {g : Graph} {s : State}
    (ht : s.Takes a E.constWrite 0 d.length 0 (s.ownsJob a (field d 0 4 / 65536))) (hg : s.resident (field d 0 4) = some (n, g)) :
    exec (.constWrite a d) s = .next (((s.commitAt a).modGraph n (fun (g : Graph) =>
      { g with constsNext := (List.range 256).map (fun i => field d (4 + 4 * i) 4) })).answerItem stOk) := by
  have hg' : (s.begin a.t).resident (field d 0 4) = some (n, g) := hg
  refine next_congr ((State.writeOne_ok ht (residentRule_ok (by rw [hg']; rfl))).trans ?_)
  simp only [State.resident_commitAt hg]

/-- SUBNORMAL_SET's own rule. -/
def subnormalRule (v id : Nat) (s : State) : Verdict := if 1 < bits v 7 0 then .refused 0 0 else residentRule id s

theorem exec_subnormalSet {a : Access} {v : BitVec 64} {s : State}
    (ht : s.Takes a E.subnormalSet 0 8 0 (s.ownsJob a (v.toNat / 2 ^ 32 / 65536))) (hmode : bits v.toNat 7 0 ≤ 1)
    (hg : (s.resident (v.toNat / 2 ^ 32)).isSome = true) : exec (.subnormalSet a v) s = .next (((s.commitAt a).startLed 7 (v.toNat / 2 ^ 32)
      (toBytes 8 v.toNat) ((s.commitAt a).graphDevices (v.toNat / 2 ^ 32)) noGei
      (subnormalPhase (v.toNat / 2 ^ 32) (bit v.toNat 0))).answerItem stOk) := by
  have hg' : ((s.begin a.t).resident (v.toNat / 2 ^ 32)).isSome = true := hg
  have hrule : subnormalRule v.toNat (v.toNat / 2 ^ 32) (s.begin a.t) = .ok := by
    rw [subnormalRule, if_neg (Nat.not_lt.mpr hmode), residentRule_ok hg']
  exact next_congr (State.writeOne_ok (rule := subnormalRule v.toNat (v.toNat / 2 ^ 32)) ht hrule)

/-! NODE_QUERY (R179). -/

theorem State.view_nodeQuery (s : State) : s.view E.nodeQuery 0 = queryView 128 (s.rd E.nodeQuery 0) (fun v => nodeAnswer v s) :=
  State.view_of_device rfl rfl

theorem State.nodeState_lt (s : State) (g : Graph) (i q : Nat) : s.nodeState g i q < 16 := by
  unfold State.nodeState
  split
  · dsimp only
    split
    · decide
    · split
      · decide
      · split <;> decide
  · decide

theorem nodeAnswer_spec {v : Nat} {g : Graph} {r : Run} {s : State} (hg : s.graphs.slots.get? (bits v 127 122) = some g) (hr : g.run = some r) :
    bits (nodeAnswer v s) 127 108 = bits v 127 108 ∧
      (∀ q, q < 10 → bits (nodeAnswer v s) (43 + 4 * q) (40 + 4 * q) = s.nodeState g (bits v 121 108) q) ∧
      bits (nodeAnswer v s) 31 0 = (r.done.filter (fun (x : Nat × Nat) => x.1 == bits v 121 108)).length % 2 ^ 32 := by
  have hanswer : nodeAnswer v s = pack [(6, bits v 127 122), (14, bits v 121 108), (28, 0),
      (40, digits (s.nodeState g (bits v 121 108)) 10), (8, 0), (32, (r.done.filter (fun (x : Nat × Nat) => x.1 == bits v 121 108)).length)] := by
    simp only [nodeAnswer, hg, hr]
    rfl
  rw [hanswer]
  refine ⟨bits_pack_two v (hi := 127) (m := 121) (lo := 108) _ rfl (by decide) (by decide), fun q hq => ?_,
    bits_pack [(6, _), (14, _), (28, _), (40, _), (8, _)] 32 _ [] rfl rfl⟩
  have hfield := bits_within [(6, bits v 127 122), (14, bits v 121 108), (28, 0)] 40 (digits (s.nodeState g (bits v 121 108)) 10)
    [(8, 0), (32, (r.done.filter (fun (x : Nat × Nat) => x.1 == bits v 121 108)).length)] (hi := 43 + 4 * q) (lo := 40 + 4 * q) (l := 40) rfl
    (by omega) (by omega) (by omega)
  have hhi : 43 + 4 * q - 40 = 4 * q + 3 := by omega
  have hlo : 40 + 4 * q - 40 = 4 * q := by omega
  rw [hhi, hlo, bits_digits (fun q => s.nodeState_lt g _ q) hq] at hfield
  exact hfield

/-- Settles O33: each clause is one command of the tensors or the graphs, once its rule allows it. -/
theorem graphCommands : Obligations.GraphCommands := by
  unfold Obligations.GraphCommands
  refine ⟨fun a v s => ?_, fun a h s ht hcode => exec_tensorDestroy ht hcode, fun a d t s => ?_, fun _ v _ ht => ?_,
    fun v t s _ ht => tensorAnswer_spec ht, fun a d s hd ht hlo hhi hfit => exec_graphStage hd ht hlo hhi hfit, fun a len s => ?_,
    fun a id n g s ht hg => ⟨fun hfree hhalt => exec_graphResume hg ht hfree hhalt, exec_graphRemove hg ht⟩,
    fun a d n g s ht hg => exec_constWrite ht hg, fun _ v _ ht => ?_, fun v g r s _ hg hr => nodeAnswer_spec hg hr, fun a v s => ?_⟩
  · intro d ht hcheck hlead
    exact exec_tensorCreate ht hcheck hlead
  · intro h k hio ht hcls hk hmine
    exact ⟨exec_tensorIo_zeros hio ht hcls hk hmine, exec_tensorIo_writes hio ht hcls hk hmine, exec_tensorIo_busy hio ht hcls hk hmine⟩
  · exact State.query_written ht (toNat_lt_two_pow v) State.view_tensorQuery
  · intro b ht hcode
    exact exec_graphCommit ht hcode
  · exact State.query_written ht (toNat_lt_two_pow v) State.view_nodeQuery
  · intro id ht hmode hg
    exact exec_subnormalSet ht hmode hg

end Sys2Proof.Machine
end

section
/-!
The switch tables, their versions, and the ports' states (R254-R274).
-/
namespace Sys2Proof.Machine

/-! The switch tables and their versions (R254, R256, R262, R272). -/

theorem State.countDraining_same (s : State) : SameBut [(E.draining, 0)] s s.countDraining :=
  SameBut.wr (fun _ _ _ => rfl) _ List.mem_cons_self

theorem State.countDraining_net (s : State) : s.countDraining.net = s.net := State.wr_net ..

theorem State.raise_net (s : State) (code sev src : Nat) (ctx : List Item) : (s.raise code sev src ctx).net = s.net := by
  rw [(s.raise_noted code sev src ctx).eq]

theorem sprayAct_sprays (d : List Byte) (s : State) :
    ∃ v, (sprayAct d s).net.sprays.get? (field d 0 2) = some v ∧ v.cur = ⟨sprayMembers d, field d 2 2⟩ := by
  obtain ⟨v, hv⟩ : ∃ v : Versioned Spray, v = (s.net.sprays.getD (field d 0 2) { cur := ⟨[], 0xFFFF⟩ }).replace
    ⟨sprayMembers d, field d 2 2⟩ s.tableOwner s.now := ⟨_, rfl⟩
  obtain ⟨w, hw⟩ : ∃ w : State, w = { s with net := { s.net with sprays := s.net.sprays.set (field d 0 2) v } } := ⟨_, rfl⟩
  have hnet : ((w.wr E.sprayStatus 0 0).countDraining).net = w.net := by rw [State.countDraining_net, State.wr_net]
  have hget : w.net.sprays.get? (field d 0 2) = some v := hw ▸ Tab.get_set_same ..
  refine ⟨v, ?_, hv ▸ rfl⟩
  simp only [sprayAct, ← hv, ← hw]
  split
  · rw [State.raise_net, hnet, hget]
  · rw [hnet, hget]

theorem mcastAct_mcasts (d : List Byte) (s : State) :
    ∃ v, (mcastAct d s).net.mcasts.get? (field d 0 2) = some v ∧ v.cur = mcastMembers d := by
  obtain ⟨w, hw⟩ : ∃ w, w = s.wr E.mcastEntriesFree 0 (s.rd E.mcastEntriesFree 0 +
    (s.net.mcasts.getD (field d 0 2) { cur := [] }).cur.length - field d 2 2) := ⟨_, rfl⟩
  refine ⟨(s.net.mcasts.getD (field d 0 2) { cur := [] }).replace (mcastMembers d) w.tableOwner w.now, ?_, rfl⟩
  rw [mcastAct, ← hw, State.countDraining_net, State.wr_net, State.wr_net]
  exact Tab.get_set_same ..

section
variable {α : Type} {m : Tab (Versioned α)} {index : Nat} {v : Versioned α} (hv : m.get? index = some v) (hd : v.draining = true)
include hv hd

theorem Tab.get_retire (hheld : v.oldHeld = 0) :
    (m.modify index (fun v => if v.drained then v.retire else v)).get? index = some { v with draining := false, slow := false } := by
  have hdrained : v.drained = true := by rw [Versioned.drained, hd, hheld]; rfl
  rw [Tab.get_modify_same _ hv, if_pos hdrained]
  rfl

theorem Tab.slowAt_due {t : Time} (hslow : v.slow = false) (hdue : v.since + 100 * ms ≤ t) :
    (m.get? index).bind (·.slowAt t) = some v.oldHeld := by
  rw [hv, Option.bind_some, Versioned.slowAt, hd, hslow, decide_eq_true hdue]
  rfl
end

section
variable {t : Time} {index : Nat} {s : State}

theorem exec_versionRetire_spray {v : Versioned Spray} (hv : s.net.sprays.get? index = some v) (hd : v.draining = true) (hheld : v.oldHeld = 0) :
    ∃ u, exec (.versionRetire t 0 index) s = .next u ∧ u.net.sprays.get? index = some { v with draining := false, slow := false } ∧
      (∀ k, k ≠ index → u.net.sprays.get? k = s.net.sprays.get? k) ∧ SameBut [(E.draining, 0)] s u := by
  obtain ⟨w, hw⟩ : ∃ w : State, w = { s.begin t with net := { s.net with
    sprays := s.net.sprays.modify index (fun v => if v.drained then v.retire else v) } } := ⟨_, rfl⟩
  refine ⟨w.countDraining, hw ▸ rfl, ?_, fun k hk => ?_, ?_⟩
  · rw [State.countDraining_net, hw]
    exact Tab.get_retire hv hd hheld
  · rw [State.countDraining_net, hw]
    exact Tab.get_modify_other _ _ hk
  · exact fun e el h => (w.countDraining_same e el h).trans (hw ▸ rfl)

theorem exec_versionRetire_circuit {v : Versioned (BitVec 128)} (hv : s.net.circuits.get? index = some v) (hd : v.draining = true)
    (hheld : v.oldHeld = 0) : ∃ u, exec (.versionRetire t 1 index) s = .next u ∧
      u.net.circuits.get? index = some { v with draining := false, slow := false } ∧
      (∀ k, k ≠ index → u.net.circuits.get? k = s.net.circuits.get? k) ∧ SameBut [(E.draining, 0)] s u := by
  obtain ⟨w, hw⟩ : ∃ w : State, w = { s.begin t with net := { s.net with
    circuits := s.net.circuits.modify index (fun v => if v.drained then v.retire else v) } } := ⟨_, rfl⟩
  refine ⟨w.countDraining, hw ▸ rfl, ?_, fun k hk => ?_, ?_⟩
  · rw [State.countDraining_net, hw]
    exact Tab.get_retire hv hd hheld
  · rw [State.countDraining_net, hw]
    exact Tab.get_modify_other _ _ hk
  · exact fun e el h => (w.countDraining_same e el h).trans (hw ▸ rfl)

theorem exec_versionRetire_mcast {v : Versioned (List Nat)} (table : Nat) (hv : s.net.mcasts.get? index = some v) (hd : v.draining = true)
    (hheld : v.oldHeld = 0) : ∃ u, exec (.versionRetire t (table + 2) index) s = .next u ∧
      u.net.mcasts.get? index = some { v with draining := false, slow := false } ∧
      (∀ k, k ≠ index → u.net.mcasts.get? k = s.net.mcasts.get? k) ∧ SameBut [(E.draining, 0)] s u := by
  obtain ⟨w, hw⟩ : ∃ w : State, w = { s.begin t with net := { s.net with
    mcasts := s.net.mcasts.modify index (fun v => if v.drained then v.retire else v) } } := ⟨_, rfl⟩
  refine ⟨w.countDraining, hw ▸ rfl, ?_, fun k hk => ?_, ?_⟩
  · rw [State.countDraining_net, hw]
    exact Tab.get_retire hv hd hheld
  · rw [State.countDraining_net, hw]
    exact Tab.get_modify_other _ _ hk
  · exact fun e el h => (w.countDraining_same e el h).trans (hw ▸ rfl)

theorem exec_drainSlow_spray {v : Versioned Spray} (hv : s.net.sprays.get? index = some v) (hd : v.draining = true) (hslow : v.slow = false)
    (hdue : v.since + 100 * ms ≤ t) : exec (.drainSlow t 0 index) s = .next (({ s.begin t with net := { s.net with
      sprays := s.net.sprays.modify index (fun v => { v with slow := true }) } }).raise 0x5008 1 31 [.v 16 0, .v 16 index, .v 32 v.oldHeld]) := by
  have hheld : ((s.begin t).net.sprays.get? index).bind (·.slowAt t) = some v.oldHeld := Tab.slowAt_due hv hd hslow hdue
  have hexec : exec (.drainSlow t 0 index) s = .next (match ((s.begin t).net.sprays.get? index).bind (·.slowAt t) with
      | some k => ({ s.begin t with net := { s.net with sprays := s.net.sprays.modify index (fun v => { v with slow := true }) } }).raise
          0x5008 1 31 [.v 16 0, .v 16 index, .v 32 k]
      | none => s.begin t) := rfl
  rw [hexec, hheld]

theorem exec_drainSlow_circuit {v : Versioned (BitVec 128)} (hv : s.net.circuits.get? index = some v) (hd : v.draining = true)
    (hslow : v.slow = false) (hdue : v.since + 100 * ms ≤ t) : exec (.drainSlow t 1 index) s = .next (({ s.begin t with net := { s.net with
      circuits := s.net.circuits.modify index (fun v => { v with slow := true }) } }).raise 0x5008 1 31
        [.v 16 1, .v 16 index, .v 32 v.oldHeld]) := by
  have hheld : ((s.begin t).net.circuits.get? index).bind (·.slowAt t) = some v.oldHeld := Tab.slowAt_due hv hd hslow hdue
  have hexec : exec (.drainSlow t 1 index) s = .next (match ((s.begin t).net.circuits.get? index).bind (·.slowAt t) with
      | some k => ({ s.begin t with net := { s.net with circuits := s.net.circuits.modify index (fun v => { v with slow := true }) } }).raise
          0x5008 1 31 [.v 16 1, .v 16 index, .v 32 k]
      | none => s.begin t) := rfl
  rw [hexec, hheld]

theorem exec_drainSlow_mcast {v : Versioned (List Nat)} (table : Nat) (hv : s.net.mcasts.get? index = some v) (hd : v.draining = true)
    (hslow : v.slow = false) (hdue : v.since + 100 * ms ≤ t) : exec (.drainSlow t (table + 2) index) s = .next (({ s.begin t with
      net := { s.net with mcasts := s.net.mcasts.modify index (fun v => { v with slow := true }) } }).raise 0x5008 1 31
        [.v 16 (table + 2), .v 16 index, .v 32 v.oldHeld]) := by
  have hheld : ((s.begin t).net.mcasts.get? index).bind (·.slowAt t) = some v.oldHeld := Tab.slowAt_due hv hd hslow hdue
  have hexec : exec (.drainSlow t (table + 2) index) s = .next (match ((s.begin t).net.mcasts.get? index).bind (·.slowAt t) with
      | some k => ({ s.begin t with net := { s.net with mcasts := s.net.mcasts.modify index (fun v => { v with slow := true }) } }).raise
          0x5008 1 31 [.v 16 (table + 2), .v 16 index, .v 32 k]
      | none => s.begin t) := rfl
  rw [hexec, hheld]
end

/-! Ports (R274, R327). -/

theorem State.portExists_commitAt (s : State) (a : Access) (p : Nat) : (s.commitAt a).portExists p = s.portExists p := by
  unfold State.portExists
  by_cases hp : p < 1024
  · have hmode : (s.commitAt a).rd E.fiberMode (fiberOf p) = s.rd E.fiberMode (fiberOf p) :=
      State.rd_commitAt_of_entry s a (by decide) (by decide) (by unfold fiberOf; omega)
    rw [hmode]
  · rw [decide_eq_false hp, Bool.false_and, Bool.false_and]

theorem exec_portDownHoldExpiry {t f : Time} {port : Nat} {s : State} (hf : (s.port port).faultSince = some f)
    (hdue : f + s.rd E.portDownHold 0 ≤ t) (hup : s.rd E.portState port = 2) :
    exec (.portDownHoldExpiry t port) s = .next ((s.begin t).portDown port 1 1) := by
  have hf' : ((s.begin t).port port).faultSince = some f := hf
  have hnow : f + (s.begin t).rd E.portDownHold 0 ≤ t ∧ (s.begin t).rd E.portState port = 2 := ⟨hdue, hup⟩
  simp only [exec, execPortDownHoldExpiry, hf', if_pos hnow]

/-- PORT_ADMIN's own act. -/
def portAdminAct (port value : Nat) (s : State) : State :=
  if !s.portExists port then s
  else
    let s := s.wr E.portAdmin port value
    let s := if value ≠ 0 then s
      else if s.rd E.portState port = 2 then s.portDown port 1 3
      else if s.rd E.portState port = 3 then s.wr E.portState port 1 else s
    s.remap (dieOf port)

section
variable {a : Access} {port v : Nat} {s : State}

theorem portAdminAct_exists (h : s.portExists port = true) : portAdminAct port v (s.commitAt a) =
    (if v ≠ 0 then (s.commitAt a).wr E.portAdmin port v
      else if ((s.commitAt a).wr E.portAdmin port v).rd E.portState port = 2 then ((s.commitAt a).wr E.portAdmin port v).portDown port 1 3
      else if ((s.commitAt a).wr E.portAdmin port v).rd E.portState port = 3 then
        ((s.commitAt a).wr E.portAdmin port v).wr E.portState port 1
      else (s.commitAt a).wr E.portAdmin port v).remap (dieOf port) := by
  have hno : ¬ (!(s.commitAt a).portExists port) = true := by rw [State.portExists_commitAt, h]; decide
  exact if_neg hno

theorem exec_portAdmin (ht : s.Takes a E.portAdmin port 1 v true) (hrule : portAdminRule port v (s.begin a.t) = .ok)
    (h : s.portExists port = true) {w : State} (hw : w = (s.commitAt a).wr E.portAdmin port v) :
    (v ≠ 0 → exec (.portAdmin a port v) s = .next ((w.remap (dieOf port)).answerItem stOk)) ∧
    (v = 0 → w.rd E.portState port = 2 → exec (.portAdmin a port v) s = .next (((w.portDown port 1 3).remap (dieOf port)).answerItem stOk)) ∧
    (v = 0 → w.rd E.portState port = 3 → exec (.portAdmin a port v) s = .next (((w.wr E.portState port 1).remap (dieOf port)).answerItem stOk)) ∧
    (v = 0 → w.rd E.portState port ≠ 2 → w.rd E.portState port ≠ 3 → exec (.portAdmin a port v) s
      = .next ((w.remap (dieOf port)).answerItem stOk)) := by
  have hexec : exec (.portAdmin a port v) s = .next ((portAdminAct port v (s.commitAt a)).answerItem stOk) :=
    next_congr (State.writeOne_ok (act := portAdminAct port v) ht hrule)
  rw [hexec, portAdminAct_exists h, ← hw]
  refine ⟨fun hv => ?_, fun hv hup => ?_, fun hv hshed => ?_, fun hv hup hshed => ?_⟩
  · rw [if_pos hv]
  · rw [if_neg (not_not_intro hv), if_pos hup]
  · rw [if_neg (not_not_intro hv), if_neg (by omega), if_pos hshed]
  · rw [if_neg (not_not_intro hv), if_neg hup, if_neg hshed]
end

/-- Settles O40: each clause is one command of the switch tables or the ports. -/
theorem portsAndSwitchTables : Obligations.PortsAndSwitchTables := by
  unfold Obligations.PortsAndSwitchTables
  refine ⟨fun a d s ht hrule => ⟨next_congr (State.writeOne_ok ht hrule), sprayAct_sprays d s⟩,
    fun a v s ht hrule => next_congr (State.writeOne_ok ht hrule),
    fun a d s ht hrule => ⟨next_congr (State.writeOne_ok ht hrule), mcastAct_mcasts d s⟩,
    fun t index v s hv hd => ⟨exec_versionRetire_spray hv hd, exec_drainSlow_spray hv hd⟩,
    fun t index v s hv hd => ⟨exec_versionRetire_circuit hv hd, exec_drainSlow_circuit hv hd⟩, fun t table index v s htable hv hd => ?_,
    fun t port s hfree => ?_, fun t f port s hf hdue hup => exec_portDownHoldExpiry hf hdue hup, fun t port s h => ?_,
    fun a port v s ht hrule h => exec_portAdmin ht hrule h rfl⟩
  · obtain ⟨k, rfl⟩ := Nat.exists_eq_add_of_le' htable
    exact ⟨exec_versionRetire_mcast k hv hd, exec_drainSlow_mcast k hv hd⟩
  · have hfree' : ¬ (s.begin t).held port = true := fun h => Bool.false_ne_true (hfree.symm.trans h)
    exact next_congr (if_neg hfree')
  · exact next_congr (if_pos h)

end Sys2Proof.Machine
end

section
/-!
Shapers, the wheel, policers, gates and samples (R282-R299).
-/
namespace Sys2Proof.Machine

/-! A step over keys that are each listed once updates the value at each key that is due. -/

theorem foldl_updates {σ β : Type} {get : σ → Nat → β} {st : σ → Nat → σ} {due : β → Bool} {ev : β → β}
    (hsame : ∀ s k, get (st s k) k = if due (get s k) then ev (get s k) else get s k)
    (hother : ∀ s k j, j ≠ k → get (st s k) j = get s j) {l : List Nat} (hl : l.Nodup) (s : σ) (j : Nat) :
    get (l.foldl st s) j = if j ∈ l ∧ due (get s j) = true then ev (get s j) else get s j := by
  induction l generalizing s with
  | nil => rw [if_neg fun h => List.not_mem_nil h.1]; rfl
  | cons k r ih =>
    obtain ⟨hk, hr⟩ := List.nodup_cons.mp hl
    rw [List.foldl_cons, ih hr]
    by_cases hjk : j = k
    · subst hjk
      rw [if_neg fun h => hk h.1, hsame]
      simp only [List.mem_cons_self, true_and]
    · rw [hother s k j hjk]
      simp only [List.mem_cons, hjk, false_or]

/-! Shapers and the wheel (R282, R286, R287). -/

theorem State.queue_set_same (s : State) (i : Nat) (q : Queue) :
    ({ s with net := { s.net with queues := s.net.queues.set i q } } : State).queue i = q := Tab.getD_set_same ..

theorem State.queue_set_other (s : State) {i j : Nat} (q : Queue) (h : j ≠ i) :
    ({ s with net := { s.net with queues := s.net.queues.set i q } } : State).queue j = s.queue j := Tab.getD_set_other _ _ _ h

theorem State.queue_congr {s t : State} (h : t.net = s.net) (i : Nat) : t.queue i = s.queue i := by
  rw [State.queue, State.queue, h]

/-- A queue with a shaper newly written. -/
def Queue.shaped (q : Queue) (v : BitVec 128) (now : Time) : Queue :=
  let committed : Bucket := { rate := shaperCir v, burst := shaperCbs v }
  let peak : Bucket := { rate := shaperPir v, burst := shaperPbs v }
  { q with shaper := v, cb := committed.full now, pb := peak.full now, wheel := none, stopped := false }

theorem shaperAct_net (v : BitVec 128) (s : State) : (shaperAct v s).net
    = { s.net with queues := s.net.queues.set (9 * bits v.toNat 127 117 + bits v.toNat 116 113) ((s.queue (9 * bits v.toNat 127 117 + bits v.toNat 116 113)).shaped v s.now) } := by
  unfold shaperAct State.showReserved
  dsimp only
  rw [State.wr_net, State.wr_net, State.wr_net, State.wr_net]
  rfl

theorem shaperAct_queue_same (v : BitVec 128) (s : State) : (shaperAct v s).queue (9 * bits v.toNat 127 117 + bits v.toNat 116 113)
    = (s.queue (9 * bits v.toNat 127 117 + bits v.toNat 116 113)).shaped v s.now := by
  rw [State.queue, shaperAct_net]
  exact Tab.getD_set_same ..

theorem shaperAct_queue_other (v : BitVec 128) (s : State) {j : Nat} (h : j ≠ 9 * bits v.toNat 127 117 + bits v.toNat 116 113) :
    (shaperAct v s).queue j = s.queue j := by
  rw [State.queue, shaperAct_net]
  exact Tab.getD_set_other _ _ _ h

/-- A slot of the wheel has come. -/
def wheelDue (t : Time) (w : Option Time) : Bool := match w with
  | some x => decide (x ≤ t)
  | none => false

theorem wheelDue_eq (t : Time) (w : Option Time) : wheelDue t w = w.any (fun x => decide (x ≤ t)) := by
  cases w <;> rfl

/-- A class queue evaluated where its slot has come. -/
def State.wheelQueue (t : Time) (s : State) (i : Nat) : State :=
  if wheelDue t (s.queue i).wheel then { s with net := { s.net with queues := s.net.queues.set i ((s.queue i).eval t) } } else s

/-- A circuit's queue evaluated where its slot has come. -/
def State.wheelCirc (t : Time) (s : State) (c : Nat) : State :=
  if wheelDue t (s.circQueue c).wheel then { s with net := { s.net with circQueues := s.net.circQueues.set c ((s.circQueue c).eval t) } } else s

theorem State.wheelQueue_same (t : Time) (s : State) (i : Nat) :
    (s.wheelQueue t i).queue i = if wheelDue t (s.queue i).wheel then (s.queue i).eval t else s.queue i := by
  unfold State.wheelQueue
  split
  · exact State.queue_set_same ..
  · rfl

theorem State.wheelQueue_other (t : Time) (s : State) (i j : Nat) (h : j ≠ i) : (s.wheelQueue t i).queue j = s.queue j := by
  unfold State.wheelQueue
  split
  · exact State.queue_set_other _ _ h
  · rfl

theorem State.wheelCirc_same (t : Time) (s : State) (c : Nat) :
    (s.wheelCirc t c).circQueue c = if wheelDue t (s.circQueue c).wheel then (s.circQueue c).eval t else s.circQueue c := by
  unfold State.wheelCirc
  split
  · exact Tab.getD_set_same ..
  · rfl

theorem State.wheelCirc_other (t : Time) (s : State) (c j : Nat) (h : j ≠ c) : (s.wheelCirc t c).circQueue j = s.circQueue j := by
  unfold State.wheelCirc
  split
  · exact Tab.getD_set_other _ _ _ h
  · rfl

/-- Only the class queues of two states differ. -/
def QueuesOnly (s u : State) : Prop := u.net = { s.net with queues := u.net.queues }

theorem State.wheelQueue_only (t : Time) {s u : State} (i : Nat) (h : QueuesOnly s u) : QueuesOnly s (u.wheelQueue t i) := by
  unfold State.wheelQueue
  split
  · exact congrArg (fun n : Net => { n with queues := u.net.queues.set i ((u.queue i).eval t) }) h
  · exact h

theorem foldl_wheelQueue_only (t : Time) {s u : State} (l : List Nat) (h : QueuesOnly s u) :
    QueuesOnly s (l.foldl (State.wheelQueue t) u) := by
  induction l generalizing u with
  | nil => exact h
  | cons i r ih => exact ih (State.wheelQueue_only t i h)

theorem QueuesOnly.circQueue {s u : State} (h : QueuesOnly s u) (c : Nat) : u.circQueue c = s.circQueue c := by
  rw [State.circQueue, h]
  rfl

theorem QueuesOnly.circuitsOf {s u : State} (h : QueuesOnly s u) (p : Nat) : u.circuitsOf p = s.circuitsOf p := by
  have hframes : u.net.frames = s.net.frames := by rw [h]
  have hcircuits : u.net.circuits = s.net.circuits := by rw [h]
  have hleaves : ∀ c r, u.circLeaves c r = s.circLeaves c r := fun c r => by
    rw [State.circLeaves, State.circLeaves, h.circQueue, hframes]
  simp only [State.circuitsOf, hcircuits, hleaves]

/-- The slot of a port's wheel. -/
def State.wheelTurn (s : State) (t : Time) (port : Nat) : State :=
  let s := ((List.range 9).map (fun k => 9 * port + k)).foldl (State.wheelQueue t) s
  (s.circuitsOf port).foldl (State.wheelCirc t) s

theorem exec_wheelSlot (t : Time) (port : Nat) (s : State) : exec (.wheelSlot t port) s = .next ((s.begin t).wheelTurn t port) := by
  unfold State.wheelTurn
  rw [List.foldl_map]
  rfl

theorem State.wheelCirc_queue (t : Time) (s : State) (c j : Nat) : (s.wheelCirc t c).queue j = s.queue j := by
  unfold State.wheelCirc
  split <;> rfl

theorem foldl_wheelCirc_queue (t : Time) (s : State) (l : List Nat) (j : Nat) : (l.foldl (State.wheelCirc t) s).queue j = s.queue j := by
  induction l generalizing s with
  | nil => rfl
  | cons c r ih => exact (ih _).trans (s.wheelCirc_queue t c j)

theorem mem_portQueues {port j : Nat} : j ∈ (List.range 9).map (fun k => 9 * port + k) ↔ 9 * port ≤ j ∧ j < 9 * port + 9 := by
  rw [List.mem_map]
  constructor
  · rintro ⟨k, hk, rfl⟩
    have := List.mem_range.mp hk
    omega
  · rintro ⟨h1, h2⟩
    exact ⟨j - 9 * port, List.mem_range.mpr (by omega), by omega⟩

theorem nodup_portQueues (port : Nat) : ((List.range 9).map (fun k => 9 * port + k)).Nodup :=
  List.Nodup.map (fun _ _ h => Nat.add_left_cancel h) List.nodup_range

theorem State.wheelTurn_queue (s : State) (t : Time) (port j : Nat) : (s.wheelTurn t port).queue j
    = if (9 * port ≤ j ∧ j < 9 * port + 9) ∧ wheelDue t (s.queue j).wheel = true then (s.queue j).eval t else s.queue j := by
  have hall := foldl_updates (get := State.queue) (due := fun q => wheelDue t q.wheel) (ev := fun q => q.eval t) (State.wheelQueue_same t)
    (State.wheelQueue_other t) (nodup_portQueues port) s j
  simp only [mem_portQueues] at hall
  rw [State.wheelTurn, foldl_wheelCirc_queue, hall]

theorem State.wheelTurn_circQueue (s : State) (t : Time) {port : Nat} (hnodup : (s.circuitsOf port).Nodup) (c : Nat) :
    (s.wheelTurn t port).circQueue c = if c ∈ s.circuitsOf port ∧ wheelDue t (s.circQueue c).wheel = true then (s.circQueue c).eval t
      else s.circQueue c := by
  obtain ⟨w, hw⟩ : ∃ w, w = ((List.range 9).map (fun k => 9 * port + k)).foldl (State.wheelQueue t) s := ⟨_, rfl⟩
  have honly : QueuesOnly s w := hw ▸ foldl_wheelQueue_only t _ rfl
  have hall := foldl_updates (get := State.circQueue) (due := fun q => wheelDue t q.wheel) (ev := fun q => q.eval t) (State.wheelCirc_same t)
    (State.wheelCirc_other t) (honly.circuitsOf port ▸ hnodup) w c
  rw [honly.circQueue, honly.circuitsOf] at hall
  rw [← hall, ← honly.circuitsOf, hw]
  rfl

theorem exec_shaperWrite {a : Access} {v : BitVec 128} {s : State} (ht : s.Takes a E.shaperWrite 0 16 0 true)
    (hrule : shaperRule v (s.begin a.t) = .ok) : exec (.shaperWrite a v) s = .next ((shaperAct v (s.commitAt a)).answerItem stOk) :=
  next_congr (State.writeOne_ok ht hrule)

/-! Policers (R290). -/

/-- A policer as its record sets it, its bucket full. -/
def policerOf (v : BitVec 64) (now : Time) : Policer :=
  { record := v, bucket := ({ rate := bits v.toNat 44 24, burst := bits v.toNat 23 0 } : Bucket).full now }

/-- The policers of a state with a record's policer set. -/
def State.policersWith (s : State) (v : BitVec 64) : Tab Policer :=
  s.net.policers.set (8 * bits v.toNat 63 53 + bits v.toNat 52 50) (policerOf v s.now)

theorem policerAct_eq (v : BitVec 64) (s : State) : policerAct v s = (({ s with net := { s.net with policers := s.policersWith v } } : State).wr
    E.policer (8 * bits v.toNat 63 53 + bits v.toNat 52 50) v.toNat).wr E.policerStatus 0 0 := rfl

theorem policerAct_policers (v : BitVec 64) (s : State) : (policerAct v s).net.policers = s.policersWith v := by
  rw [policerAct_eq, State.wr_net, State.wr_net]

theorem policerAct_out (v : BitVec 64) (s : State) : (policerAct v s).out = s.out := by
  rw [policerAct_eq, State.wr_out, State.wr_out]

theorem SameBut.net {l : List (Nat × Nat)} {s t : State} (h : SameBut l s t) (n : Net) : SameBut l s { t with net := n } := h

theorem SameBut.commitAt {l : List (Nat × Nat)} (s : State) (a : Access) (hlast : (E.commitLast, 0) ∈ l)
    (hdom : (E.domainState, 18 + s.keeper) ∈ l) : SameBut l s (s.commitAt a) := fun _ _ h =>
  s.rd_commitAt a (fun hk => h (List.mem_map.mpr ⟨_, hlast, hk.symm⟩)) (fun hk => h (List.mem_map.mpr ⟨_, hdom, hk.symm⟩))

theorem policerAct_sameBut (v : BitVec 64) (s : State) (a : Access) : SameBut [(E.policer, 8 * bits v.toNat 63 53 + bits v.toNat 52 50),
    (E.policerStatus, 0), (E.commitLast, 0), (E.domainState, 18 + s.keeper)] s (policerAct v (s.commitAt a)) := by
  rw [policerAct_eq]
  exact (((SameBut.commitAt s a (by simp) (by simp)).net _).wr _ (by simp)).wr _ (by simp)

theorem exec_policerWrite {a : Access} {v : BitVec 64} {s : State} (ht : s.Takes a E.policerWrite 0 8 0 true)
    (hrule : policerRule v (s.begin a.t) = .ok) : exec (.policerWrite a v) s = .next ((policerAct v (s.commitAt a)).answerItem stOk) :=
  next_congr (State.writeOne_ok ht hrule)

/-! Gate control lists (R295-R298). -/

theorem State.gatesOf_congr {s t : State} (h : t.net = s.net) (p : Nat) : t.gatesOf p = s.gatesOf p := by
  rw [State.gatesOf, State.gatesOf, h]

/-- The gates of a port whose pending list has become the operational one. -/
def Gates.activated (g : Gates) (l : GateList) (c : Time) : Gates :=
  { oper := if l.entries = [] then none else some l, cycleAt := c, index := 0, entryAt := c, pend := none, changeAt := none,
    committed := g.committed }

/-- The pending list of a port replaces its operational list, and is told. -/
def State.gatesActivate (s : State) (port : Nat) (l : GateList) (c : Time) : State :=
  let op := if l.entries = [] then none else some l
  let s := s.setGates port ((s.gatesOf port).activated l c)
  let s := s.wr E.gateOper port (if l.entries = [] then 0 else s.rd E.gatePending port)
  let s := ((s.wr E.gatePending port 0).wr E.gateChangeAt port 0).wr E.gateNow port (gatesAt op 0)
  s.raise 0x6002 0 (dieOf port) [.v 16 port, .tm c]

theorem State.gatesActivate_net (s : State) (port : Nat) (l : GateList) (c : Time) : (s.gatesActivate port l c).net
    = (s.setGates port ((s.gatesOf port).activated l c)).net := by
  unfold State.gatesActivate
  dsimp only
  rw [State.raise_net, State.wr_net, State.wr_net, State.wr_net, State.wr_net]

theorem State.gatesActivate_same (s : State) (port : Nat) (l : GateList) (c : Time) :
    (s.gatesActivate port l c).gatesOf port = (s.gatesOf port).activated l c := by
  rw [State.gatesOf_congr (s.gatesActivate_net port l c)]
  exact Tab.getD_set_same ..

theorem State.gatesActivate_other (s : State) (port : Nat) (l : GateList) (c : Time) {p : Nat} (h : p ≠ port) :
    (s.gatesActivate port l c).gatesOf p = s.gatesOf p := by
  rw [State.gatesOf_congr (s.gatesActivate_net port l c)]
  exact Tab.getD_set_other _ _ _ h

theorem exec_gateListActive {t : Time} {port : Nat} {l : GateList} {c : Time} {s : State} (hl : (s.gatesOf port).pend = some l)
    (hc : (s.gatesOf port).changeAt = some c) (hdue : c ≤ t) : exec (.gateListActive t port) s
      = .next (if s.lockHolds (s.gatesOf port) = false then (s.begin t).gatesActivate port l c else s.begin t) := by
  have hl' : ((s.begin t).gatesOf port).pend = some l := hl
  have hc' : ((s.begin t).gatesOf port).changeAt = some c := hc
  have hhold : (s.begin t).lockHolds ((s.begin t).gatesOf port) = s.lockHolds (s.gatesOf port) := rfl
  simp only [exec, execGateListActive, hl', hc', hdue, true_and, hhold]
  rfl

theorem State.lockHolds_of_free {s : State} {g : Gates} {l : GateList} (hl : g.pend = some l)
    (h : s.clock.own = false ∨ (l.lock = false ∧ ∀ o, g.oper = some o → o.lock = false)) : s.lockHolds g = false := by
  rw [State.lockHolds, hl]
  obtain hown | ⟨hpend, hoper⟩ := h
  · rw [hown, Bool.false_and]
  · cases ho : g.oper with
    | none => simp [hpend]
    | some o => simp [hpend, hoper o ho]

theorem State.lockHolds_of_locked {s : State} {g : Gates} {l : GateList} (hl : g.pend = some l) (hown : s.clock.own = true)
    (h : l.lock = true ∨ ∃ o, g.oper = some o ∧ o.lock = true) : s.lockHolds g = true := by
  rw [State.lockHolds, hl, hown]
  obtain hpend | ⟨o, ho, hoper⟩ := h
  · simp [hpend]
  · simp [ho, hoper]

theorem exec_gateTransition {t : Time} {port : Nat} {l : GateList} {s : State} (hl : (s.gatesOf port).oper = some l)
    {e : Time} (he : e = (s.gatesOf port).entryAt + intervalAt l (s.gatesOf port).index * ns)
    {j : Nat} (hj : j = if (s.gatesOf port).index + 1 < l.entries.length then (s.gatesOf port).index + 1 else 0) (hdue : e ≤ t) :
    exec (.gateTransition t port) s = .next (((s.begin t).setGates port { s.gatesOf port with
      index := j, entryAt := e, cycleAt := if j = 0 then e else (s.gatesOf port).cycleAt }).wr E.gateNow port (gatesAt (s.gatesOf port).oper j)) := by
  have hl' : ((s.begin t).gatesOf port).oper = some l := hl
  have hg : (s.begin t).gatesOf port = s.gatesOf port := rfl
  simp only [exec, execGateTransition, hg, hl, ← he, ← hj, if_pos hdue]

/-! The end of a sample period. -/

/-- A queue's depth and delays are latched. -/
def State.sampled (s : State) (x : Nat × Queue) : State :=
  let q := x.2
  let s := ((s.wr E.depthSample x.1 (depthOf q.descs)).wr E.delayMax x.1 q.maxNow).wr E.delayMean x.1
    (if q.cntNow = 0 then 0 else q.sumNow / q.cntNow)
  { s with net := { s.net with queues := s.net.queues.set x.1 { q with maxNow := 0, sumNow := 0, cntNow := 0 } } }

/-- A queue's sample shows its depth and delays, and the next sample begins. -/
def Sampled (q : Nat) (d : Queue) (u : State) : Prop :=
  u.rd E.depthSample q = depthOf d.descs ∧ u.rd E.delayMax q = d.maxNow ∧
    u.rd E.delayMean q = (if d.cntNow = 0 then 0 else d.sumNow / d.cntNow) ∧ u.queue q = { d with maxNow := 0, sumNow := 0, cntNow := 0 }

theorem State.sampled_rd (s : State) (x : Nat × Queue) (e el : Nat) : (s.sampled x).rd e el
    = (((s.wr E.depthSample x.1 (depthOf x.2.descs)).wr E.delayMax x.1 x.2.maxNow).wr E.delayMean x.1
      (if x.2.cntNow = 0 then 0 else x.2.sumNow / x.2.cntNow)).rd e el := rfl

theorem State.sampled_same (s : State) {q : Nat} (d : Queue) (hq : q < 2 ^ 24) : Sampled q d (s.sampled (q, d)) := by
  have hmean : ∀ e, e < E.delayMean → elKey e q ≠ elKey E.delayMean q := fun e he hk => elKey_ne_of_lt he hq hk.symm
  have hmax : elKey E.depthSample q ≠ elKey E.delayMax q := fun hk => elKey_ne_of_lt (by decide) hq hk.symm
  refine ⟨?_, ?_, ?_, Tab.getD_set_same ..⟩
  · rw [s.sampled_rd, State.rd_wr_other _ _ (hmean _ (by decide)), State.rd_wr_other _ _ hmax, State.rd_wr_same]
  · rw [s.sampled_rd, State.rd_wr_other _ _ (hmean _ (by decide)), State.rd_wr_same]
  · exact State.rd_wr_same ..

theorem State.sampled_other {s : State} {q : Nat} {d : Queue} {x : Nat × Queue} (hq : q < 2 ^ 24) (hx : x.1 < 2 ^ 24) (hne : x.1 ≠ q)
    (h : Sampled q d s) : Sampled q d (s.sampled x) := by
  have hkey : ∀ e e', elKey e q ≠ elKey e' x.1 := fun e e' hk => hne (elKey_inj hq hx hk).2.symm
  have hrd : ∀ e, (s.sampled x).rd e q = s.rd e q := fun e => by
    rw [s.sampled_rd, State.rd_wr_other _ _ (hkey _ _), State.rd_wr_other _ _ (hkey _ _), State.rd_wr_other _ _ (hkey _ _)]
  have hqueue : (s.sampled x).queue q = s.queue q := Tab.getD_set_other _ _ _ (Ne.symm hne)
  unfold Sampled
  rw [hrd, hrd, hrd, hqueue]
  exact h

/-- What one step over a list establishes and the others keep holds after all of them. -/
theorem foldl_of_mem {σ β : Type} {st : σ → β → σ} {p : σ → Prop} {b : β} {l : List β} (hb : b ∈ l) (hone : ∀ s, p (st s b))
    (hkeep : ∀ s x, x ∈ l → p s → p (st s x)) (s : σ) : p (l.foldl st s) := by
  induction l generalizing s with
  | nil => exact absurd hb List.not_mem_nil
  | cons x r ih =>
    obtain rfl | hr := List.mem_cons.mp hb
    · exact List.foldlRecOn r st (hone s) fun s hs x hx => hkeep s x (List.mem_cons_of_mem _ hx) hs
    · exact ih hr (fun s x hx => hkeep s x (List.mem_cons_of_mem _ hx)) _

theorem foldl_sampled {l : List (Nat × Queue)} {q : Nat} {d : Queue} (hq : (q, d) ∈ l)
    (hl : ∀ x ∈ l, x.1 < 2 ^ 24 ∧ (x.1 = q → x.2 = d)) (s : State) : Sampled q d (l.foldl State.sampled s) := by
  obtain ⟨hlt, -⟩ := hl _ hq
  refine foldl_of_mem hq (fun s => s.sampled_same d hlt) (fun s x hx h => ?_) s
  obtain ⟨hxlt, hsame⟩ := hl x hx
  by_cases hxq : x.1 = q
  · obtain rfl : x = (q, d) := Prod.ext hxq (hsame hxq)
    exact s.sampled_same d hlt
  · exact State.sampled_other hlt hxlt hxq h

/-- Settles O41: shapers, the wheel, policers, gate lists, the group's registers and the samples each as their command says. -/
theorem trafficCommands : Obligations.TrafficCommands := by
  unfold Obligations.TrafficCommands
  refine ⟨?_, fun t port s => ⟨_, exec_wheelSlot t port s, fun k hk => ?_, fun j hj => ?_, fun hnodup c => ?_⟩, ?_,
    fun a d s ht hrule => next_congr (State.writeOne_ok ht hrule), fun t port l c s hl hc hdue => ⟨fun hfree => ?_, fun hown hlock => ?_⟩,
    ?_, fun a v s => ⟨fun ht => next_congr (State.writeOne_ok ht rfl), fun ht hrule => next_congr (State.writeOne_ok ht hrule)⟩,
    fun t q d s hq hall => ⟨_, rfl, foldl_sampled hq hall _⟩⟩
  · intro a v s i ht hrule
    have hsame := shaperAct_queue_same v s
    refine ⟨exec_shaperWrite ht hrule, ?_, ?_, ?_, ?_, ?_, ?_, fun j hj => shaperAct_queue_other v s hj⟩ <;> rw [hsame] <;> rfl
  · rw [State.wheelTurn_queue, ← wheelDue_eq, if_congr (and_iff_right (by omega)) rfl rfl]
    rfl
  · rw [State.wheelTurn_queue, if_neg fun h => by omega]
    rfl
  · rw [State.wheelTurn_circQueue (s.begin t) t hnodup, ← wheelDue_eq]
    rfl
  · intro a v s ht hrule i b
    have hnet : ((policerAct v (s.commitAt a)).answerItem stOk).net.policers
        = s.net.policers.set (8 * bits v.toNat 63 53 + bits v.toNat 52 50) (policerOf v a.t) := by
      rw [State.answerItem, State.emit_net, policerAct_policers, State.policersWith, State.commitAt_now, State.commitAt_net]
    refine ⟨_, exec_policerWrite ht hrule, ?_, fun j hj => ?_, ?_, policerAct_sameBut v s a⟩
    · rw [hnet]
      exact Tab.get_set_same ..
    · rw [hnet]
      exact Tab.get_set_other _ _ hj
    · rw [State.answerItem_out, policerAct_out, State.commitAt_out]
      rfl
  · refine ⟨_, (exec_gateListActive hl hc hdue).trans (congrArg _ (if_pos (State.lockHolds_of_free hl hfree))),
      State.gatesActivate_same .., fun p hp => State.gatesActivate_other _ _ _ _ hp⟩
  · have hheld : ¬ s.lockHolds (s.gatesOf port) = false := fun h => Bool.false_ne_true (h.symm.trans (State.lockHolds_of_locked hl hown hlock))
    exact (exec_gateListActive hl hc hdue).trans (congrArg _ (if_neg hheld))
  · intro t port l s hl g e j hdue
    exact exec_gateTransition hl rfl rfl hdue

end Sys2Proof.Machine
end

section
/-!
The forwarding tables and their commands (R302-R321).
-/
namespace Sys2Proof.Machine

/-! A table of tables with each of them changed alike, and filtered tables. -/

theorem Tab.get_map_val {α β : Type} (f : α → β) (m : Tab α) (k : Nat) :
    Tab.get? (m.map fun x => (x.1, f x.2)) k = (m.get? k).map f := by
  induction m with
  | nil => rfl
  | cons x r ih =>
    show (bif Nat.beq x.1 k then some (f x.2) else Tab.get? (r.map fun x => (x.1, f x.2)) k) = (bif Nat.beq x.1 k then some x.2 else Tab.get? r k).map f
    cases Nat.beq x.1 k with
    | true => rfl
    | false => exact ih

theorem Tab.getD_map_val {α : Type} (f : α → α) (m : Tab α) (k : Nat) {d : α} (hd : f d = d) :
    Tab.getD (m.map fun x => (x.1, f x.2)) k d = f (m.getD k d) := by
  rw [Tab.getD, Tab.get_map_val, Tab.getD]
  cases m.get? k with
  | none => exact hd.symm
  | some v => rfl

/-! Parity marks (R321). -/

theorem State.parityBad_clearBad_same (s : State) (die tab i : Nat) : (s.clearBad die tab i).parityBad die tab i = false := by
  rw [State.parityBad, State.clearBad, List.contains_eq_mem, decide_eq_false_iff_not, List.mem_filter]
  simp

theorem State.parityBad_clearBad_other (s : State) {die tab i d t j : Nat} (h : (d, t, j) ≠ (die, tab, i)) :
    (s.clearBad die tab i).parityBad d t j = s.parityBad d t j := by
  have hmem : (d, t, j) ∈ s.net.badParity.filter (fun x => !(x == (die, tab, i))) ↔ (d, t, j) ∈ s.net.badParity := by
    rw [List.mem_filter]
    simp [h]
  rw [State.parityBad, State.parityBad, State.clearBad, List.contains_eq_mem, List.contains_eq_mem, decide_eq_decide]
  exact hmem

theorem State.parityBad_clearBadAll (s : State) (die tab i : Nat) : (s.clearBadAll tab i).parityBad die tab i = false := by
  rw [State.parityBad, State.clearBadAll, List.contains_eq_mem, decide_eq_false_iff_not, List.mem_filter]
  simp

theorem State.parityBad_congr {s t : State} (h : t.net = s.net) (die tab i : Nat) : t.parityBad die tab i = s.parityBad die tab i := by
  rw [State.parityBad, State.parityBad, h]

/-- Only the parity marks of two states' switches differ. -/
def ParityOnly (s u : State) : Prop := u.net = { s.net with badParity := u.net.badParity }

theorem ParityOnly.trans {s t u : State} (h : ParityOnly s t) (k : ParityOnly t u) : ParityOnly s u := by
  unfold ParityOnly at *
  rw [k, h]

/-- The step of `findUpsets`: an entry found bad is marked and told once. -/
def State.findUpset (die : Nat) (s : State) (x : Nat × Nat) : State :=
  if s.parityBad die x.1 x.2 then s
  else ({ s with net := { s.net with badParity := s.net.badParity ++ [(die, x.1, x.2)] } }).parityMiss die x.1 x.2

theorem State.parityMiss_net (s : State) (die tab i : Nat) : (s.parityMiss die tab i).net = s.net := by
  rw [State.parityMiss, State.raise_net, State.bump, State.wr_net]

theorem State.findUpset_only (die : Nat) (s : State) (x : Nat × Nat) : ParityOnly s (s.findUpset die x) := by
  unfold State.findUpset
  split
  · rfl
  · rw [ParityOnly, State.parityMiss_net]

theorem State.parityBad_findUpset (die : Nat) (s : State) (x : Nat × Nat) (d : Nat) (y : Nat × Nat) :
    (s.findUpset die x).parityBad d y.1 y.2 = (s.parityBad d y.1 y.2 || (d, y) == (die, x)) := by
  unfold State.findUpset
  split
  case isTrue h =>
    by_cases heq : (d, y) = (die, x)
    · obtain ⟨rfl, rfl⟩ := Prod.mk.inj heq
      rw [h, Bool.true_or]
    · rw [beq_false_of_ne heq, Bool.or_false]
  case isFalse h =>
    rw [State.parityBad_congr (State.parityMiss_net ..), State.parityBad, State.parityBad, List.contains_append, List.contains_cons,
      List.contains_nil, Bool.or_false]

theorem State.findUpsets_only (die : Nat) (l : List (Nat × Nat)) (s : State) : ParityOnly s (s.findUpsets die l) := by
  induction l generalizing s with
  | nil => rfl
  | cons x r ih => exact (s.findUpset_only die x).trans (ih _)

theorem State.parityBad_findUpsets (die : Nat) (l : List (Nat × Nat)) (s : State) (d : Nat) (y : Nat × Nat) :
    (s.findUpsets die l).parityBad d y.1 y.2 = (s.parityBad d y.1 y.2 || (d == die && l.contains y)) := by
  induction l generalizing s with
  | nil => 
    rw [List.contains_nil, Bool.and_false, Bool.or_false]
    rfl
  | cons x r ih =>
    refine (ih (s.findUpset die x)).trans ?_
    rw [s.parityBad_findUpset, List.contains_cons, Bool.or_assoc, Bool.and_or_distrib_left]
    rfl

/-! The address table (R304, R309, R311). -/

theorem State.addrTab_congr {s t : State} (h : t.net = s.net) (d : Nat) : t.addrTab d = s.addrTab d := by
  rw [State.addrTab, State.addrTab, h]

theorem State.addrTab_wr (s : State) (e el v d : Nat) : (s.wr e el v).addrTab d = s.addrTab d := rfl

theorem State.addrTab_setAddrTab_same (s : State) (die : Nat) (t : Tab AddrEntry) : (s.setAddrTab die t).addrTab die = t := Tab.getD_set_same ..

theorem State.addrTab_setAddrTab_other (s : State) {die d : Nat} (t : Tab AddrEntry) (h : d ≠ die) :
    (s.setAddrTab die t).addrTab d = s.addrTab d := Tab.getD_set_other _ _ _ h

/-- A die has no way for a key that it does not hold. -/
def State.addrFull (s : State) (die key : Nat) : Bool :=
  ((s.addrTab die).get? key).isNone
    && decide (s.addrWays ≤ ((s.addrTab die).filter (fun (x : Nat × AddrEntry) => s.addrBucket x.1 == s.addrBucket key)).length)

theorem State.addrPut_eq (s : State) (die key : Nat) (e : AddrEntry) : s.addrPut die key e
    = if s.addrFull die key then (false, s) else (true, (s.setAddrTab die ((s.addrTab die).set key e)).clearBad die 3 key) := rfl

theorem State.addrFull_congr {s t : State} {die : Nat} (htab : t.addrTab die = s.addrTab die) (hmode : t.rd E.addrMode 0 = s.rd E.addrMode 0)
    (key : Nat) : t.addrFull die key = s.addrFull die key := by
  have hways : t.addrWays = s.addrWays := by rw [State.addrWays, State.addrWays, hmode]
  have hbucket : ∀ k, t.addrBucket k = s.addrBucket k := fun k => by
    rw [State.addrBucket, State.addrBucket, State.addrBits, State.addrBits, hmode]
  simp only [State.addrFull, htab, hways, hbucket]

theorem State.addrPut_fst (s : State) (die key : Nat) (e : AddrEntry) : (s.addrPut die key e).1 = !s.addrFull die key := by
  rw [State.addrPut_eq]
  cases s.addrFull die key <;> rfl

theorem State.addrPut_of_room {s : State} {die key : Nat} {e : AddrEntry} (h : (s.addrPut die key e).1 = true) :
    s.addrPut die key e = (true, (s.setAddrTab die ((s.addrTab die).set key e)).clearBad die 3 key) := by
  rw [State.addrPut_fst, Bool.not_eq_true'] at h
  rw [State.addrPut_eq, h]
  rfl

theorem State.addrPut_of_full {s : State} {die key : Nat} {e : AddrEntry} (h : (s.addrPut die key e).1 = false) :
    s.addrPut die key e = (false, s) := by
  rw [State.addrPut_fst, Bool.not_eq_false'] at h
  rw [State.addrPut_eq, h]
  rfl

theorem State.addrPut_spec (s : State) (die key : Nat) (e : AddrEntry) :
    ((s.addrPut die key e).1 = true → ((s.addrPut die key e).2.addrTab die).get? key = some e ∧
      ∀ k, k ≠ key → ((s.addrPut die key e).2.addrTab die).get? k = (s.addrTab die).get? k) ∧
    ((s.addrPut die key e).1 = false → (s.addrPut die key e).2 = s) ∧
    ∀ d, d ≠ die → (s.addrPut die key e).2.addrTab d = s.addrTab d := by
  refine ⟨fun h => ?_, fun h => ?_, fun d hd => ?_⟩
  · have htab : (s.addrPut die key e).2.addrTab die = (s.addrTab die).set key e := by
      rw [State.addrPut_of_room h]
      exact s.addrTab_setAddrTab_same die _
    rw [htab]
    exact ⟨Tab.get_set_same .., fun k hk => Tab.get_set_other _ _ hk⟩
  · rw [State.addrPut_of_full h]
  · rw [State.addrPut_eq]
    split
    · rfl
    · exact s.addrTab_setAddrTab_other _ hd

theorem State.learnFull_noted (s : State) (die key : Nat) : (s.learnFull die key).net = s.net ∧ (s.learnFull die key).now = s.now ∧
    (s.learnFull die key).rd E.addrMode 0 = s.rd E.addrMode 0 := by
  have hnoted := (s.bump E.fwdCounts 3 1).raiseLim_noted sec die 0x6404 1 die [.v 16 die, .v 32 (s.addrBucket key)]
  refine ⟨by rw [State.learnFull, hnoted.eq, State.bump, State.wr_net], hnoted.now, ?_⟩
  have hrd := (s.bump E.fwdCounts 3 1).raiseLim_sameEntries sec die 0x6404 1 die [.v 16 die, .v 32 (s.addrBucket key)] E.addrMode 0
    (by decide) (by decide)
  exact hrd.trans (State.rd_wr_other _ _ (elKey_ne_of_entry_ne (by decide) (by decide) (by decide)))

/-- An insert at one die. -/
def State.addrIns (key hop : Nat) (static : Bool) (s : State) (d : Nat) : State :=
  match s.addrPut d key ⟨hop, static, addrStamp s.now, true⟩ with
  | (true, s) => s
  | (false, s) => s.learnFull d key

section
variable (key hop : Nat) (static : Bool) (s : State)

theorem State.addrIns_eq (d : Nat) : s.addrIns key hop static d = if s.addrFull d key then s.learnFull d key else
    (s.setAddrTab d ((s.addrTab d).set key ⟨hop, static, addrStamp s.now, true⟩)).clearBad d 3 key := by
  rw [State.addrIns, State.addrPut_eq]
  cases s.addrFull d key <;> rfl

theorem State.addrIns_keeps (d : Nat) : (s.addrIns key hop static d).now = s.now ∧ (s.addrIns key hop static d).rd E.addrMode 0 = s.rd E.addrMode 0 := by
  rw [State.addrIns_eq]
  split
  · exact (s.learnFull_noted d key).2
  · exact ⟨rfl, rfl⟩

theorem State.addrIns_same (d : Nat) : (s.addrIns key hop static d).addrTab d = if s.addrFull d key then s.addrTab d
    else (s.addrTab d).set key ⟨hop, static, addrStamp s.now, true⟩ := by
  rw [State.addrIns_eq]
  split
  · exact State.addrTab_congr (s.learnFull_noted d key).1 d
  · exact s.addrTab_setAddrTab_same d _

theorem State.addrIns_other {d j : Nat} (h : j ≠ d) : (s.addrIns key hop static d).addrTab j = s.addrTab j := by
  rw [State.addrIns_eq]
  split
  · exact State.addrTab_congr (s.learnFull_noted d key).1 j
  · exact s.addrTab_setAddrTab_other _ h

theorem foldl_addrIns {l : List Nat} (hl : l.Nodup) (d : Nat) : (l.foldl (State.addrIns key hop static) s).addrTab d
    = if d ∈ l ∧ s.addrFull d key = false then (s.addrTab d).set key ⟨hop, static, addrStamp s.now, true⟩ else s.addrTab d := by
  induction l generalizing s with
  | nil => rw [if_neg fun h => List.not_mem_nil h.1]; rfl
  | cons k r ih =>
    obtain ⟨hk, hr⟩ := List.nodup_cons.mp hl
    obtain ⟨hnow, hmode⟩ := s.addrIns_keeps key hop static k
    rw [List.foldl_cons, ih _ hr, hnow]
    by_cases hdk : d = k
    · subst hdk
      rw [if_neg fun h => hk h.1, State.addrIns_same]
      cases s.addrFull d key <;> simp
    · have htab := s.addrIns_other key hop static hdk
      rw [htab, State.addrFull_congr htab hmode]
      simp only [List.mem_cons, hdk, false_or]
end

theorem addrAct_insert {v : BitVec 128} {s : State} (hop : bits v.toNat 127 126 = 0) (hup : s.namesDown (bits v.toNat 51 36) = false) :
    addrAct v s = ((List.range 8).foldl (State.addrIns (addrKey (bits v.toNat 111 100) (bits v.toNat 99 52)) (bits v.toNat 51 36)
      (bit v.toNat 125)) s).wr E.addrStatus 0 0 := by
  have hup' : ¬ s.namesDown (bits v.toNat 51 36) = true := fun h => Bool.false_ne_true (hup.symm.trans h)
  unfold addrAct
  dsimp only
  rw [if_pos hop, if_neg hup']
  rfl

theorem addrAct_down {v : BitVec 128} {s : State} (hop : bits v.toNat 127 126 = 0) (hdown : s.namesDown (bits v.toNat 51 36) = true) :
    addrAct v s = s.wr E.addrStatus 0 0 := by
  unfold addrAct
  dsimp only
  rw [if_pos hop, if_pos hdown]

/-- An entry deleted at every die. -/
def State.addrDel (s : State) (key : Nat) : State :=
  ({ s with net := { s.net with addrs := s.net.addrs.map (fun (d : Nat × Tab AddrEntry) => (d.1, Tab.del d.2 key)) } }).clearBadAll 3 key

theorem addrAct_delete {v : BitVec 128} {s : State} (hop : bits v.toNat 127 126 = 1) :
    addrAct v s = (s.addrDel (addrKey (bits v.toNat 111 100) (bits v.toNat 99 52))).wr E.addrStatus 0 0 := by
  have hop' : ¬ bits v.toNat 127 126 = 0 := by omega
  unfold addrAct
  dsimp only
  rw [if_neg hop']
  rfl

theorem State.addrDel_addrTab (s : State) (key d : Nat) : (s.addrDel key).addrTab d = (s.addrTab d).del key :=
  Tab.getD_map_val (fun t : Tab AddrEntry => t.del key) s.net.addrs d rfl

theorem addrAct_status (v : BitVec 128) (s : State) : (addrAct v s).rd E.addrStatus 0 = 0 := by
  unfold addrAct
  dsimp only
  rw [State.rd_wr_same]

theorem addrAct_spec (v : BitVec 128) (s : State) :
    let key := addrKey (bits v.toNat 111 100) (bits v.toNat 99 52)
    let e : AddrEntry := ⟨bits v.toNat 51 36, bit v.toNat 125, addrStamp s.now, true⟩
    (addrAct v s).rd E.addrStatus 0 = 0 ∧
    (bits v.toNat 127 126 = 0 → s.namesDown (bits v.toNat 51 36) = true → ∀ d, (addrAct v s).addrTab d = s.addrTab d) ∧
    (bits v.toNat 127 126 = 0 → s.namesDown (bits v.toNat 51 36) = false → ∀ d, (addrAct v s).addrTab d =
      if d < 8 ∧ (s.addrPut d key e).1 = true then (s.addrTab d).set key e else s.addrTab d) ∧
    (bits v.toNat 127 126 = 1 → ∀ d, ((addrAct v s).addrTab d).get? key = none ∧
      ∀ k, k ≠ key → ((addrAct v s).addrTab d).get? k = (s.addrTab d).get? k) := by
  intro key e
  refine ⟨addrAct_status v s, fun hop hdown d => ?_, fun hop hup d => ?_, fun hop d => ?_⟩
  · rw [addrAct_down hop hdown, State.addrTab_wr]
  · rw [addrAct_insert hop hup, State.addrTab_wr, foldl_addrIns _ _ _ s List.nodup_range, State.addrPut_fst]
    exact if_congr (and_congr List.mem_range (Iff.of_eq (Bool.not_eq_true' _).symm)) rfl rfl
  · have htab : (addrAct v s).addrTab d = (s.addrTab d).del key := by
      rw [addrAct_delete hop, State.addrTab_wr, State.addrDel_addrTab]
    rw [htab]
    exact ⟨Tab.get_del_same .., fun k hk => Tab.get_del_other _ hk⟩

theorem exec_learnPropagate {t : Time} {die vid mac hop : Nat} {s w : State}
    (hw : w = { s.begin t with net := { s.net with spread := s.net.spread.erase (die, addrKey vid mac, hop) } })
    (h : (die, addrKey vid mac, hop) ∈ s.net.spread) :
    exec (.learnPropagate t die vid mac hop) s = .next (w.learnAt die (addrKey vid mac) hop) := by
  have hmem : (s.begin t).net.spread.contains (die, addrKey vid mac, hop) = true := List.contains_iff_mem.mpr h
  rw [hw]
  exact next_congr (if_pos hmem)

section
variable {s : State} {die key hop : Nat}

theorem State.learnAt_down (h : s.namesDown hop = true) : s.learnAt die key hop = s := if_pos h

theorem State.learnAt_known {o : AddrEntry} (h : s.namesDown hop = false) (hf : s.addrFind die key = some o) : s.learnAt die key hop
    = if o.static then s else s.setAddrTab die ((s.addrTab die).set key { o with hop := hop, stamp := addrStamp s.now, hit := true }) := by
  simp only [State.learnAt, h, hf]
  rfl

theorem State.learnAt_new (h : s.namesDown hop = false) (hf : s.addrFind die key = none) :
    s.learnAt die key hop = s.addrIns key hop false die := by
  simp only [State.learnAt, h, hf]
  rfl

theorem State.addrIns_of_room {static : Bool} (h : (s.addrPut die key ⟨hop, static, addrStamp s.now, true⟩).1 = true) :
    s.addrIns key hop static die = (s.addrPut die key ⟨hop, static, addrStamp s.now, true⟩).2 := by
  rw [State.addrIns, State.addrPut_of_room h]

theorem State.addrIns_of_full {static : Bool} (h : (s.addrPut die key ⟨hop, static, addrStamp s.now, true⟩).1 = false) :
    s.addrIns key hop static die = s.learnFull die key := by
  rw [State.addrIns, State.addrPut_of_full h]
end

theorem learnPropagate_spec {t : Time} {die vid mac hop : Nat} {s w : State}
    (hw : w = { s.begin t with net := { s.net with spread := s.net.spread.erase (die, addrKey vid mac, hop) } })
    (h : (die, addrKey vid mac, hop) ∈ s.net.spread) :
    (s.namesDown hop = true → exec (.learnPropagate t die vid mac hop) s = .next w) ∧
    (s.namesDown hop = false → s.addrFind die (addrKey vid mac) = none →
      ((w.addrPut die (addrKey vid mac) ⟨hop, false, addrStamp t, true⟩).1 = true →
        exec (.learnPropagate t die vid mac hop) s = .next (w.addrPut die (addrKey vid mac) ⟨hop, false, addrStamp t, true⟩).2) ∧
      ((w.addrPut die (addrKey vid mac) ⟨hop, false, addrStamp t, true⟩).1 = false →
        exec (.learnPropagate t die vid mac hop) s = .next (w.learnFull die (addrKey vid mac)))) ∧
    (∀ o, s.namesDown hop = false → s.addrFind die (addrKey vid mac) = some o →
      (o.static = true → exec (.learnPropagate t die vid mac hop) s = .next w) ∧
      (o.static = false → exec (.learnPropagate t die vid mac hop) s
        = .next (w.setAddrTab die ((s.addrTab die).set (addrKey vid mac) { o with hop := hop, stamp := addrStamp t, hit := true })))) := by
  have hnow : w.now = t := by rw [hw]; rfl
  have hnames : w.namesDown hop = s.namesDown hop := by rw [hw]; rfl
  have hfind : w.addrFind die (addrKey vid mac) = s.addrFind die (addrKey vid mac) := by rw [hw]; rfl
  have htab : w.addrTab die = s.addrTab die := by rw [hw]; rfl
  rw [exec_learnPropagate hw h, ← hnames, ← hfind, ← htab, ← hnow]
  refine ⟨fun hdown => by rw [State.learnAt_down hdown], fun hup hf => ⟨fun hroom => ?_, fun hfull => ?_⟩,
    fun o hup hf => ⟨fun hst => ?_, fun hst => ?_⟩⟩
  · rw [State.learnAt_new hup hf, State.addrIns_of_room hroom]
  · rw [State.learnAt_new hup hf, State.addrIns_of_full hfull]
  · rw [State.learnAt_known hup hf, if_pos hst]
  · rw [State.learnAt_known hup hf, hst]
    rfl

/-! Sweeps and flushes (R312-R314). -/

theorem State.bump_sameBut (s : State) (e el n : Nat) : SameBut [(e, el)] s (s.bump e el n) :=
  SameBut.wr (fun _ _ _ => rfl) _ (List.mem_singleton_self _)

/-- An entry that a flush of a VID and a port removes. -/
def flushHit (vid port : Nat) (x : Nat × AddrEntry) : Bool :=
  !x.2.static && (vid == 0 || vid == x.1 / 2 ^ 48) && (port == 0xFFFF || (!bit x.2.hop 15 && bits x.2.hop 10 0 == port))

/-- The tables of every die after a flush. -/
def State.flushed (s : State) (vid port : Nat) : State :=
  { s with net := { s.net with addrs := s.net.addrs.map (fun d => (d.1, d.2.filter (fun x => !flushHit vid port x))) } }

theorem State.flushed_addrTab (s : State) (vid port die : Nat) :
    (s.flushed vid port).addrTab die = (s.addrTab die).filter (fun x => !flushHit vid port x) :=
  Tab.getD_map_val (fun t : Tab AddrEntry => t.filter (fun x => !flushHit vid port x)) s.net.addrs die rfl

theorem State.flushAddrs_eq (s : State) (vid port : Nat) : s.flushAddrs vid port =
    if s.net.addrs.foldl (fun n d => n + (d.2.filter (flushHit vid port)).length) 0 = 0 then s.flushed vid port
    else (s.flushed vid port).bump E.fwdCounts 5 (s.net.addrs.foldl (fun n d => n + (d.2.filter (flushHit vid port)).length) 0) := rfl

theorem State.flushAddrs_addrTab (s : State) (vid port die : Nat) : (s.flushAddrs vid port).addrTab die
    = (s.addrTab die).filter (fun x => x.2.static ||
      !((vid == 0 || vid == x.1 / 2 ^ 48) && (port == 0xFFFF || (!bit x.2.hop 15 && bits x.2.hop 10 0 == port)))) := by
  have htab : (s.flushAddrs vid port).addrTab die = (s.flushed vid port).addrTab die := by
    rw [State.flushAddrs_eq]
    split <;> rfl
  rw [htab, State.flushed_addrTab]
  refine List.filter_congr fun x _ => ?_
  rw [flushHit, Bool.and_assoc, Bool.not_and, Bool.not_not]

/-- The step of an age sweep at one die, before it is counted. -/
def State.agedOut (s : State) (die : Nat) : State :=
  let kept := (s.addrTab die).filter (fun (x : Nat × AddrEntry) => !s.aged x.2)
  s.setAddrTab die (if s.rd E.addrMode 0 = 1 then kept.map (fun (x : Nat × AddrEntry) => (x.1, { x.2 with hit := false })) else kept)

theorem exec_ageSweep (t : Time) (die : Nat) (s : State) : exec (.ageSweep t die) s = .next (((s.begin t).agedOut die).bump E.fwdCounts 5
    (((s.begin t).addrTab die).filter (fun (x : Nat × AddrEntry) => (s.begin t).aged x.2)).length) := rfl

theorem State.aged_now (s : State) (t : Time) (x : AddrEntry) : (s.begin t).aged x = (!x.static && (if s.rd E.addrMode 0 = 1 then !x.hit
    else decide (s.rd E.ageTime 0 ≤ (addrStamp t + 65536 - x.stamp) % 65536 * (2 ^ 24 * ns)))) := rfl

theorem State.agedOut_other (s : State) {die d : Nat} (h : d ≠ die) : (s.agedOut die).addrTab d = s.addrTab d :=
  s.addrTab_setAddrTab_other _ h

theorem State.agedOut_stamps {s : State} (t : Time) (die : Nat) (h : s.rd E.addrMode 0 ≠ 1) : ((s.begin t).agedOut die).addrTab die
    = (s.addrTab die).filter (fun x => x.2.static ||
        decide ((addrStamp t + 65536 - x.2.stamp) % 65536 * (2 ^ 24 * ns) < s.rd E.ageTime 0)) := by
  have hmode : ¬ (s.begin t).rd E.addrMode 0 = 1 := h
  rw [State.agedOut, State.addrTab_setAddrTab_same, if_neg hmode]
  refine List.filter_congr fun x _ => ?_
  rw [State.aged_now, if_neg h, Bool.not_and, Bool.not_not, ← decide_not, decide_eq_decide.mpr Nat.not_le]

theorem State.agedOut_hits {s : State} (t : Time) (die : Nat) (h : s.rd E.addrMode 0 = 1) : ((s.begin t).agedOut die).addrTab die
    = ((s.addrTab die).filter (fun x => x.2.static || x.2.hit)).map (fun x => (x.1, { x.2 with hit := false })) := by
  have hmode : (s.begin t).rd E.addrMode 0 = 1 := h
  rw [State.agedOut, State.addrTab_setAddrTab_same, if_pos hmode]
  refine congrArg _ (List.filter_congr fun x _ => ?_)
  rw [State.aged_now, if_pos h, Bool.not_and, Bool.not_not, Bool.not_not]

/-! Prefixes and next hops (R316, R319). -/

theorem exec_prefixWrite {a : Access} {v : BitVec 192} {s : State} (ht : s.Takes a E.prefixWrite 0 24 0 true)
    (hrule : prefixRule v (s.begin a.t) = .ok) : exec (.prefixWrite a v) s = .next ((prefixAct v (s.commitAt a)).answerItem stOk) :=
  next_congr (State.writeOne_ok ht hrule)

/-- The key of a prefix record. -/
def recordKey (v : BitVec 192) : Nat := pfxKey (bits v.toNat 189 189) (bits v.toNat 188 181) (bits v.toNat 127 0)

/-- The switch with a prefix record applied at all dies. -/
def Net.withPrefix (n : Net) (v : BitVec 192) : Net :=
  { n with
    prefixJob := none
    prefixes := if bits v.toNat 191 190 = 0 then n.prefixes.set (recordKey v) (bits v.toNat 180 167) else n.prefixes.del (recordKey v)
    badParity := n.badParity.filter (fun (x : Nat × Nat × Nat) => !(x.2 == (4, recordKey v))) }

/-- The free units of the prefix tables once a record is applied. -/
def State.unitsAfter (s : State) (v : BitVec 192) : Nat :=
  let n := pfxUnits (bits v.toNat 189 189)
  let held := (s.net.prefixes.get? (recordKey v)).isSome
  if bits v.toNat 191 190 = 0 then (if held then s.rd E.prefixUnitsFree 0 else s.rd E.prefixUnitsFree 0 - n)
  else (if held then s.rd E.prefixUnitsFree 0 + n else s.rd E.prefixUnitsFree 0)

theorem State.finishPrefix_of_job {s : State} {v : BitVec 192} (h : s.net.prefixJob = some v) : s.finishPrefix
    = (({ s with net := s.net.withPrefix v } : State).wr E.prefixUnitsFree 0 (s.unitsAfter v)).wr E.prefixStatus 0 0 := by
  simp only [State.finishPrefix, h]
  rfl

theorem State.finishPrefix_of_idle {s : State} (h : s.net.prefixJob = none) : s.finishPrefix = s := by
  simp only [State.finishPrefix, h]

theorem State.finishPrefix_net (s : State) : s.finishPrefix.net = match s.net.prefixJob with
    | some v => s.net.withPrefix v
    | none => s.net := by
  cases h : s.net.prefixJob with
  | none => rw [State.finishPrefix_of_idle h]
  | some v => rw [State.finishPrefix_of_job h, State.wr_net, State.wr_net]

theorem State.finishPrefix_out (s : State) : s.finishPrefix.out = s.out := by
  cases h : s.net.prefixJob with
  | none => rw [State.finishPrefix_of_idle h]
  | some v => rw [State.finishPrefix_of_job h, State.wr_out, State.wr_out]

theorem SameBut.finishPrefix {l : List (Nat × Nat)} {s t : State} (h : SameBut l s t) (hfree : (E.prefixUnitsFree, 0) ∈ l)
    (hstatus : (E.prefixStatus, 0) ∈ l) : SameBut l s t.finishPrefix := by
  cases hjob : t.net.prefixJob with
  | none => rwa [State.finishPrefix_of_idle hjob]
  | some v =>
    rw [State.finishPrefix_of_job hjob]
    exact ((h.net _).wr _ hfree).wr _ hstatus

theorem prefixAct_spec (v : BitVec 192) (a : Access) (s : State) : (prefixAct v (s.commitAt a)).rd E.prefixStatus 0 = 0xFF ∧
    (prefixAct v (s.commitAt a)).net = { s.finishPrefix.net with prefixJob := some v } ∧ (prefixAct v (s.commitAt a)).out = [] ∧
    SameBut [(E.prefixUnitsFree, 0), (E.prefixStatus, 0), (E.commitLast, 0), (E.domainState, 18 + s.keeper)] s (prefixAct v (s.commitAt a)) := by
  have heq : prefixAct v (s.commitAt a) = ({ (s.commitAt a).finishPrefix with net :=
      { (s.commitAt a).finishPrefix.net with prefixJob := some v } } : State).wr E.prefixStatus 0 0xFF := rfl
  have hnet : (s.commitAt a).finishPrefix.net = s.finishPrefix.net := by
    rw [State.finishPrefix_net, State.finishPrefix_net, State.commitAt_net]
  rw [heq]
  refine ⟨State.rd_wr_same .., ?_, ?_, ?_⟩
  · rw [State.wr_net, hnet]
  · exact (State.finishPrefix_out _).trans (State.commitAt_out ..)
  · exact ((((SameBut.commitAt s a (by simp) (by simp)).finishPrefix (by simp) (by simp)).net _).wr _ (by simp))

theorem exec_prefixApplied {t : Time} {v : BitVec 192} {s : State} (h : s.net.prefixJob = some v) :
    exec (.prefixApplied t) s = .next (s.finishPrefix.begin t) := by
  have h' : (s.begin t).net.prefixJob = some v := h
  rw [State.finishPrefix_of_job h]
  exact next_congr (State.finishPrefix_of_job h')

theorem Net.withPrefix_prefixes (n : Net) (v : BitVec 192) : (n.withPrefix v).prefixes.get? (recordKey v)
      = (if bits v.toNat 191 190 = 0 then some (bits v.toNat 180 167) else none) ∧
    ∀ k, k ≠ recordKey v → (n.withPrefix v).prefixes.get? k = n.prefixes.get? k := by
  unfold Net.withPrefix
  dsimp only
  split
  · exact ⟨Tab.get_set_same .., fun k hk => Tab.get_set_other _ _ hk⟩
  · exact ⟨Tab.get_del_same .., fun k hk => Tab.get_del_other _ hk⟩

theorem finishPrefix_spec {v : BitVec 192} {s : State} (h : s.net.prefixJob = some v) : s.finishPrefix.rd E.prefixStatus 0 = 0 ∧
    s.finishPrefix.rd E.prefixUnitsFree 0 = s.unitsAfter v ∧ s.finishPrefix.net = s.net.withPrefix v := by
  rw [State.finishPrefix_of_job h]
  refine ⟨State.rd_wr_same .., ?_, ?_⟩
  · rw [State.rd_wr_other _ _ (elKey_ne_of_entry_ne (by decide) (by decide) (by decide)), State.rd_wr_same]
  · rw [State.wr_net, State.wr_net]

theorem parityBad_withPrefix {s : State} {n : Net} {v : BitVec 192} (h : s.net = n.withPrefix v) (d : Nat) :
    s.parityBad d 4 (recordKey v) = false := by
  rw [State.parityBad, h, List.contains_eq_mem, decide_eq_false_iff_not]
  intro hm
  have := List.mem_filter.mp hm
  simp at this

theorem nexthopAct_spec (v : BitVec 128) (a : Access) (s : State) :
    (nexthopAct v (s.commitAt a)).net.nextHops = s.net.nextHops.set (bits v.toNat 127 114) v ∧
    (∀ d, (nexthopAct v (s.commitAt a)).parityBad d 6 (bits v.toNat 127 114) = false) ∧ (nexthopAct v (s.commitAt a)).out = [] ∧
    SameBut [(E.nexthopStatus, 0), (E.commitLast, 0), (E.domainState, 18 + s.keeper)] s (nexthopAct v (s.commitAt a)) := by
  obtain ⟨w, hw⟩ : ∃ w : State, w = { s.commitAt a with net := { s.net with nextHops := s.net.nextHops.set (bits v.toNat 127 114) v } } :=
    ⟨_, rfl⟩
  have heq : nexthopAct v (s.commitAt a) = (w.clearBadAll 6 (bits v.toNat 127 114)).wr E.nexthopStatus 0 0 := by
    rw [nexthopAct, State.commitAt_net, hw]
  have hsame : SameBut [(E.nexthopStatus, 0), (E.commitLast, 0), (E.domainState, 18 + s.keeper)] s w := by
    rw [hw]
    exact (SameBut.commitAt s a (by simp) (by simp)).net _
  have hout : w.out = [] := by
    rw [hw]
    exact State.commitAt_out ..
  rw [heq]
  refine ⟨by rw [State.wr_net, hw]; rfl, fun d => ?_, hout, (hsame.net _).wr _ (by simp)⟩
  rw [State.parityBad_congr (State.wr_net ..)]
  exact w.parityBad_clearBadAll d 6 _

/-- The exact routes once a record is applied. -/
def Net.exactWith (n : Net) (v : BitVec 64) : Tab Nat :=
  if bit v.toNat 39 then n.exact.set (bits v.toNat 63 40) (bits v.toNat 15 0) else n.exact.del (bits v.toNat 63 40)

theorem Net.exactWith_spec (n : Net) (v : BitVec 64) :
    (n.exactWith v).get? (bits v.toNat 63 40) = (if bit v.toNat 39 then some (bits v.toNat 15 0) else none) ∧
    ∀ k, k ≠ bits v.toNat 63 40 → (n.exactWith v).get? k = n.exact.get? k := by
  unfold Net.exactWith
  split
  · exact ⟨Tab.get_set_same .., fun k hk => Tab.get_set_other _ _ hk⟩
  · exact ⟨Tab.get_del_same .., fun k hk => Tab.get_del_other _ hk⟩

theorem geiExactAct_spec (v : BitVec 64) (a : Access) (s : State) :
    (geiExactAct v (s.commitAt a)).net.exact = s.net.exactWith v ∧
    (∀ d, (geiExactAct v (s.commitAt a)).parityBad d 1 (bits v.toNat 63 40) = false) ∧ (geiExactAct v (s.commitAt a)).out = [] ∧
    SameBut [(E.geiExactStatus, 0), (E.commitLast, 0), (E.domainState, 18 + s.keeper)] s (geiExactAct v (s.commitAt a)) := by
  obtain ⟨w, hw⟩ : ∃ w : State, w = { s.commitAt a with net := { s.net with exact := s.net.exactWith v } } := ⟨_, rfl⟩
  have heq : geiExactAct v (s.commitAt a) = (w.clearBadAll 1 (bits v.toNat 63 40)).wr E.geiExactStatus 0 0 := by
    rw [geiExactAct, State.commitAt_net, hw]
    rfl
  have hsame : SameBut [(E.geiExactStatus, 0), (E.commitLast, 0), (E.domainState, 18 + s.keeper)] s w := by
    rw [hw]
    exact (SameBut.commitAt s a (by simp) (by simp)).net _
  have hout : w.out = [] := by
    rw [hw]
    exact State.commitAt_out ..
  rw [heq]
  refine ⟨by rw [State.wr_net, hw]; rfl, fun d => ?_, hout, (hsame.net _).wr _ (by simp)⟩
  rw [State.parityBad_congr (State.wr_net ..)]
  exact w.parityBad_clearBadAll d 1 _

theorem exec_nexthopWrite {a : Access} {v : BitVec 128} {s : State} (ht : s.Takes a E.nexthopWrite 0 16 0 true)
    (hrule : nexthopRule v (s.begin a.t) = .ok) : exec (.nexthopWrite a v) s = .next ((nexthopAct v (s.commitAt a)).answerItem stOk) :=
  next_congr (State.writeOne_ok ht hrule)

theorem exec_geiExactWrite {a : Access} {v : BitVec 64} {s : State} (ht : s.Takes a E.geiExactWrite 0 8 0 true)
    (hrule : geiExactRule v (s.begin a.t) = .ok) : exec (.geiExactWrite a v) s = .next ((geiExactAct v (s.commitAt a)).answerItem stOk) :=
  next_congr (State.writeOne_ok ht hrule)

/-! The queries' answers (R302, R304, R318). -/

theorem geiAnswer_eq (v : Nat) (w : State) : geiAnswer v w = pack [(3, bits v 63 61), (5, 0), (24, bits v 55 32), (14, 0),
    (2, (w.geiLookup (bits v 63 61) (bits v 55 32)).1), (16, (w.geiLookup (bits v 63 61) (bits v 55 32)).2)] := rfl

theorem geiAnswer_spec (v : Nat) (w : State) : bits (geiAnswer v w) 63 61 = bits v 63 61 ∧ bits (geiAnswer v w) 55 32 = bits v 55 32 ∧
    bits (geiAnswer v w) 17 16 = (w.geiLookup (bits v 63 61) (bits v 55 32)).1 % 4 ∧
    bits (geiAnswer v w) 15 0 = (w.geiLookup (bits v 63 61) (bits v 55 32)).2 % 65536 := by
  rw [geiAnswer_eq]
  exact ⟨bits_pack_of_lt [] _ rfl rfl (bits_lt v 63 61), bits_pack_of_lt [(3, _), (5, _)] _ rfl rfl (bits_lt v 55 32),
    bits_pack [(3, _), (5, _), (24, _), (14, _)] 2 _ _ rfl rfl, bits_pack [(3, _), (5, _), (24, _), (14, _), (2, _)] 16 _ [] rfl rfl⟩

theorem addrAnswer_none {v : Nat} {w : State} (h : w.addrFind (bits v 127 125) (addrKey (bits v 111 100) (bits v 99 52)) = none) :
    addrAnswer v w = pack ((3, bits v 127 125) :: [(1, b2n false), (1, 0), (11, 0), (12, bits v 111 100), (48, bits v 99 52), (16, 0), (20, 0),
      (16, 0)]) := by
  simp only [addrAnswer, h]
  rfl

theorem addrAnswer_some {v : Nat} {w : State} {e : AddrEntry}
    (h : w.addrFind (bits v 127 125) (addrKey (bits v 111 100) (bits v 99 52)) = some e) :
    addrAnswer v w = pack ((3, bits v 127 125) :: [(1, b2n true), (1, b2n e.static), (11, 0), (12, bits v 111 100), (48, bits v 99 52),
      (16, e.hop), (20, 0), (16, if w.rd E.addrMode 0 = 1 then b2n e.hit else (addrStamp w.now + 65536 - e.stamp) % 65536)]) := by
  simp only [addrAnswer, h]
  rfl

theorem addrAge_lt (w : State) (e : AddrEntry) :
    (if w.rd E.addrMode 0 = 1 then b2n e.hit else (addrStamp w.now + 65536 - e.stamp) % 65536) < 65536 := by
  split
  · cases e.hit <;> decide
  · exact Nat.mod_lt _ (by decide)

theorem addrAnswer_spec (v : Nat) (w : State) : bits (addrAnswer v w) 127 125 = bits v 127 125 ∧
    bit (addrAnswer v w) 124 = (w.addrFind (bits v 127 125) (addrKey (bits v 111 100) (bits v 99 52))).isSome ∧
    ∀ e, w.addrFind (bits v 127 125) (addrKey (bits v 111 100) (bits v 99 52)) = some e → bits (addrAnswer v w) 51 36 = e.hop % 65536 ∧
      bit (addrAnswer v w) 123 = e.static ∧
      bits (addrAnswer v w) 15 0 = if w.rd E.addrMode 0 = 1 then b2n e.hit else (addrStamp w.now + 65536 - e.stamp) % 65536 := by
  cases h : w.addrFind (bits v 127 125) (addrKey (bits v 111 100) (bits v 99 52)) with
  | none =>
    rw [addrAnswer_none h]
    exact ⟨bits_pack_of_lt [] _ rfl rfl (bits_lt v 127 125), bit_pack [(3, _)] false _ rfl, fun e he => nomatch he⟩
  | some e =>
    rw [addrAnswer_some h]
    refine ⟨bits_pack_of_lt [] _ rfl rfl (bits_lt v 127 125), bit_pack [(3, _)] true _ rfl, fun e' he => ?_⟩
    obtain rfl := Option.some.inj he
    exact ⟨bits_pack [(3, _), (1, _), (1, _), (11, _), (12, _), (48, _)] 16 _ _ rfl rfl, bit_pack [(3, _), (1, _)] e.static _ rfl,
      bits_pack_of_lt [(3, _), (1, _), (1, _), (11, _), (12, _), (48, _), (16, _), (20, _)] [] rfl rfl (addrAge_lt w e)⟩

theorem lpmAnswer_spec (v : Nat) (w : State) : bits (lpmAnswer v w) 127 0 = bits v 127 0 ∧
    bit (lpmAnswer v w) 187 = (w.lpm (bits v 191 189) (bits v 188 188) (bits v 127 0)).isSome ∧
    ∀ n nh, w.lpm (bits v 191 189) (bits v 188 188) (bits v 127 0) = some (n, nh) →
      bits (lpmAnswer v w) 186 179 = n % 256 ∧ bits (lpmAnswer v w) 178 165 = nh % 16384 := by
  cases h : w.lpm (bits v 191 189) (bits v 188 188) (bits v 127 0) with
  | none =>
    have hans : lpmAnswer v w = pack [(3, bits v 191 189), (1, bits v 188 188), (1, b2n false), (8, 0), (14, 0), (37, 0), (128, bits v 127 0)] := by
      simp only [lpmAnswer, h]
      rfl
    rw [hans]
    exact ⟨bits_pack_of_lt [(3, _), (1, _), (1, _), (8, _), (14, _), (37, _)] [] rfl rfl (bits_lt v 127 0),
      bit_pack [(3, _), (1, _)] false _ rfl, fun n nh hn => nomatch hn⟩
  | some p =>
    obtain ⟨len, hop⟩ := p
    have hans : lpmAnswer v w
        = pack [(3, bits v 191 189), (1, bits v 188 188), (1, b2n true), (8, len), (14, hop), (37, 0), (128, bits v 127 0)] := by
      simp only [lpmAnswer, h]
      rfl
    rw [hans]
    refine ⟨bits_pack_of_lt [(3, _), (1, _), (1, _), (8, _), (14, _), (37, _)] [] rfl rfl (bits_lt v 127 0),
      bit_pack [(3, _), (1, _)] true _ rfl, fun n nh hn => ?_⟩
    obtain ⟨rfl, rfl⟩ := Prod.mk.inj (Option.some.inj hn)
    exact ⟨bits_pack [(3, _), (1, _), (1, _)] 8 _ _ rfl rfl, bits_pack [(3, _), (1, _), (1, _), (8, _)] 14 _ _ rfl rfl⟩

theorem State.view_geiQuery (s : State) : s.view E.geiQuery 0 = queryView 64 (s.rd E.geiQuery 0) (fun v => geiAnswer v s) :=
  State.view_of_device rfl rfl

theorem State.view_addrQuery (s : State) : s.view E.addrQuery 0 = queryView 128 (s.rd E.addrQuery 0) (fun v => addrAnswer v s) :=
  State.view_of_device rfl rfl

theorem State.view_lpmQuery (s : State) : s.view E.lpmQuery 0 = queryView 192 (s.rd E.lpmQuery 0) (fun v => lpmAnswer v s) :=
  State.view_of_device rfl rfl

theorem exec_addrMode_set {a : Access} {v : Nat} {s : State} (ht : s.Takes a E.addrMode 0 1 v true)
    (h : s.net.addrs.any (fun d => !d.2.isEmpty) = false) : exec (.addrMode a v) s = .next ((addrModeAct v (s.commitAt a)).answerItem stOk) := by
  have hrule : addrModeRule (s.begin a.t) = .ok := if_neg fun hany => Bool.false_ne_true (h.symm.trans hany)
  exact next_congr (State.writeOne_ok ht hrule)

theorem exec_addrMode_refused {a : Access} {v : Nat} {s : State} (ht : s.Takes a E.addrMode 0 1 v true)
    (h : s.net.addrs.any (fun d => !d.2.isEmpty) = true) : exec (.addrMode a v) s = .next ((s.begin a.t).answerItem stRefused) := by
  have hrule : addrModeRule (s.begin a.t) = .refused 0 0 := if_pos h
  exact next_congr (State.writeOne_refused (act := addrModeAct v) ht hrule)

theorem addrModeAct_spec (v : Nat) (a : Access) (s : State) : (addrModeAct v (s.commitAt a)).rd E.addrMode 0 = v ∧
    (addrModeAct v (s.commitAt a)).rd E.addrCapacity 0 = (if v = 1 then 524288 else 131072) ∧ (addrModeAct v (s.commitAt a)).out = [] ∧
    (addrModeAct v (s.commitAt a)).net = s.net ∧ SameBut [(E.addrMode, 0), (E.addrCapacity, 0), (E.commitLast, 0),
      (E.domainState, 18 + s.keeper)] s (addrModeAct v (s.commitAt a)) := by
  unfold addrModeAct
  refine ⟨?_, State.rd_wr_same .., ?_, ?_, ((SameBut.commitAt s a (by simp) (by simp)).wr _ (by simp)).wr _ (by simp)⟩
  · rw [State.rd_wr_other _ _ (elKey_ne_of_entry_ne (by decide) (by decide) (by decide)), State.rd_wr_same]
  · rw [State.wr_out, State.wr_out, State.commitAt_out]
  · rw [State.wr_net, State.wr_net, State.commitAt_net]

theorem exec_learnPop {a : Access} {r : BitVec 128} {l : List (BitVec 128)} {s : State} (hg : s.Gives a E.learnPop 0 true)
    (hq : s.net.learnQ = r :: l) : exec (.learnPop a) s = .next { s.begin a.t with
      net := { s.net with learnQ := l, learnFull := s.net.learnFull && !l.isEmpty }, out := [.item stOk r.toNat] } := by
  have hhead : (s.begin a.t).learnHead = r.toNat := by
    have hq' : (s.begin a.t).net.learnQ = r :: l := hq
    rw [State.learnHead, hq']
  have hdrop : (s.begin a.t).learnDrop = { s.begin a.t with net := { s.net with learnQ := l, learnFull := s.net.learnFull && !l.isEmpty } } := by
    have hq' : (s.begin a.t).net.learnQ = r :: l := hq
    rw [State.learnDrop, hq']
    rfl
  refine next_congr ((State.readOne_ok hg).trans ?_)
  rw [hhead, hdrop]
  rfl

/-- Settles O42: the tables' writes, queries, sweeps and repairs each as their command says. -/
theorem forwardingTables : Obligations.ForwardingTables := by
  unfold Obligations.ForwardingTables
  refine ⟨?exact, fun a v s ht => ⟨State.query_written ht v.isLt State.view_geiQuery, geiAnswer_spec v.toNat⟩, ?mode,
    fun a v s ht hrule => next_congr (State.writeOne_ok ht hrule), addrAct_spec, fun die key e s => s.addrPut_spec die key e, ?query,
    fun a v s ht => next_congr (State.writeOne_ok ht rfl), fun vid port die s => s.flushAddrs_addrTab vid port die,
    fun a r l s hg hq => exec_learnPop hg hq, ?propagate, ?sweep, ?prefixWrite, ?applied, ?nexthop,
    fun a v s ht => ⟨State.query_written ht v.isLt State.view_lpmQuery, lpmAnswer_spec v.toNat⟩, ?scrub, ?rebuild⟩
  case exact =>
    intro a v s ht hrule g
    obtain ⟨hnet, hbad, hout, hsame⟩ := geiExactAct_spec v a s
    obtain ⟨hset, hkept⟩ := s.net.exactWith_spec v
    rw [← hnet] at hset hkept
    exact ⟨_, exec_geiExactWrite ht hrule, by rw [State.answerItem_out, hout]; rfl, hset, hkept, hbad, hsame⟩
  case mode =>
    intro a v s ht
    refine ⟨fun hempty => ?_, fun hheld => exec_addrMode_refused ht hheld⟩
    obtain ⟨hmode, hcap, hout, hnet, hsame⟩ := addrModeAct_spec v a s
    refine ⟨_, exec_addrMode_set ht hempty, ?_, ?_, by rw [State.answerItem_out, hout]; rfl, ?_, hsame.congr fun _ _ => State.rd_answerItem ..⟩
    · rw [State.rd_answerItem, hmode]
    · rw [State.rd_answerItem, hcap]
    · rw [State.answerItem, State.emit_net, hnet]
  case query =>
    intro a v s ht key
    exact ⟨State.query_written ht v.isLt State.view_addrQuery, addrAnswer_spec v.toNat⟩
  case propagate =>
    intro t die vid mac hop s key w e
    refine ⟨fun hno => ?_, fun h => learnPropagate_spec rfl h⟩
    have hno' : ¬ (s.begin t).net.spread.contains (die, key, hop) = true := fun h => hno (List.contains_iff_mem.mp h)
    exact next_congr (if_neg hno')
  case sweep =>
    intro t die s
    have hother : ∀ d, d ≠ die → ((s.begin t).agedOut die).addrTab d = s.addrTab d := fun d hd => (s.begin t).agedOut_other hd
    have hsame : SameBut [(E.fwdCounts, 5)] s ((s.begin t).agedOut die) := fun _ _ _ => rfl
    exact ⟨fun h => ⟨_, exec_ageSweep t die s, State.agedOut_stamps t die h, hother, hsame.wr _ (by simp)⟩,
      fun h => ⟨_, exec_ageSweep t die s, State.agedOut_hits t die h, hother, hsame.wr _ (by simp)⟩⟩
  case prefixWrite =>
    intro a v s ht hrule
    obtain ⟨hstatus, hnet, hout, hsame⟩ := prefixAct_spec v a s
    exact ⟨_, exec_prefixWrite ht hrule, hstatus, hnet, by rw [State.answerItem_out, hout]; rfl, hsame⟩
  case applied =>
    intro t v s h key n held
    obtain ⟨hstatus, hfree, hnet⟩ := finishPrefix_spec h
    obtain ⟨hset, hkept⟩ := s.net.withPrefix_prefixes v
    rw [← hnet] at hset hkept
    refine ⟨_, exec_prefixApplied h, rfl, hstatus, ?_, hfree, parityBad_withPrefix hnet, hset, hkept⟩
    exact congrArg Net.prefixJob hnet
  case nexthop =>
    intro a v s ht hrule
    obtain ⟨hnet, hbad, hout, hsame⟩ := nexthopAct_spec v a s
    refine ⟨_, exec_nexthopWrite ht hrule, ?_, fun k hk => ?_, hbad, by rw [State.answerItem_out, hout]; rfl, hsame⟩
    · rw [State.answerItem, State.emit_net, hnet]
      exact Tab.get_set_same ..
    · rw [State.answerItem, State.emit_net, hnet]
      exact Tab.get_set_other _ _ hk
  case scrub =>
    intro t die l s
    refine ⟨rfl, (s.begin t).findUpsets_only die l, fun tab i => ?_, fun d tab i hd => ?_⟩
    · refine ((s.begin t).parityBad_findUpsets die l die (tab, i)).trans ?_
      rw [beq_self_eq_true, Bool.true_and]
      rfl
    · refine ((s.begin t).parityBad_findUpsets die l d (tab, i)).trans ?_
      rw [beq_false_of_ne hd, Bool.false_and, Bool.or_false]
      rfl
  case rebuild =>
    intro t die family index s
    exact ⟨_, rfl, (s.begin t).parityBad_clearBad_same die 5 _, rfl, fun d tab i h => (s.begin t).parityBad_clearBad_other h⟩

end Sys2Proof.Machine
end

section
/-!
A width switch written at a port that does not exist (log 197).
-/
namespace Sys2Proof.Machine

/-! A write of NARROW_EN at a port that the fiber's mode does not make. Its index is below the entry's count, so the checks before the
entry's own rule pass; that rule answers RANGE (log 197). -/

/-- The device with every local right, its first fiber in the mode of two ports: port 1 does not exist. -/
def twoPortState : State := (State.reset.wr E.localRights 0 15).wr E.fiberMode 0 1

/-- A write of a local path. -/
def localAccess : Access := ⟨0, .pcie⟩

theorem twoPortState_takes : twoPortState.Takes localAccess E.narrowEn 1 1 0 true := ⟨by rfl, by rfl, by rfl⟩

theorem twoPortState_narrowEn : exec (.narrowEn localAccess 1 0) twoPortState = .next ((twoPortState.begin 0).answerItem stRange) := by
  have hrule : (if !(twoPortState.begin localAccess.t).portExists 1 then Verdict.range
      else if 0 = 1 ∧ (twoPortState.begin localAccess.t).rd E.portMft 1 = 0 then .refused 0 0 else .ok) = .range := by rfl
  exact next_congr (State.writeOne_range (rule := fun s => if !s.portExists 1 then .range
      else if 0 = 1 ∧ s.rd E.portMft 1 = 0 then .refused 0 0 else .ok) twoPortState_takes hrule)

theorem State.putValue_out (s : State) (e el v : Nat) : (s.putValue e el v).out = s.out := by
  unfold State.putValue
  split
  · split
    · split <;> rfl
    · rfl
  · rfl

/-- Refutes O44: a NARROW_EN write of a port that the fiber's mode does not make ends with RANGE, where the statement has it taken. -/
theorem not_fibersLasersAndMonitors : ¬ Obligations.FibersLasersAndMonitors := by
  unfold Obligations.FibersLasersAndMonitors
  rintro ⟨-, hnarrow, -⟩
  have htaken := (hnarrow localAccess 1 0 twoPortState twoPortState_takes).1 (Or.inl (by decide))
  have hout := congrArg State.out (Host.Outcome.next.inj (twoPortState_narrowEn.symm.trans htaken))
  rw [State.answerItem_out, State.answerItem_out, State.putValue_out, State.commitAt_out] at hout
  cases hout

end Sys2Proof.Machine
end

section
/-!
Board groups, pulse outputs and captures (R404-R407).
-/
namespace Sys2Proof.Machine

/-! The elements that an item may name (R471). -/

/-- An item of an array that passes the checks names one of its elements. -/
theorem State.element_of_ok {s : State} {a : Access} {e el len : Nat} {write own : Bool} {r : EntryRow} (hr : entryRow e = some r)
    (hcount : r.count ≠ 0) (h : s.itemStatus a e el (countOf e) len write own = stOk) : el < r.count := by
  have hone : countOf e = 1 := by simp only [countOf, hr, if_neg hcount]
  rw [hone] at h
  by_contra hel
  have hbad : (if r.count = 0 then !((1 : Nat) == 0 && el == 0) else ((1 : Nat) == 0 || decide (r.count < el + 1))) = true := by
    rw [if_neg hcount, decide_eq_true (by omega), Bool.or_true]
  simp only [State.itemStatus, hr, hbad, if_true] at h
  repeat' split at h
  all_goals exact absurd h (by decide)

theorem State.Takes.element {s : State} {a : Access} {e el len val : Nat} {own : Bool} {r : EntryRow} (ht : s.Takes a e el len val own)
    (hr : entryRow e = some r) (hcount : r.count ≠ 0) : el < r.count := State.element_of_ok hr hcount ht.2.1

/-! Board groups (R404, R405). -/

theorem crc8Step_lt (c : Nat) : crc8Step c < 256 := by
  have hshift : (c <<< 1) % 256 < 2 ^ 8 := Nat.mod_lt _ (by decide)
  unfold crc8Step
  split
  · exact Nat.xor_lt_two_pow hshift (by decide)
  · exact hshift

theorem iter_crc8Step_lt (n : Nat) {c : Nat} (h : c < 256) : iter crc8Step n c < 256 := by
  induction n generalizing c with
  | zero => exact h
  | succ n ih => exact ih (crc8Step_lt c)

theorem crc8_lt (l : List Byte) : crc8 l < 256 := by
  refine List.foldlRecOn (motive := fun c => c < 256) l (fun c b => iter crc8Step 8 (c ^^^ b.toNat)) (by decide) fun c hc b _ => ?_
  exact iter_crc8Step_lt 8 (Nat.xor_lt_two_pow (n := 8) hc b.isLt)

theorem groupWord_spec (n st : Nat) : groupWord n st % 256 = crc8 (toBytes 5 (groupWord n st / 256)) ∧ bits (groupWord n st) 47 16 = n % 2 ^ 32 ∧
    bits (groupWord n st) 15 14 = st % 4 ∧ bits (groupWord n st) 13 8 = 0 := by
  obtain ⟨c, hc⟩ : ∃ c, c = crc8 (toBytes 5 (pack [(32, n), (2, st), (6, 0)])) := ⟨_, rfl⟩
  have hlt : c < 256 := hc ▸ crc8_lt _
  have hword : groupWord n st = pack [(32, n), (2, st), (6, 0)] * 256 + c := by rw [hc]; rfl
  have hpack : groupWord n st = pack [(32, n), (2, st), (6, 0), (8, c)] := by
    rw [hword]
    simp only [pack_cons, List.map_cons, List.map_nil, List.sum_cons, List.sum_nil, pack_nil]
    omega
  have hdiv : groupWord n st / 256 = pack [(32, n), (2, st), (6, 0)] := by omega
  refine ⟨by rw [hdiv, ← hc]; omega, ?_⟩
  rw [hpack]
  exact ⟨bits_pack [] 32 n _ rfl rfl, bits_pack [(32, n)] 2 st _ rfl rfl, bits_pack [(32, n), (2, st)] 6 0 _ rfl rfl⟩

/-! Pulse outputs (R406). -/

theorem State.pulse_setPulse (s : State) (k : Nat) (x : Pulse) : (s.setPulse k x).pulse k = x := Tab.getD_set_same ..

theorem State.pulse_wr (s : State) (e el v k : Nat) : (s.wr e el v).pulse k = s.pulse k := rfl

theorem elKey_ne_of_entry {e e' : Nat} (h : e ≠ e') (el : Nat) : elKey e el ≠ elKey e' el := by
  unfold elKey
  omega

theorem State.setTpo_eq (s : State) (k v : Nat) : s.setTpo k v
    = ((s.setPulse k { s.pulse k with old := s.pulseAt k s.now, from_ := s.now + us }).wr E.tpoConfig k (v / 2 ^ 31 * 2 ^ 31)).showEdge k := rfl

theorem State.setTpo_rd (s : State) (k v : Nat) : (s.setTpo k v).rd E.tpoConfig k = v / 2 ^ 31 * 2 ^ 31 := by
  rw [State.setTpo_eq, State.showEdge, State.rd_wr_other _ _ (elKey_ne_of_entry (by decide) k), State.rd_wr_same]

theorem State.setTpo_pulse (s : State) (k v : Nat) : (s.setTpo k v).pulse k = { s.pulse k with old := s.pulseAt k s.now, from_ := s.now + us } := by
  rw [State.setTpo_eq, State.showEdge, State.pulse_wr, State.pulse_wr, State.pulse_setPulse]

theorem SameBut.setClock {l : List (Nat × Nat)} {s t : State} (h : SameBut l s t) (c : Clock) : SameBut l s (t.setClock c) := h

theorem State.setTpo_sameBut {l : List (Nat × Nat)} {s t : State} (h : SameBut l s t) {k : Nat} (v : Nat) (hconf : (E.tpoConfig, k) ∈ l)
    (hnext : (E.tpoNext, k) ∈ l) : SameBut l s (t.setTpo k v) :=
  (((h.setClock _).wr _ hconf).wr _ hnext)

theorem exec_tpoConfig {a : Access} {k : Nat} {v : BitVec 160} {s : State} (ht : s.Takes a E.tpoConfig k 20 v.toNat true)
    (hrule : tpoRule v.toNat a.t (s.begin a.t) = .ok) :
    exec (.tpoConfig a k v) s = .next (((s.commitAt a).setTpo k v.toNat).answerItem stOk) :=
  next_congr (State.writeOne_ok (act := fun s => s.setTpo k v.toNat) ht hrule)

theorem exec_tpoEdge {t : Time} {k : Nat} {s : State} (hk : k < 4) (hvio : s.power.vio = true) (h : (s.begin t).nextEdge k = some t) :
    exec (.tpoEdge t k) s = .next ((((s.begin t).emit (.pin k (bits (s.pulseAt k t) 63 32 * 2 + bits (s.pulseAt k t) 31 31))).setPulse k
      { s.pulse k with last := some t }).showEdge k) := by
  have hvio' : (s.begin t).power.vio = true := hvio
  exact next_congr ((if_pos ⟨hk, h⟩).trans (congrArg (fun u : State => (u.setPulse k { s.pulse k with last := some t }).showEdge k) (if_pos hvio')))

/-! Captures (R407). -/

theorem State.capture_setCapture (s : State) (k : Nat) (x : Capture) : (s.setCapture k x).capture k = x := Tab.getD_set_same ..

section
variable {t : Time} {k : Nat} {fall : Bool} {s : State}

theorem captures_pass (hk : k < 2) (hvio : s.power.vio = true) (hsel : s.rd E.tcapEdge k = 2 ∨ s.rd E.tcapEdge k = b2n fall) :
    ¬(2 ≤ k ∨ (!(s.begin t).power.vio) = true ∨ ((s.begin t).rd E.tcapEdge k ≠ 2 ∧ (s.begin t).rd E.tcapEdge k ≠ b2n fall)) := by
  rintro (h | h | ⟨h1, h2⟩)
  · omega
  · rw [show (s.begin t).power.vio = true from hvio] at h
    cases h
  · exact hsel.elim h1 h2

theorem exec_tcapEdge_kept (hk : k < 2) (hvio : s.power.vio = true) (hsel : s.rd E.tcapEdge k = 2 ∨ s.rd E.tcapEdge k = b2n fall)
    (hroom : (s.capture k).queue.length < 64) : exec (.tcapEdge t k fall) s = .next ((s.begin t).setCapture k
      { s.capture k with queue := (s.capture k).queue ++ [(b2n fall, t, (s.capture k).lost)], lost := 0 }) :=
  next_congr ((if_neg (captures_pass hk hvio hsel)).trans (if_pos hroom))

theorem exec_tcapEdge_lost (hk : k < 2) (hvio : s.power.vio = true) (hsel : s.rd E.tcapEdge k = 2 ∨ s.rd E.tcapEdge k = b2n fall)
    (hfull : 64 ≤ (s.capture k).queue.length) {u : State} (hu : u = ((s.begin t).bump E.tcapLost k 1).setCapture k
      { s.capture k with lost := (s.capture k).lost + 1, told := true }) :
    exec (.tcapEdge t k fall) s = .next (if (s.capture k).told then u else u.raise 0x3008 1 31 [.v 16 k]) := by
  rw [hu]
  exact next_congr ((if_neg (captures_pass hk hvio hsel)).trans (if_neg (Nat.not_lt.mpr hfull)))
end

theorem SameBut.setCapture {l : List (Nat × Nat)} {s t : State} (h : SameBut l s t) {k : Nat} (x : Capture) (hl : (E.tcapPending, k) ∈ l) :
    SameBut l s (t.setCapture k x) := (h.setClock _).wr _ hl

theorem exec_tcapPop {a : Access} {k : Nat} {s : State} (hg : s.Gives a E.tcapPop k true) :
    exec (.tcapPop a k) s = .next (((s.begin a.t).capPop k).emit (.item stOk ((s.begin a.t).capWord k))) :=
  next_congr (State.readOne_ok hg)

/-! A word missed, and the lock lost (R405). -/

theorem State.missWord_first {s : State} (h : s.clock.missed = 0) : s.missWord = s.setClock { s.clock with missed := 1, edges := 0 } := by
  simp only [State.missWord, h]
  rfl

theorem State.missWord_again {s : State} (h : 0 < s.clock.missed) (hlock : s.rd E.groupState 0 = 1) :
    s.missWord = (s.setClock { s.clock with missed := 2, edges := 0 }).loseLock := by
  have hn : min 2 (s.clock.missed + 1) = 2 := by omega
  rw [State.missWord, hn]
  exact if_pos ⟨rfl, hlock⟩

theorem State.raise_clock (s : State) (code sev src : Nat) (ctx : List Item) : (s.raise code sev src ctx).clock = s.clock := by
  rw [(s.raise_noted code sev src ctx).eq]

/-- The entries that a change of the parent writes. -/
def parentEntries : List Nat := [E.timeState, E.parent, E.root] ++ noteEntries

theorem State.setParent_only (s : State) (x : Option (Nat × Nat)) : OnlyEntries parentEntries s (s.setParent x) := by
  have hclock : ∀ c, OnlyEntries parentEntries s (s.setClock c) := fun _ => OnlyEntries.of_regs rfl
  have hshow : ∀ {t : State}, OnlyEntries parentEntries s t → OnlyEntries parentEntries s t.showRoot := fun h =>
    (h.wr _ (by decide) (by decide)).wr _ (by decide) (by decide)
  cases x with
  | none =>
    unfold State.setParent
    dsimp only
    split
    · refine hshow (OnlyEntries.raise (OnlyEntries.wr (hclock _) _ ?_ ?_) ?_ _ _ _ _) <;> decide
    · exact hshow (hclock _)
  | some y =>
    unfold State.setParent
    dsimp only
    split
    · refine hshow (OnlyEntries.wr (hclock _) _ ?_ ?_) <;> decide
    · exact hshow (hclock _)

theorem State.setParent_own (s : State) (x : Option (Nat × Nat)) : (s.setParent x).clock.own = s.clock.own := by
  cases x with
  | none =>
    unfold State.setParent State.showRoot
    dsimp only
    split
    · rw [State.wr_clock, State.wr_clock, State.raise_clock, State.wr_clock]
      rfl
    · rw [State.wr_clock, State.wr_clock]
      rfl
  | some y =>
    unfold State.setParent State.showRoot
    dsimp only
    split
    · rw [State.wr_clock, State.wr_clock, State.wr_clock]
      rfl
    · rw [State.wr_clock, State.wr_clock]
      rfl

/-- The member out of LOCKED, before it chooses a source of its own. -/
def State.unlocked (s : State) : State :=
  let (v, s) := s.free
  let s := s.setClock { s.clock with own := true, edges := 0, missed := 0 }
  let s := (s.wr E.groupState 0 2).raise 0x3006 1 31 [.v 8 v]
  s.gateLock false

theorem State.loseLock_eq (s : State) : s.loseLock = s.unlocked.setParent (s.unlocked.bestParent) := by
  unfold State.loseLock
  dsimp only
  split <;> rename_i h
  · exact congrArg s.unlocked.setParent h.symm
  · exact congrArg s.unlocked.setParent h.symm

theorem State.unlocked_shows (s : State) : s.unlocked.rd E.groupState 0 = 2 ∧ s.unlocked.clock.own = true := by
  unfold State.unlocked State.gateLock
  dsimp only
  constructor
  · rw [State.rd_raise_of_entry _ _ _ _ _ (by decide) (by decide), State.rd_wr_other _ _ (elKey_ne_of_entry (by decide) 0),
      State.rd_raise_of_entry _ _ _ _ _ (by decide) (by decide), State.rd_wr_same]
  · rw [State.raise_clock, State.wr_clock, State.raise_clock]
    rfl

theorem State.loseLock_shows (s : State) : s.loseLock.rd E.groupState 0 = 2 ∧ s.loseLock.clock.own = true := by
  obtain ⟨hstate, hown⟩ := s.unlocked_shows
  rw [State.loseLock_eq, State.setParent_own, State.setParent_only _ _ E.groupState 0 (by decide) (by decide)]
  exact ⟨hstate, hown⟩

/-- Settles O49: each clause is one command of the board group, the pulse outputs or the captures. -/
theorem groupsPulsesAndCaptures : Obligations.GroupsPulsesAndCaptures := by
  unfold Obligations.GroupsPulsesAndCaptures
  refine ⟨fun t s hrole hsec hvio => ?_, fun s => ?_, groupWord_spec, fun t w s hrole hvio => ?_, fun t s hrole => ⟨?_, fun hlock => ?_⟩,
    fun s => ⟨fun h => ?_, fun h hlock => ?_⟩, ?tpo, ?edge, ?capture, ?pop⟩
  · exact next_congr (if_pos ⟨hrole, hsec, hvio⟩)
  · rw [State.trefSwings, Bool.and_eq_true, decide_eq_true_iff]
  · have hpass : ¬((s.begin t).rd E.groupRole 0 ≠ 2 ∨ (!(s.begin t).power.vio) = true) := by
      rintro (h | h)
      · exact h hrole
      · rw [show (s.begin t).power.vio = true from hvio] at h
        cases h
    exact next_congr (if_neg hpass)
  · have hpass : ¬(s.begin t).rd E.groupRole 0 ≠ 2 := not_not_intro hrole
    exact next_congr (if_neg hpass)
  · have hpass : ¬((s.begin t).rd E.groupRole 0 ≠ 2 ∨ (s.begin t).rd E.groupState 0 ≠ 1) := by
      rintro (h | h)
      · exact h hrole
      · exact h hlock
    exact next_congr (if_neg hpass)
  · rw [State.missWord_first h]
    exact ⟨rfl, rfl, rfl⟩
  · rw [State.missWord_again h hlock]
    exact State.loseLock_shows _
  case tpo =>
    intro a k v s ht hrule
    have hk : k < 4 := ht.element rfl (by decide)
    have hrd : (s.commitAt a).rd E.tpoConfig k = s.rd E.tpoConfig k := s.rd_commitAt_of_entry a (by decide) (by decide) (by omega)
    have hpulse : (((s.commitAt a).setTpo k v.toNat).answerItem stOk).pulse k = { s.pulse k with
        old := (s.begin a.t).pulseAt k a.t, from_ := a.t + us } := by
      have hold : (s.commitAt a).pulse k = s.pulse k := by rw [State.pulse, State.commitAt_clock, State.pulse]
      have hat : (s.commitAt a).pulseAt k a.t = (s.begin a.t).pulseAt k a.t := by
        rw [State.pulseAt, hold, hrd]
        rfl
      rw [State.answerItem, State.pulse, State.emit_clock, ← State.pulse, State.setTpo_pulse, hold, State.commitAt_now, hat]
    refine ⟨_, exec_tpoConfig ht hrule, ?_, by rw [hpulse], by rw [hpulse], ?_⟩
    · rw [State.rd_answerItem, State.setTpo_rd]
    · exact (State.setTpo_sameBut (SameBut.commitAt s a (by simp) (by simp)) _ (by simp) (by simp)).congr fun _ _ => State.rd_answerItem ..
  case edge =>
    intro t k s hk hvio h r
    refine ⟨_, exec_tpoEdge hk hvio h, rfl, ?_, ?_⟩
    · rw [State.showEdge, State.pulse_wr, State.pulse_setPulse]
    · have hpulse : ∀ o x, SameBut [(E.tpoNext, k)] s (((s.begin t).emit o).setPulse k x) := fun _ _ _ _ _ => rfl
      exact (hpulse _ _).wr _ (by simp)
  case capture =>
    intro t k fall s hk hvio hsel c
    refine ⟨fun hroom => ?_, fun hfull => ?_⟩
    · refine ⟨_, exec_tcapEdge_kept hk hvio hsel hroom, ?_, ?_, ?_, ?_⟩
      · rw [State.capture_setCapture]
      · rw [State.capture_setCapture]
      · exact (State.rd_wr_same ..).trans (List.length_append ..)
      · exact (SameBut.begin [(E.tcapPending, k)] s t).setCapture _ (by simp)
    · refine ⟨_, exec_tcapEdge_lost hk hvio hsel hfull rfl, ?_, ?_, ?_⟩
      · rw [State.capture_setCapture]
      · rw [State.capture_setCapture]
      · refine (State.rd_wr_other _ _ (elKey_ne_of_entry (by decide) k)).trans (State.rd_wr_same ..)
  case pop =>
    intro a k s hg
    rw [exec_tcapPop hg]
    refine ⟨fun hempty => ?_, fun e x n r hq => ?_⟩
    · have hempty' : ((s.begin a.t).capture k).queue = [] := hempty
      have hword : (s.begin a.t).capWord k = 0 := by simp only [State.capWord, hempty']
      have hpop : (s.begin a.t).capPop k = s.begin a.t := by simp only [State.capPop, hempty']
      rw [hword, hpop]
      exact ⟨_, rfl, rfl⟩
    · have hq' : ((s.begin a.t).capture k).queue = (e, x, n) :: r := hq
      have hword : (s.begin a.t).capWord k = pack [(1, 1), (1, e), (78, timeLayout x), (16, n), (32, 0)] := by simp only [State.capWord, hq']
      have hpop : (s.begin a.t).capPop k = (s.begin a.t).setCapture k { s.capture k with
          queue := r, told := (s.capture k).told && !r.isEmpty } := by
        simp only [State.capPop, hq']
        rfl
      rw [hword, hpop]
      refine ⟨_, rfl, rfl, ?_, State.rd_wr_same ..⟩
      exact congrArg Capture.queue (State.capture_setCapture ..)

end Sys2Proof.Machine
end

section
/-!
Counters, snapshots and samples (R507-R518).
-/
namespace Sys2Proof.Machine

/-! A counter that counts (R508). -/

/-- The entries that a notice writes as it is formed, before any counter of notices counts it. -/
def formEntries : List Nat := [E.noticesRaised, E.severityHighest, E.nqLost, E.domainState]

theorem State.form_only (s : State) (code sev src : Nat) (ctx : List Item) : OnlyEntries formEntries s (s.form code sev src ctx) := by
  intro e el hel he
  simp only [formEntries, List.mem_cons, List.not_mem_nil, or_false, not_or] at he
  obtain ⟨hraised, hsev, hlost, hdom⟩ := he
  have hqueue : ∀ q ∈ List.range 8, elKey e el ≠ elKey E.nqLost q := fun q hq =>
    elKey_ne_of_entry_ne hlost hel (by have := List.mem_range.mp hq; omega)
  have hkeeper : ∀ t : State, elKey e el ≠ elKey E.domainState (18 + t.keeper) := fun t =>
    elKey_ne_of_entry_ne hdom hel (by have := t.keeper_lt; omega)
  unfold State.form
  dsimp only
  rw [State.rd_keeperWork _ (hkeeper _), State.rd_foldl_offer _ _ _ _ _ hqueue]
  have hcount : ∀ w : State, ((w.bump E.noticesRaised 0 1).raiseTo E.severityHighest 0 sev).rd e el = w.rd e el := fun w => by
    rw [State.rd_raiseTo_other _ _ (elKey_ne_of_entry_ne hsev hel (by decide)),
      State.rd_bump_other _ _ (elKey_ne_of_entry_ne hraised hel (by decide))]
  split <;> exact hcount _

theorem State.addCounter_inside {s : State} {b k n : Nat} (hd : s.rd E.dieState (b / 8) ≠ 1)
    (h : s.rd E.counterValue (6 * b + k) % 2 ^ 48 + n < 2 ^ 48) :
    s.addCounter b k n = s.wr E.counterValue (6 * b + k) (s.rd E.counterValue (6 * b + k) + n) := by
  unfold State.addCounter
  dsimp only
  rw [if_neg hd, if_pos h]

theorem State.rd_addCounter_wraps {s : State} {b k n : Nat} (hk : 6 * b + k < 2 ^ 24) (hd : s.rd E.dieState (b / 8) ≠ 1)
    (h : 2 ^ 48 ≤ s.rd E.counterValue (6 * b + k) % 2 ^ 48 + n) : (s.addCounter b k n).rd E.counterValue (6 * b + k)
      = 2 ^ 63 + (s.rd E.counterValue (6 * b + k) % 2 ^ 48 + n) % 2 ^ 48 := by
  obtain ⟨w, hw⟩ : ∃ w, w = s.wr E.counterValue (6 * b + k) (2 ^ 63 + (s.rd E.counterValue (6 * b + k) % 2 ^ 48 + n) % 2 ^ 48) := ⟨_, rfl⟩
  have hrd : w.rd E.counterValue (6 * b + k) = 2 ^ 63 + (s.rd E.counterValue (6 * b + k) % 2 ^ 48 + n) % 2 ^ 48 := by
    rw [hw, State.rd_wr_same]
  have hlim := State.rd_congr (w.limited_regs (65536 * 1000000000) b 0xA001 (b / 8)) E.counterValue (6 * b + k)
  unfold State.addCounter
  dsimp only
  rw [if_neg hd, if_neg (Nat.not_lt.mpr h), ← hw]
  split
  next u heq => rw [← hrd, ← hlim, heq]
  next u heq => rw [State.form_only _ _ _ _ _ _ _ hk (by decide), ← hrd, ← hlim, heq]

/-- The low 48 bits of a counter advance, and OVF is set where they wrap. -/
theorem State.addCounter_counts {s : State} {b k n : Nat} (hk : 6 * b + k < 2 ^ 24) (hd : s.rd E.dieState (b / 8) ≠ 1) {v w : Nat}
    (hv : v = s.rd E.counterValue (6 * b + k)) (hw : w = (s.addCounter b k n).rd E.counterValue (6 * b + k)) :
    bits w 47 0 = (v + n) % 2 ^ 48 ∧ (2 ^ 48 ≤ v % 2 ^ 48 + n → bit w 63 = true) ∧
      (v % 2 ^ 48 + n < 2 ^ 48 → v < 2 ^ 64 → bits v 62 48 = 0 → bit w 63 = bit v 63) := by
  by_cases hin : v % 2 ^ 48 + n < 2 ^ 48
  · have hval : w = v + n := by rw [hw, State.addCounter_inside hd (hv ▸ hin), State.rd_wr_same, ← hv]
    refine ⟨?_, fun h => absurd h (by omega), fun _ hlt hmid => ?_⟩
    · rw [hval, bits_div, Nat.pow_zero, Nat.div_one]
    · rw [bits_div] at hmid
      have hbit : w / 2 ^ 63 = v / 2 ^ 63 := by omega
      rw [bit, bit, Nat.shiftRight_eq_div_pow, Nat.shiftRight_eq_div_pow, hbit]
  · have hval : w = 2 ^ 63 + (v % 2 ^ 48 + n) % 2 ^ 48 := by rw [hw, State.rd_addCounter_wraps hk hd (by omega), ← hv]
    refine ⟨?_, fun _ => ?_, fun h => absurd h hin⟩
    · rw [hval, bits_div, Nat.pow_zero, Nat.div_one]
      omega
    · have hbit : w / 2 ^ 63 = 1 := by omega
      rw [bit, Nat.shiftRight_eq_div_pow, hbit]
      rfl

theorem exec_counterWrap {t : Time} {k n : Nat} {s : State} (hb : blockExists (k / 6) = true) : exec (.counterWrap t k n) s
    = .next (if s.blockState (k / 6) = 0 then (s.begin t).addCounter (k / 6) (k % 6) n else s.begin t) := by
  have hstate : (s.begin t).blockState (k / 6) = s.blockState (k / 6) := rfl
  simp only [exec, execCounterWrap, hb, hstate, true_and]

theorem State.dieState_of_blockState {s : State} {b : Nat} (h : s.blockState b = 0) : s.rd E.dieState (b / 8) ≠ 1 := by
  intro hd
  unfold State.blockState at h
  dsimp only at h
  rw [if_pos hd] at h
  cases h

/-! Counters written and selected (R508, R509). -/

theorem State.putValue_counterValue (s : State) (k v : Nat) : s.putValue E.counterValue k v = if v = 0 then s else s.wr E.counterValue k 0 := rfl

theorem exec_counterValue {a : Access} {k v : Nat} {s : State} (ht : s.Takes a E.counterValue k 8 v true) :
    exec (.counterValue a k v) s = .next (((s.commitAt a).putValue E.counterValue k v).answerItem stOk) :=
  next_congr (State.writeOne_ok (rule := fun _ => .ok) (act := fun s => s.putValue E.counterValue k v) ht rfl)

theorem exec_counterSelect {a : Access} {k : Nat} {v : BitVec 128} {s : State} (ht : s.Takes a E.counterSelect k 16 0 true)
    (hrule : selectRule k v.toNat s = .ok) : exec (.counterSelect a k v) s = .next ((State.setSelect k v.toNat (s.commitAt a)).answerItem stOk) :=
  next_congr (State.writeOne_ok (rule := selectRule k v.toNat) (act := State.setSelect k v.toNat) ht hrule)

theorem selectRule_absent {k v : Nat} {s : State} (hevent : bits v 127 120 ≠ 0) (hb : blockExists (k / 4) = false) :
    selectRule k v s = .range := by
  have hidle : ¬(bits v 127 120 = 0 ∧ bits v 119 118 = 0) := fun h => hevent h.1
  have hnone : (!blockExists (k / 4)) = true := by rw [hb]; rfl
  by_cases hres : bits v 116 112 ≠ 0
  · exact if_pos hres
  · exact (if_neg hres).trans ((if_neg hidle).trans (if_pos hnone))

/-! Snapshots (R512-R515). -/

theorem writeSnap_spec (t : Time) (mask : Nat) (changed : Bool) (s : State) :
    (s.writeSnap t mask changed).rd E.snapNext 0 = s.rd E.snapNext 0 + 1 ∧ (s.writeSnap t mask changed).probes.missed = 0 ∧
    (s.writeSnap t mask changed).probes.written = s.probes.written + 1 +
      ((List.range 160).filter (fun b => bit mask b && blockExists b)).length := by
  refine ⟨?_, rfl, ?_⟩
  · unfold State.writeSnap
    dsimp only
    rw [State.rd_bump_other _ _ (by decide), State.rd_wr_same]
  · have hlen : ∀ (x : BitVec 512) (l : List Nat), (x :: l.map (fun b => s.blockEntry b)).length = 1 + l.length := fun x l => by
      rw [List.length_cons, List.length_map, Nat.add_comm]
    exact (congrArg (s.probes.written + ·) (hlen _ _)).trans (Nat.add_assoc ..).symm

theorem exec_snapshotInstant {t : Time} {period base mask : Nat} {fresh : Bool} {s : State}
    (h : (s.begin t).snapConfig t = (period, base, mask, fresh)) (hp : 0 < period)
    (hoff : ((t : Int) - (timeNear t base : Nat)) % (period : Int) = 0) (written : Bool) :
    exec (.snapshotInstant t written) s = .next (if !written then
      ({ s.begin t with probes := { s.probes with missed := s.probes.missed + 1 } }.bump E.snapMissed 0 1).raiseLim sec 0 0xA002 1 31
        [.v 32 (s.probes.missed + 1)]
      else (s.begin t).keeperWork.writeSnap t mask fresh) := by
  have hgo : ¬(period = 0 ∨ ((t : Int) - (timeNear t base : Nat)) % (period : Int) ≠ 0) := by
    rintro (h | h)
    · omega
    · exact h hoff
  simp only [exec, execSnapshotInstant, h, if_neg hgo]
  rfl

/-! Samples (R516-R518). -/

/-- A countdown reloaded to the sampler's PERIOD. -/
def State.reloadFull (s : State) (key p : Nat) : State := { s with probes := { s.probes with downs := s.probes.downs.set key p } }

theorem State.reload_plain {s : State} {kind source v : Nat} (hv : s.rd E.sampler (kind - 1) = v) (hj : bit v 126 = false) :
    s.reload kind source = s.reloadFull (sourceKey kind source) (bits v 123 100) := by
  unfold State.reload
  rw [hv]
  dsimp only
  rw [hj]
  rfl

/-- A field of a field. -/
theorem bits_bits (v : Nat) {h l h' l' : Nat} (hle : l' ≤ h') (hin : l + h' ≤ h) : bits (bits v h l) h' l' = bits v (l + h') (l + l') := by
  have hwidth : l + h' + 1 - (l + l') = h' + 1 - l' := by omega
  rw [bits_div v h l, bits_mod_two_pow (by omega), bits_div, bits_div, hwidth, Nat.div_div_eq_div_mul, ← Nat.pow_add]

theorem bits_samplerMask (v : Nat) : bits (samplerMask v) 123 100 = bits v 123 100 ∧ bit (samplerMask v) 126 = bit v 126 := by
  constructor
  · exact (bits_within [(2, bits v 127 126), (2, 0)] 120 (bits v 123 4) [(4, 0)] rfl (by decide) (by decide) (by decide)).trans
      (bits_bits v (by decide) (by decide))
  · rw [bit_eq_bits, bit_eq_bits]
    exact congrArg (Nat.beq · 1) ((bits_within (l := 126) [] 2 (bits v 127 126) [(2, 0), (120, bits v 123 4), (4, 0)] rfl (by decide)
      (by decide) (by decide)).trans (bits_bits v (by decide) (by decide)))

theorem sourceKey_inj {kind x y : Nat} (h : sourceKey kind x = sourceKey kind y) : x = y := Nat.add_left_cancel h

theorem foldl_reload_plain {kind v : Nat} (hj : bit v 126 = false) (l : List Nat) {s : State} (hv : s.rd E.sampler (kind - 1) = v) :
    l.foldl (fun (s : State) x => s.reload kind x) s = l.foldl (fun (s : State) x => s.reloadFull (sourceKey kind x) (bits v 123 100)) s := by
  induction l generalizing s with
  | nil => rfl
  | cons x r ih =>
    rw [List.foldl_cons, List.foldl_cons, State.reload_plain hv hj]
    exact ih (s := s.reloadFull _ _) hv

theorem foldl_reloadFull_rd (key : Nat → Nat) (p : Nat) (l : List Nat) (s : State) (e el : Nat) :
    (l.foldl (fun (s : State) x => s.reloadFull (key x) p) s).rd e el = s.rd e el := by
  induction l generalizing s with
  | nil => rfl
  | cons x r ih => exact ih _

theorem foldl_reloadFull_downs {kind p : Nat} {l : List Nat} {y : Nat} (hy : y ∈ l) (s : State) :
    (l.foldl (fun (s : State) x => s.reloadFull (sourceKey kind x) p) s).probes.downs.get? (sourceKey kind y) = some p := by
  refine foldl_of_mem (st := fun (s : State) x => s.reloadFull (sourceKey kind x) p)
    (p := fun s => s.probes.downs.get? (sourceKey kind y) = some p) hy (fun s => Tab.get_set_same ..) (fun s x _ h => ?_) s
  by_cases hxy : sourceKey kind y = sourceKey kind x
  · rw [hxy]
    exact Tab.get_set_same ..
  · exact (Tab.get_set_other _ _ hxy).trans h

/-- A sampler's own act. -/
def samplerAct (k v : Nat) (s : State) : State :=
  (sourcesOf (k + 1)).foldl (fun (s : State) x => s.reload (k + 1) x) (s.wr E.sampler k (samplerMask v))

theorem samplerAct_spec {k v : Nat} (hj : bit v 126 = false) (s : State) : (samplerAct k v s).rd E.sampler k = samplerMask v ∧
    ∀ x ∈ sourcesOf (k + 1), (samplerAct k v s).probes.downs.get? (sourceKey (k + 1) x) = some (bits v 123 100) := by
  obtain ⟨hperiod, hjitter⟩ := bits_samplerMask v
  have hv : (s.wr E.sampler k (samplerMask v)).rd E.sampler (k + 1 - 1) = samplerMask v := State.rd_wr_same ..
  rw [samplerAct, foldl_reload_plain (hjitter.trans hj) _ hv, hperiod]
  exact ⟨(foldl_reloadFull_rd _ _ _ _ _ _).trans hv, fun x hx => foldl_reloadFull_downs hx _⟩

theorem exec_sampler {a : Access} {k : Nat} {v : BitVec 128} {s : State} (ht : s.Takes a E.sampler k 16 0 true) :
    (bits v.toNat 123 100 = 0 → exec (.sampler a k v) s = .next ((s.begin a.t).answerItem stRange)) ∧
    (bits v.toNat 123 100 ≠ 0 → exec (.sampler a k v) s = .next ((samplerAct k v.toNat (s.commitAt a)).answerItem stOk)) := by
  refine ⟨fun h => ?_, fun h => ?_⟩
  · exact next_congr (State.writeOne_range (rule := fun _ => if bits v.toNat 123 100 = 0 then .range else .ok) ht (if_pos h))
  · exact next_congr (State.writeOne_ok (rule := fun _ => if bits v.toNat 123 100 = 0 then .range else .ok) (act := samplerAct k v.toNat) ht
      (if_neg h))

/-- An event that its sampler counts. -/
def State.Counts (s : State) (kind src v : Nat) : Prop :=
  1 ≤ kind ∧ kind ≤ 4 ∧ src ∈ sourcesOf kind ∧ s.rd E.dieState (sourceDie kind src) ≠ 1 ∧ eligible (s.rd E.sampler (kind - 1)) kind v = true

theorem State.Counts.goes {s : State} {kind src v : Nat} (h : s.Counts kind src v) :
    ¬(kind = 0 ∨ 4 < kind ∨ (!(sourcesOf kind).contains src) = true ∨ s.rd E.dieState (sourceDie kind src) = 1
      ∨ (!eligible (s.rd E.sampler (kind - 1)) kind v) = true) := by
  obtain ⟨h1, h4, hsrc, hdie, hel⟩ := h
  rw [hel, List.contains_iff_mem.mpr hsrc]
  rintro (h | h | h | h | h)
  · omega
  · omega
  · cases h
  · exact hdie h
  · cases h

/-- A sample is due: the countdown is reloaded, and the source last sampled now. -/
def State.sampleDue (s : State) (t : Time) (kind src : Nat) : State :=
  let w := s.reload kind src
  { w with probes := { w.probes with lastAt := w.probes.lastAt.set (sourceKey kind src) t } }

section
variable {t : Time} {kind src held : Nat} {r : BitVec 512} {s : State}

theorem exec_sampleTaken_counts (h : s.Counts kind src r.toNat) (hn : 1 < s.probes.downs.getD (sourceKey kind src) 0) :
    exec (.sampleTaken t kind src held r) s
      = .next ((s.begin t).reloadFull (sourceKey kind src) (s.probes.downs.getD (sourceKey kind src) 0 - 1)) := by
  have h' : (s.begin t).Counts kind src r.toNat := h
  exact next_congr ((if_neg h'.goes).trans (if_pos hn))

theorem State.reload_leaves (s : State) (kind src : Nat) : (s.reload kind src).probes.lastAt = s.probes.lastAt ∧
    (s.reload kind src).probes.samples = s.probes.samples ∧ (s.reload kind src).regs = s.regs := by
  unfold State.reload
  dsimp only
  split <;> exact ⟨rfl, rfl, rfl⟩

theorem exec_sampleTaken_due (h : s.Counts kind src r.toNat) (hn : s.probes.downs.getD (sourceKey kind src) 0 ≤ 1)
    (hlast : s.probes.lastAt.get? (sourceKey kind src) = none) {w : State} (hw : w = (s.begin t).sampleDue t kind src) :
    exec (.sampleTaken t kind src held r) s = .next (if 1024 ≤ held then
      (w.bump E.samplesDropped (kind - 1) 1).raiseLim sec 0 0xA003 1 (sourceDie kind src) [.v 8 kind, .v 16 (sourceDie kind src)]
      else w.writeSample (sampleOf kind src r.toNat)) := by
  have h' : (s.begin t).Counts kind src r.toNat := h
  have hn' : ¬ 1 < (s.begin t).probes.downs.getD (sourceKey kind src) 0 := Nat.not_lt.mpr hn
  have hlast' : ((s.begin t).reload kind src).probes.lastAt.get? (sourceKey kind src) = none := by
    rw [((s.begin t).reload_leaves kind src).1]
    exact hlast
  subst hw
  simp only [exec, execSampleTaken, if_neg h'.goes, if_neg hn', hlast']
  rfl
end

/-- Settles O54: each clause is one command of the counters, the snapshots or the samplers. -/
theorem countersSnapshotsAndSamples : Obligations.CountersSnapshotsAndSamples := by
  unfold Obligations.CountersSnapshotsAndSamples
  refine ⟨fun a k v s ht => ⟨_, exec_counterValue ht, ?_, ?_, ?_⟩, fun a k v s ht => ⟨fun hrule => ⟨_, exec_counterSelect ht hrule, ?_, ?_, ?_⟩,
    fun hrule => next_congr (State.writeOne_range (rule := selectRule k v.toNat) ht hrule), fun hev hb => selectRule_absent hev hb⟩,
    fun t k n s hb hk => ?_, fun t period base mask fresh s h hp hoff => ⟨exec_snapshotInstant h hp hoff true, ?_⟩, fun t mask changed s =>
    writeSnap_spec t mask changed s, fun a k v s ht => ⟨(exec_sampler ht).1, fun hp hj => ?_⟩, ?samples⟩
  · have hrd : (s.commitAt a).rd E.counterValue k = s.rd E.counterValue k :=
      s.rd_commitAt_of_entry a (by decide) (by decide) ((ht.element rfl (by decide)).trans (by decide))
    rw [State.rd_answerItem, State.putValue_counterValue]
    split
    · exact hrd
    · exact State.rd_wr_same ..
  · rw [State.answerItem_out, State.putValue_out, State.commitAt_out]
    rfl
  · have hsame := SameBut.commitAt (l := [(E.counterValue, k), (E.commitLast, 0), (E.domainState, 18 + s.keeper)]) s a (by simp) (by simp)
    rw [State.putValue_counterValue]
    split
    · exact hsame.congr fun _ _ => State.rd_answerItem ..
    · have hset : SameBut _ s ((s.commitAt a).wr E.counterValue k 0) := hsame.wr 0 (by simp)
      exact hset.congr fun _ _ => State.rd_answerItem ..
  · have hk : k < 640 := ht.element rfl (by decide)
    rw [State.rd_answerItem, State.setSelect, State.rd_wr_other _ _ (elKey_ne_of_entry_ne (by decide) (by omega) (by omega)),
      State.rd_wr_same]
  · rw [State.rd_answerItem, State.setSelect, State.rd_wr_same]
  · refine SameBut.congr ?_ fun _ _ => State.rd_answerItem ..
    rw [State.setSelect]
    exact ((SameBut.commitAt s a (by simp) (by simp)).wr _ (by simp)).wr _ (by simp)
  · intro v
    have hkey : 6 * (k / 6) + k % 6 = k := Nat.div_add_mod k 6
    rw [exec_counterWrap hb]
    refine ⟨fun hstate => ?_, fun hstate => by rw [if_neg hstate]⟩
    have hd : (s.begin t).rd E.dieState (k / 6 / 8) ≠ 1 := State.dieState_of_blockState hstate
    have hcounts := State.addCounter_counts (s := s.begin t) (b := k / 6) (k := k % 6) (n := n) (by omega) hd rfl rfl
    rw [hkey] at hcounts
    exact ⟨_, by rw [if_pos hstate], hcounts⟩
  · refine ⟨_, exec_snapshotInstant h hp hoff false, rfl, ?_⟩
    rw [State.rd_bump_same]
    rfl
  · obtain ⟨hshown, hdowns⟩ := samplerAct_spec (k := k) hj (s.commitAt a)
    exact ⟨_, (exec_sampler ht).2 hp, (State.rd_answerItem ..).trans hshown, hdowns⟩
  case samples =>
    intro t kind src held r s h1 h4 hsrc hdie hel key n
    have h : s.Counts kind src r.toNat := ⟨h1, h4, hsrc, hdie, hel⟩
    obtain ⟨-, hsamples, hregs⟩ := (s.begin t).reload_leaves kind src
    refine ⟨fun hn => ⟨_, exec_sampleTaken_counts h hn, Tab.get_set_same .., rfl, fun _ _ _ => rfl⟩, fun hn hlast hroom => ?_,
      fun hn hlast hfull => ?_⟩
    · exact ⟨_, (exec_sampleTaken_due h hn hlast rfl).trans (congrArg _ (if_neg (by omega))), Tab.get_set_same ..,
        fun e el _ => State.rd_congr hregs e el⟩
    · refine ⟨_, (exec_sampleTaken_due h hn hlast rfl).trans (congrArg _ (if_pos hfull)), ?_, ?_⟩
      · rw [State.raiseLim_sameEntries _ _ _ _ _ _ _ _ _ (by omega) (by decide), State.rd_bump_same]
        exact congrArg (fun x => (x + 1) % 2 ^ 64) (State.rd_congr hregs _ _)
      · rw [(State.raiseLim_noted ..).eq]
        exact hsamples

end Sys2Proof.Machine
end

section
/-!
Resets and what they leave (R534-R554).
-/
namespace Sys2Proof.Machine

/-! What a restart leaves (R534, R535, R537). -/

theorem keptEntries_key (e : Nat) : keptEntries.contains (elKey e 0 / 2 ^ 24) = keptEntries.contains e := by
  have hkey : elKey e 0 / 2 ^ 24 = e := by
    unfold elKey
    omega
  rw [hkey]

theorem State.restartAt_regs (s : State) (step : Nat) (keys : Bool) :
    (s.restartAt step keys).regs = s.regs.filter (fun x => keptEntries.contains (x.1 / 2 ^ 24)) := rfl

theorem State.rd_restartAt_kept (s : State) (step : Nat) (keys : Bool) {e : Nat} (h : keptEntries.contains e = true) :
    (s.restartAt step keys).rd e 0 = s.rd e 0 := by
  rw [State.rd, rdIn, s.restartAt_regs, Tab.get_filter_key (fun k => keptEntries.contains (k / 2 ^ 24)) s.regs ((keptEntries_key e).trans h)]
  rfl

theorem State.rd_restartAt_lost (s : State) (step : Nat) (keys : Bool) {e : Nat} (h : keptEntries.contains e = false) :
    (s.restartAt step keys).rd e 0 = dfltOf e 0 := by
  rw [State.rd, rdIn, s.restartAt_regs, Tab.get_filter_out (fun k => keptEntries.contains (k / 2 ^ 24)) s.regs ((keptEntries_key e).trans h)]

theorem State.rd_wr_of_entry (s : State) {e e' : Nat} (v : Nat) (h : e ≠ e') : (s.wr e' 0 v).rd e 0 = s.rd e 0 :=
  State.rd_wr_other _ _ (elKey_ne_of_entry h 0)

/-- The entries that a device reset shows beside what a restart leaves. -/
theorem State.deviceReset_shows (s : State) (cause : Nat) : (s.deviceReset cause).rd E.resetCause 0 = cause ∧
    (s.deviceReset cause).rd E.resets 0 = (s.rd E.resets 0 + 1) % 2 ^ 32 ∧ (s.deviceReset cause).rd E.roleNow 0 = s.rd E.role 0 := by
  unfold State.deviceReset
  dsimp only
  refine ⟨?_, ?_, State.rd_wr_same ..⟩
  · rw [State.rd_wr_of_entry _ _ (by decide), State.rd_wr_of_entry _ _ (by decide), State.rd_wr_same]
  · rw [State.rd_wr_of_entry _ _ (by decide), State.rd_wr_same]

theorem State.deviceReset_rd (s : State) (cause : Nat) {e : Nat} (hcause : e ≠ E.resetCause) (hresets : e ≠ E.resets) (hrole : e ≠ E.roleNow) :
    (s.deviceReset cause).rd e 0 = (s.restartAt 2 true).rd e 0 := by
  unfold State.deviceReset
  dsimp only
  rw [State.rd_wr_of_entry _ _ hrole, State.rd_wr_of_entry _ _ hresets, State.rd_wr_of_entry _ _ hcause]

theorem State.deviceReset_eq (s : State) (cause : Nat) : s.deviceReset cause = { s.restartAt 2 true with regs := (s.deviceReset cause).regs } := rfl

theorem deviceReset_spec (cause : Nat) (s : State) : (s.deviceReset cause).now = 0 ∧ (s.deviceReset cause).rd E.resetCause 0 = cause ∧
    (s.deviceReset cause).rd E.resets 0 = (s.rd E.resets 0 + 1) % 2 ^ 32 ∧ (s.deviceReset cause).rd E.roleNow 0 = s.rd E.role 0 ∧
    (s.deviceReset cause).rd E.deviceState 0 = 0 ∧ (s.deviceReset cause).rd E.bootPref 0 = s.rd E.bootPref 0 ∧
    (s.deviceReset cause).rd E.fwSvnMin 0 = s.rd E.fwSvnMin 0 ∧ (s.deviceReset cause).mgmt.keys = s.mgmt.keys ∧
    (s.deviceReset cause).coll = {} ∧ (s.deviceReset cause).graphs = {} ∧ (s.deviceReset cause).jobs = [] ∧
    (s.deviceReset cause).spawns = [] ∧ (s.deviceReset cause).pending = s.pending ∧
    (s.deviceReset cause).power.step = if s.power.pinLow || s.power.sag || !s.power.vaon then 0 else 2 := by
  obtain ⟨hcause, hresets, hrole⟩ := s.deviceReset_shows cause
  refine ⟨rfl, hcause, hresets, hrole, ?_, ?_, ?_, ?_⟩
  · rw [State.deviceReset_rd _ _ (by decide) (by decide) (by decide), State.rd_restartAt_lost _ _ _ (by decide)]
    rfl
  · rw [State.deviceReset_rd _ _ (by decide) (by decide) (by decide), State.rd_restartAt_kept _ _ _ (by decide)]
  · rw [State.deviceReset_rd _ _ (by decide) (by decide) (by decide), State.rd_restartAt_kept _ _ _ (by decide)]
  · rw [State.deviceReset_eq]
    exact ⟨rfl, rfl, rfl, rfl, rfl, rfl, rfl⟩

theorem powerOnReset_spec (s : State) : s.powerOnReset.now = 0 ∧ s.powerOnReset.rd E.resetCause 0 = 1 ∧ s.powerOnReset.rd E.resets 0 = 0 ∧
    s.powerOnReset.mgmt.keys = [] ∧ s.powerOnReset.rd E.deviceState 0 = 0 ∧ s.powerOnReset.jobs = [] ∧
    s.powerOnReset.power.step = if s.power.pinLow || s.power.sag || !s.power.vaon then 0 else 1 := by
  unfold State.powerOnReset
  refine ⟨rfl, State.rd_wr_same .., ?_, rfl, ?_, rfl, rfl⟩
  · rw [State.rd_wr_of_entry _ _ (by decide), State.rd_restartAt_lost _ _ _ (by decide)]
    rfl
  · rw [State.rd_wr_of_entry _ _ (by decide), State.rd_restartAt_lost _ _ _ (by decide)]
    rfl

/-! The release of RESET_N (R532, R553, R554). -/

/-- The straps sampled at the release. -/
def State.strapped (s : State) (n : Nat) : State :=
  ((s.wr E.straps 0 (n % 16)).wr E.smbAddress 0 (0x58 + n % 8)).setPower { s.power with pinLow := false, mfg := !bit n 3 }

/-- Two states that differ in the steps of start-up alone. -/
def StartOnly (s t : State) : Prop := ∃ p : Power, t = s.setPower p ∧ p.pinLow = s.power.pinLow ∧ p.mfg = s.power.mfg

theorem State.startFrom_only (s : State) (step : Nat) : StartOnly s (s.startFrom step) := ⟨_, rfl, rfl, rfl⟩

theorem State.letStart_only (s : State) : StartOnly s s.letStart := by
  unfold State.letStart
  dsimp only
  split
  · exact ⟨s.power, rfl, rfl, rfl⟩
  · exact s.startFrom_only _

theorem exec_resetNRelease {t : Time} {n : Nat} {s : State} (hlow : s.power.pinLow = true) (hvaon : s.power.vaon = true) :
    exec (.resetNRelease t n) s = .next (if !bit n 3 then ((s.begin t).strapped n).startFrom 1 else ((s.begin t).strapped n).letStart) := by
  have hgo : ¬((!(s.begin t).power.pinLow) = true ∨ (!(s.begin t).power.vaon) = true) := by
    rw [show (s.begin t).power.pinLow = true from hlow, show (s.begin t).power.vaon = true from hvaon]
    decide
  exact next_congr (if_neg hgo)

theorem StartOnly.strapped {s u : State} {n : Nat} (h : StartOnly (s.strapped n) u) : u.rd E.straps 0 = n % 16 ∧
    u.rd E.smbAddress 0 = 0x58 + n % 8 ∧ u.power.pinLow = false ∧ u.power.mfg = !bit n 3 := by
  obtain ⟨p, rfl, hlow, hmfg⟩ := h
  refine ⟨?_, State.rd_wr_same .., hlow, hmfg⟩
  exact (State.rd_wr_of_entry _ _ (by decide)).trans (State.rd_wr_same ..)

theorem State.letStart_step {s : State} (h0 : s.power.step = 0) (hlow : s.power.pinLow = false) (hsag : s.power.sag = false)
    (hvaon : s.power.vaon = true) (hstate : s.rd E.deviceState 0 ≠ 4) : s.letStart = s.startFrom s.power.heldStep := by
  have hgo : ¬(s.power.step ≠ 0 ∨ s.power.pinLow = true ∨ s.power.sag = true ∨ (!s.power.vaon) = true ∨ s.rd E.deviceState 0 = 4) := by
    rw [hlow, hsag, hvaon]
    rintro (h | h | h | h | h)
    · exact h h0
    · cases h
    · cases h
    · cases h
    · exact hstate h
  exact if_neg hgo

/-! A base tile at 115 °C (R544). -/

theorem foldl_wrInt_power (l : List (Nat × Int)) (s : State) :
    (l.foldl (fun (s : State) x => s.wrInt E.baseTemp x.1 x.2) s).power = s.power := by
  induction l generalizing s with
  | nil => rfl
  | cons x r ih => exact ih _

theorem exec_tempSample_hot {t : Time} {d b p c : List (Nat × Int)} {s : State} (h : ∃ x ∈ b, x.1 < 64 ∧ 1840 ≤ x.2) :
    exec (.tempSample t d b p c) s = .next (((b.filter (fun x => decide (x.1 < 64))).foldl (fun (s : State) x => s.wrInt E.baseTemp x.1 x.2)
      ((s.begin t).setPower { s.power with trip := true })).deviceReset 8) := by
  obtain ⟨x, hx, hlt, hhot⟩ := h
  have hany : (b.filter (fun x => decide (x.1 < 64))).any (fun x => decide (1840 ≤ x.2)) = true :=
    List.any_eq_true.mpr ⟨x, List.mem_filter.mpr ⟨hx, decide_eq_true hlt⟩, decide_eq_true hhot⟩
  exact next_congr (if_pos hany)

/-- Settles O55: the sources of a reset, and what a device reset and a power-on reset leave. -/
theorem resets : Obligations.Resets := by
  unfold Obligations.Resets
  refine ⟨fun t s h => ?_, fun t s h => ?_, fun t s h => ?_, fun t n s hlow hvaon => ?_, fun a v s ht => ?_, fun t s => ⟨fun hsag hvaon => ?_,
    fun hsag => ?_⟩, deviceReset_spec, powerOnReset_spec, fun t d b p c s h => ⟨_, exec_tempSample_hot h, ?_⟩⟩
  · have h' : ¬(s.begin t).power.vaon = true := fun hv => Bool.false_ne_true (h.symm.trans hv)
    exact next_congr (if_neg h')
  · have h' : ¬(!(s.begin t).power.vaon) = true := by
      rw [show (s.begin t).power.vaon = true from h]
      decide
    exact next_congr (if_neg h')
  · have h' : ¬(s.begin t).power.pinLow = true := fun hv => Bool.false_ne_true (h.symm.trans hv)
    exact next_congr (if_neg h')
  · rw [exec_resetNRelease hlow hvaon]
    cases hb : bit n 3 with
    | false =>
      obtain ⟨hstraps, haddr, hpin, hmfg⟩ := (State.startFrom_only ((s.begin t).strapped n) 1).strapped
      exact ⟨_, rfl, hstraps, haddr, hpin, hmfg.trans (congrArg _ hb), fun h => absurd h (by decide)⟩
    | true =>
      obtain ⟨hstraps, haddr, hpin, hmfg⟩ := (State.letStart_only ((s.begin t).strapped n)).strapped
      refine ⟨_, rfl, hstraps, haddr, hpin, hmfg.trans (congrArg _ hb), fun _ h0 hsag hstate => ?_⟩
      have hstate' : ((s.begin t).strapped n).rd E.deviceState 0 ≠ 4 := by
        have hrd : ((s.begin t).strapped n).rd E.deviceState 0 = s.rd E.deviceState 0 :=
          (State.rd_wr_of_entry _ _ (by decide)).trans (State.rd_wr_of_entry _ _ (by decide))
        rwa [hrd]
      exact congrArg (fun u : State => u.power.step) (State.letStart_step (s := (s.begin t).strapped n) h0 rfl hsag hvaon hstate')
  · exact next_congr (State.writeOne_ok (rule := fun _ => .ok) (act := fun s => if v = 1 then s.deviceReset 4 else s) ht rfl)
  · have h' : ¬((s.begin t).power.sag = true ∨ (!(s.begin t).power.vaon) = true) := by
      rw [show (s.begin t).power.sag = false from hsag, show (s.begin t).power.vaon = true from hvaon]
      decide
    exact next_congr (if_neg h')
  · have h' : ¬(!(s.begin t).power.sag) = true := by
      rw [show (s.begin t).power.sag = true from hsag]
      decide
    exact next_congr (if_neg h')
  · obtain ⟨w, hw⟩ : ∃ w, w = (b.filter (fun x => decide (x.1 < 64))).foldl (fun (s : State) x => s.wrInt E.baseTemp x.1 x.2)
        ((s.begin t).setPower { s.power with trip := true }) := ⟨_, rfl⟩
    have htrip : (w.deviceReset 8).power.trip = true := by
      rw [w.deviceReset_eq 8, hw]
      exact congrArg Power.trip (foldl_wrInt_power _ _)
    rw [← hw]
    exact ⟨(w.deviceReset_shows 8).1, htrip, if_pos htrip⟩

end Sys2Proof.Machine
end

section
/-!
A boot whose standby keeper is the active one (R498).
-/
namespace Sys2Proof.Machine

/-! The boot of the other slot, whose standby keeper differs, on a device that K1 runs: the standby is then the active keeper, and its
exclusion a takeover. As in the refutation of O50, the exchange to remove a graph is committed by the takeover, and the graph stands in
a slot whose GRAPH_ID is another entry's element, here BOOT_SLOT. -/

/-- The number of a slot whose GRAPH_ID is BOOT_SLOT. -/
def bootStraySlot : Nat := (E.bootSlot - E.graphId) * 2 ^ 24

/-- A device that K1 runs, which leads the removal of the graph in that slot. -/
def bootStrayState : State :=
  ({ ({} : State) with
    graphs := { ({} : State).graphs with slots := [(bootStraySlot, strayGraph)] }
    coll := { ({} : State).coll with leds := [strayLed] } } : State).wr E.keeperActive 0 1

/-- The entries that a takeover for a fault writes before the exchanges are released. -/
def State.faultShown (s : State) (why : Nat) : State :=
  let new := 1 - s.keeper
  let t := (((s.wr E.keeperActive 0 new).wr E.dieState (18 + new) 0).wr E.domainState (18 + new) 1).wr E.domainState (18 + s.keeper) 0
  ((t.wr E.standbyState 0 3).markExcluded (18 + s.keeper) why).raise 0x9004 1 31 [.v 16 s.keeper]

/-- A takeover for a fault shows in BOOT_SLOT what the release of the exchanges leaves. -/
theorem State.rd_takeover_fault (s : State) {cause : Nat} (why : Nat) (hcause : cause ≠ 3) :
    (s.takeover cause why).rd E.bootSlot 0 = (s.faultShown why).releaseLeds.rd E.bootSlot 0 := by
  obtain ⟨w, hw⟩ : ∃ w, w = (s.faultShown why).releaseLeds := ⟨_, rfl⟩
  rw [← hw]
  simp only [State.faultShown] at hw
  simp only [State.takeover, if_neg hcause, ← hw]
  rw [State.publishCapacity_only _ _ _ (by decide) (by decide), State.rd_raise_of_entry _ _ _ _ _ (by decide) (by decide),
    State.rd_wr_other _ _ (elKey_ne_of_entry (by decide) 0), State.rd_bump_other _ _ (elKey_ne_of_entry (by decide) 0)]
  rfl

theorem bootStrayState_slots : bootStrayState.slotPasses [1] 0 = false ∧ bootStrayState.slotPasses [1] 1 = true := by decide

theorem State.boot_differs (s : State) (slot : Nat) : s.boot slot true
    = (s.boot slot false).free.2.excludeKeeper 1 ((s.boot slot false).free.1 % 256) := rfl

theorem State.excludeKeeper_ready {s : State} {k cause : Nat} (hk : s.keeper = k) (hready : s.rd E.standbyState 0 = 2) :
    s.excludeKeeper k cause = s.takeover (if cause = 1 then 1 else 2) cause := by
  unfold State.excludeKeeper
  rw [if_pos hk, if_pos hready]

theorem State.bootStep_fallback {s : State} {ver : List Nat} {dif : Bool} (hpref : s.slotPasses ver (s.rd E.bootPref 0) = false)
    (hother : s.slotPasses ver (1 - s.rd E.bootPref 0) = true) : s.bootStep ver dif
      = (s.free.2.boot (1 - s.rd E.bootPref 0) dif).raise 0xF003 2 31 [.v 16 (1 - s.rd E.bootPref 0), .v 8 s.free.1] := by
  have hno : ¬ s.slotPasses ver (s.rd E.bootPref 0) = true := fun h => Bool.false_ne_true (hpref.symm.trans h)
  exact (if_neg hno).trans (if_pos hother)

/-- A graph dropped from that slot clears BOOT_SLOT. -/
theorem State.rd_dropGraph_bootStray (s : State) : (s.dropGraph bootStraySlot).rd E.bootSlot 0 = 0 := by
  have hother : ∀ e, e ≠ E.graphId → elKey E.bootSlot 0 ≠ elKey e bootStraySlot := fun e he hk =>
    elKey_ne_of_entry he bootStraySlot (hk.symm.trans (by decide))
  obtain ⟨t, ht⟩ : ∃ t : State, t = { s with graphs := { s.graphs with slots := s.graphs.slots.del bootStraySlot } } := ⟨_, rfl⟩
  have hclear : (t.wr E.graphId bootStraySlot 0).rd E.bootSlot 0 = 0 := by
    have hregs : (t.wr E.graphId bootStraySlot 0).regs = t.regs.del (elKey E.bootSlot 0) := rfl
    rw [State.rd, rdIn, hregs, Tab.get_del_same]
    rfl
  unfold State.dropGraph
  dsimp only
  rw [← ht, State.rd_wr_other _ _ (hother _ (by decide)), State.rd_wr_other _ _ (hother _ (by decide)),
    State.rd_wr_other _ _ (hother _ (by decide)), State.rd_wr_other _ _ (hother _ (by decide)),
    State.rd_wr_other _ _ (hother _ (by decide)), hclear]

theorem State.removeGraph_bootStray {s : State} (h : s.graphs.slots = [(bootStraySlot, strayGraph)]) (cause : Nat) :
    s.removeGraph 0 cause = (s.freeOpHeld strayGraph.op).dropGraph bootStraySlot := by
  have hgraph : s.graphOf 0 = some (bootStraySlot, strayGraph) := by
    rw [State.graphOf, h]
    rfl
  simp only [State.removeGraph, hgraph]
  rfl

theorem State.releaseLeds_bootStray {s : State} (hleds : s.coll.leds = [strayLed]) (hgei : s.gei = 0)
    (h : s.graphs.slots = [(bootStraySlot, strayGraph)]) : s.releaseLeds.rd E.bootSlot 0 = 0 := by
  obtain ⟨w, hw⟩ : ∃ w : State, w = { s with coll := { s.coll with leds := s.coll.leds.filter (fun (x : Led) => x.xid != strayLed.xid) } } :=
    ⟨_, rfl⟩
  have hslots : w.free.2.graphs.slots = [(bootStraySlot, strayGraph)] := by rw [hw]; exact h
  have hend : s.finishLed strayLed = (removePhase 0).outcome 0 0 ((removePhase 0).commit w) := by
    have hcommit := s.endLed_commit (l := strayLed) (removePhase 0) rfl rfl
    rw [hgei, ← hw] at hcommit
    exact hcommit
  rw [State.releaseLeds, hleds]
  refine (congrArg (State.rd · E.bootSlot 0) hend).trans ?_
  refine (congrArg (State.rd · E.bootSlot 0) (State.removeGraph_bootStray hslots (w.free.1 % 256))).trans ?_
  exact State.rd_dropGraph_bootStray _

/-- The state in which the standby keeper is found to differ. -/
def bootStrayBooted : State := (bootStrayState.free.2.boot 1 false).free.2

theorem bootStrayBooted_keeper : bootStrayBooted.keeper = 1 ∧ bootStrayBooted.rd E.standbyState 0 = 2 ∧ bootStrayBooted.gei = 0 := by
  decide +kernel

theorem State.raise_graphs (s : State) (code sev src : Nat) (ctx : List Item) : (s.raise code sev src ctx).graphs = s.graphs :=
  (s.raise_noted code sev src ctx).graphs

theorem State.gei_raise (s : State) (code sev src : Nat) (ctx : List Item) : (s.raise code sev src ctx).gei = s.gei :=
  State.rd_raise_of_entry s code sev src ctx (by decide) (by decide)

theorem State.markExcluded_unit (s : State) (d cause : Nat) : (s.markExcluded d cause).coll = s.coll ∧
    (s.markExcluded d cause).graphs = s.graphs ∧ (s.markExcluded d cause).gei = s.gei := by
  refine ⟨?_, ?_, ?_⟩
  · rw [State.markExcluded, State.raise_coll, State.wr_coll, State.wr_coll, State.wr_coll]
  · rw [State.markExcluded, State.raise_graphs, State.wr_graphs, State.wr_graphs, State.wr_graphs]
  · rw [State.markExcluded, State.gei_raise, State.gei_wr _ _ _ (by decide), State.gei_wr _ _ _ (by decide), State.gei_wr _ _ _ (by decide)]

theorem State.faultShown_keeps (s : State) (why : Nat) : (s.faultShown why).coll = s.coll ∧ (s.faultShown why).graphs = s.graphs ∧
    (s.faultShown why).gei = s.gei := by
  have hmark := fun t : State => t.markExcluded_unit (18 + s.keeper) why
  refine ⟨?_, ?_, ?_⟩
  · rw [State.faultShown, State.raise_coll, (hmark _).1, State.wr_coll, State.wr_coll, State.wr_coll, State.wr_coll,
      State.wr_coll]
  · rw [State.faultShown, State.raise_graphs, (hmark _).2.1, State.wr_graphs, State.wr_graphs, State.wr_graphs,
      State.wr_graphs, State.wr_graphs]
  · rw [State.faultShown, State.gei_raise, (hmark _).2.2]
    repeat rw [State.gei_wr _ _ _ (by decide)]

theorem bootStrayState_boots : (bootStrayState.bootStep [1] true).rd E.bootSlot 0 = 0 := by
  obtain ⟨hpref, hother⟩ := bootStrayState_slots
  obtain ⟨hkeeper, hready, hgei⟩ := bootStrayBooted_keeper
  obtain ⟨why, hwhy⟩ : ∃ why, why = (bootStrayState.free.2.boot 1 false).free.1 % 256 := ⟨_, rfl⟩
  obtain ⟨hcoll, hgraphs, hgei'⟩ := bootStrayBooted.faultShown_keeps why
  have hcause : (if why = 1 then 1 else 2) ≠ 3 := by split <;> decide
  have hboot : bootStrayState.free.2.boot 1 true = bootStrayBooted.takeover (if why = 1 then 1 else 2) why := by
    rw [State.boot_differs, ← hwhy]
    exact State.excludeKeeper_ready hkeeper hready
  rw [State.bootStep_fallback hpref hother, State.rd_raise_of_entry _ _ _ _ _ (by decide) (by decide)]
  refine (congrArg (State.rd · E.bootSlot 0) hboot).trans ((State.rd_takeover_fault _ _ hcause).trans ?_)
  refine State.releaseLeds_bootStray ?_ (hgei'.trans hgei) ?_
  · rw [hcoll]
    rfl
  · rw [hgraphs]
    rfl

/-- Refutes O56: BOOT_SLOT is to show the slot that was booted, but where the standby keeper that differs is the active one, its
takeover removes the graph of `bootStrayState`, and clears BOOT_SLOT with that graph's GRAPH_ID. -/
theorem not_startUp : ¬ Obligations.StartUp := by
  unfold Obligations.StartUp
  rintro ⟨-, hboot, -⟩
  obtain ⟨-, hfallback, -⟩ := hboot [1] true bootStrayState (by decide)
  have hslot := hfallback bootStrayState_slots.1 bootStrayState_slots.2
  rw [show 1 - bootStrayState.rd E.bootPref 0 = 1 from rfl, bootStrayState_boots] at hslot
  cases hslot

end Sys2Proof.Machine
end

section
/-!
The supply warning, power and reference clocks (R526-R540).
-/
namespace Sys2Proof.Machine

/-! The supply warning (R538-R540). -/

/-- The device in BRACE, before it tells of it. -/
def State.entersBrace (s : State) (t : Time) (vin : Nat) : State :=
  let s := (s.readVin vin).setPower { s.power with brace := some t }
  let s := (s.wr E.supplyState 0 1).bump E.braceEntries 0 1
  if s.rd E.deviceState 0 = 2 then s.wr E.deviceState 0 3 else s

/-- The device out of BRACE, before it tells of it. -/
def State.leavesBrace (s : State) (vin : Nat) : State :=
  let s := (s.readVin vin).setPower { s.power with brace := none }
  let s := s.wr E.supplyState 0 0
  if s.rd E.deviceState 0 = 3 then s.wr E.deviceState 0 2 else s

theorem State.readVin_spec (s : State) (vin : Nat) : (s.readVin vin).rd E.vinNow 0 = vin ∧
    (s.readVin vin).rd E.vinMin 0 = min (s.rd E.vinMin 0) vin ∧ (s.readVin vin).power = s.power := by
  have hmin : (s.wr E.vinNow 0 vin).rd E.vinMin 0 = s.rd E.vinMin 0 := State.rd_wr_of_entry _ _ (by decide)
  unfold State.readVin
  dsimp only
  split
  case isTrue h =>
    refine ⟨?_, ?_, rfl⟩
    · rw [State.rd_wr_of_entry _ _ (by decide), State.rd_wr_same]
    · rw [State.rd_wr_same]
      omega
  case isFalse h =>
    refine ⟨State.rd_wr_same .., ?_, rfl⟩
    rw [hmin]
    omega

theorem State.readVin_rd (s : State) (vin : Nat) {e : Nat} (hnow : e ≠ E.vinNow) (hmin : e ≠ E.vinMin) : (s.readVin vin).rd e 0 = s.rd e 0 := by
  unfold State.readVin
  dsimp only
  split
  · rw [State.rd_wr_of_entry _ _ hmin, State.rd_wr_of_entry _ _ hnow]
  · rw [State.rd_wr_of_entry _ _ hnow]

theorem State.entersBrace_spec (s : State) (t : Time) (vin : Nat) : (s.entersBrace t vin).power.brace = some t ∧
    (s.entersBrace t vin).rd E.supplyState 0 = 1 ∧ (s.entersBrace t vin).rd E.vinNow 0 = vin ∧
    (s.entersBrace t vin).rd E.braceEntries 0 = (s.rd E.braceEntries 0 + 1) % 2 ^ 64 ∧
    (s.entersBrace t vin).rd E.deviceState 0 = if s.rd E.deviceState 0 = 2 then 3 else s.rd E.deviceState 0 := by
  obtain ⟨w, hw⟩ : ∃ w, w = ((((s.readVin vin).setPower { s.power with brace := some t }).wr E.supplyState 0 1).bump
    E.braceEntries 0 1) := ⟨_, rfl⟩
  have heq : s.entersBrace t vin = if w.rd E.deviceState 0 = 2 then w.wr E.deviceState 0 3 else w := by rw [hw]; rfl
  have hbrace : w.power.brace = some t := by rw [hw]; rfl
  have hsupply : w.rd E.supplyState 0 = 1 := by
    rw [hw, State.rd_bump_other _ _ (by decide), State.rd_wr_same]
  have hvin : w.rd E.vinNow 0 = vin := by
    rw [hw, State.rd_bump_other _ _ (by decide), State.rd_wr_of_entry _ _ (by decide), State.rd_setPower, (s.readVin_spec vin).1]
  have hentries : w.rd E.braceEntries 0 = (s.rd E.braceEntries 0 + 1) % 2 ^ 64 := by
    rw [hw, State.rd_bump_same, State.rd_wr_of_entry _ _ (by decide), State.rd_setPower, s.readVin_rd vin (by decide) (by decide)]
  have hstate : w.rd E.deviceState 0 = s.rd E.deviceState 0 := by
    rw [hw, State.rd_bump_other _ _ (by decide), State.rd_wr_of_entry _ _ (by decide), State.rd_setPower,
      s.readVin_rd vin (by decide) (by decide)]
  rw [heq, hstate]
  split
  · refine ⟨hbrace, ?_, ?_, ?_, State.rd_wr_same ..⟩
    · rw [State.rd_wr_of_entry _ _ (by decide), hsupply]
    · rw [State.rd_wr_of_entry _ _ (by decide), hvin]
    · rw [State.rd_wr_of_entry _ _ (by decide), hentries]
  · exact ⟨hbrace, hsupply, hvin, hentries, hstate⟩

theorem State.leavesBrace_spec (s : State) (vin : Nat) : (s.leavesBrace vin).power.brace = none ∧ (s.leavesBrace vin).rd E.supplyState 0 = 0 ∧
    (s.leavesBrace vin).rd E.deviceState 0 = if s.rd E.deviceState 0 = 3 then 2 else s.rd E.deviceState 0 := by
  obtain ⟨w, hw⟩ : ∃ w, w = ((s.readVin vin).setPower { s.power with brace := none }).wr E.supplyState 0 0 := ⟨_, rfl⟩
  have heq : s.leavesBrace vin = if w.rd E.deviceState 0 = 3 then w.wr E.deviceState 0 2 else w := by rw [hw]; rfl
  have hbrace : w.power.brace = none := by rw [hw]; rfl
  have hsupply : w.rd E.supplyState 0 = 0 := by rw [hw, State.rd_wr_same]
  have hstate : w.rd E.deviceState 0 = s.rd E.deviceState 0 := by
    rw [hw, State.rd_wr_of_entry _ _ (by decide), State.rd_setPower, s.readVin_rd vin (by decide) (by decide)]
  rw [heq, hstate]
  split
  · exact ⟨hbrace, (State.rd_wr_of_entry _ _ (by decide)).trans hsupply, State.rd_wr_same ..⟩
  · exact ⟨hbrace, hsupply, hstate⟩

theorem exec_vinWarningEnter {t : Time} {vin : Nat} {s : State} (hbrace : s.power.brace = none) (hsag : s.power.sag = false) :
    exec (.vinWarningEnter t vin) s = .next (((((s.begin t).entersBrace t vin).raise 0x2001 2 31 [.v 32 vin]).drainRecords).pushAll) := by
  have hgo : ¬((s.begin t).power.brace.isSome = true ∨ (s.begin t).power.sag = true) := by
    rw [show (s.begin t).power.brace = none from hbrace, show (s.begin t).power.sag = false from hsag]
    decide
  exact next_congr (if_neg hgo)

theorem exec_vinWarningExit {t : Time} {vin : Nat} {b : Time} {s : State} (hbrace : s.power.brace = some b) :
    exec (.vinWarningExit t vin) s
      = .next (((((s.begin t).leavesBrace vin).raise 0x2002 0 31 [.v 32 vin, .v 32 ((t - b) / us)]).rearmAll).reopenAll.evalStarts 65) := by
  have hbrace' : (s.begin t).power.brace = some b := hbrace
  simp only [exec, execVinWarningExit, hbrace']
  rfl

/-! Measurements (R526). -/

/-- The readings shown. -/
def State.measuredPower (s : State) (vin va vio p : Nat) (l : List Nat) : State :=
  let s := (((s.readVin vin).wr E.vaonNow 0 va).wr E.vioNow 0 vio).wr E.powerNow 0 p
  let s := (List.range 6).foldl (fun (s : State) k => s.wr E.powerClass k (l.getD k 0)) s
  s.raiseTo E.powerPeak 0 p

theorem foldl_powerClass (l : List Nat) (s : State) :
    (∀ e, e ≠ E.powerClass → ((List.range 6).foldl (fun (s : State) k => s.wr E.powerClass k (l.getD k 0)) s).rd e 0 = s.rd e 0) ∧
    ∀ k, k < 6 → ((List.range 6).foldl (fun (s : State) k => s.wr E.powerClass k (l.getD k 0)) s).rd E.powerClass k = l.getD k 0 := by
  refine ⟨fun e he => ?_, fun k hk => ?_⟩
  · refine List.foldlRecOn (motive := fun u : State => u.rd e 0 = s.rd e 0) _ _ rfl fun u hu k hk => ?_
    have hlt := List.mem_range.mp hk
    rw [State.rd_wr_other _ _ (elKey_ne_of_entry_ne he (by decide) (by omega)), hu]
  · refine foldl_of_mem (p := fun u : State => u.rd E.powerClass k = l.getD k 0) (List.mem_range.mpr hk) (fun u => State.rd_wr_same ..)
      (fun u j _ hu => ?_) s
    by_cases hjk : j = k
    · subst hjk
      exact State.rd_wr_same ..
    · rw [State.rd_wr_other _ _ fun h => hjk (Nat.add_left_cancel h).symm, hu]

theorem State.measuredPower_spec (s : State) (vin va vio p : Nat) (l : List Nat) {u : State} (hu : u = s.measuredPower vin va vio p l) :
    u.rd E.vinNow 0 = vin ∧ u.rd E.vaonNow 0 = va ∧ u.rd E.vioNow 0 = vio ∧ u.rd E.powerNow 0 = p ∧
      u.rd E.powerPeak 0 = max (s.rd E.powerPeak 0) p ∧ u.rd E.vinMin 0 = min (s.rd E.vinMin 0) vin ∧ ∀ k, k < 6 → u.rd E.powerClass k = l.getD k 0 := by
  obtain ⟨w, hw⟩ : ∃ w, w = (((s.readVin vin).wr E.vaonNow 0 va).wr E.vioNow 0 vio).wr E.powerNow 0 p := ⟨_, rfl⟩
  obtain ⟨hvin, hmin, -⟩ := s.readVin_spec vin
  obtain ⟨hother, hclass⟩ := foldl_powerClass l w
  have heq : u = ((List.range 6).foldl (fun (s : State) k => s.wr E.powerClass k (l.getD k 0)) w).raiseTo E.powerPeak 0 p := by
    rw [hu, hw]
    rfl
  have hrd : ∀ {e}, e ≠ E.powerPeak → e ≠ E.powerClass → u.rd e 0 = w.rd e 0 := fun hpeak hcl => by
    rw [heq, State.rd_raiseTo_other _ _ (elKey_ne_of_entry hpeak 0), hother _ hcl]
  have hread : ∀ {e}, e ≠ E.powerNow → e ≠ E.vioNow → e ≠ E.vaonNow → w.rd e 0 = (s.readVin vin).rd e 0 := fun hp hv ha => by
    rw [hw, State.rd_wr_of_entry _ _ hp, State.rd_wr_of_entry _ _ hv, State.rd_wr_of_entry _ _ ha]
  refine ⟨?_, ?_, ?_, ?_, ?_, ?_, fun k hk => ?_⟩
  · rw [hrd (by decide) (by decide), hread (by decide) (by decide) (by decide), hvin]
  · rw [hrd (by decide) (by decide), hw, State.rd_wr_of_entry _ _ (by decide), State.rd_wr_of_entry _ _ (by decide), State.rd_wr_same]
  · rw [hrd (by decide) (by decide), hw, State.rd_wr_of_entry _ _ (by decide), State.rd_wr_same]
  · rw [hrd (by decide) (by decide), hw, State.rd_wr_same]
  · rw [heq, State.rd_raiseTo_same, hother _ (by decide), hread (by decide) (by decide) (by decide), s.readVin_rd vin (by decide) (by decide)]
  · rw [hrd (by decide) (by decide), hread (by decide) (by decide) (by decide), hmin]
  · rw [heq, State.rd_raiseTo_other _ _ (elKey_ne_of_entry_ne (by decide) (by omega) (by decide)), hclass k hk]

/-! Reference clocks (R529). -/

theorem State.usesB_showClocks (s : State) (b : Bool) : (s.showClocks b).usesB = b := by
  rw [State.usesB, State.showClocks, State.rd_wr_same]
  exact bit_pack [(1, _)] b _ rfl

theorem State.holdover_showClocks (s : State) (b : Bool) : bit ((s.showClocks b).rd E.refclkState 0) 3 = s.power.both.isSome := by
  rw [State.showClocks, State.rd_wr_same]
  exact bit_pack [] s.power.both.isSome _ rfl

/-- An input lost. -/
def Power.losing (p : Power) (i : Nat) (t : Time) : Power :=
  if i = 0 then { p with lostA := some t, backA := none } else { p with lostB := some t }

theorem Power.losing_both (p : Power) {i : Nat} (t : Time) (h : (if i = 0 then p.lostB else p.lostA).isSome = true) :
    ((p.losing i t).lostA.isSome && (p.losing i t).lostB.isSome) = true := by
  unfold Power.losing
  split at h
  case isTrue hi => rw [if_pos hi, h]; rfl
  case isFalse hi => rw [if_neg hi, h]; rfl

theorem Power.losing_one (p : Power) {i : Nat} (t : Time) (h : (if i = 0 then p.lostB else p.lostA) = none) :
    ((p.losing i t).lostA.isSome && (p.losing i t).lostB.isSome) = false := by
  unfold Power.losing
  split at h
  case isTrue hi => rw [if_pos hi, h]; rfl
  case isFalse hi => rw [if_neg hi, h]; rfl

theorem exec_refclkFailover {t : Time} {i : Nat} {s : State} (hi : i ≤ 1) (hlost : (if i = 0 then s.power.lostA else s.power.lostB) = none)
    {w : State} (hw : w = (s.begin t).setPower (s.power.losing i t)) : exec (.refclkFailover t i) s = .next (
      if (w.power.lostA.isSome && w.power.lostB.isSome) = true then
        ((w.setPower { w.power with both := some t }).showClocks s.usesB).raise 0x2005 2 31 []
      else if w.rd E.refclkSel 0 = 2 ∧ s.usesB = (i == 1) then
        ((w.showClocks (!s.usesB)).bump E.clockFailovers 0 1).raise 0x2004 1 31 [.v 8 (1 - i)]
      else w.showClocks s.usesB) := by
  have hgo : ¬(1 < i ∨ (if i = 0 then (s.begin t).power.lostA else (s.begin t).power.lostB).isSome = true) := by
    rw [show (if i = 0 then (s.begin t).power.lostA else (s.begin t).power.lostB) = none from hlost]
    rintro (h | h)
    · omega
    · cases h
  rw [hw]
  exact next_congr (if_neg hgo)

end Sys2Proof.Machine
end

section
/-!
Clocks, temperature and the TAP (R529-R564).
-/
namespace Sys2Proof.Machine

theorem State.usesB_congr {s u : State} (h : u.rd E.refclkState 0 = s.rd E.refclkState 0) : u.usesB = s.usesB := by
  rw [State.usesB, State.usesB, h]

theorem exec_refclkFailover_both {t : Time} {i : Nat} {s : State} (hi : i ≤ 1)
    (hlost : (if i = 0 then s.power.lostA else s.power.lostB) = none)
    (hother : (if i = 0 then s.power.lostB else s.power.lostA).isSome = true) :
    ∃ u : State, exec (.refclkFailover t i) s = .next (u.raise 0x2005 2 31 []) ∧ u.power.both = some t ∧ u.usesB = s.usesB ∧
      bit (u.rd E.refclkState 0) 3 = true := by
  obtain ⟨w, hw⟩ : ∃ w : State, w = (s.begin t).setPower (s.power.losing i t) := ⟨_, rfl⟩
  have hboth : (w.power.lostA.isSome && w.power.lostB.isSome) = true := by
    rw [hw]
    exact s.power.losing_both t hother
  refine ⟨(w.setPower { w.power with both := some t }).showClocks s.usesB, ?_, rfl, State.usesB_showClocks _ _, State.holdover_showClocks _ _⟩
  rw [exec_refclkFailover hi hlost hw, if_pos hboth]

theorem exec_refclkFailover_over {t : Time} {i : Nat} {s : State} (hi : i ≤ 1)
    (hlost : (if i = 0 then s.power.lostA else s.power.lostB) = none)
    (hother : (if i = 0 then s.power.lostB else s.power.lostA) = none) (hsel : s.rd E.refclkSel 0 = 2) (huse : s.usesB = (i == 1)) :
    ∃ u : State, exec (.refclkFailover t i) s = .next (u.raise 0x2004 1 31 [.v 8 (1 - i)]) ∧ u.usesB = !s.usesB ∧
      u.rd E.clockFailovers 0 = (s.rd E.clockFailovers 0 + 1) % 2 ^ 64 := by
  obtain ⟨w, hw⟩ : ∃ w : State, w = (s.begin t).setPower (s.power.losing i t) := ⟨_, rfl⟩
  have hone : (w.power.lostA.isSome && w.power.lostB.isSome) = false := by
    rw [hw]
    exact s.power.losing_one t hother
  have hrd : ∀ e, w.rd e 0 = s.rd e 0 := fun e => by rw [hw]; rfl
  refine ⟨(w.showClocks (!s.usesB)).bump E.clockFailovers 0 1, ?_, ?_, ?_⟩
  · rw [exec_refclkFailover hi hlost hw, if_neg (by rw [hone]; decide), if_pos ⟨(hrd _).trans hsel, huse⟩]
  · rw [State.usesB_congr (State.rd_bump_other _ _ (by decide)), State.usesB_showClocks]
  · rw [State.rd_bump_same, State.showClocks, State.rd_wr_of_entry _ _ (by decide), hrd]

/-- The power domain with an input's edges back. -/
def Power.restoring (p : Power) (i : Nat) (t : Time) : Power :=
  if i = 0 then { p with lostA := none, backA := some t, both := none } else { p with lostB := none, both := none }

theorem Power.restoring_spec (p : Power) (i : Nat) (t : Time) :
    (if i = 0 then (p.restoring i t).lostA else (p.restoring i t).lostB) = none ∧ (p.restoring i t).both = none := by
  unfold Power.restoring
  split <;> exact ⟨rfl, rfl⟩

theorem exec_refclkRestored {t : Time} {i : Nat} {s : State} (hi : i ≤ 1)
    (hlost : (if i = 0 then s.power.lostA else s.power.lostB).isSome = true) : exec (.refclkRestored t i) s
      = .next (((s.begin t).setPower (s.power.restoring i t)).showClocks (if s.power.both.isSome then i == 1 else s.usesB)) := by
  have hgo : ¬(1 < i ∨ (if i = 0 then (s.begin t).power.lostA else (s.begin t).power.lostB).isNone = true) := by
    obtain ⟨b, hb⟩ := Option.isSome_iff_exists.mp hlost
    rw [show (if i = 0 then (s.begin t).power.lostA else (s.begin t).power.lostB) = some b from hb]
    rintro (h | h)
    · omega
    · cases h
  exact next_congr (if_neg hgo)

theorem State.selectClock_spec (v : Nat) (s : State) {u : State} (hu : u = State.selectClock v s) :
    u.rd E.refclkSel 0 = v ∧ (s.power.both.isSome = true → u.usesB = s.usesB) ∧
      (s.usesB = true → s.power.both = none → v = 0 → u.usesB = !s.steadyA) := by
  obtain ⟨w, hw⟩ : ∃ w : State, w = s.wr E.refclkSel 0 v := ⟨_, rfl⟩
  have huse : w.usesB = s.usesB := by rw [hw]; exact State.usesB_congr (State.rd_wr_of_entry _ _ (by decide))
  have hsel : w.rd E.refclkSel 0 = v := by rw [hw, State.rd_wr_same]
  have hshow : ∀ b, (w.showClocks b).rd E.refclkSel 0 = v := fun b => (State.rd_wr_of_entry _ _ (by decide)).trans hsel
  have hpower : w.power = s.power := by rw [hw]; rfl
  have hsteady : w.steadyA = s.steadyA := by rw [hw]; rfl
  have heq : u = if w.power.both.isSome ∨ (v == 1 || (v == 2 && w.power.lostA.isSome)) = w.usesB then w
      else if (v == 1 || (v == 2 && w.power.lostA.isSome)) = true then (if w.power.lostB.isNone then w.showClocks true else w)
      else if w.steadyA then w.showClocks false else w := by
    rw [hu, hw]
    rfl
  refine ⟨?_, fun hboth => ?_, fun hB hnone hv => ?_⟩
  · rw [heq]
    split
    · exact hsel
    · split
      · split
        · exact hshow true
        · exact hsel
      · split
        · exact hshow false
        · exact hsel
  · rw [heq, if_pos (Or.inl (by rw [hpower, hboth])), huse]
  · subst hv
    rw [heq, hpower, hnone, huse, hB, hsteady, if_neg (by simp), if_neg (by simp)]
    cases s.steadyA with
    | true => exact State.usesB_showClocks _ _
    | false => exact huse.trans hB

/-! Idle clocks (R530, R531). -/

theorem mem_enginePorts {d p : Nat} (h : p ∈ enginePorts d) : p / 128 = d := by
  obtain ⟨k, hk, rfl⟩ := List.mem_map.mp h
  have := List.mem_range.mp hk
  omega

theorem exec_switchClockIdle {t : Time} {d : Nat} {s : State} (hd : d < 8) (hon : s.rd E.domainState d = 1)
    (hports : ∀ p, p / 128 = d → s.rd E.portState p ≠ 2 ∧ (s.port p).okSince = none) (hframes : ∀ f ∈ s.net.frames, f.die ≠ d) :
    exec (.switchClockIdle t d) s = .next ((s.begin t).wr E.domainState d 0) := by
  have hidle : ¬((enginePorts d).any (fun p => s.rd E.portState p == 2 || (s.port p).okSince.isSome)
      || s.net.frames.any (fun (f : Stored) => f.die == d)) = true := by
    rw [Bool.or_eq_true, List.any_eq_true, List.any_eq_true]
    rintro (⟨p, hp, hb⟩ | ⟨f, hf, hb⟩)
    · obtain ⟨hst, hok⟩ := hports p (mem_enginePorts hp)
      rw [hok, beq_eq_false_iff_ne.mpr hst] at hb
      cases hb
    · exact hframes f hf (beq_iff_eq.mp hb)
  have hgo : ¬(8 ≤ d ∨ s.rd E.domainState d ≠ 1 ∨ ((enginePorts d).any (fun p => s.rd E.portState p == 2 || (s.port p).okSince.isSome)
      || s.net.frames.any (fun (f : Stored) => f.die == d)) = true) := by
    rintro (h | h | h)
    · omega
    · exact h hon
    · exact hidle h
  exact next_congr (if_neg hgo)

theorem exec_keeperCoreIdle {t : Time} {s : State} (hon : s.rd E.domainState (18 + s.keeper) = 1) (hwaiting : s.mgmt.waiting = [])
    (hleds : s.coll.leds = []) (hpush : ∀ q, q < 8 → s.pushes q = true → (s.nq q).records.length ≤ (s.nq q).pushed) :
    exec (.keeperCoreIdle t) s = .next ((s.begin t).wr E.domainState (18 + s.keeper) 2) := by
  have hnone : ¬(List.range 8).any (fun q => s.pushes q && decide ((s.nq q).pushed < (s.nq q).records.length)) = true := by
    rw [List.any_eq_true]
    rintro ⟨q, hq, hb⟩
    obtain ⟨hp, hlt⟩ := Bool.and_eq_true_iff.mp hb
    have := hpush q (List.mem_range.mp hq) hp
    have := of_decide_eq_true hlt
    omega
  have hgo : ¬(s.rd E.domainState (18 + s.keeper) ≠ 1 ∨ (!s.mgmt.waiting.isEmpty) = true
      ∨ (List.range 8).any (fun q => s.pushes q && decide ((s.nq q).pushed < (s.nq q).records.length)) = true
      ∨ (!s.coll.leds.isEmpty) = true) := by
    rw [hwaiting, hleds]
    rintro (h | h | h | h)
    · exact h hon
    · cases h
    · exact hnone h
    · cases h
  exact next_congr (if_neg hgo)

/-! Temperatures (R542-R545). -/

theorem State.feedAll_nil (s : State) : s.feedAll [] = s :=
  List.foldlRecOn (motive := fun u : State => u = s) _ _ rfl fun _ hu _ _ => hu

theorem exec_tempSample_die (t : Time) (d : Nat) (x : Int) (s : State) :
    exec (.tempSample t [(d, x)] [] [] []) s = .next ((s.begin t).readDie d x) :=
  next_congr (congrArg (fun u : State => u.readDie d x) (State.feedAll_nil _))

theorem State.warnDie_throttles {d : Nat} {v : Int} {s : State} (h8 : 8 ≤ d) (h18 : d < 18) (hv : 1680 ≤ v)
    (hcool : s.power.warm.contains d = false) : (s.warnDie d v).rd E.throttled (d - 8) = 1 := by
  have heq : s.warnDie d v = (((if 8 ≤ d ∧ d < 18 then s.wr E.throttled (d - 8) 1 else s).setWarm d true).raise 0x2006 1
      (if 20 ≤ d then d - 20 else d) [Item.v 16 d, Item.v 32 (wrapInt 32 v)]) :=
    if_pos ⟨hv, by rw [hcool]; rfl⟩
  rw [heq, State.rd_raise_of_entry _ _ _ _ _ (by omega) (by decide), if_pos ⟨h8, h18⟩, State.setWarm, State.rd_setPower, State.rd_wr_same]

theorem State.warnDie_releases {d : Nat} {v : Int} {s : State} (h8 : 8 ≤ d) (h18 : d < 18) (hv : v ≤ 1600)
    (hwarm : s.power.warm.contains d = true) : (s.warnDie d v).rd E.throttled (d - 8) = 0 := by
  have heq : s.warnDie d v = (((if 8 ≤ d ∧ d < 18 then s.wr E.throttled (d - 8) 0 else s).setWarm d false).raise 0x2007 0
      (if 20 ≤ d then d - 20 else d) [Item.v 16 d, Item.v 32 (wrapInt 32 v)]) :=
    (if_neg (by omega)).trans (if_pos ⟨hv, hwarm⟩)
  rw [heq, State.rd_raise_of_entry _ _ _ _ _ (by omega) (by decide), if_pos ⟨h8, h18⟩, State.setWarm, State.rd_setPower, State.rd_wr_same]

theorem State.warnDie_between {d : Nat} {v : Int} {s : State} (hlo : 1600 < v) (hhi : v < 1680) : s.warnDie d v = s :=
  (if_neg (by omega)).trans (if_neg (by omega))

/-! The TAP (R564). -/

theorem exec_jtagInstruction {t : Time} {i data pins : Nat} {s : State} (hvio : s.power.vio = true) (hvaon : s.power.vaon = true) :
    exec (.jtagInstruction t i data pins) s = .next (((s.begin t).setPower { s.power with
      tap := s.tapActs i, preload := if s.tapActs i = 2 ∨ s.tapActs i = 3 then data else s.power.preload }).emit
      (.jtag (if s.tapActs i = 1 then s.rd E.jtagIdcode 0 else if s.tapActs i = 2 ∨ s.tapActs i = 3 then pins else 0))) := by
  have hgo : ¬((!(s.begin t).power.vio) = true ∨ (!(s.begin t).power.vaon) = true) := by
    rw [show (s.begin t).power.vio = true from hvio, show (s.begin t).power.vaon = true from hvaon]
    decide
  exact next_congr (if_neg hgo)

theorem exec_regulatorFault {t : Time} {d n : Nat} {ok : Bool} {s : State} (hd : d < 20) :
    let w := ((s.begin t).bump32 E.phaseFaults d 1).raise 0x200C 1 31 [.v 16 d, .v 32 n]
    exec (.regulatorFault t d n ok) s = .next (if ok then w else w.excludeDie d 8) := by
  exact next_congr (if_neg (by omega))

theorem exec_refclkHoldExpiry {t b : Time} {s : State} (hboth : s.power.both = some b) :
    exec (.refclkHoldExpiry t) s = .next (if b + 10 * ms ≤ t then (s.begin t).deviceReset 7 else s.begin t) := by
  have hboth' : (s.begin t).power.both = some b := hboth
  simp only [exec, execRefclkHoldExpiry, hboth']

theorem exec_powerMeasure (t : Time) (vin va vio p : Nat) (l : List Nat) (s : State) {u : State}
    (hu : u = (s.begin t).measuredPower vin va vio p l) :
    exec (.powerMeasure t vin va vio p l) s = .next (if u.rd E.powerLimit 0 < p then u.raiseLim sec 0 0x200B 1 31 [.v 32 p] else u) := by
  rw [hu]
  rfl

theorem State.rd_measuredPower_limit (s : State) (vin va vio p : Nat) (l : List Nat) :
    (s.measuredPower vin va vio p l).rd E.powerLimit 0 = s.rd E.powerLimit 0 := by
  obtain ⟨w, hw⟩ : ∃ w, w = (((s.readVin vin).wr E.vaonNow 0 va).wr E.vioNow 0 vio).wr E.powerNow 0 p := ⟨_, rfl⟩
  have heq : s.measuredPower vin va vio p l
      = ((List.range 6).foldl (fun (s : State) k => s.wr E.powerClass k (l.getD k 0)) w).raiseTo E.powerPeak 0 p := by
    rw [hw]
    rfl
  rw [heq, State.rd_raiseTo_other _ _ (by decide), (foldl_powerClass l w).1 _ (by decide), hw, State.rd_wr_of_entry _ _ (by decide),
    State.rd_wr_of_entry _ _ (by decide), State.rd_wr_of_entry _ _ (by decide), s.readVin_rd vin (by decide) (by decide)]

/-- Settles O57: each condition's state is the model's own, and what a notice adds touches none of the entries spoken of. -/
theorem powerClocksAndTemperature : Obligations.PowerClocksAndTemperature := by
  unfold Obligations.PowerClocksAndTemperature
  refine ⟨fun t vin s hbrace hsag => ?_, fun t vin b s hbrace => ?_, fun _ _ _ => rfl, fun t vin va vio p l s => ?_,
    fun t d n ok s hd => exec_regulatorFault hd, fun t i s hi hlost => ?_, fun t b s hboth => exec_refclkHoldExpiry hboth,
    fun t i s hi hlost => ?_, fun a v s ht => next_congr (State.writeOne_ok (rule := fun _ => .ok) (act := State.selectClock v) ht rfl), fun v s => State.selectClock_spec v s rfl,
    fun t d s hd hon hports hframes => exec_switchClockIdle hd hon hports hframes,
    fun t s hon hwaiting hleds hpush => exec_keeperCoreIdle hon hwaiting hleds hpush,
    fun t d x s _ => exec_tempSample_die t d x s,
    fun d v s h8 h18 => ⟨State.warnDie_throttles h8 h18, State.warnDie_releases h8 h18, State.warnDie_between⟩,
    fun t inside s => ⟨_, rfl, rfl, fun _ _ _ => rfl⟩, fun t i data pins s hvio hvaon => ?_⟩
  · exact ⟨_, exec_vinWarningEnter hbrace hsag, (s.begin t).entersBrace_spec t vin⟩
  · exact ⟨_, exec_vinWarningExit hbrace, (s.begin t).leavesBrace_spec vin⟩
  · obtain ⟨u, hu⟩ : ∃ u, u = (s.begin t).measuredPower vin va vio p l := ⟨_, rfl⟩
    refine ⟨u, ?_, State.measuredPower_spec (s.begin t) vin va vio p l hu⟩
    rw [exec_powerMeasure t vin va vio p l s hu, hu, State.rd_measuredPower_limit]
    rfl
  · exact ⟨exec_refclkFailover_both hi hlost, exec_refclkFailover_over hi hlost⟩
  · obtain ⟨hback, hboth⟩ := s.power.restoring_spec i t
    exact ⟨_, exec_refclkRestored hi hlost, hback, hboth, State.usesB_showClocks _ _⟩
  · exact ⟨_, exec_jtagInstruction hvio hvaon, rfl, fun _ _ _ => rfl, rfl⟩

end Sys2Proof.Machine
end

section
/-!
A port that goes down leaves the modules as they were (R250-R276, R314, R401).
-/
namespace Sys2Proof.Machine

/-! Cells, owners and queued frames. -/

theorem Quiet.freeCell (s : State) (die pool c : Nat) : Quiet s (s.freeCell die pool c) := by
  unfold State.freeCell
  dsimp only
  split
  · exact ((Quiet.refl s).net _).trans (Quiet.wr _ _ _ (by decide))
  · exact Quiet.doubleFree ..

theorem Quiet.creditFreed (s : State) (inPort cls n : Nat) : Quiet s (s.creditFreed inPort cls n) := by
  unfold State.creditFreed
  split
  · exact (Quiet.refl s).net _
  · exact Quiet.refl s

theorem Quiet.freeFrame (s : State) (f : Stored) : Quiet s (s.freeFrame f) := by
  have hcells := Quiet.foldl (fun t c => Quiet.freeCell t f.die f.pool c) f.cells s
  have hheld : ∀ u, Quiet u (u.letGo f.held) := Quiet.foldl (fun t h => Quiet.holdBy t h _) f.held
  unfold State.freeFrame
  dsimp only
  split
  · exact ((hcells.trans (Quiet.creditFreed ..)).trans (hheld _)).net _
  · exact (hcells.trans (hheld _)).net _

theorem Quiet.release (s : State) (id owner : Nat) : Quiet s (s.release id owner) := by
  have hdouble : ∀ src ctx, Quiet s ((s.bump E.doubleRelease 0 1).raise 0x5005 2 src ctx) := fun _ _ =>
    (Quiet.bump s _ _ (by decide)).trans (Quiet.raise ..)
  have hrest : ∀ g : Stored, Quiet s (if g.owners = [] ∧ g.localOwner = false then s.freeFrame g
      else { s with net := { s.net with frames := setFrame s.net.frames g } }) := fun g => by
    split
    · exact Quiet.freeFrame ..
    · exact (Quiet.refl s).net _
  unfold State.release
  split
  · exact hdouble _ _
  · dsimp only
    split
    · split
      · exact hdouble _ _
      · exact hrest _
    · split
      · exact hdouble _ _
      · exact hrest _

theorem Quiet.pathFault (s : State) (f : Mft) (die cause hop left : Nat) : Quiet s (s.pathFault f die cause hop left) := by
  have hsent : ∀ (due : Bool) n m ctx g, Quiet s (if due then
      (({ s with net := n }.bump E.pathFaultsSent 0 1).raiseLim ms die 0x5003 0 die ctx).originateTo 3 g else { s with net := m }) :=
    fun due n m ctx g => by
      split
      · exact ((((Quiet.refl s).net n).trans (Quiet.bump _ _ _ (by decide))).trans (Quiet.raiseLim ..)).trans (Quiet.originateAs ..)
      · exact (Quiet.refl s).net m
  unfold State.pathFault
  exact hsent _ _ _ _ _

theorem Quiet.dropRoute (s : State) (f : Mft) (inPort cause hop left : Nat) : Quiet s (s.dropRoute f inPort cause hop left) := by
  unfold State.dropRoute
  dsimp only
  split
  · exact Quiet.drop ..
  · exact (Quiet.drop ..).trans (Quiet.pathFault ..)

theorem Quiet.moveFrame (s : State) (f : Stored) (d : Desc) (p : Nat) (tg : Target) : Quiet s (s.moveFrame f d p tg) := by
  have hdet : ∀ (u : State) (b : Bool), Quiet u (if b then u.bump E.detoured 0 1 else u) := fun u b => by
    split
    · exact Quiet.bump u _ _ (by decide)
    · exact Quiet.refl u
  have hheld : ∀ u, Quiet u (u.holdAll tg.held) := Quiet.foldl (fun t h => Quiet.holdBy t h _) tg.held
  unfold State.moveFrame
  split
  · exact (Quiet.release ..).trans (Quiet.drop ..)
  · split
    · exact Quiet.release ..
    · exact (((((Quiet.bump s _ _ (by decide)).trans (hdet _ _)).trans (hheld _)).net _)).trans (Quiet.enqueue ..)

/-- A frame that finds no other port is dropped. -/
def State.failFrame (s : State) (f : Stored) (p : Nat) (d : Desc) (cause : Nat) : State :=
  let s := s.release f.id p
  match f.packet with
  | .mft m => if f.copy then s.drop .route f.inPort
    else s.dropRoute m f.inPort cause (if d.hopsIn = 0 then 0xFFFF else d.hop) d.hopsIn
  | .eth _ _ => s.drop .route f.inPort

theorem Quiet.failFrame (s : State) (f : Stored) (p : Nat) (d : Desc) (cause : Nat) : Quiet s (s.failFrame f p d cause) := by
  unfold State.failFrame
  dsimp only
  split
  · split
    · exact (Quiet.release ..).trans (Quiet.drop ..)
    · exact (Quiet.release ..).trans (Quiet.dropRoute ..)
  · exact (Quiet.release ..).trans (Quiet.drop ..)

/-- A frame sent around by a spray group, or dropped. -/
def State.sprayFrame (s : State) (f : Stored) (p : Nat) (d : Desc) (g : Nat) (det : Bool) (other : State → State) : State :=
  match s.resolveSpray (dieOf p) d.cls g with
  | (.ok tg, s) => s.moveFrame f d p { tg with det := det }
  | (_, s) => other s

theorem Quiet.sprayFrame (s : State) (f : Stored) (p : Nat) (d : Desc) (g : Nat) (det : Bool) {other : State → State}
    (ho : ∀ t, Quiet t (other t)) : Quiet s (s.sprayFrame f p d g det other) := by
  have hspray := Quiet.resolveSpray s (dieOf p) d.cls g
  unfold State.sprayFrame
  split
  next e => rw [e] at hspray; exact Quiet.trans hspray (Quiet.moveFrame ..)
  next e => rw [e] at hspray; exact Quiet.trans hspray (ho _)

/-- A frame sent around by a detour group where it may take one. -/
def State.detourFrame (s : State) (f : Stored) (p : Nat) (d : Desc) (g cause : Nat) : State :=
  if f.copy || d.detoured || f.packet.detoured || g == 0xFFFF then s.failFrame f p d cause
  else s.sprayFrame f p d g true (fun t => t.failFrame f p d 8)

theorem Quiet.detourFrame (s : State) (f : Stored) (p : Nat) (d : Desc) (g cause : Nat) : Quiet s (s.detourFrame f p d g cause) := by
  unfold State.detourFrame
  split
  · exact Quiet.failFrame ..
  · exact Quiet.sprayFrame _ _ _ _ _ _ fun t => Quiet.failFrame ..

theorem State.reexamine_found {s : State} {p : Nat} {d : Desc} {f : Stored} (h : findFrame s.net.frames d.frame = some f) :
    s.reexamine p d = match d.via with
      | .spray g => s.sprayFrame f p d g false (fun t =>
          if bit d.hop 13 && d.hop != 0xFFFF then t.detourFrame f p d (t.detourGroup d.hop) 3 else t.failFrame f p d 3)
      | .port dp => if dp then s.detourFrame f p d (s.rd E.detourGroup p) 1 else s.failFrame f p d 1
      | .circuit _ => s.failFrame f p d 1 := by
  unfold State.reexamine
  simp only [h]
  rfl

theorem Quiet.reexamine (s : State) (p : Nat) (d : Desc) : Quiet s (s.reexamine p d) := by
  cases h : findFrame s.net.frames d.frame with
  | none =>
    unfold State.reexamine
    simp only [h]
    exact Quiet.refl s
  | some f =>
    rw [State.reexamine_found h]
    split
    · refine Quiet.sprayFrame _ _ _ _ _ _ fun t => ?_
      split
      · exact Quiet.detourFrame ..
      · exact Quiet.failFrame ..
    · split
      · exact Quiet.detourFrame ..
      · exact Quiet.failFrame ..
    · exact Quiet.failFrame ..

theorem Quiet.abortSending (s : State) (p : Nat) : Quiet s (s.abortSending p) := by
  unfold State.abortSending
  dsimp only
  split
  · exact Quiet.refl s
  · exact ((Quiet.refl s).net _).trans ((Quiet.drop ..).trans (Quiet.release ..))

theorem Quiet.reportEmptyGroups (s : State) (p : Nat) : Quiet s (s.reportEmptyGroups p) := by
  refine Quiet.foldl (fun t g => ?_) _ _
  split
  · exact Quiet.raise ..
  · exact Quiet.refl t

theorem Quiet.flushAddrs (s : State) (vid port : Nat) : Quiet s (s.flushAddrs vid port) := by
  unfold State.flushAddrs
  dsimp only
  split
  · exact (Quiet.refl s).net _
  · exact ((Quiet.refl s).net _).trans (Quiet.bump _ _ _ (by decide))

/-! The source of time of a port that goes down. -/

theorem Quiet.setClock (s : State) (c : Clock) : Quiet s (s.setClock c) := Quiet.of_regs rfl rfl

theorem Quiet.showRoot (s : State) : Quiet s s.showRoot :=
  (Quiet.wr_other s _ (by decide) (by decide)).trans (Quiet.wr_other _ _ (by decide) (by decide))

theorem Quiet.setParent (s : State) (x : Option (Nat × Nat)) : Quiet s (s.setParent x) := by
  have hstate : ∀ (u : State) (v : Nat), Quiet u (u.wr E.timeState 0 v) := fun u v => Quiet.wr_other u v (by decide) (by decide)
  unfold State.setParent
  dsimp only
  split
  · split
    · exact ((Quiet.setClock ..).trans ((hstate _ _).trans (Quiet.raise ..))).trans (Quiet.showRoot _)
    · exact (Quiet.setClock ..).trans (Quiet.showRoot _)
  · split
    · exact ((Quiet.setClock ..).trans (hstate _ _)).trans (Quiet.showRoot _)
    · exact (Quiet.setClock ..).trans (Quiet.showRoot _)

theorem Quiet.loseParent (s : State) : Quiet s s.loseParent := (Quiet.setParent ..).trans (Quiet.raise ..)

theorem Quiet.checkParent (s : State) : Quiet s s.checkParent := by
  unfold State.checkParent
  split
  · split
    · exact Quiet.loseParent s
    · exact Quiet.showRoot s
  · exact Quiet.showRoot s

theorem State.ptpPorts_lt (s : State) : ∀ p ∈ s.ptpPorts, p < 2 ^ 24 := by
  intro p hp
  unfold State.ptpPorts at hp
  dsimp only at hp
  rcases List.mem_append.mp hp with hp | hp
  · rcases List.mem_append.mp hp with hp | hp
    · obtain ⟨x, -, rfl⟩ := List.mem_map.mp hp
      exact Nat.mod_lt _ (by decide)
    · obtain ⟨-, hlt⟩ := List.mem_filter.mp hp
      have := of_decide_eq_true (Bool.and_eq_true_iff.mp hlt).1
      omega
  · exact (by decide : ∀ p ∈ [1024, 1025], p < 2 ^ 24) p hp

theorem Quiet.ptpEval (s : State) : Quiet s s.ptpEval := by
  refine Quiet.trans ?_ (Quiet.checkParent _)
  refine List.foldlRecOn (motive := fun u : State => Quiet s u) _ _ (Quiet.refl s) fun u hu p hp => ?_
  have hstate : ∀ (t : State) (v : Nat), Quiet t (t.wr E.ptpPortState p v) := fun t v => Quiet.wr_other t v (by decide) (s.ptpPorts_lt p hp)
  refine hu.trans ?_
  dsimp only
  split
  · split
    · exact (Quiet.setClock ..).trans (hstate _ _)
    · exact hstate _ _
  · exact (Quiet.setClock ..).trans (hstate _ _)

theorem Quiet.timePortDown (s : State) (p : Nat) : Quiet s (s.timePortDown p) := by
  unfold State.timePortDown
  dsimp only
  split
  · exact (Quiet.setClock ..).trans (Quiet.ptpEval _)
  · split
    · exact (Quiet.setClock ..).trans (Quiet.loseParent _)
    · exact Quiet.setClock ..

/-! A port that goes down (R274). -/

theorem Quiet.setRate (s : State) (p rate waves : Nat) : Quiet s (s.setRate p rate waves) :=
  ((Quiet.wr s _ _ (by decide)).trans (Quiet.wr _ _ _ (by decide))).trans (Quiet.wr _ _ _ (by decide))

theorem Quiet.setNarrow (s : State) (p : Nat) (n : Option Narrow) : Quiet s (s.setNarrow p n) := Quiet.of_regs rfl rfl

theorem Quiet.portDown (s : State) (p st cause : Nat) : Quiet s (s.portDown p st cause) := by
  have hstate : Quiet s (((s.wr E.portState p st).setRate p 0 0).setNarrow p none) :=
    ((Quiet.wr s _ _ (by decide)).trans (Quiet.setRate ..)).trans (Quiet.setNarrow ..)
  have hframes : ∀ (l : List Desc) (u : State), Quiet u (l.foldl (fun s d => s.reexamine p d) u) := Quiet.foldl fun t d => Quiet.reexamine ..
  unfold State.portDown
  dsimp only
  split
  · exact hstate
  · refine Quiet.trans ?_ (Quiet.timePortDown ..)
    refine Quiet.trans ?_ (Quiet.flushAddrs ..)
    refine Quiet.trans ?_ (Quiet.reportEmptyGroups ..)
    refine Quiet.trans ?_ (Quiet.foldl (fun t c => (Quiet.setCircQueue ..).trans (hframes _ _)) _ _)
    refine Quiet.trans ?_ (Quiet.foldl (fun t k => (Quiet.setQueue ..).trans (hframes _ _)) _ _)
    exact hstate.trans ((Quiet.raise ..).trans (Quiet.abortSending ..))

end Sys2Proof.Machine
end

section
/-!
The stitch flit, stripes and channels (R363-R365, R373-R375).
-/
namespace Sys2Proof.Machine

/-! The stitch flit (R373). -/

theorem crc16Step_lt {c : Nat} (h : c < 65536) : crc16Step c < 65536 := by
  have hshift : (c <<< 1) % 65536 < 2 ^ 16 := Nat.mod_lt _ (by decide)
  unfold crc16Step
  split
  · exact Nat.xor_lt_two_pow hshift (by decide)
  · rw [Nat.shiftLeft_eq]
    omega

theorem iter_crc16Step_lt (n : Nat) {c : Nat} (h : c < 65536) : iter crc16Step n c < 65536 := by
  induction n generalizing c with
  | zero => exact h
  | succ n ih => exact ih (crc16Step_lt h)

theorem crc16_lt (l : List Byte) : crc16 l < 65536 := by
  refine List.foldlRecOn (motive := fun c => c < 65536) l (fun c b => iter crc16Step 8 (c ^^^ (b.toNat <<< 8))) (by decide) fun c hc b _ => ?_
  refine iter_crc16Step_lt 8 (Nat.xor_lt_two_pow (n := 16) hc ?_)
  have := b.isLt
  rw [Nat.shiftLeft_eq]
  omega

/-- A flit's header as one number. -/
def StitchFlit.head (f : StitchFlit) : Nat :=
  pack [(2, f.type), (10, f.seq), (10, f.ack), (1, b2n f.nak), (8, f.credit), (1, 0)]

theorem StitchFlit.bytes_eq {f : StitchFlit} (h : f.payload.length = 250) :
    f.bytes = toBytes 4 f.head ++ f.payload ++ toBytes 2 (crc16 (toBytes 4 f.head ++ f.payload)) := by
  unfold StitchFlit.bytes StitchFlit.head
  dsimp only
  rw [h, Nat.sub_self, List.replicate_zero, List.append_nil]

theorem StitchFlit.field_head {f : StitchFlit} (h : f.payload.length = 250) : field f.bytes 0 4 = f.head := by
  have hlt : f.head < 2 ^ (8 * 4) := pack_lt _
  rw [StitchFlit.bytes_eq h, List.append_assoc, field_toBytes, Nat.mod_eq_of_lt hlt]

theorem StitchFlit.slice_payload {f : StitchFlit} (h : f.payload.length = 250) : slice f.bytes 4 250 = f.payload := by
  rw [StitchFlit.bytes_eq h]
  exact slice_append _ _ _ _ _ (toBytes_length 4 _) h

theorem StitchFlit.crc_holds {f : StitchFlit} (h : f.payload.length = 250) : crc16 (f.bytes.take 254) = field f.bytes 254 2 := by
  have hlen : (toBytes 4 f.head ++ f.payload).length = 254 := by rw [List.length_append, toBytes_length, h]
  have hlt : crc16 (toBytes 4 f.head ++ f.payload) < 2 ^ (8 * 2) := crc16_lt _
  have hslice : slice f.bytes 254 2 = toBytes 2 (crc16 (toBytes 4 f.head ++ f.payload)) := by
    rw [StitchFlit.bytes_eq h, ← List.append_nil (_ ++ toBytes 2 _)]
    exact slice_append _ _ [] 254 2 hlen (toBytes_length 2 _)
  rw [field, hslice, ofBytes_toBytes, Nat.mod_eq_of_lt hlt, StitchFlit.bytes_eq h, List.take_append_of_le_length (by rw [hlen]),
    List.take_of_length_le (by rw [hlen])]

theorem StitchFlit.bytes_length {f : StitchFlit} (h : f.payload.length = 250) : f.bytes.length = 256 := by
  rw [StitchFlit.bytes_eq h, List.length_append, List.length_append, toBytes_length, toBytes_length, h]

theorem stitchOf_bytes {f : StitchFlit} (htype : f.type ≤ 2) (hseq : f.seq < 1024) (hack : f.ack < 1024) (hcredit : f.credit < 256)
    (hlen : f.payload.length = 250) : stitchOf f.bytes = some f := by
  have hty : bits f.head 31 30 = f.type := bits_pack_of_lt [] _ rfl rfl (by omega)
  have hse : bits f.head 29 20 = f.seq := bits_pack_of_lt [(2, f.type)] _ rfl rfl hseq
  have hac : bits f.head 19 10 = f.ack := bits_pack_of_lt [(2, f.type), (10, f.seq)] _ rfl rfl hack
  have hna : bit f.head 9 = f.nak := bit_pack [(2, f.type), (10, f.seq), (10, f.ack)] f.nak _ rfl
  have hcr : bits f.head 8 1 = f.credit :=
    bits_pack_of_lt [(2, f.type), (10, f.seq), (10, f.ack), (1, b2n f.nak)] _ rfl rfl hcredit
  have hre : bit f.head 0 = false := bit_pack [(2, f.type), (10, f.seq), (10, f.ack), (1, b2n f.nak), (8, f.credit)] false [] rfl
  have hsound : ¬(f.bytes.length ≠ 256 ∨ crc16 (f.bytes.take 254) ≠ field f.bytes 254 2 ∨ bits (field f.bytes 0 4) 31 30 = 3
      ∨ bit (field f.bytes 0 4) 0 = true) := by
    rw [f.field_head hlen, hty, hre]
    rintro (h | h | h | h)
    · exact h (f.bytes_length hlen)
    · exact h (f.crc_holds hlen)
    · omega
    · cases h
  unfold stitchOf
  dsimp only
  rw [if_neg hsound, f.field_head hlen, hty, hse, hac, hna, hcr, f.slice_payload hlen]

theorem Channel.take_spec (c : Channel) (f : StitchFlit) : c.take none = (c, true) ∧ (f.type ≠ 1 → c.take (some f) = (c, false)) ∧
    (f.type = 1 → f.seq = c.want → c.take (some f) = ({ c with want := (c.want + 1) % 1024 }, false)) ∧
    (f.type = 1 → f.seq ≠ c.want → c.take (some f) = (c, true)) :=
  ⟨rfl, fun h => if_pos h, fun h hs => (if_neg (not_not.mpr h)).trans (if_pos hs), fun h hs => (if_neg (not_not.mpr h)).trans (if_neg hs)⟩

/-! Stripes (R364, R365). -/

theorem FlitLane.send_next (k : FlitLane) {l : List Nat} (h : l ≠ []) : (k.send l).next = (k.next + 1) % 2 ^ 24 := by
  have hplace : ∃ x, nextPlace l k.place = some x := by
    unfold nextPlace
    split
    next x _ => exact ⟨x, rfl⟩
    · exact ⟨l.head h, List.head?_eq_some_head h⟩
  obtain ⟨x, hx⟩ := hplace
  unfold FlitLane.send
  rw [hx]

theorem FlitLane.arrive_wanted {k : FlitLane} (h : k.held = []) :
    (k.arrive k.want).want = (k.want + 1) % 2 ^ 24 ∧ (k.arrive k.want).held = [] := by
  have hin : (k.want + 2 ^ 24 - k.want) % 2 ^ 24 < 4096 ∧ k.held.contains k.want = false := by
    rw [h, Nat.add_sub_cancel_left]
    exact ⟨by decide, rfl⟩
  have heq : k.arrive k.want = FlitLane.deliver 1 { k with held := [k.want] } := by
    unfold FlitLane.arrive
    rw [if_pos hin, h]
    rfl
  have hdeliver : FlitLane.deliver 1 { k with held := [k.want] } = { k with want := (k.want + 1) % 2 ^ 24, held := [k.want].erase k.want } :=
    if_pos (by simp)
  rw [heq, hdeliver]
  exact ⟨rfl, by simp⟩

theorem FlitLane.arrive_later {k : FlitLane} {n : Nat} (_hw : k.want < 2 ^ 24) (hn : n ≠ 0) (hlt : n < 4096) (h : k.held = []) :
    (k.arrive ((k.want + n) % 2 ^ 24)).want = k.want ∧ (k.arrive ((k.want + n) % 2 ^ 24)).held = [(k.want + n) % 2 ^ 24] := by
  obtain ⟨x, hx⟩ : ∃ x, x = (k.want + n) % 2 ^ 24 := ⟨_, rfl⟩
  have hne : x ≠ k.want := by omega
  have hin : (x + 2 ^ 24 - k.want) % 2 ^ 24 < 4096 ∧ k.held.contains x = false := by
    rw [h]
    exact ⟨by omega, rfl⟩
  have heq : k.arrive x = FlitLane.deliver 1 { k with held := [x] } := by
    unfold FlitLane.arrive
    rw [if_pos hin, h]
    rfl
  have hdeliver : FlitLane.deliver 1 { k with held := [x] } = { k with held := [x] } := if_neg (by simpa using hne.symm)
  rw [← hx, heq, hdeliver]
  exact ⟨rfl, rfl⟩

theorem State.mem_roundPlaces {s : State} {n x : Nat} : x ∈ s.roundPlaces n ↔ ∃ m ∈ engineModules n, s.rd E.moduleState m = 2 ∧
    (x = 2 * m ∨ (x = 2 * m + 1 ∧ s.rd E.moduleWidth m = 64)) := by
  unfold State.roundPlaces
  rw [List.mem_flatMap]
  refine exists_congr fun m => and_congr_right fun _ => ?_
  split
  case isTrue hst => split <;> simp_all
  case isFalse hst => simp [hst]

theorem State.roundPlaces_spec {s : State} {n k : Nat} (hst : s.rd E.moduleState (32 * n + k) = 2) (hk : k < 32) :
    2 * (32 * n + k) ∈ s.roundPlaces n ∧ (2 * (32 * n + k) + 1 ∈ s.roundPlaces n ↔ s.rd E.moduleWidth (32 * n + k) = 64) := by
  have hmem : 32 * n + k ∈ engineModules n := List.mem_map.mpr ⟨k, List.mem_range.mpr hk, rfl⟩
  refine ⟨State.mem_roundPlaces.mpr ⟨_, hmem, hst, Or.inl rfl⟩, fun h => ?_, fun h =>
    State.mem_roundPlaces.mpr ⟨_, hmem, hst, Or.inr ⟨rfl, h⟩⟩⟩
  obtain ⟨m, -, -, hm | ⟨hm, hw⟩⟩ := State.mem_roundPlaces.mp h
  · omega
  · rw [show 32 * n + k = m by omega]
    exact hw

/-! Channels (R374-R377). -/

theorem State.channel_setChannel_same (s : State) (p c : Nat) (x : Channel) : (s.setChannel p c x).channel p c = x := Tab.getD_set_same ..

theorem State.channel_setChannel_other (s : State) {p c q d : Nat} (x : Channel) (h : 8 * q + d ≠ 8 * p + c) :
    (s.setChannel p c x).channel q d = s.channel q d := Tab.getD_set_other _ _ _ h

theorem State.channelFor_inService {s : State} {p : Nat} (src : Nat) (h : ∀ c, c < bundleSize (p / 20) (p % 20) → (s.channel p c).state = 0)
    (hpos : 0 < bundleSize (p / 20) (p % 20)) : s.channelFor p src = some (src % bundleSize (p / 20) (p % 20)) := by
  have hall : s.bundleIn p 0 = List.range (bundleSize (p / 20) (p % 20)) :=
    List.filter_eq_self.mpr fun c hc => beq_iff_eq.mpr (h c (List.mem_range.mp hc))
  have hlt : src % bundleSize (p / 20) (p % 20) < bundleSize (p / 20) (p % 20) := Nat.mod_lt _ hpos
  unfold State.channelFor
  dsimp only
  rw [hall, List.length_range, List.getElem?_range hlt]

/-- Every channel is in the same state in two states of the device, with the same failed wires, tested since the same time, and
the dictionary is the same. -/
structure SameChannels (s t : State) : Prop where
  state : ∀ p c, (t.channel p c).state = (s.channel p c).state
  bad : ∀ p c, (t.channel p c).bad = (s.channel p c).bad
  since : ∀ p c, (t.channel p c).since = (s.channel p c).since

theorem SameChannels.of_links {s t : State} (h : t.links = s.links) : SameChannels s t := by
  have hch : ∀ p c, t.channel p c = s.channel p c := fun p c => by rw [State.channel, State.channel, h]
  exact ⟨fun p c => by rw [hch], fun p c => by rw [hch], fun p c => by rw [hch]⟩

theorem SameChannels.trans {s t u : State} (h : SameChannels s t) (k : SameChannels t u) : SameChannels s u :=
  ⟨fun p c => (k.state p c).trans (h.state p c), fun p c => (k.bad p c).trans (h.bad p c), fun p c => (k.since p c).trans (h.since p c)⟩

theorem State.channel_setChannel {α : Type} (g : Channel → α) (s : State) (p c : Nat) {x : Channel} (h : g x = g (s.channel p c)) (q d : Nat) :
    g ((s.setChannel p c x).channel q d) = g (s.channel q d) := by
  by_cases hk : 8 * q + d = 8 * p + c
  · have hq : ∀ u : State, u.channel q d = u.channel p c := fun u => congrArg (fun k => u.links.channels.getD k {}) hk
    rw [hq, hq, State.channel_setChannel_same, h]
  · rw [State.channel_setChannel_other s x hk]

theorem SameChannels.setChannel (s : State) (p c : Nat) {x : Channel} (hstate : x.state = (s.channel p c).state)
    (hbad : x.bad = (s.channel p c).bad) (hsince : x.since = (s.channel p c).since) : SameChannels s (s.setChannel p c x) :=
  ⟨s.channel_setChannel Channel.state p c hstate, s.channel_setChannel Channel.bad p c hbad, s.channel_setChannel Channel.since p c hsince⟩

theorem State.reassign_spec (s : State) (p : Nat) : SameChannels s (s.reassign p) ∧ (s.reassign p).regs = s.regs := by
  refine List.foldlRecOn (motive := fun u : State => SameChannels s u ∧ u.regs = s.regs) _ _ ⟨SameChannels.of_links rfl, rfl⟩ fun u hu c _ => ?_
  refine List.foldlRecOn (motive := fun u : State => SameChannels s u ∧ u.regs = s.regs) _ _ hu fun v hv x _ => ?_
  obtain ⟨hsame, hregs⟩ := hv
  split
  · exact ⟨hsame, hregs⟩
  · split
    · exact ⟨hsame, hregs⟩
    · have hold : ∀ l, SameChannels v (v.setChannel p c { v.channel p c with owed := l }) := fun _ => SameChannels.setChannel v p c rfl rfl rfl
      have hnew : ∀ (u : State) (d k n : Nat), SameChannels u (u.setChannel p d ((u.channel p d).carry k n)) := fun u d _ _ =>
        SameChannels.setChannel u p d rfl rfl rfl
      exact ⟨hsame.trans ((hold _).trans (hnew _ _ _ _)), hregs⟩

theorem State.showPair_links (s : State) (p : Nat) : (s.showPair p).links = s.links := by
  unfold State.showPair
  dsimp only
  split <;> rfl

theorem State.rd_showPair_tests (s : State) {p : Nat} (hp : p < 400) : (s.showPair p).rd E.pairTestsClean p = s.rd E.pairTestsClean p := by
  have hshown : ∀ n k, ((s.wr E.pairChannels p n).wr E.pairSparesUsed p k).rd E.pairTestsClean p = s.rd E.pairTestsClean p := fun n k => by
    rw [State.rd_wr_other _ _ (elKey_ne_of_entry (by decide) p), State.rd_wr_other _ _ (elKey_ne_of_entry (by decide) p)]
  unfold State.showPair
  dsimp only
  split
  · rw [State.rd_wr_other _ _ (elKey_ne_of_entry_ne (by decide) (by omega) (by split <;> omega)), hshown]
  · exact hshown _ _

theorem State.raise_links (s : State) (code sev src : Nat) (ctx : List Item) : (s.raise code sev src ctx).links = s.links := by
  rw [(State.raise_noted s code sev src ctx).eq]

/-- The links, their modules and channels among them, are the same in two states. -/
def SameLinks (s t : State) : Prop := t.links = s.links

theorem SameLinks.wr {s t : State} {e el : Nat} (v : Nat) (h : SameLinks s t) : SameLinks s (t.wr e el v) := h

theorem SameLinks.free {s t : State} (h : SameLinks s t) : SameLinks s t.free.2 := h

theorem SameLinks.raise {s t : State} (code sev src : Nat) (ctx : List Item) (h : SameLinks s t) : SameLinks s (t.raise code sev src ctx) :=
  (State.raise_links t code sev src ctx).trans h

theorem State.publishCapacity_sameLinks (s : State) : SameLinks s s.publishCapacity := by
  have hself : SameLinks s s := rfl
  unfold State.publishCapacity
  dsimp only [State.bump32]
  refine SameLinks.raise _ _ _ _ ?_
  refine SameLinks.free ?_
  repeat refine SameLinks.wr _ ?_
  exact hself

end Sys2Proof.Machine
end

section
/-!
The test of a stitch channel and its failed wires (R374-R377).
-/
namespace Sys2Proof.Machine

/-! Replays and the test of a channel (R374-R377). -/

section Channels
variable {t : Time} {p c n : Nat} {s : State}

theorem bundleHas_lt (h : bundleHas p c = true) : p < 400 := of_decide_eq_true (Bool.and_eq_true_iff.mp h).1

/-- The replays of a channel within the last 100 µs. -/
def Channel.recent (x : Channel) (t : Time) : List Time := x.naks.filter (fun y => decide (t < y + 100 * us))

theorem exec_stitchNak (h : bundleHas p c = true) : exec (.stitchNak t p c n) s = .next (((s.begin t).bump E.pairReplays p n).setChannel p c
    { (s.channel p c).resend n with naks := (s.channel p c).recent t ++ [t] }) :=
  next_congr (if_neg (by rw [h]; decide))

/-- A channel set to a state with its failed wires, and the sources it carried sent on their new channels. -/
def State.putChannel (s : State) (p c : Nat) (x : Channel) : State := (s.setChannel p c x).reassign p

theorem State.putChannel_spec (s : State) (p c : Nat) (x : Channel) : ((s.putChannel p c x).channel p c).state = x.state ∧
    ((s.putChannel p c x).channel p c).bad = x.bad ∧ ((s.putChannel p c x).channel p c).since = x.since ∧
    (∀ d, d ≠ c → ((s.putChannel p c x).channel p d).state = (s.channel p d).state) ∧ (s.putChannel p c x).regs = s.regs := by
  obtain ⟨hsame, hregs⟩ := (s.setChannel p c x).reassign_spec p
  have hset := s.channel_setChannel_same p c x
  refine ⟨(hsame.state p c).trans (by rw [hset]), (hsame.bad p c).trans (by rw [hset]), (hsame.since p c).trans (by rw [hset]), fun d hd => ?_, hregs⟩
  refine (hsame.state p d).trans ?_
  rw [s.channel_setChannel_other x (by omega)]

theorem State.channel_showPair (s : State) (p q d : Nat) : (s.showPair p).channel q d = s.channel q d := by
  rw [State.channel, State.showPair_links, State.channel]

theorem exec_channelTestStart_few (hfew : ((s.channel p c).recent t).length ≤ 16) :
    exec (.channelTestStart t p c) s = .next (s.begin t) :=
  next_congr (if_pos (Or.inr (Or.inr hfew)))

theorem exec_channelTestStart_many (h : bundleHas p c = true) (hst : (s.channel p c).state = 0) (hmany : 16 < ((s.channel p c).recent t).length) :
    exec (.channelTestStart t p c) s
      = .next (((s.begin t).putChannel p c { s.channel p c with state := 1, since := t, naks := [] }).showPair p) := by
  refine next_congr (if_neg ?_)
  rintro (h' | h' | h')
  · rw [h] at h'
    cases h'
  · exact h' hst
  · exact absurd h' (Nat.not_le.mpr hmany)

/-- The failed wires of a channel after a test. -/
def Channel.badAfter (x : Channel) (l : List Nat) : List Nat := (l.filter (fun w => decide (w < 68))).foldl (fun b w => insertNat w b) x.bad

theorem exec_channelTestDone {l : List Nat} (h : bundleHas p c = true) (hst : (s.channel p c).state = 1) (hlate : (s.channel p c).since + 4 * us ≤ t) :
    exec (.channelTestDone t p c l) s = .next (if (s.channel p c).badAfter l = (s.channel p c).bad then
      ((((s.begin t).putChannel p c { s.channel p c with state := 0 }).showPair p).bump E.pairTestsClean p 1)
      else (s.begin t).channelFails p c ((s.channel p c).badAfter l)) := by
  refine next_congr (if_neg ?_)
  rintro (h' | h' | h')
  · rw [h] at h'
    cases h'
  · exact h' hst
  · exact absurd h' (Nat.not_lt.mpr hlate)

theorem State.testClean_spec (w : State) {x : Channel} (hp : p < 400) :
    ((((w.putChannel p c x).showPair p).bump E.pairTestsClean p 1).channel p c).state = x.state ∧
    ((((w.putChannel p c x).showPair p).bump E.pairTestsClean p 1).channel p c).bad = x.bad ∧
    (((w.putChannel p c x).showPair p).bump E.pairTestsClean p 1).rd E.pairTestsClean p = (w.rd E.pairTestsClean p + 1) % 2 ^ 64 := by
  obtain ⟨hstate, hbad, -, -, hregs⟩ := w.putChannel_spec p c x
  have hch : (((w.putChannel p c x).showPair p).bump E.pairTestsClean p 1).channel p c = (w.putChannel p c x).channel p c :=
    State.channel_showPair _ _ _ _
  rw [hch, State.rd_bump_same, State.rd_showPair_tests _ hp, State.rd_congr hregs]
  exact ⟨hstate, hbad, rfl⟩

theorem State.channelFails_repaired (w : State) {bad : List Nat} (h : bad.length ≤ 4) :
    ((w.channelFails p c bad).channel p c).state = 0 ∧ ((w.channelFails p c bad).channel p c).bad = bad := by
  obtain ⟨x, hx⟩ : ∃ x, x = { w.channel p c with state := 0, bad := bad, naks := [] } := ⟨_, rfl⟩
  obtain ⟨hstate, hbad, -⟩ := w.putChannel_spec p c x
  obtain ⟨u, hu⟩ : ∃ u, u = (w.putChannel p c x).showPair p := ⟨_, rfl⟩
  obtain ⟨new, hnew⟩ : ∃ new, new = bad.filter (fun y => !(w.channel p c).bad.contains y) := ⟨_, rfl⟩
  obtain ⟨v, hv⟩ : ∃ v, v = new.foldl (fun (s : State) y => s.raise 0x3406 0 31 [.v 16 p, .v 16 c, .v 16 y, .v 32 (sparesLeft bad)]) u := ⟨_, rfl⟩
  have heq : w.channelFails p c bad = if new.isEmpty then v else v.publishCapacity := by
    rw [hv, hu, hnew, hx]
    exact if_neg (Nat.not_lt.mpr h)
  have hraised : v.links = u.links := by
    rw [hv]
    exact List.foldlRecOn (motive := fun y : State => y.links = u.links) _ _ rfl fun y hy _ _ => (State.raise_links y _ _ _ _).trans hy
  have hlinks : (w.channelFails p c bad).links = u.links := by
    rw [heq]
    split
    · exact hraised
    · exact (State.publishCapacity_sameLinks v).trans hraised
  have hch : (w.channelFails p c bad).channel p c = (w.putChannel p c x).channel p c := by
    rw [State.channel, hlinks, hu, State.showPair_links, State.channel]
  rw [hch, hstate, hbad, hx]
  exact ⟨rfl, rfl⟩

theorem State.channelFails_retired (w : State) {bad : List Nat} (h : 4 < bad.length)
    (hd : ∃ d, d < bundleSize (p / 20) (p % 20) ∧ d ≠ c ∧ (w.channel p d).state ≠ 2) :
    ((w.channelFails p c bad).channel p c).state = 2 ∧ ((w.channelFails p c bad).channel p c).bad = bad := by
  obtain ⟨x, hx⟩ : ∃ x, x = { w.channel p c with state := 2, bad := bad, naks := [] } := ⟨_, rfl⟩
  obtain ⟨hstate, hbad, -, hothers, -⟩ := w.putChannel_spec p c x
  obtain ⟨u, hu⟩ : ∃ u, u = (w.putChannel p c x).showPair p := ⟨_, rfl⟩
  obtain ⟨v, hv⟩ : ∃ v, v = (u.raise 0x3407 2 31 [.v 16 p, .v 16 c, .v 32 (u.pairChannels p)]).publishCapacity := ⟨_, rfl⟩
  have heq : w.channelFails p c bad = if v.bundleGone p then v.bundleEmpty p else v := by
    rw [hv, hu, hx]
    exact if_pos h
  have hlinks : v.links = u.links := by
    rw [hv]
    exact (State.publishCapacity_sameLinks _).trans (State.raise_links _ _ _ _ _)
  have hch : ∀ k, v.channel p k = (w.putChannel p c x).channel p k := fun k => by
    rw [State.channel, hlinks, hu, State.showPair_links, State.channel]
  have hsome : v.bundleGone p = false := by
    obtain ⟨d, hlt, hne, hst⟩ := hd
    have hfew : v.channelsIn p 2 < (List.range (bundleSize (p / 20) (p % 20))).length :=
      List.length_filter_lt_length_iff_exists.mpr ⟨d, List.mem_range.mpr hlt, by rw [hch, hothers d hne]; simpa using hst⟩
    rw [List.length_range] at hfew
    exact beq_eq_false_iff_ne.mpr hfew.ne
  rw [heq, hsome, if_neg Bool.false_ne_true, hch, hstate, hbad, hx]
  exact ⟨rfl, rfl⟩

end Channels

end Sys2Proof.Machine
end

section
/-!
What a recomputed traffic map and the end of a training change of the modules (R367-R372).
-/
namespace Sys2Proof.Machine

/-! What a recomputed traffic map changes of the modules (R368-R370). -/

/-- The modules' records are the same, and of their entries none is changed but the state of a module that was ACTIVE or a spare. -/
structure Remaps (s t : State) : Prop where
  rd : ∀ e el, e ∈ quietEntries → el < 2 ^ 24 → (e = E.moduleState → s.rd e el ≠ 2 ∧ s.rd e el ≠ 3) → t.rd e el = s.rd e el
  modules : t.links.modules = s.links.modules

theorem Quiet.remaps {s t : State} (h : Quiet s t) : Remaps s t := ⟨fun e el he hel _ => h.rd e el he hel, h.modules⟩

theorem Remaps.quiet {s t u : State} (h : Remaps s t) (k : Quiet t u) : Remaps s u :=
  ⟨fun e el he hel hst => (k.rd e el he hel).trans (h.rd e el he hel hst), k.modules.trans h.modules⟩

theorem Quiet.publishCapacity (s : State) : Quiet s s.publishCapacity := by
  have hout : ∀ e ∈ quietEntries, e ∉ capacityEntries ++ noteEntries := by decide
  exact ⟨fun e el he hel => s.publishCapacity_only e el hel (hout e he), congrArg Links.modules s.publishCapacity_sameLinks⟩

theorem mem_engineModules {n m : Nat} (hn : n < 8) (h : m ∈ engineModules n) : m < 256 := by
  obtain ⟨k, hk, rfl⟩ := List.mem_map.mp h
  have := List.mem_range.mp hk
  omega

/-- The modules of an engine taken into the ACTIVE set or left as spares. -/
def State.activate (s : State) (n : Nat) (act : List Nat) : State :=
  (engineModules n).foldl (fun (s : State) m =>
    if s.rd E.moduleState m = 2 ∨ s.rd E.moduleState m = 3 then s.wr E.moduleState m (if act.contains m then 2 else 3) else s) s

theorem State.activate_remaps (s : State) {n : Nat} (hn : n < 8) (act : List Nat) : Remaps s (s.activate n act) := by
  refine List.foldlRecOn (motive := fun u : State => Remaps s u) _ _ (Quiet.refl s).remaps fun u hu m hm => ?_
  split
  case isTrue hst =>
    refine ⟨fun e el he hel hold => ?_, hu.modules⟩
    have hkeep := hu.rd e el he hel hold
    rw [← hkeep]
    refine State.rd_wr_other _ _ fun hkey => ?_
    obtain ⟨rfl, rfl⟩ := elKey_inj hel (by have := mem_engineModules hn hm; omega) hkey
    obtain ⟨h2, h3⟩ := hold rfl
    rw [hkeep] at hst
    exact hst.elim h2 h3
  case isFalse => exact hu

/-- Ports shed or returned once the map is known (R369, R370). -/
def State.shedOrReturn (s : State) (n cap : Nat) : State :=
  let up := s.unshedPorts n
  let gone := s.shedList cap up.reverse (s.rateSum up)
  let shed := (enginePorts n).filter (fun p => s.portExists p && s.rd E.portState p == 3)
  let back := if gone.isEmpty then s.returnList cap shed (s.rateSum up) else []
  if !gone.isEmpty then
    let s := gone.foldl (fun (s : State) p => s.portDown p 3 4) s
    let k := shed.length + gone.length
    ((s.wr E.portsShed n k).raise 0x3403 2 n [.v 16 n, .v 32 gone.length, .v 32 cap]).publishCapacity
  else if !back.isEmpty then
    let s := back.foldl (fun (s : State) p => s.wr E.portState p 1) s
    ((s.wr E.portsShed n (shed.length - back.length)).raise 0x3404 0 n [.v 16 n, .v 32 back.length]).publishCapacity
  else s.wr E.portsShed n shed.length

theorem State.remap_eq (s : State) (n : Nat) : s.remap n = (((s.activate n (s.activeSet n (s.rateSum (s.demandPorts n)))).wr E.engineCapacity n
    (s.engineCap n)).wr E.engineDemand n (s.rateSum (s.demandPorts n))).shedOrReturn n (s.engineCap n) := rfl

theorem Quiet.shedOrReturn (s : State) {n : Nat} (hn : n < 8) (cap : Nat) : Quiet s (s.shedOrReturn n cap) := by
  have hshed : ∀ (u : State) (k : Nat), Quiet u (u.wr E.portsShed n k) := fun u _ => Quiet.wr_other u _ (by decide) (by omega)
  have htold : ∀ (u : State) (k code sev src : Nat) (ctx : List Item), Quiet u ((u.wr E.portsShed n k).raise code sev src ctx).publishCapacity :=
    fun u k _ _ _ _ => ((hshed u k).trans (Quiet.raise ..)).trans (Quiet.publishCapacity _)
  have hback : ∀ (l : List Nat) (k k' : Nat) (ctx : List Item), Quiet s (if !l.isEmpty then
      (((l.foldl (fun (s : State) p => s.wr E.portState p 1) s).wr E.portsShed n k).raise 0x3404 0 n ctx).publishCapacity
      else s.wr E.portsShed n k') := fun l k k' ctx => by
    split
    · exact (Quiet.foldl (fun t p => Quiet.wr t (e := E.portState) p 1 (by decide)) l s).trans (htold ..)
    · exact hshed _ _
  unfold State.shedOrReturn
  dsimp only
  split
  · exact (Quiet.foldl (fun t p => Quiet.portDown t p 3 4) _ _).trans (htold ..)
  · exact hback _ _ _ _

theorem State.remap_remaps (s : State) {n : Nat} (hn : n < 8) : Remaps s (s.remap n) := by
  have hshown : ∀ (u : State) (cap want : Nat), Quiet u ((u.wr E.engineCapacity n cap).wr E.engineDemand n want) := fun u _ _ =>
    (Quiet.wr_other u _ (by decide) (by omega)).trans (Quiet.wr_other _ _ (by decide) (by omega))
  rw [State.remap_eq]
  exact ((s.activate_remaps hn _).quiet (hshown ..)).quiet (Quiet.shedOrReturn _ hn _)

section Modules
variable {m : Nat} {s : State}

theorem State.ucie_congr {t : State} (h : t.links.modules = s.links.modules) (m : Nat) : t.ucie m = s.ucie m := by
  rw [State.ucie, State.ucie, h]

theorem State.ucie_setUcie (s : State) (m : Nat) (x : Ucie) : (s.setUcie m x).ucie m = x := by
  unfold State.setUcie State.ucie
  dsimp only
  split
  case isTrue h => rw [h, Tab.getD, Tab.get_del_same]; rfl
  case isFalse h => exact Tab.getD_set_same ..

/-- A module that is neither ACTIVE nor a spare stands as it stood after the map is recomputed. -/
theorem State.rd_remap_module (w : State) (hm : m < 256) (hst : w.rd E.moduleState m ≠ 2 ∧ w.rd E.moduleState m ≠ 3) {e el : Nat}
    (he : e ∈ quietEntries) (hel : e = E.moduleState → el = m) (hlt : el < 2 ^ 24) : (w.remap (m / 32)).rd e el = w.rd e el :=
  (w.remap_remaps (show m / 32 < 8 by omega)).rd e el he hlt fun h => by rw [h, hel h]; exact hst

theorem State.ucie_remap (w : State) (hm : m < 256) : (w.remap (m / 32)).ucie m = w.ucie m :=
  State.ucie_congr (w.remap_remaps (show m / 32 < 8 by omega)).modules m

/-! Training (R361, R367, R384). -/

theorem Quiet.logWidth (s : State) (r : Nat) : Quiet s (s.logWidth r) :=
  ((Quiet.wr s _ _ (by decide)).trans (Quiet.wr _ _ _ (by decide))).trans (Quiet.raise ..)

/-- The end of a training writes of the modules' entries the outcome of a MODULE_RETRAIN only. -/
theorem State.rd_trainEnds (s : State) (m w : Nat) {e el : Nat} (he : e ∈ quietEntries) (hne : e ≠ E.moduleRetrainStatus) (hel : el < 2 ^ 24) :
    (s.trainEnds m w).rd e el = s.rd e el := by
  have hstatus : ∀ (u : State) (v : Nat), (u.wr E.moduleRetrainStatus 0 v).rd e el = u.rd e el := fun u v =>
    State.rd_wr_other _ _ (elKey_ne_of_entry_ne hne hel (by decide))
  have hend : ∀ (u : State), (if !(s.ucie m).asked then u else if w = 0 then u.free.2.wr E.moduleRetrainStatus 0 (u.free.1 % 256)
      else u.wr E.moduleRetrainStatus 0 0).rd e el = u.rd e el := fun u => by
    split
    · rfl
    · split
      · exact hstatus _ _
      · exact hstatus _ _
  unfold State.trainEnds
  refine (hend _).trans ?_
  split
  · exact (Quiet.logWidth _ _).rd e el he hel
  · rfl

theorem Quiet.publishOnce (s before : State) : Quiet s (s.publishOnce before) := by
  unfold State.publishOnce
  split
  · exact Quiet.publishCapacity s
  · exact Quiet.refl s

theorem State.moduleFails_spec (s : State) (hm : m < 256) : (s.moduleFails m).rd E.moduleState m = 5 ∧ (s.moduleFails m).rd E.moduleWidth m = 0 := by
  obtain ⟨w, hw⟩ : ∃ w, w = (s.wr E.moduleState m 5).wr E.moduleWidth m 0 := ⟨_, rfl⟩
  obtain ⟨u, hu⟩ : ∃ u, u = (w.raise 0x3402 2 (m / 32) [.v 16 m]).trainEnds m 0 := ⟨_, rfl⟩
  have heq : s.moduleFails m = (u.remap (m / 32)).publishOnce w := by rw [hu, hw]; rfl
  have hrd : ∀ e, e ∈ quietEntries → e ≠ E.moduleRetrainStatus → u.rd e m = w.rd e m := fun e he hne => by
    rw [hu, State.rd_trainEnds _ _ _ he hne (by omega)]
    exact (Quiet.raise w _ _ _ _).rd e m he (by omega)
  have hfive : u.rd E.moduleState m = 5 := by
    rw [hrd _ (by decide) (by decide), hw, State.rd_wr_other _ _ (elKey_ne_of_entry (by decide) m), State.rd_wr_same]
  have hzero : u.rd E.moduleWidth m = 0 := by rw [hrd _ (by decide) (by decide), hw, State.rd_wr_same]
  have hst : u.rd E.moduleState m ≠ 2 ∧ u.rd E.moduleState m ≠ 3 := by rw [hfive]; decide
  have hend : ∀ e, e ∈ quietEntries → (s.moduleFails m).rd e m = u.rd e m := fun e he => by
    rw [heq, (Quiet.publishOnce _ _).rd e m he (by omega), u.rd_remap_module hm hst he (fun _ => rfl) (by omega)]
  exact ⟨(hend _ (by decide)).trans hfive, (hend _ (by decide)).trans hzero⟩

end Modules

end Sys2Proof.Machine
end

section
/-!
Modules and stitch channels: the commands (R361-R382).
-/
namespace Sys2Proof.Machine

/-! The commands of modules (R361-R372, R384). -/

section ModuleCommands
variable {t : Time} {m : Nat} {s : State}

/-- A module that trains within its time takes its outcome. -/
theorem exec_moduleTrained {rate width repairs : Nat} {upper : Bool} (hm : m < 256) (hst : s.rd E.moduleState m = 1 ∨ s.rd E.moduleState m = 4)
    (htime : t ≤ (s.ucie m).since + 150 * us) : exec (.moduleTrained t m rate width upper repairs) s = .next (
      if rate < 32 ∨ (min width (s.ucie m).most ≠ 64 ∧ min width (s.ucie m).most ≠ 32) then (s.begin t).moduleFails m
      else ((if min width (s.ucie m).most = 32 ∧ s.rd E.moduleState m = 4 then
        ((((s.begin t).wr E.moduleState m 3).wr E.moduleWidth m (min width (s.ucie m).most)).wr E.moduleRepairs m repairs).raise 0x3401 1
          (m / 32) [.v 16 m, .v 8 (b2n upper)]
        else (((s.begin t).wr E.moduleState m 3).wr E.moduleWidth m (min width (s.ucie m).most)).wr E.moduleRepairs m repairs).trainEnds m
          (min width (s.ucie m).most)).remap (m / 32)) := by
  refine next_congr (if_neg ?_)
  rintro (h | ⟨h1, h4⟩ | h)
  · omega
  · exact hst.elim h1 h4
  · exact absurd h (Nat.not_lt.mpr htime)

theorem State.trained_spec (s : State) (w repairs : Nat) {u : State} {P : Prop} [Decidable P] {sev src : Nat} {ctx : List Item} (hm : m < 256)
    (hu : u = if P then (((s.wr E.moduleState m 3).wr E.moduleWidth m w).wr E.moduleRepairs m repairs).raise 0x3401 sev src ctx
      else ((s.wr E.moduleState m 3).wr E.moduleWidth m w).wr E.moduleRepairs m repairs) :
    u.rd E.moduleState m = 3 ∧ u.rd E.moduleWidth m = w ∧ u.rd E.moduleRepairs m = repairs := by
  obtain ⟨v, hv⟩ : ∃ v, v = ((s.wr E.moduleState m 3).wr E.moduleWidth m w).wr E.moduleRepairs m repairs := ⟨_, rfl⟩
  have hquiet : Quiet v u := by
    rw [hu, ← hv]
    split
    · exact Quiet.raise ..
    · exact Quiet.refl v
  have hrd : ∀ e ∈ quietEntries, u.rd e m = v.rd e m := fun e he => hquiet.rd e m he (by omega)
  refine ⟨?_, ?_, ?_⟩
  · rw [hrd _ (by decide), hv, State.rd_wr_other _ _ (elKey_ne_of_entry (by decide) m), State.rd_wr_other _ _ (elKey_ne_of_entry (by decide) m),
      State.rd_wr_same]
  · rw [hrd _ (by decide), hv, State.rd_wr_other _ _ (elKey_ne_of_entry (by decide) m), State.rd_wr_same]
  · rw [hrd _ (by decide), hv, State.rd_wr_same]

theorem exec_moduleTrainTimeout (hm : m < 256) (hst : s.rd E.moduleState m = 1 ∨ s.rd E.moduleState m = 4) :
    exec (.moduleTrainTimeout t m) s = .next (if t < (s.ucie m).since + 150 * us then s.begin t else (s.begin t).moduleFails m) := by
  have hgo : (256 ≤ m ∨ (s.rd E.moduleState m ≠ 1 ∧ s.rd E.moduleState m ≠ 4) ∨ t < (s.ucie m).since + 150 * us)
      ↔ t < (s.ucie m).since + 150 * us := by
    refine ⟨?_, fun h => Or.inr (Or.inr h)⟩
    rintro (h | ⟨h1, h4⟩ | h)
    · omega
    · exact absurd hst (not_or.mpr ⟨h1, h4⟩)
    · exact h
  exact next_congr (if_congr hgo rfl rfl)

theorem Quiet.resendLane (s : State) (m : Nat) : Quiet s (s.resendLane m) := by
  refine Quiet.foldl (fun u dir => ?_) _ _
  split
  · exact Quiet.of_regs rfl rfl
  · exact Quiet.refl u

theorem exec_failedLane {n : Nat} (hm : m < 256) (hst : s.rd E.moduleState m = 2 ∨ s.rd E.moduleState m = 3) :
    ∃ u, exec (.failedLane t m n) s = .next u ∧ u.rd E.moduleState m = 4 ∧ (u.ucie m).since = t ∧
      u.rd E.moduleReplays m = (s.rd E.moduleReplays m + n) % 2 ^ 64 := by
  obtain ⟨w, hw⟩ : ∃ w, w = ((s.begin t).bump E.moduleReplays m n).wr E.moduleState m 4 := ⟨_, rfl⟩
  obtain ⟨v, hv⟩ : ∃ v, v = w.countEvent (8 * (m / 32) + 4) 0x38 (m % 32) 0 n := ⟨_, rfl⟩
  have hgo : ¬(256 ≤ m ∨ (s.rd E.moduleState m ≠ 2 ∧ s.rd E.moduleState m ≠ 3)) := by
    rintro (h | ⟨h2, h3⟩)
    · omega
    · exact hst.elim h2 h3
  have hrun : exec (.failedLane t m n) s = .next (((v.setUcie m { v.ucie m with since := t }).remap (m / 32)).resendLane m) := by
    rw [hv, hw]
    exact next_congr (if_neg hgo)
  have hcount : Quiet w v := hv ▸ Quiet.countEvent ..
  have hstate : v.rd E.moduleState m = 4 := by
    rw [hcount.rd _ m (by decide) (by omega), hw, State.rd_wr_same]
  have hreplays : v.rd E.moduleReplays m = (s.rd E.moduleReplays m + n) % 2 ^ 64 := by
    rw [hcount.rd _ m (by decide) (by omega), hw, State.rd_wr_other _ _ (elKey_ne_of_entry (by decide) m), State.rd_bump_same]
    rfl
  have hmap : ∀ e ∈ quietEntries, (((v.setUcie m { v.ucie m with since := t }).remap (m / 32)).resendLane m).rd e m = v.rd e m := fun e he => by
    rw [(Quiet.resendLane _ m).rd e m he (by omega)]
    exact State.rd_remap_module (v.setUcie m { v.ucie m with since := t }) hm
      ⟨(ne_of_eq_of_ne hstate (by decide) : v.rd E.moduleState m ≠ 2), (ne_of_eq_of_ne hstate (by decide) : v.rd E.moduleState m ≠ 3)⟩ he
      (fun _ => rfl) (by omega)
  refine ⟨_, hrun, (hmap _ (by decide)).trans hstate, ?_, (hmap _ (by decide)).trans hreplays⟩
  rw [State.ucie_congr (Quiet.resendLane _ m).modules, State.ucie_remap _ hm, State.ucie_setUcie]

/-! Training from scratch (R371, R372). -/

theorem State.retrain_spec (s : State) (x : Ucie) (hm : m < 256) : (s.retrain m x).rd E.moduleState m = 1 ∧ (s.retrain m x).rd E.moduleRepairs m = 0 ∧
    (s.retrain m x).ucie m = { x with since := s.now } ∧
    (s.retrain m x).rd E.moduleRetrainStatus 0 = s.rd E.moduleRetrainStatus 0 := by
  obtain ⟨w, hw⟩ : ∃ w, w = (((s.wr E.moduleState m 1).wr E.moduleRepairs m 0).setUcie m { x with since := s.now }) := ⟨_, rfl⟩
  have heq : s.retrain m x = w.remap (m / 32) := by rw [hw]; rfl
  have hset : ∀ e el, w.rd e el = ((s.wr E.moduleState m 1).wr E.moduleRepairs m 0).rd e el := fun e el => by rw [hw]; rfl
  have hone : w.rd E.moduleState m = 1 := by
    rw [hset, State.rd_wr_other _ _ (elKey_ne_of_entry (by decide) m), State.rd_wr_same]
  have hst : w.rd E.moduleState m ≠ 2 ∧ w.rd E.moduleState m ≠ 3 := by rw [hone]; decide
  rw [heq, State.ucie_remap _ hm, State.rd_remap_module w hm hst (by decide) (fun _ => rfl) (by omega),
    State.rd_remap_module w hm hst (by decide) (fun _ => rfl) (by omega), State.rd_remap_module w hm hst (by decide) (fun h => absurd h (by decide)) (by decide)]
  refine ⟨hone, by rw [hset, State.rd_wr_same], by rw [hw, State.ucie_setUcie], ?_⟩
  rw [hset, State.rd_wr_other _ _ (elKey_ne_of_entry_ne (by decide) (by decide) (by omega)),
    State.rd_wr_other _ _ (elKey_ne_of_entry_ne (by decide) (by decide) (by omega))]

theorem retrainRule_lt (h : retrainRule m s = .ok) : m < 256 := by
  by_contra hge
  rw [retrainRule, if_pos (Nat.not_lt.mp hge)] at h
  cases h

theorem exec_moduleRetrain {a : Access} (ht : s.Takes a E.moduleRetrain 0 2 m true) (hrule : retrainRule m (s.begin a.t) = .ok)
    (hst : s.rd E.moduleState m ≠ 0) : exec (.moduleRetrain a m) s
      = .next ((((s.commitAt a).wr E.moduleRetrainStatus 0 0xFF).retrain m { asked := true }).answerItem stOk) := by
  have hm := retrainRule_lt hrule
  have hcommit : (s.commitAt a).rd E.moduleState m = s.rd E.moduleState m := State.rd_commitAt_of_entry s a (by decide) (by decide) (by omega)
  refine next_congr ((State.writeOne_ok (rule := retrainRule m) ht hrule).trans (congrArg (State.answerItem · stOk) (if_neg ?_)))
  rw [hcommit]
  exact hst

theorem exec_moduleRetrain_busy {a : Access} (ht : s.Takes a E.moduleRetrain 0 2 m true) (hm : m < 256)
    (hst : s.rd E.moduleState m = 1 ∨ s.rd E.moduleState m = 4) : exec (.moduleRetrain a m) s = .next ((s.begin a.t).answerItem stRefused) := by
  have hrule : retrainRule m (s.begin a.t) = .refused 0 0 :=
    (if_neg (by omega)).trans (if_pos (hst.elim Or.inl fun h => Or.inr (Or.inl h)))
  exact next_congr (State.writeOne_refused (rule := retrainRule m) ht hrule)

theorem exec_widthExchange {e x y : Nat} (hm : m < 256) (h2 : 2 ≤ s.rd E.moduleState m) (h4 : s.rd E.moduleState m ≤ 4) :
    exec (.widthExchange t m e x y) s = .next (if x = y then
      (((s.begin t).wr E.moduleState m 1).setUcie m { s.ucie m with since := t }).remap (m / 32)
      else (s.begin t).retrain m { s.ucie m with most := min x y, log := some (e, x, y, t) }) := by
  refine next_congr (if_neg ?_)
  rintro (h | h | h)
  · omega
  · exact absurd h (Nat.not_lt.mpr h2)
  · exact absurd h (Nat.not_lt.mpr h4)

theorem State.sameWidth_spec (s : State) (x : Ucie) (hm : m < 256) {u : State} (hu : u = ((s.wr E.moduleState m 1).setUcie m x).remap (m / 32)) :
    u.rd E.moduleState m = 1 ∧ u.ucie m = x ∧ u.rd E.moduleRepairs m = s.rd E.moduleRepairs m := by
  obtain ⟨w, hw⟩ : ∃ w, w = (s.wr E.moduleState m 1).setUcie m x := ⟨_, rfl⟩
  have hset : ∀ e el, w.rd e el = (s.wr E.moduleState m 1).rd e el := fun e el => by rw [hw]; rfl
  have hone : w.rd E.moduleState m = 1 := by rw [hset, State.rd_wr_same]
  have hst : w.rd E.moduleState m ≠ 2 ∧ w.rd E.moduleState m ≠ 3 := by rw [hone]; decide
  rw [hu, ← hw, State.ucie_remap _ hm, State.rd_remap_module w hm hst (by decide) (fun _ => rfl) (by omega),
    State.rd_remap_module w hm hst (by decide) (fun _ => rfl) (by omega)]
  exact ⟨hone, by rw [hw, State.ucie_setUcie], by rw [hset, State.rd_wr_other _ _ (elKey_ne_of_entry (by decide) m)]⟩

end ModuleCommands

/-- Settles O47: a recomputed traffic map changes the state of ACTIVE and spare modules only, and each part of a link is read back
as its command left it. -/
theorem modulesAndStitchChannels : Obligations.ModulesAndStitchChannels := by
  unfold Obligations.ModulesAndStitchChannels
  refine ⟨fun t m rate width upper repairs s hm hst htime => ?_, fun t m s hm hst => ?_, fun m s hm => s.moduleFails_spec hm,
    fun t m n s hm hst => exec_failedLane hm hst, fun a m s ht => ⟨fun hrule hst => ?_, fun hm hst => exec_moduleRetrain_busy ht hm hst⟩,
    fun t m e x y s hm h2 h4 => ?_, fun t p c n s h => ?_, fun t p c s h hst => ⟨fun hmany => ?_, fun hfew => exec_channelTestStart_few hfew⟩,
    fun t p c l s h hst hlate => ?_, fun f htype hseq hack hcredit hlen => stitchOf_bytes htype hseq hack hcredit hlen, Channel.take_spec,
    fun p src s hall hpos => State.channelFor_inService src hall hpos, fun n k l s _ => ?_, fun t k s hk => next_congr (if_pos hk)⟩
  · refine ⟨fun hbad => (exec_moduleTrained hm hst htime).trans (by rw [if_pos hbad]), fun hrate hwidth => ?_⟩
    have hgood : ¬(rate < 32 ∨ (min width (s.ucie m).most ≠ 64 ∧ min width (s.ucie m).most ≠ 32)) := by omega
    exact ⟨_, (exec_moduleTrained hm hst htime).trans (by rw [if_neg hgood]), State.trained_spec (s.begin t) _ _ hm rfl⟩
  · rw [exec_moduleTrainTimeout hm hst]
    exact ⟨fun h => by rw [if_neg (Nat.not_lt.mpr h)], fun h => by rw [if_pos h]⟩
  · obtain ⟨hstate, hrepairs, hucie, hstatus⟩ :=
      ((s.commitAt a).wr E.moduleRetrainStatus 0 0xFF).retrain_spec { asked := true } (retrainRule_lt hrule)
    refine ⟨_, exec_moduleRetrain ht hrule hst, ?_, ?_, congrArg Ucie.asked hucie, ?_⟩
    · rw [State.rd_answerItem, hstate]
    · rw [State.rd_answerItem, hrepairs]
    · rw [State.rd_answerItem, hstatus, State.rd_wr_same]
  · rw [exec_widthExchange hm h2 h4]
    by_cases hxy : x = y
    · obtain ⟨hstate, hucie, hrepairs⟩ := (s.begin t).sameWidth_spec { s.ucie m with since := t } hm rfl
      rw [if_pos hxy]
      exact ⟨_, rfl, hstate, by rw [hucie], fun h => absurd hxy h, fun _ => ⟨by rw [hucie], hrepairs⟩⟩
    · obtain ⟨hstate, hrepairs, hucie, -⟩ := (s.begin t).retrain_spec { s.ucie m with most := min x y, log := some (e, x, y, t) } hm
      rw [if_neg hxy]
      exact ⟨_, rfl, hstate, by rw [hucie]; rfl, fun _ => ⟨by rw [hucie], by rw [hucie], hrepairs⟩, fun h => absurd h hxy⟩
  · refine ⟨_, exec_stitchNak h, State.rd_bump_same .., ?_, ?_, (SameBut.begin _ s t).wr _ (List.mem_singleton.mpr rfl)⟩
    · rw [State.channel_setChannel_same]
      rfl
    · rw [State.channel_setChannel_same]
      rfl
  · obtain ⟨hstate, hbad, hsince, -⟩ := (s.begin t).putChannel_spec p c { s.channel p c with state := 1, since := t, naks := [] }
    exact ⟨_, exec_channelTestStart_many h hst hmany, hstate, hsince, hbad⟩
  · have hrun := exec_channelTestDone (l := l) h hst hlate
    refine ⟨fun heq => ?_, fun hne => hrun.trans (congrArg Host.Outcome.next (if_neg hne)), fun hfew => s.channelFails_repaired hfew,
      fun hmany hd => s.channelFails_retired hmany hd⟩
    obtain ⟨hstate, hbad, htests⟩ := (s.begin t).testClean_spec (p := p) (c := c) (x := { s.channel p c with state := 0 }) (bundleHas_lt h)
    exact ⟨_, hrun.trans (congrArg Host.Outcome.next (if_pos heq)), hstate, hbad.trans heq.symm, htests⟩
  · exact ⟨fun hst hk => State.roundPlaces_spec hst hk, fun hl => l.send_next hl, FlitLane.arrive_wanted, FlitLane.arrive_later⟩

end Sys2Proof.Machine
end
